-- ==== Sys2Proof/Word.lean ====
section
/-! DEFINITION. The words of the part: 32-bit registers (R5), bytes, and the bit strings of the wires. -/

namespace Sys2Proof

/-- One register, or one bus word (R5). -/
abbrev Word := BitVec 32

/-- One byte of memory, of an image or of a frame. -/
abbrev Byte := BitVec 8

/-- One car link frame, first sent bit most significant (R42). -/
abbrev LinkFrame := BitVec 2000

end Sys2Proof
end

