-- ==== Sys2Proof/Config.lean ====
section
/-! DEFINITION. What the spec leaves to an implementation, to a standard outside it, or open: constants without a body.
Nothing can evaluate one, so a statement holds for every value of it (log entries 3 and 6). -/

namespace Sys2Proof.Config

/-- A value the spec does not state, fresh for each counter reading (log entry 3). -/
opaque freeValue : Nat → Nat

/-- SYS_REVID.step: per silicon (spec/03, register table). -/
opaque siliconStep : Nat

/-- AES-CMAC (NIST SP 800-38B) of a byte string under a key's bytes: 128 bits (R145, R303, R376, R419). -/
opaque cmac : List Byte → List Byte → List Byte

/-- SHA-256, SHA-384 and SHA-512 by algorithm code 1, 2, 3 (R148, R434). -/
opaque sha : Nat → List Byte → List Byte

/-- ECDSA P-384 verification of signature r, s over a digest with public key x, y (R148, FIPS 186-5). -/
opaque ecdsaVerify : List Byte → List Byte → List Byte → List Byte → List Byte → Bool

/-- The content a blob unwraps to under the root and its node generation, when its tag verifies (R408). -/
opaque unwrap : List Byte → List Byte → Option (List Byte)

/-- The wrapped content and tag of a new blob (R405). -/
opaque wrap : List Byte → List Byte → List Byte

/-- The result bytes of a public-key operation on its operand slots, or nothing when the operands are outside the domain (R429, R430). -/
opaque pkeOp : Nat → Nat → List (List Byte) → Option (List Byte)

/-- The output of the DRBG for its n-th call (R436). -/
opaque drbg : Nat → List Byte

end Sys2Proof.Config
end

