-- ==== Sys2Proof/Syntax.lean ====
section
/-! DEFINITION. The commands of the block: one constructor per row of spec/opcode_table.json, with the row's operands, and the
types of those operands. A level, a measured value, a frame or a message that comes from outside is an operand. -/

namespace Sys2Proof

/-- The two worlds of the cores (R412). -/
inductive World where
  | normal | secure
deriving DecidableEq, Repr

/-- Who makes an access to a register or to memory (R198, R357, R363, R530). A core access carries its core and world; a host
or a debug access no core executes carries none, nor does a lodger, which acts in its engine context. -/
inductive Requester where
  | core (c : Nat) (w : World)
  | pcie
  | qspi
  | debug (w : World)
  | loader
  | lodger (lid : Nat)
  | remote (dev : Nat) (w : World)
deriving DecidableEq, Repr

/-- Which end of a command of HIE_CMD acts (R389): the manager's register write, or the target's received message. -/
inductive HieSide where
  | command (rq : Requester) (w : Word)
  | message
deriving DecidableEq, Repr

/-- Where a PCIe request goes (R356): a BAR, configuration space, the first dword of the MSI-X capability, or the control and status register of
the power management capability. -/
inductive PcieSpace where
  | bar0 | bar2 | bar4 | config | msixCap | pmcsr
deriving DecidableEq, Repr

/-- Boundary-scan instructions (R398): the mandatory ones of IEEE 1149.1, IDCODE, HIGHZ, CLAMP and DBGSEL. -/
inductive ScanInstr where
  | bypass | sample | preload | extest | idcode | highz | clamp | dbgsel
deriving DecidableEq, Repr

/-- The supply rails of R69 (VBAT belongs to the always-on domain). -/
inductive Rail where
  | vcore | io0 | aux | io1 | io2 | io3 | tbank (b : Nat) | sds | ddq | t1s | adc
deriving DecidableEq, Repr

/-- The clock sources outside the root PLL whose loss R83 names. -/
inductive SidePll where
  | ddr | sds (g : Nat) | pcieRef
deriving DecidableEq, Repr

/-- The two car link ports (R40). -/
inductive LinkSide where
  | a | b
deriving DecidableEq, Repr

/-- A Waybill (R189): the descriptor of a frame in Hostel pages, or of an inline record of the part itself, on its way through
the switch core. -/
structure Waybill where
  /-- ingress port 0 to 19 -/
  src : Nat
  /-- source tile for port 17; 63 for none -/
  tile : Nat := 63
  tc : Nat := 0
  lossless : Bool := false
  inline : Bool := false
  late : Bool := false
  authok : Bool := false
  /-- owning lodger, where the lodger field is valid -/
  lodger : Option Nat := none
  /-- structure generation at ingress (R174) -/
  gen : Nat := 0
  graph : Nat := 0
  /-- destination ports, one bit each -/
  dmask : Nat := 0
  /-- sub-destinations of port 17, and the CPU ring of port 16 with the world in bit 4 (R211, R244) -/
  dsub : List Nat := []
  ring : Nat := 0
  /-- VLAN identifier after classify -/
  vid : Nat := 0
  len : Nat := 0
  /-- pages held, in chain order -/
  pages : List Nat := []
  /-- the data of an inline Waybill -/
  data : List Byte := []
  /-- stamp at ingress: seconds in [63:32], nanoseconds in [29:0] (R319) -/
  time : Nat := 0
deriving DecidableEq, Repr

/-- What an item is (R191, R270, R276): a Waybill queued for the lodger, the timeout of a source, a cyclic time or a deferred send
of an output record. -/
inductive ItemWork where
  | frame (w : Waybill)
  | timeout (src : Nat)
  | cyclic (out : Nat)
  | deferred (out : Nat)
deriving DecidableEq, Repr

/-- One request presented to the page arbiter in a cycle (R181): requester index 0 to 20, class, and whether its frame is lossless. Of
index 17 also its source: tile 0 to 47, the car link block 48, the transcriber 49. -/
structure PageReq where
  idx : Nat
  tc : Nat
  lossless : Bool
  src : Nat := 0
deriving DecidableEq, Repr

/-- A CAN frame as the bus carries it (R288): identifier, formats (0 classical, 1 FD, 2 XL), flags, XL fields, data. -/
structure CanFrame where
  id : Nat
  ide : Bool := false
  rtr : Bool := false
  fmt : Nat := 0
  brs : Bool := false
  esi : Bool := false
  sec : Bool := false
  sdt : Nat := 0
  vcid : Nat := 0
  af : Nat := 0
  data : List Byte := []
deriving DecidableEq, Repr

/-- A character as a UART or HDLC receiver has sampled it (R331): its data bits, its parity bit, its first stop bit, and the CK_SLOW cycles since
the edge of its start bit. -/
structure UartChar where
  data : Byte
  par : Bool := false
  stop : Bool := true
  ago : Nat := 0
deriving DecidableEq, Repr

/-- The error conditions of ISO 11898-1's fault confinement (R299): a receiver's error; its error that keeps its counter (a bit error
in its own flag counts as `rxFlag`); a dominant bit after its error flag; a transmitter's error; the two exceptions that leave TEC;
a bit error in a transmitter's flag; each further 8 dominant bits after a flag, for either; an XL frame seen by an FD tile (R294); and a
receiver's and a transmitter's error in an XL frame (R282). -/
inductive CanErr where
  | rx | rxAfterFlag | rxFlag | tx | txAckPassive | txStuffArb | txFlag | txDominant | rxDominant | xlSeen | xlRx | xlTx
deriving DecidableEq, Repr

/-- One command of the block: an event on a pin, a clock or a bus, the end of a timer or of an engine's work, or a register access. -/
inductive Instr where
  /-- R73: Power-on reset releases after VDD_CORE and VDDIO0 have stayed above their fail thresholds for 2.0 ms, and the mode becomes BARE. -/
  | powerOnResetRelease (role boot : Nat) (wpol : Bool)
  /-- R73: VDD_CORE or VDDIO0 falls below its fail threshold, power-on reset is asserted, and the part enters BACKUP or OFF. -/
  | powerOnResetAssert (rail : Rail) (vbatOk : Bool)
  /-- R112: The always-on domain powers up from no supply, resets its registers and log, and sets AON_STATUS.aonpor. -/
  | aonDomainPowerUp (fromVbat : Bool)
  /-- R116: The always-on domain loses its last supply with VBAT below 2.0 V and the mode counts as OFF. -/
  | aonSupplyLoss
  /-- R77: The amplitude detector reports xamp and the root PLL starts once power-on reset is released and VDD_AUX is valid. -/
  | xinAmplitudeGood
  /-- R41: The stability detector declares XIN stable; both car link ports raise DE, start hunting and start sending frames. -/
  | xinStable
  /-- R79: The root PLL locks, the main-clock dividers are released from one common clear and the cores start the boot ROM. -/
  | rootPllLock (us : Nat)
  /-- R83: The root PLL loses lock; a loss that ends within 1 µs has no effect. -/
  | rootPllLockLoss
  /-- R83: A root PLL lock loss lasting 1 µs acts as a full reset with the reach of RESET_N and records the cause. -/
  | clockFault
  /-- R83: A DDR or SerDes PLL loses lock or the PCIe reference is lost, stopping dependent units, setting CKR_EVT and raising event 8. -/
  | pllLockLossOther (p : SidePll)
  /-- R72: A rail crosses its warn threshold, setting its SYS_SUPPLY bit and raising event 4. -/
  | railWarnCrossing (r : Rail)
  /-- R72: A rail other than VDD_CORE and VDDIO0 falls below its fail threshold, clearing its SYS_RAILOK bit and stopping its bank or block. -/
  | railFailCrossing (r : Rail)
  /-- R501: A rail's valid detector reports it valid after classification or recovery above its threshold plus hysteresis. -/
  | railValid (r : Rail) (classMv : Option Nat)
  /-- R106: The PCIe reference has been present without interruption for 1 ms and DEGRADED cause 7 clears. -/
  | pcieRefStable
  /-- R74: Filtered PFAIL_N falls, setting SYS_SUPPLY.pfail and raising event 4. -/
  | pfailFall
  /-- R111: PFAIL_N has read high for PWR_SHED.restore ms, shed becomes 0 and the shed ports come back up. -/
  | pfailRestoreExpiry
  /-- R85: A filtered low on RESET_N starts a full reset. -/
  | resetNAssert
  /-- R85: Filtered RESET_N returns high and the hold of the full reset ends. -/
  | resetNRelease
  /-- R85: The internal full reset of at least 10 µs ends, the part is in BARE and the boot proceeds from root PLL lock. -/
  | fullResetEnd
  /-- R89: SYS_RSTCTL action 1 with the key, from the secure world, performs a full reset. -/
  | systemSoftwareReset (rq : Requester) (key : Nat)
  /-- R89: SYS_RSTCTL action 2 with the key performs a normal world reset. -/
  | normalWorldResetCmd (rq : Requester) (key : Nat)
  /-- R89: SYS_RSTCTL action 3 with the key, from the secure world, performs a secure world reset. -/
  | secureWorldResetCmd (rq : Requester) (key : Nat)
  /-- R87: A write of 0xA55A to SYS_WDN_KICK restarts the normal watchdog count. -/
  | normalWatchdogKick (rq : Requester) (key : Nat)
  /-- R87: A write of 1 to SYS_WDN_CTL.en enables the normal watchdog, which then cannot be stopped. -/
  | normalWatchdogEnable (rq : Requester) (w : Word)
  /-- R87: The normal watchdog expires; the first expiry raises event 9 and restarts, the second performs a normal world reset. -/
  | normalWatchdogExpiry
  /-- R88: A secure-world write of 0xA55A to SYS_WDS_KICK restarts the secure watchdog. -/
  | secureWatchdogKick (rq : Requester) (key : Nat)
  /-- R88: The secure watchdog expires, performs a secure world reset, raises event 10 and restarts its count. -/
  | secureWatchdogExpiry
  /-- R91: With the root PLL locked, the boot rails valid, valid straps and fewer than four failed boots, the mode moves from BARE to LOADING. -/
  | loadingEntry
  /-- R90: Invalid straps or PWR_BOOTTRY.n = 4 send the part from BARE to QUARANTINE without reading an image. -/
  | bootQuarantine
  /-- R152: With the header read, the loader checks magic, hdr_crc and header fields, then raises the flash clock. -/
  | imageHeaderCheck (hdr : List Byte)
  /-- R152: The image has been read and hashed to image_len; the loader checks signature, sections and tamper policy and enters BUILDING or fails. -/
  | imageVerify (img : List Byte)
  /-- R155: In BUILDING the loader initialises LPDDR4, places tables, sets quotas, forms tiles, creates lodgers, resolves keys and preloads registers. -/
  | build (ddrOk : Bool)
  /-- R156: In one CK_FAB cycle every shadow register becomes active, the mode changes to SERVICE, DEGRADED or WORKSHOP and the cut-over actions begin. -/
  | cutOver
  /-- R93: A used tile reaches its start time, 200 µs × rank after the cut-over or wake, and starts. -/
  | tileStart (n : Nat)
  /-- R93: A starting CAN tile has seen 11 consecutive recessive bits and enters error active. -/
  | canIntegrationDone (n : Nat)
  /-- R94: On each CK_TICK millisecond m = 0 to 50 after the cut-over each port's shared-pool allowance is recomputed. -/
  | allowanceRampTick
  /-- R95: A worker or standby sends JOIN after its drawn delay and again every 250 ms until admitted. -/
  | joinSend
  /-- R165: A flashless part takes an image chunk from the manager, checks piece 0 first and hashes the contiguous prefix. -/
  | imagePieceReceive
  /-- R385: 20 ms after the last useful chunk a flashless part requests the missing pieces again. -/
  | imageRerequestTimeout
  /-- R384: A manager receives an IMAGE_BLOCK op 1 request and serves the pieces as chunks to all. -/
  | imageBlockRequest (img : List Byte)
  /-- R25: A level change at WIRE_IN[n] reaches WIRE_OUT[n] combinationally through the merge term. -/
  | wireInChange (n : Nat) (level : Bool)
  /-- R47: A local input has held its new level for the debounce time and enters the debounced state. -/
  | wireDebounceExpiry (n : Nat)
  /-- R32: A queued wire record, once its origin word has arrived, is issued as an inline Waybill into the switch core at port 17. -/
  | wireRecordIssue
  /-- R57: In HUNT an exact sync match opens a candidate, dropping the oldest when four are open. -/
  | carlinkHuntSync (p : LinkSide) (bit : Nat)
  /-- R58: A candidate's header is judged; after three valid frames in a row the receiver enters LOCKED and raises event 32. -/
  | carlinkCandidateFrame (p : LinkSide) (bit : Nat) (f : LinkFrame)
  /-- R59: In LOCKED a frame at the expected position is accepted or counted bad. -/
  | carlinkFrameReceive (p : LinkSide) (f : LinkFrame)
  /-- R60: In RELOCK a valid sync within 2040 bits becomes the new phase and the receiver returns to LOCKED. -/
  | relockSync (p : LinkSide) (off : Nat) (f : LinkFrame)
  /-- R60: No valid sync within 2040 bits in RELOCK sends the receiver to HUNT with the actions of lock loss. -/
  | relockTimeout (p : LinkSide)
  /-- R55: A transmitter starts a frame, slaved or free-running, with its header, wire states, alarms, origins and message area. -/
  | carlinkFrameSend (p : LinkSide) (incoming : Option LinkFrame)
  /-- R60: After the realign frame and logic-1 gap the transmitter starts slaved frames at the slaved start point. -/
  | rephaseStart (p : LinkSide)
  /-- R66: A write of LNK_MSGTXA or LNK_MSGTXB with go makes a message pending, or is refused. -/
  | lnkMsgtxGo (rq : Requester) (p : LinkSide) (w : Word)
  /-- R108: A keyed PWR_MODEREQ write requests STANDBY and is checked, refused or accepted. -/
  | standbyRequest (rq : Requester) (w : Word)
  /-- R108: All cores have entered their wait state; the part places LPDDR4 in self-refresh, stops CK_TICK and the root PLL, and enters STANDBY. -/
  | standbyEntryComplete
  /-- R108: The cores have not all entered wait within 10 ms of acceptance and the request is refused with why 5. -/
  | standbyCoreWaitTimeout
  /-- R110: A wake source, RTC alarm or DEGRADED cause restarts the root PLL, advances the time base and resumes the cores. -/
  | standbyExit (refCycles : Nat)
  /-- R107: A restarted world writes its PWR_READY bit, clearing DEGRADED cause 8 or 9. -/
  | pwrReadyWrite (rq : Requester) (w : Word)
  /-- R112: A main-domain write reaches the always-on domain and AON_STATUS.busy clears. -/
  | aonWriteTransit
  /-- R113: The RTC seconds count advances; the RTC alarm fires when it reaches AON_RTCALM. -/
  | rtcSecond
  /-- R113: A secure-world write sets the RTC seconds count and zeroes its fraction. -/
  | aonRtcset (rq : Requester) (w : Word)
  /-- R114: An enabled WAKE pin has held its asserted level for 10 ms and fires a WAKE alarm. -/
  | wakePinFire (n : Nat)
  /-- R115: TAMPER_N held low for 1 ms with the input enabled sets the tamper latch and fires a TAMPER alarm. -/
  | tamperFire
  /-- R115: A secure-world write of 1 to AON_TAMPER.latch clears it, in GARNET only in WORKSHOP. -/
  | tamperLatchClear (rq : Requester)
  /-- R116: Every 32,768 CK_AON cycles VBAT is measured, the low alarm judged and the PWR_REQ inhibit set or cleared. -/
  | vbatMeasure (mv10 : Nat)
  /-- R118: The PWR_REQ hold count expires and PWR_REQ is released unless sw holds it, with a log entry. -/
  | pwrReqHoldExpiry
  /-- R118: A write of 1 to AON_PREQ.rel releases PWR_REQ, clears sw and stops the hold count. -/
  | pwrReqRelease (rq : Requester)
  /-- R118: A write of AON_PREQ.sw keeps PWR_REQ asserted, ignored while the inhibit is set. -/
  | pwrReqSwWrite (rq : Requester) (w : Word)
  /-- R120: A write of 1 to AON_LOGACK sets the unread count of the AON log to 0. -/
  | aonLogack (rq : Requester)
  /-- R166: A write of 1 to IMG_DLTCTL.cmd opens a delta session leased to its opener, or is refused. -/
  | deltaOpen (rq : Requester)
  /-- R167: A write of 1 to IMG_DLTGO by the owner starts a copy of a delta piece into the loader reserve, or is refused. -/
  | deltaDelivery (rq : Requester) (w : Word)
  /-- R167: A delivery copy completes; the head is checked and blocks are checked against their tags. -/
  | deltaDeliveryDone (bad : Nat)
  /-- R168: A write of 2 to IMG_DLTCTL.cmd checks the delta and the merged structure and accepts it for application in RECONFIG or fails it. -/
  | deltaClose (rq : Requester)
  /-- R177: A write of 3 by the owner ends the session before acceptance and discards the delivered bytes. -/
  | deltaAbort (rq : Requester)
  /-- R171: Preparation of the new structure in shadow completes and its checks decide quiesce or rollback. -/
  | deltaPrepareDone
  /-- R172: The loader, waiting for a held block lock during prepare, obtains it when released or expired. -/
  | deltaLockAcquired
  /-- R173: A quiescing tile of DELTA.banks reaches the quiet condition of its function. -/
  | tileQuiet (n : Nat)
  /-- R174: With all tiles quiet, tables built and leases held, the new structure takes effect in one CK_FAB cycle and IMG_RCFG.gen increments. -/
  | deltaCutOver
  /-- R175: No old-generation Waybill remains; the old structure is freed, event 2 is raised and the mode returns. -/
  | deltaDrainEnd
  /-- R181: In one CK_SW cycle the arbiter grants at most one page among guaranteed and pool requests and answers the others. -/
  | pageRequest (reqs : List PageReq)
  /-- R187: A page's reference count reaches 0 and it returns to its set's guarantee or the shared pool. -/
  | pageFree (p : Nat)
  /-- R188: A write to INK_PGREQ requests a leased page chain of n pages, granted or refused whole. -/
  | inkPgreq (rq : Requester) (w : Word)
  /-- R188: A write of a chain's lease number to INK_PGFREE releases the chain. -/
  | inkPgfree (rq : Requester) (n : Nat)
  /-- R199: A write of 1 to SWC_LOCK.take requests the SWC block lock lease. -/
  | swcLockTake (rq : Requester)
  /-- R199: A write of 1 to FWT_LOCK.take requests the FWT block lock lease. -/
  | fwtLockTake (rq : Requester)
  /-- R199: A write of 1 to PKE_LOCK.take requests the PKE job lease. -/
  | pkeLockTake (rq : Requester)
  /-- R201: The owner writes a lease number to INK_LSRENEW to restart its duration, or is refused. -/
  | leaseRenew (rq : Requester) (n : Nat)
  /-- R201: The owner writes a lease number to INK_LSREL to release it, committing staged LK writes. -/
  | leaseRelease (rq : Requester) (n : Nat)
  /-- R202: A lease's duration runs out and its owner is declared failed for that lease. -/
  | leaseExpiry (n : Nat)
  /-- R203: A write to INK_REVOKE declares the named lease, or every lease of its owner, failed, or is refused. -/
  | inkRevoke (rq : Requester) (w : Word)
  /-- R204: Reclaim of the fenced leases of a declaration completes, records are freed and event 16 is raised. -/
  | reclaimDone
  /-- R193: A lodger's period starts and its budget is renewed less any carried overrun. -/
  | lodgerPeriodStart (lid : Nat)
  /-- R191: An item is queued for a lodger with its due time. -/
  | itemRelease (lid : Nat) (w : ItemWork)
  /-- R192: An engine becomes free and the ready lodger with the earliest key is dispatched for one item. -/
  | itemDispatch
  /-- R193: An item finishes on its engine and its cycles are charged to the lodger's budget. -/
  | itemComplete (lid : Nat)
  /-- R194: An item is still unhandled at its due time; counts are kept and event 13 is raised. -/
  | deadlineMiss (lid : Nat)
  /-- R195: A context page-in from LPDDR4 completes and the lodger becomes resident. -/
  | pageInDone (lid us : Nat)
  /-- R196: At each CK_TICK millisecond the fault count is compared with INK_PAGECFG.thr to raise event 14. -/
  | pagingMsCheck
  /-- R208: A frame enters the pipeline as a Waybill and runs the stages of its bound graph. -/
  | frameIngress (p : Nat) (frame : List Byte) (sfd : Nat)
  /-- R306: The authenticate stage checks freshness and MAC through the check-value engine and passes or drops the frame. -/
  | authenticate (bad : Nat)
  /-- R213: A store-and-forward replica joins its egress queue once the whole frame is in the Hostel and its FCS passed. -/
  | frameStored (p : Nat)
  /-- R215: A cut-through replica meets an ingress FCS failure, SDU overrun or lossless page wait and ends with an invalid FCS. -/
  | cutThroughEnd (p why : Nat)
  /-- R220: A free egress port selects the head of its highest eligible class for transmission. -/
  | egressSelection (p : Nat)
  /-- R217: A replica completes at egress and releases its page references. -/
  | transmitDone (p : Nat)
  /-- R222: The operational gate list moves to its next entry or cycle. -/
  | gateEntryChange (p : Nat)
  /-- R222: At the config change time the admin list becomes the operational list and pend clears. -/
  | gateConfigChange (p : Nat)
  /-- R224: A held head frame not started by the end of its first whole gate cycle is discarded and event 30 raised. -/
  | gateHoldDiscard (p c : Nat)
  /-- R227: Every CK_TICK each policer is credited with rate / 1,000,000 bytes up to its burst. -/
  | policerCreditTick
  /-- R225: No frame of a stream has passed for SWC_CBCFG.reset ms and its takeany becomes 1. -/
  | streamResetTimeout (sh : Nat)
  /-- R234: A write to SWC_SNAP copies a port's 16 counters into SWC_SNAPCNT, optionally zeroing them. -/
  | swcSnap (rq : Requester) (w : Word)
  /-- R230: A frame for a receive ring that is not full is written into a slot and the tail advances. -/
  | receiveRingWrite (r : Nat)
  /-- R230: A receive ring raises its interrupt after cnt slots or after its moderation time. -/
  | ringInterrupt (r : Nat)
  /-- R231: The part takes a transmit ring slot, checks its Waybill and runs it through port 16's graph. -/
  | transmitSlotProcess (r : Nat)
  /-- R232: A software access to the Hostel page data or link window is checked against chain leases. -/
  | pageWindowAccess (rq : Requester) (a size : Nat) (v : Option Word)
  /-- R247: Every 4 CK_SW cycles the learner applies one queued learn or move request. -/
  | learnApply
  /-- R248: The ageing scanner deletes expired dynamic local and remote entries once per second. -/
  | ageingScan
  /-- R250: A write of 1 to FWT_RHCTL.go starts a migrate of a bank into the shadow under FWT_SHSEED. -/
  | migrateStart (rq : Requester) (w : Word)
  /-- R250: A migrate completes and the rehash state becomes ready or failed. -/
  | migrateDone
  /-- R250: A write of 1 to FWT_RHCTL.cancel stops the migrate and clears the shadow. -/
  | migrateCancel (rq : Requester) (w : Word)
  /-- R251: The old physical bank has been cleared and the rehash state returns to idle. -/
  | bankClearDone
  /-- R252: A write of FWT_PGO starts the Porter on the operation list under the writer's owner tag. -/
  | porterGo (rq : Requester) (w : Word)
  /-- R253: The Porter applies one operation record, staging or reading, and writes its result. -/
  | porterOperation
  /-- R254: The committed overlay has drained into the tables and FWT_STAT.drain clears. -/
  | overlayDrainDone
  /-- R258: Learning records are sent as a Caravan when 32 wait or 1 ms after the first was queued. -/
  | caravanSend
  /-- R260: The manager merges a received Caravan record by record and queues redistribution. -/
  | caravanMerge
  /-- R261: A worker or standby installs a redistributed Caravan's records as remote entries. -/
  | redistributionInstall
  /-- R262: Every 10 s each part sends or redistributes a learn record for every dynamic entry. -/
  | fullRefresh
  /-- R271: A source timer reaches last reception plus tmo and releases a timer item. -/
  | sourceTimeout (lid e : Nat)
  /-- R269: A frame item unpacks its record's source entries into slots and packs the outputs it triggers. -/
  | frameItem (lid : Nat)
  /-- R276: An output record's cyclic time arrives and a timer item is released or merged. -/
  | cyclicRelease (lid i : Nat)
  /-- R276: An on-change send deferred by minint is released as a timer item at last send plus minint. -/
  | deferredSend (lid i : Nat)
  /-- R361: A write to TRN_SIGSEL snapshots the value and status of the named signal's slot. -/
  | trnSigsel (rq : Requester) (w : Word)
  /-- R287: A received CAN frame becomes valid and is filtered, stored, handed over or placed in the priority buffer. -/
  | canFrameValid (n : Nat) (f : CanFrame) (ago : Nat)
  /-- R289: The tile requests pages and hands a stored frame to port 17 in receive order. -/
  | canHandoff (n : Nat)
  /-- R293: An XL frame is staged directly into Hostel pages and handed over at validity. -/
  | canXlFrameReceive (n : Nat) (f : CanFrame) (ago : Nat) (ok : Bool)
  /-- R299: A protocol error changes TEC or REC and the confinement state. -/
  | canFrameError (n : Nat) (e : CanErr) (code : Nat) (dph : Bool)
  /-- R301: With bor = 2 the bus-off delay expires and recovery begins. -/
  | canBodelayExpiry (n : Nat)
  /-- R301: 128 occurrences of 11 recessive bits complete recovery; counters are zeroed and state 3 entered. -/
  | canRecoveryDone (n : Nat)
  /-- R307: A write of 1 to CAN_CTL.start in state 7 zeroes the counters and integrates again. -/
  | canCtlStart (rq : Requester) (n : Nat)
  /-- R307: A write of 1 to CAN_CTL.stop takes the tile to state 7 after the frame in progress. -/
  | canCtlStop (rq : Requester) (n : Nat)
  /-- R301: A write of 1 to CAN_CTL.recover with bor = 1 starts bus-off recovery. -/
  | canCtlRecover (rq : Requester) (n : Nat)
  /-- R297: At the third intermission bit or on a pending frame on an idle bus the tile chooses the lowest arbitration key. -/
  | canArbitrationChoice (n : Nat)
  /-- R298: A transmission attempt succeeds or fails, setting done, cancelled, drop or retry. -/
  | canTxEnd (n : Nat) (ok : Bool) (meas : Option Nat)
  /-- R295: A free switch-fed buffer takes the head of the tile's highest non-empty port 17 class queue. -/
  | canSwitchBufferLoad (n : Nat)
  /-- R295: A write to CAN_TXREQ makes software-fed buffers pending or refuses bad frames. -/
  | canTxreq (rq : Requester) (n : Nat) (w : Word)
  /-- R298: A write to CAN_TXCAN cancels software-fed buffers. -/
  | canTxcan (rq : Requester) (n : Nat) (w : Word)
  /-- R290: A read of a host-claimed buffer word locks it, and a read of its last word releases it. -/
  | canRxBufferRead (rq : Requester) (n o : Nat)
  /-- R290: A write of a buffer index to CAN_RXREL releases its lock and host claim. -/
  | canRxrel (rq : Requester) (n buf : Nat)
  /-- R292: A write to CAN_PRIOREL releases the priority buffer and moves a shadow frame in. -/
  | canPriorel (rq : Requester) (n : Nat) (w : Word)
  /-- R330: A commander's schedule slot starts and sends its header per slot type. -/
  | linSlotStart (n : Nat)
  /-- R328: A LIN tile receives break, sync and PID and publishes, subscribes or ignores. -/
  | linHeaderReceive (n sync pid : Nat)
  /-- R328: A LIN response completes or its time runs out, with checksum and collision judged. -/
  | linResponseEnd (n : Nat) (bytes : List Byte) (framing readback : Bool) (ago : Nat)
  /-- R330: A write to LIN_SCHED.sel requests a table switch at the end of the current slot. -/
  | linSchedWrite (rq : Requester) (n : Nat) (w : Word)
  /-- R329: A write to the second word of LIN_PUB sets the frame's upd. -/
  | linPubWrite (rq : Requester) (n i k : Nat) (w : Word)
  /-- R326: A serial tile takes a frame from its port 17 queues into its transmit buffer or drops it as bad. -/
  | serialTxDequeue (n : Nat)
  /-- R335: After the turn time a UART or HDLC tile asserts DE and begins transmitting a frame. -/
  | uartTxStart (n : Nat)
  /-- R332: A UART receive frame ends by gap, length, delimiter or DE and is handed over or discarded. -/
  | uartFrameEnd (n : Nat) (chars : List UartChar) (gap : Bool)
  /-- R334: An HDLC frame closed by a flag is checked and handed over or discarded. -/
  | hdlcFrameReceive (n : Nat) (chars : List UartChar)
  /-- R333: Setting UART_SWTX.go sends a software frame at the next frame boundary. -/
  | uartSwtxGo (rq : Requester) (n : Nat) (w : Word)
  /-- R336: A debounced GPIO input change updates GPIO_IN and may be handed over as a frame. -/
  | gpioInputChange (n levels : Nat)
  /-- R324: A write of 1 to SER_CTL.stop stops a serial tile after the frame in progress. -/
  | serCtlStop (rq : Requester) (n : Nat)
  /-- R324: A write of 1 to SER_CTL.start restarts a stopped serial tile. -/
  | serCtlStart (rq : Requester) (n : Nat)
  /-- R310: A link source reports up and the link is declared up, raising event 27. -/
  | ethLinkUp (p spd : Nat) (hdx anok : Bool)
  /-- R310: After lff ms of reported down the link is declared down, queues flushed and event 27 raised. -/
  | ethLinkDown (p : Nat)
  /-- R312: A MAC receives a frame, discards and counts it or passes it to the pipeline with its stamp. -/
  | macFrameReceive (p : Nat) (frame : List Byte) (sfd : Nat) (fcsOk sym : Bool)
  /-- R314: A write to ETH_MDIOCMD starts a Clause 22 or Clause 45 command. -/
  | mdioCommand (rq : Requester) (p : Nat) (w : Word)
  /-- R314: An MDIO command completes and busy clears. -/
  | mdioDone (answer : Option Nat)
  /-- R322: A read of ETH_TXTS0 with valid removes the oldest stamp and copies its fields. -/
  | ethTxtsRead (rq : Requester) (p : Nat)
  /-- R316: A T1S port receiving a BEACON makes PLCA active and its link up. -/
  | plcaBeaconReceive (p : Nat)
  /-- R316: A non-coordinator without a BEACON for 4000 bit times makes PLCA inactive. -/
  | plcaInactive (p : Nat)
  /-- R317: A PLCA collision counts txcoll and retries, discarding after 16 attempts. -/
  | t1sCollision (p : Nat)
  /-- R323: A Sync message on the watched port counts and re-arms the sync watch. -/
  | syncReceive (p : Nat)
  /-- R323: No Sync for syncto ms clears TSY_STAT.sync and raises event 31. -/
  | syncTimeout
  /-- R320: TSY_CTL.set loads the time base at the next beat. -/
  | tsySet (rq : Requester)
  /-- R320: TSY_CTL.step adds to the time base at the next beat. -/
  | tsyStep (rq : Requester)
  /-- R320: A write to TSY_FADJ changes the per-cycle time increment at the next beat. -/
  | tsyFadjWrite (rq : Requester) (w : Word)
  /-- R361: A read of the first register of a latching pair copies the others in the same cycle. -/
  | latchingPairRead (rq : Requester) (a : Nat) (size : Nat)
  /-- R338: A write of WKS_SLEEPA or WKS_SLEEPB starts the named units on their way to sleep. -/
  | unitSleepRequest (rq : Requester) (hi : Bool) (w : Word)
  /-- R338: A unit meets its sleep condition; event 37 is raised once all units of its write are asleep. -/
  | unitAsleep (u : Nat)
  /-- R337: A write of WKS_WAKEA or WKS_WAKEB wakes the named units. -/
  | unitWakeRequest (rq : Requester) (hi : Bool) (w : Word)
  /-- R343: A mode 2 wake filter recognises a wake-up frame at its CRC delimiter. -/
  | wakeUpFrame (n : Nat) (f : CanFrame) (dlc : Nat)
  /-- R341: A mode 1 wake filter sees a dominant level of dom µs followed by recessive. -/
  | wakeDominant (n us : Nat)
  /-- R344: The wake filter's frame error counter reaches 32 and wakes the tile with errwake. -/
  | wakeFrameErrors (n : Nat)
  /-- R347: A port's signal or activity detector sees energy for act µs and wakes the port. -/
  | wakePortEnergy (p us : Nat)
  /-- R349: A wire change or WAKE pin alarm named in WKS_SRC ends STANDBY or wakes its group. -/
  | wakeWireOrPin (pin : Bool) (i : Nat)
  /-- R348: A stopped lane-group SerDes PLL restarted by a wake locks and the woken port starts its link. -/
  | serdesPllRestartLock (g : Nat)
  /-- R353: A wake's validation window closes unvalidated, marking it false and counting. -/
  | validationWindowClose (u : Nat)
  /-- R353: A write of WKS_VALIDA or WKS_VALIDB validates an open wake window. -/
  | wksValid (rq : Requester) (hi : Bool) (w : Word)
  /-- R352: A write of 1 to WKS_LOGACK sets the wake log's unread count to 0. -/
  | wksLogack (rq : Requester) (w : Word)
  /-- R346: A responder with gtsrx receives the go-to-sleep command and falls asleep. -/
  | linGoToSleepReceive (n : Nat)
  /-- R346: A responder with gtsrx sees no frame for 4 s and falls asleep. -/
  | linIdleSleep (n : Nat)
  /-- R346: A LIN wake pulse sequence's waiting time ends and the tile repeats the pulse or starts its schedule. -/
  | linWakePulseTimeout (n : Nat)
  /-- R359: A PCIe read request is split into aligned dword accesses and completed. -/
  | pcieRead (sp : PcieSpace) (x : Nat) (bes : List Nat)
  /-- R359: A posted PCIe write is split and applied dword by dword. -/
  | pcieWrite (sp : PcieSpace) (x : Nat) (ws : List (Word × Nat))
  /-- R358: A QSPI read or write transaction is decoded and answered with go, retry or refused status. -/
  | qspiTransaction (cmd a len : Nat) (bytes : List Byte)
  /-- R358: QSPI command 0x05 returns BRG_QSTAT until QSPI_CS_N rises. -/
  | qspiStatus
  /-- R362: A source routed to a vector requests an MSI-X message, sent or made pending. -/
  | msixRequest
  /-- R362: A pending vector's message is sent once MSI-X, bus mastering, unmasking and link all hold. -/
  | msixPendingSend (v : Nat)
  /-- R365: A Far Window read returns a held result, retries, or starts a fetch. -/
  | farReadAccess (rq : Requester) (a n : Nat)
  /-- R367: A FAR_READ answer arrives and its result is held for 1 ms. -/
  | farReadAnswer
  /-- R367: A fetch without answer within tmo becomes a held error result and raises event 47. -/
  | farFetchTimeout (b : Nat)
  /-- R367: A held result not collected within 1 ms is discarded and event 45 raised. -/
  | farResultExpiry (b : Nat)
  /-- R368: A Far Window write is posted into the write queue as one FAR_WRITE. -/
  | farWrite (rq : Requester) (a : Nat) (ws : List Word)
  /-- R368: A FAR_WRITE acknowledgement arrives, recording a refusal as reason 4. -/
  | farWriteAck
  /-- R368: A FAR_WRITE without acknowledgement within tmo sets reason 1 and raises event 47. -/
  | farWriteTimeout (tag : Nat)
  /-- R366: A remote part serves a received FAR_READ or FAR_WRITE in arrival order and answers. -/
  | farRequestServe
  /-- R370: An event routed to the hierarchy is enqueued as an inline Waybill to port 18. -/
  | eventMessageSend
  /-- R493: At a CK_TICK millisecond boundary one message is enqueued for the deferred raises of an event. -/
  | eventPacingFlush
  /-- R371: The manager queues a received event message and raises event 61 on empty to non-empty. -/
  | remoteEventReceive
  /-- R371: A read of BRG_REV0 with valid removes the oldest remote event and copies its time. -/
  | brgRev0Read (rq : Requester)
  /-- R378: A received Ploilhan message is checked, relayed and delivered or dropped. -/
  | ploilhanReceive (bad : Nat)
  /-- R379: The manager decides a JOIN request, admitting, refusing or ending an admission. -/
  | join
  /-- R379: A part receives JOIN accept or refuse and takes the epoch and starts heartbeats or retries. -/
  | joinAnswer
  /-- R380: Every 100 ms the manager or an admitted part sends a HEARTBEAT. -/
  | heartbeatSend
  /-- R380: A HEARTBEAT updates the sender's position and liveness and may adopt a newer epoch. -/
  | heartbeatReceive
  /-- R380: The manager has had no heartbeat from a device for 350 ms and declares it lost. -/
  | workerLost (d : Nat)
  /-- R380: A worker or spare has had no heartbeat from the manager for 550 ms and ends its admission. -/
  | managerLost
  /-- R381: A standby without manager heartbeat for 350 ms, or unadmitted for 3000 ms, takes the manager role. -/
  | takeover
  /-- R381: A device named in a TAKEOVER follows the new manager and refreshes. -/
  | takeoverReceive
  /-- R382: A new manager's 300 ms listening ends; it sends its first HEARTBEAT and answers held JOINs. -/
  | probeEnd
  /-- R374: A change of pos while admitted by position sends JOIN leave and requests under the new ID. -/
  | positionChangeRejoin
  /-- R386: IMAGE_BLOCK op 3 opens a delta session owned by the manager. -/
  | imageBlockDeltaOpen
  /-- R386: IMAGE_BLOCK op 4 gathers a delta chunk and delivers on the last flag. -/
  | imageBlockDeltaChunk
  /-- R386: IMAGE_BLOCK op 5 closes the manager's delta session. -/
  | imageBlockDeltaClose
  /-- R386: IMAGE_BLOCK op 6 aborts the manager's delta session. -/
  | imageBlockDeltaAbort
  /-- R386: The manager receives an IMAGE_BLOCK op 7 status and resends what is missing. -/
  | imageBlockStatus
  /-- R389: HIE_CMD op 1 sends WEAR_REPORT op 1 to the target devices. -/
  | wearReportRequest (rq : Requester) (w : Word)
  /-- R483: A part receiving WEAR_REPORT op 1 sends one record per existing item. -/
  | wearReportSend
  /-- R389: HIE_CMD op 2 sends REVOKE op 2 and the target performs a remote full reset. -/
  | remoteFullReset (side : HieSide)
  /-- R389: HIE_CMD op 3 sends REVOKE op 3 and the target performs a normal world reset. -/
  | remoteNormalReset (side : HieSide)
  /-- R389: HIE_CMD op 4 or a REVOKE op 1 declares remote-device leases failed on the target. -/
  | remoteRevoke (side : HieSide)
  /-- R393: A keyed KST_LCREQ arm write names a target lifecycle state. -/
  | lifecycleArm (rq : Requester) (key target : Nat)
  /-- R393: A keyed commit within 1 ms burns the transition fuse or is refused. -/
  | lifecycleCommit (rq : Requester) (key target : Nat)
  /-- R393: The fuse burn completes and a system software reset follows. -/
  | lifecycleBurnDone
  /-- R399: KST_IKCMD op 1 programs an image-key slot with KST_IKHASH. -/
  | imageKeyProgram (rq : Requester) (key slot : Nat)
  /-- R399: KST_IKCMD op 2 revokes an image-key slot. -/
  | imageKeyRevoke (rq : Requester) (key slot : Nat)
  /-- R400: A secure write to KST_FLOORSET raises the image security floor. -/
  | floorSet (rq : Requester) (w : Word)
  /-- R401: KST_NODECMD op 1 creates a node under a live parent. -/
  | nodeCreate (rq : Requester) (key parent : Nat)
  /-- R402: KST_NODECMD op 2 raises a node's generation, orphans descendants and stops new slot use. -/
  | nodeInvalidate (rq : Requester) (key node : Nat)
  /-- R401: KST_NODECMD op 3 frees an orphaned node or a live node with no live child. -/
  | nodeFree (rq : Requester) (key node : Nat)
  /-- R402: A slot under an invalidated node is wiped once its started jobs end and its leases end. -/
  | slotWipe (k : Nat)
  /-- R405: A write of KST_WRAPGO.go wraps a generated or imported key into a blob. -/
  | wrap (rq : Requester) (w : Word)
  /-- R405: A wrap completes and the blob is written to secure RAM and optionally the shelf. -/
  | wrapDone
  /-- R406: KST_SHELFCMD op 1 writes a blob into a shelf index. -/
  | shelfWrite (rq : Requester) (key idx : Nat)
  /-- R406: KST_SHELFCMD op 2 erases a shelf index. -/
  | shelfErase (rq : Requester) (key idx : Nat)
  /-- R408: A load by handle or address checks a blob, unwraps it and places the key in a slot, or is refused. -/
  | keyLoad (rq : Requester) (w : Word)
  /-- R408: A key load completes with the key placed in a slot and a lease granted. -/
  | keyLoadDone
  /-- R413: A write of 1 to WLD_LOCK.lock freezes the LPDDR4 regions until full reset. -/
  | wldLock (rq : Requester) (w : Word)
  /-- R415: A normal-world secure call returns SECURE_UNAVAILABLE while DEGRADED cause 8 is set. -/
  | secureCall (core : Nat)
  /-- R397: A debug TAP request is served or refused per lifecycle state, raising event 44 on refusal. -/
  | debugAccess (w : World) (a : Nat) (v : Option Word) (size : Nat)
  /-- R418: Software advances CKV_RTAIL and the engine takes descriptors from the head. -/
  | ckvRingTail (rq : Requester) (ns : Nat) (w : Word)
  /-- R420: A free CKV lane takes the first waiting job in user priority order. -/
  | ckvDispatch (l : Nat)
  /-- R421: A CKV job completes; the two tags are compared and the result released. -/
  | ckvJobDone (l : Nat) (agree : Bool)
  /-- R428: A write of go to PKE_JOB checks the job and starts it or ends it with an error result. -/
  | pkeJobGo (rq : Requester) (w : Word)
  /-- R430: A PKE job ends after its invariant check, sets done and raises event 42. -/
  | pkeJobEnd (inv : Bool) (cyc : Nat)
  /-- R425: An accepted write to PKE_SLEN wipes the whole operand memory. -/
  | pkeSlenWrite (rq : Requester) (k : Nat) (w : Word)
  /-- R426: A holder's PKE_OPDATA access moves a slot word and advances the offset. -/
  | pkeOpdataAccess (rq : Requester) (v : Option Word)
  /-- R434: A write of go to DIG_CTL processes DIG_LEN bytes, initialising or finishing a digest. -/
  | digestGo (rq : Requester) (ns : Nat) (w : Word)
  /-- R434: A digest call completes and DIG_STAT.done is set. -/
  | digestDone (ns : Nat)
  /-- R437: A read of DRG_DATA returns 32 fresh bits, stalling during a generate call. -/
  | drgDataRead (rq : Requester)
  /-- R436: The DRBG reseeds every CK_TICK second, after 65,536 calls or on DRG_CTL.reseed. -/
  | drbgReseed (rq : Option Requester)
  /-- R436: A health test failure discards samples; three in a row fail the DRBG and raise event 40. -/
  | entropyHealthFail (apt : Bool)
  /-- R441: An ADC completes a conversion and updates ANA_RES and the window comparators. -/
  | adcConversion (i code : Nat)
  /-- R442: At the PWM trigger point a running motor channel triggers a current and DC-link conversion pair. -/
  | pwmTrigger (m icode vcode : Nat) (waited : Bool)
  /-- R449: MOT_CMD op 1 starts an observation, a measurement or sets a new target. -/
  | motorRun (rq : Requester) (m : Nat) (w : Word)
  /-- R449: MOT_CMD op 2 ramps the target to 0 and stops the channel. -/
  | motorStop (rq : Requester) (m : Nat)
  /-- R449: MOT_CMD op 3 sets the gates low within 100 ns and the state to stopped. -/
  | motorCoast (rq : Requester) (m : Nat)
  /-- R449: MOT_CMD op 4 clears a faulted channel to stopped. -/
  | motorClear (rq : Requester) (m : Nat)
  /-- R452: The observation before start ends and the channel starts from stand, catches or applies the rev policy. -/
  | motorObservationEnd (m events rpm : Nat) (rev : Bool)
  /-- R450: A target-0 measurement ends, setting speed and rev and returning to stopped. -/
  | motorMeasurementEnd (m events rpm : Nat) (rev : Bool)
  /-- R446: A sector change or valid back-EMF crossing updates speed, direction and commutation. -/
  | motorPositionEvent (m code ns : Nat)
  /-- R451: Each PWM period the internal target ramps and the speed controller and current limit set the duty. -/
  | motorPwmPeriod (m : Nat)
  /-- R452: The 50 ms alignment of a back-EMF start from stand ends and forced commutation begins. -/
  | motorAlignEnd (m : Nat)
  /-- R452: A hand-over to closed loop not made in time faults the channel with reason 5. -/
  | motorHandoverTimeout (m : Nat)
  /-- R452: No position event in state 5 for the stall time faults the channel with reason 4. -/
  | motorStallTimeout (m : Nat)
  /-- R452: The wait policy exceeds MOT_WAIT.s and faults the channel with reason 6. -/
  | motorWaitLimit (m : Nat)
  /-- R446: A Hall code mapping to 7 for 100 µs faults the channel with reason 7. -/
  | motorHallInvalid (m code : Nat)
  /-- R445: MOTm_FLT_N held low for 1 µs sets the gates low and faults the channel with reason 1. -/
  | motorFltInput (m : Nat)
  /-- R467: In WORKSHOP a write to MOT_TEST holds a sector or jogs the motor. -/
  | motorTest (rq : Requester) (m : Nat) (w : Word)
  /-- R457: A write to LMP_CMD switches a channel off, on or into blink. -/
  | lampCommand (rq : Requester) (n : Nat) (w : Word)
  /-- R458: A freed inrush token goes to the waiting channel that asked first and it switches on. -/
  | lampTokenGrant (g : Nat)
  /-- R462: A channel's inrush phase ends, freeing the token and checking inrush completion. -/
  | lampInrushEnd (n : Nat) (above : Bool)
  /-- R460: A channel's hard-short filter completes and the channel is switched off with reason 1. -/
  | lampHardShort (n : Nat)
  /-- R460: A channel's overcurrent filter completes and the channel is switched off with reason 2. -/
  | lampOvercurrent (n : Nat)
  /-- R463: The group limit exceeded for the filter time switches off the most recently switched-on channel. -/
  | lampGroupLimit (g : Nat)
  /-- R461: A group disturbance ends and the holder's inrush phase is extended by its duration. -/
  | lampDisturbanceEnd (g : Nat)
  /-- R464: A channel's cool-down ends and it makes a switch-on again, needing the token. -/
  | lampCoolDownEnd (n : Nat)
  /-- R457: A blink on- or off-phase time ends and the channel changes phase. -/
  | lampBlinkPhase (n : Nat)
  /-- R465: 50 ms of on-time below or above the open threshold sets or clears the open flag. -/
  | lampOpenDetect (n : Nat) (below : Bool)
  /-- R464: A channel on for 1 s after inrush without fault returns its tries to 0. -/
  | lampTriesReset (n : Nat)
  /-- R467: In WORKSHOP a write to LMP_TEST pulses one channel on for ms milliseconds. -/
  | lampTest (rq : Requester) (w : Word)
  /-- R468: Each ledger second advances the ledger clock and the time-based items and used percentages. -/
  | ledgerSecond
  /-- R471: Every 10 ms the junction temperature is measured and event 7 judged. -/
  | temperatureMeasure (t : Int)
  /-- R472: Once per ledger day the ring-oscillator monitors are measured. -/
  | ringOscillatorMeasure (ppm : List Int)
  /-- R476: A ledger save is requested hourly, on PFAIL, STANDBY, full reset or WER_SAVE. -/
  | ledgerSave
  /-- R475: A snapshot has been written to the ring with its sequence and CRC. -/
  | ledgerSaveDone
  /-- R478: At the end of each ledger month every item is sampled and predictions are recomputed. -/
  | monthlySample
  /-- R482: A keyed secure write in WORKSHOP resets one cabinet item for a replaced component. -/
  | werReset (rq : Requester) (w : Word)
  /-- R469: A write to WER_SEL takes a snapshot of the selected item for reading. -/
  | werSel (rq : Requester) (w : Word)
  /-- R490: A write to EVC_ROUTE changes an event's targets per ownership rights. -/
  | evcRouteWrite (rq : Requester) (e : Nat) (w : Word)
  /-- R495: A write of EVC_SOFT.s0 or s1 raises event 62 or 63. -/
  | evcSoft (rq : Requester) (w : Word)
  /-- R7: A W1C write clears the written bits unless hardware sets them in the same cycle. -/
  | w1cWrite (rq : Requester) (a : Nat) (w : Word) (size : Nat)
  /-- R7: An RC read returns a value and clears it in the same access. -/
  | rcRead (rq : Requester) (a : Nat) (size : Nat)
  /-- R6: A write to a register without its own row takes effect per its access code, or is refused. -/
  | registerWrite (rq : Requester) (a : Nat) (w : Word) (size : Nat)
  /-- R73: VDD_CORE and VDDIO0 rise above their fail thresholds plus hysteresis, starting the 2 ms power-on reset count and the XIN oscillator, and the always-on domain changes over from VBAT to VDDIO0. -/
  | suppliesValid
  /-- R74: Filtered PFAIL_N rises, SYS_SUPPLY.pfnow follows and the PWR_SHED.restore count starts. -/
  | pfailRise
  /-- R114: A WAKE pin that fired has held its deasserted level for 10 ms and may fire again. -/
  | wakePinRearm (n : Nat)
  /-- R115: TAMPER_N has held high for 33 CK_AON cycles after firing and may fire again. -/
  | tamperRearm
  /-- R106: A SerDes PLL that lost lock locks again, letting DEGRADED cause 2 clear when its rail is also valid. -/
  | serdesPllRelock (g : Nat)
  /-- R362: The PCIe link comes up or goes down (including hot reset), gating MSI-X messages and dropping held Far Window reads. -/
  | pcieLinkChange (up : Bool) (gen width : Nat)
  /-- R315: A PLCA cycle begins with the coordinator's BEACON and a T1S port reaches its transmit opportunity, sending its chosen frame and any burst. -/
  | transmitOpportunity (p : Nat)
  /-- R335: The last stop bit of a UART or HDLC transmission ends, DE is released after lag, SER_TXCNT counts and UART_SWTX.go clears. -/
  | serialTxEnd (n : Nat) (echo : List Byte)
  /-- R398: An IEEE 1149.1 instruction loaded into the boundary-scan TAP puts EXTEST, CLAMP or HIGHZ in force, driving outputs from scan cells except the observe-only bare-service balls. -/
  | boundaryScanInstruction (i : ScanInstr)
deriving DecidableEq, Repr

end Sys2Proof
end

