-- ==== Sys2Proof/Machine/State.lean ====
section
/-! DEFINITION. The state of the part as plain data. `regs` holds every register field that differs from its reset value
(the register tables of spec/01 to spec/20; Machine/RegMap.lean names the fields); the structures below hold the state the
rules give the machine that no register shows. Default field values are the values at reset. -/

namespace Sys2Proof.Machine

/-- One field of one register: byte address, lowest bit, width and reset value (R3, R5). -/
structure Fld where
  addr : Nat
  lo : Nat
  width : Nat
  reset : Nat
deriving DecidableEq, Repr

/-- How the last bus access ended: nothing accessed yet, a write taken, data read (one word, or several), a bus error (R5, R8, R9), a stall until
an earlier access is done (R112), or a retry answer (R365). -/
inductive Completion where
  | none | done | data (v : Word) | wide (l : List Word) | error | stall | retry
deriving DecidableEq, Repr

/-- What the part has put on its interfaces, newest first: the model's own record of its outputs. -/
inductive Emission where
  | carFrame (p : LinkSide) (f : LinkFrame)
  | msix (vec : Nat) (addr : Nat) (data : Nat)
  | note (what : String) (args : List Nat) (bytes : List Byte)
deriving DecidableEq, Repr

/-! Records of an image (R130 to R144). -/

structure TileRec where
  tile : Nat
  func : Nat
  npins : Nat
  flags : Nat
  pins : List Nat
  lodger : Nat
  pipe : Nat
  tc : Nat
deriving DecidableEq, Repr

structure GraphRec where
  graph : Nat
  nstage : Nat
  miss : Nat
  stages : List Nat
  cpuRing : Nat
  polBase : Nat
  lodger : Nat
  dtc : Nat
deriving DecidableEq, Repr

structure BindRec where
  port : Nat
  graph : Nat
  mode : Nat
  plcaId : Nat
  plcaCnt : Nat
deriving DecidableEq, Repr

structure PartRec where
  port : Nat
  tcmask : Nat
  guar : Nat
  cap : Nat
deriving DecidableEq, Repr

structure TableRec where
  type : Nat
  flags : Nat
  entries : Nat
  base : Nat
  initN : Nat
  init : List Byte
deriving DecidableEq, Repr

structure LodgerRec where
  lid : Nat
  flags : Nat
  period : Nat
  budget : Nat
  deadline : Nat
  recipe : List Byte
  sigFirst : Nat
  sigN : Nat
  keys : List Nat
  /-- where the recipe stands: a record that differs here differs (R169) -/
  recOff : Nat := 0
deriving DecidableEq, Repr

structure PolicyRec where
  flags : Nat := 0
  devid : Nat := 0
  sbid : Nat := 62
  ethertype : Nat := 0x88B5
  vlan : Nat := 1
  wpol : Nat := 0
  ddrmt : Nat := 0
  wsrc : Nat := 0
  wdeb : Nat := 10
  wdsPeriod : Nat := 1000
  shed : Nat := 0
  restore : Nat := 100
  consistKey : Nat := 0
  wiremsg : Nat := 0
  msgctl : Nat := 0
deriving DecidableEq, Repr

inductive CabRec where
  | motor (ch poles comm sense rev pwm imax rpm vsoft vhard vtrip chop : Nat)
  | group (grp ilimit : Nat)
  | lamp (ch flags retries inom iinr tinr cool hshort : Nat)
deriving DecidableEq, Repr

structure WearRec where
  item : Nat
  inst : Nat
  warn : Nat
  rated : Nat
deriving DecidableEq, Repr

structure RegRec where
  addr : Nat
  value : Nat
deriving DecidableEq, Repr

/-- The DELTA record and its tag table (R144). -/
structure DeltaRec where
  baseId : Nat := 0
  baseDigest : List Byte := []
  banks : Nat := 0
  nblk : Nat := 0
  blkkey : Nat := 0
  blkOff : Nat := 0
  tags : List (List Byte) := []
deriving DecidableEq, Repr

/-- The content of an image's sections: the structure in force, or one being prepared. -/
structure Structure where
  tiles : List TileRec := []
  graphs : List GraphRec := []
  binds : List BindRec := []
  parts : List PartRec := []
  tables : List TableRec := []
  lodgers : List LodgerRec := []
  policy : PolicyRec := {}
  cabinet : List CabRec := []
  wear : List WearRec := []
  regset : List RegRec := []
deriving DecidableEq, Repr

/-! Power, clocks, reset and modes (spec/03, spec/04). -/

/-- What the cores do (R36, R98). -/
inductive CoreState where
  | inReset | bootRom | running | reporting | waiting
deriving DecidableEq, Repr

/-- Where a STANDBY entry or exit stands (R108 to R110). -/
inductive StandbyPhase where
  | none | waitCores | inStandby | exiting
deriving DecidableEq, Repr

structure PowerState where
  /-- power-on reset asserted (R73) -/
  por : Bool := false
  /-- VDD_CORE and VDDIO0 above their fail thresholds plus hysteresis -/
  supplies : Bool := true
  /-- the internal full reset is in progress (R85) -/
  hold : Bool := false
  /-- filtered RESET_N is low -/
  resetLow : Bool := false
  /-- filtered PFAIL_N is low -/
  pfailLow : Bool := false
  /-- root PLL started and not yet locked (R78) -/
  pllStarting : Bool := false
  /-- the current BACKUP was entered from one of the modes 2 to 11 (R102) -/
  fromMain : Bool := false
  /-- no activation of the event controller since the last power-on reset release (R121, R485) -/
  firstAct : Bool := true
  /-- LPDDR4 is fitted, as decided when LOADING was entered -/
  ddrFitted : Bool := false
  cores : CoreState := .inReset
  standby : StandbyPhase := .none
  /-- rails whose class is kept, and those of 3.3 V (2.5 V for VDDIO2): bit 0 VDDIO1, 1 VDDIO2, 2 + b VDDIO_Tb (R501) -/
  classKept : Nat := 0
  classHigh : Nat := 0
  /-- SerDes lane groups whose PLL was stopped for sleep (R348) -/
  sdsStopped : Nat := 0
  /-- those started again by a wake and not yet locked -/
  sdsStarting : Nat := 0
  /-- access and T1S ports taken down by PFAIL shedding (R111) -/
  shedPorts : Nat := 0
  /-- CK_TICK runs (R108) -/
  tick : Bool := false
  /-- milliseconds left of the secure watchdog (R88) -/
  wds : Nat := 0
  /-- the tiles that have started since the last full reset, one bit each (SYS_STARTUP) -/
  started : Nat := 0
deriving DecidableEq, Repr

/-! The always-on domain (R112 to R121). -/

structure AonState where
  sec : Nat := 0
  frac : Nat := 0
  /-- how far the present CK_AON cycle has gone, in 10^-6 of it (R112) -/
  phase : Nat := 0
  /-- writes on their way to the domain, the one in transit first: register address, value, secure world (R112) -/
  writes : List (Nat × Nat × Bool) := []
  /-- WAKE pins and the TAMPER input that fired and have not re-armed: bits 0, 1, 2 (R114, R115) -/
  fired : Nat := 0
  /-- the VBAT low alarm fired and has not re-armed (R116) -/
  vbatFired : Bool := false
  /-- the hold count of PWR_REQ runs (R118) -/
  holding : Bool := false
  /-- alarms of the current BACKUP: bits of AON_WAKECAUSE from rtc on, the first one's cause code, and VBAT supply seen (R121) -/
  alarms : Nat := 0
  first : Nat := 0
  vbatRun : Bool := false
  /-- the domain runs from VBAT now -/
  onVbat : Bool := false
deriving DecidableEq, Repr

/-! The wire path and the car link (spec/01, spec/02). -/

/-- A wire record waiting for its Waybill (R31, R34). -/
structure WireRecord where
  channel : Nat
  state : Bool
  origin : Nat
  port : Nat
  hop : Nat
  fcnt : Nat
  seq : Nat
  time : Nat
deriving DecidableEq, Repr

inductive RxState where
  | hunt | locked | relock | off
deriving DecidableEq, Repr

/-- The transmitter of one port (R55, R60): off, free-running, free-running with the next frame to carry realign = 1, in the
logic-1 gap, in the gap with the source lost again, or slaved. -/
inductive TxPhase where
  | off | free | realign | gap | gapLost | slaved
deriving DecidableEq, Repr

/-- A synchronisation candidate: the bit position of its last sync and its count of valid frames (R57, R58). -/
structure Candidate where
  pos : Nat
  count : Nat
deriving DecidableEq, Repr

structure LinkPort where
  rx : RxState := .off
  cands : List Candidate := []
  /-- bad frames in a row (R59) -/
  bad : Nat := 0
  /-- received wire states and their sequence bits (R49); `base` once a slot field has passed since lock -/
  w : Nat := 0
  wseq : Nat := 0
  base : Bool := false
  /-- alarm slots accepted (R50) -/
  alarms : Nat := 0
  tx : TxPhase := .off
  /-- states, sequence bits and origins of the last frame sent (R48, R53) -/
  txw : Nat := 0
  txseq : Nat := 0
  /-- the states of the last frame sent that local terms alone gave (R53) -/
  txLocal : Nat := 0
  txorg : List Nat := [63, 63, 63, 63]
  /-- debounced assertions not yet sampled by a frame of this port (R48) -/
  latch : Nat := 0
  /-- a message went into the previous frame (R65) -/
  justSent : Bool := false
  /-- frames sent so far, to start fcnt at 0 (R55) -/
  sentAny : Bool := false
deriving DecidableEq, Repr

structure WireState where
  /-- levels at WIRE_IN[3:0] -/
  inLevel : Nat := 0
  /-- debounced logical states -/
  deb : Nat := 0
  /-- CK_REF cycles counted since power-on reset released or XIN became stable, and for each channel the count at which its logical
  input took its present state (R47, R531) -/
  ref : Nat := 0
  since : List (Nat × Nat) := []
  records : List WireRecord := []
deriving DecidableEq, Repr

/-! The event controller (spec/20). -/

structure EvcState where
  /-- raises held during STANDBY, one bit per event (R486) -/
  held : Nat := 0
  /-- requests of MSI-X vectors not yet made (R492) -/
  msixReq : List Nat := []
  /-- raises routed to the hierarchy not yet enqueued: event and time (R493) -/
  hieReq : List (Nat × Nat) := []
  /-- events already sent in this CK_TICK millisecond, and deferred ones with the time of the latest raise -/
  paced : List Nat := []
  deferred : List (Nat × Nat) := []
deriving DecidableEq, Repr

/-! The loader (spec/05, spec/06). -/

/-- A delivery on its way (R167): its offset, and its bytes, or none where the source could not be read. -/
structure Delivery where
  off : Nat
  bytes : Option (List Byte)
deriving DecidableEq, Repr

structure LoaderState where
  /-- the header read from the boot source, once it has passed -/
  header : List Byte := []
  /-- chunks received by a flashless part, chunk c of piece i at 4i + c, and the image they belong to and its length (R165, R385) -/
  pieces : List (Nat × List Byte) := []
  pieceId : Option (Nat × Nat) := none
  /-- piece 0 passed its checks -/
  head : Bool := false
  /-- ticks at the last useful chunk -/
  useful : Nat := 0
  /-- the structure the accepted image describes, shadow until the cut-over; its digest D and header -/
  next : Structure := {}
  nextDigest : List Byte := []
  accepted : Bool := false
  /-- BUILDING ended and the cut-over is due -/
  built : Bool := false
  /-- the delta session: owner's tag (0 none), lease, bytes of the head in order, blocks passed, SIG, and the delivery copying -/
  owner : Nat := 0
  lease : Nat := 0
  dHead : List Byte := []
  dBlocks : List (Nat × List Byte) := []
  dSig : List Byte := []
  copying : Option Delivery := none
  /-- the accepted delta: its bytes, its record, ticks at acceptance -/
  dImg : List Byte := []
  delta : DeltaRec := {}
  accAt : Nat := 0
  /-- preparation is over but for block locks that others hold (R172): blocks still to take; locks the loader holds -/
  prepared : Bool := false
  wants : List Nat := []
deriving DecidableEq, Repr

/-- The time base (R318): seconds, nanoseconds, 2^-32 ns fraction; a set or a step waits for the next beat. -/
structure TimeBase where
  sec : Nat := 0
  ns : Nat := 0
  frac : Nat := 0
deriving DecidableEq, Repr

/-! The Innkeeper (spec/07). -/

inductive LeaseState where
  | free | held | fenced | reclaiming
deriving DecidableEq, Repr

/-- A lease record (R198): kind and index of the resource, owner tag, duration in ms (none: no expiry) and time left. -/
structure Lease where
  state : LeaseState := .free
  kind : Nat := 0
  res : Nat := 0
  owner : Nat := 0
  dur : Option Nat := none
  left : Option Nat := none
deriving DecidableEq, Repr

/-- A declaration whose reclaim is under way (R204): the owner, the declaration code and the leases it reached. -/
structure Declaration where
  owner : Nat
  decl : Nat
  leases : List Nat
deriving DecidableEq, Repr

/-- An item with its release order, due time in CK_TICK µs, and whether it is past it (R191, R194). -/
structure Item where
  work : ItemWork
  due : Nat
  late : Bool := false
  /-- ms of the time base at the release (R271) -/
  rel : Nat := 0
deriving DecidableEq, Repr

/-- A frame that waits for a page at ingress (R184): its Waybill with its bytes as data, and whether its end is still to be received. -/
structure Held where
  wb : Waybill
  arriving : Bool := false
deriving DecidableEq, Repr

/-- A lodger's scheduling state (R191 to R197). -/
structure Lodger where
  present : Bool := false
  left : Nat := 0
  carry : Nat := 0
  periodStart : Nat := 0
  queue : List Item := []
  running : Option Item := none
  /-- the running item's effects have come about, and its cycles (R280) -/
  handled : Bool := false
  cost : Nat := 0
  /-- CK_TICK µs since which the engine's time on the running item is charged to the present period, and the cycles charged to earlier
  ones (R193) -/
  since : Nat := 0
  spent : Nat := 0
  resident : Bool := false
  faulting : Bool := false
  waitingVictim : Bool := false
  fenced : Bool := false
  suspended : Bool := false
  lastDispatch : Nat := 0
  missPeriods : Nat := 0
  missItems : Nat := 0
  ovr : Nat := 0
  faults : Nat := 0
deriving DecidableEq, Repr

structure InkState where
  leases : List (Nat × Lease) := []
  decls : List Declaration := []
  /-- pages held per quota set, by the set's index in the PART records (R179) -/
  used : List (Nat × Nat) := []
  /-- reference counts of pages (0: free), next-page links (0xFFFF ends), quota set charged, by page or chain head (R187) -/
  refs : List (Nat × Nat) := []
  links : List (Nat × Nat) := []
  setOf : List (Nat × Nat) := []
  /-- chains being filled, first page first, at 2 × source, + 1 for a lossless frame; the tiles, the car link block and the transcriber
  are sources of their own (R181, R184) -/
  filling : List (Nat × List Nat) := []
  /-- the source of port 17 whose turn comes next (R181) -/
  turn : Nat := 0
  lodgers : List (Nat × Lodger) := []
  dispatches : Nat := 0
  /-- page-in faults in the current CK_TICK millisecond (R196) -/
  faultsMs : Nat := 0
  /-- holds of frames that wait for a page, per source, oldest first (R184, R278) -/
  holds : List (Nat × List Held) := []
deriving DecidableEq, Repr
/-! The switch core (spec/08). -/

/-- One replica of a frame for one destination (R217): the sub-destination of port 17 or the ring of port 16, whether it is cut
through (R213), the group of an encapsulated send (R245), a mirror copy (R228), and whole gate cycles begun at the queue head
(R224). -/
structure Replica where
  wb : Waybill
  sub : Nat := 63
  cut : Bool := false
  /-- false while a replica that ended as ctabort waits for its whole frame (R215) -/
  whole : Bool := true
  encap : Option Nat := none
  /-- carried on to a tile out of its Ethernet frame (R245) -/
  decap : Bool := false
  mirror : Bool := false
  cycles : Nat := 0
  /-- attempts under PLCA collisions (R317) -/
  tries : Nat := 0
  /-- pages already read to the last byte and given back (R217); the bytes being sent -/
  read : Nat := 0
  out : List Byte := []
deriving DecidableEq, Repr

/-- A frame of a MAC port whose end has not been received: its replicas and mirror copies that wait for it, the policer that charged it in
advance and the charge (R213, R214, R228). It stands until the frame ends, whatever the stages made of the frame. -/
structure Inflight where
  wb : Waybill
  waiting : List (Nat × Replica)
  policer : Option Nat
  charged : Nat
deriving DecidableEq, Repr

/-- A frame that waits for the authenticate stage, with the stages still to run (R212, R306). -/
structure AuthWait where
  wb : Waybill
  marked : Bool
  stages : List Nat
deriving DecidableEq, Repr

/-- A gate list (R222): entries of gate states and ns, base time, cycle and extension in ns. -/
structure GateList where
  entries : List (Nat × Nat) := []
  base : Nat := 0
  cycle : Nat := 1000000
  ext : Nat := 0
  en : Bool := false
deriving DecidableEq, Repr

/-- A port's gates: the operational list, the entry in force with its start time, and the admin list awaiting its change time. -/
structure GateState where
  oper : GateList := {}
  idx : Nat := 0
  since : Nat := 0
  admin : Option GateList := none
  change : Nat := 0
deriving DecidableEq, Repr

/-- A recovered stream (R225): configuration, recovery state and counters. -/
structure CbStream where
  len : Nat := 32
  pop : Bool := false
  en : Bool := false
  reset : Nat := 100
  recov : Nat := 0
  hist : Nat := 0
  takeany : Bool := true
  /-- passed, discarded, rogue, ooo, lost, tagless -/
  cnts : List Nat := [0, 0, 0, 0, 0, 0]
  resets : Nat := 0
  /-- ms of the time base at the last pass -/
  last : Nat := 0
deriving DecidableEq, Repr

/-- A CPU ring's hidden state (R229, R230): slots since the last interrupt and the time of the first, drops since the last slot. -/
structure RingState where
  since : Nat := 0
  first : Nat := 0
  dropped : Nat := 0
deriving DecidableEq, Repr

/-- A write held until its block lock is released (R200): address, value, and the selector register's value at the write. -/
structure Staged where
  addr : Nat
  value : Nat
  sel : Nat
deriving DecidableEq, Repr

structure SwcState where
  /-- class queues by key: ports 0 to 15 and 18, 19 by port and class, port 16 by ring, port 17 by sub-destination and class -/
  queues : List (Nat × List Replica) := []
  /-- the replica each port is transmitting -/
  sending : List (Nat × Replica) := []
  /-- a T1S port's chosen frame is on the wire (R315) -/
  onWire : Nat := 0
  inflight : List (Nat × Inflight) := []
  authq : List AuthWait := []
  gates : List (Nat × GateState) := []
  /-- shaper credits in 10^-6 bit by port and class, and when each port's were last brought up to date (R221) -/
  credit : List (Nat × Int) := []
  creditAt : List (Nat × Nat) := []
  /-- members and untagged ports by VID (SWC_VLMEM) -/
  vlan : List (Nat × (Nat × Nat)) := []
  cb : List (Nat × CbStream) := []
  /-- counter i of port p at 16p + i (R234) -/
  cnts : List (Nat × Nat) := []
  rings : List (Nat × RingState) := []
  staged : List Staged := []
deriving DecidableEq, Repr

/-! Forwarding tables and learning (spec/09). -/

/-- A learn or move request (R246, R247): key bytes, port, and its time in ms. -/
structure LearnReq where
  key : List Byte
  port : Nat
  move : Bool
  ts : Nat
deriving DecidableEq, Repr

/-- A staged table change (R253): table type, index and entry bytes; `place` marks an insert that reserves an empty place, `key` is the key
of an operation by key (R252), which the change follows (R254). -/
structure TableChange where
  type : Nat
  idx : Nat
  bytes : List Byte
  place : Bool
  key : Option (List Byte)
deriving DecidableEq, Repr

/-- A learning record (R257): key MAC and VID, withdraw, time in ms, owner position and device. -/
structure CvRecord where
  mac : List Byte
  vid : Nat
  withdraw : Bool
  ts : Nat
  pos : Nat
  dev : Nat
deriving DecidableEq, Repr

/-- A received Caravan: its epoch and records (R259). -/
structure Caravan where
  epoch : Nat
  recs : List CvRecord
deriving DecidableEq, Repr

/-- A Porter run (R252): requester, next record number. -/
structure PorterRun where
  owner : Requester
  next : Nat
deriving DecidableEq, Repr

structure FwtState where
  /-- table memory, 8 MiB; an unlisted byte reads 0 (R161) -/
  tmem : List Host.Cell := []
  learnq : List LearnReq := []
  overlay : List TableChange := []
  /-- the staged bank swap (R251) -/
  swap : Bool := false
  porter : Option PorterRun := none
  /-- Caravans waiting to be sent, oldest first, and the CK_TICK µs in which the first record of the last one was queued (R258) -/
  out : List (List CvRecord) := []
  outSince : Nat := 0
  /-- Caravans received and waiting (R260, R261) -/
  inq : List Caravan := []
  /-- the next entry of a full refresh under way, and the refresh records of this CK_TICK millisecond (R262) -/
  refresh : Option Nat := none
  refreshed : Nat := 0
  /-- the owner device ID in the last record of each owner position, as ID + 1 (R257) -/
  devs : List (Nat × Nat) := []
deriving DecidableEq, Repr

/-! The signal transcriber (spec/10). -/

/-- A value slot (R270): value, status, late write, ms of the last reception, and the source entry that wrote it last (R271). -/
structure Slot where
  value : Nat := 0
  st : Nat := 0
  late : Bool := false
  time : Nat := 0
  src : Nat := 0
deriving DecidableEq, Repr

structure TrnState where
  /-- slots at 1024 lid + slot, last packed fields at 65536 lid + sink entry -/
  slots : List (Nat × Slot) := []
  packed : List (Nat × Option Nat) := []
  /-- CK_TICK µs of the last send of an output record, at 256 lid + record; records with a deferred send pending (R276) -/
  sent : List (Nat × Option Nat) := []
  deferred : List Nat := []
  /-- counters of lodger lid at 16 lid + i: items, outputs, nomatch, short, sat, inv, tmo, authrej, late sent, late drop, def, merge -/
  cnts : List (Nat × Nat) := []
deriving DecidableEq, Repr


/-! CAN tiles (spec/11). -/

/-- A receive buffer (R287, R290): its 20 words, the class of its Waybill, its waiting handoff, its host claim, its lock's world. -/
structure RxBuf where
  words : List Nat := []
  tc : Nat := 0
  hand : Bool := false
  host : Bool := false
  lock : Option World := none
deriving DecidableEq, Repr

/-- A transmit buffer (R295): its words, its place in the order of loads and requests, the replica a switch-fed one holds. -/
structure TxBuf where
  words : List Nat := []
  order : Nat := 0
  rep : Option Replica := none
  /-- words 2 and 3 of the tile frame layout of an XL frame (R288, R294) -/
  head : Nat × Nat := (0, 0)
deriving DecidableEq, Repr

/-- What a tile has still to hand to port 17, in sequence order (R289, R293). -/
inductive HandItem where
  | buf (i : Nat)
  | xl (frame : List Byte) (tc time : Nat)
deriving DecidableEq, Repr

structure CanTile where
  rx : List (Nat × RxBuf) := []
  prio : RxBuf := {}
  shadow : Option RxBuf := none
  tx : List (Nat × TxBuf) := []
  onBus : Option Nat := none
  hand : List HandItem := []
  seq : Nat := 0
  order : Nat := 0
  /-- a stop is owed once the frame in progress has ended (R307) -/
  stopping : Bool := false
  /-- fell asleep in bus-off or recovery (R340) -/
  sleptOff : Bool := false
  /-- last accepted freshness values by rule (R305) -/
  fresh : List (Nat × Nat) := []
deriving DecidableEq, Repr

/-- The structure kept while a delta drains (R174, R175): its generation, its records, the transcriber's contexts, the tile banks rebuilt and
the registers replaced, with what the registers, the tiles of those banks and the VLAN table then held. -/
structure OldStructure where
  gen : Nat
  str : Structure
  trn : TrnState
  banks : Nat := 0
  addrs : List Nat := []
  regs : List (Nat × Nat) := []
  can : List (Nat × CanTile) := []
  vlan : List (Nat × (Nat × Nat)) := []
deriving DecidableEq, Repr

/-! Sleep and wake (spec/13). Units: tiles 0 to 47, port p as 48 + p (the layout of R337). -/

/-- Wake configuration as it stood at a tile's last sleep entry (R340): WKS_TCFG, WKS_TID, WKS_TIDM, WKS_TDLC and the data mask. -/
structure WakeCfg where
  tcfg : Nat := 150 * 65536
  tid : Nat := 0
  tidm : Nat := 0x3FFFFFFF
  tdlc : Nat := 0
  tdm : Nat := 0
deriving DecidableEq, Repr

/-- A wake source (R352): its kind, its tile, port, channel or pin, and words 2 and 3 of its log entry. -/
structure WakeSrc where
  kind : Nat
  idx : Nat
  id : Nat := 0
  data : Nat := 0
deriving DecidableEq, Repr

structure WksState where
  /-- sources that fired in STANDBY and take effect at its exit (R351) -/
  held : List WakeSrc := []
  /-- LIN tiles woken by request or group that owe a wake pulse when they start (R346) -/
  pulseDue : List Nat := []
  /-- the wake configuration in force of each tile, and WKS_PCFG of each port, as they stood at the last sleep entry (R340) -/
  tiles : List (Nat × WakeCfg) := []
  ports : List (Nat × Nat) := []
  /-- units of each sleep write that are still on their way (R338) -/
  writes : List (List Nat) := []
  /-- ms view of the last frame each tile has seen (R345) -/
  seen : List (Nat × Nat) := []
  /-- open validation windows: unit, log entry, CK_TICK µs at the wake (R353) -/
  windows : List (Nat × (Nat × Nat)) := []
  /-- wake pulses sent by a LIN tile in its sequence (R346) -/
  pulses : List (Nat × Nat) := []
  /-- WAKE pins that have fired as sources of WKS_SRC and whose wake is still to be taken (R349), a bit each -/
  pinDue : Nat := 0
  /-- tiles woken in one cycle that still wait, in the order in which they start (R351) -/
  order : List (List Nat) := []
deriving DecidableEq, Repr

/-! Serial tiles (spec/12). -/

/-- A LIN commander's schedule (R330): the place of the last slot begun in the running table, whether a slot has begun, a collision
table in progress with the place in it, and the tables to return to after a `once` table, the last left first. -/
structure LinSched where
  slot : Nat := 0
  run : Bool := false
  coll : Option (Nat × Nat) := none
  back : List Nat := []
  /-- an event-triggered slot met a collision: the collision table to run next -/
  collided : Option Nat := none
deriving DecidableEq, Repr

structure SerTile where
  seq : Nat := 0
  /-- the transmit buffer: frames to send, at most 2 (R326), their bytes in `out` -/
  tx : List Replica := []
  /-- a transmission in progress: its bytes and whether software's frame (R333) -/
  sending : Option (List Byte × Bool) := none
  stopping : Bool := false
  sched : LinSched := {}
  /-- a LIN header's identifier whose response is awaited, and whether the tile publishes it -/
  lin : Option (Nat × Bool) := none
  /-- the levels a quiet or sleeping GPIO tile holds at its outputs (R173, R339) -/
  heldOut : Option Nat := none
  /-- the receive frame in progress of a UART or HDLC tile, each character with its stamp; of an HDLC tile from its opening flag on (R332, R334) -/
  rx : List (Nat × UartChar) := []
  /-- complete frames that wait for handoff, at most 4, their Waybills and bytes (R325) -/
  hand : List (Waybill × List Byte) := []
  /-- the second word of each stored LIN response, which a read of the first copies (R329, R361) -/
  rxHi : List (Nat × Nat) := []
deriving DecidableEq, Repr
/-! Ethernet ports and the MDIO master (spec/12). -/

/-- An egress stamp (R322). -/
structure TxStamp where
  ns : Nat
  sec : Nat
  seqid : Nat
  msgtype : Nat
  domain : Nat
deriving DecidableEq, Repr

structure EthState where
  /-- egress stamps of each port, oldest first, at most 16 -/
  txts : List (Nat × List TxStamp) := []
  /-- the command the one MDIO master runs: op, PHY, register, data (R314) -/
  mdio : Option (Nat × Nat × Nat × Nat) := none
  /-- seconds copied by the last read of TSY_NOWNS (R319) -/
  latchSec : Nat := 0
  /-- TIME_SYNC_LOSS raised and the watch not re-armed (R323) -/
  syncLost : Bool := false
  /-- ports whose frame in progress has been offered to the pipeline before its end (R208) -/
  met : Nat := 0
  /-- a T1S port's extra frames left in its transmit opportunity, and when its last frame ended in ns (R315) -/
  burst : List (Nat × (Nat × Nat)) := []
  /-- a backbone MAC was brought up by the boot ROM (R92), one bit each while its lanes have their supply and their PLL (R72, R83) -/
  bootLinks : Nat := 0
  /-- the boot ROM has brought the two up in this boot -/
  bootUp : Bool := false
deriving DecidableEq, Repr


/-! The host bridge and the Far Window (spec/14). -/

/-- A fetch buffer in use (R365, R367): the tag of its message, its lease, the requester, device, address and dwords; the result: none while in flight, an error
held, or the data held. -/
structure Fetch where
  tag : Nat
  rq : Requester
  lease : Nat
  dev : Nat
  addr : Nat
  n : Nat
  res : Option (Option (List Nat)) := none
  /-- PCIe host reads whose completion waits for the result -/
  held : Nat := 0
deriving DecidableEq, Repr

/-- A posted Far Window write (R368): its tag, the requester, device, address and dwords. -/
structure FarWrite where
  tag : Nat
  rq : Requester
  dev : Nat
  addr : Nat
  words : List Nat
deriving DecidableEq, Repr

/-- A remote event in the queue of R371: device, event, sequence number, time. -/
structure RemoteEvent where
  dev : Nat
  event : Nat
  seq : Nat
  us : Nat
deriving DecidableEq, Repr

structure BrgState where
  fetches : List (Nat × Fetch) := []
  writes : List FarWrite := []
  tag : Nat := 0
  revq : List RemoteEvent := []
  /-- Bus Master Enable, MSI-X Enable and Function Mask of the PCIe function -/
  master : Bool := false
  msixOn : Bool := false
  funcMask : Bool := false
  /-- the base addresses in BARs 0, 2 and 4, and the power state D3hot (R356) -/
  bars : List Nat := [0, 0, 0]
  d3hot : Bool := false
deriving DecidableEq, Repr


/-! The hierarchy unit (spec/15). -/

/-- A Ploilhan message as received (R390): the port it came by, the header's fields and the payload. -/
structure PMsg where
  port : Nat
  type : Nat
  src : Nat
  dst : Nat
  boot : Bool
  spos : Nat
  epoch : Nat
  counter : Nat
  payload : List Byte
deriving DecidableEq, Repr

/-- A device in the admitted set of a manager (R379, R380): its granted role, what its JOIN said, the position and time (ms) of its last
heartbeat, and the last IMAGE_BLOCK status it sent. -/
structure Peer where
  role : Nat := 7
  ident : Nat := 0
  cfg : Nat := 0
  image : Nat := 0
  pos : Nat := 63
  beat : Nat := 0
  boot : Bool := false
  dlt : Nat × Nat := (0, 0)
deriving DecidableEq, Repr

structure HieState where
  /-- frames handed to the unit and not yet looked at: port and frame -/
  rx : List (Nat × List Byte) := []
  /-- accepted messages that wait to be acted on, oldest first -/
  inbox : List PMsg := []
  /-- inline Waybills that left port 18's queue and wait to be sent, each behind a byte with its source port -/
  out : List (List Byte) := []
  /-- the manager's admitted devices by ID -/
  peers : List (Nat × Peer) := []
  /-- positions known from heartbeats (R378, R380), by ID, as position + 1 -/
  poss : List (Nat × Nat) := []
  /-- last accepted counters by source ID, as counter + 1 (R377) -/
  last : List (Nat × Nat) := []
  /-- authenticated messages sent in this session, heartbeats sent -/
  sent : Nat := 0
  beats : Nat := 0
  /-- JOINs held (R96), and those answered in this CK_TICK millisecond -/
  joinq : List PMsg := []
  answered : Nat := 0
  /-- the drawn delay in ms (R95), the role and ID of the last request -/
  delay : Nat := 0
  askRole : Nat := 0
  askId : Nat := 255
  /-- a part that yielded asks for the standby place (R382) -/
  yielded : Bool := false
  /-- the manager followed: its epoch, the admitted set and standby of its last heartbeat -/
  mgrEpoch : Nat := 0
  mgrSet : Nat := 0
  mgrStandby : Nat := 255
  /-- gathered delta chunks (R386): first offset and bytes -/
  gather : Option (Nat × List Byte) := none
  /-- pieces sent and their times in ticks (R384) -/
  served : List (Nat × Nat) := []
deriving DecidableEq, Repr


/-! Fuses and the ledger store: what survives every reset (spec/16, spec/19). -/

/-- Transition fuses of R392, image-key slots of R399, roots of R394. The part leaves the factory in QUARTZ (R393). -/
structure FuseState where
  q : Bool := true
  b : Bool := false
  g : Bool := false
  j : Bool := false
  s : Bool := false
  ident : Nat := 0
  /-- image-key slots: programmed, revoked, begun (4 bits each), and the hashes -/
  ikProg : Nat := 0
  ikRev : Nat := 0
  ikBegun : Nat := 0
  ikHash : List (Nat × List Byte) := []
  /-- per lifecycle code: root area A and B started, completed (bits of the code) -/
  aStart : Nat := 0
  aDone : Nat := 0
  bStart : Nat := 0
  bDone : Nat := 0
deriving DecidableEq, Repr

inductive NodeState where
  | free | live | orphaned
deriving DecidableEq, Repr

/-- A node of the generation table (R401). -/
structure Node where
  state : NodeState := .free
  parent : Nat := 0
  depth : Nat := 0
  gen : Nat := 0
  pgen : Nat := 0
deriving DecidableEq, Repr

/-! The key store (spec/16). -/

/-- A key slot (R409): the key's bytes (none: empty), its header fields, the nodes of its path, users, whether an invalidate has
stopped new use (R402), and its place in the order of use. -/
structure KeySlot where
  key : List Byte := []
  ktype : Nat := 0
  usage : Nat := 0
  keyid : Nat := 0
  node : Nat := 0
  gen : Nat := 0
  nonce : List Byte := []
  idx : Nat := 0xFFFF
  path : List Nat := []
  users : Nat := 0
  stopped : Bool := false
  last : Nat := 0
deriving DecidableEq, Repr

/-- A software load under way (R408): who asked, the blob's shelf index or 0xFFFF, and the blob. -/
structure LoadJob where
  rq : Requester
  idx : Nat
  blob : List Byte
deriving DecidableEq, Repr

/-- A wrap under way (R405): the header and content to wrap, where the blob goes, the source, the shelf index. -/
structure WrapJob where
  header : List Byte
  content : List Byte
  out : Nat
  src : Nat
  shelf : Option Nat
deriving DecidableEq, Repr

structure KeyState where
  slots : List (Nat × KeySlot) := []
  uses : Nat := 0
  loads : List LoadJob := []
  wraps : List WrapJob := []
  /-- the armed target and when it was armed, in CK_TICK µs (R393) -/
  arm : Option (Nat × Nat) := none
  /-- the fuse being burned, by its target -/
  burning : Option Nat := none
  /-- the current boundary-scan instruction (R398), and whether DBGSEL has put the debug TAP in the path -/
  scan : ScanInstr := .bypass
deriving DecidableEq, Repr

/-! The check-value, public-key, digest and random engines (spec/17). -/

/-- A software CMAC job on a lane (R419): its ring (0 secure, 1 normal), its place, the descriptor's words, and whether it is its
second run (R422). -/
structure CkvJob where
  ring : Nat
  idx : Nat
  w0 : Nat
  src : Nat
  len : Nat
  tag : Nat
  rerun : Bool := false
deriving DecidableEq, Repr

structure CkvState where
  lanes : List (Nat × CkvJob) := []
  /-- jobs to run again, ahead of every waiting one -/
  again : List CkvJob := []
  /-- descriptors taken from each ring, and results not yet written: ring, place, result, interrupt flag -/
  nextS : Nat := 0
  nextN : Nat := 0
  results : List (Nat × Nat × Nat × Bool) := []
  /-- the ring served last (R420) -/
  lastRing : Nat := 1
deriving DecidableEq, Repr

/-- A public-key job under way: its holder, and the result bytes to release (verify: one byte). -/
structure PkeJob where
  rq : Requester
  op : Nat
  curve : Nat
  keep : Bool
  res : List Byte
deriving DecidableEq, Repr

structure PkeState where
  /-- the operand memory, 32 KiB; an unlisted byte is 0 -/
  mem : List Host.Cell := []
  job : Option PkeJob := none
  /-- slots the previous job left as outputs under keep = 0 (R432) -/
  outs : List Nat := []
deriving DecidableEq, Repr

/-- A digest context (R434): the bytes given, the algorithm, whether a digest is open, and the call under way: its bytes (none:
source fault) and final. -/
structure DigCtx where
  msg : List Byte := []
  alg : Nat := 1
  act : Bool := false
  call : Option (Option (List Byte) × Bool) := none
deriving DecidableEq, Repr

structure DrgState where
  /-- generate calls made, those since the last reseed, words of the last call not yet read, failures in a row (R436, R437) -/
  calls : Nat := 0
  since : Nat := 0
  words : List Nat := []
  fails : Nat := 0
deriving DecidableEq, Repr

/-! The cabinet (spec/18). -/

/-- The part of open loop a motor is in (R452): alignment, forced acceleration from stand, passage through zero, or a manual test with
its operation, sector and duty or speed (R467). -/
inductive OpenLoop where
  | align | accel | zero | test (op sect duty : Nat)
deriving DecidableEq, Repr

/-- A condition judged over samples in a row (R453): set, samples at or above the threshold, samples below it. -/
structure Cond where
  on : Bool := false
  up : Nat := 0
  down : Nat := 0
deriving DecidableEq, Repr

/-- A motor channel: commanded target in rpm, internal target in 10^-7 rpm, integral and duty in 2^-20, braking duty in 10^-6, samples above
imax × 5/4 in a row, whether the observation is a measurement (R450), whether the start has been counted (R456), the part of
open loop, the last sector and position events in a row one way, and the DC-link conditions. -/
structure MotorCh where
  target : Int := 0
  internal : Int := 0
  integ : Int := 0
  duty : Int := 0
  brake : Nat := 0
  high : Nat := 0
  meas : Bool := false
  counted : Bool := true
  phase : OpenLoop := .align
  sector : Option Nat := none
  rev : Bool := false
  seq : Nat := 0
  soft : Cond := {}
  hard : Cond := {}
  trip : Cond := {}
deriving DecidableEq, Repr

structure CabState where
  motors : List (Nat × MotorCh) := []
  /-- channels that wait for their group's token, in the order they asked (R458) -/
  waits : List (Nat × List Nat) := []
  /-- place of each lamp's last switch-on in the order of switch-ons, and how many there were (R463) -/
  lastOn : List (Nat × Nat) := []
  ons : Nat := 0
  /-- lamp pulses and motor holds under test and their end in CK_TICK µs, motors at 32 + m (R467) -/
  tests : List (Nat × Nat) := []
  /-- samples in a row for which each window was met, or not met; windows not re-armed (R443) -/
  winMet : List (Nat × Nat) := []
  winNot : List (Nat × Nat) := []
  winFired : Nat := 0
deriving DecidableEq, Repr


/-! The wear ledger (spec/19). -/

/-- A ledger item's running values (R469, R478, R480, R481). -/
structure WearItem where
  /-- the count with its fraction: mA²·s and full-speed seconds in 10^-6, µAh in units of nA·s, seconds of thermal age in 2^-16 -/
  cnt : Nat := 0
  partialE : Bool := false
  /-- (month, value), newest first, at most 32 -/
  samples : List (Nat × Nat) := []
  warn : Bool := false
  hor : Bool := false
  eol : Bool := false
  /-- predicted day, early day, confidence -/
  pred : Option (Nat × Nat × Nat) := none
  repl : Nat := 0
  /-- used percent at the last ledger second (R480) -/
  used : Nat := 0
  /-- ledger day on which the value reached the rated life -/
  crossed : Option Nat := none
deriving DecidableEq, Repr

/-- A snapshot of the ledger (R475): its sequence number, the ledger clock, the RTC count of its last update, the months sampled,
AON_LOGSTAT.lost, and the items. -/
structure Snapshot where
  seq : Nat
  clock : Nat
  base : Nat
  month : Nat
  lost : Nat
  items : List (Nat × WearItem)
deriving DecidableEq, Repr

structure WearState where
  /-- ledger clock in seconds, and the RTC count at its last update (R468) -/
  clock : Nat := 0
  base : Nat := 0
  /-- items by code * 32 + instance -/
  items : List (Nat × WearItem) := []
  /-- months sampled so far -/
  month : Nat := 0
  /-- measurements in a row at or above, and below, the warn temperature; event 7 raised and not re-armed (R471) -/
  hot : Nat := 0
  cool : Nat := 0
  warned : Bool := false
  /-- a save asked for while one runs (R476) -/
  again : Bool := false
  /-- the snapshot being written (R475) -/
  saving : Option Snapshot := none
deriving DecidableEq, Repr

/-- The ledger store (R401, R406, R474, R475). -/
structure StoreState where
  floor : Nat := 0
  session : Nat := 0
  epoch : Nat := 0
  nodes : List (Nat × Node) := [(0, { state := .live, gen := 1 })]
  /-- shelf entries by index: place in the shelf's bytes and blob -/
  shelf : List (Nat × (Nat × List Byte)) := []
  /-- writes of each 1 KiB block (R474), at 256 * region + block -/
  blockWrites : List (Nat × Nat) := []
  snap : Option Snapshot := none
deriving DecidableEq, Repr

/-- Everything the spec gives the part, and the queue of commands that wait. -/
structure State where
  pending : List Instr := []
  regs : List (Nat × Nat) := []
  mem : List Host.Cell := []
  bus : Completion := .none
  outbox : List Emission := []
  /-- the MODEL's own count of free values drawn (log entry 3) -/
  freeCount : Nat := 0
  power : PowerState := {}
  aon : AonState := {}
  wires : WireState := {}
  linkA : LinkPort := {}
  linkB : LinkPort := {}
  evc : EvcState := {}
  loader : LoaderState := {}
  /-- the structure in force, empty before the first cut-over -/
  str : Structure := {}
  time : TimeBase := {}
  /-- what was raised in the current CK_TICK millisecond of the things raised at most once in each (R227, R302, R414) -/
  once : List Nat := []
  ink : InkState := {}
  /-- CK_TICK microseconds counted since the last divider release (R79) -/
  ticks : Nat := 0
  swc : SwcState := {}
  fwt : FwtState := {}
  trn : TrnState := {}
  old : Option OldStructure := none
  can : List (Nat × CanTile) := []
  wks : WksState := {}
  ser : List (Nat × SerTile) := []
  eth : EthState := {}
  brg : BrgState := {}
  hie : HieState := {}
  cab : CabState := {}
  fuse : FuseState := {}
  store : StoreState := {}
  wear : WearState := {}
  keys : KeyState := {}
  ckv : CkvState := {}
  pke : PkeState := {}
  dig : List (Nat × DigCtx) := []
  drg : DrgState := {}
deriving DecidableEq, Repr

/-- Reasons to stop with a fault. No command of this part stops it: the spec answers every access it refuses with a bus
error, which is a next state. The one constructor is raised by no meaning; it is safe. -/
inductive Fault where
  | unreachable
deriving DecidableEq, Repr

/-- Reasons to refuse a command. `notModelled` is raised only by an arm of `exec` whose command has no meaning yet; it is safe. -/
inductive Refusal where
  | notModelled (mnemonic : String)
deriving DecidableEq, Repr

/-- The part right after power-on reset has been released (R73): every register at the reset value of its table, mode BARE,
nothing listed in memory, no command waiting. -/
def State.reset : State := {}

end Sys2Proof.Machine
end

