-- ==== Sys2Proof/Machine/RegMap.lean ====
section
/-! DEFINITION. Every field of every register of the register tables of spec/01 to spec/20 (R496 gives the block
bases): its register address, lowest bit, width and reset value. An array takes its indices in the order the address adds
them. Reset values the tables leave to straps, fuses, levels or the ledger store stand as 0 (log entry 4). -/

namespace Sys2Proof.Machine

/-! LNK_ registers. -/
def LNK_WIRESTAT_in : Fld := ⟨0x400B0100, 0, 4, 0⟩
def LNK_WIRESTAT_rxa : Fld := ⟨0x400B0100, 4, 4, 0⟩
def LNK_WIRESTAT_rxb : Fld := ⟨0x400B0100, 8, 4, 0⟩
def LNK_WIRESTAT_out : Fld := ⟨0x400B0100, 12, 4, 0⟩
def LNK_WIRESTAT_wpol : Fld := ⟨0x400B0100, 16, 1, 0⟩
def LNK_WIREPOL_pol : Fld := ⟨0x400B0104, 0, 4, 0⟩
def LNK_WIRESRC_src0 : Fld := ⟨0x400B0108, 0, 3, 5⟩
def LNK_WIRESRC_src1 : Fld := ⟨0x400B0108, 4, 3, 1⟩
def LNK_WIRESRC_src2 : Fld := ⟨0x400B0108, 8, 3, 1⟩
def LNK_WIRESRC_src3 : Fld := ⟨0x400B0108, 12, 3, 1⟩
def LNK_WIRESET_soft : Fld := ⟨0x400B010C, 0, 4, 0⟩
def LNK_WIREMSG_en : Fld := ⟨0x400B0110, 0, 1, 0⟩
def LNK_WIREMSG_cpu : Fld := ⟨0x400B0110, 1, 1, 0⟩
def LNK_WIREMSG_hie : Fld := ⟨0x400B0110, 2, 1, 0⟩
def LNK_WIREMSG_tc : Fld := ⟨0x400B0110, 4, 3, 7⟩
def LNK_WIREMSG_ring : Fld := ⟨0x400B0110, 8, 5, 0⟩
def LNK_WIREEVT_chg : Fld := ⟨0x400B0114, 0, 4, 0⟩
def LNK_WIREEVT_qovf : Fld := ⟨0x400B0114, 8, 1, 0⟩
def LNK_WIRESEQ_seq0 : Fld := ⟨0x400B0118, 0, 8, 0⟩
def LNK_WIRESEQ_seq1 : Fld := ⟨0x400B0118, 8, 8, 0⟩
def LNK_WIRESEQ_seq2 : Fld := ⟨0x400B0118, 16, 8, 0⟩
def LNK_WIRESEQ_seq3 : Fld := ⟨0x400B0118, 24, 8, 0⟩
def LNK_CFGSTATE_code : Fld := ⟨0x400B011C, 0, 3, 0⟩
def LNK_WIREORGA_org0 : Fld := ⟨0x400B0120, 0, 6, 63⟩
def LNK_WIREORGA_org1 : Fld := ⟨0x400B0120, 6, 6, 63⟩
def LNK_WIREORGA_org2 : Fld := ⟨0x400B0120, 12, 6, 63⟩
def LNK_WIREORGA_org3 : Fld := ⟨0x400B0120, 18, 6, 63⟩
def LNK_WIREORGB_org0 : Fld := ⟨0x400B0124, 0, 6, 63⟩
def LNK_WIREORGB_org1 : Fld := ⟨0x400B0124, 6, 6, 63⟩
def LNK_WIREORGB_org2 : Fld := ⟨0x400B0124, 12, 6, 63⟩
def LNK_WIREORGB_org3 : Fld := ⟨0x400B0124, 18, 6, 63⟩
def LNK_STATUS_lock : Fld := ⟨0x400B0000, 0, 1, 0⟩
def LNK_STATUS_sta : Fld := ⟨0x400B0000, 1, 2, 3⟩
def LNK_STATUS_stb : Fld := ⟨0x400B0000, 3, 2, 3⟩
def LNK_STATUS_crossa : Fld := ⟨0x400B0000, 5, 1, 0⟩
def LNK_STATUS_crossb : Fld := ⟨0x400B0000, 6, 1, 0⟩
def LNK_STATUS_aever : Fld := ⟨0x400B0000, 7, 1, 0⟩
def LNK_STATUS_bever : Fld := ⟨0x400B0000, 8, 1, 0⟩
def LNK_STATUS_hopmis : Fld := ⟨0x400B0000, 9, 1, 0⟩
def LNK_STATUS_posv : Fld := ⟨0x400B0000, 10, 1, 0⟩
def LNK_STATUS_pos : Fld := ⟨0x400B0000, 16, 6, 0⟩
def LNK_FCNT_rxa : Fld := ⟨0x400B0004, 0, 8, 0⟩
def LNK_FCNT_rxb : Fld := ⟨0x400B0004, 8, 8, 0⟩
def LNK_FCNT_txa : Fld := ⟨0x400B0004, 16, 8, 0⟩
def LNK_FCNT_txb : Fld := ⟨0x400B0004, 24, 8, 0⟩
def LNK_WIREDEB_deb : Fld := ⟨0x400B0008, 0, 7, 10⟩
def LNK_ALARMSET0_set : Fld := ⟨0x400B000C, 0, 32, 0⟩
def LNK_ALARMSET1_set : Fld := ⟨0x400B0010, 0, 32, 0⟩
def LNK_ALARMRX0_rx : Fld := ⟨0x400B0014, 0, 32, 0⟩
def LNK_ALARMRX1_rx : Fld := ⟨0x400B0018, 0, 32, 0⟩
def LNK_ALARMMSK0_msk : Fld := ⟨0x400B001C, 0, 32, 0⟩
def LNK_ALARMMSK1_msk : Fld := ⟨0x400B0020, 0, 32, 0⟩
def LNK_EVT_locka : Fld := ⟨0x400B0024, 0, 1, 0⟩
def LNK_EVT_lossa : Fld := ⟨0x400B0024, 1, 1, 0⟩
def LNK_EVT_lockb : Fld := ⟨0x400B0024, 2, 1, 0⟩
def LNK_EVT_lossb : Fld := ⟨0x400B0024, 3, 1, 0⟩
def LNK_EVT_alarm : Fld := ⟨0x400B0024, 4, 1, 0⟩
def LNK_EVT_crossed : Fld := ⟨0x400B0024, 5, 1, 0⟩
def LNK_EVT_hopmis : Fld := ⟨0x400B0024, 6, 1, 0⟩
def LNK_ERRA_badsync : Fld := ⟨0x400B0030, 0, 8, 0⟩
def LNK_ERRA_crcfail : Fld := ⟨0x400B0030, 8, 8, 0⟩
def LNK_ERRA_wbad : Fld := ⟨0x400B0030, 16, 8, 0⟩
def LNK_ERRA_wgap : Fld := ⟨0x400B0030, 24, 8, 0⟩
def LNK_ERRB_badsync : Fld := ⟨0x400B0034, 0, 8, 0⟩
def LNK_ERRB_crcfail : Fld := ⟨0x400B0034, 8, 8, 0⟩
def LNK_ERRB_wbad : Fld := ⟨0x400B0034, 16, 8, 0⟩
def LNK_ERRB_wgap : Fld := ⟨0x400B0034, 24, 8, 0⟩
def LNK_LOCKCNTA_losses : Fld := ⟨0x400B0038, 0, 16, 0⟩
def LNK_LOCKCNTA_realign : Fld := ⟨0x400B0038, 16, 16, 0⟩
def LNK_LOCKCNTB_losses : Fld := ⟨0x400B003C, 0, 16, 0⟩
def LNK_LOCKCNTB_realign : Fld := ⟨0x400B003C, 16, 16, 0⟩
def LNK_MSGCTL_en : Fld := ⟨0x400B0040, 0, 1, 0⟩
def LNK_MSGCTL_tc : Fld := ⟨0x400B0040, 1, 3, 7⟩
def LNK_MSGCTL_ring : Fld := ⟨0x400B0040, 8, 5, 0⟩
def LNK_MSGTXA_dst : Fld := ⟨0x400B0044, 0, 6, 0⟩
def LNK_MSGTXA_len : Fld := ⟨0x400B0044, 8, 8, 0⟩
def LNK_MSGTXA_go : Fld := ⟨0x400B0044, 16, 1, 0⟩
def LNK_MSGTXB_dst : Fld := ⟨0x400B0048, 0, 6, 0⟩
def LNK_MSGTXB_len : Fld := ⟨0x400B0048, 8, 8, 0⟩
def LNK_MSGTXB_go : Fld := ⟨0x400B0048, 16, 1, 0⟩
def LNK_TXBUFA_data (i : Nat) : Fld := ⟨0x400B0200 + 0x4 * i, 0, 32, 0⟩
def LNK_TXBUFB_data (i : Nat) : Fld := ⟨0x400B0300 + 0x4 * i, 0, 32, 0⟩

/-! SYS_ registers. -/
def SYS_PARTID_id : Fld := ⟨0x40000000, 0, 32, 1216397477⟩
def SYS_REVID_step : Fld := ⟨0x40000004, 0, 4, 0⟩
def SYS_STRAP_role : Fld := ⟨0x40000008, 0, 2, 0⟩
def SYS_STRAP_bootsrc : Fld := ⟨0x40000008, 2, 2, 0⟩
def SYS_STRAP_wpol : Fld := ⟨0x40000008, 4, 1, 0⟩
def SYS_RSTCAUSE_por : Fld := ⟨0x4000000C, 0, 1, 1⟩
def SYS_RSTCAUSE_resetn : Fld := ⟨0x4000000C, 1, 1, 0⟩
def SYS_RSTCAUSE_clkfault : Fld := ⟨0x4000000C, 2, 1, 0⟩
def SYS_RSTCAUSE_swsys : Fld := ⟨0x4000000C, 3, 1, 0⟩
def SYS_RSTCAUSE_remfull : Fld := ⟨0x4000000C, 4, 1, 0⟩
def SYS_RSTCAUSE_wdn : Fld := ⟨0x4000000C, 5, 1, 0⟩
def SYS_RSTCAUSE_wds : Fld := ⟨0x4000000C, 6, 1, 0⟩
def SYS_RSTCAUSE_swworld : Fld := ⟨0x4000000C, 7, 1, 0⟩
def SYS_RSTCAUSE_remnorm : Fld := ⟨0x4000000C, 8, 1, 0⟩
def SYS_RSTCTL_action : Fld := ⟨0x40000010, 0, 2, 0⟩
def SYS_RSTCTL_key : Fld := ⟨0x40000010, 16, 16, 0⟩
def SYS_RAILOK_aux : Fld := ⟨0x40000014, 0, 1, 0⟩
def SYS_RAILOK_io1 : Fld := ⟨0x40000014, 1, 1, 0⟩
def SYS_RAILOK_io2 : Fld := ⟨0x40000014, 2, 1, 0⟩
def SYS_RAILOK_io3 : Fld := ⟨0x40000014, 3, 1, 0⟩
def SYS_RAILOK_tbank : Fld := ⟨0x40000014, 4, 6, 0⟩
def SYS_RAILOK_sds : Fld := ⟨0x40000014, 10, 1, 0⟩
def SYS_RAILOK_ddq : Fld := ⟨0x40000014, 11, 1, 0⟩
def SYS_RAILOK_t1s : Fld := ⟨0x40000014, 12, 1, 0⟩
def SYS_RAILOK_adc : Fld := ⟨0x40000014, 13, 1, 0⟩
def SYS_SUPPLY_wcore : Fld := ⟨0x40000018, 0, 1, 0⟩
def SYS_SUPPLY_wio0 : Fld := ⟨0x40000018, 1, 1, 0⟩
def SYS_SUPPLY_waux : Fld := ⟨0x40000018, 2, 1, 0⟩
def SYS_SUPPLY_railfail : Fld := ⟨0x40000018, 3, 1, 0⟩
def SYS_SUPPLY_pfail : Fld := ⟨0x40000018, 4, 1, 0⟩
def SYS_SUPPLY_pfnow : Fld := ⟨0x40000018, 5, 1, 0⟩
def SYS_WDN_CTL_en : Fld := ⟨0x40000020, 0, 1, 0⟩
def SYS_WDN_CTL_period : Fld := ⟨0x40000020, 16, 16, 1000⟩
def SYS_WDN_KICK_key : Fld := ⟨0x40000024, 0, 16, 0⟩
def SYS_WDN_STAT_first : Fld := ⟨0x40000028, 0, 1, 0⟩
def SYS_WDN_STAT_left : Fld := ⟨0x40000028, 16, 16, 0⟩
def SYS_WDS_CTL_period : Fld := ⟨0x40000030, 16, 16, 1000⟩
def SYS_WDS_KICK_key : Fld := ⟨0x40000034, 0, 16, 0⟩
def SYS_T_PLL_us : Fld := ⟨0x40000040, 0, 32, 0⟩
def SYS_T_LOAD_us : Fld := ⟨0x40000044, 0, 32, 0⟩
def SYS_T_SERVICE_us : Fld := ⟨0x40000048, 0, 32, 0⟩
def SYS_STARTUP_ramp : Fld := ⟨0x4000004C, 0, 6, 0⟩
def SYS_STARTUP_tiles : Fld := ⟨0x4000004C, 8, 6, 0⟩
def SYS_STARTUP_done : Fld := ⟨0x4000004C, 16, 1, 0⟩

/-! CKR_ registers. -/
def CKR_STATUS_xamp : Fld := ⟨0x40010000, 0, 1, 0⟩
def CKR_STATUS_xstable : Fld := ⟨0x40010000, 1, 1, 0⟩
def CKR_STATUS_rootlock : Fld := ⟨0x40010000, 2, 1, 0⟩
def CKR_STATUS_ddrlock : Fld := ⟨0x40010000, 3, 1, 0⟩
def CKR_STATUS_sdslock : Fld := ⟨0x40010000, 4, 4, 0⟩
def CKR_STATUS_pcieref : Fld := ⟨0x40010000, 8, 1, 0⟩
def CKR_RUN_clk : Fld := ⟨0x40010004, 0, 8, 0⟩
def CKR_SPIDIV_div : Fld := ⟨0x40010008, 0, 3, 0⟩
def CKR_LOCKLOSS_root : Fld := ⟨0x4001000C, 0, 16, 0⟩
def CKR_LOCKLOSS_other : Fld := ⟨0x4001000C, 16, 16, 0⟩
def CKR_EVT_ddrloss : Fld := ⟨0x40010010, 0, 1, 0⟩
def CKR_EVT_sdsloss : Fld := ⟨0x40010010, 1, 4, 0⟩
def CKR_EVT_pcieloss : Fld := ⟨0x40010010, 5, 1, 0⟩
def CKR_EVT_clkfault : Fld := ⟨0x40010010, 6, 1, 0⟩

/-! PWR_ registers. -/
def PWR_MODE_mode : Fld := ⟨0x40020000, 0, 4, 2⟩
def PWR_MODE_prev : Fld := ⟨0x40020000, 4, 4, 0⟩
def PWR_MODE_base : Fld := ⟨0x40020000, 8, 4, 0⟩
def PWR_MODEREQ_req : Fld := ⟨0x40020004, 0, 4, 0⟩
def PWR_MODEREQ_key : Fld := ⟨0x40020004, 16, 16, 0⟩
def PWR_STATUS_shed : Fld := ⟨0x40020008, 0, 1, 0⟩
def PWR_STATUS_why : Fld := ⟨0x40020008, 1, 3, 0⟩
def PWR_STATUS_refused : Fld := ⟨0x40020008, 4, 1, 0⟩
def PWR_DEGRADE_cause : Fld := ⟨0x4002000C, 0, 10, 0⟩
def PWR_DEGSEEN_seen : Fld := ⟨0x40020010, 0, 10, 0⟩
def PWR_READY_nrm : Fld := ⟨0x40020014, 0, 1, 0⟩
def PWR_READY_sec : Fld := ⟨0x40020014, 1, 1, 0⟩
def PWR_SHED_mot : Fld := ⟨0x40020018, 0, 4, 0⟩
def PWR_SHED_lmp : Fld := ⟨0x40020018, 4, 4, 0⟩
def PWR_SHED_acc : Fld := ⟨0x40020018, 8, 1, 0⟩
def PWR_SHED_t1s : Fld := ⟨0x40020018, 9, 1, 0⟩
def PWR_SHED_restore : Fld := ⟨0x40020018, 16, 16, 100⟩
def PWR_BOOTTRY_n : Fld := ⟨0x4002001C, 0, 3, 0⟩

/-! AON_ registers. -/
def AON_STATUS_aonpor : Fld := ⟨0x40150000, 0, 1, 1⟩
def AON_STATUS_busy : Fld := ⟨0x40150000, 1, 1, 0⟩
def AON_RTCLO_frac : Fld := ⟨0x40150004, 0, 15, 0⟩
def AON_RTCHI_sec : Fld := ⟨0x40150008, 0, 32, 0⟩
def AON_RTCSET_sec : Fld := ⟨0x4015000C, 0, 32, 0⟩
def AON_RTCALM_sec : Fld := ⟨0x40150010, 0, 32, 0⟩
def AON_ALMCTL_rtc : Fld := ⟨0x40150014, 0, 1, 0⟩
def AON_ALMCTL_wake0 : Fld := ⟨0x40150014, 1, 1, 0⟩
def AON_ALMCTL_wake1 : Fld := ⟨0x40150014, 2, 1, 0⟩
def AON_ALMCTL_wpol0 : Fld := ⟨0x40150014, 3, 1, 0⟩
def AON_ALMCTL_wpol1 : Fld := ⟨0x40150014, 4, 1, 0⟩
def AON_ALMCTL_tamper : Fld := ⟨0x40150014, 5, 1, 0⟩
def AON_ALMCTL_vbat : Fld := ⟨0x40150014, 6, 1, 1⟩
def AON_TAMPER_latch : Fld := ⟨0x40150018, 0, 1, 0⟩
def AON_TAMPER_pin : Fld := ⟨0x40150018, 1, 1, 0⟩
def AON_VBAT_mv10 : Fld := ⟨0x4015001C, 0, 10, 0⟩
def AON_VBAT_inhibit : Fld := ⟨0x4015001C, 10, 1, 0⟩
def AON_VBAT_low : Fld := ⟨0x4015001C, 16, 5, 25⟩
def AON_PREQ_hold : Fld := ⟨0x40150020, 0, 10, 60⟩
def AON_PREQ_sw : Fld := ⟨0x40150020, 16, 1, 0⟩
def AON_PREQ_rel : Fld := ⟨0x40150020, 17, 1, 0⟩
def AON_PREQ_asserted : Fld := ⟨0x40150020, 18, 1, 0⟩
def AON_WAKECAUSE_backup : Fld := ⟨0x40150024, 0, 1, 0⟩
def AON_WAKECAUSE_vbatrun : Fld := ⟨0x40150024, 1, 1, 0⟩
def AON_WAKECAUSE_rtc : Fld := ⟨0x40150024, 2, 1, 0⟩
def AON_WAKECAUSE_wake0 : Fld := ⟨0x40150024, 3, 1, 0⟩
def AON_WAKECAUSE_wake1 : Fld := ⟨0x40150024, 4, 1, 0⟩
def AON_WAKECAUSE_tamper : Fld := ⟨0x40150024, 5, 1, 0⟩
def AON_WAKECAUSE_vbatlow : Fld := ⟨0x40150024, 6, 1, 0⟩
def AON_WAKECAUSE_first : Fld := ⟨0x40150024, 8, 3, 0⟩
def AON_LOGSTAT_wr : Fld := ⟨0x40150028, 0, 5, 0⟩
def AON_LOGSTAT_unread : Fld := ⟨0x40150028, 8, 6, 0⟩
def AON_LOGSTAT_lost : Fld := ⟨0x40150028, 16, 8, 0⟩
def AON_LOGACK_ack : Fld := ⟨0x4015002C, 0, 1, 0⟩
def AON_LOG_entry (i : Nat) : Fld := ⟨0x40150100 + 0x4 * i, 0, 32, 0⟩

/-! IMG_ registers. -/
def IMG_STATUS_code : Fld := ⟨0x40050000, 0, 8, 0⟩
def IMG_STATUS_phase : Fld := ⟨0x40050000, 8, 4, 0⟩
def IMG_STATUS_slot : Fld := ⟨0x40050000, 12, 1, 0⟩
def IMG_STATUS_fallback : Fld := ⟨0x40050000, 13, 1, 0⟩
def IMG_STATUS_capped : Fld := ⟨0x40050000, 14, 1, 0⟩
def IMG_STATUS_sect : Fld := ⟨0x40050000, 16, 8, 0⟩
def IMG_DETAIL_rec : Fld := ⟨0x40050004, 0, 16, 0⟩
def IMG_DETAIL_off : Fld := ⟨0x40050004, 16, 8, 0⟩
def IMG_CODE0_code : Fld := ⟨0x40050008, 0, 8, 0⟩
def IMG_PREV_code : Fld := ⟨0x4005000C, 0, 8, 0⟩
def IMG_ID_id : Fld := ⟨0x40050010, 0, 32, 0⟩
def IMG_VERSION_version : Fld := ⟨0x40050014, 0, 32, 0⟩
def IMG_SECVER_secver : Fld := ⟨0x40050018, 0, 32, 0⟩
def IMG_LEN_len : Fld := ⟨0x4005001C, 0, 32, 0⟩
def IMG_CURDIG_dig (i : Nat) : Fld := ⟨0x40050040 + 0x4 * i, 0, 32, 0⟩
def IMG_DLTCTL_cmd : Fld := ⟨0x40050080, 0, 2, 0⟩
def IMG_DLTSRC_addr : Fld := ⟨0x40050084, 0, 32, 0⟩
def IMG_DLTOFF_off : Fld := ⟨0x40050088, 0, 21, 0⟩
def IMG_DLTLEN_len : Fld := ⟨0x4005008C, 0, 17, 0⟩
def IMG_DLTGO_go : Fld := ⟨0x40050090, 0, 1, 0⟩
def IMG_DLTSTAT_state : Fld := ⟨0x40050094, 0, 3, 0⟩
def IMG_DLTSTAT_busy : Fld := ⟨0x40050094, 3, 1, 0⟩
def IMG_DLTSTAT_refused : Fld := ⟨0x40050094, 4, 1, 0⟩
def IMG_DLTSTAT_why : Fld := ⟨0x40050094, 8, 3, 0⟩
def IMG_DLTSTAT_end : Fld := ⟨0x40050094, 12, 3, 0⟩
def IMG_DLTSTAT_owner : Fld := ⟨0x40050094, 16, 2, 0⟩
def IMG_DLTLEASE_ms : Fld := ⟨0x40050098, 0, 16, 5000⟩
def IMG_DLTBLKS_ok : Fld := ⟨0x4005009C, 0, 9, 0⟩
def IMG_DLTBLKS_bad : Fld := ⟨0x4005009C, 16, 8, 0⟩
def IMG_RCFG_gen : Fld := ⟨0x400500A0, 0, 16, 0⟩
def IMG_RCFG_drain : Fld := ⟨0x400500A0, 16, 1, 0⟩
def IMG_T_RCFG_us : Fld := ⟨0x400500A4, 0, 32, 0⟩
def IMG_DLTID_id : Fld := ⟨0x400500A8, 0, 32, 0⟩

/-! FAB_ registers. -/
def FAB_FUNC_fn (b i : Nat) : Fld := ⟨0x40060000 + 0x4 * b, 4 * i, 4, 0⟩
def FAB_BANKV_v33 : Fld := ⟨0x40060018, 0, 6, 0⟩
def FAB_RUN0_run : Fld := ⟨0x40060020, 0, 32, 0⟩
def FAB_RUN1_run : Fld := ⟨0x40060024, 0, 16, 0⟩
def FAB_QUIET0_q : Fld := ⟨0x40060028, 0, 32, 0⟩
def FAB_QUIET1_q : Fld := ⟨0x4006002C, 0, 16, 0⟩
def FAB_TPIN_pins (i : Nat) : Fld := ⟨0x40060100 + 0x4 * i, 0, 32, 4294967295⟩
def FAB_TCFG_pipe (i : Nat) : Fld := ⟨0x40060200 + 0x4 * i, 0, 8, 0⟩
def FAB_TCFG_tc (i : Nat) : Fld := ⟨0x40060200 + 0x4 * i, 8, 3, 0⟩
def FAB_TCFG_wake (i : Nat) : Fld := ⟨0x40060200 + 0x4 * i, 11, 1, 0⟩
def FAB_TCFG_lodger (i : Nat) : Fld := ⟨0x40060200 + 0x4 * i, 16, 16, 65535⟩
def FAB_PRIOPEND0_p : Fld := ⟨0x40060030, 0, 32, 0⟩
def FAB_PRIOPEND1_p : Fld := ⟨0x40060034, 0, 16, 0⟩
def FAB_CANEVT0_e : Fld := ⟨0x40060038, 0, 32, 0⟩
def FAB_CANEVT1_e : Fld := ⟨0x4006003C, 0, 16, 0⟩
def FAB_SEREVT0_e : Fld := ⟨0x40060040, 0, 32, 0⟩
def FAB_SEREVT1_e : Fld := ⟨0x40060044, 0, 16, 0⟩

/-! INK_ registers. -/
def INK_POOLSIZE_size : Fld := ⟨0x40040000, 0, 16, 0⟩
def INK_POOLFREE_free : Fld := ⟨0x40040004, 0, 16, 0⟩
def INK_POOLMIN_min : Fld := ⟨0x40040008, 0, 16, 65535⟩
def INK_POOLLOW_low : Fld := ⟨0x4004000C, 0, 16, 1024⟩
def INK_POOLLOW_high : Fld := ⟨0x4004000C, 16, 16, 2048⟩
def INK_ALLOCSTAT_empty : Fld := ⟨0x40040010, 0, 1, 1⟩
def INK_ALLOCSTAT_lowst : Fld := ⟨0x40040010, 1, 1, 0⟩
def INK_ALLOCSTAT_gptr : Fld := ⟨0x40040010, 8, 5, 0⟩
def INK_ALLOCSTAT_pptr : Fld := ⟨0x40040010, 16, 5, 0⟩
def INK_QSEL_port : Fld := ⟨0x40040014, 0, 5, 0⟩
def INK_QSEL_tc : Fld := ⟨0x40040014, 8, 3, 0⟩
def INK_QINFO0_guar : Fld := ⟨0x40040018, 0, 16, 0⟩
def INK_QINFO0_used : Fld := ⟨0x40040018, 16, 16, 0⟩
def INK_QINFO1_cap : Fld := ⟨0x4004001C, 0, 16, 0⟩
def INK_QINFO1_allow : Fld := ⟨0x4004001C, 16, 16, 0⟩
def INK_WBFREE_free : Fld := ⟨0x40040020, 0, 17, 65536⟩
def INK_INLINE_used : Fld := ⟨0x40040024, 0, 11, 0⟩
def INK_PGREQ_n : Fld := ⟨0x40040040, 0, 9, 0⟩
def INK_PGREQ_tc : Fld := ⟨0x40040040, 9, 3, 0⟩
def INK_PGRESP_done : Fld := ⟨0x40040044, 0, 1, 0⟩
def INK_PGRESP_refused : Fld := ⟨0x40040044, 1, 1, 0⟩
def INK_PGRESP_why : Fld := ⟨0x40040044, 2, 2, 0⟩
def INK_PGRESP_lease : Fld := ⟨0x40040044, 4, 10, 0⟩
def INK_PGRESP_page : Fld := ⟨0x40040044, 16, 16, 0⟩
def INK_PGFREE_lease : Fld := ⟨0x40040048, 0, 10, 0⟩
def INK_LSDUR_pg : Fld := ⟨0x4004004C, 0, 16, 1000⟩
def INK_LSDUR_rx : Fld := ⟨0x4004004C, 16, 16, 1000⟩
def INK_LSLOCK_ms : Fld := ⟨0x40040050, 0, 16, 10⟩
def INK_LSSEL_idx : Fld := ⟨0x40040060, 0, 10, 0⟩
def INK_LSINFO0_state : Fld := ⟨0x40040064, 0, 2, 0⟩
def INK_LSINFO0_kind : Fld := ⟨0x40040064, 4, 4, 0⟩
def INK_LSINFO0_res : Fld := ⟨0x40040064, 8, 16, 0⟩
def INK_LSINFO1_owner : Fld := ⟨0x40040068, 0, 16, 0⟩
def INK_LSINFO1_left : Fld := ⟨0x40040068, 16, 16, 0⟩
def INK_LSRENEW_lease : Fld := ⟨0x4004006C, 0, 10, 0⟩
def INK_LSREL_lease : Fld := ⟨0x40040070, 0, 10, 0⟩
def INK_LSCOUNT_held : Fld := ⟨0x40040074, 0, 11, 0⟩
def INK_LSCOUNT_full : Fld := ⟨0x40040074, 16, 16, 0⟩
def INK_REVOKE_lease : Fld := ⟨0x40040080, 0, 10, 0⟩
def INK_REVOKE_all : Fld := ⟨0x40040080, 16, 1, 0⟩
def INK_REVSTAT_refused : Fld := ⟨0x40040084, 0, 1, 0⟩
def INK_REVSTAT_why : Fld := ⟨0x40040084, 1, 3, 0⟩
def INK_REVLOG0_owner : Fld := ⟨0x40040088, 0, 16, 0⟩
def INK_REVLOG0_decl : Fld := ⟨0x40040088, 16, 4, 0⟩
def INK_REVLOG1_count : Fld := ⟨0x4004008C, 0, 11, 0⟩
def INK_REVLOG1_total : Fld := ⟨0x4004008C, 16, 16, 0⟩
def INK_LDGSEL_lid : Fld := ⟨0x400400C0, 0, 8, 0⟩
def INK_LDGSTAT_state : Fld := ⟨0x400400C4, 0, 3, 0⟩
def INK_LDGSTAT_res : Fld := ⟨0x400400C4, 3, 1, 0⟩
def INK_LDGSTAT_pin : Fld := ⟨0x400400C4, 4, 1, 0⟩
def INK_LDGSTAT_late : Fld := ⟨0x400400C4, 5, 1, 0⟩
def INK_LDGBUD_left : Fld := ⟨0x400400C8, 0, 32, 0⟩
def INK_LDGMISS_periods : Fld := ⟨0x400400CC, 0, 16, 0⟩
def INK_LDGMISS_items : Fld := ⟨0x400400CC, 16, 16, 0⟩
def INK_LDGOVR_ovr : Fld := ⟨0x400400D0, 0, 16, 0⟩
def INK_LDGOVR_faults : Fld := ⟨0x400400D0, 16, 16, 0⟩
def INK_LDGQ_queued : Fld := ⟨0x400400D4, 0, 16, 0⟩
def INK_SCHED_busy : Fld := ⟨0x400400E0, 0, 5, 0⟩
def INK_SCHED_resident : Fld := ⟨0x400400E0, 8, 6, 0⟩
def INK_SCHED_misses : Fld := ⟨0x400400E0, 16, 16, 0⟩
def INK_MISSLOG_lid : Fld := ⟨0x400400E4, 0, 8, 0⟩
def INK_PAGECFG_thr : Fld := ⟨0x400400E8, 0, 8, 16⟩
def INK_PAGESTAT_faults : Fld := ⟨0x400400EC, 0, 16, 0⟩
def INK_PAGESTAT_thrash : Fld := ⟨0x400400EC, 16, 1, 0⟩
def INK_PAGESTAT_maxlat : Fld := ⟨0x400400EC, 24, 8, 0⟩
def INK_RESIDENT_res (i : Nat) : Fld := ⟨0x400400F0 + 0x4 * i, 0, 32, 0⟩
def INK_DROP_count (p r : Nat) : Fld := ⟨0x40040400 + 0x20 * p + 0x4 * r, 0, 32, 0⟩

/-! SWC_ registers. -/
def SWC_LOCK_take : Fld := ⟨0x40070000, 0, 1, 0⟩
def SWC_LOCK_held : Fld := ⟨0x40070000, 1, 1, 0⟩
def SWC_LOCK_busy : Fld := ⟨0x40070000, 2, 1, 0⟩
def SWC_LOCK_lease : Fld := ⟨0x40070000, 4, 10, 0⟩
def SWC_CTPORT_en : Fld := ⟨0x40070004, 0, 12, 0⟩
def SWC_CTCLS_en : Fld := ⟨0x40070008, 0, 8, 0⟩
def SWC_MIRCTL_dst : Fld := ⟨0x4007000C, 0, 5, 0⟩
def SWC_MIRCTL_tc : Fld := ⟨0x4007000C, 5, 3, 0⟩
def SWC_MIRCTL_en : Fld := ⟨0x4007000C, 8, 1, 0⟩
def SWC_MIRIN_ports : Fld := ⟨0x40070010, 0, 20, 0⟩
def SWC_MIREG_ports : Fld := ⟨0x40070014, 0, 20, 0⟩
def SWC_POLSTAT_last : Fld := ⟨0x40070018, 0, 12, 0⟩
def SWC_POLSTAT_oor : Fld := ⟨0x40070018, 16, 16, 0⟩
def SWC_SNAP_port : Fld := ⟨0x4007001C, 0, 5, 0⟩
def SWC_SNAP_clr : Fld := ⟨0x4007001C, 8, 1, 0⟩
def SWC_SNAPSTAT_done : Fld := ⟨0x40070020, 0, 1, 0⟩
def SWC_SNAPSTAT_port : Fld := ⟨0x40070020, 1, 5, 0⟩
def SWC_SNAPCNT_cnt (i : Nat) : Fld := ⟨0x40070040 + 0x4 * i, 0, 32, 0⟩
def SWC_VLSEL_vid : Fld := ⟨0x40070100, 0, 12, 0⟩
def SWC_VLMEM_member : Fld := ⟨0x40070104, 0, 16, 0⟩
def SWC_VLMEM_untag : Fld := ⟨0x40070104, 16, 16, 0⟩
def SWC_CBSEL_sh : Fld := ⟨0x40070140, 0, 10, 0⟩
def SWC_CBCFG_len : Fld := ⟨0x40070144, 0, 6, 32⟩
def SWC_CBCFG_pop : Fld := ⟨0x40070144, 6, 1, 0⟩
def SWC_CBCFG_en : Fld := ⟨0x40070144, 7, 1, 0⟩
def SWC_CBCFG_reset : Fld := ⟨0x40070144, 16, 16, 100⟩
def SWC_CBCNT_cnt (i : Nat) : Fld := ⟨0x40070148 + 0x4 * i, 0, 32, 0⟩
def SWC_CBRESETS_cnt : Fld := ⟨0x40070160, 0, 32, 0⟩
def SWC_RBASE_addr (r : Nat) : Fld := ⟨0x40070800 + 0x20 * r, 0, 32, 0⟩
def SWC_RCFG_en (r : Nat) : Fld := ⟨0x40070804 + 0x20 * r, 0, 1, 0⟩
def SWC_RCFG_dir (r : Nat) : Fld := ⟨0x40070804 + 0x20 * r, 1, 1, 0⟩
def SWC_RCFG_dirc (r : Nat) : Fld := ⟨0x40070804 + 0x20 * r, 2, 1, 0⟩
def SWC_RCFG_size (r : Nat) : Fld := ⟨0x40070804 + 0x20 * r, 4, 4, 4⟩
def SWC_RCFG_qlim (r : Nat) : Fld := ⟨0x40070804 + 0x20 * r, 16, 16, 1024⟩
def SWC_RHEAD_idx (r : Nat) : Fld := ⟨0x40070808 + 0x20 * r, 0, 12, 0⟩
def SWC_RTAIL_idx (r : Nat) : Fld := ⟨0x4007080C + 0x20 * r, 0, 12, 0⟩
def SWC_RIRQ_cnt (r : Nat) : Fld := ⟨0x40070810 + 0x20 * r, 0, 8, 1⟩
def SWC_RIRQ_us (r : Nat) : Fld := ⟨0x40070810 + 0x20 * r, 8, 10, 0⟩
def SWC_RIRQ_vec (r : Nat) : Fld := ⟨0x40070810 + 0x20 * r, 18, 6, 0⟩
def SWC_RIRQ_msix (r : Nat) : Fld := ⟨0x40070810 + 0x20 * r, 24, 1, 0⟩
def SWC_RIRQ_core (r : Nat) : Fld := ⟨0x40070810 + 0x20 * r, 25, 2, 0⟩
def SWC_RSTAT_drop (r : Nat) : Fld := ⟨0x40070814 + 0x20 * r, 0, 16, 0⟩
def SWC_RSTAT_bad (r : Nat) : Fld := ⟨0x40070814 + 0x20 * r, 16, 15, 0⟩
def SWC_RSTAT_err (r : Nat) : Fld := ⟨0x40070814 + 0x20 * r, 31, 1, 0⟩
def SWC_PCFG_pvid (p : Nat) : Fld := ⟨0x40071000 + 0x400 * p, 0, 12, 1⟩
def SWC_PCFG_acc (p : Nat) : Fld := ⟨0x40071000 + 0x400 * p, 12, 2, 0⟩
def SWC_PCFG_upcp (p : Nat) : Fld := ⟨0x40071000 + 0x400 * p, 16, 3, 0⟩
def SWC_PCP2TC_tc (p i : Nat) : Fld := ⟨0x40071004 + 0x400 * p, 3 * i, 3, i⟩
def SWC_GCTL_en (p : Nat) : Fld := ⟨0x40071008 + 0x400 * p, 0, 1, 0⟩
def SWC_GSTAT_pend (p : Nat) : Fld := ⟨0x4007100C + 0x400 * p, 0, 1, 0⟩
def SWC_GSTAT_gates (p : Nat) : Fld := ⟨0x4007100C + 0x400 * p, 8, 8, 255⟩
def SWC_GSTAT_hold (p : Nat) : Fld := ⟨0x4007100C + 0x400 * p, 16, 8, 0⟩
def SWC_GSTAT_entry (p : Nat) : Fld := ⟨0x4007100C + 0x400 * p, 24, 6, 0⟩
def SWC_GBSEC_sec (p : Nat) : Fld := ⟨0x40071010 + 0x400 * p, 0, 32, 0⟩
def SWC_GBNS_ns (p : Nat) : Fld := ⟨0x40071014 + 0x400 * p, 0, 30, 0⟩
def SWC_GCYCLE_ns (p : Nat) : Fld := ⟨0x40071018 + 0x400 * p, 0, 30, 1000000⟩
def SWC_GEXT_ns (p : Nat) : Fld := ⟨0x4007101C + 0x400 * p, 0, 30, 0⟩
def SWC_GLEN_n (p : Nat) : Fld := ⟨0x40071020 + 0x400 * p, 0, 7, 0⟩
def SWC_GATEDROP_cnt (p : Nat) : Fld := ⟨0x40071024 + 0x400 * p, 0, 32, 0⟩
def SWC_MAXSDU_bytes (p i : Nat) : Fld := ⟨0x40071040 + 0x400 * p + 0x4 * i, 0, 14, 0⟩
def SWC_IDLESLOPE_kbps (p i : Nat) : Fld := ⟨0x40071060 + 0x400 * p + 0x4 * i, 0, 22, 0⟩
def SWC_QLIM_pages (p i : Nat) : Fld := ⟨0x40071080 + 0x400 * p + 0x4 * i, 0, 16, 4096⟩
def SWC_QDEPTH_pages (p i : Nat) : Fld := ⟨0x400710A0 + 0x400 * p + 0x4 * i, 0, 16, 0⟩
def SWC_QDEPTH_frames (p i : Nat) : Fld := ⟨0x400710A0 + 0x400 * p + 0x4 * i, 16, 16, 0⟩
def SWC_GADM_gates (p i : Nat) : Fld := ⟨0x40071100 + 0x400 * p + 0x4 * i, 0, 8, 255⟩
def SWC_GADM_ivl (p i : Nat) : Fld := ⟨0x40071100 + 0x400 * p + 0x4 * i, 8, 24, 0⟩
def SWC_GOPR_entry (p i : Nat) : Fld := ⟨0x40071200 + 0x400 * p + 0x4 * i, 0, 32, 0⟩

/-! FWT_ registers. -/
def FWT_LOCK_take : Fld := ⟨0x40080000, 0, 1, 0⟩
def FWT_LOCK_held : Fld := ⟨0x40080000, 1, 1, 0⟩
def FWT_LOCK_busy : Fld := ⟨0x40080000, 2, 1, 0⟩
def FWT_LOCK_lease : Fld := ⟨0x40080000, 4, 10, 0⟩
def FWT_STAT_drain : Fld := ⟨0x40080004, 0, 1, 0⟩
def FWT_STAT_lrnq : Fld := ⟨0x40080004, 16, 7, 0⟩
def FWT_L2SEED_seed (i : Nat) : Fld := ⟨0x40080010 + 0x4 * i, 0, 32, [0xFFFFFFFF, 0x5A5A5A5A, 0xC3C3C3C3, 0x0F1E2D3C].getD i 0⟩
def FWT_CRSEED_seed (i : Nat) : Fld := ⟨0x40080020 + 0x4 * i, 0, 32, [0xFFFFFFFF, 0x5A5A5A5A, 0xC3C3C3C3, 0x0F1E2D3C].getD i 0⟩
def FWT_BANKMAP_b0 : Fld := ⟨0x40080030, 0, 3, 0⟩
def FWT_BANKMAP_b1 : Fld := ⟨0x40080030, 4, 3, 1⟩
def FWT_BANKMAP_b2 : Fld := ⟨0x40080030, 8, 3, 2⟩
def FWT_BANKMAP_b3 : Fld := ⟨0x40080030, 12, 3, 3⟩
def FWT_BANKMAP_sh : Fld := ⟨0x40080030, 16, 3, 4⟩
def FWT_SHSEED_seed : Fld := ⟨0x40080034, 0, 32, 0⟩
def FWT_RHCTL_bank : Fld := ⟨0x40080038, 0, 2, 0⟩
def FWT_RHCTL_go : Fld := ⟨0x40080038, 8, 1, 0⟩
def FWT_RHCTL_cancel : Fld := ⟨0x40080038, 9, 1, 0⟩
def FWT_RHSTAT_state : Fld := ⟨0x4008003C, 0, 3, 0⟩
def FWT_RHSTAT_noswap : Fld := ⟨0x4008003C, 3, 1, 0⟩
def FWT_RHSTAT_moved : Fld := ⟨0x4008003C, 16, 16, 0⟩
def FWT_RHFAIL_fail : Fld := ⟨0x40080040, 0, 16, 0⟩
def FWT_RHSWAP_swap : Fld := ⟨0x40080044, 0, 1, 0⟩
def FWT_AGE_sec : Fld := ⟨0x40080050, 0, 16, 300⟩
def FWT_LRNPORT_ports : Fld := ⟨0x40080054, 0, 16, 65520⟩
def FWT_COUNT_valid : Fld := ⟨0x40080058, 0, 18, 0⟩
def FWT_LRNCNT_learned : Fld := ⟨0x4008005C, 0, 16, 0⟩
def FWT_LRNCNT_moves : Fld := ⟨0x4008005C, 16, 16, 0⟩
def FWT_AGECNT_local : Fld := ⟨0x40080060, 0, 16, 0⟩
def FWT_AGECNT_remote : Fld := ⟨0x40080060, 16, 16, 0⟩
def FWT_LRNSKIP_skip : Fld := ⟨0x40080064, 0, 16, 0⟩
def FWT_INSKEY0_key : Fld := ⟨0x40080070, 0, 32, 0⟩
def FWT_INSKEY1_key : Fld := ⟨0x40080074, 0, 32, 0⟩
def FWT_INSSRC_src : Fld := ⟨0x40080078, 0, 3, 0⟩
def FWT_INSSRC_type : Fld := ⟨0x40080078, 4, 3, 0⟩
def FWT_INSCNT_cnt : Fld := ⟨0x4008007C, 0, 16, 0⟩
def FWT_INSBKT0_k0 : Fld := ⟨0x40080080, 0, 16, 0⟩
def FWT_INSBKT0_k1 : Fld := ⟨0x40080080, 16, 16, 0⟩
def FWT_INSBKT1_k2 : Fld := ⟨0x40080084, 0, 16, 0⟩
def FWT_INSBKT1_k3 : Fld := ⟨0x40080084, 16, 16, 0⟩
def FWT_PSRC_addr : Fld := ⟨0x400800A0, 0, 32, 0⟩
def FWT_PCNT_n : Fld := ⟨0x400800A4, 0, 11, 0⟩
def FWT_PGO_go : Fld := ⟨0x400800A8, 0, 1, 0⟩
def FWT_PSTAT_busy : Fld := ⟨0x400800AC, 0, 1, 0⟩
def FWT_PSTAT_err : Fld := ⟨0x400800AC, 1, 1, 0⟩
def FWT_PSTAT_staged : Fld := ⟨0x400800AC, 16, 11, 0⟩
def FWT_PFIRST_first : Fld := ⟨0x400800B0, 0, 11, 0⟩
def FWT_EPOCH_epoch : Fld := ⟨0x400800C0, 0, 32, 0⟩
def FWT_CVCFG_skew : Fld := ⟨0x400800C4, 0, 16, 50⟩
def FWT_CVCFG_flap : Fld := ⟨0x400800C4, 16, 16, 1000⟩
def FWT_BBCFG_front : Fld := ⟨0x400800C8, 0, 2, 0⟩
def FWT_BBCFG_rear : Fld := ⟨0x400800C8, 4, 2, 1⟩
def FWT_CVQ_in : Fld := ⟨0x400800CC, 0, 10, 0⟩
def FWT_CVQ_out : Fld := ⟨0x400800CC, 16, 5, 0⟩
def FWT_CVCNT_cnt (i : Nat) : Fld := ⟨0x400800D0 + 0x4 * i, 0, 32, 0⟩
def FWT_ENCAP_etype : Fld := ⟨0x40080100, 0, 16, 34998⟩
def FWT_ENCAP_vid : Fld := ⟨0x40080100, 16, 12, 1⟩
def FWT_ENCAPDA0_da : Fld := ⟨0x40080104, 0, 32, 2152202243⟩
def FWT_ENCAPDA1_da : Fld := ⟨0x40080108, 0, 8, 0⟩
def FWT_ENCAPSA0_sa : Fld := ⟨0x4008010C, 0, 32, 0⟩
def FWT_ENCAPSA1_sa : Fld := ⟨0x40080110, 0, 16, 0⟩
def FWT_TBASE_base (i : Nat) : Fld := ⟨0x40080140 + 0x4 * i, 0, 32, 0⟩
def FWT_TENT_entries (i : Nat) : Fld := ⟨0x40080160 + 0x4 * i, 0, 18, 0⟩
def FWT_TENT_shadow (i : Nat) : Fld := ⟨0x40080160 + 0x4 * i, 18, 1, 0⟩
def FWT_TENT_learn (i : Nat) : Fld := ⟨0x40080160 + 0x4 * i, 19, 1, 0⟩

/-! TRN_ registers. -/
def TRN_LSEL_lid : Fld := ⟨0x40090000, 0, 8, 0⟩
def TRN_LINFO_nin : Fld := ⟨0x40090004, 0, 9, 0⟩
def TRN_LINFO_nout : Fld := ⟨0x40090004, 16, 9, 0⟩
def TRN_RXCNT_items : Fld := ⟨0x40090008, 0, 32, 0⟩
def TRN_TXCNT_outputs : Fld := ⟨0x4009000C, 0, 32, 0⟩
def TRN_NOMATCH_nomatch : Fld := ⟨0x40090010, 0, 16, 0⟩
def TRN_NOMATCH_short : Fld := ⟨0x40090010, 16, 16, 0⟩
def TRN_SATCNT_sat : Fld := ⟨0x40090014, 0, 16, 0⟩
def TRN_SATCNT_inv : Fld := ⟨0x40090014, 16, 16, 0⟩
def TRN_TMOCNT_tmo : Fld := ⟨0x40090018, 0, 16, 0⟩
def TRN_TMOCNT_authrej : Fld := ⟨0x40090018, 16, 16, 0⟩
def TRN_LATECNT_sent : Fld := ⟨0x4009001C, 0, 16, 0⟩
def TRN_LATECNT_drop : Fld := ⟨0x4009001C, 16, 16, 0⟩
def TRN_DEFCNT_def : Fld := ⟨0x40090020, 0, 16, 0⟩
def TRN_DEFCNT_merge : Fld := ⟨0x40090020, 16, 16, 0⟩
def TRN_SIGSEL_sig : Fld := ⟨0x40090040, 0, 16, 0⟩
def TRN_SIGVAL_value : Fld := ⟨0x40090044, 0, 32, 0⟩
def TRN_SIGST_st : Fld := ⟨0x40090048, 0, 3, 0⟩
def TRN_SIGST_late : Fld := ⟨0x40090048, 3, 1, 0⟩
def TRN_SIGST_age : Fld := ⟨0x40090048, 16, 16, 0⟩
def TRN_OBUF_used : Fld := ⟨0x40090060, 0, 7, 0⟩
def TRN_OBUF_stall : Fld := ⟨0x40090060, 16, 1, 0⟩
def TRN_IDX_entries : Fld := ⟨0x40090064, 0, 14, 0⟩
def TRN_IDX_timers : Fld := ⟨0x40090064, 16, 15, 0⟩

/-! CAN_ registers. -/
def CAN_CTL_start (n : Nat) : Fld := ⟨0x40200000 + 0x1000 * n, 0, 1, 0⟩
def CAN_CTL_stop (n : Nat) : Fld := ⟨0x40200000 + 0x1000 * n, 1, 1, 0⟩
def CAN_CTL_recover (n : Nat) : Fld := ⟨0x40200000 + 0x1000 * n, 2, 1, 0⟩
def CAN_STAT_state (n : Nat) : Fld := ⟨0x40200004 + 0x1000 * n, 0, 4, 0⟩
def CAN_STAT_warn (n : Nat) : Fld := ⟨0x40200004 + 0x1000 * n, 4, 1, 0⟩
def CAN_STAT_txing (n : Nat) : Fld := ⟨0x40200004 + 0x1000 * n, 5, 1, 0⟩
def CAN_STAT_rxing (n : Nat) : Fld := ⟨0x40200004 + 0x1000 * n, 6, 1, 0⟩
def CAN_CFG_fden (n : Nat) : Fld := ⟨0x40200008 + 0x1000 * n, 0, 1, 1⟩
def CAN_CFG_brsen (n : Nat) : Fld := ⟨0x40200008 + 0x1000 * n, 1, 1, 1⟩
def CAN_CFG_pex (n : Nat) : Fld := ⟨0x40200008 + 0x1000 * n, 2, 1, 1⟩
def CAN_CFG_lom (n : Nat) : Fld := ⟨0x40200008 + 0x1000 * n, 3, 1, 0⟩
def CAN_CFG_xles (n : Nat) : Fld := ⟨0x40200008 + 0x1000 * n, 4, 1, 1⟩
def CAN_CFG_oneshot (n : Nat) : Fld := ⟨0x40200008 + 0x1000 * n, 5, 1, 0⟩
def CAN_CFG_bor (n : Nat) : Fld := ⟨0x40200008 + 0x1000 * n, 6, 2, 0⟩
def CAN_CFG_nomatch (n : Nat) : Fld := ⟨0x40200008 + 0x1000 * n, 8, 1, 0⟩
def CAN_CFG_boflush (n : Nat) : Fld := ⟨0x40200008 + 0x1000 * n, 9, 1, 0⟩
def CAN_CFG_bodelay (n : Nat) : Fld := ⟨0x40200008 + 0x1000 * n, 16, 16, 100⟩
def CAN_NBT_brp (n : Nat) : Fld := ⟨0x4020000C + 0x1000 * n, 0, 8, 0⟩
def CAN_NBT_tseg1 (n : Nat) : Fld := ⟨0x4020000C + 0x1000 * n, 8, 8, 126⟩
def CAN_NBT_tseg2 (n : Nat) : Fld := ⟨0x4020000C + 0x1000 * n, 16, 7, 31⟩
def CAN_NBT_sjw (n : Nat) : Fld := ⟨0x4020000C + 0x1000 * n, 24, 7, 31⟩
def CAN_DBT_brp (n : Nat) : Fld := ⟨0x40200010 + 0x1000 * n, 0, 5, 0⟩
def CAN_DBT_tseg1 (n : Nat) : Fld := ⟨0x40200010 + 0x1000 * n, 8, 5, 30⟩
def CAN_DBT_tseg2 (n : Nat) : Fld := ⟨0x40200010 + 0x1000 * n, 16, 4, 7⟩
def CAN_DBT_sjw (n : Nat) : Fld := ⟨0x40200010 + 0x1000 * n, 24, 4, 7⟩
def CAN_DBT_tdc (n : Nat) : Fld := ⟨0x40200010 + 0x1000 * n, 28, 1, 0⟩
def CAN_XBT_brp (n : Nat) : Fld := ⟨0x40200014 + 0x1000 * n, 0, 5, 0⟩
def CAN_XBT_tseg1 (n : Nat) : Fld := ⟨0x40200014 + 0x1000 * n, 8, 5, 1⟩
def CAN_XBT_tseg2 (n : Nat) : Fld := ⟨0x40200014 + 0x1000 * n, 16, 4, 0⟩
def CAN_XBT_sjw (n : Nat) : Fld := ⟨0x40200014 + 0x1000 * n, 24, 4, 0⟩
def CAN_XBT_tdc (n : Nat) : Fld := ⟨0x40200014 + 0x1000 * n, 28, 1, 0⟩
def CAN_TDC_tdco (n : Nat) : Fld := ⟨0x40200018 + 0x1000 * n, 0, 7, 0⟩
def CAN_TDC_meas (n : Nat) : Fld := ⟨0x40200018 + 0x1000 * n, 8, 7, 0⟩
def CAN_PINCFG_stbinv (n : Nat) : Fld := ⟨0x4020001C + 0x1000 * n, 0, 1, 0⟩
def CAN_PINCFG_eninv (n : Nat) : Fld := ⟨0x4020001C + 0x1000 * n, 1, 1, 0⟩
def CAN_ERR_tec (n : Nat) : Fld := ⟨0x40200020 + 0x1000 * n, 0, 9, 0⟩
def CAN_ERR_rec (n : Nat) : Fld := ⟨0x40200020 + 0x1000 * n, 16, 9, 0⟩
def CAN_LEC_code (n : Nat) : Fld := ⟨0x40200024 + 0x1000 * n, 0, 3, 0⟩
def CAN_LEC_dph (n : Nat) : Fld := ⟨0x40200024 + 0x1000 * n, 3, 1, 0⟩
def CAN_PERR_errors (n : Nat) : Fld := ⟨0x40200028 + 0x1000 * n, 0, 16, 0⟩
def CAN_PERR_busoff (n : Nat) : Fld := ⟨0x40200028 + 0x1000 * n, 16, 16, 0⟩
def CAN_EVT_rxpend (n : Nat) : Fld := ⟨0x40200030 + 0x1000 * n, 0, 1, 0⟩
def CAN_EVT_txdone (n : Nat) : Fld := ⟨0x40200030 + 0x1000 * n, 1, 1, 0⟩
def CAN_EVT_txcan (n : Nat) : Fld := ⟨0x40200030 + 0x1000 * n, 2, 1, 0⟩
def CAN_EVT_ovr (n : Nat) : Fld := ⟨0x40200030 + 0x1000 * n, 3, 1, 0⟩
def CAN_EVT_warn (n : Nat) : Fld := ⟨0x40200030 + 0x1000 * n, 4, 1, 0⟩
def CAN_EVT_passive (n : Nat) : Fld := ⟨0x40200030 + 0x1000 * n, 5, 1, 0⟩
def CAN_EVT_busoff (n : Nat) : Fld := ⟨0x40200030 + 0x1000 * n, 6, 1, 0⟩
def CAN_EVT_recovered (n : Nat) : Fld := ⟨0x40200030 + 0x1000 * n, 7, 1, 0⟩
def CAN_EVT_perr (n : Nat) : Fld := ⟨0x40200030 + 0x1000 * n, 8, 1, 0⟩
def CAN_EVT_xlovr (n : Nat) : Fld := ⟨0x40200030 + 0x1000 * n, 9, 1, 0⟩
def CAN_EVT_txbad (n : Nat) : Fld := ⟨0x40200030 + 0x1000 * n, 10, 1, 0⟩
def CAN_EVTEN_en (n : Nat) : Fld := ⟨0x40200034 + 0x1000 * n, 0, 11, 0⟩
def CAN_RXSTAT_head (n : Nat) : Fld := ⟨0x40200040 + 0x1000 * n, 0, 6, 0⟩
def CAN_RXSTAT_pend (n : Nat) : Fld := ⟨0x40200040 + 0x1000 * n, 8, 7, 0⟩
def CAN_RXSTAT_used (n : Nat) : Fld := ⟨0x40200040 + 0x1000 * n, 16, 7, 0⟩
def CAN_RXSTAT_lck (n : Nat) : Fld := ⟨0x40200040 + 0x1000 * n, 24, 7, 0⟩
def CAN_RXREL_buf (n : Nat) : Fld := ⟨0x40200044 + 0x1000 * n, 0, 6, 0⟩
def CAN_RXOVR_ovr (n : Nat) : Fld := ⟨0x40200048 + 0x1000 * n, 0, 16, 0⟩
def CAN_RXOVR_xlovr (n : Nat) : Fld := ⟨0x40200048 + 0x1000 * n, 16, 16, 0⟩
def CAN_RXCNT_cnt (n : Nat) : Fld := ⟨0x4020004C + 0x1000 * n, 0, 32, 0⟩
def CAN_RXREJ_cnt (n : Nat) : Fld := ⟨0x40200050 + 0x1000 * n, 0, 32, 0⟩
def CAN_PRIOSTAT_full (n : Nat) : Fld := ⟨0x40200060 + 0x1000 * n, 0, 1, 0⟩
def CAN_PRIOSTAT_locked (n : Nat) : Fld := ⟨0x40200060 + 0x1000 * n, 1, 1, 0⟩
def CAN_PRIOSTAT_shadow (n : Nat) : Fld := ⟨0x40200060 + 0x1000 * n, 2, 1, 0⟩
def CAN_PRIOSTAT_prov (n : Nat) : Fld := ⟨0x40200060 + 0x1000 * n, 16, 16, 0⟩
def CAN_PRIOREL_rel (n : Nat) : Fld := ⟨0x40200064 + 0x1000 * n, 0, 1, 0⟩
def CAN_TXCFG_swbuf (n : Nat) : Fld := ⟨0x40200070 + 0x1000 * n, 0, 5, 8⟩
def CAN_TXCFG_pad (n : Nat) : Fld := ⟨0x40200070 + 0x1000 * n, 8, 8, 204⟩
def CAN_TXREQ_req (n : Nat) : Fld := ⟨0x40200074 + 0x1000 * n, 0, 16, 0⟩
def CAN_TXCAN_can (n : Nat) : Fld := ⟨0x40200078 + 0x1000 * n, 0, 16, 0⟩
def CAN_TXDONE_done (n : Nat) : Fld := ⟨0x4020007C + 0x1000 * n, 0, 16, 0⟩
def CAN_TXCANCELLED_cnl (n : Nat) : Fld := ⟨0x40200080 + 0x1000 * n, 0, 16, 0⟩
def CAN_TXCNT_cnt (n : Nat) : Fld := ⟨0x40200084 + 0x1000 * n, 0, 32, 0⟩
def CAN_TXDROP_bad (n : Nat) : Fld := ⟨0x40200088 + 0x1000 * n, 0, 10, 0⟩
def CAN_TXDROP_flush (n : Nat) : Fld := ⟨0x40200088 + 0x1000 * n, 10, 10, 0⟩
def CAN_TXDROP_one (n : Nat) : Fld := ⟨0x40200088 + 0x1000 * n, 20, 10, 0⟩
def CAN_AUTHOK_cnt (n : Nat) : Fld := ⟨0x40200090 + 0x1000 * n, 0, 32, 0⟩
def CAN_AUTHFAIL_mac (n : Nat) : Fld := ⟨0x40200094 + 0x1000 * n, 0, 16, 0⟩
def CAN_AUTHFAIL_fresh (n : Nat) : Fld := ⟨0x40200094 + 0x1000 * n, 16, 16, 0⟩
def CAN_AUTHNOKEY_cnt (n : Nat) : Fld := ⟨0x40200098 + 0x1000 * n, 0, 16, 0⟩
def CAN_FLTID_id (n k : Nat) : Fld := ⟨0x40200200 + 0x1000 * n + 0x10 * k, 0, 29, 0⟩
def CAN_FLTID_ide (n k : Nat) : Fld := ⟨0x40200200 + 0x1000 * n + 0x10 * k, 29, 1, 0⟩
def CAN_FLTMSK_msk (n k : Nat) : Fld := ⟨0x40200204 + 0x1000 * n + 0x10 * k, 0, 29, 0⟩
def CAN_FLTMSK_idem (n k : Nat) : Fld := ⟨0x40200204 + 0x1000 * n + 0x10 * k, 29, 1, 0⟩
def CAN_FLTCFG_action (n k : Nat) : Fld := ⟨0x40200208 + 0x1000 * n + 0x10 * k, 0, 3, 0⟩
def CAN_FLTCFG_en (n k : Nat) : Fld := ⟨0x40200208 + 0x1000 * n + 0x10 * k, 3, 1, 0⟩
def CAN_FLTCFG_fmt (n k : Nat) : Fld := ⟨0x40200208 + 0x1000 * n + 0x10 * k, 4, 2, 0⟩
def CAN_FLTCFG_rtr (n k : Nat) : Fld := ⟨0x40200208 + 0x1000 * n + 0x10 * k, 6, 1, 0⟩
def CAN_FLTCFG_tc (n k : Nat) : Fld := ⟨0x40200208 + 0x1000 * n + 0x10 * k, 8, 3, 0⟩
def CAN_FLTCFG_tcen (n k : Nat) : Fld := ⟨0x40200208 + 0x1000 * n + 0x10 * k, 11, 1, 0⟩
def CAN_FLTXL_vcid (n k : Nat) : Fld := ⟨0x4020020C + 0x1000 * n + 0x10 * k, 0, 8, 0⟩
def CAN_FLTXL_vmsk (n k : Nat) : Fld := ⟨0x4020020C + 0x1000 * n + 0x10 * k, 8, 8, 0⟩
def CAN_FLTXL_sdt (n k : Nat) : Fld := ⟨0x4020020C + 0x1000 * n + 0x10 * k, 16, 8, 0⟩
def CAN_FLTXL_smsk (n k : Nat) : Fld := ⟨0x4020020C + 0x1000 * n + 0x10 * k, 24, 8, 0⟩
def CAN_AUID_id (n j : Nat) : Fld := ⟨0x40200400 + 0x1000 * n + 0x20 * j, 0, 29, 0⟩
def CAN_AUID_ide (n j : Nat) : Fld := ⟨0x40200400 + 0x1000 * n + 0x20 * j, 29, 1, 0⟩
def CAN_AUID_en (n j : Nat) : Fld := ⟨0x40200400 + 0x1000 * n + 0x20 * j, 30, 1, 0⟩
def CAN_AUCFG_kidx (n j : Nat) : Fld := ⟨0x40200404 + 0x1000 * n + 0x20 * j, 0, 3, 0⟩
def CAN_AUCFG_tfvb (n j : Nat) : Fld := ⟨0x40200404 + 0x1000 * n + 0x20 * j, 4, 4, 0⟩
def CAN_AUCFG_macb (n j : Nat) : Fld := ⟨0x40200404 + 0x1000 * n + 0x20 * j, 8, 5, 4⟩
def CAN_AUDID_did (n j : Nat) : Fld := ⟨0x40200408 + 0x1000 * n + 0x20 * j, 0, 32, 0⟩
def CAN_AUWIN_window (n j : Nat) : Fld := ⟨0x4020040C + 0x1000 * n + 0x20 * j, 0, 16, 16⟩
def CAN_AUFVLO_fv (n j : Nat) : Fld := ⟨0x40200410 + 0x1000 * n + 0x20 * j, 0, 32, 0⟩
def CAN_AUFVHI_fv (n j : Nat) : Fld := ⟨0x40200414 + 0x1000 * n + 0x20 * j, 0, 32, 0⟩

/-! ETH_ registers. -/
def ETH_CFG_mode (p : Nat) : Fld := ⟨0x40400000 + 0x1000 * p, 0, 3, 0⟩
def ETH_CFG_an (p : Nat) : Fld := ⟨0x40400000 + 0x1000 * p, 3, 1, 1⟩
def ETH_CFG_ibs (p : Nat) : Fld := ⟨0x40400000 + 0x1000 * p, 4, 1, 1⟩
def ETH_CFG_lff (p : Nat) : Fld := ⟨0x40400000 + 0x1000 * p, 8, 8, 10⟩
def ETH_CFG_maxlen (p : Nat) : Fld := ⟨0x40400000 + 0x1000 * p, 16, 14, 1522⟩
def ETH_FORCE_link (p : Nat) : Fld := ⟨0x40400004 + 0x1000 * p, 0, 1, 0⟩
def ETH_FORCE_spd (p : Nat) : Fld := ⟨0x40400004 + 0x1000 * p, 1, 2, 2⟩
def ETH_STAT_link (p : Nat) : Fld := ⟨0x40400008 + 0x1000 * p, 0, 1, 0⟩
def ETH_STAT_spd (p : Nat) : Fld := ⟨0x40400008 + 0x1000 * p, 1, 2, 0⟩
def ETH_STAT_hdx (p : Nat) : Fld := ⟨0x40400008 + 0x1000 * p, 3, 1, 0⟩
def ETH_STAT_anok (p : Nat) : Fld := ⟨0x40400008 + 0x1000 * p, 4, 1, 0⟩
def ETH_EVT_up (p : Nat) : Fld := ⟨0x4040000C + 0x1000 * p, 0, 1, 0⟩
def ETH_EVT_down (p : Nat) : Fld := ⟨0x4040000C + 0x1000 * p, 1, 1, 0⟩
def ETH_EVT_hdx (p : Nat) : Fld := ⟨0x4040000C + 0x1000 * p, 2, 1, 0⟩
def ETH_RGMII_txdly (p : Nat) : Fld := ⟨0x40400010 + 0x1000 * p, 0, 4, 0⟩
def ETH_RGMII_rxdly (p : Nat) : Fld := ⟨0x40400010 + 0x1000 * p, 4, 4, 0⟩
def ETH_TSLAT_rx (p : Nat) : Fld := ⟨0x40400014 + 0x1000 * p, 0, 10, 0⟩
def ETH_TSLAT_tx (p : Nat) : Fld := ⟨0x40400014 + 0x1000 * p, 16, 10, 0⟩
def ETH_ERRMSK_msk (p : Nat) : Fld := ⟨0x40400018 + 0x1000 * p, 0, 10, 0⟩
def ETH_TXTS0_ns (p : Nat) : Fld := ⟨0x40400020 + 0x1000 * p, 0, 30, 0⟩
def ETH_TXTS0_valid (p : Nat) : Fld := ⟨0x40400020 + 0x1000 * p, 31, 1, 0⟩
def ETH_TXTS1_sec (p : Nat) : Fld := ⟨0x40400024 + 0x1000 * p, 0, 32, 0⟩
def ETH_TXTS2_seqid (p : Nat) : Fld := ⟨0x40400028 + 0x1000 * p, 0, 16, 0⟩
def ETH_TXTS2_msgtype (p : Nat) : Fld := ⟨0x40400028 + 0x1000 * p, 16, 4, 0⟩
def ETH_TXTS2_domain (p : Nat) : Fld := ⟨0x40400028 + 0x1000 * p, 20, 8, 0⟩
def ETH_TXTSSTAT_fill (p : Nat) : Fld := ⟨0x4040002C + 0x1000 * p, 0, 5, 0⟩
def ETH_TXTSSTAT_lost (p : Nat) : Fld := ⟨0x4040002C + 0x1000 * p, 16, 16, 0⟩
def ETH_MDIOCMD_data (p : Nat) : Fld := ⟨0x40400040 + 0x1000 * p, 0, 16, 0⟩
def ETH_MDIOCMD_reg (p : Nat) : Fld := ⟨0x40400040 + 0x1000 * p, 16, 5, 0⟩
def ETH_MDIOCMD_phy (p : Nat) : Fld := ⟨0x40400040 + 0x1000 * p, 21, 5, 0⟩
def ETH_MDIOCMD_op (p : Nat) : Fld := ⟨0x40400040 + 0x1000 * p, 26, 3, 0⟩
def ETH_MDIOSTAT_data (p : Nat) : Fld := ⟨0x40400044 + 0x1000 * p, 0, 16, 0⟩
def ETH_MDIOSTAT_busy (p : Nat) : Fld := ⟨0x40400044 + 0x1000 * p, 16, 1, 0⟩
def ETH_MDIOCFG_div (p : Nat) : Fld := ⟨0x40400048 + 0x1000 * p, 0, 8, 50⟩
def ETH_CNT_cnt (p i : Nat) : Fld := ⟨0x40400100 + 0x1000 * p + 0x4 * i, 0, 32, 0⟩

/-! T1S_ registers. -/
def T1S_PLCACFG_id (p : Nat) : Fld := ⟨0x4040C200 + 0x1000 * p, 0, 5, 0⟩
def T1S_PLCACFG_cnt (p : Nat) : Fld := ⟨0x4040C200 + 0x1000 * p, 8, 6, 0⟩
def T1S_PLCACFG_to (p : Nat) : Fld := ⟨0x4040C200 + 0x1000 * p, 16, 8, 32⟩
def T1S_BURST_cnt (p : Nat) : Fld := ⟨0x4040C204 + 0x1000 * p, 0, 8, 0⟩
def T1S_BURST_tmr (p : Nat) : Fld := ⟨0x4040C204 + 0x1000 * p, 8, 8, 128⟩
def T1S_STAT_active (p : Nat) : Fld := ⟨0x4040C208 + 0x1000 * p, 0, 1, 0⟩
def T1S_STAT_coord (p : Nat) : Fld := ⟨0x4040C208 + 0x1000 * p, 1, 1, 0⟩
def T1S_EVT_act (p : Nat) : Fld := ⟨0x4040C20C + 0x1000 * p, 0, 1, 0⟩
def T1S_EVT_inact (p : Nat) : Fld := ⟨0x4040C20C + 0x1000 * p, 1, 1, 0⟩
def T1S_INACT_cnt (p : Nat) : Fld := ⟨0x4040C210 + 0x1000 * p, 0, 16, 0⟩

/-! TSY_ registers. -/
def TSY_CTL_set : Fld := ⟨0x40170000, 0, 1, 0⟩
def TSY_CTL_step : Fld := ⟨0x40170000, 1, 1, 0⟩
def TSY_SETSLO_sec : Fld := ⟨0x40170004, 0, 32, 0⟩
def TSY_SETSHI_sec : Fld := ⟨0x40170008, 0, 16, 0⟩
def TSY_SETNS_ns : Fld := ⟨0x4017000C, 0, 30, 0⟩
def TSY_FADJ_fadj : Fld := ⟨0x40170010, 0, 32, 0⟩
def TSY_NOWNS_ns : Fld := ⟨0x40170014, 0, 30, 0⟩
def TSY_NOWSLO_sec : Fld := ⟨0x40170018, 0, 32, 0⟩
def TSY_NOWSHI_sec : Fld := ⟨0x4017001C, 0, 16, 0⟩
def TSY_NOWUS_us : Fld := ⟨0x40170020, 0, 32, 0⟩
def TSY_CFG_role : Fld := ⟨0x40170024, 0, 1, 0⟩
def TSY_CFG_slvport : Fld := ⟨0x40170024, 1, 4, 0⟩
def TSY_CFG_syncto : Fld := ⟨0x40170024, 16, 16, 375⟩
def TSY_STAT_sync : Fld := ⟨0x40170028, 0, 1, 0⟩
def TSY_STAT_steps : Fld := ⟨0x40170028, 16, 16, 0⟩
def TSY_SYNCCNT_cnt : Fld := ⟨0x4017002C, 0, 32, 0⟩

/-! SER_ registers. -/
def SER_CTL_start (n : Nat) : Fld := ⟨0x40200000 + 0x1000 * n, 0, 1, 0⟩
def SER_CTL_stop (n : Nat) : Fld := ⟨0x40200000 + 0x1000 * n, 1, 1, 0⟩
def SER_STAT_state (n : Nat) : Fld := ⟨0x40200004 + 0x1000 * n, 0, 3, 0⟩
def SER_BAUD_div (n : Nat) : Fld := ⟨0x40200008 + 0x1000 * n, 0, 22, 5556⟩
def SER_EVT_rx (n : Nat) : Fld := ⟨0x4020000C + 0x1000 * n, 0, 1, 0⟩
def SER_EVT_ovr (n : Nat) : Fld := ⟨0x4020000C + 0x1000 * n, 1, 1, 0⟩
def SER_EVT_err (n : Nat) : Fld := ⟨0x4020000C + 0x1000 * n, 2, 1, 0⟩
def SER_EVT_tx (n : Nat) : Fld := ⟨0x4020000C + 0x1000 * n, 3, 1, 0⟩
def SER_EVT_sched (n : Nat) : Fld := ⟨0x4020000C + 0x1000 * n, 4, 1, 0⟩
def SER_EVTEN_en (n : Nat) : Fld := ⟨0x40200010 + 0x1000 * n, 0, 5, 0⟩
def SER_RXOVR_cnt (n : Nat) : Fld := ⟨0x40200014 + 0x1000 * n, 0, 16, 0⟩
def SER_ERR0_framing (n : Nat) : Fld := ⟨0x40200018 + 0x1000 * n, 0, 8, 0⟩
def SER_ERR0_parity (n : Nat) : Fld := ⟨0x40200018 + 0x1000 * n, 8, 8, 0⟩
def SER_ERR0_bit (n : Nat) : Fld := ⟨0x40200018 + 0x1000 * n, 16, 8, 0⟩
def SER_ERR0_crc (n : Nat) : Fld := ⟨0x40200018 + 0x1000 * n, 24, 8, 0⟩
def SER_ERR1_noresp (n : Nat) : Fld := ⟨0x4020001C + 0x1000 * n, 0, 8, 0⟩
def SER_ERR1_pid (n : Nat) : Fld := ⟨0x4020001C + 0x1000 * n, 8, 8, 0⟩
def SER_ERR1_abort (n : Nat) : Fld := ⟨0x4020001C + 0x1000 * n, 16, 8, 0⟩
def SER_ERR1_long (n : Nat) : Fld := ⟨0x4020001C + 0x1000 * n, 24, 8, 0⟩
def SER_TXDROP_bad (n : Nat) : Fld := ⟨0x40200020 + 0x1000 * n, 0, 16, 0⟩
def SER_RXCNT_cnt (n : Nat) : Fld := ⟨0x40200024 + 0x1000 * n, 0, 32, 0⟩
def SER_TXCNT_cnt (n : Nat) : Fld := ⟨0x40200028 + 0x1000 * n, 0, 32, 0⟩

/-! UART_ registers. -/
def UART_CFG_d7 (n : Nat) : Fld := ⟨0x40200040 + 0x1000 * n, 0, 1, 0⟩
def UART_CFG_par (n : Nat) : Fld := ⟨0x40200040 + 0x1000 * n, 1, 2, 0⟩
def UART_CFG_stop2 (n : Nat) : Fld := ⟨0x40200040 + 0x1000 * n, 3, 1, 0⟩
def UART_CFG_tgap (n : Nat) : Fld := ⟨0x40200040 + 0x1000 * n, 4, 8, 0⟩
def UART_FRM_gap (n : Nat) : Fld := ⟨0x40200044 + 0x1000 * n, 0, 16, 20⟩
def UART_FRM_dlmen (n : Nat) : Fld := ⟨0x40200044 + 0x1000 * n, 16, 1, 0⟩
def UART_FRM_dlm (n : Nat) : Fld := ⟨0x40200044 + 0x1000 * n, 24, 8, 0⟩
def UART_FMAX_max (n : Nat) : Fld := ⟨0x40200048 + 0x1000 * n, 0, 12, 2048⟩
def UART_DE_en (n : Nat) : Fld := ⟨0x4020004C + 0x1000 * n, 0, 1, 0⟩
def UART_DE_inv (n : Nat) : Fld := ⟨0x4020004C + 0x1000 * n, 1, 1, 0⟩
def UART_DE_echo (n : Nat) : Fld := ⟨0x4020004C + 0x1000 * n, 2, 1, 0⟩
def UART_DE_rehdx (n : Nat) : Fld := ⟨0x4020004C + 0x1000 * n, 3, 1, 0⟩
def UART_DE_reinv (n : Nat) : Fld := ⟨0x4020004C + 0x1000 * n, 4, 1, 0⟩
def UART_DE_turn (n : Nat) : Fld := ⟨0x4020004C + 0x1000 * n, 16, 16, 2⟩
def UART_DET_lead (n : Nat) : Fld := ⟨0x40200050 + 0x1000 * n, 0, 16, 0⟩
def UART_DET_lag (n : Nat) : Fld := ⟨0x40200050 + 0x1000 * n, 16, 16, 0⟩
def UART_SWTX_len (n : Nat) : Fld := ⟨0x40200054 + 0x1000 * n, 0, 9, 0⟩
def UART_SWTX_go (n : Nat) : Fld := ⟨0x40200054 + 0x1000 * n, 16, 1, 0⟩
def UART_TXDATA_data (n i : Nat) : Fld := ⟨0x40200400 + 0x1000 * n + 0x4 * i, 0, 32, 0⟩

/-! HDLC_ registers. -/
def HDLC_CFG_crc (n : Nat) : Fld := ⟨0x40200060 + 0x1000 * n, 0, 1, 0⟩
def HDLC_CFG_share (n : Nat) : Fld := ⟨0x40200060 + 0x1000 * n, 1, 1, 0⟩
def HDLC_ACCM_map (n : Nat) : Fld := ⟨0x40200064 + 0x1000 * n, 0, 32, 4294967295⟩

/-! LIN_ registers. -/
def LIN_CFG_brk (n : Nat) : Fld := ⟨0x40200040 + 0x1000 * n, 0, 5, 13⟩
def LIN_CFG_del (n : Nat) : Fld := ⟨0x40200040 + 0x1000 * n, 5, 3, 1⟩
def LIN_CFG_ibs (n : Nat) : Fld := ⟨0x40200040 + 0x1000 * n, 8, 3, 0⟩
def LIN_CFG_slpinv (n : Nat) : Fld := ⟨0x40200040 + 0x1000 * n, 11, 1, 0⟩
def LIN_SCHED_sel (n : Nat) : Fld := ⟨0x40200044 + 0x1000 * n, 0, 2, 0⟩
def LIN_SCHED_cur (n : Nat) : Fld := ⟨0x40200044 + 0x1000 * n, 2, 2, 0⟩
def LIN_SCHED_pend (n : Nat) : Fld := ⟨0x40200044 + 0x1000 * n, 4, 1, 0⟩
def LIN_TBL_first (n i : Nat) : Fld := ⟨0x40200048 + 0x1000 * n + 0x4 * i, 0, 6, 0⟩
def LIN_TBL_cnt (n i : Nat) : Fld := ⟨0x40200048 + 0x1000 * n + 0x4 * i, 8, 7, 0⟩
def LIN_TBL_once (n i : Nat) : Fld := ⟨0x40200048 + 0x1000 * n + 0x4 * i, 16, 1, 0⟩
def LIN_RXNEW0_new (n : Nat) : Fld := ⟨0x40200058 + 0x1000 * n, 0, 32, 0⟩
def LIN_RXNEW1_new (n : Nat) : Fld := ⟨0x4020005C + 0x1000 * n, 0, 32, 0⟩
def LIN_SLOT_id (n i : Nat) : Fld := ⟨0x40200100 + 0x1000 * n + 0x4 * i, 0, 6, 0⟩
def LIN_SLOT_type (n i : Nat) : Fld := ⟨0x40200100 + 0x1000 * n + 0x4 * i, 6, 3, 0⟩
def LIN_SLOT_coll (n i : Nat) : Fld := ⟨0x40200100 + 0x1000 * n + 0x4 * i, 12, 2, 0⟩
def LIN_SLOT_delay (n i : Nat) : Fld := ⟨0x40200100 + 0x1000 * n + 0x4 * i, 16, 16, 100⟩
def LIN_FRM_dir (n i : Nat) : Fld := ⟨0x40200200 + 0x1000 * n + 0x4 * i, 0, 2, 0⟩
def LIN_FRM_len (n i : Nat) : Fld := ⟨0x40200200 + 0x1000 * n + 0x4 * i, 2, 4, 8⟩
def LIN_FRM_cs (n i : Nat) : Fld := ⟨0x40200200 + 0x1000 * n + 0x4 * i, 6, 1, 1⟩
def LIN_FRM_sw (n i : Nat) : Fld := ⟨0x40200200 + 0x1000 * n + 0x4 * i, 7, 1, 0⟩
def LIN_FRM_net (n i : Nat) : Fld := ⟨0x40200200 + 0x1000 * n + 0x4 * i, 8, 1, 1⟩
def LIN_FRM_upd (n i : Nat) : Fld := ⟨0x40200200 + 0x1000 * n + 0x4 * i, 9, 1, 0⟩
def LIN_PUB_data (n i : Nat) : Fld := ⟨0x40200400 + 0x1000 * n + 0x4 * i, 0, 32, 0⟩
def LIN_RXD_data (n i : Nat) : Fld := ⟨0x40200600 + 0x1000 * n + 0x4 * i, 0, 32, 0⟩

/-! GPIO_ registers. -/
def GPIO_CFG_dir (n : Nat) : Fld := ⟨0x40200040 + 0x1000 * n, 0, 4, 0⟩
def GPIO_CFG_msg (n : Nat) : Fld := ⟨0x40200040 + 0x1000 * n, 4, 1, 0⟩
def GPIO_CFG_deb (n : Nat) : Fld := ⟨0x40200040 + 0x1000 * n, 8, 8, 0⟩
def GPIO_OUT_out (n : Nat) : Fld := ⟨0x40200044 + 0x1000 * n, 0, 4, 0⟩
def GPIO_IN_in (n : Nat) : Fld := ⟨0x40200048 + 0x1000 * n, 0, 4, 0⟩

/-! WKS_ registers. -/
def WKS_SLEEPA_t : Fld := ⟨0x400C0000, 0, 32, 0⟩
def WKS_SLEEPB_t : Fld := ⟨0x400C0004, 0, 16, 0⟩
def WKS_SLEEPB_p : Fld := ⟨0x400C0004, 16, 16, 0⟩
def WKS_WAKEA_t : Fld := ⟨0x400C0008, 0, 32, 0⟩
def WKS_WAKEB_t : Fld := ⟨0x400C000C, 0, 16, 0⟩
def WKS_WAKEB_p : Fld := ⟨0x400C000C, 16, 16, 0⟩
def WKS_ASLEEPA_t : Fld := ⟨0x400C0010, 0, 32, 0⟩
def WKS_ASLEEPB_t : Fld := ⟨0x400C0014, 0, 16, 0⟩
def WKS_ASLEEPB_p : Fld := ⟨0x400C0014, 16, 16, 0⟩
def WKS_PENDA_t : Fld := ⟨0x400C0018, 0, 32, 0⟩
def WKS_PENDB_t : Fld := ⟨0x400C001C, 0, 16, 0⟩
def WKS_PENDB_p : Fld := ⟨0x400C001C, 16, 16, 0⟩
def WKS_VALIDA_t : Fld := ⟨0x400C0020, 0, 32, 0⟩
def WKS_VALIDB_t : Fld := ⟨0x400C0024, 0, 16, 0⟩
def WKS_VALIDB_p : Fld := ⟨0x400C0024, 16, 16, 0⟩
def WKS_SRC_wire : Fld := ⟨0x400C0028, 0, 4, 0⟩
def WKS_SRC_pin : Fld := ⟨0x400C0028, 4, 2, 0⟩
def WKS_SRC_grp : Fld := ⟨0x400C0028, 8, 2, 0⟩
def WKS_SRC_grpen : Fld := ⟨0x400C0028, 10, 1, 0⟩
def WKS_FWCFG_win : Fld := ⟨0x400C002C, 0, 16, 1000⟩
def WKS_FWCFG_thr : Fld := ⟨0x400C002C, 16, 8, 4⟩
def WKS_STAT_kind : Fld := ⟨0x400C0030, 0, 3, 0⟩
def WKS_STAT_idx : Fld := ⟨0x400C0030, 3, 6, 0⟩
def WKS_STAT_sby : Fld := ⟨0x400C0030, 9, 1, 0⟩
def WKS_LOGSTAT_wr : Fld := ⟨0x400C0034, 0, 4, 0⟩
def WKS_LOGSTAT_unread : Fld := ⟨0x400C0034, 8, 5, 0⟩
def WKS_LOGSTAT_lost : Fld := ⟨0x400C0034, 16, 8, 0⟩
def WKS_LOGACK_ack : Fld := ⟨0x400C0038, 0, 1, 0⟩
def WKS_GRPA_t (g : Nat) : Fld := ⟨0x400C0040 + 0x8 * g, 0, 32, 0⟩
def WKS_GRPB_t (g : Nat) : Fld := ⟨0x400C0044 + 0x8 * g, 0, 16, 0⟩
def WKS_GRPB_p (g : Nat) : Fld := ⟨0x400C0044 + 0x8 * g, 16, 16, 0⟩
def WKS_LOG_word (i : Nat) : Fld := ⟨0x400C0100 + 0x4 * i, 0, 32, 0⟩
def WKS_TCFG_mode (t : Nat) : Fld := ⟨0x400C1000 + 0x40 * t, 0, 2, 0⟩
def WKS_TCFG_errwake (t : Nat) : Fld := ⟨0x400C1000 + 0x40 * t, 2, 1, 0⟩
def WKS_TCFG_stbsl (t : Nat) : Fld := ⟨0x400C1000 + 0x40 * t, 3, 1, 0⟩
def WKS_TCFG_gts (t : Nat) : Fld := ⟨0x400C1000 + 0x40 * t, 4, 1, 0⟩
def WKS_TCFG_gtsrx (t : Nat) : Fld := ⟨0x400C1000 + 0x40 * t, 5, 1, 0⟩
def WKS_TCFG_wkpulse (t : Nat) : Fld := ⟨0x400C1000 + 0x40 * t, 6, 1, 0⟩
def WKS_TCFG_autoval (t : Nat) : Fld := ⟨0x400C1000 + 0x40 * t, 7, 1, 0⟩
def WKS_TCFG_dom (t : Nat) : Fld := ⟨0x400C1000 + 0x40 * t, 16, 16, 150⟩
def WKS_TBT_cyc (t : Nat) : Fld := ⟨0x400C1004 + 0x40 * t, 0, 10, 50⟩
def WKS_TBT_sp (t : Nat) : Fld := ⟨0x400C1004 + 0x40 * t, 10, 10, 40⟩
def WKS_TBT_sjw (t : Nat) : Fld := ⟨0x400C1004 + 0x40 * t, 20, 6, 10⟩
def WKS_TID_id (t : Nat) : Fld := ⟨0x400C1008 + 0x40 * t, 0, 29, 0⟩
def WKS_TID_ide (t : Nat) : Fld := ⟨0x400C1008 + 0x40 * t, 29, 1, 0⟩
def WKS_TIDM_msk (t : Nat) : Fld := ⟨0x400C100C + 0x40 * t, 0, 29, 536870911⟩
def WKS_TIDM_idem (t : Nat) : Fld := ⟨0x400C100C + 0x40 * t, 29, 1, 1⟩
def WKS_TDLC_dlc (t : Nat) : Fld := ⟨0x400C1010 + 0x40 * t, 0, 4, 0⟩
def WKS_TDLC_dlcen (t : Nat) : Fld := ⟨0x400C1010 + 0x40 * t, 4, 1, 0⟩
def WKS_TDM0_dm (t : Nat) : Fld := ⟨0x400C1014 + 0x40 * t, 0, 32, 0⟩
def WKS_TDM1_dm (t : Nat) : Fld := ⟨0x400C1018 + 0x40 * t, 0, 32, 0⟩
def WKS_TSTAT_fec (t : Nat) : Fld := ⟨0x400C101C + 0x40 * t, 0, 6, 0⟩
def WKS_TSTAT_idle (t : Nat) : Fld := ⟨0x400C101C + 0x40 * t, 16, 16, 0⟩
def WKS_TFW_fwc (t : Nat) : Fld := ⟨0x400C1020 + 0x40 * t, 0, 8, 0⟩
def WKS_TLAST_id (t : Nat) : Fld := ⟨0x400C1024 + 0x40 * t, 0, 29, 0⟩
def WKS_TLAST_ide (t : Nat) : Fld := ⟨0x400C1024 + 0x40 * t, 29, 1, 0⟩
def WKS_TLAST_valid (t : Nat) : Fld := ⟨0x400C1024 + 0x40 * t, 30, 1, 0⟩
def WKS_PCFG_en (p : Nat) : Fld := ⟨0x400C2000 + 0x40 * p, 0, 1, 0⟩
def WKS_PCFG_burst (p : Nat) : Fld := ⟨0x400C2000 + 0x40 * p, 1, 1, 0⟩
def WKS_PCFG_act (p : Nat) : Fld := ⟨0x400C2000 + 0x40 * p, 16, 8, 20⟩
def WKS_PCFG_blen (p : Nat) : Fld := ⟨0x400C2000 + 0x40 * p, 24, 8, 100⟩
def WKS_PFW_fwc (p : Nat) : Fld := ⟨0x400C2004 + 0x40 * p, 0, 8, 0⟩

/-! BRG_ registers. -/
def BRG_CFG_pcie : Fld := ⟨0x400A0000, 0, 1, 1⟩
def BRG_CFG_qspi : Fld := ⟨0x400A0000, 1, 1, 1⟩
def BRG_STAT_link : Fld := ⟨0x400A0004, 0, 1, 0⟩
def BRG_STAT_gen : Fld := ⟨0x400A0004, 1, 2, 0⟩
def BRG_STAT_width : Fld := ⟨0x400A0004, 3, 2, 0⟩
def BRG_STAT_qact : Fld := ⟨0x400A0004, 5, 1, 0⟩
def BRG_PCIID_vid : Fld := ⟨0x400A0008, 0, 16, 0⟩
def BRG_PCIID_did : Fld := ⟨0x400A0008, 16, 16, 18560⟩
def BRG_PCISUB_svid : Fld := ⟨0x400A000C, 0, 16, 0⟩
def BRG_PCISUB_sid : Fld := ⟨0x400A000C, 16, 16, 0⟩
def BRG_SPLITERR0_addr : Fld := ⟨0x400A0010, 0, 32, 0⟩
def BRG_SPLITERR1_src : Fld := ⟨0x400A0014, 0, 2, 0⟩
def BRG_SPLITERR1_dir : Fld := ⟨0x400A0014, 2, 1, 0⟩
def BRG_SPLITERR1_narrow : Fld := ⟨0x400A0014, 3, 1, 0⟩
def BRG_SPLITERR1_done : Fld := ⟨0x400A0014, 8, 8, 0⟩
def BRG_QSTAT_err : Fld := ⟨0x400A0018, 0, 1, 0⟩
def BRG_QSTAT_refused : Fld := ⟨0x400A0018, 1, 1, 0⟩
def BRG_QSTAT_partial : Fld := ⟨0x400A0018, 2, 1, 0⟩
def BRG_QSTAT_fwerr : Fld := ⟨0x400A0018, 3, 1, 0⟩
def BRG_FWCFG_tmo : Fld := ⟨0x400A0020, 0, 16, 20⟩
def BRG_FWSTAT_bufs : Fld := ⟨0x400A0024, 0, 5, 0⟩
def BRG_FWSTAT_wq : Fld := ⟨0x400A0024, 8, 6, 0⟩
def BRG_FWERR0_addr : Fld := ⟨0x400A0028, 0, 32, 0⟩
def BRG_FWERR1_dev : Fld := ⟨0x400A002C, 0, 6, 0⟩
def BRG_FWERR1_why : Fld := ⟨0x400A002C, 8, 3, 0⟩
def BRG_ERRCNT_expired : Fld := ⟨0x400A0030, 0, 8, 0⟩
def BRG_ERRCNT_split : Fld := ⟨0x400A0030, 8, 8, 0⟩
def BRG_ERRCNT_far : Fld := ⟨0x400A0030, 16, 8, 0⟩
def BRG_ERRCNT_nobuf : Fld := ⟨0x400A0030, 24, 8, 0⟩
def BRG_REV0_event : Fld := ⟨0x400A0040, 0, 6, 0⟩
def BRG_REV0_dev : Fld := ⟨0x400A0040, 6, 6, 0⟩
def BRG_REV0_seq : Fld := ⟨0x400A0040, 16, 8, 0⟩
def BRG_REV0_valid : Fld := ⟨0x400A0040, 31, 1, 0⟩
def BRG_REV1_us : Fld := ⟨0x400A0044, 0, 32, 0⟩
def BRG_REVSTAT_fill : Fld := ⟨0x400A0048, 0, 7, 0⟩
def BRG_REVSTAT_lost : Fld := ⟨0x400A0048, 16, 16, 0⟩
def BRG_REVTX_seq : Fld := ⟨0x400A004C, 0, 8, 0⟩
def BRG_REVTX_lost : Fld := ⟨0x400A004C, 16, 16, 0⟩
def BRG_MSIX_all (i : Nat) : Fld := ⟨0x400A0400 + 0x4 * i, 0, 32, 0⟩
def BRG_MSIXPBA0_pend : Fld := ⟨0x400A0800, 0, 32, 0⟩
def BRG_MSIXPBA1_pend : Fld := ⟨0x400A0804, 0, 32, 0⟩

/-! HIE_ registers. -/
def HIE_STAT_role : Fld := ⟨0x40160000, 0, 3, 7⟩
def HIE_STAT_adm : Fld := ⟨0x40160000, 3, 1, 0⟩
def HIE_STAT_mlost : Fld := ⟨0x40160000, 4, 1, 0⟩
def HIE_STAT_probe : Fld := ⟨0x40160000, 5, 1, 0⟩
def HIE_STAT_id : Fld := ⟨0x40160000, 8, 8, 255⟩
def HIE_STAT_mpos : Fld := ⟨0x40160000, 16, 6, 63⟩
def HIE_STAT_why : Fld := ⟨0x40160000, 24, 3, 0⟩
def HIE_CFG_en : Fld := ⟨0x40160004, 0, 1, 0⟩
def HIE_CFG_byid : Fld := ⟨0x40160004, 1, 1, 0⟩
def HIE_CFG_serve : Fld := ⟨0x40160004, 2, 1, 0⟩
def HIE_CFG_devid : Fld := ⟨0x40160004, 8, 8, 0⟩
def HIE_CFG_sbid : Fld := ⟨0x40160004, 16, 8, 62⟩
def HIE_ADM0_adm : Fld := ⟨0x40160008, 0, 32, 0⟩
def HIE_ADM1_adm : Fld := ⟨0x4016000C, 0, 32, 0⟩
def HIE_SESSION_session : Fld := ⟨0x40160010, 0, 32, 0⟩
def HIE_JOINQ_queued : Fld := ⟨0x40160014, 0, 7, 0⟩
def HIE_JOINQ_answered : Fld := ⟨0x40160014, 16, 16, 0⟩
def HIE_RXERR_cmac : Fld := ⟨0x40160018, 0, 8, 0⟩
def HIE_RXERR_replay : Fld := ⟨0x40160018, 8, 8, 0⟩
def HIE_RXERR_epoch : Fld := ⟨0x40160018, 16, 8, 0⟩
def HIE_RXERR_notadm : Fld := ⟨0x40160018, 24, 8, 0⟩
def HIE_LOST_dev : Fld := ⟨0x4016001C, 0, 6, 0⟩
def HIE_LOST_cnt : Fld := ⟨0x4016001C, 16, 16, 0⟩
def HIE_IMGOFF_off : Fld := ⟨0x40160020, 0, 32, 16777216⟩
def HIE_IMGSRV_pieces : Fld := ⟨0x40160024, 0, 16, 0⟩
def HIE_IMGSRV_reqs : Fld := ⟨0x40160024, 16, 16, 0⟩
def HIE_RING_ring : Fld := ⟨0x40160028, 0, 5, 0⟩
def HIE_CMD_dev : Fld := ⟨0x4016002C, 0, 7, 0⟩
def HIE_CMD_op : Fld := ⟨0x4016002C, 8, 3, 0⟩
def HIE_CMD_key : Fld := ⟨0x4016002C, 16, 16, 0⟩
def HIE_TXCNT_cnt : Fld := ⟨0x40160030, 0, 32, 0⟩
def HIE_RXCNT_cnt : Fld := ⟨0x40160034, 0, 32, 0⟩
def HIE_DEVSEL_dev : Fld := ⟨0x40160080, 0, 6, 0⟩
def HIE_DEVINFO0_role : Fld := ⟨0x40160084, 0, 3, 7⟩
def HIE_DEVINFO0_adm : Fld := ⟨0x40160084, 3, 1, 0⟩
def HIE_DEVINFO0_pos : Fld := ⟨0x40160084, 4, 6, 63⟩
def HIE_DEVINFO0_cfg : Fld := ⟨0x40160084, 16, 8, 0⟩
def HIE_DEVINFO0_age : Fld := ⟨0x40160084, 24, 8, 0⟩
def HIE_DEVINFO1_ident : Fld := ⟨0x40160088, 0, 32, 0⟩
def HIE_DEVINFO2_ident : Fld := ⟨0x4016008C, 0, 32, 0⟩
def HIE_DEVINFO3_image : Fld := ⟨0x40160090, 0, 32, 0⟩

/-! KST_ registers. -/
def KST_LCSTATE_state : Fld := ⟨0x400D0000, 0, 3, 0⟩
def KST_LCSTATE_rootok : Fld := ⟨0x400D0000, 3, 1, 0⟩
def KST_LCSTATE_areab : Fld := ⟨0x400D0000, 4, 1, 0⟩
def KST_IDENT0_ident : Fld := ⟨0x400D0004, 0, 32, 0⟩
def KST_IDENT1_ident : Fld := ⟨0x400D0008, 0, 32, 0⟩
def KST_LCREQ_target : Fld := ⟨0x400D000C, 0, 3, 0⟩
def KST_LCREQ_commit : Fld := ⟨0x400D000C, 3, 1, 0⟩
def KST_LCREQ_key : Fld := ⟨0x400D000C, 16, 16, 0⟩
def KST_LCSTAT_armed : Fld := ⟨0x400D0010, 0, 1, 0⟩
def KST_LCSTAT_refused : Fld := ⟨0x400D0010, 1, 1, 0⟩
def KST_LCSTAT_why : Fld := ⟨0x400D0010, 2, 2, 0⟩
def KST_IKSTAT_prog : Fld := ⟨0x400D0020, 0, 4, 0⟩
def KST_IKSTAT_rev : Fld := ⟨0x400D0020, 4, 4, 0⟩
def KST_IKSTAT_used : Fld := ⟨0x400D0020, 8, 2, 0⟩
def KST_IKCMD_slot : Fld := ⟨0x400D0024, 0, 2, 0⟩
def KST_IKCMD_op : Fld := ⟨0x400D0024, 2, 2, 0⟩
def KST_IKCMD_key : Fld := ⟨0x400D0024, 16, 16, 0⟩
def KST_IKRES_done : Fld := ⟨0x400D0028, 0, 1, 0⟩
def KST_IKRES_refused : Fld := ⟨0x400D0028, 1, 1, 0⟩
def KST_IKRES_why : Fld := ⟨0x400D0028, 2, 2, 0⟩
def KST_IKHASH_hash (i : Nat) : Fld := ⟨0x400D0040 + 0x4 * i, 0, 32, 0⟩
def KST_FLOOR_floor : Fld := ⟨0x400D0070, 0, 32, 0⟩
def KST_FLOORSET_floor : Fld := ⟨0x400D0074, 0, 32, 0⟩
def KST_LOADSRC_src (ns : Nat) : Fld := ⟨0x400D0080 + 0x800 * ns, 0, 32, 0⟩
def KST_LOADCMD_go (ns : Nat) : Fld := ⟨0x400D0084 + 0x800 * ns, 0, 1, 0⟩
def KST_LOADCMD_byaddr (ns : Nat) : Fld := ⟨0x400D0084 + 0x800 * ns, 1, 1, 0⟩
def KST_LOADRES_done (ns : Nat) : Fld := ⟨0x400D0088 + 0x800 * ns, 0, 1, 0⟩
def KST_LOADRES_refused (ns : Nat) : Fld := ⟨0x400D0088 + 0x800 * ns, 1, 1, 0⟩
def KST_LOADRES_why (ns : Nat) : Fld := ⟨0x400D0088 + 0x800 * ns, 2, 4, 0⟩
def KST_LOADRES_slot (ns : Nat) : Fld := ⟨0x400D0088 + 0x800 * ns, 6, 6, 0⟩
def KST_LOADRES_lease (ns : Nat) : Fld := ⟨0x400D0088 + 0x800 * ns, 12, 10, 0⟩
def KST_SLOTSEL_slot : Fld := ⟨0x400D0090, 0, 6, 0⟩
def KST_SLOTINFO0_state : Fld := ⟨0x400D0094, 0, 2, 0⟩
def KST_SLOTINFO0_ktype : Fld := ⟨0x400D0094, 4, 4, 0⟩
def KST_SLOTINFO0_leases : Fld := ⟨0x400D0094, 8, 8, 0⟩
def KST_SLOTINFO0_usage : Fld := ⟨0x400D0094, 16, 16, 0⟩
def KST_SLOTINFO1_keyid : Fld := ⟨0x400D0098, 0, 32, 0⟩
def KST_SLOTINFO2_node : Fld := ⟨0x400D009C, 0, 10, 0⟩
def KST_SLOTINFO2_idx : Fld := ⟨0x400D009C, 16, 16, 65535⟩
def KST_NODESEL_node : Fld := ⟨0x400D00A0, 0, 10, 0⟩
def KST_NODEINFO0_state : Fld := ⟨0x400D00A4, 0, 2, 0⟩
def KST_NODEINFO0_parent : Fld := ⟨0x400D00A4, 2, 10, 0⟩
def KST_NODEINFO0_depth : Fld := ⟨0x400D00A4, 12, 3, 0⟩
def KST_NODEINFO1_gen : Fld := ⟨0x400D00A8, 0, 32, 0⟩
def KST_NODECMD_op : Fld := ⟨0x400D00AC, 0, 2, 0⟩
def KST_NODECMD_node : Fld := ⟨0x400D00AC, 2, 10, 0⟩
def KST_NODECMD_key : Fld := ⟨0x400D00AC, 16, 16, 0⟩
def KST_NODERES_done : Fld := ⟨0x400D00B0, 0, 1, 0⟩
def KST_NODERES_refused : Fld := ⟨0x400D00B0, 1, 1, 0⟩
def KST_NODERES_why : Fld := ⟨0x400D00B0, 2, 2, 0⟩
def KST_NODERES_node : Fld := ⟨0x400D00B0, 4, 10, 0⟩
def KST_NODERES_orph : Fld := ⟨0x400D00B0, 16, 10, 0⟩
def KST_WRAPCFG_ktype : Fld := ⟨0x400D00C0, 0, 4, 0⟩
def KST_WRAPCFG_node : Fld := ⟨0x400D00C0, 4, 10, 0⟩
def KST_WRAPCFG_src : Fld := ⟨0x400D00C0, 14, 2, 0⟩
def KST_WRAPCFG_usage : Fld := ⟨0x400D00C0, 16, 16, 0⟩
def KST_WRAPKID_keyid : Fld := ⟨0x400D00C4, 0, 32, 0⟩
def KST_WRAPIN_addr : Fld := ⟨0x400D00C8, 0, 32, 0⟩
def KST_WRAPOUT_addr : Fld := ⟨0x400D00CC, 0, 32, 0⟩
def KST_WRAPGO_idx : Fld := ⟨0x400D00D0, 0, 9, 0⟩
def KST_WRAPGO_toshelf : Fld := ⟨0x400D00D0, 9, 1, 0⟩
def KST_WRAPGO_go : Fld := ⟨0x400D00D0, 10, 1, 0⟩
def KST_WRAPRES_done : Fld := ⟨0x400D00D4, 0, 1, 0⟩
def KST_WRAPRES_refused : Fld := ⟨0x400D00D4, 1, 1, 0⟩
def KST_SHELFSRC_addr : Fld := ⟨0x400D00E0, 0, 32, 0⟩
def KST_SHELFCMD_idx : Fld := ⟨0x400D00E4, 0, 9, 0⟩
def KST_SHELFCMD_op : Fld := ⟨0x400D00E4, 9, 2, 0⟩
def KST_SHELFCMD_key : Fld := ⟨0x400D00E4, 16, 16, 0⟩
def KST_SHELFRES_done : Fld := ⟨0x400D00E8, 0, 1, 0⟩
def KST_SHELFRES_refused : Fld := ⟨0x400D00E8, 1, 1, 0⟩
def KST_SHELFRES_free : Fld := ⟨0x400D00E8, 16, 16, 0⟩
def KST_REJLOG_why : Fld := ⟨0x400D0100, 0, 4, 0⟩
def KST_REJLOG_user : Fld := ⟨0x400D0100, 4, 4, 0⟩
def KST_REJLOG_idx : Fld := ⟨0x400D0100, 16, 16, 0⟩
def KST_REJCNT_rej : Fld := ⟨0x400D0104, 0, 16, 0⟩
def KST_REJCNT_orph : Fld := ⟨0x400D0104, 16, 16, 0⟩

/-! WLD_ registers. -/
def WLD_REGION_base (k : Nat) : Fld := ⟨0x40100000 + 0x8 * k, 0, 20, 0⟩
def WLD_RSIZE_size (k : Nat) : Fld := ⟨0x40100004 + 0x8 * k, 0, 20, 0⟩
def WLD_RSIZE_attr (k : Nat) : Fld := ⟨0x40100004 + 0x8 * k, 20, 2, 1⟩
def WLD_LOCK_lock : Fld := ⟨0x40100040, 0, 1, 0⟩
def WLD_VIOL0_addr : Fld := ⟨0x40100044, 0, 32, 0⟩
def WLD_VIOL1_world : Fld := ⟨0x40100048, 0, 1, 0⟩
def WLD_VIOL1_write : Fld := ⟨0x40100048, 1, 1, 0⟩
def WLD_VIOL1_src : Fld := ⟨0x40100048, 2, 3, 0⟩
def WLD_VIOL1_core : Fld := ⟨0x40100048, 5, 2, 0⟩
def WLD_VIOLCNT_cnt : Fld := ⟨0x4010004C, 0, 16, 0⟩
def WLD_CNTCFG_blk : Fld := ⟨0x40100050, 0, 4, 15⟩
def WLD_DBG_dbgn : Fld := ⟨0x40100054, 0, 1, 0⟩
def WLD_DBG_dbgs : Fld := ⟨0x40100054, 1, 1, 0⟩
def WLD_DBG_attached : Fld := ⟨0x40100054, 2, 1, 0⟩

/-! CKV_ registers. -/
def CKV_CFG_swlanes : Fld := ⟨0x400E0000, 0, 4, 4⟩
def CKV_STAT_ok : Fld := ⟨0x400E0004, 0, 8, 255⟩
def CKV_STAT_busy : Fld := ⟨0x400E0004, 8, 8, 0⟩
def CKV_FLT_lane : Fld := ⟨0x400E0008, 0, 1, 0⟩
def CKV_FLT_ent : Fld := ⟨0x400E0008, 1, 1, 0⟩
def CKV_FLT_drbg : Fld := ⟨0x400E0008, 2, 1, 0⟩
def CKV_FLT_none : Fld := ⟨0x400E0008, 3, 1, 0⟩
def CKV_FLT_which : Fld := ⟨0x400E0008, 8, 3, 0⟩
def CKV_HWCNT_cnt : Fld := ⟨0x400E000C, 0, 32, 0⟩
def CKV_SWCNT_cnt : Fld := ⟨0x400E0010, 0, 32, 0⟩
def CKV_RBASE_addr (ns : Nat) : Fld := ⟨0x400E0100 + 0x80 * ns, 0, 32, 0⟩
def CKV_RCFG_en (ns : Nat) : Fld := ⟨0x400E0104 + 0x80 * ns, 0, 1, 0⟩
def CKV_RCFG_size (ns : Nat) : Fld := ⟨0x400E0104 + 0x80 * ns, 4, 4, 4⟩
def CKV_RHEAD_idx (ns : Nat) : Fld := ⟨0x400E0108 + 0x80 * ns, 0, 10, 0⟩
def CKV_RTAIL_idx (ns : Nat) : Fld := ⟨0x400E010C + 0x80 * ns, 0, 10, 0⟩
def CKV_RIRQ_vec (ns : Nat) : Fld := ⟨0x400E0110 + 0x80 * ns, 0, 6, 0⟩
def CKV_RIRQ_msix (ns : Nat) : Fld := ⟨0x400E0110 + 0x80 * ns, 6, 1, 0⟩
def CKV_RIRQ_core (ns : Nat) : Fld := ⟨0x400E0110 + 0x80 * ns, 7, 2, 0⟩
def CKV_RSTAT_err (ns : Nat) : Fld := ⟨0x400E0114 + 0x80 * ns, 0, 1, 0⟩
def CKV_RSTAT_fail (ns : Nat) : Fld := ⟨0x400E0114 + 0x80 * ns, 16, 16, 0⟩

/-! PKE_ registers. -/
def PKE_LOCK_take : Fld := ⟨0x400F0000, 0, 1, 0⟩
def PKE_LOCK_held : Fld := ⟨0x400F0000, 1, 1, 0⟩
def PKE_LOCK_busy : Fld := ⟨0x400F0000, 2, 1, 0⟩
def PKE_LOCK_lease : Fld := ⟨0x400F0000, 4, 10, 0⟩
def PKE_JOB_op : Fld := ⟨0x400F0004, 0, 5, 0⟩
def PKE_JOB_curve : Fld := ⟨0x400F0004, 5, 2, 0⟩
def PKE_JOB_keep : Fld := ⟨0x400F0004, 7, 1, 0⟩
def PKE_JOB_byaddr : Fld := ⟨0x400F0004, 8, 1, 0⟩
def PKE_JOB_go : Fld := ⟨0x400F0004, 9, 1, 0⟩
def PKE_JOBOPS0_a : Fld := ⟨0x400F0008, 0, 6, 0⟩
def PKE_JOBOPS0_b : Fld := ⟨0x400F0008, 8, 6, 0⟩
def PKE_JOBOPS0_c : Fld := ⟨0x400F0008, 16, 6, 0⟩
def PKE_JOBOPS0_d : Fld := ⟨0x400F0008, 24, 6, 0⟩
def PKE_JOBOPS1_e : Fld := ⟨0x400F000C, 0, 6, 0⟩
def PKE_JOBOPS1_k : Fld := ⟨0x400F000C, 8, 6, 8⟩
def PKE_JOBKEY_key : Fld := ⟨0x400F0010, 0, 32, 0⟩
def PKE_STAT_busy : Fld := ⟨0x400F0014, 0, 1, 0⟩
def PKE_STAT_done : Fld := ⟨0x400F0014, 1, 1, 0⟩
def PKE_STAT_result : Fld := ⟨0x400F0014, 2, 3, 0⟩
def PKE_STAT_keywhy : Fld := ⟨0x400F0014, 8, 4, 0⟩
def PKE_TIME_cyc : Fld := ⟨0x400F0018, 0, 32, 0⟩
def PKE_CNT_jobs : Fld := ⟨0x400F001C, 0, 16, 0⟩
def PKE_CNT_inv : Fld := ⟨0x400F001C, 16, 16, 0⟩
def PKE_OPPTR_slot : Fld := ⟨0x400F0020, 0, 6, 0⟩
def PKE_OPPTR_off : Fld := ⟨0x400F0020, 8, 13, 0⟩
def PKE_OPDATA_data : Fld := ⟨0x400F0024, 0, 32, 0⟩
def PKE_SLEN_len (i : Nat) : Fld := ⟨0x400F0100 + 0x4 * i, 0, 13, if i < 8 then 64 else if i = 8 then 160 else 0⟩
def PKE_SLEN_sec (i : Nat) : Fld := ⟨0x400F0100 + 0x4 * i, 16, 1, if i = 8 then 1 else 0⟩

/-! DIG_ registers. -/
def DIG_CTL_alg (ns : Nat) : Fld := ⟨0x400F8000 + 0x80 * ns, 0, 2, 1⟩
def DIG_CTL_init (ns : Nat) : Fld := ⟨0x400F8000 + 0x80 * ns, 2, 1, 0⟩
def DIG_CTL_final (ns : Nat) : Fld := ⟨0x400F8000 + 0x80 * ns, 3, 1, 0⟩
def DIG_CTL_go (ns : Nat) : Fld := ⟨0x400F8000 + 0x80 * ns, 4, 1, 0⟩
def DIG_SRC_addr (ns : Nat) : Fld := ⟨0x400F8004 + 0x80 * ns, 0, 32, 0⟩
def DIG_LEN_len (ns : Nat) : Fld := ⟨0x400F8008 + 0x80 * ns, 0, 24, 0⟩
def DIG_STAT_busy (ns : Nat) : Fld := ⟨0x400F800C + 0x80 * ns, 0, 1, 0⟩
def DIG_STAT_done (ns : Nat) : Fld := ⟨0x400F800C + 0x80 * ns, 1, 1, 0⟩
def DIG_STAT_err (ns : Nat) : Fld := ⟨0x400F800C + 0x80 * ns, 2, 1, 0⟩
def DIG_STAT_ready (ns : Nat) : Fld := ⟨0x400F800C + 0x80 * ns, 3, 1, 0⟩
def DIG_OUT_dig (ns i : Nat) : Fld := ⟨0x400F8010 + 0x80 * ns + 0x4 * i, 0, 32, 0⟩

/-! DRG_ registers. -/
def DRG_DATA_rnd : Fld := ⟨0x400F8100, 0, 32, 0⟩
def DRG_STAT_inst : Fld := ⟨0x400F8104, 0, 1, 0⟩
def DRG_STAT_fail : Fld := ⟨0x400F8104, 1, 1, 0⟩
def DRG_STAT_reseeds : Fld := ⟨0x400F8104, 16, 16, 0⟩
def DRG_CTL_reseed : Fld := ⟨0x400F8108, 0, 1, 0⟩
def DRG_HCNT_rct : Fld := ⟨0x400F810C, 0, 16, 0⟩
def DRG_HCNT_apt : Fld := ⟨0x400F810C, 16, 16, 0⟩

/-! MOT_ registers. -/
def MOT_SUM_run : Fld := ⟨0x40110000, 0, 4, 0⟩
def MOT_SUM_flt : Fld := ⟨0x40110000, 4, 4, 0⟩
def MOT_CFG_poles (m : Nat) : Fld := ⟨0x40110100 + 0x40 * m, 0, 5, 0⟩
def MOT_CFG_comm (m : Nat) : Fld := ⟨0x40110100 + 0x40 * m, 5, 2, 0⟩
def MOT_CFG_sense (m : Nat) : Fld := ⟨0x40110100 + 0x40 * m, 7, 1, 0⟩
def MOT_CFG_rev (m : Nat) : Fld := ⟨0x40110100 + 0x40 * m, 8, 2, 0⟩
def MOT_CFG_chop (m : Nat) : Fld := ⟨0x40110100 + 0x40 * m, 10, 1, 0⟩
def MOT_CFG_used (m : Nat) : Fld := ⟨0x40110100 + 0x40 * m, 11, 1, 0⟩
def MOT_PWM_pwm (m : Nat) : Fld := ⟨0x40110104 + 0x40 * m, 0, 10, 0⟩
def MOT_PWM_dt (m : Nat) : Fld := ⟨0x40110104 + 0x40 * m, 16, 8, 100⟩
def MOT_PWM_phase (m : Nat) : Fld := ⟨0x40110104 + 0x40 * m, 24, 8, 0⟩
def MOT_LIM_imax (m : Nat) : Fld := ⟨0x40110108 + 0x40 * m, 0, 16, 0⟩
def MOT_LIM_rpm (m : Nat) : Fld := ⟨0x40110108 + 0x40 * m, 16, 16, 0⟩
def MOT_VTH0_vsoft (m : Nat) : Fld := ⟨0x4011010C + 0x40 * m, 0, 16, 0⟩
def MOT_VTH0_vhard (m : Nat) : Fld := ⟨0x4011010C + 0x40 * m, 16, 16, 0⟩
def MOT_VTH1_vtrip (m : Nat) : Fld := ⟨0x40110110 + 0x40 * m, 0, 16, 0⟩
def MOT_VTH1_hyst (m : Nat) : Fld := ⟨0x40110110 + 0x40 * m, 16, 8, 5⟩
def MOT_CMD_op (m : Nat) : Fld := ⟨0x40110114 + 0x40 * m, 0, 3, 0⟩
def MOT_CMD_rpm (m : Nat) : Fld := ⟨0x40110114 + 0x40 * m, 16, 16, 0⟩
def MOT_RAMP_acc (m : Nat) : Fld := ⟨0x40110118 + 0x40 * m, 0, 16, 2000⟩
def MOT_RAMP_dec (m : Nat) : Fld := ⟨0x40110118 + 0x40 * m, 16, 16, 2000⟩
def MOT_PI_kp (m : Nat) : Fld := ⟨0x4011011C + 0x40 * m, 0, 16, 256⟩
def MOT_PI_ki (m : Nat) : Fld := ⟨0x4011011C + 0x40 * m, 16, 16, 16⟩
def MOT_START_obs (m : Nat) : Fld := ⟨0x40110120 + 0x40 * m, 0, 10, 100⟩
def MOT_START_omin (m : Nat) : Fld := ⟨0x40110120 + 0x40 * m, 16, 16, 0⟩
def MOT_WAIT_s (m : Nat) : Fld := ⟨0x40110124 + 0x40 * m, 0, 16, 60⟩
def MOT_STAT_state (m : Nat) : Fld := ⟨0x40110128 + 0x40 * m, 0, 3, 0⟩
def MOT_STAT_rev (m : Nat) : Fld := ⟨0x40110128 + 0x40 * m, 3, 1, 0⟩
def MOT_STAT_soft (m : Nat) : Fld := ⟨0x40110128 + 0x40 * m, 4, 1, 0⟩
def MOT_STAT_hard (m : Nat) : Fld := ⟨0x40110128 + 0x40 * m, 5, 1, 0⟩
def MOT_STAT_brk (m : Nat) : Fld := ⟨0x40110128 + 0x40 * m, 6, 1, 0⟩
def MOT_STAT_sinus (m : Nat) : Fld := ⟨0x40110128 + 0x40 * m, 7, 1, 0⟩
def MOT_STAT_speed (m : Nat) : Fld := ⟨0x40110128 + 0x40 * m, 16, 16, 0⟩
def MOT_MEAS_vdc (m : Nat) : Fld := ⟨0x4011012C + 0x40 * m, 0, 16, 0⟩
def MOT_MEAS_imeas (m : Nat) : Fld := ⟨0x4011012C + 0x40 * m, 16, 16, 0⟩
def MOT_EVT_fault (m : Nat) : Fld := ⟨0x40110130 + 0x40 * m, 0, 1, 0⟩
def MOT_EVT_rev (m : Nat) : Fld := ⟨0x40110130 + 0x40 * m, 1, 1, 0⟩
def MOT_EVT_soft (m : Nat) : Fld := ⟨0x40110130 + 0x40 * m, 2, 1, 0⟩
def MOT_EVT_hard (m : Nat) : Fld := ⟨0x40110130 + 0x40 * m, 3, 1, 0⟩
def MOT_EVT_trip (m : Nat) : Fld := ⟨0x40110130 + 0x40 * m, 4, 1, 0⟩
def MOT_FAULT_reason (m : Nat) : Fld := ⟨0x40110134 + 0x40 * m, 0, 3, 0⟩
def MOT_TEST_op (m : Nat) : Fld := ⟨0x40110138 + 0x40 * m, 0, 2, 0⟩
def MOT_TEST_sect (m : Nat) : Fld := ⟨0x40110138 + 0x40 * m, 2, 3, 0⟩
def MOT_TEST_duty (m : Nat) : Fld := ⟨0x40110138 + 0x40 * m, 16, 16, 0⟩
def MOT_HALL_map (m : Nat) : Fld := ⟨0x4011013C + 0x40 * m, 0, 24, 15647367⟩

/-! LMP_ registers. -/
def LMP_LATCHED_ch : Fld := ⟨0x40120000, 0, 24, 0⟩
def LMP_TEST_ch : Fld := ⟨0x40120004, 0, 5, 0⟩
def LMP_TEST_ms : Fld := ⟨0x40120004, 16, 16, 0⟩
def LMP_GCFG_ilimit (g : Nat) : Fld := ⟨0x40120040 + 0x10 * g, 0, 16, 0⟩
def LMP_GCFG_gfilt (g : Nat) : Fld := ⟨0x40120040 + 0x10 * g, 16, 8, 20⟩
def LMP_GSTAT_holder (g : Nat) : Fld := ⟨0x40120044 + 0x10 * g, 0, 3, 7⟩
def LMP_GSTAT_dist (g : Nat) : Fld := ⟨0x40120044 + 0x10 * g, 3, 1, 0⟩
def LMP_GSTAT_over (g : Nat) : Fld := ⟨0x40120044 + 0x10 * g, 4, 1, 0⟩
def LMP_GSTAT_wait (g : Nat) : Fld := ⟨0x40120044 + 0x10 * g, 8, 6, 0⟩
def LMP_CCFG0_used (c : Nat) : Fld := ⟨0x40120200 + 0x20 * c, 0, 1, 0⟩
def LMP_CCFG0_retries (c : Nat) : Fld := ⟨0x40120200 + 0x20 * c, 1, 3, 0⟩
def LMP_CCFG0_inom (c : Nat) : Fld := ⟨0x40120200 + 0x20 * c, 16, 16, 0⟩
def LMP_CCFG1_iinr (c : Nat) : Fld := ⟨0x40120204 + 0x20 * c, 0, 16, 0⟩
def LMP_CCFG1_tinr (c : Nat) : Fld := ⟨0x40120204 + 0x20 * c, 16, 16, 0⟩
def LMP_CCFG2_cool (c : Nat) : Fld := ⟨0x40120208 + 0x20 * c, 0, 16, 0⟩
def LMP_CCFG2_hshort (c : Nat) : Fld := ⟨0x40120208 + 0x20 * c, 16, 16, 0⟩
def LMP_CCFG3_soft (c : Nat) : Fld := ⟨0x4012020C + 0x20 * c, 0, 8, 0⟩
def LMP_CCFG3_open (c : Nat) : Fld := ⟨0x4012020C + 0x20 * c, 16, 16, 0⟩
def LMP_CMD_mode (c : Nat) : Fld := ⟨0x40120210 + 0x20 * c, 0, 2, 0⟩
def LMP_CMD_on (c : Nat) : Fld := ⟨0x40120210 + 0x20 * c, 8, 8, 50⟩
def LMP_CMD_off (c : Nat) : Fld := ⟨0x40120210 + 0x20 * c, 16, 8, 50⟩
def LMP_CSTAT_state (c : Nat) : Fld := ⟨0x40120214 + 0x20 * c, 0, 3, 0⟩
def LMP_CSTAT_tries (c : Nat) : Fld := ⟨0x40120214 + 0x20 * c, 3, 4, 0⟩
def LMP_CSTAT_open (c : Nat) : Fld := ⟨0x40120214 + 0x20 * c, 7, 1, 0⟩
def LMP_CSTAT_ext (c : Nat) : Fld := ⟨0x40120214 + 0x20 * c, 8, 1, 0⟩
def LMP_CSTAT_reason (c : Nat) : Fld := ⟨0x40120214 + 0x20 * c, 9, 3, 0⟩
def LMP_CSTAT_imeas (c : Nat) : Fld := ⟨0x40120214 + 0x20 * c, 16, 16, 0⟩
def LMP_CEVT_trip (c : Nat) : Fld := ⟨0x40120218 + 0x20 * c, 0, 1, 0⟩
def LMP_CEVT_latch (c : Nat) : Fld := ⟨0x40120218 + 0x20 * c, 1, 1, 0⟩
def LMP_CEVT_open (c : Nat) : Fld := ⟨0x40120218 + 0x20 * c, 2, 1, 0⟩
def LMP_CCNT_trips (c : Nat) : Fld := ⟨0x4012021C + 0x20 * c, 0, 16, 0⟩
def LMP_CCNT_ons (c : Nat) : Fld := ⟨0x4012021C + 0x20 * c, 16, 16, 0⟩

/-! ANA_ registers. -/
def ANA_STAT_run0 : Fld := ⟨0x40130000, 0, 1, 0⟩
def ANA_STAT_run1 : Fld := ⟨0x40130000, 1, 1, 0⟩
def ANA_STAT_late : Fld := ⟨0x40130000, 16, 16, 0⟩
def ANA_RES_code (i : Nat) : Fld := ⟨0x40130100 + 0x4 * i, 0, 12, 0⟩
def ANA_RES_value (i : Nat) : Fld := ⟨0x40130100 + 0x4 * i, 16, 16, 0⟩
def ANA_WIN0_ch (w : Nat) : Fld := ⟨0x40130200 + 0x8 * w, 0, 5, 0⟩
def ANA_WIN0_en (w : Nat) : Fld := ⟨0x40130200 + 0x8 * w, 7, 1, 0⟩
def ANA_WIN0_mode (w : Nat) : Fld := ⟨0x40130200 + 0x8 * w, 8, 1, 0⟩
def ANA_WIN0_filt (w : Nat) : Fld := ⟨0x40130200 + 0x8 * w, 12, 4, 1⟩
def ANA_WIN1_lo (w : Nat) : Fld := ⟨0x40130204 + 0x8 * w, 0, 12, 0⟩
def ANA_WIN1_hi (w : Nat) : Fld := ⟨0x40130204 + 0x8 * w, 16, 12, 4095⟩
def ANA_WEVT_fired : Fld := ⟨0x40130240, 0, 8, 0⟩
def ANA_WEVT_now : Fld := ⟨0x40130240, 8, 8, 0⟩

/-! WER_ registers. -/
def WER_STAT_ok : Fld := ⟨0x40140000, 0, 1, 0⟩
def WER_STAT_gap : Fld := ⟨0x40140000, 1, 1, 0⟩
def WER_STAT_lost : Fld := ⟨0x40140000, 2, 1, 0⟩
def WER_STAT_saving : Fld := ⟨0x40140000, 3, 1, 0⟩
def WER_CLOCK_sec : Fld := ⟨0x40140004, 0, 32, 0⟩
def WER_DAY_day : Fld := ⟨0x40140008, 0, 24, 0⟩
def WER_CFG_horizon : Fld := ⟨0x4014000C, 0, 16, 365⟩
def WER_CFG_vbna : Fld := ⟨0x4014000C, 16, 16, 4000⟩
def WER_TEMP_now : Fld := ⟨0x40140010, 0, 12, 0⟩
def WER_TEMP_max : Fld := ⟨0x40140010, 16, 12, 0⟩
def WER_TCFG_warn : Fld := ⟨0x40140014, 0, 8, 115⟩
def WER_EVT_warn : Fld := ⟨0x40140018, 0, 1, 0⟩
def WER_EVT_horizon : Fld := ⟨0x40140018, 1, 1, 0⟩
def WER_EVT_eol : Fld := ⟨0x40140018, 2, 1, 0⟩
def WER_EVT_lost : Fld := ⟨0x40140018, 3, 1, 0⟩
def WER_EVTITEM_item : Fld := ⟨0x4014001C, 0, 16, 0⟩
def WER_EVTITEM_inst : Fld := ⟨0x4014001C, 16, 5, 0⟩
def WER_SAVE_go : Fld := ⟨0x40140020, 0, 1, 0⟩
def WER_RESET_item : Fld := ⟨0x40140024, 0, 11, 0⟩
def WER_RESET_inst : Fld := ⟨0x40140024, 11, 5, 0⟩
def WER_RESET_key : Fld := ⟨0x40140024, 16, 16, 0⟩
def WER_THIST_sec (i : Nat) : Fld := ⟨0x40140040 + 0x4 * i, 0, 32, 0⟩
def WER_SEL_item : Fld := ⟨0x40140080, 0, 16, 0⟩
def WER_SEL_inst : Fld := ⟨0x40140080, 16, 5, 0⟩
def WER_IINFO_valid : Fld := ⟨0x40140084, 0, 1, 0⟩
def WER_IINFO_rated : Fld := ⟨0x40140084, 1, 1, 0⟩
def WER_IINFO_partial : Fld := ⟨0x40140084, 2, 1, 0⟩
def WER_IINFO_used : Fld := ⟨0x40140084, 8, 8, 0⟩
def WER_IINFO_conf : Fld := ⟨0x40140084, 16, 2, 0⟩
def WER_IINFO_warnl : Fld := ⟨0x40140084, 18, 1, 0⟩
def WER_IINFO_horl : Fld := ⟨0x40140084, 19, 1, 0⟩
def WER_IINFO_eoll : Fld := ⟨0x40140084, 20, 1, 0⟩
def WER_IINFO_nsamp : Fld := ⟨0x40140084, 21, 6, 0⟩
def WER_CNTLO_cnt : Fld := ⟨0x40140088, 0, 32, 0⟩
def WER_CNTHI_cnt : Fld := ⟨0x4014008C, 0, 32, 0⟩
def WER_RATLO_rated : Fld := ⟨0x40140090, 0, 32, 0⟩
def WER_RATHI_rated : Fld := ⟨0x40140094, 0, 32, 0⟩
def WER_EOLDAY_day : Fld := ⟨0x40140098, 0, 32, 4294967295⟩
def WER_EOLE_day : Fld := ⟨0x4014009C, 0, 32, 4294967295⟩
def WER_EOLREM_days : Fld := ⟨0x401400A0, 0, 32, 4294967295⟩
def WER_REPL_repl : Fld := ⟨0x401400A4, 0, 16, 0⟩
def WER_REPL_warn : Fld := ⟨0x401400A4, 16, 8, 0⟩

/-! EVC_ registers. -/
def EVC_CTL_act : Fld := ⟨0x40030000, 0, 1, 0⟩
def EVC_PEND0_pend : Fld := ⟨0x40030004, 0, 32, 0⟩
def EVC_PEND1_pend : Fld := ⟨0x40030008, 0, 32, 0⟩
def EVC_OWN0_sec : Fld := ⟨0x4003000C, 0, 32, 0⟩
def EVC_OWN1_sec : Fld := ⟨0x40030010, 0, 32, 0⟩
def EVC_MASKN0_msk : Fld := ⟨0x40030014, 0, 32, 0⟩
def EVC_MASKN1_msk : Fld := ⟨0x40030018, 0, 32, 0⟩
def EVC_MASKS0_msk : Fld := ⟨0x4003001C, 0, 32, 0⟩
def EVC_MASKS1_msk : Fld := ⟨0x40030020, 0, 32, 0⟩
def EVC_SOFT_s0 : Fld := ⟨0x40030024, 0, 1, 0⟩
def EVC_SOFT_s1 : Fld := ⟨0x40030024, 1, 1, 0⟩
def EVC_CLAIM_event : Fld := ⟨0x40030028, 0, 6, 0⟩
def EVC_CLAIM_prio : Fld := ⟨0x40030028, 8, 4, 0⟩
def EVC_CLAIM_valid : Fld := ⟨0x40030028, 31, 1, 0⟩
def EVC_THRESH_min : Fld := ⟨0x4003002C, 0, 4, 0⟩
def EVC_HIESTAT_sent : Fld := ⟨0x40030030, 0, 16, 0⟩
def EVC_HIESTAT_deferred : Fld := ⟨0x40030030, 16, 16, 0⟩
def EVC_ROUTE_core (i : Nat) : Fld := ⟨0x40030100 + 0x4 * i, 0, 2, 0⟩
def EVC_ROUTE_world (i : Nat) : Fld := ⟨0x40030100 + 0x4 * i, 2, 1, 0⟩
def EVC_ROUTE_irq (i : Nat) : Fld := ⟨0x40030100 + 0x4 * i, 3, 1, 0⟩
def EVC_ROUTE_vec (i : Nat) : Fld := ⟨0x40030100 + 0x4 * i, 4, 6, 0⟩
def EVC_ROUTE_msix (i : Nat) : Fld := ⟨0x40030100 + 0x4 * i, 10, 1, 0⟩
def EVC_ROUTE_hie (i : Nat) : Fld := ⟨0x40030100 + 0x4 * i, 11, 1, 0⟩
def EVC_ROUTE_wire (i : Nat) : Fld := ⟨0x40030100 + 0x4 * i, 12, 2, 0⟩
def EVC_ROUTE_prio (i : Nat) : Fld := ⟨0x40030100 + 0x4 * i, 16, 4, 0⟩
def EVC_CNT_cnt (i : Nat) : Fld := ⟨0x40030200 + 0x4 * i, 0, 16, 0⟩

end Sys2Proof.Machine
end

