-- ==== Sys2Proof/Machine/Ops.lean ====
section
/-! DEFINITION. The named operations over the state: sparse tables, register fields, memory, free values, bus answers, events
and modes. Every meaning goes through these. -/

namespace Sys2Proof.Machine

/-! Sparse tables: sorted keys, no entry equal to the default. -/

/-- The value at a key, or the default. -/
def tabGet {α : Type} (d : α) : List (Nat × α) → Nat → α
  | [], _ => d
  | (k', v) :: r, k => if k' = k then v else tabGet d r k

/-- The table without a key. -/
def tabDrop {α : Type} (t : List (Nat × α)) (k : Nat) : List (Nat × α) :=
  t.filter fun e => e.1 != k

/-- A key put in front of the first greater one. -/
def tabIns {α : Type} (k : Nat) (v : α) : List (Nat × α) → List (Nat × α)
  | [] => [(k, v)]
  | (k', v') :: r => if k < k' then (k, v) :: (k', v') :: r else (k', v') :: tabIns k v r

/-- A key set to a value; the default removes it. -/
def tabPut {α : Type} [DecidableEq α] (d : α) (t : List (Nat × α)) (k : Nat) (v : α) : List (Nat × α) :=
  if v = d then tabDrop t k else tabIns k v (tabDrop t k)

/-- Keys strictly rising and above a bound. -/
def tabSorted {α : Type} : List (Nat × α) → Bool
  | [] => true
  | [_] => true
  | a :: b :: r => decide (a.1 < b.1) && tabSorted (b :: r)

/-! Register fields. -/

/-- The key of a field in `regs`. -/
def Fld.key (f : Fld) : Nat := f.addr * 32 + f.lo

/-- What a field holds: never more than its width has room for. -/
def getF (f : Fld) (s : State) : Nat := tabGet f.reset s.regs f.key % 2 ^ f.width

/-- A field set, cut to its width. -/
def setF (f : Fld) (v : Nat) (s : State) : State :=
  { s with regs := tabPut f.reset s.regs f.key (v % 2 ^ f.width) }

/-- A one-bit field as a truth value. -/
def isSet (f : Fld) (s : State) : Bool := getF f s != 0

/-- A one-bit field set from a truth value. -/
def setB (f : Fld) (b : Bool) (s : State) : State := setF f (if b then 1 else 0) s

/-- A saturating counter raised by n. -/
def incF (f : Fld) (n : Nat) (s : State) : State := setF f (min (getF f s + n) (2 ^ f.width - 1)) s

/-- A counter that wraps, raised by n. -/
def incWrap (f : Fld) (n : Nat) (s : State) : State := setF f (getF f s + n) s

/-- Bits set in a field. -/
def orF (f : Fld) (m : Nat) (s : State) : State := setF f (getF f s ||| m) s

/-- Bits of n that are not in m. -/
def natAndNot (n m : Nat) : Nat := n ^^^ (n &&& m)

/-- Bits cleared in a field. -/
def clrF (f : Fld) (m : Nat) (s : State) : State := setF f (natAndNot (getF f s) m) s

/-- Bits lo to lo + n - 1 of a number. -/
def bitsOf (v lo n : Nat) : Nat := (v >>> lo) % 2 ^ n

/-- Bits lo to lo + n - 1 of a written word. -/
def wbits (w : Word) (lo n : Nat) : Nat := bitsOf w.toNat lo n

/-- Bits lo to lo + n - 1 of v replaced by x. -/
def putBits (v lo n x : Nat) : Nat :=
  natAndNot v ((2 ^ n - 1) <<< lo) ||| ((x % 2 ^ n) <<< lo)

/-- Fields changed one after another. -/
def applyAll {α : Type} (l : List α) (g : α → State → State) (s : State) : State :=
  l.foldl (fun t x => g x t) s

/-! Memory, one list of cells (R496); an unlisted byte reads 0 (log entry 2). -/

/-- What an unlisted address reads as. -/
def memDefault : Byte := 0

/-- The byte at an address. -/
def rd8 (s : State) (a : Nat) : Byte := tabGet memDefault s.mem a

/-- One byte stored. -/
def wr8 (a : Nat) (b : Byte) (s : State) : State := { s with mem := tabPut memDefault s.mem a b }

/-- n bytes from an address up. -/
def rdBytes (s : State) (a n : Nat) : List Byte := (List.range n).map fun i => rd8 s (a + i)

/-- Bytes stored from an address up. -/
def wrBytes : Nat → List Byte → State → State
  | _, [], s => s
  | a, b :: r, s => wrBytes (a + 1) r (wr8 a b s)

/-- The canonical form of memory: addresses rising, no listed default. -/
def memWf (m : List Host.Cell) : Bool := tabSorted m && m.all fun c => c.2 != memDefault

/-! Bytes and numbers (R4: little-endian in memory, most significant byte first on wires). -/

/-- Little-endian bytes as a number. -/
def leNat : List Byte → Nat
  | [] => 0
  | b :: r => b.toNat + 256 * leNat r

/-- Big-endian bytes as a number. -/
def beNat (l : List Byte) : Nat := l.foldl (fun n b => n * 256 + b.toNat) 0

/-- A number as n little-endian bytes. -/
def leBytes : Nat → Nat → List Byte
  | 0, _ => []
  | n + 1, v => BitVec.ofNat 8 v :: leBytes n (v / 256)

/-- A number as n big-endian bytes. -/
def beBytes (n v : Nat) : List Byte := (leBytes n v).reverse

/-- n bytes of a byte string from an offset, zeros beyond its end. -/
def slice (l : List Byte) (off n : Nat) : List Byte :=
  (List.range n).map fun i => l.getD (off + i) 0

/-- An n-byte little-endian number inside a byte string. -/
def leAt (l : List Byte) (off n : Nat) : Nat := leNat (slice l off n)

/-! Free values (log entry 3). -/

/-- A value the spec leaves open, below 2^w, and the state with the count advanced. -/
def drawFree (w : Nat) (s : State) : Nat × State :=
  (Config.freeValue s.freeCount % 2 ^ w, { s with freeCount := s.freeCount + 1 })

/-- A field set to a value the spec leaves open. -/
def setFree (f : Fld) (s : State) : State :=
  let r := drawFree f.width s
  setF f r.1 r.2

/-! Bus answers. -/

/-- The access was taken. -/
def busDone (s : State) : State := { s with bus := .done }

/-- The access completed with a bus error and changed nothing. -/
def busError (s : State) : State := { s with bus := .error }

/-- The access read a value. -/
def busData (v : Nat) (s : State) : State := { s with bus := .data (BitVec.ofNat 32 v) }

/-- The access is held until an earlier one is done. -/
def busStall (s : State) : State := { s with bus := .stall }

/-- The access is to be made again. -/
def busRetry (s : State) : State := { s with bus := .retry }

/-- Something put on an interface. -/
def emit (e : Emission) (s : State) : State := { s with outbox := e :: s.outbox }

/-! Requesters. -/

/-- The world a requester acts in: hosts act as the normal world (R357), the loader as the secure one. A lodger's
leases are the normal world's to revoke (R203), so it acts there (log entry 114). -/
def rqWorld : Requester → World
  | .core _ w => w
  | .pcie => .normal
  | .qspi => .normal
  | .debug w => w
  | .loader => .secure
  | .remote _ w => w
  | .lodger _ => .normal

/-- The requester has the secure world's rights. A remote device carries a world (R363) but is refused as a host is, and a host's rights are
the normal world's (R357). -/
def rqSecure (r : Requester) : Bool :=
  match r with
  | .remote _ _ => false
  | _ => rqWorld r == .secure

/-- The world whose rights the requester has. -/
def rqRights (r : Requester) : World := if rqSecure r then .secure else .normal

/-- The core that executes the access, if one does. -/
def rqCore : Requester → Option Nat
  | .core c _ => some c
  | _ => none

/-- The owner tag of R198: kind in [2:0], id in [15:8]; a core's access carries its core (kind 3 or 4). -/
def rqTag : Requester → Nat
  | .core c .normal => 3 + 256 * c
  | .core c .secure => 4 + 256 * c
  | .pcie => 6 + 256 * 0x10
  | .qspi => 6 + 256 * 0x11
  | .debug _ => 6 + 256 * 0x12
  | .loader => 6 + 256 * 0x01
  | .remote d _ => 7 + 256 * d
  | .lodger i => 5 + 256 * i

/-! The time base (R318, R319). -/

/-- The microsecond view, 32 bits (R319). -/
def nowUs (s : State) : Nat := (s.time.sec * 1000000 + s.time.ns / 1000) % 2 ^ 32

/-- The time base in nanoseconds. -/
def nowNs (s : State) : Nat := s.time.sec * 1000000000 + s.time.ns

/-- Nanoseconds after which the 48-bit seconds wrap (R318). -/
abbrev timeWrap := 2 ^ 48 * 1000000000

/-- What one CK_ETH cycle adds to the time base, in 2^-32 ns (R318). -/
def etherStep (s : State) : Int := 8 * 2 ^ 32 + (BitVec.ofNat 32 (getF TSY_FADJ_fadj s)).toInt

/-- A time in nanoseconds in the stamp view (R319). -/
def toStamp (ns : Nat) : Nat := (ns / 1000000000 % 2 ^ 32) * 2 ^ 32 + ns % 1000000000

/-- The stamp of a moment `ago` cycles back of a clock that has `per` cycles of `half` half-nanoseconds in a beat of 200 ns (R81): the time base
at the last beat before it, and a cycle's time for each cycle from that beat on. The commands of this model stand at beats, and nothing has
set or stepped the time base since (log entry 103). -/
def beatStamp (per half ago : Nat) (s : State) : Nat :=
  let beats := (ago + per - 1) / per
  let t : Int := ((nowNs s : Int) * 2 ^ 32 + s.time.frac - 25 * beats * etherStep s) / 2 ^ 32 + ((per * beats - ago) * half / 2 : Nat)
  toStamp (t % timeWrap).toNat

/-- The same for CK_CAN, of 12.5 ns, and for CK_SLOW, of 25 ns. -/
def canStamp : Nat → State → Nat := beatStamp 16 25
def slowStamp : Nat → State → Nat := beatStamp 8 50

/-- The millisecond view, 32 bits (R319). -/
def nowMs (s : State) : Nat := (s.time.sec * 1000 + s.time.ns / 1000000) % 2 ^ 32

/-- The stamp view (R319). -/
def stamp (s : State) : Nat := (s.time.sec % 2 ^ 32) * 2 ^ 32 + s.time.ns

/-- A stamp as microseconds. -/
def stampUs (t : Nat) : Nat := ((t / 2 ^ 32) * 1000000 + (t % 2 ^ 32) / 1000) % 2 ^ 32

/-- a - b in 32 bits. -/
def sub32 (a b : Nat) : Nat := (a + 2 ^ 32 - b % 2 ^ 32) % 2 ^ 32

/-! Modes (R98 to R101). -/

/-- The mode codes of R98. -/
abbrev mOff := 0
abbrev mBackup := 1
abbrev mBare := 2
abbrev mLoading := 3
abbrev mBuilding := 4
abbrev mService := 5
abbrev mDegraded := 6
abbrev mPartial := 7
abbrev mStandby := 8
abbrev mReconfig := 9
abbrev mWorkshop := 10
abbrev mQuarantine := 11

/-- The current mode. -/
def mode (s : State) : Nat := getF PWR_MODE_mode s

/-- The modes in which an image is in force. -/
def serving (s : State) : Bool := mode s ≥ 5 && mode s ≤ 10

/-! Raising an event (R485 to R489). -/

/-- The pending field and the bit in it of an event. -/
def evPend (e : Nat) : Fld := if e < 32 then EVC_PEND0_pend else EVC_PEND1_pend

/-- The normal-world mask field of an event. -/
def evMaskN (e : Nat) : Fld := if e < 32 then EVC_MASKN0_msk else EVC_MASKN1_msk

/-- The secure-world mask field of an event. -/
def evMaskS (e : Nat) : Fld := if e < 32 then EVC_MASKS0_msk else EVC_MASKS1_msk

/-- The ownership field of an event (R490). -/
def evOwn (e : Nat) : Fld := if e < 32 then EVC_OWN0_sec else EVC_OWN1_sec

/-- An event is pending. -/
def evPending (e : Nat) (s : State) : Bool := (getF (evPend e) s).testBit (e % 32)

/-- An event's bit is set in a pair of fields. -/
def evBit (f : Nat → Fld) (e : Nat) (s : State) : Bool := (getF (f e) s).testBit (e % 32)

/-- A raise that takes place: the pending bit and the count (R487), one MSI-X request where routed and not masked (R492), one
message request where routed to the hierarchy (R493). -/
def raiseNow (e : Nat) (s : State) : State :=
  let s1 := incF (EVC_CNT_cnt e) 1 (orF (evPend e) (2 ^ (e % 32)) s)
  let s2 := if isSet (EVC_ROUTE_msix e) s && !evBit evMaskN e s then
      { s1 with evc := { s1.evc with msixReq := s1.evc.msixReq ++ [getF (EVC_ROUTE_vec e) s] } }
    else s1
  if isSet (EVC_ROUTE_hie e) s then
    { s2 with evc := { s2.evc with hieReq := s2.evc.hieReq ++ [(e, nowUs s)] } }
  else s2

/-- A raise: nothing while the controller is inactive (R485), held while it is stopped in STANDBY (R486). -/
def raise (e : Nat) (s : State) : State :=
  if !isSet EVC_CTL_act s then s
  else if mode s = mStandby then { s with evc := { s.evc with held := s.evc.held ||| 2 ^ e } }
  else raiseNow e s

/-- A raise made at most once in each CK_TICK millisecond, per event and instance. -/
def raiseOnce (e inst : Nat) (s : State) : State :=
  if s.once.contains (e * 64 + inst) then s
  else raise e { s with once := (e * 64 + inst) :: s.once }

/-- Held raises take place in ascending number (R486). -/
def releaseHeld (s : State) : State :=
  let h := s.evc.held
  applyAll ((List.range 64).filter fun e => h.testBit e) raiseNow { s with evc := { s.evc with held := 0 } }

/-- The mode changes: prev takes the mode left, and event 3 is raised between two of the modes 5 to 11 (R101). -/
def setMode (m : Nat) (s : State) : State :=
  let old := mode s
  if old = m then s
  else
    let s1 := setF PWR_MODE_mode m (setF PWR_MODE_prev old s)
    if 5 ≤ old && old ≤ 11 && 5 ≤ m && m ≤ 11 then raise 3 s1 else s1

/-- The DEGRADED causes set. -/
def causes (s : State) : Nat := getF PWR_DEGRADE_cause s

/-- A delta is being applied: accepted and not yet ended (R100, R168). -/
def deltaApplying (s : State) : Bool :=
  let st := getF IMG_DLTSTAT_state s
  st == 3 || st == 4 || isSet IMG_RCFG_drain s

/-- The mode shown of base mode, causes and delta (R100); only in the modes it rules. -/
def refreshMode (s : State) : State :=
  let m := mode s
  if m = mService || m = mPartial || m = mDegraded || m = mReconfig then
    setMode (if deltaApplying s then mReconfig else if causes s ≠ 0 then mDegraded else getF PWR_MODE_base s) s
  else s

/-! Units the image uses (R10, R132). -/

/-- Tile n has a function. -/
def tileFunc (n : Nat) (s : State) : Nat := getF (FAB_FUNC_fn (n / 8) (n % 8)) s

/-- Tile n is used. -/
def tileUsed (n : Nat) (s : State) : Bool := tileFunc n s != 0

/-- The binding of a port. -/
def bindOf (p : Nat) (s : State) : Option BindRec := s.str.binds.find? fun b => b.port = p

/-- Port p is used. -/
def portUsed (p : Nat) (s : State) : Bool := (bindOf p s).isSome

/-- The used tiles in ascending number. -/
def usedTiles (s : State) : List Nat := (List.range 48).filter fun n => tileUsed n s

/-- A tile of function 1 or 2 (CAN), 3 or 4 (LIN), 5 or 6 (UART, HDLC), 7 (GPIO). -/
def isCan (n : Nat) (s : State) : Bool := tileFunc n s == 1 || tileFunc n s == 2
def isLin (n : Nat) (s : State) : Bool := tileFunc n s == 3 || tileFunc n s == 4
def isUart (n : Nat) (s : State) : Bool := tileFunc n s == 5 || tileFunc n s == 6

/-! Small bit-field helpers for the tile and unit masks of two registers. -/

/-- Tile n's bit in a pair of registers (tiles 0 to 31, tiles 32 to 47). -/
def tileBit (lo hi : Fld) (n : Nat) (s : State) : Bool :=
  if n < 32 then (getF lo s).testBit n else (getF hi s).testBit (n - 32)

/-- Tile n's bit set or cleared in a pair of registers. -/
def setTileBit (lo hi : Fld) (n : Nat) (b : Bool) (s : State) : State :=
  let f := if n < 32 then lo else hi
  let m := 2 ^ (if n < 32 then n else n - 32)
  if b then orF f m s else clrF f m s

/-! Outcomes. -/

/-- The next state of a command, as exec answers it. -/
abbrev Out := Host.Outcome State Fault Refusal

end Sys2Proof.Machine
end

