-- ==== Sys2Proof/Machine/Operands.lean ====
section
/-! DEFINITION. What the operands of the commands carry bit by bit: check values, the scrambler, the fields of a car link frame
(R42 to R54), and the checks every keyed or world-bound register write shares. -/

namespace Sys2Proof.Machine

/-! Check values. -/

/-- One bit into a check register of the given width, most significant bit first. -/
def crcBit (width poly reg : Nat) (b : Bool) : Nat :=
  let top := reg.testBit (width - 1)
  let sh := reg * 2 % 2 ^ width
  if top != b then sh ^^^ poly else sh

/-- The check register after a bit string. -/
def crcBits (width poly init : Nat) (bits : List Bool) : Nat :=
  bits.foldl (crcBit width poly) init

/-- Bits n - 1 down to 0 of a number. -/
def msbBits (n v : Nat) : List Bool := (List.range n).map fun i => v.testBit (n - 1 - i)

/-- The number a bit string spells, first bit most significant. -/
def bitsNat (l : List Bool) : Nat := l.foldl (fun n b => 2 * n + (if b then 1 else 0)) 0

/-- CRC-8 of R44: x^8 + x^2 + x + 1, preset 0xFF. -/
def crc8 (bits : List Bool) : Nat := crcBits 8 0x07 0xFF bits

/-- CRC-4 of R46: x^4 + x + 1, preset 0b1111. -/
def crc4 (bits : List Bool) : Nat := crcBits 4 0x3 0xF bits

/-- CRC-32 of R45: 0x04C1_1DB7, preset all ones, remainder inverted. -/
def crc32 (bits : List Bool) : Nat := crcBits 32 0x04C11DB7 0xFFFFFFFF bits ^^^ 0xFFFFFFFF

/-- Bytes as bits, each byte most significant bit first (R126). -/
def byteBits (l : List Byte) : List Bool := l.flatMap fun b => msbBits 8 b.toNat

/-! The car link frame (R42). -/

/-- The sync word (R42). -/
def syncWord : Nat := 0x4D9BE271

/-- Frame bits from offset o, n of them. -/
def frameBits (f : LinkFrame) (o n : Nat) : List Bool := (List.range n).map fun i => f.getMsbD (o + i)

/-- A frame field as a number. -/
def frameNat (f : LinkFrame) (o n : Nat) : Nat := bitsNat (frameBits f o n)

/-- How many bits of the sync word differ (R59). -/
def syncErrors (f : LinkFrame) : Nat :=
  ((List.range 32).filter fun i => (frameNat f 0 32 ^^^ syncWord).testBit i).length

/-- The 24 header bits (R43). -/
def frHeader (f : LinkFrame) : Nat := frameNat f 32 24
/-- hop of the header. -/
def frHop (f : LinkFrame) : Nat := bitsOf (frHeader f) 16 6
/-- fcnt of the header. -/
def frFcnt (f : LinkFrame) : Nat := bitsOf (frHeader f) 8 8
/-- cfg of the status byte. -/
def frCfg (f : LinkFrame) : Nat := bitsOf (frHeader f) 0 3
/-- dir of the status byte: sent on port B. -/
def frDir (f : LinkFrame) : Bool := (frHeader f).testBit 3
/-- realign of the status byte. -/
def frRealign (f : LinkFrame) : Bool := (frHeader f).testBit 4

/-- The header's CRC-8 and version are right (R43, R44). -/
def headerOk (f : LinkFrame) : Bool :=
  crc8 (frameBits f 32 24) == frameNat f 56 8 && bitsOf (frHeader f) 22 2 == 1

/-- A frame in LOCKED is accepted (R59). -/
def frameAccepted (f : LinkFrame) : Bool := syncErrors f ≤ 3 && headerOk f

/-- The sync is exact (R57). -/
def syncExact (f : LinkFrame) : Bool := frameNat f 0 32 == syncWord

/-- The frame CRC-32 passes (R45). -/
def crc32Ok (f : LinkFrame) : Bool := crc32 (frameBits f 32 1936) == frameNat f 1968 32

/-- The scrambler over a bit string (R51): the register after each bit, the bits out. -/
def scramble : Nat → List Bool → List Bool
  | _, [] => []
  | r, d :: ds =>
    let k := r.testBit 14 != r.testBit 13
    (d != k) :: scramble (r * 2 % 32768 + (if k then 1 else 0)) ds

/-- The scrambler's load for an fcnt (R51). -/
def scrambleSeed (fcnt : Nat) : Nat := 0b1010011 * 256 + fcnt % 256

/-- The payload of a frame after descrambling: origin word, message header, message bytes (R51). -/
def frPayload (f : LinkFrame) : List Bool := scramble (scrambleSeed (frFcnt f)) (frameBits f 144 1824)

/-- The origin word's fields, or 63 for every channel when its CRC-8 fails (R52). -/
def frOrigins (f : LinkFrame) : List Nat :=
  let w := (frPayload f).take 32
  if crc8 (w.take 24) == bitsNat (w.drop 24) then
    (List.range 4).map fun c => bitsNat ((w.drop (6 * c)).take 6)
  else [63, 63, 63, 63]

/-- The message header (R54). -/
def frMsgHeader (f : LinkFrame) : Nat := bitsNat (((frPayload f).drop 32).take 32)
/-- busy of the message header. -/
def msgBusy (h : Nat) : Bool := h.testBit 31
/-- src of the message header. -/
def msgSrc (h : Nat) : Nat := bitsOf h 25 6
/-- dst of the message header. -/
def msgDst (h : Nat) : Nat := bitsOf h 19 6
/-- len of the message header. -/
def msgLen (h : Nat) : Nat := bitsOf h 11 8

/-- Message byte j of a frame (R54). -/
def frMsgByte (f : LinkFrame) (j : Nat) : Byte :=
  BitVec.ofNat 8 (bitsNat (((frPayload f).drop (64 + 8 * j)).take 8))

/-- The wire-state slots W[15:0] (R46). -/
def frSlots (f : LinkFrame) : Nat := frameNat f 64 16
/-- The slots' CRC-4 passes. -/
def slotsOk (f : LinkFrame) : Bool := crc4 (frameBits f 64 12) == frameNat f 76 4
/-- State of channel c in W. -/
def slotState (w c : Nat) : Bool := w.testBit (4 + 3 * c + 2)
/-- Sequence bits of channel c in W. -/
def slotSeq (w c : Nat) : Nat := bitsOf w (4 + 3 * c) 2

/-- The slots W of four states and four sequence numbers, with their CRC-4 (R46). -/
def mkSlots (states seqs : Nat) : Nat :=
  let hi := (List.range 4).foldl (fun n c =>
    n ||| ((if states.testBit c then 4 else 0) + bitsOf seqs (2 * c) 2) <<< (4 + 3 * c)) 0
  hi + crc4 ((msbBits 16 hi).take 12)

/-- A frame from its parts: header bits, slots, alarms, payload before scrambling, and whether the CRC-32 is sent inverted (R42, R56). -/
def mkFrame (header slots alarms : Nat) (payload : List Bool) (invert : Bool) : LinkFrame :=
  let hdr := msbBits 24 header
  let body := hdr ++ msbBits 8 (crc8 hdr) ++ msbBits 16 slots ++ msbBits 64 alarms
    ++ scramble (scrambleSeed (bitsOf header 8 8)) payload
  let c := crc32 body
  BitVec.ofNat 2000 (bitsNat (msbBits 32 syncWord ++ body ++ msbBits 32 (if invert then c ^^^ 0xFFFFFFFF else c)))

/-- The origin word of four origins, with its CRC-8 (R52). -/
def mkOrigins (o : List Nat) : List Bool :=
  let bits := o.flatMap (msbBits 6)
  bits ++ msbBits 8 (crc8 bits)

/-- An empty message area (R54). -/
def emptyArea : List Bool := List.replicate 1792 false

/-! Curve points (R148, R429): the domain parameters are those of the standards the spec names (log entry 89). -/

/-- The field prime, the coefficient b and the order of P-384. -/
def p384Prime : Nat := 2 ^ 384 - 2 ^ 128 - 2 ^ 96 + 2 ^ 32 - 1
def p384B : Nat := 0xB3312FA7E23EE7E4988E056BE3F82D19181D9C6EFE8141120314088F5013875AC656398D8A2ED19D2A85C8EDD3EC2AEF
def p384Order : Nat := 0xFFFFFFFFFFFFFFFFFFFFFFFFFFFFFFFFFFFFFFFFFFFFFFFFC7634D81F4372DDF581A0DB248B0A77AECEC196ACCC52973

/-- Affine coordinates name a point of y^2 = x^3 - 3x + b over a prime field; the identity has none, so it never passes. -/
def onCurve (p b x y : Nat) : Bool :=
  x < p && y < p && y * y % p == (x * x * x + (p - 3) * x + b) % p

/-- A scalar lies in 1 to n - 1. -/
def scalarOk (n k : Nat) : Bool := 1 ≤ k && k < n

/-! Shared checks of register writes. -/

/-- A write that needs a key in bits [31:16]. -/
def keyed (key : Nat) (w : Word) : Bool := wbits w 16 16 == key

/-- An effect under a condition on the state in which its event can occur; elsewhere the event does not occur (log entry 5). -/
def onlyIf (c : Bool) (g : State → State) (s : State) : State := if c then g s else s

end Sys2Proof.Machine
end

