-- ==== Sys2Proof/Machine/Inn.lean ====
section
/-! DEFINITION. The Innkeeper's shared operations (spec/07): leases, pages and their charging, and lodger scheduling. -/

namespace Sys2Proof.Machine

/-! Register windows. -/

/-- An address lies in a window of R496: 0x4000_0000 to 0x4017_FFFF, the tile windows, the message RAM, the port windows. -/
def tileWindow (a : Nat) : Bool := 0x40200000 ≤ a && a < 0x40230000
def ramWindow (a : Nat) : Bool := 0x40300000 ≤ a && a < 0x40360000
def portWindow (a : Nat) : Bool := 0x40400000 ≤ a && a < 0x40410000
/-- The tile of a tile window address, of a message RAM address, the port of a port window address. -/
def tileOfAddr (a : Nat) : Nat := (a - 0x40200000) / 0x1000
def ramTile (a : Nat) : Nat := (a - 0x40300000) / 0x2000
def portOfAddr (a : Nat) : Nat := (a - 0x40400000) / 0x1000

/-- The register address of a field key. -/
def keyAddr (k : Nat) : Nat := k / 32

/-! Leases (R198 to R205). -/

/-- A lease record. -/
def leaseOf (n : Nat) (s : State) : Lease := tabGet {} s.ink.leases n

/-- A lease record replaced. -/
def setLease (n : Nat) (l : Lease) (s : State) : State :=
  { s with ink := { s.ink with leases := tabPut {} s.ink.leases n l } }

/-- The owner tag of a whole world (R198). -/
def worldTag : World → Nat
  | .normal => 1
  | .secure => 2

/-- The requester is the owner a tag names: the tag itself, or its own world's tag for a core. -/
def ownerIs (rq : Requester) (tag : Nat) : Bool :=
  rqTag rq == tag || (match rq with
    | .core _ w => worldTag w == tag
    | _ => false)

/-- The lease is held and the requester owns it. -/
def holdsLease (n : Nat) (rq : Requester) (s : State) : Bool :=
  (leaseOf n s).state == .held && ownerIs rq (leaseOf n s).owner

/-- The record that leases a resource, if one is not free. -/
def leaseFor (kind res : Nat) (s : State) : Option Nat :=
  (s.ink.leases.find? fun e => e.2.state != .free && e.2.kind = kind && e.2.res = res).map (·.1)

/-- The requester holds the lease of a resource (R8). -/
def holdsRes (kind res : Nat) (rq : Requester) (s : State) : Bool :=
  match leaseFor kind res s with
  | some n => holdsLease n rq s
  | none => false

/-- An owner has leases being reclaimed: none of its requests is granted (R204). -/
def ownerFenced (tag : Nat) (s : State) : Bool :=
  s.ink.leases.any fun e => (e.2.state == .fenced || e.2.state == .reclaiming) && e.2.owner = tag

/-- The free record with the lowest number; the loader has records of its own above the 1024 (R198, spec/07 corner cases). -/
def freeLease (tag : Nat) (s : State) : Option Nat :=
  if tag = rqTag .loader then (List.range 8).find? (fun n => (leaseOf (1024 + n) s).state == .free) |>.map (1024 + ·)
  else (List.range 1024).find? fun n => (leaseOf n s).state == .free

/-- A grant: the record taken and the state with it held, or nothing when the owner is fenced or the table is full (R201, R204). -/
def grantLease (kind res tag : Nat) (dur : Option Nat) (s : State) : Option (Nat × State) :=
  if ownerFenced tag s then none
  else match freeLease tag s with
    | none => none
    | some n => some (n, setLease n { state := .held, kind := kind, res := res, owner := tag, dur := dur, left := dur } s)

/-- A request refused because the table is full counts (R201). -/
def countFull (tag : Nat) (s : State) : State :=
  if (freeLease tag s).isSome then s else incF INK_LSCOUNT_full 1 s

/-- INK_REVLOG takes a declaration: its owner, its code and the leases it reclaimed (R204). -/
def logDeclaration (owner decl count : Nat) (s : State) : State :=
  setF INK_REVLOG0_owner owner <| setF INK_REVLOG0_decl decl <| setF INK_REVLOG1_count count <| incF INK_REVLOG1_total 1 s

/-- The held leases a declaration reaches. -/
def reached (reach : Lease → Nat → Bool) (s : State) : List (Nat × Lease) :=
  s.ink.leases.filter fun e => e.2.state == .held && reach e.2 e.1

/-- A declaration (R202, R204): every held lease it reaches is fenced, and its reclaim is under way; one that reaches none is recorded at
once. -/
def declare (reach : Lease → Nat → Bool) (owner decl : Nat) (s : State) : State :=
  let ns := (reached reach s).map (·.1)
  if ns = [] then logDeclaration owner decl 0 s
  else
    let s1 := applyAll ns (fun n t => setLease n { leaseOf n t with state := .fenced } t) s
    { s1 with ink := { s1.ink with decls := s1.ink.decls ++ [{ owner := owner, decl := decl, leases := ns }] } }

/-- A world's leases: its own tag and those of its cores (R202). -/
def worldReach (w : World) (l : Lease) : Bool :=
  l.owner = worldTag w || l.owner % 8 = worldTag w + 2

/-- The owner a world's declaration is recorded with: the owner of the leases reached where they have one, else the world's tag (log entry
97). -/
def worldOwner (w : World) (s : State) : Nat :=
  match (reached (fun l _ => worldReach w l) s).map (·.2.owner) with
  | [] => worldTag w
  | o :: r => if r.all (· = o) then o else worldTag w

/-- A world reset declares the world failed; decl 1 for a watchdog, 2 otherwise (INK_REVLOG0). -/
def declareWorld (w : World) (decl : Nat) (s : State) : State :=
  declare (fun l _ => worldReach w l) (worldOwner w s) decl s

/-! Pages (R179 to R188). -/

/-- The quota set that charges a port's class: its index among the PART records. -/
def setIdx (port tc : Nat) (s : State) : Option Nat :=
  s.str.parts.findIdx? fun p => p.port = port && p.tcmask.testBit tc

/-- A quota set's PART record. -/
def setPart (i : Nat) (s : State) : PartRec := s.str.parts.getD i ⟨0, 0, 0, 0⟩

/-- u of a set (R179). -/
def setUsed (i : Nat) (s : State) : Nat := tabGet 0 s.ink.used i

/-- The start-up allowance of a set (R94). -/
def allowance (cap m : Nat) : Nat := if m ≥ 50 then cap else cap * (50 + 7 * m) / 400

/-- What a request of a set meets (R180): its guarantee, the pool, or NO_PAGE with the drop reason of R186. -/
inductive PageAnswer where
  | guaranteed | pool | noPage (reason : Nat)
deriving DecidableEq, Repr

/-- The answer to a lone request of a set (R180, R186). -/
def pageAnswer (i : Nat) (s : State) : PageAnswer :=
  let p := setPart i s
  let pool := setUsed i s - p.guar
  if setUsed i s < p.guar then .guaranteed
  else if pool ≥ p.cap then .noPage 2
  else if pool ≥ allowance p.cap (getF SYS_STARTUP_ramp s) then .noPage 3
  else if getF INK_POOLFREE_free s = 0 then .noPage 1
  else .pool

/-- A page's reference count; 0 is free. -/
def pageRefs (p : Nat) (s : State) : Nat := tabGet 0 s.ink.refs p

/-- The page a grant takes: which free page is not stated, so the free value chooses (log entry 8). -/
def pickPage (s : State) : Nat :=
  let r := Config.freeValue s.freeCount % 49152
  if pageRefs r s = 0 then r
  else ((List.range 49152).find? fun p => pageRefs p s = 0).getD 0

/-- The shared pool loses a page: the lowest free count, and events 11 and 12 (R185). -/
def poolTake (s : State) : State :=
  let n := getF INK_POOLFREE_free s - 1
  let s1 := setF INK_POOLFREE_free n (setB INK_ALLOCSTAT_empty (n = 0) s)
  let s2 := setF INK_POOLMIN_min (min (getF INK_POOLMIN_min s1) n) s1
  let s3 := if n = 0 then raise 12 s2 else s2
  if n < getF INK_POOLLOW_low s3 && !isSet INK_ALLOCSTAT_lowst s3 then
    raise 11 (setB INK_ALLOCSTAT_lowst true s3)
  else s3

/-- A page returns to the shared pool (R185). -/
def poolReturn (s : State) : State :=
  let n := getF INK_POOLFREE_free s + 1
  let s1 := setF INK_POOLFREE_free n (setB INK_ALLOCSTAT_empty false s)
  if n > getF INK_POOLLOW_high s1 then setB INK_ALLOCSTAT_lowst false s1 else s1

/-- A page granted to a set: charged (R179), one reference, its link ended (R187). -/
def takePage (i : Nat) (s : State) : Nat × State :=
  let p := pickPage s
  let u := setUsed i s
  let s1 := { s with
    freeCount := s.freeCount + 1
    ink := { s.ink with
      refs := tabPut 0 s.ink.refs p 1
      links := tabPut 0xFFFF s.ink.links p 0xFFFF
      setOf := tabPut 0 s.ink.setOf p i
      used := tabPut 0 s.ink.used i (u + 1) } }
  (p, if u < (setPart i s).guar then s1 else poolTake s1)

/-- A grant of the arbiter to a requester index (R181): the page, and the pointer of its kind past the winner. -/
def grantPage (idx i : Nat) (s : State) : Nat × State :=
  let t := takePage i s
  (t.1, setF (if pageAnswer i s == .guaranteed then INK_ALLOCSTAT_gptr else INK_ALLOCSTAT_pptr) ((idx + 1) % 21) t.2)

/-- Up to n pages for a requester index from a set, one arbiter grant each, until one is refused: the reason (0: none was), the pages and
the state. -/
def takePages (idx i : Nat) : Nat → State → (Nat × List Nat × State)
  | 0, s => (0, [], s)
  | n + 1, s =>
    match pageAnswer i s with
    | .noPage r => (r, [], s)
    | _ =>
      let t := grantPage idx i s
      let u := takePages idx i n t.2
      (u.1, t.1 :: u.2.1, u.2.2)

/-- What a request for n pages as one meets, without taking any (R180, R188): 0, or the reason of the first refusal. -/
def chainAnswer (i n : Nat) (s : State) : Nat :=
  let p := setPart i s
  let most := setUsed i s + n - p.guar
  let room := (setUsed i s - p.guar) + getF INK_POOLFREE_free s
  let allow := allowance p.cap (getF SYS_STARTUP_ramp s)
  if most = 0 || (most ≤ p.cap && most ≤ allow && most ≤ room) then 0
  else if p.cap ≤ allow && p.cap ≤ room then 2
  else if allow ≤ room then 3
  else 1

/-- A chain of pages linked in order (R187). -/
def linkPages : List Nat → State → State
  | [], s => s
  | [p], s => { s with ink := { s.ink with links := tabPut 0xFFFF s.ink.links p 0xFFFF } }
  | p :: q :: r, s => linkPages (q :: r) { s with ink := { s.ink with links := tabPut 0xFFFF s.ink.links p q } }

/-- The pages of a chain from its head, at most n. -/
def chainFrom (n head : Nat) (s : State) : List Nat :=
  match n with
  | 0 => []
  | n + 1 => if head ≥ 49152 then [] else head :: chainFrom n (tabGet 0xFFFF s.ink.links head) s

/-- One reference to a page falls; at 0 the page is freed and its set credited (R179, R187). -/
def freePage (p : Nat) (s : State) : State :=
  let r := pageRefs p s
  let i := tabGet 0 s.ink.setOf p
  let u := setUsed i s
  let s1 := { s with ink := { s.ink with refs := tabPut 0 s.ink.refs p (r - 1) } }
  if r = 1 then
    let s2 := { s1 with ink := { s1.ink with used := tabPut 0 s1.ink.used i (u - 1) } }
    if u > (setPart i s).guar then poolReturn s2 else s2
  else s1

/-- Every page of a list loses one reference. -/
def freePages (l : List Nat) (s : State) : State := applyAll l freePage s

/-- Every page of a list gains n references (R187). -/
def sharePages (l : List Nat) (n : Nat) (s : State) : State :=
  applyAll l (fun p t => { t with ink := { t.ink with refs := tabPut 0 t.ink.refs p (pageRefs p t + n) } }) s

/-- A dropped frame is counted for its ingress port with its reason (R186). -/
def countDrop (port reason : Nat) (s : State) : State := incF (INK_DROP_count port (reason - 1)) 1 s

/-! Lodgers (R191 to R197). -/

/-- A lodger's scheduling state. -/
def lodgerOf (lid : Nat) (s : State) : Lodger := tabGet {} s.ink.lodgers lid

/-- A lodger's scheduling state replaced. -/
def setLodger (lid : Nat) (l : Lodger) (s : State) : State :=
  { s with ink := { s.ink with lodgers := tabPut {} s.ink.lodgers lid l } }

/-- A lodger's LODGER record; of a removed one whose context still drains, the record of the old structure (R175). -/
def lodgerRec (lid : Nat) (s : State) : Option LodgerRec :=
  match s.str.lodgers.find? fun r => r.lid = lid with
  | some r => some r
  | none => s.old.bind fun o => o.str.lodgers.find? fun r => r.lid = lid

/-- A lodger's record differs between the old structure and the one in force. -/
def lodgerReplaced (lid : Nat) (s : State) : Bool :=
  match s.old with
  | none => false
  | some o => decide ((o.str.lodgers.find? fun r => r.lid = lid) ≠ s.str.lodgers.find? fun r => r.lid = lid)

/-- A register field of the old structure: of a register it replaced, or in the window of a tile of its banks; none of the system, clock and
power blocks. -/
def OldStructure.owns (o : OldStructure) (key : Nat) : Bool :=
  let a := keyAddr key
  0x40030000 ≤ a && (o.addrs.contains a || (tileWindow a && o.banks.testBit (tileOfAddr a / 8)))

/-- Of two lists of entries by key, those of the first for which a rule fails and those of the second for which it holds. -/
def replaceBy {α : Type} (mine : Nat → Bool) (l new : List (Nat × α)) : List (Nat × α) :=
  (new.filter fun e => mine e.1).foldl (fun r e => tabIns e.1 e.2 r) (l.filter fun e => !mine e.1)

/-- An effect on a Waybill under the structure of its generation (R174): the records, the registers, the tiles and the VLANs of the old
structure stand in while it runs, and with `ctx` its lodger contexts. -/
def underGen (ctx : Bool) (gen : Nat) (g : State → State) (s : State) : State :=
  match s.old with
  | none => g s
  | some o =>
    if o.gen ≠ gen then g s
    else
      let bank (n : Nat) : Bool := o.banks.testBit (n / 8)
      let t := g { s with
        str := o.str, regs := replaceBy o.owns s.regs o.regs, can := replaceBy bank s.can o.can
        swc := { s.swc with vlan := o.vlan }, trn := if ctx then o.trn else s.trn }
      { t with
        str := s.str, regs := replaceBy o.owns t.regs (s.regs.filter fun e => o.owns e.1)
        can := replaceBy bank t.can (s.can.filter fun e => bank e.1), swc := { t.swc with vlan := s.swc.vlan }
        trn := if ctx then s.trn else t.trn
        old := some { o with
          regs := t.regs.filter fun e => o.owns e.1, can := t.can.filter fun e => bank e.1
          trn := if ctx then t.trn else o.trn } }

/-- The period, budget and deadline of a lodger; 0 where it is absent. -/
def lodgerPeriod (lid : Nat) (s : State) : Nat := ((lodgerRec lid s).map (·.period)).getD 0
def lodgerBudget (lid : Nat) (s : State) : Nat := ((lodgerRec lid s).map (·.budget)).getD 0
def lodgerDeadline (lid : Nat) (s : State) : Nat := ((lodgerRec lid s).map (·.deadline)).getD 0

/-- The lodger is pinned (R137). -/
def lodgerPinned (lid : Nat) (s : State) : Bool := ((lodgerRec lid s).map fun r => r.flags.testBit 0).getD false

/-- The due time of an item released now (R191). -/
def dueTime (lid : Nat) (s : State) : Nat :=
  let l := lodgerOf lid s
  let p := lodgerPeriod lid s
  (if s.ticks = l.periodStart then l.periodStart else l.periodStart + p) + lodgerDeadline lid s

/-- CK_FAB cycles an engine has spent on a lodger's running item in the present period (R193): 250 in each µs. -/
def engineTime (l : Lodger) (s : State) : Nat := if l.running.isSome then (s.ticks - l.since) * 250 else 0

/-- The earliest due time among a lodger's queued items: its key (R191). -/
def lodgerKey (l : Lodger) : Nat := l.queue.foldl (fun k i => min k i.due) ((l.queue.head?.map (·.due)).getD 0)

/-- A lodger may be dispatched (R192). -/
def lodgerReady (l : Lodger) : Bool :=
  l.present && l.queue != [] && l.left > 0 && l.resident && l.running.isNone && !l.fenced

/-- The number of engines running, of 16 (R192). -/
def enginesBusy (s : State) : Nat := (s.ink.lodgers.filter fun e => e.2.running.isSome).length

/-- The resident, unpinned lodger dispatched least recently that is neither running nor being paged in (R195). -/
def victimOf (s : State) : Option Nat :=
  let c := s.ink.lodgers.filter fun e => e.2.present && e.2.resident && e.2.running.isNone && !e.2.faulting && !lodgerPinned e.1 s
  (c.foldl (fun b e => match b with
    | none => some e
    | some x => if e.2.lastDispatch < x.2.lastDispatch then some e else some x) none).map (·.1)

/-- Contexts on chip or on their way in, those of a lodger aside. -/
def contextsBut (lid : Nat) (s : State) : Nat :=
  (s.ink.lodgers.filter fun e => (e.2.resident || e.2.faulting) && e.1 ≠ lid).length

/-- A lodger's context leaves the chip. -/
def evict (lid : Nat) (s : State) : State := setLodger lid { lodgerOf lid s with resident := false } s

/-- A pinned lodger takes its place on chip without a fault (R195); where every place is another's that may not leave now, it waits (log
entry 96). -/
def pinIn (lid : Nat) (s : State) : State :=
  let place (t : State) : State := setLodger lid { lodgerOf lid t with resident := true } t
  if contextsBut lid s < 32 then place s
  else match victimOf s with
    | some v => place (evict v s)
    | none => s

/-- A page-in begins: the fault counts (R195, R196). -/
def pageIn (lid : Nat) (s : State) : State :=
  let l := lodgerOf lid s
  setLodger lid { l with faulting := true, waitingVictim := false, faults := min (l.faults + 1) 0xFFFF }
    { s with ink := { s.ink with faultsMs := s.ink.faultsMs + 1 } }

/-- A context fault (R195): a victim is evicted and the page-in starts, or the fault waits and thrash is set (R196). None starts while
DEGRADED cause 6 is set (R197), and a pinned lodger needs none. -/
def contextFault (lid : Nat) (s : State) : State :=
  let l := lodgerOf lid s
  if l.resident || l.faulting || l.fenced || (causes s).testBit 6 then s
  else if lodgerPinned lid s then pinIn lid s
  else if contextsBut lid s < 32 then pageIn lid s
  else match victimOf s with
    | some v => pageIn lid (evict v s)
    | none =>
      let s2 := setLodger lid { l with waitingVictim := true } s
      if isSet INK_PAGESTAT_thrash s2 then s2 else raise 14 (setB INK_PAGESTAT_thrash true s2)

/-- A lodger is fenced (R197): its items are discarded and counted for their ingress ports with reason 5. -/
def fenceLodger (lid : Nat) (s : State) : State :=
  let l := lodgerOf lid s
  let s1 := applyAll l.queue (fun i t => match i.work with
    | .frame b => countDrop b.src 5 (freePages b.pages t)
    | _ => t) s
  setLodger lid { l with queue := [], faulting := false, waitingVictim := false, fenced := true } s1

/-- An item queued for a lodger with its due time (R191); a fenced lodger's items are discarded and counted with reason 5 (R197);
a lodger that is not resident faults (R195). -/
def releaseItem (lid : Nat) (w : ItemWork) (s : State) : State :=
  let l := lodgerOf lid s
  if !l.present then s
  else if l.fenced then
    match w with
    | .frame b => countDrop b.src 5 (freePages b.pages s)
    | _ => s
  else
    let s1 := setLodger lid { l with queue := l.queue ++ [{ work := w, due := dueTime lid s, rel := nowMs s }] } s
    if l.resident then s1 else contextFault lid s1

end Sys2Proof.Machine
end

