-- ==== Sys2Proof/Machine/Worlds.lean ====
section
/-! DEFINITION. The two worlds: what each requester may reach in memory and in register space, and the world violation (R412 to
R414, R397, R357). -/

namespace Sys2Proof.Machine

/-- Secure RAM, 512 KiB; the spec gives no address (log entry 9). -/
abbrev secRamBase := 0x20000000
abbrev secRamSize := 0x80000

/-- The first byte address of LPDDR4; the spec gives none (log entry 9). -/
abbrev ddrBase := 0x90000000

/-- A byte of secure RAM. -/
def inSecRam (a : Nat) : Bool := secRamBase ≤ a && a < secRamBase + secRamSize

/-- A byte of LPDDR4. -/
def inDdr (a : Nat) (s : State) : Bool := s.power.ddrFitted && ddrBase ≤ a && a < 2 ^ 32

/-- MiB of LPDDR4 an address lies in. -/
def ddrMib (a : Nat) : Nat := (a - ddrBase) / 0x100000

/-- The world attribute of LPDDR4 at an address: the lowest region that covers it, else secure only (R413). -/
def regionAttr (a : Nat) (s : State) : Nat :=
  let m := ddrMib a
  match (List.range 8).find? fun k =>
      getF (WLD_REGION_base k) s ≤ m && m < getF (WLD_REGION_base k) s + getF (WLD_RSIZE_size k) s with
  | some k => getF (WLD_RSIZE_attr k) s
  | none => 1

/-- The lodger context area: the lowest (lodgers - 32) × 64 KiB of LPDDR4 (R413). -/
def inContexts (a : Nat) (s : State) : Bool :=
  ddrBase ≤ a && a < ddrBase + (s.str.lodgers.length - 32) * 0x10000

/-- A world may read or write a byte of memory (R412). -/
def memAllowed (w : World) (write : Bool) (a : Nat) (s : State) : Bool :=
  if inSecRam a then w == .secure
  else if inDdr a s then
    if inContexts a s then false
    else
      let t := regionAttr a s
      if w == .secure then t != 0 else t == 2 || (t == 3 && !write)
  else false

/-- n bytes from an address are all allowed. -/
def memRange (w : World) (write : Bool) (a n : Nat) (s : State) : Bool :=
  (List.range n).all fun i => memAllowed w write (a + i) s

/-- What WLD_VIOL1.src calls a requester. -/
def violSrc : Requester → Nat
  | .core _ _ => 0
  | .debug _ => 1
  | .pcie => 5
  | .qspi => 5
  | _ => 0

/-- A world violation recorded and event 44 raised at most once per millisecond (R414). -/
def violation (addr : Nat) (w : World) (write : Bool) (src core : Nat) (s : State) : State :=
  raiseOnce 44 0 <| incF WLD_VIOLCNT_cnt 1 <| setF WLD_VIOL0_addr addr <|
    setB WLD_VIOL1_world (w == .secure) <| setB WLD_VIOL1_write write <|
    setF WLD_VIOL1_src src <| setF WLD_VIOL1_core core s

/-- A refused access of a requester: a bus error, recorded (R414). -/
def violate (rq : Requester) (addr : Nat) (write : Bool) (s : State) : State :=
  busError (violation addr (rqWorld rq) write (violSrc rq) ((rqCore rq).getD 0) s)

/-- A write only the secure world may make, by R412's table or a chapter it names: from the normal world a world violation. -/
def secureOnly (rq : Requester) (a : Nat) (g : State → State) (s : State) : State :=
  if rqSecure rq then g s else violate rq a true s

/-! What each requester reaches in register space. -/

/-- The lifecycle state code from the transition fuses (R392). -/
def lifecycle (s : State) : Nat :=
  let f := s.fuse
  if f.s then 5 else if f.g && f.j then 4 else if f.g then 3 else if f.b then 2 else if f.q then 1 else 0

/-- GARNET's code (R392). -/
abbrev lcGarnet := 3

/-- An address from lo, below hi. -/
def between (a lo hi : Nat) : Bool := lo ≤ a && a < hi

/-- The 64 KiB block of R496 an address lies in, counted from 0x4000_0000. -/
def blockOf (a : Nat) : Nat := (a - 0x40000000) / 0x10000

/-- Registers of one world's own (R229, spec/17): rings 16 to 31 of SWC, the secure ring of CKV and the secure DIG; their normal
counterparts. -/
def ownWorld (a : Nat) : Option World :=
  if between a 0x40070800 0x40070A00 then some .normal
  else if between a 0x40070A00 0x40070C00 then some .secure
  else if between a 0x400E0100 0x400E0180 then some .secure
  else if between a 0x400E0180 0x400E0200 then some .normal
  else if between a 0x400F8000 0x400F8080 then some .secure
  else if between a 0x400F8080 0x400F8100 then some .normal
  else none

/-- Registers the normal world may not read, and those it may not write (R412 and the chapters it names, R496): KST but for its five
status registers and the load registers of its own, SYS_WDS_; CKV up to CKV_SWCNT, WLD and AON_RTCSET are closed
to writes. -/
def secureRead (a : Nat) : Bool :=
  (between a 0x400D0000 0x400E0000 &&
    !(a = 0x400D0000 || a = 0x400D0004 || a = 0x400D0008 || a = 0x400D0020 || a = 0x400D0070 || between a 0x400D0880 0x400D088C))
  || a = 0x40000030 || a = 0x40000034
def secureWrite (a : Nat) : Bool :=
  secureRead a || between a 0x400D0000 0x400D0880 || between a 0x400E0000 0x400E0014 || between a 0x40100000 0x40110000 ||
    a = 0x4015000C || a = 0x400F8108

/-- A CAN authentication register of a tile that runs CAN. -/
def canAuthReg (a : Nat) (s : State) : Bool :=
  between a 0x40200000 0x40230000 && isCan ((a - 0x40200000) / 0x1000) s &&
    (between (a % 0x1000) 0x90 0x9C || between (a % 0x1000) 0x400 0x600)

/-- The access is a world violation by R412: not among the accesses its table, or the chapter it names, gives the world. -/
def worldDenied (w : World) (write : Bool) (a : Nat) (s : State) : Bool :=
  (match ownWorld a with
    | some o => o != w
    | none => false) || (w == .normal && ((if write then secureWrite a else secureRead a) || canAuthReg a s))

/-- A host, or a remote part that acts as one (R357, R363). -/
def isHost : Requester → Bool
  | .pcie => true
  | .qspi => true
  | .remote _ _ => true
  | _ => false

/-- What a host may not reach on top of that: KST, WLD, CKV and PKE, INK_PGREQ and INK_PGFREE, IMG_DLTCTL and IMG_DLTGO; outside
the modes with an image in force anything but reads of SYS, PWR, IMG, LNK and EVC (R357, R36). -/
def hostDenied (write : Bool) (a : Nat) (s : State) : Bool :=
  [0xD, 0xE, 0xF, 0x10].contains (blockOf a) ||
    [0x40040040, 0x40040048, 0x40050080, 0x40050090].contains a ||
    (!serving s && (write || !([0, 2, 3, 5, 0xB].contains (blockOf a))))

/-- The debug TAP reaches a world (R397). -/
def debugReach (w : World) (s : State) : Bool :=
  match lifecycle s with
  | 1 => w == .normal
  | 2 => true
  | 4 => true
  | 5 => true
  | _ => false

/-- The image-key registers the debug TAP also reaches in QUARTZ: KST_IKHASH and KST_IKCMD op 1 (R397). -/
def debugKey (a : Nat) (w : Word) (s : State) : Bool :=
  lifecycle s = 1 && (between a 0x400D0040 0x400D0070 || (a = 0x400D0024 && wbits w 2 2 = 1))

/-- A debug requester. -/
def isDebug : Requester → Bool
  | .debug _ => true
  | _ => false

/-- An access under the rights of its requester: a debug access its state does not permit (R397) and a world violation (R414) are
recorded, a refused host access is a bus error. -/
def gate (rq : Requester) (write : Bool) (a : Nat) (w : Word) (g : State → State) (s : State) : State :=
  if isDebug rq && write && debugKey a w s then g s
  else if isDebug rq && !debugReach (rqWorld rq) s then violate rq a write s
  else if worldDenied (rqRights rq) write a s then violate rq a write s
  else if isHost rq && hostDenied write a s then busError s
  else g s

end Sys2Proof.Machine
end

