-- ==== Sys2Proof/Machine/Aon.lean ====
section
/-! DEFINITION. The always-on domain: the RTC, the alarms, PWR_REQ and the event log (R112 to R121), and the commands on them. -/

namespace Sys2Proof.Machine

/-- A log entry: cause, detail and whether it asserted or restarted PWR_REQ (R120). -/
def aonLog (cause detail : Nat) (preq : Bool) (s : State) : State :=
  let i := getF AON_LOGSTAT_wr s
  let w1 := s.aon.frac + cause * 2 ^ 16 + detail * 2 ^ 20
    + (if s.aon.onVbat then 2 ^ 24 else 0) + (if preq then 2 ^ 25 else 0)
  let s1 := setF (AON_LOG_entry (2 * i)) s.aon.sec (setF (AON_LOG_entry (2 * i + 1)) w1 s)
  let s2 := setF AON_LOGSTAT_wr (i + 1) s1
  if getF AON_LOGSTAT_unread s = 32 then incF AON_LOGSTAT_lost 1 s2
  else incF AON_LOGSTAT_unread 1 s2

/-- PWR_REQ is released with a log entry of cause 7, if it was asserted (R118). -/
def preqRelease (detail : Nat) (s : State) : State :=
  if isSet AON_PREQ_asserted s then aonLog 7 detail false (setB AON_PREQ_asserted false s) else s

/-- An alarm fires (R117): in BACKUP it is logged, asserts PWR_REQ unless inhibited and joins the pending wake cause; elsewhere it
is logged and raises event 6. `bit` is its place among the alarm bits of AON_WAKECAUSE, counted from rtc. -/
def aonAlarm (cause detail bit : Nat) (s : State) : State :=
  if mode s = mBackup then
    let inh := isSet AON_VBAT_inhibit s
    let s1 := aonLog cause detail (!inh) s
    let s2 := { s1 with aon := { s1.aon with
      alarms := s1.aon.alarms ||| 2 ^ bit
      first := if s1.aon.first = 0 then cause else s1.aon.first } }
    if inh then s2
    else setB AON_PREQ_asserted true { s2 with aon := { s2.aon with holding := true } }
  else raise 6 (aonLog cause detail false s)

/-- A write of 1 to AON_PREQ.rel, or the VBAT inhibit acting as one: sw cleared, hold count stopped, PWR_REQ released (R118). -/
def preqStop (detail : Nat) (s : State) : State :=
  let s1 := setB AON_PREQ_sw false s
  preqRelease detail { s1 with aon := { s1.aon with holding := false } }

/-- AON_PREQ.sw written: a 1 is ignored while the inhibit is set; a 0 releases PWR_REQ when the hold count does not run (R118). -/
def preqSw (v : Bool) (s : State) : State :=
  if v then
    if isSet AON_VBAT_inhibit s then s
    else setB AON_PREQ_asserted true (setB AON_PREQ_sw true s)
  else
    let s1 := setB AON_PREQ_sw false s
    if s1.aon.holding then s1 else preqRelease 1 s1

/-- The ledger clock advances by the RTC difference; a negative one adds nothing (R468). -/
def ledgerAdvance (s : State) : State :=
  { s with wear := { s.wear with clock := s.wear.clock + (s.aon.sec - s.wear.base), base := s.aon.sec } }

/-- What a write does when it reaches the domain (R112): address, value, secure world. -/
def aonApply (a v : Nat) (sec : Bool) (s : State) : State :=
  if a = AON_RTCSET_sec.addr then
    let s1 := ledgerAdvance s
    { s1 with aon := { s1.aon with sec := v, frac := 0, phase := 0 }, wear := { s1.wear with base := v } }
  else if a = AON_RTCALM_sec.addr then setF AON_RTCALM_sec v s
  else if a = AON_ALMCTL_rtc.addr then
    let s1 := setF AON_ALMCTL_rtc (bitsOf v 0 1) (setF AON_ALMCTL_wake0 (bitsOf v 1 1) (setF AON_ALMCTL_wake1 (bitsOf v 2 1)
      (setF AON_ALMCTL_wpol0 (bitsOf v 3 1) (setF AON_ALMCTL_wpol1 (bitsOf v 4 1) (setF AON_ALMCTL_vbat (bitsOf v 6 1) s)))))
    if sec then setF AON_ALMCTL_tamper (bitsOf v 5 1) s1 else s1
  else if a = AON_TAMPER_latch.addr then clrF AON_TAMPER_latch (bitsOf v 0 1) s
  else if a = AON_VBAT_low.addr then setF AON_VBAT_low (bitsOf v 16 5) s
  else if a = AON_PREQ_hold.addr then
    let s1 := setF AON_PREQ_hold (bitsOf v 0 10) s
    if v.testBit 17 then preqStop 1 s1 else preqSw (v.testBit 16) s1
  else if a = AON_WAKECAUSE_backup.addr then
    clrF AON_WAKECAUSE_backup (bitsOf v 0 1) (clrF AON_WAKECAUSE_vbatrun (bitsOf v 1 1) (clrF AON_WAKECAUSE_rtc (bitsOf v 2 1)
      (clrF AON_WAKECAUSE_wake0 (bitsOf v 3 1) (clrF AON_WAKECAUSE_wake1 (bitsOf v 4 1) (clrF AON_WAKECAUSE_tamper (bitsOf v 5 1)
        (clrF AON_WAKECAUSE_vbatlow (bitsOf v 6 1) s))))))
  else if a = AON_LOGACK_ack.addr then
    if v.testBit 0 then setF AON_LOGSTAT_unread 0 s else s
  else if a = AON_STATUS_aonpor.addr then clrF AON_STATUS_aonpor (bitsOf v 0 1) s
  else s

/-- A main-domain write to an AON register: in transit, or stalled behind one that is (R112). -/
def aonWrite (a v : Nat) (sec : Bool) (s : State) : State :=
  let s1 := setB AON_STATUS_busy true { s with aon := { s.aon with writes := s.aon.writes ++ [(a, v, sec)] } }
  if s.aon.writes = [] then busDone s1 else busStall s1

/-- R112: the write in transit reaches the domain; the next stalled one starts its transit. -/
def aonTransit (s : State) : State :=
  match s.aon.writes with
  | [] => s
  | (a, v, sec) :: r =>
    aonApply a v sec (setB AON_STATUS_busy (r != []) { s with aon := { s.aon with writes := r } })

/-- AON_WRITE_TRANSIT (R112). -/
def execAonWriteTransit (s : State) : Out := .next (aonTransit s)

/-- A wake source, an RTC alarm (why 2) or a DEGRADED cause (why 4) meets STANDBY: before the root PLL stops it aborts the entry
with that reason and releases the cores (R108, R109); in STANDBY it starts the exit (R110). -/
def standbyTrigger (why : Nat) (s : State) : State :=
  match s.power.standby with
  | .waitCores =>
    setB PWR_STATUS_refused true (setF PWR_STATUS_why why
      { s with power := { s.power with standby := .none, cores := .running } })
  | .inStandby => { s with power := { s.power with standby := .exiting } }
  | _ => s

/-- RTC_SECOND (R113): counting reaches the next second; an armed alarm fires when it is AON_RTCALM, and meets STANDBY (R108). -/
def execRtcSecond (s : State) : Out :=
  .next <|
    let s1 := { s with aon := { s.aon with sec := (s.aon.sec + 1) % 2 ^ 32, frac := 0, phase := 0 } }
    if isSet AON_ALMCTL_rtc s1 && s1.aon.sec = getF AON_RTCALM_sec s1 then
      standbyTrigger 2 (aonAlarm 1 0 0 (setB AON_ALMCTL_rtc false s1))
    else s1

/-- AON_RTCSET (R113): from the secure world, on its way to the domain; from the normal world a bus error. -/
def cmdAonRtcset (rq : Requester) (w : Word) (s : State) : State := secureOnly rq AON_RTCSET_sec.addr (aonWrite AON_RTCSET_sec.addr w.toNat true) s

/-- The same under the rights of its requester. -/
def execAonRtcset (rq : Requester) (w : Word) (s : State) : Out :=
  .next (gate rq true 0x4015000C 0 (cmdAonRtcset rq w) s)

/-- WAKE_PIN_FIRE (R114, R349): an enabled pin that has not fired since its last re-arm; one that WKS_SRC names owes its wake, which
WAKE_WIRE_OR_PIN takes. -/
def execWakePinFire (n : Nat) (s : State) : Out :=
  .next <|
    let en := if n = 0 then isSet AON_ALMCTL_wake0 s else if n = 1 then isSet AON_ALMCTL_wake1 s else false
    onlyIf (en && !s.aon.fired.testBit n) (fun s =>
      aonAlarm 2 n (1 + n)
        { s with aon := { s.aon with fired := s.aon.fired ||| 2 ^ n }
                 wks := if serving s && (getF WKS_SRC_pin s).testBit n then { s.wks with pinDue := s.wks.pinDue ||| 2 ^ n } else s.wks }) s

/-- WAKE_PIN_REARM (R114): the pin has held its deasserted level for 10 ms. -/
def execWakePinRearm (n : Nat) (s : State) : Out :=
  .next <| onlyIf (n < 2) (fun s => { s with aon := { s.aon with fired := natAndNot s.aon.fired (2 ^ n) } }) s

/-- TAMPER_FIRE (R115): TAMPER_N has been low for 33 CK_AON cycles; where enabled, the latch is set and a TAMPER alarm fires. -/
def execTamperFire (s : State) : Out :=
  .next <| onlyIf (isSet AON_ALMCTL_tamper s && !s.aon.fired.testBit 2) (fun s =>
    aonAlarm 3 0 3 (setB AON_TAMPER_latch true { s with aon := { s.aon with fired := s.aon.fired ||| 4 } }))
      (setB AON_TAMPER_pin false s)

/-- TAMPER_REARM (R115). -/
def execTamperRearm (s : State) : Out :=
  .next (setB AON_TAMPER_pin true { s with aon := { s.aon with fired := natAndNot s.aon.fired 4 } })

/-- A write of AON_TAMPER (R115): from the secure world, in GARNET only in WORKSHOP; elsewhere a bus error. Its latch bit says what the
write does in the domain: 1 clears, 0 has no effect. -/
def tamperWrite (rq : Requester) (v : Nat) (s : State) : State :=
  secureOnly rq AON_TAMPER_latch.addr (fun s =>
    if lifecycle s ≠ lcGarnet || mode s = mWorkshop then aonWrite AON_TAMPER_latch.addr v true s else busError s) s

/-- TAMPER_LATCH_CLEAR (R115): a write of 1. -/
def cmdTamperLatchClear (rq : Requester) (s : State) : State := tamperWrite rq 1 s

/-- The same under the rights of its requester. -/
def execTamperLatchClear (rq : Requester) (s : State) : Out :=
  .next (gate rq true 0x40150018 0 (cmdTamperLatchClear rq) s)

/-- The inhibit after a measurement (R116): set with the release it causes (R118), or cleared. -/
def vbatInhibit (mv10 : Nat) (s : State) : State :=
  if mv10 < 210 then
    if isSet AON_VBAT_inhibit s then s else preqStop 2 (setB AON_VBAT_inhibit true s)
  else if mv10 ≥ 220 then setB AON_VBAT_inhibit false s
  else s

/-- VBAT_MEASURE (R116): the measured value is shown; the inhibit follows it, before the low alarm is judged and re-armed (log entry 75). -/
def execVbatMeasure (mv10 : Nat) (s : State) : Out :=
  .next <|
    let s1 := vbatInhibit mv10 (setF AON_VBAT_mv10 mv10 s)
    let low := getF AON_VBAT_low s * 10
    if isSet AON_ALMCTL_vbat s1 && mv10 < low && !s1.aon.vbatFired then
      aonAlarm 4 0 4 { s1 with aon := { s1.aon with vbatFired := true } }
    else if mv10 ≥ low + 10 then { s1 with aon := { s1.aon with vbatFired := false } }
    else s1

/-- PWR_REQ_HOLD_EXPIRY (R118): the hold count ends; PWR_REQ is released unless sw holds it. -/
def execPwrReqHoldExpiry (s : State) : Out :=
  .next <| onlyIf s.aon.holding (fun s =>
    let s1 := { s with aon := { s.aon with holding := false } }
    if isSet AON_PREQ_sw s1 then s1 else preqRelease 0 s1) s

/-- The AON_PREQ word that keeps its hold field. -/
def preqWord (sw rel : Bool) (s : State) : Nat :=
  getF AON_PREQ_hold s + (if sw then 2 ^ 16 else 0) + (if rel then 2 ^ 17 else 0)

/-- PWR_REQ_RELEASE (R118): a write of 1 to AON_PREQ.rel, on its way to the domain. -/
def cmdPwrReqRelease (_rq : Requester) (s : State) : State := aonWrite AON_PREQ_hold.addr (preqWord false true s) false s

/-- The same under the rights of its requester. -/
def execPwrReqRelease (rq : Requester) (s : State) : Out :=
  .next (gate rq true 0x40150020 0 (cmdPwrReqRelease rq) s)

/-- PWR_REQ_SW_WRITE (R118): AON_PREQ written; a hold time outside 1 to 600 s is a reserved value (R9). -/
def cmdPwrReqSwWrite (_rq : Requester) (w : Word) (s : State) : State := if 1 ≤ wbits w 0 10 && wbits w 0 10 ≤ 600 then aonWrite AON_PREQ_hold.addr w.toNat false s else busError s

/-- The same under the rights of its requester. -/
def execPwrReqSwWrite (rq : Requester) (w : Word) (s : State) : Out :=
  .next (gate rq true 0x40150020 0 (cmdPwrReqSwWrite rq w) s)

/-- AON_LOGACK (R120): a write of 1, on its way to the domain, sets unread to 0 there. -/
def cmdAonLogack (_rq : Requester) (s : State) : State := aonWrite AON_LOGACK_ack.addr 1 false s

/-- The same under the rights of its requester. -/
def execAonLogack (rq : Requester) (s : State) : Out :=
  .next (gate rq true 0x4015002C 0 (cmdAonLogack rq) s)

/-- AON_DOMAIN_POWER_UP (R112): from no supply at all; registers, log and RTC are reset and aonpor reads 1; OFF becomes BACKUP
while power-on reset is asserted (R99). -/
def execAonDomainPowerUp (fromVbat : Bool) (s : State) : Out :=
  .next <| onlyIf (mode s = mOff) (fun s =>
    let s1 := { s with
      aon := { onVbat := fromVbat }
      regs := s.regs.filter fun e => !(AON_STATUS_aonpor.addr * 32 ≤ e.1 && e.1 < (AON_STATUS_aonpor.addr + 0x10000) * 32) }
    setMode mBackup s1) s

end Sys2Proof.Machine
end

