-- ==== Sys2Proof/Machine/Tables.lean ====
section
/-! DEFINITION. Table memory, hashes, entries, insertion, learning, ageing, the rehash and the Porter (spec/09). -/

namespace Sys2Proof.Machine

/-! Table memory (R135, R235, R236). -/

/-- A byte of table memory. -/
def trd8 (s : State) (a : Nat) : Byte := tabGet memDefault s.fwt.tmem a

/-- Bytes of table memory. -/
def trd (s : State) (a n : Nat) : List Byte := (List.range n).map fun i => trd8 s (a + i)

/-- Bytes stored in table memory. -/
def twr : Nat → List Byte → State → State
  | _, [], s => s
  | a, b :: r, s => twr (a + 1) r { s with fwt := { s.fwt with tmem := tabPut memDefault s.fwt.tmem a b } }

/-- Entry bytes of a table type (R136). -/
def entSize (t : Nat) : Nat := if t = 2 || t = 5 then 16 else 32

/-- Entries of a table type in use; 0 absent. -/
def tabEntries (t : Nat) (s : State) : Nat := getF (FWT_TENT_entries (t - 1)) s

/-- The table has a shadow bank. -/
def tabShadow (t : Nat) (s : State) : Bool := isSet (FWT_TENT_shadow (t - 1)) s

/-- Hardware learns into the table. -/
def tabLearn (t : Nat) (s : State) : Bool := isSet (FWT_TENT_learn (t - 1)) s

/-- Indexes of a table, the shadow bank's included (R235). -/
def tabIndexes (t : Nat) (s : State) : Nat :=
  let e := tabEntries t s
  if t = 1 && tabShadow 1 s then e + e / 4 else e

/-- Where entry i of a table lies in table memory. -/
def entAddr (t i : Nat) (s : State) : Nat := getF (FWT_TBASE_base (t - 1)) s + i * entSize t

/-- An entry's bytes. -/
def entRd (t i : Nat) (s : State) : List Byte := trd s (entAddr t i s) (entSize t)

/-- An entry's bytes written. -/
def entWr (t i : Nat) (b : List Byte) (s : State) : State := twr (entAddr t i s) (slice b 0 (entSize t)) s

/-! Keys and hashes (R237, R238). -/

/-- The hash of a key under a seed. -/
def keyHash (seed : Nat) (key : List Byte) : Nat := crcBits 32 0x04C11DB7 seed (byteBits key)

/-- Buckets of one logical bank. -/
def bankBuckets (t : Nat) (s : State) : Nat := tabEntries t s / 16

/-- The candidate bucket of a key in a bank of nb buckets. -/
def bucketOf (seed nb : Nat) (key : List Byte) : Nat := keyHash seed key * nb / 2 ^ 32

/-- The seed of a logical bank. -/
def bankSeed (t b : Nat) (s : State) : Nat :=
  if t = 1 then getF (FWT_L2SEED_seed b) s else getF (FWT_CRSEED_seed b) s

/-- The physical bank of a logical bank. -/
def physBank (t b : Nat) (s : State) : Nat :=
  if t = 1 then
    getF (if b = 0 then FWT_BANKMAP_b0 else if b = 1 then FWT_BANKMAP_b1 else if b = 2 then FWT_BANKMAP_b2 else FWT_BANKMAP_b3) s
  else b

/-- The four indexes of a key's bucket in a logical bank. -/
def bankCands (t b : Nat) (key : List Byte) (s : State) : List Nat :=
  let nb := bankBuckets t s
  let k := bucketOf (bankSeed t b s) nb key
  (List.range 4).map fun i => (physBank t b s * nb + k) * 4 + i

/-- The sixteen candidate places of a key, in insertion order (R249). -/
def cands (t : Nat) (key : List Byte) (s : State) : List Nat :=
  if tabEntries t s = 0 then [] else (List.range 4).flatMap fun b => bankCands t b key s

/-- The key of an L2/stream lookup. -/
def l2Key (mac : List Byte) (vid : Nat) : List Byte := slice mac 0 6 ++ beBytes 2 (vid % 4096)

/-- The key of a CAN route lookup: source tile, ide, identifier. -/
def canKey (tile : Nat) (ide : Bool) (id : Nat) : List Byte :=
  [BitVec.ofNat 8 tile, if ide then 1 else 0] ++ beBytes 4 (id % 2 ^ 29) ++ [0, 0]

/-! Entries (R241, R242). -/

/-- The valid bit of an entry. -/
def entValid (t : Nat) (e : List Byte) : Bool :=
  if t = 1 then (leAt e 6 2).testBit 12 else if t = 2 then (leAt e 4 4).testBit 6
  else if t = 3 then (leAt e 8 1).testBit 7 else true

/-- The key an entry holds. -/
def entKey (t : Nat) (e : List Byte) : List Byte :=
  if t = 1 then l2Key e (leAt e 6 2)
  else canKey (bitsOf (leAt e 4 4) 0 6) ((leAt e 0 4).testBit 29) (leAt e 0 4)

/-- An L2/stream entry. -/
structure L2 where
  mac : List Byte
  vid : Nat
  valid : Bool := true
  stat : Bool := false
  remote : Bool := false
  dest : Nat
  strm : Nat := 0
  exc : Nat := 0
  sport : Nat
  pos : Nat
  ts : Nat
  epoch : Nat := 0
  rxt : Nat := 0
deriving DecidableEq, Repr

/-- The fields of an entry's bytes; `strm` holds word 3 up to bit 14. -/
def l2Of (e : List Byte) : L2 :=
  let f := leAt e 6 2
  let w3 := leAt e 12 4
  { mac := slice e 0 6, vid := bitsOf f 0 12, valid := f.testBit 12, stat := f.testBit 13, remote := f.testBit 14
    dest := leAt e 8 4, strm := bitsOf w3 0 15, exc := bitsOf w3 15 2, sport := bitsOf w3 17 5, pos := bitsOf w3 22 6
    ts := leAt e 16 4, epoch := leAt e 20 4, rxt := leAt e 24 4 }

/-- The bytes of an entry. -/
def l2Bytes (e : L2) : List Byte :=
  slice e.mac 0 6 ++
  leBytes 2 (e.vid % 4096 + (if e.valid then 4096 else 0) + (if e.stat then 8192 else 0) + (if e.remote then 16384 else 0)) ++
  leBytes 4 e.dest ++
  leBytes 4 (e.strm % 2 ^ 15 + (e.exc % 4) * 2 ^ 15 + (e.sport % 32) * 2 ^ 17 + (e.pos % 64) * 2 ^ 22) ++
  leBytes 4 e.ts ++ leBytes 4 e.epoch ++ leBytes 4 e.rxt ++ leBytes 4 0

/-- The stream handle and recovery flag of an entry. -/
def L2.sh (e : L2) : Nat := bitsOf e.strm 0 10
def L2.rcv (e : L2) : Bool := e.strm.testBit 10
/-- The class override of an entry, where it has one. -/
def L2.tcOver (e : L2) : Option Nat := if e.strm.testBit 14 then some (bitsOf e.strm 11 3) else none

/-! Lookup (R239, R240). -/

/-- The index of the valid entry with a key. -/
def findKey (t : Nat) (key : List Byte) (s : State) : Option Nat :=
  (cands t key s).find? fun i => let e := entRd t i s; entValid t e && entKey t e == key

/-- The L2/stream entry of a MAC and VID. -/
def l2Lookup (mac : List Byte) (vid : Nat) (s : State) : Option L2 :=
  (findKey 1 (l2Key mac vid) s).map fun i => l2Of (entRd 1 i s)

/-- The destination and action words of a tile frame's route: the hashed table, then the masked rule with the lowest index. -/
def canLookup (tile : Nat) (ide : Bool) (id : Nat) (s : State) : Option (Nat × Nat) :=
  match findKey 2 (canKey tile ide id) s with
  | some i => let e := entRd 2 i s; some (leAt e 8 4, leAt e 12 4)
  | none =>
    ((List.range (tabEntries 3 s)).find? fun i =>
      let e := entRd 3 i s
      let v := leAt e 0 4
      let m := leAt e 4 4
      let b := leAt e 8 1
      entValid 3 e && (b.testBit 6 || bitsOf b 0 6 = tile) &&
        (((id % 2 ^ 29 + if ide then 2 ^ 29 else 0) ^^^ bitsOf v 0 30) &&& bitsOf m 0 30) = 0).map
      fun i => let e := entRd 3 i s; (leAt e 16 4, leAt e 20 4)

/-! Changes to the L2/stream table, with the shadow (R250). -/

/-- A physical bank is one of the four mapped ones. -/
def bankMapped (p : Nat) (s : State) : Bool := (List.range 4).any fun b => physBank 1 b s = p

/-- The shadow indexes of a key's bucket under the next seed. -/
def shadowCands (key : List Byte) (s : State) : List Nat :=
  let nb := bankBuckets 1 s
  let k := bucketOf (getF FWT_SHSEED_seed s) nb key
  (List.range 4).map fun i => (getF FWT_BANKMAP_sh s * nb + k) * 4 + i

/-- An entry placed in the shadow: over its own key, else in the first empty slot, else counted and the migrate failed. The flag says
that a new slot was taken. -/
def shadowPlace (e : List Byte) (s : State) : Bool × State :=
  let c := shadowCands (entKey 1 e) s
  match c.find? fun i => entValid 1 (entRd 1 i s) && entKey 1 (entRd 1 i s) == entKey 1 e with
  | some i => (false, entWr 1 i e s)
  | none =>
    match c.find? fun i => !entValid 1 (entRd 1 i s) with
    | some i => (true, entWr 1 i e s)
    | none => (false, setF FWT_RHSTAT_state 3 (incF FWT_RHFAIL_fail 1 s))

/-- An entry placed in the shadow; one that takes a new slot counts in FWT_RHSTAT.moved. -/
def shadowMade (e : List Byte) (s : State) : State :=
  let u := shadowPlace e s
  if u.1 then incF FWT_RHSTAT_moved 1 u.2 else u.2

/-- A key removed from the shadow. -/
def shadowDrop (key : List Byte) (s : State) : State :=
  match (shadowCands key s).find? fun i => entValid 1 (entRd 1 i s) && entKey 1 (entRd 1 i s) == key with
  | some i => entWr 1 i [] s
  | none => s

/-- A change of one entry of the L2/stream table: the count of valid entries follows (FWT_COUNT), and a change to the bank being
migrated is also made in the shadow (R250). -/
def l2Put (i : Nat) (e : List Byte) (s : State) : State :=
  let o := entRd 1 i s
  let p := i / (4 * bankBuckets 1 s)
  let s1 := entWr 1 i e s
  if bankMapped p s then
    let n := getF FWT_COUNT_valid s + (if entValid 1 e then 1 else 0) - (if entValid 1 o then 1 else 0)
    let s2 := setF FWT_COUNT_valid n s1
    let st := getF FWT_RHSTAT_state s
    if 1 ≤ st && st ≤ 3 && p = physBank 1 (getF FWT_RHCTL_bank s) s then
      let s3 := if entValid 1 o && entKey 1 o != entKey 1 e || !entValid 1 e then shadowDrop (entKey 1 o) s2 else s2
      if entValid 1 e then shadowMade e s3 else s3
    else s2
  else s1

/-- A change of one entry of any table. -/
def tabChange (t i : Nat) (e : List Byte) (s : State) : State :=
  if t = 1 then l2Put i (slice e 0 32) s else entWr t i e s

/-! Insertion (R249, R253). -/

/-- A place that a staged insert holds. -/
def reserved (t i : Nat) (s : State) : Bool := s.fwt.overlay.any fun c => c.place && c.type = t && c.idx = i

/-- An insertion that found no place (R249). -/
def insertFail (t src : Nat) (e : List Byte) (s : State) : State :=
  let key := entKey t e
  let k (b : Nat) : Nat := bucketOf (bankSeed t b s) (bankBuckets t s) key
  raise 15 <| incF FWT_INSCNT_cnt 1 <| setF FWT_INSKEY0_key (leAt e 0 4) <| setF FWT_INSKEY1_key (leAt e 4 4) <|
    setF FWT_INSSRC_src src <| setF FWT_INSSRC_type t <| setF FWT_INSBKT0_k0 (k 0) <| setF FWT_INSBKT0_k1 (k 1) <|
    setF FWT_INSBKT1_k2 (k 2) <| setF FWT_INSBKT1_k3 (k 3) s

/-- An entry set under its key by learning (1) or a Caravan (3): over the entry that holds the key, else in the first empty place
no staged insert holds; the flag says whether it found one. -/
def insertKey (t src : Nat) (e : List Byte) (s : State) : Bool × State :=
  match findKey t (entKey t e) s with
  | some i => (true, tabChange t i e s)
  | none =>
    match (cands t (entKey t e) s).find? fun i => !entValid t (entRd t i s) && !reserved t i s with
    | some i => (true, tabChange t i e s)
    | none => (false, insertFail t src e s)

/-! Caravan records (R258). -/

/-- The hierarchy is enabled. -/
def hieOn (s : State) : Bool := isSet HIE_CFG_en s

/-- The part acts as the manager (R373). -/
def isManager (s : State) : Bool := getF HIE_STAT_role s = 1

/-- The last waiting Caravan still takes records: fewer than 32 in it, and less than 1 ms since its first (R258). -/
def cvOpen (s : State) : Bool :=
  match s.fwt.out.getLast? with
  | some c => c.length < 32 && s.ticks < s.fwt.outSince + 1000
  | none => false

/-- A record joins the Caravan that is being filled, else begins one; where 16 Caravans wait it is dropped and counted (log entry 108). -/
def cvQueue (r : CvRecord) (s : State) : State :=
  if cvOpen s then
    { s with fwt := { s.fwt with out := s.fwt.out.dropLast ++ [(s.fwt.out.getLast?.getD []) ++ [r]] } }
  else if s.fwt.out.length ≥ 16 then incF (FWT_CVCNT_cnt 6) 1 s
  else
    let s1 := { s with fwt := { s.fwt with out := s.fwt.out ++ [[r]], outSince := s.ticks } }
    setF FWT_CVQ_out s1.fwt.out.length s1

/-- The record of an entry of this part. -/
def cvOf (e : L2) (withdraw : Bool) (dev : Nat) : CvRecord := ⟨e.mac, e.vid, withdraw, e.ts, e.pos, dev⟩

/-- A local change told to the manager, or by the manager to all (R258, R260). -/
def cvLocal (e : L2) (withdraw : Bool) (s : State) : State :=
  if hieOn s && getF HIE_STAT_role s ≤ 3 then cvQueue (cvOf e withdraw (getF HIE_STAT_id s)) s else s

/-! Learning and ageing (R246 to R248). -/

/-- The local entry of a source seen on a port. -/
def localEntry (mac : List Byte) (vid port ts : Nat) (s : State) : L2 :=
  { mac := slice mac 0 6, vid := vid, dest := 2 ^ port + 63 * 2 ^ 20, sport := port, pos := getF LNK_STATUS_pos s, ts := ts }

/-- A request queued: merged with one for the same key, skipped when 64 wait (R247). -/
def learnQueue (r : LearnReq) (s : State) : State :=
  if s.fwt.learnq.any fun q => q.key == r.key then
    { s with fwt := { s.fwt with learnq := s.fwt.learnq.map fun q => if q.key == r.key then r else q } }
  else if s.fwt.learnq.length ≥ 64 then incF FWT_LRNSKIP_skip 1 s
  else
    let s1 := { s with fwt := { s.fwt with learnq := s.fwt.learnq ++ [r] } }
    setF FWT_STAT_lrnq s1.fwt.learnq.length s1

/-- The forward stage meets a source address (R246). -/
def learnMeet (mac : List Byte) (vid port : Nat) (s : State) : State :=
  if !tabLearn 1 s || !(getF FWT_LRNPORT_ports s).testBit port || (hieOn s && port < 4) || ((mac.getD 0 0).toNat).testBit 0 then s
  else
    let key := l2Key mac vid
    match findKey 1 key s with
    | none => learnQueue ⟨key, port, false, nowMs s⟩ s
    | some i =>
      let e := l2Of (entRd 1 i s)
      if e.stat then s
      else if !e.remote && e.sport = port then l2Put i (l2Bytes { e with ts := nowMs s }) s
      else learnQueue ⟨key, port, true, nowMs s⟩ s

/-- One request applied (R247): a new entry, or a move. -/
def learnApply (r : LearnReq) (s : State) : State :=
  let e := localEntry r.key (leNat [r.key.getD 7 0, r.key.getD 6 0]) r.port r.ts s
  match findKey 1 r.key s with
  | some i =>
    if (l2Of (entRd 1 i s)).stat then s
    else
      let o := l2Of (entRd 1 i s)
      let n := { o with dest := putBits o.dest 0 20 (2 ^ r.port), sport := e.sport, pos := e.pos, ts := e.ts, remote := false, epoch := 0, rxt := 0 }
      cvLocal n false (incF FWT_LRNCNT_moves 1 (l2Put i (l2Bytes n) s))
  | none =>
    let u := insertKey 1 1 (l2Bytes e) s
    if u.1 then cvLocal e false (incF FWT_LRNCNT_learned 1 u.2) else u.2

/-- LEARN_APPLY (R247): the learner takes the oldest request. -/
def execLearnApply (s : State) : Out :=
  .next <| match s.fwt.learnq with
    | [] => s
    | r :: q => learnApply r (setF FWT_STAT_lrnq q.length { s with fwt := { s.fwt with learnq := q } })

/-- The scanner visits one entry (R248). -/
def ageEntry (i : Nat) (s : State) : State :=
  let e := l2Of (entRd 1 i s)
  if !e.valid || e.stat || !bankMapped (i / (4 * bankBuckets 1 s)) s then s
  else if e.remote then
    if sub32 (nowMs s) e.rxt ≥ 30000 then incF FWT_AGECNT_remote 1 (l2Put i [] s) else s
  else if getF FWT_AGE_sec s ≠ 0 && sub32 (nowMs s) e.ts ≥ getF FWT_AGE_sec s * 1000 then
    cvLocal e true (incF FWT_AGECNT_local 1 (l2Put i [] s))
  else s

/-- AGEING_SCAN (R248): every entry is visited once. -/
def execAgeingScan (s : State) : Out :=
  .next <| applyAll (List.range (tabIndexes 1 s)) ageEntry s

/-! The rehash (R250, R251). -/

/-- MIGRATE_START (R250): FWT_RHCTL written with go; accepted in state 0 of a table with a shadow bank. -/
def cmdMigrateStart (_rq : Requester) (w : Word) (s : State) : State :=
    let s1 := busDone (setF FWT_RHCTL_bank (wbits w 0 2) s)
    if wbits w 8 1 = 1 && getF FWT_RHSTAT_state s = 0 && tabShadow 1 s then
      setF FWT_RHSTAT_moved 0 (setF FWT_RHSTAT_state 1 s1)
    else s1

/-- The same under the rights of its requester. -/
def execMigrateStart (rq : Requester) (w : Word) (s : State) : Out :=
  .next (gate rq true 0x40080038 0 (cmdMigrateStart rq w) s)

/-- One entry of the bank copied to the shadow. -/
def migrateEntry (i : Nat) (s : State) : State :=
  let e := entRd 1 i s
  if entValid 1 e then shadowMade e s else s

/-- The indexes of a physical bank. -/
def bankRange (p : Nat) (s : State) : List Nat :=
  (List.range (4 * bankBuckets 1 s)).map fun i => p * 4 * bankBuckets 1 s + i

/-- MIGRATE_DONE (R250): every valid entry of the bank has been placed in the shadow; ready unless one found no place. -/
def execMigrateDone (s : State) : Out :=
  .next <| onlyIf (getF FWT_RHSTAT_state s = 1) (fun s =>
    let s1 := applyAll (bankRange (physBank 1 (getF FWT_RHCTL_bank s) s) s) migrateEntry s
    if getF FWT_RHSTAT_state s1 = 1 then setF FWT_RHSTAT_state 2 s1 else s1) s

/-- Every slot of a physical bank cleared. -/
def clearBank (p : Nat) (s : State) : State := applyAll (bankRange p s) (fun i => entWr 1 i []) s

/-- MIGRATE_CANCEL (R250): from state 1, 2 or 3 the migrate stops and the shadow is cleared. -/
def cmdMigrateCancel (_rq : Requester) (w : Word) (s : State) : State :=
    let st := getF FWT_RHSTAT_state s
    let s1 := busDone (setF FWT_RHCTL_bank (wbits w 0 2) s)
    if wbits w 9 1 = 1 && 1 ≤ st && st ≤ 3 then setF FWT_RHSTAT_state 0 (clearBank (getF FWT_BANKMAP_sh s) s1) else s1

/-- The same under the rights of its requester. -/
def execMigrateCancel (rq : Requester) (w : Word) (s : State) : Out :=
  .next (gate rq true 0x40080038 0 (cmdMigrateCancel rq w) s)

/-- The commit of a staged swap (R251): shadow and bank exchange roles in state 2; otherwise it is discarded. -/
def bankSwap (s : State) : State :=
  if getF FWT_RHSTAT_state s = 2 then
    let b := getF FWT_RHCTL_bank s
    let old := physBank 1 b s
    let map := if b = 0 then FWT_BANKMAP_b0 else if b = 1 then FWT_BANKMAP_b1 else if b = 2 then FWT_BANKMAP_b2 else FWT_BANKMAP_b3
    setF FWT_RHSTAT_state 4 <| setF FWT_BANKMAP_sh old <| setF map (getF FWT_BANKMAP_sh s) <|
      setF (FWT_L2SEED_seed b) (getF FWT_SHSEED_seed s) s
  else setB FWT_RHSTAT_noswap true s

/-- BANK_CLEAR_DONE (R251): the old bank is cleared and the state returns to 0. -/
def execBankClearDone (s : State) : Out :=
  .next <| onlyIf (getF FWT_RHSTAT_state s = 4) (fun s =>
    setF FWT_RHSTAT_state 0 (clearBank (getF FWT_BANKMAP_sh s) s)) s

/-! The Porter (R252 to R256). -/

/-- The lease number of a block lock (kind 2; 0 for SWC, 1 for FWT). -/
def lockHeldBy (blk : Nat) (rq : Requester) (s : State) : Bool := holdsRes 2 blk rq s

/-- PORTER_GO (R252): FWT_PGO written; the run takes the writer's tag. -/
def cmdPorterGo (rq : Requester) (w : Word) (s : State) : State :=
    let s1 := busDone s
    if wbits w 0 1 = 1 && s.fwt.porter.isNone then
      setB FWT_PSTAT_busy true { s1 with fwt := { s1.fwt with porter := some ⟨rq, 0⟩ } }
    else s1

/-- The same under the rights of its requester. -/
def execPorterGo (rq : Requester) (w : Word) (s : State) : Out :=
  .next (gate rq true 0x400800A8 0 (cmdPorterGo rq w) s)

/-- The entry at an index as the lock holder's staged changes leave it. -/
def stagedEnt (t i : Nat) (s : State) : List Byte :=
  match s.fwt.overlay.reverse.find? fun c => c.type = t && c.idx = i with
  | some c => c.bytes
  | none => entRd t i s

/-- A change staged (R253). -/
def stageChange (c : TableChange) (s : State) : State :=
  let s1 := { s with fwt := { s.fwt with overlay := s.fwt.overlay ++ [c] } }
  setF FWT_PSTAT_staged s1.fwt.overlay.length s1

/-- The run ends: on a stop its record number is shown (R255). -/
def porterEnd (stop : Option Nat) (s : State) : State :=
  let s1 := setB FWT_PSTAT_busy false { s with fwt := { s.fwt with porter := none } }
  match stop with
  | some n => setB FWT_PSTAT_err true (setF FWT_PFIRST_first n s1)
  | none => s1

/-- What one operation answers: result code, place, data to return, and the state (R252 to R255). -/
def porterOp (op t idx : Nat) (data : List Byte) (lock : Bool) (s : State) : Nat × Nat × Option (List Byte) × State :=
  let ok := 1 ≤ t && t ≤ 4 && (op = 1 || op = 4 || ((op = 2 || op = 3 || op = 5) && t ≤ 2))
  if !ok || ((op = 1 || op = 4) && idx ≥ tabIndexes t s) then (4, 0, none, s)
  else if op ≤ 3 && !lock then (5, 0, none, s)
  else if op ≤ 3 && s.fwt.overlay.length ≥ 1024 then (3, 0, none, s)
  else if op = 1 then (0, idx, none, stageChange ⟨t, idx, data, false, none⟩ s)
  else if op = 4 then (0, idx, some (entRd t idx s), s)
  else
    let key := entKey t data
    let c := cands t key s
    if op = 5 then
      match findKey t key s with
      | some i => (0, i, some (entRd t i s), s)
      | none => (2, 0, none, s)
    else
      match c.find? fun i => entValid t (stagedEnt t i s) && entKey t (stagedEnt t i s) == key with
      | some i => (0, i, none, stageChange ⟨t, i, if op = 2 then data else [], false, some key⟩ s)
      | none =>
        if op = 3 then (2, 0, none, s)
        else match c.find? fun i => !entValid t (stagedEnt t i s) with
          | some i => (0, i, none, stageChange ⟨t, i, data, true, some key⟩ s)
          | none => (1, 0, none, insertFail t 2 data s)

/-- PORTER_OPERATION (R252 to R255): the next record. A record the writer's world may not reach ends the run as a world
violation (R414). -/
def execPorterOperation (s : State) : Out :=
  .next <| match s.fwt.porter with
    | none => s
    | some run =>
      let a := getF FWT_PSRC_addr s + 48 * run.next
      let w := rqRights run.owner
      if run.next ≥ getF FWT_PCNT_n s then porterEnd none s
      else if !memRange w true a 48 s then
        porterEnd (some run.next) (violation a w true 2 0 s)
      else
        let r := rdBytes s a 48
        let t := leAt r 1 1
        let data := slice r 16 (entSize t)
        let u := porterOp (leAt r 0 1) t (leAt r 4 4) data (lockHeldBy 1 run.owner s) s
        let s1 := wrBytes (a + 8) [BitVec.ofNat 8 u.1] (wrBytes (a + 12) (leBytes 4 u.2.1) u.2.2.2)
        let s2 := match u.2.2.1 with
          | some d => wrBytes (a + 16) d s1
          | none => s1
        if u.1 ≠ 0 && u.1 ≠ 2 then porterEnd (some run.next) s2
        else if run.next + 1 ≥ getF FWT_PCNT_n s then porterEnd none s2
        else { s2 with fwt := { s2.fwt with porter := some { run with next := run.next + 1 } } }

/-- Where a staged change takes effect (R254): a change by key goes to the entry that holds the key by now, so that one learned elsewhere
meanwhile is replaced in place or deleted; a key that no entry holds is inserted at its staged index, and there is nothing of it to delete. -/
def commitPlace (c : TableChange) (s : State) : Option Nat :=
  match c.key with
  | none => some c.idx
  | some k =>
    match findKey c.type k s with
    | some i => some i
    | none => if entValid c.type c.bytes then some c.idx else none

/-- The records of a change of entry i of the L2/stream table by the Porter (R258): a withdraw for a local entry that the table no longer
holds, a learn for a new local entry and for one that was remote, static ones too (log entry 112). -/
def commitRecords (i : Nat) (new : List Byte) (s t : State) : State :=
  let o := l2Of (entRd 1 i s)
  let n := l2Of new
  let t1 := if o.valid && !o.remote && (findKey 1 (l2Key o.mac o.vid) t).isNone then cvLocal o true t else t
  let was := (findKey 1 (l2Key n.mac n.vid) s).map fun k => l2Of (entRd 1 k s)
  if n.valid && !n.remote && (was.all fun e => e.remote) then cvLocal n false t1 else t1

/-- One staged change takes effect. -/
def commitChange (c : TableChange) (s : State) : State :=
  match commitPlace c s with
  | none => s
  | some i =>
    let t := tabChange c.type i c.bytes s
    if c.type = 1 && bankMapped (i / (4 * bankBuckets 1 s)) s then commitRecords i c.bytes s t else t

/-- The FWT lock is released (R254): the overlay and the staged swap take effect, and draining begins. -/
def fwtCommit (s : State) : State :=
  let l := s.fwt.overlay
  let s1 := applyAll l commitChange { s with fwt := { s.fwt with overlay := [] } }
  let s2 := if s.fwt.swap then bankSwap { s1 with fwt := { s1.fwt with swap := false } } else s1
  let s3 := setF FWT_RHSWAP_swap 0 (setF FWT_PSTAT_staged 0 s2)
  if l = [] then s3 else setB FWT_STAT_drain true s3

/-- The FWT lock is lost (R256): the Porter stops, the overlay and the staged swap are discarded. -/
def fwtDiscard (s : State) : State :=
  let s1 := { s with fwt := { s.fwt with overlay := [], swap := false } }
  let s2 := setF FWT_RHSWAP_swap 0 (setF FWT_PSTAT_staged 0 s1)
  match s.fwt.porter with
  | some r => porterEnd (some r.next) s2
  | none => s2

/-- OVERLAY_DRAIN_DONE (R254). -/
def execOverlayDrainDone (s : State) : Out := .next (setB FWT_STAT_drain false s)

/-! Caravans (R259 to R262). -/

/-- Epoch a is newer than b (R259). -/
def newer (a b : Nat) : Bool := let d := sub32 a b; 1 ≤ d && d ≤ 2 ^ 31 - 1

/-- The epoch of a received Caravan differs: dropped and counted (R259, R383). -/
def epochMismatch (s : State) : State := incF (FWT_CVCNT_cnt 2) 1 (incF HIE_RXERR_epoch 1 s)

/-- The destination word toward a position: the backbone port that faces it (R261). -/
def towards (pos : Nat) (s : State) : Nat :=
  2 ^ (if pos < getF LNK_STATUS_pos s then getF FWT_BBCFG_front s else getF FWT_BBCFG_rear s) + 63 * 2 ^ 20

/-- The entry a record gives (R261); on the manager too, its own table's entry for the owner's car. -/
def remoteEntry (r : CvRecord) (s : State) : L2 :=
  { mac := r.mac, vid := r.vid, remote := true, dest := towards r.pos s, sport := 0, pos := r.pos, ts := r.ts
    epoch := getF FWT_EPOCH_epoch s, rxt := nowMs s }

/-- Time a is later than b in the 32-bit ms view. -/
def later (a b : Nat) : Bool := newer a b

/-- The owner device of a position is kept, for the refresh records of its entries (R257, R262). -/
def keepOwner (r : CvRecord) (s : State) : State := { s with fwt := { s.fwt with devs := tabPut 0 s.fwt.devs r.pos (r.dev + 1) } }

/-- A record arrives within FWT_CVCFG.flap ms of an entry's ts (R260). -/
def flapping (e : L2) (s : State) : Bool :=
  let now := nowMs s
  (if later now e.ts then sub32 now e.ts else sub32 e.ts now) ≤ getF FWT_CVCFG_flap s

/-- The manager merges one record (R260). -/
def mergeRecord (r : CvRecord) (s : State) : State :=
  let ahead := sub32 r.ts (nowMs s)
  if ahead < 2 ^ 31 && ahead > getF FWT_CVCFG_skew s then incF (FWT_CVCNT_cnt 3) 1 s
  else
    let found := findKey 1 (l2Key r.mac r.vid) s
    match found with
    | none =>
      if r.withdraw then s
      else
        let u := insertKey 1 3 (l2Bytes (remoteEntry r s)) s
        if u.1 then cvQueue r (incF (FWT_CVCNT_cnt 1) 1 (keepOwner r u.2)) else u.2
    | some i =>
      let e := l2Of (entRd 1 i s)
      if e.stat then s
      else if e.pos = r.pos then
        if later e.ts r.ts then s
        else if r.withdraw then cvQueue r (incF (FWT_CVCNT_cnt 1) 1 (l2Put i [] s))
        else incF (FWT_CVCNT_cnt 1) 1 (l2Put i (l2Bytes { e with ts := r.ts, rxt := nowMs s }) (keepOwner r s))
      else
        let s1 := if flapping e s then raise 18 s else s
        if r.withdraw then s1
        else if later r.ts e.ts || (r.ts = e.ts && r.pos < e.pos) then
          cvQueue r (incF (FWT_CVCNT_cnt 4) 1 (incF (FWT_CVCNT_cnt 1) 1
            (l2Put i (l2Bytes { remoteEntry r s with strm := e.strm, exc := e.exc }) (keepOwner r s1))))
        else incF (FWT_CVCNT_cnt 5) 1 s1

/-- A worker or standby installs one redistributed record (R261); where the position is not valid it installs none and counts it. -/
def installRecord (r : CvRecord) (s : State) : State :=
  if r.pos = getF LNK_STATUS_pos s then s
  else
    let blind := !isSet LNK_STATUS_posv s
    match findKey 1 (l2Key r.mac r.vid) s with
    | none =>
      if r.withdraw then s
      else if blind then incF (FWT_CVCNT_cnt 5) 1 s
      else
        let u := insertKey 1 3 (l2Bytes (remoteEntry r s)) s
        if u.1 then incF (FWT_CVCNT_cnt 1) 1 (keepOwner r u.2) else u.2
    | some i =>
      let e := l2Of (entRd 1 i s)
      if e.stat then s
      else if r.withdraw then
        if e.remote && e.pos = r.pos then incF (FWT_CVCNT_cnt 1) 1 (l2Put i [] s) else s
      else if !e.remote && !later r.ts e.ts then s
      else if blind then incF (FWT_CVCNT_cnt 5) 1 s
      else incF (FWT_CVCNT_cnt 1) 1 (l2Put i (l2Bytes { remoteEntry r s with strm := e.strm, exc := e.exc }) (keepOwner r s))

/-- A received Caravan joins the input or install queue, or is dropped with event 19 (R97, R261). -/
def cvArrive (c : Caravan) (s : State) : State :=
  let cap := if isManager s then 512 else 64
  if s.fwt.inq.length ≥ cap then raise 19 s
  else
    let s1 := { s with fwt := { s.fwt with inq := s.fwt.inq ++ [c] } }
    let s2 := setF FWT_CVQ_in s1.fwt.inq.length s1
    if s.fwt.inq = [] then raiseOnce 17 0 s2 else s2

/-- The oldest waiting Caravan, handled record by record under its epoch (R259). -/
def cvTake (g : CvRecord → State → State) (s : State) : State :=
  match s.fwt.inq with
  | [] => s
  | c :: q =>
    let s1 := setF FWT_CVQ_in q.length { s with fwt := { s.fwt with inq := q } }
    if c.epoch = getF FWT_EPOCH_epoch s then applyAll c.recs g s1 else epochMismatch s1

/-- CARAVAN_MERGE (R260): the manager merges its oldest waiting Caravan. -/
def execCaravanMerge (s : State) : Out :=
  .next <| onlyIf (isManager s) (cvTake mergeRecord) s

/-- REDISTRIBUTION_INSTALL (R261). -/
def execRedistributionInstall (s : State) : Out :=
  .next <| onlyIf (!isManager s) (cvTake installRecord) s

/-- The owner device of an entry (R257): this part of a local one, of a remote one the device its position's records name; a position of
which none came has an open device (log entry 111). -/
def ownerDev (e : L2) (s : State) : Nat × State :=
  if !e.remote then (getF HIE_STAT_id s, s)
  else match tabGet 0 s.fwt.devs e.pos with
    | 0 => drawFree 8 s
    | d + 1 => (d, s)

/-- The refresh sends a record for entry i (R262): the manager for every one that is not static, the others for their local ones. -/
def refreshes (i : Nat) (s : State) : Bool :=
  let e := l2Of (entRd 1 i s)
  e.valid && !e.stat && bankMapped (i / (4 * bankBuckets 1 s)) s && (isManager s || !e.remote)

/-- One entry's refresh record. -/
def refreshEntry (i : Nat) (s : State) : State :=
  let e := l2Of (entRd 1 i s)
  let d := ownerDev e s
  cvQueue (cvOf e false d.1) d.2

/-- The refresh goes on through entries, as far as 64 records in this CK_TICK millisecond (R262). -/
def refreshRun : List Nat → State → State
  | [], s => { s with fwt := { s.fwt with refresh := none } }
  | i :: r, s =>
    if !refreshes i s then refreshRun r s
    else if s.fwt.refreshed ≥ 64 then { s with fwt := { s.fwt with refresh := some i } }
    else
      let t := refreshEntry i s
      refreshRun r { t with fwt := { t.fwt with refreshed := t.fwt.refreshed + 1 } }

/-- The full refresh under way, while the part has a place in the hierarchy. -/
def refreshStep (s : State) : State :=
  match s.fwt.refresh with
  | none => s
  | some i =>
    if hieOn s && getF HIE_STAT_role s ≤ 3 then refreshRun ((List.range (tabIndexes 1 s)).drop i) s
    else { s with fwt := { s.fwt with refresh := none } }

/-- A millisecond boundary: the refresh may send 64 records again (R262; log entry 110). -/
def refreshMs (s : State) : State := refreshStep { s with fwt := { s.fwt with refreshed := 0 } }

/-- A full refresh begins (R262). -/
def fullRefresh (s : State) : State := refreshStep { s with fwt := { s.fwt with refresh := some 0 } }

/-- FULL_REFRESH (R262): the 10 s period ends. -/
def execFullRefresh (s : State) : Out := .next (fullRefresh s)

end Sys2Proof.Machine
end

