-- ==== Sys2Proof/Machine/Recipe.lean ====
section
/-! DEFINITION. Recipes of the transcriber as bytes: header, input and output records, the signal map (spec/10), and the lookup of
the transcribe stage. -/

namespace Sys2Proof.Machine

/-! Ethernet frames and tile frames as bytes. -/

/-- EtherType at an offset. -/
def etAt (f : List Byte) (o : Nat) : Nat := beNat (slice f o 2)

/-- The frame carries a VLAN tag (TPID 0x8100). -/
def isTagged (f : List Byte) : Bool := etAt f 12 == 0x8100

/-- The tag's PCP and VID; 0 where there is none. -/
def tagPcp (f : List Byte) : Nat := if isTagged f then etAt f 14 / 0x2000 else 0
def tagVid (f : List Byte) : Nat := if isTagged f then etAt f 14 % 4096 else 0

/-- Offset of the EtherType that follows any VLAN tag. -/
def etOff (f : List Byte) : Nat := if isTagged f then 16 else 12

/-- The EtherType after any VLAN tag. -/
def etherType (f : List Byte) : Nat := etAt f (etOff f)

/-- The header words of the tile frame layout (R288). -/
def tfW0 (f : List Byte) : Nat := leAt f 0 4
def tfW1 (f : List Byte) : Nat := leAt f 4 4
def tfId (f : List Byte) : Nat := bitsOf (tfW0 f) 0 29
def tfIde (f : List Byte) : Bool := (tfW0 f).testBit 29
def tfRtr (f : List Byte) : Bool := (tfW0 f).testBit 30
def tfDlen (f : List Byte) : Nat := bitsOf (tfW1 f) 0 12
def tfFmt (f : List Byte) : Nat := bitsOf (tfW1 f) 12 2
def tfBrs (f : List Byte) : Bool := (tfW1 f).testBit 14
def tfEsi (f : List Byte) : Bool := (tfW1 f).testBit 15
def tfSdt (f : List Byte) : Nat := leAt f 8 1
def tfVcid (f : List Byte) : Nat := leAt f 9 1
def tfAf (f : List Byte) : Nat := leAt f 12 4
/-- The data of a tile frame. -/
def tfData (f : List Byte) : List Byte := (f.drop 16).take (tfDlen f)

/-- A tile frame from its parts: words 0 and 1, word 2, acceptance field, data. -/
def mkTileFrame (w0 w1 w2 af : Nat) (data : List Byte) : List Byte :=
  leBytes 4 w0 ++ leBytes 4 w1 ++ leBytes 4 w2 ++ leBytes 4 af ++ data

/-- The identifier of R237 by the tile's function: CAN identifier, LIN identifier, first HDLC byte, else 0. -/
def tileKeyId (tile : Nat) (f : List Byte) (s : State) : Nat :=
  if isCan tile s then tfId f
  else if isLin tile s then tfId f % 64
  else if tileFunc tile s = 6 then ((tfData f).getD 0 0).toNat
  else 0

/-! Recipes (R263, R265, R275). -/

/-- Number of input records, output records, and their offsets. -/
def rcNin (r : List Byte) : Nat := leAt r 0 2
def rcNout (r : List Byte) : Nat := leAt r 2 2
def rcInoff (r : List Byte) : Nat := leAt r 4 2
def rcOutoff (r : List Byte) : Nat := leAt r 6 2

/-- An input record (R265). -/
structure InRec where
  kind : Nat
  disp : Nat
  src : Nat
  ide : Bool
  authreq : Bool
  key : Nat
  idoff : Nat
  base : Nat
  first : Nat
  count : Nat
deriving DecidableEq, Repr

/-- Input record i of a recipe. -/
def inRec (r : List Byte) (i : Nat) : InRec :=
  let o := rcInoff r + 16 * i
  { kind := leAt r o 1, disp := leAt r (o + 1) 1, src := leAt r (o + 2) 1
    ide := (leAt r (o + 3) 1).testBit 0, authreq := (leAt r (o + 3) 1).testBit 1
    key := leAt r (o + 4) 4, idoff := leAt r (o + 8) 2, base := leAt r (o + 10) 2
    first := leAt r (o + 12) 2, count := leAt r (o + 14) 2 }

/-- The input records of a recipe. -/
def inRecs (r : List Byte) : List InRec := (List.range (rcNin r)).map (inRec r)

/-- An output record (R275). -/
structure OutRec where
  kind : Nat
  ctl : Nat
  graph : Nat
  fmt : Nat
  id : Nat
  dest : Nat
  ring : Nat
  len : Nat
  period : Nat
  phase : Nat
  minint : Nat
  tmpl : Nat
  base : Nat
  first : Nat
  count : Nat
deriving DecidableEq, Repr

/-- Output record i of a recipe. -/
def outRec (r : List Byte) (i : Nat) : OutRec :=
  let o := rcOutoff r + 32 * i
  { kind := leAt r o 1, ctl := leAt r (o + 1) 1, graph := leAt r (o + 2) 1, fmt := leAt r (o + 3) 1, id := leAt r (o + 4) 4
    dest := leAt r (o + 8) 4, ring := leAt r (o + 12) 1, len := leAt r (o + 14) 2, period := leAt r (o + 16) 2
    phase := leAt r (o + 18) 2, minint := leAt r (o + 20) 2, tmpl := leAt r (o + 22) 2, base := leAt r (o + 24) 2
    first := leAt r (o + 26) 2, count := leAt r (o + 28) 2 }

/-- Trigger, lossless for timers, class and latedrop of an output record's ctl. -/
def OutRec.trigger (o : OutRec) : Nat := bitsOf o.ctl 0 2
def OutRec.tmLossless (o : OutRec) : Bool := o.ctl.testBit 2
def OutRec.tc (o : OutRec) : Nat := bitsOf o.ctl 3 3
def OutRec.latedrop (o : OutRec) : Bool := o.ctl.testBit 6

/-- The recipe of a lodger in a structure. -/
def recipeOf (lid : Nat) (x : Structure) : List Byte := ((x.lodgers.find? fun r => r.lid = lid).map (·.recipe)).getD []

/-- A record matches a frame (R265, R266): a tile frame by tile, ide and identifier; an Ethernet frame by port, EtherType and PDU id. -/
def recMatches (r : InRec) (w : Waybill) (f : List Byte) (s : State) : Bool :=
  if r.kind = 1 then
    w.src = 17 && r.src = w.tile && r.ide == tfIde f && r.key = tileKeyId w.tile f s
  else if r.kind = 2 then
    w.src ≠ 17 && r.src = w.src && bitsOf r.key 0 16 = etherType f &&
      (if r.idoff = 0xFFFF then bitsOf r.key 16 16 = 0
       else etAt f (etOff f + 2 + r.idoff) = bitsOf r.key 16 16)
  else false

/-- The record of a lodger's recipe that a frame meets (R266). -/
def trnLookup (lid : Nat) (w : Waybill) (f : List Byte) (s : State) : Option InRec :=
  (inRecs (recipeOf lid s.str)).find? fun r => recMatches r w f s

/-! The signal map (R268 to R272). -/

/-- Word k of entry i of the signal map. -/
def sigWord (i k : Nat) (s : State) : Nat := leAt (entRd 5 i s) (4 * k) 4

/-- The first signal map entry of a lodger. -/
def sigFirst (lid : Nat) (s : State) : Nat := ((lodgerRec lid s).map (·.sigFirst)).getD 0

/-- Kind, order, sign, length and start of an entry's word 0. -/
def sgKind (w : Nat) : Nat := bitsOf w 0 2
def sgOrder (w : Nat) : Nat := bitsOf w 2 1
def sgSign (w : Nat) : Bool := w.testBit 3
def sgLen (w : Nat) : Nat := bitsOf w 5 5 + 1
def sgStart (w : Nat) : Nat := bitsOf w 10 14

/-- The PDU bits of a field, least significant first (R267). -/
def fieldBits (order len start : Nat) : List Nat :=
  if order = 0 then (List.range len).map (start + ·)
  else
    let next (n : Nat) : Nat := if n % 8 = 0 then n + 15 else n - 1
    ((List.range len).map fun k => (List.range k).foldl (fun n _ => next n) start).reverse

/-- A PDU bit of a byte string. -/
def pduBit (d : List Byte) (n : Nat) : Bool := ((d.getD (n / 8) 0).toNat).testBit (n % 8)

/-- The raw field read from PDU bits. -/
def readField (d : List Byte) (bits : List Nat) : Nat :=
  (bits.zipIdx.foldl fun v e => if pduBit d e.1 then v + 2 ^ e.2 else v) 0

/-- One bit of a byte string set to a value. -/
def putBit (d : List Byte) (n : Nat) (v : Bool) : List Byte :=
  d.modify (n / 8) fun b =>
    let m := 2 ^ (n % 8)
    BitVec.ofNat 8 (if v then b.toNat ||| m else natAndNot b.toNat m)

/-- A field written into PDU bits of a byte string. -/
def writeField (d : List Byte) (bits : List Nat) (v : Nat) : List Byte :=
  bits.zipIdx.foldl (fun d e => putBit d e.1 (v.testBit e.2)) d

/-- The reserved code of a field (R268). -/
def reservedCode (sign : Bool) (len : Nat) : Nat := if sign then 2 ^ (len - 1) else 2 ^ len - 1

end Sys2Proof.Machine
end

