-- ==== Sys2Proof/Machine/Switch.lean ====
section
/-! DEFINITION. The switch core up to the egress queues (R207 to R219, R225 to R228): Waybill data, counters, replicas, policers,
recovery of duplicates, the pipeline stages, and the frames held for pages. -/

namespace Sys2Proof.Machine

/-! Frame data in Hostel pages (R189, R232). -/

/-- Where a page's data lies. -/
abbrev hostelBase := 0x48000000

/-- A frame's bytes stored in its pages, 256 to a page. -/
def storeFrame : List Nat → List Byte → State → State
  | [], _, s => s
  | p :: r, b, s => storeFrame r (b.drop 256) (wrBytes (hostelBase + 256 * p) (b.take 256) s)

/-- The bytes in a chain of pages. -/
def pageBytes (pages : List Nat) (s : State) : List Byte := pages.flatMap fun p => rdBytes s (hostelBase + 256 * p) 256

/-- The data a Waybill names. -/
def wbBytes (w : Waybill) (s : State) : List Byte :=
  if w.inline then w.data.take w.len else (pageBytes w.pages s).take w.len

/-- Pages a frame of n bytes takes: at least one (R190). -/
def pagesFor (n : Nat) : Nat := max 1 ((n + 255) / 256)

/-- The bytes of a Waybill (R189), for the CPU rings. -/
def wbEncode (w : Waybill) : List Byte :=
  leBytes 2 (if w.inline then 0xFFFF else w.pages.headD 0xFFFF) ++ leBytes 2 w.len ++
  leBytes 4 (w.src % 32 + (w.tile % 64) * 2 ^ 5 + (w.tc % 8) * 2 ^ 11 + (if w.lossless then 2 ^ 14 else 0)
    + (if w.inline then 2 ^ 15 else 0) + ((w.lodger.getD 0) % 256) * 2 ^ 16 + (if w.lodger.isSome then 2 ^ 24 else 0)
    + (if w.late then 2 ^ 25 else 0) + (if w.authok then 2 ^ 26 else 0)) ++
  leBytes 4 (w.gen % 2 ^ 16 + (w.graph % 32) * 2 ^ 16) ++ leBytes 4 w.dmask ++
  leBytes 4 (w.time % 2 ^ 32) ++ leBytes 4 (w.time / 2 ^ 32) ++ slice w.data 0 8

/-! Counters (R234). -/

/-- Counter i of port p. -/
def swCnt (p i : Nat) (s : State) : Nat := tabGet 0 s.swc.cnts (16 * p + i)

/-- A counter of a port raised, 64 bits. -/
def swBump (p i n : Nat) (s : State) : State :=
  { s with swc := { s.swc with cnts := tabPut 0 s.swc.cnts (16 * p + i) ((swCnt p i s + n) % 2 ^ 64) } }

abbrev cRxfrm := 0
abbrev cRxoct := 1
abbrev cTxfrm := 2
abbrev cTxoct := 3
abbrev cVlandrop := 4
abbrev cPoldrop := 5
abbrev cAuthdrop := 6
abbrev cMissdrop := 7
abbrev cQdrop := 8
abbrev cSdudrop := 9
abbrev cSdutrunc := 10
abbrev cGatedrop := 11
abbrev cCtabort := 12
abbrev cCtfcs := 13
abbrev cCbdisc := 14

/-! Ports. -/

/-- The link of a port is up; internal ports always are (R219, R316). -/
def portLink (p : Nat) (s : State) : Bool :=
  if p < 12 then isSet (ETH_STAT_link p) s else if p < 16 then isSet (T1S_STAT_active (p - 12)) s else true

/-- The rate of a port in Mbit/s (R309, R315). -/
def portRate (p : Nat) (s : State) : Nat :=
  if p < 12 then
    match getF (ETH_STAT_spd p) s with
    | 0 => 10
    | 1 => 100
    | 2 => 1000
    | _ => 2500
  else 10

/-- Members and untagged ports of a VID. -/
def vlanMembers (vid : Nat) (s : State) : Nat := (tabGet (0, 0) s.swc.vlan vid).1
def vlanUntag (vid : Nat) (s : State) : Nat := (tabGet (0, 0) s.swc.vlan vid).2

/-! Class queues (R218). -/

/-- The key of a class queue: ports 0 to 15 by class, port 16 by ring, port 17 by sub-destination and class, ports 18, 19 by class. -/
def queueKey (p sub tc : Nat) : Nat :=
  if p < 16 then p * 8 + tc else if p = 16 then 128 + sub
  else if p = 17 then 160 + sub * 8 + tc else 672 + (p - 18) * 8 + tc

/-- A class queue, head first. -/
def queueAt (k : Nat) (s : State) : List Replica := tabGet [] s.swc.queues k

/-- A class queue replaced. -/
def setQueue (k : Nat) (q : List Replica) (s : State) : State :=
  { s with swc := { s.swc with queues := tabPut [] s.swc.queues k q } }

/-- Pages queued in a class queue. -/
def queuePages (q : List Replica) : Nat := (q.map fun r => r.wb.pages.length).sum

/-- A replica gone: its references to its pages fall (R217). -/
def dropReplica (r : Replica) (s : State) : State := freePages (r.wb.pages.drop r.read) s

/-- A replica discarded and counted for a port. -/
def discard (p i : Nat) (r : Replica) (s : State) : State := swBump p i 1 (dropReplica r s)

/-- Ring r's RSTAT.drop and its count since the previous slot (R229, R230). -/
def ringDrop (r n : Nat) (s : State) : State :=
  let s1 := incF (SWC_RSTAT_drop r) n s
  let t := tabGet {} s1.swc.rings r
  { s1 with swc := { s1.swc with rings := tabPut {} s1.swc.rings r { t with dropped := min (t.dropped + n) 0xFFFF } } }

/-- The length of a replica on the wire without FCS (R223, R245). -/
def egressLen (p : Nat) (r : Replica) (s : State) : Nat :=
  match r.encap with
  | some _ => 14 + 16 + (r.wb.len - 16) + (if (vlanUntag (getF FWT_ENCAP_vid s) s).testBit p then 0 else 4)
  | none =>
    if p < 16 && r.wb.src ≠ 17 && !r.wb.inline then
      let bare := if isTagged (wbBytes r.wb s) then r.wb.len - 4 else r.wb.len
      if (vlanUntag r.wb.vid s).testBit p then bare else bare + 4
    else r.wb.len

/-! Gate lists (R222, R223). -/

/-- A port's gate state. -/
def gateOf (p : Nat) (s : State) : GateState := tabGet {} s.swc.gates p

/-- A port's gate state replaced. -/
def setGate (p : Nat) (g : GateState) (s : State) : State :=
  { s with swc := { s.swc with gates := tabPut {} s.swc.gates p g } }

/-- The entries cut at the cycle's end, the last one stretched to it. -/
def cutEntries : List (Nat × Nat) → Nat → List (Nat × Nat)
  | [], rem => if rem = 0 then [] else [(0xFF, rem)]
  | [(g, _)], rem => if rem = 0 then [] else [(g, rem)]
  | (g, i) :: r, rem => if rem ≤ i then (if rem = 0 then [] else [(g, rem)]) else (g, i) :: cutEntries r (rem - i)

/-- The entries of a list as they run. -/
def GateList.run (g : GateList) : List (Nat × Nat) := cutEntries g.entries g.cycle

/-- The port's gate list is enabled. -/
def gatesOn (p : Nat) (s : State) : Bool := p < 12 && isSet (SWC_GCTL_en p) s

/-- The gate states in force at a port. -/
def gatesNow (p : Nat) (s : State) : Nat :=
  if gatesOn p s then ((gateOf p s).oper.run.getD (gateOf p s).idx (0xFF, 0)).1 else 0xFF

/-- How long class c stays open along entries. -/
def openRun (c : Nat) : List (Nat × Nat) → Nat
  | [] => 0
  | (g, i) :: r => if g.testBit c then i + openRun c r else 0

/-- The gate states of a list's last entry. -/
def lastGates (l : List (Nat × Nat)) : Nat := (l.getLast?.getD (0xFF, 0)).1

/-- The entries a port runs from now on, in ns, up to a change of list that lies rem ns ahead (R222): a cycle that would end less than ext
before it holds its last states up to it. -/
def entriesUntil (first l : List (Nat × Nat)) (rem cycle ext : Nat) : List (Nat × Nat) :=
  let r0 := (first.map (·.2)).sum
  if rem ≤ r0 then cutEntries first rem
  else
    let k := (rem - r0) / max 1 cycle
    let left := (rem - r0) % max 1 cycle
    first ++ (if k = 0 then [] else if k = 1 then l else l ++ l) ++ (if left < ext then [(lastGates l, left)] else cutEntries l left)

/-- The remaining open time of a class in ns; nothing where its gate never closes (R223): along the entries in force, across the cycle's
wrap, and past a change of list that stands before the gate closes. -/
def remainingOpen (p c : Nat) (s : State) : Option Nat :=
  let g := gateOf p s
  let l := g.oper.run
  let e := l.getD g.idx (0xFF, 0)
  let first := (e.1, e.2 - (nowNs s - g.since)) :: l.drop (g.idx + 1)
  let always (l : List (Nat × Nat)) : Bool := l.all fun e => e.1.testBit c
  if !gatesOn p s then none
  else match g.admin with
    | none => if always l then none else some (openRun c (first ++ l ++ l))
    | some a =>
      let rem := g.change - nowNs s
      let before := if always l then rem else openRun c (entriesUntil first l rem g.oper.cycle g.oper.ext)
      if before < rem then some before
      else if always a.run then none
      else some (rem + openRun c (a.run ++ a.run))

/-- A head frame fits the guard band of its class (R223). -/
def fits (p c : Nat) (r : Replica) (s : State) : Bool :=
  match remainingOpen p c s with
  | none => true
  | some ns =>
    let l := if r.cut then getF (SWC_MAXSDU_bytes p c) s else egressLen p r s
    (max (l + 4) 64 + 20) * 8000 ≤ ns * portRate p s

/-! Shapers (R221). -/

/-- A class's credit in 10^-6 bit. -/
def creditOf (p c : Nat) (s : State) : Int := tabGet 0 s.swc.credit (p * 8 + c)

/-- A class's credit after a time in ns. -/
def creditAfter (p c : Nat) (dt : Nat) (s : State) : Int :=
  let idle := getF (SWC_IDLESLOPE_kbps p c) s
  let cr := creditOf p c s
  if idle = 0 then 0
  else if !(gatesNow p s).testBit c then cr
  else if (s.swc.sending.any fun e => e.1 = p && e.2.wb.tc = c) then cr + ((idle : Int) - (portRate p s * 1000 : Nat)) * dt
  else if queueAt (queueKey p 63 c) s ≠ [] then cr + (idle * dt : Nat)
  else min cr 0

/-- Every credit of a port brought up to the time base. -/
def creditUpdate (p : Nat) (s : State) : State :=
  if p ≥ 12 then s
  else
    let now := nowNs s
    let dt := now - tabGet 0 s.swc.creditAt p
    let put (c : Nat) (t : State) : State :=
      { t with swc := { t.swc with credit := tabPut 0 t.swc.credit (p * 8 + c) (creditAfter p c dt s) } }
    let s1 := applyAll (List.range 8) put s
    { s1 with swc := { s1.swc with creditAt := tabPut 0 s1.swc.creditAt p now } }

/-- The head of a class queue of a port. -/
def headOf (p c : Nat) (s : State) : Option Replica := (queueAt (queueKey p 63 c) s).head?

/-- The classes whose head waits for the gates (R224). -/
def heldClasses (p : Nat) (s : State) : Nat :=
  if !gatesOn p s then 0
  else ((List.range 8).filter fun c =>
    match headOf p c s with
    | none => false
    | some r => !((gatesNow p s).testBit c && fits p c r s)).foldl (fun m c => m ||| 2 ^ c) 0

/-- SWC_GSTAT.hold follows the heads. -/
def refreshHold (p : Nat) (s : State) : State :=
  if p < 12 then setF (SWC_GSTAT_hold p) (heldClasses p s) s else s

/-! Joining a queue (R216, R218, R219, R228). -/

/-- A replica meets no queue: its port has no link, its tile takes none, or it is lossy and its queue is full (R218, R219, R230, R300, R338). -/
inductive Refused where
  | link | can | serial | ring | full
deriving DecidableEq, Repr

/-- Why a class queue does not take a replica, if it does not. -/
def queueRefuses (p : Nat) (r : Replica) (s : State) : Option Refused :=
  let n := queuePages (queueAt (queueKey p r.sub r.wb.tc) s) + r.wb.pages.length
  if p < 16 && !portLink p s then some .link
  else if p = 17 && r.sub < 48 && isCan r.sub s &&
      (getF (CAN_STAT_state r.sub) s = 5 || getF (CAN_STAT_state r.sub) s = 6 || getF (CAN_STAT_state r.sub) s = 9) then some .can
  else if p = 17 && r.sub < 48 && tileUsed r.sub s && !isCan r.sub s && getF (SER_STAT_state r.sub) s = 5 then some .serial
  else if r.wb.lossless then none
  else if p = 16 then (if n > getF (SWC_RCFG_qlim r.sub) s then some .ring else none)
  else if n > getF (SWC_QLIM_pages p r.wb.tc) s then some .full
  else none

/-- A replica meets its class queue (R218, R219, R230, R300, R338). A class that gains a frame has its credit counted up to now (R221), and
SWC_GSTAT.hold follows (R224). -/
def enqueue (p : Nat) (r : Replica) (s : State) : State :=
  match queueRefuses p r s with
  | some .link => discard p cQdrop r s
  | some .can => incF (CAN_TXDROP_flush r.sub) 1 (discard 17 cQdrop r s)
  | some .serial => incF (SER_TXDROP_bad r.sub) 1 (discard 17 cQdrop r s)
  | some .ring => ringDrop r.sub 1 (dropReplica r s)
  | some .full => discard p cQdrop r s
  | none =>
    let k := queueKey p r.sub r.wb.tc
    refreshHold p (setQueue k (queueAt k s ++ [r]) (creditUpdate p s))

/-- Whether a replica for a port is copied to the mirror port (R228). -/
def mirrored (p : Nat) (r : Replica) (s : State) : Bool :=
  isSet SWC_MIRCTL_en s && (getF SWC_MIREG_ports s).testBit p && !r.mirror

/-- The mirror copy of a frame (R228). -/
def mirrorOf (r : Replica) (s : State) : Replica :=
  { r with wb := { r.wb with tc := getF SWC_MIRCTL_tc s, lossless := false }, cut := false, whole := true, mirror := true, cycles := 0 }

/-- A port's queues flushed and counted as qdrop (R219); an emptied class keeps no positive credit (R221). -/
def flushPort (p : Nat) (s : State) : State :=
  refreshHold p <| creditUpdate p <| applyAll (List.range 8) (fun c t =>
    let k := queueKey p 63 c
    applyAll (queueAt k t) (discard p cQdrop) (setQueue k [] t)) (creditUpdate p s)

/-- Counter i of a MAC port counts; with its ETH_ERRMSK bit set, event 28 is raised, once per port and ms (R313). -/
def ethCount (p i : Nat) (s : State) : State :=
  let s1 := incF (ETH_CNT_cnt p i) 1 s
  if (getF (ETH_ERRMSK_msk p) s).testBit i then raiseOnce 28 p s1 else s1

/-- Counter i of a lodger raised, saturating: 32 bits for items and outputs, 16 for the others (R264 to R279). -/
def trnCount (lid i n : Nat) (s : State) : State :=
  let k := 16 * lid + i
  { s with trn := { s.trn with cnts := tabPut 0 s.trn.cnts k (min (tabGet 0 s.trn.cnts k + n) (if i < 2 then 2 ^ 32 - 1 else 0xFFFF)) } }

abbrev tItems := 0
abbrev tOutputs := 1
abbrev tNomatch := 2
abbrev tShort := 3
abbrev tSat := 4
abbrev tInv := 5
abbrev tTmo := 6
abbrev tAuthrej := 7
abbrev tLateSent := 8
abbrev tLateDrop := 9
abbrev tDef := 10
abbrev tMerge := 11

/-- The graph record of a number. -/
def graphRec (n : Nat) (s : State) : Option GraphRec := s.str.graphs.find? fun g => g.graph = n

/-- A stored frame reaches the transcriber: an item of its own lodger or of its graph's default one, or dropped with no record (R159, R210,
R244, R266). -/
def toTranscriber (r : Replica) (s : State) : State :=
  let lid := r.wb.lodger.getD (((graphRec r.wb.graph s).map (·.lodger)).getD 0)
  match trnLookup lid r.wb (wbBytes r.wb s) s with
  | some _ => releaseItem lid (.frame { r.wb with lodger := some lid }) s
  | none => trnCount lid tNomatch 1 (dropReplica r s)

/-- A replica passes SWC_MAXSDU of its class (R215, R216); 0 sets no limit. -/
def overSdu (p len tc : Nat) (s : State) : Bool := getF (SWC_MAXSDU_bytes p tc) s ≠ 0 && len > getF (SWC_MAXSDU_bytes p tc) s

/-- A stored replica, or a mirror copy, joins its queue (R213, R216). -/
def joinPlain (p : Nat) (r : Replica) (s : State) : State :=
  if p = 17 && r.sub = 49 then toTranscriber r s
  else if overSdu p r.wb.len r.wb.tc s then discard p cSdudrop r s
  else enqueue p r s

/-- The frame of a port whose end has not been received. -/
def inflightOf (p : Nat) (s : State) : Option Inflight := tabGet none (s.swc.inflight.map fun e => (e.1, some e.2)) p

/-- The in-flight frame of a port replaced or removed. -/
def setInflight (p : Nat) (i : Option Inflight) (s : State) : State :=
  { s with swc := { s.swc with inflight :=
    match i with
    | some x => tabIns p x (tabDrop s.swc.inflight p)
    | none => tabDrop s.swc.inflight p } }

/-- Replicas of a frame of a MAC port that wait for its end. -/
def addWaiting (p : Nat) (l : List (Nat × Replica)) (s : State) : State :=
  match inflightOf p s with
  | some i => setInflight p (some { i with waiting := i.waiting ++ l }) s
  | none => s

/-- A replica that its port will queue has a mirror copy (R228). -/
def copyDue (p : Nat) (r : Replica) (s : State) : Bool :=
  mirrored p r s && ((p = 17 && r.sub = 49) || (queueRefuses p r s).isNone)

/-- A cut-through replica joins its queue at the forward decision; its mirror copy waits for the whole frame (R213, R228). -/
def joinCut (p : Nat) (r : Replica) (s : State) : State :=
  if copyDue p r s then
    addWaiting r.wb.src [(getF SWC_MIRCTL_dst s, mirrorOf r s)] (enqueue p r (sharePages r.wb.pages 1 s))
  else enqueue p r s

/-- A store-and-forward replica joins its queue when the frame is whole, with its mirror copy (R213, R216, R228). -/
def joinQueue (p : Nat) (r : Replica) (s : State) : State :=
  if overSdu p r.wb.len r.wb.tc s && !(p = 17 && r.sub = 49) then discard p cSdudrop r s
  else if copyDue p r s then joinPlain (getF SWC_MIRCTL_dst s) (mirrorOf r s) (joinPlain p r (sharePages r.wb.pages 1 s))
  else joinPlain p r s

/-- The copy of a frame that arrives on a mirrored port (R228): of a frame still arriving, it waits for the end. -/
def ingressCopy (w : Waybill) (arriving : Bool) (s : State) : State :=
  if isSet SWC_MIRCTL_en s && (getF SWC_MIRIN_ports s).testBit w.src then
    let c := mirrorOf { wb := w } s
    let d := getF SWC_MIRCTL_dst s
    let s1 := sharePages w.pages 1 s
    if arriving then addWaiting w.src [(d, c)] s1 else joinPlain d c s1
  else s

/-! Policers (R226, R227, R214). -/

/-- The policer an ingress selects: pol_base + 8 s + tc. -/
def policerIndex (g : GraphRec) (w : Waybill) : Nat :=
  let k := if w.src ≠ 17 then 0 else if w.tile < 48 then w.tile + 1 else w.tile
  g.polBase + 8 * k + w.tc

/-- A bucket's content in 1/65536 byte. -/
def bucketLevel (e : List Byte) : Nat := leAt e 12 4 * 65536 + leAt e 10 2

/-- A policer entry with a new bucket content and counters. -/
def bucketPut (e : List Byte) (level conform exceed : Nat) : List Byte :=
  slice e 0 10 ++ leBytes 2 (level % 65536) ++ leBytes 4 (level / 65536) ++ leBytes 8 conform ++ leBytes 8 exceed

/-- What the police stage answers. -/
inductive Verdict where
  | pass | drop | remark (tc : Nat) | mark
deriving DecidableEq, Repr

/-- One frame meets its policer with a charge (R227). -/
def police (i charge : Nat) (s : State) : Verdict × State :=
  if i ≥ tabEntries 4 s then (.pass, incF SWC_POLSTAT_oor 1 s)
  else
    let e := entRd 4 i s
    let l := bucketLevel e
    if l ≥ charge * 65536 then
      (.pass, entWr 4 i (bucketPut e (l - charge * 65536) (leAt e 16 8 + 1) (leAt e 24 8)) s)
    else
      let s1 := entWr 4 i (bucketPut e l (leAt e 16 8) (leAt e 24 8 + 1)) s
      match bitsOf (leAt e 8 1) 0 2 with
      | 0 => (.drop, raiseOnce 57 0 (setF SWC_POLSTAT_last i s1))
      | 1 => (.remark (bitsOf (leAt e 9 1) 0 3), s1)
      | _ => (.mark, s1)

/-- A bucket credited with the difference between its charge and the frame's length (R214). -/
def policeSettle (i charged len : Nat) (s : State) : State :=
  if i ≥ tabEntries 4 s then s
  else
    let e := entRd 4 i s
    let l := min (leAt e 4 4 * 65536) (bucketLevel e + charged * 65536 - len * 65536)
    entWr 4 i (bucketPut e l (leAt e 16 8) (leAt e 24 8)) s

/-- One CK_TICK credits one policer (R227). -/
def policeCredit (i : Nat) (s : State) : State :=
  let e := entRd 4 i s
  entWr 4 i (bucketPut e (min (leAt e 4 4 * 65536) (bucketLevel e + leAt e 0 4 * 65536 / 1000000)) (leAt e 16 8) (leAt e 24 8)) s

/-- POLICER_CREDIT_TICK (R227): every policer of the table is credited. -/
def execPolicerCreditTick (s : State) : Out :=
  .next <| applyAll (List.range (tabEntries 4 s)) policeCredit s

/-! Sequence recovery (R225). -/

/-- A stream's state. -/
def cbOf (sh : Nat) (s : State) : CbStream := tabGet {} s.swc.cb sh

/-- A stream's state replaced. -/
def setCb (sh : Nat) (c : CbStream) (s : State) : State := { s with swc := { s.swc with cb := tabPut {} s.swc.cb sh c } }

/-- Counter i of a stream raised, saturating. -/
def cbCount (c : CbStream) (i n : Nat) : CbStream := { c with cnts := c.cnts.modify i fun v => min (v + n) (2 ^ 32 - 1) }

/-- The vector recovery algorithm: whether a sequence number passes, and the stream afterwards. -/
def cbCheck (c : CbStream) (seq ms : Nat) : Bool × CbStream :=
  if c.takeany then (true, { cbCount c 0 1 with recov := seq, hist := 1, takeany := false, last := ms })
  else
    let d : Int := let u := (seq + 65536 - c.recov) % 65536; if u < 32768 then u else (u : Int) - 65536
    if d ≥ c.len || d ≤ -(c.len : Int) then (false, cbCount c 2 1)
    else if d ≤ 0 then
      let b := d.natAbs
      if c.hist.testBit b then (false, cbCount c 1 1)
      else (true, { cbCount (cbCount c 3 1) 0 1 with hist := c.hist ||| 2 ^ b, last := ms })
    else
      let n := d.natAbs
      let zeros := ((List.range n).filter fun k => !c.hist.testBit (c.len - 1 - k)).length
      let c1 := { cbCount (cbCount c 4 zeros) 0 1 with
        hist := (c.hist * 2 ^ n + 1) % 2 ^ c.len, recov := seq, last := ms }
      (true, if n > 1 then cbCount c1 3 1 else c1)

/-- The redundancy tag's offset, if the frame carries one after any VLAN tag. -/
def rtagOff (f : List Byte) : Option Nat := if etherType f = 0xF1C1 then some (etOff f) else none

/-- No frame of a stream has passed for its reset time, by the time base (log entry 109). -/
def streamSilent (sh : Nat) (s : State) : Bool := sub32 (nowMs s) (cbOf sh s).last ≥ (cbOf sh s).reset

/-- STREAM_RESET_TIMEOUT (R225): no frame of the stream has passed for its reset time. -/
def execStreamResetTimeout (sh : Nat) (s : State) : Out :=
  .next <| onlyIf (sh < 1024 && (cbOf sh s).en && !(cbOf sh s).takeany && streamSilent sh s) (fun s =>
    let c := cbOf sh s
    setCb sh { c with takeany := true, resets := min (c.resets + 1) (2 ^ 32 - 1) } s) s

/-! The pipeline (R208 to R215). -/

/-- A frame in the pipeline: its Waybill, its bytes, the exceed mark of its policer. -/
structure Flow where
  wb : Waybill
  frame : List Byte
  marked : Bool := false
deriving DecidableEq, Repr

/-- The graph a Waybill runs (R159): its port's binding, or its tile's pipe. -/
def graphFor (w : Waybill) (s : State) : Nat :=
  if w.src = 17 then getF (FAB_TCFG_pipe w.tile) s else ((bindOf w.src s).map (·.graph)).getD 0

/-- The graph record a Waybill runs; one without stages where it has none. -/
def graphOf (w : Waybill) (s : State) : GraphRec := (graphRec (graphFor w s) s).getD ⟨graphFor w s, 0, 0, [], 0, 0, 0, 0⟩

/-- The frame leaves the pipeline: its pages are freed and it is counted. -/
def flowDrop (f : Flow) (i : Nat) (s : State) : State := swBump f.wb.src i 1 (freePages f.wb.pages s)

/-- A frame's VLAN: the tag's VID, or the port's PVID. -/
def frameVid (p : Nat) (f : List Byte) (s : State) : Nat :=
  if tagVid f = 0 then getF (SWC_PCFG_pvid p) s else tagVid f

/-- A frame is the hierarchy's: its VID and EtherType are the POLICY's, on ports 0 to 3 (R209). -/
def isHierarchy (p : Nat) (f : List Byte) (s : State) : Bool :=
  p < 4 && frameVid p f s = s.str.policy.vlan && etherType f = s.str.policy.ethertype

/-- The class that classify gives a frame of ports 0 to 15 (R209). -/
def classOf (p : Nat) (f : List Byte) (s : State) : Nat :=
  if isHierarchy p f s then 7
  else getF (SWC_PCP2TC_tc p (if isTagged f then tagPcp f else getF (SWC_PCFG_upcp p) s)) s

/-- Why classify drops a frame: VID 4095, a refused kind of tag, or no membership (R209). -/
def classifyDrops (p : Nat) (f : List Byte) (s : State) : Bool :=
  let acc := getF (SWC_PCFG_acc p) s
  tagVid f = 4095 || (acc = 1 && !isTagged f) || (acc = 2 && tagVid f ≠ 0) || !(vlanMembers (frameVid p f s) s).testBit p

/-- How many replicas a dmask names, each with its port (R217): ring for port 16, one per sub-destination of port 17. -/
def replicasOf (w : Waybill) (encap : Option Nat) (decap : Bool) : List (Nat × Replica) :=
  (List.range 20).flatMap fun p =>
    if !w.dmask.testBit p then []
    else if p = 16 then [(16, { wb := w, sub := w.ring })]
    else if p = 17 then (w.dsub.filter (· ≠ 63)).map fun d => (17, { wb := w, sub := d, decap := decap })
    else if p < 16 then [(p, { wb := w, encap := encap })]
    else [(p, { wb := w })]

/-- A replica for a port may be cut through (R213). -/
def cutThrough (w : Waybill) (p : Nat) (g : Option GraphRec) (s : State) : Bool :=
  w.src < 12 && p < 12 && (getF SWC_CTPORT_en s).testBit w.src && (getF SWC_CTPORT_en s).testBit p &&
  (getF SWC_CTCLS_en s).testBit w.tc && portRate w.src s ≥ portRate p s &&
  ((g.map fun r => !(r.stages.contains 2 || r.stages.contains 4)).getD true) &&
  (!isSet (SWC_GCTL_en p) s || getF (SWC_MAXSDU_bytes p w.tc) s ≠ 0)

/-- The replicas of a decided frame (R211, R213, R217): pages counted once per replica; cut-through replicas join their queues, the others
wait for the whole frame where it is still arriving. -/
def replicate (f : Flow) (encap : Option Nat) (decap arriving : Bool) (s : State) : State :=
  let w := f.wb
  let again := w.src = 19 && w.dmask.testBit 19
  let w1 := if again then { w with dmask := natAndNot w.dmask (2 ^ 19) } else w
  let nosub := w1.dmask.testBit 17 && (w1.dsub.filter (· ≠ 63)) = []
  let s1 := if again then swBump 19 cMissdrop 1 s else s
  let s2 := if nosub then swBump w.src cMissdrop 1 s1 else s1
  let reps := replicasOf w1 encap decap
  if reps = [] then (if again || nosub then freePages w.pages s2 else flowDrop f cMissdrop s2)
  else
    let g := graphRec w.graph s
    let s3 := sharePages w.pages (reps.length - 1) s2
    let cut := if arriving then reps.filter fun e => cutThrough w e.1 g s && e.2.encap.isNone else []
    let rest := reps.filter fun e => !cut.contains e
    let s4 := applyAll cut (fun e => joinCut e.1 { e.2 with cut := true }) s3
    if arriving then addWaiting w.src rest s4 else applyAll rest (fun e => joinQueue e.1 e.2) s4

/-- The ingress port and the ports outside the VLAN removed from a dmask (R211). -/
def trimMask (src vid m : Nat) (s : State) : Nat :=
  let m1 := if src = 16 || src = 17 || src = 19 then m else natAndNot m (2 ^ src)
  natAndNot m1 (natAndNot (m1 % 65536) (vlanMembers vid s))

/-- The exceed rule of an entry on a marked frame (R244): none means dropped. -/
def exceedRule (exc : Nat) (marked : Bool) (w : Waybill) : Option Waybill :=
  if !marked || exc = 0 then some w
  else if exc = 1 then none
  else if exc = 2 then some { w with dmask := 2 ^ 16 }
  else some { w with tc := 0 }

/-- The destinations of a miss by the graph's rule (R211). -/
def missMask (g : Option GraphRec) (vid : Nat) (s : State) : Nat :=
  match (g.map (·.miss)).getD 0 with
  | 0 => 0
  | 1 => 2 ^ 16
  | _ => vlanMembers vid s

/-- The redundancy tag removed from a frame's bytes. -/
def popRtag (f : List Byte) (o : Nat) : List Byte := f.take o ++ f.drop (o + 6)

/-- The bytes of a frame changed in its pages: no copy of a frame exists (R217), so what waits for its end changes with it. -/
def reframe (f : Flow) (b : List Byte) (s : State) : Flow × State :=
  let n := b.length
  let s1 := match inflightOf f.wb.src s with
    | some i => setInflight f.wb.src (some { i with
        wb := { i.wb with len := n }, waiting := i.waiting.map fun e => (e.1, { e.2 with wb := { e.2.wb with len := n } }) }) s
    | none => s
  ({ f with frame := b, wb := { f.wb with len := n } }, storeFrame f.wb.pages b s1)

/-- A frame of a recovered stream is checked (R225): nothing where it is discarded. -/
def recovery (f : Flow) (sh : Nat) (s : State) : Option (Flow × State) :=
  let c := cbOf sh s
  if f.wb.src ≥ 4 || !c.en then some (f, s)
  else
    match rtagOff f.frame with
    | none => some (f, setCb sh (cbCount c 5 1) s)
    | some o =>
      let r := cbCheck c (etAt f.frame (o + 4)) (nowMs s)
      if r.1 then
        some (if c.pop then reframe f (popRtag f.frame o) (setCb sh r.2 s) else (f, setCb sh r.2 s))
      else none

/-- The stream after a discarded frame. -/
def recoveryDiscard (f : Flow) (sh : Nat) (s : State) : State :=
  match rtagOff f.frame with
  | none => s
  | some o => setCb sh (cbCheck (cbOf sh s) (etAt f.frame (o + 4)) (nowMs s)).2 s

/-- The forward stage for ports 0 to 16 and 19 (R211, R225, R240, R244, R246). -/
def forwardL2 (f : Flow) (arriving : Bool) (s : State) : State :=
  let w := f.wb
  let g := graphRec w.graph s
  let ring := (g.map (·.cpuRing)).getD 0
  let s0 := if w.src < 16 then learnMeet (slice f.frame 6 6) w.vid w.src s else s
  match l2Lookup (slice f.frame 0 6) w.vid s0 with
  | none =>
    let w1 := { w with dmask := trimMask w.src w.vid (missMask g w.vid s) s, ring := ring }
    replicate { f with wb := w1 } none false arriving s0
  | some e =>
    let dec := e.dest.testBit 31 && w.src < 16
    let w1 := { w with
      tc := e.tcOver.getD w.tc, ring := ring, dsub := [bitsOf e.dest 20 6]
      dmask := trimMask w.src w.vid (bitsOf e.dest 0 20) s }
    match exceedRule e.exc f.marked w1 with
    | none => flowDrop f cPoldrop s0
    | some w2 =>
      if dec && etherType f.frame ≠ getF FWT_ENCAP_etype s then flowDrop f cMissdrop s0
      else
        let f2 := { f with wb := w2 }
        if e.rcv then
          match recovery f2 e.sh s0 with
          | none => flowDrop f cCbdisc (recoveryDiscard f2 e.sh s0)
          | some (f3, s1) => replicate f3 none (dec && bitsOf e.dest 20 6 < 48) arriving s1
        else replicate f2 none (dec && bitsOf e.dest 20 6 < 48) arriving s0

/-- The forward stage for tile frames (R240, R242, R244, R245). -/
def forwardTile (f : Flow) (s : State) : State :=
  let w := f.wb
  let g := graphRec w.graph s
  match canLookup w.tile (isCan w.tile s && tfIde f.frame) (tileKeyId w.tile f.frame s) s with
  | none =>
    let w1 := { w with dmask := trimMask 17 w.vid (missMask g w.vid s) s, ring := (g.map (·.cpuRing)).getD 0 }
    replicate { f with wb := w1 } none false false s
  | some (dest, act) =>
    let enc := act.testBit 5
    let vid := if enc then getF FWT_ENCAP_vid s else w.vid
    let w1 := { w with
      tc := if act.testBit 9 then bitsOf act 6 3 else w.tc
      ring := bitsOf act 0 5, dsub := [bitsOf dest 20 6, bitsOf dest 26 6], vid := vid
      dmask := trimMask 17 vid (bitsOf dest 0 20) s }
    match exceedRule (bitsOf act 10 2) f.marked w1 with
    | none => flowDrop f cPoldrop s
    | some w2 => replicate { f with wb := w2 } (if enc then some (bitsOf act 16 8) else none) false false s

/-- The forward stage. -/
def forwardStage (f : Flow) (arriving : Bool) (s : State) : State :=
  if f.wb.src = 17 then forwardTile f s else forwardL2 f arriving s

/-- Where the forward stage would send a frame of ports 0 to 15, and in which class (R211, R244). -/
def forwardMask (w : Waybill) (frame : List Byte) (s : State) : Nat × Nat :=
  match l2Lookup (slice frame 0 6) w.vid s with
  | none => (trimMask w.src w.vid (missMask (graphRec w.graph s) w.vid s) s, w.tc)
  | some e => (trimMask w.src w.vid (bitsOf e.dest 0 20) s, e.tcOver.getD w.tc)

/-- The ports to which a frame would be cut through. -/
def cutPorts (w : Waybill) (frame : List Byte) (s : State) : List Nat :=
  let d := forwardMask w frame s
  (List.range 12).filter fun p => d.1.testBit p && cutThrough { w with tc := d.2 } p (graphRec w.graph s) s

/-- What a frame is charged at the decision point (R214): its length, or, where some replica is cut through, the greatest SWC_MAXSDU of its
class among their ports, 1522 for 0 (log entry 99). -/
def policeCharge (w : Waybill) (frame : List Byte) (arriving : Bool) (s : State) : Nat :=
  match if arriving then cutPorts w frame s else [] with
  | [] => w.len
  | ps => (ps.map fun p => let m := getF (SWC_MAXSDU_bytes p (forwardMask w frame s).2) s; if m = 0 then 1522 else m).foldl max 0

/-- The frame's end will settle the charge made in advance (R214). -/
def settleLater (p i charge : Nat) (s : State) : State :=
  match inflightOf p s with
  | some x => setInflight p (some { x with policer := some i, charged := charge }) s
  | none => s

/-- The police stage (R226, R227): nothing where the frame is dropped. -/
def policeStage (f : Flow) (g : GraphRec) (arriving : Bool) (s : State) : Option Flow × State :=
  let i := policerIndex g f.wb
  let charge := policeCharge f.wb f.frame arriving s
  let r := police i charge s
  match r.1 with
  | .pass => (some f, if charge = f.wb.len then r.2 else settleLater f.wb.src i charge r.2)
  | .drop => (none, flowDrop f cPoldrop r.2)
  | .remark tc => (some { f with wb := { f.wb with tc := tc } }, r.2)
  | .mark => (some { f with marked := true }, r.2)

/-- A frame queued to a lodger as an item; of a frame still arriving, at its end. -/
def queueItem (lid : Nat) (w : Waybill) (arriving : Bool) (s : State) : State :=
  let w1 := { w with lodger := some lid }
  if arriving then addWaiting w.src [(17, { wb := w1, sub := 49, mirror := true })] s else releaseItem lid (.frame w1) s

/-- The transcribe stage (R210): nothing where the frame is consumed. -/
def transcribeStage (f : Flow) (g : GraphRec) (arriving : Bool) (s : State) : Option Flow × State :=
  let lid := f.wb.lodger.getD g.lodger
  match trnLookup lid f.wb f.frame s with
  | none => (some f, s)
  | some r =>
    if r.disp = 0 then (none, queueItem lid f.wb arriving s)
    else (some f, queueItem lid f.wb arriving (sharePages f.wb.pages 1 s))

/-- The stages left run in order (R208, R133): 1 classify, 2 authenticate, 3 police, 4 transcribe, 5 forward. A frame of a tile
rule waits at stage 2 for its check (R306), and a frame behind it of the same ingress waits too (R212). -/
def runStages : List Nat → Flow → GraphRec → Bool → State → State
  | [], f, _, _, s => freePages f.wb.pages s
  | 5 :: _, f, _, arriving, s => forwardStage f arriving s
  | 4 :: r, f, g, arriving, s =>
    match transcribeStage f g arriving s with
    | (some f1, s1) => runStages r f1 g arriving s1
    | (none, s1) => s1
  | 3 :: r, f, g, arriving, s =>
    match policeStage f g arriving s with
    | (some f1, s1) => runStages r f1 g arriving s1
    | (none, s1) => s1
  | 2 :: r, f, g, arriving, s =>
    if f.wb.src = 17 && f.wb.tile < 48 then
      { s with swc := { s.swc with authq := s.swc.authq ++ [⟨f.wb, f.marked, r⟩] } }
    else runStages r f g arriving s
  | _ :: r, f, g, arriving, s => runStages r f g arriving s

/-- A frame whose pages are stored enters its graph (R208, R209, R212). While it arrives, its place among the frames in flight is kept. -/
def enterPipeline (w : Waybill) (frame : List Byte) (arriving : Bool) (s : State) : State :=
  let p := w.src
  let g := graphOf w s
  let classify := g.stages.contains 1 && p < 16
  let vid := if p = 17 then getF (SWC_PCFG_pvid 17) s
    else if classify || p ≥ 16 then frameVid p frame s else getF (SWC_PCFG_pvid p) s
  let tc := if p ≥ 16 then w.tc else if classify then classOf p frame s else g.dtc
  let w1 := { w with graph := g.graph, vid := vid, tc := tc }
  let f : Flow := { wb := w1, frame := frame }
  let s0 := if arriving then setInflight p (some { wb := w1, waiting := [], policer := none, charged := 0 }) s else s
  let s1 := ingressCopy w1 arriving (swBump p cRxoct frame.length (swBump p cRxfrm 1 s0))
  if classify && isHierarchy p frame s && !classifyDrops p frame s then
    replicate { f with wb := { w1 with tc := 7, lossless := true, dmask := 2 ^ 18 } } none false arriving s1
  else if classify && classifyDrops p frame s then flowDrop f cVlandrop s1
  else
    let rest := g.stages.filter fun k => k ≠ 1
    if s.swc.authq.any fun a => a.wb.src = p then
      { s1 with swc := { s1.swc with authq := s1.swc.authq ++ [⟨w1, false, rest⟩] } }
    else runStages rest f g arriving s1

/-! Pages for a frame (R179 to R188). -/

/-- The source of a frame among those that request pages and hold frames (R181, R184): an ingress port; of port 17 a tile (100 + n), the car
link block (148), the transcriber (149). -/
def frameSource (w : Waybill) : Nat :=
  if w.src ≠ 17 then w.src else if w.tile < 48 then 100 + w.tile else if w.lodger.isSome then 149 else 148

/-- The place in `filling` of a source's lossy or lossless frame. -/
def fillKey (source : Nat) (lossless : Bool) : Nat := 2 * source + if lossless then 1 else 0

/-- The pages that a chain being filled has. -/
def fillingAt (k : Nat) (s : State) : List Nat := tabGet [] s.ink.filling k

/-- They are replaced. -/
def setFilling (k : Nat) (l : List Nat) (s : State) : State :=
  { s with ink := { s.ink with filling := tabPut [] s.ink.filling k l } }

/-- Pages taken for a frame: those its source already has first, the rest one by one. On a refusal, with its reason, a lossy frame's go
back, and a lossless one's stay with its source (R184). -/
def pagesOf (w : Waybill) (tc len : Nat) (lossless : Bool) (s : State) : Nat × List Nat × State :=
  let k := fillKey (frameSource w) lossless
  let have0 := fillingAt k s
  let need := pagesFor len
  if need ≤ have0.length then (0, have0.take need, freePages (have0.drop need) (setFilling k [] s))
  else
    let r := match setIdx w.src tc s with
      | none => (1, [], s)
      | some i => takePages w.src i (need - have0.length) s
    let all := have0 ++ r.2.1
    if r.1 = 0 then (0, all, setFilling k [] r.2.2)
    else if lossless then (r.1, [], setFilling k all r.2.2)
    else (r.1, [], freePages all (setFilling k [] r.2.2))

/-- The frames a source holds, oldest first (R184). -/
def holdsOf (k : Nat) (s : State) : List Held := tabGet [] s.ink.holds k

/-- They are replaced. -/
def setHolds (k : Nat) (l : List Held) (s : State) : State := { s with ink := { s.ink with holds := tabPut [] s.ink.holds k l } }

/-- A source has room for one more (R184): four frames of a tile or a port, four messages of each car link port, which `vid` names. The
outputs of items that run while the 64 places of the transcriber fill wait in their engines (R278; log entry 113). -/
def holdRoom (w : Waybill) (s : State) : Bool :=
  let l := holdsOf (frameSource w) s
  if frameSource w = 149 then true
  else (if frameSource w = 148 then (l.filter fun h => h.wb.vid = w.vid).length else l.length) < 4

/-- Lossless transcriber outputs that wait for pages, shown in TRN_OBUF (R278). -/
def obufShow (s : State) : State :=
  let n := ((holdsOf 149 s).filter fun h => h.wb.lossless).length
  setF TRN_OBUF_used (min n 64) (setB TRN_OBUF_stall (n ≥ 64) s)

/-- The class of a frame that asks for pages, and whether it is lossless (R183, R208, R209). -/
def frameClass (w : Waybill) (frame : List Byte) (s : State) : Nat × Bool :=
  if w.src ≥ 16 then (w.tc, w.lossless)
  else if (graphOf w s).stages.contains 1 then
    (classOf w.src frame s, isHierarchy w.src frame s && !classifyDrops w.src frame s)
  else ((graphOf w s).dtc, false)

/-- A frame with its pages goes on: into its graph, or, of the part's own frames whose destinations are decided (a transcriber output, a
delivered message, a frame of the hierarchy unit), to them (R67, R277, R378). -/
def enterHostel (w : Waybill) (frame : List Byte) (arriving : Bool) (pages : List Nat) (s : State) : State :=
  let w1 := { w with pages := pages, len := frame.length, data := [] }
  let t := storeFrame pages frame (linkPages pages s)
  if w.src = 18 || (w.src = 17 && w.tile ≥ 48) then replicate { wb := w1, frame := frame } none false false (ingressCopy w1 false t)
  else enterPipeline w1 frame arriving t

/-- A frame asks for its pages and goes on; a lossy one refused is dropped with its reason; a lossless one is held behind earlier ones of
its source, or counted with reason 4 (R184, R186). The transcriber's outputs keep their order, so a lossy one waits there too (R277). -/
def offerFrame (w : Waybill) (frame : List Byte) (arriving : Bool) (s : State) : State :=
  let w1 := { w with gen := getF IMG_RCFG_gen s }
  let c := frameClass w1 frame s
  let k := frameSource w1
  let hold (t : State) : State :=
    if holdRoom w1 t then
      obufShow (setHolds k (holdsOf k t ++ [⟨{ w1 with lossless := c.2, data := frame, len := frame.length }, arriving⟩]) t)
    else countDrop w.src 4 t
  if holdsOf k s ≠ [] && (c.2 || k = 149) then hold s
  else
    let r := pagesOf w1 c.1 frame.length c.2 s
    if r.1 = 0 then enterHostel w1 frame arriving r.2.1 r.2.2
    else if c.2 then hold r.2.2
    else countDrop w.src r.1 r.2.2

/-- A frame the part itself generates on port 17, its destinations decided: a transcriber output (R277, R278), or a delivered car link
message, whose port `vid` names (R67, R184). -/
def internalFrame (w : Waybill) (bytes : List Byte) (s : State) : State := offerFrame w bytes false s

/-- A frame of the hierarchy unit for one backbone port, class 7 and lossless (R183, R184, R378). -/
def unitFrame (w : Waybill) (bytes : List Byte) (s : State) : State := offerFrame w bytes false s

/-- A held frame tries again under the structure of its generation (R174): a lossy one that is refused now is dropped. -/
def enterHeld (h : Held) (s : State) : State :=
  underGen false h.wb.gen (fun s =>
    let r := pagesOf h.wb (frameClass h.wb h.wb.data s).1 h.wb.data.length h.wb.lossless s
    if r.1 = 0 then enterHostel h.wb h.wb.data h.arriving r.2.1 r.2.2 else countDrop h.wb.src r.1 r.2.2) s

/-- Lossy outputs that come to the front of a hold try at once. -/
def releaseLossy (k : Nat) : List Held → State → State
  | [], s => setHolds k [] s
  | h :: q, s => if h.wb.lossless then setHolds k (h :: q) s else releaseLossy k q (enterHeld h s)

/-- The oldest frame a source holds goes on once it has its pages (R184). -/
def retryHold (k : Nat) (s : State) : State :=
  match holdsOf k s with
  | [] => s
  | h :: q =>
    if (fillingAt (fillKey k true) s).length < pagesFor h.wb.len then s else obufShow (releaseLossy k q (enterHeld h s))

/-- The police stage of the part's own frames (R226, R277): the car link block's under graph 0 (log entry 100), an output's under its
record's graph. -/
def policeOwn (graph : Nat) (w : Waybill) (frame : List Byte) (s : State) : Option Waybill × State :=
  match graphRec graph s with
  | some g =>
    if g.stages.contains 3 then
      let r := police (g.polBase + 8 * (if w.lodger.isSome then 50 else 49) + w.tc) frame.length s
      match r.1 with
      | .drop => (none, swBump 17 cPoldrop 1 r.2)
      | .remark tc => (some { w with tc := tc }, r.2)
      | _ => (some w, r.2)
    else (some w, s)
  | none => (some w, s)

/-- A frame of the part's own on port 17 is counted, policed and offered. -/
def sendOwn (graph : Nat) (w : Waybill) (frame : List Byte) (s : State) : State :=
  match policeOwn graph w frame (swBump 17 cRxoct frame.length (swBump 17 cRxfrm 1 s)) with
  | (some w1, s1) => internalFrame w1 frame s1
  | (none, s1) => s1

/-- An inline Waybill of the part itself on its way to its destinations (R190). -/
def internalInline (w : Waybill) (s : State) : State :=
  applyAll (replicasOf w none false) (fun e => joinQueue e.1 e.2) (ingressCopy w false s)

/-- The stamp of a frame whose SFD passed a port's MAC at a time of the time base in ns (R321). -/
def rxStamp (p sfd : Nat) (s : State) : Nat := toStamp (if p < 12 then (sfd + timeWrap - getF (ETH_TSLAT_rx p) s) % timeWrap else sfd)

/-- The frame in progress of a port has been offered to the pipeline. -/
def setMet (p : Nat) (b : Bool) (s : State) : State :=
  { s with eth := { s.eth with met := if b then s.eth.met ||| 2 ^ p else natAndNot s.eth.met (2 ^ p) } }

/-- The first 64 bytes of a frame of a MAC port are in, and its stages run. -/
def ingressFrame (p : Nat) (frame : List Byte) (sfd : Nat) (s : State) : State :=
  offerFrame { src := p, time := rxStamp p sfd s } frame true s

/-- A held frame of a port whose end is still to come. -/
def arrivingHeld (p : Nat) (s : State) : Bool := (holdsOf p s).any (·.arriving)

/-- FRAME_INGRESS (R208): the first 64 bytes of a frame of a MAC port are in, and its stages run; its end is still to come. -/
def execFrameIngress (p : Nat) (frame : List Byte) (sfd : Nat) (s : State) : Out :=
  .next <| onlyIf (p < 16 && portUsed p s && portLink p s && serving s && (inflightOf p s).isNone && !arrivingHeld p s &&
      !s.eth.met.testBit p) (fun s =>
    setMet p true (ingressFrame p frame sfd s)) s

/-- A frame's charge made in advance is settled with its length at its end (R214). -/
def settleCharge (i : Inflight) (s : State) : State :=
  match i.policer with
  | some k => policeSettle k i.charged i.wb.len s
  | none => s

/-- The replicas in every class queue of a frame still in flight changed by a rule; nothing answered removes one, and it lets go of its
pages. -/
def mapQueued (pages : List Nat) (g : Replica → Option Replica) (s : State) : State :=
  applyAll (s.swc.queues.map (·.1)) (fun k t =>
    let q := queueAt k t
    let mine (r : Replica) : Bool := r.wb.pages == pages && !r.wb.inline && (r.cut || !r.whole)
    let gone := q.filter fun r => mine r && (g r).isNone
    applyAll gone dropReplica (setQueue k (q.filterMap fun r => if mine r then g r else some r) t)) s

/-- The frame of a port is whole in the Hostel: its policer is settled, replicas that stalled may go, and its waiting ones join their
queues, under the structure of its generation (R174). -/
def frameStored (p : Nat) (s : State) : State :=
  match inflightOf p s with
  | none => setHolds p ((holdsOf p s).map fun h => { h with arriving := false }) s
  | some i =>
    underGen false i.wb.gen (fun s =>
      applyAll i.waiting (fun e => joinQueue e.1 e.2)
        (mapQueued i.wb.pages (fun r => some { r with whole := true }) (settleCharge i (setInflight p none s)))) s

/-- FRAME_STORED (R213, R214, R216): the frame is whole in the Hostel and its FCS has passed. -/
def execFrameStored (p : Nat) (s : State) : Out := .next (frameStored p s)

/-- The replica a port is transmitting. -/
def sendingOf (p : Nat) (s : State) : Option Replica := (s.swc.sending.find? fun e => e.1 = p).map (·.2)

/-- The replica a port transmits set or cleared. -/
def setSending (p : Nat) (r : Option Replica) (s : State) : State :=
  { s with swc := { s.swc with sending :=
    match r with
    | some x => tabIns p x (tabDrop s.swc.sending p)
    | none => tabDrop s.swc.sending p } }

/-- A replica that a port has begun to send ends on the wire with an invalid FCS (R215). -/
def endSpoiled (q : Nat) (s : State) : State :=
  match sendingOf q s with
  | none => s
  | some r => emit (.note "frame spoiled" [q, r.wb.tc, r.wb.src] r.out) (dropReplica r (setSending q none (creditUpdate q s)))

/-- A frame in flight has replicas that a port is sending cut through. -/
def sendsOf (pages : List Nat) (s : State) : List Nat :=
  (s.swc.sending.filter fun e => e.2.cut && e.2.wb.pages == pages).map (·.1)

/-- Every port's credits and holds brought up to date. -/
def portsSettle (s : State) : State := applyAll (List.range 12) (fun q t => refreshHold q (creditUpdate q t)) s

/-- A frame of a port goes wrong: its charge is settled, its replicas and copies not yet started are discarded, those begun end with an
invalid FCS (R213, R214, R215). -/
def abandonFrame (p : Nat) (s : State) : State :=
  match inflightOf p s with
  | none =>
    let l := (holdsOf p s).filter fun h => !h.arriving
    let k := fillKey p true
    if l = [] then setHolds p [] (freePages (fillingAt k s) (setFilling k [] s)) else setHolds p l s
  | some i => underGen false i.wb.gen (fun s =>
    let s1 := portsSettle (mapQueued i.wb.pages (fun _ => none) (portsSettle (settleCharge i (setInflight p none s))))
    let s2 := applyAll i.waiting (fun e => dropReplica e.2) s1
    applyAll (sendsOf i.wb.pages s) (fun q t => swBump q cCtfcs 1 (endSpoiled q t)) s2) s

end Sys2Proof.Machine
end

