-- ==== Sys2Proof/Machine/Egress.lean ====
section
/-! DEFINITION. The egress side of the switch core: what goes on the wire, selection, shapers, gate lists, cut-through ends and
completion (R215 to R224, R228, R245, R322). -/

namespace Sys2Proof.Machine

/-! Bytes on the wire (R207, R209, R245). -/

/-- A VLAN tag for a frame. -/
def vlanTag (pcp vid : Nat) : List Byte := [0x81, 0x00] ++ beBytes 2 (pcp * 0x2000 + vid % 4096)

/-- The Ethernet frame that carries a tile frame (R245). -/
def encapsulate (p grp : Nat) (w : Waybill) (f : List Byte) (s : State) : List Byte :=
  let vid := getF FWT_ENCAP_vid s
  let da := leBytes 4 (getF FWT_ENCAPDA0_da s) ++ leBytes 1 (getF FWT_ENCAPDA1_da s) ++ leBytes 1 grp
  let sa := leBytes 4 (getF FWT_ENCAPSA0_sa s) ++ leBytes 2 (getF FWT_ENCAPSA1_sa s)
  let tag := if (vlanUntag vid s).testBit p then [] else vlanTag w.tc vid
  let fmt := if isCan w.tile s then tfFmt f else 3
  let h := tfId f + fmt * 2 ^ 29 + (if tfIde f then 2 ^ 31 else 0)
  let x := w.tile * 2 ^ 10 + (if tfBrs f then 2 ^ 9 else 0) + (if tfEsi f then 2 ^ 8 else 0) + (if tfRtr f then 2 ^ 7 else 0)
  da ++ sa ++ tag ++ beBytes 2 (getF FWT_ENCAP_etype s) ++ beBytes 4 h ++ beBytes 2 x ++ beBytes 2 (tfDlen f) ++
    leBytes 1 (tfSdt f) ++ leBytes 1 (tfVcid f) ++ [0, 0] ++ beBytes 4 (tfAf f) ++ tfData f

/-- The tile frame inside an encapsulating Ethernet frame (R245). -/
def decapsulate (f : List Byte) : List Byte :=
  let b := f.drop (etOff f + 2)
  let h := beNat (slice b 0 4)
  let x := beNat (slice b 4 2)
  let n := beNat (slice b 6 2)
  mkTileFrame (h % 2 ^ 29 + (if h.testBit 31 then 2 ^ 29 else 0) + (if x.testBit 7 then 2 ^ 30 else 0))
    (n % 4096 + bitsOf h 29 2 * 2 ^ 12 + (if x.testBit 9 then 2 ^ 14 else 0) + (if x.testBit 8 then 2 ^ 15 else 0))
    (leAt b 8 2) (beNat (slice b 12 4)) ((b.drop 16).take n)

/-- A frame with its VLAN tag added or removed as the VLAN table gives for a port (R209). -/
def retag (p : Nat) (w : Waybill) (f : List Byte) (s : State) : List Byte :=
  let bare := if isTagged f then f.take 12 ++ f.drop 16 else f
  if (vlanUntag w.vid s).testBit p then bare
  else
    let pcp := if isTagged f then tagPcp f else getF (SWC_PCFG_upcp w.src) s
    bare.take 12 ++ vlanTag pcp w.vid ++ bare.drop 12

/-- Padding to 64 bytes with FCS (R207). -/
def padFrame (f : List Byte) : List Byte := f ++ List.replicate (60 - f.length) 0

/-- What a replica puts on the wire of a port of 0 to 15, without FCS. -/
def wireBytes (p : Nat) (r : Replica) (s : State) : List Byte :=
  let f := wbBytes r.wb s
  match r.encap with
  | some g => padFrame (encapsulate p g r.wb f s)
  | none => padFrame (if r.wb.src = 17 || r.wb.src = 18 || r.wb.inline then f else retag p r.wb f s)

/-! Selection (R220, R224). -/

/-- A class is eligible at a port (R220). -/
def eligible (p c : Nat) (s : State) : Bool :=
  match headOf p c s with
  | none => false
  | some r =>
    r.whole && (gatesNow p s).testBit c && fits p c r s && (p ≥ 12 || getF (SWC_IDLESLOPE_kbps p c) s = 0 || decide (0 ≤ creditOf p c s))

/-- A gPTP event frame (R322). -/
def isPtpEvent (f : List Byte) : Bool := etherType f = 0x88F7 && ((f.getD (etOff f + 2) 0).toNat % 16) < 4

/-- An egress stamp placed in the port's FIFO, or counted lost (R322). -/
def ptpStamp (p : Nat) (f : List Byte) (s : State) : State :=
  let q := tabGet [] s.eth.txts p
  let o := etOff f + 2
  let t := nowNs s + getF (ETH_TSLAT_tx p) s
  if q.length ≥ 16 then incF (ETH_TXTSSTAT_lost p) 1 s
  else
    let st : TxStamp := ⟨t % 1000000000, t / 1000000000 % 2 ^ 32, beNat (slice f (o + 30) 2), (f.getD o 0).toNat % 16,
      (f.getD (o + 4) 0).toNat⟩
    setF (ETH_TXTSSTAT_fill p) (q.length + 1) { s with eth := { s.eth with txts := tabPut [] s.eth.txts p (q ++ [st]) } }

/-- A T1S port's chosen frame goes on the wire. -/
def putOnWire (p : Nat) (s : State) : State := { s with swc := { s.swc with onWire := s.swc.onWire ||| 2 ^ p } }

/-- A T1S port within a burst sends its next frame at once, when it begins within T1S_BURST.tmr bit times of the last one's end (R315). -/
def burstStart (p : Nat) (s : State) : State :=
  match s.eth.burst.find? fun b => b.1 = p with
  | some (_, (n, t)) =>
    if 12 ≤ p && p < 16 && n > 0 && t > 0 && nowNs s ≤ t + 100 * getF (T1S_BURST_tmr (p - 12)) s then
      putOnWire p { s with eth := { s.eth with burst := tabPut (0, 0) s.eth.burst p (n - 1, 0) } }
    else s
  | none => s

/-- EGRESS_SELECTION (R220): a free port of 0 to 15, 18 or 19 takes the head of its highest eligible class. -/
def execEgressSelection (p : Nat) (s : State) : Out :=
  .next <| onlyIf ((p < 16 && portLink p s || p = 18 || p = 19) && (sendingOf p s).isNone) (fun s =>
    let s1 := creditUpdate p s
    match (List.range 8).reverse.find? fun c => eligible p c s1 with
    | none => refreshHold p s1
    | some c =>
      let k := queueKey p 63 c
      match queueAt k s1 with
      | [] => s1
      | r :: q =>
        let out := if p < 16 then wireBytes p r s else wbBytes r.wb s
        let s2 := setSending p (some { r with out := out }) (setQueue k q s1)
        let s3 := if p < 12 && isPtpEvent out then ptpStamp p out s2 else s2
        refreshHold p (burstStart p s3)) s

/-- PLCA becomes active on T1S port p: its link is up (R316). -/
def plcaUp (p : Nat) (s : State) : State :=
  if isSet (T1S_STAT_active (p - 12)) s then s
  else raise 29 (setB (T1S_EVT_act (p - 12)) true (setB (T1S_STAT_active (p - 12)) true s))

/-- A unit's bit in three fields laid out as R337 gives: tiles 0 to 31, tiles 32 to 47, ports as units 48 to 63. -/
def unitBit (a bt bp : Fld) (u : Nat) (s : State) : Bool :=
  if u < 32 then (getF a s).testBit u else if u < 48 then (getF bt s).testBit (u - 32) else (getF bp s).testBit (u - 48)

/-- The unit is asleep. -/
def unitAsleep (u : Nat) (s : State) : Bool := unitBit WKS_ASLEEPA_t WKS_ASLEEPB_t WKS_ASLEEPB_p u s

/-- The unit is on its way to sleep. -/
def unitPending (u : Nat) (s : State) : Bool := unitBit WKS_PENDA_t WKS_PENDB_t WKS_PENDB_p u s

/-- A tile may begin a new frame: no delta quiesces it (R173), and it is not on its way to sleep (R338). -/
def mayBegin (n : Nat) (s : State) : Bool :=
  !(getF IMG_DLTSTAT_state s = 4 && s.loader.delta.banks.testBit (n / 8)) && !unitPending n s

/-- The mode of a port's binding record, 0 without one. -/
def portMode (p : Nat) (s : State) : Nat := ((bindOf p s).map (·.mode)).getD 0

/-- A bound port's supplies and clock stand (R106): the rail of its block, and the PLL of its lane group for SerDes modes. -/
def portPowered (p : Nat) (s : State) : Bool :=
  match portMode p s with
  | 4 => isSet SYS_RAILOK_io2 s
  | 5 => isSet SYS_RAILOK_t1s s
  | _ => isSet SYS_RAILOK_sds s && (getF CKR_STATUS_sdslock s).testBit (p / 4)

/-- The port runs: bound and in service, awake, supplied and not shed (R91, R106, R111, R338). -/
def portLive (p : Nat) (s : State) : Bool :=
  p < 16 && portUsed p s && serving s && mode s ≠ mStandby && portPowered p s && !unitAsleep (48 + p) s && !unitPending (48 + p) s &&
    !s.power.shedPorts.testBit p

/-- The coordinator sends its BEACON, which begins a cycle of plca_cnt opportunities of `to` bit times each (R315). -/
def beacon (p : Nat) (s : State) : State :=
  emit (.note "plca beacon" [p, getF (T1S_PLCACFG_cnt (p - 12)) s, getF (T1S_PLCACFG_to (p - 12)) s] []) (plcaUp p s)

/-- TRANSMIT_OPPORTUNITY (R207, R315, R316): a PLCA cycle begins, with the coordinator's BEACON that makes PLCA active, and the port's
own opportunity comes; its chosen frame goes on the wire, and a burst may follow it. -/
def execTransmitOpportunity (p : Nat) (s : State) : Out :=
  .next <| onlyIf (12 ≤ p && p < 16 && portLive p s) (fun s =>
    let s1 := if getF (T1S_PLCACFG_id (p - 12)) s = 0 then beacon p s else s
    if !isSet (T1S_STAT_active (p - 12)) s1 then s1
    else
      let s2 := { s1 with eth := { s1.eth with burst := tabPut (0, 0) s1.eth.burst p (getF (T1S_BURST_cnt (p - 12)) s1, 0) } }
      if (sendingOf p s2).isSome then putOnWire p s2 else s2) s

/-- PAGE_FREE (R187, R217): a port has read the last byte of a page of the replica it is sending; the page's count falls by one. A lossless
cut-through replica may still have to be sent again, so it keeps its pages until it ends (R215, log entry 98). -/
def execPageFree (p : Nat) (s : State) : Out :=
  .next <| match sendingOf p s with
    | none => s
    | some r =>
      if p = 19 || (r.cut && r.wb.lossless) then s
      else match (r.wb.pages.drop r.read).head? with
        | none => s
        | some g => setSending p (some { r with read := r.read + 1 }) (freePage g s)

/-- A frame that port 19 has sent re-enters ingress as port 19 (R228). -/
def recirculate (r : Replica) (s : State) : State :=
  let f := wbBytes r.wb s
  let w := { r.wb with src := 19, dmask := 0, dsub := [], vid := frameVid 19 f s, gen := getF IMG_RCFG_gen s }
  let g := graphOf w s
  let w1 := { w with graph := g.graph }
  runStages (g.stages.filter fun k => k ≠ 1) { wb := w1, frame := f } g false
    (ingressCopy w1 false (swBump 19 cRxoct f.length (swBump 19 cRxfrm 1 s)))

/-- A frame handed to the hierarchy unit (R209, R378). -/
def hieTake (p : Nat) (f : List Byte) (s : State) : State := { s with hie := { s.hie with rx := s.hie.rx ++ [(p, f)] } }

/-- A cut-through replica whose frame is still arriving. -/
def unfinished (r : Replica) (s : State) : Bool :=
  r.cut && (match inflightOf r.wb.src s with
    | some i => i.wb.pages == r.wb.pages
    | none => false)

/-- A replica passes SWC_MAXSDU on the wire of its port: it ends there with an invalid FCS, and the rest is discarded (R215). -/
def truncates (p : Nat) (r : Replica) (s : State) : Bool := r.cut && p < 12 && overSdu p (egressLen p r s) r.wb.tc s

/-- It ends. -/
def truncate (p : Nat) (s : State) : State := swBump p cSdutrunc 1 (endSpoiled p s)

/-- A replica that a port has sent to its end (R217, R221, R228): its pages lose its references, the counters count, port 18 hands it to the
hierarchy unit, and port 19 sends it round again. -/
def replicaSent (p : Nat) (r : Replica) (s : State) : State :=
  let s1 := swBump p cTxoct r.wb.len (swBump p cTxfrm 1 (setSending p none (creditUpdate p s)))
  let s2 := { s1 with swc := { s1.swc with onWire := natAndNot s1.swc.onWire (2 ^ p) } }
  if p = 19 then recirculate r s2
  else if p = 18 then
    if r.wb.src < 4 then hieTake r.wb.src r.out (dropReplica r s2)
    else { dropReplica r s2 with hie := { s2.hie with out := s2.hie.out ++ [BitVec.ofNat 8 r.wb.src :: r.out] } }
  else
    let s3 := emit (.note "frame" [p, r.wb.tc, r.wb.src] r.out) (dropReplica r s2)
    if p < 12 then ethCount p 7 s3
    else if p < 16 then
      ethCount p 7 { s3 with eth := { s3.eth with burst := s3.eth.burst.map fun b => if b.1 = p then (p, (b.2.1, nowNs s)) else b } }
    else s3

/-- A port's replica is complete, once its frame is whole; one that passed SWC_MAXSDU ended truncated instead (R215, R217). -/
def transmitDone (p : Nat) (s : State) : State :=
  match sendingOf p s with
    | none => s
    | some r =>
      if (12 ≤ p && p < 16 && !s.swc.onWire.testBit p) || unfinished r s then s
      else if truncates p r s then truncate p s
      else replicaSent p r s

/-! Cut-through ends (R215). -/

/-- CUT_THROUGH_END (R215): a started cut-through replica at a port goes wrong: 0 the ingress FCS failed, so the whole frame is abandoned; 1
it passed SWC_MAXSDU; 2 its lossless frame waits for a page and every byte written has been sent, so it is sent again once the frame is
whole. -/
def execCutThroughEnd (p why : Nat) (s : State) : Out :=
  .next <| match sendingOf p s with
    | none => s
    | some r =>
      if !r.cut || p ≥ 12 then s
      else if why = 1 then (if truncates p r s then truncate p s else s)
      else if !unfinished r s then s
      else if why = 0 then abandonFrame r.wb.src s
      else if why = 2 && r.wb.lossless then
        let s1 := emit (.note "frame spoiled" [p, r.wb.tc, r.wb.src] r.out) (setSending p none (creditUpdate p s))
        let k := queueKey p 63 r.wb.tc
        refreshHold p (swBump p cCtabort 1 (setQueue k ({ r with cut := false, whole := false, out := [] } :: queueAt k s1) s1))
      else s

/-! Gate list events. -/

/-- A gate cycle ends and the next begins: the whole-cycle count of every head that the gates hold rises (R224). -/
def countCycles (p : Nat) (s : State) : State :=
  applyAll ((List.range 8).filter fun c => (heldClasses p s).testBit c) (fun c t =>
    let k := queueKey p 63 c
    match queueAt k t with
    | [] => t
    | r :: q => setQueue k ({ r with cycles := r.cycles + 1 } :: q) t) s

/-- The gate states and entry in force shown. -/
def showGates (p : Nat) (s : State) : State :=
  setF (SWC_GSTAT_gates p) (gatesNow p s) (setF (SWC_GSTAT_entry p) (gateOf p s).idx s)

/-- GATE_ENTRY_CHANGE (R222): the next entry comes into force; at the list's end the next cycle begins, unless a change that is less
than SWC_GEXT away extends the cycle to it. -/
def execGateEntryChange (p : Nat) (s : State) : Out :=
  .next <| onlyIf (gatesOn p s) (fun s =>
    let s0 := creditUpdate p s
    let g := gateOf p s0
    let l := g.oper.run
    let e := l.getD g.idx (0xFF, 0)
    let t := g.since + e.2
    if g.idx + 1 < l.length then refreshHold p (showGates p (setGate p { g with idx := g.idx + 1, since := t } s0))
    else if g.admin.isSome && t < g.change && g.change - t < g.oper.ext then s0
    else refreshHold p (showGates p (setGate p { g with idx := 0, since := t } (countCycles p s0)))) s

/-- Operational entries shown in SWC_GOPR. -/
def showOper (p : Nat) (l : List (Nat × Nat)) (s : State) : State :=
  applyAll (List.range 64) (fun j t => setF (SWC_GOPR_entry p j)
    (match l[j]? with
      | some e => e.1 + e.2 / 8 * 256
      | none => 0) t) s

/-- GATE_CONFIG_CHANGE (R222): the admin list becomes the operational list at its change time. -/
def execGateConfigChange (p : Nat) (s : State) : Out :=
  .next <| match (gateOf p s).admin with
    | none => s
    | some a =>
      let g := gateOf p s
      let s1 := creditUpdate p s
      refreshHold p <| showGates p <| showOper p a.entries <| setB (SWC_GSTAT_pend p) false <|
        setGate p { oper := a, idx := 0, since := g.change } (countCycles p s1)

/-- The admin list of the committed registers of a port. -/
def adminList (p : Nat) (s : State) : GateList :=
  { entries := (List.range (getF (SWC_GLEN_n p) s)).map fun j => (getF (SWC_GADM_gates p j) s, getF (SWC_GADM_ivl p j) s * 8)
    base := getF (SWC_GBSEC_sec p) s * 1000000000 + getF (SWC_GBNS_ns p) s
    cycle := getF (SWC_GCYCLE_ns p) s, ext := getF (SWC_GEXT_ns p) s, en := isSet (SWC_GCTL_en p) s }

/-- The config change time of an admin list (R222). -/
def changeTime (a : GateList) (now : Nat) : Nat :=
  if a.base > now then a.base
  else a.base + (now + a.cycle - a.base + a.cycle - 1) / a.cycle * a.cycle

/-- A commit of gate registers of a port: the admin list awaits its change time, whether the list is enabled or not (R222). -/
def gateCommit (p : Nat) (s : State) : State :=
  let a := adminList p s
  refreshHold p <| showGates p <| setB (SWC_GSTAT_pend p) true <|
    setGate p { gateOf p s with admin := some a, change := changeTime a (nowNs s) } s

/-- The cycle in force at a port has run to its end. -/
def cycleOver (p : Nat) (s : State) : Bool :=
  let g := gateOf p s
  g.idx + 1 ≥ g.oper.run.length && nowNs s ≥ g.since + (g.oper.run.getD g.idx (0xFF, 0)).2

/-- The first whole gate cycle that began after a held head reached the head of its queue has ended (R224; log entry 109). -/
def holdOver (p c : Nat) (r : Replica) (s : State) : Bool :=
  r.cycles ≥ 2 || (r.cycles = 1 && (heldClasses p s).testBit c && cycleOver p s)

/-- GATE_HOLD_DISCARD (R224): the first whole cycle a held head has waited through has ended; it is discarded and event 30 raised. -/
def execGateHoldDiscard (p c : Nat) (s : State) : Out :=
  .next <| onlyIf (gatesOn p s && c < 8) (fun s =>
    let k := queueKey p 63 c
    match queueAt k s with
    | [] => s
    | r :: q =>
      if !holdOver p c r s then s
      else refreshHold p (creditUpdate p (raise 30 (incF (SWC_GATEDROP_cnt p) 1 (discard p cGatedrop r (setQueue k q (creditUpdate p s))))))) s

end Sys2Proof.Machine
end

