-- ==== Sys2Proof/Machine/RegTable.lean ====
section
/-! DEFINITION. The register tables as data for generic accesses: for every register its base address, its two index
dimensions (count and stride; count 1 where there is none) and its fields with access code (R6), legal values (R9; no range listed: every value) and reset value. -/

namespace Sys2Proof.Machine

/-- Access codes (R6): read-only, read-write, read-clears, write-1-clears, write-only, image-fixed, lease-governed, write-1-sets,
writable while the channel is stopped (spec/18), writable on a receive ring only, on a transmit ring only (spec/08). -/
inductive Acc where
  | ro | rw | rc | w1c | wo | imf | lk | w1s | rws | rwRecv | rwSend
deriving DecidableEq, Repr

/-- One field of a register: lowest bit, width, access, reset value, legal value ranges. -/
structure FieldDesc where
  lo : Nat
  width : Nat
  acc : Acc
  reset : Nat
  legal : List (Nat × Nat)
deriving DecidableEq, Repr

/-- One register of a table: name, first address, the two index dimensions and its fields. -/
structure RegDesc where
  name : String
  base : Nat
  n1 : Nat
  s1 : Nat
  n2 : Nat
  s2 : Nat
  fields : List FieldDesc
deriving DecidableEq, Repr

/-- LNK_ registers. -/
def regTableLNK : List RegDesc :=
  [ ⟨"LNK_WIRESTAT", 0x400B0100, 1, 0x10000000, 1, 0x10000000, [⟨0, 4, .ro, 0, []⟩, ⟨4, 4, .ro, 0, []⟩, ⟨8, 4, .ro, 0, []⟩, ⟨12, 4, .ro, 0, []⟩, ⟨16, 1, .ro, 0, []⟩]⟩,
    ⟨"LNK_WIREPOL", 0x400B0104, 1, 0x10000000, 1, 0x10000000, [⟨0, 4, .imf, 0, []⟩]⟩,
    ⟨"LNK_WIRESRC", 0x400B0108, 1, 0x10000000, 1, 0x10000000, [⟨0, 3, .imf, 5, []⟩, ⟨4, 3, .imf, 1, []⟩, ⟨8, 3, .imf, 1, []⟩, ⟨12, 3, .imf, 1, []⟩]⟩,
    ⟨"LNK_WIRESET", 0x400B010C, 1, 0x10000000, 1, 0x10000000, [⟨0, 4, .rw, 0, []⟩]⟩,
    ⟨"LNK_WIREMSG", 0x400B0110, 1, 0x10000000, 1, 0x10000000, [⟨0, 1, .imf, 0, []⟩, ⟨1, 1, .imf, 0, []⟩, ⟨2, 1, .imf, 0, []⟩, ⟨4, 3, .imf, 7, []⟩, ⟨8, 5, .imf, 0, []⟩]⟩,
    ⟨"LNK_WIREEVT", 0x400B0114, 1, 0x10000000, 1, 0x10000000, [⟨0, 4, .w1c, 0, []⟩, ⟨8, 1, .w1c, 0, []⟩]⟩,
    ⟨"LNK_WIRESEQ", 0x400B0118, 1, 0x10000000, 1, 0x10000000, [⟨0, 8, .ro, 0, []⟩, ⟨8, 8, .ro, 0, []⟩, ⟨16, 8, .ro, 0, []⟩, ⟨24, 8, .ro, 0, []⟩]⟩,
    ⟨"LNK_CFGSTATE", 0x400B011C, 1, 0x10000000, 1, 0x10000000, [⟨0, 3, .ro, 0, []⟩]⟩,
    ⟨"LNK_WIREORGA", 0x400B0120, 1, 0x10000000, 1, 0x10000000, [⟨0, 6, .ro, 63, []⟩, ⟨6, 6, .ro, 63, []⟩, ⟨12, 6, .ro, 63, []⟩, ⟨18, 6, .ro, 63, []⟩]⟩,
    ⟨"LNK_WIREORGB", 0x400B0124, 1, 0x10000000, 1, 0x10000000, [⟨0, 6, .ro, 63, []⟩, ⟨6, 6, .ro, 63, []⟩, ⟨12, 6, .ro, 63, []⟩, ⟨18, 6, .ro, 63, []⟩]⟩,
    ⟨"LNK_STATUS", 0x400B0000, 1, 0x10000000, 1, 0x10000000, [⟨0, 1, .ro, 0, []⟩, ⟨1, 2, .ro, 3, []⟩, ⟨3, 2, .ro, 3, []⟩, ⟨5, 1, .ro, 0, []⟩, ⟨6, 1, .ro, 0, []⟩, ⟨7, 1, .ro, 0, []⟩, ⟨8, 1, .ro, 0, []⟩, ⟨9, 1, .ro, 0, []⟩, ⟨10, 1, .ro, 0, []⟩, ⟨16, 6, .ro, 0, []⟩]⟩,
    ⟨"LNK_FCNT", 0x400B0004, 1, 0x10000000, 1, 0x10000000, [⟨0, 8, .ro, 0, []⟩, ⟨8, 8, .ro, 0, []⟩, ⟨16, 8, .ro, 0, []⟩, ⟨24, 8, .ro, 0, []⟩]⟩,
    ⟨"LNK_WIREDEB", 0x400B0008, 1, 0x10000000, 1, 0x10000000, [⟨0, 7, .imf, 10, []⟩]⟩,
    ⟨"LNK_ALARMSET0", 0x400B000C, 1, 0x10000000, 1, 0x10000000, [⟨0, 32, .rw, 0, []⟩]⟩,
    ⟨"LNK_ALARMSET1", 0x400B0010, 1, 0x10000000, 1, 0x10000000, [⟨0, 32, .rw, 0, []⟩]⟩,
    ⟨"LNK_ALARMRX0", 0x400B0014, 1, 0x10000000, 1, 0x10000000, [⟨0, 32, .ro, 0, []⟩]⟩,
    ⟨"LNK_ALARMRX1", 0x400B0018, 1, 0x10000000, 1, 0x10000000, [⟨0, 32, .ro, 0, []⟩]⟩,
    ⟨"LNK_ALARMMSK0", 0x400B001C, 1, 0x10000000, 1, 0x10000000, [⟨0, 32, .rw, 0, []⟩]⟩,
    ⟨"LNK_ALARMMSK1", 0x400B0020, 1, 0x10000000, 1, 0x10000000, [⟨0, 32, .rw, 0, []⟩]⟩,
    ⟨"LNK_EVT", 0x400B0024, 1, 0x10000000, 1, 0x10000000, [⟨0, 1, .w1c, 0, []⟩, ⟨1, 1, .w1c, 0, []⟩, ⟨2, 1, .w1c, 0, []⟩, ⟨3, 1, .w1c, 0, []⟩, ⟨4, 1, .w1c, 0, []⟩, ⟨5, 1, .w1c, 0, []⟩, ⟨6, 1, .w1c, 0, []⟩]⟩,
    ⟨"LNK_ERRA", 0x400B0030, 1, 0x10000000, 1, 0x10000000, [⟨0, 8, .rc, 0, []⟩, ⟨8, 8, .rc, 0, []⟩, ⟨16, 8, .rc, 0, []⟩, ⟨24, 8, .rc, 0, []⟩]⟩,
    ⟨"LNK_ERRB", 0x400B0034, 1, 0x10000000, 1, 0x10000000, [⟨0, 8, .rc, 0, []⟩, ⟨8, 8, .rc, 0, []⟩, ⟨16, 8, .rc, 0, []⟩, ⟨24, 8, .rc, 0, []⟩]⟩,
    ⟨"LNK_LOCKCNTA", 0x400B0038, 1, 0x10000000, 1, 0x10000000, [⟨0, 16, .ro, 0, []⟩, ⟨16, 16, .ro, 0, []⟩]⟩,
    ⟨"LNK_LOCKCNTB", 0x400B003C, 1, 0x10000000, 1, 0x10000000, [⟨0, 16, .ro, 0, []⟩, ⟨16, 16, .ro, 0, []⟩]⟩ ]

/-- LNK_ registers, continued. -/
def regTableLNK1 : List RegDesc :=
  [ ⟨"LNK_MSGCTL", 0x400B0040, 1, 0x10000000, 1, 0x10000000, [⟨0, 1, .imf, 0, []⟩, ⟨1, 3, .imf, 7, []⟩, ⟨8, 5, .imf, 0, []⟩]⟩,
    ⟨"LNK_MSGTXA", 0x400B0044, 1, 0x10000000, 1, 0x10000000, [⟨0, 6, .rw, 0, []⟩, ⟨8, 8, .rw, 0, [(0, 220)]⟩, ⟨16, 1, .w1s, 0, []⟩]⟩,
    ⟨"LNK_MSGTXB", 0x400B0048, 1, 0x10000000, 1, 0x10000000, [⟨0, 6, .rw, 0, []⟩, ⟨8, 8, .rw, 0, [(0, 220)]⟩, ⟨16, 1, .w1s, 0, []⟩]⟩,
    ⟨"LNK_TXBUFA", 0x400B0200, 1, 0x10000000, 55, 0x4, [⟨0, 32, .rw, 0, []⟩]⟩,
    ⟨"LNK_TXBUFB", 0x400B0300, 1, 0x10000000, 55, 0x4, [⟨0, 32, .rw, 0, []⟩]⟩ ]

/-- SYS_ registers. -/
def regTableSYS : List RegDesc :=
  [ ⟨"SYS_PARTID", 0x40000000, 1, 0x10000000, 1, 0x10000000, [⟨0, 32, .ro, 1216397477, []⟩]⟩,
    ⟨"SYS_REVID", 0x40000004, 1, 0x10000000, 1, 0x10000000, [⟨0, 4, .ro, 0, []⟩]⟩,
    ⟨"SYS_STRAP", 0x40000008, 1, 0x10000000, 1, 0x10000000, [⟨0, 2, .ro, 0, []⟩, ⟨2, 2, .ro, 0, []⟩, ⟨4, 1, .ro, 0, []⟩]⟩,
    ⟨"SYS_RSTCAUSE", 0x4000000C, 1, 0x10000000, 1, 0x10000000, [⟨0, 1, .w1c, 1, []⟩, ⟨1, 1, .w1c, 0, []⟩, ⟨2, 1, .w1c, 0, []⟩, ⟨3, 1, .w1c, 0, []⟩, ⟨4, 1, .w1c, 0, []⟩, ⟨5, 1, .w1c, 0, []⟩, ⟨6, 1, .w1c, 0, []⟩, ⟨7, 1, .w1c, 0, []⟩, ⟨8, 1, .w1c, 0, []⟩]⟩,
    ⟨"SYS_RSTCTL", 0x40000010, 1, 0x10000000, 1, 0x10000000, [⟨0, 2, .wo, 0, []⟩, ⟨16, 16, .wo, 0, []⟩]⟩,
    ⟨"SYS_RAILOK", 0x40000014, 1, 0x10000000, 1, 0x10000000, [⟨0, 1, .ro, 0, []⟩, ⟨1, 1, .ro, 0, []⟩, ⟨2, 1, .ro, 0, []⟩, ⟨3, 1, .ro, 0, []⟩, ⟨4, 6, .ro, 0, []⟩, ⟨10, 1, .ro, 0, []⟩, ⟨11, 1, .ro, 0, []⟩, ⟨12, 1, .ro, 0, []⟩, ⟨13, 1, .ro, 0, []⟩]⟩,
    ⟨"SYS_SUPPLY", 0x40000018, 1, 0x10000000, 1, 0x10000000, [⟨0, 1, .w1c, 0, []⟩, ⟨1, 1, .w1c, 0, []⟩, ⟨2, 1, .w1c, 0, []⟩, ⟨3, 1, .w1c, 0, []⟩, ⟨4, 1, .w1c, 0, []⟩, ⟨5, 1, .ro, 0, []⟩]⟩,
    ⟨"SYS_WDN_CTL", 0x40000020, 1, 0x10000000, 1, 0x10000000, [⟨0, 1, .w1s, 0, []⟩, ⟨16, 16, .rw, 1000, [(1, 65535)]⟩]⟩,
    ⟨"SYS_WDN_KICK", 0x40000024, 1, 0x10000000, 1, 0x10000000, [⟨0, 16, .wo, 0, []⟩]⟩,
    ⟨"SYS_WDN_STAT", 0x40000028, 1, 0x10000000, 1, 0x10000000, [⟨0, 1, .ro, 0, []⟩, ⟨16, 16, .ro, 0, []⟩]⟩,
    ⟨"SYS_WDS_CTL", 0x40000030, 1, 0x10000000, 1, 0x10000000, [⟨16, 16, .imf, 1000, []⟩]⟩,
    ⟨"SYS_WDS_KICK", 0x40000034, 1, 0x10000000, 1, 0x10000000, [⟨0, 16, .wo, 0, []⟩]⟩,
    ⟨"SYS_T_PLL", 0x40000040, 1, 0x10000000, 1, 0x10000000, [⟨0, 32, .ro, 0, []⟩]⟩,
    ⟨"SYS_T_LOAD", 0x40000044, 1, 0x10000000, 1, 0x10000000, [⟨0, 32, .ro, 0, []⟩]⟩,
    ⟨"SYS_T_SERVICE", 0x40000048, 1, 0x10000000, 1, 0x10000000, [⟨0, 32, .ro, 0, []⟩]⟩,
    ⟨"SYS_STARTUP", 0x4000004C, 1, 0x10000000, 1, 0x10000000, [⟨0, 6, .ro, 0, []⟩, ⟨8, 6, .ro, 0, []⟩, ⟨16, 1, .ro, 0, []⟩]⟩ ]

/-- CKR_ registers. -/
def regTableCKR : List RegDesc :=
  [ ⟨"CKR_STATUS", 0x40010000, 1, 0x10000000, 1, 0x10000000, [⟨0, 1, .ro, 0, []⟩, ⟨1, 1, .ro, 0, []⟩, ⟨2, 1, .ro, 0, []⟩, ⟨3, 1, .ro, 0, []⟩, ⟨4, 4, .ro, 0, []⟩, ⟨8, 1, .ro, 0, []⟩]⟩,
    ⟨"CKR_RUN", 0x40010004, 1, 0x10000000, 1, 0x10000000, [⟨0, 8, .ro, 0, []⟩]⟩,
    ⟨"CKR_SPIDIV", 0x40010008, 1, 0x10000000, 1, 0x10000000, [⟨0, 3, .imf, 0, []⟩]⟩,
    ⟨"CKR_LOCKLOSS", 0x4001000C, 1, 0x10000000, 1, 0x10000000, [⟨0, 16, .ro, 0, []⟩, ⟨16, 16, .ro, 0, []⟩]⟩,
    ⟨"CKR_EVT", 0x40010010, 1, 0x10000000, 1, 0x10000000, [⟨0, 1, .w1c, 0, []⟩, ⟨1, 4, .w1c, 0, []⟩, ⟨5, 1, .w1c, 0, []⟩, ⟨6, 1, .w1c, 0, []⟩]⟩ ]

/-- PWR_ registers. -/
def regTablePWR : List RegDesc :=
  [ ⟨"PWR_MODE", 0x40020000, 1, 0x10000000, 1, 0x10000000, [⟨0, 4, .ro, 2, []⟩, ⟨4, 4, .ro, 0, []⟩, ⟨8, 4, .ro, 0, []⟩]⟩,
    ⟨"PWR_MODEREQ", 0x40020004, 1, 0x10000000, 1, 0x10000000, [⟨0, 4, .wo, 0, [(0, 0), (8, 8)]⟩, ⟨16, 16, .wo, 0, []⟩]⟩,
    ⟨"PWR_STATUS", 0x40020008, 1, 0x10000000, 1, 0x10000000, [⟨0, 1, .ro, 0, []⟩, ⟨1, 3, .ro, 0, []⟩, ⟨4, 1, .w1c, 0, []⟩]⟩,
    ⟨"PWR_DEGRADE", 0x4002000C, 1, 0x10000000, 1, 0x10000000, [⟨0, 10, .ro, 0, []⟩]⟩,
    ⟨"PWR_DEGSEEN", 0x40020010, 1, 0x10000000, 1, 0x10000000, [⟨0, 10, .w1c, 0, []⟩]⟩,
    ⟨"PWR_READY", 0x40020014, 1, 0x10000000, 1, 0x10000000, [⟨0, 1, .wo, 0, []⟩, ⟨1, 1, .wo, 0, []⟩]⟩,
    ⟨"PWR_SHED", 0x40020018, 1, 0x10000000, 1, 0x10000000, [⟨0, 4, .imf, 0, []⟩, ⟨4, 4, .imf, 0, []⟩, ⟨8, 1, .imf, 0, []⟩, ⟨9, 1, .imf, 0, []⟩, ⟨16, 16, .imf, 100, []⟩]⟩,
    ⟨"PWR_BOOTTRY", 0x4002001C, 1, 0x10000000, 1, 0x10000000, [⟨0, 3, .ro, 0, []⟩]⟩ ]

/-- AON_ registers. -/
def regTableAON : List RegDesc :=
  [ ⟨"AON_STATUS", 0x40150000, 1, 0x10000000, 1, 0x10000000, [⟨0, 1, .w1c, 1, []⟩, ⟨1, 1, .ro, 0, []⟩]⟩,
    ⟨"AON_RTCLO", 0x40150004, 1, 0x10000000, 1, 0x10000000, [⟨0, 15, .ro, 0, []⟩]⟩,
    ⟨"AON_RTCHI", 0x40150008, 1, 0x10000000, 1, 0x10000000, [⟨0, 32, .ro, 0, []⟩]⟩,
    ⟨"AON_RTCSET", 0x4015000C, 1, 0x10000000, 1, 0x10000000, [⟨0, 32, .wo, 0, []⟩]⟩,
    ⟨"AON_RTCALM", 0x40150010, 1, 0x10000000, 1, 0x10000000, [⟨0, 32, .rw, 0, []⟩]⟩,
    ⟨"AON_ALMCTL", 0x40150014, 1, 0x10000000, 1, 0x10000000, [⟨0, 1, .rw, 0, []⟩, ⟨1, 1, .rw, 0, []⟩, ⟨2, 1, .rw, 0, []⟩, ⟨3, 1, .rw, 0, []⟩, ⟨4, 1, .rw, 0, []⟩, ⟨5, 1, .rw, 0, []⟩, ⟨6, 1, .rw, 1, []⟩]⟩,
    ⟨"AON_TAMPER", 0x40150018, 1, 0x10000000, 1, 0x10000000, [⟨0, 1, .w1c, 0, []⟩, ⟨1, 1, .ro, 0, []⟩]⟩,
    ⟨"AON_VBAT", 0x4015001C, 1, 0x10000000, 1, 0x10000000, [⟨0, 10, .ro, 0, []⟩, ⟨10, 1, .ro, 0, []⟩, ⟨16, 5, .rw, 25, [(22, 28)]⟩]⟩,
    ⟨"AON_PREQ", 0x40150020, 1, 0x10000000, 1, 0x10000000, [⟨0, 10, .rw, 60, [(1, 600)]⟩, ⟨16, 1, .rw, 0, []⟩, ⟨17, 1, .wo, 0, []⟩, ⟨18, 1, .ro, 0, []⟩]⟩,
    ⟨"AON_WAKECAUSE", 0x40150024, 1, 0x10000000, 1, 0x10000000, [⟨0, 1, .w1c, 0, []⟩, ⟨1, 1, .w1c, 0, []⟩, ⟨2, 1, .w1c, 0, []⟩, ⟨3, 1, .w1c, 0, []⟩, ⟨4, 1, .w1c, 0, []⟩, ⟨5, 1, .w1c, 0, []⟩, ⟨6, 1, .w1c, 0, []⟩, ⟨8, 3, .ro, 0, []⟩]⟩,
    ⟨"AON_LOGSTAT", 0x40150028, 1, 0x10000000, 1, 0x10000000, [⟨0, 5, .ro, 0, []⟩, ⟨8, 6, .ro, 0, []⟩, ⟨16, 8, .ro, 0, []⟩]⟩,
    ⟨"AON_LOGACK", 0x4015002C, 1, 0x10000000, 1, 0x10000000, [⟨0, 1, .wo, 0, []⟩]⟩,
    ⟨"AON_LOG", 0x40150100, 1, 0x10000000, 64, 0x4, [⟨0, 32, .ro, 0, []⟩]⟩ ]

/-- IMG_ registers. -/
def regTableIMG : List RegDesc :=
  [ ⟨"IMG_STATUS", 0x40050000, 1, 0x10000000, 1, 0x10000000, [⟨0, 8, .ro, 0, []⟩, ⟨8, 4, .ro, 0, []⟩, ⟨12, 1, .ro, 0, []⟩, ⟨13, 1, .ro, 0, []⟩, ⟨14, 1, .ro, 0, []⟩, ⟨16, 8, .ro, 0, []⟩]⟩,
    ⟨"IMG_DETAIL", 0x40050004, 1, 0x10000000, 1, 0x10000000, [⟨0, 16, .ro, 0, []⟩, ⟨16, 8, .ro, 0, []⟩]⟩,
    ⟨"IMG_CODE0", 0x40050008, 1, 0x10000000, 1, 0x10000000, [⟨0, 8, .ro, 0, []⟩]⟩,
    ⟨"IMG_PREV", 0x4005000C, 1, 0x10000000, 1, 0x10000000, [⟨0, 8, .ro, 0, []⟩]⟩,
    ⟨"IMG_ID", 0x40050010, 1, 0x10000000, 1, 0x10000000, [⟨0, 32, .imf, 0, []⟩]⟩,
    ⟨"IMG_VERSION", 0x40050014, 1, 0x10000000, 1, 0x10000000, [⟨0, 32, .imf, 0, []⟩]⟩,
    ⟨"IMG_SECVER", 0x40050018, 1, 0x10000000, 1, 0x10000000, [⟨0, 32, .imf, 0, []⟩]⟩,
    ⟨"IMG_LEN", 0x4005001C, 1, 0x10000000, 1, 0x10000000, [⟨0, 32, .imf, 0, []⟩]⟩,
    ⟨"IMG_CURDIG", 0x40050040, 1, 0x10000000, 12, 0x4, [⟨0, 32, .ro, 0, []⟩]⟩,
    ⟨"IMG_DLTCTL", 0x40050080, 1, 0x10000000, 1, 0x10000000, [⟨0, 2, .wo, 0, []⟩]⟩,
    ⟨"IMG_DLTSRC", 0x40050084, 1, 0x10000000, 1, 0x10000000, [⟨0, 32, .rw, 0, []⟩]⟩,
    ⟨"IMG_DLTOFF", 0x40050088, 1, 0x10000000, 1, 0x10000000, [⟨0, 21, .rw, 0, []⟩]⟩,
    ⟨"IMG_DLTLEN", 0x4005008C, 1, 0x10000000, 1, 0x10000000, [⟨0, 17, .rw, 0, [(1, 65536)]⟩]⟩,
    ⟨"IMG_DLTGO", 0x40050090, 1, 0x10000000, 1, 0x10000000, [⟨0, 1, .wo, 0, []⟩]⟩,
    ⟨"IMG_DLTSTAT", 0x40050094, 1, 0x10000000, 1, 0x10000000, [⟨0, 3, .ro, 0, []⟩, ⟨3, 1, .ro, 0, []⟩, ⟨4, 1, .w1c, 0, []⟩, ⟨8, 3, .ro, 0, []⟩, ⟨12, 3, .ro, 0, []⟩, ⟨16, 2, .ro, 0, []⟩]⟩,
    ⟨"IMG_DLTLEASE", 0x40050098, 1, 0x10000000, 1, 0x10000000, [⟨0, 16, .rw, 5000, [(100, 60000)]⟩]⟩,
    ⟨"IMG_DLTBLKS", 0x4005009C, 1, 0x10000000, 1, 0x10000000, [⟨0, 9, .ro, 0, []⟩, ⟨16, 8, .ro, 0, []⟩]⟩,
    ⟨"IMG_RCFG", 0x400500A0, 1, 0x10000000, 1, 0x10000000, [⟨0, 16, .ro, 0, []⟩, ⟨16, 1, .ro, 0, []⟩]⟩,
    ⟨"IMG_T_RCFG", 0x400500A4, 1, 0x10000000, 1, 0x10000000, [⟨0, 32, .ro, 0, []⟩]⟩,
    ⟨"IMG_DLTID", 0x400500A8, 1, 0x10000000, 1, 0x10000000, [⟨0, 32, .ro, 0, []⟩]⟩ ]

/-- FAB_ registers. -/
def regTableFAB : List RegDesc :=
  [ ⟨"FAB_FUNC", 0x40060000, 1, 0x10000000, 6, 0x4, [⟨0, 4, .imf, 0, []⟩, ⟨4, 4, .imf, 0, []⟩, ⟨8, 4, .imf, 0, []⟩, ⟨12, 4, .imf, 0, []⟩, ⟨16, 4, .imf, 0, []⟩, ⟨20, 4, .imf, 0, []⟩, ⟨24, 4, .imf, 0, []⟩, ⟨28, 4, .imf, 0, []⟩]⟩,
    ⟨"FAB_BANKV", 0x40060018, 1, 0x10000000, 1, 0x10000000, [⟨0, 6, .ro, 0, []⟩]⟩,
    ⟨"FAB_RUN0", 0x40060020, 1, 0x10000000, 1, 0x10000000, [⟨0, 32, .ro, 0, []⟩]⟩,
    ⟨"FAB_RUN1", 0x40060024, 1, 0x10000000, 1, 0x10000000, [⟨0, 16, .ro, 0, []⟩]⟩,
    ⟨"FAB_QUIET0", 0x40060028, 1, 0x10000000, 1, 0x10000000, [⟨0, 32, .ro, 0, []⟩]⟩,
    ⟨"FAB_QUIET1", 0x4006002C, 1, 0x10000000, 1, 0x10000000, [⟨0, 16, .ro, 0, []⟩]⟩,
    ⟨"FAB_TPIN", 0x40060100, 1, 0x10000000, 48, 0x4, [⟨0, 32, .imf, 4294967295, []⟩]⟩,
    ⟨"FAB_TCFG", 0x40060200, 1, 0x10000000, 48, 0x4, [⟨0, 8, .imf, 0, []⟩, ⟨8, 3, .imf, 0, []⟩, ⟨11, 1, .imf, 0, []⟩, ⟨16, 16, .imf, 65535, []⟩]⟩,
    ⟨"FAB_PRIOPEND0", 0x40060030, 1, 0x10000000, 1, 0x10000000, [⟨0, 32, .ro, 0, []⟩]⟩,
    ⟨"FAB_PRIOPEND1", 0x40060034, 1, 0x10000000, 1, 0x10000000, [⟨0, 16, .ro, 0, []⟩]⟩,
    ⟨"FAB_CANEVT0", 0x40060038, 1, 0x10000000, 1, 0x10000000, [⟨0, 32, .ro, 0, []⟩]⟩,
    ⟨"FAB_CANEVT1", 0x4006003C, 1, 0x10000000, 1, 0x10000000, [⟨0, 16, .ro, 0, []⟩]⟩,
    ⟨"FAB_SEREVT0", 0x40060040, 1, 0x10000000, 1, 0x10000000, [⟨0, 32, .ro, 0, []⟩]⟩,
    ⟨"FAB_SEREVT1", 0x40060044, 1, 0x10000000, 1, 0x10000000, [⟨0, 16, .ro, 0, []⟩]⟩ ]

/-- INK_ registers. -/
def regTableINK : List RegDesc :=
  [ ⟨"INK_POOLSIZE", 0x40040000, 1, 0x10000000, 1, 0x10000000, [⟨0, 16, .imf, 0, []⟩]⟩,
    ⟨"INK_POOLFREE", 0x40040004, 1, 0x10000000, 1, 0x10000000, [⟨0, 16, .ro, 0, []⟩]⟩,
    ⟨"INK_POOLMIN", 0x40040008, 1, 0x10000000, 1, 0x10000000, [⟨0, 16, .rc, 65535, []⟩]⟩,
    ⟨"INK_POOLLOW", 0x4004000C, 1, 0x10000000, 1, 0x10000000, [⟨0, 16, .rw, 1024, []⟩, ⟨16, 16, .rw, 2048, []⟩]⟩,
    ⟨"INK_ALLOCSTAT", 0x40040010, 1, 0x10000000, 1, 0x10000000, [⟨0, 1, .ro, 1, []⟩, ⟨1, 1, .ro, 0, []⟩, ⟨8, 5, .ro, 0, []⟩, ⟨16, 5, .ro, 0, []⟩]⟩,
    ⟨"INK_QSEL", 0x40040014, 1, 0x10000000, 1, 0x10000000, [⟨0, 5, .rw, 0, []⟩, ⟨8, 3, .rw, 0, []⟩]⟩,
    ⟨"INK_QINFO0", 0x40040018, 1, 0x10000000, 1, 0x10000000, [⟨0, 16, .ro, 0, []⟩, ⟨16, 16, .ro, 0, []⟩]⟩,
    ⟨"INK_QINFO1", 0x4004001C, 1, 0x10000000, 1, 0x10000000, [⟨0, 16, .ro, 0, []⟩, ⟨16, 16, .ro, 0, []⟩]⟩,
    ⟨"INK_WBFREE", 0x40040020, 1, 0x10000000, 1, 0x10000000, [⟨0, 17, .ro, 65536, []⟩]⟩,
    ⟨"INK_INLINE", 0x40040024, 1, 0x10000000, 1, 0x10000000, [⟨0, 11, .ro, 0, []⟩]⟩,
    ⟨"INK_PGREQ", 0x40040040, 1, 0x10000000, 1, 0x10000000, [⟨0, 9, .wo, 0, []⟩, ⟨9, 3, .wo, 0, []⟩]⟩,
    ⟨"INK_PGRESP", 0x40040044, 1, 0x10000000, 1, 0x10000000, [⟨0, 1, .ro, 0, []⟩, ⟨1, 1, .ro, 0, []⟩, ⟨2, 2, .ro, 0, []⟩, ⟨4, 10, .ro, 0, []⟩, ⟨16, 16, .ro, 0, []⟩]⟩,
    ⟨"INK_PGFREE", 0x40040048, 1, 0x10000000, 1, 0x10000000, [⟨0, 10, .wo, 0, []⟩]⟩,
    ⟨"INK_LSDUR", 0x4004004C, 1, 0x10000000, 1, 0x10000000, [⟨0, 16, .rw, 1000, [(1, 65535)]⟩, ⟨16, 16, .rw, 1000, [(1, 65535)]⟩]⟩,
    ⟨"INK_LSLOCK", 0x40040050, 1, 0x10000000, 1, 0x10000000, [⟨0, 16, .rw, 10, [(1, 1000)]⟩]⟩,
    ⟨"INK_LSSEL", 0x40040060, 1, 0x10000000, 1, 0x10000000, [⟨0, 10, .rw, 0, []⟩]⟩,
    ⟨"INK_LSINFO0", 0x40040064, 1, 0x10000000, 1, 0x10000000, [⟨0, 2, .ro, 0, []⟩, ⟨4, 4, .ro, 0, []⟩, ⟨8, 16, .ro, 0, []⟩]⟩,
    ⟨"INK_LSINFO1", 0x40040068, 1, 0x10000000, 1, 0x10000000, [⟨0, 16, .ro, 0, []⟩, ⟨16, 16, .ro, 0, []⟩]⟩,
    ⟨"INK_LSRENEW", 0x4004006C, 1, 0x10000000, 1, 0x10000000, [⟨0, 10, .wo, 0, []⟩]⟩,
    ⟨"INK_LSREL", 0x40040070, 1, 0x10000000, 1, 0x10000000, [⟨0, 10, .wo, 0, []⟩]⟩,
    ⟨"INK_LSCOUNT", 0x40040074, 1, 0x10000000, 1, 0x10000000, [⟨0, 11, .ro, 0, []⟩, ⟨16, 16, .ro, 0, []⟩]⟩,
    ⟨"INK_REVOKE", 0x40040080, 1, 0x10000000, 1, 0x10000000, [⟨0, 10, .wo, 0, []⟩, ⟨16, 1, .wo, 0, []⟩]⟩,
    ⟨"INK_REVSTAT", 0x40040084, 1, 0x10000000, 1, 0x10000000, [⟨0, 1, .w1c, 0, []⟩, ⟨1, 3, .ro, 0, []⟩]⟩,
    ⟨"INK_REVLOG0", 0x40040088, 1, 0x10000000, 1, 0x10000000, [⟨0, 16, .ro, 0, []⟩, ⟨16, 4, .ro, 0, []⟩]⟩ ]

/-- INK_ registers, continued. -/
def regTableINK1 : List RegDesc :=
  [ ⟨"INK_REVLOG1", 0x4004008C, 1, 0x10000000, 1, 0x10000000, [⟨0, 11, .ro, 0, []⟩, ⟨16, 16, .ro, 0, []⟩]⟩,
    ⟨"INK_LDGSEL", 0x400400C0, 1, 0x10000000, 1, 0x10000000, [⟨0, 8, .rw, 0, []⟩]⟩,
    ⟨"INK_LDGSTAT", 0x400400C4, 1, 0x10000000, 1, 0x10000000, [⟨0, 3, .ro, 0, []⟩, ⟨3, 1, .ro, 0, []⟩, ⟨4, 1, .ro, 0, []⟩, ⟨5, 1, .ro, 0, []⟩]⟩,
    ⟨"INK_LDGBUD", 0x400400C8, 1, 0x10000000, 1, 0x10000000, [⟨0, 32, .ro, 0, []⟩]⟩,
    ⟨"INK_LDGMISS", 0x400400CC, 1, 0x10000000, 1, 0x10000000, [⟨0, 16, .rc, 0, []⟩, ⟨16, 16, .rc, 0, []⟩]⟩,
    ⟨"INK_LDGOVR", 0x400400D0, 1, 0x10000000, 1, 0x10000000, [⟨0, 16, .rc, 0, []⟩, ⟨16, 16, .rc, 0, []⟩]⟩,
    ⟨"INK_LDGQ", 0x400400D4, 1, 0x10000000, 1, 0x10000000, [⟨0, 16, .ro, 0, []⟩]⟩,
    ⟨"INK_SCHED", 0x400400E0, 1, 0x10000000, 1, 0x10000000, [⟨0, 5, .ro, 0, []⟩, ⟨8, 6, .ro, 0, []⟩, ⟨16, 16, .ro, 0, []⟩]⟩,
    ⟨"INK_MISSLOG", 0x400400E4, 1, 0x10000000, 1, 0x10000000, [⟨0, 8, .ro, 0, []⟩]⟩,
    ⟨"INK_PAGECFG", 0x400400E8, 1, 0x10000000, 1, 0x10000000, [⟨0, 8, .rw, 16, []⟩]⟩,
    ⟨"INK_PAGESTAT", 0x400400EC, 1, 0x10000000, 1, 0x10000000, [⟨0, 16, .ro, 0, []⟩, ⟨16, 1, .w1c, 0, []⟩, ⟨24, 8, .rc, 0, []⟩]⟩,
    ⟨"INK_RESIDENT", 0x400400F0, 1, 0x10000000, 8, 0x4, [⟨0, 32, .ro, 0, []⟩]⟩,
    ⟨"INK_DROP", 0x40040400, 20, 0x20, 5, 0x4, [⟨0, 32, .rc, 0, []⟩]⟩ ]

/-- SWC_ registers. -/
def regTableSWC : List RegDesc :=
  [ ⟨"SWC_LOCK", 0x40070000, 1, 0x10000000, 1, 0x10000000, [⟨0, 1, .wo, 0, []⟩, ⟨1, 1, .ro, 0, []⟩, ⟨2, 1, .ro, 0, []⟩, ⟨4, 10, .ro, 0, []⟩]⟩,
    ⟨"SWC_CTPORT", 0x40070004, 1, 0x10000000, 1, 0x10000000, [⟨0, 12, .rw, 0, []⟩]⟩,
    ⟨"SWC_CTCLS", 0x40070008, 1, 0x10000000, 1, 0x10000000, [⟨0, 8, .rw, 0, []⟩]⟩,
    ⟨"SWC_MIRCTL", 0x4007000C, 1, 0x10000000, 1, 0x10000000, [⟨0, 5, .rw, 0, [(0, 15)]⟩, ⟨5, 3, .rw, 0, []⟩, ⟨8, 1, .rw, 0, []⟩]⟩,
    ⟨"SWC_MIRIN", 0x40070010, 1, 0x10000000, 1, 0x10000000, [⟨0, 20, .rw, 0, []⟩]⟩,
    ⟨"SWC_MIREG", 0x40070014, 1, 0x10000000, 1, 0x10000000, [⟨0, 20, .rw, 0, []⟩]⟩,
    ⟨"SWC_POLSTAT", 0x40070018, 1, 0x10000000, 1, 0x10000000, [⟨0, 12, .ro, 0, []⟩, ⟨16, 16, .rc, 0, []⟩]⟩,
    ⟨"SWC_SNAP", 0x4007001C, 1, 0x10000000, 1, 0x10000000, [⟨0, 5, .wo, 0, []⟩, ⟨8, 1, .wo, 0, []⟩]⟩,
    ⟨"SWC_SNAPSTAT", 0x40070020, 1, 0x10000000, 1, 0x10000000, [⟨0, 1, .ro, 0, []⟩, ⟨1, 5, .ro, 0, []⟩]⟩,
    ⟨"SWC_SNAPCNT", 0x40070040, 1, 0x10000000, 32, 0x4, [⟨0, 32, .ro, 0, []⟩]⟩,
    ⟨"SWC_VLSEL", 0x40070100, 1, 0x10000000, 1, 0x10000000, [⟨0, 12, .rw, 0, [(1, 4094)]⟩]⟩,
    ⟨"SWC_VLMEM", 0x40070104, 1, 0x10000000, 1, 0x10000000, [⟨0, 16, .lk, 0, []⟩, ⟨16, 16, .lk, 0, []⟩]⟩,
    ⟨"SWC_CBSEL", 0x40070140, 1, 0x10000000, 1, 0x10000000, [⟨0, 10, .rw, 0, []⟩]⟩,
    ⟨"SWC_CBCFG", 0x40070144, 1, 0x10000000, 1, 0x10000000, [⟨0, 6, .rw, 32, [(1, 32)]⟩, ⟨6, 1, .rw, 0, []⟩, ⟨7, 1, .rw, 0, []⟩, ⟨16, 16, .rw, 100, [(1, 65535)]⟩]⟩,
    ⟨"SWC_CBCNT", 0x40070148, 1, 0x10000000, 6, 0x4, [⟨0, 32, .rc, 0, []⟩]⟩,
    ⟨"SWC_CBRESETS", 0x40070160, 1, 0x10000000, 1, 0x10000000, [⟨0, 32, .rc, 0, []⟩]⟩,
    ⟨"SWC_RBASE", 0x40070800, 1, 0x10000000, 32, 0x20, [⟨0, 32, .rw, 0, []⟩]⟩,
    ⟨"SWC_RCFG", 0x40070804, 1, 0x10000000, 32, 0x20, [⟨0, 1, .rw, 0, []⟩, ⟨1, 1, .rw, 0, []⟩, ⟨2, 1, .rw, 0, []⟩, ⟨4, 4, .rw, 4, [(4, 12)]⟩, ⟨16, 16, .rw, 1024, []⟩]⟩,
    ⟨"SWC_RHEAD", 0x40070808, 1, 0x10000000, 32, 0x20, [⟨0, 12, .rwRecv, 0, []⟩]⟩,
    ⟨"SWC_RTAIL", 0x4007080C, 1, 0x10000000, 32, 0x20, [⟨0, 12, .rwSend, 0, []⟩]⟩,
    ⟨"SWC_RIRQ", 0x40070810, 1, 0x10000000, 32, 0x20, [⟨0, 8, .rw, 1, [(1, 255)]⟩, ⟨8, 10, .rw, 0, []⟩, ⟨18, 6, .rw, 0, []⟩, ⟨24, 1, .rw, 0, []⟩, ⟨25, 2, .rw, 0, []⟩]⟩,
    ⟨"SWC_RSTAT", 0x40070814, 1, 0x10000000, 32, 0x20, [⟨0, 16, .rc, 0, []⟩, ⟨16, 15, .rc, 0, []⟩, ⟨31, 1, .w1c, 0, []⟩]⟩,
    ⟨"SWC_PCFG", 0x40071000, 1, 0x10000000, 20, 0x400, [⟨0, 12, .rw, 1, [(1, 4094)]⟩, ⟨12, 2, .rw, 0, [(0, 2)]⟩, ⟨16, 3, .rw, 0, []⟩]⟩,
    ⟨"SWC_PCP2TC", 0x40071004, 1, 0x10000000, 20, 0x400, [⟨0, 3, .rw, 0, []⟩, ⟨3, 3, .rw, 1, []⟩, ⟨6, 3, .rw, 2, []⟩, ⟨9, 3, .rw, 3, []⟩, ⟨12, 3, .rw, 4, []⟩, ⟨15, 3, .rw, 5, []⟩, ⟨18, 3, .rw, 6, []⟩, ⟨21, 3, .rw, 7, []⟩]⟩ ]

/-- SWC_ registers, continued. -/
def regTableSWC1 : List RegDesc :=
  [ ⟨"SWC_GCTL", 0x40071008, 1, 0x10000000, 12, 0x400, [⟨0, 1, .lk, 0, []⟩]⟩,
    ⟨"SWC_GSTAT", 0x4007100C, 1, 0x10000000, 12, 0x400, [⟨0, 1, .ro, 0, []⟩, ⟨8, 8, .ro, 255, []⟩, ⟨16, 8, .ro, 0, []⟩, ⟨24, 6, .ro, 0, []⟩]⟩,
    ⟨"SWC_GBSEC", 0x40071010, 1, 0x10000000, 12, 0x400, [⟨0, 32, .lk, 0, []⟩]⟩,
    ⟨"SWC_GBNS", 0x40071014, 1, 0x10000000, 12, 0x400, [⟨0, 30, .lk, 0, [(0, 999999999)]⟩]⟩,
    ⟨"SWC_GCYCLE", 0x40071018, 1, 0x10000000, 12, 0x400, [⟨0, 30, .lk, 1000000, [(1000, 1000000000)]⟩]⟩,
    ⟨"SWC_GEXT", 0x4007101C, 1, 0x10000000, 12, 0x400, [⟨0, 30, .lk, 0, []⟩]⟩,
    ⟨"SWC_GLEN", 0x40071020, 1, 0x10000000, 12, 0x400, [⟨0, 7, .lk, 0, [(0, 64)]⟩]⟩,
    ⟨"SWC_GATEDROP", 0x40071024, 1, 0x10000000, 12, 0x400, [⟨0, 32, .rc, 0, []⟩]⟩,
    ⟨"SWC_MAXSDU", 0x40071040, 20, 0x400, 8, 0x4, [⟨0, 14, .rw, 0, []⟩]⟩,
    ⟨"SWC_IDLESLOPE", 0x40071060, 20, 0x400, 8, 0x4, [⟨0, 22, .lk, 0, []⟩]⟩,
    ⟨"SWC_QLIM", 0x40071080, 20, 0x400, 8, 0x4, [⟨0, 16, .rw, 4096, []⟩]⟩,
    ⟨"SWC_QDEPTH", 0x400710A0, 20, 0x400, 8, 0x4, [⟨0, 16, .ro, 0, []⟩, ⟨16, 16, .ro, 0, []⟩]⟩,
    ⟨"SWC_GADM", 0x40071100, 12, 0x400, 64, 0x4, [⟨0, 8, .lk, 255, []⟩, ⟨8, 24, .lk, 0, []⟩]⟩,
    ⟨"SWC_GOPR", 0x40071200, 12, 0x400, 64, 0x4, [⟨0, 32, .ro, 0, []⟩]⟩ ]

/-- FWT_ registers. -/
def regTableFWT : List RegDesc :=
  [ ⟨"FWT_LOCK", 0x40080000, 1, 0x10000000, 1, 0x10000000, [⟨0, 1, .wo, 0, []⟩, ⟨1, 1, .ro, 0, []⟩, ⟨2, 1, .ro, 0, []⟩, ⟨4, 10, .ro, 0, []⟩]⟩,
    ⟨"FWT_STAT", 0x40080004, 1, 0x10000000, 1, 0x10000000, [⟨0, 1, .ro, 0, []⟩, ⟨16, 7, .ro, 0, []⟩]⟩,
    ⟨"FWT_L2SEED", 0x40080010, 1, 0x10000000, 1, 0x4, [⟨0, 32, .ro, 4294967295, []⟩]⟩,
    ⟨"FWT_L2SEED", 0x40080014, 1, 0x10000000, 1, 0x4, [⟨0, 32, .ro, 1515870810, []⟩]⟩,
    ⟨"FWT_L2SEED", 0x40080018, 1, 0x10000000, 1, 0x4, [⟨0, 32, .ro, 3284386755, []⟩]⟩,
    ⟨"FWT_L2SEED", 0x4008001C, 1, 0x10000000, 1, 0x4, [⟨0, 32, .ro, 253635900, []⟩]⟩,
    ⟨"FWT_CRSEED", 0x40080020, 1, 0x10000000, 1, 0x4, [⟨0, 32, .ro, 4294967295, []⟩]⟩,
    ⟨"FWT_CRSEED", 0x40080024, 1, 0x10000000, 1, 0x4, [⟨0, 32, .ro, 1515870810, []⟩]⟩,
    ⟨"FWT_CRSEED", 0x40080028, 1, 0x10000000, 1, 0x4, [⟨0, 32, .ro, 3284386755, []⟩]⟩,
    ⟨"FWT_CRSEED", 0x4008002C, 1, 0x10000000, 1, 0x4, [⟨0, 32, .ro, 253635900, []⟩]⟩,
    ⟨"FWT_BANKMAP", 0x40080030, 1, 0x10000000, 1, 0x10000000, [⟨0, 3, .ro, 0, []⟩, ⟨4, 3, .ro, 1, []⟩, ⟨8, 3, .ro, 2, []⟩, ⟨12, 3, .ro, 3, []⟩, ⟨16, 3, .ro, 4, []⟩]⟩,
    ⟨"FWT_SHSEED", 0x40080034, 1, 0x10000000, 1, 0x10000000, [⟨0, 32, .rw, 0, []⟩]⟩,
    ⟨"FWT_RHCTL", 0x40080038, 1, 0x10000000, 1, 0x10000000, [⟨0, 2, .rw, 0, []⟩, ⟨8, 1, .wo, 0, []⟩, ⟨9, 1, .wo, 0, []⟩]⟩,
    ⟨"FWT_RHSTAT", 0x4008003C, 1, 0x10000000, 1, 0x10000000, [⟨0, 3, .ro, 0, []⟩, ⟨3, 1, .w1c, 0, []⟩, ⟨16, 16, .ro, 0, []⟩]⟩,
    ⟨"FWT_RHFAIL", 0x40080040, 1, 0x10000000, 1, 0x10000000, [⟨0, 16, .rc, 0, []⟩]⟩,
    ⟨"FWT_RHSWAP", 0x40080044, 1, 0x10000000, 1, 0x10000000, [⟨0, 1, .lk, 0, []⟩]⟩,
    ⟨"FWT_AGE", 0x40080050, 1, 0x10000000, 1, 0x10000000, [⟨0, 16, .rw, 300, []⟩]⟩,
    ⟨"FWT_LRNPORT", 0x40080054, 1, 0x10000000, 1, 0x10000000, [⟨0, 16, .rw, 65520, []⟩]⟩,
    ⟨"FWT_COUNT", 0x40080058, 1, 0x10000000, 1, 0x10000000, [⟨0, 18, .ro, 0, []⟩]⟩,
    ⟨"FWT_LRNCNT", 0x4008005C, 1, 0x10000000, 1, 0x10000000, [⟨0, 16, .rc, 0, []⟩, ⟨16, 16, .rc, 0, []⟩]⟩,
    ⟨"FWT_AGECNT", 0x40080060, 1, 0x10000000, 1, 0x10000000, [⟨0, 16, .rc, 0, []⟩, ⟨16, 16, .rc, 0, []⟩]⟩,
    ⟨"FWT_LRNSKIP", 0x40080064, 1, 0x10000000, 1, 0x10000000, [⟨0, 16, .rc, 0, []⟩]⟩,
    ⟨"FWT_INSKEY0", 0x40080070, 1, 0x10000000, 1, 0x10000000, [⟨0, 32, .ro, 0, []⟩]⟩,
    ⟨"FWT_INSKEY1", 0x40080074, 1, 0x10000000, 1, 0x10000000, [⟨0, 32, .ro, 0, []⟩]⟩ ]

/-- FWT_ registers, continued. -/
def regTableFWT1 : List RegDesc :=
  [ ⟨"FWT_INSSRC", 0x40080078, 1, 0x10000000, 1, 0x10000000, [⟨0, 3, .ro, 0, []⟩, ⟨4, 3, .ro, 0, []⟩]⟩,
    ⟨"FWT_INSCNT", 0x4008007C, 1, 0x10000000, 1, 0x10000000, [⟨0, 16, .rc, 0, []⟩]⟩,
    ⟨"FWT_INSBKT0", 0x40080080, 1, 0x10000000, 1, 0x10000000, [⟨0, 16, .ro, 0, []⟩, ⟨16, 16, .ro, 0, []⟩]⟩,
    ⟨"FWT_INSBKT1", 0x40080084, 1, 0x10000000, 1, 0x10000000, [⟨0, 16, .ro, 0, []⟩, ⟨16, 16, .ro, 0, []⟩]⟩,
    ⟨"FWT_PSRC", 0x400800A0, 1, 0x10000000, 1, 0x10000000, [⟨0, 32, .rw, 0, []⟩]⟩,
    ⟨"FWT_PCNT", 0x400800A4, 1, 0x10000000, 1, 0x10000000, [⟨0, 11, .rw, 0, [(1, 1024)]⟩]⟩,
    ⟨"FWT_PGO", 0x400800A8, 1, 0x10000000, 1, 0x10000000, [⟨0, 1, .wo, 0, []⟩]⟩,
    ⟨"FWT_PSTAT", 0x400800AC, 1, 0x10000000, 1, 0x10000000, [⟨0, 1, .ro, 0, []⟩, ⟨1, 1, .w1c, 0, []⟩, ⟨16, 11, .ro, 0, []⟩]⟩,
    ⟨"FWT_PFIRST", 0x400800B0, 1, 0x10000000, 1, 0x10000000, [⟨0, 11, .ro, 0, []⟩]⟩,
    ⟨"FWT_EPOCH", 0x400800C0, 1, 0x10000000, 1, 0x10000000, [⟨0, 32, .ro, 0, []⟩]⟩,
    ⟨"FWT_CVCFG", 0x400800C4, 1, 0x10000000, 1, 0x10000000, [⟨0, 16, .rw, 50, []⟩, ⟨16, 16, .rw, 1000, []⟩]⟩,
    ⟨"FWT_BBCFG", 0x400800C8, 1, 0x10000000, 1, 0x10000000, [⟨0, 2, .rw, 0, []⟩, ⟨4, 2, .rw, 1, []⟩]⟩,
    ⟨"FWT_CVQ", 0x400800CC, 1, 0x10000000, 1, 0x10000000, [⟨0, 10, .ro, 0, []⟩, ⟨16, 5, .ro, 0, []⟩]⟩,
    ⟨"FWT_CVCNT", 0x400800D0, 1, 0x10000000, 7, 0x4, [⟨0, 32, .rc, 0, []⟩]⟩,
    ⟨"FWT_ENCAP", 0x40080100, 1, 0x10000000, 1, 0x10000000, [⟨0, 16, .rw, 34998, []⟩, ⟨16, 12, .rw, 1, [(1, 4094)]⟩]⟩,
    ⟨"FWT_ENCAPDA0", 0x40080104, 1, 0x10000000, 1, 0x10000000, [⟨0, 32, .rw, 2152202243, []⟩]⟩,
    ⟨"FWT_ENCAPDA1", 0x40080108, 1, 0x10000000, 1, 0x10000000, [⟨0, 8, .rw, 0, []⟩]⟩,
    ⟨"FWT_ENCAPSA0", 0x4008010C, 1, 0x10000000, 1, 0x10000000, [⟨0, 32, .rw, 0, []⟩]⟩,
    ⟨"FWT_ENCAPSA1", 0x40080110, 1, 0x10000000, 1, 0x10000000, [⟨0, 16, .rw, 0, []⟩]⟩,
    ⟨"FWT_TBASE", 0x40080140, 1, 0x10000000, 5, 0x4, [⟨0, 32, .imf, 0, []⟩]⟩,
    ⟨"FWT_TENT", 0x40080160, 1, 0x10000000, 5, 0x4, [⟨0, 18, .imf, 0, []⟩, ⟨18, 1, .imf, 0, []⟩, ⟨19, 1, .imf, 0, []⟩]⟩ ]

/-- TRN_ registers. -/
def regTableTRN : List RegDesc :=
  [ ⟨"TRN_LSEL", 0x40090000, 1, 0x10000000, 1, 0x10000000, [⟨0, 8, .rw, 0, []⟩]⟩,
    ⟨"TRN_LINFO", 0x40090004, 1, 0x10000000, 1, 0x10000000, [⟨0, 9, .imf, 0, []⟩, ⟨16, 9, .imf, 0, []⟩]⟩,
    ⟨"TRN_RXCNT", 0x40090008, 1, 0x10000000, 1, 0x10000000, [⟨0, 32, .rc, 0, []⟩]⟩,
    ⟨"TRN_TXCNT", 0x4009000C, 1, 0x10000000, 1, 0x10000000, [⟨0, 32, .rc, 0, []⟩]⟩,
    ⟨"TRN_NOMATCH", 0x40090010, 1, 0x10000000, 1, 0x10000000, [⟨0, 16, .rc, 0, []⟩, ⟨16, 16, .rc, 0, []⟩]⟩,
    ⟨"TRN_SATCNT", 0x40090014, 1, 0x10000000, 1, 0x10000000, [⟨0, 16, .rc, 0, []⟩, ⟨16, 16, .rc, 0, []⟩]⟩,
    ⟨"TRN_TMOCNT", 0x40090018, 1, 0x10000000, 1, 0x10000000, [⟨0, 16, .rc, 0, []⟩, ⟨16, 16, .rc, 0, []⟩]⟩,
    ⟨"TRN_LATECNT", 0x4009001C, 1, 0x10000000, 1, 0x10000000, [⟨0, 16, .rc, 0, []⟩, ⟨16, 16, .rc, 0, []⟩]⟩,
    ⟨"TRN_DEFCNT", 0x40090020, 1, 0x10000000, 1, 0x10000000, [⟨0, 16, .rc, 0, []⟩, ⟨16, 16, .rc, 0, []⟩]⟩,
    ⟨"TRN_SIGSEL", 0x40090040, 1, 0x10000000, 1, 0x10000000, [⟨0, 16, .rw, 0, []⟩]⟩,
    ⟨"TRN_SIGVAL", 0x40090044, 1, 0x10000000, 1, 0x10000000, [⟨0, 32, .ro, 0, []⟩]⟩,
    ⟨"TRN_SIGST", 0x40090048, 1, 0x10000000, 1, 0x10000000, [⟨0, 3, .ro, 0, []⟩, ⟨3, 1, .ro, 0, []⟩, ⟨16, 16, .ro, 0, []⟩]⟩,
    ⟨"TRN_OBUF", 0x40090060, 1, 0x10000000, 1, 0x10000000, [⟨0, 7, .ro, 0, []⟩, ⟨16, 1, .ro, 0, []⟩]⟩,
    ⟨"TRN_IDX", 0x40090064, 1, 0x10000000, 1, 0x10000000, [⟨0, 14, .imf, 0, []⟩, ⟨16, 15, .imf, 0, []⟩]⟩ ]

/-- CAN_ registers. -/
def regTableCAN : List RegDesc :=
  [ ⟨"CAN_CTL", 0x40200000, 1, 0x10000000, 48, 0x1000, [⟨0, 1, .wo, 0, []⟩, ⟨1, 1, .wo, 0, []⟩, ⟨2, 1, .wo, 0, []⟩]⟩,
    ⟨"CAN_STAT", 0x40200004, 1, 0x10000000, 48, 0x1000, [⟨0, 4, .ro, 0, []⟩, ⟨4, 1, .ro, 0, []⟩, ⟨5, 1, .ro, 0, []⟩, ⟨6, 1, .ro, 0, []⟩]⟩,
    ⟨"CAN_CFG", 0x40200008, 1, 0x10000000, 48, 0x1000, [⟨0, 1, .rw, 1, []⟩, ⟨1, 1, .rw, 1, []⟩, ⟨2, 1, .rw, 1, []⟩, ⟨3, 1, .rw, 0, []⟩, ⟨4, 1, .rw, 1, []⟩, ⟨5, 1, .rw, 0, []⟩, ⟨6, 2, .rw, 0, []⟩, ⟨8, 1, .rw, 0, []⟩, ⟨9, 1, .rw, 0, []⟩, ⟨16, 16, .rw, 100, []⟩]⟩,
    ⟨"CAN_NBT", 0x4020000C, 1, 0x10000000, 48, 0x1000, [⟨0, 8, .rw, 0, []⟩, ⟨8, 8, .rw, 126, []⟩, ⟨16, 7, .rw, 31, []⟩, ⟨24, 7, .rw, 31, []⟩]⟩,
    ⟨"CAN_DBT", 0x40200010, 1, 0x10000000, 48, 0x1000, [⟨0, 5, .rw, 0, []⟩, ⟨8, 5, .rw, 30, []⟩, ⟨16, 4, .rw, 7, []⟩, ⟨24, 4, .rw, 7, []⟩, ⟨28, 1, .rw, 0, []⟩]⟩,
    ⟨"CAN_XBT", 0x40200014, 1, 0x10000000, 48, 0x1000, [⟨0, 5, .rw, 0, []⟩, ⟨8, 5, .rw, 1, []⟩, ⟨16, 4, .rw, 0, []⟩, ⟨24, 4, .rw, 0, []⟩, ⟨28, 1, .rw, 0, []⟩]⟩,
    ⟨"CAN_TDC", 0x40200018, 1, 0x10000000, 48, 0x1000, [⟨0, 7, .rw, 0, []⟩, ⟨8, 7, .ro, 0, []⟩]⟩,
    ⟨"CAN_PINCFG", 0x4020001C, 1, 0x10000000, 48, 0x1000, [⟨0, 1, .rw, 0, []⟩, ⟨1, 1, .rw, 0, []⟩]⟩,
    ⟨"CAN_ERR", 0x40200020, 1, 0x10000000, 48, 0x1000, [⟨0, 9, .ro, 0, []⟩, ⟨16, 9, .ro, 0, []⟩]⟩,
    ⟨"CAN_LEC", 0x40200024, 1, 0x10000000, 48, 0x1000, [⟨0, 3, .ro, 0, []⟩, ⟨3, 1, .ro, 0, []⟩]⟩,
    ⟨"CAN_PERR", 0x40200028, 1, 0x10000000, 48, 0x1000, [⟨0, 16, .rc, 0, []⟩, ⟨16, 16, .rc, 0, []⟩]⟩,
    ⟨"CAN_EVT", 0x40200030, 1, 0x10000000, 48, 0x1000, [⟨0, 1, .w1c, 0, []⟩, ⟨1, 1, .w1c, 0, []⟩, ⟨2, 1, .w1c, 0, []⟩, ⟨3, 1, .w1c, 0, []⟩, ⟨4, 1, .w1c, 0, []⟩, ⟨5, 1, .w1c, 0, []⟩, ⟨6, 1, .w1c, 0, []⟩, ⟨7, 1, .w1c, 0, []⟩, ⟨8, 1, .w1c, 0, []⟩, ⟨9, 1, .w1c, 0, []⟩, ⟨10, 1, .w1c, 0, []⟩]⟩,
    ⟨"CAN_EVTEN", 0x40200034, 1, 0x10000000, 48, 0x1000, [⟨0, 11, .rw, 0, []⟩]⟩,
    ⟨"CAN_RXSTAT", 0x40200040, 1, 0x10000000, 48, 0x1000, [⟨0, 6, .ro, 0, []⟩, ⟨8, 7, .ro, 0, []⟩, ⟨16, 7, .ro, 0, []⟩, ⟨24, 7, .ro, 0, []⟩]⟩,
    ⟨"CAN_RXREL", 0x40200044, 1, 0x10000000, 48, 0x1000, [⟨0, 6, .wo, 0, []⟩]⟩,
    ⟨"CAN_RXOVR", 0x40200048, 1, 0x10000000, 48, 0x1000, [⟨0, 16, .rc, 0, []⟩, ⟨16, 16, .rc, 0, []⟩]⟩,
    ⟨"CAN_RXCNT", 0x4020004C, 1, 0x10000000, 48, 0x1000, [⟨0, 32, .rc, 0, []⟩]⟩,
    ⟨"CAN_RXREJ", 0x40200050, 1, 0x10000000, 48, 0x1000, [⟨0, 32, .rc, 0, []⟩]⟩,
    ⟨"CAN_PRIOSTAT", 0x40200060, 1, 0x10000000, 48, 0x1000, [⟨0, 1, .ro, 0, []⟩, ⟨1, 1, .ro, 0, []⟩, ⟨2, 1, .ro, 0, []⟩, ⟨16, 16, .rc, 0, []⟩]⟩,
    ⟨"CAN_PRIOREL", 0x40200064, 1, 0x10000000, 48, 0x1000, [⟨0, 1, .wo, 0, []⟩]⟩,
    ⟨"CAN_TXCFG", 0x40200070, 1, 0x10000000, 48, 0x1000, [⟨0, 5, .rw, 8, [(0, 16)]⟩, ⟨8, 8, .rw, 204, []⟩]⟩,
    ⟨"CAN_TXREQ", 0x40200074, 1, 0x10000000, 48, 0x1000, [⟨0, 16, .w1s, 0, []⟩]⟩,
    ⟨"CAN_TXCAN", 0x40200078, 1, 0x10000000, 48, 0x1000, [⟨0, 16, .w1s, 0, []⟩]⟩,
    ⟨"CAN_TXDONE", 0x4020007C, 1, 0x10000000, 48, 0x1000, [⟨0, 16, .w1c, 0, []⟩]⟩ ]

/-- CAN_ registers, continued. -/
def regTableCAN1 : List RegDesc :=
  [ ⟨"CAN_TXCANCELLED", 0x40200080, 1, 0x10000000, 48, 0x1000, [⟨0, 16, .w1c, 0, []⟩]⟩,
    ⟨"CAN_TXCNT", 0x40200084, 1, 0x10000000, 48, 0x1000, [⟨0, 32, .rc, 0, []⟩]⟩,
    ⟨"CAN_TXDROP", 0x40200088, 1, 0x10000000, 48, 0x1000, [⟨0, 10, .rc, 0, []⟩, ⟨10, 10, .rc, 0, []⟩, ⟨20, 10, .rc, 0, []⟩]⟩,
    ⟨"CAN_AUTHOK", 0x40200090, 1, 0x10000000, 48, 0x1000, [⟨0, 32, .rc, 0, []⟩]⟩,
    ⟨"CAN_AUTHFAIL", 0x40200094, 1, 0x10000000, 48, 0x1000, [⟨0, 16, .rc, 0, []⟩, ⟨16, 16, .rc, 0, []⟩]⟩,
    ⟨"CAN_AUTHNOKEY", 0x40200098, 1, 0x10000000, 48, 0x1000, [⟨0, 16, .rc, 0, []⟩]⟩,
    ⟨"CAN_FLTID", 0x40200200, 48, 0x1000, 32, 0x10, [⟨0, 29, .rw, 0, []⟩, ⟨29, 1, .rw, 0, []⟩]⟩,
    ⟨"CAN_FLTMSK", 0x40200204, 48, 0x1000, 32, 0x10, [⟨0, 29, .rw, 0, []⟩, ⟨29, 1, .rw, 0, []⟩]⟩,
    ⟨"CAN_FLTCFG", 0x40200208, 48, 0x1000, 32, 0x10, [⟨0, 3, .rw, 0, [(0, 5)]⟩, ⟨3, 1, .rw, 0, []⟩, ⟨4, 2, .rw, 0, []⟩, ⟨6, 1, .rw, 0, []⟩, ⟨8, 3, .rw, 0, []⟩, ⟨11, 1, .rw, 0, []⟩]⟩,
    ⟨"CAN_FLTXL", 0x4020020C, 48, 0x1000, 32, 0x10, [⟨0, 8, .rw, 0, []⟩, ⟨8, 8, .rw, 0, []⟩, ⟨16, 8, .rw, 0, []⟩, ⟨24, 8, .rw, 0, []⟩]⟩,
    ⟨"CAN_AUID", 0x40200400, 48, 0x1000, 16, 0x20, [⟨0, 29, .rw, 0, []⟩, ⟨29, 1, .rw, 0, []⟩, ⟨30, 1, .rw, 0, []⟩]⟩,
    ⟨"CAN_AUCFG", 0x40200404, 48, 0x1000, 16, 0x20, [⟨0, 3, .rw, 0, []⟩, ⟨4, 4, .rw, 0, [(0, 4)]⟩, ⟨8, 5, .rw, 4, [(1, 16)]⟩]⟩,
    ⟨"CAN_AUDID", 0x40200408, 48, 0x1000, 16, 0x20, [⟨0, 32, .rw, 0, []⟩]⟩,
    ⟨"CAN_AUWIN", 0x4020040C, 48, 0x1000, 16, 0x20, [⟨0, 16, .rw, 16, [(1, 65535)]⟩]⟩,
    ⟨"CAN_AUFVLO", 0x40200410, 48, 0x1000, 16, 0x20, [⟨0, 32, .rw, 0, []⟩]⟩,
    ⟨"CAN_AUFVHI", 0x40200414, 48, 0x1000, 16, 0x20, [⟨0, 32, .rw, 0, []⟩]⟩ ]

/-- ETH_ registers. -/
def regTableETH : List RegDesc :=
  [ ⟨"ETH_CFG", 0x40400000, 1, 0x10000000, 16, 0x1000, [⟨0, 3, .imf, 0, []⟩, ⟨3, 1, .rw, 1, []⟩, ⟨4, 1, .rw, 1, []⟩, ⟨8, 8, .rw, 10, []⟩, ⟨16, 14, .rw, 1522, [(64, 9022)]⟩]⟩,
    ⟨"ETH_FORCE", 0x40400004, 1, 0x10000000, 16, 0x1000, [⟨0, 1, .rw, 0, []⟩, ⟨1, 2, .rw, 2, [(0, 2)]⟩]⟩,
    ⟨"ETH_STAT", 0x40400008, 1, 0x10000000, 16, 0x1000, [⟨0, 1, .ro, 0, []⟩, ⟨1, 2, .ro, 0, []⟩, ⟨3, 1, .ro, 0, []⟩, ⟨4, 1, .ro, 0, []⟩]⟩,
    ⟨"ETH_EVT", 0x4040000C, 1, 0x10000000, 16, 0x1000, [⟨0, 1, .w1c, 0, []⟩, ⟨1, 1, .w1c, 0, []⟩, ⟨2, 1, .w1c, 0, []⟩]⟩,
    ⟨"ETH_RGMII", 0x40400010, 1, 0x10000000, 16, 0x1000, [⟨0, 4, .rw, 0, []⟩, ⟨4, 4, .rw, 0, []⟩]⟩,
    ⟨"ETH_TSLAT", 0x40400014, 1, 0x10000000, 16, 0x1000, [⟨0, 10, .rw, 0, []⟩, ⟨16, 10, .rw, 0, []⟩]⟩,
    ⟨"ETH_ERRMSK", 0x40400018, 1, 0x10000000, 16, 0x1000, [⟨0, 10, .rw, 0, []⟩]⟩,
    ⟨"ETH_TXTS0", 0x40400020, 1, 0x10000000, 16, 0x1000, [⟨0, 30, .ro, 0, []⟩, ⟨31, 1, .ro, 0, []⟩]⟩,
    ⟨"ETH_TXTS1", 0x40400024, 1, 0x10000000, 16, 0x1000, [⟨0, 32, .ro, 0, []⟩]⟩,
    ⟨"ETH_TXTS2", 0x40400028, 1, 0x10000000, 16, 0x1000, [⟨0, 16, .ro, 0, []⟩, ⟨16, 4, .ro, 0, []⟩, ⟨20, 8, .ro, 0, []⟩]⟩,
    ⟨"ETH_TXTSSTAT", 0x4040002C, 1, 0x10000000, 16, 0x1000, [⟨0, 5, .ro, 0, []⟩, ⟨16, 16, .rc, 0, []⟩]⟩,
    ⟨"ETH_MDIOCMD", 0x40400040, 1, 0x10000000, 16, 0x1000, [⟨0, 16, .wo, 0, []⟩, ⟨16, 5, .wo, 0, []⟩, ⟨21, 5, .wo, 0, []⟩, ⟨26, 3, .wo, 0, [(0, 4)]⟩]⟩,
    ⟨"ETH_MDIOSTAT", 0x40400044, 1, 0x10000000, 16, 0x1000, [⟨0, 16, .ro, 0, []⟩, ⟨16, 1, .ro, 0, []⟩]⟩,
    ⟨"ETH_MDIOCFG", 0x40400048, 1, 0x10000000, 16, 0x1000, [⟨0, 8, .rw, 50, [(50, 255)]⟩]⟩,
    ⟨"ETH_CNT", 0x40400100, 16, 0x1000, 10, 0x4, [⟨0, 32, .rc, 0, []⟩]⟩ ]

/-- T1S_ registers. -/
def regTableT1S : List RegDesc :=
  [ ⟨"T1S_PLCACFG", 0x4040C200, 1, 0x10000000, 4, 0x1000, [⟨0, 5, .imf, 0, []⟩, ⟨8, 6, .imf, 0, []⟩, ⟨16, 8, .rw, 32, [(1, 255)]⟩]⟩,
    ⟨"T1S_BURST", 0x4040C204, 1, 0x10000000, 4, 0x1000, [⟨0, 8, .rw, 0, []⟩, ⟨8, 8, .rw, 128, [(1, 255)]⟩]⟩,
    ⟨"T1S_STAT", 0x4040C208, 1, 0x10000000, 4, 0x1000, [⟨0, 1, .ro, 0, []⟩, ⟨1, 1, .ro, 0, []⟩]⟩,
    ⟨"T1S_EVT", 0x4040C20C, 1, 0x10000000, 4, 0x1000, [⟨0, 1, .w1c, 0, []⟩, ⟨1, 1, .w1c, 0, []⟩]⟩,
    ⟨"T1S_INACT", 0x4040C210, 1, 0x10000000, 4, 0x1000, [⟨0, 16, .rc, 0, []⟩]⟩ ]

/-- TSY_ registers. -/
def regTableTSY : List RegDesc :=
  [ ⟨"TSY_CTL", 0x40170000, 1, 0x10000000, 1, 0x10000000, [⟨0, 1, .wo, 0, []⟩, ⟨1, 1, .wo, 0, []⟩]⟩,
    ⟨"TSY_SETSLO", 0x40170004, 1, 0x10000000, 1, 0x10000000, [⟨0, 32, .rw, 0, []⟩]⟩,
    ⟨"TSY_SETSHI", 0x40170008, 1, 0x10000000, 1, 0x10000000, [⟨0, 16, .rw, 0, []⟩]⟩,
    ⟨"TSY_SETNS", 0x4017000C, 1, 0x10000000, 1, 0x10000000, [⟨0, 30, .rw, 0, [(0, 999999999)]⟩]⟩,
    ⟨"TSY_FADJ", 0x40170010, 1, 0x10000000, 1, 0x10000000, [⟨0, 32, .rw, 0, []⟩]⟩,
    ⟨"TSY_NOWNS", 0x40170014, 1, 0x10000000, 1, 0x10000000, [⟨0, 30, .ro, 0, []⟩]⟩,
    ⟨"TSY_NOWSLO", 0x40170018, 1, 0x10000000, 1, 0x10000000, [⟨0, 32, .ro, 0, []⟩]⟩,
    ⟨"TSY_NOWSHI", 0x4017001C, 1, 0x10000000, 1, 0x10000000, [⟨0, 16, .ro, 0, []⟩]⟩,
    ⟨"TSY_NOWUS", 0x40170020, 1, 0x10000000, 1, 0x10000000, [⟨0, 32, .ro, 0, []⟩]⟩,
    ⟨"TSY_CFG", 0x40170024, 1, 0x10000000, 1, 0x10000000, [⟨0, 1, .rw, 0, []⟩, ⟨1, 4, .rw, 0, [(0, 11)]⟩, ⟨16, 16, .rw, 375, [(1, 65535)]⟩]⟩,
    ⟨"TSY_STAT", 0x40170028, 1, 0x10000000, 1, 0x10000000, [⟨0, 1, .ro, 0, []⟩, ⟨16, 16, .ro, 0, []⟩]⟩,
    ⟨"TSY_SYNCCNT", 0x4017002C, 1, 0x10000000, 1, 0x10000000, [⟨0, 32, .rc, 0, []⟩]⟩ ]

/-- SER_ registers. -/
def regTableSER : List RegDesc :=
  [ ⟨"SER_CTL", 0x40200000, 1, 0x10000000, 48, 0x1000, [⟨0, 1, .wo, 0, []⟩, ⟨1, 1, .wo, 0, []⟩]⟩,
    ⟨"SER_STAT", 0x40200004, 1, 0x10000000, 48, 0x1000, [⟨0, 3, .ro, 0, []⟩]⟩,
    ⟨"SER_BAUD", 0x40200008, 1, 0x10000000, 48, 0x1000, [⟨0, 22, .rw, 5556, []⟩]⟩,
    ⟨"SER_EVT", 0x4020000C, 1, 0x10000000, 48, 0x1000, [⟨0, 1, .w1c, 0, []⟩, ⟨1, 1, .w1c, 0, []⟩, ⟨2, 1, .w1c, 0, []⟩, ⟨3, 1, .w1c, 0, []⟩, ⟨4, 1, .w1c, 0, []⟩]⟩,
    ⟨"SER_EVTEN", 0x40200010, 1, 0x10000000, 48, 0x1000, [⟨0, 5, .rw, 0, []⟩]⟩,
    ⟨"SER_RXOVR", 0x40200014, 1, 0x10000000, 48, 0x1000, [⟨0, 16, .rc, 0, []⟩]⟩,
    ⟨"SER_ERR0", 0x40200018, 1, 0x10000000, 48, 0x1000, [⟨0, 8, .rc, 0, []⟩, ⟨8, 8, .rc, 0, []⟩, ⟨16, 8, .rc, 0, []⟩, ⟨24, 8, .rc, 0, []⟩]⟩,
    ⟨"SER_ERR1", 0x4020001C, 1, 0x10000000, 48, 0x1000, [⟨0, 8, .rc, 0, []⟩, ⟨8, 8, .rc, 0, []⟩, ⟨16, 8, .rc, 0, []⟩, ⟨24, 8, .rc, 0, []⟩]⟩,
    ⟨"SER_TXDROP", 0x40200020, 1, 0x10000000, 48, 0x1000, [⟨0, 16, .rc, 0, []⟩]⟩,
    ⟨"SER_RXCNT", 0x40200024, 1, 0x10000000, 48, 0x1000, [⟨0, 32, .rc, 0, []⟩]⟩,
    ⟨"SER_TXCNT", 0x40200028, 1, 0x10000000, 48, 0x1000, [⟨0, 32, .rc, 0, []⟩]⟩ ]

/-- UART_ registers. -/
def regTableUART : List RegDesc :=
  [ ⟨"UART_CFG", 0x40200040, 1, 0x10000000, 48, 0x1000, [⟨0, 1, .rw, 0, []⟩, ⟨1, 2, .rw, 0, [(0, 2)]⟩, ⟨3, 1, .rw, 0, []⟩, ⟨4, 8, .rw, 0, []⟩]⟩,
    ⟨"UART_FRM", 0x40200044, 1, 0x10000000, 48, 0x1000, [⟨0, 16, .rw, 20, [(1, 65535)]⟩, ⟨16, 1, .rw, 0, []⟩, ⟨24, 8, .rw, 0, []⟩]⟩,
    ⟨"UART_FMAX", 0x40200048, 1, 0x10000000, 48, 0x1000, [⟨0, 12, .rw, 2048, [(1, 2048)]⟩]⟩,
    ⟨"UART_DE", 0x4020004C, 1, 0x10000000, 48, 0x1000, [⟨0, 1, .rw, 0, []⟩, ⟨1, 1, .rw, 0, []⟩, ⟨2, 1, .rw, 0, []⟩, ⟨3, 1, .rw, 0, []⟩, ⟨4, 1, .rw, 0, []⟩, ⟨16, 16, .rw, 2, []⟩]⟩,
    ⟨"UART_DET", 0x40200050, 1, 0x10000000, 48, 0x1000, [⟨0, 16, .rw, 0, []⟩, ⟨16, 16, .rw, 0, []⟩]⟩,
    ⟨"UART_SWTX", 0x40200054, 1, 0x10000000, 48, 0x1000, [⟨0, 9, .rw, 0, []⟩, ⟨16, 1, .w1s, 0, []⟩]⟩,
    ⟨"UART_TXDATA", 0x40200400, 48, 0x1000, 64, 0x4, [⟨0, 32, .rw, 0, []⟩]⟩ ]

/-- HDLC_ registers. -/
def regTableHDLC : List RegDesc :=
  [ ⟨"HDLC_CFG", 0x40200060, 1, 0x10000000, 48, 0x1000, [⟨0, 1, .rw, 0, []⟩, ⟨1, 1, .rw, 0, []⟩]⟩,
    ⟨"HDLC_ACCM", 0x40200064, 1, 0x10000000, 48, 0x1000, [⟨0, 32, .rw, 4294967295, []⟩]⟩ ]

/-- LIN_ registers. -/
def regTableLIN : List RegDesc :=
  [ ⟨"LIN_CFG", 0x40200040, 1, 0x10000000, 48, 0x1000, [⟨0, 5, .rw, 13, [(13, 20)]⟩, ⟨5, 3, .rw, 1, [(1, 4)]⟩, ⟨8, 3, .rw, 0, [(0, 4)]⟩, ⟨11, 1, .rw, 0, []⟩]⟩,
    ⟨"LIN_SCHED", 0x40200044, 1, 0x10000000, 48, 0x1000, [⟨0, 2, .rw, 0, []⟩, ⟨2, 2, .ro, 0, []⟩, ⟨4, 1, .ro, 0, []⟩]⟩,
    ⟨"LIN_TBL", 0x40200048, 48, 0x1000, 4, 0x4, [⟨0, 6, .rw, 0, []⟩, ⟨8, 7, .rw, 0, [(1, 64)]⟩, ⟨16, 1, .rw, 0, []⟩]⟩,
    ⟨"LIN_RXNEW0", 0x40200058, 1, 0x10000000, 48, 0x1000, [⟨0, 32, .w1c, 0, []⟩]⟩,
    ⟨"LIN_RXNEW1", 0x4020005C, 1, 0x10000000, 48, 0x1000, [⟨0, 32, .w1c, 0, []⟩]⟩,
    ⟨"LIN_SLOT", 0x40200100, 48, 0x1000, 64, 0x4, [⟨0, 6, .rw, 0, []⟩, ⟨6, 3, .rw, 0, []⟩, ⟨12, 2, .rw, 0, []⟩, ⟨16, 16, .rw, 100, [(10, 65535)]⟩]⟩,
    ⟨"LIN_FRM", 0x40200200, 48, 0x1000, 64, 0x4, [⟨0, 2, .rw, 0, []⟩, ⟨2, 4, .rw, 8, [(1, 8)]⟩, ⟨6, 1, .rw, 1, []⟩, ⟨7, 1, .rw, 0, []⟩, ⟨8, 1, .rw, 1, []⟩, ⟨9, 1, .ro, 0, []⟩]⟩,
    ⟨"LIN_PUB", 0x40200400, 48, 0x1000, 128, 0x4, [⟨0, 32, .rw, 0, []⟩]⟩,
    ⟨"LIN_RXD", 0x40200600, 48, 0x1000, 128, 0x4, [⟨0, 32, .ro, 0, []⟩]⟩ ]

/-- GPIO_ registers. -/
def regTableGPIO : List RegDesc :=
  [ ⟨"GPIO_CFG", 0x40200040, 1, 0x10000000, 48, 0x1000, [⟨0, 4, .rw, 0, []⟩, ⟨4, 1, .rw, 0, []⟩, ⟨8, 8, .rw, 0, []⟩]⟩,
    ⟨"GPIO_OUT", 0x40200044, 1, 0x10000000, 48, 0x1000, [⟨0, 4, .rw, 0, []⟩]⟩,
    ⟨"GPIO_IN", 0x40200048, 1, 0x10000000, 48, 0x1000, [⟨0, 4, .ro, 0, []⟩]⟩ ]

/-- WKS_ registers. -/
def regTableWKS : List RegDesc :=
  [ ⟨"WKS_SLEEPA", 0x400C0000, 1, 0x10000000, 1, 0x10000000, [⟨0, 32, .wo, 0, []⟩]⟩,
    ⟨"WKS_SLEEPB", 0x400C0004, 1, 0x10000000, 1, 0x10000000, [⟨0, 16, .wo, 0, []⟩, ⟨16, 16, .wo, 0, []⟩]⟩,
    ⟨"WKS_WAKEA", 0x400C0008, 1, 0x10000000, 1, 0x10000000, [⟨0, 32, .wo, 0, []⟩]⟩,
    ⟨"WKS_WAKEB", 0x400C000C, 1, 0x10000000, 1, 0x10000000, [⟨0, 16, .wo, 0, []⟩, ⟨16, 16, .wo, 0, []⟩]⟩,
    ⟨"WKS_ASLEEPA", 0x400C0010, 1, 0x10000000, 1, 0x10000000, [⟨0, 32, .ro, 0, []⟩]⟩,
    ⟨"WKS_ASLEEPB", 0x400C0014, 1, 0x10000000, 1, 0x10000000, [⟨0, 16, .ro, 0, []⟩, ⟨16, 16, .ro, 0, []⟩]⟩,
    ⟨"WKS_PENDA", 0x400C0018, 1, 0x10000000, 1, 0x10000000, [⟨0, 32, .ro, 0, []⟩]⟩,
    ⟨"WKS_PENDB", 0x400C001C, 1, 0x10000000, 1, 0x10000000, [⟨0, 16, .ro, 0, []⟩, ⟨16, 16, .ro, 0, []⟩]⟩,
    ⟨"WKS_VALIDA", 0x400C0020, 1, 0x10000000, 1, 0x10000000, [⟨0, 32, .wo, 0, []⟩]⟩,
    ⟨"WKS_VALIDB", 0x400C0024, 1, 0x10000000, 1, 0x10000000, [⟨0, 16, .wo, 0, []⟩, ⟨16, 16, .wo, 0, []⟩]⟩,
    ⟨"WKS_SRC", 0x400C0028, 1, 0x10000000, 1, 0x10000000, [⟨0, 4, .rw, 0, []⟩, ⟨4, 2, .rw, 0, []⟩, ⟨8, 2, .rw, 0, []⟩, ⟨10, 1, .rw, 0, []⟩]⟩,
    ⟨"WKS_FWCFG", 0x400C002C, 1, 0x10000000, 1, 0x10000000, [⟨0, 16, .rw, 1000, [(1, 65535)]⟩, ⟨16, 8, .rw, 4, [(1, 255)]⟩]⟩,
    ⟨"WKS_STAT", 0x400C0030, 1, 0x10000000, 1, 0x10000000, [⟨0, 3, .ro, 0, []⟩, ⟨3, 6, .ro, 0, []⟩, ⟨9, 1, .ro, 0, []⟩]⟩,
    ⟨"WKS_LOGSTAT", 0x400C0034, 1, 0x10000000, 1, 0x10000000, [⟨0, 4, .ro, 0, []⟩, ⟨8, 5, .ro, 0, []⟩, ⟨16, 8, .ro, 0, []⟩]⟩,
    ⟨"WKS_LOGACK", 0x400C0038, 1, 0x10000000, 1, 0x10000000, [⟨0, 1, .wo, 0, []⟩]⟩,
    ⟨"WKS_GRPA", 0x400C0040, 1, 0x10000000, 4, 0x8, [⟨0, 32, .rw, 0, []⟩]⟩,
    ⟨"WKS_GRPB", 0x400C0044, 1, 0x10000000, 4, 0x8, [⟨0, 16, .rw, 0, []⟩, ⟨16, 16, .rw, 0, []⟩]⟩,
    ⟨"WKS_LOG", 0x400C0100, 1, 0x10000000, 64, 0x4, [⟨0, 32, .ro, 0, []⟩]⟩,
    ⟨"WKS_TCFG", 0x400C1000, 1, 0x10000000, 48, 0x40, [⟨0, 2, .rw, 0, [(0, 2)]⟩, ⟨2, 1, .rw, 0, []⟩, ⟨3, 1, .rw, 0, []⟩, ⟨4, 1, .rw, 0, []⟩, ⟨5, 1, .rw, 0, []⟩, ⟨6, 1, .rw, 0, []⟩, ⟨7, 1, .rw, 0, []⟩, ⟨16, 16, .rw, 150, [(1, 10000)]⟩]⟩,
    ⟨"WKS_TBT", 0x400C1004, 1, 0x10000000, 48, 0x40, [⟨0, 10, .rw, 50, [(25, 500)]⟩, ⟨10, 10, .rw, 40, []⟩, ⟨20, 6, .rw, 10, [(1, 63)]⟩]⟩,
    ⟨"WKS_TID", 0x400C1008, 1, 0x10000000, 48, 0x40, [⟨0, 29, .rw, 0, []⟩, ⟨29, 1, .rw, 0, []⟩]⟩,
    ⟨"WKS_TIDM", 0x400C100C, 1, 0x10000000, 48, 0x40, [⟨0, 29, .rw, 536870911, []⟩, ⟨29, 1, .rw, 1, []⟩]⟩,
    ⟨"WKS_TDLC", 0x400C1010, 1, 0x10000000, 48, 0x40, [⟨0, 4, .rw, 0, []⟩, ⟨4, 1, .rw, 0, []⟩]⟩,
    ⟨"WKS_TDM0", 0x400C1014, 1, 0x10000000, 48, 0x40, [⟨0, 32, .rw, 0, []⟩]⟩ ]

/-- WKS_ registers, continued. -/
def regTableWKS1 : List RegDesc :=
  [ ⟨"WKS_TDM1", 0x400C1018, 1, 0x10000000, 48, 0x40, [⟨0, 32, .rw, 0, []⟩]⟩,
    ⟨"WKS_TSTAT", 0x400C101C, 1, 0x10000000, 48, 0x40, [⟨0, 6, .ro, 0, []⟩, ⟨16, 16, .ro, 0, []⟩]⟩,
    ⟨"WKS_TFW", 0x400C1020, 1, 0x10000000, 48, 0x40, [⟨0, 8, .rc, 0, []⟩]⟩,
    ⟨"WKS_TLAST", 0x400C1024, 1, 0x10000000, 48, 0x40, [⟨0, 29, .ro, 0, []⟩, ⟨29, 1, .ro, 0, []⟩, ⟨30, 1, .ro, 0, []⟩]⟩,
    ⟨"WKS_PCFG", 0x400C2000, 1, 0x10000000, 16, 0x40, [⟨0, 1, .rw, 0, []⟩, ⟨1, 1, .rw, 0, []⟩, ⟨16, 8, .rw, 20, [(1, 255)]⟩, ⟨24, 8, .rw, 100, [(1, 255)]⟩]⟩,
    ⟨"WKS_PFW", 0x400C2004, 1, 0x10000000, 16, 0x40, [⟨0, 8, .rc, 0, []⟩]⟩ ]

/-- BRG_ registers. -/
def regTableBRG : List RegDesc :=
  [ ⟨"BRG_CFG", 0x400A0000, 1, 0x10000000, 1, 0x10000000, [⟨0, 1, .imf, 1, []⟩, ⟨1, 1, .imf, 1, []⟩]⟩,
    ⟨"BRG_STAT", 0x400A0004, 1, 0x10000000, 1, 0x10000000, [⟨0, 1, .ro, 0, []⟩, ⟨1, 2, .ro, 0, []⟩, ⟨3, 2, .ro, 0, []⟩, ⟨5, 1, .ro, 0, []⟩]⟩,
    ⟨"BRG_PCIID", 0x400A0008, 1, 0x10000000, 1, 0x10000000, [⟨0, 16, .ro, 0, []⟩, ⟨16, 16, .ro, 18560, []⟩]⟩,
    ⟨"BRG_PCISUB", 0x400A000C, 1, 0x10000000, 1, 0x10000000, [⟨0, 16, .imf, 0, []⟩, ⟨16, 16, .imf, 0, []⟩]⟩,
    ⟨"BRG_SPLITERR0", 0x400A0010, 1, 0x10000000, 1, 0x10000000, [⟨0, 32, .ro, 0, []⟩]⟩,
    ⟨"BRG_SPLITERR1", 0x400A0014, 1, 0x10000000, 1, 0x10000000, [⟨0, 2, .ro, 0, []⟩, ⟨2, 1, .ro, 0, []⟩, ⟨3, 1, .ro, 0, []⟩, ⟨8, 8, .ro, 0, []⟩]⟩,
    ⟨"BRG_QSTAT", 0x400A0018, 1, 0x10000000, 1, 0x10000000, [⟨0, 1, .w1c, 0, []⟩, ⟨1, 1, .w1c, 0, []⟩, ⟨2, 1, .w1c, 0, []⟩, ⟨3, 1, .w1c, 0, []⟩]⟩,
    ⟨"BRG_FWCFG", 0x400A0020, 1, 0x10000000, 1, 0x10000000, [⟨0, 16, .rw, 20, [(1, 1000)]⟩]⟩,
    ⟨"BRG_FWSTAT", 0x400A0024, 1, 0x10000000, 1, 0x10000000, [⟨0, 5, .ro, 0, []⟩, ⟨8, 6, .ro, 0, []⟩]⟩,
    ⟨"BRG_FWERR0", 0x400A0028, 1, 0x10000000, 1, 0x10000000, [⟨0, 32, .ro, 0, []⟩]⟩,
    ⟨"BRG_FWERR1", 0x400A002C, 1, 0x10000000, 1, 0x10000000, [⟨0, 6, .ro, 0, []⟩, ⟨8, 3, .ro, 0, []⟩]⟩,
    ⟨"BRG_ERRCNT", 0x400A0030, 1, 0x10000000, 1, 0x10000000, [⟨0, 8, .rc, 0, []⟩, ⟨8, 8, .rc, 0, []⟩, ⟨16, 8, .rc, 0, []⟩, ⟨24, 8, .rc, 0, []⟩]⟩,
    ⟨"BRG_REV0", 0x400A0040, 1, 0x10000000, 1, 0x10000000, [⟨0, 6, .ro, 0, []⟩, ⟨6, 6, .ro, 0, []⟩, ⟨16, 8, .ro, 0, []⟩, ⟨31, 1, .ro, 0, []⟩]⟩,
    ⟨"BRG_REV1", 0x400A0044, 1, 0x10000000, 1, 0x10000000, [⟨0, 32, .ro, 0, []⟩]⟩,
    ⟨"BRG_REVSTAT", 0x400A0048, 1, 0x10000000, 1, 0x10000000, [⟨0, 7, .ro, 0, []⟩, ⟨16, 16, .rc, 0, []⟩]⟩,
    ⟨"BRG_REVTX", 0x400A004C, 1, 0x10000000, 1, 0x10000000, [⟨0, 8, .ro, 0, []⟩, ⟨16, 16, .rc, 0, []⟩]⟩,
    ⟨"BRG_MSIX", 0x400A0400, 1, 0x10000000, 256, 0x4, [⟨0, 32, .ro, 0, []⟩]⟩,
    ⟨"BRG_MSIXPBA0", 0x400A0800, 1, 0x10000000, 1, 0x10000000, [⟨0, 32, .ro, 0, []⟩]⟩,
    ⟨"BRG_MSIXPBA1", 0x400A0804, 1, 0x10000000, 1, 0x10000000, [⟨0, 32, .ro, 0, []⟩]⟩ ]

/-- HIE_ registers. -/
def regTableHIE : List RegDesc :=
  [ ⟨"HIE_STAT", 0x40160000, 1, 0x10000000, 1, 0x10000000, [⟨0, 3, .ro, 7, []⟩, ⟨3, 1, .ro, 0, []⟩, ⟨4, 1, .ro, 0, []⟩, ⟨5, 1, .ro, 0, []⟩, ⟨8, 8, .ro, 255, []⟩, ⟨16, 6, .ro, 63, []⟩, ⟨24, 3, .ro, 0, []⟩]⟩,
    ⟨"HIE_CFG", 0x40160004, 1, 0x10000000, 1, 0x10000000, [⟨0, 1, .imf, 0, []⟩, ⟨1, 1, .imf, 0, []⟩, ⟨2, 1, .imf, 0, []⟩, ⟨8, 8, .imf, 0, []⟩, ⟨16, 8, .imf, 62, []⟩]⟩,
    ⟨"HIE_ADM0", 0x40160008, 1, 0x10000000, 1, 0x10000000, [⟨0, 32, .ro, 0, []⟩]⟩,
    ⟨"HIE_ADM1", 0x4016000C, 1, 0x10000000, 1, 0x10000000, [⟨0, 32, .ro, 0, []⟩]⟩,
    ⟨"HIE_SESSION", 0x40160010, 1, 0x10000000, 1, 0x10000000, [⟨0, 32, .ro, 0, []⟩]⟩,
    ⟨"HIE_JOINQ", 0x40160014, 1, 0x10000000, 1, 0x10000000, [⟨0, 7, .ro, 0, []⟩, ⟨16, 16, .rc, 0, []⟩]⟩,
    ⟨"HIE_RXERR", 0x40160018, 1, 0x10000000, 1, 0x10000000, [⟨0, 8, .rc, 0, []⟩, ⟨8, 8, .rc, 0, []⟩, ⟨16, 8, .rc, 0, []⟩, ⟨24, 8, .rc, 0, []⟩]⟩,
    ⟨"HIE_LOST", 0x4016001C, 1, 0x10000000, 1, 0x10000000, [⟨0, 6, .ro, 0, []⟩, ⟨16, 16, .rc, 0, []⟩]⟩,
    ⟨"HIE_IMGOFF", 0x40160020, 1, 0x10000000, 1, 0x10000000, [⟨0, 32, .imf, 16777216, []⟩]⟩,
    ⟨"HIE_IMGSRV", 0x40160024, 1, 0x10000000, 1, 0x10000000, [⟨0, 16, .rc, 0, []⟩, ⟨16, 16, .rc, 0, []⟩]⟩,
    ⟨"HIE_RING", 0x40160028, 1, 0x10000000, 1, 0x10000000, [⟨0, 5, .rw, 0, []⟩]⟩,
    ⟨"HIE_CMD", 0x4016002C, 1, 0x10000000, 1, 0x10000000, [⟨0, 7, .wo, 0, []⟩, ⟨8, 3, .wo, 0, [(1, 4)]⟩, ⟨16, 16, .wo, 0, []⟩]⟩,
    ⟨"HIE_TXCNT", 0x40160030, 1, 0x10000000, 1, 0x10000000, [⟨0, 32, .rc, 0, []⟩]⟩,
    ⟨"HIE_RXCNT", 0x40160034, 1, 0x10000000, 1, 0x10000000, [⟨0, 32, .rc, 0, []⟩]⟩,
    ⟨"HIE_DEVSEL", 0x40160080, 1, 0x10000000, 1, 0x10000000, [⟨0, 6, .rw, 0, []⟩]⟩,
    ⟨"HIE_DEVINFO0", 0x40160084, 1, 0x10000000, 1, 0x10000000, [⟨0, 3, .ro, 7, []⟩, ⟨3, 1, .ro, 0, []⟩, ⟨4, 6, .ro, 63, []⟩, ⟨16, 8, .ro, 0, []⟩, ⟨24, 8, .ro, 0, []⟩]⟩,
    ⟨"HIE_DEVINFO1", 0x40160088, 1, 0x10000000, 1, 0x10000000, [⟨0, 32, .ro, 0, []⟩]⟩,
    ⟨"HIE_DEVINFO2", 0x4016008C, 1, 0x10000000, 1, 0x10000000, [⟨0, 32, .ro, 0, []⟩]⟩,
    ⟨"HIE_DEVINFO3", 0x40160090, 1, 0x10000000, 1, 0x10000000, [⟨0, 32, .ro, 0, []⟩]⟩ ]

/-- KST_ registers. -/
def regTableKST : List RegDesc :=
  [ ⟨"KST_LCSTATE", 0x400D0000, 1, 0x10000000, 1, 0x10000000, [⟨0, 3, .ro, 0, []⟩, ⟨3, 1, .ro, 0, []⟩, ⟨4, 1, .ro, 0, []⟩]⟩,
    ⟨"KST_IDENT0", 0x400D0004, 1, 0x10000000, 1, 0x10000000, [⟨0, 32, .ro, 0, []⟩]⟩,
    ⟨"KST_IDENT1", 0x400D0008, 1, 0x10000000, 1, 0x10000000, [⟨0, 32, .ro, 0, []⟩]⟩,
    ⟨"KST_LCREQ", 0x400D000C, 1, 0x10000000, 1, 0x10000000, [⟨0, 3, .wo, 0, []⟩, ⟨3, 1, .wo, 0, []⟩, ⟨16, 16, .wo, 0, []⟩]⟩,
    ⟨"KST_LCSTAT", 0x400D0010, 1, 0x10000000, 1, 0x10000000, [⟨0, 1, .ro, 0, []⟩, ⟨1, 1, .w1c, 0, []⟩, ⟨2, 2, .ro, 0, []⟩]⟩,
    ⟨"KST_IKSTAT", 0x400D0020, 1, 0x10000000, 1, 0x10000000, [⟨0, 4, .ro, 0, []⟩, ⟨4, 4, .ro, 0, []⟩, ⟨8, 2, .ro, 0, []⟩]⟩,
    ⟨"KST_IKCMD", 0x400D0024, 1, 0x10000000, 1, 0x10000000, [⟨0, 2, .wo, 0, []⟩, ⟨2, 2, .wo, 0, [(1, 2)]⟩, ⟨16, 16, .wo, 0, []⟩]⟩,
    ⟨"KST_IKRES", 0x400D0028, 1, 0x10000000, 1, 0x10000000, [⟨0, 1, .ro, 0, []⟩, ⟨1, 1, .ro, 0, []⟩, ⟨2, 2, .ro, 0, []⟩]⟩,
    ⟨"KST_IKHASH", 0x400D0040, 1, 0x10000000, 12, 0x4, [⟨0, 32, .wo, 0, []⟩]⟩,
    ⟨"KST_FLOOR", 0x400D0070, 1, 0x10000000, 1, 0x10000000, [⟨0, 32, .ro, 0, []⟩]⟩,
    ⟨"KST_FLOORSET", 0x400D0074, 1, 0x10000000, 1, 0x10000000, [⟨0, 32, .wo, 0, []⟩]⟩,
    ⟨"KST_LOADSRC", 0x400D0080, 1, 0x10000000, 2, 0x800, [⟨0, 32, .rw, 0, []⟩]⟩,
    ⟨"KST_LOADCMD", 0x400D0084, 1, 0x10000000, 2, 0x800, [⟨0, 1, .wo, 0, []⟩, ⟨1, 1, .wo, 0, []⟩]⟩,
    ⟨"KST_LOADRES", 0x400D0088, 1, 0x10000000, 2, 0x800, [⟨0, 1, .ro, 0, []⟩, ⟨1, 1, .ro, 0, []⟩, ⟨2, 4, .ro, 0, []⟩, ⟨6, 6, .ro, 0, []⟩, ⟨12, 10, .ro, 0, []⟩]⟩,
    ⟨"KST_SLOTSEL", 0x400D0090, 1, 0x10000000, 1, 0x10000000, [⟨0, 6, .rw, 0, []⟩]⟩,
    ⟨"KST_SLOTINFO0", 0x400D0094, 1, 0x10000000, 1, 0x10000000, [⟨0, 2, .ro, 0, []⟩, ⟨4, 4, .ro, 0, []⟩, ⟨8, 8, .ro, 0, []⟩, ⟨16, 16, .ro, 0, []⟩]⟩,
    ⟨"KST_SLOTINFO1", 0x400D0098, 1, 0x10000000, 1, 0x10000000, [⟨0, 32, .ro, 0, []⟩]⟩,
    ⟨"KST_SLOTINFO2", 0x400D009C, 1, 0x10000000, 1, 0x10000000, [⟨0, 10, .ro, 0, []⟩, ⟨16, 16, .ro, 65535, []⟩]⟩,
    ⟨"KST_NODESEL", 0x400D00A0, 1, 0x10000000, 1, 0x10000000, [⟨0, 10, .rw, 0, []⟩]⟩,
    ⟨"KST_NODEINFO0", 0x400D00A4, 1, 0x10000000, 1, 0x10000000, [⟨0, 2, .ro, 0, []⟩, ⟨2, 10, .ro, 0, []⟩, ⟨12, 3, .ro, 0, []⟩]⟩,
    ⟨"KST_NODEINFO1", 0x400D00A8, 1, 0x10000000, 1, 0x10000000, [⟨0, 32, .ro, 0, []⟩]⟩,
    ⟨"KST_NODECMD", 0x400D00AC, 1, 0x10000000, 1, 0x10000000, [⟨0, 2, .wo, 0, [(1, 3)]⟩, ⟨2, 10, .wo, 0, []⟩, ⟨16, 16, .wo, 0, []⟩]⟩,
    ⟨"KST_NODERES", 0x400D00B0, 1, 0x10000000, 1, 0x10000000, [⟨0, 1, .ro, 0, []⟩, ⟨1, 1, .ro, 0, []⟩, ⟨2, 2, .ro, 0, []⟩, ⟨4, 10, .ro, 0, []⟩, ⟨16, 10, .ro, 0, []⟩]⟩,
    ⟨"KST_WRAPCFG", 0x400D00C0, 1, 0x10000000, 1, 0x10000000, [⟨0, 4, .rw, 0, []⟩, ⟨4, 10, .rw, 0, []⟩, ⟨14, 2, .rw, 0, [(1, 2)]⟩, ⟨16, 16, .rw, 0, []⟩]⟩ ]

/-- KST_ registers, continued. -/
def regTableKST1 : List RegDesc :=
  [ ⟨"KST_WRAPKID", 0x400D00C4, 1, 0x10000000, 1, 0x10000000, [⟨0, 32, .rw, 0, []⟩]⟩,
    ⟨"KST_WRAPIN", 0x400D00C8, 1, 0x10000000, 1, 0x10000000, [⟨0, 32, .rw, 0, []⟩]⟩,
    ⟨"KST_WRAPOUT", 0x400D00CC, 1, 0x10000000, 1, 0x10000000, [⟨0, 32, .rw, 0, []⟩]⟩,
    ⟨"KST_WRAPGO", 0x400D00D0, 1, 0x10000000, 1, 0x10000000, [⟨0, 9, .wo, 0, []⟩, ⟨9, 1, .wo, 0, []⟩, ⟨10, 1, .wo, 0, []⟩]⟩,
    ⟨"KST_WRAPRES", 0x400D00D4, 1, 0x10000000, 1, 0x10000000, [⟨0, 1, .ro, 0, []⟩, ⟨1, 1, .ro, 0, []⟩]⟩,
    ⟨"KST_SHELFSRC", 0x400D00E0, 1, 0x10000000, 1, 0x10000000, [⟨0, 32, .rw, 0, []⟩]⟩,
    ⟨"KST_SHELFCMD", 0x400D00E4, 1, 0x10000000, 1, 0x10000000, [⟨0, 9, .wo, 0, []⟩, ⟨9, 2, .wo, 0, [(1, 2)]⟩, ⟨16, 16, .wo, 0, []⟩]⟩,
    ⟨"KST_SHELFRES", 0x400D00E8, 1, 0x10000000, 1, 0x10000000, [⟨0, 1, .ro, 0, []⟩, ⟨1, 1, .ro, 0, []⟩, ⟨16, 16, .ro, 0, []⟩]⟩,
    ⟨"KST_REJLOG", 0x400D0100, 1, 0x10000000, 1, 0x10000000, [⟨0, 4, .ro, 0, []⟩, ⟨4, 4, .ro, 0, []⟩, ⟨16, 16, .ro, 0, []⟩]⟩,
    ⟨"KST_REJCNT", 0x400D0104, 1, 0x10000000, 1, 0x10000000, [⟨0, 16, .rc, 0, []⟩, ⟨16, 16, .rc, 0, []⟩]⟩ ]

/-- WLD_ registers. -/
def regTableWLD : List RegDesc :=
  [ ⟨"WLD_REGION", 0x40100000, 1, 0x10000000, 8, 0x8, [⟨0, 20, .rw, 0, []⟩]⟩,
    ⟨"WLD_RSIZE", 0x40100004, 1, 0x10000000, 8, 0x8, [⟨0, 20, .rw, 0, []⟩, ⟨20, 2, .rw, 1, [(1, 3)]⟩]⟩,
    ⟨"WLD_LOCK", 0x40100040, 1, 0x10000000, 1, 0x10000000, [⟨0, 1, .w1s, 0, []⟩]⟩,
    ⟨"WLD_VIOL0", 0x40100044, 1, 0x10000000, 1, 0x10000000, [⟨0, 32, .ro, 0, []⟩]⟩,
    ⟨"WLD_VIOL1", 0x40100048, 1, 0x10000000, 1, 0x10000000, [⟨0, 1, .ro, 0, []⟩, ⟨1, 1, .ro, 0, []⟩, ⟨2, 3, .ro, 0, []⟩, ⟨5, 2, .ro, 0, []⟩]⟩,
    ⟨"WLD_VIOLCNT", 0x4010004C, 1, 0x10000000, 1, 0x10000000, [⟨0, 16, .rc, 0, []⟩]⟩,
    ⟨"WLD_CNTCFG", 0x40100050, 1, 0x10000000, 1, 0x10000000, [⟨0, 4, .rw, 15, []⟩]⟩,
    ⟨"WLD_DBG", 0x40100054, 1, 0x10000000, 1, 0x10000000, [⟨0, 1, .ro, 0, []⟩, ⟨1, 1, .ro, 0, []⟩, ⟨2, 1, .ro, 0, []⟩]⟩ ]

/-- CKV_ registers. -/
def regTableCKV : List RegDesc :=
  [ ⟨"CKV_CFG", 0x400E0000, 1, 0x10000000, 1, 0x10000000, [⟨0, 4, .rw, 4, [(1, 8)]⟩]⟩,
    ⟨"CKV_STAT", 0x400E0004, 1, 0x10000000, 1, 0x10000000, [⟨0, 8, .ro, 255, []⟩, ⟨8, 8, .ro, 0, []⟩]⟩,
    ⟨"CKV_FLT", 0x400E0008, 1, 0x10000000, 1, 0x10000000, [⟨0, 1, .w1c, 0, []⟩, ⟨1, 1, .w1c, 0, []⟩, ⟨2, 1, .w1c, 0, []⟩, ⟨3, 1, .w1c, 0, []⟩, ⟨8, 3, .ro, 0, []⟩]⟩,
    ⟨"CKV_HWCNT", 0x400E000C, 1, 0x10000000, 1, 0x10000000, [⟨0, 32, .rc, 0, []⟩]⟩,
    ⟨"CKV_SWCNT", 0x400E0010, 1, 0x10000000, 1, 0x10000000, [⟨0, 32, .rc, 0, []⟩]⟩,
    ⟨"CKV_RBASE", 0x400E0100, 1, 0x10000000, 2, 0x80, [⟨0, 32, .rw, 0, []⟩]⟩,
    ⟨"CKV_RCFG", 0x400E0104, 1, 0x10000000, 2, 0x80, [⟨0, 1, .rw, 0, []⟩, ⟨4, 4, .rw, 4, [(4, 10)]⟩]⟩,
    ⟨"CKV_RHEAD", 0x400E0108, 1, 0x10000000, 2, 0x80, [⟨0, 10, .ro, 0, []⟩]⟩,
    ⟨"CKV_RTAIL", 0x400E010C, 1, 0x10000000, 2, 0x80, [⟨0, 10, .rw, 0, []⟩]⟩,
    ⟨"CKV_RIRQ", 0x400E0110, 1, 0x10000000, 2, 0x80, [⟨0, 6, .rw, 0, []⟩, ⟨6, 1, .rw, 0, []⟩, ⟨7, 2, .rw, 0, []⟩]⟩,
    ⟨"CKV_RSTAT", 0x400E0114, 1, 0x10000000, 2, 0x80, [⟨0, 1, .w1c, 0, []⟩, ⟨16, 16, .rc, 0, []⟩]⟩ ]

/-- PKE_ registers. -/
def regTablePKE : List RegDesc :=
  [ ⟨"PKE_LOCK", 0x400F0000, 1, 0x10000000, 1, 0x10000000, [⟨0, 1, .wo, 0, []⟩, ⟨1, 1, .ro, 0, []⟩, ⟨2, 1, .ro, 0, []⟩, ⟨4, 10, .ro, 0, []⟩]⟩,
    ⟨"PKE_JOB", 0x400F0004, 1, 0x10000000, 1, 0x10000000, [⟨0, 5, .lk, 0, [(1, 10)]⟩, ⟨5, 2, .lk, 0, []⟩, ⟨7, 1, .lk, 0, []⟩, ⟨8, 1, .lk, 0, []⟩, ⟨9, 1, .lk, 0, []⟩]⟩,
    ⟨"PKE_JOBOPS0", 0x400F0008, 1, 0x10000000, 1, 0x10000000, [⟨0, 6, .lk, 0, []⟩, ⟨8, 6, .lk, 0, []⟩, ⟨16, 6, .lk, 0, []⟩, ⟨24, 6, .lk, 0, []⟩]⟩,
    ⟨"PKE_JOBOPS1", 0x400F000C, 1, 0x10000000, 1, 0x10000000, [⟨0, 6, .lk, 0, []⟩, ⟨8, 6, .lk, 8, []⟩]⟩,
    ⟨"PKE_JOBKEY", 0x400F0010, 1, 0x10000000, 1, 0x10000000, [⟨0, 32, .lk, 0, []⟩]⟩,
    ⟨"PKE_STAT", 0x400F0014, 1, 0x10000000, 1, 0x10000000, [⟨0, 1, .ro, 0, []⟩, ⟨1, 1, .w1c, 0, []⟩, ⟨2, 3, .ro, 0, []⟩, ⟨8, 4, .ro, 0, []⟩]⟩,
    ⟨"PKE_TIME", 0x400F0018, 1, 0x10000000, 1, 0x10000000, [⟨0, 32, .ro, 0, []⟩]⟩,
    ⟨"PKE_CNT", 0x400F001C, 1, 0x10000000, 1, 0x10000000, [⟨0, 16, .rc, 0, []⟩, ⟨16, 16, .rc, 0, []⟩]⟩,
    ⟨"PKE_OPPTR", 0x400F0020, 1, 0x10000000, 1, 0x10000000, [⟨0, 6, .lk, 0, []⟩, ⟨8, 13, .lk, 0, []⟩]⟩,
    ⟨"PKE_OPDATA", 0x400F0024, 1, 0x10000000, 1, 0x10000000, [⟨0, 32, .lk, 0, []⟩]⟩,
    ⟨"PKE_SLEN", 0x400F0100, 1, 0x10000000, 8, 0x4, [⟨0, 13, .lk, 64, []⟩, ⟨16, 1, .lk, 0, []⟩]⟩,
    ⟨"PKE_SLEN", 0x400F0120, 1, 0x10000000, 1, 0x4, [⟨0, 13, .lk, 160, []⟩, ⟨16, 1, .lk, 1, []⟩]⟩,
    ⟨"PKE_SLEN", 0x400F0124, 1, 0x10000000, 55, 0x4, [⟨0, 13, .lk, 0, []⟩, ⟨16, 1, .lk, 0, []⟩]⟩ ]

/-- DIG_ registers. -/
def regTableDIG : List RegDesc :=
  [ ⟨"DIG_CTL", 0x400F8000, 1, 0x10000000, 2, 0x80, [⟨0, 2, .rw, 1, [(1, 3)]⟩, ⟨2, 1, .wo, 0, []⟩, ⟨3, 1, .wo, 0, []⟩, ⟨4, 1, .wo, 0, []⟩]⟩,
    ⟨"DIG_SRC", 0x400F8004, 1, 0x10000000, 2, 0x80, [⟨0, 32, .rw, 0, []⟩]⟩,
    ⟨"DIG_LEN", 0x400F8008, 1, 0x10000000, 2, 0x80, [⟨0, 24, .rw, 0, []⟩]⟩,
    ⟨"DIG_STAT", 0x400F800C, 1, 0x10000000, 2, 0x80, [⟨0, 1, .ro, 0, []⟩, ⟨1, 1, .w1c, 0, []⟩, ⟨2, 1, .w1c, 0, []⟩, ⟨3, 1, .ro, 0, []⟩]⟩,
    ⟨"DIG_OUT", 0x400F8010, 2, 0x80, 16, 0x4, [⟨0, 32, .ro, 0, []⟩]⟩ ]

/-- DRG_ registers. -/
def regTableDRG : List RegDesc :=
  [ ⟨"DRG_DATA", 0x400F8100, 1, 0x10000000, 1, 0x10000000, [⟨0, 32, .ro, 0, []⟩]⟩,
    ⟨"DRG_STAT", 0x400F8104, 1, 0x10000000, 1, 0x10000000, [⟨0, 1, .ro, 0, []⟩, ⟨1, 1, .ro, 0, []⟩, ⟨16, 16, .ro, 0, []⟩]⟩,
    ⟨"DRG_CTL", 0x400F8108, 1, 0x10000000, 1, 0x10000000, [⟨0, 1, .wo, 0, []⟩]⟩,
    ⟨"DRG_HCNT", 0x400F810C, 1, 0x10000000, 1, 0x10000000, [⟨0, 16, .rc, 0, []⟩, ⟨16, 16, .rc, 0, []⟩]⟩ ]

/-- MOT_ registers. -/
def regTableMOT : List RegDesc :=
  [ ⟨"MOT_SUM", 0x40110000, 1, 0x10000000, 1, 0x10000000, [⟨0, 4, .ro, 0, []⟩, ⟨4, 4, .ro, 0, []⟩]⟩,
    ⟨"MOT_CFG", 0x40110100, 1, 0x10000000, 4, 0x40, [⟨0, 5, .imf, 0, []⟩, ⟨5, 2, .imf, 0, []⟩, ⟨7, 1, .imf, 0, []⟩, ⟨8, 2, .imf, 0, []⟩, ⟨10, 1, .imf, 0, []⟩, ⟨11, 1, .imf, 0, []⟩]⟩,
    ⟨"MOT_PWM", 0x40110104, 1, 0x10000000, 4, 0x40, [⟨0, 10, .imf, 0, []⟩, ⟨16, 8, .rws, 100, [(25, 250)]⟩, ⟨24, 8, .rws, 0, []⟩]⟩,
    ⟨"MOT_LIM", 0x40110108, 1, 0x10000000, 4, 0x40, [⟨0, 16, .imf, 0, []⟩, ⟨16, 16, .imf, 0, []⟩]⟩,
    ⟨"MOT_VTH0", 0x4011010C, 1, 0x10000000, 4, 0x40, [⟨0, 16, .imf, 0, []⟩, ⟨16, 16, .imf, 0, []⟩]⟩,
    ⟨"MOT_VTH1", 0x40110110, 1, 0x10000000, 4, 0x40, [⟨0, 16, .imf, 0, []⟩, ⟨16, 8, .rw, 5, [(1, 50)]⟩]⟩,
    ⟨"MOT_CMD", 0x40110114, 1, 0x10000000, 4, 0x40, [⟨0, 3, .wo, 0, [(1, 4)]⟩, ⟨16, 16, .wo, 0, []⟩]⟩,
    ⟨"MOT_RAMP", 0x40110118, 1, 0x10000000, 4, 0x40, [⟨0, 16, .rw, 2000, [(1, 65535)]⟩, ⟨16, 16, .rw, 2000, [(1, 65535)]⟩]⟩,
    ⟨"MOT_PI", 0x4011011C, 1, 0x10000000, 4, 0x40, [⟨0, 16, .rw, 256, []⟩, ⟨16, 16, .rw, 16, []⟩]⟩,
    ⟨"MOT_START", 0x40110120, 1, 0x10000000, 4, 0x40, [⟨0, 10, .rw, 100, [(10, 1000)]⟩, ⟨16, 16, .rw, 0, []⟩]⟩,
    ⟨"MOT_WAIT", 0x40110124, 1, 0x10000000, 4, 0x40, [⟨0, 16, .rw, 60, []⟩]⟩,
    ⟨"MOT_STAT", 0x40110128, 1, 0x10000000, 4, 0x40, [⟨0, 3, .ro, 0, []⟩, ⟨3, 1, .ro, 0, []⟩, ⟨4, 1, .ro, 0, []⟩, ⟨5, 1, .ro, 0, []⟩, ⟨6, 1, .ro, 0, []⟩, ⟨7, 1, .ro, 0, []⟩, ⟨16, 16, .ro, 0, []⟩]⟩,
    ⟨"MOT_MEAS", 0x4011012C, 1, 0x10000000, 4, 0x40, [⟨0, 16, .ro, 0, []⟩, ⟨16, 16, .ro, 0, []⟩]⟩,
    ⟨"MOT_EVT", 0x40110130, 1, 0x10000000, 4, 0x40, [⟨0, 1, .w1c, 0, []⟩, ⟨1, 1, .w1c, 0, []⟩, ⟨2, 1, .w1c, 0, []⟩, ⟨3, 1, .w1c, 0, []⟩, ⟨4, 1, .w1c, 0, []⟩]⟩,
    ⟨"MOT_FAULT", 0x40110134, 1, 0x10000000, 4, 0x40, [⟨0, 3, .ro, 0, []⟩]⟩,
    ⟨"MOT_TEST", 0x40110138, 1, 0x10000000, 4, 0x40, [⟨0, 2, .wo, 0, [(0, 2)]⟩, ⟨2, 3, .wo, 0, [(0, 5)]⟩, ⟨16, 16, .wo, 0, []⟩]⟩,
    ⟨"MOT_HALL", 0x4011013C, 1, 0x10000000, 4, 0x40, [⟨0, 24, .rws, 15647367, []⟩]⟩ ]

/-- LMP_ registers. -/
def regTableLMP : List RegDesc :=
  [ ⟨"LMP_LATCHED", 0x40120000, 1, 0x10000000, 1, 0x10000000, [⟨0, 24, .ro, 0, []⟩]⟩,
    ⟨"LMP_TEST", 0x40120004, 1, 0x10000000, 1, 0x10000000, [⟨0, 5, .wo, 0, []⟩, ⟨16, 16, .wo, 0, [(1, 65535)]⟩]⟩,
    ⟨"LMP_GCFG", 0x40120040, 1, 0x10000000, 4, 0x10, [⟨0, 16, .imf, 0, []⟩, ⟨16, 8, .rw, 20, [(1, 255)]⟩]⟩,
    ⟨"LMP_GSTAT", 0x40120044, 1, 0x10000000, 4, 0x10, [⟨0, 3, .ro, 7, []⟩, ⟨3, 1, .ro, 0, []⟩, ⟨4, 1, .ro, 0, []⟩, ⟨8, 6, .ro, 0, []⟩]⟩,
    ⟨"LMP_CCFG0", 0x40120200, 1, 0x10000000, 24, 0x20, [⟨0, 1, .imf, 0, []⟩, ⟨1, 3, .imf, 0, []⟩, ⟨16, 16, .imf, 0, []⟩]⟩,
    ⟨"LMP_CCFG1", 0x40120204, 1, 0x10000000, 24, 0x20, [⟨0, 16, .imf, 0, []⟩, ⟨16, 16, .imf, 0, []⟩]⟩,
    ⟨"LMP_CCFG2", 0x40120208, 1, 0x10000000, 24, 0x20, [⟨0, 16, .imf, 0, []⟩, ⟨16, 16, .imf, 0, []⟩]⟩,
    ⟨"LMP_CCFG3", 0x4012020C, 1, 0x10000000, 24, 0x20, [⟨0, 8, .rw, 0, []⟩, ⟨16, 16, .rw, 0, []⟩]⟩,
    ⟨"LMP_CMD", 0x40120210, 1, 0x10000000, 24, 0x20, [⟨0, 2, .rw, 0, [(0, 2)]⟩, ⟨8, 8, .rw, 50, [(1, 255)]⟩, ⟨16, 8, .rw, 50, [(1, 255)]⟩]⟩,
    ⟨"LMP_CSTAT", 0x40120214, 1, 0x10000000, 24, 0x20, [⟨0, 3, .ro, 0, []⟩, ⟨3, 4, .ro, 0, []⟩, ⟨7, 1, .ro, 0, []⟩, ⟨8, 1, .ro, 0, []⟩, ⟨9, 3, .ro, 0, []⟩, ⟨16, 16, .ro, 0, []⟩]⟩,
    ⟨"LMP_CEVT", 0x40120218, 1, 0x10000000, 24, 0x20, [⟨0, 1, .w1c, 0, []⟩, ⟨1, 1, .w1c, 0, []⟩, ⟨2, 1, .w1c, 0, []⟩]⟩,
    ⟨"LMP_CCNT", 0x4012021C, 1, 0x10000000, 24, 0x20, [⟨0, 16, .rc, 0, []⟩, ⟨16, 16, .rc, 0, []⟩]⟩ ]

/-- ANA_ registers. -/
def regTableANA : List RegDesc :=
  [ ⟨"ANA_STAT", 0x40130000, 1, 0x10000000, 1, 0x10000000, [⟨0, 1, .ro, 0, []⟩, ⟨1, 1, .ro, 0, []⟩, ⟨16, 16, .rc, 0, []⟩]⟩,
    ⟨"ANA_RES", 0x40130100, 1, 0x10000000, 32, 0x4, [⟨0, 12, .ro, 0, []⟩, ⟨16, 16, .ro, 0, []⟩]⟩,
    ⟨"ANA_WIN0", 0x40130200, 1, 0x10000000, 8, 0x8, [⟨0, 5, .rw, 0, []⟩, ⟨7, 1, .rw, 0, []⟩, ⟨8, 1, .rw, 0, []⟩, ⟨12, 4, .rw, 1, [(1, 15)]⟩]⟩,
    ⟨"ANA_WIN1", 0x40130204, 1, 0x10000000, 8, 0x8, [⟨0, 12, .rw, 0, []⟩, ⟨16, 12, .rw, 4095, []⟩]⟩,
    ⟨"ANA_WEVT", 0x40130240, 1, 0x10000000, 1, 0x10000000, [⟨0, 8, .w1c, 0, []⟩, ⟨8, 8, .ro, 0, []⟩]⟩ ]

/-- WER_ registers. -/
def regTableWER : List RegDesc :=
  [ ⟨"WER_STAT", 0x40140000, 1, 0x10000000, 1, 0x10000000, [⟨0, 1, .ro, 0, []⟩, ⟨1, 1, .w1c, 0, []⟩, ⟨2, 1, .w1c, 0, []⟩, ⟨3, 1, .ro, 0, []⟩]⟩,
    ⟨"WER_CLOCK", 0x40140004, 1, 0x10000000, 1, 0x10000000, [⟨0, 32, .ro, 0, []⟩]⟩,
    ⟨"WER_DAY", 0x40140008, 1, 0x10000000, 1, 0x10000000, [⟨0, 24, .ro, 0, []⟩]⟩,
    ⟨"WER_CFG", 0x4014000C, 1, 0x10000000, 1, 0x10000000, [⟨0, 16, .rw, 365, [(1, 65535)]⟩, ⟨16, 16, .rw, 4000, []⟩]⟩,
    ⟨"WER_TEMP", 0x40140010, 1, 0x10000000, 1, 0x10000000, [⟨0, 12, .ro, 0, []⟩, ⟨16, 12, .ro, 0, []⟩]⟩,
    ⟨"WER_TCFG", 0x40140014, 1, 0x10000000, 1, 0x10000000, [⟨0, 8, .rw, 115, [(80, 125)]⟩]⟩,
    ⟨"WER_EVT", 0x40140018, 1, 0x10000000, 1, 0x10000000, [⟨0, 1, .w1c, 0, []⟩, ⟨1, 1, .w1c, 0, []⟩, ⟨2, 1, .w1c, 0, []⟩, ⟨3, 1, .w1c, 0, []⟩]⟩,
    ⟨"WER_EVTITEM", 0x4014001C, 1, 0x10000000, 1, 0x10000000, [⟨0, 16, .ro, 0, []⟩, ⟨16, 5, .ro, 0, []⟩]⟩,
    ⟨"WER_SAVE", 0x40140020, 1, 0x10000000, 1, 0x10000000, [⟨0, 1, .wo, 0, []⟩]⟩,
    ⟨"WER_RESET", 0x40140024, 1, 0x10000000, 1, 0x10000000, [⟨0, 11, .wo, 0, []⟩, ⟨11, 5, .wo, 0, []⟩, ⟨16, 16, .wo, 0, []⟩]⟩,
    ⟨"WER_THIST", 0x40140040, 1, 0x10000000, 8, 0x4, [⟨0, 32, .ro, 0, []⟩]⟩,
    ⟨"WER_SEL", 0x40140080, 1, 0x10000000, 1, 0x10000000, [⟨0, 16, .rw, 0, []⟩, ⟨16, 5, .rw, 0, []⟩]⟩,
    ⟨"WER_IINFO", 0x40140084, 1, 0x10000000, 1, 0x10000000, [⟨0, 1, .ro, 0, []⟩, ⟨1, 1, .ro, 0, []⟩, ⟨2, 1, .ro, 0, []⟩, ⟨8, 8, .ro, 0, []⟩, ⟨16, 2, .ro, 0, []⟩, ⟨18, 1, .ro, 0, []⟩, ⟨19, 1, .ro, 0, []⟩, ⟨20, 1, .ro, 0, []⟩, ⟨21, 6, .ro, 0, []⟩]⟩,
    ⟨"WER_CNTLO", 0x40140088, 1, 0x10000000, 1, 0x10000000, [⟨0, 32, .ro, 0, []⟩]⟩,
    ⟨"WER_CNTHI", 0x4014008C, 1, 0x10000000, 1, 0x10000000, [⟨0, 32, .ro, 0, []⟩]⟩,
    ⟨"WER_RATLO", 0x40140090, 1, 0x10000000, 1, 0x10000000, [⟨0, 32, .ro, 0, []⟩]⟩,
    ⟨"WER_RATHI", 0x40140094, 1, 0x10000000, 1, 0x10000000, [⟨0, 32, .ro, 0, []⟩]⟩,
    ⟨"WER_EOLDAY", 0x40140098, 1, 0x10000000, 1, 0x10000000, [⟨0, 32, .ro, 4294967295, []⟩]⟩,
    ⟨"WER_EOLE", 0x4014009C, 1, 0x10000000, 1, 0x10000000, [⟨0, 32, .ro, 4294967295, []⟩]⟩,
    ⟨"WER_EOLREM", 0x401400A0, 1, 0x10000000, 1, 0x10000000, [⟨0, 32, .ro, 4294967295, []⟩]⟩,
    ⟨"WER_REPL", 0x401400A4, 1, 0x10000000, 1, 0x10000000, [⟨0, 16, .ro, 0, []⟩, ⟨16, 8, .ro, 0, []⟩]⟩ ]

/-- EVC_ registers. -/
def regTableEVC : List RegDesc :=
  [ ⟨"EVC_CTL", 0x40030000, 1, 0x10000000, 1, 0x10000000, [⟨0, 1, .ro, 0, []⟩]⟩,
    ⟨"EVC_PEND0", 0x40030004, 1, 0x10000000, 1, 0x10000000, [⟨0, 32, .w1c, 0, []⟩]⟩,
    ⟨"EVC_PEND1", 0x40030008, 1, 0x10000000, 1, 0x10000000, [⟨0, 32, .w1c, 0, []⟩]⟩,
    ⟨"EVC_OWN0", 0x4003000C, 1, 0x10000000, 1, 0x10000000, [⟨0, 32, .rw, 0, []⟩]⟩,
    ⟨"EVC_OWN1", 0x40030010, 1, 0x10000000, 1, 0x10000000, [⟨0, 32, .rw, 0, []⟩]⟩,
    ⟨"EVC_MASKN0", 0x40030014, 1, 0x10000000, 1, 0x10000000, [⟨0, 32, .rw, 0, []⟩]⟩,
    ⟨"EVC_MASKN1", 0x40030018, 1, 0x10000000, 1, 0x10000000, [⟨0, 32, .rw, 0, []⟩]⟩,
    ⟨"EVC_MASKS0", 0x4003001C, 1, 0x10000000, 1, 0x10000000, [⟨0, 32, .rw, 0, []⟩]⟩,
    ⟨"EVC_MASKS1", 0x40030020, 1, 0x10000000, 1, 0x10000000, [⟨0, 32, .rw, 0, []⟩]⟩,
    ⟨"EVC_SOFT", 0x40030024, 1, 0x10000000, 1, 0x10000000, [⟨0, 1, .wo, 0, []⟩, ⟨1, 1, .wo, 0, []⟩]⟩,
    ⟨"EVC_CLAIM", 0x40030028, 1, 0x10000000, 1, 0x10000000, [⟨0, 6, .ro, 0, []⟩, ⟨8, 4, .ro, 0, []⟩, ⟨31, 1, .ro, 0, []⟩]⟩,
    ⟨"EVC_THRESH", 0x4003002C, 1, 0x10000000, 1, 0x10000000, [⟨0, 4, .rw, 0, []⟩]⟩,
    ⟨"EVC_HIESTAT", 0x40030030, 1, 0x10000000, 1, 0x10000000, [⟨0, 16, .rc, 0, []⟩, ⟨16, 16, .rc, 0, []⟩]⟩,
    ⟨"EVC_ROUTE", 0x40030100, 1, 0x10000000, 64, 0x4, [⟨0, 2, .rw, 0, []⟩, ⟨2, 1, .rw, 0, []⟩, ⟨3, 1, .rw, 0, []⟩, ⟨4, 6, .rw, 0, []⟩, ⟨10, 1, .rw, 0, []⟩, ⟨11, 1, .rw, 0, []⟩, ⟨12, 2, .rw, 0, []⟩, ⟨16, 4, .rw, 0, []⟩]⟩,
    ⟨"EVC_CNT", 0x40030200, 1, 0x10000000, 64, 0x4, [⟨0, 16, .rc, 0, []⟩]⟩ ]

/-- All register tables. -/
def regTable : List (List RegDesc) :=
  [ regTableLNK,
    regTableLNK1,
    regTableSYS,
    regTableCKR,
    regTablePWR,
    regTableAON,
    regTableIMG,
    regTableFAB,
    regTableINK,
    regTableINK1,
    regTableSWC,
    regTableSWC1,
    regTableFWT,
    regTableFWT1,
    regTableTRN,
    regTableCAN,
    regTableCAN1,
    regTableETH,
    regTableT1S,
    regTableTSY,
    regTableSER,
    regTableUART,
    regTableHDLC,
    regTableLIN,
    regTableGPIO,
    regTableWKS,
    regTableWKS1,
    regTableBRG,
    regTableHIE,
    regTableKST,
    regTableKST1,
    regTableWLD,
    regTableCKV,
    regTablePKE,
    regTableDIG,
    regTableDRG,
    regTableMOT,
    regTableLMP,
    regTableANA,
    regTableWER,
    regTableEVC ]

end Sys2Proof.Machine
end

