-- ==== Sys2Proof/Machine/RegFind.lean ====
section
/-! DEFINITION. Finding a register by address (R5, R10, R496, R497) and the plain writing of its fields. -/

namespace Sys2Proof.Machine

/-- The register tables that serve a tile of a function: CAN, or the serial ones of the function (R10). -/
def tileTables (n : Nat) (s : State) : List (List RegDesc) :=
  match tileFunc n s with
  | 1 => [regTableCAN, regTableCAN1]
  | 2 => [regTableCAN, regTableCAN1]
  | 3 => [regTableSER, regTableLIN]
  | 4 => [regTableSER, regTableLIN]
  | 5 => [regTableSER, regTableUART]
  | 6 => [regTableSER, regTableUART, regTableHDLC]
  | 7 => [regTableGPIO]
  | _ => []

/-- The register tables of the block a block address lies in (R496). -/
def blockTables (a : Nat) : List (List RegDesc) :=
  match (a - 0x40000000) / 0x10000 with
  | 0x0 => [regTableSYS]
  | 0x1 => [regTableCKR]
  | 0x2 => [regTablePWR]
  | 0x3 => [regTableEVC]
  | 0x4 => [regTableINK, regTableINK1]
  | 0x5 => [regTableIMG]
  | 0x6 => [regTableFAB]
  | 0x7 => [regTableSWC, regTableSWC1]
  | 0x8 => [regTableFWT, regTableFWT1]
  | 0x9 => [regTableTRN]
  | 0xA => [regTableBRG]
  | 0xB => [regTableLNK, regTableLNK1]
  | 0xC => [regTableWKS, regTableWKS1]
  | 0xD => [regTableKST, regTableKST1]
  | 0xE => [regTableCKV]
  | 0xF => [regTablePKE, regTableDIG, regTableDRG]
  | 0x10 => [regTableWLD]
  | 0x11 => [regTableMOT]
  | 0x12 => [regTableLMP]
  | 0x13 => [regTableANA]
  | 0x14 => [regTableWER]
  | 0x15 => [regTableAON]
  | 0x16 => [regTableHIE]
  | 0x17 => [regTableTSY]
  | _ => []

/-- The register tables that serve an address of a port's window: ETH_FORCE and ETH_RGMII exist for RGMII ports only (spec/12, Registers);
the T1S table names ports 12 to 15 alone. -/
def portTables (a : Nat) (s : State) : List (List RegDesc) :=
  if (a % 0x1000 = 0x004 || a % 0x1000 = 0x010) && ((bindOf (portOfAddr a) s).map (·.mode)).getD 0 ≠ 4 then []
  else [regTableETH, regTableT1S]

/-- An address is one of a register's copies. -/
def RegDesc.covers (d : RegDesc) (a : Nat) : Bool :=
  d.base ≤ a &&
    (let o := a - d.base
     let i := o / d.s1
     let j := (o % d.s1) / d.s2
     i < d.n1 && j < d.n2 && i * d.s1 + j * d.s2 = o)

/-- The register at an address, if one is defined there. -/
def findReg (a : Nat) (s : State) : Option RegDesc :=
  let tabs := if tileWindow a then tileTables (tileOfAddr a) s
    else if portWindow a then portTables a s
    else if 0x40000000 ≤ a && a < 0x40180000 then blockTables a else []
  tabs.findSome? fun t => t.find? fun d => d.covers a

/-- A field of a register at an address. -/
def FieldDesc.fld (f : FieldDesc) (a : Nat) : Fld := ⟨a, f.lo, f.width, f.reset⟩

/-- A field's value in a written word. -/
def FieldDesc.of (f : FieldDesc) (w : Nat) : Nat := bitsOf w f.lo f.width

/-- The written value is a legal one for the field (R9). -/
def FieldDesc.ok (f : FieldDesc) (w : Nat) : Bool :=
  f.legal = [] || f.legal.any fun r => r.1 ≤ f.of w && f.of w ≤ r.2

/-- A field is one a write gives a value to. -/
def Acc.writable : Acc → Bool
  | .rw => true
  | .lk => true
  | .rws => true
  | .rwRecv => true
  | .rwSend => true
  | _ => false

/-- The word of a register as its fields stand; write-only fields read 0 (R6). -/
def readWord (d : RegDesc) (a : Nat) (s : State) : Nat :=
  (d.fields.map fun f => if f.acc = .wo then 0 else getF (f.fld a) s * 2 ^ f.lo).sum

/-- The fields of a register that a read clears. -/
def clearRead (d : RegDesc) (a : Nat) (s : State) : State :=
  applyAll d.fields (fun f t => if f.acc = .rc then setF (f.fld a) 0 t else t) s

/-- A word's writable fields set, its W1C bits cleared and its W1S bits set. -/
def writeFields (p : Acc → Bool) (d : RegDesc) (a w : Nat) (s : State) : State :=
  applyAll d.fields (fun f t =>
    if !p f.acc then t
    else match f.acc with
      | .w1c => clrF (f.fld a) (f.of w) t
      | .w1s => orF (f.fld a) (f.of w) t
      | .ro => t
      | .rc => t
      | .wo => t
      | _ => setF (f.fld a) (f.of w) t) s

/-! Reserved values that one field does not decide (R9). -/

/-! Bit timing (R284). -/

/-- A CAN_NBT word is not reserved. -/
def nbtOk (w : Nat) : Bool :=
  let b := 1 + (bitsOf w 8 8 + 1) + (bitsOf w 16 7 + 1)
  bitsOf w 24 7 ≤ bitsOf w 16 7 && 4 ≤ b && 80 ≤ (bitsOf w 0 8 + 1) * b

/-- A CAN_DBT or CAN_XBT word is not reserved; `cycles` is the shortest bit in CK_CAN cycles. -/
def dbtOk (cycles w : Nat) : Bool :=
  let b := 1 + (bitsOf w 8 5 + 1) + (bitsOf w 16 4 + 1)
  bitsOf w 24 4 ≤ bitsOf w 16 4 && 4 ≤ b && cycles ≤ (bitsOf w 0 5 + 1) * b

/-- A TSY_FADJ word is within ±17,179,869 (R318). -/
def fadjOk (w : Nat) : Bool := w ≤ 17179869 || 2 ^ 32 - 17179869 ≤ w

/-- A CAN tile's word (R284, R301). -/
def canWordOk (fn o w : Nat) : Bool :=
  match o with
  | 0x008 => bitsOf w 6 2 != 3
  | 0x00C => nbtOk w
  | 0x010 => dbtOk 10 w
  | 0x014 => fn = 2 && dbtOk 4 w
  | _ => true

/-- A serial tile's word (R327, R329, R330). -/
def serWordOk (fn o w : Nat) : Bool :=
  if fn = 7 then true
  else if o = 0x008 then
    let d := bitsOf w 0 22
    if fn = 3 || fn = 4 then 32000 ≤ d && d ≤ 640000 else 64 ≤ d && d ≤ 2133334
  else if fn = 3 || fn = 4 then
    if 0x100 ≤ o && o < 0x200 then bitsOf w 6 3 ≤ 4 else if 0x200 ≤ o && o < 0x300 then bitsOf w 0 2 ≤ 2 else true
  else true

/-- A tile's wake word: WKS_TCFG by function and the wake-capable flag (R341), WKS_TBT (R342). -/
def wakeWordOk (n o w : Nat) (s : State) : Bool :=
  let fn := tileFunc n s
  let m := bitsOf w 0 2
  if o = 0 then
    (m = 0 || (isSet (FAB_TCFG_wake n) s && fn ≤ 4)) && !(m = 2 && (fn > 2 || w.testBit 3)) &&
      (bitsOf w 4 3 = 0 || fn = 3 || fn = 4)
  else if o = 4 then
    let cyc := bitsOf w 0 10
    let sp := bitsOf w 10 10
    let sjw := bitsOf w 20 6
    1 ≤ sp && sp < cyc && sjw ≤ sp && sjw ≤ cyc - sp
  else true

/-- The word is not a reserved value of the register at an address, beyond its fields' own ranges. -/
def wordOk (a w : Nat) (s : State) : Bool :=
  if tileWindow a then
    let fn := tileFunc (tileOfAddr a) s
    if fn = 1 || fn = 2 then canWordOk fn (a % 0x1000) w else serWordOk fn (a % 0x1000) w
  else if 0x400C1000 ≤ a && a < 0x400C1C00 then wakeWordOk ((a - 0x400C1000) / 0x40) (a % 0x40) w s
  else if 0x400C2000 ≤ a && a < 0x400C2400 then
    a % 0x40 ≠ 0 || !w.testBit 0 || ((bindOf ((a - 0x400C2000) / 0x40) s).map (·.mode)).getD 0 ≠ 4
  else if a = TSY_FADJ_fadj.addr then fadjOk w
  else if a = (EVC_ROUTE_hie 61).addr then !w.testBit 11
  else true

end Sys2Proof.Machine
end

