-- ==== Sys2Proof/Machine/Rings.lean ====
section
/-! DEFINITION. Software's side of the switch core: CPU rings, page windows, page chains, the page arbiter, the block locks and the
counter snapshot (R181 to R188, R199, R200, R229 to R234). -/

namespace Sys2Proof.Machine

/-! The page arbiter (R180 to R185). -/

/-- The first of a list of requesters at or after a pointer, cyclically over 21. -/
def firstAfter (ptr : Nat) (l : List PageReq) : Option PageReq :=
  (List.range 21).findSome? fun k => l.find? fun r => r.idx = (ptr + k) % 21

/-- The port whose quota sets a requester index is charged to: 16 and 20 to port 16. -/
def chargedPort (idx : Nat) : Nat := if idx = 20 then 16 else idx

/-- The quota set of a request. -/
def reqSet (r : PageReq) (s : State) : Option Nat := setIdx (chargedPort r.idx) r.tc s

/-- What a request alone would be answered. -/
def reqAnswer (r : PageReq) (s : State) : PageAnswer :=
  match reqSet r s with
  | some i => pageAnswer i s
  | none => .noPage 1

/-- The source a request asks for: a tile, the car link block or the transcriber of index 17, else the index. -/
def reqSource (r : PageReq) : Nat := if r.idx = 17 then 100 + r.src else r.idx

/-- A page added to a chain being filled. -/
def addFilling (k p : Nat) (s : State) : State := setFilling k (fillingAt k s ++ [p]) s

/-- NO_PAGE to a requester (R184): a lossy frame goes whole, with its pages and its count; a lossless one keeps asking. -/
def noPage (reason : Nat) (r : PageReq) (s : State) : State :=
  if r.lossless then s
  else
    let k := fillKey (reqSource r) false
    let s1 := freePages (fillingAt k s) (setFilling k [] s)
    if r.idx < 20 && r.idx ≠ 16 then countDrop r.idx reason s1 else s1

/-- The one request that index 17 presents of those of its sources: their turns go round over the 48 tiles, the car link block and the
transcriber, in that order (R181, log entry 101). -/
def presented (l : List PageReq) (s : State) : Option PageReq :=
  (List.range 50).findSome? fun k => l.find? fun r => r.src = (s.ink.turn + k) % 50

/-- The requests that the 21 indices present in a cycle. -/
def presentedAll (reqs : List PageReq) (s : State) : List PageReq :=
  (reqs.filter fun r => r.idx < 21 && r.idx ≠ 17) ++ (presented (reqs.filter fun r => r.idx = 17 && r.src < 50) s).toList

/-- A source of port 17 has had its turn. -/
def turnPast (l : List PageReq) (s : State) : State :=
  match l.find? fun r => r.idx = 17 with
  | some r => { s with ink := { s.ink with turn := (r.src + 1) % 50 } }
  | none => s

/-- The request that wins the cycle (R181). -/
def winner (l : List PageReq) (s : State) : Option PageReq :=
  match firstAfter (getF INK_ALLOCSTAT_gptr s) (l.filter fun r => reqAnswer r s == .guaranteed) with
  | some w => some w
  | none => firstAfter (getF INK_ALLOCSTAT_pptr s) (l.filter fun r => reqAnswer r s == .pool)

/-- A requester that the cycle does not grant: a pool requester receives NO_PAGE with its reason (R181, R186). -/
def loses (s0 : State) (r : PageReq) (s : State) : State :=
  match reqAnswer r s0 with
  | .noPage k => noPage k r s
  | .pool => noPage 1 r s
  | .guaranteed => s

/-- PAGE_REQUEST (R181, R182): the requests of one CK_SW cycle; at most one is granted, every other pool request receives NO_PAGE. The grant
sees none of the pages that the losers give back in this cycle. -/
def execPageRequest (reqs : List PageReq) (s : State) : Out :=
  .next <|
    let l := presentedAll reqs s
    let s0 := turnPast l s
    match winner l s with
    | none => applyAll l (loses s) s0
    | some w =>
      match reqSet w s with
      | none => s0
      | some i =>
        let g := grantPage w.idx i s0
        let s1 := addFilling (fillKey (reqSource w) w.lossless) g.1 g.2
        retryHold (reqSource w) (applyAll (l.filter (· ≠ w)) (loses s) s1)

/-! Page chains of software (R188). -/

/-- The refusal shown in INK_PGRESP. -/
def pgRefuse (why : Nat) (s : State) : State :=
  setB INK_PGRESP_done true (setB INK_PGRESP_refused true (setF INK_PGRESP_why why s))

/-- The requester index of a world's software (R180). -/
def softIdx (w : World) : Nat := if w == .secure then 20 else 16

/-- INK_PGREQ (R188): a chain of n pages for a class, judged as one request; granted whole under a lease, page by page through the index of
the writer's world, or refused whole with no page taken. Pages already granted to the index count. -/
def cmdInkPgreq (rq : Requester) (w : Word) (s : State) : State :=
    let n := wbits w 0 9
    let tc := wbits w 9 3
    if n = 0 || n > 64 then busError s
    else
      let s0 := busDone s
      let idx := softIdx (rqWorld rq)
      let k := fillKey idx false
      let have0 := fillingAt k s0
      match setIdx 16 tc s0 with
      | none => pgRefuse 1 s0
      | some i =>
        let why := chainAnswer i (n - have0.length) s0
        if why ≠ 0 then pgRefuse (if why = 1 then 1 else 2) s0
        else if (freeLease (rqTag rq) s0).isNone || ownerFenced (rqTag rq) s0 then pgRefuse 3 (countFull (rqTag rq) s0)
        else
          let r := takePages idx i (n - have0.length) (freePages (have0.drop n) (setFilling k [] s0))
          let pages := have0.take n ++ r.2.1
          match grantLease 1 (pages.headD 0) (rqTag rq) (some (getF INK_LSDUR_pg s)) r.2.2 with
          | none => pgRefuse 3 s0
          | some (l, s1) =>
            setB INK_PGRESP_done true <| setB INK_PGRESP_refused false <| setF INK_PGRESP_lease l <|
              setF INK_PGRESP_page (pages.headD 0) (linkPages pages s1)

/-- The same under the rights of its requester. -/
def execInkPgreq (rq : Requester) (w : Word) (s : State) : Out :=
  .next (gate rq true 0x40040040 0 (cmdInkPgreq rq w) s)

/-- The pages of a leased chain. -/
def leasedPages (n : Nat) (s : State) : List Nat := chainFrom 64 (leaseOf n s).res s

/-- INK_PGFREE (R188): the owner releases a chain by its lease number; its pages lose a reference. -/
def cmdInkPgfree (rq : Requester) (n : Nat) (s : State) : State :=
    if holdsLease n rq s && (leaseOf n s).kind = 1 then
      busDone (setLease n {} (freePages (leasedPages n s) s))
    else busError s

/-- The same under the rights of its requester. -/
def execInkPgfree (rq : Requester) (n : Nat) (s : State) : Out :=
  .next (gate rq true 0x40040048 0 (cmdInkPgfree rq n) s)

/-! The page windows (R232). -/

/-- A world's chain lease covers a page: a lease of the world's own tag or of one of its cores. -/
def pageLeased (w : World) (p : Nat) (s : State) : Bool :=
  s.ink.leases.any fun e => e.2.state == .held && e.2.kind = 1 && worldReach w e.2 && (leasedPages e.1 s).contains p

/-- The requester holds the lease of the chain a page is in: its link may be written (R232). -/
def linkOwned (rq : Requester) (p : Nat) (s : State) : Bool :=
  s.ink.leases.any fun e => e.2.kind = 1 && holdsLease e.1 rq s && (leasedPages e.1 s).contains p

/-- PAGE_WINDOW_ACCESS (R232): a core reads or writes 1, 2 or 4 bytes of page data, or a word of page links. -/
def execPageWindowAccess (rq : Requester) (a size : Nat) (v : Option Word) (s : State) : Out :=
  .next <|
    let data := hostelBase ≤ a && a < hostelBase + 0xC00000
    let link := 0x48C00000 ≤ a && a < 0x48C30000
    let p := if data then (a - hostelBase) / 256 else (a - 0x48C00000) / 4
    let w := rqWorld rq
    if (rqCore rq).isNone || !(data || link) || a % (max 1 size) ≠ 0 || !(size = 1 || size = 2 || size = 4) || (link && size ≠ 4) ||
        p ≥ 49152 then busError s
    else if !pageLeased w p s then violate rq a v.isSome s
    else match v with
      | none =>
        if data then busData (leNat (rdBytes s a size)) s
        else busData (tabGet 0xFFFF s.ink.links p + pageRefs p s * 2 ^ 16) s
      | some x =>
        if data then busDone (wrBytes a (leBytes size x.toNat) s)
        else if !linkOwned rq p s then busError s
        else busDone { s with ink := { s.ink with links := tabPut 0xFFFF s.ink.links p (wbits x 0 16) } }

/-! CPU rings (R229 to R231). -/

/-- The world a ring belongs to. -/
def ringWorld (r : Nat) : World := if r < 16 then .normal else .secure

/-- Slots of a ring. -/
def ringSize (r : Nat) (s : State) : Nat := 2 ^ getF (SWC_RCFG_size r) s

/-- A ring access faulted: the ring is disabled with err, a world violation is recorded (R229). -/
def ringFault (r a : Nat) (write : Bool) (s : State) : State :=
  violation a (ringWorld r) write 3 0 (setB (SWC_RCFG_en r) false (setB (SWC_RSTAT_err r) true s))

/-- RECEIVE_RING_WRITE (R229, R230): the head of the ring's queue goes into the slot at the tail, its chain leased to the world. -/
def execReceiveRingWrite (r : Nat) (s : State) : Out :=
  .next <|
    let tail := getF (SWC_RTAIL_idx r) s
    let next := (tail + 1) % ringSize r s
    let k := queueKey 16 r 0
    if r ≥ 32 || !isSet (SWC_RCFG_en r) s || isSet (SWC_RCFG_dir r) s || next = getF (SWC_RHEAD_idx r) s then s
    else match queueAt k s with
      | [] => s
      | rep :: q =>
        let a := getF (SWC_RBASE_addr r) s + 64 * tail
        let w := ringWorld r
        if !memRange w true a 64 s then ringFault r a true s
        else
          let st := tabGet {} s.swc.rings r
          let finish (w8 : Nat) (t : State) : State :=
            let t1 := wrBytes a (wbEncode rep.wb ++ leBytes 4 w8 ++ List.replicate 28 0) t
            let t2 := setF (SWC_RTAIL_idx r) next (setQueue k q t1)
            let n : RingState := { since := st.since + 1, first := if st.since = 0 then s.ticks else st.first, dropped := 0 }
            { t2 with swc := { t2.swc with rings := tabPut {} t2.swc.rings r n } }
          if rep.wb.inline then finish (1024 + st.dropped * 2 ^ 16) s
          else match grantLease 1 (rep.wb.pages.headD 0) (worldTag w) (some (getF INK_LSDUR_rx s)) s with
            | none => countFull (worldTag w) s
            | some (l, s1) => finish (l % 1024 + st.dropped * 2 ^ 16) s1

/-- RING_INTERRUPT (R230): enough slots, or the moderation time since the first by the model's clock (log entry 109), bring the ring's
interrupt: an MSI-X request, or the interrupt of its core. -/
def execRingInterrupt (r : Nat) (s : State) : Out :=
  .next <|
    let st := tabGet {} s.swc.rings r
    let us := getF (SWC_RIRQ_us r) s
    let due := st.since ≥ getF (SWC_RIRQ_cnt r) s || (us ≠ 0 && s.ticks ≥ st.first + us)
    onlyIf (r < 32 && st.since > 0 && due) (fun s =>
      let s1 := { s with swc := { s.swc with rings := tabPut {} s.swc.rings r { st with since := 0, first := 0 } } }
      if isSet (SWC_RIRQ_msix r) s1 then
        { s1 with evc := { s1.evc with msixReq := s1.evc.msixReq ++ [getF (SWC_RIRQ_vec r) s1] } }
      else emit (.note "ring interrupt" [r, getF (SWC_RIRQ_core r) s1] []) s1) s

/-- The chain lease of a page held by a world or one of its cores. -/
def chainLease (w : World) (p : Nat) (s : State) : Option Nat :=
  (s.ink.leases.find? fun e => e.2.state == .held && e.2.kind = 1 && e.2.res = p && worldReach w e.2).map (·.1)

/-- A directed Waybill: its dmask as written on ports 0 to 15, 17 and 18, and only the police stage (R231). -/
def directed (f : Flow) (m : Nat) (s : State) : State :=
  let f1 := { f with wb := { f.wb with dmask := m &&& 0x6FFFF } }
  match graphRec f.wb.graph s with
  | some g =>
    if g.stages.contains 3 then
      match policeStage f1 g false s with
      | (some f2, s1) => replicate f2 none false false s1
      | (none, s1) => s1
    else replicate f1 none false false s
  | none => replicate f1 none false false s

/-- The slot at a transmit ring's head is done with. -/
def ringAdvance (r : Nat) (s : State) : State :=
  setF (SWC_RHEAD_idx r) ((getF (SWC_RHEAD_idx r) s + 1) % ringSize r s) s

/-- TRANSMIT_SLOT_PROCESS (R231): the slot at the head is checked, skipped and counted, or its Waybill enters port 16. -/
def execTransmitSlotProcess (r : Nat) (s : State) : Out :=
  .next <|
    let head := getF (SWC_RHEAD_idx r) s
    if r ≥ 32 || !isSet (SWC_RCFG_en r) s || !isSet (SWC_RCFG_dir r) s || head = getF (SWC_RTAIL_idx r) s then s
    else
      let a := getF (SWC_RBASE_addr r) s + 64 * head
      let w := ringWorld r
      if !memRange w false a 64 s then ringFault r a false s
      else
        let b := rdBytes s a 32
        let page := leAt b 0 2
        let len := leAt b 2 2
        let w1 := leAt b 4 4
        match chainLease w page s with
        | none => ringAdvance r (incF (SWC_RSTAT_bad r) 1 s)
        | some l =>
          let pages := leasedPages l s
          if w1.testBit 15 || len > pages.length * 256 then ringAdvance r (incF (SWC_RSTAT_bad r) 1 s)
          else
            let n := pagesFor len
            let s1 := ringAdvance r (setLease l {} (linkPages (pages.take n) (freePages (pages.drop n) s)))
            let wb : Waybill := { src := 16, tc := bitsOf w1 11 3, lossless := w1.testBit 14, len := len, pages := pages.take n
                                  late := w1.testBit 25
                                  lodger := if w1.testBit 24 then some (bitsOf w1 16 8) else none
                                  gen := getF IMG_RCFG_gen s, time := stamp s }
            let f := wbBytes wb s1
            if isSet (SWC_RCFG_dirc r) s then
              let w2 := { wb with graph := graphFor wb s1, vid := frameVid 16 f s1 }
              directed { wb := w2, frame := f } (leAt b 12 4)
                (ingressCopy w2 false (swBump 16 cRxoct f.length (swBump 16 cRxfrm 1 s1)))
            else enterPipeline wb f false s1

/-- A world reset stops the world's rings (R233): disabled, registers reset, queues flushed and counted. -/
def ringReset (r : Nat) (s : State) : State :=
  let k := queueKey 16 r 0
  let q := queueAt k s
  let lo := (SWC_RBASE_addr r).addr * 32
  let s1 := setQueue k [] (applyAll q dropReplica s)
  ringDrop r q.length { s1 with
    regs := s1.regs.filter fun e => !(lo ≤ e.1 && e.1 < lo + 0x20 * 32)
    swc := { s1.swc with rings := tabDrop s1.swc.rings r } }

/-- The rings of a world reset. -/
def ringsReset (w : World) (s : State) : State :=
  applyAll ((List.range 32).filter fun r => ringWorld r == w) ringReset s

/-! Counters (R234). -/

/-- SWC_SNAP (R234): the 16 counters of a port copied in one cycle, and zeroed with clr. -/
def cmdSwcSnap (_rq : Requester) (w : Word) (s : State) : State :=
    let p := wbits w 0 5
    if p ≥ 20 then busError s
    else
      let s1 := applyAll (List.range 16) (fun i t =>
        setF (SWC_SNAPCNT_cnt (2 * i)) (swCnt p i s) (setF (SWC_SNAPCNT_cnt (2 * i + 1)) (swCnt p i s / 2 ^ 32) t)) s
      let s2 := if wbits w 8 1 = 1 then
          { s1 with swc := { s1.swc with cnts := s1.swc.cnts.filter fun e => e.1 / 16 ≠ p } } else s1
      busDone (setF SWC_SNAPSTAT_port p (setB SWC_SNAPSTAT_done true s2))

/-- The same under the rights of its requester. -/
def execSwcSnap (rq : Requester) (w : Word) (s : State) : Out :=
  .next (gate rq true 0x4007001C 0 (cmdSwcSnap rq w) s)

/-! Block locks (R199, R200). -/

/-- A take of a block lock: granted when free, kept by its holder, else busy (R199). -/
def lockTake (blk : Nat) (busy : Fld) (lease : Fld) (blocked : Bool) (rq : Requester) (s : State) : State :=
  let s0 := busDone s
  match leaseFor 2 blk s0 with
  | some n => if holdsLease n rq s0 then setB busy false s0 else setB busy true s0
  | none =>
    if blocked then setB busy true s0
    else match grantLease 2 blk (rqTag rq) (some (getF INK_LSLOCK_ms s0)) s0 with
      | some (n, s1) => setF lease n (setB busy false s1)
      | none => setB busy true (countFull (rqTag rq) s0)

/-- SWC_LOCK_TAKE (R199). -/
def cmdSwcLockTake (rq : Requester) (s : State) : State := lockTake 0 SWC_LOCK_busy SWC_LOCK_lease false rq s

/-- The same under the rights of its requester. -/
def execSwcLockTake (rq : Requester) (s : State) : Out :=
  .next (gate rq true 0x40070000 0 (cmdSwcLockTake rq) s)

/-- FWT_LOCK_TAKE (R199, R254): refused as busy while a committed overlay drains. -/
def cmdFwtLockTake (rq : Requester) (s : State) : State := lockTake 1 FWT_LOCK_busy FWT_LOCK_lease (isSet FWT_STAT_drain s) rq s

/-- The same under the rights of its requester. -/
def execFwtLockTake (rq : Requester) (s : State) : Out :=
  .next (gate rq true 0x40080000 0 (cmdFwtLockTake rq) s)

/-- One staged LK write takes effect (R200): SWC_VLMEM writes the VLAN its selector named, every other register its LK fields. -/
def applyStaged (x : Staged) (s : State) : State :=
  if x.addr = SWC_VLMEM_member.addr then
    { s with swc := { s.swc with vlan := tabPut (0, 0) s.swc.vlan x.sel (bitsOf x.value 0 16, bitsOf x.value 16 16) } }
  else match findReg x.addr s with
    | some d => writeFields (fun a => a == .lk) d x.addr x.value s
    | none => s

/-- The port whose gate registers a staged write concerns. -/
def gatePort (x : Staged) : Option Nat :=
  if 0x40071000 ≤ x.addr && x.addr < 0x40071000 + 12 * 0x400 then
    let o := (x.addr - 0x40071000) % 0x400
    if (0x008 ≤ o && o < 0x024) || (0x100 ≤ o && o < 0x200) then some ((x.addr - 0x40071000) / 0x400) else none
  else none

/-- The SWC lock is released (R200, R222): every staged write at once, then the admin lists of the ports it touched. -/
def swcCommit (s : State) : State :=
  let l := s.swc.staged
  let s1 := applyAll l applyStaged { s with swc := { s.swc with staged := [] } }
  applyAll ((List.range 12).filter fun p => l.any fun x => gatePort x == some p) gateCommit s1

/-- The SWC lock is lost (R204): the staged writes are discarded. -/
def swcDiscard (s : State) : State := { s with swc := { s.swc with staged := [] } }

end Sys2Proof.Machine
end

