-- ==== Sys2Proof/Machine/Keys.lean ====
section
/-! DEFINITION. The key store, the lifecycle and the image keys (spec/16): generation table, blobs, shelf, slots, loads and wraps,
and the commands on them. -/

namespace Sys2Proof.Machine

/-! Rights. -/

/-- A write of the secure world's alone to a KST register: from elsewhere a world violation (R412, R414). -/
def kstWrite (rq : Requester) (a : Nat) (g : State → State) (s : State) : State :=
  if rqSecure rq then g s else violate rq a true s

/-- A keyed command of the key store: the key must be 0x6C3E, another value is reserved (R9). -/
def kstKeyed (rq : Requester) (a key : Nat) (g : State → State) (s : State) : State :=
  kstWrite rq a (fun s => if key = 0x6C3E then g (busDone s) else busError s) s

/-- The key store is disabled in BLANK and SCRAPPED (R396). -/
def kstOff (s : State) : Bool := lifecycle s == 0 || lifecycle s == 5

/-- A violation by a unit WLD_VIOL1.src has no code for: the code shown is not stated. -/
def unitViolation (a : Nat) (w : World) (write : Bool) (s : State) : State :=
  let r := drawFree 3 s
  violation a w write r.1 0 r.2

/-! The ledger store's write counters (R474). -/

/-- A write into a block of a region of the ledger store. -/
def storeWrite (region blk : Nat) (s : State) : State :=
  let k := 256 * region + blk
  { s with store := { s.store with blockWrites := tabPut 0 s.store.blockWrites k (tabGet 0 s.store.blockWrites k + 1) } }

/-! The DRBG (R436, R437). -/

/-- The DRBG has failed or is not instantiated. -/
def drbgDown (s : State) : Bool := isSet DRG_STAT_fail s || !isSet DRG_STAT_inst s

/-- A reseed: counted, the calls since it start again (R436). -/
def drbgReseed (s : State) : State :=
  if drbgDown s then s
  else incF DRG_STAT_reseeds 1 { s with drg := { s.drg with since := 0, fails := 0 } }

/-- One generate call: 32 bytes; a reseed comes after 65,536 calls (R436). -/
def drbgCall (s : State) : List Byte × State :=
  let b := slice (Config.drbg s.drg.calls) 0 32
  let s1 := { s with drg := { s.drg with calls := s.drg.calls + 1, since := s.drg.since + 1 } }
  (b, if s1.drg.since ≥ 65536 then drbgReseed s1 else s1)

/-- n bytes from the DRBG, by as many calls as it takes. -/
def drbgBytes : Nat → State → List Byte × State
  | 0, s => ([], s)
  | n + 1, s =>
    let r := drbgCall s
    let t := drbgBytes n r.2
    (r.1 ++ t.1, t.2)

/-! The generation table (R401). -/

/-- A node of the table. -/
def nodeOf (n : Nat) (s : State) : Node := tabGet {} s.store.nodes n

/-- A node set, and the block of the store that holds it written: 64 records of 16 bytes in a block (log entry 10). -/
def setNode (n : Nat) (v : Node) (s : State) : State :=
  storeWrite 1 (n / 64) { s with store := { s.store with nodes := tabPut {} s.store.nodes n v } }

/-- The nodes from n up to node 0, at most d + 1 of them. -/
def nodePath (s : State) : Nat → Nat → List Nat
  | 0, n => [n]
  | d + 1, n => if n = 0 then [0] else n :: nodePath s d (nodeOf n s).parent

/-- The path of a node. -/
def pathOf (n : Nat) (s : State) : List Nat := nodePath s 7 n

/-- The node is live and every node on its path has pgen equal to its parent's generation (R407). -/
def pathOk (n : Nat) (s : State) : Bool :=
  (nodeOf n s).state == .live && (pathOf n s).all fun m => m == 0 || (nodeOf m s).pgen == (nodeOf (nodeOf m s).parent s).gen

/-- A live node has a live child. -/
def hasLiveChild (n : Nat) (s : State) : Bool :=
  s.store.nodes.any fun e => e.1 ≠ 0 && e.2.state == .live && e.2.parent = n

/-- A refused node command. -/
def nodeRefuse (why : Option Nat) (s : State) : State :=
  let s1 := setB KST_NODERES_done true (setB KST_NODERES_refused true s)
  match why with
  | some w => setF KST_NODERES_why w s1
  | none => setFree KST_NODERES_why s1

/-- A completed node command. -/
def nodeDone (s : State) : State := setB KST_NODERES_done true (setB KST_NODERES_refused false s)

/-- NODE_CREATE (R401): the lowest free node under a live parent; its generation rises by 1 (past the greatest one its value is not
stated). -/
def cmdNodeCreate (rq : Requester) (key parent : Nat) (s : State) : State :=
  kstKeyed rq 0x400D00AC key (fun s =>
    let p := nodeOf (parent % 1024) s
    if kstOff s then nodeRefuse none s
    else if p.state ≠ .live then nodeRefuse (some 1) s
    else if p.depth + 1 > 7 then nodeRefuse (some 2) s
    else match (List.range 1024).find? fun n => (nodeOf n s).state == .free with
      | none => nodeRefuse (some 3) s
      | some n =>
        let g := (nodeOf n s).gen + 1
        let r := if g < 2 ^ 32 then (g, s) else drawFree 32 s
        nodeDone <| setF KST_NODERES_node n <|
          setNode n { state := .live, parent := parent % 1024, depth := p.depth + 1, gen := r.1, pgen := p.gen } r.2) s

/-- The same under the rights of its requester. -/
def execNodeCreate (rq : Requester) (key parent : Nat) (s : State) : Out :=
  .next (gate rq true 0x400D00AC 0 (cmdNodeCreate rq key parent) s)

/-- Every live node below n becomes orphaned (R401). -/
def orphanBelow (n : Nat) (s : State) : State :=
  applyAll (s.store.nodes.filter fun e => e.1 ≠ n && e.2.state == .live && (pathOf e.1 s).contains n)
    (fun e t => setNode e.1 { e.2 with state := .orphaned } t) s

/-- A key slot. -/
def slotOf (k : Nat) (s : State) : KeySlot := tabGet {} s.keys.slots k

/-- A key slot replaced. -/
def setSlot (k : Nat) (v : KeySlot) (s : State) : State :=
  { s with keys := { s.keys with slots := tabPut {} s.keys.slots k v } }

/-- The slot is empty. -/
def slotEmpty (k : Nat) (s : State) : Bool := (slotOf k s).key == []

/-- NODE_INVALIDATE (R402): the generation rises, the nodes below are orphaned, and new use of every slot at or below the node stops;
event 39 once when there is such a slot. The sweep and the write to the ledger store are complete with the command. -/
def cmdNodeInvalidate (rq : Requester) (key node : Nat) (s : State) : State :=
  kstKeyed rq 0x400D00AC key (fun s =>
    let n := node % 1024
    let v := nodeOf n s
    if kstOff s then nodeRefuse none s
    else if v.state ≠ .live then nodeRefuse (some 1) s
    else if v.gen = 2 ^ 32 - 1 then nodeRefuse (some 2) s
    else
      let below := (s.store.nodes.filter fun e => e.1 ≠ n && e.2.state == .live && (pathOf e.1 s).contains n).length
      let hit := s.keys.slots.filter fun e => e.2.key ≠ [] && e.2.path.contains n
      let s1 := setNode n { v with gen := v.gen + 1 } (orphanBelow n s)
      let s2 := applyAll hit (fun e t => setSlot e.1 { e.2 with stopped := true } t) s1
      let s3 := nodeDone (setF KST_NODERES_orph below s2)
      if hit = [] then s3 else raise 39 s3) s

/-- The same under the rights of its requester. -/
def execNodeInvalidate (rq : Requester) (key node : Nat) (s : State) : Out :=
  .next (gate rq true 0x400D00AC 0 (cmdNodeInvalidate rq key node) s)

/-- NODE_FREE (R401): an orphaned node, or a live one with no live child; its generation is kept. -/
def cmdNodeFree (rq : Requester) (key node : Nat) (s : State) : State :=
  kstKeyed rq 0x400D00AC key (fun s =>
    let n := node % 1024
    let v := nodeOf n s
    if kstOff s then nodeRefuse none s
    else if n = 0 || (v.state == .live && hasLiveChild n s) then nodeRefuse (some 1) s
    else nodeDone (setNode n { v with state := .free } s)) s

/-- The same under the rights of its requester. -/
def execNodeFree (rq : Requester) (key node : Nat) (s : State) : Out :=
  .next (gate rq true 0x400D00AC 0 (cmdNodeFree rq key node) s)

/-- SLOT_WIPE (R402): a stopped slot whose jobs have ended is wiped, and its leases end as on expiry. -/
def execSlotWipe (k : Nat) (s : State) : Out :=
  .next <| onlyIf ((slotOf k s).stopped && (slotOf k s).users = 0) (fun s =>
    applyAll (s.ink.leases.filter fun e => e.2.state == .held && e.2.kind = 3 && e.2.res = k)
      (fun e t => declare (fun _ n => n == e.1) e.2.owner 3 t) (setSlot k {} s)) s

/-! Blobs (R403, R404). -/

/-- Content bytes of a key type; `bits` counts for type 9. -/
def clenOf (ktype bits : Nat) : Nat :=
  match ktype with
  | 1 => 16
  | 2 => 24
  | 3 => 32
  | 4 => 32
  | 5 => 48
  | 6 => 66
  | 7 => 32
  | 8 => 32
  | 9 => 5 * bits / 16
  | _ => 0

def blMagic (b : List Byte) : Nat := leAt b 0 4
def blFmt (b : List Byte) : Nat := leAt b 4 1
def blKtype (b : List Byte) : Nat := leAt b 5 1
def blClen (b : List Byte) : Nat := leAt b 6 2
def blUsage (b : List Byte) : Nat := leAt b 8 2
def blBits (b : List Byte) : Nat := leAt b 10 2
def blNode (b : List Byte) : Nat := leAt b 12 2
def blLc (b : List Byte) : Nat := leAt b 14 2
def blGen (b : List Byte) : Nat := leAt b 16 4
def blIdent (b : List Byte) : Nat := leAt b 20 8
def blKeyid (b : List Byte) : Nat := leAt b 28 4
def blNonce (b : List Byte) : List Byte := slice b 32 16

/-- Magic and format of a blob. -/
def blShape (b : List Byte) : Bool := blMagic b == 0x31424B48 && blFmt b == 1

/-- Magic, fmt, ktype, clen and the reserved usage bits are right (R410 reason 2). -/
def blHeaderOk (b : List Byte) : Bool :=
  blShape b && 1 ≤ blKtype b && blKtype b ≤ 9 && blClen b == clenOf (blKtype b) (blBits b) && blUsage b < 256

/-- What the wrapping key of a node is derived from: lifecycle code, root area, and the path's nodes and generations (R401). -/
def wrapCtx (node : Nat) (s : State) : List Byte :=
  [BitVec.ofNat 8 (lifecycle s), if s.fuse.bDone.testBit (lifecycle s) then 1 else 0] ++
    (pathOf node s).flatMap fun m => leBytes 2 m ++ leBytes 4 (nodeOf m s).gen

/-- The header checks of a load in the order of R410's reasons: 10, 2, 3, 4, 5, 11, 7, 8. `need` is the user's usage bits, one of
which must be set (0: none needed), `slot` that the key goes to a slot, `normal` that the user is the normal world. -/
def blobWhy (b : List Byte) (need : Nat) (slot normal : Bool) (s : State) : Option Nat :=
  if kstOff s then some 10
  else if !blHeaderOk b then some 2
  else if blIdent b ≠ s.fuse.ident then some 3
  else if blLc b ≠ lifecycle s then some 4
  else if !(blNode b < 1024 && pathOk (blNode b) s && blGen b == (nodeOf (blNode b) s).gen) then some 5
  else if slot && blKtype b > 3 then some 11
  else if need ≠ 0 && blUsage b &&& need = 0 then some 7
  else if normal && !(blUsage b).testBit 7 then some 8
  else none

/-- The content of a blob when its tag verifies. -/
def unwrapBlob (b : List Byte) (s : State) : Option (List Byte) :=
  (Config.unwrap (wrapCtx (blNode b) s) b).map fun c => slice c 0 (blClen b)

/-- A refused load (R410): logged, counted, and event 38, or 39 for reason 5, at most once per millisecond. -/
def loadReject (why user idx : Nat) (s : State) : State :=
  let s1 := setF KST_REJLOG_why why (setF KST_REJLOG_user user (setF KST_REJLOG_idx idx (incF KST_REJCNT_rej 1 s)))
  if why = 5 then raiseOnce 39 0 (incF KST_REJCNT_orph 1 s1) else raiseOnce 38 0 s1

/-! The shelf (R406, R407). -/

/-- The shelf index a handle names, when its store is 1 and its top byte 0. -/
def handleIdx (h : Nat) : Option Nat :=
  if bitsOf h 16 16 = 1 && h % 65536 < 512 then some (h % 65536) else none

/-- The blob at a shelf index. -/
def shelfAt (i : Nat) (s : State) : Option (List Byte) := (tabGet (0, []) s.store.shelf i).2 |> fun b => if b = [] then none else some b

/-- The blob a handle names. -/
def handleBlob (h : Nat) (s : State) : Option (List Byte) := (handleIdx h).bind fun i => shelfAt i s

/-- Free bytes of the shelf. -/
def shelfFree (s : State) : Nat := 65536 - (s.store.shelf.map fun e => e.2.2.length).sum

/-- The lowest place where n bytes are free (R406, first fit). -/
def shelfPlace (n : Nat) (s : State) : Option Nat :=
  let l := s.store.shelf.map (·.2)
  let c := 0 :: l.map fun e => e.1 + e.2.length
  let ok := c.filter fun o => o + n ≤ 65536 && l.all fun e => o + n ≤ e.1 || e.1 + e.2.length ≤ o
  ok.foldl (fun b o => match b with
    | none => some o
    | some x => some (min x o)) none

/-- The 1 KiB blocks a write of the shelf touches. -/
def shelfBlocks (o n : Nat) : List Nat := (List.range 64).filter fun b => o < (b + 1) * 1024 && b * 1024 < o + n

/-- A blob written to an index, replacing its entry when whole; nothing when there is no space. -/
def shelfPut (i : Nat) (b : List Byte) (s : State) : Option State :=
  (shelfPlace b.length s).map fun o =>
    applyAll (shelfBlocks o b.length) (storeWrite 2) <| storeWrite 2 64
      { s with store := { s.store with shelf := tabPut (0, []) s.store.shelf i (o, b) } }

/-- n bytes from an address lie in secure RAM. -/
def secRamRange (a n : Nat) : Bool := secRamBase ≤ a && a + n ≤ secRamBase + secRamSize

/-- The result of a shelf command. -/
def shelfResult (refused : Bool) (s : State) : State :=
  setB KST_SHELFRES_done true (setB KST_SHELFRES_refused refused s)

/-- SHELF_WRITE (R406): the blob at KST_SHELFSRC into an index. -/
def cmdShelfWrite (rq : Requester) (key idx : Nat) (s : State) : State :=
  kstKeyed rq 0x400D00E4 key (fun s =>
    let a := getF KST_SHELFSRC_addr s
    let h := rdBytes s a 48
    let n := 64 + blClen h
    if !secRamRange a 48 || !blShape h || !secRamRange a n then shelfResult true s
    else match shelfPut (idx % 512) (rdBytes s a n) s with
      | some s1 => shelfResult false s1
      | none => shelfResult true s) s

/-- The same under the rights of its requester. -/
def execShelfWrite (rq : Requester) (key idx : Nat) (s : State) : Out :=
  .next (gate rq true 0x400D00E4 0 (cmdShelfWrite rq key idx) s)

/-- SHELF_ERASE (R406). -/
def cmdShelfErase (rq : Requester) (key idx : Nat) (s : State) : State :=
  kstKeyed rq 0x400D00E4 key (fun s =>
    shelfResult false (storeWrite 2 64 { s with store := { s.store with shelf := tabDrop s.store.shelf (idx % 512) } })) s

/-- The same under the rights of its requester. -/
def execShelfErase (rq : Requester) (key idx : Nat) (s : State) : Out :=
  .next (gate rq true 0x400D00E4 0 (cmdShelfErase rq key idx) s)

/-! Slots and loads (R408 to R410). -/

/-- One of a list, by the free value: which one the part takes is not stated (log entry 8). -/
def pickOf (l : List Nat) (s : State) : Nat × State :=
  (l.getD (Config.freeValue s.freeCount % (max 1 l.length)) 0, { s with freeCount := s.freeCount + 1 })

/-- Held leases that name a slot. -/
def slotLeases (k : Nat) (s : State) : Nat := (s.ink.leases.filter fun e => e.2.state == .held && e.2.kind = 3 && e.2.res = k).length

/-- The slot's state as KST_SLOTINFO0 shows it (R409). -/
def slotState2 (k : Nat) (s : State) : Nat :=
  if slotEmpty k s then 0 else if (slotOf k s).users > 0 then 3 else if slotLeases k s > 0 then 2 else 1

/-- A loaded slot whose blob's header matches in node, gen and nonce, with new use not stopped (R402, R408). -/
def slotMatch (b : List Byte) (s : State) : Option Nat :=
  (s.keys.slots.find? fun e => e.2.key ≠ [] && !e.2.stopped && e.2.node = blNode b && e.2.gen = blGen b && e.2.nonce = blNonce b).map (·.1)

/-- A slot for a new key: an empty one, else the cached one used least recently (R409). -/
def slotFor (s : State) : Option (Nat × State) :=
  let empty := (List.range 64).filter fun k => slotEmpty k s
  if empty ≠ [] then some (pickOf empty s)
  else
    let c := (List.range 64).filter fun k => slotState2 k s = 1
    match c with
    | [] => none
    | k :: r => some (r.foldl (fun b x => if (slotOf x s).last < (slotOf b s).last then x else b) k, s)

/-- The slot is used now. -/
def touchSlot (k : Nat) (s : State) : State :=
  setSlot k { slotOf k s with last := s.keys.uses + 1 } { s with keys := { s.keys with uses := s.keys.uses + 1 } }

/-- A checked blob's key placed in a slot, or the reason it cannot be: the path again (5), the tag (6), no slot (9). -/
def placeKey (b : List Byte) (idx : Nat) (s : State) : Nat ⊕ (Nat × State) :=
  match slotMatch b s with
  | some k => .inr (k, touchSlot k s)
  | none =>
    if !(pathOk (blNode b) s && blGen b == (nodeOf (blNode b) s).gen) then .inl 5
    else match unwrapBlob b s with
      | none => .inl 6
      | some c => match slotFor s with
        | none => .inl 9
        | some (k, s1) =>
          .inr (k, touchSlot k (setSlot k { key := c, ktype := blKtype b, usage := blUsage b, keyid := blKeyid b, node := blNode b
                                            gen := blGen b, nonce := blNonce b, idx := idx, path := pathOf (blNode b) s } s1))

/-- A load by a hardware user (R408, R409): 3 loader, 4 authenticate stage, 5 hierarchy; the slot it receives. -/
def hwLoad (user h need : Nat) (s : State) : Option Nat × State :=
  let idx := h % 65536
  match handleBlob h s with
  | none => (none, loadReject (if kstOff s then 10 else 1) user idx s)
  | some b => match blobWhy b need true false s with
    | some w => (none, loadReject w user idx s)
    | none => match placeKey b idx s with
      | .inl w => (none, loadReject w user idx s)
      | .inr (k, s1) => (some k, s1)

/-- A handle resolves for a binding, by the header only (R407). -/
def resolves (h need : Nat) (s : State) : Bool :=
  match handleBlob h s with
  | some b => blShape b && blIdent b == s.fuse.ident && blLc b == lifecycle s && blNode b < 1024 && pathOk (blNode b) s &&
      blGen b == (nodeOf (blNode b) s).gen && blUsage b &&& need ≠ 0
  | none => false

/-- The copy of the load registers a world has: 0 secure, 1 normal (R410). -/
def nsOf (w : World) : Nat := if w == .secure then 0 else 1

/-- A software load decided with a refusal. -/
def loadRefuse (w : World) (why idx : Nat) (s : State) : State :=
  setB (KST_LOADRES_done (nsOf w)) true <| setB (KST_LOADRES_refused (nsOf w)) true <| setF (KST_LOADRES_why (nsOf w)) why <|
    loadReject why (if w == .secure then 1 else 2) idx s

/-- The usage a software load needs: CMAC bits in the normal world, any AES key in the secure world (R404). -/
def swNeed (w : World) : Nat := if w == .secure then 0 else 3

/-- KEY_LOAD (R408, R410): a write to the world's KST_LOADCMD; with go the blob is fetched and its header checked. -/
def cmdKeyLoad (rq : Requester) (w : Word) (s : State) : State :=
    let wd := rqWorld rq
    let ns := nsOf wd
    let src := getF (KST_LOADSRC_src ns) s
    if wbits w 0 1 = 0 then busDone s
    else
      let s0 := setB (KST_LOADRES_done ns) false (setB (KST_LOADRES_refused ns) false (busDone s))
      let idx := if wbits w 1 1 = 1 then 0xFFFF else src % 65536
      let start (b : List Byte) (t : State) : State :=
        match blobWhy b (swNeed wd) true (wd == .normal) t with
        | some y => loadRefuse wd y idx t
        | none => { t with keys := { t.keys with loads := t.keys.loads ++ [{ rq := rq, idx := idx, blob := b }] } }
      if kstOff s0 then loadRefuse wd 10 idx s0
      else if wbits w 1 1 = 1 then
        let n := 64 + blClen (rdBytes s0 src 48)
        if !memRange wd false src 48 s0 || !memRange wd false src n s0 then
          loadRefuse wd 8 idx (violation src wd false 4 0 s0)
        else start (rdBytes s0 src n) s0
      else match handleBlob src s0 with
        | none => loadRefuse wd 1 idx s0
        | some b => start b s0

/-- The same under the rights of its requester. -/
def execKeyLoad (rq : Requester) (w : Word) (s : State) : Out :=
  .next (gate rq true (if rqSecure rq then 0x400D0084 else 0x400D0884) 0 (cmdKeyLoad rq w) s)

/-- KEY_LOAD_DONE (R408, R409): the oldest load under way places its key and takes a lease of kind 3, or is refused. -/
def execKeyLoadDone (s : State) : Out :=
  .next <| match s.keys.loads with
    | [] => s
    | j :: r =>
      let wd := rqWorld j.rq
      let s0 := { s with keys := { s.keys with loads := r } }
      match placeKey j.blob j.idx s0 with
      | .inl y => loadRefuse wd y j.idx s0
      | .inr (k, s1) => match grantLease 3 k (rqTag j.rq) none s1 with
        | none => setB (KST_LOADRES_done (nsOf wd)) true <| setB (KST_LOADRES_refused (nsOf wd)) true <|
            setFree (KST_LOADRES_why (nsOf wd)) (countFull (rqTag j.rq) s1)
        | some (l, s2) => setB (KST_LOADRES_done (nsOf wd)) true <| setF (KST_LOADRES_slot (nsOf wd)) k <|
            setF (KST_LOADRES_lease (nsOf wd)) l s2

/-! Wraps (R405). -/

/-- ktype and usage agree (R404). -/
def usageFits (ktype usage : Nat) : Bool :=
  usage < 256 && (if ktype ≤ 3 then bitsOf usage 5 2 = 0 else bitsOf usage 0 5 = 0)

/-- A refused wrap. -/
def wrapRefuse (s : State) : State := setB KST_WRAPRES_done true (setB KST_WRAPRES_refused true s)

/-- WRAP (R405): a write of KST_WRAPGO; the key is generated or imported and the wrap starts. The modulus length of an imported RSA
key has no register, and the nonce is the key store's choice: both free. -/
def cmdWrap (rq : Requester) (w : Word) (s : State) : State :=
  kstWrite rq 0x400D00D0 (fun s =>
    if wbits w 10 1 = 0 then busDone s
    else
      let kt := getF KST_WRAPCFG_ktype s
      let node := getF KST_WRAPCFG_node s
      let src := getF KST_WRAPCFG_src s
      let us := getF KST_WRAPCFG_usage s
      let out := getF KST_WRAPOUT_addr s
      let inA := getF KST_WRAPIN_addr s
      let s0 := setB KST_WRAPRES_done false (setB KST_WRAPRES_refused false (busDone s))
      let r := drawFree 16 s0
      let bits := if kt = 9 then 1024 + 64 * (r.1 % 49) else 0
      let n := clenOf kt bits
      if kstOff s0 || kt = 0 || kt > 9 || src = 0 || src = 3 || (kt = 9 && src = 1) || (nodeOf node s0).state ≠ .live || !usageFits kt us ||
          !secRamRange out (64 + n) || (src = 2 && !secRamRange inA n) || (src = 1 && drbgDown s0) then wrapRefuse s0
      else
        let s1 := if kt = 9 then r.2 else s0
        let c := if src = 1 then drbgBytes ((n + 31) / 32) s1 else (rdBytes s1 inA n, s1)
        let nonce := drawFree 128 c.2
        let hdr := leBytes 4 0x31424B48 ++ [1] ++ leBytes 1 kt ++ leBytes 2 n ++ leBytes 2 us ++ leBytes 2 bits ++ leBytes 2 node ++
          leBytes 2 (lifecycle s) ++ leBytes 4 (nodeOf node s).gen ++ leBytes 8 s.fuse.ident ++ leBytes 4 (getF KST_WRAPKID_keyid s) ++
          leBytes 16 nonce.1
        let t := nonce.2
        { t with keys := { t.keys with wraps := t.keys.wraps ++
          [{ header := hdr, content := c.1.take n, out := out, src := src, shelf := if wbits w 9 1 = 1 then some (wbits w 0 9) else none }] } }) s

/-- The same under the rights of its requester. -/
def execWrap (rq : Requester) (w : Word) (s : State) : Out :=
  .next (gate rq true 0x400D00D0 0 (cmdWrap rq w) s)

/-- WRAP_DONE (R405): the blob is written to secure RAM, and to the shelf where asked. -/
def execWrapDone (s : State) : Out :=
  .next <| match s.keys.wraps with
    | [] => s
    | j :: r =>
      let s0 := { s with keys := { s.keys with wraps := r } }
      let b := j.header ++ slice (Config.wrap (wrapCtx (blNode j.header) s0) (j.header ++ j.content)) 0 (j.content.length + 16)
      if (nodeOf (blNode j.header) s0).state ≠ .live || (j.src = 1 && drbgDown s0) then wrapRefuse s0
      else
        let s1 := wrBytes j.out b s0
        match j.shelf with
        | none => setB KST_WRAPRES_done true s1
        | some i => match shelfPut i b s1 with
          | some s2 => setB KST_WRAPRES_done true s2
          | none => wrapRefuse s1

/-! Lifecycle, image keys, floor (R393, R399, R400). -/

/-- A transition R393 lets KST_LCREQ make. -/
def lcAllowed (src tgt : Nat) : Bool :=
  (src = 1 && (tgt = 2 || tgt = 3)) || (src = 2 && tgt = 3) || (src = 3 && tgt = 4) || (src ≠ 0 && src ≤ 5 && tgt = 5)

/-- The image-key slots programmed and not revoked. -/
def ikUsable (s : State) : List Nat := (List.range 4).filter fun k => s.fuse.ikProg.testBit k && !s.fuse.ikRev.testBit k

/-- LIFECYCLE_ARM (R393): the target is armed. -/
def cmdLifecycleArm (rq : Requester) (key target : Nat) (s : State) : State :=
  kstKeyed rq 0x400D000C key (fun s =>
    setB KST_LCSTAT_armed true { s with keys := { s.keys with arm := some (target % 8, s.ticks) } }) s

/-- The same under the rights of its requester. -/
def execLifecycleArm (rq : Requester) (key target : Nat) (s : State) : Out :=
  .next (gate rq true 0x400D000C 0 (cmdLifecycleArm rq key target) s)

/-- LIFECYCLE_COMMIT (R393): the burn of the target's fuse starts, or the request is refused. -/
def cmdLifecycleCommit (rq : Requester) (key target : Nat) (s : State) : State :=
  kstKeyed rq 0x400D000C key (fun s =>
    let tgt := target % 8
    let refuse (why : Nat) (t : State) : State := setB KST_LCSTAT_refused true (setF KST_LCSTAT_why why t)
    let s1 := setB KST_LCSTAT_armed false { s with keys := { s.keys with arm := none } }
    if !lcAllowed (lifecycle s) tgt then refuse 1 s1
    else if tgt = 3 && ikUsable s = [] then refuse 2 s1
    else match s.keys.arm with
      | some (t, at0) => if t = tgt && s.ticks ≤ at0 + 1000 then { s1 with keys := { s1.keys with burning := some tgt } } else refuse 3 s1
      | none => refuse 3 s1) s

/-- The same under the rights of its requester. -/
def execLifecycleCommit (rq : Requester) (key target : Nat) (s : State) : Out :=
  .next (gate rq true 0x400D000C 0 (cmdLifecycleCommit rq key target) s)

/-- The transition fuse of a target set. -/
def burnFuse (tgt : Nat) (f : FuseState) : FuseState :=
  match tgt with
  | 2 => { f with b := true }
  | 3 => { f with g := true }
  | 4 => { f with j := true }
  | 5 => { f with s := true }
  | _ => f

/-- The result of an image-key command. -/
def ikResult (why : Option Nat) (s : State) : State :=
  match why with
  | some w => setB KST_IKRES_done true (setB KST_IKRES_refused true (setF KST_IKRES_why w s))
  | none => setB KST_IKRES_done true (setB KST_IKRES_refused false s)

/-- The hash in KST_IKHASH. -/
def ikHashIn (s : State) : List Byte := (List.range 12).flatMap fun i => leBytes 4 (getF (KST_IKHASH_hash i) s)

/-- IMAGE_KEY_PROGRAM (R399): from the secure world in QUARTZ to JET, from the debug TAP in QUARTZ; hash, then programmed fuse. -/
def cmdImageKeyProgram (rq : Requester) (key slot : Nat) (s : State) : State :=
    let k := slot % 4
    let dbg := match rq with
      | .debug _ => lifecycle s = 1
      | _ => false
    if !(dbg || (rqSecure rq && !kstOff s)) then violate rq 0x400D0024 true s
    else if key ≠ 0x6C3E then busError s
    else if s.fuse.ikBegun.testBit k || s.fuse.ikProg.testBit k then ikResult (some 1) (busDone s)
    else ikResult none (busDone { s with fuse := { s.fuse with
      ikBegun := s.fuse.ikBegun ||| 2 ^ k
      ikProg := s.fuse.ikProg ||| 2 ^ k
      ikHash := tabPut [] s.fuse.ikHash k (ikHashIn s) } })

/-- The same under the rights of its requester. -/
def execImageKeyProgram (rq : Requester) (key slot : Nat) (s : State) : Out :=
  .next (gate rq true 0x400D0024 4 (cmdImageKeyProgram rq key slot) s)

/-- IMAGE_KEY_REVOKE (R399): never the last usable slot. -/
def cmdImageKeyRevoke (rq : Requester) (key slot : Nat) (s : State) : State :=
    let k := slot % 4
    if !rqSecure rq || kstOff s then violate rq 0x400D0024 true s
    else if key ≠ 0x6C3E then busError s
    else if !s.fuse.ikProg.testBit k || s.fuse.ikRev.testBit k then ikResult (some 1) (busDone s)
    else if (ikUsable s).filter (· ≠ k) = [] then ikResult (some 2) (busDone s)
    else ikResult none (busDone { s with fuse := { s.fuse with ikRev := s.fuse.ikRev ||| 2 ^ k } })

/-- The same under the rights of its requester. -/
def execImageKeyRevoke (rq : Requester) (key slot : Nat) (s : State) : Out :=
  .next (gate rq true 0x400D0024 8 (cmdImageKeyRevoke rq key slot) s)

/-- FLOOR_SET (R400): from KST_FLOOR up to IMG_SECVER. -/
def cmdFloorSet (rq : Requester) (w : Word) (s : State) : State :=
  kstWrite rq 0x400D0074 (fun s =>
    if w.toNat < s.store.floor || w.toNat > getF IMG_SECVER_secver s then busError s
    else busDone (storeWrite 3 1 { s with store := { s.store with floor := w.toNat } })) s

/-- The same under the rights of its requester. -/
def execFloorSet (rq : Requester) (w : Word) (s : State) : Out :=
  .next (gate rq true 0x400D0074 0 (cmdFloorSet rq w) s)

/-! The worlds (R413, R415), boundary scan (R398). -/

/-- WLD_LOCK (R413): the regions are frozen until a full reset. -/
def cmdWldLock (rq : Requester) (w : Word) (s : State) : State := if rqSecure rq then busDone (orF WLD_LOCK_lock (wbits w 0 1) s) else violate rq 0x40100040 true s

/-- The same under the rights of its requester. -/
def execWldLock (rq : Requester) (w : Word) (s : State) : Out :=
  .next (gate rq true 0x40100040 0 (cmdWldLock rq w) s)

/-- SECURE_CALL (R415): the normal world on a core calls; with DEGRADED cause 8 set it gets SECURE_UNAVAILABLE at once. -/
def execSecureCall (core : Nat) (s : State) : Out :=
  .next <| if (causes s).testBit 8 then emit (.note "secure call result" [core, 0xFFFFFF5A] []) s
    else emit (.note "secure world entered" [core] []) s

/-- BOUNDARY_SCAN_INSTRUCTION (R398): in every lifecycle state the instruction is in force; IDCODE shows part 0x4880 and the silicon
step; EXTEST, CLAMP and HIGHZ drive every output ball from its cell but the observe-only ones of bare service. -/
def execBoundaryScanInstruction (i : ScanInstr) (s : State) : Out :=
  .next <|
    let s1 := { s with keys := { s.keys with scan := i } }
    match i with
    | .idcode => emit (.note "idcode" [0x4880, Config.siliconStep] []) s1
    | _ => s1

/-- An output ball is driven from its scan cell now; the observe-only cells are LNKA_TXD, LNKA_DE, LNKB_TXD, LNKB_DE, WIRE_OUT[3:0]
and PWR_REQ (R398). -/
def scanDriven (observeOnly : Bool) (s : State) : Bool :=
  !observeOnly && (s.keys.scan == .extest || s.keys.scan == .clamp || s.keys.scan == .highz)

end Sys2Proof.Machine
end

