-- ==== Sys2Proof/Machine/Image.lean ====
section
/-! DEFINITION. The structure image: its header, sections and records as bytes, and the loader's checks in the order of R152
(spec/05). A check answers the first failure it meets. -/

namespace Sys2Proof.Machine

/-- A failure: its code (R153), and what IMG_STATUS.sect and IMG_DETAIL name (R154). -/
structure ImgFail where
  code : Nat
  sect : Nat := 0
  idx : Nat := 0
  off : Nat := 0
deriving DecidableEq, Repr

/-- The outcome of a check: nothing, or its failure. -/
abbrev Check := Option ImgFail

/-- A failure under a condition. -/
def failIf (c : Bool) (code : Nat) (sect idx off : Nat) : Check := if c then some ⟨code, sect, idx, off⟩ else none

/-- The first failure of a list of checks. -/
def firstFail : List Check → Check
  | [] => none
  | some f :: _ => some f
  | none :: r => firstFail r

/-- The first failure over the elements of a list with their indexes. -/
def checkAll {α : Type} (l : List α) (g : Nat → α → Check) : Check :=
  firstFail (l.zipIdx.map fun e => g e.2 e.1)

/-! The failure codes of R153. -/
abbrev fSTRAP := 0x01
abbrev fBOOTTRY := 0x02
abbrev fLIFECYCLE := 0x03
abbrev fNOIMAGE := 0x10
abbrev fHDRCRC := 0x11
abbrev fFORMAT := 0x12
abbrev fHDRFIELD := 0x13
abbrev fPART := 0x14
abbrev fLCMASK := 0x15
abbrev fROLE := 0x16
abbrev fKIND := 0x17
abbrev fLENGTH := 0x18
abbrev fSIGKEY := 0x20
abbrev fSIGKEYHASH := 0x21
abbrev fSIGBAD := 0x22
abbrev fSECVER := 0x23
abbrev fSECTTABLE := 0x30
abbrev fSECTUNKNOWN := 0x31
abbrev fRECLEN := 0x32
abbrev fRECFIELD := 0x33
abbrev fTILEFUNC := 0x40
abbrev fTILEPINS := 0x41
abbrev fTILECOUNT := 0x42
abbrev fPIPEGRAPH := 0x43
abbrev fHOSTELQUOTA := 0x44
abbrev fTABLESIZE := 0x45
abbrev fLODGERLIMIT := 0x46
abbrev fLODGERDRAM := 0x47
abbrev fKEYBIND := 0x48
abbrev fWIREPOL := 0x49
abbrev fWIRESRC := 0x4A
abbrev fREGSET := 0x4B
abbrev fCABINET := 0x4C
abbrev fWEAR := 0x4D
abbrev fTAMPER := 0x4E
abbrev fDDRINIT := 0x50
abbrev fDELTADISABLED := 0x60
abbrev fDELTABASE := 0x61
abbrev fDELTASCOPE := 0x62
abbrev fDELTABLOCK := 0x63

/-! The header (R125). -/

def hdNsect (h : List Byte) : Nat := leAt h 0x0A 2
def hdKind (h : List Byte) : Nat := leAt h 0x08 1
def hdLen (h : List Byte) : Nat := leAt h 0x0C 4
def hdImageId (h : List Byte) : Nat := leAt h 0x18 4
def hdVersion (h : List Byte) : Nat := leAt h 0x1C 4
def hdSecver (h : List Byte) : Nat := leAt h 0x20 4
def hdSpidiv (h : List Byte) : Nat := leAt h 0x24 1
def hdSig (h : List Byte) : Nat := leAt h 0x2C 4

/-- Every byte of a range is 0. -/
def zeros (b : List Byte) (o n : Nat) : Bool := (slice b o n).all (· == 0)

/-- SYS_REVID.step. -/
def revStep : Nat := Config.siliconStep % 16

/-- Steps 2 to 4 of R152 on a header; `delta` tells the path (R124 to R129, R151). -/
def checkHeader (h : List Byte) (delta : Bool) (s : State) : Check :=
  let step := revStep
  let lo := leAt h 0x14 1
  let hi := leAt h 0x15 1
  let lcm := leAt h 0x16 1
  let rm := leAt h 0x17 1
  let sig := hdSig h
  firstFail [
    failIf (leAt h 0 4 ≠ 0x4F4B5341) fNOIMAGE 0 0 0,
    failIf (leAt h 0x7C 4 ≠ crc32 (byteBits (slice h 0 0x7C))) fHDRCRC 0 0 0,
    failIf (leAt h 4 1 ≠ 1) fFORMAT 0 0 0,
    failIf (leAt h 6 2 ≠ 128 || leAt h 0x28 4 ≠ 128 || hdNsect h < 1 || hdNsect h > 15 || !zeros h 9 1 || !zeros h 0x27 1 ||
      !zeros h 0x44 56 || lcm &&& 0xE1 ≠ 0 || rm &&& 0xF8 ≠ 0 || hdSpidiv h > 5 || leAt h 0x26 1 > 31) fHDRFIELD 0 0 0,
    failIf (leAt h 0x10 4 ≠ 0x4880C0A5 || step < lo || (hi ≠ 15 && step > hi)) fPART 0 0 0,
    failIf (!lcm.testBit (lifecycle s)) fLCMASK 0 0 0,
    failIf (!rm.testBit (getF SYS_STRAP_role s)) fROLE 0 0 0,
    failIf (hdKind h ≠ (if delta then 2 else 1)) fKIND 0 0 0,
    failIf (sig % 16 ≠ 0 || hdLen h ≠ sig + 208 || sig < 128 + 16 * hdNsect h || (!delta && hdLen h > 0x800000)) fLENGTH 0 0 0]

/-! The signature (R147 to R150). -/

/-- SIG's fields of an image. -/
def sigByte (img : List Byte) (o : Nat) : Nat := leAt img (hdSig img + o) 1
def sigPart (img : List Byte) (o n : Nat) : List Byte := slice img (hdSig img + o) n

/-- D: the digest of the signed content (R148). -/
def imageDigest (img : List Byte) : List Byte := Config.sha 2 (img.take (hdSig img + 112))

/-- The key and the two signature numbers are in their domain (R148): a point of P-384 that is not the identity, r and s in 1 to n - 1. -/
def sigDomain (qx qy r s : List Byte) : Bool :=
  onCurve p384Prime p384B (beNat qx) (beNat qy) && scalarOk p384Order (beNat r) && scalarOk p384Order (beNat s)

/-- Step 6 of R152; `least` is the least secver (R150). The reserved bytes 2 to 15 of SIG are not looked at: the spec names no code for them
(log entry 93). -/
def checkSignature (img : List Byte) (least : Nat) (s : State) : Check :=
  let k := sigByte img 1
  let qx := sigPart img 16 48
  let qy := sigPart img 64 48
  firstFail [
    failIf (sigByte img 0 ≠ 1 || k > 3 || !s.fuse.ikProg.testBit k || s.fuse.ikRev.testBit k) fSIGKEY 0 0 0,
    failIf (Config.sha 2 (qx ++ qy) ≠ tabGet [] s.fuse.ikHash k) fSIGKEYHASH 0 0 0,
    failIf (!(sigDomain qx qy (sigPart img 112 48) (sigPart img 160 48) &&
      Config.ecdsaVerify qx qy (sigPart img 112 48) (sigPart img 160 48) (imageDigest img))) fSIGBAD 0 0 0,
    failIf (hdSecver img < least) fSECVER 0 0 0]

/-! The section table (R124, R127 to R129). -/

structure Sect where
  type : Nat
  flags : Nat
  off : Nat
  len : Nat
  recLen : Nat
  count : Nat
deriving DecidableEq, Repr

/-- The entries of the section table. -/
def sections (img : List Byte) : List Sect :=
  (List.range (hdNsect img)).map fun i =>
    let o := 128 + 16 * i
    ⟨leAt img o 2, leAt img (o + 2) 2, leAt img (o + 4) 4, leAt img (o + 8) 4, leAt img (o + 12) 2, leAt img (o + 14) 2⟩

/-- The known record length of a type; 0 for an unknown type (R128). -/
def knownLen (t : Nat) : Nat :=
  match t with
  | 1 => 12
  | 2 => 16
  | 3 => 16
  | 4 => 24
  | 5 => 64
  | 6 => 64
  | 7 => 24
  | 8 => 16
  | 9 => 8
  | 10 => 80
  | _ => 0

/-- Record j of a section. -/
def recBytes (img : List Byte) (e : Sect) (j : Nat) : List Byte := slice img (e.off + e.recLen * j) e.recLen

/-- The section of a type. -/
def sectOf (img : List Byte) (t : Nat) : Option Sect := (sections img).find? fun e => e.type = t

/-- The records of a type, cut to the known length. -/
def recsOf (img : List Byte) (t : Nat) : List (List Byte) :=
  match sectOf img t with
  | some e => (List.range e.count).map fun j => slice (recBytes img e j) 0 (knownLen t)
  | none => []

/-- The places of the sections (R124): multiples of 16, each after the end of the table or of the one before, each starting and ending
before SIG. -/
def checkPlaces (sig : Nat) : Nat → List (Sect × Nat) → Check
  | _, [] => none
  | least, (e, i) :: r => firstFail [
    failIf (e.off % 16 ≠ 0 || e.off < least || e.off ≥ sig || e.off + e.len > sig) fSECTTABLE (e.type % 256) i 4,
    checkPlaces sig (e.off + e.len) r]

/-- An entry's reserved flags, and its records within its length (R127). -/
def checkShape (i : Nat) (e : Sect) : Check :=
  firstFail [
    failIf (e.flags > 1) fSECTTABLE (e.type % 256) i 2,
    failIf (knownLen e.type ≠ 0 && e.recLen * e.count > e.len) fSECTTABLE (e.type % 256) i 8]

/-- The types of the entries (R128): each above the one before, none forbidden on the path, one record where the type has one. -/
def checkTypes (delta : Bool) : Option Nat → List (Sect × Nat) → Check
  | _, [] => none
  | prev, (e, i) :: r => firstFail [
    failIf (prev.any fun p => e.type ≤ p) fSECTTABLE (e.type % 256) i 0,
    failIf (e.type = (if delta then 3 else 10)) fSECTTABLE (e.type % 256) i 0,
    failIf ((e.type = 6 || e.type = 10) && e.count ≠ 1) fSECTTABLE (e.type % 256) i 14,
    checkTypes delta (some e.type) r]

/-- The sections a path needs (R128). -/
def mandatory (delta : Bool) : List Nat := if delta then [10] else [1, 2, 3, 4, 6]

/-- An entry's type and record lengths (R129): an unknown type is skipped where it is optional. -/
def checkKnown (img : List Byte) (i : Nat) (e : Sect) : Check :=
  let k := knownLen e.type
  if k = 0 then failIf (e.flags % 2 = 0) fSECTUNKNOWN (e.type % 256) i 0
  else firstFail [
    failIf (e.recLen < k) fRECLEN e.type 0 (min e.recLen 255),
    checkAll (List.range e.count) fun j _ =>
      match ((recBytes img e j).drop k).findIdx? (· ≠ 0) with
      | some o => some ⟨fRECLEN, e.type, j, min (k + o) 255⟩
      | none => none]

/-- Step 7 of R152: R124, then R127, then R128, then R129, each over the entries in order (log entry 90). -/
def checkSections (img : List Byte) (delta : Bool) : Check :=
  let es := sections img
  firstFail [
    checkPlaces (hdSig img) (128 + 16 * hdNsect img) es.zipIdx,
    checkAll es checkShape,
    checkTypes delta none es.zipIdx,
    firstFail ((mandatory delta).map fun t => failIf ((sectOf img t).isNone) fSECTTABLE t 0 0),
    checkAll es (checkKnown img)]

/-! Records (R130 to R144). -/

/-- n bytes at an offset of a record. -/
def fld1 (r : List Byte) (o : Nat) : Nat := leAt r o 1
def fld2 (r : List Byte) (o : Nat) : Nat := leAt r o 2
def fld4 (r : List Byte) (o : Nat) : Nat := leAt r o 4

def parseTile (r : List Byte) : TileRec :=
  { tile := fld1 r 0, func := fld1 r 1, npins := fld1 r 2, flags := fld1 r 3, pins := (List.range 4).map fun i => fld1 r (4 + i)
    lodger := fld2 r 8, pipe := fld1 r 10, tc := fld1 r 11 }

def parseGraph (r : List Byte) : GraphRec :=
  { graph := fld1 r 1, nstage := fld1 r 2, miss := fld1 r 3, stages := ((List.range 5).map fun i => fld1 r (4 + i)).take (fld1 r 2)
    cpuRing := fld1 r 9, polBase := fld2 r 10, lodger := fld2 r 12, dtc := fld1 r 14 }

def parseBind (r : List Byte) : BindRec :=
  { port := fld1 r 1, graph := fld1 r 2, mode := fld1 r 3, plcaId := fld1 r 4, plcaCnt := fld1 r 5 }

def parsePart (r : List Byte) : PartRec := { port := fld1 r 0, tcmask := fld1 r 1, guar := fld4 r 4, cap := fld4 r 8 }

/-- Bytes of a section's payload at a payload offset (R127). -/
def payload (img : List Byte) (t o n : Nat) : List Byte :=
  match sectOf img t with
  | some e => slice img (e.off + o) n
  | none => []

def parseTable (img r : List Byte) : TableRec :=
  { type := fld1 r 0, flags := fld1 r 1, entries := fld4 r 4, base := fld4 r 8, initN := fld4 r 16
    init := payload img 4 (fld4 r 12) (fld4 r 16 * entSize (fld1 r 0)) }

def parseLodger (img r : List Byte) : LodgerRec :=
  { lid := fld2 r 0, flags := fld1 r 2, period := fld4 r 4, budget := fld4 r 8, deadline := fld4 r 12
    recipe := payload img 5 (fld4 r 16) (fld4 r 20), sigFirst := fld4 r 24, sigN := fld2 r 28
    keys := (List.range (min (fld1 r 30) 8)).map fun i => fld4 r (32 + 4 * i), recOff := fld4 r 16 }

def parsePolicy (r : List Byte) : PolicyRec :=
  { flags := fld4 r 0, devid := fld1 r 4, sbid := fld1 r 5, ethertype := fld2 r 6, vlan := fld2 r 8, wpol := fld1 r 10
    ddrmt := fld1 r 11, wsrc := fld2 r 12, wdeb := fld1 r 14, wdsPeriod := fld2 r 16, shed := fld2 r 18, restore := fld2 r 20
    consistKey := fld4 r 24, wiremsg := fld2 r 28, msgctl := fld2 r 30 }

def parseCab (r : List Byte) : CabRec :=
  match fld1 r 0 with
  | 1 => .motor (fld1 r 1) (fld1 r 2) (fld1 r 3) (fld1 r 4) (fld1 r 5) (fld2 r 6) (fld2 r 8) (fld2 r 10) (fld2 r 12) (fld2 r 14)
      (fld2 r 16) (fld1 r 18)
  | 2 => .group (fld1 r 1) (fld2 r 4)
  | _ => .lamp (fld1 r 1) (fld1 r 2) (fld1 r 3) (fld2 r 4) (fld2 r 6) (fld2 r 8) (fld2 r 10) (fld2 r 12)

def parseWear (r : List Byte) : WearRec := { item := fld2 r 0, inst := fld1 r 2, warn := fld1 r 3, rated := leAt r 4 8 }

def parseReg (r : List Byte) : RegRec := { addr := fld4 r 0, value := fld4 r 4 }

def parseDelta (img : List Byte) : DeltaRec :=
  let r := (recsOf img 10).headD []
  { baseId := fld4 r 0, baseDigest := slice r 8 48, banks := fld1 r 56, nblk := fld2 r 58, blkkey := fld4 r 60, blkOff := fld4 r 64
    tags := (List.range (fld2 r 58)).map fun i => payload img 10 (80 + 16 * i) 16 }

/-- The structure a full image describes, or a delta makes of the running one: a present section gives its kind whole, an absent one leaves
it as it stands (R169). -/
def structureOf (img : List Byte) (base : Structure) : Structure :=
  let has (t : Nat) : Bool := (sectOf img t).isSome
  let banks := (parseDelta img).banks
  let tiles := (recsOf img 1).map parseTile
  { tiles := if has 1 then tiles ++ base.tiles.filter fun t => !banks.testBit (t.tile / 8)
             else base.tiles
    graphs := if has 2 then ((recsOf img 2).filter fun r => fld1 r 0 = 1).map parseGraph else base.graphs
    binds := if has 2 then ((recsOf img 2).filter fun r => fld1 r 0 = 2).map parseBind else base.binds
    parts := if has 3 then (recsOf img 3).map parsePart else base.parts
    tables := if has 4 then
        let ts := (recsOf img 4).map (parseTable img)
        ts ++ base.tables.filter fun t => !ts.any fun u => u.type = t.type
      else base.tables
    lodgers := if has 5 then (recsOf img 5).map (parseLodger img) else base.lodgers
    policy := if has 6 then parsePolicy ((recsOf img 6).headD []) else base.policy
    cabinet := if has 7 then (recsOf img 7).map parseCab else base.cabinet
    wear := if has 8 then (recsOf img 8).map parseWear else base.wear
    regset := if has 9 then (recsOf img 9).map parseReg else base.regset }

/-! TILE (R130, R131, R157). -/

/-- The pins a tile record names. -/
def TileRec.used (t : TileRec) : List Nat := t.pins.take t.npins

/-- Class of a function for the counts of R131: CAN, LIN, UART and HDLC, other. -/
def funcClass (f : Nat) : Nat := if f ≤ 2 then 0 else if f ≤ 4 then 1 else if f ≤ 6 then 2 else 3

/-- How many records of a list a tile's class limit allows. -/
def classLimit (c : Nat) : Nat := if c = 0 then 32 else if c = 3 then 48 else 16

/-- A REGSET record of the structure enables DE of a tile. -/
def deEnabled (n : Nat) (x : Structure) : Bool :=
  ((x.regset.filter fun r => r.addr = (UART_DE_en n).addr).getLast?.map fun r => r.value.testBit 0).getD false

/-- Pin byte j of a TILE record breaks a rule of R131, given the pins other tiles of the bank have taken. -/
def pinTaken (t : TileRec) (taken : List Nat) (j : Nat) : Bool :=
  let q := t.pins.getD j 0xFF
  j < t.npins && (q > 23 || (t.pins.take j).contains q || taken.contains q)

/-- One TILE record among those before it, in the structure it belongs to. A pin byte beyond npins that is not 0xFF is a field out of
range (log entry 91). -/
def checkTile (x : Structure) (i : Nat) (t : TileRec) : Check :=
  let before := x.tiles.take i
  let bank := before.filter fun u => u.tile / 8 = t.tile / 8
  let taken := bank.flatMap TileRec.used
  let p (k : Nat) : Nat := t.pins.getD k 0xFF
  let wakes := (bank.filter fun u => u.flags.testBit 0).length
  firstFail [
    failIf (t.tile > 47) fRECFIELD 1 i 0,
    failIf (t.func < 1 || t.func > 7) fRECFIELD 1 i 1,
    failIf (t.npins < 2 || t.npins > 4) fRECFIELD 1 i 2,
    failIf (t.flags > 1) fRECFIELD 1 i 3,
    checkAll (List.range 4) fun j _ => failIf (t.npins ≤ j && t.pins.getD j 0xFF ≠ 0xFF) fRECFIELD 1 i (4 + j),
    failIf (t.tc > 7) fRECFIELD 1 i 11,
    failIf (before.any fun u => u.tile = t.tile) fTILEFUNC 1 i 0,
    failIf (t.func = 2 && t.tile > 15) fTILEFUNC 1 i 1,
    checkAll (List.range 4) fun j _ => failIf (pinTaken t taken j) fTILEPINS 1 i (4 + j),
    failIf (t.func = 5 && t.npins < 3 && deEnabled t.tile x) fTILEPINS 1 i 2,
    failIf (t.func ≤ 2 && p 0 > 15) fTILEPINS 1 i 4,
    failIf (t.func ≤ 2 && p 1 > 15) fTILEPINS 1 i 5,
    failIf (t.flags.testBit 0 && t.func > 4) fTILEFUNC 1 i 3,
    failIf (t.flags.testBit 0 && (p 1 > 7 || wakes ≥ 4)) fTILEPINS 1 i (if wakes ≥ 4 then 3 else 5),
    failIf ((before.filter fun u => funcClass u.func = funcClass t.func).length ≥ classLimit (funcClass t.func)) fTILECOUNT 1 i 1,
    failIf (!x.graphs.any fun g => g.graph = t.pipe) fPIPEGRAPH 1 i 10,
    failIf (t.lodger ≠ 0xFFFF && !x.lodgers.any fun l => l.lid = t.lodger) fLODGERLIMIT 1 i 8]

/-! PIPE (R132, R133). -/

/-- Entries of a table type of a structure. -/
def tableEntries (t : Nat) (x : Structure) : Nat := ((x.tables.find? fun r => r.type = t).map (·.entries)).getD 0

/-- Modes that suit a port (R133). -/
def modeSuits (p m : Nat) : Bool :=
  if p ≤ 3 then 1 ≤ m && m ≤ 3 else if p ≤ 11 then m = 1 || m = 4 else if p ≤ 15 then m = 5 else m = 0

/-- Field ranges of a raw PIPE record. The spec gives plca_cnt for the coordinator only: another node's may hold any value (log entry 92). -/
def checkPipeFields (i : Nat) (r : List Byte) : Check :=
  if fld1 r 0 = 1 then
    let ns := fld1 r 2
    firstFail [
      failIf (fld1 r 1 > 31) fRECFIELD 2 i 1, failIf (ns < 1 || ns > 5) fRECFIELD 2 i 2, failIf (fld1 r 3 > 2) fRECFIELD 2 i 3,
      checkAll (List.range 5) fun j _ =>
        failIf (if j < ns then fld1 r (4 + j) < 1 || fld1 r (4 + j) > 5 else fld1 r (4 + j) ≠ 0) fRECFIELD 2 i (4 + j),
      failIf (fld1 r 9 > 31) fRECFIELD 2 i 9, failIf (fld1 r 14 > 7) fRECFIELD 2 i 14, failIf (fld1 r 15 ≠ 0) fRECFIELD 2 i 15]
  else if fld1 r 0 = 2 then
    let p := fld1 r 1
    let m := fld1 r 3
    firstFail [
      failIf (p > 19 || p = 17) fRECFIELD 2 i 1, failIf (m > 5) fRECFIELD 2 i 3,
      failIf (if m = 5 then fld1 r 4 > 31 else fld1 r 4 ≠ 0) fRECFIELD 2 i 4,
      failIf (if m = 5 then fld1 r 4 = 0 && (fld1 r 5 < 1 || fld1 r 5 > 32) else fld1 r 5 ≠ 0) fRECFIELD 2 i 5,
      failIf (!zeros r 6 10) fRECFIELD 2 i 6]
  else some ⟨fRECFIELD, 2, i, 0⟩

/-- The stage of a graph that R133 rejects, by its place: one that appears twice, a last one that is not 5, a classify not first, a transcribe
not next to last. -/
def stageBad (st : List Nat) : Option Nat :=
  match (List.range st.length).find? fun j => (st.take j).contains (st.getD j 0) with
  | some j => some j
  | none =>
    if st.getLast? ≠ some 5 then some (st.length - 1)
    else if st.contains 1 && st.head? ≠ some 1 then some (st.idxOf 1)
    else if st.contains 4 && (st.dropLast).getLast? ≠ some 4 then some (st.idxOf 4)
    else none

/-- The rules of R133 on one graph; `i` is its record. A default lodger that names no LODGER record is refused as R131 refuses a tile's
(log entry 92). -/
def checkGraph (x : Structure) (i : Nat) (before : List GraphRec) (g : GraphRec) : Check :=
  let st := g.stages
  firstFail [
    failIf (before.any fun h => h.graph = g.graph) fPIPEGRAPH 2 i 1,
    failIf (stageBad st).isSome fPIPEGRAPH 2 i (4 + (stageBad st).getD 0),
    failIf (st.contains 3 && g.polBase ≥ tableEntries 4 x) fPIPEGRAPH 2 i 10,
    failIf (g.lodger ≠ 0xFFFF && !x.lodgers.any fun l => l.lid = g.lodger) fLODGERLIMIT 2 i 12]

/-- The rules of R133 on one binding. -/
def checkBind (x : Structure) (i : Nat) (before : List BindRec) (b : BindRec) : Check :=
  firstFail [
    failIf (before.any fun c => c.port = b.port) fPIPEGRAPH 2 i 1,
    failIf (!modeSuits b.port b.mode) fPIPEGRAPH 2 i 3,
    failIf (!x.graphs.any fun g => g.graph = b.graph) fPIPEGRAPH 2 i 2]

/-- PIPE: raw records first to last, or the graphs and bindings that stay. -/
def checkPipe (raw : List (List Byte)) (x : Structure) : Check :=
  if raw = [] then
    firstFail [checkAll x.graphs fun i g => checkGraph x i (x.graphs.take i) g, checkAll x.binds fun i b => checkBind x i (x.binds.take i) b]
  else checkAll raw fun i r =>
    let before := raw.take i
    firstFail [checkPipeFields i r,
      if fld1 r 0 = 1 then checkGraph x i ((before.filter fun q => fld1 q 0 = 1).map parseGraph) (parseGraph r)
      else checkBind x i ((before.filter fun q => fld1 q 0 = 2).map parseBind) (parseBind r)]

/-! PART (R134). -/

/-- The sum of guarantees. -/
def sumGuar (x : Structure) : Nat := (x.parts.map (·.guar)).sum

/-- The classes of a port that have quotas. -/
def coverage (p : Nat) (l : List PartRec) : Nat := l.foldl (fun m r => if r.port = p then m ||| r.tcmask else m) 0

/-- Ports that need quotas. -/
def quotaPorts (x : Structure) : List Nat :=
  (List.range 20).filter fun p => (x.binds.any fun b => b.port = p) || (p = 17 && x.tiles ≠ []) || (p = 18 && x.policy.flags.testBit 5)

/-- PART. -/
def checkPart (raw : List (List Byte)) (x : Structure) : Check :=
  firstFail [
    checkAll x.parts fun i r => firstFail [
      failIf (r.port > 19) fRECFIELD 3 i 0, failIf (r.tcmask = 0) fRECFIELD 3 i 1,
      failIf (!zeros (raw.getD i []) 2 2) fRECFIELD 3 i 2, failIf (!zeros (raw.getD i []) 12 4) fRECFIELD 3 i 12,
      failIf (coverage r.port (x.parts.take i) &&& r.tcmask ≠ 0) fHOSTELQUOTA 3 i 1,
      failIf (((x.parts.take (i + 1)).map (·.guar)).sum > 45056) fHOSTELQUOTA 3 i 4,
      failIf (r.cap > 49152 - sumGuar x) fHOSTELQUOTA 3 i 8],
    failIf ((quotaPorts x).any fun p => coverage p x.parts ≠ 0xFF) fHOSTELQUOTA 3 x.parts.length 0]

/-! TABLE (R135, R136). -/

/-- The most entries of a table type. -/
def tableLimit (t : Nat) : Nat :=
  match t with
  | 1 => 131072
  | 2 => 16384
  | 3 => 2048
  | 4 => 4096
  | _ => 65536

/-- Bytes a table occupies. -/
def tableBytes (t : TableRec) : Nat :=
  let n := t.entries * entSize t.type
  ((n + (if t.flags.testBit 0 then n / 4 else 0)) + 4095) / 4096 * 4096

/-- Table memory a list of placed tables occupies: first byte and end. -/
abbrev Region := Nat × Nat

/-- A region meets none of a list. -/
def regionFree (rs : List Region) (b n : Nat) : Bool := rs.all fun r => b + n ≤ r.1 || r.2 ≤ b

/-- The lowest 4096-byte boundary at which n bytes are free: 0, or the end of a region. -/
def lowestFree (rs : List Region) (n : Nat) : Option Nat :=
  ((0 :: rs.map (·.2)).filter fun b => regionFree rs b n && b + n ≤ 0x800000).min?

/-- Tables placed at the lowest free places in ascending type, given the regions taken (R136). -/
def placeAuto (rs : List Region) : List TableRec → Option (List TableRec)
  | [] => some []
  | t :: r =>
    if t.base ≠ 0xFFFFFFFF then (placeAuto rs r).map (t :: ·)
    else match lowestFree rs (tableBytes t) with
      | some b => (placeAuto ((b, b + tableBytes t) :: rs) r).map ({ t with base := b } :: ·)
      | none => none

/-- Regions of the tables with a fixed base. -/
def fixedRegions (l : List TableRec) : List Region :=
  (l.filter fun t => t.base ≠ 0xFFFFFFFF).map fun t => (t.base, t.base + tableBytes t)

/-- Tables in ascending type. -/
def byType (l : List TableRec) : List TableRec := [1, 2, 3, 4, 5].flatMap fun k => l.filter fun t => t.type = k

/-- TABLE: raw records of an image. -/
def checkTable (delta : Bool) (e : Option Sect) (raw : List (List Byte)) (x : Structure) : Check :=
  match e with
  | none => none
  | some e => firstFail [
    checkAll raw fun i r =>
      let t := fld1 r 0
      let n := fld4 r 4
      let before := (x.tables.take raw.length).take i
      let me := x.tables.getD i ⟨0, 0, 0, 0, 0, []⟩
      let first := (e.count * e.recLen + 15) / 16 * 16
      firstFail [
        failIf (t < 1 || t > 5) fRECFIELD 4 i 0, failIf (fld1 r 1 > (if t = 1 then 3 else 0)) fRECFIELD 4 i 1,
        failIf (!zeros r 2 2) fRECFIELD 4 i 2, failIf (!zeros r 20 4) fRECFIELD 4 i 20,
        failIf (fld4 r 8 ≠ 0xFFFFFFFF && (fld4 r 8 % 4096 ≠ 0 || delta)) fRECFIELD 4 i 8,
        failIf (if fld4 r 16 = 0 then fld4 r 12 ≠ 0
          else fld4 r 12 % 16 ≠ 0 || fld4 r 12 < first || fld4 r 12 + fld4 r 16 * entSize t > e.len) fRECFIELD 4 i 12,
        failIf (before.any fun u => u.type = t) fTABLESIZE 4 i 0,
        failIf (n > tableLimit t || (t ≤ 2 && n % 16 ≠ 0) || (t = 1 && (fld1 r 1).testBit 0 && n * 5 > 131072 * 4)) fTABLESIZE 4 i 4,
        failIf (fld4 r 16 > n) fTABLESIZE 4 i 16,
        failIf (fld4 r 8 ≠ 0xFFFFFFFF && (fld4 r 8 + tableBytes me > 0x800000 || !regionFree (fixedRegions before) (fld4 r 8) (tableBytes me)))
          fTABLESIZE 4 i 8],
    failIf (!delta && (placeAuto (fixedRegions x.tables) (byType x.tables)).isNone) fTABLESIZE 4 0 8]

/-! LODGER (R137, R138, R281). -/

/-- Word k of entry i of a lodger's signal range, from the table's initial entries. -/
def initSig (x : Structure) (l : LodgerRec) (i k : Nat) : Nat :=
  match x.tables.find? fun t => t.type = 5 with
  | some t => leAt t.init (16 * (l.sigFirst + i) + 4 * k) 4
  | none => 0

/-- Two ranges of entries meet. -/
def rangesMeet (a b : Nat × Nat) : Bool := 0 < a.2 && 0 < b.2 && a.1 < b.1 + b.2 && b.1 < a.1 + a.2

/-- No two of a list of ranges meet. -/
def rangesApart : List (Nat × Nat) → Bool
  | [] => true
  | a :: r => (r.all fun b => !rangesMeet a b) && rangesApart r

/-- An input record's fields (R265). -/
def inRecOk (r : List Byte) (i : Nat) : Bool :=
  let q := inRec r i
  let f := leAt r (rcInoff r + 16 * i + 3) 1
  q.disp ≤ 1 && q.count ≤ 256 &&
  if q.kind = 1 then q.src ≤ 47 && f < 4 && q.key < 2 ^ 29
  else q.kind = 2 && (q.src ≤ 16 || q.src = 19) && f &&& 0xFD = 0 && (q.idoff ≠ 0xFFFF || q.key < 2 ^ 16)

/-- A data length CAN carries in a format (R275). -/
def canLenOk (fd : Bool) (n : Nat) : Bool := n ≤ 8 || (fd && [12, 16, 20, 24, 32, 48, 64].contains n)

/-- A dsub code that is not reserved (R244): a tile, the transcriber, none. -/
def dsubOk (d : Nat) : Bool := d ≤ 47 || d = 49 || d = 63

/-- An output record's fields (R275, R244). -/
def outRecOk (r : List Byte) (i : Nat) : Bool :=
  let q := outRec r i
  let o := rcOutoff r + 32 * i
  q.trigger ≠ 3 && !q.ctl.testBit 7 && q.graph ≤ 31 && zeros r (o + 13) 1 && zeros r (o + 30) 2 && q.ring ≤ 31 && q.count ≤ 256 &&
  dsubOk (bitsOf q.dest 20 6) && dsubOk (bitsOf q.dest 26 6) && (q.period ≠ 0 || q.trigger = 0) && q.tmpl + q.len ≤ r.length && q.base ≤ q.len &&
  if q.kind = 1 then q.fmt < 8 && q.id < 2 ^ 29 && q.base = 0 && canLenOk (q.fmt.testBit 1) q.len
  else q.kind = 2 && 60 ≤ q.len && q.len ≤ 1514

/-- R281: a lodger's recipe against its signal entries. -/
def recipeOk (x : Structure) (l : LodgerRec) : Bool :=
  let r := l.recipe
  let ins := inRecs r
  let outs := (List.range (rcNout r)).map (outRec r)
  let kind (i : Nat) : Nat := sgKind (initSig x l i 0)
  let entriesOf (a : Nat × Nat) : List Nat := (List.range a.2).map (a.1 + ·)
  let all := List.range l.sigN
  let srcSlots := (all.filter fun i => kind i = 1).map fun i => initSig x l i 1 % 1024
  16 ≤ r.length && rcNin r ≤ 256 && rcNout r ≤ 256 && rcInoff r % 16 = 0 && rcOutoff r % 16 = 0 && zeros r 8 8 &&
  rcInoff r + 16 * rcNin r ≤ r.length && rcOutoff r + 32 * rcNout r ≤ r.length &&
  ((List.range (rcNin r)).all fun i => inRecOk r i) && ((List.range (rcNout r)).all fun i => outRecOk r i) &&
  (ins.all fun q => q.first + q.count ≤ l.sigN && (entriesOf (q.first, q.count)).all fun i => kind i = 1) &&
  (outs.all fun q => q.first + q.count ≤ l.sigN && (entriesOf (q.first, q.count)).all fun i =>
    kind i = 2 &&
      (let w := initSig x l i 0
       (fieldBits (sgOrder w) (sgLen w) (sgStart w)).all fun b => b < 8 * (q.len - q.base))) &&
  rangesApart ((ins.map fun q => (q.first, q.count)) ++ outs.map fun q => (q.first, q.count)) &&
  (ins.map fun q => (q.kind, q.src, q.ide, q.key)).Nodup &&
  ((all.filter fun i => kind i = 2).all fun i => srcSlots.contains (initSig x l i 1 % 1024)) && (all.filter fun i => kind i = 2).length ≤ 1024

/-- Timers of a lodger: its sources with a nonzero tmo (R271). -/
def recipeTimers (x : Structure) (l : LodgerRec) : Nat :=
  ((List.range l.sigN).filter fun i => sgKind (initSig x l i 0) = 1 && initSig x l i 1 / 65536 ≠ 0).length

/-- LODGER. -/
def checkLodger (e : Option Sect) (raw : List (List Byte)) (x : Structure) : Check :=
  let ls := x.lodgers
  let first := (e.map fun s => (s.count * s.recLen + 15) / 16 * 16).getD 0
  let slen := (e.map (·.len)).getD 0
  checkAll ls fun i l =>
    let before := ls.take i
    let upto := ls.take (i + 1)
    let r := raw.getD i []
    firstFail [
      failIf (raw ≠ [] && !zeros r 3 1) fRECFIELD 5 i 3, failIf (raw ≠ [] && !zeros r 31 1) fRECFIELD 5 i 31,
      failIf (l.lid > 255 || before.any fun k => k.lid = l.lid) fLODGERLIMIT 5 i 0,
      failIf (l.flags > 1 || (upto.filter fun k => k.flags.testBit 0).length > 16) fLODGERLIMIT 5 i 2,
      failIf (l.period < 100 || l.period > 1000000) fLODGERLIMIT 5 i 4,
      failIf (l.budget < 1 || l.budget > l.period * 250) fLODGERLIMIT 5 i 8,
      failIf (l.deadline < 100 || l.deadline > l.period) fLODGERLIMIT 5 i 12,
      failIf (raw ≠ [] && (fld4 r 16 % 16 ≠ 0 || fld4 r 16 < first || fld4 r 16 + fld4 r 20 > slen)) fLODGERLIMIT 5 i 16,
      failIf (l.recipe.length % 16 ≠ 0 || l.recipe.length > 49152) fLODGERLIMIT 5 i 20,
      failIf (l.sigFirst + l.sigN > tableEntries 5 x || before.any fun k => rangesMeet (l.sigFirst, l.sigN) (k.sigFirst, k.sigN)) fLODGERLIMIT 5 i 24,
      failIf (raw ≠ [] && fld1 r 30 > 8) fLODGERLIMIT 5 i 30,
      checkAll (List.range 8) fun j _ => failIf (raw ≠ [] && fld1 r 30 ≤ j && fld4 r (32 + 4 * j) ≠ 0) fLODGERLIMIT 5 i (32 + 4 * j),
      failIf (72 / 5 < (upto.map fun k => (k.budget : ℚ) / (250 * k.period)).sum) fLODGERLIMIT 5 i 8,
      failIf (!recipeOk x l || (upto.map fun k => rcNin k.recipe).sum > 8192 || (upto.map (recipeTimers x)).sum > 16384) fLODGERLIMIT 5 i 16]

/-! POLICY (R139, R140). -/

def checkPolicy (raw : List (List Byte)) (x : Structure) (s : State) : Check :=
  match raw with
  | [] => none
  | r :: _ =>
    let p := x.policy
    let role := getF SYS_STRAP_role s
    let pos := p.flags.testBit 2
    firstFail [
      failIf (p.flags ≥ 64) fRECFIELD 6 0 0,
      failIf (role = 0 && pos && !p.flags.testBit 5) fRECFIELD 6 0 0,
      failIf ((role = 1 && p.devid ≠ 0) || (role = 0 && !pos && (p.devid < 1 || p.devid > 61))) fRECFIELD 6 0 4,
      failIf (p.sbid < 1 || p.sbid > 63) fRECFIELD 6 0 5,
      failIf (p.ethertype < 0x600) fRECFIELD 6 0 6,
      failIf (p.vlan < 1 || p.vlan > 4094) fRECFIELD 6 0 8,
      failIf (p.wpol ≥ 16) fRECFIELD 6 0 10,
      failIf (p.wpol.testBit 0 ≠ isSet SYS_STRAP_wpol s) fWIREPOL 6 0 10,
      failIf (p.ddrmt > 2 && s.power.ddrFitted) fRECFIELD 6 0 11,
      failIf (p.wsrc ≥ 512) fRECFIELD 6 0 12,
      failIf (bitsOf p.wsrc 0 3 = 0 || bitsOf p.wsrc 3 3 = 0 || bitsOf p.wsrc 6 3 = 0) fWIRESRC 6 0 12,
      failIf (p.wdeb < 1 || p.wdeb > 100) fRECFIELD 6 0 14,
      failIf (!zeros r 15 1) fRECFIELD 6 0 15,
      failIf (p.wdsPeriod < 1) fRECFIELD 6 0 16,
      failIf (p.shed ≥ 1024) fRECFIELD 6 0 18,
      failIf (!zeros r 22 2) fRECFIELD 6 0 22,
      failIf (p.wiremsg ≥ 2 ^ 13 || p.wiremsg &&& 0x88 ≠ 0) fRECFIELD 6 0 28,
      failIf (p.msgctl ≥ 2 ^ 13 || p.msgctl &&& 0xF0 ≠ 0) fRECFIELD 6 0 30,
      failIf (!zeros r 32 32) fRECFIELD 6 0 32]

/-! CABINET (R141, R440). -/

/-- The used lamps' greatest inrush allowance in a group. -/
def groupInrush (g : Nat) (l : List CabRec) : Nat :=
  l.foldl (fun m c => match c with
    | .lamp ch fl _ _ iinr _ _ _ => if ch / 6 = g && fl.testBit 0 then max m iinr else m
    | _ => m) 0

/-- The kind and number a record names. -/
def CabRec.unit : CabRec → Nat × Nat
  | .motor ch .. => (1, ch)
  | .group g _ => (2, g)
  | .lamp ch .. => (3, ch)

/-- A field is outside its range, and its byte offset in the record. -/
def outside (v lo hi off : Nat) : Bool × Nat := (decide (v < lo) || decide (hi < v), off)

/-- The first field of a CABINET record that leaves its range or breaks an order of R141, by its byte offset: ranges first. -/
def cabBad (x : Structure) (c : CabRec) : Option Nat :=
  let tests : List (Bool × Nat) := match c with
    | .motor ch poles comm sense rev pwm imax rpm vsoft vhard vtrip chop =>
      [outside ch 0 3 1, outside poles 1 16 2, outside comm 1 2 3, outside sense 0 1 4, outside rev 0 2 5, outside pwm 100 1000 6,
       outside imax 500 14000 8, outside rpm 100 30000 10, outside vsoft 100 590 12, outside vtrip 0 590 16, outside chop 0 1 18,
       (decide (rpm * poles > 120000), 10), (decide (vhard ≤ vsoft), 14), (decide (vtrip ≤ vhard), 16)]
    | .group g il => [outside g 0 3 1, outside il 100 11500 4, (decide (il + groupInrush g x.cabinet > 11500), 4)]
    | .lamp ch fl re inom iinr tinr cool hshort =>
      [outside ch 0 23 1, outside fl 0 1 2, outside re 0 7 3, outside inom 10 2000 4, outside tinr 100 65535 8, outside cool 10 10000 10,
       outside hshort 0 2950 12, (decide (iinr < inom), 6), (decide (hshort ≤ iinr), 12),
       (!x.cabinet.any fun d => d.unit = (2, ch / 6), 1)]
  (tests.find? (·.1)).map (·.2)

/-- The first reserved field of a raw CABINET record that is not 0, by its byte offset. -/
def cabReserved (r : List Byte) : Option Nat :=
  let l : List (Nat × Nat) := match fld1 r 0 with
    | 1 => [(19, 5)]
    | 2 => [(2, 2), (6, 18)]
    | _ => [(14, 10)]
  (l.find? fun e => !zeros r e.1 e.2).map (·.1)

def checkCabinet (raw : List (List Byte)) (x : Structure) : Check :=
  checkAll x.cabinet fun i c =>
    let r := raw.getD i []
    firstFail [
      failIf (raw ≠ [] && (fld1 r 0 < 1 || fld1 r 0 > 3)) fCABINET 7 i 0,
      failIf (raw ≠ [] && (cabReserved r).isSome) fRECFIELD 7 i ((cabReserved r).getD 0),
      failIf ((x.cabinet.take i).any fun d => d.unit = c.unit) fCABINET 7 i 1,
      failIf (cabBad x c).isSome fCABINET 7 i ((cabBad x c).getD 0)]

/-! WEAR (R142, R477). -/

/-- The structure makes lamp channel ch used; it gives motor channel ch (R469). -/
def lampUsedIn (x : Structure) (ch : Nat) : Bool := x.cabinet.any fun c => match c with
  | .lamp k fl .. => k = ch && fl.testBit 0
  | _ => false
def motorUsedIn (x : Structure) (ch : Nat) : Bool := x.cabinet.any fun c => c.unit = (1, ch)

/-- An item and instance exist under a structure (R469). -/
def itemExists (x : Structure) (item inst : Nat) : Bool :=
  match item with
  | 0x0101 => lampUsedIn x inst
  | 0x0102 => lampUsedIn x inst
  | 0x0201 => motorUsedIn x inst
  | 0x0202 => motorUsedIn x inst
  | 0x0203 => motorUsedIn x inst
  | 0x0301 => inst = 0
  | 0x0302 => inst ≤ 7
  | 0x0303 => inst ≤ 3
  | 0x0401 => inst = 0
  | 0x0501 => inst ≤ 3
  | 0x0502 => inst ≤ 1
  | _ => false

def checkWear (raw : List (List Byte)) (x : Structure) : Check :=
  checkAll x.wear fun i w => firstFail [
    failIf (raw ≠ [] && !zeros (raw.getD i []) 12 4) fRECFIELD 8 i 12,
    failIf (!itemExists x w.item w.inst) fWEAR 8 i (if [0x0101, 0x0102, 0x0201, 0x0202, 0x0203, 0x0301, 0x0302, 0x0303, 0x0401, 0x0501, 0x0502].contains w.item then 2 else 0),
    failIf (w.warn < 1 || w.warn > 99) fRECFIELD 8 i 3,
    failIf (w.rated = 0) fWEAR 8 i 4,
    failIf ((x.wear.take i).any fun v => v.item = w.item && v.inst = w.inst) fWEAR 8 i 0]

/-! REGSET (R143). -/

/-- The state with the tile functions and the bindings of a structure, for finding registers and their reserved values. -/
def withFuncs (x : Structure) (s : State) : State :=
  applyAll x.tiles (fun t u => setB (FAB_TCFG_wake t.tile) (t.flags.testBit 0) (setF (FAB_FUNC_fn (t.tile / 8) (t.tile % 8)) t.func u))
    (applyAll (List.range 48) (fun n => setF (FAB_FUNC_fn (n / 8) (n % 8)) 0) { s with str := x })

/-- A field takes its value from an image. -/
def Acc.presettable : Acc → Bool
  | .imf => true
  | a => a.writable

/-- An address no REGSET record may name for its block, its banking or POLICY. -/
def regsetClosed (a : Nat) : Bool :=
  [0x0, 0x1, 0x2, 0x5, 0xD, 0x10, 0x15].contains ((a - 0x40000000) / 0x10000) ||
  a = LNK_WIREDEB_deb.addr || a = LNK_MSGCTL_en.addr || (0x400B0100 ≤ a && a ≤ 0x400B011C) ||
  a = EVC_THRESH_min.addr || a = EVC_CLAIM_event.addr

/-- A register belongs to a tile or a port the structure leaves unused: in its own window, or one of its registers in FAB and WKS (log
entry 94). -/
def unitUnused (x : Structure) (a : Nat) : Bool :=
  let tile (n : Nat) : Bool := !x.tiles.any fun t => t.tile = n
  let port (p : Nat) : Bool := !x.binds.any fun b => b.port = p
  if tileWindow a then tile (tileOfAddr a)
  else if portWindow a then port (portOfAddr a)
  else if 0x40060100 ≤ a && a < 0x400601C0 then tile ((a - 0x40060100) / 4)
  else if 0x40060200 ≤ a && a < 0x400602C0 then tile ((a - 0x40060200) / 4)
  else if 0x400C1000 ≤ a && a < 0x400C1C00 then tile ((a - 0x400C1000) / 0x40)
  else if 0x400C2000 ≤ a && a < 0x400C2400 then port ((a - 0x400C2000) / 0x40)
  else false

/-- One REGSET record under the structure; `st` finds the registers. -/
def regsetOk (x : Structure) (st : State) (r : RegRec) : Bool :=
  r.addr % 4 = 0 && 0x40000000 ≤ r.addr && !regsetClosed r.addr && !unitUnused x r.addr &&
  match findReg r.addr st with
  | none => false
  | some d =>
    d.fields.any (fun f => f.acc.presettable) && d.fields.all (fun f => !f.acc.presettable || f.ok r.value) && wordOk r.addr r.value st &&
    natAndNot r.value ((d.fields.map fun f => (2 ^ f.width - 1) * 2 ^ f.lo).foldl (· ||| ·) 0) = 0

def checkRegset (x : Structure) (s : State) : Check :=
  let st := withFuncs x s
  checkAll x.regset fun i r => failIf (!regsetOk x st r) fREGSET 9 i (if regsetOk x st { r with value := 0 } then 4 else 0)

/-- Step 9 of R152: every section in type order. -/
def checkRecords (img : List Byte) (delta : Bool) (x : Structure) (s : State) : Check :=
  firstFail [
    checkAll x.tiles (checkTile x),
    checkPipe (recsOf img 2) x,
    checkPart (recsOf img 3) x,
    checkTable delta (sectOf img 4) (recsOf img 4) x,
    checkLodger (sectOf img 5) (recsOf img 5) x,
    checkPolicy (recsOf img 6) x s,
    checkCabinet (recsOf img 7) x,
    checkWear (recsOf img 8) x,
    checkRegset x s]

/-- Step 10 of R152: the tamper policy (R122). -/
def checkTamper (x : Structure) (s : State) : Check :=
  failIf (lifecycle s = lcGarnet && isSet AON_TAMPER_latch s && x.policy.flags.testBit 1 && !x.policy.flags.testBit 0) fTAMPER 6 0 0

/-- Steps 6 to 10 of R152 on a full image. -/
def checkImage (img : List Byte) (s : State) : Check :=
  let x := structureOf img {}
  firstFail [checkSignature img s.store.floor s, checkSections img false, checkRecords img false x s, checkTamper x s]

/-! BUILDING (step 11 of R152, R155). -/

/-- UART and HDLC tiles above 2 Mbit/s use fast pins (R157, checked at step 7). -/
def checkFastPins (x : Structure) : Check :=
  checkAll x.tiles fun i t =>
    let div := ((x.regset.filter fun r => r.addr = (SER_BAUD_div t.tile).addr).getLast?.map (·.value)).getD 5556
    failIf ((t.func = 5 || t.func = 6) && div < 320 && ((t.pins.take (min t.npins 3)).any (· > 15))) fTILEPINS 1 i 4

/-- Key handles of LODGER and POLICY records (R155 step 6, R407). -/
def checkHandles (x : Structure) (s : State) : Check :=
  firstFail [
    checkAll x.lodgers fun i l => checkAll l.keys fun j h => failIf (h ≠ 0 && !resolves h 0x12 s) fKEYBIND 5 i (32 + 4 * j),
    failIf (x.policy.consistKey ≠ 0 && !resolves x.policy.consistKey 8 s) fKEYBIND 6 0 24]

/-- The steps of R155 that can fail; `ddrOk` tells whether fitted LPDDR4 was initialised. -/
def checkBuild (ddrOk : Bool) (x : Structure) (s : State) : Check :=
  firstFail [
    failIf (s.power.ddrFitted && !ddrOk) fDDRINIT 0 0 0,
    failIf (x.lodgers.length > 32 && !s.power.ddrFitted) fLODGERDRAM 5 32 0,
    checkHandles x s,
    checkFastPins x]

end Sys2Proof.Machine
end

