-- ==== Sys2Proof/Machine/Crypto.lean ====
section
/-! DEFINITION. The check-value engine, the public-key engine, the digest unit and the DRBG (spec/17), and the commands on them. -/

namespace Sys2Proof.Machine

/-! Hardware users of the check-value engine (R417, R420 to R422). -/

/-- A lane in service. -/
def laneOk (l : Nat) (s : State) : Bool := l < 8 && (getF CKV_STAT_ok s).testBit l

/-- A lane's job. -/
def laneJob (l : Nat) (s : State) : Option CkvJob := (s.ckv.lanes.find? fun e => e.1 = l).map (·.2)

/-- The free lanes in service. -/
def freeLanes (s : State) : List Nat := (List.range 8).filter fun l => laneOk l s && (laneJob l s).isNone

/-- A lane whose two tags disagree (R422): out of service, shown, event 40; with the last one gone, `none` and event 40. -/
def laneFault (l : Nat) (s : State) : State :=
  let s1 := raise 40 <| setB CKV_FLT_lane true <| setF CKV_FLT_which l <| clrF CKV_STAT_ok (2 ^ l) s
  if getF CKV_STAT_ok s1 = 0 then raise 40 (setB CKV_FLT_none true s1) else s1

/-- The runs of one hardware job of which the first `bad` disagree: whether it gave a tag (R422). -/
def hwRuns : Nat → Nat → State → Bool × State
  | 0, _, s => (false, s)
  | n + 1, bad, s =>
    if getF CKV_STAT_ok s = 0 then (false, s)
    else if bad = 0 then (true, s)
    else
      let c := (List.range 8).filter fun l => laneOk l s
      let r := pickOf (if freeLanes s = [] then c else freeLanes s) s
      hwRuns n (bad - 1) (laneFault r.1 r.2)

/-- A hardware user's CMAC under a slot's key, or an engine fault; `bad` of its runs disagree. -/
def hwCmac (key msg : List Byte) (bad : Nat) (s : State) : Option (List Byte) × State :=
  let r := hwRuns 2 bad (incF CKV_HWCNT_cnt 1 s)
  (if r.1 then some (slice (Config.cmac key msg) 0 16) else none, r.2)

/-! Software rings (R417 to R420). -/

/-- The world of a ring: 0 secure, 1 normal. -/
def ckvWorld (r : Nat) : World := if r = 0 then .secure else .normal

/-- Descriptors of a ring. -/
def ckvSize (r : Nat) (s : State) : Nat := 2 ^ getF (CKV_RCFG_size r) s

/-- The next descriptor the engine takes. -/
def ckvNext (r : Nat) (s : State) : Nat := if r = 0 then s.ckv.nextS else s.ckv.nextN

/-- It has been taken. -/
def ckvTaken (r : Nat) (s : State) : State :=
  let n := (ckvNext r s + 1) % ckvSize r s
  if r = 0 then { s with ckv := { s.ckv with nextS := n } } else { s with ckv := { s.ckv with nextN := n } }

/-- A ring has a descriptor waiting. -/
def ckvWaiting (r : Nat) (s : State) : Bool :=
  isSet (CKV_RCFG_en r) s && ckvNext r s ≠ getF (CKV_RTAIL_idx r) s % ckvSize r s

/-- The ring is disabled by a fault (R418). -/
def ckvRingFault (r a : Nat) (write : Bool) (s : State) : State :=
  unitViolation a (ckvWorld r) write (setB (CKV_RCFG_en r) false (setB (CKV_RSTAT_err r) true s))

/-- The ring's interrupt (R419): an MSI-X request, or the interrupt of its core. -/
def ckvInterrupt (r : Nat) (s : State) : State :=
  if isSet (CKV_RIRQ_msix r) s then
    { s with evc := { s.evc with msixReq := s.evc.msixReq ++ [getF (CKV_RIRQ_vec r) s] } }
  else emit (.note "check-value ring interrupt" [r, getF (CKV_RIRQ_core r) s] []) s

/-- The status of the descriptor at the head, once its result is there; the head advances in ring order (R418). At most n times. -/
def ckvRetire : Nat → Nat → State → State
  | 0, _, s => s
  | n + 1, r, s =>
    let h := getF (CKV_RHEAD_idx r) s
    match s.ckv.results.find? fun x => x.1 = r && x.2.1 = h with
    | none => s
    | some (_, _, res, irq) =>
      let a := getF (CKV_RBASE_addr r) s + 32 * h + 16
      let s1 := { s with ckv := { s.ckv with results := s.ckv.results.filter fun x => !(x.1 = r && x.2.1 = h) } }
      if !memRange (ckvWorld r) true a 4 s1 then ckvRingFault r a true s1
      else
        let s2 := wrBytes a (leBytes 4 (1 + 2 * res)) s1
        let s3 := setF (CKV_RHEAD_idx r) ((h + 1) % ckvSize r s) s2
        ckvRetire n r (if irq then ckvInterrupt r s3 else s3)

/-- A software job ends with a result: counted, and written when its turn comes. -/
def ckvEnd (j : CkvJob) (res : Nat) (s : State) : State :=
  let s1 := incF CKV_SWCNT_cnt 1 s
  let s2 := if res ≠ 0 then incF (CKV_RSTAT_fail j.ring) 1 s1 else s1
  ckvRetire 1024 j.ring { s2 with ckv := { s2.ckv with results := s2.ckv.results ++ [(j.ring, j.idx, res, j.w0.testBit 2)] } }

def ckvOp (j : CkvJob) : Nat := bitsOf j.w0 0 2
def ckvTaglen (j : CkvJob) : Nat := bitsOf j.w0 3 5
def ckvSlot (j : CkvJob) : Nat := bitsOf j.w0 8 6

/-- Why a software job may not run (R417, R419): 6 descriptor invalid, 2 slot not usable, 3 usage. -/
def ckvWhy (j : CkvJob) (s : State) : Option Nat :=
  let k := ckvSlot j
  let w := ckvWorld j.ring
  if ckvOp j = 0 || ckvOp j = 3 || ckvTaglen j < 4 || ckvTaglen j > 16 then some 6
  else if slotEmpty k s || (slotOf k s).stopped ||
      !(s.ink.leases.any fun e => e.2.state == .held && e.2.kind = 3 && e.2.res = k && worldReach w e.2) then some 2
  else if w == .normal && !(slotOf k s).usage.testBit (ckvOp j - 1) then some 3
  else none

/-- A job put on a lane: the slot is in use. -/
def ckvStart (l : Nat) (j : CkvJob) (s : State) : State :=
  let k := ckvSlot j
  let s1 := if j.rerun then s else touchSlot k (setSlot k { slotOf k s with users := (slotOf k s).users + 1 } s)
  orF CKV_STAT_busy (2 ^ l) { s1 with ckv := { s1.ckv with lanes := (l, j) :: s1.ckv.lanes } }

/-- The ring a software lane serves next (R420): alternating between the two that wait. -/
def ckvPickRing (s : State) : Option Nat :=
  let o := 1 - s.ckv.lastRing
  if ckvWaiting o s then some o else if ckvWaiting s.ckv.lastRing s then some s.ckv.lastRing else none

/-- The next descriptor of a ring is taken: its fault, its refusal, or a job. -/
def ckvFetch (r : Nat) (s : State) : Option CkvJob × State :=
  let i := ckvNext r s
  let a := getF (CKV_RBASE_addr r) s + 32 * i
  if !memRange (ckvWorld r) false a 32 s then (none, ckvRingFault r a false s)
  else
    let b := rdBytes s a 32
    (some { ring := r, idx := i, w0 := leAt b 0 4, src := leAt b 4 4, len := leAt b 8 4 % 2 ^ 20, tag := leAt b 12 4 },
      ckvTaken r { s with ckv := { s.ckv with lastRing := r } })

/-- CKV_RING_TAIL (R418): software advances the tail of its own world's ring. -/
def cmdCkvRingTail (rq : Requester) (ns : Nat) (w : Word) (s : State) : State :=
    if nsOf (rqWorld rq) ≠ ns then violate rq (0x400E010C + 0x80 * (ns % 2)) true s
    else busDone (setF (CKV_RTAIL_idx ns) (wbits w 0 10) s)

/-- The same under the rights of its requester. -/
def execCkvRingTail (rq : Requester) (ns : Nat) (w : Word) (s : State) : Out :=
  .next (gate rq true (0x400E010C + 0x80 * (ns % 2)) 0 (cmdCkvRingTail rq ns w) s)

/-- CKV_DISPATCH (R420): a free lane takes a job to run again, else the next software job within CKV_CFG.swlanes; with no lane in
service a job ends at once as an engine fault (R422). The jobs of hardware users run within the commands that submit them. -/
def execCkvDispatch (l : Nat) (s : State) : Out :=
  .next <|
    if getF CKV_STAT_ok s = 0 then
      match s.ckv.again with
      | j :: r => ckvEnd j 5 { s with ckv := { s.ckv with again := r } }
      | [] => match ckvPickRing s with
        | none => s
        | some r => match ckvFetch r s with
          | (none, s1) => s1
          | (some j, s1) => ckvEnd j 5 s1
    else if !laneOk l s || (laneJob l s).isSome then s
    else match s.ckv.again with
      | j :: r => ckvStart l j { s with ckv := { s.ckv with again := r } }
      | [] =>
        if s.ckv.lanes.length ≥ getF CKV_CFG_swlanes s then s
        else match ckvPickRing s with
          | none => s
          | some r => match ckvFetch r s with
            | (none, s1) => s1
            | (some j, s1) => match ckvWhy j s1 with
              | some y => ckvEnd j y s1
              | none => ckvStart l j s1

/-- The slot of a job has one user fewer. -/
def slotRelease (k : Nat) (s : State) : State := setSlot k { slotOf k s with users := (slotOf k s).users - 1 } s

/-- A job whose two tags agree (R419, R421): the tag is written or compared. -/
def ckvRelease (j : CkvJob) (s : State) : State :=
  let w := ckvWorld j.ring
  let n := ckvTaglen j
  let t := (slice (Config.cmac (slotOf (ckvSlot j) s).key (rdBytes s j.src j.len)) 0 16).take n
  let s0 := slotRelease (ckvSlot j) s
  if !memRange w false j.src j.len s0 then ckvEnd j 4 s0
  else if ckvOp j = 1 then
    if memRange w true j.tag n s0 then ckvEnd j 0 (wrBytes j.tag t s0) else ckvEnd j 4 s0
  else if !memRange w false j.tag n s0 then ckvEnd j 4 s0
  else ckvEnd j (if rdBytes s0 j.tag n = t then 0 else 1) s0

/-- CKV_JOB_DONE (R421, R422): the lane's job ends; tags that disagree take the lane out and run the job once more. -/
def execCkvJobDone (l : Nat) (agree : Bool) (s : State) : Out :=
  .next <| match laneJob l s with
    | none => s
    | some j =>
      let s0 := clrF CKV_STAT_busy (2 ^ l) { s with ckv := { s.ckv with lanes := s.ckv.lanes.filter fun e => e.1 ≠ l } }
      if agree then ckvRelease j s0
      else
        let s1 := laneFault l s0
        if j.rerun || getF CKV_STAT_ok s1 = 0 then ckvEnd j 5 (slotRelease (ckvSlot j) s1)
        else { s1 with ckv := { s1.ckv with again := s1.ckv.again ++ [{ j with rerun := true }] } }

/-! The public-key engine: operand memory (R425 to R427). -/

/-- The requester holds the PKE job lease. -/
def pkeHolder (rq : Requester) (s : State) : Bool := holdsRes 4 0 rq s

/-- Length of a slot in bytes. -/
def pkeLen (k : Nat) (s : State) : Nat := 8 * getF (PKE_SLEN_len k) s

/-- A secret slot. -/
def pkeSec (k : Nat) (s : State) : Bool := isSet (PKE_SLEN_sec k) s

/-- First byte of a slot. -/
def pkeOff (k : Nat) (s : State) : Nat := ((List.range k).map fun i => pkeLen i s).sum

/-- n bytes of the operand memory. -/
def pkeRead (o n : Nat) (s : State) : List Byte := (List.range n).map fun i => tabGet memDefault s.pke.mem (o + i)

/-- Bytes stored in the operand memory. -/
def pkeStore : Nat → List Byte → State → State
  | _, [], s => s
  | o, b :: r, s => pkeStore (o + 1) r { s with pke := { s.pke with mem := tabPut memDefault s.pke.mem o b } }

/-- The first n bytes of a slot. -/
def pkeOperand (k n : Nat) (s : State) : List Byte := pkeRead (pkeOff k s) n s

/-- A slot written: the bytes, then 0 to its end (R426). -/
def pkeWrite (k : Nat) (b : List Byte) (s : State) : State :=
  pkeStore (pkeOff k s) (slice b 0 (pkeLen k s)) s

/-- A slot wiped. -/
def pkeWipe (k : Nat) (s : State) : State := pkeWrite k [] s

/-- Every secret slot wiped. -/
def pkeWipeSecret (s : State) : State := applyAll ((List.range 64).filter fun k => pkeSec k s) pkeWipe s

/-- The whole operand memory wiped. -/
def pkeWipeAll (s : State) : State := { s with pke := { s.pke with mem := [], outs := [] } }

/-- PKE_SLEN_WRITE (R425): by the holder, with no job running, the lengths within 32 KiB; the whole memory is wiped. -/
def cmdPkeSlenWrite (rq : Requester) (k : Nat) (w : Word) (s : State) : State :=
    let sum := ((List.range 64).map fun i => if i = k then wbits w 0 13 else getF (PKE_SLEN_len i) s).sum
    if k ≥ 64 || !pkeHolder rq s || isSet PKE_STAT_busy s || sum > 4096 then busError s
    else busDone (setF (PKE_SLEN_len k) (wbits w 0 13) (setF (PKE_SLEN_sec k) (wbits w 16 1) (pkeWipeAll s)))

/-- The same under the rights of its requester. -/
def execPkeSlenWrite (rq : Requester) (k : Nat) (w : Word) (s : State) : Out :=
  .next (gate rq true (0x400F0100 + 4 * k) 0 (cmdPkeSlenWrite rq k w) s)

/-- PKE_OPDATA_ACCESS (R425 to R427): the holder reads or writes a slot's word, and the offset advances. -/
def cmdPkeOpdataAccess (rq : Requester) (v : Option Word) (s : State) : State :=
    let k := getF PKE_OPPTR_slot s
    let o := getF PKE_OPPTR_off s
    if !pkeHolder rq s || pkeSec k s || 4 * o + 4 > pkeLen k s then busError s
    else
      let s1 := setF PKE_OPPTR_off (o + 1) s
      match v with
      | none => busData (leNat (pkeRead (pkeOff k s + 4 * o) 4 s)) s1
      | some x => busDone (pkeStore (pkeOff k s + 4 * o) (leBytes 4 x.toNat) s1)

/-- The same under the rights of its requester. -/
def execPkeOpdataAccess (rq : Requester) (v : Option Word) (s : State) : Out :=
  .next (gate rq v.isSome 0x400F0024 0 (cmdPkeOpdataAccess rq v) s)

/-! Public-key jobs (R428 to R432). -/

/-- Bytes of a curve's values (R426). -/
def curveLen (c : Nat) : Nat := match c with
  | 1 => 32
  | 2 => 48
  | 3 => 66
  | _ => 0

/-- The operands of a job: slots of inputs with their lengths, slots of outputs with theirs, whether a key is used. -/
structure PkeShape where
  ins : List (Nat × Nat)
  outs : List (Nat × Nat)
  key : Bool

/-- R429's inputs and outputs. For the RSA operations the modulus length is the length of n's slot, for a message that of a's. -/
def pkeShape (op c : Nat) (s : State) : PkeShape :=
  let a := getF PKE_JOBOPS0_a s
  let b := getF PKE_JOBOPS0_b s
  let q := getF PKE_JOBOPS0_c s
  let d := getF PKE_JOBOPS0_d s
  let e := getF PKE_JOBOPS1_e s
  let n := curveLen c
  let m := pkeLen a s
  let l := pkeLen b s
  match op with
  | 1 => ⟨[(a, n), (b, n), (q, n), (d, n), (e, n)], [], false⟩
  | 2 => ⟨[(a, n)], [(d, n), (e, n)], true⟩
  | 3 => ⟨[(b, n), (q, n)], [(d, n)], true⟩
  | 4 => ⟨[], [(b, n), (q, n)], true⟩
  | 5 => ⟨[(a, m)], [(d, 64)], true⟩
  | 6 => ⟨[(a, m), (b, 32), (d, 64)], [], false⟩
  | 7 => ⟨[(b, 32)], [(d, 32)], true⟩
  | 8 => ⟨[], [(b, 32)], true⟩
  | 9 => ⟨[(a, l), (b, l), (q, l)], [(d, l)], false⟩
  | _ => ⟨[(a, l), (b, l), (q, l)], [(d, l)], true⟩

/-- The operations that use a curve. -/
def usesCurve (op : Nat) : Bool := 1 ≤ op && op ≤ 4

/-- The operation is RSA. -/
def isRsa (op : Nat) : Bool := op = 9 || op = 10

/-- Every named slot exists and is long enough, and only k is secret (R427, R428). -/
def pkeSlotsOk (op : Nat) (p : PkeShape) (s : State) : Bool :=
  let k := getF PKE_JOBOPS1_k s
  (p.ins ++ p.outs).all (fun x => pkeLen x.1 s > 0 && x.2 ≤ pkeLen x.1 s && !pkeSec x.1 s) &&
    (!p.key || (pkeSec k s && pkeLen k s > 0)) &&
    (!isRsa op || (128 ≤ pkeLen (getF PKE_JOBOPS0_b s) s && pkeLen (getF PKE_JOBOPS0_b s) s ≤ 512))

/-- The key type an operation takes (R428). -/
def pkeKtypeOk (op c : Nat) (b : List Byte) (s : State) : Bool :=
  if usesCurve op then blKtype b = c + 3
  else if op = 5 then blKtype b = 7
  else if op = 7 then blKtype b = 8
  else if op = 8 then blKtype b = 7 || blKtype b = 8
  else blKtype b = 9 && blBits b = 8 * pkeLen (getF PKE_JOBOPS0_b s) s

/-- The usage an operation's key must carry (R428). -/
def pkeNeed (op : Nat) : Nat :=
  if op = 3 || op = 7 then 64 else if op = 4 || op = 8 then 96 else 32

/-- The blob PKE_JOBKEY names, or the reason there is none (1 by handle, 8 by address) with its shelf index. -/
def pkeBlob (rq : Requester) (byaddr : Bool) (s : State) : Option (List Byte) × Nat × State :=
  let h := getF PKE_JOBKEY_key s
  let wd := rqWorld rq
  if byaddr then
    let n := 64 + blClen (rdBytes s h 48)
    if memRange wd false h 48 s && memRange wd false h n s then (some (rdBytes s h n), 0xFFFF, s)
    else (none, 0xFFFF, violation h wd false 4 0 s)
  else (handleBlob h s, h % 65536, s)

/-- The private key of a job (R428 item 3): its bytes, or the reason; a refusal is logged for user 6. -/
def pkeKey (rq : Requester) (op c : Nat) (byaddr : Bool) (s : State) : (Nat ⊕ List Byte) × State :=
  let r := pkeBlob rq byaddr s
  let idx := r.2.1
  let t := r.2.2
  match r.1 with
  | none => let y := if kstOff t then 10 else if byaddr then 8 else 1
            (.inl y, loadReject y 6 idx t)
  | some b =>
    let y := match blobWhy b (pkeNeed op) false (rqWorld rq == .normal) t with
      | some y => some y
      | none => if !pkeKtypeOk op c b t || blClen b > pkeLen (getF PKE_JOBOPS1_k t) t then some 2 else none
    match y with
    | some y => (.inl y, loadReject y 6 idx t)
    | none => match unwrapBlob b t with
      | none => (.inl 6, loadReject 6 6 idx t)
      | some k => (.inr k, t)

/-- The holder is a world: event 42 tells it (R430). -/
def pkeTell (rq : Requester) (s : State) : State := if rq = .loader then s else raise 42 s

/-- A job ends with a result (R430): done, counted, told. -/
def pkeFinish (rq : Requester) (res : Nat) (s : State) : State :=
  pkeTell rq <| incF PKE_CNT_jobs 1 <| setB PKE_STAT_done true <| setB PKE_STAT_busy false <| setF PKE_STAT_result res
    { s with pke := { s.pke with job := none } }

/-- What the end of a job leaves (R432): secret slots wiped; with keep = 0 also the inputs that are not outputs. -/
def pkeAfter (keep : Bool) (p : PkeShape) (s : State) : State :=
  let outs := p.outs.map (·.1)
  let s1 := pkeWipeSecret s
  let s2 := if keep then s1 else applyAll ((p.ins.map (·.1)).filter fun k => !outs.contains k) pkeWipe s1
  { s2 with pke := { s2.pke with outs := if keep then [] else outs } }

/-- A job that ends before it runs: no output, the time it took not stated. -/
def pkeRefuse (rq : Requester) (keep : Bool) (p : PkeShape) (res : Nat) (s : State) : State :=
  setFree PKE_TIME_cyc (pkeFinish rq res (pkeAfter keep p s))

/-- The key of a job written into its secret slot (R427). -/
def pkeFillKey (key : List Byte) (s : State) : State := if key = [] then s else pkeWrite (getF PKE_JOBOPS1_k s) key s

/-- PKE_JOB_GO (R428): the holder's write of PKE_JOB with go; the checks in order, then the job runs. -/
def cmdPkeJobGo (rq : Requester) (w : Word) (s : State) : State :=
    let op := wbits w 0 5
    let c := wbits w 5 2
    let keep := wbits w 7 1 = 1
    if !pkeHolder rq s || isSet PKE_STAT_busy s || op = 0 || op > 10 then busError s
    else
      let s0 := busDone <| setF PKE_JOB_op op <| setF PKE_JOB_curve c <| setB PKE_JOB_keep keep <| setF PKE_JOB_byaddr (wbits w 8 1) s
      if wbits w 9 1 = 0 then s0
      else
        let p := pkeShape op c s0
        let s1 := applyAll (s0.pke.outs.filter fun k => !(p.ins.map (·.1)).contains k) pkeWipe s0
        let s2 := { s1 with pke := { s1.pke with outs := [] } }
        if usesCurve op && c = 0 then pkeRefuse rq keep p 2 s2
        else if !pkeSlotsOk op p s2 then pkeRefuse rq keep p 3 s2
        else
          let k := if p.key then pkeKey rq op c (wbits w 8 1 = 1) s2 else (.inr [], s2)
          match k.1 with
          | .inl y => pkeRefuse rq keep p 4 (setF PKE_STAT_keywhy y k.2)
          | .inr key =>
            if op = 2 && drbgDown k.2 then pkeRefuse rq keep p 6 k.2
            else
              let nonce := if op = 2 then drbgBytes 3 k.2 else ([], k.2)
              let t := pkeFillKey key nonce.2
              match Config.pkeOp op c (p.ins.map (fun x => pkeOperand x.1 x.2 t) ++ [key, nonce.1]) with
              | none => pkeRefuse rq keep p 2 t
              | some res => setB PKE_STAT_busy true
                  { t with pke := { t.pke with job := some { rq := rq, op := op, curve := c, keep := keep, res := res } } }

/-- The same under the rights of its requester. -/
def execPkeJobGo (rq : Requester) (w : Word) (s : State) : Out :=
  .next (gate rq true 0x400F0004 0 (cmdPkeJobGo rq w) s)

/-- The result bytes cut over the output slots. -/
def pkeOutputs : List (Nat × Nat) → List Byte → State → State
  | [], _, s => s
  | (k, n) :: r, b, s => pkeOutputs r (b.drop n) (pkeWrite k (slice b 0 n) s)

/-- PKE_JOB_END (R430, R431): the invariant judged, outputs released or wiped; `cyc` is the time the job took. -/
def execPkeJobEnd (inv : Bool) (cyc : Nat) (s : State) : Out :=
  .next <| match s.pke.job with
    | none => s
    | some j =>
      let p := pkeShape j.op j.curve s
      let s0 := setF PKE_TIME_cyc cyc s
      if !inv then
        let s1 := pkeAfter j.keep p (applyAll (p.outs.map (·.1)) pkeWipe s0)
        raise 43 (incF PKE_CNT_inv 1 (pkeFinish j.rq 5 s1))
      else
        let res := if j.op = 1 || j.op = 6 then (if j.res.headD 1 = 0 then 0 else 1) else 0
        pkeFinish j.rq res (pkeAfter j.keep p (pkeOutputs p.outs j.res s0))

/-- The PKE lease has ended (R432): a running job is aborted with result 7, the memory wiped, PKE_SLEN at its reset layout. -/
def pkeLeaseEnd (s : State) : State :=
  let s1 := match s.pke.job with
    | some j => pkeFinish j.rq 7 s
    | none => s
  applyAll (List.range 64) (fun k t =>
    setF (PKE_SLEN_len k) (PKE_SLEN_len k).reset (setF (PKE_SLEN_sec k) (PKE_SLEN_sec k).reset t)) (pkeWipeAll s1)

/-- PKE_LOCK_TAKE (R199, R425): the worlds, the debug TAP and the loader; a host may not (R357). The lease has no expiry. -/
def cmdPkeLockTake (rq : Requester) (s : State) : State :=
    if rq = .pcie || rq = .qspi then busError s
    else match leaseFor 4 0 s with
      | some n => setB PKE_LOCK_busy (!holdsLease n rq s) (busDone s)
      | none => match grantLease 4 0 (rqTag rq) none s with
        | some (n, s1) => setF PKE_LOCK_lease n (setB PKE_LOCK_busy false (busDone s1))
        | none => setB PKE_LOCK_busy true (countFull (rqTag rq) (busDone s))

/-- The same under the rights of its requester. -/
def execPkeLockTake (rq : Requester) (s : State) : Out :=
  .next (gate rq true 0x400F0000 0 (cmdPkeLockTake rq) s)

/-! The digest unit (R434, R435). -/

/-- A digest context: 0 secure, 1 normal, 2 the loader's. -/
def digOf (n : Nat) (s : State) : DigCtx := tabGet {} s.dig n

/-- A digest context replaced. -/
def setDig (n : Nat) (c : DigCtx) (s : State) : State := { s with dig := tabPut {} s.dig n c }

/-- Block bytes of an algorithm. -/
def digBlock (alg : Nat) : Nat := if alg = 1 then 64 else 128

/-- Digest bytes of an algorithm. -/
def digLen (alg : Nat) : Nat := if alg = 1 then 32 else if alg = 2 then 48 else 64

/-- DIGEST_GO (R434): a write of DIG_CTL; with go the source is read with the world's rights. -/
def cmdDigestGo (rq : Requester) (ns : Nat) (w : Word) (s : State) : State :=
    if rq = .pcie || rq = .qspi || nsOf (rqWorld rq) ≠ ns || wbits w 0 2 = 0 then busError s
    else if wbits w 4 1 = 0 then busDone (setF (DIG_CTL_alg ns) (wbits w 0 2) s)
    else if isSet (DIG_STAT_busy ns) s then busError s
    else
      let s0 := busDone (setF (DIG_CTL_alg ns) (wbits w 0 2) s)
      let n := getF (DIG_LEN_len ns) s
      let a := getF (DIG_SRC_addr ns) s
      let c0 := digOf ns s
      let c := if wbits w 2 1 = 1 then { c0 with msg := [], alg := wbits w 0 2, act := true } else c0
      let fin := wbits w 3 1 = 1
      if !fin && n % digBlock c.alg ≠ 0 then setB (DIG_STAT_err ns) true s0
      else
        let data := if memRange (rqWorld rq) false a n s0 then some (rdBytes s0 a n) else none
        let s1 := if data.isNone then unitViolation a (rqWorld rq) false s0 else s0
        let s2 := if wbits w 2 1 = 1 then setB (DIG_STAT_ready ns) false s1 else s1
        setB (DIG_STAT_busy ns) true (setDig ns { c with call := some (data, fin) } s2)

/-- The same under the rights of its requester. -/
def execDigestGo (rq : Requester) (ns : Nat) (w : Word) (s : State) : Out :=
  .next (gate rq true (0x400F8000 + 0x80 * (ns % 2)) 0 (cmdDigestGo rq ns w) s)

/-- DIGEST_DONE (R434): the call completes; final places the digest, a source fault abandons it. -/
def execDigestDone (ns : Nat) (s : State) : Out :=
  .next <|
    let c := digOf ns s
    match c.call with
    | none => s
    | some (none, _) =>
      setB (DIG_STAT_err ns) true (setB (DIG_STAT_done ns) true (setB (DIG_STAT_busy ns) false (setDig ns {} s)))
    | some (some b, fin) =>
      let m := c.msg ++ b
      let s1 := setB (DIG_STAT_done ns) true (setB (DIG_STAT_busy ns) false s)
      if fin then
        let d := slice (Config.sha c.alg m) 0 (digLen c.alg)
        applyAll (List.range (digLen c.alg / 4)) (fun i t => setF (DIG_OUT_dig ns i) (leAt d (4 * i) 4) t)
          (setB (DIG_STAT_ready ns) true (setDig ns { alg := c.alg } s1))
      else setDig ns { c with msg := m, call := none } s1

/-! The DRBG's commands (R436, R437). -/

/-- DRG_DATA_READ (R437): 32 bits never returned before; a bus error while the DRBG is failed. -/
def cmdDrgDataRead (rq : Requester) (s : State) : State :=
    if rq = .pcie || rq = .qspi || drbgDown s then busError s
    else match s.drg.words with
      | w :: r => busData w { s with drg := { s.drg with words := r } }
      | [] =>
        let t := drbgCall s
        busData (leAt t.1 0 4) { t.2 with drg := { t.2.drg with words := (List.range 7).map fun i => leAt t.1 (4 * i + 4) 4 } }

/-- The same under the rights of its requester. -/
def execDrgDataRead (rq : Requester) (s : State) : Out :=
  .next (gate rq false 0x400F8100 0 (cmdDrgDataRead rq) s)

/-- DRBG_RESEED (R436): each CK_TICK second, or a write of 1 to DRG_CTL.reseed from the secure world. -/
def execDrbgReseed (rq : Option Requester) (s : State) : Out :=
  .next <| match rq with
    | none => if s.power.tick then drbgReseed s else s
    | some q => gate q true 0x400F8108 0 (fun s => drbgReseed (busDone s)) s

/-- ENTROPY_HEALTH_FAIL (R436): the samples are discarded; the third failure in a row fails the DRBG until a full reset. -/
def execEntropyHealthFail (apt : Bool) (s : State) : Out :=
  .next <|
    let s1 := setB CKV_FLT_ent true (incF (if apt then DRG_HCNT_apt else DRG_HCNT_rct) 1 s)
    let n := s.drg.fails + 1
    let s2 := { s1 with drg := { s1.drg with fails := n } }
    if n = 3 && !isSet DRG_STAT_fail s2 then raise 40 (setB CKV_FLT_drbg true (setB DRG_STAT_fail true s2)) else s2

end Sys2Proof.Machine
end

