-- ==== Sys2Proof/Machine/Can.lean ====
section
/-! DEFINITION. CAN tiles (spec/11): bit timing, filters, receive buffers, the priority buffer, transmission, error confinement,
authentication, and the commands on them; with what every tile records for its wake filter (R345, R353). -/

namespace Sys2Proof.Machine

/-! What a tile records of the frames it sees (R345) and the validation of a wake (R353). -/

/-- A frame seen on tile n's bus: the identifier last seen, and the idle time starts again. -/
def seeFrame (n id : Nat) (ide : Bool) (s : State) : State :=
  setF (WKS_TLAST_id n) id <| setB (WKS_TLAST_ide n) ide <| setB (WKS_TLAST_valid n) true
    { s with wks := { s.wks with seen := tabPut 0 s.wks.seen n (nowNs s / 1000000) } }

/-- The open validation window of a unit: its log entry and start. -/
def windowOf (u : Nat) (s : State) : Option (Nat × Nat) := (s.wks.windows.find? fun w => w.1 = u).map (·.2)

/-- val of a wake log entry set (R352). -/
def setVal (e v : Nat) (s : State) : State :=
  let f := WKS_LOG_word (4 * e + 1)
  if e < 16 then setF f (putBits (getF f s) 10 2 v) s else s

/-- A unit's wake is validated while its window is open. -/
def validate (u : Nat) (s : State) : State :=
  match windowOf u s with
  | some (e, t) =>
    if s.ticks ≤ t + 1000 * getF WKS_FWCFG_win s then
      setVal e 1 { s with wks := { s.wks with windows := s.wks.windows.filter fun w => w.1 ≠ u } }
    else s
  | none => s

/-! Tile state. -/

/-- A CAN tile's hidden state. -/
def canOf (n : Nat) (s : State) : CanTile := tabGet {} s.can n

/-- It replaced. -/
def setCan (n : Nat) (c : CanTile) (s : State) : State := { s with can := tabPut {} s.can n c }

/-- CAN_STAT.state of a tile (R283). -/
def canState (n : Nat) (s : State) : Nat := getF (CAN_STAT_state n) s

/-- The tile takes part in bus traffic: error active or passive. -/
def canOnline (n : Nat) (s : State) : Bool := isCan n s && (canState n s = 3 || canState n s = 4)

/-- A CAN_EVT bit is set; its rise raises the tile group's event where it is enabled (R302). -/
def canEvt (n : Nat) (f : Fld) (s : State) : State :=
  if isSet f s then s
  else
    let s1 := setB f true s
    if (getF (CAN_EVTEN_en n) s).testBit f.lo then raise (20 + n / 12) s1 else s1

/-- The tile changes its state; an entry to or exit from error passive sets its CAN_EVT bit (R299). -/
def canGoto (n st : Nat) (s : State) : State :=
  let s1 := setF (CAN_STAT_state n) st s
  if (canState n s == 4) == (st == 4) then s1 else canEvt n (CAN_EVT_passive n) s1

/-- The levels a tile drives on TXD (recessive outside a frame), STB and EN, or nothing where R36 rules (R283, R339). -/
def canPins (n : Nat) (s : State) : Option (Bool × Bool × Bool) :=
  let st := canState n s
  let stb := isSet (CAN_PINCFG_stbinv n) s
  let en := !isSet (CAN_PINCFG_eninv n) s
  if 2 ≤ st && st ≤ 6 then some (true, stb, en)
  else if st = 9 then some (true, if (tabGet {} s.wks.tiles n).tcfg.testBit 3 then !stb else stb, en)
  else none

/-! Filters (R286). -/

/-- Filter k accepts a frame. -/
def filterAccepts (n k : Nat) (f : CanFrame) (s : State) : Bool :=
  let ide := f.ide && f.fmt ≠ 2
  let fm := getF (CAN_FLTCFG_fmt n k) s
  isSet (CAN_FLTCFG_en n k) s &&
  (f.id ^^^ getF (CAN_FLTID_id n k) s) &&& getF (CAN_FLTMSK_msk n k) s = 0 &&
  (!isSet (CAN_FLTMSK_idem n k) s || ide == isSet (CAN_FLTID_ide n k) s) &&
  (fm = 0 || fm = f.fmt + 1) &&
  (!f.rtr || isSet (CAN_FLTCFG_rtr n k) s) &&
  (f.fmt ≠ 2 ||
    ((f.vcid ^^^ getF (CAN_FLTXL_vcid n k) s) &&& getF (CAN_FLTXL_vmsk n k) s = 0 &&
     (f.sdt ^^^ getF (CAN_FLTXL_sdt n k) s) &&& getF (CAN_FLTXL_smsk n k) s = 0))

/-- The deciding filter (none where nomatch decides) and the action it gives; for XL frames 2, 3 act as 1 and 4, 5 as 0. -/
def filterDecision (n : Nat) (f : CanFrame) (s : State) : Option Nat × Nat :=
  let r := match (List.range 32).find? fun k => filterAccepts n k f s with
    | some k => (some k, getF (CAN_FLTCFG_action n k) s)
    | none => (none, if isSet (CAN_CFG_nomatch n) s then 1 else 0)
  if f.fmt = 2 then (r.1, if r.2 = 1 || r.2 = 2 || r.2 = 3 then 1 else 0) else r

/-- The filt field of a received frame: its deciding filter, 31 for nomatch (R288). -/
def filtCode (k : Option Nat) : Nat := k.getD 31

/-- The class of a received frame's Waybill: that of its deciding filter, or the tile's (R288). -/
def rxClass (n : Nat) (k : Option Nat) (s : State) : Nat :=
  match k with
  | some k => if isSet (CAN_FLTCFG_tcen n k) s then getF (CAN_FLTCFG_tc n k) s else getF (FAB_TCFG_tc n) s
  | none => getF (FAB_TCFG_tc n) s

/-- Word 0 of the tile frame layout (R288). -/
def frameW0 (f : CanFrame) : Nat := f.id % 2 ^ 29 + (if f.ide then 2 ^ 29 else 0) + (if f.rtr then 2 ^ 30 else 0)

/-- Word 1 of the tile frame layout. -/
def frameW1 (f : CanFrame) (filt seq : Nat) : Nat :=
  f.data.length % 4096 + f.fmt * 2 ^ 12 + (if f.brs then 2 ^ 14 else 0) + (if f.esi then 2 ^ 15 else 0) + filt * 2 ^ 16 +
    (if f.sec then 2 ^ 21 else 0) + seq * 2 ^ 24

/-- The 20 words of a receive buffer (R308). -/
def rxWords (f : CanFrame) (filt seq sof : Nat) : List Nat :=
  [frameW0 f, frameW1 f filt seq, sof % 2 ^ 32, sof / 2 ^ 32] ++ (List.range 16).map fun i => leAt f.data (4 * i) 4

/-- dlen of a buffer's words. -/
def bufDlen (w : List Nat) : Nat := bitsOf (w.getD 1 0) 0 12
/-- Data bytes of a buffer's words. -/
def bufData (w : List Nat) : List Byte := ((w.drop 4).flatMap (leBytes 4)).take (bufDlen w)
/-- The time of a receive buffer. -/
def bufTime (w : List Nat) : Nat := w.getD 2 0 + w.getD 3 0 * 2 ^ 32
/-- The tile frame a buffer holds, its XL fields 0. -/
def bufFrame (w : List Nat) : List Byte := mkTileFrame (w.getD 0 0) (w.getD 1 0) 0 0 (bufData w)

/-! Receive buffers (R287 to R290). -/

/-- A receive buffer of a tile. -/
def rxOf (n i : Nat) (s : State) : RxBuf := tabGet {} (canOf n s).rx i

/-- It replaced. -/
def setRx (n i : Nat) (b : RxBuf) (s : State) : State :=
  setCan n { canOf n s with rx := tabPut {} (canOf n s).rx i b } s

/-- A handed frame still waits for its pages, so its buffer keeps its handoff claim (R289). -/
def rxHeld (n i : Nat) (s : State) : Bool :=
  let w := (rxOf n i s).words
  w ≠ [] && (holdsOf (100 + n) s).any fun h => h.wb.time = bufTime w && leAt h.wb.data 4 4 = w.getD 1 0

/-- A buffer is free (R287). -/
def rxFree (n i : Nat) (s : State) : Bool :=
  let b := rxOf n i s
  !b.hand && !b.host && b.lock.isNone && !rxHeld n i s

/-- Frames of a tile that wait for pages (R289). -/
def tileHeld (n : Nat) (s : State) : Nat := (holdsOf (100 + n) s).length

/-- A frame stored in the free buffer with the lowest index, or lost to overrun (R287). -/
def rxStore (n : Nat) (f : CanFrame) (filt sof tc : Nat) (hand host : Bool) (s : State) : State :=
  match (List.range 64).find? fun i => rxFree n i s with
  | none => canEvt n (CAN_EVT_ovr n) (incF (CAN_RXOVR_ovr n) 1 s)
  | some i =>
    let c := canOf n s
    let b : RxBuf := { words := rxWords f filt c.seq sof, tc := tc, hand := hand, host := host }
    let c1 := { c with rx := tabPut {} c.rx i b, seq := (c.seq + 1) % 256
                       hand := if hand then c.hand ++ [.buf i] else c.hand }
    let s1 := setCan n c1 s
    if host then canEvt n (CAN_EVT_rxpend n) s1 else s1

/-- The host claim and the lock of a buffer end (R290). -/
def rxRelease (n i : Nat) (s : State) : State := setRx n i { rxOf n i s with host := false, lock := none } s

/-! The priority buffer (R291, R292). -/

/-- CAN_PRIOSTAT.full and the tile's bit in FAB_PRIOPEND. -/
def prioFull (n : Nat) (b : Bool) (s : State) : State :=
  setTileBit FAB_PRIOPEND0_p FAB_PRIOPEND1_p n b (setB (CAN_PRIOSTAT_full n) b s)

/-- A frame for the priority buffer: into it, or into the shadow while it is locked. A frame the newer one overtakes counts prov, in the
shadow too, where a world reset has taken the lock from the buffer before it. -/
def prioWrite (n : Nat) (b : RxBuf) (s : State) : State :=
  let c := canOf n s
  if c.prio.lock.isSome then
    let s1 := if c.shadow.isSome then incF (CAN_PRIOSTAT_prov n) 1 s else s
    setB (CAN_PRIOSTAT_shadow n) true (setCan n { c with shadow := some b } s1)
  else
    let lost := (if isSet (CAN_PRIOSTAT_full n) s then 1 else 0) + (if c.shadow.isSome then 1 else 0)
    let s1 := setB (CAN_PRIOSTAT_shadow n) false (incF (CAN_PRIOSTAT_prov n) lost s)
    raise 24 (prioFull n true (setCan n { c with prio := { b with host := true }, shadow := none } s1))

/-- The priority buffer is released; a shadow frame moves in, and event 24 is raised again (R292). -/
def prioRelease (n : Nat) (s : State) : State :=
  let c := canOf n s
  let s1 := setB (CAN_PRIOSTAT_locked n) false s
  match c.shadow with
  | none => prioFull n false (setCan n { c with prio := { c.prio with host := false, lock := none } } s1)
  | some b =>
    raise 24 <| prioFull n true <| setB (CAN_PRIOSTAT_shadow n) false <|
      setCan n { c with prio := { b with host := true, lock := none }, shadow := none } s1

/-! Transmit buffers (R294, R295, R298). -/

/-- A transmit buffer. -/
def txOf (n i : Nat) (s : State) : TxBuf := tabGet {} (canOf n s).tx i

/-- It replaced. -/
def setTx (n i : Nat) (b : TxBuf) (s : State) : State :=
  setCan n { canOf n s with tx := tabPut {} (canOf n s).tx i b } s

/-- A buffer is pending. -/
def txPending (n i : Nat) (s : State) : Bool := (getF (CAN_TXREQ_req n) s).testBit i

/-- A switch-fed buffer is empty again: an XL frame's pages are released, and word 2 reads 0 (R294, R295). -/
def txEmpty (n i : Nat) (s : State) : State :=
  let s1 := match (txOf n i s).rep with
    | some r => dropReplica r s
    | none => s
  let b := txOf n i s1
  setTx n i { b with rep := none, words := b.words.set 2 0 } (clrF (CAN_TXREQ_req n) (2 ^ i) s1)

/-- A software-fed buffer leaves pending with its CAN_TXCANCELLED bit (R298). -/
def txCancelled (n i : Nat) (s : State) : State :=
  canEvt n (CAN_EVT_txcan n) (orF (CAN_TXCANCELLED_cnl n) (2 ^ i) (clrF (CAN_TXREQ_req n) (2 ^ i) s))

/-- The attempt on the bus has ended. -/
def attemptOver (n i : Nat) (s : State) : State :=
  clrF (CAN_TXCAN_can n) (2 ^ i) (setB (CAN_STAT_txing n) false (setCan n { canOf n s with onBus := none } s))

/-- It has failed (R298): a cancelled buffer, and under oneshot every one, has had its only attempt. -/
def attemptFailed (n i : Nat) (s : State) : State :=
  let soft := i ≥ getF (CAN_TXCFG_swbuf n) s
  let cancel := (getF (CAN_TXCAN_can n) s).testBit i
  let s1 := attemptOver n i s
  if isSet (CAN_CFG_oneshot n) s then (if soft then txCancelled n i s1 else incF (CAN_TXDROP_one n) 1 (txEmpty n i s1))
  else if soft && cancel then txCancelled n i s1
  else s1

/-! Error confinement (R299 to R301). -/

/-- The frames of the switch core for a tile are flushed: buffers and queues, counted as qdrop and flush (R300). -/
def canFlush (n : Nat) (s : State) : State :=
  let c := canOf n s
  let sw := getF (CAN_TXCFG_swbuf n) s
  let loaded := (List.range sw).filter fun i => (getF (CAN_TXREQ_req n) s).testBit i && c.onBus ≠ some i
  let s1 := applyAll loaded (fun i t => incF (CAN_TXDROP_flush n) 1 (swBump 17 cQdrop 1 (txEmpty n i t))) s
  applyAll (List.range 8) (fun c t =>
    let k := queueKey 17 n c
    applyAll (queueAt k t) (fun r u => incF (CAN_TXDROP_flush n) 1 (discard 17 cQdrop r u)) (setQueue k [] t)) s1

/-- The tile stops: state 7, its switch-fed frames flushed (R307). -/
def canStopNow (n : Nat) (s : State) : State :=
  canFlush n (canGoto n 7 (setCan n { canOf n s with stopping := false } s))

/-- Entry to bus-off (R300): event 25, the switch core's frames flushed, software's cancelled under boflush; bor 0 recovers at once. The
attempt on the bus has failed (R298), and a stop that waited for its end takes effect (R301, R307). -/
def canBusOff (n : Nat) (s : State) : State :=
  let t := match (canOf n s).onBus with
    | some i => attemptFailed n i s
    | none => s
  let s0 := canGoto n 5 t
  let s1 := raise 25 (canEvt n (CAN_EVT_busoff n) (incF (CAN_PERR_busoff n) 1 s0))
  let s2 := canFlush n s1
  let p := getF (CAN_TXREQ_req n) s2
  let s3 := if isSet (CAN_CFG_boflush n) s2 && p ≠ 0 then
      canEvt n (CAN_EVT_txcan n) (orF (CAN_TXCANCELLED_cnl n) p (setF (CAN_TXCAN_can n) 0 (setF (CAN_TXREQ_req n) 0 s2)))
    else s2
  if (canOf n s3).stopping then canStopNow n s3
  else if getF (CAN_CFG_bor n) s3 = 0 then canGoto n 6 s3 else s3

/-- The counters set; warn, passive and bus-off follow, with their event bits (R299). -/
def canCounters (n tec rec : Nat) (s : State) : State :=
  let s1 := setF (CAN_ERR_tec n) (min tec 511) (setF (CAN_ERR_rec n) (min rec 511) s)
  let warn := tec ≥ 96 || rec ≥ 96
  let s2 := if warn == isSet (CAN_STAT_warn n) s then s1 else canEvt n (CAN_EVT_warn n) (setB (CAN_STAT_warn n) warn s1)
  if !(canState n s = 3 || canState n s = 4) then s2
  else if tec > 255 then canBusOff n s2
  else
    let st := if tec ≥ 128 || rec ≥ 128 then 4 else 3
    canGoto n st s2

/-- TEC and REC after an error condition (ISO 11898-1, R299). -/
def errCounters (e : CanErr) (tec rec : Nat) : Nat × Nat :=
  match e with
  | .rx => (tec, rec + 1)
  | .rxAfterFlag => (tec, rec + 8)
  | .rxFlag => (tec, rec + 8)
  | .rxDominant => (tec, rec + 8)
  | .tx => (tec + 8, rec)
  | .xlRx => (tec, rec + 1)
  | .xlTx => (tec + 8, rec)
  | .txFlag => (tec + 8, rec)
  | .txDominant => (tec + 8, rec)
  | _ => (tec, rec)

/-- A correct reception lowers REC by 1; from above 127 it goes to a value of 119 to 127 that ISO 11898-1 leaves open. -/
def recAfterRx (rec : Nat) (s : State) : Nat × State :=
  if rec > 127 then
    let r := drawFree 16 s
    (119 + r.1 % 9, r.2)
  else (rec - 1, s)

/-- A correct frame is acknowledged, unless the tile is restricted (R283). -/
def canAck (n : Nat) (s : State) : State := if isSet (CAN_CFG_lom n) s then s else emit (.note "can acknowledge" [n] []) s

/-- What every frame received correctly does: the acknowledge, REC, and the record of frames seen (R283, R299, R345). -/
def canSeen (n : Nat) (f : CanFrame) (s : State) : State :=
  let r := recAfterRx (getF (CAN_ERR_rec n) s) s
  seeFrame n f.id (f.ide && f.fmt < 2) (canCounters n (getF (CAN_ERR_tec n) s) r.1 (canAck n r.2))

/-- A frame that a filter decides with an action other than 0 validates the tile's wake under autoval (R353). -/
def autoValidate (n : Nat) (k : Option Nat) (s : State) : State :=
  if k.isSome && (tabGet {} s.wks.tiles n).tcfg.testBit 7 then validate n s else s

/-- CAN_FRAME_VALID (R286, R287, R291): a received classical or FD frame is valid; the sample point of its start-of-frame bit was `ago` cycles
of CK_CAN before. -/
def execCanFrameValid (n : Nat) (f : CanFrame) (ago : Nat) (s : State) : Out :=
  .next <| onlyIf (canOnline n s && f.fmt < 2 && f.data.length ≤ 64) (fun s =>
    let sof := canStamp ago s
    let s1 := canSeen n f s
    let d := filterDecision n f s1
    let k := filtCode d.1
    if d.2 = 0 || d.2 > 5 then incF (CAN_RXREJ_cnt n) 1 s1
    else
      let s2 := incF (CAN_RXCNT_cnt n) 1 s1
      let s3 := autoValidate n d.1 s2
      let tc := rxClass n d.1 s3
      let s4 := if d.2 = 4 || d.2 = 5 then
          let q := drawFree 8 s3
          prioWrite n { words := rxWords f k q.1 sof, tc := tc } q.2
        else s3
      if d.2 = 4 then s4
      else rxStore n f k sof tc (d.2 ≠ 2) (d.2 = 2 || d.2 = 3) s4) s

/-- Staging bytes an XL tile's frames still take (R293). -/
def xlStaged (n : Nat) (s : State) : Nat :=
  let q := (canOf n s).hand.map fun h => match h with
    | .buf _ => 0
    | .xl f _ _ => f.length
  let h := (holdsOf (100 + n) s).map fun w => if tfFmt w.wb.data = 2 then w.wb.data.length else 0
  q.sum + h.sum

/-- CAN_XL_FRAME_RECEIVE (R293): an XL frame, valid or in error, which gives its pages back. One the staging memory cannot take is received
like any other, and discarded. -/
def execCanXlFrameReceive (n : Nat) (f : CanFrame) (ago : Nat) (ok : Bool) (s : State) : Out :=
  .next <| onlyIf (canOnline n s && tileFunc n s = 2 && f.fmt = 2 && 1 ≤ f.data.length && f.data.length ≤ 2048 && ok) (fun s =>
    let sof := canStamp ago s
    let s1 := canSeen n f s
    let d := filterDecision n f s1
    if d.2 = 0 then incF (CAN_RXREJ_cnt n) 1 s1
    else
      let s3 := autoValidate n d.1 (incF (CAN_RXCNT_cnt n) 1 s1)
      if xlStaged n s3 + 2064 > 4096 then canEvt n (CAN_EVT_xlovr n) (incF (CAN_RXOVR_xlovr n) 1 s3)
      else
        let c := canOf n s3
        let b := mkTileFrame (f.id % 2048) (frameW1 f (filtCode d.1) c.seq) (f.sdt % 256 + f.vcid % 256 * 256) f.af f.data
        setCan n { c with seq := (c.seq + 1) % 256, hand := c.hand ++ [.xl b (rxClass n d.1 s3) sof] } s3) s

/-- The lodger a tile's frames carry (R288). -/
def tileLodger (n : Nat) (s : State) : Option Nat :=
  if getF (FAB_TCFG_lodger n) s = 0xFFFF then none else some (getF (FAB_TCFG_lodger n) s)

/-- What a tile hands to port 17: the Waybill and the bytes of an accepted frame, and the tile without it. -/
def handNext (n : Nat) (s : State) : Option (Waybill × List Byte × State) :=
  let c := canOf n s
  let wb (tc t : Nat) : Waybill := { src := 17, tile := n, tc := tc, lossless := true, lodger := tileLodger n s, time := t }
  match c.hand with
  | [] => none
  | .buf i :: q =>
    let b := rxOf n i s
    some (wb b.tc (bufTime b.words), bufFrame b.words, setCan n { c with hand := q, rx := tabPut {} c.rx i { b with hand := false } } s)
  | .xl f tc t :: q => some (wb tc t, f, setCan n { c with hand := q } s)

/-- Every frame a tile has accepted leaves it (R173): at once, or, behind earlier ones that wait for pages, to wait with them. -/
def handAll (n : Nat) (s : State) : State :=
  applyAll (canOf n s).hand (fun _ t =>
    match handNext n t with
    | none => t
    | some (w, f, u) =>
      if holdsOf (100 + n) u = [] then offerFrame w f false u
      else setHolds (100 + n) (holdsOf (100 + n) u ++ [⟨{ w with gen := getF IMG_RCFG_gen u, data := f, len := f.length }, false⟩]) u) s

/-- CAN_HANDOFF (R289): the tile's oldest waiting frame asks for its pages, unless four already wait for theirs. -/
def execCanHandoff (n : Nat) (s : State) : Out :=
  .next <| onlyIf (isCan n s && tileHeld n s < 4) (fun s =>
    match handNext n s with
    | none => s
    | some (w, f, t) => offerFrame w f false t) s

/-- An error in an XL frame, which CAN_CFG.xles signals or not (R282). -/
def xlError (e : CanErr) : Bool := e == .xlRx || e == .xlTx

/-- An error is signalled with the flag of the tile's state, unless the tile is restricted (R283, R299). -/
def errorFlag (n : Nat) (s : State) : State :=
  if isSet (CAN_CFG_lom n) s then s else emit (.note "can error flag" [n, canState n s] []) s

/-- A protocol error recorded: its type and phase, the count, and its CAN_EVT bit (R299). -/
def protocolError (n code : Nat) (dph : Bool) (s : State) : State :=
  canEvt n (CAN_EVT_perr n) (incF (CAN_PERR_errors n) 1 (setF (CAN_LEC_code n) code (setB (CAN_LEC_dph n) dph s)))

/-- CAN_FRAME_ERROR (R299, R294, R282): an error condition with its LEC code (0: none) and phase. An FD tile that meets an XL frame with pex
set integrates again and counts nothing; with XL error signalling off, an error in an XL frame is recorded and the tile integrates again,
its error counters as they were (log entry 105). -/
def execCanFrameError (n : Nat) (e : CanErr) (code : Nat) (dph : Bool) (s : State) : Out :=
  .next <| onlyIf (canOnline n s && code < 7 && (!xlError e || tileFunc n s = 2)) (fun s =>
    if e = .xlSeen && tileFunc n s = 1 && isSet (CAN_CFG_pex n) s then canGoto n 2 s
    else
      let e1 : CanErr := if e = .xlSeen then .rx else e
      let code1 := if e = .xlSeen then 2 else code
      let s1 := if code1 = 0 then s else protocolError n code1 dph s
      if xlError e && !isSet (CAN_CFG_xles n) s then
        canGoto n 2 (match (canOf n s1).onBus with
          | some i => if e = .xlTx then attemptFailed n i s1 else s1
          | none => s1)
      else
        let r := errCounters e1 (getF (CAN_ERR_tec n) s) (getF (CAN_ERR_rec n) s)
        canCounters n r.1 r.2 (if code1 = 0 then s1 else errorFlag n s1)) s

/-- CAN_BODELAY_EXPIRY (R301). -/
def execCanBodelayExpiry (n : Nat) (s : State) : Out :=
  .next <| onlyIf (isCan n s && canState n s = 5 && getF (CAN_CFG_bor n) s = 2) (canGoto n 6) s

/-- CAN_RECOVERY_DONE (R301). -/
def execCanRecoveryDone (n : Nat) (s : State) : Out :=
  .next <| onlyIf (isCan n s && canState n s = 6) (fun s =>
    canEvt n (CAN_EVT_recovered n) (canGoto n 3 (canCounters n 0 0 s))) s

/-- A register write to a tile window: an unused tile, and a used one of another function, ignore it (R10, register notes of spec/12). -/
def canWrite (n : Nat) (g : State → State) (s : State) : State :=
  if n ≥ 48 then busError s
  else if isCan n s then g (busDone s)
  else busDone s

/-- CAN_CTL_STOP (R307, R301): at once when no frame is in progress, in bus-off and recovery, and before the tile's start; an asleep tile
is stopped as it wakes (log entry 104). -/
def cmdCanCtlStop (_rq : Requester) (n : Nat) (s : State) : State :=
  canWrite n (fun s =>
    let st := canState n s
    if 1 ≤ st && st ≤ 6 then
      if (canOf n s).onBus.isSome then setCan n { canOf n s with stopping := true } s else canStopNow n s
    else if st = 9 then setCan n { canOf n s with stopping := true } s
    else s) s

/-- The same under the rights of its requester. -/
def execCanCtlStop (rq : Requester) (n : Nat) (s : State) : Out :=
  .next (gate rq true (0x40200000 + 0x1000 * n + 0) 0 (cmdCanCtlStop rq n) s)

/-- CAN_CTL_START (R307): from state 7 the counters are zeroed and the tile integrates again. -/
def cmdCanCtlStart (_rq : Requester) (n : Nat) (s : State) : State :=
  canWrite n (fun s =>
    if canState n s = 7 then canGoto n 2 (canCounters n 0 0 s) else s) s

/-- The same under the rights of its requester. -/
def execCanCtlStart (rq : Requester) (n : Nat) (s : State) : Out :=
  .next (gate rq true (0x40200000 + 0x1000 * n + 0) 0 (cmdCanCtlStart rq n) s)

/-- CAN_CTL_RECOVER (R301). -/
def cmdCanCtlRecover (_rq : Requester) (n : Nat) (s : State) : State :=
  canWrite n (fun s =>
    if canState n s = 5 && getF (CAN_CFG_bor n) s = 1 then canGoto n 6 s else s) s

/-- The same under the rights of its requester. -/
def execCanCtlRecover (rq : Requester) (n : Nat) (s : State) : Out :=
  .next (gate rq true (0x40200000 + 0x1000 * n + 0) 0 (cmdCanCtlRecover rq n) s)

/-! Transmission (R294 to R298). -/

/-- A frame is bad for the tile (R296; the reserved fmt 3 among them). -/
def txBad (n w1 : Nat) (s : State) : Bool :=
  let d := bitsOf w1 0 12
  match bitsOf w1 12 2 with
  | 0 => d > 8
  | 1 => d > 64 || !isSet (CAN_CFG_fden n) s
  | 2 => tileFunc n s ≠ 2 || d = 0 || d > 2048
  | _ => true

/-- The next valid length of a format (R296). -/
def txLength (fmt d : Nat) : Nat :=
  if fmt = 1 then ([12, 16, 20, 24, 32, 48, 64].find? fun v => d > 8 && d ≤ v).getD d else d

/-- The data sent: padded to the next valid length (R296). -/
def txData (n : Nat) (w1 : Nat) (data : List Byte) (s : State) : List Byte :=
  data ++ List.replicate (txLength (bitsOf w1 12 2) (bitsOf w1 0 12) - data.length) (BitVec.ofNat 8 (getF (CAN_TXCFG_pad n) s))

/-- The arbitration key of R297, from words 0 and 1: an XL frame has no extended identifier, and only a classical one is remote (R288). -/
def arbKey (w0 w1 : Nat) : Nat :=
  let id := bitsOf w0 0 29
  let fmt := bitsOf w1 12 2
  let rtr := if fmt = 0 && w0.testBit 30 then 1 else 0
  if fmt ≠ 2 && w0.testBit 29 then bitsOf id 18 11 * 2 ^ 21 + 2 ^ 20 + 2 ^ 19 + bitsOf id 0 18 * 2 + rtr
  else bitsOf id 0 11 * 2 ^ 21 + rtr * 2 ^ 20

/-- The pending buffer that goes next: lowest key, then earliest (R297). -/
def arbWinner (n : Nat) (s : State) : Option Nat :=
  let l := (List.range 16).filter fun i => txPending n i s
  let before (a b : Nat) : Bool :=
    let key (i : Nat) : Nat := arbKey ((txOf n i s).words.getD 0 0) ((txOf n i s).words.getD 1 0)
    let ka := key a
    let kb := key b
    ka < kb || (ka = kb && (txOf n a s).order < (txOf n b s).order)
  match l with
  | [] => none
  | a :: r => some (r.foldl (fun x y => if before y x then y else x) a)

/-- CAN_ARBITRATION_CHOICE (R297): with lom the tile never sends (R283), nor on its way to being quiet or asleep. -/
def execCanArbitrationChoice (n : Nat) (s : State) : Out :=
  .next <| onlyIf (canOnline n s && (canOf n s).onBus.isNone && !isSet (CAN_CFG_lom n) s && !(canOf n s).stopping && mayBegin n s) (fun s =>
    match arbWinner n s with
    | none => s
    | some i => setB (CAN_STAT_txing n) true (setCan n { canOf n s with onBus := some i } s)) s

/-- The tile frame a replica carries: its bytes, taken out of their Ethernet frame where it is carried on so (R245). -/
def tileFrameOf (r : Replica) (s : State) : List Byte := if r.decap then decapsulate (wbBytes r.wb s) else wbBytes r.wb s

/-- What a sent frame puts on the bus: tile, the header's words 0 to 3, brs only where brsen allows it (R296), and the data, of which a remote
frame has none. An XL frame's data comes from its pages (R294). -/
def txEmit (n i : Nat) (s : State) : State :=
  let b := txOf n i s
  let w0 := b.words.getD 0 0
  let w1 := b.words.getD 1 0
  let data := match b.rep with
    | some r => tfData (tileFrameOf r s)
    | none => bufData b.words
  let w1' := if isSet (CAN_CFG_brsen n) s then w1 else natAndNot w1 (2 ^ 14)
  emit (.note "can frame" [n, w0, w1', b.head.1, b.head.2]
    (if bitsOf w1 12 2 = 0 && w0.testBit 30 then [] else txData n w1 data s)) s

/-- CAN_TX_END (R298, R299, R285): the attempt on the bus succeeded or failed; `meas` is the delay a frame with delay compensation
measured. -/
def execCanTxEnd (n : Nat) (ok : Bool) (meas : Option Nat) (s : State) : Out :=
  .next <| onlyIf (isCan n s) (fun s =>
    match (canOf n s).onBus with
    | none => s
    | some i =>
      let sw := getF (CAN_TXCFG_swbuf n) s
      let soft := i ≥ sw
      let w1 := (txOf n i s).words.getD 1 0
      let tdc := if bitsOf w1 12 2 = 2 then isSet (CAN_XBT_tdc n) s else bitsOf w1 12 2 = 1 && isSet (CAN_DBT_tdc n) s
      let s0 := match meas with
        | some m => if tdc then setF (CAN_TDC_meas n) (min m 127) s else s
        | none => s
      let w0 := (txOf n i s).words.getD 0 0
      let s2 :=
        if ok then
          let seen := seeFrame n (bitsOf w0 0 29) (bitsOf w1 12 2 ≠ 2 && w0.testBit 29) (attemptOver n i s0)
          let t := canEvt n (CAN_EVT_txdone n) (incF (CAN_TXCNT_cnt n) 1 (txEmit n i seen))
          let t1 := canCounters n (getF (CAN_ERR_tec n) t - 1) (getF (CAN_ERR_rec n) t) t
          if soft then orF (CAN_TXDONE_done n) (2 ^ i) (clrF (CAN_TXREQ_req n) (2 ^ i) t1)
          else swBump 17 cTxoct (16 + bitsOf w1 0 12) (swBump 17 cTxfrm 1 (txEmpty n i t1))
        else attemptFailed n i s0
      if (canOf n s2).stopping then canStopNow n s2 else s2) s

/-- CAN_SWITCH_BUFFER_LOAD (R295, R296): a free switch-fed buffer takes the head of the highest non-empty class queue of port 17. -/
def execCanSwitchBufferLoad (n : Nat) (s : State) : Out :=
  .next <| onlyIf (isCan n s && 2 ≤ canState n s && canState n s ≤ 4) (fun s =>
    let sw := getF (CAN_TXCFG_swbuf n) s
    match (List.range sw).find? (fun i => !txPending n i s),
          ([7, 6, 5, 4, 3, 2, 1, 0].find? fun c => queueAt (queueKey 17 n c) s ≠ []) with
    | some i, some c => match queueAt (queueKey 17 n c) s with
      | [] => s
      | r :: q =>
        let s0 := setQueue (queueKey 17 n c) q s
        let f := tileFrameOf r s
        if txBad n (tfW1 f) s || f.length < 16 then
          canEvt n (CAN_EVT_txbad n) (incF (CAN_TXDROP_bad n) 1 (dropReplica r s0))
        else
          let xl := tfFmt f = 2
          let c0 := canOf n s0
          let words := [tfW0 f, tfW1 f, if xl then r.wb.pages.headD 0 else 0, 0] ++
            (if xl then [] else (List.range 16).map fun k => leAt (tfData f) (4 * k) 4)
          let b : TxBuf := { words := words, order := c0.order, rep := if xl then some r else none
                             head := if xl then (leAt f 8 4, leAt f 12 4) else (0, 0) }
          let s1 := orF (CAN_TXREQ_req n) (2 ^ i) (setCan n { c0 with tx := tabPut {} c0.tx i b, order := c0.order + 1 } s0)
          if xl then s1 else dropReplica r s1
    | _, _ => s) s

/-- CAN_TXREQ (R295, R296): software-fed buffers made pending; bad frames refused. -/
def cmdCanTxreq (_rq : Requester) (n : Nat) (w : Word) (s : State) : State :=
  canWrite n (fun s =>
    let sw := getF (CAN_TXCFG_swbuf n) s
    applyAll ((List.range 16).filter fun i => sw ≤ i && w.getLsbD i && !txPending n i s) (fun i t =>
      if txBad n ((txOf n i t).words.getD 1 0) t || bitsOf ((txOf n i t).words.getD 1 0) 12 2 = 2 then
        canEvt n (CAN_EVT_txbad n) (incF (CAN_TXDROP_bad n) 1 t)
      else
        let c := canOf n t
        orF (CAN_TXREQ_req n) (2 ^ i) (setCan n { c with tx := tabPut {} c.tx i { txOf n i t with order := c.order }, order := c.order + 1 } t)) s) s

/-- The same under the rights of its requester. -/
def execCanTxreq (rq : Requester) (n : Nat) (w : Word) (s : State) : Out :=
  .next (gate rq true (0x40200000 + 0x1000 * n + 0x74) 0 (cmdCanTxreq rq n w) s)

/-- CAN_TXCAN (R298): software-fed buffers cancelled; the one on the bus finishes its attempt. -/
def cmdCanTxcan (_rq : Requester) (n : Nat) (w : Word) (s : State) : State :=
  canWrite n (fun s =>
    let sw := getF (CAN_TXCFG_swbuf n) s
    applyAll ((List.range 16).filter fun i => sw ≤ i && w.getLsbD i && txPending n i s) (fun i t =>
      if (canOf n t).onBus = some i then orF (CAN_TXCAN_can n) (2 ^ i) t
      else txCancelled n i t) s) s

/-- The same under the rights of its requester. -/
def execCanTxcan (rq : Requester) (n : Nat) (w : Word) (s : State) : Out :=
  .next (gate rq true (0x40200000 + 0x1000 * n + 0x78) 0 (cmdCanTxcan rq n w) s)

/-! Message RAM (R290, R292, R308). -/

/-- A word of a receive or priority buffer is read under its claim: the buffer locks, and its last word releases it. -/
def rxReadWord (b : RxBuf) (k : Nat) (w : World) : RxBuf × Bool :=
  if !b.host then (b, false)
  else if k = 3 + (bufDlen b.words + 3) / 4 then ({ b with host := false, lock := none }, true)
  else ({ b with lock := some (b.lock.getD w) }, false)

/-- CAN_RX_BUFFER_READ (R290, R292, R308): a read of a tile's message RAM. -/
def cmdCanRxBufferRead (rq : Requester) (n o : Nat) (s : State) : State :=
    if n ≥ 48 || o % 4 ≠ 0 || o ≥ 0x2000 then busError s
    else if !tileUsed n s then busData 0 s
    else if !isCan n s || o ≥ 0x1950 then busError s
    else if o < 0x1400 then
      let i := o / 80
      let k := o % 80 / 4
      let r := rxReadWord (rxOf n i s) k (rqRights rq)
      busData ((rxOf n i s).words.getD k 0) (setRx n i r.1 s)
    else if o < 0x1900 then
      busData ((txOf n ((o - 0x1400) / 80) s).words.getD ((o - 0x1400) % 80 / 4) 0) s
    else
      let c := canOf n s
      let k := (o - 0x1900) / 4
      let r := rxReadWord c.prio k (rqRights rq)
      let v := c.prio.words.getD k 0
      if r.2 then busData v (prioRelease n s)
      else busData v (setB (CAN_PRIOSTAT_locked n) r.1.lock.isSome (setCan n { c with prio := r.1 } s))

/-- The same under the rights of its requester. -/
def execCanRxBufferRead (rq : Requester) (n o : Nat) (s : State) : Out :=
  .next (gate rq false (0x40300000 + 0x2000 * n + o) 0 (cmdCanRxBufferRead rq n o) s)

/-- A write to a tile's message RAM (R295): only words 0, 1 and 4 to 19 of a software-fed buffer that is not pending. Receive and
priority buffers are the tile's to write: a write is ignored (log entry 12). -/
def canRamWrite (n o : Nat) (v : Nat) (s : State) : State :=
  if n ≥ 48 || o % 4 ≠ 0 || o ≥ 0x2000 then busError s
  else if !tileUsed n s then busDone s
  else if !isCan n s || o ≥ 0x1950 then busError s
  else if o < 0x1400 || o ≥ 0x1900 then busDone s
  else
    let i := (o - 0x1400) / 80
    let k := (o - 0x1400) % 80 / 4
    if txPending n i s || i < getF (CAN_TXCFG_swbuf n) s || k = 2 || k = 3 then busError s
    else
      let b := txOf n i s
      let words := (List.range 20).map fun j => if j = k then v else b.words.getD j 0
      busDone (setTx n i { b with words := words } s)

/-- CAN_RXREL (R290): the lock and the claim of a buffer are released. -/
def cmdCanRxrel (_rq : Requester) (n buf : Nat) (s : State) : State := canWrite n (rxRelease n (buf % 64)) s

/-- The same under the rights of its requester. -/
def execCanRxrel (rq : Requester) (n buf : Nat) (s : State) : Out :=
  .next (gate rq true (0x40200000 + 0x1000 * n + 0x44) 0 (cmdCanRxrel rq n buf) s)

/-- CAN_PRIOREL (R292). -/
def cmdCanPriorel (_rq : Requester) (n : Nat) (w : Word) (s : State) : State := canWrite n (fun s => if w.getLsbD 0 then prioRelease n s else s) s

/-- The same under the rights of its requester. -/
def execCanPriorel (rq : Requester) (n : Nat) (w : Word) (s : State) : Out :=
  .next (gate rq true (0x40200000 + 0x1000 * n + 0x64) 0 (cmdCanPriorel rq n w) s)

/-- A reset of a world releases the locks its reads made; the claims stay (R290, R292). -/
def canWorldReset (w : World) (s : State) : State :=
  { s with can := s.can.map fun e =>
      let un (b : RxBuf) : RxBuf := if b.lock = some w then { b with lock := none } else b
      (e.1, { e.2 with rx := e.2.rx.map (fun x => (x.1, un x.2)), prio := un e.2.prio }) }
    |> fun t => applyAll (List.range 48) (fun n u =>
      if isCan n u && (canOf n u).prio.lock.isNone && isSet (CAN_PRIOSTAT_locked n) u then setB (CAN_PRIOSTAT_locked n) false u else u) t

/-! Authentication (R303 to R306). -/

/-- The rule that decides a frame. -/
def authRule (n : Nat) (f : List Byte) (s : State) : Option Nat :=
  (List.range 16).find? fun j => isSet (CAN_AUID_en n j) s && getF (CAN_AUID_id n j) s = tfId f && isSet (CAN_AUID_ide n j) s == tfIde f

/-- The last accepted freshness value of a rule (R305). -/
def freshOf (n j : Nat) (s : State) : Nat := tabGet 0 (canOf n s).fresh j

/-- A word of it written: `hi` the high one, which a later read also shows (R306). -/
def freshWrite (n j : Nat) (hi : Bool) (v : Nat) (s : State) : State :=
  let f := freshOf n j s
  let g := if hi then f % 2 ^ 32 + v % 2 ^ 32 * 2 ^ 32 else f / 2 ^ 32 * 2 ^ 32 + v % 2 ^ 32
  let s1 := setCan n { canOf n s with fresh := tabPut 0 (canOf n s).fresh j g } s
  if hi then setF (CAN_AUFVHI_fv n j) v s1 else s1

/-- The candidate freshness value, or a freshness failure (R305). -/
def freshCand (f t r window : Nat) : Option Nat :=
  let c := if t = 0 then f + 1
    else
      let b := 2 ^ (8 * t)
      let c0 := f - f % b + r
      if c0 ≤ f then c0 + b else c0
  if c ≥ 2 ^ 64 || c - f > window then none else some c

/-- What the authenticate stage decides. -/
inductive AuthResult where
  | pass | fresh | mac | nokey
deriving DecidableEq, Repr

/-- The check of a frame by a rule, freshness first; `bad` runs of its CMAC job disagree (R306, R422). -/
def authCheck (n j : Nat) (f : List Byte) (bad : Nat) (s : State) : AuthResult × State :=
  let t := getF (CAN_AUCFG_tfvb n j) s
  let m := getF (CAN_AUCFG_macb n j) s
  let d := tfData f
  if d.length < t + m then (.mac, s)
  else
    let p := d.length - t - m
    match freshCand (tabGet 0 (canOf n s).fresh j) t (beNat (slice d p t)) (getF (CAN_AUWIN_window n j) s) with
    | none => (.fresh, s)
    | some c =>
      let h := match tileLodger n s with
        | some l => ((lodgerRec l s).map fun r => r.keys.getD (getF (CAN_AUCFG_kidx n j) s) 0).getD 0
        | none => 0
      if h = 0 then (.nokey, s)
      else match hwLoad 4 h 16 s with
        | (none, s1) => (.nokey, s1)
        | (some k, s1) =>
          let msg := beBytes 4 (getF (CAN_AUDID_did n j) s) ++ d.take p ++ beBytes 8 c
          match hwCmac (slotOf k s1).key msg bad s1 with
          | (none, s2) => (.nokey, s2)
          | (some tag, s2) =>
            if tag.take m = d.drop (p + t) then
              (.pass, setCan n { canOf n s2 with fresh := tabPut 0 (canOf n s2).fresh j c } s2)
            else (.mac, s2)

/-- The entries behind an authenticated frame go on until one needs its own check (R306, R212). -/
def authDrain : List AuthWait → State → State
  | [], s => s
  | a :: r, s =>
    if s.swc.authq ≠ [] then authDrain r { s with swc := { s.swc with authq := s.swc.authq ++ [a] } }
    else
      authDrain r (underGen false a.wb.gen (fun s =>
        let g := (graphRec a.wb.graph s).getD ⟨a.wb.graph, 0, 0, [], 0, 0, 0, 0⟩
        runStages a.stages { wb := a.wb, frame := wbBytes a.wb s, marked := a.marked } g false s) s)

/-- The check of one frame at stage 2 and what follows it; `bad` runs of its CMAC job disagree. -/
def authOne (bad : Nat) (a : AuthWait) (s : State) : State :=
  let n := a.wb.tile
  let f := wbBytes a.wb s
  let g := (graphRec a.wb.graph s).getD ⟨a.wb.graph, 0, 0, [], 0, 0, 0, 0⟩
  let go (ok : Bool) (t : State) : State :=
    runStages a.stages { wb := { a.wb with authok := ok }, frame := f, marked := a.marked } g false t
  let drop (t : State) : State := swBump 17 cAuthdrop 1 (freePages a.wb.pages t)
  match authRule n f s with
  | none => go false s
  | some j => match authCheck n j f bad s with
    | (.pass, t) => go true (incF (CAN_AUTHOK_cnt n) 1 t)
    | (.fresh, t) => raiseOnce 58 n (incF (CAN_AUTHFAIL_fresh n) 1 (drop t))
    | (.mac, t) => raiseOnce 41 n (incF (CAN_AUTHFAIL_mac n) 1 (drop t))
    | (.nokey, t) => raiseOnce 41 n (incF (CAN_AUTHNOKEY_cnt n) 1 (drop t))

/-- AUTHENTICATE (R303 to R306, R174): the oldest frame at stage 2 is checked, under the structure of its generation. -/
def execAuthenticate (bad : Nat) (s : State) : Out :=
  .next <| match s.swc.authq with
    | [] => s
    | a :: r => authDrain r (underGen false a.wb.gen (authOne bad a) { s with swc := { s.swc with authq := [] } })

end Sys2Proof.Machine
end

