-- ==== Sys2Proof/Machine/Ports.lean ====
section
/-! DEFINITION. Ethernet and 10BASE-T1S ports, the MDIO master and the time base (R309 to R323), and the commands on them. -/

namespace Sys2Proof.Machine

/-- A backbone port the boot ROM has brought up, before the cut-over (R92). -/
def bootPort (p : Nat) (s : State) : Bool := p < 2 && s.eth.bootLinks.testBit p && !serving s

/-- A register write to a port window: a port the image leaves unused ignores it (R10). -/
def portWrite (p : Nat) (g : State → State) (s : State) : State :=
  if p ≥ 16 then busError s else if portUsed p s || bootPort p s then g (busDone s) else busDone s

/-! Links (R309, R310, R316). -/

/-- The speed a port's link takes: of its mode, of its source, or of ETH_FORCE (R309). -/
def linkSpeed (p spd : Nat) (s : State) : Nat :=
  match portMode p s with
  | 3 => 3
  | 4 => if isSet (ETH_CFG_ibs p) s then spd % 3 else getF (ETH_FORCE_spd p) s
  | 1 => spd % 3
  | _ => 2

/-- The port's link source may report up: an RGMII port without in-band status follows ETH_FORCE. -/
def linkSource (p : Nat) (s : State) : Bool :=
  portMode p s ≠ 4 || isSet (ETH_CFG_ibs p) s || isSet (ETH_FORCE_link p) s

/-- ETH_LINK_UP (R309, R310): the link source reports up; a half-duplex partner keeps the link down. -/
def execEthLinkUp (p spd : Nat) (hdx anok : Bool) (s : State) : Out :=
  .next <| onlyIf (p < 12 && (portLive p s || bootPort p s) && !isSet (ETH_STAT_link p) s && linkSource p s) (fun s =>
    if hdx then setB (ETH_EVT_hdx p) true (setB (ETH_STAT_hdx p) true s)
    else
      raise 27 <| setB (ETH_EVT_up p) true <| setB (ETH_STAT_link p) true <| setF (ETH_STAT_spd p) (linkSpeed p spd s) <|
        setB (ETH_STAT_hdx p) false <| setB (ETH_STAT_anok p) anok s) s

/-- A port's link goes down without a declared change: its queues are flushed (R219, R338). -/
def linkOff (p : Nat) (s : State) : State :=
  let s1 := flushPort p s
  if p < 12 then setB (ETH_STAT_link p) false (setB (ETH_STAT_anok p) false s1)
  else setB (T1S_STAT_active (p - 12)) false s1

/-- ETH_LINK_DOWN (R310, R219): the source has reported down for lff ms; the link is declared down. -/
def execEthLinkDown (p : Nat) (s : State) : Out :=
  .next <| onlyIf (p < 12 && isSet (ETH_STAT_link p) s) (fun s =>
    raise 27 (setB (ETH_EVT_down p) true (linkOff p s))) s

/-- PLCA_BEACON_RECEIVE (R316). -/
def execPlcaBeaconReceive (p : Nat) (s : State) : Out :=
  .next <| onlyIf (12 ≤ p && portLive p s && getF (T1S_PLCACFG_id (p - 12)) s ≠ 0) (plcaUp p) s

/-- PLCA becomes inactive as a declared change: counted, event 29, queues flushed (R316, R219). -/
def plcaDown (p : Nat) (s : State) : State :=
  if isSet (T1S_STAT_active (p - 12)) s then
    raise 29 (incF (T1S_INACT_cnt (p - 12)) 1 (setB (T1S_EVT_inact (p - 12)) true (linkOff p s)))
  else s

/-- A port is stopped (R106, R111, R169): an active PLCA becomes inactive as a declared change, an Ethernet link is taken down. -/
def portStop (p : Nat) (s : State) : State := if 12 ≤ p && isSet (T1S_STAT_active (p - 12)) s then plcaDown p s else linkOff p s

/-- PLCA_INACTIVE (R316): no BEACON for 4000 bit times. -/
def execPlcaInactive (p : Nat) (s : State) : Out :=
  .next <| onlyIf (12 ≤ p && p < 16 && getF (T1S_PLCACFG_id (p - 12)) s ≠ 0) (plcaDown p) s

/-- T1S_COLLISION (R317): counted; the frame is sent again at its next opportunity, or discarded after 16 attempts. -/
def execT1sCollision (p : Nat) (s : State) : Out :=
  .next <| onlyIf (12 ≤ p && p < 16 && s.swc.onWire.testBit p) (fun s =>
    match sendingOf p s with
    | none => s
    | some r =>
      let s1 := ethCount p 8 { s with swc := { s.swc with onWire := natAndNot s.swc.onWire (2 ^ p) } }
      if r.tries + 1 ≥ 16 then ethCount p 9 (dropReplica r (setSending p none s1))
      else setSending p (some { r with tries := r.tries + 1 }) s1) s

/-! Reception (R312, R91). -/

/-- What the MAC makes of a frame without its FCS: the ETH_CNT index it counts. The order of the checks is not stated (log entry 20). -/
def macVerdict (p : Nat) (f : List Byte) (fcsOk sym : Bool) (s : State) : Nat :=
  let n := f.length + 4
  let limit := getF (ETH_CFG_maxlen p) s + (if isTagged f then 4 else 0)
  if sym then 4 else if n < 64 then 2 else if n > limit then 3 else if !fcsOk then 1 else if etherType f = 0x8808 then 5 else 0

/-- A frame of the hierarchy, by its destination address, for the boot ROM's ports (R92, R378). -/
def bootHierarchy (f : List Byte) : Bool := f.take 5 = [0x07, 0x48, 0x80, 0x50, 0x4C]

/-- MAC_FRAME_RECEIVE (R312, R321, R91): a port's frame has ended; it is discarded and counted, or counted as good and given to the
pipeline, unless its first 64 bytes already went there (R208). -/
def execMacFrameReceive (p : Nat) (frame : List Byte) (sfd : Nat) (fcsOk sym : Bool) (s : State) : Out :=
  .next <| onlyIf (p < 16 && portLink p s) (fun s =>
    let v := macVerdict p frame fcsOk sym s
    let s1 := setMet p false s
    if v ≠ 0 then abandonFrame p (ethCount p v s1)
    else if !serving s then (if bootPort p s && bootHierarchy frame then hieTake p frame (ethCount p 0 s1) else ethCount p 6 s1)
    else if !portUsed p s then s1
    else if s.eth.met.testBit p then ethCount p 0 s1
    else frameStored p (ingressFrame p frame sfd (ethCount p 0 s1))) s

/-! The MDIO master (R314): one master behind every copy of its registers; the copy of port 0 holds it. -/

/-- MDIO_COMMAND (R314): a write to ETH_MDIOCMD; a bus error while busy or for a reserved op. -/
def cmdMdioCommand (_rq : Requester) (p : Nat) (w : Word) (s : State) : State :=
  portWrite p (fun s =>
    if isSet (ETH_MDIOSTAT_busy 0) s || wbits w 26 3 > 4 then busError s
    else
      let s1 := setB (ETH_MDIOSTAT_busy 0) true
        { s with eth := { s.eth with mdio := some (wbits w 26 3, wbits w 21 5, wbits w 16 5, wbits w 0 16) } }
      emit (.note "mdio" [wbits w 26 3, wbits w 21 5, wbits w 16 5, wbits w 0 16] []) s1) s

/-- The same under the rights of its requester. -/
def execMdioCommand (rq : Requester) (p : Nat) (w : Word) (s : State) : Out :=
  .next (gate rq true (0x40400040 + 0x1000 * p) 0 (cmdMdioCommand rq p w) s)

/-- MDIO_DONE (R314): the command ends; a read takes the PHY's answer, 0xFFFF from an absent one. -/
def execMdioDone (answer : Option Nat) (s : State) : Out :=
  .next <| match s.eth.mdio with
    | none => s
    | some (op, _, _, _) =>
      let s1 := setB (ETH_MDIOSTAT_busy 0) false { s with eth := { s.eth with mdio := none } }
      if op = 1 || op = 4 then setF (ETH_MDIOSTAT_data 0) (answer.getD 0xFFFF) s1 else s1

/-! Egress stamps (R322). -/

/-- A read of ETH_TXTS0: a valid one removes the oldest stamp and copies its other fields. -/
def txtsRead (p : Nat) (s : State) : State :=
  match tabGet [] s.eth.txts p with
  | [] => busData 0 s
  | t :: r =>
    busData (t.ns + 2 ^ 31) <| setF (ETH_TXTS1_sec p) t.sec <| setF (ETH_TXTS2_seqid p) t.seqid <|
      setF (ETH_TXTS2_msgtype p) t.msgtype <| setF (ETH_TXTS2_domain p) t.domain <| setF (ETH_TXTSSTAT_fill p) r.length
        { s with eth := { s.eth with txts := tabPut [] s.eth.txts p r } }

/-- ETH_TXTS_READ (R322, R361). -/
def cmdEthTxtsRead (_rq : Requester) (p : Nat) (s : State) : State := if p ≥ 16 then busError s else if portUsed p s then txtsRead p s else busData 0 s

/-- The same under the rights of its requester. -/
def execEthTxtsRead (rq : Requester) (p : Nat) (s : State) : Out :=
  .next (gate rq false (0x40400020 + 0x1000 * p) 0 (cmdEthTxtsRead rq p) s)

/-! The time base (R318, R320, R323). -/

/-- SYNC_RECEIVE (R323): a Sync on the watched port. -/
def execSyncReceive (p : Nat) (s : State) : Out :=
  .next <| onlyIf (isSet TSY_CFG_role s && getF TSY_CFG_slvport s = p) (fun s =>
    incF TSY_SYNCCNT_cnt 1 (setB TSY_STAT_sync true { s with eth := { s.eth with syncLost := false } })) s

/-- SYNC_TIMEOUT (R323): event 31 is raised once until the next Sync. -/
def execSyncTimeout (s : State) : Out :=
  .next <| onlyIf (isSet TSY_CFG_role s && !s.eth.syncLost) (fun s =>
    raise 31 (setB TSY_STAT_sync false { s with eth := { s.eth with syncLost := true } })) s

/-- The seconds of TSY_SETSHI and TSY_SETSLO. -/
def tsySec (s : State) : Nat := getF TSY_SETSHI_sec s * 2 ^ 32 + getF TSY_SETSLO_sec s

/-- A set of the time base (R320): seconds and nanoseconds are loaded; the fraction stays. -/
def tsySet (s : State) : State :=
  incF TSY_STAT_steps 1 { s with time := { s.time with sec := tsySec s, ns := getF TSY_SETNS_ns s } }

/-- A step (R320): signed 48-bit seconds and nanoseconds are added. -/
def tsyStep (s : State) : State :=
  let n := s.time.ns + getF TSY_SETNS_ns s
  incF TSY_STAT_steps 1 { s with time := { s.time with
    sec := (s.time.sec + tsySec s + n / 1000000000) % 2 ^ 48, ns := n % 1000000000 } }

/-- TSY_SET (R320). -/
def cmdTsySet (_rq : Requester) (s : State) : State := (tsySet (busDone s))

/-- The same under the rights of its requester. -/
def execTsySet (rq : Requester) (s : State) : Out :=
  .next (gate rq true 0x40170000 0 (cmdTsySet rq) s)

/-- TSY_STEP (R320). -/
def cmdTsyStep (_rq : Requester) (s : State) : State := (tsyStep (busDone s))

/-- The same under the rights of its requester. -/
def execTsyStep (rq : Requester) (s : State) : Out :=
  .next (gate rq true 0x40170000 0 (cmdTsyStep rq) s)

/-- TSY_FADJ_WRITE (R318, R320). -/
def cmdTsyFadjWrite (_rq : Requester) (w : Word) (s : State) : State := if fadjOk w.toNat then busDone (setF TSY_FADJ_fadj w.toNat s) else busError s

/-- The same under the rights of its requester. -/
def execTsyFadjWrite (rq : Requester) (w : Word) (s : State) : Out :=
  .next (gate rq true 0x40170010 0 (cmdTsyFadjWrite rq w) s)

end Sys2Proof.Machine
end

