-- ==== Sys2Proof/Machine/Serial.lean ====
section
/-! DEFINITION. Serial tiles: LIN, UART, HDLC and GPIO (R324 to R336), and the commands on them. -/

namespace Sys2Proof.Machine

/-- A serial tile's hidden state. -/
def serOf (n : Nat) (s : State) : SerTile := tabGet {} s.ser n

/-- It replaced. -/
def setSer (n : Nat) (t : SerTile) (s : State) : State := { s with ser := tabPut {} s.ser n t }

/-- SER_STAT.state of a tile (R324). -/
def serState (n : Nat) (s : State) : Nat := getF (SER_STAT_state n) s

/-- A running serial tile of a function. -/
def serRuns (n : Nat) (fns : List Nat) (s : State) : Bool := n < 48 && fns.contains (tileFunc n s) && serState n s = 2

/-- A SER_EVT bit is set; its rise raises event 26 where it is enabled (R326). -/
def serEvt (n : Nat) (f : Fld) (s : State) : State :=
  if isSet f s then s
  else
    let s1 := setB f true s
    if (getF (SER_EVTEN_en n) s).testBit f.lo then raise 26 s1 else s1

/-- An error counter counts k, with SER_EVT.err. -/
def serErr (n : Nat) (f : Fld) (k : Nat) (s : State) : State :=
  if k = 0 then s else serEvt n (SER_EVT_err n) (incF f k s)

/-- A received frame, begun at a time, waits for its handoff to port 17 in the tile frame layout (R325); a fifth is dropped. -/
def serHand (n id : Nat) (data : List Byte) (time : Nat) (s : State) : State :=
  let t := serOf n s
  if t.hand.length ≥ 4 then serEvt n (SER_EVT_ovr n) (incF (SER_RXOVR_cnt n) 1 s)
  else
    let f := mkTileFrame (id % 2 ^ 29) (data.length % 4096 + 3 * 2 ^ 12 + 31 * 2 ^ 16 + t.seq * 2 ^ 24) 0 0 data
    let w : Waybill := { src := 17, tile := n, tc := getF (FAB_TCFG_tc n) s, lossless := false, lodger := tileLodger n s, time := time }
    setSer n { t with seq := (t.seq + 1) % 256, hand := t.hand ++ [(w, f)] } s

/-- The waiting frames of a serial tile are handed to port 17, the oldest first. -/
def serHandAll (n : Nat) (s : State) : State :=
  applyAll (serOf n s).hand (fun x t => offerFrame x.1 x.2 false t) (setSer n { serOf n s with hand := [] } s)

/-- A frame is received whole: counted, with SER_EVT.rx. -/
def serReceived (n : Nat) (s : State) : State := serEvt n (SER_EVT_rx n) (incF (SER_RXCNT_cnt n) 1 s)

/-- A frame has been sent: counted, with SER_EVT.tx. -/
def serSent (n : Nat) (s : State) : State := serEvt n (SER_EVT_tx n) (incF (SER_TXCNT_cnt n) 1 s)

/-- A register write to a serial tile of certain functions: an unused tile, and one of another function, ignore it (R10, R336). -/
def serWrite (n : Nat) (fns : List Nat) (g : State → State) (s : State) : State :=
  if n ≥ 48 then busError s else if fns.contains (tileFunc n s) then g (busDone s) else busDone s

/-- Bytes of a block of registers, four to a word. -/
def regBytes (f : Nat → Fld) (n : Nat) (s : State) : List Byte :=
  ((List.range ((n + 3) / 4)).flatMap fun i => leBytes 4 (getF (f i) s)).take n

/-! Quiet (R173). -/

/-- An HDLC tile has a receive in progress: content after its opening flag. -/
def hdlcReceiving (n : Nat) (s : State) : Bool := tileFunc n s = 6 && (serOf n s).rx.length > 1

/-- A LIN tile sends no further wake pulse (R346). -/
def pulsesEnd (n : Nat) (s : State) : State :=
  { s with wks := { s.wks with pulses := tabPut 0 s.wks.pulses n 0, pulseDue := s.wks.pulseDue.filter (· ≠ n) } }

/-- A serial tile becomes quiet (R173): the frames it has accepted are on their way, a UART's transmission ends after its character, an HDLC
tile's with an abort, its receive in progress is discarded and, unless its bank is down (spec/12, corner cases), counted; a GPIO tile's
outputs hold their levels; a LIN tile's wake pulses end (R339). -/
def serQuiet (n st : Nat) (s : State) : State :=
  let s0 := serHandAll n s
  let s1 := if st ≠ 0 && hdlcReceiving n s0 then serErr n (SER_ERR1_abort n) 1 s0 else s0
  let t := serOf n s1
  let s2 := if tileFunc n s = 6 && t.sending.isSome then emit (.note "hdlc abort" [n] [0x7D, 0x7E]) s1 else s1
  let held := if tileFunc n s = 7 then some (t.heldOut.getD (getF (GPIO_OUT_out n) s)) else none
  pulsesEnd n <| setF (SER_STAT_state n) st (setSer n { t with sending := none, stopping := false, lin := none, rx := [], heldOut := held } s2)

/-! LIN (R328 to R330). -/

/-- The PID of an identifier: P0 and P1 above the six bits (R328). -/
def linPid (id : Nat) : Nat :=
  let b (i : Nat) : Bool := id.testBit i
  let p0 := ((b 0 != b 1) != b 2) != b 4
  let p1 := !(((b 1 != b 3) != b 4) != b 5)
  id % 64 + (if p0 then 64 else 0) + (if p1 then 128 else 0)

/-- One byte into the sum with end-around carry. -/
def carrySum (a b : Nat) : Nat := if a + b ≥ 256 then a + b - 255 else a + b

/-- The checksum of a response: classic for 0x3C and 0x3D, else as LIN_FRM.cs selects (R328). -/
def linChecksum (id : Nat) (enhanced : Bool) (data : List Byte) : Byte :=
  let init := if enhanced && id ≠ 0x3C && id ≠ 0x3D then linPid id else 0
  BitVec.ofNat 8 (255 - data.foldl (fun a b => carrySum a b.toNat) init)

/-- The publish data of an identifier. -/
def linPubData (n id : Nat) (s : State) : List Byte :=
  regBytes (fun i => LIN_PUB_data n (2 * id + i)) (getF (LIN_FRM_len n id) s) s

/-- A tile that knows a header's identifier publishes, subscribes or ignores; sending a response clears upd (R329). -/
def linHeader (n id : Nat) (s : State) : State :=
  let pub := getF (LIN_FRM_dir n id) s = 1
  let s1 := setSer n { serOf n s with lin := some (id, pub) } s
  if pub then
    let d := linPubData n id s
    setB (LIN_FRM_upd n id) false
      (emit (.note "lin response" [n, id] (d ++ [linChecksum id (isSet (LIN_FRM_cs n id) s) d])) s1)
  else s1

/-- A commander sends a header (R328). -/
def linSendHeader (n id : Nat) (s : State) : State :=
  linHeader n id (emit (.note "lin header" [n, getF (LIN_CFG_brk n) s, getF (LIN_CFG_del n) s, 0x55, linPid id] []) s)

/-- A switch of the schedule table takes effect (R330). A `once` table knows the tables that ran before it, the nearest first: one of them that
is itself a `once` table returns to the next (log entry 106). -/
def linSwitch (n k : Nat) (s : State) : State :=
  let t := serOf n s
  let cur := getF (LIN_SCHED_cur n) s
  let before := if isSet (LIN_TBL_once n cur) s then t.sched.back else []
  let back := if isSet (LIN_TBL_once n k) s then cur :: before else []
  serEvt n (SER_EVT_sched n) <| setB (LIN_SCHED_pend n) false <| setF (LIN_SCHED_cur n) k <|
    setSer n { t with sched := { slot := 0, run := true, coll := none, back := back, collided := none } } s

/-- The next slot of the schedule begins: a requested switch, a collision table, the next slot of either, or the table that ran before
a `once` table (R330). -/
def linAdvance (n : Nat) (s : State) : State :=
  let t := serOf n s
  let c := t.sched
  let cur := getF (LIN_SCHED_cur n) s
  let put (x : LinSched) : State := setSer n { t with sched := x } s
  let onward (x : LinSched) : State :=
    if x.slot + 1 < getF (LIN_TBL_cnt n cur) s then put { x with slot := x.slot + 1, coll := none }
    else match (if isSet (LIN_TBL_once n cur) s then x.back else []) with
      | b :: r => serEvt n (SER_EVT_sched n) (setF (LIN_SCHED_cur n) b (put { run := true, back := r }))
      | [] => put { x with slot := 0, coll := none }
  if !c.run then
    setB (LIN_SCHED_pend n) false (setF (LIN_SCHED_cur n) (getF (LIN_SCHED_sel n) s) (put { run := true }))
  else if isSet (LIN_SCHED_pend n) s then linSwitch n (getF (LIN_SCHED_sel n) s) s
  else match c.collided with
    | some k =>
      if getF (LIN_TBL_cnt n k) s = 0 then onward { c with collided := none }
      else put { c with coll := some (k, 0), collided := none }
    | none => match c.coll with
      | some (k, i) => if i + 1 < getF (LIN_TBL_cnt n k) s then put { c with coll := some (k, i + 1) } else onward c
      | none => onward c

/-- The entry of LIN_SLOT the schedule stands at, if its table has any slot. -/
def linEntry (n : Nat) (s : State) : Option Nat :=
  let c := (serOf n s).sched
  let r := match c.coll with
    | some (k, i) => (k, i)
    | none => (getF (LIN_SCHED_cur n) s, c.slot)
  if getF (LIN_TBL_cnt n r.1) s = 0 then none else some ((getF (LIN_TBL_first n r.1) s + r.2) % 64)

/-- A commander's slot starts; its header goes as the slot's type gives (R330). -/
def linSlot (n : Nat) (s : State) : State :=
  let s1 := linAdvance n s
  match linEntry n s1 with
  | none => s1
  | some e =>
    let id := getF (LIN_SLOT_id n e) s1
    match getF (LIN_SLOT_type n e) s1 with
    | 2 => if isSet (LIN_FRM_upd n id) s1 then linSendHeader n id s1 else s1
    | 3 => if isSet (LIN_FRM_upd n 0x3C) s1 then linSendHeader n 0x3C s1 else s1
    | 4 => linSendHeader n 0x3D s1
    | _ => linSendHeader n id s1

/-- LIN_SLOT_START (R330). -/
def execLinSlotStart (n : Nat) (s : State) : Out :=
  .next <| onlyIf (serRuns n [3] s && (serOf n s).lin.isNone && mayBegin n s) (linSlot n) s

/-- The bank of a tile keeps its supply. -/
def bankPowered (n : Nat) (s : State) : Bool := (getF SYS_RAILOK_tbank s).testBit (n / 8)

/-- An asleep LIN tile, whose filter sees the frames on its bus (R345). -/
def linListens (n : Nat) (s : State) : Bool := n < 48 && isLin n s && serState n s = 5 && bankPowered n s

/-- LIN_HEADER_RECEIVE (R328, R345): a responder has received a break, a sync byte and a PID; the filter of an asleep tile follows the frame. -/
def execLinHeaderReceive (n sync pid : Nat) (s : State) : Out :=
  .next <| if linListens n s then
      (if sync = 0x55 && pid = linPid (pid % 64) then setSer n { serOf n s with lin := some (pid % 64, false) } s else s)
    else onlyIf (serRuns n [4] s && mayBegin n s) (fun s =>
    let s := pulsesEnd n s
    if sync ≠ 0x55 then serErr n (SER_ERR1_abort n) 1 s
    else if pid ≠ linPid (pid % 64) then serErr n (SER_ERR1_pid n) 1 s
    else linHeader n (pid % 64) s) s

/-- A subscribed response stored for software (R329). -/
def linStore (n id : Nat) (data : List Byte) (s : State) : State :=
  let f := if id < 32 then LIN_RXNEW0_new n else LIN_RXNEW1_new n
  orF f (2 ^ (id % 32)) (setF (LIN_RXD_data n (2 * id)) (leAt data 0 4) (setSer n { serOf n s with rxHi := tabPut 0 (serOf n s).rxHi id (leAt data 4 4) } s))

/-- The slot in progress is event-triggered: its collision table (R330). -/
def linCollTable (n : Nat) (s : State) : Option Nat :=
  match linEntry n s with
  | some e => if tileFunc n s = 3 && getF (LIN_SLOT_type n e) s = 1 then some (getF (LIN_SLOT_coll n e) s) else none
  | none => none

/-- A collision in an event-triggered slot: the table runs from the next slot. -/
def linCollide (n : Nat) (s : State) : State :=
  match linCollTable n s with
  | some k => let t := serOf n s
              setSer n { t with sched := { t.sched with collided := some k } } s
  | none => s

/-- A response of the right length carries the checksum of its data (R328). -/
def linGood (n id : Nat) (bytes : List Byte) (s : State) : Bool :=
  let len := getF (LIN_FRM_len n id) s
  linChecksum id (isSet (LIN_FRM_cs n id) s) (bytes.take len) == bytes.getD len 0

/-- A LIN tile's frame is over; one that was to stop is stopped. -/
def linEnd (n : Nat) (s : State) : State :=
  let s1 := setSer n { serOf n s with lin := none } s
  if (serOf n s).stopping then serQuiet n 3 s1 else s1

/-- What a LIN response that ends comes to (R328, R329): published, subscribed or ignored; whichever it is, a checksum or framing error in an
event-triggered slot is a collision (R330). -/
def linOutcome (n id : Nat) (pub : Bool) (bytes : List Byte) (framing readback : Bool) (ago : Nat) (s : State) : State :=
  let len := getF (LIN_FRM_len n id) s
  let data := bytes.take len
  let good := linGood n id bytes s
  if pub then
    if readback then serErr n (SER_ERR0_bit n) 1 s
    else if framing then linCollide n s
    else serSent n (seeFrame n id false s)
  else if getF (LIN_FRM_dir n id) s ≠ 2 then
    if framing then linCollide n s
    else if bytes.length ≤ len then s
    else if good then seeFrame n id false s
    else linCollide n s
  else if framing then linCollide n (serErr n (SER_ERR0_framing n) 1 s)
  else if bytes.length < len + 1 then serErr n (SER_ERR1_noresp n) 1 s
  else if !good then linCollide n (serErr n (SER_ERR0_crc n) 1 s)
  else
    let s1 := serReceived n (seeFrame n id false s)
    let s2 := if isSet (LIN_FRM_sw n id) s then linStore n id data s1 else s1
    if isSet (LIN_FRM_net n id) s then serHand n id data (slowStamp ago s) s2 else s2

/-- The filter of an asleep LIN tile records a completed frame (R345). -/
def linHeard (n : Nat) (bytes : List Byte) (framing : Bool) (s : State) : State :=
  match (serOf n s).lin with
  | none => s
  | some (id, _) =>
    let s1 := setSer n { serOf n s with lin := none } s
    if !framing && bytes.length > getF (LIN_FRM_len n id) s && linGood n id bytes s then seeFrame n id false s1 else s1

/-- LIN_RESPONSE_END (R328, R345): a response is complete or its time has run out. `bytes` are those received, checksum last; the frame's break
began `ago` cycles of CK_SLOW before. -/
def execLinResponseEnd (n : Nat) (bytes : List Byte) (framing readback : Bool) (ago : Nat) (s : State) : Out :=
  .next <| if linListens n s then linHeard n bytes framing s
    else onlyIf (serRuns n [3, 4] s) (fun s =>
      match (serOf n s).lin with
      | none => s
      | some (id, pub) => linEnd n (linOutcome n id pub bytes framing readback ago s)) s

/-- LIN_SCHED_WRITE (R330): a table switch at the end of the current slot. -/
def cmdLinSchedWrite (_rq : Requester) (n : Nat) (w : Word) (s : State) : State := serWrite n [3, 4] (fun s => setB (LIN_SCHED_pend n) true (setF (LIN_SCHED_sel n) (wbits w 0 2) s)) s

/-- The same under the rights of its requester. -/
def execLinSchedWrite (rq : Requester) (n : Nat) (w : Word) (s : State) : Out :=
  .next (gate rq true (0x40200000 + 0x1000 * n + 0x44) 0 (cmdLinSchedWrite rq n w) s)

/-- A write to LIN_PUB (R329): the second word sets upd. -/
def linPubWrite (n i k v : Nat) (s : State) : State :=
  let s1 := setF (LIN_PUB_data n (2 * i + k)) v s
  if k = 1 then setB (LIN_FRM_upd n i) true s1 else s1

/-- LIN_PUB_WRITE (R329). -/
def cmdLinPubWrite (_rq : Requester) (n i k : Nat) (w : Word) (s : State) : State := if i ≥ 64 || k ≥ 2 then busError s else serWrite n [3, 4] (linPubWrite n i k w.toNat) s

/-- The same under the rights of its requester. -/
def execLinPubWrite (rq : Requester) (n i k : Nat) (w : Word) (s : State) : Out :=
  .next (gate rq true (0x40200000 + 0x1000 * n + 0x400 + 8 * i + 4 * k) 0 (cmdLinPubWrite rq n i k w) s)

/-! UART characters (R331, R335). -/

/-- DE is asserted: a transmission is framed by it (R335). -/
def deAsserted (n : Nat) (s : State) : Bool :=
  isSet (UART_DE_en n) s && serState n s = 2 && (serOf n s).sending.isSome

/-- The parity of a byte's bits: true where they hold an odd number of ones. -/
def oddOnes (b : Byte) : Bool := (List.range 8).foldl (fun p i => p != b.getLsbD i) false

/-- The data bits of a character: 7 or 8 (R331). -/
def charBits (n : Nat) (b : Byte) (s : State) : Byte := if isSet (UART_CFG_d7 n) s then b &&& 0x7F else b

/-- The parity bit a character carries, where it carries one: par 1 is even, 2 odd (R331). -/
def charParity (n : Nat) (b : Byte) (s : State) : Option Bool :=
  match getF (UART_CFG_par n) s with
  | 1 => some (oddOnes (charBits n b s))
  | 2 => some (!oddOnes (charBits n b s))
  | _ => none

/-- The levels of a character on the line, a bit time each: start bit, data bits, parity, stop bits (R331). -/
def charLine (n : Nat) (b : Byte) (s : State) : List Bool :=
  [false] ++ (List.range (if isSet (UART_CFG_d7 n) s then 7 else 8)).map (fun i => b.getLsbD i) ++ (charParity n b s).toList ++
    (if isSet (UART_CFG_stop2 n) s then [true, true] else [true])

/-- The levels of a frame's characters, UART_CFG.tgap idle bits between them (R331). -/
def frameLine (n : Nat) (s : State) : List Byte → List Bool
  | [] => []
  | [b] => charLine n b s
  | b :: r => charLine n b s ++ List.replicate (getF (UART_CFG_tgap n) s) true ++ frameLine n s r

/-- A received character's parity bit is wrong. -/
def charWrong (n : Nat) (c : UartChar) (s : State) : Bool := ((charParity n c.data s).map (· != c.par)).getD false

/-- The bytes of a receive frame's characters. -/
def rxBytes (n : Nat) (l : List (Nat × UartChar)) (s : State) : List Byte := l.map fun c => charBits n c.2.data s

/-- Framing errors, breaks among them, and parity errors in a receive frame are counted (R331, R332). -/
def charErrors (n : Nat) (l : List (Nat × UartChar)) (s : State) : State :=
  serErr n (SER_ERR0_parity n) (l.countP fun c => c.2.stop && charWrong n c.2 s) (serErr n (SER_ERR0_framing n) (l.countP fun c => !c.2.stop) s)

/-- A receive frame holds a character error. -/
def charsBad (n : Nat) (l : List (Nat × UartChar)) (s : State) : Bool := l.any fun c => !c.2.stop || charWrong n c.2 s

/-- The receive frame in progress replaced. -/
def setRxFrame (n : Nat) (l : List (Nat × UartChar)) (s : State) : State := setSer n { serOf n s with rx := l } s

/-! HDLC framing (R334). -/

/-- Bits of a byte, least significant first. -/
def lsbBits (b : Byte) : List Bool := (List.range 8).map fun i => b.getLsbD i

/-- A number's n bits in reverse. -/
def revBits (n v : Nat) : Nat := bitsNat ((List.range n).map fun i => v.testBit i)

/-- The reflected FCS of a content (R334). -/
def hdlcFcs (crc32 : Bool) (d : List Byte) : List Byte :=
  let bits := d.flatMap lsbBits
  if crc32 then leBytes 4 (revBits 32 (crcBits 32 0x04C11DB7 0xFFFFFFFF bits) ^^^ 0xFFFFFFFF)
  else leBytes 2 (revBits 16 (crcBits 16 0x1021 0xFFFF bits) ^^^ 0xFFFF)

/-- One byte as it is sent: escaped where R334 asks. -/
def hdlcEscape (accm : Nat) (b : Byte) : List Byte :=
  if b = 0x7E || b = 0x7D || (b.toNat < 0x20 && accm.testBit b.toNat) then [0x7D, b ^^^ 0x20] else [b]

/-- A frame as it is sent, with both flags. -/
def hdlcFrame (crc32 : Bool) (accm : Nat) (d : List Byte) : List Byte :=
  [0x7E] ++ (d ++ hdlcFcs crc32 d).flatMap (hdlcEscape accm) ++ [0x7E]

/-- The bytes between two flags with escapes undone and unescaped control bytes of the map discarded. -/
def hdlcUnescape (accm : Nat) : List Byte → List Byte
  | [] => []
  | 0x7D :: b :: r => (b ^^^ 0x20) :: hdlcUnescape accm r
  | b :: r => if b.toNat < 0x20 && accm.testBit b.toNat then hdlcUnescape accm r else b :: hdlcUnescape accm r

/-- The content between two flags is checked and handed over or discarded (R334). -/
def hdlcFrameEnd (n : Nat) (t : Nat) (l : List (Nat × UartChar)) (s : State) : State :=
  let c := isSet (HDLC_CFG_crc n) s
  let k := if c then 4 else 2
  let raw := rxBytes n l s
  let d := hdlcUnescape (getF (HDLC_ACCM_map n) s) raw
  let body := d.take (d.length - k)
  if charsBad n l s then charErrors n l s
  else if raw.getLast? = some 0x7D then serErr n (SER_ERR1_abort n) 1 s
  else if d.length ≤ k then s
  else if body.length > 2048 then serErr n (SER_ERR1_long n) 1 s
  else if hdlcFcs c body ≠ d.drop (d.length - k) then serErr n (SER_ERR0_crc n) 1 s
  else serHand n ((body.headD 0).toNat) body t (serReceived n s)

/-- A character reaches an HDLC receiver: a flag ends the frame before it and opens the next; before the first flag there is no frame. A
frame with a character in error is discarded (log entry 115). -/
def hdlcChar (n : Nat) (c : UartChar) (s : State) : State :=
  let x := (slowStamp c.ago s, c)
  match (serOf n s).rx with
  | [] => if c.stop && c.data = 0x7E then setRxFrame n [x] s else s
  | f :: l =>
    if c.stop && c.data = 0x7E then
      let s1 := setRxFrame n [x] s
      if l = [] then s1 else hdlcFrameEnd n f.1 l s1
    else setRxFrame n (f :: l ++ [x]) s

/-- HDLC_FRAME_RECEIVE (R334, R335): characters the receiver has sampled since the last such command, the closing flag of a frame among them.
While DE is asserted the receiver takes no frame from the line. -/
def execHdlcFrameReceive (n : Nat) (chars : List UartChar) (s : State) : Out :=
  .next <| onlyIf (serRuns n [6] s && !deAsserted n s) (applyAll chars (hdlcChar n)) s

/-! Reception of UART frames (R331, R332). -/

/-- A UART receive frame ends; one with a parity error, a framing error or a break is discarded whole and counted (R332). -/
def uartEnd (n : Nat) (s : State) : State :=
  match (serOf n s).rx with
  | [] => s
  | f :: r =>
    let l := f :: r
    let s1 := setRxFrame n [] s
    if charsBad n l s then charErrors n l s1 else serHand n 0 (rxBytes n l s) f.1 (serReceived n s1)

/-- A character reaches a UART receiver: it ends the frame as its last byte by length, or as the delimiter (R332). -/
def uartChar (n : Nat) (c : UartChar) (s : State) : State :=
  let l := (serOf n s).rx ++ [(slowStamp c.ago s, c)]
  let s1 := setRxFrame n l s
  if l.length ≥ getF (UART_FMAX_max n) s || (isSet (UART_FRM_dlmen n) s && (charBits n c.data s).toNat = getF (UART_FRM_dlm n) s) then uartEnd n s1
  else s1

/-- UART_FRAME_END (R332, R335): characters the receiver has sampled since the last such command, and whether the line has then been idle for
UART_FRM.gap bit times; what no rule has ended stays in progress. While DE is asserted the receiver takes no frame from the line. -/
def execUartFrameEnd (n : Nat) (chars : List UartChar) (gap : Bool) (s : State) : Out :=
  .next <| onlyIf (serRuns n [5] s && !deAsserted n s) (fun s =>
    let s1 := applyAll chars (uartChar n) s
    if gap then uartEnd n s1 else s1) s

/-- Asserting DE ends a receive frame in progress as the gap does; an HDLC one has no closing flag and is discarded (R335;
log entry 115). -/
def rxFrameEnd (n : Nat) (s : State) : State := if tileFunc n s = 5 then uartEnd n s else setRxFrame n [] s

/-! Transmission (R326, R333, R335). -/

/-- A switch frame is dropped as bad (R326). -/
def serBad (n : Nat) (s : State) : State := incF (SER_TXDROP_bad n) 1 s

/-- The output levels of a GPIO tile after a switch frame, which reaches its output lines alone (R336). -/
def gpioSet (n : Nat) (d : List Byte) (s : State) : State :=
  let m := leAt d 1 1 &&& getF (GPIO_CFG_dir n) s
  let v := leAt d 0 1
  setF (GPIO_OUT_out n) (natAndNot (getF (GPIO_OUT_out n) s) m ||| (v &&& m)) s

/-- A LIN tile takes publish data from a switch frame (R329): word by word, with upd. -/
def linSwitchFrame (n id : Nat) (d : List Byte) (s : State) : State :=
  linPubWrite n id 1 (leAt d 4 4) (linPubWrite n id 0 (leAt d 0 4) s)

/-- The tile can send the frame (R326, R329, R332, R336). -/
def serSendable (n : Nat) (f : List Byte) (s : State) : Bool :=
  match tileFunc n s with
  | 3 => tfId f < 64 && getF (LIN_FRM_dir n (tfId f)) s = 1 && tfDlen f = getF (LIN_FRM_len n (tfId f)) s
  | 4 => tfId f < 64 && getF (LIN_FRM_dir n (tfId f)) s = 1 && tfDlen f = getF (LIN_FRM_len n (tfId f)) s
  | 7 => tfDlen f = 2
  | _ => tfDlen f ≤ 2048

/-- Port 17's counters for a frame a tile has sent (R234). -/
def tileSentCount (len : Nat) (s : State) : State := swBump 17 cTxoct len (swBump 17 cTxfrm 1 s)

/-- SERIAL_TX_DEQUEUE (R326): the head of the highest non-empty class queue goes into the transmit buffer, to the publish data or to
the output lines, or is dropped as bad. -/
def execSerialTxDequeue (n : Nat) (s : State) : Out :=
  .next <| onlyIf (serRuns n [3, 4, 5, 6, 7] s && (serOf n s).tx.length < 2 && !(serOf n s).stopping) (fun s =>
    match [7, 6, 5, 4, 3, 2, 1, 0].find? fun c => queueAt (queueKey 17 n c) s ≠ [] with
    | none => s
    | some c => match queueAt (queueKey 17 n c) s with
      | [] => s
      | r :: q =>
        let f := tileFrameOf r s
        let s1 := dropReplica r (setQueue (queueKey 17 n c) q s)
        if f.length < 16 || !serSendable n f s then serBad n s1
        else if isLin n s then tileSentCount f.length (linSwitchFrame n (tfId f) (tfData f) s1)
        else if tileFunc n s = 7 then tileSentCount f.length (gpioSet n (tfData f) s1)
        else
          let t := serOf n s1
          setSer n { t with tx := t.tx ++ [{ r with out := tfData f }] } s1) s

/-- The bytes of a transmission on the line: characters of 7 or 8 bits as they are, or an HDLC frame, whose closing flag is left out where the
next frame shares it (R331, R334). -/
def serLine (n : Nat) (d : List Byte) (next : Bool) (s : State) : List Byte :=
  let l := if tileFunc n s = 6 then
      let f := hdlcFrame (isSet (HDLC_CFG_crc n) s) (getF (HDLC_ACCM_map n) s) d
      if next && isSet (HDLC_CFG_share n) s then f.dropLast else f
    else d
  l.map fun b => charBits n b s

/-- A transmission starts; DE, where it is used, ends a receive frame in progress (R335). -/
def serBegin (n : Nat) (d : List Byte) (sw : Bool) (tx : List Replica) (s : State) : State :=
  let s1 := if isSet (UART_DE_en n) s then rxFrameEnd n s else s
  setSer n { serOf n s1 with sending := some (d, sw), tx := tx } s1

/-- UART_TX_START (R333, R335): the turn time has passed; software's frame goes first, else the oldest of the transmit buffer. -/
def execUartTxStart (n : Nat) (s : State) : Out :=
  .next <| onlyIf (serRuns n [5, 6] s && (serOf n s).sending.isNone && !(serOf n s).stopping && mayBegin n s) (fun s =>
    let t := serOf n s
    if isSet (UART_SWTX_go n) s then
      serBegin n (regBytes (UART_TXDATA_data n) (getF (UART_SWTX_len n) s) s) true t.tx s
    else match t.tx with
      | [] => s
      | r :: q => serBegin n r.out false q s) s

/-- The characters read back that differ from those sent (R335). -/
def echoDiff (sent echo : List Byte) : Nat := (List.range sent.length).countP fun i => echo[i]? ≠ sent[i]?

/-- SERIAL_TX_END (R331, R333, R335): the last stop bit ends and DE is released; `echo` are the characters the receiver read back meanwhile. -/
def execSerialTxEnd (n : Nat) (echo : List Byte) (s : State) : Out :=
  .next <| onlyIf (serRuns n [5, 6] s) (fun s =>
    let t := serOf n s
    match t.sending with
    | none => s
    | some (d, sw) =>
      let line := serLine n d (t.tx ≠ [] || (!sw && isSet (UART_SWTX_go n) s)) s
      let s1 := serSent n (emit (.note "serial frame" (n :: (frameLine n s line).map Bool.toNat) line) (setSer n { t with sending := none } s))
      let s2 := if sw then setB (UART_SWTX_go n) false s1 else tileSentCount (16 + d.length) s1
      if isSet (UART_DE_en n) s && isSet (UART_DE_echo n) s then serErr n (SER_ERR0_bit n) (echoDiff line echo) s2 else s2) s

/-- UART_SWTX_GO (R333): a length outside 1 to 256 with go is a reserved value. -/
def swtxGo (n : Nat) (w : Word) (s : State) : State :=
  let len := wbits w 0 9
  if len > 256 || (len = 0 && w.getLsbD 16) then busError s
  else
    let s1 := setF (UART_SWTX_len n) len s
    if w.getLsbD 16 then setB (UART_SWTX_go n) true s1 else s1

/-- UART_SWTX_GO (R333). -/
def cmdUartSwtxGo (_rq : Requester) (n : Nat) (w : Word) (s : State) : State := serWrite n [5, 6] (swtxGo n w) s

/-- The same under the rights of its requester. -/
def execUartSwtxGo (rq : Requester) (n : Nat) (w : Word) (s : State) : Out :=
  .next (gate rq true (0x40200000 + 0x1000 * n + 0x54) 0 (cmdUartSwtxGo rq n w) s)

/-! GPIO (R336). -/

/-- The lines of a GPIO tile: one per named pin. -/
def gpioLines (n : Nat) (s : State) : Nat := ((s.str.tiles.find? fun t => t.tile = n).map (·.npins)).getD 0

/-- GPIO_INPUT_CHANGE (R336): debounced input levels, shown and, with msg, handed over. -/
def execGpioInputChange (n levels : Nat) (s : State) : Out :=
  .next <| onlyIf (serRuns n [7] s) (fun s =>
    let v := levels % 2 ^ (min 4 (gpioLines n s))
    if v = getF (GPIO_IN_in n) s then s
    else
      let s1 := setF (GPIO_IN_in n) v s
      if isSet (GPIO_CFG_msg n) s then serHand n 0 [BitVec.ofNat 8 (v + 16 * getF (GPIO_OUT_out n) s)] (stamp s) s1 else s1) s

/-! Start and stop (R324, R307, R173). -/

/-- A serial tile's frames of the switch core are flushed and counted (R307, R338). -/
def serFlush (n : Nat) (s : State) : State :=
  let t := serOf n s
  let s1 := applyAll t.tx (fun _ u => serBad n (swBump 17 cQdrop 1 u)) (setSer n { t with tx := [] } s)
  applyAll (List.range 8) (fun c u =>
    let k := queueKey 17 n c
    applyAll (queueAt k u) (fun r v => serBad n (discard 17 cQdrop r v)) (setQueue k [] u)) s1

/-- A serial tile runs from now (R324): a LIN commander's schedule begins with its first slot. -/
def serStart (n : Nat) (s : State) : State :=
  let s1 := setF (SER_STAT_state n) 2 (setSer n { serOf n s with sending := none, stopping := false, lin := none, sched := {}, rx := [], heldOut := none } s)
  if tileFunc n s = 3 then linSlot n s1 else s1

/-- A serial tile has a LIN frame in progress, so that it is not yet quiet (R173). -/
def serBusy (n : Nat) (s : State) : Bool := (serOf n s).lin.isSome

/-- SER_CTL_STOP (R324, R307): after the frame in progress, and at once before the tile's start; an asleep tile is stopped as it wakes (log
entry 104). -/
def serStop (n : Nat) (s : State) : State :=
  if serState n s = 2 && serBusy n s then setSer n { serOf n s with stopping := true } (serFlush n s)
  else if serState n s = 2 || serState n s = 1 then serQuiet n 3 (serFlush n s)
  else if serState n s = 5 then setSer n { serOf n s with stopping := true } s
  else s

/-- SER_CTL_STOP (R324). -/
def cmdSerCtlStop (_rq : Requester) (n : Nat) (s : State) : State := (serWrite n [3, 4, 5, 6] (serStop n) s)

/-- The same under the rights of its requester. -/
def execSerCtlStop (rq : Requester) (n : Nat) (s : State) : Out :=
  .next (gate rq true (0x40200000 + 0x1000 * n + 0) 0 (cmdSerCtlStop rq n) s)

/-- SER_CTL_START (R324): from state 3. -/
def cmdSerCtlStart (_rq : Requester) (n : Nat) (s : State) : State := serWrite n [3, 4, 5, 6] (fun s => if serState n s = 3 then serStart n s else s) s

/-- The same under the rights of its requester. -/
def execSerCtlStart (rq : Requester) (n : Nat) (s : State) : Out :=
  .next (gate rq true (0x40200000 + 0x1000 * n + 0) 0 (cmdSerCtlStart rq n) s)

end Sys2Proof.Machine
end

