-- ==== Sys2Proof/Machine/Wake.lean ====
section
/-! DEFINITION. Network sleep and selective wake (R337 to R355), and the commands on them. Unit u is tile u below 48, port u - 48
from there. -/

namespace Sys2Proof.Machine

/-! Units. -/

/-- A unit's bit set or cleared in three fields laid out as R337 gives. -/
def setUnit (a bt bp : Fld) (u : Nat) (b : Bool) (s : State) : State :=
  let f := if u < 32 then a else if u < 48 then bt else bp
  let m := 2 ^ (if u < 32 then u else if u < 48 then u - 32 else u - 48)
  if b then orF f m s else clrF f m s

/-- The unit is used by the image. -/
def unitUsed (u : Nat) (s : State) : Bool := if u < 48 then tileUsed u s else u < 64 && portUsed (u - 48) s

/-- The used units. -/
def usedUnits (s : State) : List Nat := (List.range 64).filter fun u => unitUsed u s

/-- The units a word of a WKS register pair names: its A register, or its B register. -/
def unitsOf (hi : Bool) (w : Word) : List Nat :=
  (List.range 32).filterMap fun i => if w.getLsbD i then some (if hi then 32 + i else i) else none

/-- The unit is asleep or on its way. -/
def unitSleeping (u : Nat) (s : State) : Bool := unitAsleep u s || unitPending u s

/-- The base mode follows the sleeping units, from the moment one begins to sleep (R99, R100; log entry 21). -/
def refreshBase (s : State) : State :=
  let m := mode s
  if m = mService || m = mPartial || m = mDegraded || m = mReconfig then
    refreshMode (setF PWR_MODE_base (if (usedUnits s).any fun u => unitSleeping u s then mPartial else mService) s)
  else s

/-- The tile belongs to a bank of the delta being applied (R337). -/
def inDeltaBanks (n : Nat) (s : State) : Bool := mode s = mReconfig && s.loader.delta.banks.testBit (n / 8)

/-! The wake log (R352) and validation (R353). -/

/-- A unit's wake was false: its log entry, its counter, and event 36 at the threshold. -/
def falseWake (u : Nat) (s : State) : State :=
  match windowOf u s with
  | none => s
  | some (e, _) =>
    let s1 := setVal e 2 { s with wks := { s.wks with windows := s.wks.windows.filter fun w => w.1 ≠ u } }
    let f := if u < 48 then WKS_TFW_fwc u else WKS_PFW_fwc (u - 48)
    let s2 := incF f 1 s1
    if getF f s2 ≥ getF WKS_FWCFG_thr s2 then raise 36 s2 else s2

/-- A source written to the wake log: the place of its entry and the state. -/
def logWake (w : WakeSrc) (sby : Bool) (s : State) : Nat × State :=
  let i := getF WKS_LOGSTAT_wr s
  let w1 := w.kind + w.idx * 8 + (if sby then 2 ^ 9 else 0) + (if w.kind ≤ 4 then 0 else 3 * 2 ^ 10)
  let s0 := { s with wks := { s.wks with windows := s.wks.windows.map fun x => if x.2.1 = i then (x.1, (16, x.2.2)) else x } }
  let s1 := setF (WKS_LOG_word (4 * i)) (nowMs s) <| setF (WKS_LOG_word (4 * i + 1)) w1 <|
    setF (WKS_LOG_word (4 * i + 2)) w.id <| setF (WKS_LOG_word (4 * i + 3)) w.data s0
  let s2 := setF WKS_STAT_kind w.kind (setF WKS_STAT_idx w.idx (setB WKS_STAT_sby sby (setF WKS_LOGSTAT_wr (i + 1) s1)))
  (i, if getF WKS_LOGSTAT_unread s ≥ 16 then incF WKS_LOGSTAT_lost 1 s2 else incF WKS_LOGSTAT_unread 1 s2)

/-- A validation window opens for a unit; one already open was not validated. -/
def openWindow (u e : Nat) (s : State) : State :=
  let s1 := falseWake u s
  { s1 with wks := { s1.wks with windows := (u, (e, s1.ticks)) :: s1.wks.windows } }

/-! Sleep (R338 to R340). -/

/-- The writes with one unit done; event 37 for each write that this completes (R338). -/
def writeDone (u : Nat) (s : State) : State :=
  let after := s.wks.writes.map fun l => l.filter (· ≠ u)
  let s1 := { s with wks := { s.wks with writes := after.filter (· ≠ []) } }
  applyAll (after.filter (· = [])) (fun _ => raise 37) s1

/-- The wake configuration of a tile as its registers stand. -/
def tileWakeCfg (n : Nat) (s : State) : WakeCfg :=
  { tcfg := getF (WKS_TCFG_mode n) s + (if isSet (WKS_TCFG_errwake n) s then 4 else 0) + (if isSet (WKS_TCFG_stbsl n) s then 8 else 0)
      + (if isSet (WKS_TCFG_gts n) s then 16 else 0) + (if isSet (WKS_TCFG_gtsrx n) s then 32 else 0)
      + (if isSet (WKS_TCFG_wkpulse n) s then 64 else 0) + (if isSet (WKS_TCFG_autoval n) s then 128 else 0)
      + getF (WKS_TCFG_dom n) s * 2 ^ 16
    tid := getF (WKS_TID_id n) s + (if isSet (WKS_TID_ide n) s then 2 ^ 29 else 0)
    tidm := getF (WKS_TIDM_msk n) s + (if isSet (WKS_TIDM_idem n) s then 2 ^ 29 else 0)
    tdlc := getF (WKS_TDLC_dlc n) s + (if isSet (WKS_TDLC_dlcen n) s then 16 else 0)
    tdm := getF (WKS_TDM0_dm n) s + getF (WKS_TDM1_dm n) s * 2 ^ 32 }

/-- The configuration in force of a tile: that of its last sleep entry (R340). -/
def wakeCfg (n : Nat) (s : State) : WakeCfg := tabGet {} s.wks.tiles n

/-- A tile or port takes its wake configuration into force (R340). -/
def latchWake (u : Nat) (s : State) : State :=
  if u < 48 then { s with wks := { s.wks with tiles := tabPut {} s.wks.tiles u (tileWakeCfg u s) } }
  else
    let p := u - 48
    let w := getF (WKS_PCFG_en p) s + getF (WKS_PCFG_burst p) s * 2 + getF (WKS_PCFG_act p) s * 2 ^ 16 + getF (WKS_PCFG_blen p) s * 2 ^ 24
    { s with wks := { s.wks with ports := tabPut 0 s.wks.ports p w } }

/-- The used SerDes ports of a lane group (R348). -/
def groupPorts (g : Nat) (s : State) : List Nat :=
  [4 * g, 4 * g + 1, 4 * g + 2, 4 * g + 3].filter fun p => p < 12 && (let m := portMode p s; 1 ≤ m && m ≤ 3)

/-- SerDes PLLs of groups whose every used SerDes port is asleep stop (R348). -/
def stopSleepingPlls (s : State) : State :=
  applyAll [0, 1, 2] (fun g t =>
    if groupPorts g t ≠ [] && (groupPorts g t).all (fun p => unitAsleep (48 + p) t) && !t.power.sdsStopped.testBit g then
      clrF CKR_STATUS_sdslock (2 ^ g) { t with power := { t.power with
        sdsStopped := t.power.sdsStopped ||| 2 ^ g, sdsStarting := natAndNot t.power.sdsStarting (2 ^ g) } }
    else t) s

/-- A stopped PLL of a port's lane group starts again (R348). -/
def startPll (p : Nat) (s : State) : State :=
  let g := p / 4
  let m := portMode p s
  if 1 ≤ m && m ≤ 3 && s.power.sdsStopped.testBit g then
    { s with power := { s.power with sdsStopped := natAndNot s.power.sdsStopped (2 ^ g), sdsStarting := s.power.sdsStarting ||| 2 ^ g } }
  else s

/-- What a unit does as it begins to sleep (R338): a CAN tile's switch frames are flushed, a port's link is taken down. -/
def sleepStart (u : Nat) (s : State) : State :=
  let s1 := setUnit WKS_PENDA_t WKS_PENDB_t WKS_PENDB_p u true s
  if u ≥ 48 then linkOff (u - 48) s1 else if isCan u s then canFlush u s1 else s1

/-- The unit has met the condition for its kind (R338). -/
def sleepReady (u : Nat) (s : State) : Bool :=
  if u ≥ 48 then (sendingOf (u - 48) s).isNone
  else if isCan u s then (canOf u s).onBus.isNone
  else if isLin u s then (serOf u s).lin.isNone else true

/-- The go-to-sleep command (R346): its header and response with the classic checksum. -/
def sendGoToSleep (n : Nat) (s : State) : State :=
  let d : List Byte := 0x00 :: List.replicate 7 0xFF
  emit (.note "lin go to sleep" [n, linPid 0x3C] (d ++ [linChecksum 0x3C false d])) s

/-- A unit is asleep (R338 to R340, R344, R353). -/
def sleepEntry (u : Nat) (s : State) : State :=
  let s1 := setUnit WKS_ASLEEPA_t WKS_ASLEEPB_t WKS_ASLEEPB_p u true (setUnit WKS_PENDA_t WKS_PENDB_t WKS_PENDB_p u false (latchWake u s))
  let s2 :=
    if u ≥ 48 then flushPort (u - 48) s1
    else if isCan u s1 then
      let st := canState u s1
      setF (WKS_TSTAT_fec u) 0 (canGoto u 9 (setCan u { canOf u s1 with sleptOff := st = 5 || st = 6, stopping := false } (canFlush u s1)))
    else
      let s3 := if tileFunc u s1 = 3 && isSet (WKS_TCFG_gts u) s1 then sendGoToSleep u s1 else s1
      setF (WKS_TSTAT_fec u) 0 (serQuiet u 5 (serFlush u s3))
  refreshBase (stopSleepingPlls (writeDone u (falseWake u s2)))

/-- The modes in which WKS_SLEEP and WKS_WAKE are accepted (R337). -/
def wksOpen (s : State) : Bool :=
  let m := mode s
  m = mService || m = mPartial || m = mDegraded || m = mReconfig

/-- UNIT_SLEEP_REQUEST (R337, R338): the units of one write begin to sleep. -/
def sleepRequest (hi : Bool) (w : Word) (s : State) : State :=
  if !wksOpen s then busError s
  else
    let us := (unitsOf hi w).filter fun u => unitUsed u s && !unitSleeping u s && !(u < 48 && inDeltaBanks u s)
    let s1 := busDone s
    if us = [] then s1
    else refreshBase (applyAll us sleepStart { s1 with wks := { s1.wks with writes := s1.wks.writes ++ [us] } })

/-- UNIT_SLEEP_REQUEST (R337). -/
def cmdUnitSleepRequest (_rq : Requester) (hi : Bool) (w : Word) (s : State) : State := (sleepRequest hi w s)

/-- The same under the rights of its requester. -/
def execUnitSleepRequest (rq : Requester) (hi : Bool) (w : Word) (s : State) : Out :=
  .next (gate rq true (if hi then 0x400C0004 else 0x400C0000) 0 (cmdUnitSleepRequest rq hi w) s)

/-- UNIT_ASLEEP (R338): a unit on its way meets its condition. -/
def execUnitAsleep (u : Nat) (s : State) : Out :=
  .next <| onlyIf (u < 64 && unitPending u s && sleepReady u s) (sleepEntry u) s

/-! Wake (R347 to R354). -/

/-- A sleep on its way is abandoned; the unit counts as part of its write (R354). -/
def unsleep (u : Nat) (s : State) : State := writeDone u (setUnit WKS_PENDA_t WKS_PENDB_t WKS_PENDB_p u false s)

/-- A unit leaves sleep (R351, R346, R347, R348): a tile waits for its start, or is stopped where that was asked while it slept (log entry 104); a
port's PLL starts; `own` is a wake by its own bus. -/
def wakeUnit (own : Bool) (u : Nat) (s : State) : State :=
  if unitPending u s then unsleep u s
  else if !unitAsleep u s then s
  else
    let s1 := setUnit WKS_ASLEEPA_t WKS_ASLEEPB_t WKS_ASLEEPB_p u false s
    if u ≥ 48 then
      let p := u - 48
      let c := tabGet 0 s1.wks.ports p
      let s2 := startPll p s1
      if 12 ≤ p && !own && getF (T1S_PLCACFG_id (p - 12)) s1 ≠ 0 && c.testBit 1 then
        emit (.note "t1s sync burst" [p, bitsOf c 24 8] []) s2
      else s2
    else if isCan u s1 then
      if (canOf u s1).stopping then canGoto u 7 (setCan u { canOf u s1 with stopping := false } s1) else canGoto u 1 s1
    else if (serOf u s1).stopping then setF (SER_STAT_state u) 3 (setSer u { serOf u s1 with stopping := false } s1)
    else
      let s2 := setF (SER_STAT_state u) 1 s1
      if isLin u s1 && !own && (wakeCfg u s1).tcfg.testBit 6 then { s2 with wks := { s2.wks with pulseDue := u :: s2.wks.pulseDue } } else s2

/-- The members of wake group g (R350). -/
def groupMembers (g : Nat) (s : State) : List Nat :=
  (List.range 64).filter fun u => unitUsed u s && unitBit (WKS_GRPA_t g) (WKS_GRPB_t g) (WKS_GRPB_p g) u s

/-- The unit of a source of kinds 1 to 4. -/
def WakeSrc.unit (w : WakeSrc) : Option Nat := if w.kind ≤ 3 then some w.idx else if w.kind = 4 then some (48 + w.idx) else none

/-- The units that a source wakes beside its own: every group that holds its unit, or the group of WKS_SRC (R349, R350). -/
def groupWoken (w : WakeSrc) (s : State) : List Nat :=
  match w.unit with
  | some u => ([0, 1, 2, 3].filter fun g => (groupMembers g s).contains u).flatMap fun g => groupMembers g s
  | none => if isSet WKS_SRC_grpen s then groupMembers (getF WKS_SRC_grp s) s else []

/-- Sources in kind order, and within a kind in ascending idx (R352). -/
def sortSources (l : List WakeSrc) : List WakeSrc :=
  l.foldr (fun w r => r.takeWhile (fun x => x.kind * 64 + x.idx < w.kind * 64 + w.idx) ++ w :: r.dropWhile (fun x => x.kind * 64 + x.idx < w.kind * 64 + w.idx)) []

/-- The source has something to wake: its own unit, or a group, or the part from STANDBY. A wire or pin source that wakes no unit and meets no
STANDBY has no effect (log entry 22). -/
def wakes (w : WakeSrc) (sby : Bool) (s : State) : Bool :=
  match w.unit with
  | some u => unitAsleep u s
  | none => sby || s.power.standby ≠ .none || (groupWoken w s).any fun u => unitSleeping u s

/-- A source written to the wake log, the validation window of its unit opened (R352, R353). -/
def logSource (sby : Bool) (w : WakeSrc) (s : State) : State :=
  let r := logWake w sby s
  match w.unit with
  | some u => openWindow u r.1 r.2
  | none => r.2

/-- Tiles woken in one cycle start in this order (R351). -/
def startInOrder (l : List Nat) (s : State) : State :=
  { s with wks := { s.wks with order := (l :: s.wks.order.map fun o => o.filter fun n => !l.contains n).filter fun o => o ≠ [] } }

/-- Sources of one cycle take effect (R350 to R353): each logged, its window opened, the units they name and their groups woken, event 35 raised
once. The source tiles start first, the others in ascending number. -/
def wakeAll (ws : List WakeSrc) (sby : Bool) (s : State) : State :=
  let live := (sortSources ws).filter fun w => wakes w sby s
  if live = [] then s
  else
    let own := (live.filterMap (·.unit)).eraseDups
    let others := (List.range 64).filter fun u => unitSleeping u s && !own.contains u && live.any fun w => (groupWoken w s).contains u
    let s1 := applyAll live (logSource sby) (standbyTrigger 2 s)
    let s2 := applyAll others (wakeUnit false) (applyAll own (wakeUnit true) s1)
    raise 35 (refreshBase (startInOrder ((own ++ others).filter (· < 48)) s2))

/-- A source fires: in STANDBY it starts the exit and takes effect there, once for its unit, channel or pin (R351, R110). -/
def wakeSource (w : WakeSrc) (s : State) : State :=
  if mode s = mStandby then
    let same := s.wks.held.any fun x => x.unit = w.unit && (w.unit.isSome || (x.kind = w.kind && x.idx = w.idx))
    standbyTrigger 2 (if same then s else { s with wks := { s.wks with held := s.wks.held ++ [w] } })
  else wakeAll [w] false s

/-- The sources held in STANDBY take effect at its exit, in one cycle. -/
def wakeRelease (s : State) : State := wakeAll s.wks.held true { s with wks := { s.wks with held := [] } }

/-- UNIT_WAKE_REQUEST (R337, R351): units woken by request alone; no other unit follows. -/
def wakeRequest (hi : Bool) (w : Word) (s : State) : State :=
  if !wksOpen s then busError s
  else
    let us := (unitsOf hi w).filter fun u => unitUsed u s && unitSleeping u s && !(u < 48 && inDeltaBanks u s)
    let s1 := busDone s
    if us = [] then s1
    else raise 35 (refreshBase (applyAll us (wakeUnit false) (standbyTrigger 2 s1)))

/-- UNIT_WAKE_REQUEST (R337). -/
def cmdUnitWakeRequest (_rq : Requester) (hi : Bool) (w : Word) (s : State) : State := (wakeRequest hi w s)

/-- The same under the rights of its requester. -/
def execUnitWakeRequest (rq : Requester) (hi : Bool) (w : Word) (s : State) : Out :=
  .next (gate rq true (if hi then 0x400C000C else 0x400C0008) 0 (cmdUnitWakeRequest rq hi w) s)

/-- The wake filter of a tile runs: asleep, with its bank supplied. -/
def filterRuns (n : Nat) (s : State) : Bool := n < 48 && tileUsed n s && unitAsleep n s && bankPowered n s

/-- The frame matches the wake-up frame of a configuration (R343, step 4). -/
def wakeMatch (c : WakeCfg) (f : CanFrame) (dlc : Nat) : Bool :=
  let m := c.tidm % 2 ^ 29
  (f.id &&& m) = (c.tid % 2 ^ 29 &&& m) && (!c.tidm.testBit 29 || f.ide == c.tid.testBit 29) &&
  (!c.tdlc.testBit 4 || (dlc = c.tdlc % 16 &&
    (c.tdm = 0 || (List.range (min dlc 8)).any fun k => (f.data.getD k 0).toNat &&& bitsOf c.tdm (8 * k) 8 ≠ 0)))

/-- WAKE_UP_FRAME (R343 to R345): a frame correct up to its CRC delimiter, seen by the filter of an asleep CAN tile. -/
def execWakeUpFrame (n : Nat) (f : CanFrame) (dlc : Nat) (s : State) : Out :=
  .next <| onlyIf (filterRuns n s && isCan n s && f.fmt = 0) (fun s =>
    let s1 := seeFrame n f.id f.ide (setF (WKS_TSTAT_fec n) (getF (WKS_TSTAT_fec n) s - 1) s)
    let c := wakeCfg n s
    if c.tcfg % 4 = 2 && !f.rtr && wakeMatch c f dlc then
      wakeSource { kind := 1, idx := n, id := f.id % 2 ^ 29 + (if f.ide then 2 ^ 29 else 0), data := leAt (f.data.take (min dlc 8)) 0 4 } s1
    else s1) s

/-- WAKE_DOMINANT (R341, R346): a dominant level of `us` microseconds and a recessive level after it. -/
def execWakeDominant (n us : Nat) (s : State) : Out :=
  .next <| onlyIf (filterRuns n s && (isCan n s || isLin n s) && (wakeCfg n s).tcfg % 4 = 1 && us ≥ bitsOf (wakeCfg n s).tcfg 16 16)
    (wakeSource { kind := 2, idx := n }) s

/-- WAKE_FRAME_ERRORS (R344): a classical frame with an error; at 32 the tile wakes with errwake. -/
def execWakeFrameErrors (n : Nat) (s : State) : Out :=
  .next <| onlyIf (filterRuns n s && isCan n s) (fun s =>
    let s1 := setF (WKS_TSTAT_fec n) (min 32 (getF (WKS_TSTAT_fec n) s + 1)) s
    let c := (wakeCfg n s).tcfg
    if getF (WKS_TSTAT_fec n) s1 = 32 && c % 4 = 2 && c.testBit 2 then wakeSource { kind := 3, idx := n } s1 else s1) s

/-- WAKE_PORT_ENERGY (R347): energy or activity for `us` microseconds at an asleep port that is not RGMII. -/
def execWakePortEnergy (p us : Nat) (s : State) : Out :=
  .next <| onlyIf (p < 16 && unitAsleep (48 + p) s && portMode p s ≠ 4 &&
      (if p < 12 then isSet SYS_RAILOK_sds s else isSet SYS_RAILOK_t1s s) &&
      (tabGet 0 s.wks.ports p).testBit 0 && us ≥ bitsOf (tabGet 0 s.wks.ports p) 16 8)
    (wakeSource { kind := 4, idx := p }) s

/-- The wake of WAKE pin i is taken. -/
def pinWakeTaken (i : Nat) (s : State) : State := { s with wks := { s.wks with pinDue := natAndNot s.wks.pinDue (2 ^ i) } }

/-- WAKE_WIRE_OR_PIN (R349): a wire channel's change that WKS_SRC names, or a WAKE pin that has fired as R114 states while WKS_SRC named it. -/
def execWakeWireOrPin (pin : Bool) (i : Nat) (s : State) : Out :=
  .next <|
    if pin then onlyIf (serving s && i < 2 && s.wks.pinDue.testBit i) (fun s => wakeSource { kind := 6, idx := i } (pinWakeTaken i s)) s
    else onlyIf (serving s && i < 4 && (getF WKS_SRC_wire s).testBit i) (wakeSource { kind := 5, idx := i }) s

/-- SERDES_PLL_RESTART_LOCK (R348): the PLL of a lane group that a wake started locks. -/
def execSerdesPllRestartLock (g : Nat) (s : State) : Out :=
  .next <| onlyIf (s.power.sdsStarting.testBit g) (fun s =>
    orF CKR_STATUS_sdslock (2 ^ g) { s with power := { s.power with sdsStarting := natAndNot s.power.sdsStarting (2 ^ g) } }) s

/-- The validation window of a unit has run its WKS_FWCFG.win milliseconds by the model's clock (R353; log entry 109). -/
def windowOver (u : Nat) (s : State) : Bool := (windowOf u s).any fun w => s.ticks ≥ w.2 + 1000 * getF WKS_FWCFG_win s

/-- VALIDATION_WINDOW_CLOSE (R353). -/
def execValidationWindowClose (u : Nat) (s : State) : Out := .next (onlyIf (windowOver u s) (falseWake u) s)

/-- WKS_VALID (R353): units with an open window are validated. -/
def cmdWksValid (_rq : Requester) (hi : Bool) (w : Word) (s : State) : State := applyAll (unitsOf hi w) validate (busDone s)

/-- The same under the rights of its requester. -/
def execWksValid (rq : Requester) (hi : Bool) (w : Word) (s : State) : Out :=
  .next (gate rq true (if hi then 0x400C0024 else 0x400C0020) 0 (cmdWksValid rq hi w) s)

/-- WKS_LOGACK (R352). -/
def cmdWksLogack (_rq : Requester) (w : Word) (s : State) : State := busDone (if w.getLsbD 0 then setF WKS_LOGSTAT_unread 0 s else s)

/-- The same under the rights of its requester. -/
def execWksLogack (rq : Requester) (w : Word) (s : State) : Out :=
  .next (gate rq true 0x400C0038 0 (cmdWksLogack rq w) s)

/-! LIN sleep (R346). -/

/-- A responder with gtsrx puts itself to sleep; event 37 is raised. -/
def linSelfSleep (n : Nat) (s : State) : State :=
  raise 37 (sleepEntry n (setSer n { serOf n s with lin := none } s))

/-- A responder that may put itself to sleep. -/
def linMaySleep (n : Nat) (s : State) : Bool := serRuns n [4] s && isSet (WKS_TCFG_gtsrx n) s && !unitAsleep n s

/-- LIN_GO_TO_SLEEP_RECEIVE (R346, R345): the command is a frame of ID 0x3C. -/
def execLinGoToSleepReceive (n : Nat) (s : State) : Out := .next <| onlyIf (linMaySleep n s) (fun s => linSelfSleep n (seeFrame n 0x3C false s)) s

/-- LIN_IDLE_SLEEP (R346): 4 s without a frame on the bus. -/
def execLinIdleSleep (n : Nat) (s : State) : Out := .next <| onlyIf (linMaySleep n s) (linSelfSleep n) s

/-- A wake pulse of 1 ms. -/
def linPulse (n k : Nat) (s : State) : State :=
  emit (.note "lin wake pulse" [n] []) { s with wks := { s.wks with pulses := tabPut 0 s.wks.pulses n k } }

/-- A woken LIN tile starts: with the pulse it owes, after which a commander still waits for its schedule (R346, R324). -/
def linWakeStart (n : Nat) (s : State) : State :=
  if s.wks.pulseDue.contains n then
    let s1 := { s with wks := { s.wks with pulseDue := s.wks.pulseDue.filter (· ≠ n) } }
    linPulse n 1 (if tileFunc n s = 3 then s1 else serStart n s1)
  else serStart n s

/-- LIN_WAKE_PULSE_TIMEOUT (R346): a commander's 100 ms end and its schedule starts; a responder's 150 ms or 1.5 s end without a break, and
it sends the next pulse of two sequences of three. -/
def execLinWakePulseTimeout (n : Nat) (s : State) : Out :=
  .next <|
    let k := tabGet 0 s.wks.pulses n
    onlyIf (k > 0 && isLin n s && (serState n s = 1 || serState n s = 2) && mayBegin n s) (fun s =>
      if tileFunc n s = 3 then serStart n { s with wks := { s.wks with pulses := tabPut 0 s.wks.pulses n 0 } }
      else if k < 6 then linPulse n (k + 1) s
      else { s with wks := { s.wks with pulses := tabPut 0 s.wks.pulses n 0 } }) s

end Sys2Proof.Machine
end

