-- ==== Sys2Proof/Machine/CarLink.lean ====
section
/-! DEFINITION. Bare service: the side-band wire path (R19 to R35) and the car link (R40 to R68), and the commands on them. -/

namespace Sys2Proof.Machine

/-! Ports. -/

/-- A port's state. -/
def linkOf (p : LinkSide) (s : State) : LinkPort :=
  match p with
  | .a => s.linkA
  | .b => s.linkB

/-- It replaced. -/
def setLink (p : LinkSide) (l : LinkPort) (s : State) : State :=
  match p with
  | .a => { s with linkA := l }
  | .b => { s with linkB := l }

/-- The other port. -/
def otherSide : LinkSide → LinkSide
  | .a => .b
  | .b => .a

/-- The field of port A or of port B. -/
def sideF (p : LinkSide) (fa fb : Fld) : Fld :=
  match p with
  | .a => fa
  | .b => fb

/-- The code of a receiver state in LNK_STATUS. -/
def rxCode : RxState → Nat
  | .hunt => 0
  | .locked => 1
  | .relock => 2
  | .off => 3

/-- LOCKED and RELOCK count as in lock (R56 to R60). -/
def rxInLock (r : RxState) : Bool := r == .locked || r == .relock

/-- A receiver state taken and shown. -/
def setRxState (p : LinkSide) (r : RxState) (s : State) : State :=
  let s1 := setLink p { linkOf p s with rx := r } s
  let s2 := setF (sideF p LNK_STATUS_sta LNK_STATUS_stb) (rxCode r) s1
  let s3 := if rxInLock r then setB (sideF p LNK_STATUS_aever LNK_STATUS_bever) true s2 else s2
  setB LNK_STATUS_lock (rxInLock s3.linkA.rx || rxInLock s3.linkB.rx) s3

/-- The part's own position (R61). -/
def ownPos (s : State) : Nat := getF LNK_STATUS_pos s

/-! The wire path. -/

/-- Local logical inputs, not debounced (R19). -/
def localIn (s : State) : Nat := (s.wires.inLevel ^^^ getF LNK_WIREPOL_pol s) % 16

/-- The terms selected for a channel: merge, event, soft (R23, R24). -/
def wireTerms (n : Nat) (s : State) : Nat :=
  match n with
  | 0 => 5
  | 1 => getF LNK_WIRESRC_src1 s
  | 2 => getF LNK_WIRESRC_src2 s
  | _ => getF LNK_WIRESRC_src3 s

/-- The event input of a channel (R494). -/
def wireEvent (n : Nat) (s : State) : Bool :=
  n ≠ 0 && (List.range 64).any fun e => getF (EVC_ROUTE_wire e) s = n && evPending e s

/-- The logical output of a channel (R22, R23). -/
def wireOut (n : Nat) (s : State) : Bool :=
  let t := wireTerms n s
  (t.testBit 0 && (localIn s ||| s.linkA.w ||| s.linkB.w).testBit n) || (t.testBit 1 && wireEvent n s) ||
    (t.testBit 2 && (getF LNK_WIRESET_soft s).testBit n)

/-- The level driven at WIRE_OUT[n]; nothing while power-on reset is asserted or in OFF and BACKUP (R27). -/
def wireOutLevel (n : Nat) (s : State) : Option Bool :=
  if s.power.por || mode s = mOff || mode s = mBackup then none
  else some (wireOut n s != (getF LNK_WIREPOL_pol s).testBit n)

/-- The channels in a mask take a new logical state now: their holds start anew (R47, R531). -/
def holdsStart (m : Nat) (s : State) : State :=
  { s with wires := { s.wires with
      since := ((List.range 4).filter fun n => m.testBit n).foldl (fun t n => tabPut 0 t n s.wires.ref) s.wires.since } }

/-- CK_REF cycles for which channel n has held its logical input (R531). -/
def heldFor (n : Nat) (s : State) : Nat := s.wires.ref - tabGet 0 s.wires.since n

/-- The hold of channel n has lasted the debounce length in force: LNK_WIREDEB.deb × 0.1 ms, 2500 CK_REF cycles each (R47, R531). -/
def holdLasted (n : Nat) (s : State) : Bool := 2500 * getF LNK_WIREDEB_deb s ≤ heldFor n s

/-- WIRE_IN_CHANGE (R25): a level at WIRE_IN[n]; the merge term follows it with no clock, and the debounce counts from here (R531). -/
def execWireInChange (n : Nat) (level : Bool) (s : State) : Out :=
  .next <| onlyIf (n < 4) (fun s =>
    let t := { s with wires := { s.wires with
      inLevel := if level then s.wires.inLevel ||| 2 ^ n else natAndNot s.wires.inLevel (2 ^ n) } }
    if s.wires.inLevel.testBit n = level then t else holdsStart (2 ^ n) t) s

/-- The modes in which wire records are produced and messages handled (R29, R64). -/
def linkModes (s : State) : Bool :=
  let m := mode s
  m = mService || m = mDegraded || m = mPartial || m = mReconfig || m = mWorkshop

/-- A channel's next sequence number (R31). -/
def wireSeq (n : Nat) : Fld :=
  match n with
  | 0 => LNK_WIRESEQ_seq0
  | 1 => LNK_WIRESEQ_seq1
  | 2 => LNK_WIRESEQ_seq2
  | _ => LNK_WIRESEQ_seq3

/-- A change of a channel is observed (R29, R34, R35): in STANDBY its chg bit; in the modes of R29 a record, or qovf when the queue is
full. -/
def wireChange (n : Nat) (st : Bool) (received : Bool) (p : LinkSide) (hop fcnt : Nat) (s : State) : State :=
  if mode s = mStandby then orF LNK_WIREEVT_chg (2 ^ n) s
  else if !(linkModes s && isSet LNK_WIREMSG_en s && (isSet LNK_WIREMSG_cpu s || isSet LNK_WIREMSG_hie s)) then s
  else
    let q := getF (wireSeq n) s
    let s1 := incWrap (wireSeq n) 1 s
    if s1.wires.records.length ≥ 16 then setB LNK_WIREEVT_qovf true s1
    else
      let r : WireRecord := { channel := n, state := st, origin := if received then 1 else 0
                              port := if received && p == .b then 1 else 0, hop := hop, fcnt := fcnt, seq := q, time := nowUs s1 }
      { s1 with wires := { s1.wires with records := s1.wires.records ++ [r] } }

/-- The last accepted fcnt of a port. -/
def rxFcnt (p : LinkSide) (s : State) : Nat := getF (sideF p LNK_FCNT_rxa LNK_FCNT_rxb) s

/-- The fcnt of the next frame sent on a port (R55): one more than the last sent; in the gap of a re-phase the next frame is slaved and
copies the fcnt of the frame that the opposite port receives next (R60; log entry 78). -/
def nextFcnt (p : LinkSide) (s : State) : Nat :=
  if (linkOf p s).tx == .gap then (rxFcnt (otherSide p) s + (linkOf (otherSide p) s).bad + 1) % 256
  else if (linkOf p s).sentAny then (getF (sideF p LNK_FCNT_txa LNK_FCNT_txb) s + 1) % 256 else 0

/-- The fcnt a local change's record carries: port A's, or port B's at the front end of the train (R31). -/
def localFcnt (s : State) : Nat := nextFcnt (if isSet LNK_STATUS_aever s then .a else .b) s

/-- A debounced local input takes a state: an assertion is latched for each port (R48), and the change is observed. -/
def setDebounced (n : Nat) (v : Bool) (s : State) : State :=
  if s.wires.deb.testBit n = v then s
  else
    let d := if v then s.wires.deb ||| 2 ^ n else natAndNot s.wires.deb (2 ^ n)
    let s1 := { s with wires := { s.wires with deb := d } }
    let lat (l : LinkPort) : LinkPort := if v then { l with latch := l.latch ||| 2 ^ n } else l
    wireChange n v false .a (ownPos s1) (localFcnt s1) { s1 with linkA := lat s1.linkA, linkB := lat s1.linkB }

/-- WIRE_DEBOUNCE_EXPIRY (R47, R531): the input has held its level for the debounce time, by the count of CK_REF cycles (log
entry 109). -/
def execWireDebounceExpiry (n : Nat) (s : State) : Out :=
  .next <| onlyIf (n < 4 && !s.power.por && holdLasted n s) (fun s => setDebounced n ((localIn s).testBit n) s) s

/-- A new debounce length is in force (R531): every hold that has already lasted it enters the debounced state, in channel order. -/
def debounceLength (deb : Nat) (s : State) : State :=
  applyAll (List.range 4) (fun n t => if holdLasted n t then setDebounced n ((localIn t).testBit n) t else t) (setF LNK_WIREDEB_deb deb s)

/-- The polarities take new values in one cycle (R20, R21): the logical inputs of the channels that invert change with them, and go through
the debouncer as any other change (log entry 23). -/
def applyPolarity (pol : Nat) (s : State) : State :=
  holdsStart ((getF LNK_WIREPOL_pol s ^^^ pol) % 16) (setF LNK_WIREPOL_pol pol s)

/-- The 8 bytes of a wire record (R31). -/
def recordBytes (r : WireRecord) : List Byte :=
  leBytes 4 (r.channel + (if r.state then 4 else 0) + r.origin * 8 + r.port * 16 + (r.hop % 64) * 2 ^ 8 + (r.fcnt % 256) * 2 ^ 16
    + (r.seq % 256) * 2 ^ 24) ++ leBytes 4 r.time

/-- The inline Waybills that exist: in the class queues and being sent (R190). -/
def inlineCount (s : State) : Nat :=
  (s.swc.queues.map fun q => (q.2.filter fun r => r.wb.inline).length).sum + (s.swc.sending.filter fun e => e.2.wb.inline).length

/-- WIRE_RECORD_ISSUE (R32 to R34, R190): the oldest record goes to its destinations as an inline Waybill. -/
def execWireRecordIssue (s : State) : Out :=
  .next <| match s.wires.records with
    | [] => s
    | r :: q =>
      if inlineCount s ≥ 1024 || mode s = mStandby then s
      else
        let w : Waybill := { src := 17, tc := getF LNK_WIREMSG_tc s, lossless := true, inline := true
                             dmask := (if isSet LNK_WIREMSG_cpu s then 2 ^ 16 else 0) + (if isSet LNK_WIREMSG_hie s then 2 ^ 18 else 0)
                             ring := getF LNK_WIREMSG_ring s, len := 8, data := recordBytes r, time := stamp s
                             gen := getF IMG_RCFG_gen s }
        internalInline w { s with wires := { s.wires with records := q } }

/-! Reception. -/

/-- The origin field of a channel at a port (R26). -/
def originF (p : LinkSide) (n : Nat) : Fld :=
  match p, n with
  | .a, 0 => LNK_WIREORGA_org0
  | .a, 1 => LNK_WIREORGA_org1
  | .a, 2 => LNK_WIREORGA_org2
  | .a, _ => LNK_WIREORGA_org3
  | .b, 0 => LNK_WIREORGB_org0
  | .b, 1 => LNK_WIREORGB_org1
  | .b, 2 => LNK_WIREORGB_org2
  | .b, _ => LNK_WIREORGB_org3

/-- The four origins of a port set. -/
def setOrigins (p : LinkSide) (o : List Nat) (s : State) : State :=
  applyAll (List.range 4) (fun n t => setF (originF p n) (o.getD n 63) t) s

/-- The alarm slots received from both ports shown; event 34 for an enabled slot that changes (R50, R68). -/
def showAlarms (s : State) : State :=
  let old := getF LNK_ALARMRX0_rx s + getF LNK_ALARMRX1_rx s * 2 ^ 32
  let new := s.linkA.alarms ||| s.linkB.alarms
  let s1 := setF LNK_ALARMRX0_rx new (setF LNK_ALARMRX1_rx (new / 2 ^ 32) s)
  let msk := getF LNK_ALARMMSK0_msk s + getF LNK_ALARMMSK1_msk s * 2 ^ 32
  if (old ^^^ new) &&& msk ≠ 0 then raise 34 (setB LNK_EVT_alarm true s1) else s1

/-- The transmitter slaved to a port's receiver loses its source (R55, R60); one that has not yet sent its realign frame runs free (log
entry 74). -/
def sourceLost (p : LinkSide) (s : State) : State :=
  let l := linkOf (otherSide p) s
  match l.tx with
  | .slaved => setLink (otherSide p) { l with tx := .free } s
  | .realign => setLink (otherSide p) { l with tx := .free } s
  | .gap => setLink (otherSide p) { l with tx := .gapLost } s
  | _ => s

/-- A source gains lock: its free-running transmitter re-phases, its next frame with realign (R60). -/
def sourceGained (p : LinkSide) (s : State) : State :=
  let l := linkOf (otherSide p) s
  match l.tx with
  | .off => s
  | _ => setLink (otherSide p) { l with tx := .realign } s

/-- The received states of a port change: what changed is observed, in channel order (R29 to R32). -/
def receivedStates (p : LinkSide) (w : Nat) (hops : List Nat) (fcnt : Nat) (s : State) : State :=
  let old := (linkOf p s).w
  let s1 := setLink p { linkOf p s with w := w } s
  applyAll ((List.range 4).filter fun n => (old ^^^ w).testBit n)
    (fun n t => wireChange n (w.testBit n) true p (hops.getD n 63) fcnt t) s1

/-- Lock is lost (R22, R26, R50, R59, R68): contributions deasserted, origins unknown, alarms 0, event 33, hunting again. -/
def lockLoss (p : LinkSide) (s : State) : State :=
  let f := rxFcnt p s
  let s1 := setRxState p .hunt (sourceLost p s)
  let s2 := setOrigins p [63, 63, 63, 63] (receivedStates p 0 [63, 63, 63, 63] f s1)
  let s3 := setLink p { linkOf p s2 with alarms := 0, wseq := 0, base := false, bad := 0, cands := [] } s2
  let s4 := incF (sideF p LNK_LOCKCNTA_losses LNK_LOCKCNTB_losses) 1 (showAlarms s3)
  let s5 := if p == .a then setB LNK_STATUS_posv false s4 else s4
  raise 33 (setB (sideF p LNK_EVT_lossa LNK_EVT_lossb) true s5)

/-- A port's crossed indication and, for port B, the hop check follow an accepted frame (R62). -/
def headerFollow (p : LinkSide) (f : LinkFrame) (s : State) : State :=
  let x := frDir f == (p == .b)
  let fx := sideF p LNK_STATUS_crossa LNK_STATUS_crossb
  let s1 := if x && !isSet fx s then setB LNK_EVT_crossed true s else s
  setB fx x s1

/-- The position follows a locked, uncrossed port A (R61). -/
def positionFollow (f : LinkFrame) (s : State) : State :=
  if isSet LNK_STATUS_crossa s then setB LNK_STATUS_posv false s
  else setF LNK_STATUS_pos (if frHop f ≤ 61 then frHop f + 1 else 63) (setB LNK_STATUS_posv (frHop f ≤ 61) s)

/-- hopmis follows the frames port B accepts (R62). -/
def hopFollow (f : LinkFrame) (s : State) : State :=
  let x := frHop f ≠ ownPos s + 1
  setB LNK_STATUS_hopmis x (if x && !isSet LNK_STATUS_hopmis s then setB LNK_EVT_hopmis true s else s)

/-- The wire states, sequence bits and error counts that a frame's slots give a port: states, seqs, rejected, gaps (R49). -/
def judgeSlots (l : LinkPort) (f : LinkFrame) : Nat × Nat × Nat × Nat :=
  let w := frSlots f
  if !slotsOk f then (l.w, l.wseq, 1, 0)
  else (List.range 4).foldl (fun r n =>
    let st := slotState w n
    let q := slotSeq w n
    let d := (q + 4 - bitsOf l.wseq (2 * n) 2) % 4
    let put (x : Nat × Nat × Nat × Nat) (g : Nat) : Nat × Nat × Nat × Nat :=
      (putBits x.1 n 1 (if st then 1 else 0), putBits x.2.1 (2 * n) 2 q, x.2.2.1, x.2.2.2 + g)
    if !l.base then put r 0
    else if d = 0 then (if st = l.w.testBit n then r else (r.1, r.2.1, r.2.2.1 + 1, r.2.2.2))
    else put r (if d ≥ 2 then 1 else 0)) (l.w, l.wseq, 0, 0)

/-- The error counters of a port. -/
def errF (p : LinkSide) (i : Nat) : Fld :=
  match i with
  | 0 => sideF p LNK_ERRA_badsync LNK_ERRB_badsync
  | 1 => sideF p LNK_ERRA_crcfail LNK_ERRB_crcfail
  | 2 => sideF p LNK_ERRA_wbad LNK_ERRB_wbad
  | _ => sideF p LNK_ERRA_wgap LNK_ERRB_wgap

/-- A message is corrupt (R54). -/
def msgCorrupt (h : Nat) : Bool := msgBusy h && msgLen h > 220

/-- A frame's message is for this car (R65). -/
def msgForMe (h : Nat) (s : State) : Bool := msgBusy h && !msgCorrupt h && (msgDst h = ownPos s || msgDst h = 63)

/-- Messages are handled (R64). -/
def msgHandled (s : State) : Bool := linkModes s && isSet LNK_MSGCTL_en s

/-- A message delivered to its CPU ring with its record (R67). -/
def deliverMessage (p : LinkSide) (f : LinkFrame) (s : State) : State :=
  let h := frMsgHeader f
  let n := msgLen h
  let rec8 := leBytes 4 (msgSrc h + (if p == .b then 64 else 0) + n * 2 ^ 8 + frFcnt f * 2 ^ 16) ++ leBytes 4 (nowUs s)
  sendOwn 0 { src := 17, tc := getF LNK_MSGCTL_tc s, lossless := true, dmask := 2 ^ 16, ring := getF LNK_MSGCTL_ring s
              vid := if p == .b then 1 else 0, time := stamp s } (rec8 ++ (List.range n).map (frMsgByte f)) s

/-- Alarm slot i is sent i-th: bit i of a slot number is bit 63 - i of the field as sent, and back. -/
def alarmRev (v : Nat) : Nat := bitsNat ((List.range 64).map fun i => v.testBit i)

/-- An accepted frame (R49, R50, R52, R59, R61, R62, R65): slots, origins, alarms and message are taken; a realign frame is followed. The
model's own readings: LNK_STATUS.posv stays as it stands through RELOCK, which counts as in lock (log entry 79), and a message is delivered
also where the frame is not relayed because the opposite transmitter is not slaved yet (log entry 80). -/
def acceptFrame (p : LinkSide) (f : LinkFrame) (s : State) : State :=
  let s1 := setF (sideF p LNK_FCNT_rxa LNK_FCNT_rxb) (frFcnt f) (setLink p { linkOf p s with bad := 0 } s)
  let s2 := headerFollow p f s1
  let s3 := if p == .a then positionFollow f s2 else hopFollow f s2
  let l := linkOf p s3
  let j := judgeSlots l f
  let s4 := incF (errF p 3) j.2.2.2 (incF (errF p 2) j.2.2.1
    (setLink p { l with wseq := j.2.1, base := l.base || slotsOk f } s3))
  let s5 := setOrigins p (frOrigins f) (receivedStates p j.1 (frOrigins f) (frFcnt f) s4)
  let s6 :=
    if crc32Ok f then
      let t := showAlarms (setLink p { linkOf p s5 with alarms := alarmRev (frameNat f 80 64) } s5)
      if msgHandled t && msgForMe (frMsgHeader f) t then deliverMessage p f t else t
    else incF (errF p 1) 1 s5
  if frRealign f then setRxState p .relock (sourceLost p (setLink p { linkOf p s6 with cands := [] } s6)) else s6

/-- CARLINK_HUNT_SYNC (R57): an exact match in HUNT at a bit position opens a candidate unless one expects it; a fifth drops the oldest. -/
def execCarlinkHuntSync (p : LinkSide) (bit : Nat) (s : State) : Out :=
  .next <| onlyIf ((linkOf p s).rx == .hunt) (fun s =>
    let l := linkOf p s
    if l.cands.any fun c => c.count > 0 && c.pos + 2000 = bit then s
    else
      let kept := if l.cands.length ≥ 4 then l.cands.drop 1 else l.cands
      setLink p { l with cands := kept ++ [{ pos := bit, count := 0 }] } s) s

/-- CARLINK_CANDIDATE_FRAME (R57, R58): the sync and header of the candidate that stands or is expected at a bit position are judged;
at the third valid frame in a row the receiver enters LOCKED and takes the frame. -/
def execCarlinkCandidateFrame (p : LinkSide) (bit : Nat) (f : LinkFrame) (s : State) : Out :=
  .next <| onlyIf ((linkOf p s).rx == .hunt) (fun s =>
    let l := linkOf p s
    let here (c : Candidate) : Bool := (c.count = 0 && c.pos = bit) || (c.count > 0 && c.pos + 2000 = bit)
    match l.cands.find? here with
    | none => s
    | some c =>
      if !(syncExact f && headerOk f) then setLink p { l with cands := l.cands.filter fun x => !here x } s
      else if c.count + 1 ≥ 3 then
        let s1 := setRxState p .locked (setLink p { l with cands := [], bad := 0, base := false } s)
        let s2 := raise 32 (setB (sideF p LNK_EVT_locka LNK_EVT_lockb) true (sourceGained p s1))
        acceptFrame p f s2
      else setLink p { l with cands := l.cands.map fun x => if here x then { pos := bit, count := x.count + 1 } else x } s) s

/-- CARLINK_FRAME_RECEIVE (R59): a frame at the expected position in LOCKED is accepted, or counted bad; the fourth bad one in a row
loses lock. -/
def execCarlinkFrameReceive (p : LinkSide) (f : LinkFrame) (s : State) : Out :=
  .next <| onlyIf ((linkOf p s).rx == .locked) (fun s =>
    if frameAccepted f then acceptFrame p f s
    else
      let n := (linkOf p s).bad + 1
      let s1 := incF (errF p 0) 1 (setLink p { linkOf p s with bad := n } s)
      if n ≥ 4 then lockLoss p s1 else s1) s

/-- RELOCK_SYNC (R60): the first exact sync with a valid header within 2040 bits of the realign frame's end is the new phase. The return to
LOCKED is no lock gain for R49: `base` stays set, and the slots of this frame are compared with those held (the model's reading, log entry
81). -/
def execRelockSync (p : LinkSide) (off : Nat) (f : LinkFrame) (s : State) : Out :=
  .next <| onlyIf ((linkOf p s).rx == .relock && off ≤ 2040 && syncExact f && headerOk f) (fun s =>
    let s1 := incF (sideF p LNK_LOCKCNTA_realign LNK_LOCKCNTB_realign) 1 (setRxState p .locked s)
    acceptFrame p f (sourceGained p s1)) s

/-- RELOCK_TIMEOUT (R60): no such sync; the actions and the event of lock loss. -/
def execRelockTimeout (p : LinkSide) (s : State) : Out :=
  .next <| onlyIf ((linkOf p s).rx == .relock) (lockLoss p) s

/-! Transmission. -/

/-- The configuration-state code of the mode (R28). -/
def cfgCode (s : State) : Nat :=
  let m := mode s
  if m = mQuarantine then 1
  else if m = mService || m = mPartial || m = mReconfig then 2
  else if m = mDegraded then 3
  else if m = mStandby then 4
  else if m = mWorkshop then 5
  else 0

/-- The part's own alarm slots as they contribute (R50). -/
def ownAlarms (s : State) : Nat :=
  if linkModes s || mode s = mStandby then getF LNK_ALARMSET0_set s + getF LNK_ALARMSET1_set s * 2 ^ 32 else 0

/-- The message area as bits: header and 220 bytes, padded to the 1792 bits of words 1 to 56. The spec does not say what the data bytes beyond
len carry in an inserted message; the model sends them as 0 (DESIGN CHOICE, log entry 82). -/
def messageArea (src dst len : Nat) (data : List Byte) : List Bool :=
  msbBits 32 (2 ^ 31 + src % 64 * 2 ^ 25 + dst % 64 * 2 ^ 19 + len % 256 * 2 ^ 11) ++
    byteBits ((List.range 220).map fun j => if j < len then data.getD j 0 else 0)

/-- The message pending for a port. -/
def pendingMessage (p : LinkSide) (s : State) : List Bool :=
  match p with
  | .a => messageArea (ownPos s) (getF LNK_MSGTXA_dst s) (getF LNK_MSGTXA_len s) (regBytes LNK_TXBUFA_data 220 s)
  | .b => messageArea (ownPos s) (getF LNK_MSGTXB_dst s) (getF LNK_MSGTXB_len s) (regBytes LNK_TXBUFB_data 220 s)

/-- go of a port's message. -/
def goF (p : LinkSide) : Fld := sideF p LNK_MSGTXA_go LNK_MSGTXB_go

/-- The message area a frame of a port sends (R56, R65): its bits, whether it carries the relayed message, whether an own message was
inserted. `inc` is the incoming frame whose header was accepted. -/
def areaToSend (p : LinkSide) (inc : Option LinkFrame) (s : State) : List Bool × Bool × Bool :=
  let own := isSet (goF p) s && msgHandled s && !(linkOf p s).justSent
  let mine := if own then (pendingMessage p s, false, true) else (emptyArea, false, false)
  match inc with
  | none => mine
  | some f =>
    let h := frMsgHeader f
    let area := (frPayload f).drop 32
    if !msgHandled s then (area, msgBusy h, false)
    else if !msgBusy h then mine
    else if !msgCorrupt h && msgDst h = ownPos s then mine
    else (area, true, false)

/-- The origins a frame of a port sends (R53): `states` sent, `loc` the local terms, `rcv` the origins received on the opposite port. -/
def originsToSend (l : LinkPort) (states loc : Nat) (rcv : List Nat) (pos : Nat) : List Nat :=
  (List.range 4).map fun n =>
    if states.testBit n then (if loc.testBit n then pos else rcv.getD n 63)
    else if l.txw.testBit n then (if l.txLocal.testBit n then pos else rcv.getD n 63)
    else l.txorg.getD n 63

/-- One frame is sent on a port (R43, R46 to R48, R50, R53, R55, R56, R65). `inc` is the accepted incoming frame it follows. -/
def sendFrame (p : LinkSide) (inc : Option LinkFrame) (slaved realign : Bool) (s : State) : State :=
  let l := linkOf p s
  let o := linkOf (otherSide p) s
  let fcnt := match inc with
    | some f => frFcnt f
    | none => if slaved then (getF (sideF p LNK_FCNT_txa LNK_FCNT_txb) s + 1) % 256 else nextFcnt p s
  let rcv := match inc with
    | some f => ((judgeSlots o f).1, frOrigins f)
    | none => (o.w, (List.range 4).map fun n => getF (originF (otherSide p) n) s)
  let loc := s.wires.deb ||| l.latch
  let states := loc ||| rcv.1
  let changed := states ^^^ l.txw
  let seqs := (List.range 4).foldl (fun q n =>
    if changed.testBit n then putBits q (2 * n) 2 (bitsOf q (2 * n) 2 + 1) else q) l.txseq
  let orgs := originsToSend l states loc rcv.2 (ownPos s)
  let area := areaToSend p inc s
  let code := cfgCode s
  let header := 2 ^ 22 + ownPos s % 64 * 2 ^ 16 + fcnt % 256 * 2 ^ 8 + code + (if p == .b then 8 else 0) + (if realign then 16 else 0)
  let bad := match inc with
    | some f => area.2.1 && !crc32Ok f
    | none => false
  let frame := mkFrame header (mkSlots states seqs) (alarmRev (ownAlarms s ||| o.alarms)) (mkOrigins orgs ++ area.1) bad
  let s1 := emit (.carFrame p frame) (setF LNK_CFGSTATE_code code (setF (sideF p LNK_FCNT_txa LNK_FCNT_txb) fcnt s))
  let s2 := setLink p { l with txw := states, txseq := seqs, txLocal := loc, txorg := orgs, latch := 0, justSent := area.2.2, sentAny := true } s1
  if area.2.2 then setB (goF p) false s2 else s2

/-- CARLINK_FRAME_SEND (R55, R56, R60): the transmitter's next frame starts, slaved to the incoming frame or free-running; after a frame
with realign = 1 comes the logic-1 gap. A row is a whole frame, so a source that leaves LOCKED while the realign frame is on the line meets
the transmitter in the gap and is treated as R60 treats a loss there (the model's choice, log entry 83). -/
def execCarlinkFrameSend (p : LinkSide) (incoming : Option LinkFrame) (s : State) : Out :=
  .next <|
    let acc := incoming.filter frameAccepted
    match (linkOf p s).tx with
    | .off => s
    | .free => sendFrame p none false false s
    | .realign =>
      let t := sendFrame p none false true s
      setLink p { linkOf p t with tx := .gap } t
    | .slaved => sendFrame p acc true false s
    | _ => s

/-- REPHASE_START (R60): the logic-1 gap reaches the planned start point: slaved frames from there, or a free-running one when the source
has left LOCKED. -/
def execRephaseStart (p : LinkSide) (s : State) : Out :=
  .next <|
    let l := linkOf p s
    match l.tx with
    | .gap => setLink p { l with tx := .slaved } s
    | .gapLost => setLink p { l with tx := .free } s
    | _ => s

/-- A write of LNK_MSGTXA or LNK_MSGTXB (R66). -/
def msgTxWrite (p : LinkSide) (w : Word) (s : State) : State :=
  let dst := wbits w 0 6
  let len := wbits w 8 8
  let go := w.getLsbD 16
  if len > 220 || isSet (goF p) s || (go && dst = ownPos s && isSet LNK_STATUS_posv s) then busError s
  else
    let s1 := setF (sideF p LNK_MSGTXA_dst LNK_MSGTXB_dst) dst (setF (sideF p LNK_MSGTXA_len LNK_MSGTXB_len) len (busDone s))
    if go then setB (goF p) true s1 else s1

/-- LNK_MSGTX_GO (R66). -/
def cmdLnkMsgtxGo (_rq : Requester) (p : LinkSide) (w : Word) (s : State) : State := (msgTxWrite p w s)

/-- The same under the rights of its requester. -/
def execLnkMsgtxGo (rq : Requester) (p : LinkSide) (w : Word) (s : State) : Out :=
  .next (gate rq true (if p = .a then 0x400B0044 else 0x400B0048) 0 (cmdLnkMsgtxGo rq p w) s)

end Sys2Proof.Machine
end

