-- ==== Sys2Proof/Machine/Trn.lean ====
section
/-! DEFINITION. The signal transcriber and the scheduling of its lodgers (R191 to R197, R264 to R280). -/

namespace Sys2Proof.Machine

/-! Slots and fields. -/

/-- A lodger's value slot. -/
def valueSlot (lid k : Nat) (s : State) : Slot := tabGet {} s.trn.slots (1024 * lid + k)

/-- A lodger's value slot replaced. -/
def setValueSlot (lid k : Nat) (x : Slot) (s : State) : State :=
  { s with trn := { s.trn with slots := tabPut {} s.trn.slots (1024 * lid + k) x } }

/-- 32 bits as a signed number. -/
def signed32 (v : Nat) : Int := (BitVec.ofNat 32 v).toInt

/-- A raw field extended to 32 bits (R269). -/
def extend32 (sign : Bool) (len raw : Nat) : Nat :=
  if sign && raw.testBit (len - 1) then raw + 2 ^ 32 - 2 ^ len else raw

/-- The ms of a stamp. -/
def stampMs (t : Nat) : Nat := ((t / 2 ^ 32) * 1000 + (t % 2 ^ 32) / 1000000) % 2 ^ 32

/-- A source entry's field reaches beyond the received data (R269). -/
def sourceShort (lid : Nat) (d : List Byte) (e : Nat) (s : State) : Bool :=
  let w0 := sigWord (sigFirst lid s + e) 0 s
  (fieldBits (sgOrder w0) (sgLen w0) (sgStart w0)).any fun b => b ≥ 8 * d.length

/-- One source entry handled for a frame (R269): the slots it updated, and the state. -/
def sourceEntry (lid : Nat) (d : List Byte) (late : Bool) (ms e : Nat) (s : State) : List Nat × State :=
  let g := sigFirst lid s + e
  let w0 := sigWord g 0 s
  let w1 := sigWord g 1 s
  let w3 := sigWord g 3 s
  let k := bitsOf w1 0 10
  let len := sgLen w0
  let bits := fieldBits (sgOrder w0) len (sgStart w0)
  if sourceShort lid d e s then ([], trnCount lid tShort 1 s)
  else
    let raw := readField d bits
    let o := valueSlot lid k s
    if w3.testBit 2 && raw = reservedCode (sgSign w0) len then
      ([k], trnCount lid tInv 1 (setValueSlot lid k { o with st := 2, late := late, time := ms, src := e } s))
    else
      ([k], setValueSlot lid k { value := extend32 (sgSign w0) len raw, st := 1, late := late, time := ms, src := e } s)

/-- The entries of a record handled in ascending order. -/
def sourceEntries (lid : Nat) (d : List Byte) (late : Bool) (ms : Nat) : List Nat → State → List Nat × State
  | [], s => ([], s)
  | e :: r, s =>
    let u := sourceEntry lid d late ms e s
    let v := sourceEntries lid d late ms r u.2
    (u.1 ++ v.1, v.2)

/-- floor(p / 2^n), p / 2^n toward zero, and nearest with halves away from zero (R273). -/
def rescale (x mult : Int) (shift rnd : Nat) : Int :=
  let p := x * mult
  if shift = 0 then p
  else if rnd = 0 then p / (2 ^ shift : Nat)
  else
    let a := if rnd = 2 then p.natAbs / 2 ^ shift else (p.natAbs + 2 ^ (shift - 1)) / 2 ^ shift
    if p < 0 then -(a : Int) else a

/-- A sink's field for a value, and whether it saturated (R273). -/
def sinkValue (x : Int) (sign : Bool) (len mult add shift rnd invrep : Nat) : Nat × Bool :=
  let y := rescale x (signed32 mult) shift rnd + signed32 add
  let cut : Int := if invrep = 0 then 1 else 0
  let fmax : Int := if sign then (2 ^ (len - 1) : Nat) - 1 else (2 ^ len : Nat) - 1 - cut
  let fmin : Int := if sign then -((2 ^ (len - 1) : Nat) : Int) + cut else 0
  let z := max fmin (min fmax y)
  ((z % ((2 ^ len : Nat) : Int)).toNat, decide (y > fmax) || decide (y < fmin))

/-- A sink's last packed field. -/
def lastPacked (lid e : Nat) (s : State) : Option Nat := tabGet none s.trn.packed (65536 * lid + e)

/-- What a sink packs now (R273, R274): its field, nothing where the template bits stay, and whether it saturated. -/
def packSink (lid e : Nat) (s : State) : Option Nat × Bool :=
  let g := sigFirst lid s + e
  let w0 := sigWord g 0 s
  let w1 := sigWord g 1 s
  let x := valueSlot lid (bitsOf w1 0 10) s
  let len := sgLen w0
  let inv := bitsOf w1 23 2
  if x.st = 1 || x.st = 3 || x.st = 4 then
    let r := sinkValue (signed32 x.value) (sgSign w0) len (sigWord g 2 s) (sigWord g 3 s) (bitsOf w1 16 5) (bitsOf w1 21 2) inv
    (some r.1, r.2)
  else if inv = 0 then (some (reservedCode (sgSign w0) len), false)
  else if inv = 1 then (lastPacked lid e s, false)
  else (some 0, false)

/-- The sink entries of an output record. -/
def OutRec.sinks (o : OutRec) : List Nat := (List.range o.count).map (o.first + ·)

/-- The bytes of an output with every sink written (R277). -/
def packBytes (lid : Nat) (o : OutRec) (s : State) : List Byte :=
  o.sinks.foldl (fun d e =>
    match (packSink lid e s).1 with
    | none => d
    | some v =>
      let w0 := sigWord (sigFirst lid s + e) 0 s
      let bits := (fieldBits (sgOrder w0) (sgLen w0) (sgStart w0)).map (· + 8 * o.base)
      writeField d bits v) (slice (recipeOf lid s.str) o.tmpl o.len)

/-- A triggering sink's field differs from its last packed one (R276). -/
def packChanged (lid : Nat) (o : OutRec) (s : State) : Bool :=
  o.sinks.any fun e => (sigWord (sigFirst lid s + e) 1 s).testBit 25 && (packSink lid e s).1 != lastPacked lid e s

/-- Saturations of one packing counted (R273). -/
def packCounts (lid : Nat) (o : OutRec) (s : State) : State :=
  trnCount lid tSat ((o.sinks.filter fun e => (packSink lid e s).2).length) s

/-- The cycles of one packing (R280). -/
def packCost (o : OutRec) : Nat := 60 + 6 * o.count + 2 * ((o.len + 15) / 16)

/-- OUTPUT_EMIT (R277 to R279): a packed output is policed and sent to its destinations, every sink's last packed field following; or
dropped late, which is no send (log entry 76). -/
def emitOutput (lid i : Nat) (o : OutRec) (lossless late : Bool) (s : State) : State :=
  let body := packBytes lid o s
  let s1 := applyAll o.sinks (fun e t =>
    { t with trn := { t.trn with packed := tabPut none t.trn.packed (65536 * lid + e) (packSink lid e s).1 } }) s
  let s2 := { s1 with trn := { s1.trn with sent := tabPut none s1.trn.sent (256 * lid + i) (some s.ticks) } }
  if late && o.latedrop then trnCount lid tLateDrop 1 s
  else
    let s3 := if late then trnCount lid tLateSent 1 s2 else s2
    let frame := if o.kind = 1 then
        mkTileFrame (bitsOf o.id 0 29 + (if o.fmt.testBit 0 then 2 ^ 29 else 0))
          (o.len + (if o.fmt.testBit 1 then 2 ^ 12 else 0) + (if o.fmt.testBit 2 then 2 ^ 14 else 0)) 0 0 body
      else body
    let w : Waybill := { src := 17, tc := o.tc, lossless := lossless, late := late, lodger := some lid, graph := o.graph
                         dmask := bitsOf o.dest 0 20, dsub := [bitsOf o.dest 20 6, bitsOf o.dest 26 6], ring := bitsOf o.ring 0 5
                         vid := getF (SWC_PCFG_pvid 17) s, len := frame.length, time := stamp s }
    sendOwn o.graph w frame (trnCount lid tOutputs 1 s3)

/-- A record's last send lies less than minint ago (R276). -/
def tooSoon (lid i : Nat) (o : OutRec) (s : State) : Bool :=
  match tabGet none s.trn.sent (256 * lid + i) with
  | none => false
  | some t => decide (s.ticks < t + o.minint * 1000)

/-- One output record after slots were updated (R276): packed, and sent, deferred or left. The flag says it was packed. `lossless` is that
of the frame item; a timer item takes the record's own (R277). -/
def onChange (lid : Nat) (updated : List Nat) (lossless : Option Bool) (late : Bool) (i : Nat) (s : State) : Bool × State :=
  let o := outRec (recipeOf lid s.str) i
  let reads := o.sinks.any fun e => updated.contains (bitsOf (sigWord (sigFirst lid s + e) 1 s) 0 10)
  if !(o.trigger = 0 || o.trigger = 2) || !reads then (false, s)
  else
    let s1 := packCounts lid o s
    if !packChanged lid o s then (true, s1)
    else if tooSoon lid i o s then
      if s.trn.deferred.contains (256 * lid + i) then (true, s1)
      else (true, trnCount lid tDef 1 { s1 with trn := { s1.trn with deferred := (256 * lid + i) :: s1.trn.deferred } })
    else (true, emitOutput lid i o (lossless.getD o.tmLossless) late s1)

/-- Every output record after an update, in ascending number: the cycles of the packings, and the state. -/
def onChanges (lid : Nat) (updated : List Nat) (lossless : Option Bool) (late : Bool) : List Nat → State → Nat × State
  | [], s => (0, s)
  | i :: r, s =>
    let u := onChange lid updated lossless late i s
    let v := onChanges lid updated lossless late r u.2
    ((if u.1 then packCost (outRec (recipeOf lid s.str) i) else 0) + v.1, v.2)

/-- The output record numbers of a lodger. -/
def outNumbers (lid : Nat) (s : State) : List Nat := List.range (rcNout (recipeOf lid s.str))

/-- A frame item's effects (R269, R276): its cycles, and the state. -/
def handleFrame (lid : Nat) (it : Item) (w : Waybill) (s : State) : Nat × State :=
  let f := wbBytes w s
  let s0 := trnCount lid tItems 1 s
  match trnLookup lid w f s with
  | none => (40, freePages w.pages s0)
  | some r =>
    let s1 := freePages w.pages s0
    let d := if r.kind = 1 then (tfData f).drop r.base else f.drop (etOff f + 2 + r.base)
    let es := (List.range r.count).map (r.first + ·)
    if r.authreq && !w.authok then
      (40 + 8 * r.count, trnCount lid tAuthrej 1 (trnCount lid tShort ((es.filter fun e => sourceShort lid d e s1).length) s1))
    else
      let u := sourceEntries lid d it.late (stampMs w.time) es s1
      let v := onChanges lid u.1 (some w.lossless) it.late (outNumbers lid s) u.2
      (40 + 8 * r.count + v.1, v.2)

/-- A source's timeout handled (R271): tmode applies unless the slot has a reception within tmo before the release; each item that applies
it counts, also on a slot already timed out. -/
def handleTimeout (lid : Nat) (it : Item) (e : Nat) (s : State) : Nat × State :=
  let k := bitsOf (sigWord (sigFirst lid s + e) 1 s) 0 10
  let x := valueSlot lid k s
  let g := sigFirst lid s + (if x.st = 0 then e else x.src)
  let tmo := bitsOf (sigWord g 1 s) 16 16
  let fresh := x.st ≠ 0 && sub32 it.rel x.time < tmo
  if fresh || tmo = 0 then (40, s)
  else
    let m := bitsOf (sigWord g 3 s) 0 2
    let y := if m = 0 then { x with st := 3 } else if m = 1 then { x with st := 4, value := sigWord g 2 s } else { x with st := 5 }
    let s1 := trnCount lid tTmo 1 (setValueSlot lid k { y with late := it.late } s)
    let v := onChanges lid [k] none it.late (outNumbers lid s) s1
    (40 + v.1, v.2)

/-- An output's own timer item handled (R276): packed and sent whatever the values are. -/
def handleSend (lid : Nat) (it : Item) (i : Nat) (s : State) : Nat × State :=
  let o := outRec (recipeOf lid s.str) i
  (40 + packCost o, emitOutput lid i o o.tmLossless it.late (packCounts lid o s))

/-- An item's effects. -/
def handleItem (lid : Nat) (it : Item) (s : State) : Nat × State :=
  match it.work with
  | .frame w => handleFrame lid it { w with late := it.late } s
  | .timeout e => handleTimeout lid it e s
  | .cyclic i => handleSend lid it i s
  | .deferred i => handleSend lid it i { s with trn := { s.trn with deferred := s.trn.deferred.filter fun x => x ≠ 256 * lid + i } }

/-- The running item of a lodger takes its effect once. -/
def runItem (lid : Nat) (s : State) : State :=
  let l := lodgerOf lid s
  match l.running with
  | none => s
  | some it =>
    let go (s : State) : State :=
      let u := handleItem lid it s
      setLodger lid { lodgerOf lid u.2 with handled := true, cost := u.1 } u.2
    if l.handled then s
    else match it.work with
      | .frame w => underGen (lodgerReplaced lid s) w.gen go s
      | _ => go s

/-- FRAME_ITEM (R269): the frame item a lodger runs unpacks its sources into slots and packs the outputs it triggers. -/
def execFrameItem (lid : Nat) (s : State) : Out :=
  .next <| match (lodgerOf lid s).running with
    | some { work := .frame _, .. } => runItem lid s
    | _ => s

/-- SOURCE_TIMEOUT (R271): a source's timer releases its timer item. -/
def execSourceTimeout (lid e : Nat) (s : State) : Out :=
  .next <|
    let g := sigFirst lid s + e
    onlyIf (sgKind (sigWord g 0 s) = 1 && bitsOf (sigWord g 1 s) 16 16 ≠ 0) (releaseItem lid (.timeout e)) s

/-- An item of a lodger waits for the same work. -/
def queuedWork (lid : Nat) (w : ItemWork) (s : State) : Bool := (lodgerOf lid s).queue.any fun i => i.work == w

/-- CYCLIC_RELEASE (R276, R279): a record's cyclic time arrives; merged when its previous cyclic item is still queued. -/
def execCyclicRelease (lid i : Nat) (s : State) : Out :=
  .next <|
    let o := outRec (recipeOf lid s.str) i
    onlyIf (i < rcNout (recipeOf lid s.str) && (o.trigger = 1 || o.trigger = 2)) (fun s =>
      if queuedWork lid (.cyclic i) s then trnCount lid tMerge 1 s else releaseItem lid (.cyclic i) s) s

/-- DEFERRED_SEND (R276): a deferred send is released as a timer item at last send plus minint. -/
def execDeferredSend (lid i : Nat) (s : State) : Out :=
  .next <| onlyIf (s.trn.deferred.contains (256 * lid + i) && !queuedWork lid (.deferred i) s) (releaseItem lid (.deferred i)) s

/-- The lodger that owns a signal map entry. -/
def sigOwner (g : Nat) (s : State) : Option Nat :=
  (s.str.lodgers.find? fun r => r.sigFirst ≤ g && g < r.sigFirst + r.sigN).map (·.lid)

/-- TRN_SIGSEL (R361): the write takes the snapshot of the named signal's slot; of a signal no lodger owns, and the age of a slot
never received, the spec states no value (log entry 3). -/
def cmdTrnSigsel (_rq : Requester) (w : Word) (s : State) : State :=
    let g := wbits w 0 16
    let s1 := busDone (setF TRN_SIGSEL_sig g s)
    match sigOwner g s with
    | none => setFree TRN_SIGVAL_value (setFree TRN_SIGST_st (setFree TRN_SIGST_late (setFree TRN_SIGST_age s1)))
    | some lid =>
      let x := valueSlot lid (bitsOf (sigWord g 1 s) 0 10) s
      let s2 := setF TRN_SIGVAL_value x.value (setF TRN_SIGST_st x.st (setB TRN_SIGST_late x.late s1))
      if x.st = 0 then setFree TRN_SIGST_age s2 else setF TRN_SIGST_age (min (sub32 (nowMs s) x.time) 0xFFFF) s2

/-- The same under the rights of its requester. -/
def execTrnSigsel (rq : Requester) (w : Word) (s : State) : Out :=
  .next (gate rq true 0x40090040 0 (cmdTrnSigsel rq w) s)

/-! Lodger scheduling. -/

/-- n cycles charged to a lodger's present period (R193): what passes the budget is carried, and a budget used up with items queued
suspends the lodger and counts. -/
def chargeCycles (n : Nat) (l : Lodger) : Lodger :=
  let left := l.left - n
  let out := left = 0 && l.queue ≠ [] && !l.suspended
  { l with left := left, carry := l.carry + (n - l.left), suspended := l.suspended || out
           ovr := if out then min (l.ovr + 1) 0xFFFF else l.ovr }

/-- LODGER_PERIOD_START (R193): the time of an item that still runs is charged to the period that ends; the budget is renewed less the
carried excess, up to one whole budget, and is used up at once where the excess is. -/
def execLodgerPeriodStart (lid : Nat) (s : State) : Out :=
  .next <| onlyIf (lodgerOf lid s).present (fun s =>
    let l0 := lodgerOf lid s
    let n := engineTime l0 s
    let l := chargeCycles n l0
    let b := lodgerBudget lid s
    setLodger lid (chargeCycles 0 { l with
      left := b - min l.carry b, carry := 0, periodStart := s.ticks, suspended := false, since := s.ticks, spent := l.spent + n }) s) s

/-- ITEM_RELEASE (R191): an item is queued with its due time. -/
def execItemRelease (lid : Nat) (w : ItemWork) (s : State) : Out := .next (releaseItem lid w s)

/-- The ready lodger with the earliest key, the lower lid on a tie (R192). -/
def readyFirst (s : State) : Option Nat :=
  ((s.ink.lodgers.filter fun e => lodgerReady e.2).foldl (fun b e => match b with
    | none => some (e.1, lodgerKey e.2)
    | some x => if lodgerKey e.2 < x.2 then some (e.1, lodgerKey e.2) else some x) none).map (·.1)

/-- ITEM_DISPATCH (R192, R278): a free engine takes the oldest item of the ready lodger with the earliest key; none while the output
buffer is full. -/
def execItemDispatch (s : State) : Out :=
  .next <| onlyIf (enginesBusy s < 16 && !isSet TRN_OBUF_stall s) (fun s =>
    match readyFirst s with
    | none => s
    | some lid =>
      let l := lodgerOf lid s
      match l.queue with
      | [] => s
      | it :: q =>
        let n := s.ink.dispatches + 1
        setLodger lid { l with queue := q, running := some it, handled := false, cost := 0, since := s.ticks, spent := 0, lastDispatch := n }
          { s with ink := { s.ink with dispatches := n } }) s

/-- The lodger waits for its context: it has items queued, or it is pinned, and is neither resident nor being paged in (R195). -/
def wantsContext (lid : Nat) (s : State) : Bool :=
  let l := lodgerOf lid s
  l.present && !l.resident && !l.faulting && !l.fenced && (l.queue != [] || lodgerPinned lid s)

/-- Faults that waited for a victim, and those of lodgers evicted with items queued, are tried when an engine becomes free (R195), pinned
lodgers first (log entry 96). -/
def retryFaults (s : State) : State :=
  let l := (s.ink.lodgers.map (·.1)).filter fun i => wantsContext i s
  applyAll ((l.filter fun i => lodgerPinned i s) ++ l.filter fun i => !lodgerPinned i s) contextFault s

/-- ITEM_COMPLETE (R193): the running item ends and its cycles are charged, less what earlier periods bore; a budget used up with items
queued suspends the lodger. -/
def execItemComplete (lid : Nat) (s : State) : Out :=
  .next <| onlyIf (lodgerOf lid s).running.isSome (fun s =>
    let s1 := runItem lid s
    let l := lodgerOf lid s1
    retryFaults <| setLodger lid (chargeCycles (l.cost - l.spent) { l with running := none, handled := false, cost := 0, spent := 0 }) s1) s

/-- Every item of a lodger with a due time marked late. -/
def markLate (d : Nat) (q : List Item) : List Item := q.map fun i => if i.due = d then { i with late := true } else i

/-- DEADLINE_MISS (R194): items still unhandled at their due time. -/
def execDeadlineMiss (lid : Nat) (s : State) : Out :=
  .next <|
    let l := lodgerOf lid s
    let run := match l.running with
      | some i => if l.handled then [] else [i]
      | none => []
    let pend := (run ++ l.queue).filter fun i => !i.late
    match pend with
    | [] => s
    | i :: r =>
      let d := r.foldl (fun k x => min k x.due) i.due
      let n := (pend.filter fun x => x.due = d).length
      let s1 := setLodger lid { l with
        queue := markLate d l.queue
        running := l.running.map fun x => if x.due = d && !l.handled then { x with late := true } else x
        missPeriods := min (l.missPeriods + 1) 0xFFFF, missItems := min (l.missItems + n) 0xFFFF } s
      raise 13 (incF INK_SCHED_misses 1 (setF INK_MISSLOG_lid lid s1))

/-- PAGE_IN_DONE (R195, R196): the context is in after a latency in µs; the lodger is resident. -/
def execPageInDone (lid us : Nat) (s : State) : Out :=
  .next <| onlyIf (lodgerOf lid s).faulting (fun s =>
    setF INK_PAGESTAT_maxlat (min (max (getF INK_PAGESTAT_maxlat s) us) 255)
      (setLodger lid { lodgerOf lid s with faulting := false, resident := true } s)) s

/-- PAGING_MS_CHECK (R196): the millisecond's faults shown, and event 14 above the threshold. -/
def execPagingMsCheck (s : State) : Out :=
  .next <|
    let n := s.ink.faultsMs
    let s1 := setF INK_PAGESTAT_faults n { s with ink := { s.ink with faultsMs := 0 } }
    if n > getF INK_PAGECFG_thr s then raise 14 s1 else s1

end Sys2Proof.Machine
end

