-- ==== Sys2Proof/Machine/Cabinet.lean ====
section
/-! DEFINITION. Cabinet blowers, call-point lamps and the ADCs (spec/18), and the commands on them. -/

namespace Sys2Proof.Machine

/-! What the wear ledger counts (R456, R469). -/

/-- Key of a ledger item in `wear.items`. -/
def wearKey (item inst : Nat) : Nat := item * 32 + inst

/-- A ledger item. -/
def wearItem (item inst : Nat) (s : State) : WearItem := tabGet {} s.wear.items (wearKey item inst)

/-- It replaced. -/
def setWearItem (item inst : Nat) (w : WearItem) (s : State) : State :=
  { s with wear := { s.wear with items := tabPut {} s.wear.items (wearKey item inst) w } }

/-- A ledger item rises by n. -/
def wearBump (item inst n : Nat) (s : State) : State :=
  let w := wearItem item inst s
  setWearItem item inst { w with cnt := w.cnt + n } s

/-! Motor channels. -/

def motorOf (m : Nat) (s : State) : MotorCh := tabGet {} s.cab.motors m

def setMotor (m : Nat) (c : MotorCh) (s : State) : State :=
  { s with cab := { s.cab with motors := tabPut {} s.cab.motors m c } }

/-- The channel is used. -/
def motorUsed (m : Nat) (s : State) : Bool := m < 4 && isSet (MOT_CFG_used m) s

def motorState (m : Nat) (s : State) : Nat := getF (MOT_STAT_state m) s

/-- A state taken and shown in MOT_SUM (R448). -/
def setMotorState (m st : Nat) (s : State) : State :=
  let s1 := setF (MOT_STAT_state m) st s
  let s2 := if 1 ≤ st && st ≤ 6 then orF MOT_SUM_run (2 ^ m) s1 else clrF MOT_SUM_run (2 ^ m) s1
  if st = 7 then orF MOT_SUM_flt (2 ^ m) s2 else clrF MOT_SUM_flt (2 ^ m) s2

/-- The observable minimum (R446). -/
def omin (m : Nat) (s : State) : Nat :=
  if getF (MOT_START_omin m) s = 0 then getF (MOT_LIM_rpm m) s / 20 else getF (MOT_START_omin m) s

/-- Internal targets are kept in 10^-7 rpm, so that acc over one PWM period is acc × pwm (R451). -/
abbrev rpmUnit : Int := 10000000

/-- Gates low, stopped, and the target cleared (R449 op 3, R455). -/
def coast (m : Nat) (s : State) : State :=
  let c := motorOf m s
  setMotorState m 0 (setB (MOT_STAT_sinus m) false
    (setMotor m { soft := c.soft, hard := c.hard, trip := c.trip, sector := c.sector, rev := c.rev } s))

/-- A fault (R454). -/
def motorFault (m reason : Nat) (s : State) : State :=
  if motorState m s = 7 then s
  else raise 48 (setB (MOT_EVT_fault m) true (setF (MOT_FAULT_reason m) reason (setMotorState m 7 (coast m s))))

/-- The gates are driven. -/
def motorDriven (m : Nat) (s : State) : Bool := 3 ≤ motorState m s && motorState m s ≤ 6

/-- One sample to a condition: it sets after 2 at or above `hi` in a row, and clears after 2 below `lo` (R453). -/
def judge (v hi lo : Nat) (c : Cond) : Cond :=
  let up := if v ≥ hi then min 2 (c.up + 1) else 0
  let down := if v < lo then min 2 (c.down + 1) else 0
  { on := if up ≥ 2 then true else if down ≥ 2 then false else c.on, up := up, down := down }

/-- The DC-link watch at a sample of v × 0.1 V (R453). -/
def dcLink (m v : Nat) (s : State) : State :=
  let c := motorOf m s
  let h := getF (MOT_VTH1_hyst m) s
  let vs := getF (MOT_VTH0_vsoft m) s
  let vh := getF (MOT_VTH0_vhard m) s
  let vt := getF (MOT_VTH1_vtrip m) s
  let soft := judge v vs (vs - h) c.soft
  let hard := judge v vh (vh - h) c.hard
  let trip := judge v vt (vt - h) c.trip
  let s1 := setMotor m { c with soft := soft, hard := hard, trip := trip } (setF (MOT_MEAS_vdc m) v s)
  let brk := isSet (MOT_CFG_chop m) s && (hard.on || trip.on)
  let s2 := setB (MOT_STAT_soft m) soft.on (setB (MOT_STAT_hard m) hard.on (setB (MOT_STAT_brk m) brk s1))
  let s3 := if soft.on && !c.soft.on then setB (MOT_EVT_soft m) true s2 else s2
  let newHard := hard.on && !c.hard.on && !isSet (MOT_EVT_hard m) s3
  let tripped := trip.on && !c.trip.on
  let newTrip := tripped && !isSet (MOT_EVT_trip m) s3
  let s4 := if newHard then setB (MOT_EVT_hard m) true s3 else s3
  let s5 := if newTrip then setB (MOT_EVT_trip m) true s4 else s4
  let s6 := if newHard || newTrip then raise 50 s5 else s5
  if tripped && motorDriven m s6 then motorFault m 3 s6 else s6

/-- The measured speed, signed: forward is positive. -/
def signedSpeed (m : Nat) (s : State) : Int :=
  if isSet (MOT_STAT_rev m) s then -(getF (MOT_STAT_speed m) s : Int) else (getF (MOT_STAT_speed m) s : Int)

/-- Duty of the present drive opposes the rotation: braking (R451). -/
def motorBraking (m : Nat) (s : State) : Bool :=
  let d := (motorOf m s).duty
  let v := signedSpeed m s
  (d > 0 && v < 0) || (d < 0 && v > 0)

/-- The current limit of a driven channel in mA (R451, R452, R453). -/
def currentLimit (m : Nat) (s : State) : Nat :=
  let i := getF (MOT_LIM_imax m) s
  let c := motorOf m s
  if motorState m s = 4 then (match c.phase with
    | .test 1 _ _ => i
    | _ => i / 2)
  else if motorBraking m s then
    (if c.hard.on && !isSet (MOT_CFG_chop m) s then 0 else if c.soft.on then i / 4 else i)
  else i

/-- A current sample of a triggered pair (R451): above the limit the duty falls by 1/16; the third in a row above imax × 5/4 faults. -/
def currentSample (m i : Nat) (s : State) : State :=
  let s1 := setF (MOT_MEAS_imeas m) i s
  if !motorDriven m s1 then s1
  else
    let c := motorOf m s1
    let hi := if 4 * i > 5 * getF (MOT_LIM_imax m) s1 then c.high + 1 else 0
    let d := if i > currentLimit m s1 then c.duty - c.duty / 16 else c.duty
    let s2 := setMotor m { c with high := hi, duty := d } s1
    if hi ≥ 3 then motorFault m 2 s2 else s2

/-! Analog conversion (R439, R441 to R443). -/

/-- The value of a code of an input: mA, or 0.1 V for AIN28 to AIN31. -/
def adcValue (i code : Nat) : Nat :=
  if i < 24 then code * 3000 / 4096 else if i < 28 then code * 15000 / 4096 else code * 600 / 4096

/-- The ADCs convert. -/
def adcRuns (s : State) : Bool := serving s && mode s ≠ mStandby && isSet SYS_RAILOK_adc s

/-- ANA_STAT follows the ADCs. -/
def refreshAdc (s : State) : State := setB ANA_STAT_run0 (adcRuns s) (setB ANA_STAT_run1 (adcRuns s) s)

/-- One conversion to window w (R443). -/
def window (i code w : Nat) (s : State) : State :=
  if !(isSet (ANA_WIN0_en w) s && getF (ANA_WIN0_ch w) s = i) then s
  else
    let inside := getF (ANA_WIN1_lo w) s ≤ code && code ≤ getF (ANA_WIN1_hi w) s
    let met := inside == isSet (ANA_WIN0_mode w) s
    let filt := getF (ANA_WIN0_filt w) s
    let a := if met then min 15 (tabGet 0 s.cab.winMet w + 1) else 0
    let b := if met then 0 else min 15 (tabGet 0 s.cab.winNot w + 1)
    let s1 := { s with cab := { s.cab with winMet := tabPut 0 s.cab.winMet w a, winNot := tabPut 0 s.cab.winNot w b } }
    let s2 := if met then orF ANA_WEVT_now (2 ^ w) s1 else clrF ANA_WEVT_now (2 ^ w) s1
    if a ≥ filt && !s2.cab.winFired.testBit w then
      raise 54 (orF ANA_WEVT_fired (2 ^ w) { s2 with cab := { s2.cab with winFired := s2.cab.winFired ||| 2 ^ w } })
    else if b ≥ filt then { s2 with cab := { s2.cab with winFired := natAndNot s2.cab.winFired (2 ^ w) } }
    else s2

/-- A conversion's code of an input: shown, judged by the windows, and by a lamp's inrush energy (R443, R469). -/
def conversion (i code : Nat) (s : State) : State :=
  let v := adcValue i code
  let s1 := applyAll (List.range 8) (window i code) (setF (ANA_RES_code i) code (setF (ANA_RES_value i) v s))
  if i < 24 then
    let s2 := setF (LMP_CSTAT_imeas i) v s1
    if getF (LMP_CSTAT_state i) s2 = 2 then
      let e := if code = 4095 then 3000 else v
      wearBump 0x0102 i (4 * e * e) s2
    else s2
  else s1

/-- ADC_CONVERSION (R441, R443, R453): a scan conversion of input i. A DC-link scan counts for a channel that makes no triggered pairs. -/
def execAdcConversion (i code : Nat) (s : State) : Out :=
  .next <| onlyIf (i < 32 && code < 4096 && adcRuns s) (fun s =>
    let s1 := conversion i code s
    let m := i - 28
    if 28 ≤ i && motorUsed m s1 && !(1 ≤ motorState m s1 && motorState m s1 ≤ 6) then dcLink m (adcValue i code) s1 else s1) s

/-- PWM_TRIGGER (R442): the pair of conversions of a running channel; a wait for another pair is counted. -/
def execPwmTrigger (m icode vcode : Nat) (waited : Bool) (s : State) : Out :=
  .next <| onlyIf (motorUsed m s && 1 ≤ motorState m s && motorState m s ≤ 6 && adcRuns s && icode < 4096 && vcode < 4096) (fun s =>
    let s1 := if waited then incF ANA_STAT_late 1 s else s
    let s2 := conversion (28 + m) vcode (conversion (24 + m) icode s1)
    dcLink m (adcValue (28 + m) vcode) (currentSample m (adcValue (24 + m) icode) s2)) s

/-! Commands (R449). -/

/-- The signed target of a written word. -/
def cmdRpm (w : Word) : Int := (BitVec.ofNat 16 (wbits w 16 16)).toInt

/-- A target that is no reserved value (R449). -/
def targetOk (m : Nat) (t : Int) (s : State) : Bool :=
  t = 0 || (omin m s ≤ t.natAbs && t.natAbs ≤ getF (MOT_LIM_rpm m) s)

/-- A channel fenced by DEGRADED cause 4 or 5 (R106). -/
def motorFenced (s : State) : Bool := (causes s).testBit 4 || (causes s).testBit 5

/-- Op 2 in states 1 to 6: the internal target ramps to 0; at or below omin the gates go low at once. -/
def motorStop (m : Nat) (s : State) : State :=
  let c := motorOf m s
  if c.internal.natAbs ≤ omin m s * 10000000 then coast m s
  else setMotorState m 6 (setMotor m { c with target := 0 } s)

/-- A command write to a channel: an unused or fenced one is left as it is; state 7 takes op 4 alone. -/
def motorCmd (m : Nat) (ok : Nat → Bool) (g : State → State) (s : State) : State :=
  if m ≥ 4 then busError s
  else if !ok (motorState m s) then busError s
  else if !isSet (MOT_CFG_used m) s || motorFenced s then busDone s
  else g (busDone s)

/-- Op 1: run (R449, R450). -/
def motorRun (m : Nat) (t : Int) (s : State) : State :=
  let c := motorOf m s
  if motorState m s = 0 then
    setMotorState m 1 (setMotor m { c with target := t, internal := 0, integ := 0, duty := 0, high := 0, meas := t = 0, counted := t = 0, seq := 0 } s)
  else if t = 0 then motorStop m s
  else
    let back := motorState m s = 6
    let s1 := setMotor m { c with target := t, meas := false, counted := c.counted && !c.meas } s
    if back then setMotorState m 5 s1 else s1

/-- One write of MOT_CMD (R449). -/
def motCmdWrite (m : Nat) (w : Word) (s : State) : State :=
  match wbits w 0 3 with
  | 1 => if targetOk m (cmdRpm w) s then motorCmd m (· ≠ 7) (motorRun m (cmdRpm w)) s else busError s
  | 2 => motorCmd m (· ≠ 7) (fun t => if motorState m t = 0 then t else motorStop m t) s
  | 3 => motorCmd m (· ≠ 7) (coast m) s
  | 4 => motorCmd m (· = 7) (fun t => setMotorState m 0 t) s
  | _ => busError s

/-- MOTOR_RUN (R449). -/
def cmdMotorRun (_rq : Requester) (m : Nat) (w : Word) (s : State) : State := motCmdWrite m (BitVec.ofNat 32 (putBits w.toNat 0 3 1)) s

/-- The same under the rights of its requester. -/
def execMotorRun (rq : Requester) (m : Nat) (w : Word) (s : State) : Out :=
  .next (gate rq true (0x40110114 + 0x40 * m) 0 (cmdMotorRun rq m w) s)

/-- MOTOR_STOP (R449). -/
def cmdMotorStop (_rq : Requester) (m : Nat) (s : State) : State := motCmdWrite m 2 s

/-- The same under the rights of its requester. -/
def execMotorStop (rq : Requester) (m : Nat) (s : State) : Out :=
  .next (gate rq true (0x40110114 + 0x40 * m) 0 (cmdMotorStop rq m) s)

/-- MOTOR_COAST (R449). -/
def cmdMotorCoast (_rq : Requester) (m : Nat) (s : State) : State := motCmdWrite m 3 s

/-- The same under the rights of its requester. -/
def execMotorCoast (rq : Requester) (m : Nat) (s : State) : Out :=
  .next (gate rq true (0x40110114 + 0x40 * m) 0 (cmdMotorCoast rq m) s)

/-- MOTOR_CLEAR (R449). -/
def cmdMotorClear (_rq : Requester) (m : Nat) (s : State) : State := motCmdWrite m 4 s

/-- The same under the rights of its requester. -/
def execMotorClear (rq : Requester) (m : Nat) (s : State) : Out :=
  .next (gate rq true (0x40110114 + 0x40 * m) 0 (cmdMotorClear rq m) s)

/-! Starting and running (R450 to R452). -/

/-- The first entry to state 5 after a run command is a motor start (R456). -/
def enterRunning (m : Nat) (s : State) : State :=
  let c := motorOf m s
  let s1 := setMotorState m 5 (setMotor m { c with counted := true, seq := 0 } s)
  if c.counted then s1 else wearBump 0x0201 m 1 s1

/-- Start from stand: closed loop at once with Hall sensing, else alignment in open loop. -/
def startFromStand (m : Nat) (s : State) : State :=
  let c := motorOf m s
  if isSet (MOT_CFG_sense m) s then enterRunning m (setMotor m { c with internal := 0, integ := 0, duty := 0 } s)
  else setMotorState m 4 (setMotor m { c with internal := 0, integ := 0, duty := 0, phase := .align, seq := 0 } s)

/-- The integral preset to a speed's share of rpm. -/
def presetInteg (m : Nat) (v : Int) (s : State) : Int := v * 1048576 / (max 1 (getF (MOT_LIM_rpm m) s) : Nat)

/-- Catch at an observed signed speed: closed loop in the observed direction. -/
def catchAt (m : Nat) (v : Int) (s : State) : State :=
  enterRunning m (setMotor m { motorOf m s with internal := v * rpmUnit, integ := presetInteg m v s, duty := presetInteg m v s } s)

/-- Speed and direction shown. -/
def showSpeed (m rpm : Nat) (rev : Bool) (s : State) : State := setF (MOT_STAT_speed m) (min rpm 65535) (setB (MOT_STAT_rev m) rev s)

/-- An observation counts as stopped (R452). -/
def foundStopped (m events rpm : Nat) (s : State) : Bool := events < 3 || rpm < omin m s

/-- MOTOR_OBSERVATION_END (R452): the events, speed and direction found in obs ms. -/
def execMotorObservationEnd (m events rpm : Nat) (rev : Bool) (s : State) : Out :=
  .next <|
    let st := motorState m s
    onlyIf (motorUsed m s && ((st = 1 && !(motorOf m s).meas) || st = 2 || st = 3)) (fun s =>
      let t := (motorOf m s).target
      if foundStopped m events rpm s then startFromStand m (showSpeed m 0 false s)
      else
        let s1 := showSpeed m rpm rev s
        let v : Int := if rev then -(rpm : Int) else rpm
        if (t < 0) = rev then (if st = 3 then s1 else catchAt m v s1)
        else if st ≠ 1 then s1
        else
          let s2 := raise 49 (setB (MOT_EVT_rev m) true s1)
          match getF (MOT_CFG_rev m) s2 with
          | 0 => setMotorState m 2 s2
          | 1 => setMotorState m 3 (setMotor m { motorOf m s2 with brake := 0 } s2)
          | _ => catchAt m v s2) s

/-- MOTOR_MEASUREMENT_END (R450). -/
def execMotorMeasurementEnd (m events rpm : Nat) (rev : Bool) (s : State) : Out :=
  .next <| onlyIf (motorUsed m s && motorState m s = 1 && (motorOf m s).meas) (fun s =>
    let s1 := if foundStopped m events rpm s then showSpeed m 0 false s else showSpeed m rpm rev s
    coast m s1) s

/-- Sinusoidal commutation is in use: comm 2, closed loop, at or above 2 × omin (R447). -/
def refreshSinus (m : Nat) (s : State) : State :=
  let st := motorState m s
  setB (MOT_STAT_sinus m) (getF (MOT_CFG_comm m) s = 2 && (st = 5 || st = 6) && getF (MOT_STAT_speed m) s ≥ 2 * omin m s) s

/-- The sector of a position input (R446): the Hall code S2 S1 S0 through MOT_HALL, 7 for an invalid one, or with back-EMF sensing the sector
whose crossing was taken. -/
def posSector (m code : Nat) (s : State) : Nat :=
  if isSet (MOT_CFG_sense m) s then (if code < 8 then bitsOf (getF (MOT_HALL_map m) s) (3 * code) 3 else 7) else code

/-- MOTOR_POSITION_EVENT (R446, R452): a new sector `ns` nanoseconds after the last event; a Hall code of the same sector is none. In state 4
the third consistent event at or above omin closes the loop. -/
def execMotorPositionEvent (m code ns : Nat) (s : State) : Out :=
  .next <| onlyIf (motorUsed m s && posSector m code s < 6 && 0 < ns &&
      !(isSet (MOT_CFG_sense m) s && (motorOf m s).sector = some (posSector m code s))) (fun s =>
    let sector := posSector m code s
    let c := motorOf m s
    let rev := match c.sector with
      | some q => if sector = (q + 1) % 6 then false else if q = (sector + 1) % 6 then true else c.rev
      | none => c.rev
    let rpm := 10000000000 / (max 1 (getF (MOT_CFG_poles m) s) * ns)
    let seq := if rpm ≥ omin m s && (rev == c.rev) then c.seq + 1 else if rpm ≥ omin m s then 1 else 0
    let s1 := setMotor m { c with sector := some sector, rev := rev, seq := seq } s
    let s2 := if motorState m s1 = 1 then s1 else showSpeed m rpm rev s1
    let v : Int := if rev then -(rpm : Int) else rpm
    let s3 := match motorState m s2, c.phase with
      | 4, .accel => if seq ≥ 3 then catchAt m v s2 else s2
      | 4, .zero => if seq ≥ 3 && ((v < 0) = (c.target < 0)) then catchAt m v s2 else s2
      | _, _ => s2
    refreshSinus m s3) s

/-- A number moved toward another by a step. -/
def toward (x t step : Int) : Int := if x < t then min t (x + step) else max t (x - step)

/-- The internal target after one period: acc while its magnitude rises, dec while it falls (R451). -/
def ramp (m : Nat) (x t : Int) (s : State) : Int :=
  let pwm := (getF (MOT_PWM_pwm m) s : Int)
  let acc := (getF (MOT_RAMP_acc m) s : Int) * pwm
  let dec := (getF (MOT_RAMP_dec m) s : Int) * pwm
  if (0 < x && t < x) || (x < 0 && x < t) then toward x (if (0 < x && t < 0) || (x < 0 && 0 < t) then 0 else t) dec
  else toward x t acc

/-- A duty cut to full duty. -/
def clampDuty (d : Int) : Int := max (-1048576) (min 1048576 d)

/-- MOTOR_PWM_PERIOD (R451, R452): the internal target moves; the speed controller sets the duty; a braking duty rises; a stop ends at omin
and a reversal leaves closed loop there. -/
def execMotorPwmPeriod (m : Nat) (s : State) : Out :=
  .next <| onlyIf (motorUsed m s && motorDriven m s) (fun s =>
    let c := motorOf m s
    let st := motorState m s
    let low := omin m s * 10000000
    if st = 3 then
      if getF (MOT_MEAS_imeas m) s > getF (MOT_LIM_imax m) s then s
      else setMotor m { c with brake := min 1000000 (c.brake + getF (MOT_PWM_pwm m) s) } s
    else if st = 4 then
      match c.phase with
      | .accel => setMotor m { c with internal := ramp m c.internal (c.target * rpmUnit) s } s
      | .zero => setMotor m { c with internal := ramp m c.internal (c.target * rpmUnit) s } s
      | _ => s
    else
      let x := ramp m c.internal (c.target * rpmUnit) s
      let e := x / rpmUnit - signedSpeed m s
      let i := c.integ + (getF (MOT_PI_ki m) s : Int) * e
      let d := clampDuty ((getF (MOT_PI_kp m) s : Int) * e * 16 + i)
      let s1 := setMotor m { c with internal := x, integ := i, duty := d } s
      if st = 6 && x.natAbs ≤ low then coast m s1
      else if st = 5 && x.natAbs ≤ low && ((0 < x && c.target < 0) || (x < 0 && 0 < c.target)) then
        setMotorState m 4 (setMotor m { motorOf m s1 with phase := .zero, seq := 0 } s1)
      else refreshSinus m s1) s

/-- MOTOR_ALIGN_END (R452): forced commutation begins. -/
def execMotorAlignEnd (m : Nat) (s : State) : Out :=
  .next <| onlyIf (motorUsed m s && motorState m s = 4 && (motorOf m s).phase == .align)
    (fun s => setMotor m { motorOf m s with phase := .accel } s) s

/-- MOTOR_HANDOVER_TIMEOUT (R452). -/
def execMotorHandoverTimeout (m : Nat) (s : State) : Out :=
  .next <| onlyIf (motorUsed m s && motorState m s = 4 && ((motorOf m s).phase == .accel || (motorOf m s).phase == .zero)) (motorFault m 5) s

/-- MOTOR_STALL_TIMEOUT (R452). -/
def execMotorStallTimeout (m : Nat) (s : State) : Out :=
  .next <| onlyIf (motorUsed m s && motorState m s = 5) (motorFault m 4) s

/-- MOTOR_WAIT_LIMIT (R452): MOT_WAIT.s seconds in state 2; 0 is no limit. -/
def execMotorWaitLimit (m : Nat) (s : State) : Out :=
  .next <| onlyIf (motorUsed m s && motorState m s = 2 && getF (MOT_WAIT_s m) s ≠ 0) (motorFault m 6) s

/-- MOTOR_HALL_INVALID (R446): a code that maps to 7 for 100 µs. -/
def execMotorHallInvalid (m code : Nat) (s : State) : Out :=
  .next <| onlyIf (motorUsed m s && isSet (MOT_CFG_sense m) s && posSector m code s = 7) (motorFault m 7) s

/-- MOTOR_FLT_INPUT (R445). -/
def execMotorFltInput (m : Nat) (s : State) : Out :=
  .next <| onlyIf (motorUsed m s) (motorFault m 1) s

/-- A write of MOT_TEST (R467): in WORKSHOP it holds a sector, jogs, or ends a test. -/
def motTestWrite (m : Nat) (w : Word) (s : State) : State :=
  let op := wbits w 0 2
  let sect := wbits w 2 3
  let duty := wbits w 16 16
  if mode s ≠ mWorkshop || m ≥ 4 || op = 3 || sect > 5 || (op = 2 && duty > 2 * omin m s) then busError s
  else if !isSet (MOT_CFG_used m) s || motorFenced s || motorState m s = 7 then busDone s
  else
    let s0 := { s with cab := { s.cab with tests := s.cab.tests.filter fun e => e.1 ≠ 32 + m } }
    if op = 0 then (if s0 = s then busDone s else busDone (coast m s0))
    else
      let s1 := setMotorState m 4 (setMotor m { motorOf m s0 with phase := .test op sect duty } s0)
      busDone (if op = 1 then { s1 with cab := { s1.cab with tests := (32 + m, s1.ticks + 10000000) :: s1.cab.tests } } else s1)

/-- MOTOR_TEST (R467). -/
def cmdMotorTest (_rq : Requester) (m : Nat) (w : Word) (s : State) : State := motTestWrite m w s

/-- The same under the rights of its requester. -/
def execMotorTest (rq : Requester) (m : Nat) (w : Word) (s : State) : Out :=
  .next (gate rq true (0x40110138 + 0x40 * m) 0 (cmdMotorTest rq m w) s)

/-! Lamp channels (R457 to R466). -/

def lampState (n : Nat) (s : State) : Nat := getF (LMP_CSTAT_state n) s

/-- The channel is used. -/
def lampUsed (n : Nat) (s : State) : Bool := n < 24 && isSet (LMP_CCFG0_used n) s

/-- LMPn_EN is high, blink phases included. -/
def lampLit (n : Nat) (s : State) : Bool := lampState n s = 2 || lampState n s = 3

/-- Channels that wait in a group. -/
def lampWaits (g : Nat) (s : State) : List Nat := tabGet [] s.cab.waits g

def setLampWaits (g : Nat) (l : List Nat) (s : State) : State :=
  setF (LMP_GSTAT_wait g) (l.foldl (fun m n => m ||| 2 ^ (n % 6)) 0) { s with cab := { s.cab with waits := tabPut [] s.cab.waits g l } }

/-- A lamp state taken and shown in LMP_LATCHED. -/
def setLampState (n st : Nat) (s : State) : State :=
  let s1 := setF (LMP_CSTAT_state n) st s
  if st = 5 then orF LMP_LATCHED_ch (2 ^ n) s1 else clrF LMP_LATCHED_ch (2 ^ n) s1

/-- A channel leaves its group's token and waiting list. -/
def dropToken (n : Nat) (s : State) : State :=
  let g := n / 6
  let s1 := setLampWaits g ((lampWaits g s).filter (· ≠ n)) s
  let s2 := if getF (LMP_GSTAT_holder g) s1 = n % 6 then setF (LMP_GSTAT_holder g) 7 s1 else s1
  { s2 with cab := { s2.cab with tests := s2.cab.tests.filter fun e => e.1 ≠ n } }

/-- A switch-on: counted, and the latest of its group (R457, R463). -/
def lampSwitchOn (n st : Nat) (s : State) : State :=
  let k := s.cab.ons + 1
  let s1 := { s with cab := { s.cab with ons := k, lastOn := tabPut 0 s.cab.lastOn n k } }
  let s2 := wearBump 0x0101 n 1 (incF (LMP_CCNT_ons n) 1 (setB (LMP_CSTAT_ext n) false (setLampState n st s1)))
  if adcRuns s2 then s2
  else setWearItem 0x0102 n { wearItem 0x0102 n s2 with partialE := true } s2

/-- A channel asks to switch on: it takes a free token that none waits for, or waits (R458). -/
def lampAsk (n : Nat) (s : State) : State :=
  let g := n / 6
  if getF (LMP_GSTAT_holder g) s = 7 && lampWaits g s = [] then lampSwitchOn n 2 (setF (LMP_GSTAT_holder g) (n % 6) s)
  else setLampState n 1 (setLampWaits g (lampWaits g s ++ [n]) s)

/-- Mode 0 (R457): off, no cool-down, tries, latch and open flag cleared. -/
def lampOff (n : Nat) (s : State) : State :=
  setLampState n 0 (setF (LMP_CSTAT_tries n) 0 (setB (LMP_CSTAT_open n) false (setF (LMP_CMD_mode n) 0 (dropToken n s))))

/-- Every lamp of a list takes mode 0 (R466). -/
def lampsOff (l : List Nat) (s : State) : State := applyAll (l.filter fun n => lampUsed n s) lampOff s

/-- A write of LMP_CMD (R457): a latched channel takes only mode 0; DEGRADED cause 4 keeps every channel off (R106). -/
def lmpCmdWrite (n : Nat) (w : Word) (s : State) : State :=
  let md := wbits w 0 2
  if n ≥ 24 || md = 3 || wbits w 8 8 = 0 || wbits w 16 8 = 0 then busError s
  else
    let put (t : State) : State := setF (LMP_CMD_mode n) md (setF (LMP_CMD_on n) (wbits w 8 8) (setF (LMP_CMD_off n) (wbits w 16 8) t))
    if !lampUsed n s then busDone (put s)
    else if md = 0 then busDone (put (lampOff n s))
    else if lampState n s = 5 || (causes s).testBit 4 then busDone s
    else
      let s1 := busDone (put s)
      match lampState n s1 with
      | 0 => lampAsk n s1
      | 6 => if md = 1 then lampAsk n s1 else s1
      | _ => s1

/-- LAMP_COMMAND (R457). -/
def cmdLampCommand (_rq : Requester) (n : Nat) (w : Word) (s : State) : State := lmpCmdWrite n w s

/-- The same under the rights of its requester. -/
def execLampCommand (rq : Requester) (n : Nat) (w : Word) (s : State) : Out :=
  .next (gate rq true (0x40120210 + 0x20 * n) 0 (cmdLampCommand rq n w) s)

/-- LAMP_TOKEN_GRANT (R458): the free token of a group goes to the channel that asked first. -/
def execLampTokenGrant (g : Nat) (s : State) : Out :=
  .next <| onlyIf (g < 4 && getF (LMP_GSTAT_holder g) s = 7) (fun s =>
    match lampWaits g s with
    | [] => s
    | n :: r => lampSwitchOn n 2 (setF (LMP_GSTAT_holder g) (n % 6) (setLampWaits g r s))) s

/-- A channel latches off with its event (R462, R464). -/
def lampLatch (n e : Nat) (s : State) : State := raise e (setB (LMP_CEVT_latch n) true (setLampState n 5 s))

/-- A fault switches a channel off: counted, with its reason. -/
def lampFaultOff (n reason : Nat) (s : State) : State :=
  incF (LMP_CCNT_trips n) 1 (setB (LMP_CEVT_trip n) true (setF (LMP_CSTAT_reason n) reason (dropToken n s)))

/-- A trip with reason 1, 2 or 4 (R464): a try, then cool-down or latch. -/
def lampTrip (n reason : Nat) (s : State) : State :=
  let t := getF (LMP_CSTAT_tries n) s + 1
  let s1 := setF (LMP_CSTAT_tries n) t (lampFaultOff n reason s)
  if t ≥ getF (LMP_CCFG0_retries n) s + 1 then lampLatch n (if reason = 4 then 53 else 51) s1 else setLampState n 4 s1

/-- LAMP_INRUSH_END (R462): the token is freed; a channel still above 5/4 × inom throughout the first 20 µs latches with reason 3. -/
def execLampInrushEnd (n : Nat) (above : Bool) (s : State) : Out :=
  .next <| onlyIf (lampUsed n s && lampState n s = 2) (fun s =>
    if above then lampLatch n 53 (lampFaultOff n 3 s) else setLampState n 3 (dropToken n s)) s

/-- LAMP_HARD_SHORT (R460, R461): a group disturbance begins. -/
def execLampHardShort (n : Nat) (s : State) : Out :=
  .next <| onlyIf (lampUsed n s && lampLit n s) (fun s => setB (LMP_GSTAT_dist (n / 6)) true (lampTrip n 1 s)) s

/-- LAMP_OVERCURRENT (R460). -/
def execLampOvercurrent (n : Nat) (s : State) : Out :=
  .next <| onlyIf (lampUsed n s && lampLit n s) (lampTrip n 2) s

/-- The lit channel of a group that was switched on last (R463). -/
def lastLit (g : Nat) (s : State) : Option Nat :=
  ((List.range 6).map (6 * g + ·)).foldl (fun b n =>
    if !(lampUsed n s && lampLit n s) then b
    else match b with
      | none => some n
      | some k => if tabGet 0 s.cab.lastOn n > tabGet 0 s.cab.lastOn k then some n else b) none

/-- LAMP_GROUP_LIMIT (R461, R463): the limit is exceeded for the whole filter time. -/
def execLampGroupLimit (g : Nat) (s : State) : Out :=
  .next <| onlyIf (g < 4) (fun s =>
    let s1 := setB (LMP_GSTAT_over g) true (setB (LMP_GSTAT_dist g) true s)
    match lastLit g s1 with
    | none => s1
    | some n =>
      let t := lampTrip n 4 s1
      if lampState n t = 5 then t else raise 53 t) s

/-- LAMP_DISTURBANCE_END (R461): a token holder in its inrush phase is extended, once. -/
def execLampDisturbanceEnd (g : Nat) (s : State) : Out :=
  .next <| onlyIf (g < 4) (fun s =>
    let s1 := setB (LMP_GSTAT_over g) false (setB (LMP_GSTAT_dist g) false s)
    let n := 6 * g + getF (LMP_GSTAT_holder g) s1
    if getF (LMP_GSTAT_holder g) s1 < 6 && lampState n s1 = 2 then setB (LMP_CSTAT_ext n) true s1 else s1) s

/-- LAMP_COOL_DOWN_END (R464): a retry, which needs the token. -/
def execLampCoolDownEnd (n : Nat) (s : State) : Out :=
  .next <| onlyIf (lampUsed n s && lampState n s = 4) (lampAsk n) s

/-- LAMP_BLINK_PHASE (R457): an on-phase or an off-phase ends. -/
def execLampBlinkPhase (n : Nat) (s : State) : Out :=
  .next <| onlyIf (lampUsed n s && getF (LMP_CMD_mode n) s = 2) (fun s =>
    match lampState n s with
    | 2 => setLampState n 6 (dropToken n s)
    | 3 => setLampState n 6 s
    | 6 => lampAsk n s
    | _ => s) s

/-- LAMP_OPEN_DETECT (R465): 50 ms of on-time below, or above, the open threshold. -/
def execLampOpenDetect (n : Nat) (below : Bool) (s : State) : Out :=
  .next <| onlyIf (lampUsed n s && lampState n s = 3 && !(causes s).testBit 5 && !s.cab.tests.any (fun e => e.1 = n)) (fun s =>
    if below then
      if isSet (LMP_CSTAT_open n) s then s else raise 52 (setB (LMP_CEVT_open n) true (setB (LMP_CSTAT_open n) true s))
    else setB (LMP_CSTAT_open n) false s) s

/-- LAMP_TRIES_RESET (R464): on for 1 s after an inrush phase without a fault. -/
def execLampTriesReset (n : Nat) (s : State) : Out :=
  .next <| onlyIf (lampUsed n s && lampState n s = 3) (setF (LMP_CSTAT_tries n) 0) s

/-- A write of LMP_TEST (R467): in WORKSHOP one channel is on for ms milliseconds, without the token. -/
def lmpTestWrite (w : Word) (s : State) : State :=
  let n := wbits w 0 5
  let ms := wbits w 16 16
  if mode s ≠ mWorkshop || n > 23 || ms = 0 then busError s
  else if !lampUsed n s || (causes s).testBit 4 then busDone s
  else
    let s1 := if lampLit n s then s else lampSwitchOn n 3 (dropToken n s)
    busDone { s1 with cab := { s1.cab with tests := (n, s1.ticks + 1000 * ms) :: s1.cab.tests.filter fun e => e.1 ≠ n } }

/-- LAMP_TEST (R467). -/
def cmdLampTest (_rq : Requester) (w : Word) (s : State) : State := lmpTestWrite w s

/-- The same under the rights of its requester. -/
def execLampTest (rq : Requester) (w : Word) (s : State) : Out :=
  .next (gate rq true 0x40120004 0 (cmdLampTest rq w) s)

/-- Manual tests whose time is over end (R467). -/
def endTests (s : State) : State :=
  let done := s.cab.tests.filter fun e => e.2 ≤ s.ticks
  applyAll done (fun e t => if e.1 ≥ 32 then coast (e.1 - 32) t else setLampState e.1 0 t)
    { s with cab := { s.cab with tests := s.cab.tests.filter fun e => s.ticks < e.2 } }

/-! What stops the cabinet (R111, R106, R108). -/

/-- Every motor channel of a mask coasts. -/
def coastAll (mask : Nat) (s : State) : State :=
  applyAll ((List.range 4).filter fun m => mask.testBit m && motorUsed m s && motorState m s ≠ 7) coast s

/-- Every lamp channel of the groups of a mask is switched off. -/
def groupsOff (mask : Nat) (s : State) : State :=
  lampsOff ((List.range 24).filter fun n => mask.testBit (n / 6)) s

end Sys2Proof.Machine
end

