-- ==== Sys2Proof/Machine/Wear.lean ====
section
/-! DEFINITION. The wear ledger (spec/19): its clock, items, saves, the prediction, and the commands on them. -/

namespace Sys2Proof.Machine

/-! IEEE 754 binary64 (R479): the operations on values far inside the exponent range, rounded to nearest, ties to even. -/

/-- floor of the binary logarithm of a positive rational. -/
def ratLog2 (q : ℚ) : Int :=
  let e : Int := (Nat.log2 q.num.natAbs : Int) - (Nat.log2 q.den : Int)
  if (2 : ℚ) ^ e ≤ q then e else e - 1

/-- A rational rounded to the nearest integer, ties to even. -/
def roundEven (q : ℚ) : Int :=
  let f := q.floor
  let d := q - f
  if d < 1 / 2 then f else if 1 / 2 < d then f + 1 else if f % 2 = 0 then f else f + 1

/-- A rational rounded to 53 significant bits. -/
def b64 (q : ℚ) : ℚ :=
  if q = 0 then 0
  else
    let p := if q < 0 then -q else q
    let e := ratLog2 p - 52
    (roundEven (q / (2 : ℚ) ^ e) : ℚ) * (2 : ℚ) ^ e

/-- The square root of a rational, correctly rounded: 64 bits of the root and a sticky bit decide it. -/
def b64sqrt (q : ℚ) : ℚ :=
  if q ≤ 0 then 0
  else
    let k : Int := 64 - ratLog2 q / 2
    let x := q * (4 : ℚ) ^ k
    let n := x.floor.natAbs
    let r := Nat.sqrt n
    let sticky : Int := if ((r * r : Nat) : ℚ) = x then 0 else 1
    b64 (((2 * (r : Int) + sticky : Int) : ℚ) / 2 / (2 : ℚ) ^ k)

/-- A sum, each addition rounded. -/
def b64sum (l : List ℚ) : ℚ := l.foldl (fun a x => b64 (a + x)) 0

/-- The fit of R479 over samples, oldest first, for a rated life: eol and early in months and the confidence of R480; none when b ≤ 0. -/
def fit (l : List (Nat × Nat)) (rated : Nat) : Option (ℚ × ℚ × Nat) :=
  let n : ℚ := l.length
  let xm := b64 (b64sum (l.map fun e => (e.1 : ℚ)) / n)
  let ym := b64 (b64sum (l.map fun e => b64 (e.2 : ℚ)) / n)
  let dx (e : Nat × Nat) : ℚ := b64 ((e.1 : ℚ) - xm)
  let dy (e : Nat × Nat) : ℚ := b64 (b64 (e.2 : ℚ) - ym)
  let sxx := b64sum (l.map fun e => b64 (dx e * dx e))
  let sxy := b64sum (l.map fun e => b64 (dx e * dy e))
  let b := b64 (sxy / sxx)
  let res (e : Nat × Nat) : ℚ := b64 (dy e - b64 (b * dx e))
  let s2 := b64 (b64sum (l.map fun e => b64 (res e * res e)) / (n - 2))
  let sb := b64sqrt (b64 (s2 / sxx))
  if b ≤ 0 then none
  else
    let rest := b64 (b64 (rated : ℚ) - ym)
    let eol := b64 (xm + b64 (rest / b))
    let early := b64 (xm + b64 (rest / b64 (b + b64 (2 * sb))))
    let q := b64 (sb / b)
    some (eol, early, if q < b64 (1 / 20) then 3 else if q < b64 (1 / 5) then 2 else if q < 1 / 2 then 1 else 0)

/-- A predicted month as a ledger day: not before today, at most 0xFFFF_FFFE (R479). -/
def foreDay (today : Nat) (m : ℚ) : Nat :=
  let d := (b64 (30 * m)).floor
  if d < (today : Int) then today else if d > 0xFFFFFFFD then 0xFFFFFFFE else d.toNat

/-! Items (R469, R477). -/

/-- The ledger day. -/
def ledgerDay (s : State) : Nat := s.wear.clock / 86400

/-- An item exists. -/
def itemHere (item inst : Nat) (s : State) : Bool :=
  match item with
  | 0x0101 => lampUsed inst s
  | 0x0102 => lampUsed inst s
  | 0x0201 => motorUsed inst s
  | 0x0202 => motorUsed inst s
  | 0x0203 => motorUsed inst s
  | _ => itemExists {} item inst

/-- The highest block counter of a region of the ledger store (R474). -/
def regionWrites (r : Nat) (s : State) : Nat :=
  (s.store.blockWrites.filter fun e => e.1 / 256 = r).foldl (fun m e => max m e.2) 0

/-- The integer value of an item. -/
def itemValue (item inst : Nat) (s : State) : Nat :=
  let c := (wearItem item inst s).cnt
  match item with
  | 0x0102 => c / 1000000
  | 0x0202 => c / 1000000
  | 0x0301 => c / 65536
  | 0x0401 => c / 3600000
  | 0x0501 => regionWrites inst s
  | _ => c

/-- The WEAR record of an item. -/
def wearRecOf (item inst : Nat) (s : State) : Option WearRec := s.str.wear.find? fun r => r.item = item && r.inst = inst

/-- The fixed rated life of a part item. -/
def fixedLife (item : Nat) : Option Nat :=
  match item with
  | 0x0301 => some 259200000
  | 0x0303 => some 15000
  | 0x0501 => some 100000000
  | _ => none

/-- The rated life in force (R477). -/
def ratedLife (item inst : Nat) (s : State) : Option Nat :=
  match (wearRecOf item inst s).map (·.rated), fixedLife item with
  | some r, some f => some (min r f)
  | some r, none => some r
  | none, f => f

/-- The warn percent in force. -/
def warnPercent (item inst : Nat) (s : State) : Nat := ((wearRecOf item inst s).map (·.warn)).getD 80

/-- Every item code and instance in ascending order. -/
def allItems : List (Nat × Nat) :=
  ([(0x0101, 24), (0x0102, 24), (0x0201, 4), (0x0202, 4), (0x0203, 4), (0x0301, 1), (0x0302, 8), (0x0303, 4), (0x0401, 1), (0x0501, 4), (0x0502, 2)] :
    List (Nat × Nat)).flatMap fun e => (List.range e.2).map fun i => (e.1, i)

/-- The existing items. -/
def liveItems (s : State) : List (Nat × Nat) := allItems.filter fun e => itemHere e.1 e.2 s

/-! Used percent, latches and predictions (R479 to R481). -/

/-- Used percent (R480). -/
def usedPercent (item inst : Nat) (s : State) : Nat :=
  match ratedLife item inst s with
  | some r => min 255 (100 * itemValue item inst s / max 1 r)
  | none => 0

/-- An item's latch raises its event (R481). -/
def wearEvent (f : Fld) (e item inst : Nat) (s : State) : State :=
  raise e (setF WER_EVTITEM_item item (setF WER_EVTITEM_inst inst (setB f true s)))

/-- Used percent, warn and eol latches of an item. -/
def judgeItem (x : Nat × Nat) (s : State) : State :=
  let (item, inst) := x
  let w := wearItem item inst s
  let u := usedPercent item inst s
  match ratedLife item inst s with
  | none => setWearItem item inst { w with used := 0 } s
  | some r =>
    let warn := u ≥ warnPercent item inst s
    let eol := itemValue item inst s ≥ r
    let s1 := setWearItem item inst { w with
      used := u, warn := w.warn || warn, eol := w.eol || eol
      crossed := if eol && w.crossed.isNone then some (ledgerDay s) else w.crossed } s
    let s2 := if warn && !w.warn then wearEvent WER_EVT_warn 55 item inst s1 else s1
    if eol && !w.eol then wearEvent WER_EVT_eol 56 item inst s2 else s2

/-- The prediction of an item and its horizon latch. -/
def predictItem (x : Nat × Nat) (s : State) : State :=
  let (item, inst) := x
  let w := wearItem item inst s
  let today := ledgerDay s
  let p := match ratedLife item inst s with
    | some r => if w.samples.length ≥ 6 then
        (fit w.samples.reverse r).map fun f => (foreDay today f.1, foreDay today f.2.1, f.2.2) else none
    | none => none
  let hor := (p.map fun q => q.1 - today ≤ getF WER_CFG_horizon s && q.1 ≠ 0xFFFFFFFE).getD false
  let s1 := setWearItem item inst { w with pred := p, hor := w.hor || hor } s
  if hor && !w.hor then wearEvent WER_EVT_horizon 55 item inst s1 else s1

/-- A change of rated lives (R477, R481): latches whose condition is gone clear; used percents and predictions are recomputed at once. -/
def ratedChanged (s : State) : State :=
  let clear (x : Nat × Nat) (t : State) : State :=
    let w := wearItem x.1 x.2 t
    let r := ratedLife x.1 x.2 t
    let eol := (r.map fun v => decide (itemValue x.1 x.2 t ≥ v)).getD false
    setWearItem x.1 x.2 { w with
      warn := w.warn && r.isSome && usedPercent x.1 x.2 t ≥ warnPercent x.1 x.2 t
      eol := w.eol && eol, crossed := if eol then w.crossed else none, hor := false, pred := none } t
  let s1 := applyAll (liveItems s) clear s
  applyAll (liveItems s1) (fun x t =>
    let had := (wearItem x.1 x.2 s).hor
    let t1 := judgeItem x t
    if had then
      let t2 := predictItem x (setWearItem x.1 x.2 { wearItem x.1 x.2 t1 with hor := true } t1)
      let p := (wearItem x.1 x.2 t2).pred
      let hor := (p.map fun q => q.1 - ledgerDay t2 ≤ getF WER_CFG_horizon t2 && q.1 ≠ 0xFFFFFFFE).getD false
      setWearItem x.1 x.2 { wearItem x.1 x.2 t2 with hor := hor } t2
    else predictItem x t1) s1

/-! Saves (R475, R476). -/

/-- The snapshot of the ledger as it stands. -/
def snapshotNow (s : State) : Snapshot :=
  { seq := ((s.store.snap.map (·.seq)).getD 0) + 1, clock := s.wear.clock, base := s.wear.base, month := s.wear.month
    lost := getF AON_LOGSTAT_lost s, items := s.wear.items }

/-- A save is asked for: it starts, or is merged into one further save while one runs. -/
def ledgerSave (s : State) : State :=
  match s.wear.saving with
  | some _ => { s with wear := { s.wear with again := true } }
  | none => setB WER_STAT_saving true { s with wear := { s.wear with saving := some (snapshotNow s) } }

/-- LEDGER_SAVE (R476): a save is asked for. -/
def execLedgerSave (s : State) : Out := .next <| onlyIf (!s.power.por) ledgerSave s

/-- LEDGER_SAVE_DONE (R475): the snapshot stands in the next block of the ring. -/
def execLedgerSaveDone (s : State) : Out :=
  .next <| match s.wear.saving with
    | none => s
    | some p =>
      let s1 := storeWrite 0 (p.seq % 48) { s with store := { s.store with snap := some p } }
      let s2 := setB WER_STAT_saving false { s1 with wear := { s1.wear with saving := none, again := false } }
      if s.wear.again then ledgerSave s2 else s2

/-! Time (R468, R471). -/

/-- The measured temperature in quarter degrees. -/
def tempNow (s : State) : Int := (BitVec.ofNat 12 (getF WER_TEMP_now s)).toInt

/-- The bin and weight of a temperature. -/
def tempBin (t : Int) : Nat × Nat :=
  if t < 0 then (0, 17) else if t < 100 then (1, 206) else if t < 200 then (2, 1693) else if t < 300 then (3, 10296)
  else if t < 380 then (4, 36565) else if t < 420 then (5, 65536) else if t < 460 then (6, 113974) else (7, 192799)

/-- LEDGER_SECOND (R468, R471, R480, R481): the clock, thermal age and histogram, used percents and latches. -/
def execLedgerSecond (s : State) : Out :=
  .next <| onlyIf (!s.power.por) (fun s =>
    let b := tempBin (tempNow s)
    let s1 := wearBump 0x0302 b.1 1 (wearBump 0x0301 0 b.2 (ledgerAdvance s))
    applyAll (liveItems s1) judgeItem s1) s

/-- One ledger millisecond of the motors (R469): speed-weighted run time in 10^-6 s, and DC-link stress. -/
def ledgerMs (s : State) : State :=
  applyAll ((List.range 4).filter fun m => motorUsed m s) (fun m t =>
    let st := motorState m t
    let rpm := getF (MOT_LIM_rpm m) t
    let t1 := if 4 ≤ st && st ≤ 6 then wearBump 0x0202 m (min (getF (MOT_STAT_speed m) t * 1000 / max 1 rpm) 2000) t else t
    if isSet (MOT_STAT_soft m) t1 then wearBump 0x0203 m 1 t1 else t1) s

/-- TEMPERATURE_MEASURE (R471): t in quarter degrees. Event 7 after 100 measurements in a row at or above warn; re-armed after 100 below
warn - 5 °C. -/
def execTemperatureMeasure (t : Int) (s : State) : Out :=
  .next <| onlyIf (!s.power.por && -2048 ≤ t && t ≤ 2047) (fun s =>
    let warn : Int := 4 * getF WER_TCFG_warn s
    let top := (BitVec.ofNat 12 (getF WER_TEMP_max s)).toInt
    let s1 := setF WER_TEMP_now (BitVec.ofInt 12 t).toNat (if t > top then setF WER_TEMP_max (BitVec.ofInt 12 t).toNat s else s)
    let hot := if t ≥ warn then min 100 (s.wear.hot + 1) else 0
    let cool := if t < warn - 20 then min 100 (s.wear.cool + 1) else 0
    let s2 := { s1 with wear := { s1.wear with hot := hot, cool := cool } }
    if hot = 100 && !s.wear.warned then raise 7 { s2 with wear := { s2.wear with warned := true } }
    else if cool = 100 then { s2 with wear := { s2.wear with warned := false } }
    else s2) s

/-- RING_OSCILLATOR_MEASURE (R472): the losses of the four monitors in ppm; a negative one counts as 0. -/
def execRingOscillatorMeasure (ppm : List Int) (s : State) : Out :=
  .next <| onlyIf (mode s = mService || mode s = mDegraded || mode s = mPartial || mode s = mReconfig) (fun s =>
    applyAll (List.range 4) (fun k t => setWearItem 0x0303 k { wearItem 0x0303 k t with cnt := (ppm.getD k 0).toNat } t) s) s

/-- The items of a list store a sample of month k (R478). -/
def sampleAll (l : List (Nat × Nat)) (k : Nat) (s : State) : State :=
  let s1 := applyAll l (fun x t =>
    let w := wearItem x.1 x.2 t
    setWearItem x.1 x.2 { w with samples := ((k, itemValue x.1 x.2 t) :: w.samples).take 32 } t) s
  storeWrite 0 (48 + k % 32) { s1 with wear := { s1.wear with month := k } }

/-- MONTHLY_SAMPLE (R478, R479): the ledger month after the last sampled one has ended. -/
def execMonthlySample (s : State) : Out :=
  .next <| onlyIf (!s.power.por && s.wear.clock ≥ 2592000 * (s.wear.month + 1)) (fun s =>
    let s1 := sampleAll (liveItems s) (s.wear.month + 1) s
    ledgerSave (applyAll (liveItems s1) predictItem s1)) s

/-! Registers (R482). -/

/-- A replacement reset (R482). -/
def werReset (rq : Requester) (w : Word) (s : State) : State :=
  let item := wbits w 0 11
  let inst := wbits w 11 5
  if !rqSecure rq || mode s ≠ mWorkshop || wbits w 16 16 ≠ 0x3E51 || item < 0x0101 || item > 0x0203 || !itemHere item inst s then busError s
  else
    let r := (wearItem item inst s).repl
    ledgerSave (setWearItem item inst { repl := min (r + 1) 0xFFFF } (busDone s))

/-- WER_RESET (R482). -/
def cmdWerReset (rq : Requester) (w : Word) (s : State) : State := (werReset rq w s)

/-- The same under the rights of its requester. -/
def execWerReset (rq : Requester) (w : Word) (s : State) : Out :=
  .next (gate rq true 0x40140024 0 (cmdWerReset rq w) s)

/-- The predicted end-of-life day shown: the crossing, the prediction, or none (R479). -/
def eolShown (item inst : Nat) (s : State) : Nat × Nat :=
  let w := wearItem item inst s
  match w.crossed, w.pred with
  | some d, _ => (d, d)
  | none, some p => (p.1, p.2.1)
  | none, none => (0xFFFFFFFF, 0xFFFFFFFF)

/-- Remaining days (R479, R483). -/
def eolRemaining (item inst : Nat) (s : State) : Nat :=
  let d := (eolShown item inst s).1
  if d ≥ 0xFFFFFFFE then d else d - ledgerDay s

/-- A write of WER_SEL takes the snapshot of an item. -/
def werSel (w : Word) (s : State) : State :=
  let item := wbits w 0 16
  let inst := wbits w 16 5
  let s1 := setF WER_SEL_item item (setF WER_SEL_inst inst (busDone s))
  let here := itemHere item inst s1
  let v := if here then itemValue item inst s1 else 0
  let it := if here then wearItem item inst s1 else {}
  let r := if here then ratedLife item inst s1 else none
  let e := if here then eolShown item inst s1 else (0xFFFFFFFF, 0xFFFFFFFF)
  let rem := if here then eolRemaining item inst s1 else 0xFFFFFFFF
  let s2 := setB WER_IINFO_valid here <| setB WER_IINFO_rated r.isSome <| setB WER_IINFO_partial it.partialE <|
    setF WER_IINFO_used it.used <| setF WER_IINFO_conf ((it.pred.map (·.2.2)).getD 0) <| setB WER_IINFO_warnl it.warn <|
    setB WER_IINFO_horl it.hor <| setB WER_IINFO_eoll it.eol <| setF WER_IINFO_nsamp it.samples.length s1
  setF WER_CNTLO_cnt v <| setF WER_CNTHI_cnt (v / 2 ^ 32) <| setF WER_RATLO_rated (r.getD 0) <| setF WER_RATHI_rated (r.getD 0 / 2 ^ 32) <|
    setF WER_EOLDAY_day e.1 <| setF WER_EOLE_day e.2 <| setF WER_EOLREM_days rem <| setF WER_REPL_repl it.repl <|
    setF WER_REPL_warn (if here then warnPercent item inst s1 else 0) s2

/-- WER_SEL (R469). -/
def cmdWerSel (_rq : Requester) (w : Word) (s : State) : State := (werSel w s)

/-- The same under the rights of its requester. -/
def execWerSel (rq : Requester) (w : Word) (s : State) : Out :=
  .next (gate rq true 0x40140080 0 (cmdWerSel rq w) s)

/-! Power (R468, R473, R475, R478). -/

/-- Word k of the log entry n places before the newest. -/
def logBack (n k : Nat) (s : State) : Nat := getF (AON_LOG_entry (2 * ((getF AON_LOGSTAT_wr s + 31 - n) % 32) + k)) s

/-- Seconds on VBAT in the BACKUP that has just ended: from the latest "main power lost" entry, when it has onvbat, to the newest
"main power returned" entry. -/
def vbatSeconds (s : State) : Nat :=
  match (List.range 32).find? fun n => bitsOf (logBack n 1 s) 16 3 = 5 with
  | some n => if (logBack n 1 s).testBit 24 then logBack 0 0 s - logBack n 0 s else 0
  | none => 0

/-- The backup-cell charge at a release after BACKUP (R473), in nA·s. -/
def backupCharge (lastBase lost : Nat) (s : State) : State :=
  if isSet AON_STATUS_aonpor s then s
  else
    let sec := if getF AON_LOGSTAT_lost s ≠ lost then s.aon.sec - lastBase else vbatSeconds s
    wearBump 0x0401 0 (sec * getF WER_CFG_vbna s) s

/-- The ledger is loaded at a power-on reset release; the samples of the months that passed while the part was off are predicted from and
saved like any other (R468, R475, R476, R478, R479). -/
def ledgerLoad (backup : Bool) (s : State) : State :=
  match s.store.snap with
  | none =>
    raise 55 (setB WER_EVT_lost true (setB WER_STAT_lost true { s with wear := { base := s.aon.sec } }))
  | some p =>
    let s1 := setB WER_STAT_ok true { s with wear := { items := p.items, clock := p.clock, base := p.base, month := p.month } }
    let s2 := if isSet AON_STATUS_aonpor s1 then setB WER_STAT_gap true { s1 with wear := { s1.wear with base := s1.aon.sec } }
      else ledgerAdvance s1
    let missed := s2.wear.clock / 2592000 - p.month
    let sample (i : Nat) (t : State) : State :=
      let t1 := sampleAll (allItems.filter fun x => itemHere x.1 x.2 t || wearItem x.1 x.2 t ≠ {}) (p.month + 1 + i) t
      applyAll (liveItems t1) predictItem t1
    let s3 := applyAll (List.range missed) sample s2
    let s4 := if backup then backupCharge p.base p.lost s3 else s3
    if missed = 0 then s4 else ledgerSave s4

end Sys2Proof.Machine
end

