-- ==== Sys2Proof/Machine/Power.lean ====
section
/-! DEFINITION. Supplies, clocks, resets, DEGRADED causes, STANDBY and shedding (spec/03, spec/04), and the commands on them. -/

namespace Sys2Proof.Machine

/-! Register fields kept or cleared by address. -/

/-- The registers a filter of addresses keeps at their values; all others take their reset values. -/
def keepRegs (f : Nat → Bool) (l : List (Nat × Nat)) : List (Nat × Nat) := l.filter fun e => f (keyAddr e.1)

/-- LNK registers that a full reset resets (R21). -/
def linkResetReg (a : Nat) : Bool :=
  (LNK_ALARMSET0_set.addr ≤ a && a ≤ LNK_ALARMSET1_set.addr) || (LNK_ALARMMSK0_msk.addr ≤ a && a ≤ LNK_ALARMMSK1_msk.addr) ||
  a = LNK_WIREMSG_en.addr || a = LNK_MSGCTL_en.addr || a = LNK_MSGTXA_dst.addr || a = LNK_MSGTXB_dst.addr ||
  ((LNK_TXBUFA_data 0).addr ≤ a && a < (LNK_TXBUFA_data 0).addr + 220) || ((LNK_TXBUFB_data 0).addr ≤ a && a < (LNK_TXBUFB_data 0).addr + 220)

/-- An address lies in one block of R496. -/
def inBlock (b a : Nat) : Bool := a / 0x10000 = 0x4000 + b

/-- Registers a full reset leaves as they stand (R21, R84, R528, R529, R112, and the tables of spec/05, spec/06 and spec/19). -/
def fullKept (a : Nat) : Bool :=
  (inBlock 0xB a && !linkResetReg a) || inBlock 0x15 a || inBlock 0x14 a || a = SYS_STRAP_role.addr || a = SYS_RSTCAUSE_por.addr ||
  a = SYS_RAILOK_aux.addr || a = SYS_SUPPLY_wcore.addr || a = CKR_STATUS_xamp.addr || a = CKR_RUN_clk.addr || a = CKR_LOCKLOSS_root.addr ||
  a = PWR_BOOTTRY_n.addr || a = PWR_DEGSEEN_seen.addr || a = IMG_PREV_code.addr || a = FAB_BANKV_v33.addr

/-- Registers that hold through power-on reset: the always-on domain's, and what follows detectors (R112, R528). -/
def porKept (a : Nat) : Bool :=
  inBlock 0x15 a || a = SYS_RAILOK_aux.addr || a = CKR_STATUS_xamp.addr || a = FAB_BANKV_v33.addr

/-- A field carried over from another state. -/
def copyF (f : Fld) (src : State) (s : State) : State := setF f (getF f src) s

/-! Clocks (R76 to R83). -/

/-- The root PLL starts when XIN swings, no reset holds it and VDD_AUX is valid (R78). -/
def pllTry (s : State) : State :=
  if isSet CKR_STATUS_xamp s && !s.power.por && !s.power.hold && isSet SYS_RAILOK_aux s && !isSet CKR_STATUS_rootlock s then
    { s with power := { s.power with pllStarting := true } }
  else s

/-- Both car link ports start (R41): hunting, and sending free-running frames. -/
def linkStart (s : State) : State :=
  applyAll [LinkSide.a, LinkSide.b] (fun p t => setLink p { linkOf p (setRxState p .hunt t) with tx := .free, cands := [] } (setRxState p .hunt t)) s

/-! Full reset (R84 to R86, R103). -/

/-- A reset source acts: its bit is set. -/
def rstCause (f : Fld) (s : State) : State := setB f true s

/-- The internal full reset begins (R84, R85): what it reaches takes its reset values, the mode becomes BARE, a failed boot is counted, and a
ledger save is asked for at its start (R476). A source that acts while one is in progress only sets its bit (R86). Two points are the model's
choice: the wire records that wait are dropped, since no rule keeps their queue (log entry 84), and a full reset taken in BARE changes no mode
and leaves PWR_MODE.prev as it stands (log entry 85). -/
def fullReset (cause : Fld) (s : State) : State :=
  if s.power.por then s
  else if s.power.hold then rstCause cause s
  else
    let old := mode s
    let s0 := ledgerSave s
    let t : State := {
      pending := s.pending, bus := s.bus, outbox := s.outbox, freeCount := s.freeCount
      regs := keepRegs fullKept s0.regs
      aon := s.aon, fuse := s.fuse, store := s.store, wear := s0.wear
      wires := { s.wires with records := [] }, linkA := s.linkA, linkB := s.linkB, keys := { scan := s.keys.scan }
      power := { classKept := s.power.classKept, classHigh := s.power.classHigh, pfailLow := s.power.pfailLow, resetLow := s.power.resetLow
                 firstAct := s.power.firstAct, fromMain := s.power.fromMain, hold := true } }
    let t1 := copyF CKR_EVT_clkfault s (setF PWR_MODE_mode mBare (setF PWR_MODE_prev (if old = mBare then getF PWR_MODE_prev s else old) t))
    let t2 := setB CKR_STATUS_rootlock false (setB CKR_STATUS_ddrlock false (setF CKR_RUN_clk 0 t1))
    let t3 := if old = mLoading || old = mBuilding then setF PWR_BOOTTRY_n (min 4 (getF PWR_BOOTTRY_n s + 1)) t2 else t2
    rstCause cause t3

/-- RESET_N_ASSERT (R85): the filtered level is low. -/
def execResetNAssert (s : State) : Out :=
  .next <| fullReset SYS_RSTCAUSE_resetn { s with power := { s.power with resetLow := true } }

/-- RESET_N_RELEASE (R85). -/
def execResetNRelease (s : State) : Out := .next { s with power := { s.power with resetLow := false } }

/-- FULL_RESET_END (R85): at least 10 µs, and RESET_N high; the boot proceeds. -/
def execFullResetEnd (s : State) : Out :=
  .next <| onlyIf (s.power.hold && !s.power.resetLow) (fun s => pllTry { s with power := { s.power with hold := false } }) s

/-- A clock fault (R83). -/
def clockFault (s : State) : State :=
  fullReset SYS_RSTCAUSE_clkfault (setB CKR_EVT_clkfault true (incF CKR_LOCKLOSS_root 1 s))

/-- CLOCK_FAULT (R83): the root PLL has been out of lock for 1 µs. -/
def execClockFault (s : State) : Out := .next <| onlyIf (isSet CKR_STATUS_rootlock s) clockFault s

/-- ROOT_PLL_LOCK_LOSS (R83): a loss that ends in less than 1 µs has no effect that is promised. -/
def execRootPllLockLoss (s : State) : Out := .next s

/-- XIN_AMPLITUDE_GOOD (R77). -/
def execXinAmplitudeGood (s : State) : Out :=
  .next <| onlyIf s.power.supplies (fun s => pllTry (setB CKR_STATUS_xamp true s)) s

/-- XIN_STABLE (R77, R41): the ports start when power-on reset is released. -/
def execXinStable (s : State) : Out :=
  .next <| onlyIf (isSet CKR_STATUS_xamp s && !isSet CKR_STATUS_xstable s) (fun s =>
    let s1 := setB CKR_STATUS_xstable true s
    if s1.power.por then s1 else linkStart s1) s

/-- ROOT_PLL_LOCK (R78, R79, R91): main clocks run from one common clear; the cores start the boot ROM; `us` since the boot's start. -/
def execRootPllLock (us : Nat) (s : State) : Out :=
  .next <| onlyIf s.power.pllStarting (fun s =>
    setF SYS_T_PLL_us us <| setF CKR_RUN_clk 0xFF <| setB CKR_STATUS_rootlock true
      { s with ticks := 0, power := { s.power with pllStarting := false, tick := true, cores := .bootRom } }) s

/-! Power-on reset (R73, R102, R121). -/

/-- CKR_STATUS without VDD_CORE or VDDIO0: no oscillator, no PLL and no detector of a reference runs (R76, R77, R528). -/
def clocksDark (s : State) : State :=
  setB CKR_STATUS_xamp false <| setB CKR_STATUS_xstable false <| setB CKR_STATUS_rootlock false <| setB CKR_STATUS_ddrlock false <|
    setF CKR_STATUS_sdslock 0 <| setB CKR_STATUS_pcieref false s

/-- POWER_ON_RESET_ASSERT (R73, R99, R102): VDD_CORE or VDDIO0 has fallen below its fail threshold. BACKUP follows when the always-on domain
has a supply, with its log entry from one of the modes 2 to 11; else OFF. The main domain's detectors lose their supply and show nothing
(R528). In OFF the spec does not say what becomes of the always-on domain's contents until it powers up from no supply: the model keeps them as
they stand (log entry 86). -/
def execPowerOnResetAssert (rail : Rail) (vbatOk : Bool) (s : State) : Out :=
  .next <| onlyIf (!s.power.por && (rail == .vcore || rail == .io0)) (fun s =>
    let old := mode s
    let onVbat := rail == .io0
    let keep := !onVbat || vbatOk
    let s0 : State := {
      pending := s.pending, bus := s.bus, outbox := s.outbox, freeCount := s.freeCount
      regs := keepRegs porKept s.regs
      aon := { s.aon with onVbat := onVbat, alarms := 0, first := 0, vbatRun := onVbat }
      fuse := s.fuse, store := s.store, wires := { inLevel := s.wires.inLevel }
      power := { por := true, supplies := false, pfailLow := s.power.pfailLow, resetLow := s.power.resetLow, fromMain := true
                 classKept := s.power.classKept, classHigh := s.power.classHigh } }
    let s1 := setF PWR_MODE_prev old (clocksDark s0)
    if keep then aonLog 5 0 false (setF PWR_MODE_mode mBackup s1)
    else setF PWR_MODE_mode mOff { s1 with power := { s1.power with fromMain := false } }) s

/-- Every field of the always-on domain's registers. -/
def aonFields : List Fld :=
  regTableAON.flatMap fun d => (List.range d.n1).flatMap fun i => (List.range d.n2).flatMap fun j =>
    d.fields.map fun f => f.fld (d.base + i * d.s1 + j * d.s2)

/-- AON_SUPPLY_LOSS (R99, R116): below 2.0 V with VDDIO0 invalid the mode is OFF, and nothing of the domain's contents is promised. -/
def execAonSupplyLoss (s : State) : Out :=
  .next <| onlyIf (s.power.por && mode s = mBackup && s.aon.onVbat) (fun s =>
    let s1 := applyAll aonFields setFree s
    let a := drawFree 32 s1
    let b := drawFree 15 a.2
    let s2 := { b.2 with aon := { b.2.aon with sec := a.1, frac := b.1, writes := [], holding := false }
                         power := { b.2.power with fromMain := false } }
    setF PWR_MODE_mode mOff (setF PWR_MODE_prev mBackup s2)) s

/-- VDDIO0 is valid while power-on reset is asserted: the always-on domain runs from it, and OFF becomes BACKUP (R71, R99). -/
def domainOnIo0 (s : State) : State :=
  let s1 := { s with aon := { s.aon with onVbat := false } }
  if mode s1 = mOff then setMode mBackup s1 else s1

/-- SUPPLIES_VALID (R73, R71, R99): VDD_CORE and VDDIO0 are above their thresholds; the domain runs from VDDIO0. -/
def execSuppliesValid (s : State) : Out :=
  .next <| onlyIf s.power.por (fun s => domainOnIo0 { s with power := { s.power with supplies := true } }) s

/-- What a return from BACKUP records (R121). -/
def wakeCause (s : State) : State :=
  let b (f : Fld) (i : Nat) (t : State) : State := if s.aon.alarms.testBit i then setB f true t else t
  setF AON_WAKECAUSE_first s.aon.first <| b AON_WAKECAUSE_rtc 0 <| b AON_WAKECAUSE_wake0 1 <| b AON_WAKECAUSE_wake1 2 <|
    b AON_WAKECAUSE_tamper 3 <| b AON_WAKECAUSE_vbatlow 4 <|
    (if s.aon.vbatRun then setB AON_WAKECAUSE_vbatrun true else id) <| setB AON_WAKECAUSE_backup true s

/-- POWER_ON_RESET_RELEASE (R73, R90, R99, R102, R121): straps sampled, mode BARE, the return from BACKUP recorded, the ledger loaded. -/
def execPowerOnResetRelease (role boot : Nat) (wpol : Bool) (s : State) : Out :=
  .next <| onlyIf (s.power.por && s.power.supplies && role < 4 && boot < 4) (fun s =>
    let back := s.power.fromMain
    let s1 := setMode mBare { s with power := { s.power with por := false, fromMain := false, firstAct := true, hold := s.power.resetLow } }
    let s2 := setF SYS_STRAP_role role (setF SYS_STRAP_bootsrc boot (setB SYS_STRAP_wpol wpol (setF LNK_WIREPOL_pol (if wpol then 15 else 0) s1)))
    let s3 := setB SYS_SUPPLY_pfnow (!s2.power.pfailLow) s2
    let s4 := if s3.power.resetLow then rstCause SYS_RSTCAUSE_resetn s3 else s3
    let s5 := if back then wakeCause (aonLog 6 0 false s4) else s4
    let s6 := ledgerLoad back s5
    pllTry (if isSet CKR_STATUS_xstable s6 then linkStart s6 else s6)) s

/-! DEGRADED causes (R106, R107). -/

/-- The access and backbone ports of lane group g that are bound in a SerDes mode. -/
def sdsPorts (s : State) : List Nat := (List.range 12).filter fun p => let m := portMode p s; 1 ≤ m && m ≤ 3

/-- The image uses the cabinet. -/
def cabinetUsed (s : State) : Bool := s.str.cabinet ≠ []

/-- The used tiles of a bank. -/
def bankTiles (b : Nat) (s : State) : List Nat := (usedTiles s).filter fun n => n / 8 = b

/-- A tile stops where it stands, its pins high-impedance: frames for it are flushed and counted (R106). -/
def tileDown (n : Nat) (s : State) : State :=
  let s1 := setTileBit FAB_RUN0_run FAB_RUN1_run n false s
  if isCan n s then canGoto n 0 (setCan n { canOf n (canFlush n s1) with onBus := none, stopping := false } (canFlush n s1))
  else serQuiet n 0 (serFlush n s1)

/-- A tile waits for its start, awake (R93). -/
def tileWaits (n : Nat) (s : State) : State :=
  let s1 := setUnit WKS_ASLEEPA_t WKS_ASLEEPB_t WKS_ASLEEPB_p n false s
  if isCan n s1 then setF (CAN_STAT_state n) 1 s1 else setF (SER_STAT_state n) 1 s1

/-- The PCIe link is down: its state, the enables of its function, and the reads it held are dropped (R357, R362). -/
def pcieDown (s : State) : State :=
  setB BRG_STAT_link false <| setF BRG_STAT_gen 0 <| setF BRG_STAT_width 0
    { s with brg := { s.brg with master := false, msixOn := false, funcMask := false, bars := [0, 0, 0], d3hot := false
                                 fetches := s.brg.fetches.map fun e => (e.1, { e.2 with held := 0 }) } }

/-- The boot ROM's backbone ports, both of lane group 0, lose their lanes (R72, R83, R92). -/
def bootPortsDown (s : State) : State :=
  applyAll [0, 1] (fun p t => if bootPort p s then setB (ETH_STAT_link p) false t else t) { s with eth := { s.eth with bootLinks := 0 } }

/-- They come back with VDD_SDS and the group's PLL where the boot ROM had brought them up: it keeps them up until the cut-over (R92; log
entry 87). -/
def bootPortsBack (s : State) : State :=
  if s.eth.bootUp && !serving s && isSet SYS_RAILOK_sds s then { s with eth := { s.eth with bootLinks := 3 } } else s

/-- The host interfaces are served: from root PLL lock on (R36, R357); a reset and STANDBY stop the PLL. -/
def hostsUp (s : State) : Bool := isSet CKR_STATUS_rootlock s

/-- The QSPI slave hears its wires, which stand on VDDIO1 (R70, R72, R357). -/
def qspiUp (s : State) : Bool := hostsUp s && isSet BRG_CFG_qspi s && isSet SYS_RAILOK_io1 s

/-- The PCIe link may train: its lanes have VDD_SDS and the reference (R70, R72, R83, R357). -/
def pcieUp (s : State) : Bool := hostsUp s && isSet BRG_CFG_pcie s && isSet CKR_STATUS_pcieref s && isSet SYS_RAILOK_sds s

/-- What a cause fences as it is set (R106, R197, R202, R455, R466). -/
def fence (c : Nat) (units : List Nat) (s : State) : State :=
  match c with
  | 0 => applyAll units tileDown s
  | 1 => applyAll units portStop s
  | 2 => applyAll units portStop s
  | 3 => applyAll units portStop s
  | 4 => lampsOff (List.range 24) (coastAll 15 s)
  | 5 => refreshAdc (coastAll 15 s)
  | 6 => applyAll ((s.ink.lodgers.filter fun e => e.2.present && !e.2.resident).map (·.1)) fenceLodger s
  | 7 => declare (fun l _ => l.owner = rqTag .pcie) (rqTag .pcie) 7 (pcieDown s)
  | _ => s

/-- A DEGRADED cause is set (R106, R108, R110): recorded, its units fenced, STANDBY met, the mode following. -/
def setCause (c : Nat) (units : List Nat) (s : State) : State :=
  if !serving s then s
  else
    let s1 := orF PWR_DEGSEEN_seen (2 ^ c) (orF PWR_DEGRADE_cause (2 ^ c) s)
    refreshMode (standbyTrigger 4 (fence c units s1))

/-- A DEGRADED cause clears. -/
def clearCause (c : Nat) (s : State) : State := refreshMode (clrF PWR_DEGRADE_cause (2 ^ c) s)

/-- Every used SerDes port's lane group has its supply and its lock, or is stopped for sleep. -/
def sdsWhole (s : State) : Bool :=
  isSet SYS_RAILOK_sds s && (sdsPorts s).all fun p => (getF CKR_STATUS_sdslock s).testBit (p / 4) || s.power.sdsStopped.testBit (p / 4)

/-- The SYS_RAILOK bit of a rail. -/
def railField : Rail → Option Fld
  | .aux => some SYS_RAILOK_aux
  | .io1 => some SYS_RAILOK_io1
  | .io2 => some SYS_RAILOK_io2
  | .io3 => some SYS_RAILOK_io3
  | .sds => some SYS_RAILOK_sds
  | .ddq => some SYS_RAILOK_ddq
  | .t1s => some SYS_RAILOK_t1s
  | .adc => some SYS_RAILOK_adc
  | _ => none

/-- A rail shown valid or not. -/
def showRail (r : Rail) (ok : Bool) (s : State) : State :=
  match r with
  | .tbank b => if ok then orF SYS_RAILOK_tbank (2 ^ b) s else clrF SYS_RAILOK_tbank (2 ^ b) s
  | _ => match railField r with
    | some f => setB f ok s
    | none => s

/-- A rail's bit in the classes kept: 0 VDDIO1, 1 VDDIO2, 2 + b VDDIO_Tb (R501). -/
def classBit : Rail → Option Nat
  | .io1 => some 0
  | .io2 => some 1
  | .tbank b => some (2 + b)
  | _ => none

/-- The cause that a failed rail sets, when the image uses its units (R106). -/
def railCause (r : Rail) (s : State) : State :=
  match r with
  | .tbank b => if bankTiles b s = [] then s else setCause 0 (bankTiles b s) s
  | .io2 =>
    let ps := (List.range 12).filter fun p => portMode p s = 4
    if ps = [] then s else setCause 1 ps s
  | .sds =>
    let t := bootPortsDown (pcieDown { s with power := { s.power with sdsStarting := 0 } })
    if sdsPorts t = [] then t else setCause 2 (sdsPorts t) t
  | .t1s =>
    let ps := [12, 13, 14, 15].filter fun p => portUsed p s
    if ps = [] then s else setCause 3 ps s
  | .io3 => if cabinetUsed s then setCause 4 [] s else s
  | .adc => if cabinetUsed s then setCause 5 [] s else refreshAdc s
  | .ddq => if s.power.ddrFitted then setCause 6 [] s else s
  | _ => s

/-- RAIL_WARN_CROSSING (R72): the bit in SYS_SUPPLY, and event 4. -/
def execRailWarnCrossing (r : Rail) (s : State) : Out :=
  .next <| onlyIf (!s.power.por) (fun s =>
    match r with
    | .vcore => raise 4 (setB SYS_SUPPLY_wcore true s)
    | .io0 => raise 4 (setB SYS_SUPPLY_wio0 true s)
    | .aux => raise 4 (setB SYS_SUPPLY_waux true s)
    | _ => s) s

/-- The rail is one that SYS_RAILOK shows. -/
def railShown : Rail → Bool
  | .vcore => false
  | .io0 => false
  | .tbank b => b < 6
  | _ => true

/-- A rail is shown valid. -/
def railOk (r : Rail) (s : State) : Bool :=
  match r with
  | .tbank b => (getF SYS_RAILOK_tbank s).testBit b
  | _ => ((railField r).map fun f => isSet f s).getD false

/-- RAIL_FAIL_CROSSING (R72, R83, R106): a rail other than VDD_CORE and VDDIO0 fails; VDD_AUX is a clock fault. VDDIO0's fail while
power-on reset is asserted puts the always-on domain on VBAT (R71); either of the two delays its release (R73) and stops the oscillator, so
that both detectors of XIN fall (R76, R77). -/
def execRailFailCrossing (r : Rail) (s : State) : Out :=
  .next <|
    if r == .io0 && s.power.por then
      clocksDark { s with aon := { s.aon with onVbat := true, vbatRun := true }, power := { s.power with supplies := false } }
    else if r == .vcore && s.power.por then clocksDark { s with power := { s.power with supplies := false } }
    else onlyIf (railShown r && railOk r s) (fun s =>
      let s0 := match classBit r with
        | some k => { s with power := { s.power with classKept := natAndNot s.power.classKept (2 ^ k) } }
        | none => s
      if s.power.por then showRail r false s0
      else
        let s1 := raise 4 (setB SYS_SUPPLY_railfail true (showRail r false s0))
        if r == .aux then
          (if isSet CKR_STATUS_rootlock s1 then clockFault s1
           else { s1 with power := { s1.power with pllStarting := false } })
        else railCause r s1) s

/-- Every used bank is supplied. -/
def banksWhole (s : State) : Bool := (List.range 6).all fun b => bankTiles b s = [] || (getF SYS_RAILOK_tbank s).testBit b

/-- What a valid rail gives back (R106): a cause clears when its condition is whole again. -/
def railBack (r : Rail) (s : State) : State :=
  match r with
  | .aux => pllTry s
  | .tbank b =>
    if serving s && (causes s).testBit 0 && bankTiles b s ≠ [] then
      let s1 := refreshBase (applyAll ((bankTiles b s).filter fun n => !inDeltaBanks n s || getF IMG_DLTSTAT_state s < 4) tileWaits s)
      if banksWhole s1 then clearCause 0 s1 else s1
    else s
  | .io2 => clearCause 1 s
  | .sds => bootPortsBack (if sdsWhole s then clearCause 2 s else s)
  | .t1s => clearCause 3 s
  | .io3 => clearCause 4 s
  | .adc => refreshAdc (clearCause 5 s)
  | _ => s

/-- RAIL_VALID (R70, R71, R106, R501): the rail's own detector reports it valid; a selectable bank takes its class once per rise, from its
reading in mV. VDDIO0 valid takes the always-on domain from VBAT while VDD_CORE may still be low. -/
def execRailValid (r : Rail) (classMv : Option Nat) (s : State) : Out :=
  .next <| if r == .io0 then onlyIf s.power.por domainOnIo0 s
    else onlyIf (railShown r && !railOk r s) (fun s =>
    let s1 := match classBit r, classMv with
      | some k, some mv =>
        if s.power.classKept.testBit k then s
        else
          let high := mv ≥ (if k = 1 then 2150 else 2200)
          let t := { s with power := { s.power with
            classKept := s.power.classKept ||| 2 ^ k
            classHigh := if high then s.power.classHigh ||| 2 ^ k else natAndNot s.power.classHigh (2 ^ k) } }
          if k ≥ 2 then (if high then orF FAB_BANKV_v33 (2 ^ (k - 2)) t else clrF FAB_BANKV_v33 (2 ^ (k - 2)) t) else t
      | _, _ => s
    railBack r (showRail r true s1)) s

/-- PLL_LOCK_LOSS_OTHER (R83, R106). -/
def execPllLockLossOther (p : SidePll) (s : State) : Out :=
  .next <| match p with
    | .ddr => onlyIf (isSet CKR_STATUS_ddrlock s) (fun s =>
        let s1 := raise 8 (setB CKR_EVT_ddrloss true (incF CKR_LOCKLOSS_other 1 (setB CKR_STATUS_ddrlock false s)))
        if s1.power.ddrFitted then setCause 6 [] s1 else s1) s
    | .sds g => onlyIf (g < 4 && (getF CKR_STATUS_sdslock s).testBit g) (fun s =>
        let s1 := raise 8 (orF CKR_EVT_sdsloss (2 ^ g) (incF CKR_LOCKLOSS_other 1 (clrF CKR_STATUS_sdslock (2 ^ g) s)))
        let s2 := if g = 0 then bootPortsDown s1 else s1
        let ps := (sdsPorts s2).filter fun q => q / 4 = g
        if ps = [] then s2 else setCause 2 ps s2) s
    | .pcieRef => onlyIf (isSet CKR_STATUS_pcieref s) (fun s =>
        let s1 := pcieDown (raise 8 (setB CKR_EVT_pcieloss true (setB CKR_STATUS_pcieref false s)))
        if isSet BRG_CFG_pcie s1 then setCause 7 [] s1 else s1) s

/-- SERDES_PLL_RELOCK (R82, R106): the PLL of a lane group locks. -/
def execSerdesPllRelock (g : Nat) (s : State) : Out :=
  .next <| onlyIf (g < 4 && isSet SYS_RAILOK_sds s && !s.power.sdsStopped.testBit g) (fun s =>
    let s0 := orF CKR_STATUS_sdslock (2 ^ g) s
    let s1 := if g = 0 then bootPortsBack s0 else s0
    if sdsWhole s1 then clearCause 2 s1 else s1) s

/-- PCIE_REF_STABLE (R106): the reference has been present for 1 ms. -/
def execPcieRefStable (s : State) : Out := .next <| clearCause 7 (setB CKR_STATUS_pcieref true s)

/-! Supply interruption (R74, R111). -/

/-- The units PWR_SHED selects are shed. -/
def shed (s : State) : State :=
  let acc := if isSet PWR_SHED_acc s then 0x0FF0 else 0
  let t1s := if isSet PWR_SHED_t1s s then 0xF000 else 0
  let s1 := groupsOff (getF PWR_SHED_lmp s) (coastAll (getF PWR_SHED_mot s) s)
  let ps := (List.range 16).filter fun p => (acc ||| t1s).testBit p && portUsed p s1
  setB PWR_STATUS_shed true (applyAll ps portStop { s1 with power := { s1.power with shedPorts := acc ||| t1s } })

/-- PFAIL_FALL (R74, R111, R476): recorded, event 4, a ledger save, and shedding from the cut-over on. -/
def execPfailFall (s : State) : Out :=
  .next <| onlyIf (!s.power.pfailLow) (fun s =>
    let s1 := { s with power := { s.power with pfailLow := true } }
    if s1.power.por then s1
    else
      let s2 := ledgerSave (raise 4 (setB SYS_SUPPLY_pfail true (setB SYS_SUPPLY_pfnow false s1)))
      if serving s2 then shed s2 else s2) s

/-- PFAIL_RISE (R74). -/
def execPfailRise (s : State) : Out :=
  .next <|
    let s1 := { s with power := { s.power with pfailLow := false } }
    if s1.power.por then s1 else setB SYS_SUPPLY_pfnow true s1

/-- PFAIL_RESTORE_EXPIRY (R111): PFAIL_N has read high for PWR_SHED.restore ms; the ports may come up. -/
def execPfailRestoreExpiry (s : State) : Out :=
  .next <| onlyIf (!s.power.pfailLow && isSet PWR_STATUS_shed s) (fun s =>
    setB PWR_STATUS_shed false { s with power := { s.power with shedPorts := 0 } }) s

/-! World resets and watchdogs (R84, R87 to R89, R107). -/

/-- A byte of a world's RAM: secure RAM and the LPDDR4 only the secure world reaches, uncovered or of attribute 1; LPDDR4 of a region whose
attribute names the normal world (R84, R413; log entry 24). The lodger contexts are neither world's. -/
def ramOf (w : World) (a : Nat) (s : State) : Bool :=
  if w == .secure then inSecRam a || (inDdr a s && !inContexts a s && regionAttr a s == 1)
  else inDdr a s && !inContexts a s && (regionAttr a s == 2 || regionAttr a s == 3)

/-- A world's RAM is wiped (R84). -/
def wipeRam (w : World) (s : State) : State := { s with mem := s.mem.filter fun c => !ramOf w c.1 s }

/-- The secure watchdog's count restarts from its period (R88). -/
def wdsRestart (s : State) : State := { s with power := { s.power with wds := getF SYS_WDS_CTL_period s } }

/-- A world reset (R84, R86, R107): absorbed by a full reset in progress; only recorded before the cut-over and in QUARANTINE. -/
def worldReset (w : World) (cause : Fld) (decl : Nat) (s : State) : State :=
  let s1 := rstCause cause s
  if s.power.hold || !serving s then s1
  else
    let s2 := declareWorld w decl (ringsReset w (canWorldReset w (wipeRam w s1)))
    let s3 := if w == .normal then
        setB SYS_WDN_CTL_en false (setF SYS_WDN_CTL_period 1000 (setB SYS_WDN_STAT_first false (setF SYS_WDN_STAT_left 0 s2)))
      else wdsRestart s2
    setCause (if w == .secure then 8 else 9) [] s3

/-- A write of SYS_RSTCTL (R89). -/
def rstctlWrite (rq : Requester) (action key : Nat) (s : State) : State :=
  if key ≠ 0x52A7 then busError s
  else match action with
    | 1 => secureOnly rq 0x40000010 (fun s => fullReset SYS_RSTCAUSE_swsys (busDone s)) s
    | 2 => worldReset .normal SYS_RSTCAUSE_swworld 2 (busDone s)
    | 3 => secureOnly rq 0x40000010 (fun s => worldReset .secure SYS_RSTCAUSE_swworld 2 (busDone s)) s
    | _ => busDone s

/-- SYSTEM_SOFTWARE_RESET (R89). -/
def cmdSystemSoftwareReset (rq : Requester) (key : Nat) (s : State) : State := rstctlWrite rq 1 key s

/-- The same under the rights of its requester. -/
def execSystemSoftwareReset (rq : Requester) (key : Nat) (s : State) : Out :=
  .next (gate rq true 0x40000010 0 (cmdSystemSoftwareReset rq key) s)

/-- NORMAL_WORLD_RESET_CMD (R89). -/
def cmdNormalWorldResetCmd (rq : Requester) (key : Nat) (s : State) : State := rstctlWrite rq 2 key s

/-- The same under the rights of its requester. -/
def execNormalWorldResetCmd (rq : Requester) (key : Nat) (s : State) : Out :=
  .next (gate rq true 0x40000010 0 (cmdNormalWorldResetCmd rq key) s)

/-- SECURE_WORLD_RESET_CMD (R89). -/
def cmdSecureWorldResetCmd (rq : Requester) (key : Nat) (s : State) : State := rstctlWrite rq 3 key s

/-- The same under the rights of its requester. -/
def execSecureWorldResetCmd (rq : Requester) (key : Nat) (s : State) : Out :=
  .next (gate rq true 0x40000010 0 (cmdSecureWorldResetCmd rq key) s)

/-- The normal watchdog's count restarts from its period (R87). -/
def wdnRestart (s : State) : State := setF SYS_WDN_STAT_left (getF SYS_WDN_CTL_period s) s

/-- A write of SYS_WDN_CTL (R87): a period of 0 is reserved; en can only be set. -/
def wdnWrite (w : Word) (s : State) : State :=
  if wbits w 16 16 = 0 then busError s
  else
    let s1 := setF SYS_WDN_CTL_period (wbits w 16 16) (busDone s)
    if w.getLsbD 0 && !isSet SYS_WDN_CTL_en s then wdnRestart (setB SYS_WDN_CTL_en true s1) else s1

/-- NORMAL_WATCHDOG_ENABLE (R87). -/
def cmdNormalWatchdogEnable (_rq : Requester) (w : Word) (s : State) : State := wdnWrite w s

/-- The same under the rights of its requester. -/
def execNormalWatchdogEnable (rq : Requester) (w : Word) (s : State) : Out :=
  .next (gate rq true 0x40000020 0 (cmdNormalWatchdogEnable rq w) s)

/-- A write of SYS_WDN_KICK (R87). -/
def wdnKick (key : Nat) (s : State) : State :=
  if key = 0xA55A && isSet SYS_WDN_CTL_en s then wdnRestart (setB SYS_WDN_STAT_first false (busDone s)) else busDone s

/-- NORMAL_WATCHDOG_KICK (R87). -/
def cmdNormalWatchdogKick (_rq : Requester) (key : Nat) (s : State) : State := wdnKick key s

/-- The same under the rights of its requester. -/
def execNormalWatchdogKick (rq : Requester) (key : Nat) (s : State) : Out :=
  .next (gate rq true 0x40000024 0 (cmdNormalWatchdogKick rq key) s)

/-- NORMAL_WATCHDOG_EXPIRY (R87): event 9 and a new count; without a kick since, a normal world reset. -/
def execNormalWatchdogExpiry (s : State) : Out :=
  .next <| onlyIf (isSet SYS_WDN_CTL_en s && s.power.tick) (fun s =>
    if isSet SYS_WDN_STAT_first s then worldReset .normal SYS_RSTCAUSE_wdn 1 s
    else raise 9 (wdnRestart (setB SYS_WDN_STAT_first true s))) s

/-- SECURE_WATCHDOG_KICK (R88): from the secure world; the count shows in no register. -/
def cmdSecureWatchdogKick (rq : Requester) (key : Nat) (s : State) : State :=
  secureOnly rq 0x40000034 (fun s => if key = 0xA55A then wdsRestart (busDone s) else busDone s) s

/-- The same under the rights of its requester. -/
def execSecureWatchdogKick (rq : Requester) (key : Nat) (s : State) : Out :=
  .next (gate rq true 0x40000034 0 (cmdSecureWatchdogKick rq key) s)

/-- SECURE_WATCHDOG_EXPIRY (R88): it runs from the boot ROM's hand-over until a full reset. -/
def execSecureWatchdogExpiry (s : State) : Out :=
  .next <| onlyIf (serving s && s.power.tick) (fun s => raise 10 (worldReset .secure SYS_RSTCAUSE_wds 1 s)) s

/-- A write of PWR_READY (R107). -/
def readyWrite (rq : Requester) (w : Word) (s : State) : State :=
  if rqSecure rq then
    if w.getLsbD 0 then busError s else if w.getLsbD 1 then clearCause 8 (busDone s) else busDone s
  else
    if w.getLsbD 1 then busError s else if w.getLsbD 0 then clearCause 9 (busDone s) else busDone s

/-- PWR_READY_WRITE (R107). -/
def cmdPwrReadyWrite (rq : Requester) (w : Word) (s : State) : State := readyWrite rq w s

/-- The same under the rights of its requester. -/
def execPwrReadyWrite (rq : Requester) (w : Word) (s : State) : Out :=
  .next (gate rq true 0x40020014 0 (cmdPwrReadyWrite rq w) s)

/-! STANDBY (R108 to R110). -/

/-- A request is refused with a reason. -/
def standbyRefuse (why : Nat) (s : State) : State := setB PWR_STATUS_refused true (setF PWR_STATUS_why why s)

/-- A write of PWR_MODEREQ (R108). -/
def modeReqWrite (w : Word) (s : State) : State :=
  let req := wbits w 0 4
  let m := mode s
  if !keyed 0x5D3B w || !(req = 0 || req = 8) then busError s
  else if req = 0 then busDone s
  else
    let s1 := busDone s
    if s1.power.standby ≠ .none then standbyRefuse 6 s1
    else if getF PWR_MODE_base s1 ≠ mPartial || !(m = mPartial || m = mDegraded) then standbyRefuse 1 s1
    else if (usedUnits s1).any fun u => !unitAsleep u s1 then standbyRefuse 2 s1
    else if (List.range 4).any fun k => motorState k s1 ≠ 0 then standbyRefuse 3 s1
    else if causes s1 ≠ 0 then standbyRefuse 4 s1
    else
      let s2 := lampsOff (List.range 24) s1
      { s2 with power := { s2.power with standby := .waitCores, cores := .waiting } }

/-- STANDBY_REQUEST (R108). -/
def cmdStandbyRequest (_rq : Requester) (w : Word) (s : State) : State := modeReqWrite w s

/-- The same under the rights of its requester. -/
def execStandbyRequest (rq : Requester) (w : Word) (s : State) : Out :=
  .next (gate rq true 0x40020004 0 (cmdStandbyRequest rq w) s)

/-- STANDBY_CORE_WAIT_TIMEOUT (R108, R109): 10 ms; the entry is undone with why 5. -/
def execStandbyCoreWaitTimeout (s : State) : Out :=
  .next <| onlyIf (s.power.standby == .waitCores) (fun s =>
    standbyRefuse 5 { s with power := { s.power with standby := .none, cores := .running } }) s

/-- Every lodger's period restarts (R110). -/
def restartPeriods (s : State) : State :=
  { s with ink := { s.ink with lodgers := s.ink.lodgers.map fun e =>
      if e.2.present then (e.1, { e.2 with left := lodgerBudget e.1 s, carry := 0, periodStart := s.ticks, suspended := false }) else e } }

/-- The time base advanced by nanoseconds. -/
def advanceNs (ns : Nat) (s : State) : State :=
  let t := nowNs s + ns
  { s with time := { s.time with sec := t / 1000000000 % 2 ^ 48, ns := t % 1000000000 } }

/-- STANDBY_EXIT (R110, R351, R486): the clocks run again; the time base takes the counted CK_REF cycles; the mode is PARTIAL, or DEGRADED when
a cause is set; the sources held take effect, and every held raise takes place once. -/
def execStandbyExit (refCycles : Nat) (s : State) : Out :=
  .next <| onlyIf (s.power.standby == .exiting) (fun s =>
    let s1 := setB CKR_STATUS_rootlock true (setF CKR_RUN_clk 0xFF
      (advanceNs (40 * refCycles) { s with power := { s.power with standby := .none, tick := true, cores := .running } }))
    let s2 := wakeRelease (restartPeriods s1)
    let s3 := setF PWR_MODE_prev mStandby (setF PWR_MODE_mode (if causes s2 ≠ 0 then mDegraded else mPartial) s2)
    let s4 := releaseHeld { s3 with evc := { s3.evc with held := s3.evc.held ||| 2 ^ 3 } }
    refreshAdc (refreshBase s4)) s

/-! Lifecycle (R393). -/

/-- LIFECYCLE_BURN_DONE (R393): the fuse is burned, and a system software reset follows. -/
def execLifecycleBurnDone (s : State) : Out :=
  .next <| match s.keys.burning with
    | none => s
    | some t => fullReset SYS_RSTCAUSE_swsys { s with fuse := burnFuse t s.fuse, keys := { s.keys with burning := none } }

end Sys2Proof.Machine
end

