-- ==== Sys2Proof/Machine/Ploilhan.lean ====
section
/-! DEFINITION. Ploilhan messages: their frames, check values, counters, sending and relaying (R375 to R378, R390). -/

namespace Sys2Proof.Machine

/-! Message types (R390). -/
abbrev pHEARTBEAT := 1
abbrev pJOIN := 2
abbrev pCARAVAN := 3
abbrev pIMAGEBLOCK := 4
abbrev pFARREAD := 5
abbrev pFARWRITE := 6
abbrev pEVENT := 7
abbrev pWEARREPORT := 8
abbrev pTAKEOVER := 9
abbrev pREVOKE := 10

/-- The roles of R373. -/
abbrev roleWorker := 0
abbrev roleManager := 1
abbrev roleStandby := 2
abbrev roleSpare := 3
abbrev roleRestricted := 4
abbrev roleNone := 7

/-- The part's own position, 63 while it has none. -/
def sposOf (s : State) : Nat := if isSet LNK_STATUS_posv s then getF LNK_STATUS_pos s else 63

/-- The device ID held; 255 none. -/
def ownId (s : State) : Nat := getF HIE_STAT_id s

/-- The acting role. -/
def ownRole (s : State) : Nat := getF HIE_STAT_role s

/-- The part is admitted, or the manager. -/
def admitted (s : State) : Bool := isSet HIE_STAT_adm s

/-- The unit takes part: by POLICY flag 5, or as a part without an image in force (R92, R373, R376). -/
def hieActive (s : State) : Bool := hieOn s || (!serving s && mode s ≥ mLoading)

/-- One Ethernet frame of a message (R375): header, payload and tag in `body`; the boot class carries no VLAN tag. -/
def hieFrame (src dst : Nat) (boot : Bool) (body : List Byte) (s : State) : List Byte :=
  let da : List Byte := [0x07, 0x48, 0x80, 0x50, 0x4C, BitVec.ofNat 8 dst]
  let sa : List Byte := [0x06, 0x48, 0x80, 0x50, 0x4C, BitVec.ofNat 8 src]
  if boot then da ++ sa ++ beBytes 2 0x88B5 ++ body
  else da ++ sa ++ vlanTag 7 s.str.policy.vlan ++ beBytes 2 s.str.policy.ethertype ++ body

/-- The 24 header bytes (R390). -/
def hieHeader (type src dst : Nat) (boot : Bool) (pos len epoch counter : Nat) : List Byte :=
  [1, BitVec.ofNat 8 type, BitVec.ofNat 8 src, BitVec.ofNat 8 dst, if boot then 1 else 0, BitVec.ofNat 8 pos] ++ beBytes 2 len ++
    beBytes 4 epoch ++ beBytes 8 counter ++ [0, 0, 0, 0]

/-- A frame leaves by a backbone port in class 7: through the switch core, or straight from the boot ROM (R92, R378). -/
def hieOut (p : Nat) (boot : Bool) (f : List Byte) (s : State) : State :=
  if serving s then
    if portUsed p s then
      unitFrame { src := 18, tc := 7, lossless := true, dmask := 2 ^ p, vid := if boot then 0 else s.str.policy.vlan, time := stamp s } f s
    else s
  else if bootPort p s then emit (.note "backbone" [p] f) s
  else s

/-- The backbone ports a message for a destination leaves by (R378): the one that faces a known position, otherwise both. -/
def portsTo (dst : Nat) (s : State) : List Nat :=
  let front := getF FWT_BBCFG_front s
  let rear := getF FWT_BBCFG_rear s
  let pos := tabGet 0 s.hie.poss dst
  if dst = 255 || pos = 0 || sposOf s = 63 || pos - 1 = sposOf s then (if front = rear then [front] else [front, rear])
  else if pos - 1 < sposOf s then [front] else [rear]

/-- The consist key's slot, loaded where it is not (R376, R408). -/
def consistSlot (s : State) : Option Nat × State := hwLoad 5 s.str.policy.consistKey 8 s

/-- The next counter (R377): HIE_SESSION and the messages sent; a wrap takes a new session from the ledger store. -/
def nextCounter (s : State) : Nat × State :=
  let c := getF HIE_SESSION_session s * 2 ^ 32 + s.hie.sent
  if s.hie.sent + 1 < 2 ^ 32 then (c, { s with hie := { s.hie with sent := s.hie.sent + 1 } })
  else
    let n := (s.store.session + 1) % 2 ^ 32
    let s1 := storeWrite 3 0 { s with store := { s.store with session := n }, hie := { s.hie with sent := 0 } }
    (c, setF HIE_SESSION_session n s1)

/-- A message is sent (R375 to R378); an authenticated one whose tag cannot be made is not (R422). -/
def hieSend (type dst : Nat) (boot : Bool) (payload : List Byte) (s : State) : State :=
  let src := ownId s
  let go (body : List Byte) (s : State) : State :=
    incF HIE_TXCNT_cnt 1 (applyAll (portsTo dst s) (fun p t => hieOut p boot (hieFrame src dst boot body t) t) s)
  if boot then
    go (hieHeader type src dst true (sposOf s) payload.length 0 0 ++ payload ++ List.replicate 16 0) s
  else
    match consistSlot s with
    | (none, s1) => s1
    | (some k, s1) =>
      let c := nextCounter s1
      let msg := hieHeader type src dst false (sposOf s) payload.length (getF FWT_EPOCH_epoch s) c.1 ++ payload
      match hwCmac (slotOf k c.2).key msg 0 c.2 with
      | (none, s2) => s2
      | (some tag, s2) => go (msg ++ tag) s2

/-! Receiving. -/

/-- The body of a hierarchy frame: header, payload and tag. -/
def hieBody (f : List Byte) : List Byte := f.drop (etOff f + 2)

/-- Payload bytes a header names. -/
def bodyLen (b : List Byte) : Nat := beNat (slice b 6 2)

/-- The message a body spells. -/
def parseMsg (p : Nat) (b : List Byte) : PMsg :=
  { port := p, type := (slice b 1 1 |> beNat), src := beNat (slice b 2 1), dst := beNat (slice b 3 1), boot := (slice b 4 1 |> beNat) % 2 = 1
    spos := beNat (slice b 5 1) % 64, epoch := beNat (slice b 8 4), counter := beNat (slice b 12 8), payload := slice b 24 (bodyLen b) }

/-- n bytes of a payload as a number, most significant first. -/
def PMsg.at (m : PMsg) (o n : Nat) : Nat := beNat (slice m.payload o n)

/-- The port opposite the one a message came by (R378). -/
def opposite (p : Nat) (s : State) : Nat :=
  if p = getF FWT_BBCFG_front s then getF FWT_BBCFG_rear s else getF FWT_BBCFG_front s

/-- A received frame goes on by the opposite port as it came (R92, R378). -/
def relay (p : Nat) (f : List Byte) (s : State) : State :=
  if opposite p s = p then s
  else hieOut (opposite p s) ((beNat (slice (hieBody f) 4 1)) % 2 = 1) f s

/-- The oldest accepted message, taken where it is of a type and passes a test; otherwise the event cannot occur (log entry 5). -/
def takeMsg (type : Nat) (ok : PMsg → Bool) (g : PMsg → State → State) (s : State) : State :=
  match s.hie.inbox with
  | [] => s
  | m :: r => if m.type = type && ok m then g m { s with hie := { s.hie with inbox := r } } else s

end Sys2Proof.Machine
end

