-- ==== Sys2Proof/Machine/Loader.lean ====
section
/-! DEFINITION. The boot ROM and the loader from BARE to the end of BUILDING (spec/03, spec/05, spec/06): the root of a new lifecycle
state, the boot source, the checks of R152 in order, and what BUILDING prepares in shadow. -/

namespace Sys2Proof.Machine

/-- BOOTSRC names the manager as the source (R90). -/
def flashless (s : State) : Bool := getF SYS_STRAP_bootsrc s = 3

/-- The rails the boot source needs are valid (R91). -/
def bootRails (s : State) : Bool := isSet SYS_RAILOK_aux s && (if flashless s then isSet SYS_RAILOK_sds s else isSet SYS_RAILOK_io1 s)

/-- The straps are valid (R90). -/
def strapsOk (s : State) : Bool := getF SYS_STRAP_role s ≠ 3 && !(getF SYS_STRAP_role s = 1 && flashless s)

/-- The boot ROM brings up backbone ports 0 and 1 where VDD_SDS is valid (R92). -/
def bringUp (s : State) : State := if isSet SYS_RAILOK_sds s then { s with eth := { s.eth with bootLinks := 3, bootUp := true } } else s

/-- LPDDR4 counts as fitted exactly when VDDQ is valid as the mode leaves BARE (R91, R502). -/
def ddrDecide (s : State) : State := { s with power := { s.power with ddrFitted := isSet SYS_RAILOK_ddq s } }

/-- The generation table at the first boot in a state (R395): node 0 live with generation 1, every other free. -/
def clearNodes (s : State) : State :=
  applyAll (List.range 16) (storeWrite 1) { s with store := { s.store with nodes := [(0, { state := .live, gen := 1 })] } }

/-- The root of the lifecycle state, at its first boot (R394, R395): area A, area B where A was started and not completed, and fuse s
where both were. -/
def genRoot (s : State) : State :=
  let lc := lifecycle s
  let f := s.fuse
  if lc = 0 || lc = 5 || f.aDone.testBit lc || f.bDone.testBit lc then s
  else if !f.aStart.testBit lc then
    clearNodes { s with fuse := { f with aStart := f.aStart ||| 2 ^ lc, aDone := f.aDone ||| 2 ^ lc } }
  else if !f.bStart.testBit lc then
    clearNodes { s with fuse := { f with bStart := f.bStart ||| 2 ^ lc, bDone := f.bDone ||| 2 ^ lc } }
  else { s with fuse := { f with s := true } }

/-- The boot ROM instantiates the DRBG (R436). -/
def drbgStart (s : State) : State :=
  if isSet DRG_STAT_fail s then s else setB DRG_STAT_inst true { s with drg := {} }

/-- The code and place of a failure (R154). -/
def showFail (f : ImgFail) (s : State) : State :=
  setF IMG_STATUS_code f.code (setF IMG_STATUS_sect f.sect (setF IMG_DETAIL_rec f.idx (setF IMG_DETAIL_off f.off s)))

/-- The part enters QUARANTINE with a failure (R102, R154): the cause is kept, the alarms of LNK_ALARMSET are cleared, the cores report. -/
def quarantine (f : ImgFail) (s : State) : State :=
  let s1 := setF IMG_STATUS_phase 7 (setF IMG_PREV_code f.code (showFail f s))
  setMode mQuarantine (setF LNK_ALARMSET0_set 0 (setF LNK_ALARMSET1_set 0
    { s1 with power := { s1.power with cores := .reporting }, loader := {} }))

/-- The read command of the header phase in the strap's mode, and its dummy cycles (R151): 1-1-1, 1-4-4, 8-8-8 DTR. -/
def headerCommand (s : State) : List Byte × Nat :=
  match getF SYS_STRAP_bootsrc s with
  | 0 => ([0x03], 0)
  | 1 => ([0xEB], 6)
  | _ => ([0xEE, 0x11], 20)

/-- Where the slot in use begins in the flash (R151). -/
def slotOffset (s : State) : Nat := if getF IMG_STATUS_slot s = 0 then 0 else 0x00800000

/-- The loader reads flash (R151): the strap's mode, CKR_SPIDIV, the slot's offset plus the first byte, how many bytes, the dummy cycles; the command. -/
def flashRead (off n dummy : Nat) (cmd : List Byte) (s : State) : State :=
  emit (.note "flash-read" [getF SYS_STRAP_bootsrc s, getF CKR_SPIDIV_div s, slotOffset s + off, n, dummy] cmd) s

/-- The header phase begins (R151): the clock at 25 MHz, the header read with the mode's own command. -/
def headerPhase (s : State) : State :=
  let s1 := setF IMG_STATUS_phase 1 (setF CKR_SPIDIV_div 0 (setB IMG_STATUS_capped false s))
  flashRead 0 128 (headerCommand s1).2 (headerCommand s1).1 s1

/-- A full image fails (R154): slot 0 of flash with a code from 0x10 to 0x4D leads to slot 1, anything else to QUARANTINE. -/
def loadFail (f : ImgFail) (s : State) : State :=
  if !flashless s && getF IMG_STATUS_slot s = 0 && 0x10 ≤ f.code && f.code ≤ 0x4D then
    headerPhase <| setF IMG_STATUS_slot 1 <| setB IMG_STATUS_fallback true <| setF IMG_CODE0_code f.code { s with loader := {} }
  else quarantine f s

/-- An IMAGE_BLOCK request for pieces (R385, R391): the image wanted (0 any), the first piece and how many. -/
def requestPieces (img first count : Nat) (s : State) : State :=
  hieSend pIMAGEBLOCK 0 true ([1, 0, 0, 0] ++ beBytes 4 img ++ beBytes 2 first ++ beBytes 2 count ++ leBytes 8 s.fuse.ident) s

/-- LOADING_ENTRY (R91, R92, R99, R394): from BARE once the root PLL is locked and the boot source's rails are valid; whether LPDDR4 is
fitted is decided now; BLANK and SCRAPPED fail with LIFECYCLE. -/
def execLoadingEntry (s : State) : Out :=
  .next <| onlyIf (mode s = mBare && !s.power.por && !s.power.hold && isSet CKR_STATUS_rootlock s && bootRails s && strapsOk s &&
      getF PWR_BOOTTRY_n s ≤ 3) (fun s =>
    let s1 := drbgStart <| genRoot (ddrDecide s)
    let s2 := bringUp (setMode mLoading s1)
    if lifecycle s2 = 0 || lifecycle s2 = 5 then quarantine ⟨fLIFECYCLE, 0, 0, 0⟩ s2
    else if flashless s2 then requestPieces 0 0 1 (setF IMG_STATUS_phase 8 s2)
    else headerPhase s2) s

/-- BOOT_QUARANTINE (R90, R91, R99, R103): four failed boots in a row, or invalid straps; BARE is left once the root PLL is locked and the
rails of the boot source are valid. -/
def execBootQuarantine (s : State) : Out :=
  .next <| onlyIf (mode s = mBare && !s.power.por && !s.power.hold && isSet CKR_STATUS_rootlock s && bootRails s &&
      (getF PWR_BOOTTRY_n s = 4 || !strapsOk s))
    (fun s => quarantine ⟨if getF PWR_BOOTTRY_n s = 4 then fBOOTTRY else fSTRAP, 0, 0, 0⟩ (bringUp (ddrDecide s))) s

/-- The modes in which the loader reads a full image: LOADING, and BUILDING once slot 0 has failed there (R154). -/
def loading (s : State) : Bool := mode s = mLoading || mode s = mBuilding

/-- The flash clock divider taken from the header (R151), and whether it was reduced. -/
def spiDivider (h : List Byte) (s : State) : Nat × Bool :=
  if getF SYS_STRAP_bootsrc s = 2 && s.power.classHigh.testBit 0 && hdSpidiv h = 5 then (4, true) else (hdSpidiv h, false)

/-- IMAGE_HEADER_CHECK (R72, R151, R152): steps 2 to 4 on the header read from flash, on VDDIO1; then the flash clock rises, and the rest is
read with the header's command and dummy cycles. -/
def execImageHeaderCheck (hdr : List Byte) (s : State) : Out :=
  .next <| onlyIf (loading s && getF IMG_STATUS_phase s = 1 && isSet SYS_RAILOK_io1 s && hdr.length = 128) (fun s =>
    match checkHeader hdr false s with
    | some f => loadFail f s
    | none =>
      let d := spiDivider hdr s
      flashRead 128 (hdLen hdr - 128) (leAt hdr 0x26 1) [BitVec.ofNat 8 (leAt hdr 0x25 1)] <|
        setF IMG_STATUS_phase 2 (setF CKR_SPIDIV_div d.1 (setB IMG_STATUS_capped d.2 { s with loader := { s.loader with header := hdr } }))) s

/-! Pieces of a flashless load (R165, R385). -/

/-- Bytes of chunk k of an image of the given length: chunk c of piece i is chunk 4i + c. -/
def chunkLen (len k : Nat) : Nat := min 1024 (len - 1024 * k)

/-- Every chunk of the image has arrived. -/
def piecesWhole (s : State) : Bool :=
  match s.loader.pieceId with
  | none => false
  | some (_, len) => (List.range ((len + 1023) / 1024)).all fun k => (tabGet [] s.loader.pieces k) ≠ []

/-- The image the pieces make. -/
def piecesImage (s : State) : List Byte := s.loader.pieces.flatMap (·.2)

/-- The image under check has been read whole: of the length and with the header that passed. -/
def imageRead (img : List Byte) (s : State) : Bool :=
  if flashless s then s.loader.head && piecesWhole s && img == piecesImage s
  else getF IMG_STATUS_phase s = 2 && isSet SYS_RAILOK_io1 s && img.length = hdLen s.loader.header && img.take 128 == s.loader.header

/-- IMAGE_VERIFY (R152, R99): steps 6 to 10; BUILDING follows, or the failure's outcome. -/
def execImageVerify (img : List Byte) (s : State) : Out :=
  .next <| onlyIf (loading s && !s.loader.accepted && imageRead img s) (fun s =>
    match checkImage img s with
    | some f => loadFail f s
    | none =>
      let s1 := if mode s = mLoading then
          wearBump 0x0502 0 1 (setF SYS_T_LOAD_us (getF SYS_T_PLL_us s + s.ticks) (setMode mBuilding s))
        else s
      setF KST_IKSTAT_used (sigByte img 1) <| setF IMG_STATUS_phase 5 { s1 with loader := { header := img.take 128, next := structureOf img {}, nextDigest := imageDigest img, accepted := true } }) s

/-! Tables (R135, R136, R155, R161). -/

/-- FWT_TBASE and FWT_TENT of a placed table. -/
def tableRegs (t : TableRec) (s : State) : State :=
  setF (FWT_TBASE_base (t.type - 1)) t.base <| setF (FWT_TENT_entries (t.type - 1)) t.entries <|
    setB (FWT_TENT_shadow (t.type - 1)) (t.flags.testBit 0) <| setB (FWT_TENT_learn (t.type - 1)) (t.flags.testBit 1) s

/-- An initial entry: in the tables found by key at its candidate place, in the others in order; L2/stream entries as static (R161). -/
def initEntry (t : TableRec) (i : Nat) (s : State) : State :=
  let e := slice t.init (i * entSize t.type) (entSize t.type)
  if t.type = 1 then
    let x := l2Bytes { l2Of e with stat := true }
    match (cands 1 (entKey 1 x) s).find? fun j => !entValid 1 (entRd 1 j s) with
    | some j => entWr 1 j x s
    | none => s
  else if t.type = 2 then
    match (cands 2 (entKey 2 e) s).find? fun j => !entValid 2 (entRd 2 j s) with
    | some j => entWr 2 j e s
    | none => s
  else entWr t.type i e s

/-- Seeds and bank map of the L2/stream table at their reset values. -/
def seedsReset (s : State) : State :=
  setF FWT_BANKMAP_b0 0 <| setF FWT_BANKMAP_b1 1 <| setF FWT_BANKMAP_b2 2 <| setF FWT_BANKMAP_b3 3 <| setF FWT_BANKMAP_sh 4 <|
    applyAll (List.range 4) (fun b t => setF (FWT_L2SEED_seed b) (FWT_L2SEED_seed b).reset t) s

/-- Tables with their base, placed around the regions that stand (R136). -/
def placed (taken : List Region) (l : List TableRec) : List TableRec :=
  (placeAuto (taken ++ fixedRegions l) (byType l)).getD []

/-- Table memory with new tables built in it; their registers are not touched (R155, R171). -/
def buildTables (l : List TableRec) (s : State) : List Host.Cell :=
  let s1 := applyAll l (fun t u => { u with fwt := { u.fwt with tmem := u.fwt.tmem.filter fun c => !(t.base ≤ c.1 && c.1 < t.base + tableBytes t) } }) s
  let s2 := seedsReset (applyAll l tableRegs s1)
  (applyAll l (fun t u => applyAll (List.range t.initN) (initEntry t) u) s2).fwt.tmem

/-- BUILD (R155): LPDDR4 initialised where fitted, tables placed and built, key handles resolved; every register stays in shadow. -/
def execBuild (ddrOk : Bool) (s : State) : Out :=
  .next <| onlyIf (mode s = mBuilding && s.loader.accepted && !s.loader.built) (fun s =>
    let x := s.loader.next
    let s0 := if s.power.ddrFitted && ddrOk then setB CKR_STATUS_ddrlock true s else s
    match checkBuild ddrOk x s0 with
    | some f => loadFail f s0
    | none =>
      let ts := placed [] x.tables
      let s1 := { s0 with fwt := { s0.fwt with tmem := [] } }
      { s1 with fwt := { s1.fwt with tmem := buildTables ts s1 }, loader := { s1.loader with next := { x with tables := ts }, built := true } }) s

end Sys2Proof.Machine
end

