-- ==== Sys2Proof/Machine/CutOver.lean ====
section
/-! DEFINITION. The cut-over that ends BUILDING and what follows it: the register layers of R163, the pools and lodgers, the mode, the
event controller, tile starts and the allowance ramp (spec/03, spec/04, spec/06). -/

namespace Sys2Proof.Machine

/-! Tiles (R157 to R159, R163). -/

/-- The address lies in the register window or the message RAM of tile n. -/
def inTile (n a : Nat) : Bool := (tileWindow a && tileOfAddr a = n) || (ramWindow a && ramTile a = n)

/-- A tile without a function: nothing of its windows is kept. -/
def tileClear (n : Nat) (s : State) : State :=
  let s1 := { s with regs := s.regs.filter fun e => !inTile n (keyAddr e.1)
                     can := tabDrop s.can n, ser := tabDrop s.ser n }
  let s2 := setF (FAB_FUNC_fn (n / 8) (n % 8)) 0 <| setF (FAB_TPIN_pins n) 0xFFFFFFFF <| setF (FAB_TCFG_pipe n) 0 <|
    setF (FAB_TCFG_tc n) 0 <| setB (FAB_TCFG_wake n) false <| setF (FAB_TCFG_lodger n) 0xFFFF s1
  setTileBit FAB_PRIOPEND0_p FAB_PRIOPEND1_p n false (setTileBit FAB_RUN0_run FAB_RUN1_run n false (setTileBit FAB_QUIET0_q FAB_QUIET1_q n false s2))

/-- A tile made into its function (R163): it waits for its start. -/
def tileForm (t : TileRec) (s : State) : State :=
  let n := t.tile
  let pins := (List.range 4).foldl (fun v j => v + (t.pins.getD j 255) * 2 ^ (8 * j)) 0
  let s1 := setF (FAB_FUNC_fn (n / 8) (n % 8)) t.func <| setF (FAB_TPIN_pins n) pins <| setF (FAB_TCFG_pipe n) t.pipe <|
    setF (FAB_TCFG_tc n) t.tc <| setB (FAB_TCFG_wake n) (t.flags.testBit 0) <| setF (FAB_TCFG_lodger n) t.lodger (tileClear n s)
  if t.func ≤ 2 then setF (CAN_STAT_state n) 1 s1
  else
    let s2 := setF (SER_STAT_state n) 1 s1
    if t.func = 3 || t.func = 4 then setF (SER_BAUD_div n) 33333 s2 else s2

/-! Ports (R132, R309, R315). -/

/-- The address lies in the window of port p. -/
def inPort (p a : Nat) : Bool := portWindow a && portOfAddr a = p

/-- The binding of a port of 0 to 15 shown in its registers; a T1S coordinator is active at once (R93, R315). -/
def portForm (b : BindRec) (s : State) : State :=
  if b.port < 12 then setF (ETH_CFG_mode b.port) b.mode s
  else if b.port < 16 then setF (T1S_PLCACFG_id (b.port - 12)) b.plcaId (setF (T1S_PLCACFG_cnt (b.port - 12)) b.plcaCnt s)
  else s

/-- A port starts with its binding (R93): a coordinator with its supply opens its first cycle. -/
def portStart (p : Nat) (s : State) : State :=
  if 12 ≤ p && p < 16 && getF (T1S_PLCACFG_id (p - 12)) s = 0 && portLive p s then plcaUp p s else s

/-! The cabinet (R141, R163). -/

/-- A CABINET record's values in its registers. -/
def cabForm (c : CabRec) (s : State) : State :=
  match c with
  | .motor m poles comm sense rev pwm imax rpm vsoft vhard vtrip chop =>
    setF (MOT_CFG_poles m) poles <| setF (MOT_CFG_comm m) comm <| setF (MOT_CFG_sense m) sense <| setF (MOT_CFG_rev m) rev <|
      setF (MOT_CFG_chop m) chop <| setB (MOT_CFG_used m) true <| setF (MOT_PWM_pwm m) pwm <| setF (MOT_LIM_imax m) imax <|
      setF (MOT_LIM_rpm m) rpm <| setF (MOT_VTH0_vsoft m) vsoft <| setF (MOT_VTH0_vhard m) vhard <| setF (MOT_VTH1_vtrip m) vtrip s
  | .group g ilimit => setF (LMP_GCFG_ilimit g) ilimit s
  | .lamp n flags retries inom iinr tinr cool hshort =>
    setB (LMP_CCFG0_used n) (flags.testBit 0) <| setF (LMP_CCFG0_retries n) retries <| setF (LMP_CCFG0_inom n) inom <|
      setF (LMP_CCFG1_iinr n) iinr <| setF (LMP_CCFG1_tinr n) tinr <| setF (LMP_CCFG2_cool n) cool <| setF (LMP_CCFG2_hshort n) hshort s

/-! POLICY (R139, R163) and REGSET (R143). -/

/-- The values POLICY feeds. -/
def policyForm (p : PolicyRec) (s : State) : State :=
  setB HIE_CFG_en (p.flags.testBit 5) <| setB HIE_CFG_byid (p.flags.testBit 2) <| setB HIE_CFG_serve (p.flags.testBit 3) <|
    setF HIE_CFG_devid p.devid <| setF HIE_CFG_sbid p.sbid <|
    setF LNK_WIRESRC_src1 (bitsOf p.wsrc 0 3) <| setF LNK_WIRESRC_src2 (bitsOf p.wsrc 3 3) <| setF LNK_WIRESRC_src3 (bitsOf p.wsrc 6 3) <|
    setF SYS_WDS_CTL_period p.wdsPeriod <|
    setF PWR_SHED_mot (bitsOf p.shed 0 4) <| setF PWR_SHED_lmp (bitsOf p.shed 4 4) <| setF PWR_SHED_acc (bitsOf p.shed 8 1) <|
    setF PWR_SHED_t1s (bitsOf p.shed 9 1) <| setF PWR_SHED_restore p.restore <|
    setF LNK_WIREMSG_en (bitsOf p.wiremsg 0 1) <| setF LNK_WIREMSG_cpu (bitsOf p.wiremsg 1 1) <| setF LNK_WIREMSG_hie (bitsOf p.wiremsg 2 1) <|
    setF LNK_WIREMSG_tc (bitsOf p.wiremsg 4 3) <| setF LNK_WIREMSG_ring (bitsOf p.wiremsg 8 5) <|
    setF LNK_MSGCTL_en (bitsOf p.msgctl 0 1) <| setF LNK_MSGCTL_tc (bitsOf p.msgctl 1 3) <| setF LNK_MSGCTL_ring (bitsOf p.msgctl 8 5) <|
    debounceLength p.wdeb (applyPolarity (p.wpol % 16) s)

/-- One REGSET record takes effect; registers that show a selected object set that object. -/
def presetReg (r : RegRec) (s : State) : State :=
  let v := r.value
  if r.addr = SWC_CBCFG_len.addr then
    let k := getF SWC_CBSEL_sh s
    setCb k { cbOf k s with len := bitsOf v 0 6, pop := v.testBit 6, en := v.testBit 7, reset := bitsOf v 16 16 } s
  else if r.addr = FWT_RHSWAP_swap.addr then (if v.testBit 0 then bankSwap s else s)
  else if tileWindow r.addr && isCan (tileOfAddr r.addr) s && 0x400 ≤ r.addr % 0x1000 && 0x10 ≤ r.addr % 0x20 then
    freshWrite (tileOfAddr r.addr) (r.addr % 0x1000 / 0x20 - 0x20) (r.addr % 0x20 = 0x14) v s
  else match findReg r.addr s with
    | none => s
    | some d =>
      let x : Staged := { addr := r.addr, value := v, sel := getF SWC_VLSEL_vid s }
      if inBlock 7 r.addr && d.fields.any fun f => f.acc == .lk then applyStaged x s
      else writeFields Acc.presettable d r.addr v s

/-- REGSET in record order, then the admin lists of the ports it touched (R143, R222). -/
def applyRegset (l : List RegRec) (s : State) : State :=
  applyAll ((List.range 12).filter fun p => l.any fun r => gatePort { addr := r.addr, value := 0, sel := 0 } == some p) gateCommit
    (applyAll l presetReg s)

/-! Pools and lodgers (R160, R162). -/

/-- The Hostel divided (R160), with both arbiter pointers at 0 (R181). -/
def formPools (s : State) : State :=
  let n := 49152 - 4096 - sumGuar s.str
  setF INK_POOLSIZE_size n <| setF INK_POOLFREE_free n <| setF INK_POOLMIN_min n <| setB INK_ALLOCSTAT_empty (n = 0) <|
    setF INK_ALLOCSTAT_gptr 0 (setF INK_ALLOCSTAT_pptr 0 s)

/-- The lodgers in the order in which their contexts become resident (R162). -/
def residentOrder (l : List LodgerRec) : List Nat :=
  let asc := (List.range 256).filter fun i => l.any fun r => r.lid = i
  let pin (i : Nat) : Bool := l.any fun r => r.lid = i && r.flags.testBit 0
  asc.filter pin ++ asc.filter fun i => !pin i

/-- A lodger's context begins anew: its first period starts now and its signals have never been received (R162, R270). One that was fenced
stays so until a full reset, one that finds no place while DEGRADED cause 6 is set is fenced (R197), and a pinned one takes a place (R195). -/
def lodgerNew (lid : Nat) (s : State) : State :=
  let t : State := { s with trn := { s.trn with
    slots := s.trn.slots.filter fun e => e.1 / 1024 ≠ lid
    packed := s.trn.packed.filter fun e => e.1 / 65536 ≠ lid
    sent := s.trn.sent.filter fun e => e.1 / 256 ≠ lid
    deferred := s.trn.deferred.filter fun e => e / 256 ≠ lid
    cnts := s.trn.cnts.filter fun e => e.1 / 16 ≠ lid } }
  let room := contextsBut lid t < 32
  let l : Lodger := { present := true, left := lodgerBudget lid t, periodStart := t.ticks, fenced := (lodgerOf lid s).fenced }
  if l.fenced then setLodger lid l t
  else if room then setLodger lid { l with resident := true } t
  else if (causes t).testBit 6 then setLodger lid { l with fenced := true } t
  else if lodgerPinned lid t then pinIn lid (setLodger lid l t)
  else setLodger lid l t

/-! The hierarchy at the cut-over (R95, R259, R373, R377, R382). -/

/-- Every cut-over takes a new session number from the ledger store; a manager takes its epoch and listens; others draw their delay. -/
def hieStart (s : State) : State :=
  if !hieOn s then s
  else
    let n := (s.store.session + 1) % 2 ^ 32
    let s1 := storeWrite 3 0 (setF HIE_SESSION_session n { s with store := { s.store with session := n }, hie := {} })
    let s2 := match consistSlot s1 with
      | (some k, t) => setSlot k { slotOf k t with users := (slotOf k t).users + 1 } t
      | (none, t) => t
    match getF SYS_STRAP_role s2 with
    | 1 =>
      let e := (s2.store.epoch + 1) % 2 ^ 32
      setF FWT_EPOCH_epoch e <| setF HIE_STAT_role roleManager <| setB HIE_STAT_adm true <| setB HIE_STAT_probe true <| setF HIE_STAT_id 0 <|
        setF HIE_STAT_mpos (sposOf s2) (storeWrite 3 0 { s2 with store := { s2.store with epoch := e } })
    | r =>
      let d := drbgBytes 1 s2
      let s3 := { d.2 with hie := { d.2.hie with delay := leAt d.1 0 1 % 64 } }
      if r = 0 then setF HIE_STAT_role roleWorker s3 else s3

/-! DEGRADED causes at the cut-over (R99, R106). -/

/-- The causes whose condition stands for units the image uses. -/
def standing (s : State) : List (Nat × List Nat) :=
  let c (k : Nat) (b : Bool) (u : List Nat) : List (Nat × List Nat) := if b then [(k, u)] else []
  let dead := (usedTiles s).filter fun n => !bankPowered n s
  let rgmii := (List.range 12).filter fun p => portMode p s = 4
  let t1s := [12, 13, 14, 15].filter fun p => portUsed p s
  c 0 (dead ≠ []) dead ++ c 1 (rgmii ≠ [] && !isSet SYS_RAILOK_io2 s) rgmii ++ c 2 (sdsPorts s ≠ [] && !sdsWhole s) (sdsPorts s) ++
    c 3 (t1s ≠ [] && !isSet SYS_RAILOK_t1s s) t1s ++ c 4 (cabinetUsed s && !isSet SYS_RAILOK_io3 s) [] ++
    c 5 (cabinetUsed s && !isSet SYS_RAILOK_adc s) [] ++
    c 6 (s.power.ddrFitted && !(isSet SYS_RAILOK_ddq s && isSet CKR_STATUS_ddrlock s)) [] ++
    c 7 (isSet BRG_CFG_pcie s && !isSet CKR_STATUS_pcieref s) []

/-- They are recorded and their units fenced; the mode follows separately. -/
def recordCauses (l : List (Nat × List Nat)) (s : State) : State :=
  applyAll l (fun c t => fence c.1 c.2 (orF PWR_DEGSEEN_seen (2 ^ c.1) (orF PWR_DEGRADE_cause (2 ^ c.1) t))) s

/-! The event controller (R485, R121). -/

/-- The controller becomes active and raises the deferred events in ascending number. -/
def evcActivate (s : State) : State :=
  let first := s.power.firstAct
  let e := [1] ++ (if first && isSet AON_WAKECAUSE_backup s then [5] else []) ++ (if first && getF AON_LOGSTAT_unread s ≠ 0 then [6] else []) ++
    (if isSet CKR_EVT_clkfault s then [8] else [])
  let s1 := setB EVC_CTL_act true { s with power := { s.power with firstAct := false } }
  applyAll e raiseNow s1

/-! The cut-over (R156). -/

/-- IMG_CURDIG takes a digest (R148). -/
def showDigest (d : List Byte) (s : State) : State :=
  applyAll (List.range 12) (fun i => setF (IMG_CURDIG_dig i) (leAt d (4 * i) 4)) s

/-- Valid entries of the L2/stream table. -/
def countL2 (s : State) : State := setF FWT_COUNT_valid ((List.range (tabIndexes 1 s)).filter fun i => entValid 1 (entRd 1 i s)).length s

/-- TRN_IDX shows the index entries and source timers the lodgers in force use (R271, R281). -/
def trnIndex (s : State) : State :=
  setF TRN_IDX_entries (s.str.lodgers.map fun l => rcNin l.recipe).sum <|
    setF TRN_IDX_timers (s.str.lodgers.map fun l => recipeTimers s.str l).sum s

/-- Every register of the structure takes its value in the order of R163. -/
def formAll (x : Structure) (s : State) : State :=
  let s1 := applyAll x.tiles tileForm { s with str := x }
  let s2 := applyAll x.cabinet cabForm (applyAll x.binds portForm s1)
  let s3 := trnIndex (countL2 (applyAll x.tables tableRegs s2))
  applyRegset x.regset (policyForm x.policy s3)

/-- CUT_OVER (R93 to R97, R99, R102, R156, R163, R485): the whole structure becomes active at once. -/
def execCutOver (s : State) : Out :=
  .next <| onlyIf (mode s = mBuilding && s.loader.built) (fun s =>
    let h := s.loader.header
    let x := s.loader.next
    let d := s.loader.nextDigest
    let s1 := formAll x { s with loader := {}, eth := { s.eth with bootLinks := 0, bootUp := false }, power := { s.power with cores := .running, wds := x.policy.wdsPeriod } }
    let s2 := applyAll [0, 1] (fun p => setB (ETH_STAT_link p) false) s1
    let s3 := formPools (applyAll (residentOrder x.lodgers) lodgerNew s2)
    let s4 := setF IMG_ID_id (hdImageId h) <| setF IMG_VERSION_version (hdVersion h) <| setF IMG_SECVER_secver (hdSecver h) <|
      setF IMG_LEN_len (hdLen h) <| setF IMG_STATUS_phase 6 (showDigest d s3)
    let s5 := setF SYS_T_SERVICE_us (getF SYS_T_PLL_us s4 + s4.ticks) <| setF PWR_BOOTTRY_n 0 <| setF PWR_MODE_base mService s4
    let s6 := recordCauses (standing s5) (hieStart s5)
    let s7 := setMode (if x.policy.flags.testBit 0 then mWorkshop else if causes s6 ≠ 0 then mDegraded else mService) s6
    let s8 := applyAll (x.binds.map (·.port)) portStart (evcActivate (if isSet BRG_CFG_pcie s7 then s7 else pcieDown s7))
    let s9 := ratedChanged (refreshAdc s8)
    if s9.power.pfailLow then shed s9 else s9) s

/-! Tile starts (R93, R324, R340) and the ramp (R94). -/

/-- SYS_STARTUP after a tile has started or the ramp has moved: the used tiles that have started so far, whatever became of them since. -/
def startup (s : State) : State :=
  let n := (usedTiles s).filter fun n => s.power.started.testBit n
  setB SYS_STARTUP_done (getF SYS_STARTUP_ramp s = 50 && n.length = (usedTiles s).length) (setF SYS_STARTUP_tiles n.length s)

/-- The tile waits for its start: state 1, awake, with its supply. -/
def tileReady (n : Nat) (s : State) : Bool :=
  n < 48 && tileUsed n s && bankPowered n s && !unitAsleep n s && (if isCan n s then canState n s = 1 else serState n s = 1)

/-- Its turn has come: no tile that was woken with it and starts before it still waits (R351). -/
def startTurn (n : Nat) (s : State) : Bool :=
  s.wks.order.all fun l => !l.contains n || (l.takeWhile (· ≠ n)).all fun m => !tileReady m s

/-- The tile may start. -/
def tileDue (n : Nat) (s : State) : Bool := tileReady n s && startTurn n s

/-- TILE_START (R93, R106, R175, R324, R340): a used tile starts. A CAN tile integrates first, or is in bus-off again where it fell
asleep there; a serial tile runs. -/
def execTileStart (n : Nat) (s : State) : Out :=
  .next <| onlyIf (tileDue n s) (fun s =>
    let s0 := { s with power := { s.power with started := s.power.started ||| 2 ^ n } }
    let s1 := setTileBit FAB_RUN0_run FAB_RUN1_run n true s0
    startup <|
      if isCan n s then
        let c := canOf n s1
        if c.sleptOff then
          canGoto n (if getF (CAN_CFG_bor n) s1 = 0 then 6 else 5) (setCan n { c with sleptOff := false } s1)
        else canGoto n 2 s1
      else if isLin n s then linWakeStart n s1 else serStart n s1) s

/-- CAN_INTEGRATION_DONE (R93, R299): 11 recessive bits; error active, or passive by its counters. -/
def execCanIntegrationDone (n : Nat) (s : State) : Out :=
  .next <| onlyIf (n < 48 && isCan n s && canState n s = 2)
    (fun s => canGoto n (if getF (CAN_ERR_tec n) s ≥ 128 || getF (CAN_ERR_rec n) s ≥ 128 then 4 else 3) s) s

/-- ALLOWANCE_RAMP_TICK (R94): m rises to 50. -/
def execAllowanceRampTick (s : State) : Out :=
  .next <| onlyIf (serving s && getF SYS_STARTUP_ramp s < 50) (fun s => startup (incF SYS_STARTUP_ramp 1 s)) s

end Sys2Proof.Machine
end

