-- ==== Sys2Proof/Machine/Delta.lean ====
section
/-! DEFINITION. Delta sessions, their deliveries, and RECONFIG (R166 to R178; the checks of R144 to R146). -/

namespace Sys2Proof.Machine

/-! The session (R166, R177). -/

/-- The word of a register as its fields stand. -/
def regWord (a : Nat) (s : State) : Nat := ((findReg a s).map fun d => readWord d a s).getD 0

/-- A command or delivery is refused. -/
def deltaRefuse (why : Nat) (s : State) : State := setB IMG_DLTSTAT_refused true (setF IMG_DLTSTAT_why why s)

/-- A session of a remote manager answers with IMAGE_BLOCK op 7 (R386). -/
def deltaReport (owner : Nat) (s : State) : State :=
  if owner % 8 = 7 then
    hieSend pIMAGEBLOCK (owner / 256) false
      ([7, 0, 0, 0] ++ beBytes 4 (regWord IMG_DLTSTAT_state.addr s) ++ beBytes 4 (regWord IMG_STATUS_code.addr s)) s
  else s

/-- The loader reserve emptied and the session idle. -/
def sessionClear (code : Nat) (s : State) : State :=
  setF IMG_DLTSTAT_state 0 <| setB IMG_DLTSTAT_busy false <| setF IMG_DLTSTAT_owner 0 <| setF IMG_DLTSTAT_end code { s with loader := {} }

/-- A session ends before acceptance (R177): its lease record is freed, every delivered byte discarded. -/
def deltaEnd (code : Nat) (s : State) : State :=
  if getF IMG_DLTSTAT_state s = 0 then s
  else deltaReport s.loader.owner (sessionClear code (setLease s.loader.lease {} s))

/-- STANDBY_ENTRY_COMPLETE (R108, R177): the cores wait; an open delta session ends, a ledger save is asked for, CK_TICK and the root PLL
stop, the mode is STANDBY. -/
def execStandbyEntryComplete (s : State) : Out :=
  .next <| onlyIf (s.power.standby == .waitCores) (fun s =>
    let s1 := ledgerSave (deltaEnd 3 s)
    let s2 := setB CKR_STATUS_rootlock false (setF CKR_RUN_clk 0
      { s1 with power := { s1.power with standby := .inStandby, tick := false } })
    refreshAdc (setMode mStandby s2)) s

/-- The requester owns the open session. -/
def ownsSession (rq : Requester) (s : State) : Bool :=
  getF IMG_DLTSTAT_state s = 1 && s.loader.owner = rqTag rq && (leaseOf s.loader.lease s).state == .held

/-- What IMG_DLTSTAT.owner shows. -/
def ownerCode (rq : Requester) : Nat :=
  match rq with
  | .remote _ _ => 3
  | _ => if rqSecure rq then 2 else 1

/-- An open (R166). -/
def deltaOpen (rq : Requester) (s : State) : State :=
  let m := mode s
  if getF IMG_DLTSTAT_state s ≠ 0 || isSet IMG_RCFG_drain s then deltaRefuse 2 s
  else if !(m = mService || m = mPartial || m = mDegraded) then deltaRefuse 5 s
  else match grantLease 6 0 (rqTag rq) (some (getF IMG_DLTLEASE_ms s)) s with
    | none => setB IMG_DLTSTAT_refused true (setFree IMG_DLTSTAT_why (countFull (rqTag rq) s))
    | some (n, s1) =>
      setF IMG_DLTSTAT_state 1 <| setF IMG_DLTSTAT_owner (ownerCode rq) <| setF IMG_DLTBLKS_ok 0 <| setF IMG_DLTBLKS_bad 0
        { s1 with loader := { owner := rqTag rq, lease := n } }

/-- DELTA_OPEN (R166): a write of 1 to IMG_DLTCTL.cmd. -/
def cmdDeltaOpen (rq : Requester) (s : State) : State := (deltaOpen rq (busDone s))

/-- The same under the rights of its requester. -/
def execDeltaOpen (rq : Requester) (s : State) : Out :=
  .next (gate rq true 0x40050080 0 (cmdDeltaOpen rq) s)

/-! Deliveries (R167, R145). -/

/-- blk_off, sig_off and nblk, once the DELTA record stands in the head. -/
def deltaHead (h : List Byte) : Option (Nat × Nat × Nat) :=
  if h.length < 128 || h.length < 128 + 16 * hdNsect h then none
  else match sectOf h 10 with
    | none => none
    | some e => if h.length < e.off + 80 then none else some (leAt h (e.off + 64) 4, hdSig h, leAt h (e.off + 58) 2)

/-- Blocks a head names. -/
def blockCount (blk sig : Nat) : Nat := (sig - blk + 4095) / 4096

/-- Every covered block has passed. -/
def blocksWhole (s : State) : Bool :=
  match deltaHead s.loader.dHead with
  | none => false
  | some (blk, sig, _) => s.loader.dHead.length = blk && (List.range (blockCount blk sig)).all fun i => s.loader.dBlocks.any fun b => b.1 = i

/-- A delivery stands in one of the three places of R167. -/
def placeOk (off len : Nat) (s : State) : Bool :=
  let n := s.loader.dHead.length
  1 ≤ len && len ≤ 65536 && s.loader.dSig = [] &&
  match deltaHead s.loader.dHead with
  | none => off = n && off + len ≤ 0x100000
  | some (blk, sig, _) =>
    if n < blk then off = n && off + len ≤ blk
    else if off = sig then len = 208 && blocksWhole s
    else blk ≤ off && off < sig && (off - blk) % 4096 = 0 && len = min 4096 (sig - off)

/-- The bytes at an internal address, where the requester's world may read them: RAM, or Hostel pages under a chain lease. -/
def sourceBytes (w : World) (a n : Nat) (s : State) : Option (List Byte) :=
  if a % 4 = 0 && (List.range n).all fun i =>
      memAllowed w false (a + i) s || (hostelBase ≤ a + i && a + i < hostelBase + 0xC00000 && pageLeased w ((a + i - hostelBase) / 256) s)
  then some (rdBytes s a n) else none

/-- A delivery begins, or is refused; an accepted one renews the lease (R166). -/
def deltaDeliver (off len : Nat) (src : Option (List Byte)) (s : State) : State :=
  if isSet IMG_DLTSTAT_busy s then deltaRefuse 4 s
  else if !placeOk off len s then deltaRefuse 3 s
  else
    let l := leaseOf s.loader.lease s
    setB IMG_DLTSTAT_busy true <| setLease s.loader.lease { l with left := l.dur }
      { s with loader := { s.loader with copying := some { off := off, bytes := src } } }

/-- DELTA_DELIVERY (R167): a write of IMG_DLTGO, by the owner only. -/
def cmdDeltaDelivery (rq : Requester) (w : Word) (s : State) : State :=
    if !w.getLsbD 0 then busDone s
    else if !ownsSession rq s then busError s
    else
      let len := getF IMG_DLTLEN_len s
      deltaDeliver (getF IMG_DLTOFF_off s) len (sourceBytes (rqWorld rq) (getF IMG_DLTSRC_addr s) (min len 65536) s) (busDone s)

/-- The same under the rights of its requester. -/
def execDeltaDelivery (rq : Requester) (w : Word) (s : State) : Out :=
  .next (gate rq true 0x40050090 0 (cmdDeltaDelivery rq w) s)

/-- A piece of the head arrives: steps 2 to 4 of R152 once its first 128 bytes are in. -/
def headPiece (b : List Byte) (s : State) : State :=
  let h := s.loader.dHead ++ b
  let put (s : State) : State := { s with loader := { s.loader with dHead := h } }
  let room := match deltaHead h with
    | none => true
    | some (blk, _, _) => decide (h.length ≤ blk)
  if s.loader.dHead.length < 128 && 128 ≤ h.length then
    match checkHeader (h.take 128) true s with
    | some f => deltaEnd 4 (setF IMG_STATUS_phase 7 (showFail f s))
    | none => if room then put s else deltaRefuse 3 s
  else if room then put s else deltaRefuse 3 s

/-- A block arrives and is checked against its tag (R145); `bad` runs of its CMAC job disagree. A block that has passed is kept, and a later
delivery of it is ignored. -/
def blockPiece (blk off bad : Nat) (b : List Byte) (s : State) : State :=
  let i := (off - blk) / 4096
  let d := parseDelta s.loader.dHead
  let fail (s : State) : State := incF IMG_DLTBLKS_bad 1 s
  if s.loader.dBlocks.any fun e => e.1 = i then s
  else match hwLoad 3 d.blkkey 4 s with
  | (none, s1) => fail s1
  | (some k, s1) =>
    match hwCmac (slotOf k s1).key (leBytes 4 i ++ b) bad s1 with
    | (none, s2) => fail s2
    | (some t, s2) =>
      if t = d.tags.getD i [] then
        let l := s2.loader.dBlocks ++ [(i, b)]
        setF IMG_DLTBLKS_ok l.length { s2 with loader := { s2.loader with dBlocks := l } }
      else fail s2

/-- DELTA_DELIVERY_DONE (R167, R145): the copy ends. -/
def execDeltaDeliveryDone (bad : Nat) (s : State) : Out :=
  .next <| match s.loader.copying with
    | none => s
    | some c =>
      let owner := s.loader.owner
      let s1 := setB IMG_DLTSTAT_busy false { s with loader := { s.loader with copying := none } }
      let s2 := match c.bytes with
        | none => deltaRefuse 6 s1
        | some b =>
          match deltaHead s1.loader.dHead with
          | none => headPiece b s1
          | some (blk, sig, _) =>
            if s1.loader.dHead.length < blk then headPiece b s1
            else if c.off = sig then { s1 with loader := { s1.loader with dSig := b } }
            else blockPiece blk c.off bad b s1
      if getF IMG_DLTSTAT_state s2 = 0 then s2 else deltaReport owner s2

/-! Close (R168). -/

/-- The delivered bytes as one image. -/
def deltaImage (s : State) : List Byte :=
  let n := match deltaHead s.loader.dHead with
    | some (blk, sig, _) => blockCount blk sig
    | none => 0
  s.loader.dHead ++ (List.range n).flatMap (fun i => ((s.loader.dBlocks.find? fun b => b.1 = i).map (·.2)).getD []) ++ s.loader.dSig

/-- The first field of two POLICY records that differs and that a delta may not change, by its byte offset (R146, R139). -/
def policyDiff (p q : PolicyRec) : Option Nat :=
  let l : List (Nat × Nat × Nat) := [(p.flags, q.flags, 0), (p.devid, q.devid, 4), (p.sbid, q.sbid, 5), (p.ethertype, q.ethertype, 6),
    (p.vlan, q.vlan, 8), (p.wpol % 2, q.wpol % 2, 10), (p.ddrmt, q.ddrmt, 11), (p.wdeb, q.wdeb, 14), (p.wdsPeriod, q.wdsPeriod, 16),
    (p.consistKey, q.consistKey, 24)]
  (l.find? fun e => e.1 ≠ e.2.1).map (·.2.2)

/-- The digest IMG_CURDIG shows. -/
def curDigest (s : State) : List Byte := (List.range 12).flatMap fun i => leBytes 4 (getF (IMG_CURDIG_dig i) s)

/-- Steps 8 and the DELTA record of step 9 of R152 (R144, R146). -/
def checkScope (img : List Byte) (x : Structure) (s : State) : Check :=
  let d := parseDelta img
  let r := (recsOf img 10).headD []
  let dOff := ((sectOf img 10).map fun e => e.off + e.len).getD 0
  firstFail [
    failIf (!s.str.policy.flags.testBit 4) fDELTADISABLED 0 0 0,
    failIf (d.baseId ≠ getF IMG_ID_id s) fDELTABASE 10 0 0,
    failIf (d.baseDigest ≠ curDigest s) fDELTABASE 10 0 8,
    failIf (hdLen img > 0x100000) fDELTASCOPE 0 0 0,
    checkAll ((recsOf img 1).map parseTile) fun i t => failIf (!d.banks.testBit (t.tile / 8)) fDELTASCOPE 1 i 0,
    failIf ((sectOf img 6).isSome && (policyDiff x.policy s.str.policy).isSome) fDELTASCOPE 6 0 ((policyDiff x.policy s.str.policy).getD 0),
    failIf (!zeros r 4 4) fRECFIELD 10 0 4, failIf (d.banks ≥ 64) fRECFIELD 10 0 56, failIf (!zeros r 57 1) fRECFIELD 10 0 57,
    failIf (d.nblk ≠ blockCount d.blkOff (hdSig img)) fRECFIELD 10 0 58, failIf (d.blkOff ≠ dOff) fRECFIELD 10 0 64,
    failIf (!zeros r 68 12) fRECFIELD 10 0 68]

/-- A delta fails after its close (R168): IMG_STATUS, event 0, idle with end 4. -/
def closeFail (f : ImgFail) (s : State) : State := raise 0 (deltaEnd 4 (setF IMG_STATUS_phase 7 (showFail f s)))

/-- A close by the owner: the delta is accepted, and its lease ends, or it fails. -/
def deltaClose (s : State) : State :=
  if isSet IMG_DLTSTAT_busy s then deltaRefuse 4 s
  else if !(blocksWhole s && s.loader.dSig ≠ []) then closeFail ⟨fDELTABLOCK, 0, 0, 0⟩ s
  else
    let img := deltaImage s
    let x := structureOf img s.str
    match firstFail [checkSignature img (max s.store.floor (getF IMG_SECVER_secver s)) s, checkSections img true, checkScope img x s,
        checkRecords img true x s] with
    | some f => closeFail f s
    | none =>
      let owner := s.loader.owner
      let s1 := setLease s.loader.lease {} s
      deltaReport owner <| refreshMode <| setF IMG_STATUS_phase 5 <| setF IMG_DLTSTAT_state 3 <| setF IMG_DLTSTAT_owner 0
        { s1 with loader := { dImg := img, delta := parseDelta img, next := x, nextDigest := imageDigest img, accepted := true, accAt := s.ticks } }

/-- DELTA_CLOSE (R168): a write of 2 to IMG_DLTCTL.cmd. -/
def cmdDeltaClose (rq : Requester) (s : State) : State := if ownsSession rq s then deltaClose (busDone s) else busError s

/-- The same under the rights of its requester. -/
def execDeltaClose (rq : Requester) (s : State) : Out :=
  .next (gate rq true 0x40050080 0 (cmdDeltaClose rq) s)

/-- DELTA_ABORT (R177): a write of 3 to IMG_DLTCTL.cmd. -/
def cmdDeltaAbort (rq : Requester) (s : State) : State := if ownsSession rq s then deltaEnd 1 (busDone s) else busError s

/-- The same under the rights of its requester. -/
def execDeltaAbort (rq : Requester) (s : State) : Out :=
  .next (gate rq true 0x40050080 0 (cmdDeltaAbort rq) s)

/-! Prepare (R171, R172, R176). -/

/-- A record of a unit in a list. -/
def cabRec (u : Nat × Nat) (l : List CabRec) : Option CabRec := l.find? fun c => c.unit = u

/-- Units whose CABINET record a structure changes. -/
def cabChanged (old new : List CabRec) : List (Nat × Nat) :=
  ((old ++ new).map CabRec.unit).dedup.filter fun u => cabRec u old ≠ cabRec u new

/-- Table memory the running tables take. -/
def takenRegions (l : List TableRec) : List Region := l.map fun t => (t.base, t.base + tableBytes t)

/-- Tables of the delta: those that have no place yet. -/
def newTables (s : State) : List TableRec := s.loader.next.tables.filter fun t => t.base = 0xFFFFFFFF

/-- Block locks the delta needs (R172): 0 SWC, 1 FWT, 2 PKE. -/
def lockBlocks (s : State) : List Nat :=
  let lk (b : Nat) : Bool := s.loader.next.regset.any fun r =>
    inBlock b r.addr && match findReg r.addr s with
      | some d => d.fields.any fun f => f.acc == .lk
      | none => false
  (if lk 7 then [0] else []) ++ (if lk 8 || newTables s ≠ [] then [1] else []) ++ (if lk 15 then [2] else [])

/-- The lease kind and index of a block's lock. -/
def lockRes (b : Nat) : Nat × Nat := if b = 2 then (4, 0) else (2, b)

/-- The loader can take a lock: nobody holds it, and no committed overlay drains. -/
def lockFree (b : Nat) (s : State) : Bool :=
  (leaseFor (lockRes b).1 (lockRes b).2 s).isNone && !(b = 1 && isSet FWT_STAT_drain s)

/-- The loader takes a lock. -/
def loaderTakes (b : Nat) (s : State) : State :=
  match grantLease (lockRes b).1 (lockRes b).2 (rqTag .loader) none s with
  | some (_, s1) => s1
  | none => s

/-- Every lease of the loader ends. -/
def loaderRelease (s : State) : State :=
  { s with ink := { s.ink with leases := s.ink.leases.filter fun e => e.2.owner ≠ rqTag .loader } }

/-- The used tiles of the delta's banks. -/
def deltaTiles (s : State) : List Nat := (usedTiles s).filter fun n => s.loader.delta.banks.testBit (n / 8)

/-- A tile is quiet (R173): the frames it has accepted are on their way, a CAN tile's pending transmits are withdrawn, and a GPIO tile's
outputs keep their levels. -/
def tileQuietNow (n : Nat) (s : State) : State :=
  let s1 :=
    if isCan n s then
      let s1 := canFlush n (handAll n s)
      let p := getF (CAN_TXREQ_req n) s1
      let s2 := if p ≠ 0 then
          canEvt n (CAN_EVT_txcan n) (orF (CAN_TXCANCELLED_cnl n) p (setF (CAN_TXCAN_can n) 0 (setF (CAN_TXREQ_req n) 0 s1)))
        else s1
      canGoto n (if canState n s = 0 then 0 else 8) (setCan n { canOf n s2 with stopping := false } s2)
    else
      if serState n s = 0 then s else serQuiet n 4 s
  setTileBit FAB_QUIET0_q FAB_QUIET1_q n true s1

/-- A tile's function lets it be quiet at once: an outputs tile, or one that is down or asleep. -/
def quietAtOnce (n : Nat) (s : State) : Bool :=
  tileFunc n s = 7 || !bankPowered n s || unitAsleep n s ||
    (if isCan n s then canState n s ≠ 2 && canState n s ≠ 3 && canState n s ≠ 4 else serState n s ≠ 2)

/-- Quiesce begins (R173). -/
def quiesce (s : State) : State :=
  let s1 := setF IMG_DLTSTAT_state 4 s
  applyAll ((deltaTiles s1).filter fun n => quietAtOnce n s1) tileQuietNow s1

/-- A failure in prepare (R176): everything prepared is discarded, the mode returns. -/
def rollback (f : ImgFail) (s : State) : State :=
  refreshMode (raise 0 (setF IMG_STATUS_phase 7 (showFail f (sessionClear 5 (loaderRelease s)))))

/-- Step 11 of R152 on the merged structure and the two checks of R171. -/
def checkPrepare (s : State) : Check :=
  let x := s.loader.next
  let ch := cabChanged s.str.cabinet x.cabinet
  firstFail [
    checkBuild true x s,
    failIf (placeAuto (takenRegions s.str.tables) (byType (newTables s))).isNone fTABLESIZE 4 0 8,
    checkAll (s.str.cabinet ++ x.cabinet) fun i c =>
      failIf (c.unit.1 = 1 && ch.contains c.unit && motorState c.unit.2 s ≠ 0) fCABINET 7 (if i < s.str.cabinet.length then 0 else i - s.str.cabinet.length) 1]

/-- DELTA_PREPARE_DONE (R171, R172, R173, R176): the shadow is ready, the locks are taken or waited for, and quiesce begins. -/
def execDeltaPrepareDone (s : State) : Out :=
  .next <| onlyIf (getF IMG_DLTSTAT_state s = 3 && !s.loader.prepared) (fun s =>
    match checkPrepare s with
    | some f => rollback f s
    | none =>
      let x := s.loader.next
      let ts := placed (takenRegions s.str.tables) (newTables s)
      let need := lockBlocks s
      let have_ := need.filter fun b => lockFree b s
      let wants := need.filter fun b => !lockFree b s
      let s1 := { s with fwt := { s.fwt with tmem := buildTables ts s } }
      let s2 := applyAll have_ loaderTakes { s1 with loader := { s1.loader with
        next := { x with tables := x.tables.map fun t => (ts.find? fun u => u.type = t.type).getD t }, prepared := true, wants := wants } }
      if wants = [] then quiesce s2 else s2) s

/-- DELTA_LOCK_ACQUIRED (R172): a lock the loader waits for is free. -/
def execDeltaLockAcquired (s : State) : Out :=
  .next <| match s.loader.wants.find? fun b => lockFree b s with
    | none => s
    | some b =>
      let w := s.loader.wants.filter (· ≠ b)
      let s1 := loaderTakes b { s with loader := { s.loader with wants := w } }
      if w = [] then quiesce s1 else s1

/-- A tile meets the condition of its function (R173). -/
def tileStill (n : Nat) (s : State) : Bool :=
  if isCan n s then (canOf n s).onBus.isNone else if isLin n s then !serBusy n s else true

/-- TILE_QUIET (R173): a quiescing tile is quiet. -/
def execTileQuiet (n : Nat) (s : State) : Out :=
  .next <| onlyIf (getF IMG_DLTSTAT_state s = 4 && (deltaTiles s).contains n && !tileBit FAB_QUIET0_q FAB_QUIET1_q n s && tileStill n s)
    (tileQuietNow n) s

/-! The cut-over of a delta (R169, R174, R175). -/

/-- A rebuilt tile leaves nothing of its sleep (R337, R340). -/
def tileWakeClear (n : Nat) (s : State) : State :=
  let lo := 0x400C1000 + 0x40 * n
  let s1 := writeDone n (setUnit WKS_ASLEEPA_t WKS_ASLEEPB_t WKS_ASLEEPB_p n false (setUnit WKS_PENDA_t WKS_PENDB_t WKS_PENDB_p n false s))
  { s1 with regs := s1.regs.filter fun e => !(lo ≤ keyAddr e.1 && keyAddr e.1 < lo + 0x40)
            wks := { s1.wks with tiles := tabDrop s1.wks.tiles n, seen := tabDrop s1.wks.seen n, windows := tabDrop s1.wks.windows n
                                 pulses := tabDrop s1.wks.pulses n, pulseDue := s1.wks.pulseDue.filter (· ≠ n)
                                 order := (s1.wks.order.map fun o => o.filter (· ≠ n)).filter fun o => o ≠ [] } }

/-- The delta's banks rebuilt: every tile cleared, the merged set's tiles formed. -/
def rebuildTiles (banks : Nat) (x : Structure) (s : State) : State :=
  let all := (List.range 48).filter fun n => banks.testBit (n / 8)
  let gone := all.filter fun n => tileUsed n s && !(x.tiles.any fun t => t.tile = n)
  let s1 := applyAll gone (fun n t => if isCan n t then canFlush n t else serFlush n t) s
  applyAll (x.tiles.filter fun t => banks.testBit (t.tile / 8)) tileForm (applyAll all (fun n t => tileClear n (tileWakeClear n t)) s1)

/-- The queues of an internal port flushed and counted: the rings' of port 16, the class queues of ports 18 and 19 (R169). -/
def flushUnit (p : Nat) (s : State) : State :=
  if p = 16 then
    applyAll (List.range 32) (fun r t =>
      let k := queueKey 16 r 0
      applyAll (queueAt k t) (discard 16 cQdrop) (setQueue k [] t)) s
  else flushPort p s

/-- Ports whose binding changes are taken down, their queues flushed and counted, and started with the new one; an unbound port becomes
unused. -/
def rebuildPorts (old new : List BindRec) (s : State) : State :=
  let b (p : Nat) (l : List BindRec) : Option BindRec := l.find? fun e => e.port = p
  let ch := (List.range 20).filter fun p => b p old ≠ b p new
  let down (p : Nat) (t : State) : State := if (b p old).isNone then t else if p < 16 then portStop p t else flushUnit p t
  let up (p : Nat) (t : State) : State :=
    match b p new with
    | some e => portStart p (portForm e t)
    | none => { t with regs := t.regs.filter fun e => !inPort p (keyAddr e.1) }
  applyAll ch up (applyAll ch down s)

/-- CABINET's changes: changed lamps and groups off, changed records in their registers, units without a record unused. -/
def rebuildCabinet (old new : List CabRec) (s : State) : State :=
  let ch := cabChanged old new
  let off (u : Nat × Nat) (t : State) : State :=
    match u with
    | (3, n) => if lampUsed n t then lampOff n t else t
    | (2, g) => groupsOff (2 ^ g) t
    | _ => t
  let form (u : Nat × Nat) (t : State) : State :=
    match cabRec u new, u with
    | some c, _ => cabForm c t
    | none, (1, m) => setB (MOT_CFG_used m) false t
    | none, (3, n) => setB (LMP_CCFG0_used n) false t
    | none, (_, g) => setF (LMP_GCFG_ilimit g) 0 t
  applyAll ch form (applyAll ch off s)

/-- LODGER's changes: changed and new lodgers start anew, their old-generation frames kept; a removed lodger stays until the old structure
retires (R175, R202). -/
def rebuildLodgers (old new : List LodgerRec) (s : State) : State :=
  let r (i : Nat) (l : List LodgerRec) : Option LodgerRec := l.find? fun e => e.lid = i
  let start := (residentOrder new).filter fun i => r i old ≠ r i new
  let anew (i : Nat) (t : State) : State :=
    let l := lodgerOf i t
    let t1 := lodgerNew i t
    setLodger i { lodgerOf i t1 with
      queue := l.queue.filter (fun q => match q.work with
        | .frame _ => true
        | _ => false)
      running := l.running, handled := l.handled || (match l.running with
        | some { work := .frame _, .. } => false
        | _ => true), cost := l.cost, since := l.since, spent := l.spent } t1
  let fault (i : Nat) (t : State) : State := if (lodgerOf i t).queue = [] then t else contextFault i t
  applyAll start fault (applyAll start anew s)

/-- Fields of the registers of the tables a delta replaces. -/
def tableFieldsOf (l : List TableRec) : List Fld :=
  (l.flatMap fun t => [FWT_TBASE_base (t.type - 1), FWT_TENT_entries (t.type - 1), FWT_TENT_shadow (t.type - 1), FWT_TENT_learn (t.type - 1)]) ++
    if l.any fun t => t.type = 1 then
      [FWT_BANKMAP_b0, FWT_BANKMAP_b1, FWT_BANKMAP_b2, FWT_BANKMAP_b3, FWT_BANKMAP_sh] ++ (List.range 4).map FWT_L2SEED_seed
    else []

/-- REGSET records a delta's cut-over applies (R169): its own section's, or, where it has none, the records that stand for the registers of the
tiles it rebuilds (R163, log entry 95). -/
def regsetApplied (img : List Byte) (banks : Nat) (l : List RegRec) : List RegRec :=
  if (sectOf img 9).isSome then l
  else l.filter fun r => tileWindow r.addr && banks.testBit (tileOfAddr r.addr / 8)

/-- Tables of the merged structure that replace running ones. -/
def tablesReplaced (s : State) : List TableRec := s.loader.next.tables.filter fun t => !s.str.tables.contains t

/-- The replaced tables take effect. -/
def rebuildTables (l : List TableRec) (s : State) : State :=
  let s1 := applyAll l tableRegs s
  if l.any fun t => t.type = 1 then countL2 (setF FWT_RHSTAT_state 0 (seedsReset s1)) else s1

/-- What is kept of the old structure at a delta's cut-over (R174): the tiles of its banks, and every register that the tables, the tiles and
REGSET replace. -/
def oldStructure (ts : List TableRec) (s : State) : OldStructure :=
  let banks := s.loader.delta.banks
  let tiles := (List.range 48).filter fun n => banks.testBit (n / 8)
  let o : OldStructure := {
    gen := getF IMG_RCFG_gen s, str := s.str, trn := s.trn, banks := banks
    addrs := (tableFieldsOf ts).map (·.addr) ++
      (tiles.flatMap fun n => [(FAB_FUNC_fn (n / 8) (n % 8)).addr, (FAB_TPIN_pins n).addr, (FAB_TCFG_pipe n).addr]) ++
      (regsetApplied s.loader.dImg banks s.loader.next.regset).map (·.addr) }
  { o with regs := s.regs.filter fun e => o.owns e.1, can := s.can.filter fun e => banks.testBit (e.1 / 8), vlan := s.swc.vlan }

/-- DELTA_CUT_OVER (R169 to R171, R174, R175, R148): every tile quiet, every lock held, all of the delta takes effect together. -/
def execDeltaCutOver (s : State) : Out :=
  .next <| onlyIf (getF IMG_DLTSTAT_state s = 4 && s.loader.wants = [] &&
      (deltaTiles s).all fun n => tileBit FAB_QUIET0_q FAB_QUIET1_q n s) (fun s =>
    let x := s.loader.next
    let img := s.loader.dImg
    let ts := tablesReplaced s
    let old := oldStructure ts s
    let s1 := rebuildTables ts (rebuildTiles s.loader.delta.banks x { s with str := x, old := some old })
    let s2 := rebuildCabinet s.str.cabinet x.cabinet (rebuildPorts s.str.binds x.binds s1)
    let s3 := trnIndex (rebuildLodgers s.str.lodgers x.lodgers s2)
    let s4 := if (sectOf img 6).isSome then policyForm x.policy s3 else s3
    let s5 := applyRegset (regsetApplied img s.loader.delta.banks x.regset) s4
    let s6 := setF IMG_RCFG_gen (getF IMG_RCFG_gen s + 1) <| setB IMG_RCFG_drain true <| setF IMG_T_RCFG_us (s.ticks - s.loader.accAt) <|
      setF IMG_SECVER_secver (hdSecver img) <| setF IMG_DLTID_id (hdImageId img) <| showDigest s.loader.nextDigest <|
      setF IMG_STATUS_phase 6 (sessionClear 0 s5)
    wearBump 0x0502 1 1 (startup (refreshBase (ratedChanged s6)))) s

/-- A Waybill of the old generation is still in an ingress stage or in the transcriber (R175). -/
def oldRemains (s : State) : Bool :=
  match s.old with
  | none => false
  | some o =>
    (s.swc.authq.any fun a => a.wb.gen = o.gen) || (s.swc.inflight.any fun e => e.2.wb.gen = o.gen) ||
    (s.ink.holds.any fun e => e.2.any fun h => h.wb.gen = o.gen) ||
    s.ink.lodgers.any fun e => (e.2.queue ++ e.2.running.toList).any fun i => match i.work with
      | .frame w => w.gen = o.gen
      | _ => false

/-- Table memory of the old structure's replaced tables, freed and cleared (R161, R175). -/
def tablesFreed (o : OldStructure) (s : State) : State :=
  let gone := o.str.tables.filter fun t => !s.str.tables.contains t
  { s with fwt := { s.fwt with tmem := s.fwt.tmem.filter fun c => !gone.any fun t => t.base ≤ c.1 && c.1 < t.base + tableBytes t } }

/-- The old structure is freed: its table regions, its contexts, the leases of the lodgers it alone had (R175, R202). -/
def oldFreed (s : State) : State :=
  match s.old with
  | none => s
  | some o =>
    let gone := (o.str.lodgers.map (·.lid)).filter fun i => !s.str.lodgers.any fun r => r.lid = i
    let s1 := { s with old := none, ink := { s.ink with lodgers := s.ink.lodgers.filter fun e => s.str.lodgers.any fun r => r.lid = e.1 } }
    applyAll gone (fun i t => declare (fun l _ => l.owner = 5 + 256 * i) (5 + 256 * i) 8 t) (tablesFreed o s1)

/-- DELTA_DRAIN_END (R175): the old structure is freed with its locks, event 2 is raised, the mode returns. -/
def execDeltaDrainEnd (s : State) : Out :=
  .next <| onlyIf (isSet IMG_RCFG_drain s && !oldRemains s)
    (fun s => refreshMode (raise 2 (setB IMG_RCFG_drain false (loaderRelease (oldFreed s))))) s

end Sys2Proof.Machine
end

