-- ==== Sys2Proof/Machine/Hierarchy.lean ====
section
/-! DEFINITION. The hierarchy unit: receiving, admission, heartbeats, loss, takeover, the image exchange, delta deliveries and the
commands of HIE_CMD (R95, R96, R165, R373 to R389). -/

namespace Sys2Proof.Machine

/-! Receiving (R376 to R378). -/

/-- An inline Waybill that left port 18's queue: an event becomes an EVENT message, dropped and counted while the manager is lost (R370,
R388); a wire record leaves in a form the spec does not give. -/
def sendOut (b : List Byte) (s : State) : State :=
  match b with
  | [] => s
  | src :: d =>
    if src ≠ 18 then emit (.note "wire record to the manager" [] d) s
    else if isSet HIE_STAT_mlost s then incF BRG_REVTX_lost 1 s else hieSend pEVENT 0 (ownRole s = roleRestricted) d s

/-- TRANSMIT_DONE (R217): the replica's pages are released; an inline Waybill of port 18 goes to the hierarchy unit. -/
def execTransmitDone (p : Nat) (s : State) : Out :=
  .next <|
    let t := transmitDone p s
    applyAll t.hie.out sendOut { t with hie := { t.hie with out := [] } }

/-- Step 1 of R378: version, length and type. -/
def formOk (b : List Byte) : Bool :=
  40 ≤ b.length && slice b 0 1 == [1] && bodyLen b + 40 ≤ b.length && 1 ≤ beNat (slice b 1 1) && beNat (slice b 1 1) ≤ 10

/-- The part is a manager that acts, or the boot ROM of one. -/
def actsManager (s : State) : Bool := isManager s || (!serving s && getF SYS_STRAP_role s = 1)

/-- An admitted device is a restricted one (R373). -/
def isRestricted (d : Nat) (s : State) : Bool := (tabGet {} s.hie.peers d).boot

/-- The uses of the boot class (R376). -/
def bootAllowed (m : PMsg) (s : State) : Bool :=
  let q := mode s = mQuarantine
  if m.type = pJOIN then (if isManager s then m.at 0 1 = 1 || m.at 0 1 = 4 else q)
  else if m.type = pHEARTBEAT then isRestricted m.src s
  else if m.type = pIMAGEBLOCK then m.at 0 1 = 1 || m.at 0 1 = 2
  else if m.type = pFARREAD then q || isRestricted m.src s
  else if m.type = pREVOKE then q && m.at 0 1 = 2
  else false

/-- The boot-class image exchange, whose senders need no admission (R376, R385). -/
def imageExchange (m : PMsg) : Bool := m.boot && m.type = pIMAGEBLOCK

/-- The source is admitted, as this part knows it (step 5 of R378). -/
def srcAdmitted (m : PMsg) (s : State) : Bool :=
  if isManager s then s.hie.peers.any fun e => e.1 = m.src else admitted s && (m.src = 0 || s.hie.mgrSet.testBit m.src)

/-- A JOIN request (op 1), which is not counter-checked (R377). -/
def isJoinRequest (m : PMsg) : Bool := m.type = pJOIN && m.at 0 1 = 1

/-- An admission ends on the manager (R379, R380). -/
def endPeer (d : Nat) (s : State) : State :=
  { s with hie := { s.hie with peers := tabDrop s.hie.peers d, last := tabDrop s.hie.last d } }

/-- A Caravan's records (R257, R391). -/
def caravanOf (m : PMsg) : Caravan :=
  { epoch := m.epoch
    recs := (List.range (min 32 (m.at 0 1))).map fun i =>
      let o := 4 + 16 * i
      ⟨slice m.payload o 6, m.at (o + 6) 2 % 4096, bitsOf (m.at (o + 6) 2) 12 2 = 1, m.at (o + 8) 4, m.at (o + 12) 1 % 64, m.at (o + 13) 1⟩ }

/-- A received wear report goes to the CPU ring of HIE_RING, one Waybill per message (R389). -/
def wearReportIn (f : List Byte) (s : State) : State :=
  unitFrame { src := 18, tc := 7, lossless := true, dmask := 2 ^ 16, ring := getF HIE_RING_ring s, time := stamp s } f s

/-- A JOIN request joins the manager's queue of 64, one per device ID (R96). -/
def holdJoin (m : PMsg) (s : State) : State :=
  if s.hie.joinq.length ≥ 64 || s.hie.joinq.any fun q => q.at 2 1 = m.at 2 1 then s
  else setF HIE_JOINQ_queued (s.hie.joinq.length + 1) { s with hie := { s.hie with joinq := s.hie.joinq ++ [m] } }

/-- An accepted message is delivered: at once, or to wait for the command that acts on it. -/
def deliver (m : PMsg) (f : List Byte) (s : State) : State :=
  let s1 := incF HIE_RXCNT_cnt 1 s
  if m.type = pCARAVAN then (if (m.at 1 1 = 0) == isManager s1 then cvArrive (caravanOf m) s1 else s1)
  else if isJoinRequest m then (if isManager s1 then holdJoin m s1 else s1)
  else if m.type = pJOIN && m.at 0 1 = 4 then (if isManager s1 then endPeer m.src s1 else s1)
  else if m.type = pWEARREPORT && m.at 0 1 = 2 then (if isManager s1 then wearReportIn f s1 else s1)
  else { s1 with hie := { s1.hie with inbox := s1.hie.inbox ++ [m] } }

/-- Steps 4 to 6 of R378 and the delivery. -/
def checkTail (m : PMsg) (f : List Byte) (s : State) : State :=
  let counted := !m.boot && !isJoinRequest m
  if counted && m.counter + 1 ≤ tabGet 0 s.hie.last m.src then incF HIE_RXERR_replay 1 s
  else if m.type ≠ pJOIN && m.type ≠ pHEARTBEAT && m.type ≠ pTAKEOVER && !imageExchange m && !srcAdmitted m s then incF HIE_RXERR_notadm 1 s
  else if m.type = pCARAVAN && m.epoch ≠ getF FWT_EPOCH_epoch s then epochMismatch s
  else deliver m f (if counted then { s with hie := { s.hie with last := tabPut 0 s.hie.last m.src (m.counter + 1) } } else s)

/-- The checks of R378 on a message for this part; `bad` runs of its CMAC job disagree. -/
def checkMessage (bad : Nat) (m : PMsg) (f : List Byte) (s : State) : State :=
  let b := hieBody f
  if m.boot then (if bootAllowed m s then checkTail m f s else incF HIE_RXERR_cmac 1 s)
  else
    let fail (s : State) : State := raiseOnce 41 63 (incF HIE_RXERR_cmac 1 s)
    match consistSlot s with
    | (none, s1) => fail s1
    | (some k, s1) =>
      match hwCmac (slotOf k s1).key (b.take (24 + bodyLen b)) bad s1 with
      | (none, s2) => fail s2
      | (some t, s2) => if t = slice b (24 + bodyLen b) 16 then checkTail m f s2 else fail s2

/-- PLOILHAN_RECEIVE (R378): the oldest received frame is relayed, or checked and delivered; one for all is both. Before the cut-over the
ports relay every such frame (R378). -/
def execPloilhanReceive (bad : Nat) (s : State) : Out :=
  .next <| match s.hie.rx with
    | [] => s
    | (p, f) :: r =>
      let s0 := { s with hie := { s.hie with rx := r } }
      let b := hieBody f
      let m := parseMsg p b
      let dst := beNat (slice f 5 1)
      let mine := dst = ownId s || dst = 255
      let go (s : State) : State := if formOk b && hieActive s then checkMessage bad m f s else s
      if !serving s then relay p f (if mine then go s0 else s0)
      else if !mine then relay p f s0
      else if dst = 255 then relay p f (go s0) else go s0

/-! Admission (R373, R374, R379, R95, R96). -/

/-- The ID by position (R374). -/
def posId (s : State) : Option Nat :=
  if isSet LNK_STATUS_posv s && getF LNK_STATUS_pos s + 1 ≤ 61 then some (getF LNK_STATUS_pos s + 1) else none

/-- The part asks for the standby place (R373, R382). -/
def wantsStandby (s : State) : Bool := getF SYS_STRAP_role s = 2 || s.hie.yielded

/-- The ID the part asks for (R374). -/
def askFor (s : State) : Option Nat :=
  if mode s = mQuarantine then posId s
  else if wantsStandby s then some (getF HIE_CFG_sbid s)
  else if isSet HIE_CFG_byid s then posId s else some (getF HIE_CFG_devid s)

/-- A fresh delay of 0 to 63 ms from the DRBG (R95, R379). -/
def drawDelay (s : State) : State :=
  let d := drbgBytes 1 s
  { d.2 with hie := { d.2.hie with delay := leAt d.1 0 1 % 64 } }

/-- An admission of this part ends (R379): no ID is held until the next. -/
def endAdmission (s : State) : State :=
  drawDelay <| setB HIE_STAT_adm false <| setF HIE_STAT_id 255 <|
    setF HIE_STAT_role (if getF SYS_STRAP_role s = 0 && serving s then roleWorker else roleNone) s

/-- A JOIN payload (R391). -/
def joinPayload (op role id why ident : Nat) (s : State) : List Byte :=
  [BitVec.ofNat 8 op, BitVec.ofNat 8 role, BitVec.ofNat 8 id, BitVec.ofNat 8 why, BitVec.ofNat 8 (cfgCode s), 0, 0, 0] ++ leBytes 8 ident ++
    beBytes 4 (getF IMG_ID_id s) ++ beBytes 4 (getF IMG_SECVER_secver s)

/-- The part takes part as one to be admitted: not a manager, not admitted. -/
def applicant (s : State) : Bool :=
  !isManager s && !admitted s && ((hieOn s && serving s) || mode s = mQuarantine)

/-- JOIN_SEND (R95, R374, R379): a part that is not admitted asks; without a valid ID it sends nothing and shows why 2. -/
def execJoinSend (s : State) : Out :=
  .next <| onlyIf (applicant s) (fun s =>
    match askFor s with
    | none => setF HIE_STAT_why 2 s
    | some id =>
      let role := if wantsStandby s && mode s ≠ mQuarantine then roleStandby else roleWorker
      let s1 := { s with hie := { s.hie with askRole := role, askId := id } }
      hieSend pJOIN 0 (mode s = mQuarantine) (joinPayload 1 role id 0 s.fuse.ident s1) s1) s

/-- The admitted standby of a manager; 255 none. -/
def standbyId (s : State) : Nat := ((s.hie.peers.find? fun e => e.2.role = roleStandby).map (·.1)).getD 255

/-- The admitted set of a manager, bit d for device d. -/
def peerSet (s : State) : Nat := s.hie.peers.foldl (fun n e => n ||| 2 ^ e.1) 0

/-- The answer to a JOIN: to all, recognised by the applicant's identity. -/
def joinAnswer (m : PMsg) (op role id why : Nat) (s : State) : State :=
  hieSend pJOIN 255 m.boot (joinPayload op role id why (leAt m.payload 8 8) s) (incF HIE_JOINQ_answered 1 s)

/-- A device is admitted. -/
def admitPart (m : PMsg) (role id : Nat) (s : State) : State :=
  let p : Peer := { role := role, ident := leAt m.payload 8 8, cfg := m.at 4 1, image := m.at 16 4, pos := m.spos, beat := nowMs s, boot := m.boot }
  let s1 := { s with hie := { s.hie with
    peers := tabPut {} s.hie.peers id p, last := tabDrop s.hie.last id
    poss := if m.spos < 63 then tabPut 0 s.hie.poss id (m.spos + 1) else s.hie.poss } }
  joinAnswer m 2 role id 0 s1

/-- The manager's decision of R379, in its order. -/
def decideJoin (m : PMsg) (s : State) : State :=
  let ident := leAt m.payload 8 8
  let id := m.at 2 1
  let role := m.at 1 1
  let s1 := applyAll ((s.hie.peers.filter fun e => e.2.ident = ident && e.1 ≠ id).map (·.1)) endPeer s
  let held (d : Nat) : Bool := s1.hie.peers.any fun e => e.1 = d && e.2.ident ≠ ident
  if id = 0 || id > 63 then joinAnswer m 3 role id 2 s1
  else if held id then joinAnswer m 3 role id 1 s1
  else if role = roleStandby && !m.boot && s1.hie.peers.any fun e => e.2.role = roleStandby && e.2.ident ≠ ident then
    if m.spos + 1 > 61 then joinAnswer m 3 role id 2 s1
    else if held (m.spos + 1) then joinAnswer m 3 role id 1 s1
    else admitPart m roleSpare (m.spos + 1) s1
  else admitPart m (if m.boot then roleRestricted else role) id s1

/-- JOIN (R379, R96): the oldest held request is decided, at most 8 in a CK_TICK millisecond and none while the manager listens. -/
def execJoin (s : State) : Out :=
  .next <| onlyIf (isManager s && !isSet HIE_STAT_probe s && s.hie.answered < 8) (fun s =>
    match s.hie.joinq with
    | [] => s
    | m :: r =>
      decideJoin m (setF HIE_JOINQ_queued r.length { s with hie := { s.hie with joinq := r, answered := s.hie.answered + 1 } })) s

/-- The manager followed is the one a message shows. -/
def followManager (m : PMsg) (s : State) : State :=
  { s with hie := { s.hie with mgrEpoch := m.epoch, poss := if m.spos < 63 then tabPut 0 s.hie.poss 0 (m.spos + 1) else s.hie.poss } }
    |> setF HIE_STAT_mpos m.spos |> setB HIE_STAT_mlost false

/-- JOIN_ANSWER (R379): an accept for this part's identity admits it, with the manager's epoch and a full refresh; a refusal shows why. -/
def execJoinAnswer (s : State) : Out :=
  .next <| takeMsg pJOIN (fun m => m.at 0 1 = 2 || m.at 0 1 = 3) (fun m s =>
    if leAt m.payload 8 8 ≠ s.fuse.ident || admitted s || isManager s then s
    else if m.at 0 1 = 3 then setF HIE_STAT_why (m.at 3 1) s
    else
      let s1 := setF HIE_STAT_role (m.at 1 1) <| setF HIE_STAT_id (m.at 2 1) <| setB HIE_STAT_adm true <| followManager m s
      if m.boot then s1 else fullRefresh (setF FWT_EPOCH_epoch m.epoch s1)) s

/-! Heartbeats and loss (R380 to R383). -/

/-- A HEARTBEAT of this part. -/
def sendBeat (s : State) : State :=
  let mgr := isManager s
  let body := [BitVec.ofNat 8 (ownRole s), BitVec.ofNat 8 (if mgr then standbyId s else 255), 0, 0] ++ beBytes 4 s.hie.beats ++
    beBytes 8 (if mgr then peerSet s else 0)
  hieSend pHEARTBEAT (if mgr then 255 else 0) (ownRole s = roleRestricted) body { s with hie := { s.hie with beats := s.hie.beats + 1 } }

/-- HEARTBEAT_SEND (R380): the manager to all, every other admitted part to the manager. -/
def execHeartbeatSend (s : State) : Out := .next <| onlyIf (admitted s && !isSet HIE_STAT_probe s) sendBeat s

/-- A manager's claim in a message is stronger than one of an epoch and a position (R382): newer epoch, then lower position; an identity
no message carries decides the rest, as the spec gives no way to learn it. -/
def stronger (m : PMsg) (epoch pos : Nat) (s : State) : Bool × State :=
  if newer m.epoch epoch then (true, s)
  else if m.epoch ≠ epoch then (false, s)
  else if m.spos ≠ pos then (decide (m.spos < pos), s)
  else
    let r := drawFree 1 s
    (r.1 = 1, r.2)

/-- A manager yields (R382): every admission it granted ends, held JOINs are discarded, it asks for the standby place. -/
def yieldManager (s : State) : State :=
  drawDelay <| setF HIE_JOINQ_queued 0 <| setF HIE_STAT_role roleNone <| setB HIE_STAT_adm false <| setB HIE_STAT_probe false <|
    setF HIE_STAT_id 255 { s with hie := { s.hie with peers := [], joinq := [], last := [], yielded := true } }

/-- A newer epoch of the part's own manager is adopted, with a full refresh (R259). -/
def adoptEpoch (m : PMsg) (s : State) : State :=
  if newer m.epoch (getF FWT_EPOCH_epoch s) then fullRefresh (setF FWT_EPOCH_epoch m.epoch s) else s

/-- Another manager's message at a part that follows one: the stronger claim wins, and changing ends the admission (R382). -/
def otherManager (m : PMsg) (s : State) : State :=
  let c := stronger m (getF FWT_EPOCH_epoch s) (getF HIE_STAT_mpos s) s
  if c.1 then
    let s1 := followManager m (endAdmission c.2)
    { s1 with hie := { s1.hie with last := tabPut 0 s1.hie.last 0 (m.counter + 1) } }
  else c.2

/-- A manager's HEARTBEAT. -/
def managerBeat (m : PMsg) (s : State) : State :=
  if isManager s then
    if isSet HIE_STAT_probe s then followManager m (yieldManager s)
    else
      let c := stronger m (getF FWT_EPOCH_epoch s) (sposOf s) s
      if c.1 then followManager m (yieldManager c.2) else c.2
  else if !admitted s then followManager m s
  else if m.spos = getF HIE_STAT_mpos s || getF HIE_STAT_mpos s = 63 then
    let s1 := adoptEpoch m (followManager m s)
    { s1 with hie := { s1.hie with mgrSet := m.at 8 8, mgrStandby := m.at 1 1 } }
  else otherManager m s

/-- HEARTBEAT_RECEIVE (R380, R382, R259): the sender's position is kept; a manager keeps its devices alive. -/
def execHeartbeatReceive (s : State) : Out :=
  .next <| takeMsg pHEARTBEAT (fun _ => true) (fun m s =>
    if m.at 0 1 = roleManager then managerBeat m s
    else
      let s1 := { s with hie := { s.hie with poss := if m.spos < 63 then tabPut 0 s.hie.poss m.src (m.spos + 1) else s.hie.poss } }
      if isManager s1 && s1.hie.peers.any fun e => e.1 = m.src then
        { s1 with hie := { s1.hie with peers := tabPut {} s1.hie.peers m.src { tabGet {} s1.hie.peers m.src with beat := nowMs s1, pos := m.spos } } }
      else s1) s

/-- The owner tag of a remote device. -/
def remoteTag (d : Nat) : Nat := 7 + 256 * d

/-- WORKER_LOST (R380): a device leaves the set, with event 60 and HIE_LOST; its leases here are declared failed. -/
def execWorkerLost (d : Nat) (s : State) : Out :=
  .next <| onlyIf (isManager s && s.hie.peers.any fun e => e.1 = d) (fun s =>
    declare (fun l _ => l.owner = remoteTag d) (remoteTag d) 6 <| raise 60 <| incF HIE_LOST_cnt 1 <| setF HIE_LOST_dev d (endPeer d s)) s

/-- MANAGER_LOST (R380): a worker or spare without heartbeats ends its admission with event 59. -/
def execManagerLost (s : State) : Out :=
  .next <| onlyIf (admitted s && !isManager s && ownRole s ≠ roleStandby) (fun s =>
    raise 59 (setB HIE_STAT_mlost true (endAdmission s))) s

/-- TAKEOVER (R381, R259): role manager and ID 0, the epoch raised and stored, TAKEOVER and the first HEARTBEAT sent, event 59. -/
def execTakeover (s : State) : Out :=
  .next <| onlyIf (!isManager s && serving s && hieOn s && (ownRole s = roleStandby && admitted s ||
      (getF SYS_STRAP_role s = 2 && !admitted s && s.hie.askRole = roleStandby))) (fun s =>
    let set := if admitted s then natAndNot s.hie.mgrSet (2 ^ ownId s) else 0
    let lost := getF HIE_STAT_mpos s
    let e := (getF FWT_EPOCH_epoch s + 1) % 2 ^ 32
    let peers := ((List.range 64).filter fun d => set.testBit d).map fun d =>
      (d, { role := roleWorker, beat := nowMs s, pos := (tabGet 64 s.hie.poss d) - 1 : Peer })
    let s1 := setF FWT_EPOCH_epoch e (storeWrite 3 0 { s with store := { s.store with epoch := e }
                                                              hie := { s.hie with peers := peers, last := tabDrop s.hie.last 0, yielded := false } })
    let s2 := setF HIE_STAT_role roleManager <| setF HIE_STAT_id 0 <| setB HIE_STAT_adm true <| setB HIE_STAT_mlost false <|
      setF HIE_STAT_mpos (sposOf s1) s1
    raise 59 (sendBeat (hieSend pTAKEOVER 255 false (beBytes 8 set ++ [BitVec.ofNat 8 lost] ++ List.replicate 7 0) s2))) s

/-- TAKEOVER_RECEIVE (R381, R382): a device named in the set follows the new manager with its epoch and a full refresh; one not named asks
anew; a manager compares claims. -/
def execTakeoverReceive (s : State) : Out :=
  .next <| takeMsg pTAKEOVER (fun _ => true) (fun m s =>
    if isManager s then managerBeat m s
    else if admitted s && (m.at 0 8).testBit (ownId s) then
      let c := stronger m (getF FWT_EPOCH_epoch s) (getF HIE_STAT_mpos s) s
      if c.1 then fullRefresh (setF FWT_EPOCH_epoch m.epoch (followManager m { c.2 with hie := { c.2.hie with mgrSet := m.at 0 8 } })) else c.2
    else if admitted s then otherManager m s
    else followManager m s) s

/-- PROBE_END (R382): 300 ms without another manager; the first HEARTBEAT goes, and held JOINs are answered from now on. -/
def execProbeEnd (s : State) : Out :=
  .next <| onlyIf (isManager s && isSet HIE_STAT_probe s) (fun s => sendBeat (setB HIE_STAT_probe false s)) s

/-- The part's ID comes from its position (R374). -/
def byPosition (s : State) : Bool :=
  ownRole s = roleSpare || ownRole s = roleRestricted || (ownRole s = roleWorker && isSet HIE_CFG_byid s)

/-- POSITION_CHANGE_REJOIN (R374): JOIN op 4 under the old ID; the request for the new one follows. -/
def execPositionChangeRejoin (s : State) : Out :=
  .next <| onlyIf (admitted s && !isManager s && byPosition s && posId s ≠ some (ownId s)) (fun s =>
    endAdmission (hieSend pJOIN 0 (ownRole s = roleRestricted) (joinPayload 4 (ownRole s) (ownId s) 0 s.fuse.ident s) s)) s

/-! The image exchange (R384, R385, R165). -/

/-- The part serves images: never one that boots flashless (R384). -/
def servesImages (s : State) : Bool :=
  getF SYS_STRAP_bootsrc s ≠ 3 && (if serving s then isManager s && isSet HIE_CFG_serve s else mode s ≥ mLoading && getF SYS_STRAP_role s = 1)

/-- The flash offset of the served image: the boot ROM's, or HIE_IMGOFF after the cut-over (R384). -/
def servedOffset (s : State) : Nat := if serving s then getF HIE_IMGOFF_off s else 0x01000000

/-- One piece sent as chunks to all, unless it went within the last 2 ms. -/
def servePiece (img : List Byte) (p : Nat) (s : State) : State :=
  let sent := s.hie.served.any fun e => e.1 = p && s.ticks < e.2 + 2000
  if 4096 * p ≥ img.length || sent then s
  else
    let chunks := (List.range 4).filter fun c => 4096 * p + 1024 * c < img.length
    let send (c : Nat) (t : State) : State :=
      let o := 4096 * p + 1024 * c
      hieSend pIMAGEBLOCK 255 true ([2, BitVec.ofNat 8 c] ++ beBytes 2 p ++ beBytes 4 (hdImageId img) ++ beBytes 4 img.length ++ [0, 0, 0, 0] ++
        (img.drop o).take 1024) t
    incF HIE_IMGSRV_pieces 1 (applyAll chunks send { s with hie := { s.hie with served := (p, s.ticks) :: s.hie.served.filter fun e => e.1 ≠ p } })

/-- IMAGE_BLOCK_REQUEST (R384): a request for pieces of the served image, whose bytes `img` the flash gives at `servedOffset`. -/
def execImageBlockRequest (img : List Byte) (s : State) : Out :=
  .next <| takeMsg pIMAGEBLOCK (fun m => m.at 0 1 = 1) (fun m s =>
    if !servesImages s || img.length < 128 then s
    else
      let s1 := incF HIE_IMGSRV_reqs 1 (emit (.note "flash read" [servedOffset s] []) s)
      let want := m.at 4 4
      if want ≠ 0 && want ≠ hdImageId img then s1
      else applyAll ((List.range (min 16 (m.at 10 2))).map (m.at 8 2 + ·)) (servePiece img) s1) s

/-- Pieces of the image being received. -/
def pieceCount (s : State) : Nat := ((s.loader.pieceId.map (·.2)).getD 0 + 4095) / 4096

/-- A chunk has arrived. -/
def chunkHere (k : Nat) (s : State) : Bool := tabGet [] s.loader.pieces k ≠ []

/-- Every chunk of piece p has arrived. -/
def pieceWhole (p : Nat) (s : State) : Bool :=
  let len := (s.loader.pieceId.map (·.2)).getD 0
  (List.range 4).all fun c => 4096 * p + 1024 * c ≥ len || chunkHere (4 * p + c) s

/-- Ascending runs, of at most 16, of a rising list: first and count. -/
def runsOf : List Nat → List (Nat × Nat)
  | [] => []
  | a :: r => match runsOf r with
    | (b, n) :: q => if b = a + 1 && n < 16 then (a, n + 1) :: q else (a, 1) :: (b, n) :: q
    | [] => [(a, 1)]

/-- The missing pieces are requested (R385). -/
def requestMissing (s : State) : State :=
  if !s.loader.head then requestPieces 0 0 1 s
  else
    let id := (s.loader.pieceId.map (·.1)).getD 0
    applyAll (runsOf ((List.range (pieceCount s)).filter fun p => !pieceWhole p s)) (fun r t => requestPieces id r.1 r.2 t) s

/-- Piece 0 is complete: steps 2 to 4 of R152, then the other pieces. -/
def headArrived (s : State) : State :=
  let h := (piecesImage s).take 128
  let len := (s.loader.pieceId.map (·.2)).getD 0
  match firstFail [checkHeader h false s, failIf (hdLen h ≠ len) fLENGTH 0 0 0] with
  | some f => loadFail f s
  | none => requestMissing (setF IMG_STATUS_phase 2 { s with loader := { s.loader with head := true, header := h } })

/-- One chunk of the image exchange at a flashless part in LOADING: IMG_STATUS.phase stays 8 until piece 0, the first that may come, is
whole (R165). -/
def takeChunk (m : PMsg) (s : State) : State :=
  let p := m.at 2 2
  let k := 4 * p + m.at 1 1 % 4
  let id := m.at 4 4
  let len := m.at 8 4
  let data := m.payload.drop 16
  let same := match s.loader.pieceId with
    | none => true
    | some x => x = (id, len)
  if !same || (p ≠ 0 && !s.loader.head) || data.length ≠ chunkLen len k || data = [] || chunkHere k s then s
  else
    let s1 := { s with loader := { s.loader with pieceId := some (id, len), pieces := tabPut [] s.loader.pieces k data, useful := s.ticks } }
    if !s1.loader.head && pieceWhole 0 s1 then headArrived s1 else s1

/-- IMAGE_PIECE_RECEIVE (R165, R385): a chunk from the manager. -/
def execImagePieceReceive (s : State) : Out :=
  .next <| takeMsg pIMAGEBLOCK (fun m => m.at 0 1 = 2) (fun m s =>
    if flashless s && mode s = mLoading && !s.loader.accepted then takeChunk m s else s) s

/-- IMAGE_REREQUEST_TIMEOUT (R385): 20 ms since the last useful chunk with pieces missing. -/
def execImageRerequestTimeout (s : State) : Out :=
  .next <| onlyIf (flashless s && mode s = mLoading && !s.loader.accepted && !(s.loader.head && piecesWhole s)) requestMissing s

/-! Deltas of the manager (R386). -/

/-- The manager as a requester. -/
def remoteManager (m : PMsg) : Requester := .remote m.src .secure

/-- The message is IMAGE_BLOCK with an op. -/
def imageOp (op : Nat) (m : PMsg) : Bool := m.at 0 1 = op

/-- IMAGE_BLOCK_DELTA_OPEN (R386, R166). -/
def execImageBlockDeltaOpen (s : State) : Out :=
  .next <| takeMsg pIMAGEBLOCK (imageOp 3) (fun m s =>
    if isManager s || m.src ≠ 0 then s
    else deltaReport (remoteTag m.src) (deltaOpen (remoteManager m) { s with hie := { s.hie with gather := none } })) s

/-- IMAGE_BLOCK_DELTA_CHUNK (R386, R167): chunks gather until the last one; one that does not continue them empties the gathering. -/
def execImageBlockDeltaChunk (s : State) : Out :=
  .next <| takeMsg pIMAGEBLOCK (imageOp 4) (fun m s =>
    let off := m.at 8 4
    let d := m.payload.drop 16
    let put (g : Option (Nat × List Byte)) (s : State) : State := { s with hie := { s.hie with gather := g } }
    if isManager s || m.src ≠ 0 then s
    else
      let next := match s.hie.gather with
        | none => some (off, d)
        | some (o, b) => if off = o + b.length then some (o, b ++ d) else none
      match next with
      | none => deltaReport (remoteTag m.src) (put none s)
      | some (o, b) =>
        if m.at 1 1 < 128 then put (some (o, b)) s
        else
          let s1 := put none s
          if !ownsSession (remoteManager m) s1 then deltaReport (remoteTag m.src) s1
          else if isSet IMG_DLTSTAT_busy s1 || !placeOk o b.length s1 then deltaReport (remoteTag m.src) (deltaDeliver o b.length (some b) s1)
          else deltaDeliver o b.length (some b) s1) s

/-- IMAGE_BLOCK_DELTA_CLOSE (R386, R168). -/
def execImageBlockDeltaClose (s : State) : Out :=
  .next <| takeMsg pIMAGEBLOCK (imageOp 5) (fun m s =>
    if isManager s || m.src ≠ 0 then s
    else if ownsSession (remoteManager m) s && !isSet IMG_DLTSTAT_busy s then deltaClose s
    else deltaReport (remoteTag m.src) (if ownsSession (remoteManager m) s then deltaRefuse 4 s else s)) s

/-- IMAGE_BLOCK_DELTA_ABORT (R386, R177). -/
def execImageBlockDeltaAbort (s : State) : Out :=
  .next <| takeMsg pIMAGEBLOCK (imageOp 6) (fun m s =>
    if isManager s || m.src ≠ 0 then s
    else if ownsSession (remoteManager m) s then deltaEnd 1 s else deltaReport (remoteTag m.src) s) s

/-- IMAGE_BLOCK_STATUS (R386): the manager keeps what a device reports; what it then re-sends comes from outside. -/
def execImageBlockStatus (s : State) : Out :=
  .next <| takeMsg pIMAGEBLOCK (imageOp 7) (fun m s =>
    if isManager s && s.hie.peers.any fun e => e.1 = m.src then
      { s with hie := { s.hie with peers := tabPut {} s.hie.peers m.src { tabGet {} s.hie.peers m.src with dlt := (m.at 4 4, m.at 8 4) } } }
    else s) s

/-! HIE_CMD (R389, R483). -/

/-- The devices a command names. -/
def cmdTargets (w : Word) (s : State) : List Nat :=
  if wbits w 0 7 = 0x7F then s.hie.peers.map (·.1) else [wbits w 0 7]

/-- A write of HIE_CMD: by the manager's secure world, with the key; one message to each target. -/
def hieCommand (rq : Requester) (w : Word) (s : State) : State :=
  if !keyed 0x7C19 w || !rqSecure rq || !isManager s then busError s
  else
    let send (type : Nat) (b : List Byte) (restricted : Bool) : State :=
      applyAll (cmdTargets w s) (fun d t => hieSend type d (restricted && isRestricted d t) b t) (busDone s)
    match wbits w 8 3 with
    | 1 => send pWEARREPORT [1, 0, 0, 0] false
    | 2 => send pREVOKE [2, 0, 0, 0] true
    | 3 => send pREVOKE [3, 0, 0, 0] false
    | 4 => send pREVOKE [1, 1, 0xFF, 0] false
    | _ => busError s

/-- A command row's write, where the word names its op. -/
def hieCmdOp (op : Nat) (rq : Requester) (w : Word) (s : State) : State := if wbits w 8 3 = op then hieCommand rq w s else s

/-- WEAR_REPORT_REQUEST (R389): HIE_CMD op 1. -/
def cmdWearReportRequest (rq : Requester) (w : Word) (s : State) : State := hieCmdOp 1 rq w s

/-- The same under the rights of its requester. -/
def execWearReportRequest (rq : Requester) (w : Word) (s : State) : Out :=
  .next (gate rq true 0x4016002C 0 (cmdWearReportRequest rq w) s)

/-- One record of a wear report (R391, R483). -/
def wearBytes (x : Nat × Nat) (s : State) : List Byte :=
  beBytes 2 x.1 ++ [BitVec.ofNat 8 x.2, BitVec.ofNat 8 (usedPercent x.1 x.2 s)] ++ beBytes 8 (itemValue x.1 x.2 s) ++
    beBytes 4 (eolRemaining x.1 x.2 s)

/-- WEAR_REPORT_SEND (R483, R389): the ledger's items in messages of 64 records, the last flagged. -/
def execWearReportSend (s : State) : Out :=
  .next <| takeMsg pWEARREPORT (fun m => m.at 0 1 = 1) (fun m s =>
    let items := liveItems s
    let n := (items.length + 63) / 64
    applyAll (List.range n) (fun i t =>
      let l := (items.drop (64 * i)).take 64
      hieSend pWEARREPORT m.src false ([2, BitVec.ofNat 8 i, if i + 1 = n then 1 else 0, BitVec.ofNat 8 l.length] ++
        l.flatMap fun x => wearBytes x s) t) s) s

/-- REMOTE_FULL_RESET (R389, R84): HIE_CMD op 2 on the manager, or REVOKE op 2 on its target. -/
def execRemoteFullReset (side : HieSide) (s : State) : Out :=
  .next <| match side with
    | .command rq w => gate rq true 0x4016002C w (hieCmdOp 2 rq w) s
    | .message => takeMsg pREVOKE (fun m => m.at 0 1 = 2) (fun m s => if m.src = 0 then fullReset SYS_RSTCAUSE_remfull s else s) s

/-- REMOTE_NORMAL_RESET (R389): HIE_CMD op 3, or REVOKE op 3. -/
def execRemoteNormalReset (side : HieSide) (s : State) : Out :=
  .next <| match side with
    | .command rq w => gate rq true 0x4016002C w (hieCmdOp 3 rq w) s
    | .message => takeMsg pREVOKE (fun m => m.at 0 1 = 3) (fun m s => if m.src = 0 then worldReset .normal SYS_RSTCAUSE_remnorm 2 s else s) s

/-- Leases a REVOKE op 1 names, of remote-device owners only (R202). -/
def revokeMessage (m : PMsg) (s : State) : State :=
  let all := m.at 1 1 = 1
  let who := m.at 2 1
  let names := (List.range (min 16 (m.at 3 1))).map fun i => m.at (4 + 2 * i) 2
  let reach (l : Lease) (n : Nat) : Bool := l.owner % 8 = 7 && (if all then who = 255 || l.owner = remoteTag who else names.contains n)
  let owners := ((s.ink.leases.filter fun e => e.2.state == .held && reach e.2 e.1).map fun e => e.2.owner).dedup
  applyAll owners (fun o t => declare (fun l n => l.owner = o && reach l n) o 6 t) s

/-- REMOTE_REVOKE (R389, R202): HIE_CMD op 4, or REVOKE op 1. -/
def execRemoteRevoke (side : HieSide) (s : State) : Out :=
  .next <| match side with
    | .command rq w => gate rq true 0x4016002C w (hieCmdOp 4 rq w) s
    | .message => takeMsg pREVOKE (fun m => m.at 0 1 = 1) (fun m s => if m.src = 0 then revokeMessage m s else s) s

end Sys2Proof.Machine
end

