-- ==== Sys2Proof/Machine/Leases.lean ====
section
/-! DEFINITION. Leases after their grant: renewal, release, expiry, revocation and reclaim (R198 to R205), and the sending of Caravans
(R258, R260). -/

namespace Sys2Proof.Machine

/-! Renewal and release (R201). -/

/-- The loader waits for the resource of a lease (R172). -/
def loaderWaits (l : Lease) (s : State) : Bool := s.loader.wants.any fun b => lockRes b = (l.kind, l.res)

/-- A renewal: the duration restarts, or the request is refused and nothing changes. Page chains and block locks are renewable (R199). -/
def leaseRenew (rq : Requester) (n : Nat) (s : State) : State :=
  if !holdsLease n rq s then busError s
  else
    let l := leaseOf n s
    if l.dur.isNone || loaderWaits l s || !(l.kind = 1 || l.kind = 2) then busDone s
    else busDone (setLease n { l with left := l.dur } s)

/-- LEASE_RENEW (R201, R172): a write of INK_LSRENEW. -/
def cmdLeaseRenew (rq : Requester) (n : Nat) (s : State) : State := leaseRenew rq (n % 1024) s

/-- The same under the rights of its requester. -/
def execLeaseRenew (rq : Requester) (n : Nat) (s : State) : Out :=
  .next (gate rq true 0x4004006C 0 (cmdLeaseRenew rq n) s)

/-- The fetch buffer of a lease is given back (R365). -/
def fetchDrop (n : Nat) (s : State) : State := { s with brg := { s.brg with fetches := s.brg.fetches.filter fun e => e.2.lease ≠ n } }

/-- A lease ends by its owner's release; a block lock commits what is staged (R200). -/
def releaseEffect (n : Nat) (l : Lease) (s : State) : State :=
  match l.kind with
  | 1 => freePages (chainFrom 64 l.res s) s
  | 2 => if l.res = 0 then swcCommit s else fwtCommit s
  | 4 => pkeLeaseEnd s
  | 5 => fetchDrop n s
  | 6 =>
    let owner := s.loader.owner
    deltaReport owner (setFree IMG_DLTSTAT_end (sessionClear 0 s))
  | _ => s

/-- A release. -/
def leaseRelease (rq : Requester) (n : Nat) (s : State) : State :=
  if !holdsLease n rq s then busError s
  else
    let l := leaseOf n s
    busDone (releaseEffect n l (setLease n {} s))

/-- LEASE_RELEASE (R201, R200): a write of INK_LSREL. -/
def cmdLeaseRelease (rq : Requester) (n : Nat) (s : State) : State := leaseRelease rq (n % 1024) s

/-- The same under the rights of its requester. -/
def execLeaseRelease (rq : Requester) (n : Nat) (s : State) : Out :=
  .next (gate rq true 0x40040070 0 (cmdLeaseRelease rq n) s)

/-! Declarations and reclaim (R202 to R205). -/

/-- LEASE_EXPIRY (R202): a lease with a duration runs out. Fetch buffers expire by FAR_RESULT_EXPIRY. -/
def execLeaseExpiry (n : Nat) (s : State) : Out :=
  .next <|
    let l := leaseOf n s
    onlyIf (l.state == .held && l.dur.isSome && l.kind ≠ 5) (fun s => declare (fun _ k => k == n) l.owner 3 s) s

/-- The requester may revoke a lease (R203). -/
def mayRevoke (rq : Requester) (l : Lease) : Bool :=
  let k := l.owner % 8
  if rqSecure rq then k ≠ 7 else k = 1 || k = 3 || k = 5

/-- A revocation is refused. -/
def revokeRefuse (why : Nat) (s : State) : State := setB INK_REVSTAT_refused true (setF INK_REVSTAT_why why s)

/-- A write of INK_REVOKE (R202, R203). -/
def inkRevoke (rq : Requester) (w : Word) (s : State) : State :=
  let n := wbits w 0 10
  let l := leaseOf n s
  let s1 := busDone s
  if l.state != .held then revokeRefuse 1 s1
  else if !mayRevoke rq l then revokeRefuse 2 s1
  else
    let code := if rqSecure rq then 4 else 5
    if w.getLsbD 16 then declare (fun e _ => e.owner = l.owner) l.owner code s1 else declare (fun _ k => k == n) l.owner code s1

/-- INK_REVOKE (R203). -/
def cmdInkRevoke (rq : Requester) (w : Word) (s : State) : State := inkRevoke rq w s

/-- The same under the rights of its requester. -/
def execInkRevoke (rq : Requester) (w : Word) (s : State) : Out :=
  .next (gate rq true 0x40040080 0 (cmdInkRevoke rq w) s)

/-- What the reclaim of one fenced lease does (R204), and its record freed; a record that an access begun before the fence has freed since is
no longer the declaration's. -/
def reclaimOne (n : Nat) (s : State) : State :=
  let l := leaseOf n s
  if !(l.state == .fenced || l.state == .reclaiming) then s
  else
    let s1 := match l.kind with
      | 1 => freePages (leasedPages n s) s
      | 2 => if l.res = 0 then swcDiscard s else fwtDiscard s
      | 4 => pkeLeaseEnd s
      | 5 => fetchDrop n s
      | 6 => deltaEnd 2 s
      | _ => s
    setLease n {} s1

/-- RECLAIM_DONE (R204): the leases of the oldest declaration are reclaimed; event 16 and INK_REVLOG. -/
def execReclaimDone (s : State) : Out :=
  .next <| match s.ink.decls with
    | [] => s
    | d :: r =>
      let s1 := applyAll d.leases reclaimOne { s with ink := { s.ink with decls := r } }
      raise 16 <| setF INK_REVLOG0_owner d.owner <| setF INK_REVLOG0_decl d.decl <| setF INK_REVLOG1_count d.leases.length <|
        incF INK_REVLOG1_total 1 s1

/-! Caravans sent (R257, R258, R260). -/

/-- A learning record in network order (R257). -/
def recordOut (r : CvRecord) : List Byte :=
  slice r.mac 0 6 ++ beBytes 2 (r.vid % 4096 + (if r.withdraw then 4096 else 0)) ++ beBytes 4 r.ts ++
    [BitVec.ofNat 8 (r.pos % 64), BitVec.ofNat 8 r.dev, 0, 0]

/-- The oldest waiting Caravan is filled: 32 records, 1 ms since its first by the model's clock (log entry 109), or a later one begun (R258). -/
def caravanReady (s : State) : Bool :=
  match s.fwt.out with
  | [] => false
  | [_] => !cvOpen s
  | _ => true

/-- CARAVAN_SEND (R258, R260): the oldest waiting Caravan, once filled, leaves to the manager or, as redistribution, to all; without a
manager it is dropped. -/
def execCaravanSend (s : State) : Out :=
  .next <| onlyIf (caravanReady s && hieOn s && (admitted s || isSet HIE_STAT_mlost s)) (fun s =>
    let l := s.fwt.out.headD []
    let r := s.fwt.out.drop 1
    let s1 := setF FWT_CVQ_out r.length { s with fwt := { s.fwt with out := r } }
    if isSet HIE_STAT_mlost s then incF (FWT_CVCNT_cnt 6) l.length s1
    else
      let mgr := isManager s
      incF (FWT_CVCNT_cnt 0) 1 (hieSend pCARAVAN (if mgr then 255 else 0) false
        ([BitVec.ofNat 8 l.length, if mgr then 1 else 0, 0, 0] ++ l.flatMap recordOut) s1)) s

end Sys2Proof.Machine
end

