-- ==== Sys2Proof/Machine/Views.lean ====
section
/-! DEFINITION. What the read-only fields show that follow other state: each is computed at the read, and written nowhere. -/

namespace Sys2Proof.Machine

/-- A truth value as a bit. -/
def bit (b : Bool) : Nat := if b then 1 else 0

/-! SYS, EVC, LNK, AON, FAB. -/

/-- The part's silicon step. -/
def liveSys (s : State) : State := setF SYS_REVID_step revStep s

/-- LNK_WIRESTAT. -/
def liveLnk (s : State) : State :=
  setF LNK_WIRESTAT_in (localIn s) <| setF LNK_WIRESTAT_rxa s.linkA.w <| setF LNK_WIRESTAT_rxb s.linkB.w <|
    setF LNK_WIRESTAT_out (((List.range 4).map fun n => bit (wireOut n s) * 2 ^ n).sum) <|
      setF LNK_WIRESTAT_wpol (getF SYS_STRAP_wpol s) s

/-- AON_RTCLO. -/
def liveAon (s : State) : State := setF AON_RTCLO_frac s.aon.frac s

/-- A mask of the tiles for which a condition holds: the 32 from lo. -/
def tileMask (lo : Nat) (c : Nat → Bool) : Nat := ((List.range 32).map fun i => bit (lo + i < 48 && c (lo + i)) * 2 ^ i).sum

/-- An enabled bit of CAN_EVT is set (R302). -/
def canEvtOn (n : Nat) (s : State) : Bool :=
  isCan n s && ([CAN_EVT_rxpend n, CAN_EVT_txdone n, CAN_EVT_txcan n, CAN_EVT_ovr n, CAN_EVT_warn n, CAN_EVT_passive n, CAN_EVT_busoff n,
    CAN_EVT_recovered n, CAN_EVT_perr n, CAN_EVT_xlovr n, CAN_EVT_txbad n].any fun f =>
      isSet f s && (getF (CAN_EVTEN_en n) s).testBit f.lo)

/-- An enabled bit of SER_EVT is set (R326). -/
def serEvtOn (n : Nat) (s : State) : Bool :=
  [3, 4, 5, 6].contains (tileFunc n s) && ([SER_EVT_rx n, SER_EVT_ovr n, SER_EVT_err n, SER_EVT_tx n, SER_EVT_sched n].any fun f =>
    isSet f s && (getF (SER_EVTEN_en n) s).testBit f.lo)

/-- FAB_CANEVT and FAB_SEREVT. -/
def liveFab (s : State) : State :=
  setF FAB_CANEVT0_e (tileMask 0 fun n => canEvtOn n s) <| setF FAB_CANEVT1_e (tileMask 32 fun n => canEvtOn n s) <|
    setF FAB_SEREVT0_e (tileMask 0 fun n => serEvtOn n s) <| setF FAB_SEREVT1_e (tileMask 32 fun n => serEvtOn n s) s

/-! INK. -/

/-- The Waybills of the store that are not inline: one for each chain among the queues, the frames being sent or received, the holds and
the items. -/
def chainHeads (s : State) : List Nat :=
  let q := s.swc.queues.flatMap fun e => e.2.map (·.wb)
  let t := s.swc.sending.map fun e => e.2.wb
  let i := s.swc.inflight.map fun e => e.2.wb
  let a := s.swc.authq.map (·.wb)
  let l := s.ink.lodgers.flatMap fun e => (e.2.queue ++ e.2.running.toList).filterMap fun x => match x.work with
    | .frame w => some w
    | _ => none
  ((q ++ t ++ i ++ a ++ l).filterMap fun w => if w.inline then none else w.pages.head?).eraseDups

/-- INK_LDGSTAT.state (R191 to R197). -/
def lodgerState (l : Lodger) : Nat :=
  if !l.present then 0 else if l.fenced then 6 else if l.faulting || l.waitingVictim then 5 else if l.running.isSome then 3
  else if l.suspended then 4 else if l.queue ≠ [] then 2 else 1

/-- The state code of a lease record. -/
def leaseState : LeaseState → Nat
  | .free => 0
  | .held => 1
  | .fenced => 2
  | .reclaiming => 3

/-- INK's views: the selected quota set, lease and lodger, the counts of the stores, the scheduler. -/
def liveInk (s : State) : State :=
  let l := leaseOf (getF INK_LSSEL_idx s) s
  let g := lodgerOf (getF INK_LDGSEL_lid s) s
  let s1 := match setIdx (getF INK_QSEL_port s) (getF INK_QSEL_tc s) s with
    | none => s
    | some i => setF INK_QINFO0_guar (setPart i s).guar <| setF INK_QINFO0_used (setUsed i s) <| setF INK_QINFO1_cap (setPart i s).cap <|
        setF INK_QINFO1_allow (allowance (setPart i s).cap (getF SYS_STARTUP_ramp s)) s
  let s2 := setF INK_WBFREE_free (65536 - (chainHeads s).length - inlineCount s) <| setF INK_INLINE_used (inlineCount s) s1
  let s3 := setF INK_LSINFO0_state (leaseState l.state) <| setF INK_LSINFO0_kind l.kind <| setF INK_LSINFO0_res l.res <|
    setF INK_LSINFO1_owner l.owner <| setF INK_LSINFO1_left (if l.state = .free then 0 else match l.left with
      | some n => min n 65534
      | none => 0xFFFF) <|
    setF INK_LSCOUNT_held (s.ink.leases.filter fun e => e.2.state ≠ .free && e.1 < 1024).length s2
  let s4 := setF INK_LDGSTAT_state (lodgerState g) <| setB INK_LDGSTAT_res g.resident <|
    setB INK_LDGSTAT_pin (g.present && lodgerPinned (getF INK_LDGSEL_lid s) s) <| setB INK_LDGSTAT_late (g.queue.any (·.late)) <|
    setF INK_LDGBUD_left g.left <| setF INK_LDGMISS_periods (min g.missPeriods 0xFFFF) <| setF INK_LDGMISS_items (min g.missItems 0xFFFF) <|
    setF INK_LDGOVR_ovr (min g.ovr 0xFFFF) <| setF INK_LDGOVR_faults (min g.faults 0xFFFF) <| setF INK_LDGQ_queued g.queue.length s3
  let s5 := setF INK_SCHED_busy (enginesBusy s) <| setF INK_SCHED_resident (s.ink.lodgers.filter fun e => e.2.resident).length s4
  applyAll (List.range 8) (fun i t =>
    setF (INK_RESIDENT_res i) (((List.range 32).map fun j => bit (lodgerOf (32 * i + j) s).resident * 2 ^ j).sum) t) s5

/-! SWC, FWT, TRN. -/

/-- A class queue's depth shown. -/
def showDepth (p c : Nat) (s : State) : State :=
  let q := if p < 16 || p ≥ 18 then queueAt (queueKey p 0 c) s
    else if p = 16 then (List.range 32).flatMap fun r => (queueAt (queueKey 16 r 0) s).filter fun x => x.wb.tc = c
    else (List.range 64).flatMap fun d => queueAt (queueKey 17 d c) s
  setF (SWC_QDEPTH_pages p c) (queuePages q) (setF (SWC_QDEPTH_frames p c) (min q.length 0xFFFF) s)

/-- SWC's views at an address for a requester: the lock, the selected VLAN and stream, queue depths. -/
def liveSwc (rq : Requester) (a : Nat) (s : State) : State :=
  if a < 0x40071000 then
    let v := tabGet (0, 0) s.swc.vlan (getF SWC_VLSEL_vid s)
    let c := cbOf (getF SWC_CBSEL_sh s) s
    let s1 := setB SWC_LOCK_held (lockHeldBy 0 rq s) <| setF SWC_VLMEM_member v.1 <| setF SWC_VLMEM_untag v.2 s
    let s2 := setF SWC_CBCFG_len c.len <| setB SWC_CBCFG_pop c.pop <| setB SWC_CBCFG_en c.en <| setF SWC_CBCFG_reset c.reset <|
      setF SWC_CBRESETS_cnt c.resets s1
    applyAll (List.range 6) (fun i => setF (SWC_CBCNT_cnt i) (c.cnts.getD i 0)) s2
  else if between (a % 0x400) 0xA0 0xC0 then showDepth ((a - 0x40071000) / 0x400) ((a % 0x400 - 0xA0) / 4) s
  else s

/-- FWT's view: the lock. -/
def liveFwt (rq : Requester) (s : State) : State := setB FWT_LOCK_held (lockHeldBy 1 rq s) s

/-- Counter i of the selected lodger. -/
def trnCnt (i : Nat) (s : State) : Nat := tabGet 0 s.trn.cnts (16 * getF TRN_LSEL_lid s + i)

/-- TRN's views of the selected lodger: its records and counters (R264). -/
def liveTrn (s : State) : State :=
  let r := ((lodgerRec (getF TRN_LSEL_lid s) s).map (·.recipe)).getD []
  setF TRN_LINFO_nin (leAt r 0 2) <| setF TRN_LINFO_nout (leAt r 2 2) <|
    setF TRN_RXCNT_items (trnCnt tItems s) <| setF TRN_TXCNT_outputs (trnCnt tOutputs s) <| setF TRN_NOMATCH_nomatch (trnCnt tNomatch s) <|
    setF TRN_NOMATCH_short (trnCnt tShort s) <| setF TRN_SATCNT_sat (trnCnt tSat s) <| setF TRN_SATCNT_inv (trnCnt tInv s) <|
    setF TRN_TMOCNT_tmo (trnCnt tTmo s) <| setF TRN_TMOCNT_authrej (trnCnt tAuthrej s) <| setF TRN_LATECNT_sent (trnCnt tLateSent s) <|
    setF TRN_LATECNT_drop (trnCnt tLateDrop s) <| setF TRN_DEFCNT_def (trnCnt tDef s) <| setF TRN_DEFCNT_merge (trnCnt tMerge s) s

/-! WKS, BRG, HIE, TSY. -/

/-- The idle time of a tile (R345). -/
def liveWks (a : Nat) (s : State) : State :=
  let n := (a - 0x400C1000) / 0x40
  setF (WKS_TSTAT_idle n) (min 65535 (nowNs s / 1000000 - tabGet 0 s.wks.seen n)) s

/-- BRG_FWSTAT and BRG_REVSTAT.fill. -/
def liveBrg (s : State) : State :=
  setF BRG_FWSTAT_bufs s.brg.fetches.length <| setF BRG_FWSTAT_wq s.brg.writes.length <| setF BRG_REVSTAT_fill s.brg.revq.length s

/-- The admitted set as the manager states it (R380). -/
def admittedSet (s : State) : Nat := if isManager s then peerSet s else s.hie.mgrSet

/-- HIE_ADM and HIE_DEVINFO. -/
def liveHie (s : State) : State :=
  let d := getF HIE_DEVSEL_dev s
  let s1 := setF HIE_ADM0_adm (admittedSet s % 2 ^ 32) (setF HIE_ADM1_adm (admittedSet s / 2 ^ 32) s)
  match s.hie.peers.find? fun e => e.1 = d with
  | none => s1
  | some (_, p) =>
    setF HIE_DEVINFO0_role p.role <| setB HIE_DEVINFO0_adm true <| setF HIE_DEVINFO0_pos p.pos <| setF HIE_DEVINFO0_cfg p.cfg <|
      setF HIE_DEVINFO0_age (min 255 (sub32 (nowMs s) p.beat / 10)) <| setF HIE_DEVINFO1_ident p.ident <|
      setF HIE_DEVINFO2_ident (p.ident / 2 ^ 32) <| setF HIE_DEVINFO3_image p.image s1

/-- The time base's views (R319). -/
def liveTsy (s : State) : State :=
  setF TSY_NOWNS_ns s.time.ns <| setF TSY_NOWSLO_sec (s.eth.latchSec % 2 ^ 32) <| setF TSY_NOWSHI_sec (s.eth.latchSec / 2 ^ 32) <|
    setF TSY_NOWUS_us (nowUs s) s

/-! KST, WLD, PKE, WER. -/

/-- The key store's views: fuses, the selected slot and node, the shelf (R392 to R409). -/
def liveKst (s : State) : State :=
  let lc := lifecycle s
  let f := s.fuse
  let k := slotOf (getF KST_SLOTSEL_slot s) s
  let n := nodeOf (getF KST_NODESEL_node s) s
  let s1 := setF KST_LCSTATE_state lc <| setB KST_LCSTATE_rootok (f.aDone.testBit lc || f.bDone.testBit lc) <|
    setB KST_LCSTATE_areab (!f.aDone.testBit lc && f.bDone.testBit lc) <| setF KST_IDENT0_ident f.ident <|
    setF KST_IDENT1_ident (f.ident / 2 ^ 32) <| setF KST_IKSTAT_prog f.ikProg <| setF KST_IKSTAT_rev f.ikRev <|
    setF KST_FLOOR_floor s.store.floor <| setF KST_SHELFRES_free (shelfFree s / 16) s
  let s2 := setF KST_SLOTINFO0_state (slotState2 (getF KST_SLOTSEL_slot s) s) <| setF KST_SLOTINFO0_ktype k.ktype <|
    setF KST_SLOTINFO0_leases (slotLeases (getF KST_SLOTSEL_slot s) s) <| setF KST_SLOTINFO0_usage k.usage <|
    setF KST_SLOTINFO1_keyid k.keyid <| setF KST_SLOTINFO2_node k.node <| setF KST_SLOTINFO2_idx k.idx s1
  setF KST_NODEINFO0_state (match n.state with
      | .free => 0
      | .live => 1
      | .orphaned => 2) <|
    setF KST_NODEINFO0_parent n.parent <| setF KST_NODEINFO0_depth n.depth <| setF KST_NODEINFO1_gen n.gen s2

/-- WLD_DBG (R397). -/
def liveWld (s : State) : State :=
  setB WLD_DBG_dbgn (debugReach .normal s) <| setB WLD_DBG_dbgs (debugReach .secure s) <|
    setB WLD_DBG_attached (s.keys.scan == .dbgsel && debugReach .normal s) s

/-- The ledger clock, day and temperature histogram (R468, R471). -/
def liveWer (s : State) : State :=
  applyAll (List.range 8) (fun b => setF (WER_THIST_sec b) (min (itemValue 0x0302 b s) (2 ^ 32 - 1)))
    (setF WER_CLOCK_sec s.wear.clock (setF WER_DAY_day (ledgerDay s) s))

/-! Tiles and ports. -/

/-- The host-claimed receive buffer that holds the oldest frame, by the tile's receive sequence (R290). -/
def oldestClaimed (n : Nat) (s : State) : Nat :=
  let c := canOf n s
  let age (b : RxBuf) : Nat := (c.seq + 256 - bitsOf (b.words.getD 1 0) 24 8 - 1) % 256
  ((c.rx.filter fun e => e.2.host).foldl (fun m e => match m with
    | none => some e
    | some x => if age x.2 < age e.2 then some e else some x) none).elim 0 (·.1)

/-- A CAN tile's views: CAN_RXSTAT and the low word of each freshness value. -/
def liveCan (n o : Nat) (s : State) : State :=
  let c := canOf n s
  if o = 0x040 then
    setF (CAN_RXSTAT_head n) (oldestClaimed n s) <| setF (CAN_RXSTAT_pend n) (c.rx.filter fun e => e.2.host).length <|
      setF (CAN_RXSTAT_used n) ((List.range 64).filter fun i => !rxFree n i s).length <|
      setF (CAN_RXSTAT_lck n) (c.rx.filter fun e => e.2.lock.isSome).length s
  else if 0x400 ≤ o && o < 0x600 && o % 0x20 = 0x10 then
    setF (CAN_AUFVLO_fv n ((o - 0x400) / 0x20)) (freshOf n ((o - 0x400) / 0x20) s) s
  else s

/-- A port's views: the one MDIO master behind every copy (R314), the coordinator of a segment (R315), the oldest stamp. -/
def livePort (p : Nat) (s : State) : State :=
  let s1 := setB (ETH_MDIOSTAT_busy p) (isSet (ETH_MDIOSTAT_busy 0) s) <| setF (ETH_MDIOSTAT_data p) (getF (ETH_MDIOSTAT_data 0) s) <|
    setF (ETH_MDIOCFG_div p) (getF (ETH_MDIOCFG_div 0) s) s
  if 12 ≤ p && p < 16 then setB (T1S_STAT_coord (p - 12)) (portUsed p s && getF (T1S_PLCACFG_id (p - 12)) s = 0) s1 else s1

/-- The state with the views of an address filled in, as the requester sees them. -/
def live (rq : Requester) (a : Nat) (s : State) : State :=
  if tileWindow a then (if isCan (tileOfAddr a) s then liveCan (tileOfAddr a) (a % 0x1000) s else s)
  else if portWindow a then livePort (portOfAddr a) s
  else match blockOf a with
    | 0x0 => liveSys s
    | 0x4 => liveInk s
    | 0x6 => liveFab s
    | 0x7 => liveSwc rq a s
    | 0x8 => liveFwt rq s
    | 0x9 => liveTrn s
    | 0xA => liveBrg s
    | 0xB => liveLnk s
    | 0xC => liveWks a s
    | 0xD => liveKst s
    | 0xF => setB PKE_LOCK_held (pkeHolder rq s) s
    | 0x10 => liveWld s
    | 0x14 => liveWer s
    | 0x15 => liveAon s
    | 0x16 => liveHie s
    | 0x17 => liveTsy s
    | _ => s

/-! What a read changes beyond its RC fields. -/

/-- The first words of the latching pairs copy the others (R361, R113, R319, R306, R329). -/
def latchPair (a : Nat) (s : State) : State :=
  if a = TSY_NOWNS_ns.addr then { s with eth := { s.eth with latchSec := s.time.sec } }
  else if a = AON_RTCLO_frac.addr then setF AON_RTCHI_sec s.aon.sec s
  else if tileWindow a then
    let n := tileOfAddr a
    let o := a % 0x1000
    if isCan n s && 0x400 ≤ o && o < 0x600 && o % 0x20 = 0x10 then
      setF (CAN_AUFVHI_fv n ((o - 0x400) / 0x20)) (freshOf n ((o - 0x400) / 0x20) s / 2 ^ 32) s
    else if isLin n s && 0x600 ≤ o && o < 0x800 && o % 8 = 0 then
      setF (LIN_RXD_data n ((o - 0x600) / 4 + 1)) (tabGet 0 (serOf n s).rxHi ((o - 0x600) / 8)) s
    else s
  else s

/-- The counters a read clears that other state holds: of the selected lodger (R194, R264) and stream (R225). -/
def clearLive (a : Nat) (s : State) : State :=
  let lid := getF INK_LDGSEL_lid s
  let g := lodgerOf lid s
  let k := getF SWC_CBSEL_sh s
  let c := cbOf k s
  let drop (l : List Nat) : State :=
    { s with trn := { s.trn with cnts := l.foldl (fun t i => tabDrop t (16 * getF TRN_LSEL_lid s + i)) s.trn.cnts } }
  if a = INK_LDGMISS_periods.addr then setLodger lid { g with missPeriods := 0, missItems := 0 } s
  else if a = INK_LDGOVR_ovr.addr then setLodger lid { g with ovr := 0, faults := 0 } s
  else if a = INK_POOLMIN_min.addr then setF INK_POOLMIN_min (getF INK_POOLFREE_free s) s
  else if between a 0x40070148 0x40070160 then setCb k { c with cnts := c.cnts.set ((a - 0x40070148) / 4) 0 } s
  else if a = SWC_CBRESETS_cnt.addr then setCb k { c with resets := 0 } s
  else if a = TRN_RXCNT_items.addr then drop [tItems]
  else if a = TRN_TXCNT_outputs.addr then drop [tOutputs]
  else if a = TRN_NOMATCH_nomatch.addr then drop [tNomatch, tShort]
  else if a = TRN_SATCNT_sat.addr then drop [tSat, tInv]
  else if a = TRN_TMOCNT_tmo.addr then drop [tTmo, tAuthrej]
  else if a = TRN_LATECNT_sent.addr then drop [tLateSent, tLateDrop]
  else if a = TRN_DEFCNT_def.addr then drop [tDef, tMerge]
  else s

end Sys2Proof.Machine
end

