-- ==== Sys2Proof/Machine/Regs.lean ====
section
/-! DEFINITION. The register space as a bus sees it (R5 to R10, R496, R497): a read of any register and a write of any register,
each handed to the row that gives it its effect where it has one. -/

namespace Sys2Proof.Machine

/-! The event controller's registers (R487 to R495). -/

/-- The bank of EVC_THRESH of a core and world (R491): eight 4-bit banks behind one address. -/
def threshBank (c : Nat) (w : World) : Fld := ⟨EVC_THRESH_min.addr, 4 * (c % 4 + (if w == .secure then 4 else 0)), 4, 0⟩

/-- An event asserts the line of a core in a world (R491). -/
def assertsLine (c : Nat) (w : World) (e : Nat) (s : State) : Bool :=
  evPending e s && isSet (EVC_ROUTE_irq e) s && getF (EVC_ROUTE_core e) s = c % 4 &&
    isSet (EVC_ROUTE_world e) s == (w == .secure) && !evBit (if w == .secure then evMaskS else evMaskN) e s &&
    getF (EVC_ROUTE_prio e) s ≥ getF (threshBank c w) s

/-- The event EVC_CLAIM returns: the highest prio, the lowest number among equals (R491). -/
def claimed (c : Nat) (w : World) (s : State) : Option Nat :=
  ((List.range 64).filter fun e => assertsLine c w e s).foldl (fun b e => match b with
    | none => some e
    | some x => if getF (EVC_ROUTE_prio x) s < getF (EVC_ROUTE_prio e) s then some e else some x) none

/-- EVC_CLAIM as a core reads it. -/
def claimWord (c : Nat) (w : World) (s : State) : Nat :=
  match claimed c w s with
  | some e => e + getF (EVC_ROUTE_prio e) s * 2 ^ 8 + 2 ^ 31
  | none => 0

/-- A register banked by core is read or written by a core alone (R491). -/
def banked (rq : Requester) (g : Nat → World → State → State) (s : State) : State :=
  match rq with
  | .core c w => g c w s
  | _ => busError s

/-- An event is secure-owned (R490). -/
def ownedSecure (e : Nat) (s : State) : Bool := evBit evOwn e s

/-- A write of EVC_ROUTE[e] under the rights of R490. -/
def routeWrite (rq : Requester) (e : Nat) (w : Word) (s : State) : State :=
  if e ≥ 64 then busError s
  else if !rqSecure rq && (ownedSecure e s || (wbits w 3 1 = 1 && wbits w 2 1 = 1)) then busError s
  else if !wordOk (EVC_ROUTE_core e).addr w.toNat s then busError s
  else
    setF (EVC_ROUTE_core e) (wbits w 0 2) <| setF (EVC_ROUTE_world e) (wbits w 2 1) <| setF (EVC_ROUTE_irq e) (wbits w 3 1) <|
      setF (EVC_ROUTE_vec e) (wbits w 4 6) <| setF (EVC_ROUTE_msix e) (wbits w 10 1) <| setF (EVC_ROUTE_hie e) (wbits w 11 1) <|
      setF (EVC_ROUTE_wire e) (wbits w 12 2) <| setF (EVC_ROUTE_prio e) (wbits w 16 4) (busDone s)

/-- A write of EVC_SOFT (R495). -/
def softWrite (w : Word) (s : State) : State :=
  let s1 := if w.getLsbD 0 then raise 62 (busDone s) else busDone s
  if w.getLsbD 1 then raise 63 s1 else s1

/-- A clear of pending bits: the normal world's ones in bits of secure-owned events are ignored (R490). -/
def pendClear (rq : Requester) (pend own : Fld) (w : Word) (s : State) : State :=
  clrF pend (if rqSecure rq then w.toNat else natAndNot w.toNat (getF own s)) (busDone s)

/-- A write only the secure world makes, by a chapter R412 does not name: from the normal world a bus error. -/
def secureElse (rq : Requester) (g : State → State) (s : State) : State := if rqSecure rq then g s else busError s

/-! Remote events (R371). -/

/-- A read of BRG_REV0: a valid one removes the oldest entry and copies its time. -/
def revRead (s : State) : State :=
  match s.brg.revq with
  | [] => busData 0 s
  | e :: r =>
    busData (e.event + e.dev * 2 ^ 6 + e.seq * 2 ^ 16 + 2 ^ 31) <| setF BRG_REV1_us e.us { s with brg := { s.brg with revq := r } }

/-! Plain writes. -/

/-- Writable fields of a register hold no reserved value (R9). -/
def legalWord (d : RegDesc) (a w : Nat) (s : State) : Bool :=
  (d.fields.all fun f => !f.acc.writable || f.ok w) && wordOk a w s

/-- A register write by access codes (R6): RW sets, W1C and W1S act bit by bit, the others are ignored; a reserved value
discards the whole write (R9). -/
def plainWrite (d : RegDesc) (a : Nat) (w : Word) (s : State) : State :=
  if legalWord d a w.toNat s then writeFields (fun p => p.writable || p == .w1c || p == .w1s) d a w.toNat (busDone s)
  else busError s

/-- A plain write to any register found at the address; no register there is a bus error (R5). -/
def anyWrite (a : Nat) (w : Word) (s : State) : State :=
  match findReg a s with
  | some d => plainWrite d a w s
  | none => busError s

/-- A register with LK fields. -/
def hasLk (a : Nat) (s : State) : Bool := match findReg a s with
  | some d => d.fields.any fun f => f.acc == .lk
  | none => false

/-- The number of admin entries of a port as the holder's writes leave it. -/
def stagedLen (p : Nat) (s : State) : Nat :=
  match s.swc.staged.reverse.find? fun x => x.addr = (SWC_GLEN_n p).addr with
  | some x => bitsOf x.value 0 7
  | none => getF (SWC_GLEN_n p) s

/-- An admin entry within SWC_GLEN with interval 0 is reserved (spec/08). -/
def gateEntryOk (a w : Nat) (s : State) : Bool :=
  let p := (a - 0x40071000) / 0x400
  let o := (a - 0x40071000) % 0x400
  !(between a 0x40071000 0x40074000 && 0x100 ≤ o && o < 0x200 && (o - 0x100) / 4 < stagedLen p s && bitsOf w 8 24 = 0)

/-- A write to an LK register of SWC or FWT: by the holder of the block lock, staged until its release (R8, R200). -/
def stageWrite (blk : Nat) (rq : Requester) (a : Nat) (w : Word) (s : State) : State :=
  match findReg a s with
  | none => busError s
  | some d =>
    if !lockHeldBy blk rq s || !legalWord d a w.toNat s || !gateEntryOk a w.toNat s then busError s
    else if a = FWT_RHSWAP_swap.addr then busDone { s with fwt := { s.fwt with swap := w.getLsbD 0 } }
    else busDone { s with swc := { s.swc with staged := s.swc.staged ++ [{ addr := a, value := w.toNat, sel := getF SWC_VLSEL_vid s }] } }

/-! The blocks. -/

/-- Bits of a word whose action is asked for. -/
def asks (w : Word) (i : Nat) (g : State → State) (s : State) : State := if w.getLsbD i then g s else busDone s

def writeSys (rq : Requester) (a : Nat) (w : Word) (s : State) : State :=
  match a % 0x10000 with
  | 0x010 => rstctlWrite rq (wbits w 0 2) (wbits w 16 16) s
  | 0x020 => wdnWrite w s
  | 0x024 => wdnKick (wbits w 0 16) s
  | 0x034 => cmdSecureWatchdogKick rq (wbits w 0 16) s
  | _ => anyWrite a w s

def writePwr (rq : Requester) (a : Nat) (w : Word) (s : State) : State :=
  match a % 0x10000 with
  | 0x004 => modeReqWrite w s
  | 0x014 => readyWrite rq w s
  | _ => anyWrite a w s

def writeEvc (rq : Requester) (a : Nat) (w : Word) (s : State) : State :=
  let o := a % 0x10000
  if o = 0x004 then pendClear rq EVC_PEND0_pend EVC_OWN0_sec w s
  else if o = 0x008 then pendClear rq EVC_PEND1_pend EVC_OWN1_sec w s
  else if o = 0x00C || o = 0x010 || o = 0x01C || o = 0x020 then secureElse rq (anyWrite a w) s
  else if o = 0x024 then softWrite w s
  else if o = 0x028 then banked rq (fun _ _ => busDone) s
  else if o = 0x02C then banked rq (fun c d t => setF (threshBank c d) (wbits w 0 4) (busDone t)) s
  else if 0x100 ≤ o && o < 0x200 then routeWrite rq ((o - 0x100) / 4) w s
  else anyWrite a w s

def writeInk (rq : Requester) (a : Nat) (w : Word) (s : State) : State :=
  match a % 0x10000 with
  | 0x040 => cmdInkPgreq rq w s
  | 0x048 => cmdInkPgfree rq (wbits w 0 10) s
  | 0x06C => leaseRenew rq (wbits w 0 10) s
  | 0x070 => leaseRelease rq (wbits w 0 10) s
  | 0x080 => inkRevoke rq w s
  | _ => anyWrite a w s

def writeImg (rq : Requester) (a : Nat) (w : Word) (s : State) : State :=
  match a % 0x10000 with
  | 0x080 =>
    match wbits w 0 2 with
    | 1 => cmdDeltaOpen rq s
    | 2 => cmdDeltaClose rq s
    | 3 => cmdDeltaAbort rq s
    | _ => busDone s
  | 0x090 => cmdDeltaDelivery rq w s
  | _ => anyWrite a w s

def writeSwc (rq : Requester) (a : Nat) (w : Word) (s : State) : State :=
  let o := a % 0x10000
  let r := (o - 0x800) / 0x20
  if o = 0x000 then asks w 0 (cmdSwcLockTake rq) s
  else if o = 0x01C then cmdSwcSnap rq w s
  else if o = 0x144 then
    if !legalWord ⟨"", a, 1, 1, 1, 1, [⟨0, 6, .rw, 32, [(1, 32)]⟩, ⟨16, 16, .rw, 100, [(1, 65535)]⟩]⟩ a w.toNat s then busError s
    else
      let k := getF SWC_CBSEL_sh s
      busDone (setCb k { cbOf k s with len := wbits w 0 6, pop := w.getLsbD 6, en := w.getLsbD 7, reset := wbits w 16 16, takeany := true } s)
  else if 0x800 ≤ o && o < 0xC00 && o % 0x20 = 0x08 then
    if isSet (SWC_RCFG_dir r) s then busDone s else busDone (setF (SWC_RHEAD_idx r) (wbits w 0 12) s)
  else if 0x800 ≤ o && o < 0xC00 && o % 0x20 = 0x0C then
    if isSet (SWC_RCFG_dir r) s then busDone (setF (SWC_RTAIL_idx r) (wbits w 0 12) s) else busDone s
  else if hasLk a s then stageWrite 0 rq a w s
  else anyWrite a w s

def writeFwt (rq : Requester) (a : Nat) (w : Word) (s : State) : State :=
  match a % 0x10000 with
  | 0x000 => asks w 0 (cmdFwtLockTake rq) s
  | 0x038 => cmdMigrateCancel rq w (cmdMigrateStart rq w s)
  | 0x044 => stageWrite 1 rq a w s
  | 0x0A8 => cmdPorterGo rq w s
  | _ => anyWrite a w s

def writeLnk (rq : Requester) (a : Nat) (w : Word) (s : State) : State :=
  let o := a % 0x10000
  if o = 0x044 then cmdLnkMsgtxGo rq .a w s
  else if o = 0x048 then cmdLnkMsgtxGo rq .b w s
  else if (0x200 ≤ o && o < 0x300 && isSet LNK_MSGTXA_go s) || (0x300 ≤ o && o < 0x400 && isSet LNK_MSGTXB_go s) then busError s
  else anyWrite a w s

/-- WKS: the tile and port registers of an unused unit ignore writes (spec/13). -/
def wksUnit (a : Nat) : Option Nat :=
  if between a 0x400C1000 0x400C1C00 then some ((a - 0x400C1000) / 0x40)
  else if between a 0x400C2000 0x400C2400 then some (48 + (a - 0x400C2000) / 0x40)
  else none

def writeWks (rq : Requester) (a : Nat) (w : Word) (s : State) : State :=
  match a % 0x10000 with
  | 0x000 => sleepRequest false w s
  | 0x004 => sleepRequest true w s
  | 0x008 => wakeRequest false w s
  | 0x00C => wakeRequest true w s
  | 0x020 => cmdWksValid rq false w s
  | 0x024 => cmdWksValid rq true w s
  | 0x038 => cmdWksLogack rq w s
  | _ => match wksUnit a with
    | some u => if unitUsed u s then anyWrite a w s else busDone s
    | none => anyWrite a w s

/-- The normal world of the same requester. -/
def asNormal : Requester → Requester
  | .core c _ => .core c .normal
  | .debug _ => .debug .normal
  | r => r

def writeKst (rq : Requester) (a : Nat) (w : Word) (s : State) : State :=
  let o := a % 0x10000
  let key := wbits w 16 16
  if o = 0x00C then
    if w.getLsbD 3 then cmdLifecycleCommit rq key (wbits w 0 3) s else cmdLifecycleArm rq key (wbits w 0 3) s
  else if o = 0x024 then
    match wbits w 2 2 with
    | 1 => cmdImageKeyProgram rq key (wbits w 0 2) s
    | 2 => cmdImageKeyRevoke rq key (wbits w 0 2) s
    | _ => busError s
  else if 0x040 ≤ o && o < 0x070 then busDone (setF (KST_IKHASH_hash ((o - 0x040) / 4)) w.toNat s)
  else if o = 0x074 then cmdFloorSet rq w s
  else if o = 0x084 then cmdKeyLoad rq w s
  else if o = 0x884 then cmdKeyLoad (asNormal rq) w s
  else if o = 0x0AC then
    match wbits w 0 2 with
    | 1 => cmdNodeCreate rq key (wbits w 2 10) s
    | 2 => cmdNodeInvalidate rq key (wbits w 2 10) s
    | 3 => cmdNodeFree rq key (wbits w 2 10) s
    | _ => busError s
  else if o = 0x0D0 then cmdWrap rq w s
  else if o = 0x0E4 then
    match wbits w 9 2 with
    | 1 => cmdShelfWrite rq key (wbits w 0 9) s
    | 2 => cmdShelfErase rq key (wbits w 0 9) s
    | _ => busError s
  else anyWrite a w s

def writeWld (rq : Requester) (a : Nat) (w : Word) (s : State) : State :=
  let o := a % 0x10000
  if o < 0x040 then (if isSet WLD_LOCK_lock s then busError s else anyWrite a w s)
  else if o = 0x040 then cmdWldLock rq w s
  else if o = 0x050 then
    if lifecycle s = 2 || lifecycle s = 4 then anyWrite a w s else busDone s
  else anyWrite a w s

def writePke (rq : Requester) (a : Nat) (w : Word) (s : State) : State :=
  let o := a % 0x10000
  if o = 0x000 then asks w 0 (cmdPkeLockTake rq) s
  else if o = 0x004 then cmdPkeJobGo rq w s
  else if o = 0x008 || o = 0x00C || o = 0x010 then
    if !pkeHolder rq s || isSet PKE_STAT_busy s then busError s else anyWrite a w s
  else if o = 0x020 then (if pkeHolder rq s then anyWrite a w s else busError s)
  else if o = 0x024 then cmdPkeOpdataAccess rq (some w) s
  else if 0x100 ≤ o && o < 0x200 then cmdPkeSlenWrite rq ((o - 0x100) / 4) w s
  else if o = 0x8000 then cmdDigestGo rq 0 w s
  else if o = 0x8080 then cmdDigestGo rq 1 w s
  else if o = 0x8108 then asks w 0 (fun t => drbgReseed (busDone t)) s
  else anyWrite a w s

/-- Fields writable only in state 0 of their channel (spec/18). -/
def writeMot (rq : Requester) (a : Nat) (w : Word) (s : State) : State :=
  let m := (a - 0x40110100) / 0x40
  if a < 0x40110100 then anyWrite a w s
  else match (a - 0x40110100) % 0x40 with
    | 0x14 => motCmdWrite m w s
    | 0x38 => cmdMotorTest rq m w s
    | 0x04 => if motorState m s = 0 then anyWrite a w s else busError s
    | 0x3C => if motorState m s = 0 then anyWrite a w s else busError s
    | _ => anyWrite a w s

def writeLmp (rq : Requester) (a : Nat) (w : Word) (s : State) : State :=
  if a = 0x40120004 then cmdLampTest rq w s
  else if between a 0x40120200 0x40120500 && a % 0x20 = 0x10 then lmpCmdWrite ((a - 0x40120200) / 0x20) w s
  else anyWrite a w s

def writeWer (rq : Requester) (a : Nat) (w : Word) (s : State) : State :=
  match a % 0x10000 with
  | 0x020 => asks w 0 (fun t => ledgerSave (busDone t)) s
  | 0x024 => werReset rq w s
  | 0x080 => werSel w s
  | _ => anyWrite a w s

/-- The always-on domain: every write that changes something is on its way first (R112). -/
def writeAon (rq : Requester) (a : Nat) (w : Word) (s : State) : State :=
  let o := a % 0x10000
  if o = 0x00C then cmdAonRtcset rq w s
  else if o = 0x018 then tamperWrite rq w.toNat s
  else if o = 0x01C then (if 22 ≤ wbits w 16 5 && wbits w 16 5 ≤ 28 then aonWrite a w.toNat (rqSecure rq) s else busError s)
  else if o = 0x020 then cmdPwrReqSwWrite rq w s
  else if o = 0x000 || o = 0x010 || o = 0x014 || o = 0x024 || o = 0x02C then aonWrite a w.toNat (rqSecure rq) s
  else anyWrite a w s

def writeHie (rq : Requester) (a : Nat) (w : Word) (s : State) : State :=
  if a = 0x4016002C then hieCommand rq w s else anyWrite a w s

def writeTsy (rq : Requester) (a : Nat) (w : Word) (s : State) : State :=
  if a = 0x40170000 then
    let s1 := if w.getLsbD 0 then cmdTsySet rq s else busDone s
    if w.getLsbD 1 then cmdTsyStep rq s1 else s1
  else anyWrite a w s

/-- The MSI-X table and PBA: the PCIe host writes the table, cores get a bus error, others are ignored (R362). -/
def writeBrg (rq : Requester) (a : Nat) (w : Word) (s : State) : State :=
  if between a 0x400A0400 0x400A0800 then
    match rq with
    | .core _ _ => busError s
    | .pcie => busDone (setF (BRG_MSIX_all ((a - 0x400A0400) / 4)) w.toNat s)
    | _ => busDone s
  else if between a 0x400A0800 0x400A0808 then
    match rq with
    | .core _ _ => busError s
    | _ => busDone s
  else anyWrite a w s

/-! Tiles and ports. -/

/-- CAN_CTL's three actions, in the order of their bits (R307, R301). -/
def canCtl (rq : Requester) (n : Nat) (w : Word) (s : State) : State :=
  let s1 := if w.getLsbD 0 then cmdCanCtlStart rq n s else busDone s
  let s2 := if w.getLsbD 1 then cmdCanCtlStop rq n s1 else s1
  if w.getLsbD 2 then cmdCanCtlRecover rq n s2 else s2

/-- A CAN tile's registers; its configuration may be written only in states 0, 1 and 7 (R307). -/
def writeCan (rq : Requester) (n a : Nat) (w : Word) (s : State) : State :=
  let o := a % 0x1000
  if o = 0x000 then canCtl rq n w s
  else if o = 0x044 then cmdCanRxrel rq n (wbits w 0 6) s
  else if o = 0x064 then cmdCanPriorel rq n w s
  else if o = 0x074 then cmdCanTxreq rq n w s
  else if o = 0x078 then cmdCanTxcan rq n w s
  else if [0x008, 0x00C, 0x010, 0x014, 0x018, 0x01C, 0x070].contains o then
    if [0, 1, 7].contains (canState n s) then anyWrite a w s else busError s
  else if 0x400 ≤ o && o < 0x600 && (o % 0x20 = 0x10 || o % 0x20 = 0x14) then
    freshWrite n ((o - 0x400) / 0x20) (o % 0x20 = 0x14) w.toNat (busDone s)
  else anyWrite a w s

/-- A configuration register of a serial function (R327). -/
def serConfig (fn o : Nat) : Bool :=
  o = 0x008 ||
  match fn with
  | 3 => o = 0x040 || between o 0x048 0x058 || between o 0x100 0x300
  | 4 => o = 0x040 || between o 0x048 0x058 || between o 0x100 0x300
  | 5 => between o 0x040 0x054
  | 6 => between o 0x040 0x054 || o = 0x060 || o = 0x064
  | _ => false

/-- A register of some serial function at an address. -/
def serialReg (a : Nat) : Bool :=
  [regTableSER, regTableLIN, regTableUART, regTableHDLC, regTableGPIO].any fun t => t.any fun d => d.covers a

/-- A serial tile's registers: one of another function ignores writes; configuration only in states 0, 1 and 3 (R327). -/
def writeSer (rq : Requester) (n a : Nat) (w : Word) (s : State) : State :=
  let o := a % 0x1000
  let fn := tileFunc n s
  let lin := fn = 3 || fn = 4
  if (findReg a s).isNone then (if serialReg a then busDone s else busError s)
  else if o = 0x000 && fn ≠ 7 then
    let s1 := if w.getLsbD 0 then cmdSerCtlStart rq n s else busDone s
    if w.getLsbD 1 then cmdSerCtlStop rq n s1 else s1
  else if lin && o = 0x044 then cmdLinSchedWrite rq n w s
  else if lin && 0x400 ≤ o && o < 0x600 then cmdLinPubWrite rq n ((o - 0x400) / 8) (o % 8 / 4) w s
  else if !lin && fn ≠ 7 && o = 0x054 then cmdUartSwtxGo rq n w s
  else if serConfig fn o && !([0, 1, 3].contains (serState n s)) then busError s
  else anyWrite a w s

/-- A tile window: nothing where the tile is unused (R10). -/
def writeTile (rq : Requester) (a : Nat) (w : Word) (s : State) : State :=
  let n := tileOfAddr a
  if !tileUsed n s then busDone s else if isCan n s then writeCan rq n a w s else writeSer rq n a w s

/-- A port window: nothing where the port is unused (R10); one MDIO master is behind every copy (R314). -/
def writePort (rq : Requester) (a : Nat) (w : Word) (s : State) : State :=
  let p := portOfAddr a
  if !(portUsed p s || bootPort p s) then busDone s
  else if a % 0x1000 = 0x40 then cmdMdioCommand rq p w s
  else if a % 0x1000 = 0x48 then anyWrite 0x40400048 w s
  else anyWrite a w s

/-- A write under rights already judged. -/
def writeReg (rq : Requester) (a : Nat) (w : Word) (s : State) : State :=
  if a % 4 ≠ 0 then busError s
  else if tileWindow a then writeTile rq a w s
  else if ramWindow a then canRamWrite (ramTile a) ((a - 0x40300000) % 0x2000) w.toNat s
  else if portWindow a then writePort rq a w s
  else if !between a 0x40000000 0x40180000 then busError s
  else match blockOf a with
    | 0x0 => writeSys rq a w s
    | 0x2 => writePwr rq a w s
    | 0x3 => writeEvc rq a w s
    | 0x4 => writeInk rq a w s
    | 0x5 => writeImg rq a w s
    | 0x7 => writeSwc rq a w s
    | 0x8 => writeFwt rq a w s
    | 0x9 => if a = TRN_SIGSEL_sig.addr then cmdTrnSigsel rq w s else anyWrite a w s
    | 0xA => writeBrg rq a w s
    | 0xB => writeLnk rq a w s
    | 0xC => writeWks rq a w s
    | 0xD => writeKst rq a w s
    | 0xE => if between a 0x400E0100 0x400E0200 && a % 0x80 = 0x0C then cmdCkvRingTail rq ((a - 0x400E0100) / 0x80) w s else anyWrite a w s
    | 0xF => writePke rq a w s
    | 0x10 => writeWld rq a w s
    | 0x11 => writeMot rq a w s
    | 0x12 => writeLmp rq a w s
    | 0x14 => writeWer rq a w s
    | 0x15 => writeAon rq a w s
    | 0x16 => writeHie rq a w s
    | 0x17 => writeTsy rq a w s
    | _ => anyWrite a w s

/-! Reads. -/

/-- A read of the register found at an address: its value, its views filled in, then what the read clears and copies (R6, R361). -/
def anyRead (rq : Requester) (a : Nat) (s : State) : State :=
  match findReg a s with
  | none => busError s
  | some d => busData (readWord d a (live rq a s)) (clearLive a (clearRead d a (latchPair a s)))

/-- A tile window. -/
def readTile (rq : Requester) (a : Nat) (s : State) : State :=
  if !tileUsed (tileOfAddr a) s then busData 0 s
  else if !isCan (tileOfAddr a) s && (findReg a s).isNone && serialReg a then busData 0 s
  else anyRead rq a s

/-- A port window. -/
def readPort (rq : Requester) (a : Nat) (s : State) : State :=
  let p := portOfAddr a
  if !(portUsed p s || bootPort p s) then busData 0 s
  else if a % 0x1000 = 0x20 then txtsRead p s
  else anyRead rq a s

/-- A read under rights already judged. -/
def readReg (rq : Requester) (a : Nat) (s : State) : State :=
  if a % 4 ≠ 0 then busError s
  else if tileWindow a then readTile rq a s
  else if ramWindow a then cmdCanRxBufferRead rq (ramTile a) ((a - 0x40300000) % 0x2000) s
  else if portWindow a then readPort rq a s
  else if !between a 0x40000000 0x40180000 then busError s
  else if a = EVC_CLAIM_event.addr then banked rq (fun c w t => busData (claimWord c w t) t) s
  else if a = EVC_THRESH_min.addr then banked rq (fun c w t => busData (getF (threshBank c w) t) t) s
  else if a = BRG_REV0_event.addr then revRead s
  else if a = PKE_OPDATA_data.addr then cmdPkeOpdataAccess rq none s
  else if a = DRG_DATA_rnd.addr then cmdDrgDataRead rq s
  else match wksUnit a with
    | some u => if unitUsed u s then anyRead rq a s else busData 0 s
    | none => anyRead rq a s

/-- One aligned 32-bit access of a requester to register space. -/
def busRead (rq : Requester) (a : Nat) (s : State) : State := gate rq false a 0 (readReg rq a) s
def busWrite (rq : Requester) (a : Nat) (w : Word) (s : State) : State := gate rq true a w (writeReg rq a w) s

/-! The rows. -/

/-- Register space takes 32-bit accesses only: one of another width, in bytes, is a bus error (R5). -/
def sized (n : Nat) (g : State → State) (s : State) : State := if n = 4 then g s else busError s

/-- REGISTER_WRITE (R5 to R10): a write to a register takes effect by its access code, or is refused. -/
def execRegisterWrite (rq : Requester) (a : Nat) (w : Word) (n : Nat) (s : State) : Out :=
  .next (gate rq true a w (sized n (writeReg rq a w)) s)

/-- W1C_WRITE (R6, R7): each 1 clears its bit; a bit that hardware sets in the same cycle ends set, as the command that sets it
comes after. -/
def execW1cWrite (rq : Requester) (a : Nat) (w : Word) (n : Nat) (s : State) : Out :=
  .next (gate rq true a w (sized n (writeReg rq a w)) s)

/-- RC_READ (R6, R7): the value is returned and cleared in the same access. -/
def execRcRead (rq : Requester) (a n : Nat) (s : State) : Out := .next (gate rq false a 0 (sized n (readReg rq a)) s)

/-- LATCHING_PAIR_READ (R361): the first register's value is returned and the others are copied. -/
def execLatchingPairRead (rq : Requester) (a n : Nat) (s : State) : Out := .next (gate rq false a 0 (sized n (readReg rq a)) s)

/-- BRG_REV0_READ (R371). -/
def execBrgRev0Read (rq : Requester) (s : State) : Out := .next (gate rq false BRG_REV0_event.addr 0 revRead s)

/-- EVC_ROUTE_WRITE (R490). -/
def execEvcRouteWrite (rq : Requester) (e : Nat) (w : Word) (s : State) : Out :=
  .next (gate rq true (EVC_ROUTE_core e).addr w (routeWrite rq e w) s)

/-- EVC_SOFT (R495). -/
def execEvcSoft (rq : Requester) (w : Word) (s : State) : Out := .next (gate rq true EVC_SOFT_s0.addr w (softWrite w) s)

/-- The debug TAP's own access to memory (R397, R412): n bytes of secure RAM or LPDDR4, with the attributes of the world it reaches. -/
def debugMem (w : World) (a : Nat) (v : Option Word) (n : Nat) (s : State) : State :=
  if !(debugReach w s && memRange w v.isSome a n s) then violate (.debug w) a v.isSome s
  else match v with
    | some x => busDone (wrBytes a (leBytes n x.toNat) s)
    | none => busData (leNat (rdBytes s a n)) s

/-- What a debugger's access meets (R397): the debug TAP's own access, with the attributes of the world it reaches. -/
def execDebugAccess (w : World) (a : Nat) (v : Option Word) (n : Nat) (s : State) : Out :=
  .next <| if inSecRam a || inDdr a s then debugMem w a v n s
  else match v with
    | some x => gate (.debug w) true a x (sized n (writeReg (.debug w) a x)) s
    | none => gate (.debug w) false a 0 (sized n (readReg (.debug w) a)) s

end Sys2Proof.Machine
end

