-- ==== Sys2Proof/Machine/Bridge.lean ====
section
/-! DEFINITION. The host bridge: split accesses of the PCIe and QSPI hosts, MSI-X, the Far Window, and events as messages (R356 to R371,
R387, R388, R492, R493). -/

namespace Sys2Proof.Machine

/-! Split accesses (R359, R360). -/

/-- The interface a split fault names. -/
def splitSrc : Requester → Nat
  | .qspi => 2
  | _ => 1

/-- A split fault (R360). -/
def splitFault (rq : Requester) (write narrow : Bool) (done addr : Nat) (s : State) : State :=
  let s1 := setF BRG_SPLITERR0_addr addr <| setF BRG_SPLITERR1_src (splitSrc rq) <| setB BRG_SPLITERR1_dir write <|
    setB BRG_SPLITERR1_narrow narrow <| setF BRG_SPLITERR1_done done <| incF BRG_ERRCNT_split 1 s
  raise 46 (if rq == .qspi then setB BRG_QSTAT_err true s1 else s1)

/-- What is known of a split access under way: dwords completed, words read, and the first failure (its dword's place, address and whether it
was narrow). -/
structure Split where
  done : Nat := 0
  words : List Word := []
  bad : Option (Nat × Nat × Bool) := none
deriving DecidableEq, Repr

/-- One dword of a split read: byte enables all set access it, none set accesses nothing and reads as a value the spec does not give, some set
are a narrow access (R359, R5). -/
def splitReadOne (rq : Requester) (a be : Nat) (x : Split × State) : Split × State :=
  let r := x.1
  if r.bad.isSome then x
  else if be = 0 then
    let d := drawFree 32 x.2
    ({ r with words := r.words ++ [BitVec.ofNat 32 d.1] }, d.2)
  else if be ≠ 15 then ({ r with bad := some (r.done, a, true) }, x.2)
  else
    let t := busRead rq a x.2
    match t.bus with
    | .data v => ({ r with done := r.done + 1, words := r.words ++ [v] }, t)
    | _ => ({ r with bad := some (r.done, a, false) }, t)

/-- The dwords of a read in ascending address order, up to the first failure. -/
def splitRead (rq : Requester) (a : Nat) : List Nat → Split × State → Split × State
  | [], x => x
  | be :: l, x => splitRead rq (a + 4) l (splitReadOne rq a be x)

/-- One dword of a split write; every dword is applied, and the first failure is kept. A write that waits its turn in the always-on domain is
taken (R112). -/
def splitWriteOne (rq : Requester) (a : Nat) (w : Word) (be : Nat) (x : Split × State) : Split × State :=
  let r := x.1
  let fail (narrow : Bool) : Split := if r.bad.isSome then r else { r with bad := some (r.done, a, narrow) }
  if be = 0 then x
  else if be ≠ 15 then (fail true, x.2)
  else
    let t := busWrite rq a w x.2
    match t.bus with
    | .error => (fail false, t)
    | _ => ({ r with done := r.done + 1 }, t)

/-- The dwords of a write in ascending address order. -/
def splitWrite (rq : Requester) (a : Nat) : List (Word × Nat) → Split × State → Split × State
  | [], x => x
  | e :: l, x => splitWrite rq (a + 4) l (splitWriteOne rq a e.1 e.2 x)

/-- The split fault of an access, where it had one. -/
def splitEnd (rq : Requester) (write : Bool) (x : Split × State) : State :=
  match x.1.bad with
  | some (d, a, n) => splitFault rq write n d a x.2
  | none => x.2

/-- The words a bus answer carries. -/
def busWide (l : List Word) (s : State) : State :=
  match l with
  | [w] => { s with bus := .data w }
  | _ => { s with bus := .wide l }

/-- Words as the little-endian bytes of the wires (R358). -/
def wordBytes (l : List Word) : List Byte := l.flatMap fun w => leBytes 4 w.toNat

/-! MSI-X (R362). -/

/-- The four conditions under which a vector's message is sent. -/
def msixReady (v : Nat) (s : State) : Bool :=
  s.brg.msixOn && s.brg.master && !s.brg.funcMask && (getF (BRG_MSIX_all (4 * v + 3)) s).testBit 0 == false && isSet BRG_STAT_link s

/-- The pending field of a vector. -/
def msixPend (v : Nat) : Fld := if v < 32 then BRG_MSIXPBA0_pend else BRG_MSIXPBA1_pend

/-- A vector's message leaves. -/
def msixSend (v : Nat) (s : State) : State :=
  emit (.msix v (getF (BRG_MSIX_all (4 * v)) s + getF (BRG_MSIX_all (4 * v + 1)) s * 2 ^ 32) (getF (BRG_MSIX_all (4 * v + 2)) s)) s

/-- MSIX_REQUEST (R362, R492): the oldest request sends the vector's message, or sets its pending bit; while the bit is set a further request
makes no message of its own. -/
def execMsixRequest (s : State) : Out :=
  .next <| match s.evc.msixReq with
    | [] => s
    | v :: r =>
      let s1 := { s with evc := { s.evc with msixReq := r } }
      if msixReady v s1 && !(getF (msixPend v) s1).testBit (v % 32) then msixSend v s1 else orF (msixPend v) (2 ^ (v % 32)) s1

/-- MSIX_PENDING_SEND (R362): a pending vector whose four conditions hold. -/
def execMsixPendingSend (v : Nat) (s : State) : Out :=
  .next <| onlyIf (v < 64 && (getF (msixPend v) s).testBit (v % 32) && msixReady v s) (fun s =>
    msixSend v (clrF (msixPend v) (2 ^ (v % 32)) s)) s

/-! The Far Window (R363 to R369). -/

/-- An address of the Far Window, and the device and register address it names (R363). -/
def inFar (a : Nat) : Bool := 0x50000000 ≤ a && a < 0x90000000
def farDev (a : Nat) : Nat := (a - 0x50000000) / 0x1000000
def farReg (a : Nat) : Nat := 0x40000000 + (a - 0x50000000) % 0x1000000

/-- Why an access to a device fails at once, if it does: BRG_FWERR1.why (R363, R364). -/
def farRefused (d : Nat) (s : State) : Option Nat :=
  if isManager s then (if 1 ≤ d && d ≤ 63 && s.hie.peers.any (fun e => e.1 = d) then none else some 2)
  else if ownRole s = roleStandby && d = 0 then (if isSet HIE_STAT_mlost s then some 5 else if admitted s then none else some 2)
  else some 2

/-- A Far Window failure (R364, R367, R368). -/
def farFail (why dev addr : Nat) (s : State) : State :=
  raise 47 <| incF BRG_ERRCNT_far 1 <| setF BRG_FWERR0_addr addr <| setF BRG_FWERR1_dev dev <| setF BRG_FWERR1_why why s

/-- How a Far Window access ends: data (none for a write), failure or retry. -/
inductive FarAnswer where
  | data (l : List Word) | fail | retry
deriving DecidableEq, Repr

/-- A fetch buffer and its lease are given back. -/
def fetchFree (f : Fetch) (s : State) : State := fetchDrop f.lease (setLease f.lease {} s)

/-- A fetch's record replaced. -/
def setFetch (b : Nat) (f : Fetch) (s : State) : State :=
  { s with brg := { s.brg with fetches := s.brg.fetches.map fun e => if e.1 = b then (b, f) else e } }

/-- The next message tag. -/
def nextTag (s : State) : Nat × State := (s.brg.tag, { s with brg := { s.brg with tag := (s.brg.tag + 1) % 2 ^ 16 } })

/-- A message to a device: of the boot class to a restricted one (R376). -/
def farSend (type d : Nat) (p : List Byte) (s : State) : State := hieSend type d (isManager s && isRestricted d s) p s

/-- Step 3 and 4 of R365: a free buffer is leased and a FAR_READ sent, or nobuf counts. -/
def farStart (rq : Requester) (d addr n : Nat) (s : State) : State :=
  match (List.range 16).find? fun b => !(s.brg.fetches.any fun e => e.1 = b) with
  | none => incF BRG_ERRCNT_nobuf 1 s
  | some b =>
    match grantLease 5 b (rqTag rq) none s with
    | none => countFull (rqTag rq) s
    | some (k, s1) =>
      let t := nextTag s1
      let f : Fetch := { tag := t.1, rq := rq, lease := k, dev := d, addr := addr, n := n, held := if rq == .pcie then 1 else 0 }
      farSend pFARREAD d ([1, BitVec.ofNat 8 n] ++ beBytes 2 t.1 ++ beBytes 4 addr) { t.2 with brg := { t.2.brg with fetches := tabIns b f t.2.brg.fetches } }

/-- A Far Window read of n dwords (R363 to R365); of a fetch whose lease is fenced it fails, and the buffer waits for its reclaim (R204). -/
def farRead (rq : Requester) (a n : Nat) (s : State) : FarAnswer × State :=
  let d := farDev a
  let addr := farReg a
  match farRefused d s with
  | some why => (.fail, farFail why d addr s)
  | none =>
    match s.brg.fetches.find? fun e => rqTag e.2.rq = rqTag rq && e.2.dev = d && e.2.addr = addr && e.2.n = n with
    | none => (.retry, farStart rq d addr n s)
    | some (b, f) =>
      if (leaseOf f.lease s).state != .held then (.fail, s)
      else match f.res with
      | some (some l) => (.data (l.map (BitVec.ofNat 32)), fetchFree f s)
      | some none => (.fail, fetchFree f s)
      | none => (.retry, if rq == .pcie then setFetch b { f with held := f.held + 1 } s else s)

/-- A Far Window write (R363, R364, R368): queued and sent as one FAR_WRITE. -/
def farWrite (rq : Requester) (a : Nat) (ws : List Word) (s : State) : FarAnswer × State :=
  let d := farDev a
  let addr := farReg a
  match farRefused d s with
  | some why => (.fail, farFail why d addr s)
  | none =>
    if s.brg.writes.length ≥ 32 then (.retry, s)
    else
      let t := nextTag s
      let s1 := { t.2 with brg := { t.2.brg with writes := t.2.brg.writes ++ [⟨t.1, rq, d, addr, ws.map (·.toNat)⟩] } }
      (.data [], farSend pFARWRITE d ([1, BitVec.ofNat 8 ws.length] ++ beBytes 2 t.1 ++ beBytes 4 addr ++ ws.flatMap fun w => beBytes 4 w.toNat) s1)

/-- A core's access to the Far Window: aligned, of 4 or 8 bytes (R363). -/
def coreFarOk (a n : Nat) : Bool := inFar a && (n = 1 || n = 2) && a % (4 * n) = 0

/-- A bus answer of a Far Window access. -/
def farBus (x : FarAnswer × State) : State :=
  match x.1 with
  | .data [] => busDone x.2
  | .data l => busWide l x.2
  | .fail => busError x.2
  | .retry => busRetry x.2

/-! The PCIe host (R356, R359, R360, R365). -/

/-- A PCIe completion leaves: status 0 with data, or 1 Completer Abort. -/
def pcieDone (ok : Bool) (l : List Word) (s : State) : State :=
  emit (.note "PCIe completion" [if ok then 0 else 1] (wordBytes l)) (if ok then busWide l s else busError s)

/-- The completions a fetch's result ends: one read takes it; further ones held with the same key start a fetch of their own (R365, R367). -/
def farComplete (b : Nat) (s : State) : State :=
  match s.brg.fetches.find? fun e => e.1 = b with
  | none => s
  | some (_, f) =>
    if f.held = 0 then s
    else
      let s1 := fetchFree f s
      let s2 := match f.res with
        | some (some l) => pcieDone true (l.map (BitVec.ofNat 32)) s1
        | _ => pcieDone false [] s1
      if f.held = 1 then s2
      else
        let s3 := farStart f.rq f.dev f.addr f.n s2
        { s3 with brg := { s3.brg with fetches := s3.brg.fetches.map fun e =>
            if e.2.rq == f.rq && e.2.dev = f.dev && e.2.addr = f.addr && e.2.n = f.n then (e.1, { e.2 with held := f.held - 1 }) else e } }

/-- A BAR 2 read: held until its result arrives (R367). One with a narrow dword fails before any dword is fetched (R359, R360). -/
def pcieFarRead (x : Nat) (bes : List Nat) (s : State) : State :=
  if bes.all fun b => b = 0 then
    let r := splitRead .pcie (0x50000000 + x) bes ({}, s)
    pcieDone true r.1.words r.2
  else match bes.findIdx? fun b => b ≠ 15 with
    | some i => pcieDone false [] (splitFault .pcie false true 0 (0x50000000 + x + 4 * i) s)
    | none =>
      let r := farRead .pcie (0x50000000 + x) bes.length s
      match r.1 with
      | .data l => pcieDone true l r.2
      | .fail => pcieDone false [] r.2
      | .retry => busRetry r.2

/-- A split read of register space by the PCIe host. -/
def pcieRegRead (a : Nat) (bes : List Nat) (s : State) : State :=
  let x := splitRead .pcie a bes ({}, s)
  let t := splitEnd .pcie false x
  if x.1.bad.isSome then pcieDone false [] t else pcieDone true x.1.words t

/-- A BAR's size in bits (R356). -/
def barBits (k : Nat) : Nat := if k = 0 then 24 else if k = 1 then 30 else 12

/-- The configuration dword at 0x10 + 4i: the three BARs, each of two dwords, 64-bit memory, non-prefetchable (R356). -/
def barWord (i : Nat) (s : State) : Nat :=
  let v := s.brg.bars.getD (i / 2) 0
  if i % 2 = 0 then v % 2 ^ 32 + 4 else v / 2 ^ 32

/-- A write of it: the base address's bits below the BAR's size read 0. -/
def barWrite (i : Nat) (w : Word) (s : State) : State :=
  let k := i / 2
  let v := putBits (s.brg.bars.getD k 0) (32 * (i % 2)) 32 w.toNat
  { s with brg := { s.brg with bars := s.brg.bars.set k (v / 2 ^ barBits k * 2 ^ barBits k) } }

/-- Configuration reads: the identities of R356, the single-function header type and the BARs at the standard's offsets, and a value the spec
does not give elsewhere (log entry 102). -/
def pcieConfig (x : Nat) (s : State) : State :=
  let d := drawFree 32 s
  if x = 0 then pcieDone true [BitVec.ofNat 32 (getF BRG_PCIID_vid s + getF BRG_PCIID_did s * 2 ^ 16)] s
  else if x = 4 then pcieDone true [BitVec.ofNat 32 (putBits d.1 2 1 (if s.brg.master then 1 else 0))] d.2
  else if x = 8 then pcieDone true [BitVec.ofNat 32 (d.1 % 2 ^ 8 + 0x028000 * 2 ^ 8)] d.2
  else if x = 0xC then pcieDone true [BitVec.ofNat 32 (putBits d.1 16 8 0)] d.2
  else if 0x10 ≤ x && x < 0x28 && x % 4 = 0 then pcieDone true [BitVec.ofNat 32 (barWord ((x - 0x10) / 4) s)] s
  else if x = 0x2C then pcieDone true [BitVec.ofNat 32 (getF BRG_PCISUB_svid s + getF BRG_PCISUB_sid s * 2 ^ 16)] s
  else pcieDone true [BitVec.ofNat 32 d.1] d.2

/-- PCIE_READ (R356, R359, R360): one request of as many dwords as byte enables; too long a one is aborted. -/
def pcieRead (sp : PcieSpace) (x : Nat) (bes : List Nat) (s : State) : State :=
  match sp with
  | .bar0 => if bes.length > 16 then pcieDone false [] s else pcieRegRead (0x40000000 + x % 0x1000000) bes s
  | .bar2 => if bes.length > 8 then pcieDone false [] s else pcieFarRead (x % 0x40000000) bes s
  | .bar4 => pcieRegRead (0x400A0400 + x % 0x1000) bes s
  | .config => pcieConfig x s
  | .msixCap =>
    let d := drawFree 30 s
    pcieDone true [BitVec.ofNat 32 (d.1 + (if s.brg.funcMask then 2 ^ 30 else 0) + (if s.brg.msixOn then 2 ^ 31 else 0))] d.2
  | .pmcsr =>
    let d := drawFree 32 s
    pcieDone true [BitVec.ofNat 32 (putBits d.1 0 2 (if s.brg.d3hot then 3 else 0))] d.2

/-- The request goes to memory, which a function in D3hot does not answer (R356; log entry 102). -/
def pcieAsleep (sp : PcieSpace) (s : State) : Bool := s.brg.d3hot && (sp == .bar0 || sp == .bar2 || sp == .bar4)

/-- PCIE_READ happens on a link that is up; one a function in D3hot does not take ends as an unsupported request. -/
def execPcieRead (sp : PcieSpace) (x : Nat) (bes : List Nat) (s : State) : Out :=
  .next <| onlyIf (isSet BRG_STAT_link s && bes ≠ []) (fun s =>
    if pcieAsleep sp s then emit (.note "PCIe completion" [2] []) (busError s) else pcieRead sp x bes s) s

/-- The runs of dwords with every byte enabled, each with its place. -/
def fullRuns (i : Nat) : List (Word × Nat) → List (Nat × List Word)
  | [] => []
  | (w, be) :: l =>
    let r := fullRuns (i + 1) l
    if be ≠ 15 then r
    else match r with
      | (j, ws) :: q => if j = i + 1 then (i, w :: ws) :: q else (i, [w]) :: r
      | [] => [(i, [w])]

/-- A BAR 2 write: its whole dwords are posted, run by run; a narrow one is a split fault (R359, R360, R368). While the queue has no room
for it the write waits, unserved. -/
def pcieFarWrite (x : Nat) (ws : List (Word × Nat)) (s : State) : State :=
  let runs := fullRuns 0 ws
  if (farRefused (farDev (0x50000000 + x)) s).isNone && s.brg.writes.length + runs.length > 32 then busRetry s
  else
    let t := applyAll runs (fun r u => (farWrite .pcie (0x50000000 + x + 4 * r.1) r.2 u).2) s
    match ws.findIdx? fun e => e.2 ≠ 15 && e.2 ≠ 0 with
    | some i => busDone (splitFault .pcie true true ((ws.take i).countP fun e => e.2 = 15) (0x50000000 + x + 4 * i) t)
    | none => busDone t

/-- PCIE_WRITE (R356, R359, R360): posted, so no error is returned. -/
def pcieWrite (sp : PcieSpace) (x : Nat) (ws : List (Word × Nat)) (s : State) : State :=
  match sp with
  | .bar0 => busDone (splitEnd .pcie true (splitWrite .pcie (0x40000000 + x % 0x1000000) ws ({}, s)))
  | .bar2 => pcieFarWrite (x % 0x40000000) ws s
  | .bar4 => busDone (splitEnd .pcie true (splitWrite .pcie (0x400A0400 + x % 0x1000) ws ({}, s)))
  | .config =>
    busDone <| match ws with
    | (w, _) :: _ =>
      if x = 4 then { s with brg := { s.brg with master := w.getLsbD 2 } }
      else if 0x10 ≤ x && x < 0x28 && x % 4 = 0 then barWrite ((x - 0x10) / 4) w s
      else s
    | [] => s
  | .msixCap =>
    match ws with
    | (w, _) :: _ => busDone { s with brg := { s.brg with msixOn := w.getLsbD 31, funcMask := w.getLsbD 30 } }
    | [] => busDone s
  | .pmcsr =>
    match ws with
    | (w, _) :: _ =>
      let p := wbits w 0 2
      busDone (if p = 0 || p = 3 then { s with brg := { s.brg with d3hot := p = 3 } } else s)
    | [] => busDone s

/-- PCIE_WRITE happens on a link that is up; one a function in D3hot does not take is dropped. -/
def execPcieWrite (sp : PcieSpace) (x : Nat) (ws : List (Word × Nat)) (s : State) : Out :=
  .next <| onlyIf (isSet BRG_STAT_link s && ws ≠ []) (fun s => if pcieAsleep sp s then busDone s else pcieWrite sp x ws s) s

/-- PCIE_LINK_CHANGE (R356, R357, R362): the link trains at a speed and width, or goes down, also by a hot reset. -/
def execPcieLinkChange (up : Bool) (gen width : Nat) (s : State) : Out :=
  .next <|
    if up then
      onlyIf (pcieUp s && (gen = 1 || gen = 2) && (width = 1 || width = 2)) (fun s =>
        setB BRG_STAT_link true (setF BRG_STAT_gen gen (setF BRG_STAT_width width s))) s
    else pcieDown s

/-! The QSPI host (R358, R360). -/

/-- What the slave sends: the status byte, then data. -/
def qspiSend (st : Nat) (l : List Byte) (s : State) : State := emit (.note "QSPI" [st] l) s

/-- Status 0xE1. -/
def qspiRefuse (s : State) : State := qspiSend 0xE1 [] (busError (setB BRG_QSTAT_refused true s))

/-- The first dword of an access that R357 forbids. -/
def qspiForbidden (write : Bool) (a n : Nat) (s : State) : Option Nat :=
  ((List.range n).map fun i => a + 4 * i).find? fun b => worldDenied .normal write b s || hostDenied write b s

/-- Whole dwords of the bytes a host sent. -/
def dwords (n : Nat) (bytes : List Byte) : List Word :=
  (List.range (min n (bytes.length / 4))).map fun i => BitVec.ofNat 32 (leAt bytes (4 * i) 4)

/-- A dword a write ended inside is discarded as a split fault (R358), after the dwords that were done; an access that had failed before it
keeps its first failure (R360). -/
def qspiPartial (a n : Nat) (bytes : List Byte) (done : Nat) (failed : Bool) (s : State) : State :=
  let k := bytes.length / 4
  if k < n && bytes.length % 4 ≠ 0 then
    setB BRG_QSTAT_partial true (if failed then s else splitFault .qspi true true done (a + 4 * k) s)
  else s

/-- A transaction on register space. -/
def qspiLocal (write : Bool) (a n : Nat) (bytes : List Byte) (s : State) : State :=
  match qspiForbidden write a n s with
  | some b => qspiRefuse (if worldDenied .normal write b s then violate .qspi b write s else s)
  | none =>
    if write then
      let x := splitWrite .qspi a ((dwords n bytes).map fun w => (w, 15)) ({}, s)
      qspiSend 0xA5 [] (busDone (qspiPartial a n bytes x.1.done x.1.bad.isSome (splitEnd .qspi true x)))
    else
      let x := splitRead .qspi a (List.replicate n 15) ({}, s)
      let out := wordBytes x.1.words
      let t := splitEnd .qspi false x
      qspiSend 0xA5 (out ++ List.replicate (4 * n - out.length) 0xFF) (if x.1.bad.isSome then busError t else busWide x.1.words t)

/-- A transaction on the Far Window. -/
def qspiFar (write : Bool) (a n : Nat) (bytes : List Byte) (s : State) : State :=
  let r := if !write then farRead .qspi a n s
    else match farRefused (farDev a) s with
      | none =>
        if dwords n bytes = [] && s.brg.writes.length < 32 then (.data [], s) else farWrite .qspi a (dwords n bytes) s
      | some _ => farWrite .qspi a (dwords n bytes) s
  match r.1 with
  | .data l => qspiSend 0xA5 (wordBytes l) (if write then busDone (qspiPartial a n bytes (bytes.length / 4) false r.2) else busWide l r.2)
  | .fail => qspiRefuse (setB BRG_QSTAT_fwerr true r.2)
  | .retry => qspiSend 0x5A [] (busRetry r.2)

/-- QSPI_TRANSACTION (R358, R360, R364 to R368): command, address, len, and for a write the bytes the host sent before QSPI_CS_N rose. -/
def qspiTransaction (cmd a len : Nat) (bytes : List Byte) (s : State) : State :=
  let n := len % 256 + 1
  if !([0x03, 0xEB, 0x02, 0x38].contains cmd) then s
  else
    let write := cmd = 0x02 || cmd = 0x38
    if a % 4 ≠ 0 then qspiRefuse s
    else if 0x40000000 ≤ a && a < 0x41000000 then (if n > 64 then qspiRefuse s else qspiLocal write a n bytes s)
    else if inFar a then (if n > 8 then qspiRefuse s else qspiFar write a n bytes s)
    else qspiRefuse s

/-- QSPI_TRANSACTION is heard while the slave is enabled and powered (R70, R357). -/
def execQspiTransaction (cmd a len : Nat) (bytes : List Byte) (s : State) : Out :=
  .next <| onlyIf (qspiUp s) (qspiTransaction cmd a len bytes) s

/-- QSPI_STATUS (R358): command 0x05 sends BRG_QSTAT[7:0]. -/
def execQspiStatus (s : State) : Out :=
  .next <| onlyIf (qspiUp s) (fun s =>
    let v := getF BRG_QSTAT_err s + 2 * getF BRG_QSTAT_refused s + 4 * getF BRG_QSTAT_partial s + 8 * getF BRG_QSTAT_fwerr s
    qspiSend v [] (busData v s)) s

/-! Far Window rows. -/

/-- FAR_READ_ACCESS (R363 to R365): a core's read, or the read of a host by its own transaction. -/
def execFarReadAccess (rq : Requester) (a n : Nat) (s : State) : Out :=
  .next <| match rq with
    | .core _ _ => if coreFarOk a n then farBus (farRead rq a n s) else busError s
    | .pcie => onlyIf (isSet BRG_STAT_link s && inFar a && n ≠ 0) (pcieRead .bar2 (a - 0x50000000) (List.replicate n 15)) s
    | .qspi => onlyIf (qspiUp s && inFar a && n ≠ 0 && n ≤ 256) (qspiTransaction 0x03 a (n - 1) []) s
    | _ => busError s

/-- FAR_WRITE (R363, R364, R368): a core's posted write, or a host's. -/
def execFarWrite (rq : Requester) (a : Nat) (ws : List Word) (s : State) : Out :=
  .next <| match rq with
    | .core _ _ => if coreFarOk a ws.length then farBus (farWrite rq a ws s) else busError s
    | .pcie => onlyIf (isSet BRG_STAT_link s && inFar a && ws ≠ []) (pcieWrite .bar2 (a - 0x50000000) (ws.map fun w => (w, 15))) s
    | .qspi => onlyIf (qspiUp s && inFar a && ws ≠ [] && ws.length ≤ 256)
        (qspiTransaction 0x02 a (ws.length - 1) (wordBytes ws)) s
    | _ => busError s

/-- A fetch's result is held, its lease running 1 ms (R367); a held PCIe completion takes it at once. -/
def fetchResult (b : Nat) (f : Fetch) (res : Option (List Nat)) (s : State) : State :=
  farComplete b (setFetch b { f with res := some res } (setLease f.lease { leaseOf f.lease s with dur := some 1, left := some 1 } s))

/-- FAR_READ_ANSWER (R367, R387): FAR_READ op 2 for a fetch in flight. -/
def execFarReadAnswer (s : State) : Out :=
  .next <| takeMsg pFARREAD (fun m => m.at 0 1 = 2) (fun m s =>
    match s.brg.fetches.find? fun e => e.2.tag = m.at 2 2 && e.2.dev = m.src && e.2.res.isNone with
    | none => s
    | some (b, f) =>
      if m.at 4 1 = 0 then fetchResult b f (some ((List.range f.n).map fun i => m.at (8 + 4 * i) 4)) s
      else fetchResult b f none (farFail 3 f.dev f.addr s)) s

/-- FAR_FETCH_TIMEOUT (R367): no answer within BRG_FWCFG.tmo ms of the FAR_READ. -/
def execFarFetchTimeout (b : Nat) (s : State) : Out :=
  .next <| match s.brg.fetches.find? fun e => e.1 = b with
    | some (_, f) => if f.res.isNone then fetchResult b f none (farFail 1 f.dev f.addr s) else s
    | none => s

/-- FAR_RESULT_EXPIRY (R367, R204): a result held 1 ms is not to be had any more: its lease is fenced, and the reclaim discards it. -/
def execFarResultExpiry (b : Nat) (s : State) : Out :=
  .next <| match s.brg.fetches.find? fun e => e.1 = b with
    | some (_, f) =>
      onlyIf (f.res.isSome && (leaseOf f.lease s).state == .held) (fun s =>
        raise 45 <| incF BRG_ERRCNT_expired 1 <| declare (fun _ k => k == f.lease) (leaseOf f.lease s).owner 3 s) s
    | none => s

/-- A queued write leaves the queue. -/
def writeDrop (tag : Nat) (s : State) : State := { s with brg := { s.brg with writes := s.brg.writes.filter fun w => w.tag ≠ tag } }

/-- FAR_WRITE_ACK (R368, R387): FAR_WRITE op 2 for a queued write; a refusal is reason 4. -/
def execFarWriteAck (s : State) : Out :=
  .next <| takeMsg pFARWRITE (fun m => m.at 0 1 = 2) (fun m s =>
    match s.brg.writes.find? fun w => w.tag = m.at 2 2 && w.dev = m.src with
    | none => s
    | some w => if m.at 4 1 = 0 then writeDrop w.tag s else farFail 4 w.dev w.addr (writeDrop w.tag s)) s

/-- FAR_WRITE_TIMEOUT (R368): no acknowledgement within BRG_FWCFG.tmo. -/
def execFarWriteTimeout (tag : Nat) (s : State) : Out :=
  .next <| match s.brg.writes.find? fun w => w.tag = tag with
    | none => s
    | some w => farFail 1 w.dev w.addr (writeDrop tag s)

/-- The requester a message stands for: the asking device, with the world its requester had. R363 has the access carry it, R391 gives it no
place in the message: a free value (log entry 29). -/
def farRequester (m : PMsg) (s : State) : Requester × State :=
  let d := drawFree 1 s
  (.remote m.src (if d.1 = 1 then .secure else .normal), d.2)

/-- A FAR_READ op 1 served (R366, R387): ascending dwords up to the first failing one, as R357 refuses hosts and with the tag of the asking
device. -/
def serveRead (m : PMsg) (s0 : State) : State :=
  let n := m.at 1 1
  let r := farRequester m s0
  let s := r.2
  let head (st i : Nat) : List Byte := [2, BitVec.ofNat 8 n] ++ slice m.payload 2 2 ++ [BitVec.ofNat 8 st, BitVec.ofNat 8 i, 0, 0]
  if n = 0 || n > 8 then hieSend pFARREAD m.src m.boot (head 1 0) s
  else
    let x := splitRead r.1 (m.at 4 4) (List.replicate n 15) ({}, s)
    match x.1.bad with
    | some (d, _, _) => hieSend pFARREAD m.src m.boot (head 1 d) x.2
    | none => hieSend pFARREAD m.src m.boot (head 0 0 ++ x.1.words.flatMap fun w => beBytes 4 w.toNat) x.2

/-- The dwords of a FAR_WRITE in ascending order up to the first that is refused. -/
def serveWords (rq : Requester) (a : Nat) : List Word → Nat × State → Nat × State
  | [], x => x
  | w :: l, x =>
    let t := busWrite rq a w x.2
    if t.bus == .error then (x.1, t) else serveWords rq (a + 4) l (x.1 + 1, t)

/-- A FAR_WRITE op 1 served (R366, R387). -/
def serveWrite (m : PMsg) (s0 : State) : State :=
  let n := m.at 1 1
  let q := farRequester m s0
  let s := q.2
  let ws := (List.range n).map fun i => BitVec.ofNat 32 (m.at (8 + 4 * i) 4)
  let r := if n = 0 || n > 32 then (0, s) else serveWords q.1 (m.at 4 4) ws (0, s)
  hieSend pFARWRITE m.src m.boot ([2, BitVec.ofNat 8 r.1] ++ slice m.payload 2 2 ++ [if r.1 = n && n ≠ 0 then 0 else 1, 0, 0, 0]) r.2

/-- FAR_REQUEST_SERVE (R366, R387): the oldest message, a FAR_READ or FAR_WRITE request. -/
def execFarRequestServe (s : State) : Out :=
  .next <| match s.hie.inbox with
    | [] => s
    | m :: r =>
      let s1 := { s with hie := { s.hie with inbox := r } }
      if m.at 0 1 ≠ 1 then s
      else if m.type = pFARREAD then serveRead m s1
      else if m.type = pFARWRITE then serveWrite m s1
      else s

/-! Events as messages (R370, R371, R493). -/

/-- An entry for the manager's queue of 64: event 61 where it was empty, lost where it is full (R371). -/
def revPush (e : RemoteEvent) (s : State) : State :=
  if s.brg.revq.length ≥ 64 then incF BRG_REVSTAT_lost 1 s
  else
    let s1 := { s with brg := { s.brg with revq := s.brg.revq ++ [e] } }
    if s.brg.revq = [] then raise 61 s1 else s1

/-- One message, or on the manager one entry of its own queue, for an event (R370, R493). -/
def eventMessage (e us : Nat) (s : State) : State :=
  let q := getF BRG_REVTX_seq s
  if isManager s then
    incF EVC_HIESTAT_sent 1 (revPush ⟨0, e, q, us⟩ (incWrap BRG_REVTX_seq 1 s))
  else if isSet HIE_STAT_mlost s then incF BRG_REVTX_lost 1 s
  else
    let w : Waybill := { src := 18, tc := 7, lossless := true, inline := true, dmask := 2 ^ 18, len := 8, time := stamp s, gen := getF IMG_RCFG_gen s
                         data := [BitVec.ofNat 8 e, BitVec.ofNat 8 q, 0, 0] ++ beBytes 4 us }
    incF EVC_HIESTAT_sent 1 (internalInline w (incWrap BRG_REVTX_seq 1 s))

/-- EVENT_MESSAGE_SEND (R370, R493): the oldest raise routed to the hierarchy is sent, or deferred to the next millisecond; with POLICY flag 5
clear it is ignored. It waits while no inline Waybill is free (R190). -/
def execEventMessageSend (s : State) : Out :=
  .next <| match s.evc.hieReq with
    | [] => s
    | (e, us) :: r =>
      let s1 := { s with evc := { s.evc with hieReq := r } }
      if !hieOn s then s1
      else if s.evc.paced.contains e || (s.evc.deferred.any fun x => x.1 = e) then
        incF EVC_HIESTAT_deferred 1
          { s1 with evc := { s1.evc with deferred := (s1.evc.deferred.filter fun x => x.1 ≠ e) ++ [(e, us)] } }
      else if !isManager s && inlineCount s ≥ 1024 then s
      else eventMessage e us { s1 with evc := { s1.evc with paced := s1.evc.paced ++ [e] } }

/-- EVENT_PACING_FLUSH (R493): in a new millisecond one message for each event with deferred raises. -/
def execEventPacingFlush (s : State) : Out :=
  .next <|
    let go := s.evc.deferred.filter fun x => !s.evc.paced.contains x.1
    applyAll go (fun x t =>
      if !isManager t && inlineCount t ≥ 1024 then t
      else eventMessage x.1 x.2 { t with evc := { t.evc with deferred := t.evc.deferred.filter (fun y => y.1 ≠ x.1), paced := t.evc.paced ++ [x.1] } }) s

/-- REMOTE_EVENT_RECEIVE (R371, R388): an EVENT message joins the manager's queue. -/
def execRemoteEventReceive (s : State) : Out :=
  .next <| takeMsg pEVENT (fun _ => true) (fun m s =>
    onlyIf (isManager s) (revPush ⟨m.src % 64, m.at 0 1 % 64, m.at 1 1, m.at 4 4⟩) s) s

end Sys2Proof.Machine
end

