-- ==== Sys2Proof/Machine/Dispatch.lean ====
section
/-! DEFINITION. One arm per command: the meaning it calls. -/

namespace Sys2Proof.Machine

def exec (i : Instr) (s : State) : Host.Outcome State Fault Refusal :=
  match i with
  | .powerOnResetRelease role boot wpol => Sys2Proof.Machine.execPowerOnResetRelease role boot wpol s
  | .powerOnResetAssert rail vbatOk => Sys2Proof.Machine.execPowerOnResetAssert rail vbatOk s
  | .aonDomainPowerUp fromVbat => Sys2Proof.Machine.execAonDomainPowerUp fromVbat s
  | .aonSupplyLoss => Sys2Proof.Machine.execAonSupplyLoss s
  | .xinAmplitudeGood => Sys2Proof.Machine.execXinAmplitudeGood s
  | .xinStable => Sys2Proof.Machine.execXinStable s
  | .rootPllLock us => Sys2Proof.Machine.execRootPllLock us s
  | .rootPllLockLoss => Sys2Proof.Machine.execRootPllLockLoss s
  | .clockFault => Sys2Proof.Machine.execClockFault s
  | .pllLockLossOther p => Sys2Proof.Machine.execPllLockLossOther p s
  | .railWarnCrossing r => Sys2Proof.Machine.execRailWarnCrossing r s
  | .railFailCrossing r => Sys2Proof.Machine.execRailFailCrossing r s
  | .railValid r classMv => Sys2Proof.Machine.execRailValid r classMv s
  | .pcieRefStable => Sys2Proof.Machine.execPcieRefStable s
  | .pfailFall => Sys2Proof.Machine.execPfailFall s
  | .pfailRestoreExpiry => Sys2Proof.Machine.execPfailRestoreExpiry s
  | .resetNAssert => Sys2Proof.Machine.execResetNAssert s
  | .resetNRelease => Sys2Proof.Machine.execResetNRelease s
  | .fullResetEnd => Sys2Proof.Machine.execFullResetEnd s
  | .systemSoftwareReset rq key => Sys2Proof.Machine.execSystemSoftwareReset rq key s
  | .normalWorldResetCmd rq key => Sys2Proof.Machine.execNormalWorldResetCmd rq key s
  | .secureWorldResetCmd rq key => Sys2Proof.Machine.execSecureWorldResetCmd rq key s
  | .normalWatchdogKick rq key => Sys2Proof.Machine.execNormalWatchdogKick rq key s
  | .normalWatchdogEnable rq w => Sys2Proof.Machine.execNormalWatchdogEnable rq w s
  | .normalWatchdogExpiry => Sys2Proof.Machine.execNormalWatchdogExpiry s
  | .secureWatchdogKick rq key => Sys2Proof.Machine.execSecureWatchdogKick rq key s
  | .secureWatchdogExpiry => Sys2Proof.Machine.execSecureWatchdogExpiry s
  | .loadingEntry => Sys2Proof.Machine.execLoadingEntry s
  | .bootQuarantine => Sys2Proof.Machine.execBootQuarantine s
  | .imageHeaderCheck hdr => Sys2Proof.Machine.execImageHeaderCheck hdr s
  | .imageVerify img => Sys2Proof.Machine.execImageVerify img s
  | .build ddrOk => Sys2Proof.Machine.execBuild ddrOk s
  | .cutOver => Sys2Proof.Machine.execCutOver s
  | .tileStart n => Sys2Proof.Machine.execTileStart n s
  | .canIntegrationDone n => Sys2Proof.Machine.execCanIntegrationDone n s
  | .allowanceRampTick => Sys2Proof.Machine.execAllowanceRampTick s
  | .joinSend => Sys2Proof.Machine.execJoinSend s
  | .imagePieceReceive => Sys2Proof.Machine.execImagePieceReceive s
  | .imageRerequestTimeout => Sys2Proof.Machine.execImageRerequestTimeout s
  | .imageBlockRequest img => Sys2Proof.Machine.execImageBlockRequest img s
  | .wireInChange n level => Sys2Proof.Machine.execWireInChange n level s
  | .wireDebounceExpiry n => Sys2Proof.Machine.execWireDebounceExpiry n s
  | .wireRecordIssue => Sys2Proof.Machine.execWireRecordIssue s
  | .carlinkHuntSync p bit => Sys2Proof.Machine.execCarlinkHuntSync p bit s
  | .carlinkCandidateFrame p bit f => Sys2Proof.Machine.execCarlinkCandidateFrame p bit f s
  | .carlinkFrameReceive p f => Sys2Proof.Machine.execCarlinkFrameReceive p f s
  | .relockSync p off f => Sys2Proof.Machine.execRelockSync p off f s
  | .relockTimeout p => Sys2Proof.Machine.execRelockTimeout p s
  | .carlinkFrameSend p incoming => Sys2Proof.Machine.execCarlinkFrameSend p incoming s
  | .rephaseStart p => Sys2Proof.Machine.execRephaseStart p s
  | .lnkMsgtxGo rq p w => Sys2Proof.Machine.execLnkMsgtxGo rq p w s
  | .standbyRequest rq w => Sys2Proof.Machine.execStandbyRequest rq w s
  | .standbyEntryComplete => Sys2Proof.Machine.execStandbyEntryComplete s
  | .standbyCoreWaitTimeout => Sys2Proof.Machine.execStandbyCoreWaitTimeout s
  | .standbyExit refCycles => Sys2Proof.Machine.execStandbyExit refCycles s
  | .pwrReadyWrite rq w => Sys2Proof.Machine.execPwrReadyWrite rq w s
  | .aonWriteTransit => Sys2Proof.Machine.execAonWriteTransit s
  | .rtcSecond => Sys2Proof.Machine.execRtcSecond s
  | .aonRtcset rq w => Sys2Proof.Machine.execAonRtcset rq w s
  | .wakePinFire n => Sys2Proof.Machine.execWakePinFire n s
  | .tamperFire => Sys2Proof.Machine.execTamperFire s
  | .tamperLatchClear rq => Sys2Proof.Machine.execTamperLatchClear rq s
  | .vbatMeasure mv10 => Sys2Proof.Machine.execVbatMeasure mv10 s
  | .pwrReqHoldExpiry => Sys2Proof.Machine.execPwrReqHoldExpiry s
  | .pwrReqRelease rq => Sys2Proof.Machine.execPwrReqRelease rq s
  | .pwrReqSwWrite rq w => Sys2Proof.Machine.execPwrReqSwWrite rq w s
  | .aonLogack rq => Sys2Proof.Machine.execAonLogack rq s
  | .deltaOpen rq => Sys2Proof.Machine.execDeltaOpen rq s
  | .deltaDelivery rq w => Sys2Proof.Machine.execDeltaDelivery rq w s
  | .deltaDeliveryDone bad => Sys2Proof.Machine.execDeltaDeliveryDone bad s
  | .deltaClose rq => Sys2Proof.Machine.execDeltaClose rq s
  | .deltaAbort rq => Sys2Proof.Machine.execDeltaAbort rq s
  | .deltaPrepareDone => Sys2Proof.Machine.execDeltaPrepareDone s
  | .deltaLockAcquired => Sys2Proof.Machine.execDeltaLockAcquired s
  | .tileQuiet n => Sys2Proof.Machine.execTileQuiet n s
  | .deltaCutOver => Sys2Proof.Machine.execDeltaCutOver s
  | .deltaDrainEnd => Sys2Proof.Machine.execDeltaDrainEnd s
  | .pageRequest reqs => Sys2Proof.Machine.execPageRequest reqs s
  | .pageFree p => Sys2Proof.Machine.execPageFree p s
  | .inkPgreq rq w => Sys2Proof.Machine.execInkPgreq rq w s
  | .inkPgfree rq n => Sys2Proof.Machine.execInkPgfree rq n s
  | .swcLockTake rq => Sys2Proof.Machine.execSwcLockTake rq s
  | .fwtLockTake rq => Sys2Proof.Machine.execFwtLockTake rq s
  | .pkeLockTake rq => Sys2Proof.Machine.execPkeLockTake rq s
  | .leaseRenew rq n => Sys2Proof.Machine.execLeaseRenew rq n s
  | .leaseRelease rq n => Sys2Proof.Machine.execLeaseRelease rq n s
  | .leaseExpiry n => Sys2Proof.Machine.execLeaseExpiry n s
  | .inkRevoke rq w => Sys2Proof.Machine.execInkRevoke rq w s
  | .reclaimDone => Sys2Proof.Machine.execReclaimDone s
  | .lodgerPeriodStart lid => Sys2Proof.Machine.execLodgerPeriodStart lid s
  | .itemRelease lid w => Sys2Proof.Machine.execItemRelease lid w s
  | .itemDispatch => Sys2Proof.Machine.execItemDispatch s
  | .itemComplete lid => Sys2Proof.Machine.execItemComplete lid s
  | .deadlineMiss lid => Sys2Proof.Machine.execDeadlineMiss lid s
  | .pageInDone lid us => Sys2Proof.Machine.execPageInDone lid us s
  | .pagingMsCheck => Sys2Proof.Machine.execPagingMsCheck s
  | .frameIngress p frame sfd => Sys2Proof.Machine.execFrameIngress p frame sfd s
  | .authenticate bad => Sys2Proof.Machine.execAuthenticate bad s
  | .frameStored p => Sys2Proof.Machine.execFrameStored p s
  | .cutThroughEnd p why => Sys2Proof.Machine.execCutThroughEnd p why s
  | .egressSelection p => Sys2Proof.Machine.execEgressSelection p s
  | .transmitDone p => Sys2Proof.Machine.execTransmitDone p s
  | .gateEntryChange p => Sys2Proof.Machine.execGateEntryChange p s
  | .gateConfigChange p => Sys2Proof.Machine.execGateConfigChange p s
  | .gateHoldDiscard p c => Sys2Proof.Machine.execGateHoldDiscard p c s
  | .policerCreditTick => Sys2Proof.Machine.execPolicerCreditTick s
  | .streamResetTimeout sh => Sys2Proof.Machine.execStreamResetTimeout sh s
  | .swcSnap rq w => Sys2Proof.Machine.execSwcSnap rq w s
  | .receiveRingWrite r => Sys2Proof.Machine.execReceiveRingWrite r s
  | .ringInterrupt r => Sys2Proof.Machine.execRingInterrupt r s
  | .transmitSlotProcess r => Sys2Proof.Machine.execTransmitSlotProcess r s
  | .pageWindowAccess rq a size v => Sys2Proof.Machine.execPageWindowAccess rq a size v s
  | .learnApply => Sys2Proof.Machine.execLearnApply s
  | .ageingScan => Sys2Proof.Machine.execAgeingScan s
  | .migrateStart rq w => Sys2Proof.Machine.execMigrateStart rq w s
  | .migrateDone => Sys2Proof.Machine.execMigrateDone s
  | .migrateCancel rq w => Sys2Proof.Machine.execMigrateCancel rq w s
  | .bankClearDone => Sys2Proof.Machine.execBankClearDone s
  | .porterGo rq w => Sys2Proof.Machine.execPorterGo rq w s
  | .porterOperation => Sys2Proof.Machine.execPorterOperation s
  | .overlayDrainDone => Sys2Proof.Machine.execOverlayDrainDone s
  | .caravanSend => Sys2Proof.Machine.execCaravanSend s
  | .caravanMerge => Sys2Proof.Machine.execCaravanMerge s
  | .redistributionInstall => Sys2Proof.Machine.execRedistributionInstall s
  | .fullRefresh => Sys2Proof.Machine.execFullRefresh s
  | .sourceTimeout lid e => Sys2Proof.Machine.execSourceTimeout lid e s
  | .frameItem lid => Sys2Proof.Machine.execFrameItem lid s
  | .cyclicRelease lid idx => Sys2Proof.Machine.execCyclicRelease lid idx s
  | .deferredSend lid idx => Sys2Proof.Machine.execDeferredSend lid idx s
  | .trnSigsel rq w => Sys2Proof.Machine.execTrnSigsel rq w s
  | .canFrameValid n f ago => Sys2Proof.Machine.execCanFrameValid n f ago s
  | .canHandoff n => Sys2Proof.Machine.execCanHandoff n s
  | .canXlFrameReceive n f ago ok => Sys2Proof.Machine.execCanXlFrameReceive n f ago ok s
  | .canFrameError n e code dph => Sys2Proof.Machine.execCanFrameError n e code dph s
  | .canBodelayExpiry n => Sys2Proof.Machine.execCanBodelayExpiry n s
  | .canRecoveryDone n => Sys2Proof.Machine.execCanRecoveryDone n s
  | .canCtlStart rq n => Sys2Proof.Machine.execCanCtlStart rq n s
  | .canCtlStop rq n => Sys2Proof.Machine.execCanCtlStop rq n s
  | .canCtlRecover rq n => Sys2Proof.Machine.execCanCtlRecover rq n s
  | .canArbitrationChoice n => Sys2Proof.Machine.execCanArbitrationChoice n s
  | .canTxEnd n ok meas => Sys2Proof.Machine.execCanTxEnd n ok meas s
  | .canSwitchBufferLoad n => Sys2Proof.Machine.execCanSwitchBufferLoad n s
  | .canTxreq rq n w => Sys2Proof.Machine.execCanTxreq rq n w s
  | .canTxcan rq n w => Sys2Proof.Machine.execCanTxcan rq n w s
  | .canRxBufferRead rq n o => Sys2Proof.Machine.execCanRxBufferRead rq n o s
  | .canRxrel rq n buf => Sys2Proof.Machine.execCanRxrel rq n buf s
  | .canPriorel rq n w => Sys2Proof.Machine.execCanPriorel rq n w s
  | .linSlotStart n => Sys2Proof.Machine.execLinSlotStart n s
  | .linHeaderReceive n sync pid => Sys2Proof.Machine.execLinHeaderReceive n sync pid s
  | .linResponseEnd n bytes framing readback ago => Sys2Proof.Machine.execLinResponseEnd n bytes framing readback ago s
  | .linSchedWrite rq n w => Sys2Proof.Machine.execLinSchedWrite rq n w s
  | .linPubWrite rq n idx k w => Sys2Proof.Machine.execLinPubWrite rq n idx k w s
  | .serialTxDequeue n => Sys2Proof.Machine.execSerialTxDequeue n s
  | .uartTxStart n => Sys2Proof.Machine.execUartTxStart n s
  | .uartFrameEnd n chars gap => Sys2Proof.Machine.execUartFrameEnd n chars gap s
  | .hdlcFrameReceive n chars => Sys2Proof.Machine.execHdlcFrameReceive n chars s
  | .uartSwtxGo rq n w => Sys2Proof.Machine.execUartSwtxGo rq n w s
  | .gpioInputChange n levels => Sys2Proof.Machine.execGpioInputChange n levels s
  | .serCtlStop rq n => Sys2Proof.Machine.execSerCtlStop rq n s
  | .serCtlStart rq n => Sys2Proof.Machine.execSerCtlStart rq n s
  | .ethLinkUp p spd hdx anok => Sys2Proof.Machine.execEthLinkUp p spd hdx anok s
  | .ethLinkDown p => Sys2Proof.Machine.execEthLinkDown p s
  | .macFrameReceive p frame sfd fcsOk sym => Sys2Proof.Machine.execMacFrameReceive p frame sfd fcsOk sym s
  | .mdioCommand rq p w => Sys2Proof.Machine.execMdioCommand rq p w s
  | .mdioDone answer => Sys2Proof.Machine.execMdioDone answer s
  | .ethTxtsRead rq p => Sys2Proof.Machine.execEthTxtsRead rq p s
  | .plcaBeaconReceive p => Sys2Proof.Machine.execPlcaBeaconReceive p s
  | .plcaInactive p => Sys2Proof.Machine.execPlcaInactive p s
  | .t1sCollision p => Sys2Proof.Machine.execT1sCollision p s
  | .syncReceive p => Sys2Proof.Machine.execSyncReceive p s
  | .syncTimeout => Sys2Proof.Machine.execSyncTimeout s
  | .tsySet rq => Sys2Proof.Machine.execTsySet rq s
  | .tsyStep rq => Sys2Proof.Machine.execTsyStep rq s
  | .tsyFadjWrite rq w => Sys2Proof.Machine.execTsyFadjWrite rq w s
  | .latchingPairRead rq a n => Sys2Proof.Machine.execLatchingPairRead rq a n s
  | .unitSleepRequest rq hi w => Sys2Proof.Machine.execUnitSleepRequest rq hi w s
  | .unitAsleep u => Sys2Proof.Machine.execUnitAsleep u s
  | .unitWakeRequest rq hi w => Sys2Proof.Machine.execUnitWakeRequest rq hi w s
  | .wakeUpFrame n f dlc => Sys2Proof.Machine.execWakeUpFrame n f dlc s
  | .wakeDominant n us => Sys2Proof.Machine.execWakeDominant n us s
  | .wakeFrameErrors n => Sys2Proof.Machine.execWakeFrameErrors n s
  | .wakePortEnergy p us => Sys2Proof.Machine.execWakePortEnergy p us s
  | .wakeWireOrPin pin idx => Sys2Proof.Machine.execWakeWireOrPin pin idx s
  | .serdesPllRestartLock g => Sys2Proof.Machine.execSerdesPllRestartLock g s
  | .validationWindowClose u => Sys2Proof.Machine.execValidationWindowClose u s
  | .wksValid rq hi w => Sys2Proof.Machine.execWksValid rq hi w s
  | .wksLogack rq w => Sys2Proof.Machine.execWksLogack rq w s
  | .linGoToSleepReceive n => Sys2Proof.Machine.execLinGoToSleepReceive n s
  | .linIdleSleep n => Sys2Proof.Machine.execLinIdleSleep n s
  | .linWakePulseTimeout n => Sys2Proof.Machine.execLinWakePulseTimeout n s
  | .pcieRead sp x bes => Sys2Proof.Machine.execPcieRead sp x bes s
  | .pcieWrite sp x ws => Sys2Proof.Machine.execPcieWrite sp x ws s
  | .qspiTransaction cmd a len bytes => Sys2Proof.Machine.execQspiTransaction cmd a len bytes s
  | .qspiStatus => Sys2Proof.Machine.execQspiStatus s
  | .msixRequest => Sys2Proof.Machine.execMsixRequest s
  | .msixPendingSend v => Sys2Proof.Machine.execMsixPendingSend v s
  | .farReadAccess rq a n => Sys2Proof.Machine.execFarReadAccess rq a n s
  | .farReadAnswer => Sys2Proof.Machine.execFarReadAnswer s
  | .farFetchTimeout b => Sys2Proof.Machine.execFarFetchTimeout b s
  | .farResultExpiry b => Sys2Proof.Machine.execFarResultExpiry b s
  | .farWrite rq a ws => Sys2Proof.Machine.execFarWrite rq a ws s
  | .farWriteAck => Sys2Proof.Machine.execFarWriteAck s
  | .farWriteTimeout tag => Sys2Proof.Machine.execFarWriteTimeout tag s
  | .farRequestServe => Sys2Proof.Machine.execFarRequestServe s
  | .eventMessageSend => Sys2Proof.Machine.execEventMessageSend s
  | .eventPacingFlush => Sys2Proof.Machine.execEventPacingFlush s
  | .remoteEventReceive => Sys2Proof.Machine.execRemoteEventReceive s
  | .brgRev0Read rq => Sys2Proof.Machine.execBrgRev0Read rq s
  | .ploilhanReceive bad => Sys2Proof.Machine.execPloilhanReceive bad s
  | .join => Sys2Proof.Machine.execJoin s
  | .joinAnswer => Sys2Proof.Machine.execJoinAnswer s
  | .heartbeatSend => Sys2Proof.Machine.execHeartbeatSend s
  | .heartbeatReceive => Sys2Proof.Machine.execHeartbeatReceive s
  | .workerLost d => Sys2Proof.Machine.execWorkerLost d s
  | .managerLost => Sys2Proof.Machine.execManagerLost s
  | .takeover => Sys2Proof.Machine.execTakeover s
  | .takeoverReceive => Sys2Proof.Machine.execTakeoverReceive s
  | .probeEnd => Sys2Proof.Machine.execProbeEnd s
  | .positionChangeRejoin => Sys2Proof.Machine.execPositionChangeRejoin s
  | .imageBlockDeltaOpen => Sys2Proof.Machine.execImageBlockDeltaOpen s
  | .imageBlockDeltaChunk => Sys2Proof.Machine.execImageBlockDeltaChunk s
  | .imageBlockDeltaClose => Sys2Proof.Machine.execImageBlockDeltaClose s
  | .imageBlockDeltaAbort => Sys2Proof.Machine.execImageBlockDeltaAbort s
  | .imageBlockStatus => Sys2Proof.Machine.execImageBlockStatus s
  | .wearReportRequest rq w => Sys2Proof.Machine.execWearReportRequest rq w s
  | .wearReportSend => Sys2Proof.Machine.execWearReportSend s
  | .remoteFullReset side => Sys2Proof.Machine.execRemoteFullReset side s
  | .remoteNormalReset side => Sys2Proof.Machine.execRemoteNormalReset side s
  | .remoteRevoke side => Sys2Proof.Machine.execRemoteRevoke side s
  | .lifecycleArm rq key target => Sys2Proof.Machine.execLifecycleArm rq key target s
  | .lifecycleCommit rq key target => Sys2Proof.Machine.execLifecycleCommit rq key target s
  | .lifecycleBurnDone => Sys2Proof.Machine.execLifecycleBurnDone s
  | .imageKeyProgram rq key slot => Sys2Proof.Machine.execImageKeyProgram rq key slot s
  | .imageKeyRevoke rq key slot => Sys2Proof.Machine.execImageKeyRevoke rq key slot s
  | .floorSet rq w => Sys2Proof.Machine.execFloorSet rq w s
  | .nodeCreate rq key parent => Sys2Proof.Machine.execNodeCreate rq key parent s
  | .nodeInvalidate rq key node => Sys2Proof.Machine.execNodeInvalidate rq key node s
  | .nodeFree rq key node => Sys2Proof.Machine.execNodeFree rq key node s
  | .slotWipe k => Sys2Proof.Machine.execSlotWipe k s
  | .wrap rq w => Sys2Proof.Machine.execWrap rq w s
  | .wrapDone => Sys2Proof.Machine.execWrapDone s
  | .shelfWrite rq key idx => Sys2Proof.Machine.execShelfWrite rq key idx s
  | .shelfErase rq key idx => Sys2Proof.Machine.execShelfErase rq key idx s
  | .keyLoad rq w => Sys2Proof.Machine.execKeyLoad rq w s
  | .keyLoadDone => Sys2Proof.Machine.execKeyLoadDone s
  | .wldLock rq w => Sys2Proof.Machine.execWldLock rq w s
  | .secureCall core => Sys2Proof.Machine.execSecureCall core s
  | .debugAccess w a v n => Sys2Proof.Machine.execDebugAccess w a v n s
  | .ckvRingTail rq ns w => Sys2Proof.Machine.execCkvRingTail rq ns w s
  | .ckvDispatch l => Sys2Proof.Machine.execCkvDispatch l s
  | .ckvJobDone l agree => Sys2Proof.Machine.execCkvJobDone l agree s
  | .pkeJobGo rq w => Sys2Proof.Machine.execPkeJobGo rq w s
  | .pkeJobEnd inv cyc => Sys2Proof.Machine.execPkeJobEnd inv cyc s
  | .pkeSlenWrite rq k w => Sys2Proof.Machine.execPkeSlenWrite rq k w s
  | .pkeOpdataAccess rq v => Sys2Proof.Machine.execPkeOpdataAccess rq v s
  | .digestGo rq ns w => Sys2Proof.Machine.execDigestGo rq ns w s
  | .digestDone ns => Sys2Proof.Machine.execDigestDone ns s
  | .drgDataRead rq => Sys2Proof.Machine.execDrgDataRead rq s
  | .drbgReseed rq => Sys2Proof.Machine.execDrbgReseed rq s
  | .entropyHealthFail apt => Sys2Proof.Machine.execEntropyHealthFail apt s
  | .adcConversion idx code => Sys2Proof.Machine.execAdcConversion idx code s
  | .pwmTrigger m icode vcode waited => Sys2Proof.Machine.execPwmTrigger m icode vcode waited s
  | .motorRun rq m w => Sys2Proof.Machine.execMotorRun rq m w s
  | .motorStop rq m => Sys2Proof.Machine.execMotorStop rq m s
  | .motorCoast rq m => Sys2Proof.Machine.execMotorCoast rq m s
  | .motorClear rq m => Sys2Proof.Machine.execMotorClear rq m s
  | .motorObservationEnd m events rpm rev => Sys2Proof.Machine.execMotorObservationEnd m events rpm rev s
  | .motorMeasurementEnd m events rpm rev => Sys2Proof.Machine.execMotorMeasurementEnd m events rpm rev s
  | .motorPositionEvent m code ns => Sys2Proof.Machine.execMotorPositionEvent m code ns s
  | .motorPwmPeriod m => Sys2Proof.Machine.execMotorPwmPeriod m s
  | .motorAlignEnd m => Sys2Proof.Machine.execMotorAlignEnd m s
  | .motorHandoverTimeout m => Sys2Proof.Machine.execMotorHandoverTimeout m s
  | .motorStallTimeout m => Sys2Proof.Machine.execMotorStallTimeout m s
  | .motorWaitLimit m => Sys2Proof.Machine.execMotorWaitLimit m s
  | .motorHallInvalid m code => Sys2Proof.Machine.execMotorHallInvalid m code s
  | .motorFltInput m => Sys2Proof.Machine.execMotorFltInput m s
  | .motorTest rq m w => Sys2Proof.Machine.execMotorTest rq m w s
  | .lampCommand rq n w => Sys2Proof.Machine.execLampCommand rq n w s
  | .lampTokenGrant g => Sys2Proof.Machine.execLampTokenGrant g s
  | .lampInrushEnd n above => Sys2Proof.Machine.execLampInrushEnd n above s
  | .lampHardShort n => Sys2Proof.Machine.execLampHardShort n s
  | .lampOvercurrent n => Sys2Proof.Machine.execLampOvercurrent n s
  | .lampGroupLimit g => Sys2Proof.Machine.execLampGroupLimit g s
  | .lampDisturbanceEnd g => Sys2Proof.Machine.execLampDisturbanceEnd g s
  | .lampCoolDownEnd n => Sys2Proof.Machine.execLampCoolDownEnd n s
  | .lampBlinkPhase n => Sys2Proof.Machine.execLampBlinkPhase n s
  | .lampOpenDetect n below => Sys2Proof.Machine.execLampOpenDetect n below s
  | .lampTriesReset n => Sys2Proof.Machine.execLampTriesReset n s
  | .lampTest rq w => Sys2Proof.Machine.execLampTest rq w s
  | .ledgerSecond => Sys2Proof.Machine.execLedgerSecond s
  | .temperatureMeasure t => Sys2Proof.Machine.execTemperatureMeasure t s
  | .ringOscillatorMeasure ppm => Sys2Proof.Machine.execRingOscillatorMeasure ppm s
  | .ledgerSave => Sys2Proof.Machine.execLedgerSave s
  | .ledgerSaveDone => Sys2Proof.Machine.execLedgerSaveDone s
  | .monthlySample => Sys2Proof.Machine.execMonthlySample s
  | .werReset rq w => Sys2Proof.Machine.execWerReset rq w s
  | .werSel rq w => Sys2Proof.Machine.execWerSel rq w s
  | .evcRouteWrite rq e w => Sys2Proof.Machine.execEvcRouteWrite rq e w s
  | .evcSoft rq w => Sys2Proof.Machine.execEvcSoft rq w s
  | .w1cWrite rq a w n => Sys2Proof.Machine.execW1cWrite rq a w n s
  | .rcRead rq a n => Sys2Proof.Machine.execRcRead rq a n s
  | .registerWrite rq a w n => Sys2Proof.Machine.execRegisterWrite rq a w n s
  | .suppliesValid => Sys2Proof.Machine.execSuppliesValid s
  | .pfailRise => Sys2Proof.Machine.execPfailRise s
  | .wakePinRearm n => Sys2Proof.Machine.execWakePinRearm n s
  | .tamperRearm => Sys2Proof.Machine.execTamperRearm s
  | .serdesPllRelock g => Sys2Proof.Machine.execSerdesPllRelock g s
  | .pcieLinkChange up gen width => Sys2Proof.Machine.execPcieLinkChange up gen width s
  | .transmitOpportunity p => Sys2Proof.Machine.execTransmitOpportunity p s
  | .serialTxEnd n echo => Sys2Proof.Machine.execSerialTxEnd n echo s
  | .boundaryScanInstruction idx => Sys2Proof.Machine.execBoundaryScanInstruction idx s

end Sys2Proof.Machine
end

