-- ==== Sys2Proof/Machine/Tick.lean ====
section
/-! DEFINITION. What one microsecond of CK_TICK does when no command waits: the block's idling (log entry 1). The rows of the table make
every other thing that time brings. -/

namespace Sys2Proof.Machine

/-- The time base advanced by n CK_ETH cycles of 8 ns and TSY_FADJ (R318). -/
def etherCycles (n : Nat) (s : State) : State :=
  let t := (((nowNs s : Int) * 2 ^ 32 + s.time.frac) + n * etherStep s).toNat
  { s with time := { s.time with sec := t / 2 ^ 32 / 1000000000 % 2 ^ 48, ns := t / 2 ^ 32 % 1000000000, frac := t % 2 ^ 32 } }

/-- A held lease with an expiry has one millisecond less (R199). -/
def leaseMs (l : Lease) : Lease := if l.state == .held then { l with left := l.left.map (· - 1) } else l

/-- A millisecond boundary of CK_TICK: what was done at most once in a millisecond may be done again (R414, R493, R96), counts of milliseconds
fall (R87, R199), motor run time is counted (R469), a full refresh goes on (R262). -/
def millisecond (s : State) : State :=
  let s1 := ledgerMs { s with power := { s.power with wds := s.power.wds - 1 }, once := [], evc := { s.evc with paced := [] }, hie := { s.hie with answered := 0 }
                              ink := { s.ink with leases := s.ink.leases.map fun e => (e.1, leaseMs e.2) } }
  refreshMs (if isSet SYS_WDN_CTL_en s1 then setF SYS_WDN_STAT_left (getF SYS_WDN_STAT_left s1 - 1) s1 else s1)

/-- 25 CK_REF cycles, once XIN is stable (R82). -/
def refCycles (s : State) : State :=
  if isSet CKR_STATUS_xstable s then { s with wires := { s.wires with ref := s.wires.ref + 25 } } else s

/-- 32.768 thousandths of a CK_AON cycle, while the always-on domain has a supply (R112): the fraction counts, and stands at its last value
until RTC_SECOND makes the next second (log entry 1). -/
def aonCycles (s : State) : State :=
  if mode s = mOff then s
  else
    let t := s.aon.phase + 32768
    { s with aon := { s.aon with phase := t % 1000000, frac := min 32767 (s.aon.frac + t / 1000000) } }

/-- The reclaim of the leases a declaration has fenced is under way (R198, R204); RECLAIM_DONE ends it. -/
def reclaimStart (s : State) : State :=
  { s with ink := { s.ink with leases := s.ink.leases.map fun e => (e.1, if e.2.state == .fenced then { e.2 with state := .reclaiming } else e.2) } }

/-- The frames that serial tiles have received reach port 17 (R325; log entry 107). -/
def serHandoffs (s : State) : State := applyAll (s.ser.map (·.1)) serHandAll s

/-- One microsecond: CK_REF and CK_AON in every mode in which they run, the rest while CK_TICK runs. -/
def clockTick (s : State) : State :=
  let s0 := aonCycles (refCycles s)
  if !s0.power.tick then s0
  else
    let s1 := endTests (etherCycles 125 <| serHandoffs <| reclaimStart { s0 with ticks := s0.ticks + 1 })
    if s1.ticks % 1000 = 0 then millisecond s1 else s1

end Sys2Proof.Machine
end

