-- ==== Sys2Proof/Machine/Pins.lean ====
section
/-! DEFINITION. The levels at the output balls, as views of the state; `none` is high-impedance. A level that moves within a frame, a PWM
period or a ramp takes that moment as an argument, since the state holds no time inside a row (notes/assumptions/73.md). -/

namespace Sys2Proof.Machine

/-- Balls of the main domain are driven: power-on reset is released (R70, R98). -/
def ballsDriven (s : State) : Bool := !(s.power.por || mode s = mOff || mode s = mBackup)

/-! Fixed balls. -/

/-- LNKx_DE (R41): high once the port's transmitter has started. -/
def linkDe (p : LinkPort) (s : State) : Bool := ballsDriven s && p.tx ≠ .off

/-- LNKx_TXD (R40, R41): a bit of the frame, and logic 1 in a re-phase gap. -/
def linkTxd (p : LinkPort) (bit : Bool) (s : State) : Option Bool :=
  if ballsDriven s then some (p.tx = .gap || p.tx = .gapLost || bit) else none

/-- PWR_REQ, open drain, is pulled low (R118). R36 shows it released in BARE to BUILDING and QUARANTINE as the state of the units with nothing
loaded; a hold count or sw that runs on from BACKUP keeps it low there, as R118 states (log entry 88). -/
def pwrReqLow (s : State) : Bool := isSet AON_PREQ_asserted s

/-- FLASH_RESET_N (R513): low until LOADING starts. -/
def flashResetN (s : State) : Option Bool :=
  if ballsDriven s && isSet SYS_RAILOK_io1 s then some (mode s ≠ mBare) else none

/-! Tile banks (R36, R130, R283, R324, R335, R336, R339). -/

/-- A CAN tile's pin in role j, with `bit` the bit it sends: recessive in bus-off, asleep, and wherever the tile is restricted (R283, R339). -/
def canPin (n j : Nat) (bit : Bool) (s : State) : Option Bool :=
  let st := canState n s
  (canPins n s).bind fun p => match j with
    | 0 => some (if st = 5 || st = 9 || isSet (CAN_CFG_lom n) s then p.1 else bit)
    | 2 => some p.2.1
    | 3 => some p.2.2
    | _ => none

/-- A serial tile's pins are driven: from its start on (R324). -/
def serDriven (n : Nat) (s : State) : Bool := 2 ≤ serState n s && serState n s ≤ 5

/-- A LIN tile's pin in role j: TX, and SLP driven to normal operation or, asleep, to sleep. -/
def linPin (n j : Nat) (bit : Bool) (s : State) : Option Bool :=
  if !serDriven n s then none
  else match j with
    | 0 => some (serState n s ≠ 2 || bit)
    | 2 => some ((serState n s = 5) == isSet (LIN_CFG_slpinv n) s)
    | _ => none

/-- A UART or HDLC tile's pin in role j: TXD, DE, RE. -/
def uartPin (n j : Nat) (bit : Bool) (s : State) : Option Bool :=
  if !serDriven n s then none
  else match j with
    | 0 => some (serState n s ≠ 2 || bit)
    | 2 => some (deAsserted n s != isSet (UART_DE_inv n) s)
    | 3 => some ((isSet (UART_DE_rehdx n) s && deAsserted n s) != isSet (UART_DE_reinv n) s)
    | _ => none

/-- Line j of a GPIO tile where it is an output: it takes GPIO_OUT, and holds its level when quiet and asleep. -/
def gpioPin (n j : Nat) (s : State) : Option Bool :=
  let out := (serOf n s).heldOut.getD (getF (GPIO_OUT_out n) s)
  if serDriven n s && (getF (GPIO_CFG_dir n) s).testBit j then some (out.testBit j) else none

/-- The pin of tile n in role j. -/
def tilePin (n j : Nat) (bit : Bool) (s : State) : Option Bool :=
  if isCan n s then canPin n j bit s
  else if isLin n s then linPin n j bit s
  else if isUart n s then uartPin n j bit s
  else if tileFunc n s = 7 then gpioPin n j s
  else none

/-- TILEb_Pp: the pin of the tile that names it, while the bank's rail is valid; an input with a weak pull-up otherwise (R36, R70). -/
def tileBall (b p : Nat) (bit : Bool) (s : State) : Option Bool :=
  if ballsDriven s && (getF SYS_RAILOK_tbank s).testBit b then
    (s.str.tiles.find? fun t => t.tile / 8 = b && (t.pins.take t.npins).contains p).bind fun t =>
      tilePin t.tile ((t.pins.take t.npins).idxOf p) bit s
  else none

/-! Cabinet outputs on VDDIO3 (R438, R98). -/

/-- The modes in which R98 shows cabinet outputs low. -/
def cabinetLow (s : State) : Bool :=
  let m := mode s
  m = mBare || m = mLoading || m = mBuilding || m = mStandby || m = mQuarantine

/-- A cabinet ball whose unit asks for level v. -/
def cabinetBall (v : Bool) (s : State) : Option Bool :=
  if ballsDriven s && isSet SYS_RAILOK_io3 s then some (!cabinetLow s && v) else none

/-- LMPn_EN (R457 to R459): high while lit; in a soft switch-on it follows the 20 kHz PWM, whose level is `pwm`. -/
def lampBall (n : Nat) (pwm : Bool) (s : State) : Option Bool :=
  cabinetBall (lampLit n s && (pwm || getF (LMP_CCFG3_soft n) s = 0 || lampState n s ≠ 2)) s

/-- MOTm_BRK (R453). -/
def brakeBall (m : Nat) (s : State) : Option Bool := cabinetBall (isSet (MOT_STAT_brk m) s) s

/-- Cycles of CK_FAB in a PWM period (R444). -/
def pwmPeriod (m : Nat) (s : State) : Nat := 25 * getF (MOT_PWM_pwm m) s

/-- The window of a duty d in 65536ths of a period of N cycles: its length, rounded to nearest (R444). -/
def pwmLength (d N : Nat) : Nat := min N ((2 * d * N + 65536) / 131072)

/-- One side of a leg at counter value c: on in the `len` cycles from `start`, less the first `dt`, the dead time (R444). A side that is on
for the whole period has no edge. -/
def sideOn (start len dt N c : Nat) : Bool :=
  len = N || (dt ≤ (c + N - start) % N && (c + N - start) % N < len)

/-- The high side of a phase of high duty d at counter value c, in a window centred on N / 2 (R444). -/
def highSide (d dt N c : Nat) : Bool :=
  let w := pwmLength d N
  0 < w && sideOn ((N - w) / 2) w dt N c

/-- Its low side: the complement, turned on `dt` cycles after the high side's turn-off (R444). -/
def lowSide (d dt N c : Nat) : Bool :=
  let w := pwmLength d N
  w < N && sideOn ((N - w) / 2 + w) (N - w) dt N c

/-- A leg as commutation sets it for the moment (R447): floating, or driven with a high duty in 65536ths. -/
inductive Leg where
  | floating
  | driven (d : Nat)
deriving DecidableEq, Repr

/-- The gates of one leg of channel m, high and low, at counter value c (R444, R448, R452): low in states 0 to 2 and 7; in state 3 the
high side is low and the low side is on at the braking duty; driven in states 4 to 6. -/
def legGates (m : Nat) (leg : Leg) (c : Nat) (s : State) : Bool × Bool :=
  let N := pwmPeriod m s
  let dt := getF (MOT_PWM_dt m) s
  let st := motorState m s
  if st = 3 then (false, highSide ((motorOf m s).brake * 65536 / 1000000) 0 N c)
  else if 4 ≤ st && st ≤ 6 then
    match leg with
    | .floating => (false, false)
    | .driven d => (highSide d dt N c, lowSide d dt N c)
  else (false, false)

/-- MOTm_xH and MOTm_xL of that leg (R438). -/
def gateBalls (m : Nat) (leg : Leg) (c : Nat) (s : State) : Option Bool × Option Bool :=
  (cabinetBall (legGates m leg c s).1 s, cabinetBall (legGates m leg c s).2 s)

end Sys2Proof.Machine
end

