-- ==== Sys2Proof/Safety.lean ====
section
/-! DEFINITION. What counts as a sound state and a sound run, in the terms the claims use: the canonical form of the sparse stores, a command
that completes, an access that its requester may make, and what a command leaves alone. -/

namespace Sys2Proof.Machine

/-- The canonical form: memory's addresses rising and no byte listed that an unlisted one would read as, register keys rising. -/
def Canonical (s : State) : Prop := memWf s.mem = true ∧ tabSorted s.regs = true

/-- A command answers a next state, and that state has a property. -/
def Completes (c : Instr) (s : State) (P : State → Prop) : Prop := ∃ t, exec c s = .next t ∧ P t

/-- An access of a requester to a register is let through to the register: the debug TAP reaches the world or the image-key registers
(R397), the world may make it (R412), and a host may reach the register now (R357). -/
def admits (rq : Requester) (write : Bool) (a : Nat) (w : Word) (s : State) : Bool :=
  (isDebug rq && write && debugKey a w s) ||
    (!(isDebug rq && !debugReach (rqWorld rq) s) && !worldDenied (rqRights rq) write a s && !(isHost rq && hostDenied write a s))

/-- An address of register space in none of the windows (R497). -/
def unmapped (a : Nat) : Bool :=
  between a 0x40180000 0x40200000 || between a 0x40230000 0x40300000 || between a 0x40360000 0x40400000 || between a 0x40410000 0x41000000

/-- Every byte of memory reads as before. -/
def SameMem (s t : State) : Prop := ∀ a, rd8 t a = rd8 s a

/-- Every register field but those listed holds what it held. -/
def RegsBut (l : List Fld) (s t : State) : Prop := ∀ f : Fld, (∀ g ∈ l, f.key ≠ g.key) → getF f t = getF f s

/-- Nothing but register fields, the bus answer and the event controller's requests differs. -/
def OnlyRegs (s t : State) : Prop := t = { s with regs := t.regs, bus := t.bus, evc := t.evc }

/-- The fields a raise writes (R487): the two pending words and the counts. -/
def eventFields (e : Nat) : List Fld := [evPend e, EVC_CNT_cnt e]

/-- The fields a refused access is recorded in (R414, R397). -/
def refusalFields : List Fld :=
  [WLD_VIOL0_addr, WLD_VIOL1_world, WLD_VIOL1_write, WLD_VIOL1_src, WLD_VIOL1_core, WLD_VIOLCNT_cnt] ++ eventFields 44

/-- The frame of a command: whatever it does, every byte of memory and every register field but those listed is left as it was. -/
def Leaves (c : Instr) (l : List Fld) : Prop := ∀ s t, exec c s = .next t → RegsBut l s t ∧ SameMem s t

/-- The frame of a command that only a requester makes. -/
def LeavesAsked (c : Instr) (l : List Fld) : Prop := Leaves c (l ++ refusalFields)

/-- The status fields of a motor channel, with the events of a fault and of an opposite rotation. -/
def motorFields (m : Nat) : List Fld :=
  [MOT_STAT_state m, MOT_STAT_sinus m, MOT_STAT_speed m, MOT_STAT_rev m, MOT_EVT_fault m, MOT_EVT_rev m, MOT_FAULT_reason m,
    MOT_SUM_run, MOT_SUM_flt] ++ eventFields 48 ++ eventFields 49

/-- The command and status fields of a lamp channel and of its group, with the events of a latch, an open load and the group limit. -/
def lampFields (n : Nat) : List Fld :=
  [LMP_CMD_mode n, LMP_CMD_on n, LMP_CMD_off n, LMP_CSTAT_state n, LMP_CSTAT_tries n, LMP_CSTAT_open n, LMP_CSTAT_ext n, LMP_CSTAT_reason n,
    LMP_CEVT_trip n, LMP_CEVT_latch n, LMP_CEVT_open n, LMP_CCNT_trips n, LMP_CCNT_ons n, LMP_LATCHED_ch,
    LMP_GSTAT_holder (n / 6), LMP_GSTAT_dist (n / 6), LMP_GSTAT_over (n / 6), LMP_GSTAT_wait (n / 6)] ++
    eventFields 51 ++ eventFields 52 ++ eventFields 53

/-- The fields a mode change writes (R99, R101), with event 3. -/
def modeFields : List Fld := [PWR_MODE_mode, PWR_MODE_prev] ++ eventFields 3

/-- The fields a page returned to the pool writes (R189). -/
def poolFields : List Fld := [INK_ALLOCSTAT_empty, INK_ALLOCSTAT_lowst, INK_POOLFREE_free]

/-- The log of declared leases, written at once where a declaration reaches no lease (R204). -/
def revlogFields : List Fld := [INK_REVLOG0_owner, INK_REVLOG0_decl, INK_REVLOG1_count, INK_REVLOG1_total]

/-- The always-on log and PWR_REQ (R116, R117), with the alarm's event. -/
def aonLogFields : List Fld :=
  [AON_LOGSTAT_lost, AON_LOGSTAT_unread, AON_LOGSTAT_wr, AON_PREQ_asserted] ++ (List.range 64).map AON_LOG_entry ++ eventFields 6

/-- The command and status fields of the six lamps of a group. -/
def lampGroupFields (g : Nat) : List Fld := (List.range 6).flatMap fun i => lampFields (6 * g + i)

/-! The commands by what they may do. -/

/-- The access to a register that a command is: who asks, whether it writes, the address and the word the gate sees. -/
def accessOf : Instr → Option (Requester × Bool × Nat × Word)
  | .lnkMsgtxGo rq p _ => some (rq, true, if p = .a then 0x400B0044 else 0x400B0048, 0)
  | .nodeCreate rq _ _ => some (rq, true, 0x400D00AC, 0)
  | .nodeInvalidate rq _ _ => some (rq, true, 0x400D00AC, 0)
  | .nodeFree rq _ _ => some (rq, true, 0x400D00AC, 0)
  | .shelfWrite rq _ _ => some (rq, true, 0x400D00E4, 0)
  | .shelfErase rq _ _ => some (rq, true, 0x400D00E4, 0)
  | .keyLoad rq _ => some (rq, true, if rqSecure rq then 0x400D0084 else 0x400D0884, 0)
  | .wrap rq _ => some (rq, true, 0x400D00D0, 0)
  | .lifecycleArm rq _ _ => some (rq, true, 0x400D000C, 0)
  | .lifecycleCommit rq _ _ => some (rq, true, 0x400D000C, 0)
  | .imageKeyProgram rq _ _ => some (rq, true, 0x400D0024, 4)
  | .imageKeyRevoke rq _ _ => some (rq, true, 0x400D0024, 8)
  | .floorSet rq _ => some (rq, true, 0x400D0074, 0)
  | .wldLock rq _ => some (rq, true, 0x40100040, 0)
  | .ckvRingTail rq ns _ => some (rq, true, (0x400E010C + 0x80 * (ns % 2)), 0)
  | .pkeSlenWrite rq k _ => some (rq, true, 0x400F0100 + 4 * k, 0)
  | .pkeJobGo rq _ => some (rq, true, 0x400F0004, 0)
  | .pkeLockTake rq => some (rq, true, 0x400F0000, 0)
  | .digestGo rq ns _ => some (rq, true, (0x400F8000 + 0x80 * (ns % 2)), 0)
  | .drgDataRead rq => some (rq, false, 0x400F8100, 0)
  | .registerWrite rq a w _ => some (rq, true, a, w)
  | .w1cWrite rq a w _ => some (rq, true, a, w)
  | .rcRead rq a _ => some (rq, false, a, 0)
  | .latchingPairRead rq a _ => some (rq, false, a, 0)
  | .brgRev0Read rq => some (rq, false, BRG_REV0_event.addr, 0)
  | .evcRouteWrite rq e w => some (rq, true, (EVC_ROUTE_core e).addr, w)
  | .evcSoft rq w => some (rq, true, EVC_SOFT_s0.addr, w)
  | .werReset rq _ => some (rq, true, 0x40140024, 0)
  | .werSel rq _ => some (rq, true, 0x40140080, 0)
  | .motorRun rq m _ => some (rq, true, 0x40110114 + 0x40 * m, 0)
  | .motorStop rq m => some (rq, true, 0x40110114 + 0x40 * m, 0)
  | .motorCoast rq m => some (rq, true, 0x40110114 + 0x40 * m, 0)
  | .motorClear rq m => some (rq, true, 0x40110114 + 0x40 * m, 0)
  | .motorTest rq m _ => some (rq, true, 0x40110138 + 0x40 * m, 0)
  | .lampCommand rq n _ => some (rq, true, 0x40120210 + 0x20 * n, 0)
  | .lampTest rq _ => some (rq, true, 0x40120004, 0)
  | .aonRtcset rq _ => some (rq, true, 0x4015000C, 0)
  | .tamperLatchClear rq => some (rq, true, 0x40150018, 0)
  | .pwrReqRelease rq => some (rq, true, 0x40150020, 0)
  | .pwrReqSwWrite rq _ => some (rq, true, 0x40150020, 0)
  | .aonLogack rq => some (rq, true, 0x4015002C, 0)
  | .wearReportRequest rq _ => some (rq, true, 0x4016002C, 0)
  | .canCtlStop rq n => some (rq, true, 0x40200000 + 0x1000 * n + 0, 0)
  | .canCtlStart rq n => some (rq, true, 0x40200000 + 0x1000 * n + 0, 0)
  | .canCtlRecover rq n => some (rq, true, 0x40200000 + 0x1000 * n + 0, 0)
  | .canTxreq rq n _ => some (rq, true, 0x40200000 + 0x1000 * n + 0x74, 0)
  | .canTxcan rq n _ => some (rq, true, 0x40200000 + 0x1000 * n + 0x78, 0)
  | .canRxBufferRead rq n o => some (rq, false, 0x40300000 + 0x2000 * n + o, 0)
  | .canRxrel rq n _ => some (rq, true, 0x40200000 + 0x1000 * n + 0x44, 0)
  | .canPriorel rq n _ => some (rq, true, 0x40200000 + 0x1000 * n + 0x64, 0)
  | .deltaOpen rq => some (rq, true, 0x40050080, 0)
  | .deltaDelivery rq _ => some (rq, true, 0x40050090, 0)
  | .deltaClose rq => some (rq, true, 0x40050080, 0)
  | .deltaAbort rq => some (rq, true, 0x40050080, 0)
  | .leaseRenew rq _ => some (rq, true, 0x4004006C, 0)
  | .leaseRelease rq _ => some (rq, true, 0x40040070, 0)
  | .inkRevoke rq _ => some (rq, true, 0x40040080, 0)
  | .linSchedWrite rq n _ => some (rq, true, 0x40200000 + 0x1000 * n + 0x44, 0)
  | .linPubWrite rq n i k _ => some (rq, true, 0x40200000 + 0x1000 * n + 0x400 + 8 * i + 4 * k, 0)
  | .uartSwtxGo rq n _ => some (rq, true, 0x40200000 + 0x1000 * n + 0x54, 0)
  | .serCtlStop rq n => some (rq, true, 0x40200000 + 0x1000 * n + 0, 0)
  | .serCtlStart rq n => some (rq, true, 0x40200000 + 0x1000 * n + 0, 0)
  | .systemSoftwareReset rq _ => some (rq, true, 0x40000010, 0)
  | .normalWorldResetCmd rq _ => some (rq, true, 0x40000010, 0)
  | .secureWorldResetCmd rq _ => some (rq, true, 0x40000010, 0)
  | .normalWatchdogEnable rq _ => some (rq, true, 0x40000020, 0)
  | .normalWatchdogKick rq _ => some (rq, true, 0x40000024, 0)
  | .secureWatchdogKick rq _ => some (rq, true, 0x40000034, 0)
  | .pwrReadyWrite rq _ => some (rq, true, 0x40020014, 0)
  | .standbyRequest rq _ => some (rq, true, 0x40020004, 0)
  | .mdioCommand rq p _ => some (rq, true, 0x40400040 + 0x1000 * p, 0)
  | .ethTxtsRead rq p => some (rq, false, 0x40400020 + 0x1000 * p, 0)
  | .tsySet rq => some (rq, true, 0x40170000, 0)
  | .tsyStep rq => some (rq, true, 0x40170000, 0)
  | .tsyFadjWrite rq _ => some (rq, true, 0x40170010, 0)
  | .trnSigsel rq _ => some (rq, true, 0x40090040, 0)
  | .unitSleepRequest rq hi _ => some (rq, true, if hi then 0x400C0004 else 0x400C0000, 0)
  | .unitWakeRequest rq hi _ => some (rq, true, if hi then 0x400C000C else 0x400C0008, 0)
  | .wksValid rq hi _ => some (rq, true, if hi then 0x400C0024 else 0x400C0020, 0)
  | .wksLogack rq _ => some (rq, true, 0x400C0038, 0)
  | .migrateStart rq _ => some (rq, true, 0x40080038, 0)
  | .migrateCancel rq _ => some (rq, true, 0x40080038, 0)
  | .porterGo rq _ => some (rq, true, 0x400800A8, 0)
  | .inkPgreq rq _ => some (rq, true, 0x40040040, 0)
  | .inkPgfree rq _ => some (rq, true, 0x40040048, 0)
  | .swcSnap rq _ => some (rq, true, 0x4007001C, 0)
  | .swcLockTake rq => some (rq, true, 0x40070000, 0)
  | .fwtLockTake rq => some (rq, true, 0x40080000, 0)
  | .pkeOpdataAccess rq v => some (rq, v.isSome, 0x400F0024, 0)
  | .drbgReseed (some rq) => some (rq, true, 0x400F8108, 0)
  | .debugAccess w a (some v) _ => some (.debug w, true, a, v)
  | .debugAccess w a none _ => some (.debug w, false, a, 0)
  | .remoteFullReset (.command rq w) => some (rq, true, 0x4016002C, w)
  | .remoteNormalReset (.command rq w) => some (rq, true, 0x4016002C, w)
  | .remoteRevoke (.command rq w) => some (rq, true, 0x4016002C, w)
  | _ => none

/-- The commands that may store to memory; every other one leaves all of it as it was. -/
def mayStore : Instr → Bool
  | .carlinkCandidateFrame _ _ _ | .carlinkFrameReceive _ _ | .relockSync _ _ _ | .wrapDone | .ckvDispatch _ | .ckvJobDone _ _
  | .registerWrite _ _ _ _ | .w1cWrite _ _ _ _ | .debugAccess _ _ _ _ | .transmitDone _ | .ploilhanReceive _ | .joinSend | .join
  | .heartbeatSend | .takeover | .probeEnd | .positionChangeRejoin | .imageBlockRequest _ | .imagePieceReceive
  | .imageRerequestTimeout | .imageBlockDeltaOpen | .imageBlockDeltaChunk | .imageBlockDeltaClose | .imageBlockDeltaAbort
  | .wearReportRequest _ _ | .wearReportSend | .remoteFullReset _ | .remoteNormalReset _ | .remoteRevoke _ | .frameIngress _ _ _
  | .canHandoff _ | .authenticate _ | .pcieRead _ _ _ | .pcieWrite _ _ _ | .qspiTransaction _ _ _ _ | .farReadAccess _ _ _
  | .farWrite _ _ _ | .farReadAnswer | .farFetchTimeout _ | .farRequestServe | .standbyEntryComplete | .deltaDeliveryDone _
  | .deltaClose _ | .deltaAbort _ | .leaseRelease _ _ | .reclaimDone | .caravanSend | .linResponseEnd _ _ _ _ _
  | .pllLockLossOther _ | .cutOver | .deltaPrepareDone | .deltaLockAcquired | .tileQuiet _ | .serCtlStop _ _ | .unitAsleep _
  | .linGoToSleepReceive _ | .linIdleSleep _ | .resetNAssert | .clockFault | .railFailCrossing _
  | .systemSoftwareReset _ _ | .normalWorldResetCmd _ _ | .secureWorldResetCmd _ _ | .normalWatchdogExpiry | .secureWatchdogExpiry
  | .lifecycleBurnDone | .loadingEntry | .macFrameReceive _ _ _ _ _ | .frameItem _ | .itemComplete _ | .porterOperation
  | .pageRequest _ | .pageWindowAccess _ _ _ _ | .receiveRingWrite _ | .transmitSlotProcess _ | .powerOnResetAssert _ _
  | .aonSupplyLoss  => true
  | _ => false

/-- The commands that may change a register of the system, clock and power blocks (below 0x40030000). -/
def writesPower : Instr → Bool
  | .registerWrite _ _ _ _ | .w1cWrite _ _ _ _ | .debugAccess _ _ _ _ | .rtcSecond | .aonDomainPowerUp _ | .imagePieceReceive
  | .imageBlockDeltaClose | .remoteFullReset _ | .remoteNormalReset _ | .cutOver | .tileStart _ | .allowanceRampTick
  | .pcieWrite _ _ _ | .qspiTransaction _ _ _ _ | .farReadAccess _ _ _ | .farWrite _ _ _ | .farRequestServe | .standbyEntryComplete
  | .deltaClose _ | .deltaPrepareDone | .deltaCutOver | .deltaDrainEnd | .leaseRelease _ _ | .resetNAssert | .clockFault
  | .xinAmplitudeGood | .xinStable | .rootPllLock _ | .powerOnResetAssert _ _ | .aonSupplyLoss | .suppliesValid
  | .powerOnResetRelease _ _ _ | .railWarnCrossing _ | .railFailCrossing _ | .railValid _ _ | .pllLockLossOther _ | .serdesPllRelock _
  | .pcieRefStable | .pfailFall | .pfailRise | .pfailRestoreExpiry | .systemSoftwareReset _ _ | .normalWorldResetCmd _ _
  | .secureWorldResetCmd _ _ | .normalWatchdogEnable _ _ | .normalWatchdogKick _ _ | .normalWatchdogExpiry | .secureWatchdogExpiry
  | .pwrReadyWrite _ _ | .standbyRequest _ _ | .standbyCoreWaitTimeout | .standbyExit _ | .lifecycleBurnDone | .loadingEntry
  | .bootQuarantine | .imageHeaderCheck _ | .imageVerify _ | .build _ | .unitSleepRequest _ _ _ | .unitAsleep _
  | .unitWakeRequest _ _ _ | .wakeUpFrame _ _ _ | .wakeDominant _ _ | .wakeFrameErrors _ | .wakePortEnergy _ _ | .wakeWireOrPin _ _
  | .serdesPllRestartLock _ | .linGoToSleepReceive _ | .linIdleSleep _  => true
  | _ => false

end Sys2Proof.Machine
end

