-- ==== Sys2Proof/Certificates/Slice0/Obligations.lean ====
section
/-! DEFINITION. The statements for the provers: the general ones first, then those that formalise a rule of the spec, then
where each command completes and with what result, then the frames. -/

open Sys2Proof Sys2Proof.Machine

/-- With a command waiting, a step is the command's own meaning on the state with the rest of the queue. -/
def Obligations.StepRunsTheFront : Prop :=
  ∀ (c : Instr) (s : State) (r : List Instr), step { s with pending := c :: r } = exec c { s with pending := r }

/-- The model's choice of log entry 1: on an empty queue a step answers a next state, with the queue still empty; where the tick runs its count
is one more, the time base has moved by 125 Ethernet cycles and memory outside the page data is as it was (a waiting frame of a serial tile may
enter pages), and where it does not run nothing changes but the counts of CK_REF and CK_AON. -/
def Obligations.EmptyQueueLetsAMicrosecondPass : Prop :=
  (∀ s : State, s.pending = [] → s.power.tick = false → step s = .next { s with wires := (refCycles s).wires, aon := (aonCycles s).aon }) ∧
  (∀ s : State, s.pending = [] → s.power.tick = true → ∃ t, step s = .next t ∧ t.ticks = s.ticks + 1 ∧ t.pending = [] ∧ t.time =
    (etherCycles 125 s).time ∧ ((∀ n, (serOf n s).hand = []) → t.mem = s.mem))

/-- No command ends in a fault or a refusal: in every state each answers a next state, and the commands waiting are the same, in the same order. -/
def Obligations.EveryCommandAnswersAndKeepsTheQueue : Prop :=
  ∀ (c : Instr) (s : State), Completes c s fun t => t.pending = s.pending

/-- After reset every register field reads the reset value of its table (where the tables give none, the value of log entry 4), the mode is
BARE, memory lists nothing, no command waits, and the stores are in canonical form. -/
def Obligations.CanonicalAtReset : Prop :=
  (Canonical State.reset) ∧
  (∀ f : Fld, getF f State.reset = f.reset % 2 ^ f.width) ∧
  (mode State.reset = mBare ∧ State.reset.mem = [] ∧ State.reset.pending = [])

/-- From every state whose register store and memory are in canonical form (addresses strictly rising, no byte listed that an unlisted address
reads as), a step answers such a state, whatever command it runs and also when it lets time pass. -/
def Obligations.CanonicalKept : Prop :=
  ∀ s t : State, Canonical s → step s = .next t → Canonical t

/-- For every command that is a requester's access to a register: where the debug rules (R397), the world rules (R412) or the host rules (R357)
do not let it through, it answers a bus error, and nothing else differs but the violation record, its count, the request of event 44 and the
mark that the event was raised in this millisecond (R414). -/
def Obligations.RefusedAccessChangesNothing : Prop :=
  ∀ (c : Instr) (rq : Requester) (write : Bool) (a : Nat) (w : Word) (s : State), accessOf c = some (rq, write, a, w) → admits rq write a w s = false →
    Completes c s fun t => t = { s with bus := .error, regs := t.regs, evc := t.evc, once := t.once } ∧ RegsBut refusalFields s t

/-- A command that is not one of those that deliver frames, load, build, store by address, write registers at large or reset the part leaves every
    byte of memory as it was: 234 of the 311 commands, by name. -/
def Obligations.MemoryKept : Prop :=
  ∀ (c : Instr) (s t : State), mayStore c = false → exec c s = .next t → SameMem s t

/-- A command that is not a supply, clock, reset, watchdog, mode, build, sleep or wake command, nor a write of registers at large, leaves every
register field of the system, clock and power blocks as it was: 242 of the 311 commands, by name. -/
def Obligations.PowerRegistersKept : Prop :=
  ∀ (c : Instr) (s t : State) (f : Fld), writesPower c = false → f.key < 0x40030000 * 32 → exec c s = .next t → getF f t = getF f s

/-- A write through the page window stores to the bytes of its own address and size and a read through it stores nothing; a receive ring write
stores to the 64 bytes of the slot at the tail; a Porter operation stores inside its own 48-byte record, from its status byte on; a finished
wrap stores its blob at the address asked for: every other byte of memory is as it was. -/
def Obligations.StoresInPlace : Prop :=
  (∀ (rq : Requester) (a size : Nat) (x : Word) (s t : State), exec (.pageWindowAccess rq a size (some x)) s = .next t → ∀ b : Nat, (b < a ∨ a + size ≤
    b) → rd8 t b = rd8 s b) ∧
  (∀ (rq : Requester) (a size : Nat) (s t : State), exec (.pageWindowAccess rq a size none) s = .next t → SameMem s t) ∧
  (∀ (r : Nat) (s t : State), exec (.receiveRingWrite r) s = .next t → ∀ b : Nat, (b < getF (SWC_RBASE_addr r) s + 64 * getF (SWC_RTAIL_idx r) s ∨ getF
    (SWC_RBASE_addr r) s + 64 * getF (SWC_RTAIL_idx r) s + 64 ≤ b) → rd8 t b = rd8 s b) ∧
  (∀ (run : PorterRun) (s t : State), s.fwt.porter = some run → exec .porterOperation s = .next t → ∀ b : Nat, (b < getF FWT_PSRC_addr s + 48 * run.next
    + 8 ∨ getF FWT_PSRC_addr s + 48 * run.next + 48 ≤ b) → rd8 t b = rd8 s b) ∧
  (∀ (j : WrapJob) (r : List WrapJob) (s t : State), s.keys.wraps = j :: r → exec .wrapDone s = .next t → ∀ b : Nat, (b < j.out ∨ j.out +
    j.header.length + j.content.length + 16 ≤ b) → rd8 t b = rd8 s b)

/-- At every counter value, for every leg as commutation sets it, every duty, dead time and period, the high and the low gate of a leg of a
motor channel are not both on; and in states 0, 1, 2 and 7 both are low. -/
def Obligations.GateSidesNeverOnTogether : Prop :=
  (∀ (m : Nat) (leg : Leg) (c : Nat) (s : State), legGates m leg c s ≠ (true, true)) ∧
  (∀ (m : Nat) (leg : Leg) (c : Nat) (s : State), (motorState m s < 3 ∨ motorState m s = 7) → legGates m leg c s = (false, false))

/-- R497: a read or a write, by any requester that the debug gate does not stop first, of an address between 0x40180000 and 0x401FFFFF,
0x40230000 and 0x402FFFFF, 0x40360000 and 0x403FFFFF or 0x40410000 and 0x40FFFFFF answers a bus error and leaves the rest of the state as it
was. -/
def Obligations.UnmappedAccessIsBusError : Prop :=
  (∀ (rq : Requester) (a : Nat) (s : State), unmapped a = true → (isDebug rq = true → debugReach (rqWorld rq) s = true) → exec (.rcRead rq a 4) s =
    .next
    (busError s)) ∧
  (∀ (rq : Requester) (a : Nat) (w : Word) (s : State), unmapped a = true → (isDebug rq = true → debugReach (rqWorld rq) s = true) → exec
    (.registerWrite rq a w 4) s = .next (busError s))

/-- R10: where the structure leaves a tile unused, an aligned access its requester may make to its register window or to its CAN message RAM
window reads 0 and ignores writes, without error; the same holds for the window of a port the structure leaves unused and the boot image
does not arrive by. -/
def Obligations.UnusedWindowsReadZeroAndIgnoreWrites : Prop :=
  (∀ (rq : Requester) (a : Nat) (s : State), tileWindow a = true → a % 4 = 0 → tileUsed (tileOfAddr a) s = false → admits rq false a 0 s = true → exec
    (.rcRead rq a 4) s = .next (busData 0 s)) ∧
  (∀ (rq : Requester) (a : Nat) (w : Word) (s : State), tileWindow a = true → a % 4 = 0 → tileUsed (tileOfAddr a) s = false → admits rq true a w s =
    true → exec (.registerWrite rq a w 4) s = .next (busDone s)) ∧
  (∀ (rq : Requester) (a : Nat) (s : State), ramWindow a = true → a % 4 = 0 → tileUsed (ramTile a) s = false → admits rq false a 0 s = true → exec
    (.rcRead rq a 4) s = .next (busData 0 s)) ∧
  (∀ (rq : Requester) (a : Nat) (w : Word) (s : State), ramWindow a = true → a % 4 = 0 → tileUsed (ramTile a) s = false → admits rq true a w s = true →
    exec (.registerWrite rq a w 4) s = .next (busDone s)) ∧
  (∀ (rq : Requester) (a : Nat) (s : State), portWindow a = true → a % 4 = 0 → portUsed (portOfAddr a) s = false → bootPort (portOfAddr a) s = false →
    admits rq false a 0 s = true → exec (.rcRead rq a 4) s = .next (busData 0 s)) ∧
  (∀ (rq : Requester) (a : Nat) (w : Word) (s : State), portWindow a = true → a % 4 = 0 → portUsed (portOfAddr a) s = false → bootPort (portOfAddr a) s
    = false → admits rq true a w s = true → exec (.registerWrite rq a w 4) s = .next (busDone s))

/-- R8: an aligned write to a register with LK fields, of the switch, of the tables or of the public-key engine, by a requester that the world
rules let through but that does not hold the lease of that block, answers a bus error and leaves the rest of the state as it was. -/
def Obligations.LockedRegistersNeedTheirLease : Prop :=
  (∀ (rq : Requester) (a : Nat) (w : Word) (s : State), hasLk a s = true → a % 4 = 0 → blockOf a = 7 → 0x40000000 ≤ a → lockHeldBy 0 rq s = false →
    admits rq true a w s = true → exec (.registerWrite rq a w 4) s = .next (busError s)) ∧
  (∀ (rq : Requester) (a : Nat) (w : Word) (s : State), hasLk a s = true → a % 4 = 0 → blockOf a = 8 → 0x40000000 ≤ a → lockHeldBy 1 rq s = false →
    admits rq true a w s = true → exec (.registerWrite rq a w 4) s = .next (busError s)) ∧
  (∀ (rq : Requester) (a : Nat) (w : Word) (s : State), hasLk a s = true → a % 4 = 0 → blockOf a = 15 → 0x40000000 ≤ a → pkeHolder rq s = false → admits
    rq true a w s = true → exec (.registerWrite rq a w 4) s = .next (busError s))

/-- R89: without the key 0x52A7 every action is a bus error and nothing happens; from the normal world the system software reset and the secure
world reset are bus errors that reset nothing, whatever the key; the normal world reset is taken from either world, and the system software
reset and the secure world reset from the secure world. -/
def Obligations.ResetControlNeedsKeyAndWorld : Prop :=
  (∀ (rq : Requester) (key : Nat) (s : State), admits rq true 0x40000010 0 s = true → key ≠ 0x52A7 → exec (.systemSoftwareReset rq key) s = .next
    (busError s)) ∧
  (∀ (rq : Requester) (key : Nat) (s : State), admits rq true 0x40000010 0 s = true → key ≠ 0x52A7 → exec (.normalWorldResetCmd rq key) s = .next
    (busError s)) ∧
  (∀ (rq : Requester) (key : Nat) (s : State), admits rq true 0x40000010 0 s = true → key ≠ 0x52A7 → exec (.secureWorldResetCmd rq key) s = .next
    (busError s)) ∧
  (∀ (rq : Requester) (w : Word) (s : State), admits rq true 0x40000010 w s = true → wbits w 16 16 ≠ 0x52A7 → exec (.registerWrite rq 0x40000010 w 4)
    s =
    .next (busError s)) ∧
  (∀ (rq : Requester) (key : Nat) (s : State), rqSecure rq = false → Completes (.systemSoftwareReset rq key) s fun t => t.bus = .error ∧ mode t = mode s
    ∧ t.mem = s.mem ∧ t.power = s.power ∧ isSet SYS_RSTCAUSE_swsys t = isSet SYS_RSTCAUSE_swsys s ∧ isSet SYS_RSTCAUSE_swworld t = isSet
    SYS_RSTCAUSE_swworld s) ∧
  (∀ (rq : Requester) (key : Nat) (s : State), rqSecure rq = false → Completes (.secureWorldResetCmd rq key) s fun t => t.bus = .error ∧ mode t = mode s
    ∧ t.mem = s.mem ∧ t.power = s.power ∧ isSet SYS_RSTCAUSE_swsys t = isSet SYS_RSTCAUSE_swsys s ∧ isSet SYS_RSTCAUSE_swworld t = isSet
    SYS_RSTCAUSE_swworld s) ∧
  (∀ (rq : Requester) (s : State), admits rq true 0x40000010 0 s = true → s.power.hold = false → s.power.por = false → Completes (.normalWorldResetCmd
    rq 0x52A7) s fun t => t.bus = .done ∧ isSet SYS_RSTCAUSE_swworld t = true) ∧
  (∀ (rq : Requester) (s : State), admits rq true 0x40000010 0 s = true → rqSecure rq = true → s.power.hold = false → s.power.por = false → Completes
    (.secureWorldResetCmd rq 0x52A7) s fun t => t.bus = .done ∧ isSet SYS_RSTCAUSE_swworld t = true) ∧
  (∀ (rq : Requester) (s : State), admits rq true 0x40000010 0 s = true → rqSecure rq = true → s.power.hold = false → s.power.por = false → Completes
    (.systemSoftwareReset rq 0x52A7) s fun t => t.bus = .done ∧ t.power.hold = true ∧ isSet SYS_RSTCAUSE_swsys t = true)

/-- R400: the floor is 0 in the state after reset and a read of KST_FLOOR answers it; a write from the secure world sets it, is a bus error and
changes nothing below the floor or above IMG_SECVER, and whatever a write does the floor never falls. -/
def Obligations.SecurityFloorRules : Prop :=
  (State.reset.store.floor = 0) ∧
  (∀ (rq : Requester) (s : State), admits rq false KST_FLOOR_floor.addr 0 s = true → Completes (.rcRead rq KST_FLOOR_floor.addr 4) s fun t => t.bus =
    .data (BitVec.ofNat 32 s.store.floor)) ∧
  (∀ (rq : Requester) (w : Word) (s : State), rqSecure rq = true → admits rq true KST_FLOORSET_floor.addr w s = true → w.toNat < s.store.floor ∨ getF
    IMG_SECVER_secver s < w.toNat → exec (.floorSet rq w) s = .next (busError s)) ∧
  (∀ (rq : Requester) (w : Word) (s : State), rqSecure rq = true → admits rq true KST_FLOORSET_floor.addr w s = true → s.store.floor ≤ w.toNat → w.toNat
    ≤ getF IMG_SECVER_secver s → Completes (.floorSet rq w) s fun t => t.store.floor = w.toNat ∧ t.bus = .done ∧ t.mem = s.mem ∧ t.regs = s.regs) ∧
  (∀ (rq : Requester) (w : Word) (s : State), Completes (.floorSet rq w) s fun t => s.store.floor ≤ t.store.floor)

/-- R495: a write of EVC_SOFT by a core of either world raises event 62 for a 1 in s0 and event 63 for a 1 in s1, and does nothing else. -/
def Obligations.SoftwareRaises : Prop :=
  ∀ (c : Nat) (m : World) (w : Word) (s : State), exec (.evcSoft (.core c m) w) s = .next ((fun x => if w.getLsbD 1 then raise 63 x else x) ((fun x =>
    if w.getLsbD 0 then raise 62 x else x) (busDone s)))

/-- R333: on a tile that runs a UART, a write of UART_SWTX by a requester that may make it takes a length of 1 to 256 and sets go; with go set
the next transmission is the software frame, ahead of every frame the switch queued; at the end of its last stop bit go clears. -/
def Obligations.SoftwareFrameOfAUart : Prop :=
  (∀ (rq : Requester) (n : Nat) (w : Word) (s : State), n < 48 → tileFunc n s = 5 ∨ tileFunc n s = 6 → 1 ≤ wbits w 0 9 → wbits w 0 9 ≤ 256 → w.getLsbD
    16 = true → admits rq true (UART_SWTX_len n).addr 0 s = true → Completes (.uartSwtxGo rq n w) s fun t => getF (UART_SWTX_len n) t = wbits w 0 9 ∧
    isSet (UART_SWTX_go n) t = true ∧ t.bus = .done ∧ t.ser = s.ser) ∧
  (∀ (n : Nat) (s : State), serRuns n [5, 6] s = true → (serOf n s).sending = none → (serOf n s).stopping = false → mayBegin n s = true → isSet
    (UART_SWTX_go n) s = true →
    Completes (.uartTxStart n) s fun t => (serOf n t).sending = some (regBytes (UART_TXDATA_data n) (getF (UART_SWTX_len n) s) s, true) ∧ (serOf n
    t).tx = (serOf n s).tx ∧ (isSet (UART_DE_en n) s = false → t.regs = s.regs)) ∧
  (∀ (n : Nat) (d echo : List Byte) (s : State), serRuns n [5, 6] s = true → (serOf n s).sending = some (d, true) → Completes (.serialTxEnd n echo) s
    fun t =>
    isSet (UART_SWTX_go n) t = false ∧ (serOf n t).sending = none)

/-- R371: an event message the manager receives goes to the end of a queue of 64 and raises event 61 where the queue was empty; found full, it
is lost and BRG_REVSTAT.lost counts; a read of BRG_REV0 that a requester may make answers the oldest entry with valid set, takes it off the
queue and copies its time into BRG_REV1. -/
def Obligations.RemoteEventQueueOfTheManager : Prop :=
  (∀ (m : PMsg) (r : List PMsg) (s : State), s.hie.inbox = m :: r → m.type = pEVENT → isManager s = true → s.brg.revq = [] → exec (.remoteEventReceive)
    s = .next (raise 61 { s with hie := { s.hie with inbox := r }, brg := { s.brg with revq := [⟨m.src % 64, m.at 0 1 % 64, m.at 1 1, m.at 4 4⟩] } })) ∧
  (∀ (m : PMsg) (r : List PMsg) (s : State), s.hie.inbox = m :: r → m.type = pEVENT → isManager s = true → s.brg.revq ≠ [] → s.brg.revq.length < 64 →
    exec (.remoteEventReceive) s = .next
    ({ s with hie := { s.hie with inbox := r }, brg := { s.brg with revq := s.brg.revq ++ [⟨m.src % 64, m.at 0 1 % 64, m.at 1 1, m.at 4 4⟩] } })) ∧
  (∀ (m : PMsg) (r : List PMsg) (s : State), s.hie.inbox = m :: r → m.type = pEVENT → isManager s = true → 64 ≤ s.brg.revq.length → exec
    (.remoteEventReceive) s = .next (incF BRG_REVSTAT_lost 1 { s with hie := { s.hie with inbox := r } })) ∧
  (∀ (rq : Requester) (e : RemoteEvent) (q : List RemoteEvent) (s : State), s.brg.revq = e :: q → admits rq false BRG_REV0_event.addr 0 s = true →
    Completes (.brgRev0Read rq) s fun t => t.brg.revq = q ∧ getF BRG_REV1_us t = e.us % 2 ^ BRG_REV1_us.width ∧ t.bus = .data (BitVec.ofNat 32
    (e.event + e.dev * 2 ^ 6 + e.seq * 2 ^ 16 + 2 ^ 31)))

/-- A level at WIRE_IN takes effect at once on the local input and leaves the debounced state alone; once its hold has lasted the debounce time
by the count of CK_REF cycles, it enters the debounced state; the oldest wire record leaves the queue when its inline Waybill enters the switch core.
    In HUNT a sync opens a
candidate, dropping the oldest of four; a candidate with a bad header is dropped and its third valid frame in a row brings lock and event
32; in LOCKED an accepted frame is taken and the fourth bad one in a row loses lock; RELOCK ends in lock or in HUNT. A running transmitter
puts one frame on its port and clears the latched assertions, going to the logic-1 gap after a realign frame; the gap ends in slaved frames,
or in free-running ones when the source was lost; a message write with go makes a message pending. -/
def Obligations.CarLinkCommandsComplete : Prop :=
  (∀ (n : Nat) (level : Bool) (s : State), n < 4 → Completes (.wireInChange n level) s fun t => t.wires.inLevel.testBit n = level ∧ (∀ m, m ≠ n →
    t.wires.inLevel.testBit m = s.wires.inLevel.testBit m) ∧ t.wires.deb = s.wires.deb ∧ t.regs = s.regs) ∧
  (∀ (n : Nat) (s : State), n < 4 → s.power.por = false → holdLasted n s = true → Completes (.wireDebounceExpiry n) s fun t => t.wires.deb.testBit n =
    (localIn s).testBit n ∧
    (∀ m, m ≠ n → t.wires.deb.testBit m = s.wires.deb.testBit m) ∧ t.mem = s.mem) ∧
  (∀ (r : WireRecord) (q : List WireRecord) (s : State), s.wires.records = r :: q → inlineCount s < 1024 → mode s ≠ mStandby → Completes
    (.wireRecordIssue) s fun t => t.wires.records = q) ∧
  (∀ (p : LinkSide) (bit : Nat) (s : State), (linkOf p s).rx = .hunt → (((linkOf p s).cands.any fun c => decide (c.count > 0) && decide (c.pos + 2000 =
    bit)) = false) → Completes (.carlinkHuntSync p bit) s fun t => (linkOf p t).cands = (if (linkOf p s).cands.length ≥ 4 then (linkOf p s).cands.drop
    1 else (linkOf p s).cands) ++ [{ pos := bit, count := 0 }] ∧ (linkOf p t).rx = .hunt ∧ t.regs = s.regs) ∧
  (∀ (p : LinkSide) (bit : Nat) (f : LinkFrame) (s : State), (linkOf p s).rx = .hunt → (linkOf p s).cands = [{ pos := bit, count := 0 }] → (syncExact f
    && headerOk f) = false → Completes (.carlinkCandidateFrame p bit f) s fun t => (linkOf p t).rx = .hunt ∧ (linkOf p t).cands = []) ∧
  (∀ (p : LinkSide) (bit pos : Nat) (f : LinkFrame) (s : State), (linkOf p s).rx = .hunt → (linkOf p s).cands = [{ pos := pos, count := 2 }] → pos +
    2000 = bit → syncExact f = true → headerOk f = true → Completes (.carlinkCandidateFrame p bit f) s fun t => (linkOf p t).rx = (if frRealign f then
    RxState.relock else RxState.locked) ∧ isSet (sideF p LNK_EVT_locka LNK_EVT_lockb) t = true ∧ rxFcnt p t = frFcnt f) ∧
  (∀ (p : LinkSide) (f : LinkFrame) (s : State), (linkOf p s).rx = .locked → frameAccepted f = true → Completes (.carlinkFrameReceive p f) s fun t =>
    rxFcnt p t = frFcnt f ∧ (linkOf p t).bad = 0 ∧ (linkOf p t).rx = (if frRealign f then RxState.relock else RxState.locked)) ∧
  (∀ (p : LinkSide) (f : LinkFrame) (s : State), (linkOf p s).rx = .locked → frameAccepted f = false → Completes (.carlinkFrameReceive p f) s fun t =>
    ((linkOf p s).bad < 3 → (linkOf p t).bad = (linkOf p s).bad + 1 ∧ (linkOf p t).rx = .locked) ∧ (3 ≤ (linkOf p s).bad → (linkOf p t).rx = .hunt ∧
    (linkOf p t).w = 0 ∧ isSet (sideF p LNK_EVT_lossa LNK_EVT_lossb) t = true)) ∧
  (∀ (p : LinkSide) (off : Nat) (f : LinkFrame) (s : State), (linkOf p s).rx = .relock → off ≤ 2040 → syncExact f = true → headerOk f = true → Completes
    (.relockSync p off f) s fun t => (linkOf p t).rx = (if frRealign f then RxState.relock else RxState.locked) ∧ rxFcnt p t = frFcnt f) ∧
  (∀ (p : LinkSide) (s : State), (linkOf p s).rx = .relock → Completes (.relockTimeout p) s fun t => (linkOf p t).rx = .hunt ∧ (linkOf p t).w = 0 ∧
    (linkOf p t).alarms = 0 ∧ isSet (sideF p LNK_EVT_lossa LNK_EVT_lossb) t = true) ∧
  (∀ (p : LinkSide) (inc : Option LinkFrame) (s : State), (linkOf p s).tx = .free ∨ (linkOf p s).tx = .realign ∨ (linkOf p s).tx = .slaved → Completes
    (.carlinkFrameSend p inc) s fun t => (∃ f, t.outbox = .carFrame p f :: s.outbox) ∧ (linkOf p t).latch = 0 ∧ (linkOf p t).sentAny = true ∧ (linkOf
    p t).tx = (if (linkOf p s).tx = .realign then TxPhase.gap else (linkOf p s).tx) ∧ t.mem = s.mem) ∧
  (∀ (p : LinkSide) (s : State), (linkOf p s).tx = .gap ∨ (linkOf p s).tx = .gapLost → exec (.rephaseStart p) s = .next (setLink p
    { linkOf p s with tx := (if (linkOf p s).tx = .gap then TxPhase.slaved else TxPhase.free) } s)) ∧
  (∀ (rq : Requester) (p : LinkSide) (w : Word) (s : State), admits rq true (if p = .a then 0x400B0044 else 0x400B0048) 0 s = true → wbits w 8 8 ≤ 220 →
    isSet (goF p) s = false → w.getLsbD 16 = true → wbits w 0 6 ≠ ownPos s ∨ isSet LNK_STATUS_posv s = false → Completes (.lnkMsgtxGo rq p w) s fun t
    => isSet (goF p) t = true ∧ t.bus = .done ∧ t.mem = s.mem)

/-- Each supply command, where its event can occur, answers a next state: power-on reset release samples the straps and enters BARE; its
assertion enters BACKUP or OFF and remembers the mode left; supplies valid, a warn crossing, a failed and a valid VDD rail, PFAIL_N falling,
rising and its restore time act as the chapter says. XIN swinging and stable, root PLL lock, its loss and the clock fault, the side PLLs and
the PCIe reference answer the next state of their rules: detector bits, the root PLL started, the dividers released together, a fault
counted and followed by a full reset, and the lock bits of the side PLLs. -/
def Obligations.SupplyAndClockCommandsComplete : Prop :=
  (∀ (role boot : Nat) (wpol : Bool) (s : State), s.power.por = true → s.power.supplies = true → role < 4 → boot < 4 → Completes (.powerOnResetRelease
    role boot wpol) s fun t => t.power.por = false ∧ mode t = mBare ∧ getF SYS_STRAP_role t = role ∧ getF SYS_STRAP_bootsrc t = boot ∧ isSet
    SYS_STRAP_wpol t = wpol) ∧
  (∀ (rail : Rail) (vbatOk : Bool) (s : State), s.power.por = false → rail = .vcore ∨ rail = .io0 → Completes (.powerOnResetAssert rail vbatOk) s fun t
    => t.power.por = true ∧ mode t = (if rail = .io0 ∧ vbatOk = false then mOff else mBackup) ∧ getF PWR_MODE_prev t = mode s ∧ t.pending = s.pending) ∧
  (∀ (s : State), s.power.por = true → Completes (.suppliesValid) s fun t => t.power.supplies = true ∧ t.aon.onVbat = false ∧ (mode s = mOff → mode t =
    mBackup)) ∧
  (∀ (r : Rail) (s : State), s.power.por = false → r = .vcore ∨ r = .io0 ∨ r = .aux → exec (.railWarnCrossing r) s = .next (raise 4 (setB (if r = .vcore
    then SYS_SUPPLY_wcore else if r = .io0 then SYS_SUPPLY_wio0 else SYS_SUPPLY_waux) true s))) ∧
  (∀ (r : Rail) (s : State), s.power.por = false → railShown r = true → railOk r s = true → Completes (.railFailCrossing r) s fun t => railOk r t =
    false ∧ isSet SYS_SUPPLY_railfail t = true) ∧
  (∀ (r : Rail) (classMv : Option Nat) (s : State), railShown r = true → railOk r s = false → Completes (.railValid r classMv) s fun t => railOk r t =
    true) ∧
  (∀ (s : State), s.power.pfailLow = false → s.power.por = false → Completes (.pfailFall) s fun t => t.power.pfailLow = true ∧ isSet SYS_SUPPLY_pfail t
    = true ∧ isSet SYS_SUPPLY_pfnow t = false) ∧
  (∀ (s : State), s.power.por = false → exec (.pfailRise) s = .next (setB SYS_SUPPLY_pfnow true
    { s with power := { s.power with pfailLow := false } })) ∧
  (∀ (s : State), s.power.pfailLow = false → isSet PWR_STATUS_shed s = true → exec (.pfailRestoreExpiry) s = .next (setB PWR_STATUS_shed false
    { s with power := { s.power with shedPorts := 0 } })) ∧
  (∀ (s : State), s.power.supplies = true → Completes (.xinAmplitudeGood) s fun t => isSet CKR_STATUS_xamp t = true ∧ t.mem = s.mem) ∧
  (∀ (s : State), isSet CKR_STATUS_xamp s = true → isSet CKR_STATUS_xstable s = false → Completes (.xinStable) s fun t => isSet CKR_STATUS_xstable t =
    true ∧ (s.power.por = false → t.linkA.rx = .hunt ∧ t.linkB.rx = .hunt ∧ t.linkA.tx = .free ∧ t.linkB.tx = .free)) ∧
  (∀ (us : Nat) (s : State), s.power.pllStarting = true → Completes (.rootPllLock us) s fun t => isSet CKR_STATUS_rootlock t = true ∧ getF CKR_RUN_clk t
    = 0xFF ∧ getF SYS_T_PLL_us t = us % 2 ^ 32 ∧ t.power.cores = .bootRom ∧ t.power.tick = true ∧ t.ticks = 0) ∧
  (∀ (s : State), exec (.rootPllLockLoss) s = .next (s)) ∧
  (∀ (s : State), s.power.por = false → s.power.hold = false → isSet CKR_STATUS_rootlock s = true → Completes (.clockFault) s fun t => mode t = mBare ∧
    isSet CKR_EVT_clkfault t = true ∧ isSet SYS_RSTCAUSE_clkfault t = true ∧ t.power.hold = true) ∧
  (∀ (s : State), isSet CKR_STATUS_pcieref s = true → Completes (.pllLockLossOther .pcieRef) s fun t => isSet CKR_STATUS_pcieref t = false ∧ isSet
    CKR_EVT_pcieloss t = true) ∧
  (∀ (s : State), isSet CKR_STATUS_ddrlock s = true → Completes (.pllLockLossOther .ddr) s fun t => isSet CKR_STATUS_ddrlock t = false ∧ isSet
    CKR_EVT_ddrloss t = true ∧ getF CKR_LOCKLOSS_other t = min (getF CKR_LOCKLOSS_other s + 1) 65535) ∧
  (∀ (g : Nat) (s : State), g < 4 → (getF CKR_STATUS_sdslock s).testBit g = true → Completes (.pllLockLossOther (.sds g)) s fun t => (getF
    CKR_STATUS_sdslock t).testBit g = false ∧ (getF CKR_EVT_sdsloss t).testBit g = true) ∧
  (∀ (g : Nat) (s : State), g < 4 → isSet SYS_RAILOK_sds s = true → s.power.sdsStopped.testBit g = false → Completes (.serdesPllRelock g) s fun t =>
    (getF CKR_STATUS_sdslock t).testBit g = true) ∧
  (∀ (s : State), Completes (.pcieRefStable) s fun t => isSet CKR_STATUS_pcieref t = true ∧ (getF PWR_DEGRADE_cause t).testBit 7 = false)

/-- RESET_N and SYS_RSTCTL action 1 begin a full reset: the mode is BARE, the cause bit is set, memory is cleared and the hold begins; RESET_N
released and the end of the hold give the boot its way. The watchdog registers enable and kick the counts, an expiry restarts the count or
resets its world, a world reset in the modes with an image in force declares its DEGRADED cause and a restarted world clears it. -/
def Obligations.ResetAndWatchdogCommandsComplete : Prop :=
  (∀ (s : State), s.power.por = false → s.power.hold = false → Completes (.resetNAssert) s fun t => t.power.hold = true ∧ mode t = mBare ∧ isSet
    SYS_RSTCAUSE_resetn t = true ∧ t.power.resetLow = true ∧ t.mem = [] ∧ t.pending = s.pending) ∧
  (∀ (s : State), exec (.resetNRelease) s = .next ({ s with power := { s.power with resetLow := false } })) ∧
  (∀ (s : State), s.power.hold = true → s.power.resetLow = false → Completes (.fullResetEnd) s fun t => t.power.hold = false ∧ t.regs = s.regs ∧ t.mem =
    s.mem) ∧
  (∀ (rq : Requester) (s : State), s.power.por = false → s.power.hold = false → admits rq true 0x40000010 0 s = true → rqSecure rq = true → Completes
    (.systemSoftwareReset rq 0x52A7) s fun t => t.power.hold = true ∧ mode t = mBare ∧ isSet SYS_RSTCAUSE_swsys t = true ∧ t.bus = .done ∧ t.mem = []) ∧
  (∀ (rq : Requester) (s : State), admits rq true 0x40000010 0 s = true → s.power.hold = false → serving s = true → Completes (.normalWorldResetCmd rq
    0x52A7) s fun t => isSet SYS_RSTCAUSE_swworld t = true ∧ isSet SYS_WDN_CTL_en t = false ∧ (getF PWR_DEGRADE_cause t).testBit 9 = true) ∧
  (∀ (rq : Requester) (s : State), admits rq true 0x40000010 0 s = true → rqSecure rq = true → s.power.hold = false → serving s = true → Completes
    (.secureWorldResetCmd rq 0x52A7) s fun t => isSet SYS_RSTCAUSE_swworld t = true ∧ (getF PWR_DEGRADE_cause t).testBit 8 = true) ∧
  (∀ (rq : Requester) (s : State), admits rq true 0x40000024 0 s = true → isSet SYS_WDN_CTL_en s = true → exec (.normalWatchdogKick rq 0xA55A) s = .next
    (setF SYS_WDN_STAT_left (getF SYS_WDN_CTL_period s) (setB SYS_WDN_STAT_first false (busDone s)))) ∧
  (∀ (rq : Requester) (w : Word) (s : State), admits rq true 0x40000020 0 s = true → wbits w 16 16 ≠ 0 → w.getLsbD 0 = true → isSet SYS_WDN_CTL_en s =
    false → Completes (.normalWatchdogEnable rq w) s fun t => isSet SYS_WDN_CTL_en t = true ∧ getF SYS_WDN_CTL_period t = wbits w 16 16 ∧ getF
    SYS_WDN_STAT_left t = wbits w 16 16 ∧ t.bus = .done ∧ t.mem = s.mem) ∧
  (∀ (s : State), isSet SYS_WDN_CTL_en s = true → s.power.tick = true → isSet SYS_WDN_STAT_first s = false → exec (.normalWatchdogExpiry) s = .next
    (raise 9 (setF SYS_WDN_STAT_left (getF SYS_WDN_CTL_period s) (setB SYS_WDN_STAT_first true s)))) ∧
  (∀ (rq : Requester) (s : State), admits rq true 0x40000034 0 s = true → rqSecure rq = true → exec (.secureWatchdogKick rq 0xA55A) s = .next
    ({ s with bus := .done, power := { s.power with wds := getF SYS_WDS_CTL_period s } })) ∧
  (∀ (s : State), serving s = true → s.power.tick = true → s.power.hold = false → Completes (.secureWatchdogExpiry) s fun t => isSet SYS_RSTCAUSE_wds t
    = true ∧ (getF PWR_DEGRADE_cause t).testBit 8 = true ∧ t.power.wds = getF SYS_WDS_CTL_period s) ∧
  (∀ (rq : Requester) (w : Word) (s : State), admits rq true 0x40020014 0 s = true → rqSecure rq = true → w.getLsbD 0 = false → w.getLsbD 1 = true →
    Completes (.pwrReadyWrite rq w) s fun t => (getF PWR_DEGRADE_cause t).testBit 8 = false ∧ t.bus = .done)

/-- A write of the always-on domain is on its way and then takes effect; the RTC counts; WAKE pins and the tamper input fire once until they
re-arm; VBAT is measured; PWR_REQ is released; the domain powers up and loses its supply. -/
def Obligations.AlwaysOnCommandsComplete : Prop :=
  (∀ (fromVbat : Bool) (s : State), mode s = mOff → Completes (.aonDomainPowerUp fromVbat) s fun t => mode t = mBackup ∧ t.aon.sec = 0 ∧ isSet
    AON_STATUS_aonpor t = true) ∧
  (∀ (s : State), s.power.por = true → mode s = mBackup → s.aon.onVbat = true → Completes (.aonSupplyLoss) s fun t => mode t = mOff ∧ getF PWR_MODE_prev
    t = mBackup ∧ t.aon.writes = []) ∧
  (∀ (s : State), Completes (.aonWriteTransit) s fun t => t.aon.writes = s.aon.writes.tail ∧ t.mem = s.mem) ∧
  (∀ (s : State), Completes (.rtcSecond) s fun t => t.aon.sec = (s.aon.sec + 1) % 2 ^ 32 ∧ t.aon.frac = 0) ∧
  (∀ (rq : Requester) (w : Word) (s : State), admits rq true 0x4015000C 0 s = true → rqSecure rq = true → exec (.aonRtcset rq w) s = .next (setB
    AON_STATUS_busy true
    { s with bus := (if s.aon.writes = [] then .done else .stall), aon := { s.aon with writes := s.aon.writes ++ [(0x4015000C, w.toNat, true)] } })) ∧
  (∀ (n : Nat) (s : State), n < 2 → isSet AON_ALMCTL_wake0 s = true → isSet AON_ALMCTL_wake1 s = true → s.aon.fired.testBit n = false → Completes
    (.wakePinFire n) s fun t => t.aon.fired.testBit n = true ∧ t.aon.sec = s.aon.sec) ∧
  (∀ (n : Nat) (s : State), n < 2 → Completes (.wakePinRearm n) s fun t => t.aon.fired.testBit n = false ∧ t.regs = s.regs) ∧
  (∀ (s : State), isSet AON_ALMCTL_tamper s = true → s.aon.fired.testBit 2 = false → Completes (.tamperFire) s fun t => isSet AON_TAMPER_latch t = true
    ∧ isSet AON_TAMPER_pin t = false ∧ t.aon.fired.testBit 2 = true) ∧
  (∀ (s : State), Completes (.tamperRearm) s fun t => isSet AON_TAMPER_pin t = true ∧ t.aon.fired.testBit 2 = false) ∧
  (∀ (rq : Requester) (s : State), admits rq true 0x40150018 0 s = true → rqSecure rq = true → lifecycle s ≠ lcGarnet ∨ mode s = mWorkshop → Completes
    (.tamperLatchClear rq) s fun t => t.aon.writes = s.aon.writes ++ [(0x40150018, 1, true)]) ∧
  (∀ (mv10 : Nat) (s : State), mv10 < 512 → Completes (.vbatMeasure mv10) s fun t => getF AON_VBAT_mv10 t = mv10 ∧ (mv10 < 210 → isSet AON_VBAT_inhibit
    t = true) ∧ (220 ≤ mv10 → isSet AON_VBAT_inhibit t = false)) ∧
  (∀ (s : State), s.aon.holding = true → Completes (.pwrReqHoldExpiry) s fun t => t.aon.holding = false ∧ (isSet AON_PREQ_sw s = false → isSet
    AON_PREQ_asserted t = false)) ∧
  (∀ (rq : Requester) (s : State), admits rq true 0x40150020 0 s = true → Completes (.pwrReqRelease rq) s fun t => ∃ v, t.aon.writes = s.aon.writes ++
    [(0x40150020, v, false)] ∧ v.testBit 17 = true ∧ v % 2 ^ 10 = getF AON_PREQ_hold s) ∧
  (∀ (rq : Requester) (w : Word) (s : State), admits rq true 0x40150020 0 s = true → 1 ≤ wbits w 0 10 → wbits w 0 10 ≤ 600 → Completes (.pwrReqSwWrite
    rq w) s fun t => t.aon.writes = s.aon.writes ++ [(0x40150020, w.toNat, false)]) ∧
  (∀ (rq : Requester) (s : State), admits rq true 0x4015002C 0 s = true → Completes (.aonLogack rq) s fun t => t.aon.writes = s.aon.writes ++
    [(0x4015002C, 1, false)])

/-- A keyed STANDBY request that meets every condition is accepted and the cores are told to wait; the entry completes into STANDBY with the
main clocks stopped, or is refused after 10 ms with why 5; an exit starts the clocks again. LOADING is entered from BARE, or QUARANTINE
where the straps, the boot count or the lifecycle state say so; the header and the image are checked and either go on or fail to the next
slot or QUARANTINE; BUILDING forms the structure; the cut-over enters SERVICE, DEGRADED or WORKSHOP with a boot count of 0. A used tile that
is due runs, a CAN tile first waiting for 11 recessive bits and then being error active or passive by its counters; the ramp of the shared
pool moves by one. -/
def Obligations.StandbyBootAndStartUpCommandsComplete : Prop :=
  (∀ (rq : Requester) (w : Word) (s : State), admits rq true 0x40020004 0 s = true → keyed 0x5D3B w = true → wbits w 0 4 = 8 → s.power.standby = .none →
    getF PWR_MODE_base s = mPartial → mode s = mPartial → (((usedUnits s).all fun u => unitAsleep u s) = true) → (((List.range 4).all fun k =>
    motorState k s == 0) = true) → causes s = 0 → Completes (.standbyRequest rq w) s fun t => t.power.standby = .waitCores ∧ t.power.cores = .waiting
    ∧ t.bus = .done ∧ mode t = mode s) ∧
  (∀ (s : State), s.power.standby = .waitCores → Completes (.standbyEntryComplete) s fun t => t.power.standby = .inStandby ∧ t.power.tick = false ∧ mode
    t = mStandby ∧ isSet CKR_STATUS_rootlock t = false ∧ getF CKR_RUN_clk t = 0) ∧
  (∀ (s : State), s.power.standby = .waitCores → exec (.standbyCoreWaitTimeout) s = .next (setB PWR_STATUS_refused true (setF PWR_STATUS_why 5
    { s with power := { s.power with standby := .none, cores := .running } }))) ∧
  (∀ (refCycles : Nat) (s : State), s.power.standby = .exiting → Completes (.standbyExit refCycles) s fun t => t.power.standby = .none ∧ t.power.tick =
    true ∧ t.power.cores = .running ∧ isSet CKR_STATUS_rootlock t = true ∧ getF CKR_RUN_clk t = 0xFF) ∧
  (∀ (s : State), mode s = mBare → s.power.por = false → s.power.hold = false → isSet CKR_STATUS_rootlock s = true → bootRails s = true → strapsOk s =
    true → getF PWR_BOOTTRY_n s ≤ 3 → Completes (.loadingEntry) s fun t => (lifecycle t ≠ 0 → lifecycle t ≠ 5 → mode t = mLoading) ∧ (lifecycle t = 0
    ∨ lifecycle t = 5 → mode t = mQuarantine)) ∧
  (∀ (s : State), mode s = mBare → s.power.por = false → s.power.hold = false → isSet CKR_STATUS_rootlock s = true → bootRails s = true → getF
    PWR_BOOTTRY_n s = 4 ∨ strapsOk
    s = false → Completes (.bootQuarantine) s fun t => mode t = mQuarantine ∧ t.power.cores = .reporting ∧ getF IMG_STATUS_phase t = 7) ∧
  (∀ (hdr : List Byte) (s : State), loading s = true → getF IMG_STATUS_phase s = 1 → isSet SYS_RAILOK_io1 s = true → hdr.length = 128 → Completes
    (.imageHeaderCheck hdr) s fun t =>
    (checkHeader hdr false s = none → getF IMG_STATUS_phase t = 2 ∧ t.loader.header = hdr ∧ mode t = mode s) ∧ (checkHeader hdr false s ≠ none → mode
    t = mQuarantine ∨ getF IMG_STATUS_slot t = 1)) ∧
  (∀ (img : List Byte) (s : State), loading s = true → s.loader.accepted = false → imageRead img s = true → Completes (.imageVerify img) s fun t =>
    (checkImage img s = none → mode t = mBuilding ∧ t.loader.accepted = true ∧ t.loader.next = structureOf img {} ∧ getF IMG_STATUS_phase t = 5) ∧
    (checkImage img s ≠ none → mode t = mQuarantine ∨ getF IMG_STATUS_slot t = 1)) ∧
  (∀ (ddrOk : Bool) (s : State), mode s = mBuilding → s.loader.accepted = true → s.loader.built = false → Completes (.build ddrOk) s fun t =>
    (s.power.ddrFitted = false → checkBuild ddrOk s.loader.next s = none → t.loader.built = true ∧ t.regs = s.regs) ∧ (s.power.ddrFitted = false →
    checkBuild ddrOk s.loader.next s ≠ none → mode t = mQuarantine ∨ getF IMG_STATUS_slot t = 1) ∧ (s.power.ddrFitted = true → ddrOk = false → mode t
    = mQuarantine ∨ getF IMG_STATUS_slot t = 1)) ∧
  (∀ (s : State), mode s = mBuilding → s.loader.built = true → Completes (.cutOver) s fun t => (s.loader.next.policy.flags.testBit 0 = true → mode t =
    mWorkshop) ∧ (s.loader.next.policy.flags.testBit 0 = false → mode t = mService ∨ mode t = mDegraded) ∧ getF PWR_BOOTTRY_n t = 0 ∧ getF
    PWR_MODE_base t = mService ∧ t.str = s.loader.next ∧ t.loader = {} ∧ isSet EVC_CTL_act t = true) ∧
  (∀ (n : Nat) (s : State), tileDue n s = true → Completes (.tileStart n) s fun t => tileBit FAB_RUN0_run FAB_RUN1_run n t = true ∧ (isCan n s = true →
    (canOf n s).sleptOff = false → canState n t = 2)) ∧
  (∀ (n : Nat) (s : State), n < 48 → isCan n s = true → canState n s = 2 → Completes (.canIntegrationDone n) s fun t => canState n t = (if getF
    (CAN_ERR_tec n) s ≥ 128 ∨ getF (CAN_ERR_rec n) s ≥ 128 then 4 else 3) ∧ (canState n t = 4 → isSet (CAN_EVT_passive n) t = true)) ∧
  (∀ (s : State), serving s = true → getF SYS_STARTUP_ramp s < 50 → Completes (.allowanceRampTick) s fun t => getF SYS_STARTUP_ramp t = getF
    SYS_STARTUP_ramp s + 1 ∧ t.mem = s.mem)

/-- Each command of a delta session that its rule lets through completes: an open takes a lease and shows its owner, a delivery is under way,
its copy ends, a close accepts or fails the delta, an abort ends the session. Preparation ends or is rolled back with end 5; a lock the
loader waits for is taken; a tile of the delta becomes quiet; the cut-over of the delta raises the generation and starts the drain; the
drain ends with the old structure gone. -/
def Obligations.DeltaCommandsComplete : Prop :=
  (∀ (rq : Requester) (s : State), admits rq true 0x40050080 0 s = true → getF IMG_DLTSTAT_state s = 0 → isSet IMG_RCFG_drain s = false → mode s =
    mService ∨ mode s = mPartial ∨ mode s = mDegraded → ownerFenced (rqTag rq) s = false → (freeLease (rqTag rq) s).isSome = true → Completes
    (.deltaOpen rq) s fun t => getF IMG_DLTSTAT_state t = 1 ∧ t.loader.owner = rqTag rq ∧ (leaseOf t.loader.lease t).state = .held ∧ (leaseOf
    t.loader.lease t).owner = rqTag rq ∧ t.bus = .done) ∧
  (∀ (rq : Requester) (w : Word) (s : State), admits rq true 0x40050090 0 s = true → w.getLsbD 0 = true → ownsSession rq s = true → isSet
    IMG_DLTSTAT_busy s = false → placeOk (getF IMG_DLTOFF_off s) (getF IMG_DLTLEN_len s) s = true → Completes (.deltaDelivery rq w) s fun t => isSet
    IMG_DLTSTAT_busy t = true ∧ t.loader.copying.isSome = true ∧ t.bus = .done ∧ t.loader.dHead = s.loader.dHead) ∧
  (∀ (bad : Nat) (s : State), s.loader.copying.isSome = true → Completes (.deltaDeliveryDone bad) s fun t => t.loader.copying = none ∧ isSet
    IMG_DLTSTAT_busy t = false) ∧
  (∀ (rq : Requester) (s : State), admits rq true 0x40050080 0 s = true → ownsSession rq s = true → isSet IMG_DLTSTAT_busy s = false → Completes
    (.deltaClose rq) s fun t => (getF IMG_DLTSTAT_state t = 3 ∧ t.loader.accepted = true ∨ getF IMG_DLTSTAT_state t = 0 ∧ getF IMG_DLTSTAT_end t = 4 ∧
    getF IMG_STATUS_phase t = 7) ∧ (blocksWhole s = false → getF IMG_DLTSTAT_state t = 0 ∧ getF IMG_STATUS_code t = fDELTABLOCK)) ∧
  (∀ (rq : Requester) (s : State), admits rq true 0x40050080 0 s = true → ownsSession rq s = true → Completes (.deltaAbort rq) s fun t => getF
    IMG_DLTSTAT_state t = 0 ∧ getF IMG_DLTSTAT_end t = 1 ∧ t.loader = {} ∧ (leaseOf s.loader.lease t).state = .free) ∧
  (∀ (s : State), getF IMG_DLTSTAT_state s = 3 → s.loader.prepared = false → Completes (.deltaPrepareDone) s fun t => (checkPrepare s = none →
    t.loader.prepared = true) ∧ (checkPrepare s ≠ none → getF IMG_DLTSTAT_state t = 0 ∧ getF IMG_DLTSTAT_end t = 5 ∧ getF IMG_STATUS_phase t = 7)) ∧
  (∀ (b : Nat) (r : List Nat) (s : State), s.loader.wants = b :: r → lockFree b s = true → Completes (.deltaLockAcquired) s fun t => t.loader.wants =
    r.filter (· ≠ b)) ∧
  (∀ (n : Nat) (s : State), getF IMG_DLTSTAT_state s = 4 → (deltaTiles s).contains n = true → tileBit FAB_QUIET0_q FAB_QUIET1_q n s = false
    → tileStill n s = true → Completes (.tileQuiet n) s fun t => tileBit FAB_QUIET0_q FAB_QUIET1_q n t = true) ∧
  (∀ (s : State), getF IMG_DLTSTAT_state s = 4 → s.loader.wants = [] → (((deltaTiles s).all fun n => tileBit FAB_QUIET0_q FAB_QUIET1_q n s) = true) →
    Completes (.deltaCutOver) s fun t => getF IMG_DLTSTAT_state t = 0 ∧ isSet IMG_RCFG_drain t = true ∧ getF IMG_RCFG_gen t = (getF IMG_RCFG_gen s +
    1) % 2 ^ IMG_RCFG_gen.width ∧ t.old.isSome = true ∧ t.loader = {}) ∧
  (∀ (s : State), isSet IMG_RCFG_drain s = true → oldRemains s = false → Completes (.deltaDrainEnd) s fun t => isSet IMG_RCFG_drain t = false ∧ t.old =
    none)

/-- A guaranteed page request of a class is granted and charged and moves the guaranteed pointer past its requester, a refused lossy one is
counted with its reason; a transmitted page is given back; a chain is granted to software under a lease and freed by its owner; a core reads
and writes the bytes of pages it holds. A free block lock is granted to its taker as a held lease of kind 2 or 4; the owner of a renewable
lease renews it and the owner of any lease releases it; an expiry or a permitted revocation fences a lease; a reclaim ends the oldest
declaration and logs it. -/
def Obligations.PageAndLeaseCommandsComplete : Prop :=
  (∀ (r : PageReq) (i : Nat) (s : State), r.idx < 21 → r.src < 50 → reqSet r s = some i → reqAnswer r s = .guaranteed → holdsOf (reqSource r) s = [] →
    Completes
    (.pageRequest [r]) s fun t => setUsed i t = setUsed i s + 1 ∧ getF INK_ALLOCSTAT_gptr t = (r.idx + 1) % 21) ∧
  (∀ (r : PageReq) (k : Nat) (s : State), r.idx < 20 → r.idx ≠ 16 → r.src < 50 → r.lossless = false → reqAnswer r s = .noPage k → 1 ≤ k → k ≤ 3 →
    Completes
    (.pageRequest [r]) s fun t => getF (INK_DROP_count r.idx (k - 1)) t = min (getF (INK_DROP_count r.idx (k - 1)) s + 1) (2 ^ 32 - 1) ∧ fillingAt
    (fillKey (reqSource r) false) t = []) ∧
  (∀ (p g : Nat) (r : Replica) (s : State), sendingOf p s = some r → p ≠ 19 → (r.cut && r.wb.lossless) = false → (r.wb.pages.drop r.read).head? = some
    g → Completes
    (.pageFree p) s fun t => sendingOf p t = some { r with read := r.read + 1 } ∧ pageRefs g t = pageRefs g s - 1) ∧
  (∀ (rq : Requester) (w : Word) (i : Nat) (s : State), admits rq true 0x40040040 0 s = true → 1 ≤ wbits w 0 9 → wbits w 0 9 ≤ 64 → setIdx 16 (wbits w 9
    3) s = some i → chainAnswer i (wbits w 0 9 - (fillingAt (fillKey (softIdx (rqWorld rq)) false) s).length) s = 0 → ownerFenced (rqTag rq) s = false
    → (freeLease (rqTag rq) s).isSome = true → Completes (.inkPgreq rq w) s fun t => isSet
    INK_PGRESP_done t = true ∧ isSet INK_PGRESP_refused t = false ∧ t.bus = .done) ∧
  (∀ (rq : Requester) (n : Nat) (s : State), admits rq true 0x40040048 0 s = true → holdsLease n rq s = true → (leaseOf n s).kind = 1 → Completes
    (.inkPgfree rq n) s fun t => leaseOf n t = {} ∧ t.bus = .done) ∧
  (∀ (rq : Requester) (a size : Nat) (x : Word) (s : State), (rqCore rq).isSome = true → hostelBase ≤ a → a + size ≤ hostelBase + 0xC00000 → size = 1 ∨
    size = 2 ∨ size = 4 → a % size = 0 → pageLeased (rqWorld rq) ((a - hostelBase) / 256) s = true → Completes (.pageWindowAccess rq a size (some x))
    s fun t => (∀ i, i < size → rd8 t (a + i) = BitVec.ofNat 8 (x.toNat / 256 ^ i)) ∧ (∀ b, b < a ∨ a + size ≤ b → rd8 t b = rd8 s b) ∧ t.bus = .done
    ∧ t.regs = s.regs) ∧
  (∀ (rq : Requester) (a size : Nat) (s : State), (rqCore rq).isSome = true → hostelBase ≤ a → a + size ≤ hostelBase + 0xC00000 → size = 1 ∨ size = 2 ∨
    size = 4 → a % size = 0 → pageLeased (rqWorld rq) ((a - hostelBase) / 256) s = true → exec (.pageWindowAccess rq a size none) s = .next (busData
    (leNat (rdBytes s a size)) s)) ∧
  (∀ (rq : Requester) (s : State), admits rq true 0x40070000 0 s = true → leaseFor 2 0 s = none → ownerFenced (rqTag rq) s = false → (freeLease (rqTag
    rq) s).isSome = true → Completes (.swcLockTake rq) s fun t => isSet SWC_LOCK_busy t = false ∧ t.bus = .done ∧ ∃ n, leaseOf n t =
    { state := .held, kind := 2, res := 0, owner := rqTag rq, dur := some (getF INK_LSLOCK_ms s), left := some (getF INK_LSLOCK_ms s) }) ∧
  (∀ (rq : Requester) (s : State), admits rq true 0x40080000 0 s = true → leaseFor 2 1 s = none → ownerFenced (rqTag rq) s = false → (freeLease (rqTag
    rq) s).isSome = true → isSet FWT_STAT_drain s = false → Completes (.fwtLockTake rq) s fun t => isSet FWT_LOCK_busy t = false ∧ t.bus = .done ∧ ∃
    n, leaseOf n t =
    { state := .held, kind := 2, res := 1, owner := rqTag rq, dur := some (getF INK_LSLOCK_ms s), left := some (getF INK_LSLOCK_ms s) }) ∧
  (∀ (rq : Requester) (s : State), admits rq true 0x400F0000 0 s = true → leaseFor 4 0 s = none → ownerFenced (rqTag rq) s = false → (freeLease (rqTag
    rq) s).isSome = true → Completes (.pkeLockTake rq) s fun t => isSet PKE_LOCK_busy t = false ∧ t.bus = .done ∧ ∃ n, (leaseOf n t).state = .held ∧
    (leaseOf n t).kind = 4 ∧ (leaseOf n t).owner = rqTag rq) ∧
  (∀ (rq : Requester) (n : Nat) (s : State), admits rq true 0x4004006C 0 s = true → holdsLease (n % 1024) rq s = true → (leaseOf (n % 1024)
    s).dur.isSome = true → (leaseOf (n % 1024) s).kind = 1 ∨ (leaseOf (n % 1024) s).kind = 2 → loaderWaits (leaseOf (n % 1024) s) s = false → exec
    (.leaseRenew rq n) s = .next (busDone (setLease (n % 1024) { leaseOf (n % 1024) s with left := (leaseOf (n % 1024) s).dur } s))) ∧
  (∀ (rq : Requester) (n : Nat) (s : State), admits rq true 0x40040070 0 s = true → holdsLease (n % 1024) rq s = true → Completes (.leaseRelease rq n) s
    fun t => leaseOf (n % 1024) t = {} ∧ t.bus = .done) ∧
  (∀ (n : Nat) (s : State), (leaseOf n s).state = .held → (leaseOf n s).dur.isSome = true → (leaseOf n s).kind ≠ 5 → Completes (.leaseExpiry n) s fun t
    => (leaseOf n t).state = .fenced ∧ t.regs = s.regs ∧ t.mem = s.mem) ∧
  (∀ (rq : Requester) (w : Word) (s : State), admits rq true 0x40040080 0 s = true → (leaseOf (wbits w 0 10) s).state = .held → mayRevoke rq (leaseOf
    (wbits w 0 10) s) = true → Completes (.inkRevoke rq w) s fun t => (leaseOf (wbits w 0 10) t).state = .fenced ∧ t.bus = .done ∧ t.regs = s.regs) ∧
  (∀ (d : Declaration) (r : List Declaration) (s : State), s.ink.decls = d :: r → Completes (.reclaimDone) s fun t => t.ink.decls = r ∧ getF
    INK_REVLOG1_count t = d.leases.length % 2 ^ 11)

/-- A period renews the budget, an item is queued with its due time and a free engine takes it, its completion gives the engine back, a late
item is counted, a page-in makes the lodger resident and a millisecond closes the fault count. -/
def Obligations.LodgerCommandsComplete : Prop :=
  (∀ (lid : Nat) (s : State), (lodgerOf lid s).present = true → Completes (.lodgerPeriodStart lid) s fun t => (lodgerOf lid t).periodStart = s.ticks ∧
    (lodgerOf lid t).carry = 0 ∧ (lodgerOf lid t).queue = (lodgerOf lid s).queue ∧ ((lodgerOf lid s).running = none → (lodgerOf lid t).left =
    lodgerBudget lid s - min (lodgerOf lid s).carry (lodgerBudget lid s)) ∧ (lodgerOf lid t).suspended = (decide ((lodgerOf lid t).left = 0) &&
    !(lodgerOf lid t).queue.isEmpty) ∧ t.regs = s.regs ∧ t.mem = s.mem) ∧
  (∀ (lid : Nat) (w : ItemWork) (s : State), (lodgerOf lid s).present = true → (lodgerOf lid s).fenced = false → (lodgerOf lid s).resident = true →
    Completes (.itemRelease lid w) s fun t => (lodgerOf lid t).queue = (lodgerOf lid s).queue ++ [{ work := w, due := dueTime lid s, rel := nowMs s }]
    ∧ t.regs = s.regs) ∧
  (∀ (lid : Nat) (it : Item) (q : List Item) (s : State), enginesBusy s < 16 → isSet TRN_OBUF_stall s = false → readyFirst s = some lid → (lodgerOf lid
    s).queue = it :: q → Completes (.itemDispatch) s fun t => (lodgerOf lid t).running = some it ∧ (lodgerOf lid t).queue = q ∧ t.ink.dispatches =
    s.ink.dispatches + 1) ∧
  (∀ (lid : Nat) (s : State), (lodgerOf lid s).running.isSome = true → Completes (.itemComplete lid) s fun t => (lodgerOf lid t).running = none) ∧
  (∀ (lid : Nat) (s : State), (((lodgerOf lid s).queue.any fun i => !i.late) = true) → Completes (.deadlineMiss lid) s fun t => (lodgerOf lid
    t).missPeriods = min ((lodgerOf lid s).missPeriods + 1) 0xFFFF ∧ getF INK_SCHED_misses t = min (getF INK_SCHED_misses s + 1) 0xFFFF ∧ getF
    INK_MISSLOG_lid t = lid % 256) ∧
  (∀ (lid us : Nat) (s : State), (lodgerOf lid s).faulting = true → Completes (.pageInDone lid us) s fun t => (lodgerOf lid t).resident = true ∧
    (lodgerOf lid t).faulting = false ∧ getF INK_PAGESTAT_maxlat t = min (max (getF INK_PAGESTAT_maxlat s) us) 255) ∧
  (∀ (s : State), Completes (.pagingMsCheck) s fun t => getF INK_PAGESTAT_faults t = s.ink.faultsMs % 2 ^ 16 ∧ t.ink.faultsMs = 0)

/-- The first bytes of a frame are offered to the pipeline once; a stored frame is no longer in progress; a frame at the authenticate stage with
no rule goes on unauthenticated and one whose MAC fails is counted; an ended cut-through replica leaves its port; a recovered stream that
times out takes any sequence number. A free port takes the head of its highest eligible class; a transmit opportunity puts a T1S port on the
wire; a complete replica frees its port and is counted; gate entries and gate lists come into force and a held frame is discarded and
counted. -/
def Obligations.SwitchCommandsComplete : Prop :=
  (∀ (p : Nat) (frame : List Byte) (sfd : Nat) (s : State), p < 16 → portUsed p s = true → portLink p s = true → serving s = true → inflightOf p s =
    none → arrivingHeld p s = false → s.eth.met.testBit p = false → exec (.frameIngress p frame sfd) s = .next (setMet p true (offerFrame
    { src := p, time := rxStamp p sfd s }
    frame true s))) ∧
  (∀ (p : Nat) (s : State), (inflightOf p s).isSome = true → Completes (.frameStored p) s fun t => inflightOf p t = none) ∧
  (∀ (bad : Nat) (a : AuthWait) (s : State), s.swc.authq = [a] → s.old = none → authRule a.wb.tile (wbBytes a.wb s) s = none → exec (.authenticate bad)
    s = .next (runStages a.stages { wb := { a.wb with authok := false }, frame := wbBytes a.wb s, marked := a.marked } ((graphRec a.wb.graph s).getD
    ⟨a.wb.graph, 0, 0, [], 0, 0, 0, 0⟩) false { s with swc := { s.swc with authq := [] } })) ∧
  (∀ (bad j : Nat) (a : AuthWait) (s : State), s.swc.authq = [a] → s.old = none → a.wb.tile < 48 → authRule a.wb.tile (wbBytes a.wb s) s = some j →
    (authCheck a.wb.tile j (wbBytes a.wb s) bad { s with swc := { s.swc with authq := [] } }).1 = .mac → Completes (.authenticate bad) s fun t => getF
    (CAN_AUTHFAIL_mac a.wb.tile) t = min (getF (CAN_AUTHFAIL_mac a.wb.tile) s + 1) (2 ^ (CAN_AUTHFAIL_mac a.wb.tile).width - 1) ∧ t.swc.authq = []) ∧
  (∀ (p why : Nat) (r : Replica) (s : State), sendingOf p s = some r → p < 12 → (why = 0 ∧ unfinished r s = true) ∨ (why = 1 ∧ truncates p r s = true)
    ∨ (why = 2 ∧ unfinished r s = true ∧ r.wb.lossless = true) → Completes (.cutThroughEnd p why) s fun t => sendingOf p t = none) ∧
  (∀ (s : State), exec (.policerCreditTick) s = .next (applyAll (List.range (tabEntries 4 s)) policeCredit s)) ∧
  (∀ (sh : Nat) (s : State), sh < 1024 → (cbOf sh s).en = true → (cbOf sh s).takeany = false → streamSilent sh s = true → exec (.streamResetTimeout
    sh) s = .next (setCb sh
    { cbOf sh s with takeany := true, resets := min ((cbOf sh s).resets + 1) (2 ^ 32 - 1) } s)) ∧
  (∀ (p c : Nat) (r : Replica) (q : List Replica) (s : State), p < 16 → portLink p s = true → sendingOf p s = none → (((List.range 8).reverse.find? fun
    k => eligible p k (creditUpdate p s)) = some c) → queueAt (queueKey p 63 c) (creditUpdate p s) = r :: q → Completes (.egressSelection p) s fun t
    => (sendingOf p t).map (·.wb) = some r.wb ∧ queueAt (queueKey p 63 c) t = q) ∧
  (∀ (p : Nat) (s : State), 12 ≤ p → p < 16 → portLive p s = true → isSet (T1S_STAT_active (p - 12)) s = true ∨ getF (T1S_PLCACFG_id (p - 12)) s = 0 →
    (sendingOf p s).isSome = true →
    Completes (.transmitOpportunity p) s fun t => t.swc.onWire.testBit p = true) ∧
  (∀ (p : Nat) (r : Replica) (s : State), sendingOf p s = some r → (12 ≤ p → p < 16 → s.swc.onWire.testBit p = true) → unfinished r s = false →
    Completes (.transmitDone p) s fun
    t => sendingOf p t = none ∧ (p < 16 → truncates p r s = false → swCnt p cTxfrm t = (swCnt p cTxfrm s + 1) % 2 ^ 64)) ∧
  (∀ (p : Nat) (s : State), gatesOn p s = true → (gateOf p s).idx + 1 < (gateOf p s).oper.run.length → Completes (.gateEntryChange p) s fun t => (gateOf
    p t).idx = (gateOf p s).idx + 1 ∧ getF (SWC_GSTAT_entry p) t = ((gateOf p s).idx + 1) % 2 ^ (SWC_GSTAT_entry p).width) ∧
  (∀ (p : Nat) (a : GateList) (s : State), p < 12 → (gateOf p s).admin = some a → Completes (.gateConfigChange p) s fun t => (gateOf p t).oper = a ∧
    (gateOf p t).idx = 0 ∧ (gateOf p t).admin = none ∧ isSet (SWC_GSTAT_pend p) t = false) ∧
  (∀ (p c : Nat) (r : Replica) (q : List Replica) (s : State), gatesOn p s = true → c < 8 → queueAt (queueKey p 63
    c) s = r :: q → holdOver p c r s = true → Completes (.gateHoldDiscard p c) s fun t => queueAt (queueKey p 63 c) t = q ∧ getF (SWC_GATEDROP_cnt p)
    t = min
    (getF (SWC_GATEDROP_cnt p) s + 1) (2 ^ (SWC_GATEDROP_cnt p).width - 1))

/-- A receive ring takes the oldest inline Waybill of its queue into its 64-byte slot and moves its tail, leaving all other memory alone; its
interrupt closes the count; a transmit slot whose chain no lease covers is counted bad and passed over, a good one is taken and its lease
ends; a snapshot shows the 16 counters of a port. -/
def Obligations.RingCommandsComplete : Prop :=
  (∀ (r : Nat) (rep : Replica) (q : List Replica) (s : State), r < 32 → isSet (SWC_RCFG_en r) s = true → isSet (SWC_RCFG_dir r) s = false → (getF
    (SWC_RTAIL_idx r) s + 1) % ringSize r s ≠ getF (SWC_RHEAD_idx r) s → queueAt (queueKey 16 r 0) s = rep :: q → rep.wb.inline = true → memRange
    (ringWorld r) true (getF (SWC_RBASE_addr r) s + 64 * getF (SWC_RTAIL_idx r) s) 64 s = true → Completes (.receiveRingWrite r) s fun t => getF
    (SWC_RTAIL_idx r) t = (getF (SWC_RTAIL_idx r) s + 1) % ringSize r s % 2 ^ 12 ∧ queueAt (queueKey 16 r 0) t = q ∧ (∀ b, b < getF (SWC_RBASE_addr r)
    s + 64 * getF (SWC_RTAIL_idx r) s ∨ getF (SWC_RBASE_addr r) s + 64 * getF (SWC_RTAIL_idx r) s + 64 ≤ b → rd8 t b = rd8 s b)) ∧
  (∀ (r : Nat) (s : State), r < 32 → 0 < (tabGet {} s.swc.rings r).since → (tabGet {} s.swc.rings r).since ≥ getF (SWC_RIRQ_cnt r) s ∨
    getF (SWC_RIRQ_us r) s ≠ 0 ∧ (tabGet {} s.swc.rings r).first + getF (SWC_RIRQ_us r) s ≤ s.ticks → Completes (.ringInterrupt r) s fun t => (tabGet {}
    t.swc.rings r).since = 0 ∧ (isSet (SWC_RIRQ_msix r) s = true → t.evc.msixReq = s.evc.msixReq ++ [getF (SWC_RIRQ_vec r) s]) ∧ t.regs = s.regs) ∧
  (∀ (r : Nat) (s : State), r < 32 → isSet (SWC_RCFG_en r) s = true → isSet (SWC_RCFG_dir r) s = true → getF (SWC_RHEAD_idx r) s ≠ getF (SWC_RTAIL_idx
    r) s → memRange (ringWorld r) false (getF (SWC_RBASE_addr r) s + 64 * getF (SWC_RHEAD_idx r) s) 64 s = true → chainLease (ringWorld r) (leAt
    (rdBytes s (getF (SWC_RBASE_addr r) s + 64 * getF (SWC_RHEAD_idx r) s) 32) 0 2) s = none → Completes (.transmitSlotProcess r) s fun t => getF
    (SWC_RSTAT_bad r) t = min (getF (SWC_RSTAT_bad r) s + 1) (2 ^ (SWC_RSTAT_bad r).width - 1) ∧ t.mem = s.mem) ∧
  (∀ (r l : Nat) (s : State), r < 32 → isSet (SWC_RCFG_en r) s = true → isSet (SWC_RCFG_dir r) s = true → getF (SWC_RHEAD_idx r) s ≠ getF (SWC_RTAIL_idx
    r) s → memRange (ringWorld r) false (getF (SWC_RBASE_addr r) s + 64 * getF (SWC_RHEAD_idx r) s) 64 s = true → chainLease (ringWorld r) (leAt
    (rdBytes s (getF (SWC_RBASE_addr r) s + 64 * getF (SWC_RHEAD_idx r) s) 32) 0 2) s = some l → (leAt (rdBytes s (getF (SWC_RBASE_addr r) s + 64 *
    getF (SWC_RHEAD_idx r) s) 32) 4 4).testBit 15 = false → leAt (rdBytes s (getF (SWC_RBASE_addr r) s + 64 * getF (SWC_RHEAD_idx r) s) 32) 2 2 ≤
    (leasedPages l s).length * 256 → Completes (.transmitSlotProcess r) s fun t => leaseOf l t = {}) ∧
  (∀ (rq : Requester) (w : Word) (s : State), admits rq true 0x4007001C 0 s = true → wbits w 0 5 < 20 → Completes (.swcSnap rq w) s fun t => (∀ i, i <
    16 → getF (SWC_SNAPCNT_cnt (2 * i)) t = swCnt (wbits w 0 5) i s % 2 ^ 32 ∧ getF (SWC_SNAPCNT_cnt (2 * i + 1)) t = swCnt (wbits w 0 5) i s / 2 ^ 32
    % 2 ^ 32) ∧ isSet SWC_SNAPSTAT_done t = true ∧ getF SWC_SNAPSTAT_port t = wbits w 0 5 ∧ t.bus = .done ∧ t.mem = s.mem)

/-- Learning takes the oldest request; ageing visits every L2 entry; a migration starts, ends, is cancelled and its bank is cleared; the Porter
starts and works its list record by record, writing only the record; the drain of an overlay ends. The oldest waiting Caravan, once filled, leaves,
or its records are counted as dropped without a manager; a waiting Caravan is merged by the manager and installed by the others; a full refresh
makes a record of each entry, as far as 64 in a millisecond. -/
def Obligations.TableCommandsComplete : Prop :=
  (∀ (r : LearnReq) (q : List LearnReq) (s : State), s.fwt.learnq = r :: q → Completes (.learnApply) s fun t => t.fwt.learnq = q ∧ getF FWT_STAT_lrnq t
    = q.length % 2 ^ FWT_STAT_lrnq.width ∧ t.mem = s.mem) ∧
  (∀ (s : State), exec (.ageingScan) s = .next (applyAll (List.range (tabIndexes 1 s)) ageEntry s)) ∧
  (∀ (rq : Requester) (w : Word) (s : State), admits rq true 0x40080038 0 s = true → wbits w 8 1 = 1 → getF FWT_RHSTAT_state s = 0 → tabShadow 1 s =
    true → Completes (.migrateStart rq w) s fun t => getF FWT_RHSTAT_state t = 1 ∧ getF FWT_RHSTAT_moved t = 0 ∧ getF FWT_RHCTL_bank t = wbits w 0 2 ∧
    t.bus = .done) ∧
  (∀ (s : State), getF FWT_RHSTAT_state s = 1 → Completes (.migrateDone) s fun t => getF FWT_RHSTAT_state t ≠ 1) ∧
  (∀ (rq : Requester) (w : Word) (s : State), admits rq true 0x40080038 0 s = true → wbits w 9 1 = 1 → 1 ≤ getF FWT_RHSTAT_state s → getF
    FWT_RHSTAT_state s ≤ 3 → Completes (.migrateCancel rq w) s fun t => getF FWT_RHSTAT_state t = 0 ∧ getF FWT_RHCTL_bank t = wbits w 0 2 ∧ t.bus =
    .done) ∧
  (∀ (s : State), getF FWT_RHSTAT_state s = 4 → Completes (.bankClearDone) s fun t => getF FWT_RHSTAT_state t = 0) ∧
  (∀ (rq : Requester) (w : Word) (s : State), admits rq true 0x400800A8 0 s = true → wbits w 0 1 = 1 → s.fwt.porter = none → exec (.porterGo rq w) s =
    .next (setB FWT_PSTAT_busy true { s with bus := .done, fwt := { s.fwt with porter := some ⟨rq, 0⟩ } })) ∧
  (∀ (run : PorterRun) (s : State), s.fwt.porter = some run → memRange (rqRights run.owner) true (getF FWT_PSRC_addr s + 48 * run.next) 48 s = true →
    Completes (.porterOperation) s fun t => (t.fwt.porter = none ∨ t.fwt.porter = some { run with next := run.next + 1 }) ∧ ∀ b, b < getF
    FWT_PSRC_addr s + 48 * run.next ∨ getF FWT_PSRC_addr s + 48 * run.next + 48 ≤ b → rd8 t b = rd8 s b) ∧
  (∀ (s : State), exec (.overlayDrainDone) s = .next (setB FWT_STAT_drain false s)) ∧
  (∀ (s : State), caravanReady s = true → hieOn s = true → admitted s = true ∨ isSet HIE_STAT_mlost s = true → Completes (.caravanSend) s fun t =>
    (isSet
    HIE_STAT_mlost s = true → getF (FWT_CVCNT_cnt 6) t = min (getF (FWT_CVCNT_cnt 6) s + (s.fwt.out.headD []).length) (2 ^ (FWT_CVCNT_cnt 6).width -
    1)) ∧ t.fwt.out = s.fwt.out.drop 1 ∧ (isSet HIE_STAT_mlost s = false → getF (FWT_CVCNT_cnt 0) t = min (getF (FWT_CVCNT_cnt 0) s + 1) (2 ^
    (FWT_CVCNT_cnt 0).width - 1))) ∧
  (∀ (c : Caravan) (q : List Caravan) (s : State), isManager s = true → s.fwt.inq = c :: q → Completes (.caravanMerge) s fun t => t.fwt.inq = q ∧ getF
    FWT_CVQ_in t = q.length % 2 ^ FWT_CVQ_in.width) ∧
  (∀ (c : Caravan) (q : List Caravan) (s : State), isManager s = false → s.fwt.inq = c :: q → Completes (.redistributionInstall) s fun t => t.fwt.inq =
    q ∧ getF FWT_CVQ_in t = q.length % 2 ^ FWT_CVQ_in.width) ∧
  (∀ (s : State), hieOn s = true → getF HIE_STAT_role s ≤ 3 → Completes (.fullRefresh) s fun t => t = refreshRun (List.range
    (tabIndexes 1 s)) { s with fwt := { s.fwt with refresh := some 0 } } ∧ t.fwt.refreshed ≤ max 64 s.fwt.refreshed ∧ (s.fwt.refreshed +
    ((List.range (tabIndexes 1 s)).filter fun i => refreshes i s).length ≤ 64 → t.fwt.refresh = none))

/-- A frame item is handled once; a source timer, a cyclic time and a deferred send release their items, a cyclic one merging with one still
queued; a write of TRN_SIGSEL takes the snapshot of the named signal. -/
def Obligations.TranscriberCommandsComplete : Prop :=
  (∀ (lid : Nat) (it : Item) (w : Waybill) (s : State), (lodgerOf lid s).running = some it → it.work = .frame w → Completes (.frameItem lid) s fun t =>
    (lodgerOf lid t).handled = true) ∧
  (∀ (lid e : Nat) (s : State), sgKind (sigWord (sigFirst lid s + e) 0 s) = 1 → bitsOf (sigWord (sigFirst lid s + e) 1 s) 16 16 ≠ 0 → exec
    (.sourceTimeout lid e) s = .next (releaseItem lid (.timeout e) s)) ∧
  (∀ (lid i : Nat) (s : State), i < rcNout (recipeOf lid s.str) → (outRec (recipeOf lid s.str) i).trigger = 1 ∨ (outRec (recipeOf lid s.str) i).trigger
    = 2 → Completes (.cyclicRelease lid i) s fun t => (queuedWork lid (.cyclic i) s = true → t = trnCount lid tMerge 1 s) ∧ (queuedWork lid (.cyclic
    i) s = false → t = releaseItem lid (.cyclic i) s)) ∧
  (∀ (lid i : Nat) (s : State), s.trn.deferred.contains (256 * lid + i) = true → queuedWork lid (.deferred i) s = false → exec (.deferredSend lid i) s =
    .next (releaseItem lid (.deferred i) s)) ∧
  (∀ (rq : Requester) (w : Word) (lid : Nat) (s : State), admits rq true 0x40090040 0 s = true → sigOwner (wbits w 0 16) s = some lid → Completes
    (.trnSigsel rq w) s fun t => getF TRN_SIGSEL_sig t = wbits w 0 16 ∧ getF TRN_SIGVAL_value t = (valueSlot lid (bitsOf (sigWord (wbits w 0 16) 1 s)
    0 10) s).value % 2 ^ TRN_SIGVAL_value.width ∧ getF TRN_SIGST_st t = (valueSlot lid (bitsOf (sigWord (wbits w 0 16) 1 s) 0 10) s).st % 2 ^
    TRN_SIGST_st.width ∧ t.bus = .done ∧ t.mem = s.mem)

/-- A valid frame is counted as rejected or accepted by the deciding filter; an accepted XL frame is staged for its handoff; the oldest waiting
frame is handed over; a buffer read answers its word, and a release ends the claim and the lock of a receive buffer or of the priority
buffer. An error condition moves the counters as its kind says and a transmit counter above 255 leads to bus-off; the delay and the recovery
end bus-off; start, stop and recover act from the states the chapter gives. -/
def Obligations.CanReceiveCommandsComplete : Prop :=
  (∀ (n : Nat) (f : CanFrame) (ago : Nat) (s : State), n < 48 → canOnline n s = true → f.fmt < 2 → f.data.length ≤ 64 → Completes (.canFrameValid n f
    ago) s fun t => ((filterDecision n f s).2 = 0 → getF (CAN_RXREJ_cnt n) t = min (getF (CAN_RXREJ_cnt n) s + 1) (2 ^ 32 - 1)) ∧ (1 ≤ (filterDecision
    n f s).2 → (filterDecision n f s).2 ≤ 5 → getF (CAN_RXCNT_cnt n) t = min (getF (CAN_RXCNT_cnt n) s + 1) (2 ^ 32 - 1)) ∧ getF (WKS_TLAST_id n) t =
    f.id % 2 ^ 29) ∧
  (∀ (n : Nat) (f : CanFrame) (ago : Nat) (ok : Bool) (s : State), n < 48 → canOnline n s = true → tileFunc n s = 2 → f.fmt = 2 → 1 ≤ f.data.length →
    f.data.length ≤ 2048 → ok = true → (filterDecision n f s).2 = 1 → xlStaged n s + 2064 ≤ 4096 → Completes (.canXlFrameReceive n f ago ok) s fun t
    => (canOf n t).hand.length = (canOf n s).hand.length + 1 ∧ getF (CAN_RXCNT_cnt n) t = min (getF (CAN_RXCNT_cnt n) s + 1) (2 ^ 32 - 1)) ∧
  (∀ (n : Nat) (h : HandItem) (q : List HandItem) (s : State), n < 48 → isCan n s = true → tileHeld n s < 4 → (canOf n s).hand = h :: q → Completes
    (.canHandoff n) s fun t => (canOf n t).hand = q) ∧
  (∀ (rq : Requester) (n : Nat) (o : Nat) (s : State), n < 48 → o % 4 = 0 → o < 0x1400 → isCan n s = true → tileUsed n s = true → admits rq false
    (0x40300000 + 0x2000 * n + o) 0 s = true → Completes (.canRxBufferRead rq n o) s fun t => t.bus = .data (BitVec.ofNat 32 ((rxOf n (o / 80)
    s).words.getD (o % 80 / 4) 0)) ∧ t.regs = s.regs ∧ t.mem = s.mem) ∧
  (∀ (rq : Requester) (n : Nat) (buf : Nat) (s : State), n < 48 → isCan n s = true → admits rq true (0x40200000 + 0x1000 * n + 0x44) 0 s = true → exec
    (.canRxrel rq n buf) s = .next (setRx n (buf % 64) { rxOf n (buf % 64) s with host := false, lock := none } (busDone s))) ∧
  (∀ (rq : Requester) (n : Nat) (w : Word) (s : State), n < 48 → isCan n s = true → w.getLsbD 0 = true → admits rq true (0x40200000 + 0x1000 * n + 0x64)
    0 s = true → Completes (.canPriorel rq n w) s fun t => isSet (CAN_PRIOSTAT_locked n) t = false ∧ isSet (CAN_PRIOSTAT_full n) t = (canOf n
    s).shadow.isSome ∧ t.bus = .done) ∧
  (∀ (n : Nat) (e : CanErr) (code : Nat) (dph : Bool) (s : State), n < 48 → canOnline n s = true → code < 7 → e ≠ .xlSeen → (xlError e = true →
    tileFunc n s = 2 ∧ isSet (CAN_CFG_xles n) s = true) → Completes (.canFrameError n
    e code dph) s fun t => getF (CAN_ERR_tec n) t = min (errCounters e (getF (CAN_ERR_tec n) s) (getF (CAN_ERR_rec n) s)).1 511 ∧ getF (CAN_ERR_rec n)
    t = min (errCounters e (getF (CAN_ERR_tec n) s) (getF (CAN_ERR_rec n) s)).2 511 ∧ ((errCounters e (getF (CAN_ERR_tec n) s) (getF (CAN_ERR_rec n)
    s)).1 > 255 → ((canOf n s).stopping = false → canState n t = 5 ∨ canState n t = 6)
    ∧ ((canOf n s).stopping = true → canState n t = 7))) ∧
  (∀ (n : Nat) (e : CanErr) (code : Nat) (dph : Bool) (s : State), n < 48 → canOnline n s = true → code < 7 → xlError e = true → tileFunc n s = 2 →
    isSet (CAN_CFG_xles n) s = false → Completes (.canFrameError n e code dph) s fun t => canState n t = 2 ∧ getF (CAN_ERR_tec n) t = getF
    (CAN_ERR_tec n) s ∧ getF (CAN_ERR_rec n) t = getF (CAN_ERR_rec n) s) ∧
  (∀ (n : Nat) (s : State), isCan n s = true → canState n s = 5 → getF (CAN_CFG_bor n) s = 2 → exec (.canBodelayExpiry n) s = .next (setF
    (CAN_STAT_state n) 6 s)) ∧
  (∀ (n : Nat) (s : State), n < 48 → isCan n s = true → canState n s = 6 → Completes (.canRecoveryDone n) s fun t => canState n t = 3 ∧ getF
    (CAN_ERR_tec n) t = 0 ∧ getF (CAN_ERR_rec n) t = 0 ∧ isSet (CAN_EVT_recovered n) t = true) ∧
  (∀ (rq : Requester) (n : Nat) (s : State), n < 48 → isCan n s = true → canState n s = 7 → admits rq true (0x40200000 + 0x1000 * n + 0) 0 s = true →
    Completes (.canCtlStart rq n) s fun t => canState n t = 2 ∧ getF (CAN_ERR_tec n) t = 0 ∧ getF (CAN_ERR_rec n) t = 0 ∧ t.bus = .done) ∧
  (∀ (rq : Requester) (n : Nat) (s : State), n < 48 → isCan n s = true → 1 ≤ canState n s → canState n s ≤ 6 → admits rq true (0x40200000 + 0x1000 * n +
    0) 0 s = true → Completes (.canCtlStop rq n) s fun t => ((canOf n s).onBus = none → canState n t = 7) ∧ ((canOf n s).onBus ≠ none → (canOf n
    t).stopping = true ∧ canState n t = canState n s) ∧ t.bus = .done) ∧
  (∀ (rq : Requester) (n : Nat) (s : State), n < 48 → isCan n s = true → canState n s = 5 → getF (CAN_CFG_bor n) s = 1 → admits rq true (0x40200000 +
    0x1000 * n + 0) 0 s = true → exec (.canCtlRecover rq n) s = .next (setF (CAN_STAT_state n) 6 (busDone s)))

/-- An idle online tile takes the winning pending buffer onto the bus; a sent software buffer is done and no longer pending; a request makes a
good software buffer pending and a cancel removes it, or waits for the frame in progress; a switch-fed buffer takes the head of the highest
class. -/
def Obligations.CanTransmitCommandsComplete : Prop :=
  (∀ (n i : Nat) (s : State), canOnline n s = true → (canOf n s).onBus = none → isSet (CAN_CFG_lom n) s = false → (canOf n s).stopping = false →
    mayBegin n s = true →
    arbWinner n s = some i → exec (.canArbitrationChoice n) s = .next (setB (CAN_STAT_txing n) true (setCan n { canOf n s with onBus := some i } s))) ∧
  (∀ (n i : Nat) (meas : Option Nat) (s : State), n < 48 → i < 16 → isCan n s = true → (canOf n s).onBus = some i → getF (CAN_TXCFG_swbuf n) s ≤ i →
    Completes (.canTxEnd n true meas) s fun t => (canOf n t).onBus = none ∧ (getF (CAN_TXDONE_done n) t).testBit i = true ∧ txPending n i t = false ∧
    getF (CAN_TXCNT_cnt n) t = min (getF (CAN_TXCNT_cnt n) s + 1) (2 ^ 32 - 1)) ∧
  (∀ (n i : Nat) (meas : Option Nat) (s : State), n < 48 → i < 16 → isCan n s = true → (canOf n s).onBus = some i → Completes (.canTxEnd n false meas) s
    fun t => (canOf n t).onBus = none ∧ isSet (CAN_STAT_txing n) t = false) ∧
  (∀ (n i c : Nat) (r : Replica) (q : List Replica) (s : State), n < 48 → isCan n s = true → 2 ≤ canState n s → canState n s ≤ 4 → (((List.range (getF
    (CAN_TXCFG_swbuf n) s)).find? fun i => !txPending n i s) = some i) → i < 16 → (([7, 6, 5, 4, 3, 2, 1, 0].find? fun c => decide (queueAt (queueKey
    17 n c) s ≠ [])) = some c) → queueAt (queueKey 17 n c) s = r :: q → txBad n (tfW1 (tileFrameOf r s)) s = false → 16 ≤ (tileFrameOf
    r s).length → Completes (.canSwitchBufferLoad n) s fun t => txPending n i t = true ∧ queueAt (queueKey 17 n c) t = q) ∧
  (∀ (rq : Requester) (n : Nat) (w : Word) (i : Nat) (s : State), n < 48 → isCan n s = true → i < 16 → getF (CAN_TXCFG_swbuf n) s ≤ i → w.getLsbD i =
    true → txBad n ((txOf n i s).words.getD 1 0) s = false → bitsOf ((txOf n i s).words.getD 1 0) 12 2 ≠ 2 → admits rq true (0x40200000 + 0x1000 * n +
    0x74) 0 s = true → Completes (.canTxreq rq n w) s fun t => txPending n i t = true ∧ t.bus = .done) ∧
  (∀ (rq : Requester) (n : Nat) (w : Word) (i : Nat) (s : State), n < 48 → isCan n s = true → i < 16 → getF (CAN_TXCFG_swbuf n) s ≤ i → w.getLsbD i =
    true → txPending n i s = true → admits rq true (0x40200000 + 0x1000 * n + 0x78) 0 s = true → Completes (.canTxcan rq n w) s fun t => ((canOf n
    s).onBus = some i → (getF (CAN_TXCAN_can n) t).testBit i = true ∧ txPending n i t = true) ∧ ((canOf n s).onBus ≠ some i → (getF
    (CAN_TXCANCELLED_cnl n) t).testBit i = true ∧ txPending n i t = false) ∧ t.bus = .done)

/-- A LIN commander begins its next slot; a received header with a good PID sets the frame in progress, a bad sync or a bad parity is counted;
the end of a response ends the frame; a schedule write leaves a pending switch and the second word of publish data sets upd. A frame of a
class queue goes to the transmit buffer; a transmission starts with software's frame first and its end counts; a received frame is counted
and handed over, or discarded and counted; a software send sets go; a changed input level is shown; stop and start move the state of a quiet
tile. -/
def Obligations.SerialCommandsComplete : Prop :=
  (∀ (n : Nat) (s : State), n < 48 → tileFunc n s = 3 → serState n s = 2 → (serOf n s).lin = none → mayBegin n s = true → exec (.linSlotStart n) s =
    .next (linSlot n s)) ∧
  (∀ (n id : Nat) (s : State), n < 48 → tileFunc n s = 4 → serState n s = 2 → mayBegin n s = true → id < 64 → Completes (.linHeaderReceive n 0x55
    (linPid id)) s fun t =>
    (serOf n t).lin = some (id, decide (getF (LIN_FRM_dir n id) s = 1)) ∧ (getF (LIN_FRM_dir n id) s = 1 → isSet (LIN_FRM_upd n id) t = false)) ∧
  (∀ (n sync pid : Nat) (s : State), n < 48 → tileFunc n s = 4 → serState n s = 2 → mayBegin n s = true → sync ≠ 0x55 → Completes (.linHeaderReceive n
    sync pid) s fun t =>
    getF (SER_ERR1_abort n) t = min (getF (SER_ERR1_abort n) s + 1) (2 ^ (SER_ERR1_abort n).width - 1) ∧ isSet (SER_EVT_err n) t = true ∧ (serOf n
    t).lin = (serOf n s).lin) ∧
  (∀ (n pid : Nat) (s : State), n < 48 → tileFunc n s = 4 → serState n s = 2 → mayBegin n s = true → pid ≠ linPid (pid % 64) → Completes
    (.linHeaderReceive n 0x55 pid) s fun
    t => getF (SER_ERR1_pid n) t = min (getF (SER_ERR1_pid n) s + 1) (2 ^ (SER_ERR1_pid n).width - 1) ∧ isSet (SER_EVT_err n) t = true ∧ (serOf n
    t).lin = (serOf n s).lin) ∧
  (∀ (n : Nat) (bytes : List Byte) (fr rb : Bool) (ago : Nat) (s : State), n < 48 → tileFunc n s = 3 ∨ tileFunc n s = 4 → serState n s = 2 → (serOf n
    s).lin ≠ none → Completes (.linResponseEnd n bytes fr rb ago) s fun t => (serOf n t).lin = none ∧ ((serOf n s).stopping = true → serState n t =
    3)) ∧
  (∀ (rq : Requester) (n : Nat) (w : Word) (s : State), n < 48 → tileFunc n s = 3 ∨ tileFunc n s = 4 → admits rq true (0x40200000 + 0x1000 * n + 0x44) 0
    s = true → Completes (.linSchedWrite rq n w) s fun t => getF (LIN_SCHED_sel n) t = w.toNat % 4 ∧ isSet (LIN_SCHED_pend n) t = true ∧ t.bus =
    .done) ∧
  (∀ (rq : Requester) (n : Nat) (i k : Nat) (w : Word) (s : State), n < 48 → i < 64 → k < 2 → tileFunc n s = 3 ∨ tileFunc n s = 4 → admits rq true
    (0x40200000 + 0x1000 * n + 0x400 + 8 * i + 4 * k) 0 s = true → Completes (.linPubWrite rq n i k w) s fun t => getF (LIN_PUB_data n (2 * i + k)) t
    = w.toNat ∧ (k = 1 → isSet (LIN_FRM_upd n i) t = true) ∧ t.bus = .done) ∧
  (∀ (n c : Nat) (r : Replica) (q : List Replica) (s : State), n < 48 → tileFunc n s = 5 ∨ tileFunc n s = 6 → serState n s = 2 → (serOf n s).tx.length <
    2 → (serOf n s).stopping = false → (([7, 6, 5, 4, 3, 2, 1, 0].find? fun c => decide (queueAt (queueKey 17 n c) s ≠ [])) = some c) → queueAt
    (queueKey 17 n c) s = r :: q → 16 ≤ (tileFrameOf r s).length → tfDlen (tileFrameOf r s) ≤ 2048 → Completes (.serialTxDequeue n) s
    fun t => (serOf n t).tx.length = (serOf n s).tx.length + 1 ∧ queueAt (queueKey 17 n c) t = q) ∧
  (∀ (n : Nat) (s : State), n < 48 → tileFunc n s = 5 ∨ tileFunc n s = 6 → serState n s = 2 → (serOf n s).sending = none → (serOf n s).stopping = false
    → mayBegin n s = true → isSet (UART_SWTX_go n) s = true → Completes (.uartTxStart n) s fun t => (serOf n t).sending = some (regBytes
    (UART_TXDATA_data n) (getF (UART_SWTX_len n) s) s, true) ∧ (serOf n t).tx = (serOf n s).tx ∧ (isSet (UART_DE_en n) s = true → (serOf n t).rx =
    [])) ∧
  (∀ (n : Nat) (r : Replica) (q : List Replica) (s : State), n < 48 → tileFunc n s = 5 ∨ tileFunc n s = 6 → serState n s = 2 → (serOf n s).sending =
    none → (serOf n s).stopping = false → mayBegin n s = true → isSet (UART_SWTX_go n) s = false → (serOf n s).tx = r :: q → Completes (.uartTxStart
    n) s
    fun t => (serOf n t).sending = some (r.out, false) ∧ (serOf n t).tx = q) ∧
  (∀ (n : Nat) (echo d : List Byte) (sw : Bool) (s : State), n < 48 → tileFunc n s = 5 ∨ tileFunc n s = 6 → serState n s = 2 → (serOf n s).sending =
    some (d, sw) → Completes (.serialTxEnd n echo) s fun t => (serOf n t).sending = none ∧ getF (SER_TXCNT_cnt n) t = min (getF (SER_TXCNT_cnt n) s +
    1) (2 ^ 32 - 1) ∧ isSet (SER_EVT_tx n) t = true ∧ (sw = true → isSet (UART_SWTX_go n) t = false)) ∧
  (∀ (n : Nat) (chars : List UartChar) (s : State), n < 48 → tileFunc n s = 5 → serState n s = 2 → deAsserted n s = false → (serOf n s).rx = [] → isSet
    (UART_FRM_dlmen n) s = false → 1 ≤ chars.length → chars.length ≤ getF (UART_FMAX_max n) s → Completes (.uartFrameEnd n chars true) s fun t =>
    (serOf n t).rx = [] ∧ (charsBad n (chars.map fun c => (0, c)) s = false → getF (SER_RXCNT_cnt n) t = min (getF (SER_RXCNT_cnt n)
    s + 1) (2 ^ 32 - 1) ∧ isSet (SER_EVT_rx n) t = true) ∧ (charsBad n (chars.map fun c => (0, c)) s = true → getF (SER_ERR0_framing n) t = min (getF
    (SER_ERR0_framing n) s + chars.countP fun c => !c.stop) (2 ^ (SER_ERR0_framing n).width - 1) ∧ isSet (SER_EVT_err n) t = true)) ∧
  (∀ (n : Nat) (chars : List UartChar) (o e : UartChar) (s : State), n < 48 → tileFunc n s = 6 → serState n s = 2 → deAsserted n s = false →
    (serOf n s).rx = [] → o.stop = true → o.data = 0x7E → e.stop = true → e.data = 0x7E → (∀ c ∈ chars, c.stop = true ∧ c.data ≠ 0x7E) → charsBad n
    (chars.map fun c => (0, c)) s = false → (rxBytes n (chars.map fun c => (0, c)) s).getLast? = some 0x7D → Completes (.hdlcFrameReceive n (o :: chars
    ++ [e])) s fun t => getF (SER_ERR1_abort n) t = min (getF (SER_ERR1_abort n) s + 1) (2 ^ (SER_ERR1_abort n).width - 1) ∧ isSet (SER_EVT_err n) t =
    true) ∧
  (∀ (n : Nat) (chars : List UartChar) (o e : UartChar) (body : List Byte) (s : State), n < 48 → tileFunc n s = 6 → serState n s = 2 → deAsserted n s =
    false → (serOf n s).rx = [] → o.stop = true → o.data = 0x7E → e.stop = true → e.data = 0x7E → (∀ c ∈ chars, c.stop = true ∧ c.data ≠ 0x7E) →
    charsBad n (chars.map fun c => (0, c)) s = false → body ≠ [] → body.length ≤ 2048 → (rxBytes n (chars.map fun c => (0, c)) s).getLast? ≠ some 0x7D
    → hdlcUnescape (getF (HDLC_ACCM_map n) s) (rxBytes n (chars.map fun c => (0, c)) s) = body ++ hdlcFcs (isSet (HDLC_CFG_crc n) s) body → Completes
    (.hdlcFrameReceive n (o :: chars ++ [e])) s fun t => getF (SER_RXCNT_cnt n) t = min (getF (SER_RXCNT_cnt n) s + 1) (2 ^ 32 - 1) ∧ isSet (SER_EVT_rx
    n) t = true) ∧
  (∀ (rq : Requester) (n : Nat) (w : Word) (s : State), n < 48 → tileFunc n s = 5 ∨ tileFunc n s = 6 → w.getLsbD 16 = true → 1 ≤ w.toNat % 512 → w.toNat
    % 512 ≤ 256 → admits rq true (0x40200000 + 0x1000 * n + 0x54) 0 s = true → Completes (.uartSwtxGo rq n w) s fun t => getF (UART_SWTX_len n) t =
    w.toNat % 512 ∧ isSet (UART_SWTX_go n) t = true ∧ t.bus = .done) ∧
  (∀ (n levels : Nat) (s : State), n < 48 → tileFunc n s = 7 → serState n s = 2 → Completes (.gpioInputChange n levels) s fun t => getF
    (GPIO_IN_in n) t = levels % 2 ^ (min 4 (gpioLines n s))) ∧
  (∀ (rq : Requester) (n : Nat) (s : State), n < 48 → 3 ≤ tileFunc n s → tileFunc n s ≤ 6 → serState n s = 2 → admits rq true (0x40200000 + 0x1000 * n +
    0) 0 s = true → Completes (.serCtlStop rq n) s fun t => ((serOf n s).lin = none → serState n t = 3) ∧ ((serOf n s).lin ≠ none → (serOf n
    t).stopping = true ∧ serState n t = 2)) ∧
  (∀ (rq : Requester) (n : Nat) (s : State), n < 48 → 3 ≤ tileFunc n s → tileFunc n s ≤ 6 → serState n s = 3 → admits rq true (0x40200000 + 0x1000 * n +
    0) 0 s = true → exec (.serCtlStart rq n) s = .next (serStart n (busDone s)))

/-- A live port whose source reports up has its link declared up at the speed its mode gives, and a partner in half duplex keeps it down; a link
goes down with event 27; a frame the MAC rejects is counted by its verdict, one it accepts on a port in use is counted as good and goes
through the switch, unless its first bytes went there before; a frame before the cut-over reaches the hierarchy unit of a boot port; PLCA becomes
    active and inactive; a collision returns the frame
for another try; one MDIO command runs at a time and its end delivers the data; a read of a transmit stamp removes it. A Sync on the watched
port is counted and marks the node as synchronised, its loss clears the mark and raises event 31 once; a set loads seconds and nanoseconds,
a step adds them, and a frequency adjustment in range is taken. -/
def Obligations.PortCommandsComplete : Prop :=
  (∀ (p spd : Nat) (anok : Bool) (s : State), p < 12 → portLive p s = true → isSet (ETH_STAT_link p) s = false → linkSource p s = true → Completes
    (.ethLinkUp p spd false anok) s fun t => isSet (ETH_STAT_link p) t = true ∧ getF (ETH_STAT_spd p) t = linkSpeed p spd s % 2 ^ (ETH_STAT_spd
    p).width ∧ isSet (ETH_STAT_hdx p) t = false ∧ isSet (ETH_STAT_anok p) t = anok ∧ isSet (ETH_EVT_up p) t = true) ∧
  (∀ (p spd : Nat) (anok : Bool) (s : State), p < 12 → portLive p s = true → isSet (ETH_STAT_link p) s = false → linkSource p s = true → exec
    (.ethLinkUp p spd true anok) s = .next (setB (ETH_EVT_hdx p) true (setB (ETH_STAT_hdx p) true s))) ∧
  (∀ (p : Nat) (s : State), p < 12 → isSet (ETH_STAT_link p) s = true → Completes (.ethLinkDown p) s fun t => isSet (ETH_STAT_link p) t = false ∧ isSet
    (ETH_EVT_down p) t = true) ∧
  (∀ (p : Nat) (frame : List Byte) (sfd : Nat) (ok sym : Bool) (s : State), p < 16 → portLink p s = true → serving s = true → macVerdict p frame ok sym
    s ≠ 0 → Completes (.macFrameReceive p frame sfd ok sym) s fun t => getF (ETH_CNT_cnt p (macVerdict p frame ok sym s)) t = min (getF (ETH_CNT_cnt p
    (macVerdict p frame ok sym s)) s + 1) (2 ^ 32 - 1)) ∧
  (∀ (p : Nat) (frame : List Byte) (sfd : Nat) (ok sym : Bool) (s : State), p < 16 → portLink p s = true → serving s = true → portUsed p s = true →
    macVerdict p frame ok sym s = 0 → Completes (.macFrameReceive p frame sfd ok sym) s fun t => (s.eth.met.testBit p = false → t = frameStored p
    (ingressFrame p frame sfd (ethCount p 0 (setMet p false s))) ∧ inflightOf p t = none) ∧ (s.eth.met.testBit p = true → t = ethCount p 0 (setMet p
    false s) ∧ getF (ETH_CNT_cnt p 0) t = min (getF (ETH_CNT_cnt p 0) s + 1) (2 ^ 32 - 1)) ∧ t.eth.met.testBit p = false) ∧
  (∀ (p : Nat) (frame : List Byte) (sfd : Nat) (ok sym : Bool) (s : State), p < 16 → portLink p s = true → serving s = false → macVerdict p frame ok
    sym s = 0 → exec (.macFrameReceive p frame sfd ok sym) s = .next (if bootPort p s && bootHierarchy frame then hieTake p frame (ethCount p 0 (setMet
    p false s)) else ethCount p 6 (setMet p false s))) ∧
  (∀ (rq : Requester) (p : Nat) (w : Word) (s : State), p < 16 → portUsed p s = true → isSet (ETH_MDIOSTAT_busy 0) s = false → wbits w 26 3 ≤ 4 → admits
    rq true (0x40400000 + 0x1000 * p + 0x40) 0 s = true → Completes (.mdioCommand rq p w) s fun t => isSet (ETH_MDIOSTAT_busy 0) t = true ∧ t.eth.mdio
    = some (wbits w 26 3, wbits w 21 5, wbits w 16 5, wbits w 0 16) ∧ t.bus = .done) ∧
  (∀ (ans : Option Nat) (op a b c : Nat) (s : State), s.eth.mdio = some (op, a, b, c) → Completes (.mdioDone ans) s fun t => isSet (ETH_MDIOSTAT_busy 0)
    t = false ∧ t.eth.mdio = none ∧ (op = 1 ∨ op = 4 → getF (ETH_MDIOSTAT_data 0) t = ans.getD 0xFFFF % 2 ^ 16)) ∧
  (∀ (rq : Requester) (p : Nat) (x : TxStamp) (r : List TxStamp) (s : State), p < 16 → portUsed p s = true → tabGet [] s.eth.txts p = x :: r → admits rq
    false (0x40400000 + 0x1000 * p + 0x20) 0 s = true → Completes (.ethTxtsRead rq p) s fun t => t.bus = .data (BitVec.ofNat 32 (x.ns + 2 ^ 31)) ∧
    tabGet [] t.eth.txts p = r ∧ getF (ETH_TXTS1_sec p) t = x.sec % 2 ^ 32 ∧ getF (ETH_TXTS2_seqid p) t = x.seqid % 2 ^ 16 ∧ getF (ETH_TXTSSTAT_fill
    p) t = r.length % 2 ^ (ETH_TXTSSTAT_fill p).width) ∧
  (∀ (p : Nat) (s : State), 12 ≤ p → p < 16 → portLive p s = true → getF (T1S_PLCACFG_id (p - 12)) s ≠ 0 → Completes (.plcaBeaconReceive p) s fun t =>
    isSet (T1S_STAT_active (p - 12)) t = true) ∧
  (∀ (p : Nat) (s : State), 12 ≤ p → p < 16 → getF (T1S_PLCACFG_id (p - 12)) s ≠ 0 → Completes (.plcaInactive p) s fun t => isSet (T1S_STAT_active (p -
    12)) t = false ∧ (isSet (T1S_STAT_active (p - 12)) s = true → getF (T1S_INACT_cnt (p - 12)) t = min (getF (T1S_INACT_cnt (p - 12)) s + 1) (2 ^ 32
    - 1) ∧ isSet (T1S_EVT_inact (p - 12)) t = true)) ∧
  (∀ (p : Nat) (r : Replica) (s : State), 12 ≤ p → p < 16 → s.swc.onWire.testBit p = true → sendingOf p s = some r → Completes (.t1sCollision p) s fun t
    => getF (ETH_CNT_cnt p 8) t = min (getF (ETH_CNT_cnt p 8) s + 1) (2 ^ 32 - 1) ∧ (r.tries < 15 → sendingOf p t = some
    { r with tries := r.tries + 1 }) ∧ (15 ≤ r.tries → sendingOf p t = none ∧ getF (ETH_CNT_cnt p 9) t = min (getF (ETH_CNT_cnt p 9) s + 1) (2 ^ 32 -
    1))) ∧
  (∀ (p : Nat) (s : State), isSet TSY_CFG_role s = true → getF TSY_CFG_slvport s = p → Completes (.syncReceive p) s fun t => getF TSY_SYNCCNT_cnt t =
    min (getF TSY_SYNCCNT_cnt s + 1) (2 ^ TSY_SYNCCNT_cnt.width - 1) ∧ isSet TSY_STAT_sync t = true ∧ t.eth.syncLost = false) ∧
  (∀ (s : State), isSet TSY_CFG_role s = true → s.eth.syncLost = false → Completes (.syncTimeout) s fun t => isSet TSY_STAT_sync t = false ∧
    t.eth.syncLost = true) ∧
  (∀ (rq : Requester) (s : State), admits rq true 0x40170000 0 s = true → Completes (.tsySet rq) s fun t => t.time.sec = getF TSY_SETSHI_sec s * 2 ^ 32
    + getF TSY_SETSLO_sec s ∧ t.time.ns = getF TSY_SETNS_ns s ∧ t.time.frac = s.time.frac ∧ t.bus = .done) ∧
  (∀ (rq : Requester) (s : State), admits rq true 0x40170000 0 s = true → Completes (.tsyStep rq) s fun t => t.time.ns = (s.time.ns + getF TSY_SETNS_ns
    s) % 1000000000 ∧ t.time.sec = (s.time.sec + tsySec s + (s.time.ns + getF TSY_SETNS_ns s) / 1000000000) % 2 ^ 48 ∧ t.bus = .done) ∧
  (∀ (rq : Requester) (w : Word) (s : State), fadjOk w.toNat = true → admits rq true 0x40170010 0 s = true → exec (.tsyFadjWrite rq w) s = .next
    (busDone (setF TSY_FADJ_fadj w.toNat s)))

/-- A sleep request makes each named used unit wait for its condition; a unit that meets it is asleep; a wake request wakes the named units,
whether asleep or on their way. A wake-up frame, a dominant level, the frame error counter, port energy and a named wire or pin each wake
their units and are logged, or are held in STANDBY and start its exit. -/
def Obligations.SleepAndWakeSourceCommandsComplete : Prop :=
  (∀ (rq : Requester) (hi : Bool) (w : Word) (u : Nat) (s : State), wksOpen s = true → u ∈ unitsOf hi w → unitUsed u s = true → unitAsleep u s = false →
    ¬ (u < 48 ∧ inDeltaBanks u s = true) → admits rq true (if hi then 0x400C0004 else 0x400C0000) 0 s = true → Completes (.unitSleepRequest rq hi w) s
    fun t => unitSleeping u t = true ∧ t.bus = .done) ∧
  (∀ (u : Nat) (s : State), u < 64 → unitPending u s = true → sleepReady u s = true → Completes (.unitAsleep u) s fun t => unitAsleep u t = true ∧
    unitPending u t = false ∧ (isCan u s = true → u < 48 → canState u t = 9)) ∧
  (∀ (rq : Requester) (hi : Bool) (w : Word) (u : Nat) (s : State), wksOpen s = true → u ∈ unitsOf hi w → unitUsed u s = true → ¬ (u < 48 ∧ inDeltaBanks
    u s = true) → unitAsleep u s = false ∨ unitPending u s = false → admits rq true (if hi then 0x400C000C else 0x400C0008) 0 s = true → Completes
    (.unitWakeRequest rq hi w) s fun t => unitSleeping u t = false ∧ t.bus = .done) ∧
  (∀ (n : Nat) (f : CanFrame) (dlc : Nat) (s : State), filterRuns n s = true → isCan n s = true → f.fmt = 0 → (wakeCfg n s).tcfg % 4 = 2 → f.rtr = false
    → wakeMatch (wakeCfg n s) f dlc = true → unitPending n s = false → Completes (.wakeUpFrame n f dlc) s fun t => ((mode s ≠ mStandby → unitAsleep n
    t = false ∧ getF WKS_LOGSTAT_wr t = (getF WKS_LOGSTAT_wr s + 1) % 16 ∧ getF WKS_STAT_kind t = 1) ∧ (mode s = mStandby → t.wks.held.length =
    s.wks.held.length + if (s.wks.held.any fun x => decide (x.unit = some n)) then 0 else 1))) ∧
  (∀ (n us : Nat) (s : State), filterRuns n s = true → isCan n s = true ∨ isLin n s = true → (wakeCfg n s).tcfg % 4 = 1 → bitsOf (wakeCfg n s).tcfg 16
    16 ≤ us → unitPending n s = false → Completes (.wakeDominant n us) s fun t => ((mode s ≠ mStandby → unitAsleep n t = false ∧ getF WKS_LOGSTAT_wr t
    = (getF WKS_LOGSTAT_wr s + 1) % 16 ∧ getF WKS_STAT_kind t = 2) ∧ (mode s = mStandby → t.wks.held.length = s.wks.held.length + if (s.wks.held.any
    fun x => decide (x.unit = some n)) then 0 else 1))) ∧
  (∀ (n : Nat) (s : State), filterRuns n s = true → isCan n s = true → (wakeCfg n s).tcfg % 4 = 2 → (wakeCfg n s).tcfg.testBit 2 = true → unitPending n
    s = false → Completes (.wakeFrameErrors n) s fun t => (getF (WKS_TSTAT_fec n) s = 31 → ((mode s ≠ mStandby → unitAsleep n t = false ∧ getF
    WKS_LOGSTAT_wr t = (getF WKS_LOGSTAT_wr s + 1) % 16 ∧ getF WKS_STAT_kind t = 3) ∧ (mode s = mStandby → t.wks.held.length = s.wks.held.length + if
    (s.wks.held.any fun x => decide (x.unit = some n)) then 0 else 1))) ∧ (getF (WKS_TSTAT_fec n) s < 31 → getF (WKS_TSTAT_fec n) t = getF
    (WKS_TSTAT_fec n) s + 1)) ∧
  (∀ (p us : Nat) (s : State), p < 16 → unitAsleep (48 + p) s = true → portMode p s ≠ 4 → (if p < 12 then isSet SYS_RAILOK_sds s else isSet
    SYS_RAILOK_t1s s) = true → (tabGet 0 s.wks.ports p).testBit 0 = true → bitsOf (tabGet 0 s.wks.ports p) 16 8 ≤ us → unitPending (48 + p) s = false
    → Completes (.wakePortEnergy p us) s fun t => ((mode s ≠ mStandby → unitAsleep (48 + p) t = false ∧ getF WKS_LOGSTAT_wr t = (getF WKS_LOGSTAT_wr s
    + 1) % 16 ∧ getF WKS_STAT_kind t = 4) ∧ (mode s = mStandby → t.wks.held.length = s.wks.held.length + if (s.wks.held.any fun x => decide (x.unit =
    some (48 + p))) then 0 else 1))) ∧
  (∀ (pin : Bool) (i u : Nat) (s : State), serving s = true → (if pin then i < 2 ∧ s.wks.pinDue.testBit i = true else i < 4 ∧ (getF WKS_SRC_wire
    s).testBit i = true) → isSet WKS_SRC_grpen s = true → u ∈ groupMembers (getF WKS_SRC_grp s) s → unitAsleep u s = true → unitPending u s = false →
    Completes (.wakeWireOrPin pin i) s fun t => (mode s ≠ mStandby → unitSleeping u t = false ∧ getF WKS_STAT_kind t = (if pin then 6 else 5)) ∧ (mode
    s = mStandby → t.wks.held.length = s.wks.held.length + if (s.wks.held.any fun x => decide (x.unit = none ∧ x.kind = (if pin then 6 else 5) ∧ x.idx
    = i)) then 0 else 1))

/-- A restarted lane-group PLL shows its lock; a validation window that closes marks its log entry and counts a false wake, while validation
marks it valid; a log acknowledge clears the unread count. A go-to-sleep command or a quiet bus puts a responder to sleep by itself; the
time of a wake pulse leads to the commander's start, the next pulse, or the end of the pulses. -/
def Obligations.WakeCompletionCommandsComplete : Prop :=
  (∀ (g : Nat) (s : State), g < 3 → s.power.sdsStarting.testBit g = true → Completes (.serdesPllRestartLock g) s fun t => (getF CKR_STATUS_sdslock
    t).testBit g = true ∧ t.power.sdsStarting.testBit g = false) ∧
  (∀ (u : Nat) (s : State), u < 64 → windowOver u s = true → Completes (.validationWindowClose u) s fun t => windowOf u t = none ∧ (u < 48 → getF
    (WKS_TFW_fwc u) t = min (getF (WKS_TFW_fwc u) s + 1) (2 ^ (WKS_TFW_fwc u).width - 1)) ∧ (48 ≤ u → getF (WKS_PFW_fwc (u - 48)) t = min (getF
    (WKS_PFW_fwc (u - 48)) s + 1) (2 ^ (WKS_PFW_fwc (u - 48)).width - 1))) ∧
  (∀ (rq : Requester) (hi : Bool) (w : Word) (u e t0 : Nat) (s : State), u ∈ unitsOf hi w → windowOf u s = some (e, t0) → s.ticks ≤ t0 + 1000 * getF
    WKS_FWCFG_win s → admits rq true (if hi then 0x400C0024 else 0x400C0020) 0 s = true → Completes (.wksValid rq hi w) s fun t => windowOf u t = none
    ∧ t.bus = .done) ∧
  (∀ (rq : Requester) (w : Word) (s : State), w.getLsbD 0 = true → admits rq true 0x400C0038 0 s = true → exec (.wksLogack rq w) s = .next (busDone
    (setF WKS_LOGSTAT_unread 0 s))) ∧
  (∀ (n : Nat) (s : State), linMaySleep n s = true → Completes (.linGoToSleepReceive n) s fun t => unitAsleep n t = true) ∧
  (∀ (n : Nat) (s : State), linMaySleep n s = true → Completes (.linIdleSleep n) s fun t => unitAsleep n t = true) ∧
  (∀ (n : Nat) (s : State), n < 48 → 0 < tabGet 0 s.wks.pulses n → tileFunc n s = 3 → serState n s = 1 ∨ serState n s = 2 → mayBegin n s = true → exec
    (.linWakePulseTimeout n) s = .next (serStart n
    { s with wks := { s.wks with pulses := tabPut 0 s.wks.pulses n 0 } })) ∧
  (∀ (n : Nat) (s : State), n < 48 → 0 < tabGet 0 s.wks.pulses n → tileFunc n s = 4 → serState n s = 1 ∨ serState n s = 2 → mayBegin n s = true →
    Completes
    (.linWakePulseTimeout n) s fun t => tabGet 0 t.wks.pulses n = (if
    tabGet 0 s.wks.pulses n < 6 then tabGet 0 s.wks.pulses n + 1 else 0))

/-- A dword a PCIe host reads or writes outside D3hot has the answer and the effect of the register access it makes, its power state and its
BARs are what it last wrote, and in D3hot a memory request is refused; the QSPI slave does the same with its
status byte, and sends its status; a link comes up or goes down; an MSI-X request becomes a message, or a pending bit that is sent later. A
raise routed to the hierarchy is sent once in a millisecond and deferred after that; a received event joins the manager's queue, and a read
of its first word removes the oldest entry. -/
def Obligations.HostCommandsComplete : Prop :=
  (∀ (x : Nat) (v : Word) (s : State), isSet BRG_STAT_link s = true → s.brg.d3hot = false → (busRead .pcie (0x40000000 + x % 0x1000000) s).bus = .data
    v → Completes
    (.pcieRead .bar0 x [15]) s fun t => t.bus = .data v) ∧
  (∀ (x : Nat) (w : Word) (s : State), isSet BRG_STAT_link s = true → s.brg.d3hot = false → (busWrite .pcie (0x40000000 + x % 0x1000000) w s).bus ≠
    .error → exec (.pcieWrite
    .bar0 x [(w, 15)]) s = .next (busDone (busWrite .pcie (0x40000000 + x % 0x1000000) w s))) ∧
  (∀ (x k : Nat) (w : Word) (s : State), isSet BRG_STAT_link s = true → Completes (.pcieWrite .pmcsr x [(w, k)]) s fun t => t.bus = .done ∧ (wbits w 0
    2 = 3 → t.brg.d3hot = true) ∧ (wbits w 0 2 = 0 → t.brg.d3hot = false) ∧ t.regs = s.regs) ∧
  (∀ (i k : Nat) (w : Word) (s : State), i < 6 → s.brg.bars.length = 3 → isSet BRG_STAT_link s = true → Completes (.pcieWrite .config (0x10 + 4 * i)
    [(w,
    k)]) s fun t => t.bus = .done ∧ t.brg.bars.getD (i / 2) 0 = putBits (s.brg.bars.getD (i / 2) 0) (32 * (i % 2)) 32 w.toNat / 2 ^ barBits (i / 2) *
    2 ^ barBits (i / 2) ∧ t.regs = s.regs) ∧
  (∀ (x : Nat) (s : State), isSet BRG_STAT_link s = true → s.brg.d3hot = true → Completes (.pcieRead .bar0 x [15]) s fun t => t.bus = .error ∧ t.regs =
    s.regs) ∧
  (∀ (gen width : Nat) (s : State), pcieUp s = true → gen = 1 ∨ gen = 2 → width = 1 ∨
    width = 2 → Completes (.pcieLinkChange true gen width) s fun t => isSet BRG_STAT_link t = true ∧ getF BRG_STAT_gen t = gen ∧ getF BRG_STAT_width t
    = width) ∧
  (∀ (gen width : Nat) (s : State), Completes (.pcieLinkChange false gen width) s fun t => isSet BRG_STAT_link t = false ∧ t.brg.msixOn = false ∧
    t.brg.master = false) ∧
  (∀ (a len : Nat) (bytes : List Byte) (s : State), qspiUp s = true → a % 4 = 0 → 0x40000000 ≤ a → a < 0x41000000 → len %
    256 = 0 → bytes.length = 4 → qspiForbidden true a 1 s = none → (busWrite .qspi a (BitVec.ofNat 32 (leAt bytes 0 4)) s).bus ≠ .error → exec
    (.qspiTransaction 0x02 a len bytes) s = .next (qspiSend 0xA5 [] (busDone (busWrite .qspi a (BitVec.ofNat 32 (leAt bytes 0 4)) s)))) ∧
  (∀ (s : State), qspiUp s = true → Completes (.qspiStatus) s fun t => t.bus = .data (BitVec.ofNat 32 (getF BRG_QSTAT_err
    s + 2 * getF BRG_QSTAT_refused s + 4 * getF BRG_QSTAT_partial s + 8 * getF BRG_QSTAT_fwerr s)) ∧ t.regs = s.regs) ∧
  (∀ (v : Nat) (r : List Nat) (s : State), s.evc.msixReq = v :: r → Completes (.msixRequest) s fun t => t.evc.msixReq = r ∧ (msixReady v s = true → getF
    (msixPend v) t = getF (msixPend v) s) ∧ (msixReady v s = false → (getF (msixPend v) t).testBit (v % 32) = true)) ∧
  (∀ (v : Nat) (s : State), v < 64 → (getF (msixPend v) s).testBit (v % 32) = true → msixReady v s = true → Completes (.msixPendingSend v) s fun t =>
    (getF (msixPend v) t).testBit (v % 32) = false) ∧
  (∀ (e us : Nat) (r : List (Nat × Nat)) (s : State), s.evc.hieReq = (e, us) :: r → hieOn s = true → e ∉ s.evc.paced → ((s.evc.deferred.any fun x =>
    decide (x.1 = e)) = false) → isManager s = false → isSet HIE_STAT_mlost s = false → inlineCount s < 1024 → Completes (.eventMessageSend) s fun t
    => getF BRG_REVTX_seq t = (getF BRG_REVTX_seq s + 1) % 2 ^ BRG_REVTX_seq.width ∧ t.evc.paced = s.evc.paced ++ [e]) ∧
  (∀ (e us : Nat) (r : List (Nat × Nat)) (s : State), s.evc.hieReq = (e, us) :: r → hieOn s = true → e ∈ s.evc.paced → Completes (.eventMessageSend) s
    fun t => t.evc.hieReq = r ∧ (e, us) ∈ t.evc.deferred ∧ getF EVC_HIESTAT_deferred t = min (getF EVC_HIESTAT_deferred s + 1) (2 ^
    EVC_HIESTAT_deferred.width - 1)) ∧
  (∀ (e us : Nat) (s : State), s.evc.deferred = [(e, us)] → s.evc.paced = [] → isManager s = false → isSet HIE_STAT_mlost s = false → inlineCount s <
    1024 → Completes (.eventPacingFlush) s fun t => getF BRG_REVTX_seq t = (getF BRG_REVTX_seq s + 1) % 2 ^ BRG_REVTX_seq.width ∧ t.evc.paced = [e] ∧
    t.evc.deferred = []) ∧
  (∀ (m : PMsg) (r : List PMsg) (s : State), s.hie.inbox = m :: r → m.type = pEVENT → isManager s = true → s.brg.revq.length < 64 → Completes
    (.remoteEventReceive) s fun t => t.brg.revq = s.brg.revq ++ [⟨m.src % 64, m.at 0 1 % 64, m.at 1 1, m.at 4 4⟩]) ∧
  (∀ (rq : Requester) (e : RemoteEvent) (r : List RemoteEvent) (s : State), s.brg.revq = e :: r → admits rq false BRG_REV0_event.addr 0 s = true →
    Completes (.brgRev0Read rq) s fun t => t.brg.revq = r ∧ t.bus = .data (BitVec.ofNat 32 (e.event + e.dev * 2 ^ 6 + e.seq * 2 ^ 16 + 2 ^ 31)) ∧ getF
    BRG_REV1_us t = e.us % 2 ^ 32)

/-- A first read takes a fetch buffer and answers retry, a later one answers the result and frees the buffer; a write is queued and answered at
once; answers and timeouts end fetches and writes as the chapter gives, an expiry fences the fetch's lease, whose reclaim frees the buffer; a request
    of another device is served. -/
def Obligations.FarWindowCommandsComplete : Prop :=
  (∀ (rq : Requester) (c a n : Nat) (s : State), rq = .core c .normal → coreFarOk a n = true → farRefused (farDev a) s = none → ((s.brg.fetches.find?
    fun e => decide (rqTag e.2.rq = rqTag rq ∧ e.2.dev = farDev a ∧ e.2.addr = farReg a ∧ e.2.n = n)) = none) → (((List.range 16).find? fun b =>
    !(s.brg.fetches.any fun e => decide (e.1 = b))) = some 0) → (grantLease 5 0 (rqTag rq) none s).isSome = true → Completes (.farReadAccess rq a n) s
    fun t => t.bus = .retry ∧ t.brg.fetches.length = s.brg.fetches.length + 1) ∧
  (∀ (rq : Requester) (c a n b : Nat) (f : Fetch) (l : List Nat) (s : State), rq = .core c .normal → coreFarOk a n = true → farRefused (farDev a) s =
    none → ((s.brg.fetches.find? fun e => decide (rqTag e.2.rq = rqTag rq ∧ e.2.dev = farDev a ∧ e.2.addr = farReg a ∧ e.2.n = n)) = some (b, f)) →
    (leaseOf f.lease s).state = .held → f.res = some (some l) → l ≠ [] → exec (.farReadAccess rq a n) s = .next (busWide (l.map (BitVec.ofNat 32))
    (fetchFree f s))) ∧
  (∀ (m : PMsg) (r : List PMsg) (b : Nat) (f : Fetch) (s : State), s.hie.inbox = m :: r → m.type = pFARREAD → m.at 0 1 = 2 → m.at 4 1 = 0 →
    ((s.brg.fetches.find? fun e => decide (e.2.tag = m.at 2 2 ∧ e.2.dev = m.src ∧ e.2.res = none)) = some (b, f)) → f.held = 0 → Completes
    (.farReadAnswer) s fun t => t.hie.inbox = r ∧ (t.brg.fetches.find? fun e => decide (e.1 = b)).map (fun e => e.2.res) = some (some (some
    ((List.range f.n).map fun i => m.at (8 + 4 * i) 4)))) ∧
  (∀ (b : Nat) (f : Fetch) (s : State), ((s.brg.fetches.find? fun e => decide (e.1 = b)) = some (b, f)) → f.res = none → f.held = 0 → Completes
    (.farFetchTimeout b) s fun t => (t.brg.fetches.find? fun e => decide (e.1 = b)).map (fun e => e.2.res) = some (some none) ∧ getF BRG_FWERR1_why t
    = 1 ∧ getF BRG_FWERR0_addr t = f.addr % 2 ^ 32) ∧
  (∀ (b : Nat) (f : Fetch) (s : State), ((s.brg.fetches.find? fun e => decide (e.1 = b)) = some (b, f)) → f.res.isSome = true → (leaseOf f.lease
    s).state = .held → Completes
    (.farResultExpiry b) s fun t => (leaseOf f.lease t).state = .fenced ∧ t.brg.fetches = s.brg.fetches ∧ getF BRG_ERRCNT_expired t = min (getF
    BRG_ERRCNT_expired s + 1) (2 ^ BRG_ERRCNT_expired.width - 1)) ∧
  (∀ (rq : Requester) (c a : Nat) (ws : List Word) (s : State), rq = .core c .normal → coreFarOk a ws.length = true → farRefused (farDev a) s = none →
    s.brg.writes.length < 32 → Completes (.farWrite rq a ws) s fun t => t.bus = .done ∧ t.brg.writes = s.brg.writes ++ [⟨s.brg.tag, rq, farDev a,
    farReg a, ws.map (·.toNat)⟩]) ∧
  (∀ (m : PMsg) (r : List PMsg) (w : FarWrite) (s : State), s.hie.inbox = m :: r → m.type = pFARWRITE → m.at 0 1 = 2 → m.at 4 1 = 0 →
    ((s.brg.writes.find? fun x => decide (x.tag = m.at 2 2 ∧ x.dev = m.src)) = some w) → Completes (.farWriteAck) s fun t => t.hie.inbox = r ∧
    t.brg.writes = s.brg.writes.filter fun x => decide (x.tag ≠ w.tag)) ∧
  (∀ (tag : Nat) (w : FarWrite) (s : State), ((s.brg.writes.find? fun x => decide (x.tag = tag)) = some w) → Completes (.farWriteTimeout tag) s fun t =>
    t.brg.writes = (s.brg.writes.filter fun x => decide (x.tag ≠ tag)) ∧ getF BRG_FWERR1_why t = 1) ∧
  (∀ (m : PMsg) (r : List PMsg) (s : State), s.hie.inbox = m :: r → m.at 0 1 = 1 → m.type = pFARREAD → exec (.farRequestServe) s = .next (serveRead m
    { s with hie := { s.hie with inbox := r } })) ∧
  (∀ (m : PMsg) (r : List PMsg) (s : State), s.hie.inbox = m :: r → m.at 0 1 = 1 → m.type = pFARWRITE → exec (.farRequestServe) s = .next (serveWrite m
    { s with hie := { s.hie with inbox := r } }))

/-- A frame for another device is relayed and one for this part is checked; a part that is not admitted asks for its ID; the manager decides the
oldest held request; an answer for this part admits it or shows why not; a changed position ends the admission. A heartbeat is counted; a
device heartbeat keeps it alive and a manager heartbeat is followed; a lost device leaves the set and a lost manager ends the admission; a
takeover makes this part manager with a raised, stored epoch, and a device named in another one's takeover follows it; a probe ends with a
heartbeat. -/
def Obligations.AdmissionCommandsComplete : Prop :=
  (∀ (bad p : Nat) (f : List Byte) (r : List (Nat × List Byte)) (s : State), s.hie.rx = (p, f) :: r → serving s = true → beNat (slice f 5 1) ≠ ownId s →
    beNat (slice f 5 1) ≠ 255 → exec (.ploilhanReceive bad) s = .next (relay p f { s with hie := { s.hie with rx := r } })) ∧
  (∀ (bad p : Nat) (f : List Byte) (r : List (Nat × List Byte)) (s : State), s.hie.rx = (p, f) :: r → serving s = true → beNat (slice f 5 1) = ownId s →
    ownId s ≠ 255 → formOk (hieBody f) = true → hieActive s = true → exec (.ploilhanReceive bad) s = .next (checkMessage bad (parseMsg p (hieBody f))
    f { s with hie := { s.hie with rx := r } })) ∧
  (∀ (id : Nat) (s : State), applicant s = true → askFor s = some id → Completes (.joinSend) s fun t => t.hie.askId = id ∧ t.hie.askRole = (if
    wantsStandby s && mode s ≠ mQuarantine then roleStandby else roleWorker)) ∧
  (∀ (s : State), applicant s = true → askFor s = none → exec (.joinSend) s = .next (setF HIE_STAT_why 2 s)) ∧
  (∀ (m : PMsg) (r : List PMsg) (s : State), isManager s = true → isSet HIE_STAT_probe s = false → s.hie.answered < 8 → s.hie.joinq = m :: r → 1 ≤ m.at
    2 1 → m.at 2 1 ≤ 63 → m.at 1 1 ≠ roleStandby → ((s.hie.peers.any fun e => decide (e.1 = m.at 2 1 ∧ e.2.ident ≠ leAt m.payload 8 8)) = false) →
    Completes (.join) s fun t => t.hie.joinq = r ∧ t.hie.answered = s.hie.answered + 1 ∧ tabGet {} t.hie.peers (m.at 2 1) =
    { role := if m.boot then roleRestricted else m.at 1 1, ident := leAt m.payload 8 8, cfg := m.at 4 1, image := m.at 16 4, pos := m.spos, beat := nowMs s, boot := m.boot }) ∧
  (∀ (m : PMsg) (r : List PMsg) (s : State), s.hie.inbox = m :: r → m.type = pJOIN → m.at 0 1 = 2 ∨ m.at 0 1 = 3 → leAt m.payload 8 8 = s.fuse.ident →
    admitted s = false → isManager s = false → Completes (.joinAnswer) s fun t => t.hie.inbox = r ∧ (m.at 0 1 = 2 → isSet HIE_STAT_adm t = true ∧ getF
    HIE_STAT_id t = m.at 2 1 % 2 ^ HIE_STAT_id.width ∧ getF HIE_STAT_role t = m.at 1 1 % 2 ^ HIE_STAT_role.width) ∧ (m.at 0 1 = 3 → getF HIE_STAT_why
    t = m.at 3 1 % 2 ^ HIE_STAT_why.width)) ∧
  (∀ (s : State), admitted s = true → isManager s = false → byPosition s = true → posId s ≠ some (ownId s) → Completes (.positionChangeRejoin) s fun t
    => isSet HIE_STAT_adm t = false ∧ getF HIE_STAT_id t = 255) ∧
  (∀ (s : State), admitted s = true → isSet HIE_STAT_probe s = false → Completes (.heartbeatSend) s fun t => t.hie.beats = s.hie.beats + 1) ∧
  (∀ (m : PMsg) (r : List PMsg) (s : State), s.hie.inbox = m :: r → m.type = pHEARTBEAT → m.at 0 1 ≠ roleManager → isManager s = true →
    ((s.hie.peers.any fun e => decide (e.1 = m.src)) = true) → Completes (.heartbeatReceive) s fun t => t.hie.inbox = r ∧ (tabGet {} t.hie.peers
    m.src).beat = nowMs s ∧ (tabGet {} t.hie.peers m.src).pos = m.spos) ∧
  (∀ (m : PMsg) (r : List PMsg) (s : State), s.hie.inbox = m :: r → m.type = pHEARTBEAT → m.at 0 1 = roleManager → isManager s = false → admitted s =
    true → m.spos = getF HIE_STAT_mpos s → Completes (.heartbeatReceive) s fun t => t.hie.inbox = r ∧ t.hie.mgrSet = m.at 8 8 ∧ t.hie.mgrStandby =
    m.at 1 1 ∧ isSet HIE_STAT_mlost t = false) ∧
  (∀ (d : Nat) (s : State), isManager s = true → ((s.hie.peers.any fun e => decide (e.1 = d)) = true) → Completes (.workerLost d) s fun t =>
    (t.hie.peers.any fun e => decide (e.1 = d)) = false ∧ getF HIE_LOST_dev t = d % 2 ^ HIE_LOST_dev.width ∧ getF HIE_LOST_cnt t = min (getF
    HIE_LOST_cnt s + 1) (2 ^ HIE_LOST_cnt.width - 1)) ∧
  (∀ (s : State), admitted s = true → isManager s = false → ownRole s ≠ roleStandby → Completes (.managerLost) s fun t => isSet HIE_STAT_adm t = false ∧
    isSet HIE_STAT_mlost t = true ∧ getF HIE_STAT_id t = 255) ∧
  (∀ (s : State), serving s = true → hieOn s = true → ownRole s = roleStandby → admitted s = true → Completes (.takeover) s fun t => isManager t = true
    ∧ getF HIE_STAT_id t = 0 ∧ isSet HIE_STAT_adm t = true ∧ getF FWT_EPOCH_epoch t = (getF FWT_EPOCH_epoch s + 1) % 2 ^ 32 ∧ t.store.epoch = (getF
    FWT_EPOCH_epoch s + 1) % 2 ^ 32) ∧
  (∀ (m : PMsg) (r : List PMsg) (s : State), s.hie.inbox = m :: r → m.type = pTAKEOVER → isManager s = false → admitted s = true → (m.at 0 8).testBit
    (ownId s) = true → newer m.epoch (getF FWT_EPOCH_epoch s) = true → Completes (.takeoverReceive) s fun t => getF FWT_EPOCH_epoch t = m.epoch % 2 ^
    32 ∧ getF HIE_STAT_mpos t = m.spos % 2 ^ HIE_STAT_mpos.width ∧ t.hie.mgrSet = m.at 0 8) ∧
  (∀ (s : State), isManager s = true → isSet HIE_STAT_probe s = true → Completes (.probeEnd) s fun t => isSet HIE_STAT_probe t = false ∧ t.hie.beats =
    s.hie.beats + 1)

/-- A request for image pieces is counted and served; a flashless part in LOADING takes a piece and asks again for those missing. A worker
opens, fills, closes and aborts a delta session on its manager's messages and reports; the manager keeps what a device reports. A keyed
HIE_CMD of the manager's secure world sends one message to each target; a device that receives one sends its wear records, resets, or
declares leases failed. -/
def Obligations.HierarchyCommandsComplete : Prop :=
  (∀ (img : List Byte) (m : PMsg) (r : List PMsg) (s : State), s.hie.inbox = m :: r → m.type = pIMAGEBLOCK → m.at 0 1 = 1 → servesImages s = true → 128
    ≤ img.length → Completes (.imageBlockRequest img) s fun t => t.hie.inbox = r ∧ getF HIE_IMGSRV_reqs t = min (getF HIE_IMGSRV_reqs s + 1) (2 ^
    HIE_IMGSRV_reqs.width - 1)) ∧
  (∀ (m : PMsg) (r : List PMsg) (s : State), s.hie.inbox = m :: r → m.type = pIMAGEBLOCK → m.at 0 1 = 2 → flashless s = true → mode s = mLoading →
    s.loader.accepted = false → exec (.imagePieceReceive) s = .next (takeChunk m { s with hie := { s.hie with inbox := r } })) ∧
  (∀ (s : State), flashless s = true → mode s = mLoading → s.loader.accepted = false → s.loader.head = false → exec (.imageRerequestTimeout) s = .next
    (requestMissing s)) ∧
  (∀ (m : PMsg) (r : List PMsg) (s : State), s.hie.inbox = m :: r → m.type = pIMAGEBLOCK → m.at 0 1 = 3 → isManager s = false → m.src = 0 → exec
    (.imageBlockDeltaOpen) s = .next (deltaReport (remoteTag m.src) (deltaOpen (remoteManager m)
    { s with hie := { s.hie with inbox := r, gather := none } }))) ∧
  (∀ (m : PMsg) (r : List PMsg) (s : State), s.hie.inbox = m :: r → m.type = pIMAGEBLOCK → m.at 0 1 = 4 → isManager s = false → m.src = 0 → s.hie.gather
    = none → m.at 1 1 < 128 → Completes (.imageBlockDeltaChunk) s fun t => t.hie.gather = some (m.at 8 4, m.payload.drop 16) ∧ t.hie.inbox = r) ∧
  (∀ (m : PMsg) (r : List PMsg) (s : State), s.hie.inbox = m :: r → m.type = pIMAGEBLOCK → m.at 0 1 = 5 → isManager s = false → m.src = 0 → ownsSession
    (remoteManager m) s = true → isSet IMG_DLTSTAT_busy s = false → exec (.imageBlockDeltaClose) s = .next (deltaClose
    { s with hie := { s.hie with inbox := r } })) ∧
  (∀ (m : PMsg) (r : List PMsg) (s : State), s.hie.inbox = m :: r → m.type = pIMAGEBLOCK → m.at 0 1 = 6 → isManager s = false → m.src = 0 → ownsSession
    (remoteManager m) s = true → exec (.imageBlockDeltaAbort) s = .next (deltaEnd 1 { s with hie := { s.hie with inbox := r } })) ∧
  (∀ (m : PMsg) (r : List PMsg) (s : State), s.hie.inbox = m :: r → m.type = pIMAGEBLOCK → m.at 0 1 = 7 → isManager s = true → ((s.hie.peers.any fun e
    => decide (e.1 = m.src)) = true) → Completes (.imageBlockStatus) s fun t => t.hie.inbox = r ∧ (tabGet {} t.hie.peers m.src).dlt = (m.at 4 4, m.at
    8 4)) ∧
  (∀ (rq : Requester) (w : Word) (s : State), rqSecure rq = true → isManager s = true → keyed 0x7C19 w = true → admits rq true 0x4016002C 0 s = true →
    wbits w 8 3 = 1 → exec (.wearReportRequest rq w) s = .next (applyAll (cmdTargets w s) (fun d t => hieSend pWEARREPORT d (false) [1, 0, 0, 0] t)
    (busDone s))) ∧
  (∀ (m : PMsg) (r : List PMsg) (s : State), s.hie.inbox = m :: r → m.type = pWEARREPORT → m.at 0 1 = 1 → Completes (.wearReportSend) s fun t =>
    t.hie.inbox = r) ∧
  (∀ (rq : Requester) (w : Word) (s : State), rqSecure rq = true → isManager s = true → keyed 0x7C19 w = true → admits rq true 0x4016002C w s = true →
    wbits w 8 3 = 2 → exec (.remoteFullReset (.command rq w)) s = .next (applyAll (cmdTargets w s) (fun d t => hieSend pREVOKE d (isRestricted d t)
    [2, 0, 0, 0] t) (busDone s))) ∧
  (∀ (m : PMsg) (r : List PMsg) (s : State), s.hie.inbox = m :: r → m.type = pREVOKE → m.at 0 1 = 2 → m.src = 0 → exec (.remoteFullReset .message) s =
    .next (fullReset SYS_RSTCAUSE_remfull { s with hie := { s.hie with inbox := r } })) ∧
  (∀ (rq : Requester) (w : Word) (s : State), rqSecure rq = true → isManager s = true → keyed 0x7C19 w = true → admits rq true 0x4016002C w s = true →
    wbits w 8 3 = 3 → exec (.remoteNormalReset (.command rq w)) s = .next (applyAll (cmdTargets w s) (fun d t => hieSend pREVOKE d (false) [3, 0, 0,
    0] t) (busDone s))) ∧
  (∀ (m : PMsg) (r : List PMsg) (s : State), s.hie.inbox = m :: r → m.type = pREVOKE → m.at 0 1 = 3 → m.src = 0 → exec (.remoteNormalReset .message) s =
    .next (worldReset .normal SYS_RSTCAUSE_remnorm 2 { s with hie := { s.hie with inbox := r } })) ∧
  (∀ (rq : Requester) (w : Word) (s : State), rqSecure rq = true → isManager s = true → keyed 0x7C19 w = true → admits rq true 0x4016002C w s = true →
    wbits w 8 3 = 4 → exec (.remoteRevoke (.command rq w)) s = .next (applyAll (cmdTargets w s) (fun d t => hieSend pREVOKE d (false) [1, 1, 0xFF, 0]
    t) (busDone s))) ∧
  (∀ (m : PMsg) (r : List PMsg) (s : State), s.hie.inbox = m :: r → m.type = pREVOKE → m.at 0 1 = 1 → m.src = 0 → exec (.remoteRevoke .message) s =
    .next (revokeMessage m { s with hie := { s.hie with inbox := r } }))

/-- A keyed arm names a target; a commit of the armed target within 1 ms starts the burn, and its end sets the fuse and fully resets the part;
an image key is programmed into an unused slot and revoked while another stays usable; the floor rises to at most the image in force. The
region lock stays set; a secure call enters the secure world, or answers SECURE_UNAVAILABLE while it is down; a debug access to a register is
the access of its requester, and one to secure RAM or LPDDR4 that its world may reach reads or stores the bytes, little-endian; a boundary-scan
    instruction is in force in every lifecycle state. -/
def Obligations.LifecycleAndWorldCommandsComplete : Prop :=
  (∀ (rq : Requester) (target : Nat) (s : State), rqSecure rq = true → admits rq true 0x400D000C 0 s = true → Completes (.lifecycleArm rq 0x6C3E target)
    s fun t => t.keys.arm = some (target % 8, s.ticks) ∧ isSet KST_LCSTAT_armed t = true ∧ t.bus = .done) ∧
  (∀ (rq : Requester) (target at0 : Nat) (s : State), lcAllowed (lifecycle s) (target % 8) = true → ¬ (target % 8 = 3 ∧ ikUsable s = []) → s.keys.arm =
    some (target % 8, at0) → s.ticks ≤ at0 + 1000 → rqSecure rq = true → admits rq true 0x400D000C 0 s = true → Completes (.lifecycleCommit rq 0x6C3E
    target) s fun t => t.keys.burning = some (target % 8) ∧ t.keys.arm = none ∧ isSet KST_LCSTAT_armed t = false ∧ t.bus = .done) ∧
  (∀ (tgt : Nat) (s : State), s.keys.burning = some tgt → exec (.lifecycleBurnDone) s = .next (fullReset SYS_RSTCAUSE_swsys
    { s with fuse := burnFuse tgt s.fuse, keys := { s.keys with burning := none } })) ∧
  (∀ (rq : Requester) (slot : Nat) (s : State), kstOff s = false → s.fuse.ikBegun.testBit (slot % 4) = false → s.fuse.ikProg.testBit (slot % 4) = false
    → rqSecure rq = true → admits rq true 0x400D0024 4 s = true → Completes (.imageKeyProgram rq 0x6C3E slot) s fun t => t.fuse.ikProg.testBit (slot %
    4) = true ∧ tabGet [] t.fuse.ikHash (slot % 4) = ikHashIn s ∧ isSet KST_IKRES_done t = true ∧ isSet KST_IKRES_refused t = false) ∧
  (∀ (rq : Requester) (slot k : Nat) (s : State), kstOff s = false → slot % 4 ∈ ikUsable s → k ∈ ikUsable s → k ≠ slot % 4 → rqSecure rq = true → admits
    rq true 0x400D0024 8 s = true → Completes (.imageKeyRevoke rq 0x6C3E slot) s fun t => t.fuse.ikRev.testBit (slot % 4) = true ∧ isSet
    KST_IKRES_done t = true ∧ isSet KST_IKRES_refused t = false) ∧
  (∀ (rq : Requester) (w : Word) (s : State), s.store.floor ≤ w.toNat → w.toNat ≤ getF IMG_SECVER_secver s → rqSecure rq = true → admits rq true
    0x400D0074 0 s = true → Completes (.floorSet rq w) s fun t => t.store.floor = w.toNat ∧ t.bus = .done) ∧
  (∀ (rq : Requester) (w : Word) (s : State), rqSecure rq = true → admits rq true 0x40100040 0 s = true → exec (.wldLock rq w) s = .next (busDone (orF
    WLD_LOCK_lock (wbits w 0 1) s))) ∧
  (∀ (core : Nat) (s : State), (causes s).testBit 8 = true → exec (.secureCall core) s = .next (emit (.note "secure call result" [core, 0xFFFFFF5A] [])
    s)) ∧
  (∀ (core : Nat) (s : State), (causes s).testBit 8 = false → exec (.secureCall core) s = .next (emit (.note "secure world entered" [core] []) s)) ∧
  (∀ (w : World) (a : Nat) (x : Word) (s : State), debugReach w s = true → inSecRam a = false → inDdr a s = false →
    exec (.debugAccess w a (some x) 4) s = .next (busWrite (.debug w) a x s)) ∧
  (∀ (w : World) (a : Nat) (s : State), debugReach w s = true → inSecRam a = false → inDdr a s = false →
    exec (.debugAccess w a none 4) s = .next (busRead (.debug w) a s)) ∧
  (∀ (w : World) (a n : Nat) (x : Word) (s : State), debugReach w s = true → (inSecRam a || inDdr a s) = true → memRange w true a n s = true →
    exec (.debugAccess w a (some x) n) s = .next (busDone (wrBytes a (leBytes n x.toNat) s))) ∧
  (∀ (w : World) (a n : Nat) (s : State), debugReach w s = true → (inSecRam a || inDdr a s) = true → memRange w false a n s = true →
    exec (.debugAccess w a none n) s = .next (busData (leNat (rdBytes s a n)) s)) ∧
  (∀ (i : ScanInstr) (s : State), Completes (.boundaryScanInstruction i) s fun t => t.keys.scan = i)

/-- A node is created under a live parent with the next generation, invalidated with its generation raised, and freed; a stopped unused slot is
wiped; a blob is put on the shelf and erased from it. A load whose header passes waits to place its key and one of a loaded key takes its
slot under a lease; a wrap starts and its end writes the blob to secure RAM. -/
def Obligations.NodeAndKeyCommandsComplete : Prop :=
  (∀ (rq : Requester) (parent n : Nat) (s : State), kstOff s = false → (nodeOf (parent % 1024) s).state = .live → (nodeOf (parent % 1024) s).depth ≤ 6 →
    (((List.range 1024).find? fun n => decide ((nodeOf n s).state = .free)) = some n) → (nodeOf n s).gen + 1 < 2 ^ 32 → rqSecure rq = true → admits rq
    true 0x400D00AC 0 s = true → Completes (.nodeCreate rq 0x6C3E parent) s fun t => nodeOf n t =
    { state := .live, parent := parent % 1024, depth := (nodeOf (parent % 1024) s).depth + 1, gen := (nodeOf n s).gen + 1, pgen := (nodeOf (parent % 1024) s).gen }
    ∧ getF KST_NODERES_node t = n ∧ isSet KST_NODERES_done t = true ∧ isSet KST_NODERES_refused t = false) ∧
  (∀ (rq : Requester) (node : Nat) (s : State), kstOff s = false → (nodeOf (node % 1024) s).state = .live → (nodeOf (node % 1024) s).gen < 2 ^ 32 - 1 →
    rqSecure rq = true → admits rq true 0x400D00AC 0 s = true → Completes (.nodeInvalidate rq 0x6C3E node) s fun t => (nodeOf (node % 1024) t).gen =
    (nodeOf (node % 1024) s).gen + 1 ∧ isSet KST_NODERES_done t = true ∧ isSet KST_NODERES_refused t = false) ∧
  (∀ (rq : Requester) (node : Nat) (s : State), kstOff s = false → node % 1024 ≠ 0 → (nodeOf (node % 1024) s).state = .live → hasLiveChild (node % 1024)
    s = false → rqSecure rq = true → admits rq true 0x400D00AC 0 s = true → Completes (.nodeFree rq 0x6C3E node) s fun t => nodeOf (node % 1024) t =
    { nodeOf (node % 1024) s with state := .free } ∧ isSet KST_NODERES_done t = true ∧ isSet KST_NODERES_refused t = false) ∧
  (∀ (k : Nat) (s : State), (slotOf k s).stopped = true → (slotOf k s).users = 0 → Completes (.slotWipe k) s fun t => slotOf k t = {}) ∧
  (∀ (rq : Requester) (idx : Nat) (s : State), secRamRange (getF KST_SHELFSRC_addr s) 48 = true → blShape (rdBytes s (getF KST_SHELFSRC_addr s) 48) =
    true → secRamRange (getF KST_SHELFSRC_addr s) (64 + blClen (rdBytes s (getF KST_SHELFSRC_addr s) 48)) = true → (shelfPlace (64 + blClen (rdBytes s
    (getF KST_SHELFSRC_addr s) 48)) s).isSome = true → rqSecure rq = true → admits rq true 0x400D00E4 0 s = true → Completes (.shelfWrite rq 0x6C3E
    idx) s fun t => shelfAt (idx % 512) t = some (rdBytes s (getF KST_SHELFSRC_addr s) (64 + blClen (rdBytes s (getF KST_SHELFSRC_addr s) 48))) ∧
    isSet KST_SHELFRES_done t = true ∧ isSet KST_SHELFRES_refused t = false) ∧
  (∀ (rq : Requester) (idx : Nat) (s : State), rqSecure rq = true → admits rq true 0x400D00E4 0 s = true → Completes (.shelfErase rq 0x6C3E idx) s fun t
    => shelfAt (idx % 512) t = none ∧ isSet KST_SHELFRES_done t = true) ∧
  (∀ (rq : Requester) (w : Word) (b : List Byte) (s : State), w.getLsbD 0 = true → w.getLsbD 1 = false → kstOff s = false → handleBlob (getF
    (KST_LOADSRC_src (nsOf (rqWorld rq))) s) s = some b → blobWhy b (swNeed (rqWorld rq)) true (decide (rqWorld rq = .normal)) s = none → admits rq
    true (if rqSecure rq then 0x400D0084 else 0x400D0884) 0 s = true → Completes (.keyLoad rq w) s fun t => t.keys.loads = s.keys.loads ++
    [{ rq := rq, idx := getF (KST_LOADSRC_src (nsOf (rqWorld rq))) s % 65536, blob := b }] ∧ isSet (KST_LOADRES_done (nsOf (rqWorld rq))) t = false ∧
    t.bus = .done) ∧
  (∀ (j : LoadJob) (r : List LoadJob) (k : Nat) (s : State), s.keys.loads = j :: r → slotMatch j.blob s = some k → (grantLease 3 k (rqTag j.rq) none
    (touchSlot k { s with keys := { s.keys with loads := r } })).isSome = true → Completes (.keyLoadDone) s fun t => t.keys.loads = r ∧ isSet
    (KST_LOADRES_done (nsOf (rqWorld j.rq))) t = true ∧ getF (KST_LOADRES_slot (nsOf (rqWorld j.rq))) t = k % 2 ^ (KST_LOADRES_slot 0).width ∧ (slotOf
    k t).last = s.keys.uses + 1) ∧
  (∀ (rq : Requester) (w : Word) (s : State), w.getLsbD 10 = true → kstOff s = false → 1 ≤ getF KST_WRAPCFG_ktype s → getF KST_WRAPCFG_ktype s ≤ 8 →
    getF KST_WRAPCFG_src s = 2 → (nodeOf (getF KST_WRAPCFG_node s) s).state = .live → usageFits (getF KST_WRAPCFG_ktype s) (getF KST_WRAPCFG_usage s)
    = true → secRamRange (getF KST_WRAPOUT_addr s) (64 + clenOf (getF KST_WRAPCFG_ktype s) 0) = true → secRamRange (getF KST_WRAPIN_addr s) (clenOf
    (getF KST_WRAPCFG_ktype s) 0) = true → rqSecure rq = true → admits rq true 0x400D00D0 0 s = true → Completes (.wrap rq w) s fun t =>
    t.keys.wraps.length = s.keys.wraps.length + 1 ∧ isSet KST_WRAPRES_done t = false ∧ t.bus = .done) ∧
  (∀ (j : WrapJob) (r : List WrapJob) (s : State), s.keys.wraps = j :: r → (nodeOf (blNode j.header) s).state = .live → j.src = 2 → j.shelf = none →
    j.header.length = 48 → secRamRange j.out (j.content.length + 64) = true → Completes (.wrapDone) s fun t => t.keys.wraps = r ∧ isSet
    KST_WRAPRES_done t = true ∧ rdBytes t j.out 48 = j.header)

/-- Software advances the tail of its own ring; a free lane takes the next good descriptor; a job whose tags agree ends and is counted; a first
disagreement takes the lane out of service and runs the job again. A digest call reads its source and runs; its end keeps the message or
places the digest; a read of random data gives a word not given before; a reseed is counted; a health failure is counted and the third in a
row fails the DRBG. -/
def Obligations.EngineCommandsComplete : Prop :=
  (∀ (rq : Requester) (ns : Nat) (w : Word) (s : State), nsOf (rqWorld rq) = ns → admits rq true (0x400E010C + 0x80 * (ns % 2)) 0 s = true → exec
    (.ckvRingTail rq ns w) s = .next (busDone (setF (CKV_RTAIL_idx ns) (wbits w 0 10) s))) ∧
  (∀ (l r : Nat) (j : CkvJob) (s : State), laneOk l s = true → laneJob l s = none → s.ckv.again = [] → s.ckv.lanes.length < getF CKV_CFG_swlanes s →
    ckvPickRing s = some r → (ckvFetch r s).1 = some j → ckvWhy j (ckvFetch r s).2 = none → Completes (.ckvDispatch l) s fun t => laneJob l t = some j
    ∧ (getF CKV_STAT_busy t).testBit l = true) ∧
  (∀ (l : Nat) (j : CkvJob) (s : State), l < 8 → laneJob l s = some j → Completes (.ckvJobDone l true) s fun t => laneJob l t = none ∧ (getF
    CKV_STAT_busy t).testBit l = false ∧ getF CKV_SWCNT_cnt t = min (getF CKV_SWCNT_cnt s + 1) (2 ^ CKV_SWCNT_cnt.width - 1)) ∧
  (∀ (l k : Nat) (j : CkvJob) (s : State), l < 8 → laneJob l s = some j → j.rerun = false → k ≠ l → k < 8 → (getF CKV_STAT_ok s).testBit k = true →
    Completes (.ckvJobDone l false) s fun t => laneJob l t = none ∧ (getF CKV_STAT_ok t).testBit l = false ∧ t.ckv.again = s.ckv.again ++
    [{ j with rerun := true }]) ∧
  (∀ (rq : Requester) (ns c : Nat) (w : Word) (s : State), rq = .core c (if ns = 0 then .secure else .normal) → ns < 2 → wbits w 0 2 ≠ 0 → wbits w 4 1 =
    1 → wbits w 3 1 = 1 → isSet (DIG_STAT_busy ns) s = false → memRange (rqWorld rq) false (getF (DIG_SRC_addr ns) s) (getF (DIG_LEN_len ns) s) s =
    true → admits rq true (0x400F8000 + 0x80 * (ns % 2)) 0 s = true → Completes (.digestGo rq ns w) s fun t => isSet (DIG_STAT_busy ns) t = true ∧
    (digOf ns t).call = some (some (rdBytes s (getF (DIG_SRC_addr ns) s) (getF (DIG_LEN_len ns) s)), true) ∧ t.bus = .done) ∧
  (∀ (ns : Nat) (b : List Byte) (s : State), ns < 2 → (digOf ns s).call = some (some b, true) → Completes (.digestDone ns) s fun t => isSet
    (DIG_STAT_busy ns) t = false ∧ isSet (DIG_STAT_done ns) t = true ∧ isSet (DIG_STAT_ready ns) t = true ∧ getF (DIG_OUT_dig ns 0) t = leAt (slice
    (Config.sha (digOf ns s).alg ((digOf ns s).msg ++ b)) 0 (digLen (digOf ns s).alg)) 0 4) ∧
  (∀ (ns : Nat) (b : List Byte) (s : State), ns < 2 → (digOf ns s).call = some (some b, false) → Completes (.digestDone ns) s fun t => isSet
    (DIG_STAT_busy ns) t = false ∧ isSet (DIG_STAT_done ns) t = true ∧ digOf ns t = { digOf ns s with msg := (digOf ns s).msg ++ b, call := none }) ∧
  (∀ (rq : Requester) (c x : Nat) (r : List Nat) (w : World) (s : State), rq = .core c w → drbgDown s = false → s.drg.words = x :: r → admits rq false
    0x400F8100 0 s = true → exec (.drgDataRead rq) s = .next (busData x { s with drg := { s.drg with words := r } })) ∧
  (∀ (rq : Requester) (c : Nat) (w : World) (s : State), rq = .core c w → drbgDown s = false → s.drg.words = [] → admits rq false 0x400F8100 0 s = true
    → Completes (.drgDataRead rq) s fun t => t.bus = .data (BitVec.ofNat 32 (leAt (slice (Config.drbg s.drg.calls) 0 32) 0 4)) ∧ t.drg.words.length =
    7 ∧ t.drg.calls = s.drg.calls + 1) ∧
  (∀ (s : State), s.power.tick = true → drbgDown s = false → Completes (.drbgReseed none) s fun t => getF DRG_STAT_reseeds t = min (getF
    DRG_STAT_reseeds s + 1) (2 ^ DRG_STAT_reseeds.width - 1) ∧ t.drg.since = 0) ∧
  (∀ (rq : Requester)  (s : State), drbgDown s = false → admits rq true 0x400F8108 0 s = true → Completes (.drbgReseed (some rq)) s fun t => getF
    DRG_STAT_reseeds t = min (getF DRG_STAT_reseeds s + 1) (2 ^ DRG_STAT_reseeds.width - 1) ∧ t.drg.since = 0 ∧ t.bus = .done) ∧
  (∀ (apt : Bool) (s : State), Completes (.entropyHealthFail apt) s fun t => isSet CKV_FLT_ent t = true ∧ t.drg.fails = s.drg.fails + 1 ∧ (s.drg.fails +
    1 = 3 → isSet DRG_STAT_fail t = true))

/-- The holder sets a slot's length, moves operand words, and starts a job, which then runs or ends with result 2 when the engine gives no
result; the end of a job releases its result, or result 5 where its invariant fails. -/
def Obligations.PublicKeyCommandsComplete : Prop :=
  (∀ (rq : Requester) (k : Nat) (w : Word) (s : State), k < 64 → pkeHolder rq s = true → isSet PKE_STAT_busy s = false → (((List.range 64).map fun i =>
    if i = k then wbits w 0 13 else getF (PKE_SLEN_len i) s).sum ≤ 4096) → admits rq true (0x400F0100 + 4 * k) 0 s = true → Completes (.pkeSlenWrite
    rq k w) s fun t => getF (PKE_SLEN_len k) t = w.toNat % 2 ^ 13 ∧ t.pke.mem = [] ∧ t.bus = .done) ∧
  (∀ (rq : Requester)  (s : State), pkeHolder rq s = true → pkeSec (getF PKE_OPPTR_slot s) s = false → 4 * getF PKE_OPPTR_off s + 4 ≤ pkeLen (getF
    PKE_OPPTR_slot s) s → admits rq false 0x400F0024 0 s = true → Completes (.pkeOpdataAccess rq none) s fun t => t.bus = .data (BitVec.ofNat 32
    (leNat (pkeRead (pkeOff (getF PKE_OPPTR_slot s) s + 4 * getF PKE_OPPTR_off s) 4 s))) ∧ t.pke = s.pke ∧ getF PKE_OPPTR_off t = (getF PKE_OPPTR_off
    s + 1) % 2 ^ PKE_OPPTR_off.width) ∧
  (∀ (rq : Requester) (x : Word) (s : State), pkeHolder rq s = true → pkeSec (getF PKE_OPPTR_slot s) s = false → 4 * getF PKE_OPPTR_off s + 4 ≤ pkeLen
    (getF PKE_OPPTR_slot s) s → admits rq true 0x400F0024 0 s = true → Completes (.pkeOpdataAccess rq (some x)) s fun t => pkeRead (pkeOff (getF
    PKE_OPPTR_slot s) s + 4 * getF PKE_OPPTR_off s) 4 t = leBytes 4 x.toNat ∧ t.bus = .done) ∧
  (∀ (rq : Requester) (w : Word) (s : State), pkeHolder rq s = true → isSet PKE_STAT_busy s = false → wbits w 0 5 = 1 → wbits w 5 2 ≠ 0 → wbits w 9 1 =
    1 → s.pke.outs = [] → pkeSlotsOk 1 (pkeShape 1 (wbits w 5 2) s) s = true → admits rq true 0x400F0004 0 s = true → Completes (.pkeJobGo rq w) s fun
    t => ((Config.pkeOp 1 (wbits w 5 2) ((pkeShape 1 (wbits w 5 2) s).ins.map (fun x => pkeOperand x.1 x.2 s) ++ [[], []])).isSome = true → isSet
    PKE_STAT_busy t = true ∧ t.pke.job = some ⟨rq, 1, wbits w 5 2, decide (wbits w 7 1 = 1), (Config.pkeOp 1 (wbits w 5 2) ((pkeShape 1 (wbits w 5 2)
    s).ins.map (fun x => pkeOperand x.1 x.2 s) ++ [[], []])).getD []⟩) ∧ ((Config.pkeOp 1 (wbits w 5 2) ((pkeShape 1 (wbits w 5 2) s).ins.map (fun x
    => pkeOperand x.1 x.2 s) ++ [[], []])).isSome = false → isSet PKE_STAT_done t = true ∧ getF PKE_STAT_result t = 2)) ∧
  (∀ (cyc : Nat) (j : PkeJob) (s : State), s.pke.job = some j → Completes (.pkeJobEnd true cyc) s fun t => isSet PKE_STAT_done t = true ∧ isSet
    PKE_STAT_busy t = false ∧ t.pke.job = none ∧ getF PKE_TIME_cyc t = cyc % 2 ^ 32 ∧ getF PKE_CNT_jobs t = min (getF PKE_CNT_jobs s + 1) (2 ^
    PKE_CNT_jobs.width - 1) ∧ (j.op = 1 ∨ j.op = 6 → getF PKE_STAT_result t = if j.res.headD 1 = 0 then 0 else 1)) ∧
  (∀ (cyc : Nat) (j : PkeJob) (s : State), s.pke.job = some j → Completes (.pkeJobEnd false cyc) s fun t => isSet PKE_STAT_done t = true ∧ isSet
    PKE_STAT_busy t = false ∧ t.pke.job = none ∧ getF PKE_STAT_result t = 5 ∧ getF PKE_CNT_inv t = min (getF PKE_CNT_inv s + 1) (2 ^ PKE_CNT_inv.width
    - 1))

/-- A conversion shows its code and value; the pair triggered in the on-time of a running channel shows current and voltage and counts a wait. A
run of a stopped channel starts an observation with its target; a stop ramps down or coasts; a coast and the clearing of a fault stop the
channel; a workshop test holds or jogs it. An observation that finds rotation in the wanted direction closes the loop, and one at stand
starts alignment; a position event shows the measured speed; each PWM period moves the internal target; the open-loop phases advance; each
limit leads to its fault. -/
def Obligations.MotorCommandsComplete : Prop :=
  (∀ (i code : Nat) (s : State), i < 32 → code < 4096 → adcRuns s = true → Completes (.adcConversion i code) s fun t => getF (ANA_RES_code i) t = code ∧
    getF (ANA_RES_value i) t = adcValue i code % 2 ^ (ANA_RES_value i).width) ∧
  (∀ (m ic vc : Nat) (waited : Bool) (s : State), motorUsed m s = true → 1 ≤ motorState m s → motorState m s ≤ 6 → adcRuns s = true → ic < 4096 → vc <
    4096 → Completes (.pwmTrigger m ic vc waited) s fun t => getF (ANA_RES_code (24 + m)) t = ic ∧ getF (ANA_RES_code (28 + m)) t = vc ∧ getF
    (MOT_MEAS_vdc m) t = adcValue (28 + m) vc % 2 ^ (MOT_MEAS_vdc m).width ∧ getF (MOT_MEAS_imeas m) t = adcValue (24 + m) ic % 2 ^ (MOT_MEAS_imeas
    m).width ∧ (waited = true → getF ANA_STAT_late t = min (getF ANA_STAT_late s + 1) (2 ^ ANA_STAT_late.width - 1))) ∧
  (∀ (rq : Requester) (m : Nat) (w : Word) (s : State), motorUsed m s = true → motorFenced s = false → motorState m s = 0 → targetOk m (cmdRpm w) s =
    true → admits rq true (0x40110114 + 0x40 * m) 0 s = true → Completes (.motorRun rq m w) s fun t => motorState m t = 1 ∧ (motorOf m t).target =
    cmdRpm w ∧ t.bus = .done) ∧
  (∀ (rq : Requester) (m : Nat)  (s : State), motorUsed m s = true → motorFenced s = false → 1 ≤ motorState m s → motorState m s ≤ 6 → admits rq true
    (0x40110114 + 0x40 * m) 0 s = true → Completes (.motorStop rq m) s fun t => ((motorOf m s).internal.natAbs ≤ omin m s * 10000000 → motorState m t
    = 0) ∧ (omin m s * 10000000 < (motorOf m s).internal.natAbs → motorState m t = 6 ∧ (motorOf m t).target = 0) ∧ t.bus = .done) ∧
  (∀ (rq : Requester) (m : Nat)  (s : State), motorUsed m s = true → motorFenced s = false → motorState m s ≠ 7 → admits rq true (0x40110114 + 0x40 * m)
    0 s = true → exec (.motorCoast rq m) s = .next (coast m (busDone s))) ∧
  (∀ (rq : Requester) (m : Nat)  (s : State), motorUsed m s = true → motorFenced s = false → motorState m s = 7 → admits rq true (0x40110114 + 0x40 * m)
    0 s = true → exec (.motorClear rq m) s = .next (setMotorState m 0 (busDone s))) ∧
  (∀ (rq : Requester) (m : Nat) (w : Word) (s : State), mode s = mWorkshop → motorUsed m s = true → motorFenced s = false → motorState m s ≠ 7 → wbits w
    0 2 = 1 → wbits w 2 3 ≤ 5 → admits rq true (0x40110138 + 0x40 * m) 0 s = true → Completes (.motorTest rq m w) s fun t => motorState m t = 4 ∧
    (motorOf m t).phase = .test (wbits w 0 2) (wbits w 2 3) (wbits w 16 16) ∧ t.bus = .done) ∧
  (∀ (m events rpm : Nat) (rev : Bool) (s : State), motorUsed m s = true → motorState m s = 1 → (motorOf m s).meas = false → 3 ≤ events → omin m s ≤ rpm
    → decide ((motorOf m s).target < 0) = rev → Completes (.motorObservationEnd m events rpm rev) s fun t => motorState m t = 5 ∧ (motorOf m
    t).internal = (if rev then -(rpm : Int) else rpm) * rpmUnit ∧ getF (MOT_STAT_speed m) t = min rpm 65535 ∧ isSet (MOT_STAT_rev m) t = rev) ∧
  (∀ (m events rpm : Nat) (rev : Bool) (s : State), motorUsed m s = true → motorState m s = 1 → (motorOf m s).meas = false → events < 3 → isSet
    (MOT_CFG_sense m) s = false → Completes (.motorObservationEnd m events rpm rev) s fun t => motorState m t = 4 ∧ (motorOf m t).phase = .align) ∧
  (∀ (m events rpm : Nat) (rev : Bool) (s : State), motorUsed m s = true → motorState m s = 1 → (motorOf m s).meas = true → Completes
    (.motorMeasurementEnd m events rpm rev) s fun t => motorState m t = 0 ∧ getF (MOT_STAT_speed m) t = if foundStopped m events rpm s then 0 else min
    rpm 65535) ∧
  (∀ (m code ns : Nat) (s : State), motorUsed m s = true → posSector m code s < 6 → (motorOf m s).sector ≠ some (posSector m code s) → 0 < ns →
    motorState m s = 5 → Completes (.motorPositionEvent m code ns) s fun t => (motorOf m t).sector = some (posSector m code s) ∧ getF (MOT_STAT_speed
    m) t = min (10000000000 / (max 1 (getF (MOT_CFG_poles m) s) * ns)) 65535) ∧
  (∀ (m : Nat) (s : State), motorUsed m s = true → motorState m s = 5 → 0 < (motorOf m s).target → omin m s * 10000000 < (motorOf m s).internal →
    Completes (.motorPwmPeriod m) s fun t => (motorOf m t).internal = ramp m (motorOf m s).internal ((motorOf m s).target * rpmUnit) s ∧ motorState m
    t = 5) ∧
  (∀ (m : Nat) (s : State), motorUsed m s = true → motorState m s = 4 → (motorOf m s).phase = .align → Completes (.motorAlignEnd m) s fun t => (motorOf
    m t).phase = .accel ∧ motorState m t = 4) ∧
  (∀ (m : Nat) (s : State), motorUsed m s = true → motorState m s = 4 → (motorOf m s).phase = .accel ∨ (motorOf m s).phase = .zero → Completes
    (.motorHandoverTimeout m) s fun t => motorState m t = 7 ∧ getF (MOT_FAULT_reason m) t = 5 ∧ isSet (MOT_EVT_fault m) t = true) ∧
  (∀ (m : Nat) (s : State), motorUsed m s = true → motorState m s = 5 → Completes (.motorStallTimeout m) s fun t => motorState m t = 7 ∧ getF
    (MOT_FAULT_reason m) t = 4 ∧ isSet (MOT_EVT_fault m) t = true) ∧
  (∀ (m : Nat) (s : State), motorUsed m s = true → motorState m s = 2 → getF (MOT_WAIT_s m) s ≠ 0 → Completes (.motorWaitLimit m) s fun t => motorState
    m t = 7 ∧ getF (MOT_FAULT_reason m) t = 6 ∧ isSet (MOT_EVT_fault m) t = true) ∧
  (∀ (m code : Nat) (s : State), motorUsed m s = true → motorState m s ≠ 7 → isSet (MOT_CFG_sense m) s = true → posSector m code s = 7 → Completes
    (.motorHallInvalid m code) s fun t => motorState m t = 7 ∧ getF (MOT_FAULT_reason m) t = 7 ∧ isSet (MOT_EVT_fault m) t = true) ∧
  (∀ (m : Nat) (s : State), motorUsed m s = true → motorState m s ≠ 7 → Completes (.motorFltInput m) s fun t => motorState m t = 7 ∧ getF
    (MOT_FAULT_reason m) t = 1 ∧ isSet (MOT_EVT_fault m) t = true)

/-- A lamp switched on takes the free token or waits for it and mode 0 switches it off; a granted token lights the channel that asked first; a
blink phase and a cool-down move it on; tries end after a second; a workshop test lights it. A hard short, an overcurrent and an exceeded
group limit trip a lit channel with their reasons, to cool-down or to a latch once its tries are used; a disturbance ends; an open load is
shown. -/
def Obligations.LampCommandsComplete : Prop :=
  (∀ (rq : Requester) (n : Nat) (w : Word) (s : State), lampUsed n s = true → (causes s).testBit 4 = false → lampState n s = 0 → wbits w 0 2 = 1 → wbits
    w 8 8 ≠ 0 → wbits w 16 8 ≠ 0 → admits rq true (0x40120210 + 0x20 * n) 0 s = true → Completes (.lampCommand rq n w) s fun t => lampState n t = (if
    getF (LMP_GSTAT_holder (n / 6)) s = 7 ∧ lampWaits (n / 6) s = [] then 2 else 1) ∧ getF (LMP_CMD_mode n) t = 1 ∧ t.bus = .done) ∧
  (∀ (rq : Requester) (n : Nat) (w : Word) (s : State), lampUsed n s = true → wbits w 0 2 = 0 → wbits w 8 8 ≠ 0 → wbits w 16 8 ≠ 0 → admits rq true
    (0x40120210 + 0x20 * n) 0 s = true → Completes (.lampCommand rq n w) s fun t => lampState n t = 0 ∧ getF (LMP_CMD_mode n) t = 0 ∧ getF
    (LMP_CSTAT_tries n) t = 0 ∧ t.bus = .done) ∧
  (∀ (g n : Nat) (r : List Nat) (s : State), g < 4 → n < 24 → getF (LMP_GSTAT_holder g) s = 7 → lampWaits g s = n :: r → Completes (.lampTokenGrant g) s
    fun t => lampState n t = 2 ∧ lampWaits g t = r ∧ getF (LMP_GSTAT_holder g) t = n % 6) ∧
  (∀ (n : Nat) (above : Bool) (s : State), lampUsed n s = true → lampState n s = 2 → getF (LMP_GSTAT_holder (n / 6)) s = n % 6 → Completes
    (.lampInrushEnd n above) s fun t => (above = false → lampState n t = 3 ∧ getF (LMP_GSTAT_holder (n / 6)) t = 7) ∧ (above = true → lampState n t =
    5 ∧ getF (LMP_CSTAT_reason n) t = 3)) ∧
  (∀ (n : Nat) (s : State), lampUsed n s = true → lampState n s = 4 → Completes (.lampCoolDownEnd n) s fun t => lampState n t = if getF
    (LMP_GSTAT_holder (n / 6)) s = 7 ∧ lampWaits (n / 6) s = [] then 2 else 1) ∧
  (∀ (n : Nat) (s : State), lampUsed n s = true → getF (LMP_CMD_mode n) s = 2 → lampState n s = 2 ∨ lampState n s = 3 → Completes (.lampBlinkPhase n) s
    fun t => lampState n t = 6) ∧
  (∀ (n : Nat) (s : State), lampUsed n s = true → lampState n s = 3 → exec (.lampTriesReset n) s = .next (setF (LMP_CSTAT_tries n) 0 s)) ∧
  (∀ (rq : Requester) (w : Word) (s : State), mode s = mWorkshop → wbits w 0 5 ≤ 23 → wbits w 16 16 ≠ 0 → lampUsed (wbits w 0 5) s = true → (causes
    s).testBit 4 = false → admits rq true 0x40120004 0 s = true → Completes (.lampTest rq w) s fun t => lampLit (wbits w 0 5) t = true ∧ t.bus =
    .done) ∧
  (∀ (n : Nat) (s : State), lampUsed n s = true → lampLit n s = true → Completes (.lampHardShort n) s fun t => getF (LMP_CSTAT_reason n) t = 1 ∧ isSet
    (LMP_CEVT_trip n) t = true ∧ lampState n t = (if getF (LMP_CSTAT_tries n) s ≥ getF (LMP_CCFG0_retries n) s then 5 else 4) ∧ isSet (LMP_GSTAT_dist
    (n / 6)) t = true) ∧
  (∀ (n : Nat) (s : State), lampUsed n s = true → lampLit n s = true → Completes (.lampOvercurrent n) s fun t => getF (LMP_CSTAT_reason n) t = 2 ∧ isSet
    (LMP_CEVT_trip n) t = true ∧ lampState n t = (if getF (LMP_CSTAT_tries n) s ≥ getF (LMP_CCFG0_retries n) s then 5 else 4)) ∧
  (∀ (g n : Nat) (s : State), g < 4 → lastLit g s = some n → n < 24 → Completes (.lampGroupLimit g) s fun t => getF (LMP_CSTAT_reason n) t = 4 ∧ isSet
    (LMP_CEVT_trip n) t = true ∧ lampState n t = (if getF (LMP_CSTAT_tries n) s ≥ getF (LMP_CCFG0_retries n) s then 5 else 4)) ∧
  (∀ (g : Nat) (s : State), g < 4 → Completes (.lampDisturbanceEnd g) s fun t => isSet (LMP_GSTAT_dist g) t = false ∧ isSet (LMP_GSTAT_over g) t =
    false) ∧
  (∀ (n : Nat) (below : Bool) (s : State), lampUsed n s = true → lampState n s = 3 → (causes s).testBit 5 = false → ((s.cab.tests.any fun e => decide
    (e.1 = n)) = false) → Completes (.lampOpenDetect n below) s fun t => isSet (LMP_CSTAT_open n) t = below)

/-- Each second adds the thermal age and the histogram; a temperature is shown and its maximum kept; the oscillator losses become items; a save
starts and ends in the store; a month's sample is stored; a replacement reset counts; a selected item is shown. -/
def Obligations.LedgerCommandsComplete : Prop :=
  (∀ (s : State), s.power.por = false → Completes (.ledgerSecond) s fun t => (wearItem 0x0301 0 t).cnt = (wearItem 0x0301 0 s).cnt + (tempBin (tempNow
    s)).2 ∧ (wearItem 0x0302 (tempBin (tempNow s)).1 t).cnt = (wearItem 0x0302 (tempBin (tempNow s)).1 s).cnt + 1) ∧
  (∀ (x : Int) (s : State), s.power.por = false → -2048 ≤ x → x ≤ 2047 → Completes (.temperatureMeasure x) s fun t => tempNow t = x ∧ (BitVec.ofNat 12
    (getF WER_TEMP_max t)).toInt = max x (BitVec.ofNat 12 (getF WER_TEMP_max s)).toInt) ∧
  (∀ (ppm : List Int) (k : Nat) (s : State), k < 4 → mode s = mService ∨ mode s = mDegraded ∨ mode s = mPartial ∨ mode s = mReconfig → Completes
    (.ringOscillatorMeasure ppm) s fun t => (wearItem 0x0303 k t).cnt = (ppm.getD k 0).toNat) ∧
  (∀ (s : State), s.power.por = false → s.wear.saving = none → Completes (.ledgerSave) s fun t => t.wear.saving = some (snapshotNow s) ∧ isSet
    WER_STAT_saving t = true) ∧
  (∀ (s : State), s.power.por = false → s.wear.saving ≠ none → Completes (.ledgerSave) s fun t => t.wear.again = true ∧ t.wear.saving = s.wear.saving) ∧
  (∀ (p : Snapshot) (s : State), s.wear.saving = some p → Completes (.ledgerSaveDone) s fun t => t.store.snap = some p ∧ (s.wear.again = false →
    t.wear.saving = none ∧ isSet WER_STAT_saving t = false)) ∧
  (∀ (s : State), s.power.por = false → 2592000 * (s.wear.month + 1) ≤ s.wear.clock → Completes (.monthlySample) s fun t => t.wear.month = s.wear.month
    + 1 ∧ (wearItem 0x0301 0 t).samples = ((s.wear.month + 1, itemValue 0x0301 0 s) :: (wearItem 0x0301 0 s).samples).take 32) ∧
  (∀ (rq : Requester) (w : Word) (s : State), rqSecure rq = true → mode s = mWorkshop → wbits w 16 16 = 0x3E51 → 0x0101 ≤ wbits w 0 11 → wbits w 0 11 ≤
    0x0203 → itemHere (wbits w 0 11) (wbits w 11 5) s = true → admits rq true 0x40140024 0 s = true → Completes (.werReset rq w) s fun t => (wearItem
    (wbits w 0 11) (wbits w 11 5) t) = { repl := min ((wearItem (wbits w 0 11) (wbits w 11 5) s).repl + 1) 0xFFFF } ∧ t.bus = .done) ∧
  (∀ (rq : Requester) (w : Word) (s : State), itemHere (wbits w 0 16) (wbits w 16 5) s = true → admits rq true 0x40140080 0 s = true → Completes
    (.werSel rq w) s fun t => getF WER_CNTLO_cnt t = itemValue (wbits w 0 16) (wbits w 16 5) s % 2 ^ 32 ∧ isSet WER_IINFO_valid t = true ∧ getF
    WER_REPL_repl t = (wearItem (wbits w 0 16) (wbits w 16 5) s).repl % 2 ^ WER_REPL_repl.width ∧ t.bus = .done)

/-- A write of an event's route that its requester may make gives every field; a software raise of event 62 or 63 makes it pending. A legal
write of a plain register sets its writable fields, clears the ones written to W1C bits and sets those written to W1S bits; a read of a
counter answers it and clears it; a read of a latching pair's first register copies the second; an access that is misaligned or not of 32 bits, also a
    debugger's, is a bus error and changes nothing (R5). -/
def Obligations.EventAndRegisterCommandsComplete : Prop :=
  (∀ (rq : Requester) (e : Nat) (w : Word) (s : State), e < 64 → rqSecure rq = true ∨ (ownedSecure e s = false ∧ ¬ (wbits w 3 1 = 1 ∧ wbits w 2 1 = 1))
    → wordOk (EVC_ROUTE_core e).addr w.toNat s = true → admits rq true (EVC_ROUTE_core e).addr w s = true → Completes (.evcRouteWrite rq e w) s fun t
    => getF (EVC_ROUTE_core e) t = wbits w 0 2 ∧ getF (EVC_ROUTE_world e) t = wbits w 2 1 ∧ getF (EVC_ROUTE_irq e) t = wbits w 3 1 ∧ getF
    (EVC_ROUTE_vec e) t = wbits w 4 6 ∧ getF (EVC_ROUTE_msix e) t = wbits w 10 1 ∧ getF (EVC_ROUTE_hie e) t = wbits w 11 1 ∧ getF (EVC_ROUTE_wire e) t
    = wbits w 12 2 ∧ getF (EVC_ROUTE_prio e) t = wbits w 16 4 ∧ t.bus = .done) ∧
  (∀ (rq : Requester) (w : Word) (s : State), isSet EVC_CTL_act s = true → mode s ≠ mStandby → admits rq true EVC_SOFT_s0.addr w s = true → Completes
    (.evcSoft rq w) s fun t => (w.getLsbD 0 = true → evPending 62 t = true) ∧ (w.getLsbD 1 = true → evPending 63 t = true) ∧ t.bus = .done) ∧
  (∀ (rq : Requester) (a : Nat) (w : Word) (d : RegDesc) (s : State), (blockOf a = 1 ∨ blockOf a = 6 ∨ blockOf a = 0x13) → a % 4 = 0 → 0x40000000 ≤ a →
    a < 0x40180000 → findReg a s = some d → legalWord d a w.toNat s = true → admits rq true a w s = true → exec (.registerWrite rq a w 4) s = .next
    (writeFields (fun p => p.writable || p == .w1c || p == .w1s) d a w.toNat (busDone s))) ∧
  (∀ (rq : Requester) (a : Nat) (w : Word) (d : RegDesc) (s : State), (blockOf a = 1 ∨ blockOf a = 6 ∨ blockOf a = 0x13) → a % 4 = 0 → 0x40000000 ≤ a →
    a < 0x40180000 → findReg a s = some d → legalWord d a w.toNat s = true → admits rq true a w s = true → exec (.w1cWrite rq a w 4) s = .next
    (writeFields (fun p => p.writable || p == .w1c || p == .w1s) d a w.toNat (busDone s))) ∧
  (∀ (rq : Requester) (w : Word) (s : State), rqSecure rq = true → admits rq true EVC_PEND0_pend.addr w s = true → exec (.w1cWrite rq
    EVC_PEND0_pend.addr w 4) s = .next (clrF EVC_PEND0_pend w.toNat (busDone s))) ∧
  (∀ (rq : Requester)  (s : State), admits rq false TSY_SYNCCNT_cnt.addr 0 s = true → Completes (.rcRead rq TSY_SYNCCNT_cnt.addr 4) s fun t => t.bus =
    .data (BitVec.ofNat 32 (getF TSY_SYNCCNT_cnt s)) ∧ getF TSY_SYNCCNT_cnt t = 0) ∧
  (∀ (rq : Requester) (n : Nat) (s : State), n < 48 → isCan n s = true → tileUsed n s = true → admits rq false (CAN_RXCNT_cnt n).addr 0 s = true →
    Completes (.rcRead rq (CAN_RXCNT_cnt n).addr 4) s fun t => t.bus = .data (BitVec.ofNat 32 (getF (CAN_RXCNT_cnt n) s)) ∧ getF (CAN_RXCNT_cnt n) t =
    0) ∧
  (∀ (rq : Requester)  (s : State), admits rq false TSY_NOWNS_ns.addr 0 s = true → s.time.ns < 2 ^ 32 → Completes (.latchingPairRead rq
    TSY_NOWNS_ns.addr 4) s fun t => t.bus = .data (BitVec.ofNat 32 s.time.ns) ∧ t.eth.latchSec = s.time.sec) ∧
  (∀ (rq : Requester)  (s : State), admits rq false AON_RTCLO_frac.addr 0 s = true → Completes (.latchingPairRead rq AON_RTCLO_frac.addr 4) s fun t =>
    getF AON_RTCHI_sec t = s.aon.sec % 2 ^ AON_RTCHI_sec.width) ∧
  (∀ (rq : Requester) (a n : Nat) (w : Word) (s : State), (n ≠ 4 ∨ a % 4 ≠ 0) → admits rq true a w s = true →
    exec (.registerWrite rq a w n) s = .next (busError s) ∧ exec (.w1cWrite rq a w n) s = .next (busError s)) ∧
  (∀ (rq : Requester) (a n : Nat) (s : State), (n ≠ 4 ∨ a % 4 ≠ 0) → admits rq false a 0 s = true →
    exec (.rcRead rq a n) s = .next (busError s) ∧ exec (.latchingPairRead rq a n) s = .next (busError s)) ∧
  (∀ (w : World) (a n : Nat) (x : Word) (s : State), n ≠ 4 → inSecRam a = false → inDdr a s = false → admits (.debug w) true a x s = true →
    exec (.debugAccess w a (some x) n) s = .next (busError s)) ∧
  (∀ (w : World) (a n : Nat) (s : State), n ≠ 4 → inSecRam a = false → inDdr a s = false → admits (.debug w) false a 0 s = true →
    exec (.debugAccess w a none n) s = .next (busError s))

/-- Frames of wire path, supply, clock, watchdog and always-on commands (wireInChange, carlinkHuntSync, rephaseStart, pfailRise,
pfailRestoreExpiry, railWarnCrossing, normalWatchdogEnable, normalWatchdogKick, secureWatchdogKick, tamperRearm, wakePinRearm, aonRtcset,
aonLogack, pwrReqSwWrite, pwrReqRelease, tamperLatchClear, resetNRelease, rootPllLockLoss, fullResetEnd, xinAmplitudeGood, rootPllLock,
serdesPllRelock, pcieRefStable, suppliesValid, standbyCoreWaitTimeout, pwrReqHoldExpiry, wakePinFire, tamperFire, rtcSecond, vbatMeasure,
pwrReadyWrite, lnkMsgtxGo): whenever one of them answers a next state, every byte of memory reads as before and every register field reads
as before, but for the fields its line lists: its results, the flags and counts of the events it raises and, for an access by a requester,
the fields a refused access is recorded in. -/
def Obligations.SupplyFrames : Prop :=
  (∀ (n : Nat) (level : Bool), Leaves (.wireInChange n level) []) ∧
  (∀ (p : LinkSide) (bit : Nat), Leaves (.carlinkHuntSync p bit) []) ∧
  (∀ (p : LinkSide), Leaves (.rephaseStart p) []) ∧
  (Leaves (.pfailRise) [SYS_SUPPLY_pfnow]) ∧
  (Leaves (.pfailRestoreExpiry) [PWR_STATUS_shed]) ∧
  (∀ (r : Rail), Leaves (.railWarnCrossing r) ([SYS_SUPPLY_wcore, SYS_SUPPLY_wio0, SYS_SUPPLY_waux] ++ eventFields 4)) ∧
  (∀ (rq : Requester) (w : Word), LeavesAsked (.normalWatchdogEnable rq w) [SYS_WDN_CTL_period, SYS_WDN_CTL_en, SYS_WDN_STAT_left]) ∧
  (∀ (rq : Requester) (key : Nat), LeavesAsked (.normalWatchdogKick rq key) [SYS_WDN_STAT_left, SYS_WDN_STAT_first]) ∧
  (∀ (rq : Requester) (key : Nat), LeavesAsked (.secureWatchdogKick rq key) []) ∧
  (Leaves (.tamperRearm) [AON_TAMPER_pin]) ∧
  (∀ (n : Nat), Leaves (.wakePinRearm n) []) ∧
  (∀ (rq : Requester) (w : Word), LeavesAsked (.aonRtcset rq w) [AON_STATUS_busy]) ∧
  (∀ (rq : Requester), LeavesAsked (.aonLogack rq) [AON_STATUS_busy]) ∧
  (∀ (rq : Requester) (w : Word), LeavesAsked (.pwrReqSwWrite rq w) [AON_STATUS_busy]) ∧
  (∀ (rq : Requester), LeavesAsked (.pwrReqRelease rq) [AON_STATUS_busy]) ∧
  (∀ (rq : Requester), LeavesAsked (.tamperLatchClear rq) [AON_STATUS_busy]) ∧
  (Leaves (.resetNRelease) []) ∧
  (Leaves (.rootPllLockLoss) []) ∧
  (Leaves (.fullResetEnd) []) ∧
  (Leaves (.xinAmplitudeGood) [CKR_STATUS_xamp]) ∧
  (∀ (us : Nat), Leaves (.rootPllLock us) [CKR_RUN_clk, CKR_STATUS_rootlock, SYS_T_PLL_us]) ∧
  (∀ (g : Nat), Leaves (.serdesPllRelock g) ([CKR_STATUS_sdslock, PWR_DEGRADE_cause] ++ modeFields)) ∧
  (Leaves (.pcieRefStable) ([CKR_STATUS_pcieref, PWR_DEGRADE_cause] ++ modeFields)) ∧
  (Leaves (.suppliesValid) (modeFields)) ∧
  (Leaves (.standbyCoreWaitTimeout) [PWR_STATUS_refused, PWR_STATUS_why]) ∧
  (Leaves (.pwrReqHoldExpiry) (aonLogFields)) ∧
  (∀ (n : Nat), Leaves (.wakePinFire n) (aonLogFields)) ∧
  (Leaves (.tamperFire) ([AON_TAMPER_latch, AON_TAMPER_pin] ++ aonLogFields)) ∧
  (Leaves (.rtcSecond) ([AON_ALMCTL_rtc, PWR_STATUS_refused, PWR_STATUS_why] ++ aonLogFields)) ∧
  (∀ (mv10 : Nat), Leaves (.vbatMeasure mv10) ([AON_VBAT_mv10, AON_VBAT_inhibit, AON_PREQ_sw] ++ aonLogFields)) ∧
  (∀ (rq : Requester) (w : Word), LeavesAsked (.pwrReadyWrite rq w) ([PWR_DEGRADE_cause] ++ modeFields)) ∧
  (∀ (rq : Requester) (p : LinkSide) (w : Word), LeavesAsked (.lnkMsgtxGo rq p w) [sideF p LNK_MSGTXA_dst LNK_MSGTXB_dst])

/-- Frames of page, lease, lodger, ring, gate, table and transcriber commands (policerCreditTick, streamResetTimeout, leaseExpiry,
lodgerPeriodStart, itemDispatch, ringInterrupt, leaseRenew, pageInDone, pagingMsCheck, deadlineMiss, inkRevoke, inkPgfree, pageFree,
cutThroughEnd, swcLockTake, fwtLockTake, pkeLockTake, gateEntryChange, bankClearDone, overlayDrainDone, migrateDone, migrateStart,
migrateCancel, porterGo, fullRefresh, trnSigsel): whenever one of them answers a next state, every byte of memory reads as before and every
register field reads as before, but for the fields its line lists: its results, the flags and counts of the events it raises and, for an
access by a requester, the fields a refused access is recorded in. Of cutThroughEnd it is said in the states whose register store is in
canonical form: it may run under an older generation's tables, which puts the store together anew. -/
def Obligations.SwitchFrames : Prop :=
  (Leaves (.policerCreditTick) []) ∧
  (∀ (sh : Nat), Leaves (.streamResetTimeout sh) []) ∧
  (∀ (n : Nat), Leaves (.leaseExpiry n) []) ∧
  (∀ (lid : Nat), Leaves (.lodgerPeriodStart lid) []) ∧
  (Leaves (.itemDispatch) []) ∧
  (∀ (r : Nat), Leaves (.ringInterrupt r) []) ∧
  (∀ (rq : Requester) (n : Nat), LeavesAsked (.leaseRenew rq n) []) ∧
  (∀ (lid us : Nat), Leaves (.pageInDone lid us) [INK_PAGESTAT_maxlat]) ∧
  (Leaves (.pagingMsCheck) ([INK_PAGESTAT_faults] ++ eventFields 14)) ∧
  (∀ (lid : Nat), Leaves (.deadlineMiss lid) ([INK_SCHED_misses, INK_MISSLOG_lid] ++ eventFields 13)) ∧
  (∀ (rq : Requester) (w : Word), LeavesAsked (.inkRevoke rq w) [INK_REVSTAT_refused, INK_REVSTAT_why]) ∧
  (∀ (rq : Requester) (n : Nat), LeavesAsked (.inkPgfree rq n) (poolFields)) ∧
  (∀ (p : Nat), Leaves (.pageFree p) (poolFields)) ∧
  (∀ (p why : Nat) (s t : State), Canonical s → exec (.cutThroughEnd p why) s = .next t →
    RegsBut (poolFields ++ (List.range 12).map SWC_GSTAT_hold) s t ∧ SameMem s t) ∧
  (∀ (rq : Requester), LeavesAsked (.swcLockTake rq) [SWC_LOCK_busy, SWC_LOCK_lease, INK_LSCOUNT_full]) ∧
  (∀ (rq : Requester), LeavesAsked (.fwtLockTake rq) [FWT_LOCK_busy, FWT_LOCK_lease, INK_LSCOUNT_full]) ∧
  (∀ (rq : Requester), LeavesAsked (.pkeLockTake rq) [PKE_LOCK_busy, PKE_LOCK_lease, INK_LSCOUNT_full]) ∧
  (∀ (p : Nat), Leaves (.gateEntryChange p) [SWC_GSTAT_entry p, SWC_GSTAT_gates p, SWC_GSTAT_hold p]) ∧
  (Leaves (.bankClearDone) [FWT_RHSTAT_state]) ∧
  (Leaves (.overlayDrainDone) [FWT_STAT_drain]) ∧
  (Leaves (.migrateDone) [FWT_RHSTAT_state, FWT_RHSTAT_moved, FWT_RHFAIL_fail]) ∧
  (∀ (rq : Requester) (w : Word), LeavesAsked (.migrateStart rq w) [FWT_RHCTL_bank, FWT_RHSTAT_state, FWT_RHSTAT_moved]) ∧
  (∀ (rq : Requester) (w : Word), LeavesAsked (.migrateCancel rq w) [FWT_RHCTL_bank, FWT_RHSTAT_state]) ∧
  (∀ (rq : Requester) (w : Word), LeavesAsked (.porterGo rq w) [FWT_PSTAT_busy]) ∧
  (Leaves (.fullRefresh) ([FWT_CVQ_out] ++ (List.range 8).map FWT_CVCNT_cnt)) ∧
  (∀ (rq : Requester) (w : Word), LeavesAsked (.trnSigsel rq w) [TRN_SIGSEL_sig, TRN_SIGVAL_value, TRN_SIGST_st, TRN_SIGST_late, TRN_SIGST_age])

/-- Frames of CAN, LIN and UART tile commands (canIntegrationDone, canRxBufferRead, canRxrel, canBodelayExpiry, canCtlStart, canCtlRecover,
canArbitrationChoice, linSchedWrite, linPubWrite, uartTxStart, uartSwtxGo, canTxreq, canTxcan, canPriorel, linHeaderReceive, serialTxEnd,
linSlotStart, linWakePulseTimeout, serCtlStart): whenever one of them answers a next state, every byte of memory reads as before and every
register field reads as before, but for the fields its line lists: its results, the flags and counts of the events it raises and, for an
access by a requester, the fields a refused access is recorded in. -/
def Obligations.TileFrames : Prop :=
  (∀ (n : Nat), Leaves (.canIntegrationDone n) ([CAN_STAT_state n, CAN_EVT_passive n] ++ eventFields (20 + n / 12))) ∧
  (∀ (rq : Requester) (n off : Nat), LeavesAsked (.canRxBufferRead rq n off) ([CAN_PRIOSTAT_locked n, CAN_PRIOSTAT_full n, CAN_PRIOSTAT_shadow n,
    FAB_PRIOPEND0_p, FAB_PRIOPEND1_p] ++ eventFields 24)) ∧
  (∀ (rq : Requester) (n buf : Nat), LeavesAsked (.canRxrel rq n buf) []) ∧
  (∀ (n : Nat), Leaves (.canBodelayExpiry n) [CAN_STAT_state n]) ∧
  (∀ (rq : Requester) (n : Nat), LeavesAsked (.canCtlStart rq n) ([CAN_STAT_state n, CAN_STAT_warn n, CAN_ERR_tec n, CAN_ERR_rec n, CAN_EVT_warn n] ++
    eventFields (20 + n / 12))) ∧
  (∀ (rq : Requester) (n : Nat), LeavesAsked (.canCtlRecover rq n) [CAN_STAT_state n]) ∧
  (∀ (n : Nat), Leaves (.canArbitrationChoice n) [CAN_STAT_txing n]) ∧
  (∀ (rq : Requester) (n : Nat) (w : Word), LeavesAsked (.linSchedWrite rq n w) [LIN_SCHED_sel n, LIN_SCHED_pend n]) ∧
  (∀ (rq : Requester) (n i k : Nat) (w : Word), LeavesAsked (.linPubWrite rq n i k w) [LIN_PUB_data n (2 * i + k), LIN_FRM_upd n i]) ∧
  (∀ (n : Nat), Leaves (.uartTxStart n) ([SER_RXCNT_cnt n, SER_RXOVR_cnt n, SER_EVT_rx n, SER_EVT_err n, SER_EVT_ovr n, SER_ERR0_framing n,
    SER_ERR0_parity n] ++ eventFields 26)) ∧
  (∀ (rq : Requester) (n : Nat) (w : Word), LeavesAsked (.uartSwtxGo rq n w) [UART_SWTX_len n, UART_SWTX_go n]) ∧
  (∀ (rq : Requester) (n : Nat) (w : Word), LeavesAsked (.canTxreq rq n w) ([CAN_TXREQ_req n, CAN_TXDROP_bad n, CAN_EVT_txbad n] ++ eventFields (20 + n
    / 12))) ∧
  (∀ (rq : Requester) (n : Nat) (w : Word), LeavesAsked (.canTxcan rq n w) ([CAN_TXREQ_req n, CAN_TXCAN_can n, CAN_TXCANCELLED_cnl n, CAN_EVT_txcan n]
    ++ eventFields (20 + n / 12))) ∧
  (∀ (rq : Requester) (n : Nat) (w : Word), LeavesAsked (.canPriorel rq n w) ([CAN_PRIOSTAT_locked n, CAN_PRIOSTAT_full n, CAN_PRIOSTAT_shadow n,
    FAB_PRIOPEND0_p, FAB_PRIOPEND1_p] ++ eventFields 24)) ∧
  (∀ (n sync pid : Nat), Leaves (.linHeaderReceive n sync pid) ([LIN_FRM_upd n (pid % 64), SER_EVT_err n, SER_ERR1_abort n, SER_ERR1_pid n] ++
    eventFields 26)) ∧
  (∀ (n : Nat) (echo : List Byte), Leaves (.serialTxEnd n echo) ([UART_SWTX_go n, SER_TXCNT_cnt n, SER_EVT_tx n, SER_EVT_err n, SER_ERR0_bit n] ++
    eventFields 26)) ∧
  (∀ (n : Nat), Leaves (.linSlotStart n) ([LIN_SCHED_cur n, LIN_SCHED_pend n, SER_EVT_sched n] ++ (List.range 64).map (LIN_FRM_upd n) ++ eventFields
    26)) ∧
  (∀ (n : Nat), Leaves (.linWakePulseTimeout n) ([SER_STAT_state n] ++ ([LIN_SCHED_cur n, LIN_SCHED_pend n, SER_EVT_sched n] ++ (List.range 64).map
    (LIN_FRM_upd n) ++ eventFields 26))) ∧
  (∀ (rq : Requester) (n : Nat), LeavesAsked (.serCtlStart rq n) ([SER_STAT_state n] ++ ([LIN_SCHED_cur n, LIN_SCHED_pend n, SER_EVT_sched n] ++
    (List.range 64).map (LIN_FRM_upd n) ++ eventFields 26)))

/-- Frames of Ethernet port, time base and counter snapshot commands (mdioCommand, mdioDone, ethTxtsRead, plcaBeaconReceive, syncReceive,
syncTimeout, tsySet, tsyStep, tsyFadjWrite, swcSnap, transmitOpportunity, ethLinkUp): whenever one of them answers a next state, every byte
of memory reads as before and every register field reads as before, but for the fields its line lists: its results, the flags and counts of
the events it raises and, for an access by a requester, the fields a refused access is recorded in. -/
def Obligations.PortFrames : Prop :=
  (∀ (rq : Requester) (p : Nat) (w : Word), LeavesAsked (.mdioCommand rq p w) [ETH_MDIOSTAT_busy 0]) ∧
  (∀ (ans : Option Nat), Leaves (.mdioDone ans) [ETH_MDIOSTAT_busy 0, ETH_MDIOSTAT_data 0]) ∧
  (∀ (rq : Requester) (p : Nat), LeavesAsked (.ethTxtsRead rq p) [ETH_TXTS1_sec p, ETH_TXTS2_seqid p, ETH_TXTS2_msgtype p, ETH_TXTS2_domain p,
    ETH_TXTSSTAT_fill p]) ∧
  (∀ (p : Nat), Leaves (.plcaBeaconReceive p) ([T1S_STAT_active (p - 12), T1S_EVT_act (p - 12)] ++ eventFields 29)) ∧
  (∀ (p : Nat), Leaves (.syncReceive p) [TSY_SYNCCNT_cnt, TSY_STAT_sync]) ∧
  (Leaves (.syncTimeout) ([TSY_STAT_sync] ++ eventFields 31)) ∧
  (∀ (rq : Requester), LeavesAsked (.tsySet rq) [TSY_STAT_steps]) ∧
  (∀ (rq : Requester), LeavesAsked (.tsyStep rq) [TSY_STAT_steps]) ∧
  (∀ (rq : Requester) (w : Word), LeavesAsked (.tsyFadjWrite rq w) [TSY_FADJ_fadj]) ∧
  (∀ (rq : Requester) (w : Word), LeavesAsked (.swcSnap rq w) ([SWC_SNAPSTAT_port, SWC_SNAPSTAT_done] ++ (List.range 32).map SWC_SNAPCNT_cnt)) ∧
  (∀ (p : Nat), Leaves (.transmitOpportunity p) ([T1S_STAT_active (p - 12), T1S_EVT_act (p - 12)] ++ eventFields 29)) ∧
  (∀ (p spd : Nat) (hdx anok : Bool), Leaves (.ethLinkUp p spd hdx anok) ([ETH_STAT_link p, ETH_STAT_spd p, ETH_STAT_hdx p, ETH_STAT_anok p, ETH_EVT_up
    p, ETH_EVT_hdx p] ++ eventFields 27))

/-- Frames of wake, host bridge, remote event, hierarchy and delta session commands (serdesPllRestartLock, wksLogack, pcieLinkChange,
qspiStatus, msixRequest, msixPendingSend, farWriteAck, farWriteTimeout, remoteEventReceive, brgRev0Read, workerLost, imageBlockStatus,
farResultExpiry, wksValid, managerLost, deltaDelivery, deltaOpen, deltaDrainEnd, validationWindowClose): whenever one of them answers a next
state, every byte of memory reads as before and every register field reads as before, but for the fields its line lists: its results, the
flags and counts of the events it raises and, for an access by a requester, the fields a refused access is recorded in. -/
def Obligations.HostFrames : Prop :=
  (∀ (g : Nat), Leaves (.serdesPllRestartLock g) [CKR_STATUS_sdslock]) ∧
  (∀ (rq : Requester) (w : Word), LeavesAsked (.wksLogack rq w) [WKS_LOGSTAT_unread]) ∧
  (∀ (up : Bool) (gen width : Nat), Leaves (.pcieLinkChange up gen width) [BRG_STAT_link, BRG_STAT_gen, BRG_STAT_width]) ∧
  (Leaves (.qspiStatus) []) ∧
  (Leaves (.msixRequest) [BRG_MSIXPBA0_pend, BRG_MSIXPBA1_pend]) ∧
  (∀ (v : Nat), Leaves (.msixPendingSend v) [BRG_MSIXPBA0_pend, BRG_MSIXPBA1_pend]) ∧
  (Leaves (.farWriteAck) ([BRG_ERRCNT_far, BRG_FWERR0_addr, BRG_FWERR1_dev, BRG_FWERR1_why] ++ eventFields 47)) ∧
  (∀ (tag : Nat), Leaves (.farWriteTimeout tag) ([BRG_ERRCNT_far, BRG_FWERR0_addr, BRG_FWERR1_dev, BRG_FWERR1_why] ++ eventFields 47)) ∧
  (Leaves (.remoteEventReceive) ([BRG_REVSTAT_lost] ++ eventFields 61)) ∧
  (∀ (rq : Requester), LeavesAsked (.brgRev0Read rq) [BRG_REV1_us]) ∧
  (∀ (d : Nat), Leaves (.workerLost d) ([HIE_LOST_dev, HIE_LOST_cnt] ++ revlogFields ++ eventFields 60)) ∧
  (Leaves (.imageBlockStatus) []) ∧
  (∀ (b : Nat), Leaves (.farResultExpiry b) ([BRG_ERRCNT_expired] ++ eventFields 45)) ∧
  (∀ (rq : Requester) (hi : Bool) (w : Word), LeavesAsked (.wksValid rq hi w) ((List.range 16).map fun i => WKS_LOG_word (4 * i + 1))) ∧
  (Leaves (.managerLost) ([HIE_STAT_adm, HIE_STAT_id, HIE_STAT_mlost, HIE_STAT_role, DRG_STAT_reseeds] ++ eventFields 59)) ∧
  (∀ (rq : Requester) (w : Word), LeavesAsked (.deltaDelivery rq w) [IMG_DLTSTAT_busy, IMG_DLTSTAT_refused, IMG_DLTSTAT_why]) ∧
  (∀ (rq : Requester), LeavesAsked (.deltaOpen rq) [IMG_DLTSTAT_state, IMG_DLTSTAT_owner, IMG_DLTSTAT_refused, IMG_DLTSTAT_why, IMG_DLTBLKS_ok,
    IMG_DLTBLKS_bad, INK_LSCOUNT_full]) ∧
  (Leaves (.deltaDrainEnd) ([IMG_RCFG_drain] ++ revlogFields ++ eventFields 2 ++ modeFields)) ∧
  (∀ (u : Nat), Leaves (.validationWindowClose u) ([WKS_TFW_fwc u, WKS_PFW_fwc (u - 48)] ++ ((List.range 16).map fun i => WKS_LOG_word (4 * i + 1)) ++
    eventFields 36))

/-- Frames of lifecycle, key, world, check-value, digest, random generator and public-key commands (lifecycleArm, lifecycleCommit,
imageKeyProgram, imageKeyRevoke, floorSet, nodeCreate, nodeInvalidate, nodeFree, slotWipe, shelfWrite, shelfErase, wldLock, secureCall,
boundaryScanInstruction, ckvRingTail, pkeSlenWrite, pkeOpdataAccess, drgDataRead, drbgReseed, entropyHealthFail, digestGo, digestDone,
pkeJobEnd): whenever one of them answers a next state, every byte of memory reads as before and every register field reads as before, but
for the fields its line lists: its results, the flags and counts of the events it raises and, for an access by a requester, the fields a
refused access is recorded in. -/
def Obligations.KeyFrames : Prop :=
  (∀ (rq : Requester) (key target : Nat), LeavesAsked (.lifecycleArm rq key target) [KST_LCSTAT_armed]) ∧
  (∀ (rq : Requester) (key target : Nat), LeavesAsked (.lifecycleCommit rq key target) [KST_LCSTAT_armed, KST_LCSTAT_refused, KST_LCSTAT_why]) ∧
  (∀ (rq : Requester) (key slot : Nat), LeavesAsked (.imageKeyProgram rq key slot) [KST_IKRES_done, KST_IKRES_refused, KST_IKRES_why]) ∧
  (∀ (rq : Requester) (key slot : Nat), LeavesAsked (.imageKeyRevoke rq key slot) [KST_IKRES_done, KST_IKRES_refused, KST_IKRES_why]) ∧
  (∀ (rq : Requester) (w : Word), LeavesAsked (.floorSet rq w) []) ∧
  (∀ (rq : Requester) (key parent : Nat), LeavesAsked (.nodeCreate rq key parent) [KST_NODERES_done, KST_NODERES_refused, KST_NODERES_why,
    KST_NODERES_node, KST_NODERES_orph]) ∧
  (∀ (rq : Requester) (key node : Nat), LeavesAsked (.nodeInvalidate rq key node) ([KST_NODERES_done, KST_NODERES_refused, KST_NODERES_why,
    KST_NODERES_node, KST_NODERES_orph] ++ eventFields 39)) ∧
  (∀ (rq : Requester) (key node : Nat), LeavesAsked (.nodeFree rq key node) [KST_NODERES_done, KST_NODERES_refused, KST_NODERES_why, KST_NODERES_node,
    KST_NODERES_orph]) ∧
  (∀ (k : Nat), Leaves (.slotWipe k) revlogFields) ∧
  (∀ (rq : Requester) (key idx : Nat), LeavesAsked (.shelfWrite rq key idx) [KST_SHELFRES_done, KST_SHELFRES_refused]) ∧
  (∀ (rq : Requester) (key idx : Nat), LeavesAsked (.shelfErase rq key idx) [KST_SHELFRES_done, KST_SHELFRES_refused]) ∧
  (∀ (rq : Requester) (w : Word), LeavesAsked (.wldLock rq w) [WLD_LOCK_lock]) ∧
  (∀ (core : Nat), Leaves (.secureCall core) []) ∧
  (∀ (i : ScanInstr), Leaves (.boundaryScanInstruction i) []) ∧
  (∀ (rq : Requester) (ns : Nat) (w : Word), LeavesAsked (.ckvRingTail rq ns w) [CKV_RTAIL_idx ns]) ∧
  (∀ (rq : Requester) (k : Nat) (w : Word), LeavesAsked (.pkeSlenWrite rq k w) [PKE_SLEN_len k, PKE_SLEN_sec k]) ∧
  (∀ (rq : Requester) (v : Option Word), LeavesAsked (.pkeOpdataAccess rq v) [PKE_OPPTR_off]) ∧
  (∀ (rq : Requester), LeavesAsked (.drgDataRead rq) [DRG_STAT_reseeds]) ∧
  (∀ (rq : Option Requester), LeavesAsked (.drbgReseed rq) [DRG_STAT_reseeds]) ∧
  (∀ (apt : Bool), Leaves (.entropyHealthFail apt) ([CKV_FLT_ent, CKV_FLT_drbg, DRG_STAT_fail, DRG_HCNT_apt, DRG_HCNT_rct] ++ eventFields 40)) ∧
  (∀ (rq : Requester) (ns : Nat) (w : Word), LeavesAsked (.digestGo rq ns w) [DIG_CTL_alg ns, DIG_STAT_busy ns, DIG_STAT_err ns, DIG_STAT_ready ns]) ∧
  (∀ (ns : Nat), Leaves (.digestDone ns) ([DIG_STAT_busy ns, DIG_STAT_done ns, DIG_STAT_err ns, DIG_STAT_ready ns] ++ (List.range 16).map (DIG_OUT_dig
    ns))) ∧
  (∀ (inv : Bool) (cyc : Nat), Leaves (.pkeJobEnd inv cyc) ([PKE_STAT_busy, PKE_STAT_done, PKE_STAT_result, PKE_TIME_cyc, PKE_CNT_jobs, PKE_CNT_inv] ++
    eventFields 42 ++ eventFields 43))

/-- Frames of motor commands (motorRun, motorStop, motorCoast, motorClear, motorTest, motorObservationEnd, motorMeasurementEnd,
motorPositionEvent, motorPwmPeriod, motorAlignEnd, motorHandoverTimeout, motorStallTimeout, motorWaitLimit, motorFltInput,
motorHallInvalid): whenever one of them answers a next state, every byte of memory reads as before and every register field reads as before,
but for the fields its line lists: its results, the flags and counts of the events it raises and, for an access by a requester, the fields a
refused access is recorded in. -/
def Obligations.MotorFrames : Prop :=
  (∀ (rq : Requester) (m : Nat) (w : Word), LeavesAsked (.motorRun rq m w) (motorFields m)) ∧
  (∀ (rq : Requester) (m : Nat), LeavesAsked (.motorStop rq m) (motorFields m)) ∧
  (∀ (rq : Requester) (m : Nat), LeavesAsked (.motorCoast rq m) (motorFields m)) ∧
  (∀ (rq : Requester) (m : Nat), LeavesAsked (.motorClear rq m) (motorFields m)) ∧
  (∀ (rq : Requester) (m : Nat) (w : Word), LeavesAsked (.motorTest rq m w) (motorFields m)) ∧
  (∀ (m events rpm : Nat) (rev : Bool), Leaves (.motorObservationEnd m events rpm rev) (motorFields m)) ∧
  (∀ (m events rpm : Nat) (rev : Bool), Leaves (.motorMeasurementEnd m events rpm rev) (motorFields m)) ∧
  (∀ (m code ns : Nat), Leaves (.motorPositionEvent m code ns) (motorFields m)) ∧
  (∀ (m : Nat), Leaves (.motorPwmPeriod m) (motorFields m)) ∧
  (∀ (m : Nat), Leaves (.motorAlignEnd m) (motorFields m)) ∧
  (∀ (m : Nat), Leaves (.motorHandoverTimeout m) (motorFields m)) ∧
  (∀ (m : Nat), Leaves (.motorStallTimeout m) (motorFields m)) ∧
  (∀ (m : Nat), Leaves (.motorWaitLimit m) (motorFields m)) ∧
  (∀ (m : Nat), Leaves (.motorFltInput m) (motorFields m)) ∧
  (∀ (m code : Nat), Leaves (.motorHallInvalid m code) (motorFields m))

/-- Frames of lamp commands (lampCommand, lampInrushEnd, lampHardShort, lampOvercurrent, lampCoolDownEnd, lampBlinkPhase, lampTriesReset,
lampOpenDetect, lampTest, lampDisturbanceEnd): whenever one of them answers a next state, every byte of memory reads as before and every
register field reads as before, but for the fields its line lists: its results, the flags and counts of the events it raises and, for an
access by a requester, the fields a refused access is recorded in. -/
def Obligations.LampFrames : Prop :=
  (∀ (rq : Requester) (n : Nat) (w : Word), LeavesAsked (.lampCommand rq n w) (lampFields n)) ∧
  (∀ (n : Nat) (above : Bool), Leaves (.lampInrushEnd n above) (lampFields n)) ∧
  (∀ (n : Nat), Leaves (.lampHardShort n) (lampFields n)) ∧
  (∀ (n : Nat), Leaves (.lampOvercurrent n) (lampFields n)) ∧
  (∀ (n : Nat), Leaves (.lampCoolDownEnd n) (lampFields n)) ∧
  (∀ (n : Nat), Leaves (.lampBlinkPhase n) (lampFields n)) ∧
  (∀ (n : Nat), Leaves (.lampTriesReset n) (lampFields n)) ∧
  (∀ (n : Nat) (below : Bool), Leaves (.lampOpenDetect n below) (lampFields n)) ∧
  (∀ (rq : Requester) (w : Word), LeavesAsked (.lampTest rq w) (lampFields (wbits w 0 5))) ∧
  (∀ (g : Nat), Leaves (.lampDisturbanceEnd g) (lampGroupFields g))

/-- Frames of wear ledger and event controller commands (ledgerSecond, temperatureMeasure, ringOscillatorMeasure, ledgerSave, ledgerSaveDone,
werReset, evcRouteWrite, evcSoft, monthlySample): whenever one of them answers a next state, every byte of memory reads as before and every
register field reads as before, but for the fields its line lists: its results, the flags and counts of the events it raises and, for an
access by a requester, the fields a refused access is recorded in. -/
def Obligations.LedgerAndEventFrames : Prop :=
  (Leaves (.ledgerSecond) ([WER_EVT_warn, WER_EVT_eol, WER_EVTITEM_item, WER_EVTITEM_inst] ++ eventFields 55 ++ eventFields 56)) ∧
  (∀ (x : Int), Leaves (.temperatureMeasure x) ([WER_TEMP_now, WER_TEMP_max] ++ eventFields 7)) ∧
  (∀ (ppm : List Int), Leaves (.ringOscillatorMeasure ppm) []) ∧
  (Leaves (.ledgerSave) [WER_STAT_saving]) ∧
  (Leaves (.ledgerSaveDone) [WER_STAT_saving]) ∧
  (∀ (rq : Requester) (w : Word), LeavesAsked (.werReset rq w) [WER_STAT_saving]) ∧
  (∀ (rq : Requester) (e : Nat) (w : Word), LeavesAsked (.evcRouteWrite rq e w) [EVC_ROUTE_core e, EVC_ROUTE_world e, EVC_ROUTE_irq e, EVC_ROUTE_vec e,
    EVC_ROUTE_msix e, EVC_ROUTE_hie e, EVC_ROUTE_wire e, EVC_ROUTE_prio e]) ∧
  (∀ (rq : Requester) (w : Word), LeavesAsked (.evcSoft rq w) (eventFields 62 ++ eventFields 63)) ∧
  (Leaves (.monthlySample) ([WER_STAT_saving, WER_EVTITEM_item, WER_EVTITEM_inst, WER_EVT_horizon, WER_EVT_warn, WER_EVT_eol] ++ eventFields 55 ++
    eventFields 56))
end

