-- ==== Sys2Proof/Laws/State.lean ====
section
/-! SUPPORT. One lemma per field of State per primitive update, each true by unfolding one record update, so that no proof unfolds one. The other
field operations are shown to be setF, the bus answers to be withBus. -/

namespace Sys2Proof.Machine

/-- The bus answer replaced: the common form of busDone, busError, busData, busStall and busRetry. -/
def withBus (c : Completion) (s : State) : State := { s with bus := c }

@[simp] theorem busDone_eq (s : State) : busDone s = withBus .done s := rfl
@[simp] theorem busError_eq (s : State) : busError s = withBus .error s := rfl
@[simp] theorem busData_eq (v : Nat) (s : State) : busData v s = withBus (.data (BitVec.ofNat 32 v)) s := rfl
@[simp] theorem busStall_eq (s : State) : busStall s = withBus .stall s := rfl
@[simp] theorem busRetry_eq (s : State) : busRetry s = withBus .retry s := rfl
@[simp] theorem setB_eq (f : Fld) (b : Bool) (s : State) : setB f b s = setF f (if b then 1 else 0) s := rfl
@[simp] theorem incF_eq (f : Fld) (n : Nat) (s : State) : incF f n s = setF f (min (getF f s + n) (2 ^ f.width - 1)) s := rfl
@[simp] theorem incWrap_eq (f : Fld) (n : Nat) (s : State) : incWrap f n s = setF f (getF f s + n) s := rfl
@[simp] theorem orF_eq (f : Fld) (m : Nat) (s : State) : orF f m s = setF f (getF f s ||| m) s := rfl
@[simp] theorem clrF_eq (f : Fld) (m : Nat) (s : State) : clrF f m s = setF f (natAndNot (getF f s) m) s := rfl
@[simp] theorem withBus_bus (c : Completion) (s : State) : (withBus c s).bus = c := rfl
@[simp] theorem withBus_withBus (c d : Completion) (s : State) : withBus c (withBus d s) = withBus c s := rfl
@[simp] theorem emit_outbox (e : Emission) (s : State) : (emit e s).outbox = e :: s.outbox := rfl

/-! setF changes nothing but regs. -/

@[simp] theorem setF_pending (f : Fld) (v : Nat) (s : State) : (setF f v s).pending = s.pending := rfl
@[simp] theorem setF_mem (f : Fld) (v : Nat) (s : State) : (setF f v s).mem = s.mem := rfl
@[simp] theorem setF_bus (f : Fld) (v : Nat) (s : State) : (setF f v s).bus = s.bus := rfl
@[simp] theorem setF_outbox (f : Fld) (v : Nat) (s : State) : (setF f v s).outbox = s.outbox := rfl
@[simp] theorem setF_freeCount (f : Fld) (v : Nat) (s : State) : (setF f v s).freeCount = s.freeCount := rfl
@[simp] theorem setF_power (f : Fld) (v : Nat) (s : State) : (setF f v s).power = s.power := rfl
@[simp] theorem setF_aon (f : Fld) (v : Nat) (s : State) : (setF f v s).aon = s.aon := rfl
@[simp] theorem setF_wires (f : Fld) (v : Nat) (s : State) : (setF f v s).wires = s.wires := rfl
@[simp] theorem setF_linkA (f : Fld) (v : Nat) (s : State) : (setF f v s).linkA = s.linkA := rfl
@[simp] theorem setF_linkB (f : Fld) (v : Nat) (s : State) : (setF f v s).linkB = s.linkB := rfl
@[simp] theorem setF_evc (f : Fld) (v : Nat) (s : State) : (setF f v s).evc = s.evc := rfl
@[simp] theorem setF_loader (f : Fld) (v : Nat) (s : State) : (setF f v s).loader = s.loader := rfl
@[simp] theorem setF_str (f : Fld) (v : Nat) (s : State) : (setF f v s).str = s.str := rfl
@[simp] theorem setF_time (f : Fld) (v : Nat) (s : State) : (setF f v s).time = s.time := rfl
@[simp] theorem setF_once (f : Fld) (v : Nat) (s : State) : (setF f v s).once = s.once := rfl
@[simp] theorem setF_ink (f : Fld) (v : Nat) (s : State) : (setF f v s).ink = s.ink := rfl
@[simp] theorem setF_ticks (f : Fld) (v : Nat) (s : State) : (setF f v s).ticks = s.ticks := rfl
@[simp] theorem setF_swc (f : Fld) (v : Nat) (s : State) : (setF f v s).swc = s.swc := rfl
@[simp] theorem setF_fwt (f : Fld) (v : Nat) (s : State) : (setF f v s).fwt = s.fwt := rfl
@[simp] theorem setF_trn (f : Fld) (v : Nat) (s : State) : (setF f v s).trn = s.trn := rfl
@[simp] theorem setF_old (f : Fld) (v : Nat) (s : State) : (setF f v s).old = s.old := rfl
@[simp] theorem setF_can (f : Fld) (v : Nat) (s : State) : (setF f v s).can = s.can := rfl
@[simp] theorem setF_wks (f : Fld) (v : Nat) (s : State) : (setF f v s).wks = s.wks := rfl
@[simp] theorem setF_ser (f : Fld) (v : Nat) (s : State) : (setF f v s).ser = s.ser := rfl
@[simp] theorem setF_eth (f : Fld) (v : Nat) (s : State) : (setF f v s).eth = s.eth := rfl
@[simp] theorem setF_brg (f : Fld) (v : Nat) (s : State) : (setF f v s).brg = s.brg := rfl
@[simp] theorem setF_hie (f : Fld) (v : Nat) (s : State) : (setF f v s).hie = s.hie := rfl
@[simp] theorem setF_cab (f : Fld) (v : Nat) (s : State) : (setF f v s).cab = s.cab := rfl
@[simp] theorem setF_fuse (f : Fld) (v : Nat) (s : State) : (setF f v s).fuse = s.fuse := rfl
@[simp] theorem setF_store (f : Fld) (v : Nat) (s : State) : (setF f v s).store = s.store := rfl
@[simp] theorem setF_wear (f : Fld) (v : Nat) (s : State) : (setF f v s).wear = s.wear := rfl
@[simp] theorem setF_keys (f : Fld) (v : Nat) (s : State) : (setF f v s).keys = s.keys := rfl
@[simp] theorem setF_ckv (f : Fld) (v : Nat) (s : State) : (setF f v s).ckv = s.ckv := rfl
@[simp] theorem setF_pke (f : Fld) (v : Nat) (s : State) : (setF f v s).pke = s.pke := rfl
@[simp] theorem setF_dig (f : Fld) (v : Nat) (s : State) : (setF f v s).dig = s.dig := rfl
@[simp] theorem setF_drg (f : Fld) (v : Nat) (s : State) : (setF f v s).drg = s.drg := rfl

/-! withBus changes nothing but bus. -/

@[simp] theorem withBus_pending (c : Completion) (s : State) : (withBus c s).pending = s.pending := rfl
@[simp] theorem withBus_regs (c : Completion) (s : State) : (withBus c s).regs = s.regs := rfl
@[simp] theorem withBus_mem (c : Completion) (s : State) : (withBus c s).mem = s.mem := rfl
@[simp] theorem withBus_outbox (c : Completion) (s : State) : (withBus c s).outbox = s.outbox := rfl
@[simp] theorem withBus_freeCount (c : Completion) (s : State) : (withBus c s).freeCount = s.freeCount := rfl
@[simp] theorem withBus_power (c : Completion) (s : State) : (withBus c s).power = s.power := rfl
@[simp] theorem withBus_aon (c : Completion) (s : State) : (withBus c s).aon = s.aon := rfl
@[simp] theorem withBus_wires (c : Completion) (s : State) : (withBus c s).wires = s.wires := rfl
@[simp] theorem withBus_linkA (c : Completion) (s : State) : (withBus c s).linkA = s.linkA := rfl
@[simp] theorem withBus_linkB (c : Completion) (s : State) : (withBus c s).linkB = s.linkB := rfl
@[simp] theorem withBus_evc (c : Completion) (s : State) : (withBus c s).evc = s.evc := rfl
@[simp] theorem withBus_loader (c : Completion) (s : State) : (withBus c s).loader = s.loader := rfl
@[simp] theorem withBus_str (c : Completion) (s : State) : (withBus c s).str = s.str := rfl
@[simp] theorem withBus_time (c : Completion) (s : State) : (withBus c s).time = s.time := rfl
@[simp] theorem withBus_once (c : Completion) (s : State) : (withBus c s).once = s.once := rfl
@[simp] theorem withBus_ink (c : Completion) (s : State) : (withBus c s).ink = s.ink := rfl
@[simp] theorem withBus_ticks (c : Completion) (s : State) : (withBus c s).ticks = s.ticks := rfl
@[simp] theorem withBus_swc (c : Completion) (s : State) : (withBus c s).swc = s.swc := rfl
@[simp] theorem withBus_fwt (c : Completion) (s : State) : (withBus c s).fwt = s.fwt := rfl
@[simp] theorem withBus_trn (c : Completion) (s : State) : (withBus c s).trn = s.trn := rfl
@[simp] theorem withBus_old (c : Completion) (s : State) : (withBus c s).old = s.old := rfl
@[simp] theorem withBus_can (c : Completion) (s : State) : (withBus c s).can = s.can := rfl
@[simp] theorem withBus_wks (c : Completion) (s : State) : (withBus c s).wks = s.wks := rfl
@[simp] theorem withBus_ser (c : Completion) (s : State) : (withBus c s).ser = s.ser := rfl
@[simp] theorem withBus_eth (c : Completion) (s : State) : (withBus c s).eth = s.eth := rfl
@[simp] theorem withBus_brg (c : Completion) (s : State) : (withBus c s).brg = s.brg := rfl
@[simp] theorem withBus_hie (c : Completion) (s : State) : (withBus c s).hie = s.hie := rfl
@[simp] theorem withBus_cab (c : Completion) (s : State) : (withBus c s).cab = s.cab := rfl
@[simp] theorem withBus_fuse (c : Completion) (s : State) : (withBus c s).fuse = s.fuse := rfl
@[simp] theorem withBus_store (c : Completion) (s : State) : (withBus c s).store = s.store := rfl
@[simp] theorem withBus_wear (c : Completion) (s : State) : (withBus c s).wear = s.wear := rfl
@[simp] theorem withBus_keys (c : Completion) (s : State) : (withBus c s).keys = s.keys := rfl
@[simp] theorem withBus_ckv (c : Completion) (s : State) : (withBus c s).ckv = s.ckv := rfl
@[simp] theorem withBus_pke (c : Completion) (s : State) : (withBus c s).pke = s.pke := rfl
@[simp] theorem withBus_dig (c : Completion) (s : State) : (withBus c s).dig = s.dig := rfl
@[simp] theorem withBus_drg (c : Completion) (s : State) : (withBus c s).drg = s.drg := rfl

/-! emit changes nothing but outbox. -/

@[simp] theorem emit_pending (e : Emission) (s : State) : (emit e s).pending = s.pending := rfl
@[simp] theorem emit_regs (e : Emission) (s : State) : (emit e s).regs = s.regs := rfl
@[simp] theorem emit_mem (e : Emission) (s : State) : (emit e s).mem = s.mem := rfl
@[simp] theorem emit_bus (e : Emission) (s : State) : (emit e s).bus = s.bus := rfl
@[simp] theorem emit_freeCount (e : Emission) (s : State) : (emit e s).freeCount = s.freeCount := rfl
@[simp] theorem emit_power (e : Emission) (s : State) : (emit e s).power = s.power := rfl
@[simp] theorem emit_aon (e : Emission) (s : State) : (emit e s).aon = s.aon := rfl
@[simp] theorem emit_wires (e : Emission) (s : State) : (emit e s).wires = s.wires := rfl
@[simp] theorem emit_linkA (e : Emission) (s : State) : (emit e s).linkA = s.linkA := rfl
@[simp] theorem emit_linkB (e : Emission) (s : State) : (emit e s).linkB = s.linkB := rfl
@[simp] theorem emit_evc (e : Emission) (s : State) : (emit e s).evc = s.evc := rfl
@[simp] theorem emit_loader (e : Emission) (s : State) : (emit e s).loader = s.loader := rfl
@[simp] theorem emit_str (e : Emission) (s : State) : (emit e s).str = s.str := rfl
@[simp] theorem emit_time (e : Emission) (s : State) : (emit e s).time = s.time := rfl
@[simp] theorem emit_once (e : Emission) (s : State) : (emit e s).once = s.once := rfl
@[simp] theorem emit_ink (e : Emission) (s : State) : (emit e s).ink = s.ink := rfl
@[simp] theorem emit_ticks (e : Emission) (s : State) : (emit e s).ticks = s.ticks := rfl
@[simp] theorem emit_swc (e : Emission) (s : State) : (emit e s).swc = s.swc := rfl
@[simp] theorem emit_fwt (e : Emission) (s : State) : (emit e s).fwt = s.fwt := rfl
@[simp] theorem emit_trn (e : Emission) (s : State) : (emit e s).trn = s.trn := rfl
@[simp] theorem emit_old (e : Emission) (s : State) : (emit e s).old = s.old := rfl
@[simp] theorem emit_can (e : Emission) (s : State) : (emit e s).can = s.can := rfl
@[simp] theorem emit_wks (e : Emission) (s : State) : (emit e s).wks = s.wks := rfl
@[simp] theorem emit_ser (e : Emission) (s : State) : (emit e s).ser = s.ser := rfl
@[simp] theorem emit_eth (e : Emission) (s : State) : (emit e s).eth = s.eth := rfl
@[simp] theorem emit_brg (e : Emission) (s : State) : (emit e s).brg = s.brg := rfl
@[simp] theorem emit_hie (e : Emission) (s : State) : (emit e s).hie = s.hie := rfl
@[simp] theorem emit_cab (e : Emission) (s : State) : (emit e s).cab = s.cab := rfl
@[simp] theorem emit_fuse (e : Emission) (s : State) : (emit e s).fuse = s.fuse := rfl
@[simp] theorem emit_store (e : Emission) (s : State) : (emit e s).store = s.store := rfl
@[simp] theorem emit_wear (e : Emission) (s : State) : (emit e s).wear = s.wear := rfl
@[simp] theorem emit_keys (e : Emission) (s : State) : (emit e s).keys = s.keys := rfl
@[simp] theorem emit_ckv (e : Emission) (s : State) : (emit e s).ckv = s.ckv := rfl
@[simp] theorem emit_pke (e : Emission) (s : State) : (emit e s).pke = s.pke := rfl
@[simp] theorem emit_dig (e : Emission) (s : State) : (emit e s).dig = s.dig := rfl
@[simp] theorem emit_drg (e : Emission) (s : State) : (emit e s).drg = s.drg := rfl

/-! wr8 changes nothing but mem. -/

@[simp] theorem wr8_pending (a : Nat) (b : Byte) (s : State) : (wr8 a b s).pending = s.pending := rfl
@[simp] theorem wr8_regs (a : Nat) (b : Byte) (s : State) : (wr8 a b s).regs = s.regs := rfl
@[simp] theorem wr8_bus (a : Nat) (b : Byte) (s : State) : (wr8 a b s).bus = s.bus := rfl
@[simp] theorem wr8_outbox (a : Nat) (b : Byte) (s : State) : (wr8 a b s).outbox = s.outbox := rfl
@[simp] theorem wr8_freeCount (a : Nat) (b : Byte) (s : State) : (wr8 a b s).freeCount = s.freeCount := rfl
@[simp] theorem wr8_power (a : Nat) (b : Byte) (s : State) : (wr8 a b s).power = s.power := rfl
@[simp] theorem wr8_aon (a : Nat) (b : Byte) (s : State) : (wr8 a b s).aon = s.aon := rfl
@[simp] theorem wr8_wires (a : Nat) (b : Byte) (s : State) : (wr8 a b s).wires = s.wires := rfl
@[simp] theorem wr8_linkA (a : Nat) (b : Byte) (s : State) : (wr8 a b s).linkA = s.linkA := rfl
@[simp] theorem wr8_linkB (a : Nat) (b : Byte) (s : State) : (wr8 a b s).linkB = s.linkB := rfl
@[simp] theorem wr8_evc (a : Nat) (b : Byte) (s : State) : (wr8 a b s).evc = s.evc := rfl
@[simp] theorem wr8_loader (a : Nat) (b : Byte) (s : State) : (wr8 a b s).loader = s.loader := rfl
@[simp] theorem wr8_str (a : Nat) (b : Byte) (s : State) : (wr8 a b s).str = s.str := rfl
@[simp] theorem wr8_time (a : Nat) (b : Byte) (s : State) : (wr8 a b s).time = s.time := rfl
@[simp] theorem wr8_once (a : Nat) (b : Byte) (s : State) : (wr8 a b s).once = s.once := rfl
@[simp] theorem wr8_ink (a : Nat) (b : Byte) (s : State) : (wr8 a b s).ink = s.ink := rfl
@[simp] theorem wr8_ticks (a : Nat) (b : Byte) (s : State) : (wr8 a b s).ticks = s.ticks := rfl
@[simp] theorem wr8_swc (a : Nat) (b : Byte) (s : State) : (wr8 a b s).swc = s.swc := rfl
@[simp] theorem wr8_fwt (a : Nat) (b : Byte) (s : State) : (wr8 a b s).fwt = s.fwt := rfl
@[simp] theorem wr8_trn (a : Nat) (b : Byte) (s : State) : (wr8 a b s).trn = s.trn := rfl
@[simp] theorem wr8_old (a : Nat) (b : Byte) (s : State) : (wr8 a b s).old = s.old := rfl
@[simp] theorem wr8_can (a : Nat) (b : Byte) (s : State) : (wr8 a b s).can = s.can := rfl
@[simp] theorem wr8_wks (a : Nat) (b : Byte) (s : State) : (wr8 a b s).wks = s.wks := rfl
@[simp] theorem wr8_ser (a : Nat) (b : Byte) (s : State) : (wr8 a b s).ser = s.ser := rfl
@[simp] theorem wr8_eth (a : Nat) (b : Byte) (s : State) : (wr8 a b s).eth = s.eth := rfl
@[simp] theorem wr8_brg (a : Nat) (b : Byte) (s : State) : (wr8 a b s).brg = s.brg := rfl
@[simp] theorem wr8_hie (a : Nat) (b : Byte) (s : State) : (wr8 a b s).hie = s.hie := rfl
@[simp] theorem wr8_cab (a : Nat) (b : Byte) (s : State) : (wr8 a b s).cab = s.cab := rfl
@[simp] theorem wr8_fuse (a : Nat) (b : Byte) (s : State) : (wr8 a b s).fuse = s.fuse := rfl
@[simp] theorem wr8_store (a : Nat) (b : Byte) (s : State) : (wr8 a b s).store = s.store := rfl
@[simp] theorem wr8_wear (a : Nat) (b : Byte) (s : State) : (wr8 a b s).wear = s.wear := rfl
@[simp] theorem wr8_keys (a : Nat) (b : Byte) (s : State) : (wr8 a b s).keys = s.keys := rfl
@[simp] theorem wr8_ckv (a : Nat) (b : Byte) (s : State) : (wr8 a b s).ckv = s.ckv := rfl
@[simp] theorem wr8_pke (a : Nat) (b : Byte) (s : State) : (wr8 a b s).pke = s.pke := rfl
@[simp] theorem wr8_dig (a : Nat) (b : Byte) (s : State) : (wr8 a b s).dig = s.dig := rfl
@[simp] theorem wr8_drg (a : Nat) (b : Byte) (s : State) : (wr8 a b s).drg = s.drg := rfl

end Sys2Proof.Machine
end

