-- ==== Sys2Proof/Laws/Regs.lean ====
section
/-! SUPPORT. Sparse tables and register fields: what is put is got, every other key is left alone, and the canonical form is kept. -/

namespace Sys2Proof.Machine

/-! Tables. -/

theorem tabGet_tabDrop_self {α : Type} (d : α) (t : List (Nat × α)) (k : Nat) : tabGet d (tabDrop t k) k = d := by
  induction t with
  | nil => rfl
  | cons e r ih =>
    unfold tabDrop at *
    by_cases h : e.1 = k
    · simp [h, ih]
    · simp [h, tabGet, ih]

theorem tabGet_tabDrop_ne {α : Type} (d : α) (t : List (Nat × α)) {k j : Nat} (h : j ≠ k) : tabGet d (tabDrop t k) j = tabGet d t j := by
  induction t with
  | nil => rfl
  | cons e r ih =>
    unfold tabDrop at *
    by_cases h1 : e.1 = k
    · have h2 : k ≠ j := fun h3 => h h3.symm
      simp [h1, tabGet, ih, h2]
    · simp [h1, tabGet, ih]

theorem tabGet_tabIns_self {α : Type} (d v : α) (t : List (Nat × α)) (k : Nat) (h : ∀ e ∈ t, e.1 ≠ k) : tabGet d (tabIns k v t) k = v := by
  induction t with
  | nil => simp [tabIns, tabGet]
  | cons e r ih =>
    have he := h e (by simp)
    have hr := ih fun x hx => h x (by simp [hx])
    by_cases h1 : k < e.1 <;> simp [tabIns, tabGet, h1, he, hr]

theorem tabGet_tabIns_ne {α : Type} (d v : α) (t : List (Nat × α)) {k j : Nat} (h : j ≠ k) : tabGet d (tabIns k v t) j = tabGet d t j := by
  induction t with
  | nil => simp [tabIns, tabGet, h.symm]
  | cons e r ih => by_cases h1 : k < e.1 <;> simp [tabIns, tabGet, h1, ih, h.symm]

theorem tabGet_tabPut_self {α : Type} [DecidableEq α] (d : α) (t : List (Nat × α)) (k : Nat) (v : α) : tabGet d (tabPut d t k v) k = v := by
  unfold tabPut
  split
  · next h => rw [tabGet_tabDrop_self, h]
  · exact tabGet_tabIns_self d v _ k (by simp [tabDrop])

theorem tabGet_tabPut_ne {α : Type} [DecidableEq α] (d d2 : α) (t : List (Nat × α)) {k j : Nat} (v : α) (h : j ≠ k) :
    tabGet d (tabPut d2 t k v) j = tabGet d t j := by
  unfold tabPut
  split
  · exact tabGet_tabDrop_ne d t h
  · rw [tabGet_tabIns_ne d v _ h, tabGet_tabDrop_ne d t h]

/-! Their order. -/

theorem tabSorted_iff {α : Type} (t : List (Nat × α)) : tabSorted t = true ↔ t.Pairwise fun a b => a.1 < b.1 := by
  induction t with
  | nil => simp [tabSorted]
  | cons a r ih =>
    cases r with
    | nil => simp [tabSorted]
    | cons b q =>
      simp only [tabSorted, Bool.and_eq_true, decide_eq_true_eq, ih]
      constructor
      · rintro ⟨h1, h2⟩
        refine List.pairwise_cons.2 ⟨fun x hx => ?_, h2⟩
        rcases List.mem_cons.1 hx with rfl | hx
        · exact h1
        · exact h1.trans (List.rel_of_pairwise_cons h2 hx)
      · intro h
        exact ⟨List.rel_of_pairwise_cons h (by simp), (List.pairwise_cons.1 h).2⟩

theorem tabSorted_filter {α : Type} (p : Nat × α → Bool) {t : List (Nat × α)} (h : tabSorted t = true) : tabSorted (t.filter p) = true :=
  (tabSorted_iff _).2 (((tabSorted_iff _).1 h).filter p)

/-- What is put in a table is its keys' or the new one. -/
theorem mem_tabIns {α : Type} (k : Nat) (v : α) (t : List (Nat × α)) {x : Nat × α} (hx : x ∈ tabIns k v t) : x = (k, v) ∨ x ∈ t := by
  induction t with
  | nil => simpa [tabIns] using hx
  | cons e r ih =>
    by_cases h1 : k < e.1
    · simpa [tabIns, h1] using hx
    · simp only [tabIns, h1, if_false, List.mem_cons] at hx
      rcases hx with rfl | hx
      · simp
      · rcases ih hx with h2 | h2 <;> simp [h2]

theorem tabSorted_tabIns {α : Type} (k : Nat) (v : α) {t : List (Nat × α)} (h : tabSorted t = true) (hk : ∀ e ∈ t, e.1 ≠ k) :
    tabSorted (tabIns k v t) = true := by
  rw [tabSorted_iff] at *
  induction t with
  | nil => simp [tabIns]
  | cons e r ih =>
    have hp := List.pairwise_cons.1 h
    by_cases h1 : k < e.1
    · simp only [tabIns, h1, if_true]
      refine List.pairwise_cons.2 ⟨fun x hx => ?_, h⟩
      rcases List.mem_cons.1 hx with rfl | hx
      · exact h1
      · exact h1.trans (hp.1 x hx)
    · simp only [tabIns, h1, if_false]
      refine List.pairwise_cons.2 ⟨fun x hx => ?_, ih hp.2 fun y hy => hk y (by simp [hy])⟩
      rcases mem_tabIns _ _ _ hx with rfl | hx
      · exact lt_of_le_of_ne (Nat.le_of_not_lt h1) (hk e (by simp))
      · exact hp.1 x hx

theorem tabSorted_tabPut {α : Type} [DecidableEq α] (d : α) (k : Nat) (v : α) {t : List (Nat × α)} (h : tabSorted t = true) :
    tabSorted (tabPut d t k v) = true := by
  unfold tabPut
  split
  · exact tabSorted_filter _ h
  · exact tabSorted_tabIns k v (tabSorted_filter _ h) (by simp [tabDrop])

/-! Register fields. -/

@[simp] theorem getF_setF_self (f : Fld) (v : Nat) (s : State) : getF f (setF f v s) = v % 2 ^ f.width := by
  simp only [getF, setF, tabGet_tabPut_self, Nat.mod_mod]

theorem getF_setF_ne {f g : Fld} (v : Nat) (s : State) (h : f.key ≠ g.key) : getF f (setF g v s) = getF f s := by
  simp only [getF, setF, tabGet_tabPut_ne _ _ _ _ h]

/-- A field holds no more than its width has room for. -/
theorem getF_lt (f : Fld) (s : State) : getF f s < 2 ^ f.width := Nat.mod_lt _ (by positivity)

@[simp] theorem getF_withBus (f : Fld) (c : Completion) (s : State) : getF f (withBus c s) = getF f s := rfl
@[simp] theorem getF_emit (f : Fld) (e : Emission) (s : State) : getF f (emit e s) = getF f s := rfl
@[simp] theorem getF_wr8 (f : Fld) (a : Nat) (b : Byte) (s : State) : getF f (wr8 a b s) = getF f s := rfl
@[simp] theorem isSet_setF_self (f : Fld) (v : Nat) (s : State) : isSet f (setF f v s) = (v % 2 ^ f.width != 0) := by simp [isSet]
theorem isSet_setF_ne {f g : Fld} (v : Nat) (s : State) (h : f.key ≠ g.key) : isSet f (setF g v s) = isSet f s := by
  simp [isSet, getF_setF_ne v s h]
@[simp] theorem isSet_withBus (f : Fld) (c : Completion) (s : State) : isSet f (withBus c s) = isSet f s := rfl

/-- Setting a field keeps the register table sorted. -/
theorem setF_sorted (f : Fld) (v : Nat) {s : State} (h : tabSorted s.regs = true) : tabSorted (setF f v s).regs = true :=
  tabSorted_tabPut _ _ _ h

/-! Memory. -/

theorem rd8_wr8_self (a : Nat) (b : Byte) (s : State) : rd8 (wr8 a b s) a = b := tabGet_tabPut_self _ _ _ _
theorem rd8_wr8_ne {a c : Nat} (b : Byte) (s : State) (h : c ≠ a) : rd8 (wr8 a b s) c = rd8 s c := tabGet_tabPut_ne _ _ _ _ h
@[simp] theorem rd8_setF (f : Fld) (v : Nat) (s : State) (a : Nat) : rd8 (setF f v s) a = rd8 s a := rfl
@[simp] theorem rd8_withBus (c : Completion) (s : State) (a : Nat) : rd8 (withBus c s) a = rd8 s a := rfl

/-- A write keeps memory canonical. -/
theorem memWf_wr8 (a : Nat) (b : Byte) {s : State} (h : memWf s.mem = true) : memWf (wr8 a b s).mem = true := by
  simp only [memWf, Bool.and_eq_true, List.all_eq_true] at *
  refine ⟨tabSorted_tabPut _ _ _ h.1, fun c hc => ?_⟩
  simp only [wr8, tabPut] at hc
  split at hc
  · exact h.2 c (List.mem_filter.1 hc).1
  · next hb =>
    rcases mem_tabIns _ _ _ hc with rfl | hc
    · simpa using hb
    · exact h.2 c (List.mem_filter.1 hc).1

/-- Dropping cells keeps memory canonical. -/
theorem memWf_filter (p : Host.Cell → Bool) {m : List Host.Cell} (h : memWf m = true) : memWf (m.filter p) = true := by
  simp only [memWf, Bool.and_eq_true, List.all_eq_true] at *
  exact ⟨tabSorted_filter _ h.1, fun c hc => h.2 c (List.mem_filter.1 hc).1⟩

end Sys2Proof.Machine
end

