-- ==== Sys2Proof/Laws/Ops.lean ====
section
/-! SUPPORT. What the shared operations can do, said once each: stores of several bytes, effects applied along a list, raises and mode
changes, the gate in front of a register, and the frames that claims are written in. -/

namespace Sys2Proof.Machine

/-! Conditions and lists. -/

theorem onlyIf_true {c : Bool} (h : c = true) (g : State → State) (s : State) : onlyIf c g s = g s := by simp [onlyIf, h]

theorem onlyIf_false {c : Bool} (h : c = false) (g : State → State) (s : State) : onlyIf c g s = s := by simp [onlyIf, h]

/-- What holds of both branches holds of a conditional effect. -/
theorem onlyIf_of {P : State → Prop} (c : Bool) (g : State → State) {s : State} (h0 : P s) (h1 : P (g s)) : P (onlyIf c g s) := by
  unfold onlyIf; split <;> assumption

/-- What every single effect keeps, effects applied along a list keep. -/
theorem applyAll_of {α : Type} {P : State → Prop} (l : List α) (g : α → State → State) (hg : ∀ x s, P s → P (g x s)) :
    ∀ s : State, P s → P (applyAll l g s) := by
  induction l with
  | nil => exact fun s h => h
  | cons a r ih => exact fun s h => ih _ (hg a s h)

/-! Stores of several bytes. -/

/-- A store changes memory alone. -/
theorem wrBytes_eq (a : Nat) (l : List Byte) (s : State) : wrBytes a l s = { s with mem := (wrBytes a l s).mem } := by
  induction l generalizing a s with
  | nil => rfl
  | cons b r ih => exact (ih (a + 1) (wr8 a b s)).trans (by simp [wrBytes, wr8])

theorem rd8_wrBytes_outside (l : List Byte) : ∀ (a : Nat) (s : State) (c : Nat), (c < a ∨ a + l.length ≤ c) → rd8 (wrBytes a l s) c = rd8 s c := by
  induction l with
  | nil => intro a s c _; rfl
  | cons b r ih =>
    intro a s c h
    simp only [List.length_cons] at h
    rw [wrBytes, ih _ _ _ (by omega), rd8_wr8_ne _ _ (by omega)]

theorem rd8_wrBytes_inside (l : List Byte) : ∀ (a : Nat) (s : State) (i : Nat), i < l.length → rd8 (wrBytes a l s) (a + i) = l.getD i 0 := by
  induction l with
  | nil => intro a s i h; simp at h
  | cons b r ih =>
    intro a s i h
    cases i with
    | zero => rw [wrBytes, rd8_wrBytes_outside _ _ _ _ (by omega)]; simpa using rd8_wr8_self a b s
    | succ n => rw [wrBytes, show a + (n + 1) = a + 1 + n by omega, ih _ _ _ (by simpa using h)]; rfl

theorem memWf_wrBytes (l : List Byte) : ∀ (a : Nat) {s : State}, memWf s.mem = true → memWf (wrBytes a l s).mem = true := by
  induction l with
  | nil => intro a s h; exact h
  | cons b r ih => intro a s h; exact ih _ (memWf_wr8 a b h)

@[simp] theorem length_leBytes (n v : Nat) : (leBytes n v).length = n := by
  induction n generalizing v with
  | zero => rfl
  | succ n ih => simp [leBytes, ih]

@[simp] theorem length_slice (l : List Byte) (off n : Nat) : (slice l off n).length = n := by simp [slice]

/-! Frames: what a state may differ in. -/

theorem RegsBut.refl (l : List Fld) (s : State) : RegsBut l s s := fun _ _ => rfl

theorem RegsBut.trans {l : List Fld} {s t u : State} (h1 : RegsBut l s t) (h2 : RegsBut l t u) : RegsBut l s u :=
  fun f hf => (h2 f hf).trans (h1 f hf)

theorem RegsBut.mono {l m : List Fld} (h : ∀ g ∈ l, g ∈ m) {s t : State} (hs : RegsBut l s t) : RegsBut m s t :=
  fun f hf => hs f fun g hg => hf g (h g hg)

theorem RegsBut.setF {l : List Fld} {f : Fld} (hf : f ∈ l) (v : Nat) {s t : State} (h : RegsBut l s t) : RegsBut l s (Machine.setF f v t) :=
  fun g hg => (getF_setF_ne v t (hg f hf)).trans (h g hg)

/-- States with the same register store agree on every field. -/
theorem RegsBut.of_regs {l : List Fld} {s t u : State} (h : RegsBut l s t) (hu : u.regs = t.regs) : RegsBut l s u := by
  intro f hf; rw [← h f hf]; simp [getF, hu]

theorem SameMem.of_mem {s t : State} (h : t.mem = s.mem) : SameMem s t := fun a => by simp [rd8, h]

/-! Raises (R485 to R489). -/

/-- Everything a raise that takes place can change. -/
theorem raiseNow_frame (e : Nat) (s : State) :
    raiseNow e s = { s with regs := (raiseNow e s).regs, evc := (raiseNow e s).evc } ∧ RegsBut (eventFields e) s (raiseNow e s) := by
  have h : RegsBut (eventFields e) s (incF (EVC_CNT_cnt e) 1 (orF (evPend e) (2 ^ (e % 32)) s)) :=
    ((RegsBut.refl _ s).setF (by simp [eventFields]) _).setF (by simp [eventFields]) _
  constructor
  · unfold raiseNow; split <;> split <;> rfl
  · refine h.of_regs ?_
    unfold raiseNow; split <;> split <;> rfl

/-- Everything a raise can change: nothing while the controller is inactive, what it holds while stopped, else what a raise that takes place
changes. -/
theorem raise_frame (e : Nat) (s : State) :
    raise e s = { s with regs := (raise e s).regs, evc := (raise e s).evc } ∧ RegsBut (eventFields e) s (raise e s) := by
  unfold raise
  split
  · exact ⟨rfl, RegsBut.refl _ s⟩
  · split
    · exact ⟨rfl, (RegsBut.refl _ s).of_regs rfl⟩
    · exact raiseNow_frame e s

@[simp] theorem raise_mem (e : Nat) (s : State) : (raise e s).mem = s.mem := by rw [(raise_frame e s).1]
@[simp] theorem raise_pending (e : Nat) (s : State) : (raise e s).pending = s.pending := by rw [(raise_frame e s).1]
@[simp] theorem raise_bus (e : Nat) (s : State) : (raise e s).bus = s.bus := by rw [(raise_frame e s).1]
@[simp] theorem raise_power (e : Nat) (s : State) : (raise e s).power = s.power := by rw [(raise_frame e s).1]

theorem raise_sorted (e : Nat) {s : State} (h : tabSorted s.regs = true) : tabSorted (raise e s).regs = true := by
  unfold raise
  split
  · exact h
  · split
    · exact h
    · unfold raiseNow; split <;> split <;> exact setF_sorted _ _ (setF_sorted _ _ h)

/-- Everything a raise made at most once in a millisecond can change. -/
theorem raiseOnce_frame (e inst : Nat) (s : State) :
    raiseOnce e inst s = { s with regs := (raiseOnce e inst s).regs, evc := (raiseOnce e inst s).evc, once := (raiseOnce e inst s).once } ∧
      RegsBut (eventFields e) s (raiseOnce e inst s) := by
  unfold raiseOnce
  split
  · exact ⟨rfl, RegsBut.refl _ s⟩
  · have h := raise_frame e { s with once := (e * 64 + inst) :: s.once }
    refine ⟨?_, fun f hf => h.2 f hf⟩
    rw [h.1]

/-! Mode changes (R99 to R101). -/

/-- Everything a mode change can change. -/
theorem setMode_frame (m : Nat) (s : State) :
    setMode m s = { s with regs := (setMode m s).regs, evc := (setMode m s).evc } ∧ RegsBut modeFields s (setMode m s) := by
  have h : RegsBut modeFields s (setF PWR_MODE_mode m (setF PWR_MODE_prev (mode s) s)) :=
    ((RegsBut.refl _ s).setF (by simp [modeFields]) _).setF (by simp [modeFields]) _
  unfold setMode
  dsimp only
  split
  · exact ⟨rfl, RegsBut.refl _ s⟩
  · split
    · have hr := raise_frame 3 (setF PWR_MODE_mode m (setF PWR_MODE_prev (mode s) s))
      refine ⟨by rw [hr.1]; rfl, h.trans (hr.2.mono ?_)⟩
      intro g hg; simp only [modeFields, List.mem_append]; exact .inr hg
    · exact ⟨rfl, h⟩

/-- Everything the choice of the shown mode can change. -/
theorem refreshMode_frame (s : State) :
    refreshMode s = { s with regs := (refreshMode s).regs, evc := (refreshMode s).evc } ∧ RegsBut modeFields s (refreshMode s) := by
  unfold refreshMode
  dsimp only
  split
  · exact setMode_frame _ s
  · exact ⟨rfl, RegsBut.refl _ s⟩

/-! The gate in front of a register (R357, R397, R412). -/

/-- An access that is let through is the register's own. -/
theorem gate_of_admits {rq : Requester} {write : Bool} {a : Nat} {w : Word} {s : State} (h : admits rq write a w s = true) (g : State → State) :
    gate rq write a w g s = g s := by
  unfold gate
  simp only [admits, Bool.or_eq_true, Bool.and_eq_true, Bool.not_eq_true'] at h
  split
  · rfl
  · rename_i hd
    obtain h | ⟨⟨h1, h2⟩, h3⟩ := h
    · simp [h] at hd
    · simp [h1, h2, h3]

/-- An access that is not let through is refused: as a violation, or to a host with a plain bus error. -/
theorem gate_of_refused {rq : Requester} {write : Bool} {a : Nat} {w : Word} {s : State} (h : admits rq write a w s = false) (g : State → State) :
    gate rq write a w g s = violate rq a write s ∨ gate rq write a w g s = busError s := by
  unfold gate
  simp only [admits, Bool.or_eq_false_iff] at h
  split
  · rename_i hd; simp [hd] at h
  · split
    · exact .inl rfl
    · split
      · exact .inl rfl
      · split
        · exact .inr rfl
        · rename_i h1 h2 h3
          simp [h1, h2, h3] at h

/-- Everything a violation can change (R414). -/
theorem violate_frame (rq : Requester) (a : Nat) (write : Bool) (s : State) :
    violate rq a write s = { s with bus := .error, regs := (violate rq a write s).regs, evc := (violate rq a write s).evc,
                                    once := (violate rq a write s).once } ∧ RegsBut refusalFields s (violate rq a write s) := by
  unfold violate violation
  generalize hu : incF WLD_VIOLCNT_cnt 1 _ = u
  have h0 : RegsBut refusalFields s u ∧ u = { s with regs := u.regs } := by
    subst hu
    refine ⟨?_, rfl⟩
    refine RegsBut.setF (by simp [refusalFields]) _ (RegsBut.setF (by simp [refusalFields]) _ (RegsBut.setF (by simp [refusalFields]) _
      (RegsBut.setF (by simp [refusalFields]) _ (RegsBut.setF (by simp [refusalFields]) _ (RegsBut.setF (by simp [refusalFields]) _
      (RegsBut.refl _ s))))))
  have hr := raiseOnce_frame 44 0 u
  constructor
  · rw [hr.1, h0.2]; rfl
  · have h2 : RegsBut refusalFields s (raiseOnce 44 0 u) := h0.1.trans (hr.2.mono fun g hg => by simp only [refusalFields, List.mem_append]; exact .inr hg)
    exact h2.of_regs rfl

/-- What an access that is not let through leaves: the bus error and the violation record, nothing else. -/
theorem gate_refused_frame {rq : Requester} {write : Bool} {a : Nat} {w : Word} {s : State} (h : admits rq write a w s = false) (g : State → State) :
    gate rq write a w g s = { s with bus := .error, regs := (gate rq write a w g s).regs, evc := (gate rq write a w g s).evc,
                                     once := (gate rq write a w g s).once } ∧ RegsBut refusalFields s (gate rq write a w g s) := by
  rcases gate_of_refused h g with e | e
  · rw [e]; exact violate_frame rq a write s
  · rw [e]; exact ⟨rfl, (RegsBut.refl _ s).of_regs rfl⟩

/-! Completion. -/

theorem completes_of_eq {c : Instr} {s t : State} {P : State → Prop} (h : exec c s = .next t) (hp : P t) : Completes c s P := ⟨t, h, hp⟩

theorem Completes.mono {c : Instr} {s : State} {P Q : State → Prop} (h : Completes c s P) (hq : ∀ t, P t → Q t) : Completes c s Q :=
  h.imp fun t ht => ⟨ht.1, hq t ht.2⟩

end Sys2Proof.Machine
end

