-- ==== Sys2Proof/WellFormed.lean ====
section
/-! DEFINITION. The commands that the part's surroundings can give: operands within the numbers the spec gives the part of each thing. -/

namespace Sys2Proof

/-- A core (R412): 0 to 3. -/
def coreOk (c : Nat) : Bool := c < 4

/-- A requester the part has: a core, a host, the debug TAP, the loader, a device of the hierarchy, or a lodger (R198). -/
def reqOk : Requester → Bool
  | .core c _ => coreOk c
  | .remote d _ => d < 64
  | .lodger i => i < 256
  | _ => true

/-- An access width in bytes (R5): 8, 16, 32 or 64 bits. -/
def sizeOk (n : Nat) : Bool := n = 1 || n = 2 || n = 4 || n = 8

/-- The sender's or the target's end of a command of HIE_CMD. -/
def sideOk : HieSide → Bool
  | .command rq _ => reqOk rq
  | .message => true

/-- A rail (R69): the tile banks are 0 to 5. -/
def railNumberOk : Rail → Bool
  | .tbank b => b < 6
  | _ => true

/-- A SerDes lane group: 0 to 2. -/
def laneGroupOk (g : Nat) : Bool := g < 3

/-- A clock source of R83. -/
def sidePllOk : SidePll → Bool
  | .sds g => laneGroupOk g
  | _ => true

/-- A tile: 0 to 47. -/
def tileOk (n : Nat) : Bool := n < 48

/-- A port of the switch core: 0 to 19. -/
def portOk (p : Nat) : Bool := p < 20

/-- A Hostel page: 0 to 49,151. -/
def pageOk (p : Nat) : Bool := p < 49152

/-- A page request of a requester of R181. -/
def pageReqOk (r : PageReq) : Bool := r.idx ≤ 20 && r.tc < 8 && r.src < 50

/-- A lease record a command names (R198), and the loader's own above them. -/
def leaseOk (n : Nat) : Bool := n < 1032

/-- A lodger: 0 to 255. -/
def lodgerOk (lid : Nat) : Bool := lid < 256

/-- A unit of the wake registers: tiles 0 to 47, then ports (R343). -/
def unitOk (u : Nat) : Bool := u < 64

/-- A CPU ring: 0 to 31. -/
def ringOk (r : Nat) : Bool := r < 32

/-- A key slot: 0 to 63 (R408). -/
def slotOk (k : Nat) : Bool := k < 64

/-- An operand slot of the public-key engine. -/
def operandSlotOk (k : Nat) : Bool := k < 64

/-- A lane of the check-value engine. -/
def engineLaneOk (l : Nat) : Bool := l < 8

/-- A motor channel: 0 to 3. -/
def motorOk (m : Nat) : Bool := m < 4

/-- A lamp channel: 0 to 23. -/
def lampOk (n : Nat) : Bool := n < 24

/-- A lamp group: 0 to 3. -/
def lampGroupOk (g : Nat) : Bool := g < 4

/-- A converter input: 0 to 31. -/
def adcOk (i : Nat) : Bool := i < 32

/-- A 12-bit conversion. -/
def codeOk (c : Nat) : Bool := c < 4096

/-- An event, or an MSI-X vector: 0 to 63. -/
def eventOk (e : Nat) : Bool := e < 64

/-- A fetch buffer (R365): 0 to 15. -/
def bufferOk (b : Nat) : Bool := b < 16

/-- A CAN frame a bus can carry: identifier of 11 or 29 bits, at most 8, 64 or 2048 bytes of data by format (R288). -/
def canFrameOk (f : CanFrame) : Bool :=
  f.id < (if f.ide then 2 ^ 29 else 2 ^ 11) && f.data.length ≤ (if f.fmt = 0 then 8 else if f.fmt = 1 then 64 else 2048)

/-- A command the surroundings can give. -/
def Instr.wellFormed : Instr → Bool
  | .powerOnResetRelease role boot _ => role < 4 && boot < 4
  | .powerOnResetAssert rail _ => railNumberOk rail
  | .aonDomainPowerUp _ => true
  | .aonSupplyLoss => true
  | .xinAmplitudeGood => true
  | .xinStable => true
  | .rootPllLock _ => true
  | .rootPllLockLoss => true
  | .clockFault => true
  | .pllLockLossOther p => sidePllOk p
  | .railWarnCrossing r => railNumberOk r
  | .railFailCrossing r => railNumberOk r
  | .railValid r _ => railNumberOk r
  | .pcieRefStable => true
  | .pfailFall => true
  | .pfailRestoreExpiry => true
  | .resetNAssert => true
  | .resetNRelease => true
  | .fullResetEnd => true
  | .systemSoftwareReset rq key => reqOk rq && key < 65536
  | .normalWorldResetCmd rq key => reqOk rq && key < 65536
  | .secureWorldResetCmd rq key => reqOk rq && key < 65536
  | .normalWatchdogKick rq key => reqOk rq && key < 65536
  | .normalWatchdogEnable rq _ => reqOk rq
  | .normalWatchdogExpiry => true
  | .secureWatchdogKick rq key => reqOk rq && key < 65536
  | .secureWatchdogExpiry => true
  | .loadingEntry => true
  | .bootQuarantine => true
  | .imageHeaderCheck _ => true
  | .imageVerify _ => true
  | .build _ => true
  | .cutOver => true
  | .tileStart n => tileOk n
  | .canIntegrationDone n => tileOk n
  | .allowanceRampTick => true
  | .joinSend => true
  | .imagePieceReceive => true
  | .imageRerequestTimeout => true
  | .imageBlockRequest _ => true
  | .wireInChange n _ => n < 4
  | .wireDebounceExpiry n => n < 4
  | .wireRecordIssue => true
  | .carlinkHuntSync _ bit => bit < 2000
  | .carlinkCandidateFrame _ bit _ => bit < 2000
  | .carlinkFrameReceive _ _ => true
  | .relockSync _ _ _ => true
  | .relockTimeout _ => true
  | .carlinkFrameSend _ _ => true
  | .rephaseStart _ => true
  | .lnkMsgtxGo rq _ _ => reqOk rq
  | .standbyRequest rq _ => reqOk rq
  | .standbyEntryComplete => true
  | .standbyCoreWaitTimeout => true
  | .standbyExit _ => true
  | .pwrReadyWrite rq _ => reqOk rq
  | .aonWriteTransit => true
  | .rtcSecond => true
  | .aonRtcset rq _ => reqOk rq
  | .wakePinFire n => n < 2
  | .tamperFire => true
  | .tamperLatchClear rq => reqOk rq
  | .vbatMeasure _ => true
  | .pwrReqHoldExpiry => true
  | .pwrReqRelease rq => reqOk rq
  | .pwrReqSwWrite rq _ => reqOk rq
  | .aonLogack rq => reqOk rq
  | .deltaOpen rq => reqOk rq
  | .deltaDelivery rq _ => reqOk rq
  | .deltaDeliveryDone _ => true
  | .deltaClose rq => reqOk rq
  | .deltaAbort rq => reqOk rq
  | .deltaPrepareDone => true
  | .deltaLockAcquired => true
  | .tileQuiet n => tileOk n
  | .deltaCutOver => true
  | .deltaDrainEnd => true
  | .pageRequest reqs => reqs.all pageReqOk
  | .pageFree p => pageOk p
  | .inkPgreq rq _ => reqOk rq
  | .inkPgfree rq n => reqOk rq && leaseOk n
  | .swcLockTake rq => reqOk rq
  | .fwtLockTake rq => reqOk rq
  | .pkeLockTake rq => reqOk rq
  | .leaseRenew rq n => reqOk rq && leaseOk n
  | .leaseRelease rq n => reqOk rq && leaseOk n
  | .leaseExpiry n => leaseOk n
  | .inkRevoke rq _ => reqOk rq
  | .reclaimDone => true
  | .lodgerPeriodStart lid => lodgerOk lid
  | .itemRelease lid _ => lodgerOk lid
  | .itemDispatch => true
  | .itemComplete lid => lodgerOk lid
  | .deadlineMiss lid => lodgerOk lid
  | .pageInDone lid _ => lodgerOk lid
  | .pagingMsCheck => true
  | .frameIngress p _ _ => portOk p
  | .authenticate _ => true
  | .frameStored p => portOk p
  | .cutThroughEnd p _ => portOk p
  | .egressSelection p => portOk p
  | .transmitDone p => portOk p
  | .gateEntryChange p => portOk p
  | .gateConfigChange p => portOk p
  | .gateHoldDiscard p c => portOk p && c < 8
  | .policerCreditTick => true
  | .streamResetTimeout sh => sh < 1024
  | .swcSnap rq _ => reqOk rq
  | .receiveRingWrite r => ringOk r
  | .ringInterrupt r => ringOk r
  | .transmitSlotProcess r => ringOk r
  | .pageWindowAccess rq a size _ => reqOk rq && a < 2 ^ 32 && [1, 2, 4, 8].contains size
  | .learnApply => true
  | .ageingScan => true
  | .migrateStart rq _ => reqOk rq
  | .migrateDone => true
  | .migrateCancel rq _ => reqOk rq
  | .bankClearDone => true
  | .porterGo rq _ => reqOk rq
  | .porterOperation => true
  | .overlayDrainDone => true
  | .caravanSend => true
  | .caravanMerge => true
  | .redistributionInstall => true
  | .fullRefresh => true
  | .sourceTimeout lid _ => lodgerOk lid
  | .frameItem lid => lodgerOk lid
  | .cyclicRelease lid _ => lodgerOk lid
  | .deferredSend lid _ => lodgerOk lid
  | .trnSigsel rq _ => reqOk rq
  | .canFrameValid n f _ => tileOk n && canFrameOk f
  | .canHandoff n => tileOk n
  | .canXlFrameReceive n f _ _ => tileOk n && canFrameOk f
  | .canFrameError n _ _ _ => tileOk n
  | .canBodelayExpiry n => tileOk n
  | .canRecoveryDone n => tileOk n
  | .canCtlStart rq n => reqOk rq && tileOk n
  | .canCtlStop rq n => reqOk rq && tileOk n
  | .canCtlRecover rq n => reqOk rq && tileOk n
  | .canArbitrationChoice n => tileOk n
  | .canTxEnd n _ _ => tileOk n
  | .canSwitchBufferLoad n => tileOk n
  | .canTxreq rq n _ => reqOk rq && tileOk n
  | .canTxcan rq n _ => reqOk rq && tileOk n
  | .canRxBufferRead rq n o => reqOk rq && tileOk n && o < 0x2000
  | .canRxrel rq n buf => reqOk rq && tileOk n && buf < 64
  | .canPriorel rq n _ => reqOk rq && tileOk n
  | .linSlotStart n => tileOk n
  | .linHeaderReceive n _ _ => tileOk n
  | .linResponseEnd n _ _ _ _ => tileOk n
  | .linSchedWrite rq n _ => reqOk rq && tileOk n
  | .linPubWrite rq n i k _ => reqOk rq && tileOk n && i < 64 && k < 2
  | .serialTxDequeue n => tileOk n
  | .uartTxStart n => tileOk n
  | .uartFrameEnd n _ _ => tileOk n
  | .hdlcFrameReceive n _ => tileOk n
  | .uartSwtxGo rq n _ => reqOk rq && tileOk n
  | .gpioInputChange n _ => tileOk n
  | .serCtlStop rq n => reqOk rq && tileOk n
  | .serCtlStart rq n => reqOk rq && tileOk n
  | .ethLinkUp p _ _ _ => portOk p
  | .ethLinkDown p => portOk p
  | .macFrameReceive p _ _ _ _ => portOk p
  | .mdioCommand rq p _ => reqOk rq && portOk p
  | .mdioDone _ => true
  | .ethTxtsRead rq p => reqOk rq && portOk p
  | .plcaBeaconReceive p => portOk p
  | .plcaInactive p => portOk p
  | .t1sCollision p => portOk p
  | .syncReceive p => portOk p
  | .syncTimeout => true
  | .tsySet rq => reqOk rq
  | .tsyStep rq => reqOk rq
  | .tsyFadjWrite rq _ => reqOk rq
  | .latchingPairRead rq a n => reqOk rq && a < 2 ^ 32 && sizeOk n
  | .unitSleepRequest rq _ _ => reqOk rq
  | .unitAsleep u => unitOk u
  | .unitWakeRequest rq _ _ => reqOk rq
  | .wakeUpFrame n f _ => tileOk n && canFrameOk f
  | .wakeDominant n _ => tileOk n
  | .wakeFrameErrors n => tileOk n
  | .wakePortEnergy p _ => portOk p
  | .wakeWireOrPin _ i => i < 4
  | .serdesPllRestartLock g => laneGroupOk g
  | .validationWindowClose u => unitOk u
  | .wksValid rq _ _ => reqOk rq
  | .wksLogack rq _ => reqOk rq
  | .linGoToSleepReceive n => tileOk n
  | .linIdleSleep n => tileOk n
  | .linWakePulseTimeout n => tileOk n
  | .pcieRead _ _ bes => bes.length ≤ 32 && bes.all (· < 16)
  | .pcieWrite _ _ ws => ws.length ≤ 32 && ws.all (·.2 < 16)
  | .qspiTransaction cmd a len _ => cmd < 256 && a < 2 ^ 32 && len < 256
  | .qspiStatus => true
  | .msixRequest => true
  | .msixPendingSend v => eventOk v
  | .farReadAccess rq _ n => reqOk rq && 1 ≤ n && n ≤ 64
  | .farReadAnswer => true
  | .farFetchTimeout b => bufferOk b
  | .farResultExpiry b => bufferOk b
  | .farWrite rq _ ws => reqOk rq && 1 ≤ ws.length && ws.length ≤ 64
  | .farWriteAck => true
  | .farWriteTimeout tag => tag < 65536
  | .farRequestServe => true
  | .eventMessageSend => true
  | .eventPacingFlush => true
  | .remoteEventReceive => true
  | .brgRev0Read rq => reqOk rq
  | .ploilhanReceive _ => true
  | .join => true
  | .joinAnswer => true
  | .heartbeatSend => true
  | .heartbeatReceive => true
  | .workerLost d => 1 ≤ d && d ≤ 63
  | .managerLost => true
  | .takeover => true
  | .takeoverReceive => true
  | .probeEnd => true
  | .positionChangeRejoin => true
  | .imageBlockDeltaOpen => true
  | .imageBlockDeltaChunk => true
  | .imageBlockDeltaClose => true
  | .imageBlockDeltaAbort => true
  | .imageBlockStatus => true
  | .wearReportRequest rq _ => reqOk rq
  | .wearReportSend => true
  | .remoteFullReset side => sideOk side
  | .remoteNormalReset side => sideOk side
  | .remoteRevoke side => sideOk side
  | .lifecycleArm rq key _ => reqOk rq && key < 65536
  | .lifecycleCommit rq key _ => reqOk rq && key < 65536
  | .lifecycleBurnDone => true
  | .imageKeyProgram rq key _ => reqOk rq && key < 65536
  | .imageKeyRevoke rq key _ => reqOk rq && key < 65536
  | .floorSet rq _ => reqOk rq
  | .nodeCreate rq key _ => reqOk rq && key < 65536
  | .nodeInvalidate rq key _ => reqOk rq && key < 65536
  | .nodeFree rq key _ => reqOk rq && key < 65536
  | .slotWipe k => slotOk k
  | .wrap rq _ => reqOk rq
  | .wrapDone => true
  | .shelfWrite rq key _ => reqOk rq && key < 65536
  | .shelfErase rq key _ => reqOk rq && key < 65536
  | .keyLoad rq _ => reqOk rq
  | .keyLoadDone => true
  | .wldLock rq _ => reqOk rq
  | .secureCall core => coreOk core
  | .debugAccess _ a _ n => a < 2 ^ 32 && sizeOk n
  | .ckvRingTail rq ns _ => reqOk rq && ns < 2
  | .ckvDispatch l => engineLaneOk l
  | .ckvJobDone l _ => engineLaneOk l
  | .pkeJobGo rq _ => reqOk rq
  | .pkeJobEnd _ _ => true
  | .pkeSlenWrite rq k _ => reqOk rq && operandSlotOk k
  | .pkeOpdataAccess rq _ => reqOk rq
  | .digestGo rq ns _ => reqOk rq && ns < 2
  | .digestDone ns => ns < 2
  | .drgDataRead rq => reqOk rq
  | .drbgReseed rq => rq.all reqOk
  | .entropyHealthFail _ => true
  | .adcConversion i code => adcOk i && codeOk code
  | .pwmTrigger m icode vcode _ => motorOk m && codeOk icode && codeOk vcode
  | .motorRun rq m _ => reqOk rq && motorOk m
  | .motorStop rq m => reqOk rq && motorOk m
  | .motorCoast rq m => reqOk rq && motorOk m
  | .motorClear rq m => reqOk rq && motorOk m
  | .motorObservationEnd m _ _ _ => motorOk m
  | .motorMeasurementEnd m _ _ _ => motorOk m
  | .motorPositionEvent m code ns => motorOk m && code < 8 && ns < 2
  | .motorPwmPeriod m => motorOk m
  | .motorAlignEnd m => motorOk m
  | .motorHandoverTimeout m => motorOk m
  | .motorStallTimeout m => motorOk m
  | .motorWaitLimit m => motorOk m
  | .motorHallInvalid m code => motorOk m && code < 8
  | .motorFltInput m => motorOk m
  | .motorTest rq m _ => reqOk rq && motorOk m
  | .lampCommand rq n _ => reqOk rq && lampOk n
  | .lampTokenGrant g => lampGroupOk g
  | .lampInrushEnd n _ => lampOk n
  | .lampHardShort n => lampOk n
  | .lampOvercurrent n => lampOk n
  | .lampGroupLimit g => lampGroupOk g
  | .lampDisturbanceEnd g => lampGroupOk g
  | .lampCoolDownEnd n => lampOk n
  | .lampBlinkPhase n => lampOk n
  | .lampOpenDetect n _ => lampOk n
  | .lampTriesReset n => lampOk n
  | .lampTest rq _ => reqOk rq
  | .ledgerSecond => true
  | .temperatureMeasure _ => true
  | .ringOscillatorMeasure _ => true
  | .ledgerSave => true
  | .ledgerSaveDone => true
  | .monthlySample => true
  | .werReset rq _ => reqOk rq
  | .werSel rq _ => reqOk rq
  | .evcRouteWrite rq e _ => reqOk rq && eventOk e
  | .evcSoft rq _ => reqOk rq
  | .w1cWrite rq a _ n => reqOk rq && a < 2 ^ 32 && sizeOk n
  | .rcRead rq a n => reqOk rq && a < 2 ^ 32 && sizeOk n
  | .registerWrite rq a _ n => reqOk rq && a < 2 ^ 32 && sizeOk n
  | .suppliesValid => true
  | .pfailRise => true
  | .wakePinRearm n => n < 2
  | .tamperRearm => true
  | .serdesPllRelock g => laneGroupOk g
  | .pcieLinkChange _ gen width => gen ≤ 2 && width ≤ 2
  | .transmitOpportunity p => portOk p
  | .serialTxEnd n _ => tileOk n
  | .boundaryScanInstruction _ => true

end Sys2Proof
end

