-- ==== Sys2Proof/Tests/Slice0.lean ====
section
/-! SUPPORT. The model's own tests, one step or one operation each, and for every statement with hypotheses a theorem that shows a state and
operands which meet them. -/

namespace Sys2Proof.Tests

set_option linter.unusedVariables false
set_option Elab.async false

open Sys2Proof Sys2Proof.Machine

/-! States the tests start from. -/

def reset : State := State.reset
def porState : State := setF PWR_MODE_mode mBackup { reset with power := { reset.power with por := true } }
def offState : State := setF PWR_MODE_mode mOff { reset with power := { reset.power with por := true, supplies := false } }
def backupState : State := setF PWR_MODE_mode mBackup { reset with power := { reset.power with por := true, supplies := false }, aon := { reset.aon with onVbat := true } }
def serviceState : State := setF PWR_MODE_base mService (setF PWR_MODE_mode mService (setB EVC_CTL_act true reset))
def partialState : State := setF PWR_MODE_base mPartial (setF PWR_MODE_mode mPartial (setB EVC_CTL_act true { reset with power := { reset.power with tick := true } }))
def bootState : State := setB SYS_RAILOK_aux true (setB SYS_RAILOK_io1 true (setB CKR_STATUS_rootlock true reset))
def loadState : State := setF PWR_MODE_mode mLoading bootState
def sessionState : State := setF IMG_DLTSTAT_state 1 { serviceState with loader := { owner := 0x3, lease := 0 }, ink := { reset.ink with leases := [(0, { state := .held, kind := 6, owner := 0x3, dur := some 100, left := some 7 })] } }
def cpuParts : State := setF INK_POOLFREE_free 100 { serviceState with str := { parts := [⟨16, 255, 4, 100⟩] } }
def chainState : State := { serviceState with ink := { reset.ink with refs := [(9, 1)], leases := [(5, { state := .held, kind := 1, res := 9, owner := 0x103, dur := some 100, left := some 7 })] } }
def richStr : Structure := {
  tiles := [⟨0,1,2,0,[0,1],33,0,2⟩, ⟨1,2,2,0,[0,1],63,1,3⟩, ⟨2,3,2,0,[0],33,0,0⟩, ⟨3,4,2,0,[0],33,0,0⟩, ⟨4,5,2,0,[0],33,0,0⟩, ⟨5,6,2,0,[0],33,0,0⟩, ⟨6,7,2,0,[0],33,0,0⟩]
  binds := [⟨0,0,1,0,0⟩, ⟨4,1,2,0,0⟩, ⟨6,1,4,0,0⟩, ⟨12,0,5,1,4⟩]
  lodgers := [⟨32,0,1000,100,500,[],0,4,[],0⟩, ⟨33,0,2000,100,500,[],4,4,[],0⟩]
  cabinet := [.motor 0 2 0 0 0 20000 1000 3000 100 200 300 0, .group 0 2000, .lamp 1 0 3 500 1000 50 100 4000]
  parts := [⟨0,255,10,100⟩] }
def rich (s : State) : State :=
  let t := { s with str := richStr, ink := { s.ink with lodgers := [(32, {present := true, resident := true}), (33, {present := true})] } }
  [(0,1),(1,2),(2,3),(3,4),(4,5),(5,6),(6,7)].foldl (fun t x => setF (FAB_FUNC_fn 0 x.1) x.2 t) t
def queuedState : State := { rich serviceState with ink := { reset.ink with lodgers := [(32, { present := true, resident := true, left := 50, queue := [{ work := .timeout 1, due := 9 }] })] } }
def goodFrame : LinkFrame := mkFrame (2 ^ 22 + 5 * 2 ^ 16 + 9 * 2 ^ 8) (mkSlots 0 0) 0 (mkOrigins [63, 63, 63, 63] ++ emptyArea) false
def egressState : State := setB (ETH_STAT_link 0) true { rich serviceState with swc := { queues := [(queueKey 0 63 5, [{ wb := { src := 4, len := 64 } }])] } }
def t1sState : State := setB (T1S_STAT_active 0) true (setB SYS_RAILOK_t1s true { rich serviceState with swc := { sending := [(12, { wb := { src := 4 } })] } })
def ringState : State := setF (SWC_RBASE_addr 17) secRamBase (setF (SWC_RCFG_size 17) 4 (setB (SWC_RCFG_en 17) true { serviceState with swc := { queues := [(queueKey 16 17 0, [{ wb := { src := 17, inline := true, len := 8 } }])] } }))
def hieState : State := setB HIE_CFG_en true (setB HIE_STAT_adm true serviceState)
def sigState : State := { rich serviceState with fwt := { tmem := [(32, 1), (38, 100)] } }
def recipeState : State := { rich serviceState with str := { richStr with lodgers := [⟨32, 0, 1000, 100, 500, [1, 0, 1, 0, 8, 0, 8, 0, 1, 1] ++ List.replicate 30 0, 0, 4, [], 0⟩] } }
def canRun : State := setF (CAN_STAT_state 0) 3 (setF (CAN_STAT_state 1) 3 (rich serviceState))
def serRun : State := [2,3,4,5,6].foldl (fun t n => setF (SER_STAT_state n) 2 t) (rich serviceState)
def hdlcFrameBody : List Byte := [0x41] ++ hdlcFcs false [0x41]
def portState : State := setF CKR_STATUS_sdslock 15 (setB SYS_RAILOK_sds true (rich serviceState))
def wakeState (c : Nat) : State := setF SYS_RAILOK_tbank 0x3F (setF WKS_ASLEEPA_t 1 { canRun with wks := { tiles := [(0, { tcfg := c, tid := 0, tidm := 0, tdlc := 0, tdm := 0 })] } })
def hostState : State := setB SYS_RAILOK_io1 true (setB SYS_RAILOK_sds true (setB BRG_STAT_link true (setB BRG_CFG_qspi true (setB BRG_CFG_pcie true (setB CKR_STATUS_pcieref true (setB CKR_STATUS_rootlock true (rich serviceState)))))))
def secureDebugState : State := { serviceState with fuse := { serviceState.fuse with b := true } }
def bootPortState : State := setB (ETH_STAT_link 0) true { reset with eth := { reset.eth with bootLinks := 1 } }
def mgrState : State := setF HIE_STAT_role 1 (setB HIE_STAT_adm true (setB HIE_CFG_en true { hostState with hie := { peers := [(5, { role := 0 })] } }))
def msg (type src : Nat) (p : List Byte) : PMsg := { port := 0, type := type, src := src, dst := 1, boot := false, spos := 3, epoch := 0, counter := 0, payload := p }
def fetch0 : Fetch := { tag := 77, rq := .core 0 .normal, lease := 6, dev := 5, addr := 0x40000000, n := 1 }
def fetchState (res : Option (Option (List Nat))) (m : List PMsg) : State := { mgrState with brg := { fetches := [(2, { fetch0 with res := res })], writes := [⟨78, .core 0 .normal, 5, 0x40000000, [1]⟩] }, hie := { peers := [(5, { role := 0 })], inbox := m }, ink := { mgrState.ink with leases := [(6, { state := .held, kind := 5, res := 2, owner := 3 })] } }
def hieApp : State := setF HIE_STAT_mpos 3 (setF HIE_STAT_role 0 (setB HIE_STAT_adm false (setB HIE_CFG_en true (rich serviceState))))
def hieW : State := setF HIE_STAT_id 9 (setB HIE_STAT_adm true hieApp)
def joinFrame : List Byte := [0x07, 0x48, 0x80, 0x50, 0x4C, 9, 6, 0x48, 0x80, 0x50, 0x4C, 0, 0x88, 0xB5, 1, 2, 0, 9, 1, 0, 0, 0] ++ List.replicate 32 0
def remoteSession : State := setF IMG_DLTSTAT_state 1 { hieW with loader := { owner := 7, lease := 0 }, ink := { hieW.ink with leases := [(0, { state := .held, kind := 6, owner := 7, dur := some 100, left := some 7 })] } }
def nodeState : State := { serviceState with store := { serviceState.store with nodes := serviceState.store.nodes ++ [(3, { state := .live, depth := 1, gen := 2 })] } }
def testBlob : List Byte := leBytes 4 0x31424B48 ++ [1, 1, 16, 0, 3, 0, 0, 0, 0, 0, 1, 0] ++ leBytes 4 (nodeOf 0 serviceState).gen ++ leBytes 8 serviceState.fuse.ident ++ leBytes 4 9 ++ List.replicate 16 5 ++ List.replicate 32 6
def blobState : State := setF KST_SHELFSRC_addr secRamBase (wrBytes secRamBase testBlob serviceState)
def shelfState : State := setF (KST_LOADSRC_src 0) 0x10007 { serviceState with store := { serviceState.store with shelf := [(7, (0, testBlob))] } }
def ckvJ : CkvJob := { ring := 0, idx := 0, w0 := 1 + 16 * 8 + 4 * 256, src := secRamBase, len := 0, tag := secRamBase }
def ckvState : State := setF CKV_STAT_ok 255 (setF CKV_CFG_swlanes 4 (setF (CKV_RTAIL_idx 0) 1 (setF (CKV_RCFG_size 0) 4 (setF (CKV_RBASE_addr 0) secRamBase (setB (CKV_RCFG_en 0) true (wrBytes secRamBase (leBytes 4 (1 + 16 * 8 + 4 * 256)) { serviceState with keys := { slots := [(4, { key := [1], usage := 3 })] }, ink := { serviceState.ink with leases := [(6, { state := .held, kind := 3, res := 4, owner := 4 })] } }))))))
def pkeState : State := { serviceState with ink := { serviceState.ink with leases := [(6, { state := .held, kind := 4, res := 0, owner := 4 })] } }
def cabState : State := setB SYS_RAILOK_adc true (rich serviceState)
def motC (st : Nat) (c : MotorCh) : State := setMotor 0 c (setMotorState 0 st (setB SYS_RAILOK_adc true (setB (MOT_CFG_used 0) true (rich serviceState))))
def mot (st : Nat) : State := motC st {}
def lamp (st : Nat) : State := setF (LMP_CSTAT_state 7) st (setF (LMP_GSTAT_holder 1) 7 (setB (LMP_CCFG0_used 7) true (rich serviceState)))

/-! A command that the part's surroundings cannot give is refused by each check of WellFormed, and one that they can is not. -/

theorem test_ill_formed_operands_are_refused :
    coreOk 4 = false ∧ reqOk (.core 4 .normal) = false ∧ reqOk (.remote 64 .normal) = false ∧ sideOk (.command (.core 4 .secure) 0) = false ∧
    railNumberOk (.tbank 6) = false ∧ laneGroupOk 3 = false ∧ sidePllOk (.sds 3) = false ∧ tileOk 48 = false ∧ portOk 20 = false ∧ pageOk 49152 = false ∧
    pageReqOk { idx := 21, tc := 0, lossless := false } = false ∧ leaseOk 1032 = false ∧ lodgerOk 256 = false ∧ unitOk 64 = false ∧
    reqOk (.lodger 256) = false ∧ sizeOk 3 = false ∧ pageReqOk { idx := 17, tc := 0, lossless := false, src := 50 } = false ∧
    ringOk 32 = false ∧ slotOk 64 = false ∧ operandSlotOk 64 = false ∧ engineLaneOk 8 = false ∧ motorOk 4 = false ∧ lampOk 24 = false ∧
    lampGroupOk 4 = false ∧ adcOk 32 = false ∧ codeOk 4096 = false ∧ eventOk 64 = false ∧ bufferOk 16 = false := by decide

theorem test_ill_formed_can_frames_are_refused :
    canFrameOk { id := 0x800, ide := false, fmt := 0, data := [] } = false ∧
    canFrameOk { id := 0x20000000, ide := true, fmt := 0, data := [] } = false ∧
    canFrameOk { id := 1, ide := false, fmt := 0, data := List.replicate 9 0 } = false ∧
    canFrameOk { id := 0x7FF, ide := false, fmt := 0, data := List.replicate 8 0 } = true := by decide

theorem test_ill_formed_commands_are_refused :
    (Instr.wellFormed (.powerOnResetRelease 4 0 true)) = false ∧ (Instr.wellFormed (.lampTriesReset 24)) = false ∧
    (Instr.wellFormed (.motorPwmPeriod 4)) = false ∧ (Instr.wellFormed (.floorSet (.core 4 .secure) 1)) = false ∧
    (Instr.wellFormed (.registerWrite (.core 0 .normal) 0x100000000 1 4)) = false ∧ (Instr.wellFormed (.lifecycleArm .pcie 0x10000 2)) = false ∧
    (Instr.wellFormed (.workerLost 64)) = false ∧ (Instr.wellFormed (.workerLost 63)) = true ∧
    (Instr.wellFormed (.registerWrite (.core 3 .normal) 0xFFFFFFFC 1 4)) = true := by decide

/-! The block has no instruction words (spec/opcode_table.json gives no row any bits). -/

theorem test_no_word_spells_a_command : decodeTableWord 32 5 = none := by decide

theorem test_a_word_leaves_the_queue : State.withFetchWord State.reset 32 5 = State.reset := rfl

/-! The step. -/

theorem test_step_takes_the_first_command :
    step { State.reset with pending := [.rootPllLockLoss, .wrapDone] } = .next { State.reset with pending := [.wrapDone] } := rfl

/-! Check values, against the published values of their standards: the LIN specification's protected identifiers and checksum example, the
CRC-16/X-25 and CRC-32 of the digits 1 to 9. -/

theorem test_lin_protected_identifiers : linPid 0x3C = 0x3C ∧ linPid 0x3D = 0x7D ∧ linPid 0x01 = 0xC1 := by decide +kernel

theorem test_lin_checksum : linChecksum 0x10 false [0x4A, 0x55, 0x93, 0xE5] = 0xE6 := by decide +kernel

theorem test_hdlc_fcs : hdlcFcs false [0x31, 0x32, 0x33, 0x34, 0x35, 0x36, 0x37, 0x38, 0x39] = [0x6E, 0x90] ∧
    hdlcFcs true [0x31, 0x32, 0x33, 0x34, 0x35, 0x36, 0x37, 0x38, 0x39] = [0x26, 0x39, 0xF4, 0xCB] := by decide +kernel

/-! Memory and registers. -/

theorem test_memory_is_little_endian_and_canonical :
    (wrBytes 0x20000000 (leBytes 4 0x11003344) State.reset).mem = [(0x20000000, 0x44), (0x20000001, 0x33), (0x20000003, 0x11)] := by decide +kernel

theorem test_a_counter_saturates : getF TSY_SYNCCNT_cnt (incF TSY_SYNCCNT_cnt 9 (setF TSY_SYNCCNT_cnt (2 ^ TSY_SYNCCNT_cnt.width - 2) State.reset)) =
    2 ^ TSY_SYNCCNT_cnt.width - 1 := by decide +kernel

/-- R487: the pending bit and the count, held at 65,535. -/
theorem test_a_raise_sets_the_bit_and_counts :
    evPending 63 (raise 63 (setF (EVC_CNT_cnt 63) 65535 serviceState)) = true ∧
    getF (EVC_CNT_cnt 63) (raise 63 (setF (EVC_CNT_cnt 63) 65535 serviceState)) = 65535 := by decide +kernel

/-- R414: a normal-world read of a key slot register is refused and recorded. -/
theorem test_a_violation_is_recorded :
    ∃ t, exec (.rcRead (.core 2 .normal) 0x400D0100 4) serviceState = .next t ∧ t.bus = .error ∧ getF WLD_VIOL0_addr t = 0x400D0100 ∧
      getF WLD_VIOL1_core t = 2 ∧ getF WLD_VIOLCNT_cnt t = 1 := ⟨_, rfl, by decide +kernel⟩

/-- R115: the calendar counter wraps. -/
theorem test_rtc_wraps : ∃ t, exec .rtcSecond { State.reset with aon := { State.reset.aon with sec := 0xFFFFFFFF } } = .next t ∧ t.aon.sec = 0 :=
  ⟨_, rfl, by decide +kernel⟩

/-- R99: power-on reset asserted on VDD_CORE leads to BACKUP and keeps the mode that was. -/
theorem test_power_on_reset_leads_to_backup :
    ∃ t, exec (.powerOnResetAssert .vcore true) serviceState = .next t ∧ mode t = mBackup ∧ getF PWR_MODE_prev t = mService :=
  ⟨_, rfl, by decide +kernel⟩

/-- R10: the window of a tile the structure leaves unused. -/
theorem test_unused_tile_reads_zero : ∃ t, exec (.rcRead (.core 0 .normal) 0x40205000 4) State.reset = .next t ∧ t.bus = .data 0 :=
  ⟨_, rfl, by decide +kernel⟩

/-! Hypotheses that can be met, one theorem for each statement that has any. -/

theorem test_EmptyQueueLetsAMicrosecondPass_hypotheses_met :
    (∃ s : State, s.pending = [] ∧ s.power.tick = false) ∧
    (∃ s : State, s.pending = [] ∧ s.power.tick = true) :=
  ⟨⟨State.reset, by decide +kernel⟩,
   ⟨{ State.reset with power := { State.reset.power with tick := true } }, by decide +kernel⟩⟩

theorem test_CanonicalKept_hypotheses_met :
    ∃ s t : State, Canonical s ∧ step s = .next t :=
  ⟨State.reset, _, ⟨by decide, by decide⟩, rfl⟩

theorem test_RefusedAccessChangesNothing_hypotheses_met :
    ∃ (c : Instr) (rq : Requester) (write : Bool) (a : Nat) (w : Word) (s : State), accessOf c = some (rq, write, a, w) ∧ admits rq write a w s =
      false :=
  ⟨.floorSet (.core 0 .normal) 5, .core 0 .normal, true, 0x400D0074, 0, State.reset, rfl, by decide⟩

theorem test_MemoryKept_hypotheses_met :
    ∃ (c : Instr) (s t : State), mayStore c = false ∧ exec c s = .next t :=
  ⟨.syncTimeout, State.reset, _, rfl, rfl⟩

theorem test_PowerRegistersKept_hypotheses_met :
    ∃ (c : Instr) (s t : State) (f : Fld), writesPower c = false ∧ f.key < 0x40030000 * 32 ∧ exec c s = .next t :=
  ⟨.syncTimeout, State.reset, _, PWR_MODE_mode, rfl, by decide, rfl⟩

theorem test_StoresInPlace_hypotheses_met :
    (∃ (rq : Requester) (a size : Nat) (x : Word) (s t : State), exec (.pageWindowAccess rq a size (some x)) s = .next t) ∧
    (∃ (rq : Requester) (a size : Nat) (s t : State), exec (.pageWindowAccess rq a size none) s = .next t) ∧
    (∃ (r : Nat) (s t : State), exec (.receiveRingWrite r) s = .next t) ∧
    (∃ (run : PorterRun) (s t : State), s.fwt.porter = some run ∧ exec .porterOperation s = .next t) ∧
    (∃ (j : WrapJob) (r : List WrapJob) (s t : State), s.keys.wraps = j :: r ∧ exec .wrapDone s = .next t) :=
  ⟨⟨.core 0 .normal, 0x48000900, 4, 7, chainState, _, rfl⟩,
   ⟨.core 0 .normal, 0x48000900, 4, chainState, _, rfl⟩,
   ⟨17, ringState, _, rfl⟩,
   ⟨{ owner := .core 0 .normal, next := 0 }, { State.reset with fwt := { State.reset.fwt with porter := some { owner := .core 0 .normal, next := 0 } } }, _, rfl, rfl⟩,
   ⟨{ header := [], content := [], out := 0, src := 0, shelf := none }, [], { State.reset with keys := { State.reset.keys with wraps := [{ header := [], content := [], out := 0, src := 0, shelf := none }] } }, _, rfl, rfl⟩⟩

theorem test_GateSidesNeverOnTogether_hypotheses_met :
    ∃ (m : Nat) (s : State), motorState m s < 3 ∨ motorState m s = 7 :=
  ⟨0, State.reset, .inl (by decide)⟩

theorem test_UnmappedAccessIsBusError_hypotheses_met :
    (∃ (rq : Requester) (a : Nat) (s : State), unmapped a = true ∧ (isDebug rq = true → debugReach (rqWorld rq) s = true)) ∧
    (∃ (rq : Requester) (a : Nat) (w : Word) (s : State), unmapped a = true ∧ (isDebug rq = true → debugReach (rqWorld rq) s = true)) :=
  ⟨⟨.core 0 .normal, 0x40180000, reset, by decide +kernel⟩,
   ⟨.core 0 .normal, 0x40FFFFFC, 5, reset, by decide +kernel⟩⟩

theorem test_UnusedWindowsReadZeroAndIgnoreWrites_hypotheses_met :
    (∃ (rq : Requester) (a : Nat) (s : State), tileWindow a = true ∧ a % 4 = 0 ∧ tileUsed (tileOfAddr a) s = false ∧ admits rq false a 0 s = true) ∧
    (∃ (rq : Requester) (a : Nat) (w : Word) (s : State), tileWindow a = true ∧ a % 4 = 0 ∧ tileUsed (tileOfAddr a) s = false ∧ admits rq true a w s =
      true) ∧
    (∃ (rq : Requester) (a : Nat) (s : State), ramWindow a = true ∧ a % 4 = 0 ∧ tileUsed (ramTile a) s = false ∧ admits rq false a 0 s = true) ∧
    (∃ (rq : Requester) (a : Nat) (w : Word) (s : State), ramWindow a = true ∧ a % 4 = 0 ∧ tileUsed (ramTile a) s = false ∧ admits rq true a w s =
      true) ∧
    (∃ (rq : Requester) (a : Nat) (s : State), portWindow a = true ∧ a % 4 = 0 ∧ portUsed (portOfAddr a) s = false ∧ bootPort (portOfAddr a) s = false
      ∧ admits rq false a 0 s = true) ∧
    (∃ (rq : Requester) (a : Nat) (w : Word) (s : State), portWindow a = true ∧ a % 4 = 0 ∧ portUsed (portOfAddr a) s = false ∧ bootPort (portOfAddr
      a) s = false ∧ admits rq true a w s = true) :=
  ⟨⟨.core 0 .normal, 0x40201004, serviceState, by decide +kernel⟩,
   ⟨.core 0 .normal, 0x40201004, 5, serviceState, by decide +kernel⟩,
   ⟨.core 0 .normal, 0x40302004, serviceState, by decide +kernel⟩,
   ⟨.core 0 .normal, 0x40302004, 5, serviceState, by decide +kernel⟩,
   ⟨.core 0 .normal, 0x40401004, serviceState, by decide +kernel⟩,
   ⟨.core 0 .normal, 0x40401004, 5, serviceState, by decide +kernel⟩⟩

theorem test_LockedRegistersNeedTheirLease_hypotheses_met :
    (∃ (rq : Requester) (a : Nat) (w : Word) (s : State), hasLk a s = true ∧ a % 4 = 0 ∧ blockOf a = 7 ∧ 0x40000000 ≤ a ∧ lockHeldBy 0 rq s = false ∧
      admits rq true a w s = true) ∧
    (∃ (rq : Requester) (a : Nat) (w : Word) (s : State), hasLk a s = true ∧ a % 4 = 0 ∧ blockOf a = 8 ∧ 0x40000000 ≤ a ∧ lockHeldBy 1 rq s = false ∧
      admits rq true a w s = true) ∧
    (∃ (rq : Requester) (a : Nat) (w : Word) (s : State), hasLk a s = true ∧ a % 4 = 0 ∧ blockOf a = 15 ∧ 0x40000000 ≤ a ∧ pkeHolder rq s = false ∧
      admits rq true a w s = true) :=
  ⟨⟨.core 0 .normal, ((SWC_GLEN_n 0).addr), (0#32), serviceState, by decide +kernel⟩,
   ⟨.core 0 .normal, ((FWT_RHSWAP_swap).addr), (0#32), serviceState, by decide +kernel⟩,
   ⟨.core 0 .normal, ((PKE_JOBKEY_key).addr), (0#32), serviceState, by decide +kernel⟩⟩

theorem test_ResetControlNeedsKeyAndWorld_hypotheses_met :
    (∃ (rq : Requester) (key : Nat) (s : State), admits rq true 0x40000010 0 s = true ∧ key ≠ 0x52A7) ∧
    (∃ (rq : Requester) (key : Nat) (s : State), admits rq true 0x40000010 0 s = true ∧ key ≠ 0x52A7) ∧
    (∃ (rq : Requester) (key : Nat) (s : State), admits rq true 0x40000010 0 s = true ∧ key ≠ 0x52A7) ∧
    (∃ (rq : Requester) (w : Word) (s : State), admits rq true 0x40000010 w s = true ∧ wbits w 16 16 ≠ 0x52A7) ∧
    (∃ (rq : Requester) (key : Nat) (s : State), rqSecure rq = false) ∧
    (∃ (rq : Requester) (key : Nat) (s : State), rqSecure rq = false) ∧
    (∃ (rq : Requester) (s : State), admits rq true 0x40000010 0 s = true ∧ s.power.hold = false ∧ s.power.por = false) ∧
    (∃ (rq : Requester) (s : State), admits rq true 0x40000010 0 s = true ∧ rqSecure rq = true ∧ s.power.hold = false ∧ s.power.por = false) ∧
    (∃ (rq : Requester) (s : State), admits rq true 0x40000010 0 s = true ∧ rqSecure rq = true ∧ s.power.hold = false ∧ s.power.por = false) :=
  ⟨⟨.core 0 .normal, 5, reset, by decide +kernel⟩,
   ⟨.core 0 .normal, 5, reset, by decide +kernel⟩,
   ⟨.core 0 .normal, 5, reset, by decide +kernel⟩,
   ⟨.core 0 .normal, 1, reset, by decide +kernel⟩,
   ⟨.core 0 .normal, 0x52A7, reset, by decide +kernel⟩,
   ⟨.core 0 .normal, 0x52A7, reset, by decide +kernel⟩,
   ⟨.core 1 .secure, reset, by decide +kernel⟩,
   ⟨.core 1 .secure, reset, by decide +kernel⟩,
   ⟨.core 1 .secure, reset, by decide +kernel⟩⟩

theorem test_SecurityFloorRules_hypotheses_met :
    (∃ (rq : Requester) (s : State), admits rq false KST_FLOOR_floor.addr 0 s = true) ∧
    (∃ (rq : Requester) (w : Word) (s : State), rqSecure rq = true ∧ admits rq true KST_FLOORSET_floor.addr w s = true ∧ (w.toNat < s.store.floor ∨
      getF IMG_SECVER_secver s < w.toNat)) ∧
    (∃ (rq : Requester) (w : Word) (s : State), rqSecure rq = true ∧ admits rq true KST_FLOORSET_floor.addr w s = true ∧ s.store.floor ≤ w.toNat ∧
      w.toNat ≤ getF IMG_SECVER_secver s) :=
  ⟨⟨.core 0 .normal, reset, by decide +kernel⟩,
   ⟨.core 0 .secure, 5, reset, by decide +kernel⟩,
   ⟨.core 0 .secure, 5, setF IMG_SECVER_secver 9 reset, by decide +kernel⟩⟩

theorem test_SoftwareFrameOfAUart_hypotheses_met :
    (∃ (rq : Requester) (n : Nat) (w : Word) (s : State), n < 48 ∧ (tileFunc n s = 5 ∨ tileFunc n s = 6) ∧ 1 ≤ wbits w 0 9 ∧ wbits w 0 9 ≤ 256 ∧
      w.getLsbD 16 = true ∧ admits rq true (UART_SWTX_len n).addr 0 s = true) ∧
    (∃ (n : Nat) (s : State), serRuns n [5, 6] s = true ∧ (serOf n s).sending = none ∧ (serOf n s).stopping = false ∧ mayBegin n s = true ∧ isSet
      (UART_SWTX_go n) s = true) ∧
    (∃ (n : Nat) (d echo : List Byte) (s : State), serRuns n [5, 6] s = true ∧ (serOf n s).sending = some (d, true)) :=
  ⟨⟨.core 0 .normal, 4, (0x10005#32), serRun, by decide +kernel⟩,
   ⟨4, setB (UART_SWTX_go 4) true serRun, by decide +kernel⟩,
   ⟨4, ([1, 2]), ([1, 2]), setSer 4 { sending := some ([1, 2], true) } (setB (UART_SWTX_go 4) true serRun), by decide +kernel⟩⟩

theorem test_RemoteEventQueueOfTheManager_hypotheses_met :
    (∃ (m : PMsg) (r : List PMsg) (s : State), s.hie.inbox = m :: r ∧ m.type = pEVENT ∧ isManager s = true ∧ s.brg.revq = []) ∧
    (∃ (m : PMsg) (r : List PMsg) (s : State), s.hie.inbox = m :: r ∧ m.type = pEVENT ∧ isManager s = true ∧ s.brg.revq ≠ [] ∧ s.brg.revq.length < 64) ∧
    (∃ (m : PMsg) (r : List PMsg) (s : State), s.hie.inbox = m :: r ∧ m.type = pEVENT ∧ isManager s = true ∧ 64 ≤ s.brg.revq.length) ∧
    (∃ (rq : Requester) (e : RemoteEvent) (q : List RemoteEvent) (s : State), s.brg.revq = e :: q ∧ admits rq false BRG_REV0_event.addr 0 s = true) :=
  ⟨⟨(msg pEVENT 5 [3, 1, 0, 0, 9, 0, 0, 0]), ([]), { mgrState with hie := { mgrState.hie with inbox := [msg pEVENT 5 [3, 1, 0, 0, 9, 0, 0, 0]] } }, by decide +kernel⟩,
   ⟨(msg pEVENT 5 [3, 1, 0, 0, 9, 0, 0, 0]), ([]), { mgrState with brg := { mgrState.brg with revq := [⟨5, 3, 0, 0⟩] }, hie := { mgrState.hie with inbox := [msg pEVENT 5 [3, 1, 0, 0, 9, 0, 0, 0]] } }, by decide +kernel⟩,
   ⟨(msg pEVENT 5 [3, 1, 0, 0, 9, 0, 0, 0]), ([]), { mgrState with brg := { mgrState.brg with revq := List.replicate 64 ⟨5, 3, 0, 0⟩ }, hie := { mgrState.hie with inbox := [msg pEVENT 5 [3, 1, 0, 0, 9, 0, 0, 0]] } }, by decide +kernel⟩,
   ⟨.core 0 .normal, (⟨5, 3, 7, 9⟩), ([]), { mgrState with brg := { mgrState.brg with revq := [⟨5, 3, 7, 9⟩] } }, by decide +kernel⟩⟩

set_option maxRecDepth 100000 in
theorem test_CarLinkCommandsComplete_hypotheses_met :
    (∃ (n : Nat) (level : Bool) (s : State), n < 4) ∧
    (∃ (n : Nat) (s : State), n < 4 ∧ s.power.por = false ∧ holdLasted n s = true) ∧
    (∃ (r : WireRecord) (q : List WireRecord) (s : State), s.wires.records = r :: q ∧ inlineCount s < 1024 ∧ mode s ≠ mStandby) ∧
    (∃ (p : LinkSide) (bit : Nat) (s : State), (linkOf p s).rx = .hunt ∧ (((linkOf p s).cands.any fun c => decide (c.count > 0) && decide (c.pos +
      2000 = bit)) = false)) ∧
    (∃ (p : LinkSide) (bit : Nat) (f : LinkFrame) (s : State), (linkOf p s).rx = .hunt ∧ (linkOf p s).cands = [{ pos := bit, count := 0 }] ∧
      (syncExact f && headerOk f) = false) ∧
    (∃ (p : LinkSide) (bit pos : Nat) (f : LinkFrame) (s : State), (linkOf p s).rx = .hunt ∧ (linkOf p s).cands = [{ pos := pos, count := 2 }] ∧ pos
      + 2000 = bit ∧ syncExact f = true ∧ headerOk f = true) ∧
    (∃ (p : LinkSide) (f : LinkFrame) (s : State), (linkOf p s).rx = .locked ∧ frameAccepted f = true) ∧
    (∃ (p : LinkSide) (f : LinkFrame) (s : State), (linkOf p s).rx = .locked ∧ frameAccepted f = false) ∧
    (∃ (p : LinkSide) (off : Nat) (f : LinkFrame) (s : State), (linkOf p s).rx = .relock ∧ off ≤ 2040 ∧ syncExact f = true ∧ headerOk f = true) ∧
    (∃ (p : LinkSide) (s : State), (linkOf p s).rx = .relock) ∧
    (∃ (p : LinkSide) (inc : Option LinkFrame) (s : State), ((linkOf p s).tx = .free ∨ (linkOf p s).tx = .realign ∨ (linkOf p s).tx = .slaved)) ∧
    (∃ (p : LinkSide) (s : State), ((linkOf p s).tx = .gap ∨ (linkOf p s).tx = .gapLost)) ∧
    (∃ (rq : Requester) (p : LinkSide) (w : Word) (s : State), admits rq true (if p = .a then 0x400B0044 else 0x400B0048) 0 s = true ∧ wbits w 8 8 ≤
      220 ∧ isSet (goF p) s = false ∧ w.getLsbD 16 = true ∧ (wbits w 0 6 ≠ ownPos s ∨ isSet LNK_STATUS_posv s = false)) :=
  ⟨⟨3, true, reset, by decide +kernel⟩,
   ⟨2, { reset with wires := { inLevel := 4, ref := 25000 } }, by decide +kernel⟩,
   ⟨(⟨0, true, 0, 0, 0, 0, 0, 0⟩), ([]), { serviceState with wires := { records := [⟨0, true, 0, 0, 0, 0, 0, 0⟩] } }, by decide +kernel⟩,
   ⟨.b, 4000, { reset with linkB := { rx := .hunt } }, by decide +kernel⟩,
   ⟨.a, 7, 0, { reset with linkA := { rx := .hunt, cands := [{ pos := 7, count := 0 }] } }, by decide +kernel⟩,
   ⟨.a, 4007, 2007, goodFrame, { reset with linkA := { rx := .hunt, tx := .free, cands := [{ pos := 2007, count := 2 }] } }, by decide +kernel⟩,
   ⟨.b, goodFrame, { reset with linkB := { rx := .locked } }, by decide +kernel⟩,
   ⟨.b, 0, { reset with linkB := { rx := .locked, bad := 3, w := 5 } }, by decide +kernel⟩,
   ⟨.a, 2040, goodFrame, { reset with linkA := { rx := .relock } }, by decide +kernel⟩,
   ⟨.a, { reset with linkA := { rx := .relock } }, by decide +kernel⟩,
   ⟨.a, none, { reset with linkA := { tx := .realign, latch := 5 } }, by decide +kernel⟩,
   ⟨.b, { reset with linkB := { tx := .gap } }, by decide +kernel⟩,
   ⟨.core 0 .normal, .b, (0x00010403#32), reset, by decide +kernel⟩⟩

theorem test_SupplyAndClockCommandsComplete_hypotheses_met :
    (∃ (role boot : Nat) (wpol : Bool) (s : State), s.power.por = true ∧ s.power.supplies = true ∧ role < 4 ∧ boot < 4) ∧
    (∃ (rail : Rail) (vbatOk : Bool) (s : State), s.power.por = false ∧ (rail = .vcore ∨ rail = .io0)) ∧
    (∃ (s : State), s.power.por = true) ∧
    (∃ (r : Rail) (s : State), s.power.por = false ∧ (r = .vcore ∨ r = .io0 ∨ r = .aux)) ∧
    (∃ (r : Rail) (s : State), s.power.por = false ∧ railShown r = true ∧ railOk r s = true) ∧
    (∃ (r : Rail) (classMv : Option Nat) (s : State), railShown r = true ∧ railOk r s = false) ∧
    (∃ (s : State), s.power.pfailLow = false ∧ s.power.por = false) ∧
    (∃ (s : State), s.power.por = false) ∧
    (∃ (s : State), s.power.pfailLow = false ∧ isSet PWR_STATUS_shed s = true) ∧
    (∃ (s : State), s.power.supplies = true) ∧
    (∃ (s : State), isSet CKR_STATUS_xamp s = true ∧ isSet CKR_STATUS_xstable s = false) ∧
    (∃ (us : Nat) (s : State), s.power.pllStarting = true) ∧
    (∃ (s : State), s.power.por = false ∧ s.power.hold = false ∧ isSet CKR_STATUS_rootlock s = true) ∧
    (∃ (s : State), isSet CKR_STATUS_pcieref s = true) ∧
    (∃ (s : State), isSet CKR_STATUS_ddrlock s = true) ∧
    (∃ (g : Nat) (s : State), g < 4 ∧ (getF CKR_STATUS_sdslock s).testBit g = true) ∧
    (∃ (g : Nat) (s : State), g < 4 ∧ isSet SYS_RAILOK_sds s = true ∧ s.power.sdsStopped.testBit g = false) :=
  ⟨⟨3, 2, true, porState, by decide +kernel⟩,
   ⟨.io0, false, reset, by decide +kernel⟩,
   ⟨porState, by decide +kernel⟩,
   ⟨.aux, reset, by decide +kernel⟩,
   ⟨.tbank 3, setF SYS_RAILOK_tbank 8 reset, by decide +kernel⟩,
   ⟨.tbank 5, (some 3300), reset, by decide +kernel⟩,
   ⟨reset, by decide +kernel⟩,
   ⟨reset, by decide +kernel⟩,
   ⟨setB PWR_STATUS_shed true reset, by decide +kernel⟩,
   ⟨reset, by decide +kernel⟩,
   ⟨setB CKR_STATUS_xamp true reset, by decide +kernel⟩,
   ⟨1700, { reset with power := { reset.power with pllStarting := true } }, by decide +kernel⟩,
   ⟨setB CKR_STATUS_rootlock true reset, by decide +kernel⟩,
   ⟨setB CKR_STATUS_pcieref true reset, by decide +kernel⟩,
   ⟨setB CKR_STATUS_ddrlock true reset, by decide +kernel⟩,
   ⟨2, setF CKR_STATUS_sdslock 4 reset, by decide +kernel⟩,
   ⟨2, setB SYS_RAILOK_sds true reset, by decide +kernel⟩⟩

theorem test_ResetAndWatchdogCommandsComplete_hypotheses_met :
    (∃ (s : State), s.power.por = false ∧ s.power.hold = false) ∧
    (∃ (s : State), s.power.hold = true ∧ s.power.resetLow = false) ∧
    (∃ (rq : Requester) (s : State), s.power.por = false ∧ s.power.hold = false ∧ admits rq true 0x40000010 0 s = true ∧ rqSecure rq = true) ∧
    (∃ (rq : Requester) (s : State), admits rq true 0x40000010 0 s = true ∧ s.power.hold = false ∧ serving s = true) ∧
    (∃ (rq : Requester) (s : State), admits rq true 0x40000010 0 s = true ∧ rqSecure rq = true ∧ s.power.hold = false ∧ serving s = true) ∧
    (∃ (rq : Requester) (s : State), admits rq true 0x40000024 0 s = true ∧ isSet SYS_WDN_CTL_en s = true) ∧
    (∃ (rq : Requester) (w : Word) (s : State), admits rq true 0x40000020 0 s = true ∧ wbits w 16 16 ≠ 0 ∧ w.getLsbD 0 = true ∧ isSet SYS_WDN_CTL_en s
      = false) ∧
    (∃ (s : State), isSet SYS_WDN_CTL_en s = true ∧ s.power.tick = true ∧ isSet SYS_WDN_STAT_first s = false) ∧
    (∃ (rq : Requester) (s : State), admits rq true 0x40000034 0 s = true ∧ rqSecure rq = true) ∧
    (∃ (s : State), serving s = true ∧ s.power.tick = true ∧ s.power.hold = false) ∧
    (∃ (rq : Requester) (w : Word) (s : State), admits rq true 0x40020014 0 s = true ∧ rqSecure rq = true ∧ w.getLsbD 0 = false ∧ w.getLsbD 1 = true) :=
  ⟨⟨reset, by decide +kernel⟩,
   ⟨{ reset with power := { reset.power with hold := true } }, by decide +kernel⟩,
   ⟨.core 0 .secure, reset, by decide +kernel⟩,
   ⟨.core 0 .normal, serviceState, by decide +kernel⟩,
   ⟨.core 0 .secure, serviceState, by decide +kernel⟩,
   ⟨.core 0 .normal, setB SYS_WDN_CTL_en true reset, by decide +kernel⟩,
   ⟨.core 0 .normal, (0x00640001#32), reset, by decide +kernel⟩,
   ⟨setB SYS_WDN_CTL_en true { reset with power := { reset.power with tick := true } }, by decide +kernel⟩,
   ⟨.core 1 .secure, reset, by decide +kernel⟩,
   ⟨{ serviceState with power := { serviceState.power with tick := true } }, by decide +kernel⟩,
   ⟨.core 0 .secure, 2, reset, by decide +kernel⟩⟩

theorem test_AlwaysOnCommandsComplete_hypotheses_met :
    (∃ (fromVbat : Bool) (s : State), mode s = mOff) ∧
    (∃ (s : State), s.power.por = true ∧ mode s = mBackup ∧ s.aon.onVbat = true) ∧
    (∃ (rq : Requester) (w : Word) (s : State), admits rq true 0x4015000C 0 s = true ∧ rqSecure rq = true) ∧
    (∃ (n : Nat) (s : State), n < 2 ∧ isSet AON_ALMCTL_wake0 s = true ∧ isSet AON_ALMCTL_wake1 s = true ∧ s.aon.fired.testBit n = false) ∧
    (∃ (n : Nat) (s : State), n < 2) ∧
    (∃ (s : State), isSet AON_ALMCTL_tamper s = true ∧ s.aon.fired.testBit 2 = false) ∧
    (∃ (rq : Requester) (s : State), admits rq true 0x40150018 0 s = true ∧ rqSecure rq = true ∧ (lifecycle s ≠ lcGarnet ∨ mode s = mWorkshop)) ∧
    (∃ (mv10 : Nat) (s : State), mv10 < 512) ∧
    (∃ (s : State), s.aon.holding = true) ∧
    (∃ (rq : Requester) (s : State), admits rq true 0x40150020 0 s = true) ∧
    (∃ (rq : Requester) (w : Word) (s : State), admits rq true 0x40150020 0 s = true ∧ 1 ≤ wbits w 0 10 ∧ wbits w 0 10 ≤ 600) ∧
    (∃ (rq : Requester) (s : State), admits rq true 0x4015002C 0 s = true) :=
  ⟨⟨true, offState, by decide +kernel⟩,
   ⟨backupState, by decide +kernel⟩,
   ⟨.core 0 .secure, 77, reset, by decide +kernel⟩,
   ⟨1, setB AON_ALMCTL_wake0 true (setB AON_ALMCTL_wake1 true reset), by decide +kernel⟩,
   ⟨1, reset, by decide +kernel⟩,
   ⟨setB AON_ALMCTL_tamper true reset, by decide +kernel⟩,
   ⟨.core 0 .secure, reset, by decide +kernel⟩,
   ⟨209, reset, by decide +kernel⟩,
   ⟨{ reset with aon := { reset.aon with holding := true } }, by decide +kernel⟩,
   ⟨.core 0 .normal, reset, by decide +kernel⟩,
   ⟨.core 0 .normal, (0x1000A#32), reset, by decide +kernel⟩,
   ⟨.core 3 .normal, reset, by decide +kernel⟩⟩

theorem test_StandbyBootAndStartUpCommandsComplete_hypotheses_met :
    (∃ (rq : Requester) (w : Word) (s : State), admits rq true 0x40020004 0 s = true ∧ keyed 0x5D3B w = true ∧ wbits w 0 4 = 8 ∧ s.power.standby =
      .none ∧ getF PWR_MODE_base s = mPartial ∧ mode s = mPartial ∧ (((usedUnits s).all fun u => unitAsleep u s) = true) ∧ (((List.range 4).all fun k
      => motorState k s == 0) = true) ∧ causes s = 0) ∧
    (∃ (s : State), s.power.standby = .waitCores) ∧
    (∃ (s : State), s.power.standby = .waitCores) ∧
    (∃ (refCycles : Nat) (s : State), s.power.standby = .exiting) ∧
    (∃ (s : State), mode s = mBare ∧ s.power.por = false ∧ s.power.hold = false ∧ isSet CKR_STATUS_rootlock s = true ∧ bootRails s = true ∧ strapsOk
      s = true ∧ getF PWR_BOOTTRY_n s ≤ 3) ∧
    (∃ (s : State), mode s = mBare ∧ s.power.por = false ∧ s.power.hold = false ∧ isSet CKR_STATUS_rootlock s = true ∧ bootRails s = true ∧ (getF
      PWR_BOOTTRY_n s = 4 ∨ strapsOk s = false)) ∧
    (∃ (hdr : List Byte) (s : State), loading s = true ∧ getF IMG_STATUS_phase s = 1 ∧ isSet SYS_RAILOK_io1 s = true ∧ hdr.length = 128) ∧
    (∃ (img : List Byte) (s : State), loading s = true ∧ s.loader.accepted = false ∧ imageRead img s = true) ∧
    (∃ (ddrOk : Bool) (s : State), mode s = mBuilding ∧ s.loader.accepted = true ∧ s.loader.built = false) ∧
    (∃ (s : State), mode s = mBuilding ∧ s.loader.built = true) ∧
    (∃ (n : Nat) (s : State), tileDue n s = true) ∧
    (∃ (n : Nat) (s : State), n < 48 ∧ isCan n s = true ∧ canState n s = 2) ∧
    (∃ (s : State), serving s = true ∧ getF SYS_STARTUP_ramp s < 50) :=
  ⟨⟨.core 0 .normal, (0x5D3B0008#32), partialState, by decide +kernel⟩,
   ⟨{ partialState with power := { partialState.power with standby := .waitCores } }, by decide +kernel⟩,
   ⟨{ partialState with power := { partialState.power with standby := .waitCores } }, by decide +kernel⟩,
   ⟨250, { setF PWR_MODE_mode mStandby partialState with power := { reset.power with standby := .exiting } }, by decide +kernel⟩,
   ⟨bootState, by decide +kernel⟩,
   ⟨setF PWR_BOOTTRY_n 4 bootState, by decide +kernel⟩,
   ⟨(List.replicate 128 0), setF IMG_STATUS_phase 1 loadState, by decide +kernel⟩,
   ⟨(List.replicate 12 0 ++ [128] ++ List.replicate 115 0), { setF IMG_STATUS_phase 2 loadState with loader := { header := List.replicate 12 0 ++ [128] ++ List.replicate 115 0 } }, by decide +kernel⟩,
   ⟨true, { setF PWR_MODE_mode mBuilding reset with loader := { accepted := true, next := richStr } }, by decide +kernel⟩,
   ⟨{ setF PWR_MODE_mode mBuilding reset with loader := { accepted := true, built := true, next := richStr } }, by decide +kernel⟩,
   ⟨1, setF (CAN_STAT_state 1) 1 (rich (setF SYS_RAILOK_tbank 0x3F serviceState)), by decide +kernel⟩,
   ⟨1, setF (CAN_STAT_state 1) 2 (rich serviceState), by decide +kernel⟩,
   ⟨serviceState, by decide +kernel⟩⟩

theorem test_DeltaCommandsComplete_hypotheses_met :
    (∃ (rq : Requester) (s : State), admits rq true 0x40050080 0 s = true ∧ getF IMG_DLTSTAT_state s = 0 ∧ isSet IMG_RCFG_drain s = false ∧ (mode s =
      mService ∨ mode s = mPartial ∨ mode s = mDegraded) ∧ ownerFenced (rqTag rq) s = false ∧ (freeLease (rqTag rq) s).isSome = true) ∧
    (∃ (rq : Requester) (w : Word) (s : State), admits rq true 0x40050090 0 s = true ∧ w.getLsbD 0 = true ∧ ownsSession rq s = true ∧ isSet
      IMG_DLTSTAT_busy s = false ∧ placeOk (getF IMG_DLTOFF_off s) (getF IMG_DLTLEN_len s) s = true) ∧
    (∃ (bad : Nat) (s : State), s.loader.copying.isSome = true) ∧
    (∃ (rq : Requester) (s : State), admits rq true 0x40050080 0 s = true ∧ ownsSession rq s = true ∧ isSet IMG_DLTSTAT_busy s = false) ∧
    (∃ (rq : Requester) (s : State), admits rq true 0x40050080 0 s = true ∧ ownsSession rq s = true) ∧
    (∃ (s : State), getF IMG_DLTSTAT_state s = 3 ∧ s.loader.prepared = false) ∧
    (∃ (b : Nat) (r : List Nat) (s : State), s.loader.wants = b :: r ∧ lockFree b s = true) ∧
    (∃ (n : Nat) (s : State), getF IMG_DLTSTAT_state s = 4 ∧ (deltaTiles s).contains n = true ∧ tileBit FAB_QUIET0_q FAB_QUIET1_q n s = false ∧
      tileStill n s = true) ∧
    (∃ (s : State), getF IMG_DLTSTAT_state s = 4 ∧ s.loader.wants = [] ∧ (((deltaTiles s).all fun n => tileBit FAB_QUIET0_q FAB_QUIET1_q n s) =
      true)) ∧
    (∃ (s : State), isSet IMG_RCFG_drain s = true ∧ oldRemains s = false) :=
  ⟨⟨.core 0 .normal, serviceState, by decide +kernel⟩,
   ⟨.core 0 .normal, 1, setF IMG_DLTLEN_len 128 sessionState, by decide +kernel⟩,
   ⟨0, { sessionState with loader := { sessionState.loader with copying := some { off := 0, bytes := some [1, 2] } } }, by decide +kernel⟩,
   ⟨.core 0 .normal, sessionState, by decide +kernel⟩,
   ⟨.core 0 .normal, sessionState, by decide +kernel⟩,
   ⟨setF IMG_DLTSTAT_state 3 serviceState, by decide +kernel⟩,
   ⟨1, ([]), { setF IMG_DLTSTAT_state 3 serviceState with loader := { wants := [1], prepared := true } }, by decide +kernel⟩,
   ⟨0, { rich (setF IMG_DLTSTAT_state 4 serviceState) with loader := { delta := { banks := 1 } } }, by decide +kernel⟩,
   ⟨setF IMG_DLTSTAT_state 4 serviceState, by decide +kernel⟩,
   ⟨setB IMG_RCFG_drain true serviceState, by decide +kernel⟩⟩

theorem test_PageAndLeaseCommandsComplete_hypotheses_met :
    (∃ (r : PageReq) (i : Nat) (s : State), r.idx < 21 ∧ r.src < 50 ∧ reqSet r s = some i ∧ reqAnswer r s = .guaranteed ∧ holdsOf (reqSource r) s =
      []) ∧
    (∃ (r : PageReq) (k : Nat) (s : State), r.idx < 20 ∧ r.idx ≠ 16 ∧ r.src < 50 ∧ r.lossless = false ∧ reqAnswer r s = .noPage k ∧ 1 ≤ k ∧ k ≤ 3) ∧
    (∃ (p g : Nat) (r : Replica) (s : State), sendingOf p s = some r ∧ p ≠ 19 ∧ (r.cut && r.wb.lossless) = false ∧ (r.wb.pages.drop r.read).head? =
      some g) ∧
    (∃ (rq : Requester) (w : Word) (i : Nat) (s : State), admits rq true 0x40040040 0 s = true ∧ 1 ≤ wbits w 0 9 ∧ wbits w 0 9 ≤ 64 ∧ setIdx 16
      (wbits w 9 3) s = some i ∧ chainAnswer i (wbits w 0 9 - (fillingAt (fillKey (softIdx (rqWorld rq)) false) s).length) s = 0 ∧ ownerFenced (rqTag
      rq) s = false ∧ (freeLease (rqTag rq) s).isSome = true) ∧
    (∃ (rq : Requester) (n : Nat) (s : State), admits rq true 0x40040048 0 s = true ∧ holdsLease n rq s = true ∧ (leaseOf n s).kind = 1) ∧
    (∃ (rq : Requester) (a size : Nat) (x : Word) (s : State), (rqCore rq).isSome = true ∧ hostelBase ≤ a ∧ a + size ≤ hostelBase + 0xC00000 ∧ (size
      = 1 ∨ size = 2 ∨ size = 4) ∧ a % size = 0 ∧ pageLeased (rqWorld rq) ((a - hostelBase) / 256) s = true) ∧
    (∃ (rq : Requester) (a size : Nat) (s : State), (rqCore rq).isSome = true ∧ hostelBase ≤ a ∧ a + size ≤ hostelBase + 0xC00000 ∧ (size = 1 ∨ size
      = 2 ∨ size = 4) ∧ a % size = 0 ∧ pageLeased (rqWorld rq) ((a - hostelBase) / 256) s = true) ∧
    (∃ (rq : Requester) (s : State), admits rq true 0x40070000 0 s = true ∧ leaseFor 2 0 s = none ∧ ownerFenced (rqTag rq) s = false ∧ (freeLease
      (rqTag rq) s).isSome = true) ∧
    (∃ (rq : Requester) (s : State), admits rq true 0x40080000 0 s = true ∧ leaseFor 2 1 s = none ∧ ownerFenced (rqTag rq) s = false ∧ (freeLease
      (rqTag rq) s).isSome = true ∧ isSet FWT_STAT_drain s = false) ∧
    (∃ (rq : Requester) (s : State), admits rq true 0x400F0000 0 s = true ∧ leaseFor 4 0 s = none ∧ ownerFenced (rqTag rq) s = false ∧ (freeLease
      (rqTag rq) s).isSome = true) ∧
    (∃ (rq : Requester) (n : Nat) (s : State), admits rq true 0x4004006C 0 s = true ∧ holdsLease (n % 1024) rq s = true ∧ (leaseOf (n % 1024)
      s).dur.isSome = true ∧ ((leaseOf (n % 1024) s).kind = 1 ∨ (leaseOf (n % 1024) s).kind = 2) ∧ loaderWaits (leaseOf (n % 1024) s) s = false) ∧
    (∃ (rq : Requester) (n : Nat) (s : State), admits rq true 0x40040070 0 s = true ∧ holdsLease (n % 1024) rq s = true) ∧
    (∃ (n : Nat) (s : State), (leaseOf n s).state = .held ∧ (leaseOf n s).dur.isSome = true ∧ (leaseOf n s).kind ≠ 5) ∧
    (∃ (rq : Requester) (w : Word) (s : State), admits rq true 0x40040080 0 s = true ∧ (leaseOf (wbits w 0 10) s).state = .held ∧ mayRevoke rq
      (leaseOf (wbits w 0 10) s) = true) ∧
    (∃ (d : Declaration) (r : List Declaration) (s : State), s.ink.decls = d :: r) :=
  ⟨⟨({ idx := 0, tc := 3, lossless := true }), 0, rich serviceState, by decide +kernel⟩,
   ⟨({ idx := 3, tc := 0, lossless := false }), 1, rich serviceState, by decide +kernel⟩,
   ⟨4, 7, ({ wb := { src := 0, pages := [7, 8] } }), { rich serviceState with swc := { sending := [(4, { wb := { src := 0, pages := [7, 8] } })] }, ink := { reset.ink with refs := [(7, 2)] } }, by decide +kernel⟩,
   ⟨.core 1 .normal, 1, 0, cpuParts, by decide +kernel⟩,
   ⟨.core 1 .normal, 5, chainState, by decide +kernel⟩,
   ⟨.core 1 .normal, (hostelBase + 256 * 9 + 4), 4, (0x11223344#32), chainState, by decide +kernel⟩,
   ⟨.core 1 .normal, (hostelBase + 256 * 9 + 2), 2, chainState, by decide +kernel⟩,
   ⟨.core 2 .normal, serviceState, by decide +kernel⟩,
   ⟨.core 2 .normal, serviceState, by decide +kernel⟩,
   ⟨.core 2 .secure, serviceState, by decide +kernel⟩,
   ⟨.core 1 .normal, 5, chainState, by decide +kernel⟩,
   ⟨.core 1 .normal, 5, chainState, by decide +kernel⟩,
   ⟨5, chainState, by decide +kernel⟩,
   ⟨.core 0 .secure, 5, chainState, by decide +kernel⟩,
   ⟨(⟨0x103, 3, [5]⟩), ([]), { chainState with ink := { chainState.ink with decls := [⟨0x103, 3, [5]⟩] } }, by decide +kernel⟩⟩

theorem test_LodgerCommandsComplete_hypotheses_met :
    (∃ (lid : Nat) (s : State), (lodgerOf lid s).present = true) ∧
    (∃ (lid : Nat) (w : ItemWork) (s : State), (lodgerOf lid s).present = true ∧ (lodgerOf lid s).fenced = false ∧ (lodgerOf lid s).resident = true) ∧
    (∃ (lid : Nat) (it : Item) (q : List Item) (s : State), enginesBusy s < 16 ∧ isSet TRN_OBUF_stall s = false ∧ readyFirst s = some lid ∧ (lodgerOf
      lid s).queue = it :: q) ∧
    (∃ (lid : Nat) (s : State), (lodgerOf lid s).running.isSome = true) ∧
    (∃ (lid : Nat) (s : State), (((lodgerOf lid s).queue.any fun i => !i.late) = true)) ∧
    (∃ (lid us : Nat) (s : State), (lodgerOf lid s).faulting = true) :=
  ⟨⟨33, rich serviceState, by decide +kernel⟩,
   ⟨32, .timeout 1, rich serviceState, by decide +kernel⟩,
   ⟨32, ({ work := .timeout 1, due := 9 }), ([]), queuedState, by decide +kernel⟩,
   ⟨32, { rich serviceState with ink := { reset.ink with lodgers := [(32, { present := true, resident := true, running := some { work := .timeout 1, due := 9 } })] } }, by decide +kernel⟩,
   ⟨32, queuedState, by decide +kernel⟩,
   ⟨33, 40, { rich serviceState with ink := { reset.ink with lodgers := [(33, { present := true, faulting := true })] } }, by decide +kernel⟩⟩

theorem test_SwitchCommandsComplete_hypotheses_met :
    (∃ (p : Nat) (frame : List Byte) (sfd : Nat) (s : State), p < 16 ∧ portUsed p s = true ∧ portLink p s = true ∧ serving s = true ∧ inflightOf p s
      = none ∧ arrivingHeld p s = false ∧ s.eth.met.testBit p = false) ∧
    (∃ (p : Nat) (s : State), (inflightOf p s).isSome = true) ∧
    (∃ (bad : Nat) (a : AuthWait) (s : State), s.swc.authq = [a] ∧ s.old = none ∧ authRule a.wb.tile (wbBytes a.wb s) s = none) ∧
    (∃ (bad j : Nat) (a : AuthWait) (s : State), s.swc.authq = [a] ∧ s.old = none ∧ a.wb.tile < 48 ∧ authRule a.wb.tile (wbBytes a.wb s) s = some j ∧
      (authCheck a.wb.tile j (wbBytes a.wb s) bad { s with swc := { s.swc with authq := [] } }).1 = .mac) ∧
    (∃ (p why : Nat) (r : Replica) (s : State), sendingOf p s = some r ∧ p < 12 ∧ ((why = 0 ∧ unfinished r s = true) ∨ (why = 1 ∧ truncates p r s =
      true) ∨ (why = 2 ∧ unfinished r s = true ∧ r.wb.lossless = true))) ∧
    (∃ (p why : Nat) (r : Replica) (s : State), sendingOf p s = some r ∧ p < 12 ∧ ((why = 0 ∧ unfinished r s = true) ∨ (why = 1 ∧ truncates p r s =
      true) ∨ (why = 2 ∧ unfinished r s = true ∧ r.wb.lossless = true))) ∧
    (∃ (p why : Nat) (r : Replica) (s : State), sendingOf p s = some r ∧ p < 12 ∧ ((why = 0 ∧ unfinished r s = true) ∨ (why = 1 ∧ truncates p r s =
      true) ∨ (why = 2 ∧ unfinished r s = true ∧ r.wb.lossless = true))) ∧
    (∃ (sh : Nat) (s : State), sh < 1024 ∧ (cbOf sh s).en = true ∧ (cbOf sh s).takeany = false ∧ streamSilent sh s = true) ∧
    (∃ (p c : Nat) (r : Replica) (q : List Replica) (s : State), p < 16 ∧ portLink p s = true ∧ sendingOf p s = none ∧ (((List.range 8).reverse.find?
      fun k => eligible p k (creditUpdate p s)) = some c) ∧ queueAt (queueKey p 63 c) (creditUpdate p s) = r :: q) ∧
    (∃ (p : Nat) (s : State), 12 ≤ p ∧ p < 16 ∧ portLive p s = true ∧ (isSet (T1S_STAT_active (p - 12)) s = true ∨ getF (T1S_PLCACFG_id (p - 12)) s =
      0) ∧ (sendingOf p s).isSome = true) ∧
    (∃ (p : Nat) (s : State), 12 ≤ p ∧ p < 16 ∧ portLive p s = true ∧ (isSet (T1S_STAT_active (p - 12)) s = true ∨ getF (T1S_PLCACFG_id (p - 12)) s =
      0) ∧ (sendingOf p s).isSome = true) ∧
    (∃ (p : Nat) (r : Replica) (s : State), sendingOf p s = some r ∧ (12 ≤ p → p < 16 → s.swc.onWire.testBit p = true) ∧ unfinished r s = false) ∧
    (∃ (p : Nat) (s : State), gatesOn p s = true ∧ (gateOf p s).idx + 1 < (gateOf p s).oper.run.length) ∧
    (∃ (p : Nat) (a : GateList) (s : State), p < 12 ∧ (gateOf p s).admin = some a) ∧
    (∃ (p c : Nat) (r : Replica) (q : List Replica) (s : State), gatesOn p s = true ∧ c < 8 ∧ queueAt (queueKey p 63 c) s = r :: q ∧ holdOver p c r s
      = true) :=
  ⟨⟨0, (List.replicate 64 1), 5, setB (ETH_STAT_link 0) true (rich serviceState), by decide +kernel⟩,
   ⟨0, { rich serviceState with swc := { inflight := [(0, { wb := { src := 0 }, waiting := [], policer := none, charged := 0 })] } }, by decide +kernel⟩,
   ⟨0, (⟨{ src := 17, tile := 0, inline := true }, false, []⟩), { rich serviceState with swc := { authq := [⟨{ src := 17, tile := 0, inline := true }, false, []⟩] } }, by decide +kernel⟩,
   ⟨0, 2, (⟨{ src := 17, tile := 0, inline := true }, false, []⟩), setF (CAN_AUCFG_macb 0 2) 4 (setB (CAN_AUID_en 0 2) true { rich serviceState with swc := { authq := [⟨{ src := 17, tile := 0, inline := true }, false, []⟩] } }), by decide +kernel⟩,
   ⟨0, 0, ({ wb := { src := 4 }, cut := true }), { rich serviceState with swc := { sending := [(0, { wb := { src := 4 }, cut := true })], inflight := [(4, { wb := { src := 4 }, waiting := [], policer := none, charged := 0 })] } }, by decide +kernel⟩,
   ⟨0, 1, ({ wb := { src := 4, len := 200, inline := true }, cut := true }), setF (SWC_MAXSDU_bytes 0 0) 100 { rich serviceState with swc := { sending := [(0, { wb := { src := 4, len := 200, inline := true }, cut := true })] } }, by decide +kernel⟩,
   ⟨0, 2, ({ wb := { src := 4, lossless := true }, cut := true }), { rich serviceState with swc := { sending := [(0, { wb := { src := 4, lossless := true }, cut := true })], inflight := [(4, { wb := { src := 4, lossless := true }, waiting := [], policer := none, charged := 0 })] } }, by decide +kernel⟩,
   ⟨1023, { reset with time := { sec := 1, ns := 0 }, swc := { cb := [(1023, { en := true, takeany := false })] } }, by decide +kernel⟩,
   ⟨0, 5, ({ wb := { src := 4, len := 64 } }), ([]), egressState, by decide +kernel⟩,
   ⟨12, t1sState, by decide +kernel⟩,
   ⟨12, setF (T1S_PLCACFG_id 0) 0 (setB (T1S_STAT_active 0) false t1sState), by decide +kernel⟩,
   ⟨0, ({ wb := { src := 4 } }), { rich serviceState with swc := { sending := [(0, { wb := { src := 4 } })] } }, by decide +kernel⟩,
   ⟨3, setB (SWC_GCTL_en 3) true { reset with swc := { gates := [(3, { oper := { entries := [(1, 500), (2, 500)], cycle := 1000 } })] } }, by decide +kernel⟩,
   ⟨3, ({ entries := [(1, 500)] }), setB (SWC_GCTL_en 3) true { reset with swc := { gates := [(3, { admin := some { entries := [(1, 500)] } })] } }, by decide +kernel⟩,
   ⟨3, 0, ({ wb := { src := 4, len := 64 }, cycles := 2 }), ([]), setB (SWC_GCTL_en 3) true { reset with swc := { queues := [(queueKey 3 63 0, [{ wb := { src := 4, len := 64 }, cycles := 2 }])], gates := [(3, { oper := { entries := [(2, 1000)], cycle := 1000 } })] } }, by decide +kernel⟩⟩

theorem test_RingCommandsComplete_hypotheses_met :
    (∃ (r : Nat) (rep : Replica) (q : List Replica) (s : State), r < 32 ∧ isSet (SWC_RCFG_en r) s = true ∧ isSet (SWC_RCFG_dir r) s = false ∧ (getF
      (SWC_RTAIL_idx r) s + 1) % ringSize r s ≠ getF (SWC_RHEAD_idx r) s ∧ queueAt (queueKey 16 r 0) s = rep :: q ∧ rep.wb.inline = true ∧ memRange
      (ringWorld r) true (getF (SWC_RBASE_addr r) s + 64 * getF (SWC_RTAIL_idx r) s) 64 s = true) ∧
    (∃ (r : Nat) (s : State), r < 32 ∧ 0 < (tabGet {} s.swc.rings r).since ∧ ((tabGet {} s.swc.rings r).since ≥ getF (SWC_RIRQ_cnt r) s ∨ getF
      (SWC_RIRQ_us r) s ≠ 0 ∧ (tabGet {} s.swc.rings r).first + getF (SWC_RIRQ_us r) s ≤ s.ticks)) ∧
    (∃ (r : Nat) (s : State), r < 32 ∧ 0 < (tabGet {} s.swc.rings r).since ∧ ((tabGet {} s.swc.rings r).since ≥ getF (SWC_RIRQ_cnt r) s ∨ getF
      (SWC_RIRQ_us r) s ≠ 0 ∧ (tabGet {} s.swc.rings r).first + getF (SWC_RIRQ_us r) s ≤ s.ticks)) ∧
    (∃ (r : Nat) (s : State), r < 32 ∧ isSet (SWC_RCFG_en r) s = true ∧ isSet (SWC_RCFG_dir r) s = true ∧ getF (SWC_RHEAD_idx r) s ≠ getF
      (SWC_RTAIL_idx r) s ∧ memRange (ringWorld r) false (getF (SWC_RBASE_addr r) s + 64 * getF (SWC_RHEAD_idx r) s) 64 s = true ∧ chainLease
      (ringWorld r) (leAt (rdBytes s (getF (SWC_RBASE_addr r) s + 64 * getF (SWC_RHEAD_idx r) s) 32) 0 2) s = none) ∧
    (∃ (r l : Nat) (s : State), r < 32 ∧ isSet (SWC_RCFG_en r) s = true ∧ isSet (SWC_RCFG_dir r) s = true ∧ getF (SWC_RHEAD_idx r) s ≠ getF
      (SWC_RTAIL_idx r) s ∧ memRange (ringWorld r) false (getF (SWC_RBASE_addr r) s + 64 * getF (SWC_RHEAD_idx r) s) 64 s = true ∧ chainLease
      (ringWorld r) (leAt (rdBytes s (getF (SWC_RBASE_addr r) s + 64 * getF (SWC_RHEAD_idx r) s) 32) 0 2) s = some l ∧ (leAt (rdBytes s (getF
      (SWC_RBASE_addr r) s + 64 * getF (SWC_RHEAD_idx r) s) 32) 4 4).testBit 15 = false ∧ leAt (rdBytes s (getF (SWC_RBASE_addr r) s + 64 * getF
      (SWC_RHEAD_idx r) s) 32) 2 2 ≤ (leasedPages l s).length * 256) ∧
    (∃ (rq : Requester) (w : Word) (s : State), admits rq true 0x4007001C 0 s = true ∧ wbits w 0 5 < 20) :=
  ⟨⟨17, ({ wb := { src := 17, inline := true, len := 8 } }), ([]), ringState, by decide +kernel⟩,
   ⟨17, setB (SWC_RIRQ_msix 17) true { reset with swc := { rings := [(17, { since := 3 })] } }, by decide +kernel⟩,
   ⟨17, setF (SWC_RIRQ_us 17) 5 (setF (SWC_RIRQ_cnt 17) 9 { reset with ticks := 25, swc := { rings := [(17, { since := 3, first := 20 })] } }), by decide +kernel⟩,
   ⟨17, setF (SWC_RTAIL_idx 17) 5 (setB (SWC_RCFG_dir 17) true ringState), by decide +kernel⟩,
   ⟨17, 3, setF (SWC_RTAIL_idx 17) 5 (setB (SWC_RCFG_dir 17) true { ringState with ink := { leases := [(3, { state := .held, kind := 1, res := 0, owner := 0x104 })], refs := [(0, 1)] } }), by decide +kernel⟩,
   ⟨.core 0 .normal, (0x113#32), reset, by decide +kernel⟩⟩

theorem test_TableCommandsComplete_hypotheses_met :
    (∃ (r : LearnReq) (q : List LearnReq) (s : State), s.fwt.learnq = r :: q) ∧
    (∃ (rq : Requester) (w : Word) (s : State), admits rq true 0x40080038 0 s = true ∧ wbits w 8 1 = 1 ∧ getF FWT_RHSTAT_state s = 0 ∧ tabShadow 1 s
      = true) ∧
    (∃ (s : State), getF FWT_RHSTAT_state s = 1) ∧
    (∃ (rq : Requester) (w : Word) (s : State), admits rq true 0x40080038 0 s = true ∧ wbits w 9 1 = 1 ∧ 1 ≤ getF FWT_RHSTAT_state s ∧ getF
      FWT_RHSTAT_state s ≤ 3) ∧
    (∃ (s : State), getF FWT_RHSTAT_state s = 4) ∧
    (∃ (rq : Requester) (w : Word) (s : State), admits rq true 0x400800A8 0 s = true ∧ wbits w 0 1 = 1 ∧ s.fwt.porter = none) ∧
    (∃ (run : PorterRun) (s : State), s.fwt.porter = some run ∧ memRange (rqRights run.owner) true (getF FWT_PSRC_addr s + 48 * run.next) 48 s =
      true) ∧
    (∃ (s : State), caravanReady s = true ∧ hieOn s = true ∧ (admitted s = true ∨ isSet HIE_STAT_mlost s = true)) ∧
    (∃ (s : State), caravanReady s = true ∧ hieOn s = true ∧ (admitted s = true ∨ isSet HIE_STAT_mlost s = true)) ∧
    (∃ (c : Caravan) (q : List Caravan) (s : State), isManager s = true ∧ s.fwt.inq = c :: q) ∧
    (∃ (c : Caravan) (q : List Caravan) (s : State), isManager s = false ∧ s.fwt.inq = c :: q) ∧
    (∃ (s : State), hieOn s = true ∧ getF HIE_STAT_role s ≤ 3) :=
  ⟨⟨(⟨[2, 0, 0, 0, 0, 1, 0, 1], 4, false, 9⟩), ([]), { serviceState with fwt := { learnq := [⟨[2, 0, 0, 0, 0, 1, 0, 1], 4, false, 9⟩] } }, by decide +kernel⟩,
   ⟨.core 0 .normal, (0x102#32), setB (FWT_TENT_shadow 0) true reset, by decide +kernel⟩,
   ⟨setF FWT_RHSTAT_state 1 reset, by decide +kernel⟩,
   ⟨.core 0 .secure, (0x200#32), setF FWT_RHSTAT_state 3 reset, by decide +kernel⟩,
   ⟨setF FWT_RHSTAT_state 4 reset, by decide +kernel⟩,
   ⟨.core 0 .secure, 1, reset, by decide +kernel⟩,
   ⟨(⟨.core 0 .secure, 1⟩), setF FWT_PSRC_addr secRamBase { serviceState with fwt := { porter := some ⟨.core 0 .secure, 1⟩ } }, by decide +kernel⟩,
   ⟨setB HIE_STAT_mlost true { hieState with fwt := { out := [[⟨[2, 0, 0, 0, 0, 1], 1, false, 5, 3, 7⟩], [⟨[2, 0, 0, 0, 0, 1], 1, false, 5, 3, 7⟩]] } }, by decide +kernel⟩,
   ⟨setB HIE_STAT_mlost true { hieState with ticks := 1000, fwt := { out := [[⟨[2, 0, 0, 0, 0, 1], 1, false, 5, 3, 7⟩]] } }, by decide +kernel⟩,
   ⟨(⟨3, []⟩), ([]), { setF HIE_STAT_role roleManager hieState with fwt := { inq := [⟨3, []⟩] } }, by decide +kernel⟩,
   ⟨(⟨3, []⟩), ([]), { setF HIE_STAT_role roleWorker hieState with fwt := { inq := [⟨3, []⟩] } }, by decide +kernel⟩,
   ⟨setF HIE_STAT_role roleManager hieState, by decide +kernel⟩⟩

theorem test_TranscriberCommandsComplete_hypotheses_met :
    (∃ (lid : Nat) (it : Item) (w : Waybill) (s : State), (lodgerOf lid s).running = some it ∧ it.work = .frame w) ∧
    (∃ (lid e : Nat) (s : State), sgKind (sigWord (sigFirst lid s + e) 0 s) = 1 ∧ bitsOf (sigWord (sigFirst lid s + e) 1 s) 16 16 ≠ 0) ∧
    (∃ (lid i : Nat) (s : State), i < rcNout (recipeOf lid s.str) ∧ ((outRec (recipeOf lid s.str) i).trigger = 1 ∨ (outRec (recipeOf lid s.str)
      i).trigger = 2)) ∧
    (∃ (lid i : Nat) (s : State), s.trn.deferred.contains (256 * lid + i) = true ∧ queuedWork lid (.deferred i) s = false) ∧
    (∃ (rq : Requester) (w : Word) (lid : Nat) (s : State), admits rq true 0x40090040 0 s = true ∧ sigOwner (wbits w 0 16) s = some lid) :=
  ⟨⟨32, ({ work := .frame { src := 0 }, due := 9 }), ({ src := 0 }), { rich serviceState with ink := { reset.ink with lodgers := [(32, { present := true, resident := true, running := some { work := .frame { src := 0 }, due := 9 } })] } }, by decide +kernel⟩,
   ⟨32, 2, sigState, by decide +kernel⟩,
   ⟨32, 0, recipeState, by decide +kernel⟩,
   ⟨32, 1, { rich serviceState with trn := { deferred := [256 * 32 + 1] } }, by decide +kernel⟩,
   ⟨.core 0 .normal, 1, 32, rich serviceState, by decide +kernel⟩⟩

theorem test_CanReceiveCommandsComplete_hypotheses_met :
    (∃ (n : Nat) (f : CanFrame) (ago : Nat) (s : State), n < 48 ∧ canOnline n s = true ∧ f.fmt < 2 ∧ f.data.length ≤ 64) ∧
    (∃ (n : Nat) (f : CanFrame) (ago : Nat) (ok : Bool) (s : State), n < 48 ∧ canOnline n s = true ∧ tileFunc n s = 2 ∧ f.fmt = 2 ∧ 1 ≤ f.data.length
      ∧ f.data.length ≤ 2048 ∧ ok = true ∧ (filterDecision n f s).2 = 1 ∧ xlStaged n s + 2064 ≤ 4096) ∧
    (∃ (n : Nat) (h : HandItem) (q : List HandItem) (s : State), n < 48 ∧ isCan n s = true ∧ tileHeld n s < 4 ∧ (canOf n s).hand = h :: q) ∧
    (∃ (rq : Requester) (n : Nat) (o : Nat) (s : State), n < 48 ∧ o % 4 = 0 ∧ o < 0x1400 ∧ isCan n s = true ∧ tileUsed n s = true ∧ admits rq false
      (0x40300000 + 0x2000 * n + o) 0 s = true) ∧
    (∃ (rq : Requester) (n : Nat) (buf : Nat) (s : State), n < 48 ∧ isCan n s = true ∧ admits rq true (0x40200000 + 0x1000 * n + 0x44) 0 s = true) ∧
    (∃ (rq : Requester) (n : Nat) (w : Word) (s : State), n < 48 ∧ isCan n s = true ∧ w.getLsbD 0 = true ∧ admits rq true (0x40200000 + 0x1000 * n +
      0x64) 0 s = true) ∧
    (∃ (n : Nat) (e : CanErr) (code : Nat) (dph : Bool) (s : State), n < 48 ∧ canOnline n s = true ∧ code < 7 ∧ e ≠ .xlSeen ∧ (xlError e = true →
      tileFunc n s = 2 ∧ isSet (CAN_CFG_xles n) s = true)) ∧
    (∃ (n : Nat) (e : CanErr) (code : Nat) (dph : Bool) (s : State), n < 48 ∧ canOnline n s = true ∧ code < 7 ∧ e ≠ .xlSeen ∧ (xlError e = true →
      tileFunc n s = 2 ∧ isSet (CAN_CFG_xles n) s = true)) ∧
    (∃ (n : Nat) (e : CanErr) (code : Nat) (dph : Bool) (s : State), n < 48 ∧ canOnline n s = true ∧ code < 7 ∧ xlError e = true ∧ tileFunc n s = 2 ∧
      isSet (CAN_CFG_xles n) s = false) ∧
    (∃ (n : Nat) (s : State), isCan n s = true ∧ canState n s = 5 ∧ getF (CAN_CFG_bor n) s = 2) ∧
    (∃ (n : Nat) (s : State), n < 48 ∧ isCan n s = true ∧ canState n s = 6) ∧
    (∃ (rq : Requester) (n : Nat) (s : State), n < 48 ∧ isCan n s = true ∧ canState n s = 7 ∧ admits rq true (0x40200000 + 0x1000 * n + 0) 0 s =
      true) ∧
    (∃ (rq : Requester) (n : Nat) (s : State), n < 48 ∧ isCan n s = true ∧ 1 ≤ canState n s ∧ canState n s ≤ 6 ∧ admits rq true (0x40200000 + 0x1000
      * n + 0) 0 s = true) ∧
    (∃ (rq : Requester) (n : Nat) (s : State), n < 48 ∧ isCan n s = true ∧ 1 ≤ canState n s ∧ canState n s ≤ 6 ∧ admits rq true (0x40200000 + 0x1000
      * n + 0) 0 s = true) ∧
    (∃ (rq : Requester) (n : Nat) (s : State), n < 48 ∧ isCan n s = true ∧ canState n s = 5 ∧ getF (CAN_CFG_bor n) s = 1 ∧ admits rq true (0x40200000
      + 0x1000 * n + 0) 0 s = true) :=
  ⟨⟨0, ({ id := 0x123, data := [1, 2] }), 7, canRun, by decide +kernel⟩,
   ⟨1, ({ id := 0x123, fmt := 2, data := [1, 2] }), 7, true, setB (CAN_CFG_nomatch 1) true canRun, by decide +kernel⟩,
   ⟨0, .buf 3, ([]), { canRun with can := [(0, { hand := [.buf 3] })] }, by decide +kernel⟩,
   ⟨.core 0 .normal, 1, 84, canRun, by decide +kernel⟩,
   ⟨.core 0 .normal, 1, 5, canRun, by decide +kernel⟩,
   ⟨.core 0 .normal, 1, 1, canRun, by decide +kernel⟩,
   ⟨0, .tx, 3, false, setF (CAN_ERR_tec 0) 250 canRun, by decide +kernel⟩,
   ⟨1, .xlTx, 3, false, setB (CAN_CFG_xles 1) true canRun, by decide +kernel⟩,
   ⟨1, .xlRx, 3, false, setB (CAN_CFG_xles 1) false canRun, by decide +kernel⟩,
   ⟨0, setF (CAN_CFG_bor 0) 2 (setF (CAN_STAT_state 0) 5 canRun), by decide +kernel⟩,
   ⟨0, setF (CAN_STAT_state 0) 6 canRun, by decide +kernel⟩,
   ⟨.core 0 .normal, 0, setF (CAN_STAT_state 0) 7 canRun, by decide +kernel⟩,
   ⟨.core 0 .normal, 0, canRun, by decide +kernel⟩,
   ⟨.core 0 .normal, 0, setF (CAN_STAT_state 0) 1 canRun, by decide +kernel⟩,
   ⟨.core 0 .normal, 0, setF (CAN_CFG_bor 0) 1 (setF (CAN_STAT_state 0) 5 canRun), by decide +kernel⟩⟩

theorem test_CanTransmitCommandsComplete_hypotheses_met :
    (∃ (n i : Nat) (s : State), canOnline n s = true ∧ (canOf n s).onBus = none ∧ isSet (CAN_CFG_lom n) s = false ∧ (canOf n s).stopping = false ∧
      mayBegin n s = true ∧ arbWinner n s = some i) ∧
    (∃ (n i : Nat) (meas : Option Nat) (s : State), n < 48 ∧ i < 16 ∧ isCan n s = true ∧ (canOf n s).onBus = some i ∧ getF (CAN_TXCFG_swbuf n) s ≤ i) ∧
    (∃ (n i : Nat) (meas : Option Nat) (s : State), n < 48 ∧ i < 16 ∧ isCan n s = true ∧ (canOf n s).onBus = some i) ∧
    (∃ (n i c : Nat) (r : Replica) (q : List Replica) (s : State), n < 48 ∧ isCan n s = true ∧ 2 ≤ canState n s ∧ canState n s ≤ 4 ∧ (((List.range
      (getF (CAN_TXCFG_swbuf n) s)).find? fun i => !txPending n i s) = some i) ∧ i < 16 ∧ (([7, 6, 5, 4, 3, 2, 1, 0].find? fun c => decide (queueAt
      (queueKey 17 n c) s ≠ [])) = some c) ∧ queueAt (queueKey 17 n c) s = r :: q ∧ txBad n (tfW1 (tileFrameOf r s)) s = false ∧ 16 ≤ (tileFrameOf r
      s).length) ∧
    (∃ (rq : Requester) (n : Nat) (w : Word) (i : Nat) (s : State), n < 48 ∧ isCan n s = true ∧ i < 16 ∧ getF (CAN_TXCFG_swbuf n) s ≤ i ∧ w.getLsbD i
      = true ∧ txBad n ((txOf n i s).words.getD 1 0) s = false ∧ bitsOf ((txOf n i s).words.getD 1 0) 12 2 ≠ 2 ∧ admits rq true (0x40200000 + 0x1000
      * n + 0x74) 0 s = true) ∧
    (∃ (rq : Requester) (n : Nat) (w : Word) (i : Nat) (s : State), n < 48 ∧ isCan n s = true ∧ i < 16 ∧ getF (CAN_TXCFG_swbuf n) s ≤ i ∧ w.getLsbD i
      = true ∧ txPending n i s = true ∧ admits rq true (0x40200000 + 0x1000 * n + 0x78) 0 s = true) :=
  ⟨⟨0, 3, setF (CAN_TXREQ_req 0) 8 canRun, by decide +kernel⟩,
   ⟨0, 9, none, setF (CAN_TXREQ_req 0) 0x200 { canRun with can := [(0, { onBus := some 9 })] }, by decide +kernel⟩,
   ⟨0, 9, (some 5), setF (CAN_TXREQ_req 0) 0x200 { canRun with can := [(0, { onBus := some 9 })] }, by decide +kernel⟩,
   ⟨0, 0, 4, ({ wb := { src := 17, inline := true, len := 16, data := List.replicate 16 0 } }), ([]), setF (CAN_TXCFG_swbuf 0) 8 { canRun with swc := { queues := [(queueKey 17 0 4, [{ wb := { src := 17, inline := true, len := 16, data := List.replicate 16 0 } }])] } }, by decide +kernel⟩,
   ⟨.core 0 .normal, 0, (0x8001#32), 15, setF (CAN_TXCFG_swbuf 0) 8 canRun, by decide +kernel⟩,
   ⟨.core 0 .normal, 0, (0x8001#32), 15, setF (CAN_TXREQ_req 0) 0x8000 (setF (CAN_TXCFG_swbuf 0) 8 canRun), by decide +kernel⟩⟩

theorem test_SerialCommandsComplete_hypotheses_met :
    (∃ (n : Nat) (s : State), n < 48 ∧ tileFunc n s = 3 ∧ serState n s = 2 ∧ (serOf n s).lin = none ∧ mayBegin n s = true) ∧
    (∃ (n id : Nat) (s : State), n < 48 ∧ tileFunc n s = 4 ∧ serState n s = 2 ∧ mayBegin n s = true ∧ id < 64) ∧
    (∃ (n sync pid : Nat) (s : State), n < 48 ∧ tileFunc n s = 4 ∧ serState n s = 2 ∧ mayBegin n s = true ∧ sync ≠ 0x55) ∧
    (∃ (n pid : Nat) (s : State), n < 48 ∧ tileFunc n s = 4 ∧ serState n s = 2 ∧ mayBegin n s = true ∧ pid ≠ linPid (pid % 64)) ∧
    (∃ (n : Nat) (bytes : List Byte) (fr rb : Bool) (ago : Nat) (s : State), n < 48 ∧ (tileFunc n s = 3 ∨ tileFunc n s = 4) ∧ serState n s = 2 ∧
      (serOf n s).lin ≠ none) ∧
    (∃ (rq : Requester) (n : Nat) (w : Word) (s : State), n < 48 ∧ (tileFunc n s = 3 ∨ tileFunc n s = 4) ∧ admits rq true (0x40200000 + 0x1000 * n +
      0x44) 0 s = true) ∧
    (∃ (rq : Requester) (n : Nat) (i k : Nat) (w : Word) (s : State), n < 48 ∧ i < 64 ∧ k < 2 ∧ (tileFunc n s = 3 ∨ tileFunc n s = 4) ∧ admits rq
      true (0x40200000 + 0x1000 * n + 0x400 + 8 * i + 4 * k) 0 s = true) ∧
    (∃ (n c : Nat) (r : Replica) (q : List Replica) (s : State), n < 48 ∧ (tileFunc n s = 5 ∨ tileFunc n s = 6) ∧ serState n s = 2 ∧ (serOf n
      s).tx.length < 2 ∧ (serOf n s).stopping = false ∧ (([7, 6, 5, 4, 3, 2, 1, 0].find? fun c => decide (queueAt (queueKey 17 n c) s ≠ [])) = some
      c) ∧ queueAt (queueKey 17 n c) s = r :: q ∧ 16 ≤ (tileFrameOf r s).length ∧ tfDlen (tileFrameOf r s) ≤ 2048) ∧
    (∃ (n : Nat) (s : State), n < 48 ∧ (tileFunc n s = 5 ∨ tileFunc n s = 6) ∧ serState n s = 2 ∧ (serOf n s).sending = none ∧ (serOf n s).stopping =
      false ∧ mayBegin n s = true ∧ isSet (UART_SWTX_go n) s = true) ∧
    (∃ (n : Nat) (r : Replica) (q : List Replica) (s : State), n < 48 ∧ (tileFunc n s = 5 ∨ tileFunc n s = 6) ∧ serState n s = 2 ∧ (serOf n
      s).sending = none ∧ (serOf n s).stopping = false ∧ mayBegin n s = true ∧ isSet (UART_SWTX_go n) s = false ∧ (serOf n s).tx = r :: q) ∧
    (∃ (n : Nat) (echo d : List Byte) (sw : Bool) (s : State), n < 48 ∧ (tileFunc n s = 5 ∨ tileFunc n s = 6) ∧ serState n s = 2 ∧ (serOf n
      s).sending = some (d, sw)) ∧
    (∃ (n : Nat) (chars : List UartChar) (s : State), n < 48 ∧ tileFunc n s = 5 ∧ serState n s = 2 ∧ deAsserted n s = false ∧ (serOf n s).rx = [] ∧
      isSet (UART_FRM_dlmen n) s = false ∧ 1 ≤ chars.length ∧ chars.length ≤ getF (UART_FMAX_max n) s) ∧
    (∃ (n : Nat) (chars : List UartChar) (o e : UartChar) (s : State), n < 48 ∧ tileFunc n s = 6 ∧ serState n s = 2 ∧ deAsserted n s = false ∧ (serOf
      n s).rx = [] ∧ o.stop = true ∧ o.data = 0x7E ∧ e.stop = true ∧ e.data = 0x7E ∧ (∀ c ∈ chars, c.stop = true ∧ c.data ≠ 0x7E) ∧ charsBad n
      (chars.map fun c => (0, c)) s = false ∧ (rxBytes n (chars.map fun c => (0, c)) s).getLast? = some 0x7D) ∧
    (∃ (n : Nat) (chars : List UartChar) (o e : UartChar) (body : List Byte) (s : State), n < 48 ∧ tileFunc n s = 6 ∧ serState n s = 2 ∧ deAsserted n
      s = false ∧ (serOf n s).rx = [] ∧ o.stop = true ∧ o.data = 0x7E ∧ e.stop = true ∧ e.data = 0x7E ∧ (∀ c ∈ chars, c.stop = true ∧ c.data ≠ 0x7E)
      ∧ charsBad n (chars.map fun c => (0, c)) s = false ∧ body ≠ [] ∧ body.length ≤ 2048 ∧ (rxBytes n (chars.map fun c => (0, c)) s).getLast? ≠ some
      0x7D ∧ hdlcUnescape (getF (HDLC_ACCM_map n) s) (rxBytes n (chars.map fun c => (0, c)) s) = body ++ hdlcFcs (isSet (HDLC_CFG_crc n) s) body) ∧
    (∃ (rq : Requester) (n : Nat) (w : Word) (s : State), n < 48 ∧ (tileFunc n s = 5 ∨ tileFunc n s = 6) ∧ w.getLsbD 16 = true ∧ 1 ≤ w.toNat % 512 ∧
      w.toNat % 512 ≤ 256 ∧ admits rq true (0x40200000 + 0x1000 * n + 0x54) 0 s = true) ∧
    (∃ (n levels : Nat) (s : State), n < 48 ∧ tileFunc n s = 7 ∧ serState n s = 2) ∧
    (∃ (rq : Requester) (n : Nat) (s : State), n < 48 ∧ 3 ≤ tileFunc n s ∧ tileFunc n s ≤ 6 ∧ serState n s = 2 ∧ admits rq true (0x40200000 + 0x1000
      * n + 0) 0 s = true) ∧
    (∃ (rq : Requester) (n : Nat) (s : State), n < 48 ∧ 3 ≤ tileFunc n s ∧ tileFunc n s ≤ 6 ∧ serState n s = 3 ∧ admits rq true (0x40200000 + 0x1000
      * n + 0) 0 s = true) :=
  ⟨⟨2, serRun, by decide +kernel⟩,
   ⟨3, 0x2A, setF (LIN_FRM_dir 3 0x2A) 1 serRun, by decide +kernel⟩,
   ⟨3, 0x54, 0, serRun, by decide +kernel⟩,
   ⟨3, 0x2A, serRun, by decide +kernel⟩,
   ⟨2, ([1, 2]), false, false, 3, { serRun with ser := [(2, { lin := some (5, false), stopping := true })] }, by decide +kernel⟩,
   ⟨.core 0 .normal, 2, (3#32), serRun, by decide +kernel⟩,
   ⟨.core 0 .normal, 2, 5, 1, (0x12345678#32), serRun, by decide +kernel⟩,
   ⟨4, 6, ({ wb := { src := 17, inline := true, len := 16, data := List.replicate 16 0 } }), ([]), { serRun with swc := { queues := [(queueKey 17 4 6, [{ wb := { src := 17, inline := true, len := 16, data := List.replicate 16 0 } }])] } }, by decide +kernel⟩,
   ⟨4, setB (UART_SWTX_go 4) true serRun, by decide +kernel⟩,
   ⟨4, ({ wb := { src := 17 }, out := [1] }), ([]), { serRun with ser := [(4, { tx := [{ wb := { src := 17 }, out := [1] }] })] }, by decide +kernel⟩,
   ⟨4, ([1, 2]), ([1, 2]), true, setB (UART_SWTX_go 4) true { serRun with ser := [(4, { sending := some ([1, 2], true) })] }, by decide +kernel⟩,
   ⟨4, ([{ data := 1 }, { data := 2 }]), setF (UART_FMAX_max 4) 20 serRun, by decide +kernel⟩,
   ⟨5, ([{ data := 1 }, { data := 0x7D }]), ({ data := 0x7E }), ({ data := 0x7E }), serRun, by decide +kernel⟩,
   ⟨5, (hdlcFrameBody.map fun b => { data := b }), ({ data := 0x7E }), ({ data := 0x7E }), ([0x41]), serRun, by decide +kernel⟩,
   ⟨.core 0 .normal, 4, (0x10100#32), serRun, by decide +kernel⟩,
   ⟨6, 1, serRun, by decide +kernel⟩,
   ⟨.core 0 .normal, 2, { serRun with ser := [(2, { lin := some (5, false) })] }, by decide +kernel⟩,
   ⟨.core 0 .normal, 4, setF (SER_STAT_state 4) 3 serRun, by decide +kernel⟩⟩

theorem test_PortCommandsComplete_hypotheses_met :
    (∃ (p spd : Nat) (anok : Bool) (s : State), p < 12 ∧ portLive p s = true ∧ isSet (ETH_STAT_link p) s = false ∧ linkSource p s = true) ∧
    (∃ (p spd : Nat) (anok : Bool) (s : State), p < 12 ∧ portLive p s = true ∧ isSet (ETH_STAT_link p) s = false ∧ linkSource p s = true) ∧
    (∃ (p : Nat) (s : State), p < 12 ∧ isSet (ETH_STAT_link p) s = true) ∧
    (∃ (p : Nat) (frame : List Byte) (sfd : Nat) (ok sym : Bool) (s : State), p < 16 ∧ portLink p s = true ∧ serving s = true ∧ macVerdict p frame ok
      sym s ≠ 0) ∧
    (∃ (p : Nat) (frame : List Byte) (sfd : Nat) (ok sym : Bool) (s : State), p < 16 ∧ portLink p s = true ∧ serving s = true ∧ portUsed p s = true ∧
      macVerdict p frame ok sym s = 0) ∧
    (∃ (p : Nat) (frame : List Byte) (sfd : Nat) (ok sym : Bool) (s : State), p < 16 ∧ portLink p s = true ∧ serving s = true ∧ portUsed p s = true ∧
      macVerdict p frame ok sym s = 0) ∧
    (∃ (p : Nat) (frame : List Byte) (sfd : Nat) (ok sym : Bool) (s : State), p < 16 ∧ portLink p s = true ∧ serving s = false ∧ macVerdict p frame
      ok sym s = 0) ∧
    (∃ (p : Nat) (frame : List Byte) (sfd : Nat) (ok sym : Bool) (s : State), p < 16 ∧ portLink p s = true ∧ serving s = false ∧ macVerdict p frame
      ok sym s = 0) ∧
    (∃ (rq : Requester) (p : Nat) (w : Word) (s : State), p < 16 ∧ portUsed p s = true ∧ isSet (ETH_MDIOSTAT_busy 0) s = false ∧ wbits w 26 3 ≤ 4 ∧
      admits rq true (0x40400000 + 0x1000 * p + 0x40) 0 s = true) ∧
    (∃ (ans : Option Nat) (op a b c : Nat) (s : State), s.eth.mdio = some (op, a, b, c)) ∧
    (∃ (rq : Requester) (p : Nat) (x : TxStamp) (r : List TxStamp) (s : State), p < 16 ∧ portUsed p s = true ∧ tabGet [] s.eth.txts p = x :: r ∧
      admits rq false (0x40400000 + 0x1000 * p + 0x20) 0 s = true) ∧
    (∃ (p : Nat) (s : State), 12 ≤ p ∧ p < 16 ∧ portLive p s = true ∧ getF (T1S_PLCACFG_id (p - 12)) s ≠ 0) ∧
    (∃ (p : Nat) (s : State), 12 ≤ p ∧ p < 16 ∧ getF (T1S_PLCACFG_id (p - 12)) s ≠ 0) ∧
    (∃ (p : Nat) (r : Replica) (s : State), 12 ≤ p ∧ p < 16 ∧ s.swc.onWire.testBit p = true ∧ sendingOf p s = some r) ∧
    (∃ (p : Nat) (s : State), isSet TSY_CFG_role s = true ∧ getF TSY_CFG_slvport s = p) ∧
    (∃ (s : State), isSet TSY_CFG_role s = true ∧ s.eth.syncLost = false) ∧
    (∃ (rq : Requester) (s : State), admits rq true 0x40170000 0 s = true) ∧
    (∃ (rq : Requester) (s : State), admits rq true 0x40170000 0 s = true) ∧
    (∃ (rq : Requester) (w : Word) (s : State), fadjOk w.toNat = true ∧ admits rq true 0x40170010 0 s = true) :=
  ⟨⟨0, 2, true, portState, by decide +kernel⟩,
   ⟨0, 2, true, portState, by decide +kernel⟩,
   ⟨0, egressState, by decide +kernel⟩,
   ⟨0, ([1, 2]), 5, true, true, egressState, by decide +kernel⟩,
   ⟨0, (List.replicate 64 1), 5, true, false, egressState, by decide +kernel⟩,
   ⟨0, (List.replicate 64 1), 5, true, false, { egressState with eth := { egressState.eth with met := 1 } }, by decide +kernel⟩,
   ⟨0, ([0x07, 0x48, 0x80, 0x50, 0x4C] ++ List.replicate 60 1), 5, true, false, bootPortState, by decide +kernel⟩,
   ⟨0, (List.replicate 64 1), 5, true, false, bootPortState, by decide +kernel⟩,
   ⟨.core 0 .normal, 0, (0x04000001#32), rich serviceState, by decide +kernel⟩,
   ⟨(some 0x1234), 1, 2, 3, 4, setB (ETH_MDIOSTAT_busy 0) true { serviceState with eth := { mdio := some (1, 2, 3, 4) } }, by decide +kernel⟩,
   ⟨.core 0 .normal, 0, (⟨1,2,3,4,5⟩), ([⟨4,0,0,0,0⟩]), { rich serviceState with eth := { txts := [(0, [⟨1,2,3,4,5⟩, ⟨4,0,0,0,0⟩])] } }, by decide +kernel⟩,
   ⟨12, setF (T1S_PLCACFG_id 0) 3 (setB SYS_RAILOK_t1s true (rich serviceState)), by decide +kernel⟩,
   ⟨12, setF (T1S_PLCACFG_id 0) 3 t1sState, by decide +kernel⟩,
   ⟨12, ({ wb := { src := 4 } }), { t1sState with swc := { t1sState.swc with onWire := 0x1000 } }, by decide +kernel⟩,
   ⟨2, setF TSY_CFG_slvport 2 (setB TSY_CFG_role true serviceState), by decide +kernel⟩,
   ⟨setB TSY_CFG_role true serviceState, by decide +kernel⟩,
   ⟨.core 0 .normal, setF TSY_SETSLO_sec 77 serviceState, by decide +kernel⟩,
   ⟨.core 0 .normal, setF TSY_SETNS_ns 999999999 (setF TSY_SETSLO_sec 77 { serviceState with time := { sec := 5, ns := 999999999 } }), by decide +kernel⟩,
   ⟨.core 0 .normal, (5#32), serviceState, by decide +kernel⟩⟩

theorem test_SleepAndWakeSourceCommandsComplete_hypotheses_met :
    (∃ (rq : Requester) (hi : Bool) (w : Word) (u : Nat) (s : State), wksOpen s = true ∧ u ∈ unitsOf hi w ∧ unitUsed u s = true ∧ unitAsleep u s =
      false ∧ ¬ (u < 48 ∧ inDeltaBanks u s = true) ∧ admits rq true (if hi then 0x400C0004 else 0x400C0000) 0 s = true) ∧
    (∃ (u : Nat) (s : State), u < 64 ∧ unitPending u s = true ∧ sleepReady u s = true) ∧
    (∃ (rq : Requester) (hi : Bool) (w : Word) (u : Nat) (s : State), wksOpen s = true ∧ u ∈ unitsOf hi w ∧ unitUsed u s = true ∧ ¬ (u < 48 ∧
      inDeltaBanks u s = true) ∧ (unitAsleep u s = false ∨ unitPending u s = false) ∧ admits rq true (if hi then 0x400C000C else 0x400C0008) 0 s =
      true) ∧
    (∃ (n : Nat) (f : CanFrame) (dlc : Nat) (s : State), filterRuns n s = true ∧ isCan n s = true ∧ f.fmt = 0 ∧ (wakeCfg n s).tcfg % 4 = 2 ∧ f.rtr =
      false ∧ wakeMatch (wakeCfg n s) f dlc = true ∧ unitPending n s = false) ∧
    (∃ (n us : Nat) (s : State), filterRuns n s = true ∧ (isCan n s = true ∨ isLin n s = true) ∧ (wakeCfg n s).tcfg % 4 = 1 ∧ bitsOf (wakeCfg n
      s).tcfg 16 16 ≤ us ∧ unitPending n s = false) ∧
    (∃ (n : Nat) (s : State), filterRuns n s = true ∧ isCan n s = true ∧ (wakeCfg n s).tcfg % 4 = 2 ∧ (wakeCfg n s).tcfg.testBit 2 = true ∧
      unitPending n s = false) ∧
    (∃ (p us : Nat) (s : State), p < 16 ∧ unitAsleep (48 + p) s = true ∧ portMode p s ≠ 4 ∧ (if p < 12 then isSet SYS_RAILOK_sds s else isSet
      SYS_RAILOK_t1s s) = true ∧ (tabGet 0 s.wks.ports p).testBit 0 = true ∧ bitsOf (tabGet 0 s.wks.ports p) 16 8 ≤ us ∧ unitPending (48 + p) s =
      false) ∧
    (∃ (pin : Bool) (i u : Nat) (s : State), serving s = true ∧ (if pin then i < 2 ∧ s.wks.pinDue.testBit i = true else i < 4 ∧ (getF WKS_SRC_wire
      s).testBit i = true) ∧ isSet WKS_SRC_grpen s = true ∧ u ∈ groupMembers (getF WKS_SRC_grp s) s ∧ unitAsleep u s = true ∧ unitPending u s =
      false) ∧
    (∃ (pin : Bool) (i u : Nat) (s : State), serving s = true ∧ (if pin then i < 2 ∧ s.wks.pinDue.testBit i = true else i < 4 ∧ (getF WKS_SRC_wire
      s).testBit i = true) ∧ isSet WKS_SRC_grpen s = true ∧ u ∈ groupMembers (getF WKS_SRC_grp s) s ∧ unitAsleep u s = true ∧ unitPending u s =
      false) :=
  ⟨⟨.core 0 .normal, true, (0x00010000#32), 48, egressState, by decide +kernel⟩,
   ⟨0, setF WKS_PENDA_t 1 canRun, by decide +kernel⟩,
   ⟨.core 0 .normal, false, (1#32), 0, setF WKS_ASLEEPA_t 1 canRun, by decide +kernel⟩,
   ⟨0, ({ id := 0x123, data := [1, 2] }), 2, wakeState 2, by decide +kernel⟩,
   ⟨0, 50, wakeState (1 + 50 * 2 ^ 16), by decide +kernel⟩,
   ⟨0, setF (WKS_TSTAT_fec 0) 31 (wakeState 6), by decide +kernel⟩,
   ⟨12, 20, setF WKS_ASLEEPB_p 0x1000 (setB SYS_RAILOK_t1s true { rich serviceState with wks := { ports := [(12, 1 + 20 * 2 ^ 16)] } }), by decide +kernel⟩,
   ⟨true, 1, 0, (setB WKS_SRC_grpen true (setF (WKS_GRPA_t 0) 1 { wakeState 0 with wks := { (wakeState 0).wks with pinDue := 2 } })), by decide +kernel⟩,
   ⟨false, 2, 0, setF WKS_SRC_wire 4 (setB WKS_SRC_grpen true (setF (WKS_GRPA_t 0) 1 (wakeState 0))), by decide +kernel⟩⟩

theorem test_WakeCompletionCommandsComplete_hypotheses_met :
    (∃ (g : Nat) (s : State), g < 3 ∧ s.power.sdsStarting.testBit g = true) ∧
    (∃ (u : Nat) (s : State), u < 64 ∧ windowOver u s = true) ∧
    (∃ (rq : Requester) (hi : Bool) (w : Word) (u e t0 : Nat) (s : State), u ∈ unitsOf hi w ∧ windowOf u s = some (e, t0) ∧ s.ticks ≤ t0 + 1000 *
      getF WKS_FWCFG_win s ∧ admits rq true (if hi then 0x400C0024 else 0x400C0020) 0 s = true) ∧
    (∃ (rq : Requester) (w : Word) (s : State), w.getLsbD 0 = true ∧ admits rq true 0x400C0038 0 s = true) ∧
    (∃ (n : Nat) (s : State), linMaySleep n s = true) ∧
    (∃ (n : Nat) (s : State), linMaySleep n s = true) ∧
    (∃ (n : Nat) (s : State), n < 48 ∧ 0 < tabGet 0 s.wks.pulses n ∧ tileFunc n s = 3 ∧ (serState n s = 1 ∨ serState n s = 2) ∧ mayBegin n s = true) ∧
    (∃ (n : Nat) (s : State), n < 48 ∧ 0 < tabGet 0 s.wks.pulses n ∧ tileFunc n s = 4 ∧ (serState n s = 1 ∨ serState n s = 2) ∧ mayBegin n s = true) :=
  ⟨⟨1, { serviceState with power := { serviceState.power with sdsStarting := 2 } }, by decide +kernel⟩,
   ⟨5, { serviceState with ticks := 3000000, wks := { windows := [(5, (3, 77))] } }, by decide +kernel⟩,
   ⟨.core 0 .normal, false, (0x20#32), 5, 3, 77, { serviceState with wks := { windows := [(5, (3, 77))] } }, by decide +kernel⟩,
   ⟨.core 0 .normal, (1#32), serviceState, by decide +kernel⟩,
   ⟨3, setB (WKS_TCFG_gtsrx 3) true serRun, by decide +kernel⟩,
   ⟨3, setB (WKS_TCFG_gtsrx 3) true serRun, by decide +kernel⟩,
   ⟨2, { serRun with wks := { pulses := [(2, 1)] } }, by decide +kernel⟩,
   ⟨3, { serRun with wks := { pulses := [(3, 5)] } }, by decide +kernel⟩⟩

theorem test_HostCommandsComplete_hypotheses_met :
    (∃ (x : Nat) (v : Word) (s : State), isSet BRG_STAT_link s = true ∧ s.brg.d3hot = false ∧ (busRead .pcie (0x40000000 + x % 0x1000000) s).bus =
      .data v) ∧
    (∃ (x : Nat) (w : Word) (s : State), isSet BRG_STAT_link s = true ∧ s.brg.d3hot = false ∧ (busWrite .pcie (0x40000000 + x % 0x1000000) w s).bus ≠
      .error) ∧
    (∃ (x k : Nat) (w : Word) (s : State), isSet BRG_STAT_link s = true) ∧
    (∃ (x k : Nat) (w : Word) (s : State), isSet BRG_STAT_link s = true) ∧
    (∃ (i k : Nat) (w : Word) (s : State), i < 6 ∧ s.brg.bars.length = 3 ∧ isSet BRG_STAT_link s = true) ∧
    (∃ (x : Nat) (s : State), isSet BRG_STAT_link s = true ∧ s.brg.d3hot = true) ∧
    (∃ (gen width : Nat) (s : State), pcieUp s = true ∧ (gen = 1 ∨ gen = 2) ∧ (width = 1 ∨ width = 2)) ∧
    (∃ (a len : Nat) (bytes : List Byte) (s : State), qspiUp s = true ∧ a % 4 = 0 ∧ 0x40000000 ≤ a ∧ a < 0x41000000 ∧ len % 256 = 0 ∧ bytes.length =
      4 ∧ qspiForbidden true a 1 s = none ∧ (busWrite .qspi a (BitVec.ofNat 32 (leAt bytes 0 4)) s).bus ≠ .error) ∧
    (∃ (s : State), qspiUp s = true) ∧
    (∃ (v : Nat) (r : List Nat) (s : State), s.evc.msixReq = v :: r) ∧
    (∃ (v : Nat) (s : State), v < 64 ∧ (getF (msixPend v) s).testBit (v % 32) = true ∧ msixReady v s = true) ∧
    (∃ (e us : Nat) (r : List (Nat × Nat)) (s : State), s.evc.hieReq = (e, us) :: r ∧ hieOn s = true ∧ e ∉ s.evc.paced ∧ ((s.evc.deferred.any fun x
      => decide (x.1 = e)) = false) ∧ isManager s = false ∧ isSet HIE_STAT_mlost s = false ∧ inlineCount s < 1024) ∧
    (∃ (e us : Nat) (r : List (Nat × Nat)) (s : State), s.evc.hieReq = (e, us) :: r ∧ hieOn s = true ∧ e ∈ s.evc.paced) ∧
    (∃ (e us : Nat) (s : State), s.evc.deferred = [(e, us)] ∧ s.evc.paced = [] ∧ isManager s = false ∧ isSet HIE_STAT_mlost s = false ∧ inlineCount s
      < 1024) ∧
    (∃ (m : PMsg) (r : List PMsg) (s : State), s.hie.inbox = m :: r ∧ m.type = pEVENT ∧ isManager s = true ∧ s.brg.revq.length < 64) ∧
    (∃ (rq : Requester) (e : RemoteEvent) (r : List RemoteEvent) (s : State), s.brg.revq = e :: r ∧ admits rq false BRG_REV0_event.addr 0 s = true) :=
  ⟨⟨0x170010, (5#32), setF TSY_FADJ_fadj 5 hostState, by decide +kernel⟩,
   ⟨0x170010, (5#32), hostState, by decide +kernel⟩,
   ⟨0x44, 15, (3#32), hostState, by decide +kernel⟩,
   ⟨0x44, 15, (0#32), { hostState with brg := { hostState.brg with d3hot := true } }, by decide +kernel⟩,
   ⟨5, 15, (0xFFFFFFFF#32), hostState, by decide +kernel⟩,
   ⟨0x170010, { hostState with brg := { hostState.brg with d3hot := true } }, by decide +kernel⟩,
   ⟨2, 1, hostState, by decide +kernel⟩,
   ⟨0x40170010, 0, ([1, 2, 0, 0]), hostState, by decide +kernel⟩,
   ⟨hostState, by decide +kernel⟩,
   ⟨40, ([3]), { hostState with evc := { msixReq := [40, 3] } }, by decide +kernel⟩,
   ⟨40, setF BRG_MSIXPBA1_pend 256 { hostState with brg := { msixOn := true, master := true } }, by decide +kernel⟩,
   ⟨26, 5, ([]), { hieState with evc := { hieReq := [(26, 5)] } }, by decide +kernel⟩,
   ⟨26, 5, ([]), { hieState with evc := { hieReq := [(26, 5)], paced := [26] } }, by decide +kernel⟩,
   ⟨26, 5, { hieState with evc := { deferred := [(26, 5)] } }, by decide +kernel⟩,
   ⟨(msg 7 5 [3, 1, 0, 78, 0x40, 0, 0, 0]), ([]), fetchState none [msg 7 5 [3, 1, 0, 78, 0x40, 0, 0, 0]], by decide +kernel⟩,
   ⟨.core 0 .normal, (⟨5, 3, 1, 77⟩), ([]), { mgrState with brg := { revq := [⟨5, 3, 1, 77⟩] } }, by decide +kernel⟩⟩

theorem test_FarWindowCommandsComplete_hypotheses_met :
    (∃ (rq : Requester) (c a n : Nat) (s : State), rq = .core c .normal ∧ coreFarOk a n = true ∧ farRefused (farDev a) s = none ∧
      ((s.brg.fetches.find? fun e => decide (rqTag e.2.rq = rqTag rq ∧ e.2.dev = farDev a ∧ e.2.addr = farReg a ∧ e.2.n = n)) = none) ∧ (((List.range
      16).find? fun b => !(s.brg.fetches.any fun e => decide (e.1 = b))) = some 0) ∧ (grantLease 5 0 (rqTag rq) none s).isSome = true) ∧
    (∃ (rq : Requester) (c a n b : Nat) (f : Fetch) (l : List Nat) (s : State), rq = .core c .normal ∧ coreFarOk a n = true ∧ farRefused (farDev a) s
      = none ∧ ((s.brg.fetches.find? fun e => decide (rqTag e.2.rq = rqTag rq ∧ e.2.dev = farDev a ∧ e.2.addr = farReg a ∧ e.2.n = n)) = some (b, f))
      ∧ (leaseOf f.lease s).state = .held ∧ f.res = some (some l) ∧ l ≠ []) ∧
    (∃ (m : PMsg) (r : List PMsg) (b : Nat) (f : Fetch) (s : State), s.hie.inbox = m :: r ∧ m.type = pFARREAD ∧ m.at 0 1 = 2 ∧ m.at 4 1 = 0 ∧
      ((s.brg.fetches.find? fun e => decide (e.2.tag = m.at 2 2 ∧ e.2.dev = m.src ∧ e.2.res = none)) = some (b, f)) ∧ f.held = 0) ∧
    (∃ (b : Nat) (f : Fetch) (s : State), ((s.brg.fetches.find? fun e => decide (e.1 = b)) = some (b, f)) ∧ f.res = none ∧ f.held = 0) ∧
    (∃ (b : Nat) (f : Fetch) (s : State), ((s.brg.fetches.find? fun e => decide (e.1 = b)) = some (b, f)) ∧ f.res.isSome = true ∧ (leaseOf f.lease
      s).state = .held) ∧
    (∃ (rq : Requester) (c a : Nat) (ws : List Word) (s : State), rq = .core c .normal ∧ coreFarOk a ws.length = true ∧ farRefused (farDev a) s =
      none ∧ s.brg.writes.length < 32) ∧
    (∃ (m : PMsg) (r : List PMsg) (w : FarWrite) (s : State), s.hie.inbox = m :: r ∧ m.type = pFARWRITE ∧ m.at 0 1 = 2 ∧ m.at 4 1 = 0 ∧
      ((s.brg.writes.find? fun x => decide (x.tag = m.at 2 2 ∧ x.dev = m.src)) = some w)) ∧
    (∃ (tag : Nat) (w : FarWrite) (s : State), ((s.brg.writes.find? fun x => decide (x.tag = tag)) = some w)) ∧
    (∃ (m : PMsg) (r : List PMsg) (s : State), s.hie.inbox = m :: r ∧ m.at 0 1 = 1 ∧ m.type = pFARREAD) ∧
    (∃ (m : PMsg) (r : List PMsg) (s : State), s.hie.inbox = m :: r ∧ m.at 0 1 = 1 ∧ m.type = pFARWRITE) :=
  ⟨⟨.core 0 .normal, 0, 0x55000000, 1, mgrState, by decide +kernel⟩,
   ⟨.core 0 .normal, 0, 0x55000000, 1, 2, ({ fetch0 with res := some (some [9]) }), ([9]), fetchState (some (some [9])) [], by decide +kernel⟩,
   ⟨(msg 5 5 [2, 1, 0, 77, 0, 0, 0, 0, 1, 2, 3, 4]), ([]), 2, fetch0, fetchState none [msg 5 5 [2, 1, 0, 77, 0, 0, 0, 0, 1, 2, 3, 4]], by decide +kernel⟩,
   ⟨2, fetch0, fetchState none [], by decide +kernel⟩,
   ⟨2, ({ fetch0 with res := some none }), fetchState (some none) [], by decide +kernel⟩,
   ⟨.core 0 .normal, 0, 0x55000000, ([5#32]), mgrState, by decide +kernel⟩,
   ⟨(msg 6 5 [2, 1, 0, 78, 0, 0, 0, 0]), ([]), (⟨78, .core 0 .normal, 5, 0x40000000, [1]⟩), fetchState none [msg 6 5 [2, 1, 0, 78, 0, 0, 0, 0]], by decide +kernel⟩,
   ⟨78, (⟨78, .core 0 .normal, 5, 0x40000000, [1]⟩), fetchState none [], by decide +kernel⟩,
   ⟨(msg 5 5 [1, 1, 0, 78, 0x40, 0, 0, 0]), ([]), fetchState none [msg 5 5 [1, 1, 0, 78, 0x40, 0, 0, 0]], by decide +kernel⟩,
   ⟨(msg 6 5 [1, 1, 0, 78, 0x40, 0, 0, 0, 0, 0, 0, 1]), ([]), fetchState none [msg 6 5 [1, 1, 0, 78, 0x40, 0, 0, 0, 0, 0, 0, 1]], by decide +kernel⟩⟩

theorem test_AdmissionCommandsComplete_hypotheses_met :
    (∃ (bad p : Nat) (f : List Byte) (r : List (Nat × List Byte)) (s : State), s.hie.rx = (p, f) :: r ∧ serving s = true ∧ beNat (slice f 5 1) ≠ ownId
      s ∧ beNat (slice f 5 1) ≠ 255) ∧
    (∃ (bad p : Nat) (f : List Byte) (r : List (Nat × List Byte)) (s : State), s.hie.rx = (p, f) :: r ∧ serving s = true ∧ beNat (slice f 5 1) = ownId
      s ∧ ownId s ≠ 255 ∧ formOk (hieBody f) = true ∧ hieActive s = true) ∧
    (∃ (id : Nat) (s : State), applicant s = true ∧ askFor s = some id) ∧
    (∃ (s : State), applicant s = true ∧ askFor s = none) ∧
    (∃ (m : PMsg) (r : List PMsg) (s : State), isManager s = true ∧ isSet HIE_STAT_probe s = false ∧ s.hie.answered < 8 ∧ s.hie.joinq = m :: r ∧ 1 ≤
      m.at 2 1 ∧ m.at 2 1 ≤ 63 ∧ m.at 1 1 ≠ roleStandby ∧ ((s.hie.peers.any fun e => decide (e.1 = m.at 2 1 ∧ e.2.ident ≠ leAt m.payload 8 8)) =
      false)) ∧
    (∃ (m : PMsg) (r : List PMsg) (s : State), s.hie.inbox = m :: r ∧ m.type = pJOIN ∧ (m.at 0 1 = 2 ∨ m.at 0 1 = 3) ∧ leAt m.payload 8 8 =
      s.fuse.ident ∧ admitted s = false ∧ isManager s = false) ∧
    (∃ (s : State), admitted s = true ∧ isManager s = false ∧ byPosition s = true ∧ posId s ≠ some (ownId s)) ∧
    (∃ (s : State), admitted s = true ∧ isSet HIE_STAT_probe s = false) ∧
    (∃ (m : PMsg) (r : List PMsg) (s : State), s.hie.inbox = m :: r ∧ m.type = pHEARTBEAT ∧ m.at 0 1 ≠ roleManager ∧ isManager s = true ∧
      ((s.hie.peers.any fun e => decide (e.1 = m.src)) = true)) ∧
    (∃ (m : PMsg) (r : List PMsg) (s : State), s.hie.inbox = m :: r ∧ m.type = pHEARTBEAT ∧ m.at 0 1 = roleManager ∧ isManager s = false ∧ admitted s
      = true ∧ m.spos = getF HIE_STAT_mpos s) ∧
    (∃ (d : Nat) (s : State), isManager s = true ∧ ((s.hie.peers.any fun e => decide (e.1 = d)) = true)) ∧
    (∃ (s : State), admitted s = true ∧ isManager s = false ∧ ownRole s ≠ roleStandby) ∧
    (∃ (s : State), serving s = true ∧ hieOn s = true ∧ ownRole s = roleStandby ∧ admitted s = true) ∧
    (∃ (m : PMsg) (r : List PMsg) (s : State), s.hie.inbox = m :: r ∧ m.type = pTAKEOVER ∧ isManager s = false ∧ admitted s = true ∧ (m.at 0
      8).testBit (ownId s) = true ∧ newer m.epoch (getF FWT_EPOCH_epoch s) = true) ∧
    (∃ (s : State), isManager s = true ∧ isSet HIE_STAT_probe s = true) :=
  ⟨⟨0, 2, (List.replicate 64 5), ([]), { hieW with hie := { rx := [(2, List.replicate 64 5)] } }, by decide +kernel⟩,
   ⟨0, 2, joinFrame, ([]), setF HIE_STAT_id 9 { hieW with hie := { rx := [(2, joinFrame)] } }, by decide +kernel⟩,
   ⟨(getF HIE_CFG_devid hieApp), hieApp, by decide +kernel⟩,
   ⟨setB HIE_CFG_byid true hieApp, by decide +kernel⟩,
   ⟨(msg 2 9 ([1, 0, 9, 0, 2, 0, 0, 0] ++ List.replicate 16 3)), ([]), { mgrState with hie := { mgrState.hie with joinq := [msg 2 9 ([1, 0, 9, 0, 2, 0, 0, 0] ++ List.replicate 16 3)] } }, by decide +kernel⟩,
   ⟨(msg 2 0 ([2, 0, 9, 0, 2, 0, 0, 0] ++ List.replicate 16 0)), ([]), { hieApp with hie := { inbox := [msg 2 0 ([2, 0, 9, 0, 2, 0, 0, 0] ++ List.replicate 16 0)] } }, by decide +kernel⟩,
   ⟨setB HIE_CFG_byid true hieW, by decide +kernel⟩,
   ⟨hieW, by decide +kernel⟩,
   ⟨(msg 1 5 [0, 0, 0]), ([]), { mgrState with hie := { mgrState.hie with inbox := [msg 1 5 [0, 0, 0]] } }, by decide +kernel⟩,
   ⟨(msg 1 0 ([1, 0, 0] ++ List.replicate 16 3)), ([]), setF HIE_STAT_mpos 3 { hieW with hie := { hieW.hie with inbox := [msg 1 0 ([1, 0, 0] ++ List.replicate 16 3)] } }, by decide +kernel⟩,
   ⟨5, mgrState, by decide +kernel⟩,
   ⟨hieW, by decide +kernel⟩,
   ⟨setF HIE_STAT_role 2 hieW, by decide +kernel⟩,
   ⟨({ msg 9 2 (List.replicate 16 0xFF) with epoch := 7 }), ([]), setF HIE_STAT_id 9 { hieW with hie := { hieW.hie with inbox := [{ msg 9 2 (List.replicate 16 0xFF) with epoch := 7 }] } }, by decide +kernel⟩,
   ⟨setB HIE_STAT_probe true mgrState, by decide +kernel⟩⟩

theorem test_HierarchyCommandsComplete_hypotheses_met :
    (∃ (img : List Byte) (m : PMsg) (r : List PMsg) (s : State), s.hie.inbox = m :: r ∧ m.type = pIMAGEBLOCK ∧ m.at 0 1 = 1 ∧ servesImages s = true ∧
      128 ≤ img.length) ∧
    (∃ (m : PMsg) (r : List PMsg) (s : State), s.hie.inbox = m :: r ∧ m.type = pIMAGEBLOCK ∧ m.at 0 1 = 2 ∧ flashless s = true ∧ mode s = mLoading ∧
      s.loader.accepted = false) ∧
    (∃ (s : State), flashless s = true ∧ mode s = mLoading ∧ s.loader.accepted = false ∧ s.loader.head = false) ∧
    (∃ (m : PMsg) (r : List PMsg) (s : State), s.hie.inbox = m :: r ∧ m.type = pIMAGEBLOCK ∧ m.at 0 1 = 3 ∧ isManager s = false ∧ m.src = 0) ∧
    (∃ (m : PMsg) (r : List PMsg) (s : State), s.hie.inbox = m :: r ∧ m.type = pIMAGEBLOCK ∧ m.at 0 1 = 4 ∧ isManager s = false ∧ m.src = 0 ∧
      s.hie.gather = none ∧ m.at 1 1 < 128) ∧
    (∃ (m : PMsg) (r : List PMsg) (s : State), s.hie.inbox = m :: r ∧ m.type = pIMAGEBLOCK ∧ m.at 0 1 = 5 ∧ isManager s = false ∧ m.src = 0 ∧
      ownsSession (remoteManager m) s = true ∧ isSet IMG_DLTSTAT_busy s = false) ∧
    (∃ (m : PMsg) (r : List PMsg) (s : State), s.hie.inbox = m :: r ∧ m.type = pIMAGEBLOCK ∧ m.at 0 1 = 6 ∧ isManager s = false ∧ m.src = 0 ∧
      ownsSession (remoteManager m) s = true) ∧
    (∃ (m : PMsg) (r : List PMsg) (s : State), s.hie.inbox = m :: r ∧ m.type = pIMAGEBLOCK ∧ m.at 0 1 = 7 ∧ isManager s = true ∧ ((s.hie.peers.any fun
      e => decide (e.1 = m.src)) = true)) ∧
    (∃ (rq : Requester) (w : Word) (s : State), rqSecure rq = true ∧ isManager s = true ∧ keyed 0x7C19 w = true ∧ admits rq true 0x4016002C 0 s = true
      ∧ wbits w 8 3 = 1) ∧
    (∃ (m : PMsg) (r : List PMsg) (s : State), s.hie.inbox = m :: r ∧ m.type = pWEARREPORT ∧ m.at 0 1 = 1) ∧
    (∃ (rq : Requester) (w : Word) (s : State), rqSecure rq = true ∧ isManager s = true ∧ keyed 0x7C19 w = true ∧ admits rq true 0x4016002C w s = true
      ∧ wbits w 8 3 = 2) ∧
    (∃ (m : PMsg) (r : List PMsg) (s : State), s.hie.inbox = m :: r ∧ m.type = pREVOKE ∧ m.at 0 1 = 2 ∧ m.src = 0) ∧
    (∃ (rq : Requester) (w : Word) (s : State), rqSecure rq = true ∧ isManager s = true ∧ keyed 0x7C19 w = true ∧ admits rq true 0x4016002C w s = true
      ∧ wbits w 8 3 = 3) ∧
    (∃ (m : PMsg) (r : List PMsg) (s : State), s.hie.inbox = m :: r ∧ m.type = pREVOKE ∧ m.at 0 1 = 3 ∧ m.src = 0) ∧
    (∃ (rq : Requester) (w : Word) (s : State), rqSecure rq = true ∧ isManager s = true ∧ keyed 0x7C19 w = true ∧ admits rq true 0x4016002C w s = true
      ∧ wbits w 8 3 = 4) ∧
    (∃ (m : PMsg) (r : List PMsg) (s : State), s.hie.inbox = m :: r ∧ m.type = pREVOKE ∧ m.at 0 1 = 1 ∧ m.src = 0) :=
  ⟨⟨(List.replicate 200 1), (msg 4 5 [1, 0, 0, 0, 0, 0, 0, 0, 0, 0, 0, 1]), ([]), setB HIE_CFG_serve true { mgrState with hie := { mgrState.hie with inbox := [msg 4 5 [1, 0, 0, 0, 0, 0, 0, 0, 0, 0, 0, 1]] } }, by decide +kernel⟩,
   ⟨(msg 4 0 (List.replicate 1040 2)), ([]), setF SYS_STRAP_bootsrc 3 { loadState with hie := { inbox := [msg 4 0 (List.replicate 1040 2)] } }, by decide +kernel⟩,
   ⟨setF SYS_STRAP_bootsrc 3 loadState, by decide +kernel⟩,
   ⟨(msg 4 0 [3, 0, 0, 0]), ([]), { hieW with hie := { hieW.hie with inbox := [msg 4 0 [3, 0, 0, 0]] } }, by decide +kernel⟩,
   ⟨(msg 4 0 ([4, 3] ++ List.replicate 32 1)), ([]), { hieW with hie := { hieW.hie with inbox := [msg 4 0 ([4, 3] ++ List.replicate 32 1)] } }, by decide +kernel⟩,
   ⟨(msg 4 0 [5, 3]), ([]), { remoteSession with hie := { inbox := [msg 4 0 [5, 3]] } }, by decide +kernel⟩,
   ⟨(msg 4 0 [6, 3]), ([]), { remoteSession with hie := { inbox := [msg 4 0 [6, 3]] } }, by decide +kernel⟩,
   ⟨(msg 4 5 ([7] ++ List.replicate 16 3)), ([]), { mgrState with hie := { mgrState.hie with inbox := [msg 4 5 ([7] ++ List.replicate 16 3)] } }, by decide +kernel⟩,
   ⟨.core 0 .secure, (0x7C190105#32), mgrState, by decide +kernel⟩,
   ⟨(msg 8 0 [1, 0, 0, 0]), ([]), { hieW with hie := { hieW.hie with inbox := [msg 8 0 [1, 0, 0, 0]] } }, by decide +kernel⟩,
   ⟨.core 0 .secure, (0x7C190205#32), mgrState, by decide +kernel⟩,
   ⟨(msg 10 0 [2, 0, 0, 0]), ([]), { hieW with hie := { hieW.hie with inbox := [msg 10 0 [2, 0, 0, 0]] } }, by decide +kernel⟩,
   ⟨.core 0 .secure, (0x7C190305#32), mgrState, by decide +kernel⟩,
   ⟨(msg 10 0 [3, 0, 0, 0]), ([]), { hieW with hie := { hieW.hie with inbox := [msg 10 0 [3, 0, 0, 0]] } }, by decide +kernel⟩,
   ⟨.core 0 .secure, (0x7C190405#32), mgrState, by decide +kernel⟩,
   ⟨(msg 10 0 [1, 1, 0xFF, 0]), ([]), { hieW with hie := { hieW.hie with inbox := [msg 10 0 [1, 1, 0xFF, 0]] } }, by decide +kernel⟩⟩

theorem test_LifecycleAndWorldCommandsComplete_hypotheses_met :
    (∃ (rq : Requester) (target : Nat) (s : State), rqSecure rq = true ∧ admits rq true 0x400D000C 0 s = true) ∧
    (∃ (rq : Requester) (target at0 : Nat) (s : State), lcAllowed (lifecycle s) (target % 8) = true ∧ ¬ (target % 8 = 3 ∧ ikUsable s = []) ∧
      s.keys.arm = some (target % 8, at0) ∧ s.ticks ≤ at0 + 1000 ∧ rqSecure rq = true ∧ admits rq true 0x400D000C 0 s = true) ∧
    (∃ (tgt : Nat) (s : State), s.keys.burning = some tgt) ∧
    (∃ (rq : Requester) (slot : Nat) (s : State), kstOff s = false ∧ s.fuse.ikBegun.testBit (slot % 4) = false ∧ s.fuse.ikProg.testBit (slot % 4) =
      false ∧ rqSecure rq = true ∧ admits rq true 0x400D0024 4 s = true) ∧
    (∃ (rq : Requester) (slot k : Nat) (s : State), kstOff s = false ∧ slot % 4 ∈ ikUsable s ∧ k ∈ ikUsable s ∧ k ≠ slot % 4 ∧ rqSecure rq = true ∧
      admits rq true 0x400D0024 8 s = true) ∧
    (∃ (rq : Requester) (w : Word) (s : State), s.store.floor ≤ w.toNat ∧ w.toNat ≤ getF IMG_SECVER_secver s ∧ rqSecure rq = true ∧ admits rq true
      0x400D0074 0 s = true) ∧
    (∃ (rq : Requester) (w : Word) (s : State), rqSecure rq = true ∧ admits rq true 0x40100040 0 s = true) ∧
    (∃ (core : Nat) (s : State), (causes s).testBit 8 = true) ∧
    (∃ (core : Nat) (s : State), (causes s).testBit 8 = false) ∧
    (∃ (w : World) (a : Nat) (x : Word) (s : State), debugReach w s = true ∧ inSecRam a = false ∧ inDdr a s = false) ∧
    (∃ (w : World) (a : Nat) (s : State), debugReach w s = true ∧ inSecRam a = false ∧ inDdr a s = false) ∧
    (∃ (w : World) (a n : Nat) (x : Word) (s : State), debugReach w s = true ∧ (inSecRam a || inDdr a s) = true ∧ memRange w true a n s = true) ∧
    (∃ (w : World) (a n : Nat) (s : State), debugReach w s = true ∧ (inSecRam a || inDdr a s) = true ∧ memRange w false a n s = true) :=
  ⟨⟨.core 0 .secure, 2, serviceState, by decide +kernel⟩,
   ⟨.core 0 .secure, 2, 5000, { serviceState with ticks := 5500, keys := { arm := some (2, 5000) } }, by decide +kernel⟩,
   ⟨2, { serviceState with keys := { burning := some 2 } }, by decide +kernel⟩,
   ⟨.core 0 .secure, 1, serviceState, by decide +kernel⟩,
   ⟨.core 0 .secure, 1, 2, { serviceState with fuse := { serviceState.fuse with ikProg := 6 } }, by decide +kernel⟩,
   ⟨.core 0 .secure, (5#32), setF IMG_SECVER_secver 9 serviceState, by decide +kernel⟩,
   ⟨.core 0 .secure, (1#32), serviceState, by decide +kernel⟩,
   ⟨1, setF PWR_DEGRADE_cause 256 serviceState, by decide +kernel⟩,
   ⟨1, serviceState, by decide +kernel⟩,
   ⟨.normal, 0x40170010, (5#32), serviceState, by decide +kernel⟩,
   ⟨.normal, 0x40170010, serviceState, by decide +kernel⟩,
   ⟨.secure, 0x20000010, 2, (0x1234#32), secureDebugState, by decide +kernel⟩,
   ⟨.secure, 0x2007FFFC, 4, secureDebugState, by decide +kernel⟩⟩

theorem test_NodeAndKeyCommandsComplete_hypotheses_met :
    (∃ (rq : Requester) (parent n : Nat) (s : State), kstOff s = false ∧ (nodeOf (parent % 1024) s).state = .live ∧ (nodeOf (parent % 1024) s).depth ≤
      6 ∧ (((List.range 1024).find? fun n => decide ((nodeOf n s).state = .free)) = some n) ∧ (nodeOf n s).gen + 1 < 2 ^ 32 ∧ rqSecure rq = true ∧
      admits rq true 0x400D00AC 0 s = true) ∧
    (∃ (rq : Requester) (node : Nat) (s : State), kstOff s = false ∧ (nodeOf (node % 1024) s).state = .live ∧ (nodeOf (node % 1024) s).gen < 2 ^ 32 -
      1 ∧ rqSecure rq = true ∧ admits rq true 0x400D00AC 0 s = true) ∧
    (∃ (rq : Requester) (node : Nat) (s : State), kstOff s = false ∧ node % 1024 ≠ 0 ∧ (nodeOf (node % 1024) s).state = .live ∧ hasLiveChild (node %
      1024) s = false ∧ rqSecure rq = true ∧ admits rq true 0x400D00AC 0 s = true) ∧
    (∃ (k : Nat) (s : State), (slotOf k s).stopped = true ∧ (slotOf k s).users = 0) ∧
    (∃ (rq : Requester) (idx : Nat) (s : State), secRamRange (getF KST_SHELFSRC_addr s) 48 = true ∧ blShape (rdBytes s (getF KST_SHELFSRC_addr s) 48)
      = true ∧ secRamRange (getF KST_SHELFSRC_addr s) (64 + blClen (rdBytes s (getF KST_SHELFSRC_addr s) 48)) = true ∧ (shelfPlace (64 + blClen
      (rdBytes s (getF KST_SHELFSRC_addr s) 48)) s).isSome = true ∧ rqSecure rq = true ∧ admits rq true 0x400D00E4 0 s = true) ∧
    (∃ (rq : Requester) (idx : Nat) (s : State), rqSecure rq = true ∧ admits rq true 0x400D00E4 0 s = true) ∧
    (∃ (rq : Requester) (w : Word) (b : List Byte) (s : State), w.getLsbD 0 = true ∧ w.getLsbD 1 = false ∧ kstOff s = false ∧ handleBlob (getF
      (KST_LOADSRC_src (nsOf (rqWorld rq))) s) s = some b ∧ blobWhy b (swNeed (rqWorld rq)) true (decide (rqWorld rq = .normal)) s = none ∧ admits
      rq true (if rqSecure rq then 0x400D0084 else 0x400D0884) 0 s = true) ∧
    (∃ (j : LoadJob) (r : List LoadJob) (k : Nat) (s : State), s.keys.loads = j :: r ∧ slotMatch j.blob s = some k ∧ (grantLease 3 k (rqTag j.rq) none
      (touchSlot k { s with keys := { s.keys with loads := r } })).isSome = true) ∧
    (∃ (rq : Requester) (w : Word) (s : State), w.getLsbD 10 = true ∧ kstOff s = false ∧ 1 ≤ getF KST_WRAPCFG_ktype s ∧ getF KST_WRAPCFG_ktype s ≤ 8 ∧
      getF KST_WRAPCFG_src s = 2 ∧ (nodeOf (getF KST_WRAPCFG_node s) s).state = .live ∧ usageFits (getF KST_WRAPCFG_ktype s) (getF
      KST_WRAPCFG_usage s) = true ∧ secRamRange (getF KST_WRAPOUT_addr s) (64 + clenOf (getF KST_WRAPCFG_ktype s) 0) = true ∧ secRamRange (getF
      KST_WRAPIN_addr s) (clenOf (getF KST_WRAPCFG_ktype s) 0) = true ∧ rqSecure rq = true ∧ admits rq true 0x400D00D0 0 s = true) ∧
    (∃ (j : WrapJob) (r : List WrapJob) (s : State), s.keys.wraps = j :: r ∧ (nodeOf (blNode j.header) s).state = .live ∧ j.src = 2 ∧ j.shelf = none ∧
      j.header.length = 48 ∧ secRamRange j.out (j.content.length + 64) = true) :=
  ⟨⟨.core 0 .secure, 0, 1, serviceState, by decide +kernel⟩,
   ⟨.core 0 .secure, 3, nodeState, by decide +kernel⟩,
   ⟨.core 0 .secure, 3, nodeState, by decide +kernel⟩,
   ⟨4, { serviceState with keys := { slots := [(4, { key := [1], stopped := true })] } }, by decide +kernel⟩,
   ⟨.core 0 .secure, 7, blobState, by decide +kernel⟩,
   ⟨.core 0 .secure, 7, { serviceState with store := { serviceState.store with shelf := [(7, (0, [1]))] } }, by decide +kernel⟩,
   ⟨.core 0 .secure, (1#32), testBlob, shelfState, by decide +kernel⟩,
   ⟨({ rq := .core 0 .secure, idx := 7, blob := testBlob }), ([]), 4, { shelfState with keys := { loads := [{ rq := .core 0 .secure, idx := 7, blob := testBlob }], slots := [(4, { key := [1], node := 0, gen := blGen testBlob, nonce := blNonce testBlob })] } }, by decide +kernel⟩,
   ⟨.core 0 .secure, (0x400#32), setF KST_WRAPCFG_ktype 1 (setF KST_WRAPCFG_src 2 (setF KST_WRAPOUT_addr secRamBase (setF KST_WRAPIN_addr secRamBase serviceState))), by decide +kernel⟩,
   ⟨(⟨testBlob.take 48, [1], secRamBase, 2, none⟩), ([]), { serviceState with keys := { wraps := [⟨testBlob.take 48, [1], secRamBase, 2, none⟩] } }, by decide +kernel⟩⟩

theorem test_EngineCommandsComplete_hypotheses_met :
    (∃ (rq : Requester) (ns : Nat) (w : Word) (s : State), nsOf (rqWorld rq) = ns ∧ admits rq true (0x400E010C + 0x80 * (ns % 2)) 0 s = true) ∧
    (∃ (l r : Nat) (j : CkvJob) (s : State), laneOk l s = true ∧ laneJob l s = none ∧ s.ckv.again = [] ∧ s.ckv.lanes.length < getF CKV_CFG_swlanes s ∧
      ckvPickRing s = some r ∧ (ckvFetch r s).1 = some j ∧ ckvWhy j (ckvFetch r s).2 = none) ∧
    (∃ (l : Nat) (j : CkvJob) (s : State), l < 8 ∧ laneJob l s = some j) ∧
    (∃ (l k : Nat) (j : CkvJob) (s : State), l < 8 ∧ laneJob l s = some j ∧ j.rerun = false ∧ k ≠ l ∧ k < 8 ∧ (getF CKV_STAT_ok s).testBit k = true) ∧
    (∃ (rq : Requester) (ns c : Nat) (w : Word) (s : State), rq = .core c (if ns = 0 then .secure else .normal) ∧ ns < 2 ∧ wbits w 0 2 ≠ 0 ∧ wbits w 4
      1 = 1 ∧ wbits w 3 1 = 1 ∧ isSet (DIG_STAT_busy ns) s = false ∧ memRange (rqWorld rq) false (getF (DIG_SRC_addr ns) s) (getF (DIG_LEN_len ns)
      s) s = true ∧ admits rq true (0x400F8000 + 0x80 * (ns % 2)) 0 s = true) ∧
    (∃ (ns : Nat) (b : List Byte) (s : State), ns < 2 ∧ (digOf ns s).call = some (some b, true)) ∧
    (∃ (ns : Nat) (b : List Byte) (s : State), ns < 2 ∧ (digOf ns s).call = some (some b, false)) ∧
    (∃ (rq : Requester) (c x : Nat) (r : List Nat) (w : World) (s : State), rq = .core c w ∧ drbgDown s = false ∧ s.drg.words = x :: r ∧ admits rq
      false 0x400F8100 0 s = true) ∧
    (∃ (rq : Requester) (c : Nat) (w : World) (s : State), rq = .core c w ∧ drbgDown s = false ∧ s.drg.words = [] ∧ admits rq false 0x400F8100 0 s =
      true) ∧
    (∃ (s : State), s.power.tick = true ∧ drbgDown s = false) ∧
    (∃ (rq : Requester)  (s : State), drbgDown s = false ∧ admits rq true 0x400F8108 0 s = true) :=
  ⟨⟨.core 0 .secure, 0, (3#32), serviceState, by decide +kernel⟩,
   ⟨2, 0, ({ ring := 0, idx := 0, w0 := 1 + 16 * 8 + 4 * 256, src := 0, len := 0, tag := 0 }), ckvState, by decide +kernel⟩,
   ⟨2, ckvJ, { ckvState with ckv := { lanes := [(2, ckvJ)] } }, by decide +kernel⟩,
   ⟨2, 3, ckvJ, { ckvState with ckv := { lanes := [(2, ckvJ)] } }, by decide +kernel⟩,
   ⟨.core 0 .secure, 0, 0, (0x1D#32), setF (DIG_SRC_addr 0) secRamBase (setF (DIG_LEN_len 0) 8 serviceState), by decide +kernel⟩,
   ⟨1, ([1, 2]), setB (DIG_STAT_busy 1) true { serviceState with dig := [(1, { alg := 1, call := some (some [1, 2], true) })] }, by decide +kernel⟩,
   ⟨1, ([1, 2]), setB (DIG_STAT_busy 1) true { serviceState with dig := [(1, { alg := 1, call := some (some [1, 2], false) })] }, by decide +kernel⟩,
   ⟨.core 0 .secure, 0, 5, ([7]), .secure, setB DRG_STAT_inst true { serviceState with drg := { words := [5, 7] } }, by decide +kernel⟩,
   ⟨.core 0 .secure, 0, .secure, setB DRG_STAT_inst true serviceState, by decide +kernel⟩,
   ⟨setB DRG_STAT_inst true partialState, by decide +kernel⟩,
   ⟨.core 0 .secure, setB DRG_STAT_inst true partialState, by decide +kernel⟩⟩

theorem test_PublicKeyCommandsComplete_hypotheses_met :
    (∃ (rq : Requester) (k : Nat) (w : Word) (s : State), k < 64 ∧ pkeHolder rq s = true ∧ isSet PKE_STAT_busy s = false ∧ (((List.range 64).map fun i
      => if i = k then wbits w 0 13 else getF (PKE_SLEN_len i) s).sum ≤ 4096) ∧ admits rq true (0x400F0100 + 4 * k) 0 s = true) ∧
    (∃ (rq : Requester)  (s : State), pkeHolder rq s = true ∧ pkeSec (getF PKE_OPPTR_slot s) s = false ∧ 4 * getF PKE_OPPTR_off s + 4 ≤ pkeLen (getF
      PKE_OPPTR_slot s) s ∧ admits rq false 0x400F0024 0 s = true) ∧
    (∃ (rq : Requester) (x : Word) (s : State), pkeHolder rq s = true ∧ pkeSec (getF PKE_OPPTR_slot s) s = false ∧ 4 * getF PKE_OPPTR_off s + 4 ≤
      pkeLen (getF PKE_OPPTR_slot s) s ∧ admits rq true 0x400F0024 0 s = true) ∧
    (∃ (rq : Requester) (w : Word) (s : State), pkeHolder rq s = true ∧ isSet PKE_STAT_busy s = false ∧ wbits w 0 5 = 1 ∧ wbits w 5 2 ≠ 0 ∧ wbits w 9
      1 = 1 ∧ s.pke.outs = [] ∧ pkeSlotsOk 1 (pkeShape 1 (wbits w 5 2) s) s = true ∧ admits rq true 0x400F0004 0 s = true) ∧
    (∃ (cyc : Nat) (j : PkeJob) (s : State), s.pke.job = some j) ∧
    (∃ (cyc : Nat) (j : PkeJob) (s : State), s.pke.job = some j) :=
  ⟨⟨.core 0 .secure, 5, (3#32), pkeState, by decide +kernel⟩,
   ⟨.core 0 .secure, pkeState, by decide +kernel⟩,
   ⟨.core 0 .secure, (0x12345678#32), pkeState, by decide +kernel⟩,
   ⟨.core 0 .secure, (0x221#32), pkeState, by decide +kernel⟩,
   ⟨77, (⟨.core 0 .secure, 1, 1, false, [0]⟩), setB PKE_STAT_busy true { pkeState with pke := { job := some ⟨.core 0 .secure, 1, 1, false, [0]⟩ } }, by decide +kernel⟩,
   ⟨77, (⟨.core 0 .secure, 1, 1, false, [0]⟩), setB PKE_STAT_busy true { pkeState with pke := { job := some ⟨.core 0 .secure, 1, 1, false, [0]⟩ } }, by decide +kernel⟩⟩

theorem test_MotorCommandsComplete_hypotheses_met :
    (∃ (i code : Nat) (s : State), i < 32 ∧ code < 4096 ∧ adcRuns s = true) ∧
    (∃ (m ic vc : Nat) (waited : Bool) (s : State), motorUsed m s = true ∧ 1 ≤ motorState m s ∧ motorState m s ≤ 6 ∧ adcRuns s = true ∧ ic < 4096 ∧ vc
      < 4096) ∧
    (∃ (rq : Requester) (m : Nat) (w : Word) (s : State), motorUsed m s = true ∧ motorFenced s = false ∧ motorState m s = 0 ∧ targetOk m (cmdRpm w) s
      = true ∧ admits rq true (0x40110114 + 0x40 * m) 0 s = true) ∧
    (∃ (rq : Requester) (m : Nat)  (s : State), motorUsed m s = true ∧ motorFenced s = false ∧ 1 ≤ motorState m s ∧ motorState m s ≤ 6 ∧ admits rq
      true (0x40110114 + 0x40 * m) 0 s = true) ∧
    (∃ (rq : Requester) (m : Nat)  (s : State), motorUsed m s = true ∧ motorFenced s = false ∧ motorState m s ≠ 7 ∧ admits rq true (0x40110114 + 0x40
      * m) 0 s = true) ∧
    (∃ (rq : Requester) (m : Nat)  (s : State), motorUsed m s = true ∧ motorFenced s = false ∧ motorState m s = 7 ∧ admits rq true (0x40110114 + 0x40
      * m) 0 s = true) ∧
    (∃ (rq : Requester) (m : Nat) (w : Word) (s : State), mode s = mWorkshop ∧ motorUsed m s = true ∧ motorFenced s = false ∧ motorState m s ≠ 7 ∧
      wbits w 0 2 = 1 ∧ wbits w 2 3 ≤ 5 ∧ admits rq true (0x40110138 + 0x40 * m) 0 s = true) ∧
    (∃ (m events rpm : Nat) (rev : Bool) (s : State), motorUsed m s = true ∧ motorState m s = 1 ∧ (motorOf m s).meas = false ∧ 3 ≤ events ∧ omin m s ≤
      rpm ∧ decide ((motorOf m s).target < 0) = rev) ∧
    (∃ (m events rpm : Nat) (rev : Bool) (s : State), motorUsed m s = true ∧ motorState m s = 1 ∧ (motorOf m s).meas = false ∧ events < 3 ∧ isSet
      (MOT_CFG_sense m) s = false) ∧
    (∃ (m events rpm : Nat) (rev : Bool) (s : State), motorUsed m s = true ∧ motorState m s = 1 ∧ (motorOf m s).meas = true) ∧
    (∃ (m code ns : Nat) (s : State), motorUsed m s = true ∧ posSector m code s < 6 ∧ (motorOf m s).sector ≠ some (posSector m code s) ∧ 0 < ns ∧
      motorState m s = 5) ∧
    (∃ (m : Nat) (s : State), motorUsed m s = true ∧ motorState m s = 5 ∧ 0 < (motorOf m s).target ∧ omin m s * 10000000 < (motorOf m s).internal) ∧
    (∃ (m : Nat) (s : State), motorUsed m s = true ∧ motorState m s = 4 ∧ (motorOf m s).phase = .align) ∧
    (∃ (m : Nat) (s : State), motorUsed m s = true ∧ motorState m s = 4 ∧ ((motorOf m s).phase = .accel ∨ (motorOf m s).phase = .zero)) ∧
    (∃ (m : Nat) (s : State), motorUsed m s = true ∧ motorState m s = 5) ∧
    (∃ (m : Nat) (s : State), motorUsed m s = true ∧ motorState m s = 2 ∧ getF (MOT_WAIT_s m) s ≠ 0) ∧
    (∃ (m code : Nat) (s : State), motorUsed m s = true ∧ motorState m s ≠ 7 ∧ isSet (MOT_CFG_sense m) s = true ∧ posSector m code s = 7) ∧
    (∃ (m : Nat) (s : State), motorUsed m s = true ∧ motorState m s ≠ 7) :=
  ⟨⟨28, 2000, cabState, by decide +kernel⟩,
   ⟨0, 4000, 2000, true, mot 5, by decide +kernel⟩,
   ⟨.core 0 .normal, 0, (0x03E80001#32), setF (MOT_LIM_rpm 0) 3000 (mot 0), by decide +kernel⟩,
   ⟨.core 0 .normal, 0, motC 5 { internal := 20000000000 }, by decide +kernel⟩,
   ⟨.core 0 .normal, 0, mot 5, by decide +kernel⟩,
   ⟨.core 0 .normal, 0, mot 7, by decide +kernel⟩,
   ⟨.core 0 .normal, 0, (0x00640009#32), setF PWR_MODE_mode mWorkshop (mot 0), by decide +kernel⟩,
   ⟨0, 5, 1000, true, motC 1 { target := -2000 }, by decide +kernel⟩,
   ⟨0, 2, 1000, true, motC 1 { target := 2000 }, by decide +kernel⟩,
   ⟨0, 5, 1000, true, motC 1 { meas := true }, by decide +kernel⟩,
   ⟨0, 3, 1000000, motC 5 { sector := some 2 }, by decide +kernel⟩,
   ⟨0, motC 5 { target := 2000, internal := 10000000000 }, by decide +kernel⟩,
   ⟨0, motC 4 { phase := .align }, by decide +kernel⟩,
   ⟨0, motC 4 { phase := .accel }, by decide +kernel⟩,
   ⟨0, mot 5, by decide +kernel⟩,
   ⟨0, setF (MOT_WAIT_s 0) 3 (mot 2), by decide +kernel⟩,
   ⟨0, 7, setB (MOT_CFG_sense 0) true (mot 5), by decide +kernel⟩,
   ⟨0, mot 5, by decide +kernel⟩⟩

theorem test_LampCommandsComplete_hypotheses_met :
    (∃ (rq : Requester) (n : Nat) (w : Word) (s : State), lampUsed n s = true ∧ (causes s).testBit 4 = false ∧ lampState n s = 0 ∧ wbits w 0 2 = 1 ∧
      wbits w 8 8 ≠ 0 ∧ wbits w 16 8 ≠ 0 ∧ admits rq true (0x40120210 + 0x20 * n) 0 s = true) ∧
    (∃ (rq : Requester) (n : Nat) (w : Word) (s : State), lampUsed n s = true ∧ wbits w 0 2 = 0 ∧ wbits w 8 8 ≠ 0 ∧ wbits w 16 8 ≠ 0 ∧ admits rq true
      (0x40120210 + 0x20 * n) 0 s = true) ∧
    (∃ (g n : Nat) (r : List Nat) (s : State), g < 4 ∧ n < 24 ∧ getF (LMP_GSTAT_holder g) s = 7 ∧ lampWaits g s = n :: r) ∧
    (∃ (n : Nat) (above : Bool) (s : State), lampUsed n s = true ∧ lampState n s = 2 ∧ getF (LMP_GSTAT_holder (n / 6)) s = n % 6) ∧
    (∃ (n : Nat) (s : State), lampUsed n s = true ∧ lampState n s = 4) ∧
    (∃ (n : Nat) (s : State), lampUsed n s = true ∧ getF (LMP_CMD_mode n) s = 2 ∧ (lampState n s = 2 ∨ lampState n s = 3)) ∧
    (∃ (n : Nat) (s : State), lampUsed n s = true ∧ lampState n s = 3) ∧
    (∃ (rq : Requester) (w : Word) (s : State), mode s = mWorkshop ∧ wbits w 0 5 ≤ 23 ∧ wbits w 16 16 ≠ 0 ∧ lampUsed (wbits w 0 5) s = true ∧ (causes
      s).testBit 4 = false ∧ admits rq true 0x40120004 0 s = true) ∧
    (∃ (n : Nat) (s : State), lampUsed n s = true ∧ lampLit n s = true) ∧
    (∃ (n : Nat) (s : State), lampUsed n s = true ∧ lampLit n s = true) ∧
    (∃ (g n : Nat) (s : State), g < 4 ∧ lastLit g s = some n ∧ n < 24) ∧
    (∃ (g : Nat) (s : State), g < 4) ∧
    (∃ (n : Nat) (below : Bool) (s : State), lampUsed n s = true ∧ lampState n s = 3 ∧ (causes s).testBit 5 = false ∧ ((s.cab.tests.any fun e =>
      decide (e.1 = n)) = false)) :=
  ⟨⟨.core 0 .normal, 7, (0x00050501#32), lamp 0, by decide +kernel⟩,
   ⟨.core 0 .normal, 7, (0x00050500#32), lamp 5, by decide +kernel⟩,
   ⟨1, 7, ([8]), { lamp 1 with cab := { waits := [(1, [7, 8])] } }, by decide +kernel⟩,
   ⟨7, true, setF (LMP_GSTAT_holder 1) 1 (lamp 2), by decide +kernel⟩,
   ⟨7, lamp 4, by decide +kernel⟩,
   ⟨7, setF (LMP_CMD_mode 7) 2 (lamp 3), by decide +kernel⟩,
   ⟨7, lamp 3, by decide +kernel⟩,
   ⟨.core 0 .normal, (0x00640007#32), setF PWR_MODE_mode mWorkshop (lamp 0), by decide +kernel⟩,
   ⟨7, lamp 3, by decide +kernel⟩,
   ⟨7, lamp 3, by decide +kernel⟩,
   ⟨1, 7, lamp 3, by decide +kernel⟩,
   ⟨1, lamp 3, by decide +kernel⟩,
   ⟨7, true, lamp 3, by decide +kernel⟩⟩

theorem test_LedgerCommandsComplete_hypotheses_met :
    (∃ (s : State), s.power.por = false) ∧
    (∃ (x : Int) (s : State), s.power.por = false ∧ -2048 ≤ x ∧ x ≤ 2047) ∧
    (∃ (ppm : List Int) (k : Nat) (s : State), k < 4 ∧ (mode s = mService ∨ mode s = mDegraded ∨ mode s = mPartial ∨ mode s = mReconfig)) ∧
    (∃ (s : State), s.power.por = false ∧ s.wear.saving = none) ∧
    (∃ (s : State), s.power.por = false ∧ s.wear.saving ≠ none) ∧
    (∃ (p : Snapshot) (s : State), s.wear.saving = some p) ∧
    (∃ (s : State), s.power.por = false ∧ 2592000 * (s.wear.month + 1) ≤ s.wear.clock) ∧
    (∃ (rq : Requester) (w : Word) (s : State), rqSecure rq = true ∧ mode s = mWorkshop ∧ wbits w 16 16 = 0x3E51 ∧ 0x0101 ≤ wbits w 0 11 ∧ wbits w 0
      11 ≤ 0x0203 ∧ itemHere (wbits w 0 11) (wbits w 11 5) s = true ∧ admits rq true 0x40140024 0 s = true) ∧
    (∃ (rq : Requester) (w : Word) (s : State), itemHere (wbits w 0 16) (wbits w 16 5) s = true ∧ admits rq true 0x40140080 0 s = true) :=
  ⟨⟨serviceState, by decide +kernel⟩,
   ⟨(-100), serviceState, by decide +kernel⟩,
   ⟨([5, -3, 7, 9]), 2, serviceState, by decide +kernel⟩,
   ⟨serviceState, by decide +kernel⟩,
   ⟨{ serviceState with wear := { saving := some (snapshotNow serviceState) } }, by decide +kernel⟩,
   ⟨(snapshotNow serviceState), { serviceState with wear := { saving := some (snapshotNow serviceState) } }, by decide +kernel⟩,
   ⟨{ serviceState with wear := { clock := 2592000 } }, by decide +kernel⟩,
   ⟨.core 0 .secure, (0x3E510201#32), setF PWR_MODE_mode mWorkshop (mot 0), by decide +kernel⟩,
   ⟨.core 0 .secure, (0x00000301#32), { serviceState with wear := { items := [(wearKey 0x0301 0, { cnt := 65536 * 7 })] } }, by decide +kernel⟩⟩

theorem test_EventAndRegisterCommandsComplete_hypotheses_met :
    (∃ (rq : Requester) (e : Nat) (w : Word) (s : State), e < 64 ∧ (rqSecure rq = true ∨ (ownedSecure e s = false ∧ ¬ (wbits w 3 1 = 1 ∧ wbits w 2 1
      = 1))) ∧ wordOk (EVC_ROUTE_core e).addr w.toNat s = true ∧ admits rq true (EVC_ROUTE_core e).addr w s = true) ∧
    (∃ (rq : Requester) (w : Word) (s : State), isSet EVC_CTL_act s = true ∧ mode s ≠ mStandby ∧ admits rq true EVC_SOFT_s0.addr w s = true) ∧
    (∃ (rq : Requester) (a : Nat) (w : Word) (d : RegDesc) (s : State), ((blockOf a = 1 ∨ blockOf a = 6 ∨ blockOf a = 0x13)) ∧ a % 4 = 0 ∧ 0x40000000
      ≤ a ∧ a < 0x40180000 ∧ findReg a s = some d ∧ legalWord d a w.toNat s = true ∧ admits rq true a w s = true) ∧
    (∃ (rq : Requester) (a : Nat) (w : Word) (d : RegDesc) (s : State), ((blockOf a = 1 ∨ blockOf a = 6 ∨ blockOf a = 0x13)) ∧ a % 4 = 0 ∧ 0x40000000
      ≤ a ∧ a < 0x40180000 ∧ findReg a s = some d ∧ legalWord d a w.toNat s = true ∧ admits rq true a w s = true) ∧
    (∃ (rq : Requester) (w : Word) (s : State), rqSecure rq = true ∧ admits rq true EVC_PEND0_pend.addr w s = true) ∧
    (∃ (rq : Requester) (s : State), admits rq false TSY_SYNCCNT_cnt.addr 0 s = true) ∧
    (∃ (rq : Requester) (n : Nat) (s : State), n < 48 ∧ isCan n s = true ∧ tileUsed n s = true ∧ admits rq false (CAN_RXCNT_cnt n).addr 0 s = true) ∧
    (∃ (rq : Requester) (s : State), admits rq false TSY_NOWNS_ns.addr 0 s = true ∧ s.time.ns < 2 ^ 32) ∧
    (∃ (rq : Requester) (s : State), admits rq false AON_RTCLO_frac.addr 0 s = true) ∧
    (∃ (rq : Requester) (a n : Nat) (w : Word) (s : State), (n ≠ 4 ∨ a % 4 ≠ 0) ∧ admits rq true a w s = true) ∧
    (∃ (rq : Requester) (a n : Nat) (w : Word) (s : State), (n ≠ 4 ∨ a % 4 ≠ 0) ∧ admits rq true a w s = true) ∧
    (∃ (rq : Requester) (a n : Nat) (s : State), (n ≠ 4 ∨ a % 4 ≠ 0) ∧ admits rq false a 0 s = true) ∧
    (∃ (rq : Requester) (a n : Nat) (s : State), (n ≠ 4 ∨ a % 4 ≠ 0) ∧ admits rq false a 0 s = true) ∧
    (∃ (w : World) (a n : Nat) (x : Word) (s : State), n ≠ 4 ∧ inSecRam a = false ∧ inDdr a s = false ∧ admits (.debug w) true a x s = true) ∧
    (∃ (w : World) (a n : Nat) (s : State), n ≠ 4 ∧ inSecRam a = false ∧ inDdr a s = false ∧ admits (.debug w) false a 0 s = true) :=
  ⟨⟨.core 0 .normal, 26, (0x000F1FFB#32), serviceState, by decide +kernel⟩,
   ⟨.core 0 .normal, (3#32), serviceState, by decide +kernel⟩,
   ⟨.core 0 .normal, ((ANA_WIN0_en 0).addr), (0x1081#32), ((findReg (ANA_WIN0_en 0).addr serviceState).getD ⟨"", 0, 0, 0, 0, 0, []⟩), serviceState, by decide +kernel⟩,
   ⟨.core 0 .normal, ANA_WEVT_fired.addr, (1#32), ((findReg ANA_WEVT_fired.addr serviceState).getD ⟨"", 0, 0, 0, 0, 0, []⟩), serviceState, by decide +kernel⟩,
   ⟨.core 0 .secure, (5#32), serviceState, by decide +kernel⟩,
   ⟨.core 0 .normal, setF TSY_SYNCCNT_cnt 9 serviceState, by decide +kernel⟩,
   ⟨.core 0 .normal, 0, setF (CAN_RXCNT_cnt 0) 9 canRun, by decide +kernel⟩,
   ⟨.core 0 .normal, { serviceState with time := { sec := 5, ns := 77 } }, by decide +kernel⟩,
   ⟨.core 0 .normal, { serviceState with aon := { serviceState.aon with sec := 77 } }, by decide +kernel⟩,
   ⟨.core 0 .normal, 0x40010002, 4, 5, serviceState, by decide +kernel⟩,
   ⟨.core 0 .normal, 0x40010004, 2, 5, serviceState, by decide +kernel⟩,
   ⟨.core 0 .normal, 0x40010002, 4, serviceState, by decide +kernel⟩,
   ⟨.core 0 .normal, 0x40010004, 1, serviceState, by decide +kernel⟩,
   ⟨.normal, 0x40170010, 2, (5#32), serviceState, by decide +kernel⟩,
   ⟨.normal, 0x40170010, 1, serviceState, by decide +kernel⟩⟩

theorem test_SupplyFrames_hypotheses_met :
    (∃ t, exec (.wireInChange 2 true) State.reset = .next t) ∧
    (∃ t, exec (.carlinkHuntSync .a 5) State.reset = .next t) ∧
    (∃ t, exec (.rephaseStart .a) State.reset = .next t) ∧
    (∃ t, exec (.pfailRise) State.reset = .next t) ∧
    (∃ t, exec (.pfailRestoreExpiry) State.reset = .next t) ∧
    (∃ t, exec (.railWarnCrossing .vcore) State.reset = .next t) ∧
    (∃ t, exec (.normalWatchdogEnable (.core 0 .normal) (0x50001#32)) State.reset = .next t) ∧
    (∃ t, exec (.normalWatchdogKick (.core 0 .normal) 0xA55A) State.reset = .next t) ∧
    (∃ t, exec (.secureWatchdogKick (.core 0 .normal) 0xA55A) State.reset = .next t) ∧
    (∃ t, exec (.tamperRearm) State.reset = .next t) ∧
    (∃ t, exec (.wakePinRearm 0) State.reset = .next t) ∧
    (∃ t, exec (.aonRtcset (.core 0 .normal) (5#32)) State.reset = .next t) ∧
    (∃ t, exec (.aonLogack (.core 0 .normal)) State.reset = .next t) ∧
    (∃ t, exec (.pwrReqSwWrite (.core 0 .normal) (5#32)) State.reset = .next t) ∧
    (∃ t, exec (.pwrReqRelease (.core 0 .normal)) State.reset = .next t) ∧
    (∃ t, exec (.tamperLatchClear (.core 0 .normal)) State.reset = .next t) ∧
    (∃ t, exec (.resetNRelease) State.reset = .next t) ∧
    (∃ t, exec (.rootPllLockLoss) State.reset = .next t) ∧
    (∃ t, exec (.fullResetEnd) State.reset = .next t) ∧
    (∃ t, exec (.xinAmplitudeGood) State.reset = .next t) ∧
    (∃ t, exec (.rootPllLock 1700) State.reset = .next t) ∧
    (∃ t, exec (.serdesPllRelock 0) State.reset = .next t) ∧
    (∃ t, exec (.pcieRefStable) State.reset = .next t) ∧
    (∃ t, exec (.suppliesValid) State.reset = .next t) ∧
    (∃ t, exec (.standbyCoreWaitTimeout) State.reset = .next t) ∧
    (∃ t, exec (.pwrReqHoldExpiry) State.reset = .next t) ∧
    (∃ t, exec (.wakePinFire 0) State.reset = .next t) ∧
    (∃ t, exec (.tamperFire) State.reset = .next t) ∧
    (∃ t, exec (.rtcSecond) State.reset = .next t) ∧
    (∃ t, exec (.vbatMeasure 190) State.reset = .next t) ∧
    (∃ t, exec (.pwrReadyWrite (.core 0 .normal) (1#32)) State.reset = .next t) ∧
    (∃ t, exec (.lnkMsgtxGo (.core 0 .normal) .a (1#32)) State.reset = .next t) :=
  ⟨⟨_, rfl⟩,
   ⟨_, rfl⟩,
   ⟨_, rfl⟩,
   ⟨_, rfl⟩,
   ⟨_, rfl⟩,
   ⟨_, rfl⟩,
   ⟨_, rfl⟩,
   ⟨_, rfl⟩,
   ⟨_, rfl⟩,
   ⟨_, rfl⟩,
   ⟨_, rfl⟩,
   ⟨_, rfl⟩,
   ⟨_, rfl⟩,
   ⟨_, rfl⟩,
   ⟨_, rfl⟩,
   ⟨_, rfl⟩,
   ⟨_, rfl⟩,
   ⟨_, rfl⟩,
   ⟨_, rfl⟩,
   ⟨_, rfl⟩,
   ⟨_, rfl⟩,
   ⟨_, rfl⟩,
   ⟨_, rfl⟩,
   ⟨_, rfl⟩,
   ⟨_, rfl⟩,
   ⟨_, rfl⟩,
   ⟨_, rfl⟩,
   ⟨_, rfl⟩,
   ⟨_, rfl⟩,
   ⟨_, rfl⟩,
   ⟨_, rfl⟩,
   ⟨_, rfl⟩⟩

theorem test_SwitchFrames_hypotheses_met :
    (∃ t, exec (.policerCreditTick) State.reset = .next t) ∧
    (∃ t, exec (.streamResetTimeout 0) State.reset = .next t) ∧
    (∃ t, exec (.leaseExpiry 0) State.reset = .next t) ∧
    (∃ t, exec (.lodgerPeriodStart 0) State.reset = .next t) ∧
    (∃ t, exec (.itemDispatch) State.reset = .next t) ∧
    (∃ t, exec (.ringInterrupt 0) State.reset = .next t) ∧
    (∃ t, exec (.leaseRenew (.core 0 .normal) 0) State.reset = .next t) ∧
    (∃ t, exec (.pageInDone 0 5) State.reset = .next t) ∧
    (∃ t, exec (.pagingMsCheck) State.reset = .next t) ∧
    (∃ t, exec (.deadlineMiss 0) State.reset = .next t) ∧
    (∃ t, exec (.inkRevoke (.core 0 .normal) (0#32)) State.reset = .next t) ∧
    (∃ t, exec (.inkPgfree (.core 0 .normal) 0) State.reset = .next t) ∧
    (∃ t, exec (.pageFree 0) State.reset = .next t) ∧
    (∃ t, exec (.cutThroughEnd 0 0) State.reset = .next t) ∧
    (∃ t, exec (.swcLockTake (.core 0 .normal)) State.reset = .next t) ∧
    (∃ t, exec (.fwtLockTake (.core 0 .normal)) State.reset = .next t) ∧
    (∃ t, exec (.pkeLockTake (.core 0 .normal)) State.reset = .next t) ∧
    (∃ t, exec (.gateEntryChange 0) State.reset = .next t) ∧
    (∃ t, exec (.bankClearDone) State.reset = .next t) ∧
    (∃ t, exec (.overlayDrainDone) State.reset = .next t) ∧
    (∃ t, exec (.migrateDone) State.reset = .next t) ∧
    (∃ t, exec (.migrateStart (.core 0 .normal) (0x101#32)) State.reset = .next t) ∧
    (∃ t, exec (.migrateCancel (.core 0 .normal) (0x101#32)) State.reset = .next t) ∧
    (∃ t, exec (.porterGo (.core 0 .normal) (1#32)) State.reset = .next t) ∧
    (∃ t, exec (.fullRefresh) State.reset = .next t) ∧
    (∃ t, exec (.trnSigsel (.core 0 .normal) (5#32)) State.reset = .next t) :=
  ⟨⟨_, rfl⟩,
   ⟨_, rfl⟩,
   ⟨_, rfl⟩,
   ⟨_, rfl⟩,
   ⟨_, rfl⟩,
   ⟨_, rfl⟩,
   ⟨_, rfl⟩,
   ⟨_, rfl⟩,
   ⟨_, rfl⟩,
   ⟨_, rfl⟩,
   ⟨_, rfl⟩,
   ⟨_, rfl⟩,
   ⟨_, rfl⟩,
   ⟨_, rfl⟩,
   ⟨_, rfl⟩,
   ⟨_, rfl⟩,
   ⟨_, rfl⟩,
   ⟨_, rfl⟩,
   ⟨_, rfl⟩,
   ⟨_, rfl⟩,
   ⟨_, rfl⟩,
   ⟨_, rfl⟩,
   ⟨_, rfl⟩,
   ⟨_, rfl⟩,
   ⟨_, rfl⟩,
   ⟨_, rfl⟩⟩

theorem test_TileFrames_hypotheses_met :
    (∃ t, exec (.canIntegrationDone 0) State.reset = .next t) ∧
    (∃ t, exec (.canRxBufferRead (.core 0 .normal) 0 8) State.reset = .next t) ∧
    (∃ t, exec (.canRxrel (.core 0 .normal) 0 8) State.reset = .next t) ∧
    (∃ t, exec (.canBodelayExpiry 0) State.reset = .next t) ∧
    (∃ t, exec (.canCtlStart (.core 0 .normal) 0) State.reset = .next t) ∧
    (∃ t, exec (.canCtlRecover (.core 0 .normal) 0) State.reset = .next t) ∧
    (∃ t, exec (.canArbitrationChoice 0) State.reset = .next t) ∧
    (∃ t, exec (.linSchedWrite (.core 0 .normal) 2 (3#32)) State.reset = .next t) ∧
    (∃ t, exec (.linPubWrite (.core 0 .normal) 2 5 1 (3#32)) State.reset = .next t) ∧
    (∃ t, exec (.uartTxStart 4) State.reset = .next t) ∧
    (∃ t, exec (.uartSwtxGo (.core 0 .normal) 4 (0x10005#32)) State.reset = .next t) ∧
    (∃ t, exec (.canTxreq (.core 0 .normal) 0 (0xFFFF#32)) State.reset = .next t) ∧
    (∃ t, exec (.canTxcan (.core 0 .normal) 0 (0xFFFF#32)) State.reset = .next t) ∧
    (∃ t, exec (.canPriorel (.core 0 .normal) 0 (1#32)) State.reset = .next t) ∧
    (∃ t, exec (.linHeaderReceive 2 0x55 0x80) State.reset = .next t) ∧
    (∃ t, exec (.serialTxEnd 4 []) State.reset = .next t) ∧
    (∃ t, exec (.linSlotStart 2) State.reset = .next t) ∧
    (∃ t, exec (.linWakePulseTimeout 2) State.reset = .next t) ∧
    (∃ t, exec (.serCtlStart (.core 0 .normal) 2) State.reset = .next t) :=
  ⟨⟨_, rfl⟩,
   ⟨_, rfl⟩,
   ⟨_, rfl⟩,
   ⟨_, rfl⟩,
   ⟨_, rfl⟩,
   ⟨_, rfl⟩,
   ⟨_, rfl⟩,
   ⟨_, rfl⟩,
   ⟨_, rfl⟩,
   ⟨_, rfl⟩,
   ⟨_, rfl⟩,
   ⟨_, rfl⟩,
   ⟨_, rfl⟩,
   ⟨_, rfl⟩,
   ⟨_, rfl⟩,
   ⟨_, rfl⟩,
   ⟨_, rfl⟩,
   ⟨_, rfl⟩,
   ⟨_, rfl⟩⟩

theorem test_PortFrames_hypotheses_met :
    (∃ t, exec (.mdioCommand (.core 0 .normal) 0 (0x04000001#32)) State.reset = .next t) ∧
    (∃ t, exec (.mdioDone none) State.reset = .next t) ∧
    (∃ t, exec (.ethTxtsRead (.core 0 .normal) 0) State.reset = .next t) ∧
    (∃ t, exec (.plcaBeaconReceive 12) State.reset = .next t) ∧
    (∃ t, exec (.syncReceive 0) State.reset = .next t) ∧
    (∃ t, exec (.syncTimeout) State.reset = .next t) ∧
    (∃ t, exec (.tsySet (.core 0 .normal)) State.reset = .next t) ∧
    (∃ t, exec (.tsyStep (.core 0 .normal)) State.reset = .next t) ∧
    (∃ t, exec (.tsyFadjWrite (.core 0 .normal) (5#32)) State.reset = .next t) ∧
    (∃ t, exec (.swcSnap (.core 0 .normal) (0x105#32)) State.reset = .next t) ∧
    (∃ t, exec (.transmitOpportunity 12) State.reset = .next t) ∧
    (∃ t, exec (.ethLinkUp 0 2 false true) State.reset = .next t) :=
  ⟨⟨_, rfl⟩,
   ⟨_, rfl⟩,
   ⟨_, rfl⟩,
   ⟨_, rfl⟩,
   ⟨_, rfl⟩,
   ⟨_, rfl⟩,
   ⟨_, rfl⟩,
   ⟨_, rfl⟩,
   ⟨_, rfl⟩,
   ⟨_, rfl⟩,
   ⟨_, rfl⟩,
   ⟨_, rfl⟩⟩

theorem test_HostFrames_hypotheses_met :
    (∃ t, exec (.serdesPllRestartLock 0) State.reset = .next t) ∧
    (∃ t, exec (.wksLogack (.core 0 .normal) (1#32)) State.reset = .next t) ∧
    (∃ t, exec (.pcieLinkChange true 1 1) State.reset = .next t) ∧
    (∃ t, exec (.qspiStatus) State.reset = .next t) ∧
    (∃ t, exec (.msixRequest) State.reset = .next t) ∧
    (∃ t, exec (.msixPendingSend 0) State.reset = .next t) ∧
    (∃ t, exec (.farWriteAck) State.reset = .next t) ∧
    (∃ t, exec (.farWriteTimeout 78) State.reset = .next t) ∧
    (∃ t, exec (.remoteEventReceive) State.reset = .next t) ∧
    (∃ t, exec (.brgRev0Read (.core 0 .normal)) State.reset = .next t) ∧
    (∃ t, exec (.workerLost 5) State.reset = .next t) ∧
    (∃ t, exec (.imageBlockStatus) State.reset = .next t) ∧
    (∃ t, exec (.farResultExpiry 0) State.reset = .next t) ∧
    (∃ t, exec (.wksValid (.core 0 .normal) true (1#32)) State.reset = .next t) ∧
    (∃ t, exec (.managerLost) State.reset = .next t) ∧
    (∃ t, exec (.deltaDelivery (.core 0 .normal) (1#32)) State.reset = .next t) ∧
    (∃ t, exec (.deltaOpen (.core 0 .normal)) State.reset = .next t) ∧
    (∃ t, exec (.deltaDrainEnd) State.reset = .next t) ∧
    (∃ t, exec (.validationWindowClose 0) State.reset = .next t) :=
  ⟨⟨_, rfl⟩,
   ⟨_, rfl⟩,
   ⟨_, rfl⟩,
   ⟨_, rfl⟩,
   ⟨_, rfl⟩,
   ⟨_, rfl⟩,
   ⟨_, rfl⟩,
   ⟨_, rfl⟩,
   ⟨_, rfl⟩,
   ⟨_, rfl⟩,
   ⟨_, rfl⟩,
   ⟨_, rfl⟩,
   ⟨_, rfl⟩,
   ⟨_, rfl⟩,
   ⟨_, rfl⟩,
   ⟨_, rfl⟩,
   ⟨_, rfl⟩,
   ⟨_, rfl⟩,
   ⟨_, rfl⟩⟩

theorem test_KeyFrames_hypotheses_met :
    (∃ t, exec (.lifecycleArm (.core 0 .normal) 0x6C3E 2) State.reset = .next t) ∧
    (∃ t, exec (.lifecycleCommit (.core 0 .normal) 0x6C3E 2) State.reset = .next t) ∧
    (∃ t, exec (.imageKeyProgram (.core 0 .normal) 0x6C3E 2) State.reset = .next t) ∧
    (∃ t, exec (.imageKeyRevoke (.core 0 .normal) 0x6C3E 2) State.reset = .next t) ∧
    (∃ t, exec (.floorSet (.core 0 .normal) (0#32)) State.reset = .next t) ∧
    (∃ t, exec (.nodeCreate (.core 0 .normal) 0x6C3E 0) State.reset = .next t) ∧
    (∃ t, exec (.nodeInvalidate (.core 0 .normal) 0x6C3E 0) State.reset = .next t) ∧
    (∃ t, exec (.nodeFree (.core 0 .normal) 0x6C3E 0) State.reset = .next t) ∧
    (∃ t, exec (.slotWipe 4) State.reset = .next t) ∧
    (∃ t, exec (.shelfWrite (.core 0 .normal) 0x6C3E 7) State.reset = .next t) ∧
    (∃ t, exec (.shelfErase (.core 0 .normal) 0x6C3E 7) State.reset = .next t) ∧
    (∃ t, exec (.wldLock (.core 0 .normal) (1#32)) State.reset = .next t) ∧
    (∃ t, exec (.secureCall 0) State.reset = .next t) ∧
    (∃ t, exec (.boundaryScanInstruction .idcode) State.reset = .next t) ∧
    (∃ t, exec (.ckvRingTail (.core 0 .normal) 0 (5#32)) State.reset = .next t) ∧
    (∃ t, exec (.pkeSlenWrite (.core 0 .normal) 5 (5#32)) State.reset = .next t) ∧
    (∃ t, exec (.pkeOpdataAccess (.core 0 .normal) none) State.reset = .next t) ∧
    (∃ t, exec (.drgDataRead (.core 0 .normal)) State.reset = .next t) ∧
    (∃ t, exec (.drbgReseed none) State.reset = .next t) ∧
    (∃ t, exec (.entropyHealthFail true) State.reset = .next t) ∧
    (∃ t, exec (.digestGo (.core 0 .normal) 0 (0x1D#32)) State.reset = .next t) ∧
    (∃ t, exec (.digestDone 0) State.reset = .next t) ∧
    (∃ t, exec (.pkeJobEnd true 100) State.reset = .next t) :=
  ⟨⟨_, rfl⟩,
   ⟨_, rfl⟩,
   ⟨_, rfl⟩,
   ⟨_, rfl⟩,
   ⟨_, rfl⟩,
   ⟨_, rfl⟩,
   ⟨_, rfl⟩,
   ⟨_, rfl⟩,
   ⟨_, rfl⟩,
   ⟨_, rfl⟩,
   ⟨_, rfl⟩,
   ⟨_, rfl⟩,
   ⟨_, rfl⟩,
   ⟨_, rfl⟩,
   ⟨_, rfl⟩,
   ⟨_, rfl⟩,
   ⟨_, rfl⟩,
   ⟨_, rfl⟩,
   ⟨_, rfl⟩,
   ⟨_, rfl⟩,
   ⟨_, rfl⟩,
   ⟨_, rfl⟩,
   ⟨_, rfl⟩⟩

theorem test_MotorFrames_hypotheses_met :
    (∃ t, exec (.motorRun (.core 0 .normal) 0 (0x03E80001#32)) State.reset = .next t) ∧
    (∃ t, exec (.motorStop (.core 0 .normal) 0) State.reset = .next t) ∧
    (∃ t, exec (.motorCoast (.core 0 .normal) 0) State.reset = .next t) ∧
    (∃ t, exec (.motorClear (.core 0 .normal) 0) State.reset = .next t) ∧
    (∃ t, exec (.motorTest (.core 0 .normal) 0 (0x00640009#32)) State.reset = .next t) ∧
    (∃ t, exec (.motorObservationEnd 0 5 1000 true) State.reset = .next t) ∧
    (∃ t, exec (.motorMeasurementEnd 0 5 1000 true) State.reset = .next t) ∧
    (∃ t, exec (.motorPositionEvent 0 3 1000000) State.reset = .next t) ∧
    (∃ t, exec (.motorPwmPeriod 0) State.reset = .next t) ∧
    (∃ t, exec (.motorAlignEnd 0) State.reset = .next t) ∧
    (∃ t, exec (.motorHandoverTimeout 0) State.reset = .next t) ∧
    (∃ t, exec (.motorStallTimeout 0) State.reset = .next t) ∧
    (∃ t, exec (.motorWaitLimit 0) State.reset = .next t) ∧
    (∃ t, exec (.motorFltInput 0) State.reset = .next t) ∧
    (∃ t, exec (.motorHallInvalid 0 7) State.reset = .next t) :=
  ⟨⟨_, rfl⟩,
   ⟨_, rfl⟩,
   ⟨_, rfl⟩,
   ⟨_, rfl⟩,
   ⟨_, rfl⟩,
   ⟨_, rfl⟩,
   ⟨_, rfl⟩,
   ⟨_, rfl⟩,
   ⟨_, rfl⟩,
   ⟨_, rfl⟩,
   ⟨_, rfl⟩,
   ⟨_, rfl⟩,
   ⟨_, rfl⟩,
   ⟨_, rfl⟩,
   ⟨_, rfl⟩⟩

theorem test_LampFrames_hypotheses_met :
    (∃ t, exec (.lampCommand (.core 0 .normal) 7 (0x00050501#32)) State.reset = .next t) ∧
    (∃ t, exec (.lampInrushEnd 7 true) State.reset = .next t) ∧
    (∃ t, exec (.lampHardShort 7) State.reset = .next t) ∧
    (∃ t, exec (.lampOvercurrent 7) State.reset = .next t) ∧
    (∃ t, exec (.lampCoolDownEnd 7) State.reset = .next t) ∧
    (∃ t, exec (.lampBlinkPhase 7) State.reset = .next t) ∧
    (∃ t, exec (.lampTriesReset 7) State.reset = .next t) ∧
    (∃ t, exec (.lampOpenDetect 7 true) State.reset = .next t) ∧
    (∃ t, exec (.lampTest (.core 0 .normal) (0x00640007#32)) State.reset = .next t) ∧
    (∃ t, exec (.lampDisturbanceEnd 0) State.reset = .next t) :=
  ⟨⟨_, rfl⟩,
   ⟨_, rfl⟩,
   ⟨_, rfl⟩,
   ⟨_, rfl⟩,
   ⟨_, rfl⟩,
   ⟨_, rfl⟩,
   ⟨_, rfl⟩,
   ⟨_, rfl⟩,
   ⟨_, rfl⟩,
   ⟨_, rfl⟩⟩

theorem test_LedgerAndEventFrames_hypotheses_met :
    (∃ t, exec (.ledgerSecond) State.reset = .next t) ∧
    (∃ t, exec (.temperatureMeasure 500) State.reset = .next t) ∧
    (∃ t, exec (.ringOscillatorMeasure ([5, -3])) State.reset = .next t) ∧
    (∃ t, exec (.ledgerSave) State.reset = .next t) ∧
    (∃ t, exec (.ledgerSaveDone) State.reset = .next t) ∧
    (∃ t, exec (.werReset (.core 0 .normal) (0x3E510201#32)) State.reset = .next t) ∧
    (∃ t, exec (.evcRouteWrite (.core 0 .normal) 26 (0x000F1FFB#32)) State.reset = .next t) ∧
    (∃ t, exec (.evcSoft (.core 0 .normal) (3#32)) State.reset = .next t) ∧
    (∃ t, exec (.monthlySample) State.reset = .next t) :=
  ⟨⟨_, rfl⟩,
   ⟨_, rfl⟩,
   ⟨_, rfl⟩,
   ⟨_, rfl⟩,
   ⟨_, rfl⟩,
   ⟨_, rfl⟩,
   ⟨_, rfl⟩,
   ⟨_, rfl⟩,
   ⟨_, rfl⟩⟩

end Sys2Proof.Tests
end

namespace Sys2Proof.Machine

/-! ## Accesses of register space that the rights let through -/

/-- A word read that its requester may make is the register's own read (R5). -/
theorem exec_rcRead_of_admits {rq : Requester} {a : Nat} {s : State} (h : admits rq false a 0 s = true) :
    exec (.rcRead rq a 4) s = .next (readReg rq a s) :=
  congrArg _ (gate_of_admits h _)

/-- A word write that its requester may make is the register's own write (R5). -/
theorem exec_registerWrite_of_admits {rq : Requester} {a : Nat} {w : Word} {s : State} (h : admits rq true a w s = true) :
    exec (.registerWrite rq a w 4) s = .next (writeReg rq a w s) :=
  congrArg _ (gate_of_admits h _)

/-! The windows of R496 do not meet. -/

theorem not_tileWindow_of_ramWindow {a : Nat} (h : ramWindow a = true) : tileWindow a = false := by
  simp only [ramWindow, tileWindow, Bool.and_eq_true, decide_eq_true_eq, Bool.and_eq_false_iff, decide_eq_false_iff_not] at *
  omega

theorem not_tileWindow_of_portWindow {a : Nat} (h : portWindow a = true) : tileWindow a = false := by
  simp only [portWindow, tileWindow, Bool.and_eq_true, decide_eq_true_eq, Bool.and_eq_false_iff, decide_eq_false_iff_not] at *
  omega

theorem not_ramWindow_of_portWindow {a : Nat} (h : portWindow a = true) : ramWindow a = false := by
  simp only [portWindow, ramWindow, Bool.and_eq_true, decide_eq_true_eq, Bool.and_eq_false_iff, decide_eq_false_iff_not] at *
  omega

/-- An aligned message RAM address names one of the 48 tiles and a word of its RAM. -/
theorem ramWindow_place {a : Nat} (h : ramWindow a = true) (h4 : a % 4 = 0) :
    ramTile a < 48 ∧ (a - 0x40300000) % 0x2000 % 4 = 0 ∧ (a - 0x40300000) % 0x2000 < 0x2000 := by
  simp only [ramWindow, Bool.and_eq_true, decide_eq_true_eq] at h
  simp only [ramTile]
  omega

/-! What an access to the window of an unused unit does (R10). -/

theorem readReg_unusedTile {rq : Requester} {a : Nat} {s : State} (hw : tileWindow a = true) (h4 : a % 4 = 0)
    (hu : tileUsed (tileOfAddr a) s = false) : readReg rq a s = busData 0 s := by
  simp [readReg, readTile, hw, h4, hu]

theorem writeReg_unusedTile {rq : Requester} {a : Nat} {w : Word} {s : State} (hw : tileWindow a = true) (h4 : a % 4 = 0)
    (hu : tileUsed (tileOfAddr a) s = false) : writeReg rq a w s = busDone s := by
  simp [writeReg, writeTile, hw, h4, hu]

theorem readReg_unusedRam {rq : Requester} {a : Nat} {s : State} (hw : ramWindow a = true) (h4 : a % 4 = 0)
    (hu : tileUsed (ramTile a) s = false) : readReg rq a s = busData 0 s := by
  obtain ⟨hn, ho, hlt⟩ := ramWindow_place hw h4
  simp [readReg, cmdCanRxBufferRead, not_tileWindow_of_ramWindow hw, hw, h4, hu, ho, Nat.not_le.2 hn, Nat.not_le.2 hlt]

theorem writeReg_unusedRam {rq : Requester} {a : Nat} {w : Word} {s : State} (hw : ramWindow a = true) (h4 : a % 4 = 0)
    (hu : tileUsed (ramTile a) s = false) : writeReg rq a w s = busDone s := by
  obtain ⟨hn, ho, hlt⟩ := ramWindow_place hw h4
  simp [writeReg, canRamWrite, not_tileWindow_of_ramWindow hw, hw, h4, hu, ho, Nat.not_le.2 hn, Nat.not_le.2 hlt]

theorem readReg_unusedPort {rq : Requester} {a : Nat} {s : State} (hw : portWindow a = true) (h4 : a % 4 = 0)
    (hu : portUsed (portOfAddr a) s = false) (hb : bootPort (portOfAddr a) s = false) : readReg rq a s = busData 0 s := by
  simp [readReg, readPort, not_tileWindow_of_portWindow hw, not_ramWindow_of_portWindow hw, hw, h4, hu, hb]

theorem writeReg_unusedPort {rq : Requester} {a : Nat} {w : Word} {s : State} (hw : portWindow a = true) (h4 : a % 4 = 0)
    (hu : portUsed (portOfAddr a) s = false) (hb : bootPort (portOfAddr a) s = false) : writeReg rq a w s = busDone s := by
  simp [writeReg, writePort, not_tileWindow_of_portWindow hw, not_ramWindow_of_portWindow hw, hw, h4, hu, hb]

/-- Settles O12: the access is let through, and each of the three windows answers for an unused unit before it looks for a register. -/
theorem unusedWindowsReadZeroAndIgnoreWrites : Obligations.UnusedWindowsReadZeroAndIgnoreWrites := by
  unfold Obligations.UnusedWindowsReadZeroAndIgnoreWrites
  refine ⟨?tileRead, ?tileWrite, ?ramRead, ?ramWrite, ?portRead, ?portWrite⟩
  case tileRead => intro rq a s hw h4 hu ha; rw [exec_rcRead_of_admits ha, readReg_unusedTile hw h4 hu]
  case tileWrite => intro rq a w s hw h4 hu ha; rw [exec_registerWrite_of_admits ha, writeReg_unusedTile hw h4 hu]
  case ramRead => intro rq a s hw h4 hu ha; rw [exec_rcRead_of_admits ha, readReg_unusedRam hw h4 hu]
  case ramWrite => intro rq a w s hw h4 hu ha; rw [exec_registerWrite_of_admits ha, writeReg_unusedRam hw h4 hu]
  case portRead => intro rq a s hw h4 hu hb ha; rw [exec_rcRead_of_admits ha, readReg_unusedPort hw h4 hu hb]
  case portWrite => intro rq a w s hw h4 hu hb ha; rw [exec_registerWrite_of_admits ha, writeReg_unusedPort hw h4 hu hb]

/-! ## Registers with LK fields (R6, R8) -/

/-- A register has a lease-governed field. -/
def RegDesc.locked (d : RegDesc) : Bool := d.fields.any fun f => f.acc == .lk

theorem RegDesc.covers_le {d : RegDesc} {a : Nat} (h : d.covers a = true) : d.base ≤ a := by
  simp only [RegDesc.covers, Bool.and_eq_true, decide_eq_true_eq] at h
  exact h.1

/-- The copies of a register with one index end where its last one stands. -/
theorem RegDesc.covers_lt {d : RegDesc} {a : Nat} (h : d.covers a = true) (h1 : d.n1 = 1) (h2 : 0 < d.s2) : a < d.base + d.n2 * d.s2 := by
  simp only [RegDesc.covers, Bool.and_eq_true, decide_eq_true_eq, h1, Nat.lt_one_iff] at h
  obtain ⟨hb, ⟨hi, hj⟩, ho⟩ := h
  have hlt := (Nat.mul_lt_mul_right h2).2 hj
  rw [hi] at ho
  omega

/-- A register without an index has one address. -/
theorem RegDesc.covers_single {d : RegDesc} {a : Nat} (h : d.covers a = true) (h1 : d.n1 = 1) (h2 : d.n2 = 1) : a = d.base := by
  simp only [RegDesc.covers, Bool.and_eq_true, decide_eq_true_eq, h1, h2, Nat.lt_one_iff] at h
  obtain ⟨hb, ⟨hi, hj⟩, ho⟩ := h
  rw [hi, hj] at ho
  omega

/-- Where a block's tables serve an address, an address with LK fields is one of a register of those tables that has some. -/
theorem exists_locked_of_hasLk {a : Nat} {s : State} (h : hasLk a s = true) (hb : between a 0x40000000 0x40180000 = true) :
    ∃ d ∈ (blockTables a).flatten, d.locked = true ∧ d.covers a = true := by
  have ht : tileWindow a = false ∧ portWindow a = false := by
    simp only [between, tileWindow, portWindow, Bool.and_eq_true, decide_eq_true_eq, Bool.and_eq_false_iff, decide_eq_false_iff_not] at *
    omega
  have hf : findReg a s = (blockTables a).findSome? fun t => t.find? fun d => d.covers a := by
    simp only [between] at hb
    simp [findReg, ht.1, ht.2, hb]
  unfold hasLk at h
  split at h
  · next d hd =>
    obtain ⟨t, ht, hd⟩ := List.exists_of_findSome?_eq_some (hf ▸ hd)
    exact ⟨d, List.mem_flatten.2 ⟨t, ht, List.mem_of_find?_eq_some hd⟩, h, List.find?_some (p := fun d : RegDesc => d.covers a) hd⟩
  · cases h

/-- The LK registers of the switch: SWC_VLMEM, and those from the gate lists on. -/
theorem swc_locked {d : RegDesc} (h : d ∈ [regTableSWC, regTableSWC1].flatten) (hl : d.locked = true) :
    (d.base = 0x40070104 ∧ d.n1 = 1 ∧ d.n2 = 1) ∨ 0x40071000 ≤ d.base := by
  have hall : ∀ d ∈ [regTableSWC, regTableSWC1].flatten, d.locked = true →
      (d.base = 0x40070104 ∧ d.n1 = 1 ∧ d.n2 = 1) ∨ 0x40071000 ≤ d.base := by decide
  exact hall d h hl

/-- The one LK register of the tables: FWT_RHSWAP. -/
theorem fwt_locked {d : RegDesc} (h : d ∈ [regTableFWT, regTableFWT1].flatten) (hl : d.locked = true) :
    d.base = 0x40080044 ∧ d.n1 = 1 ∧ d.n2 = 1 := by
  have hall : ∀ d ∈ [regTableFWT, regTableFWT1].flatten, d.locked = true → d.base = 0x40080044 ∧ d.n1 = 1 ∧ d.n2 = 1 := by decide
  exact hall d h hl

/-- The LK registers of the public-key engine: the job registers, the operand access and the slot lengths. -/
theorem pke_locked {d : RegDesc} (h : d ∈ [regTablePKE, regTableDIG, regTableDRG].flatten) (hl : d.locked = true) :
    (d.base ∈ [0x400F0004, 0x400F0008, 0x400F000C, 0x400F0010, 0x400F0020, 0x400F0024] ∧ d.n1 = 1 ∧ d.n2 = 1) ∨
      (0x400F0100 ≤ d.base ∧ d.n1 = 1 ∧ 0 < d.s2 ∧ d.base + d.n2 * d.s2 ≤ 0x400F0200) := by
  have hall : ∀ d ∈ [regTablePKE, regTableDIG, regTableDRG].flatten, d.locked = true →
      (d.base ∈ [0x400F0004, 0x400F0008, 0x400F000C, 0x400F0010, 0x400F0020, 0x400F0024] ∧ d.n1 = 1 ∧ d.n2 = 1) ∨
        (0x400F0100 ≤ d.base ∧ d.n1 = 1 ∧ 0 < d.s2 ∧ d.base + d.n2 * d.s2 ≤ 0x400F0200) := by decide
  exact hall d h hl

/-- A block number and the first address bound an address of the block. -/
theorem blockOf_bounds {a n : Nat} (h : blockOf a = n) (ha : 0x40000000 ≤ a) :
    0x40000000 + 0x10000 * n ≤ a ∧ a < 0x40000000 + 0x10000 * (n + 1) := by
  simp only [blockOf] at h
  omega

theorem between_of_blockOf {a n : Nat} (h : blockOf a = n) (ha : 0x40000000 ≤ a) (hn : n < 0x18) :
    between a 0x40000000 0x40180000 = true := by
  have hb := blockOf_bounds h ha
  simp only [between, Bool.and_eq_true, decide_eq_true_eq]
  omega

theorem swc_lk_addr {a : Nat} {s : State} (h : hasLk a s = true) (hb : blockOf a = 7) (ha : 0x40000000 ≤ a) :
    a = 0x40070104 ∨ 0x40071000 ≤ a := by
  obtain ⟨d, hd, hl, hc⟩ := exists_locked_of_hasLk h (between_of_blockOf hb ha (by omega))
  have ht : blockTables a = [regTableSWC, regTableSWC1] := by simp [blockTables, show (a - 0x40000000) / 0x10000 = 7 from hb]
  obtain ⟨he, h1, h2⟩ | hle := swc_locked (ht ▸ hd) hl
  · exact .inl (he ▸ RegDesc.covers_single hc h1 h2)
  · exact .inr (hle.trans (RegDesc.covers_le hc))

theorem fwt_lk_addr {a : Nat} {s : State} (h : hasLk a s = true) (hb : blockOf a = 8) (ha : 0x40000000 ≤ a) : a = 0x40080044 := by
  obtain ⟨d, hd, hl, hc⟩ := exists_locked_of_hasLk h (between_of_blockOf hb ha (by omega))
  have ht : blockTables a = [regTableFWT, regTableFWT1] := by simp [blockTables, show (a - 0x40000000) / 0x10000 = 8 from hb]
  obtain ⟨he, h1, h2⟩ := fwt_locked (ht ▸ hd) hl
  exact he ▸ RegDesc.covers_single hc h1 h2

theorem pke_lk_addr {a : Nat} {s : State} (h : hasLk a s = true) (hb : blockOf a = 15) (ha : 0x40000000 ≤ a) :
    a ∈ [0x400F0004, 0x400F0008, 0x400F000C, 0x400F0010, 0x400F0020, 0x400F0024] ∨ (0x400F0100 ≤ a ∧ a < 0x400F0200) := by
  obtain ⟨d, hd, hl, hc⟩ := exists_locked_of_hasLk h (between_of_blockOf hb ha (by omega))
  have ht : blockTables a = [regTablePKE, regTableDIG, regTableDRG] := by simp [blockTables, show (a - 0x40000000) / 0x10000 = 15 from hb]
  obtain ⟨he, h1, h2⟩ | ⟨hle, h1, h2, hlt⟩ := pke_locked (ht ▸ hd) hl
  · exact .inl (RegDesc.covers_single hc h1 h2 ▸ he)
  · exact .inr ⟨hle.trans (RegDesc.covers_le hc), (RegDesc.covers_lt hc h1 h2).trans_le hlt⟩

/-! What a writer without the lease meets (R8). -/

theorem stageWrite_of_not_held {blk : Nat} {rq : Requester} {s : State} (h : lockHeldBy blk rq s = false) (a : Nat) (w : Word) :
    stageWrite blk rq a w s = busError s := by
  unfold stageWrite
  split
  · rfl
  · simp [h]

theorem writeSwc_lk_of_not_held {rq : Requester} {a : Nat} {w : Word} {s : State} (hk : hasLk a s = true)
    (hb : blockOf a = 7) (ha : 0x40000000 ≤ a) (h : lockHeldBy 0 rq s = false) : writeSwc rq a w s = busError s := by
  have hr := blockOf_bounds hb ha
  have ho : a % 0x10000 = 0x104 ∨ 0x1000 ≤ a % 0x10000 := by
    have := swc_lk_addr hk hb ha
    omega
  have hne : a % 0x10000 ≠ 0x000 ∧ a % 0x10000 ≠ 0x01C ∧ a % 0x10000 ≠ 0x144 := by omega
  have hring : ¬ (0x800 ≤ a % 0x10000 ∧ a % 0x10000 < 0xC00) := by omega
  simp [writeSwc, hne, hring, hk, stageWrite_of_not_held h]

theorem writeFwt_lk_of_not_held {rq : Requester} {a : Nat} {w : Word} {s : State} (hk : hasLk a s = true)
    (hb : blockOf a = 8) (ha : 0x40000000 ≤ a) (h : lockHeldBy 1 rq s = false) : writeFwt rq a w s = busError s := by
  rw [fwt_lk_addr hk hb ha]
  simp [writeFwt, stageWrite_of_not_held h]

theorem cmdPkeJobGo_of_not_held {rq : Requester} {s : State} (h : pkeHolder rq s = false) (w : Word) :
    cmdPkeJobGo rq w s = busError s := by simp [cmdPkeJobGo, h]

theorem cmdPkeOpdataAccess_of_not_held {rq : Requester} {s : State} (h : pkeHolder rq s = false) (v : Option Word) :
    cmdPkeOpdataAccess rq v s = busError s := by simp [cmdPkeOpdataAccess, h]

theorem cmdPkeSlenWrite_of_not_held {rq : Requester} {s : State} (h : pkeHolder rq s = false) (k : Nat) (w : Word) :
    cmdPkeSlenWrite rq k w s = busError s := by simp [cmdPkeSlenWrite, h]

theorem writePke_lk_of_not_held {rq : Requester} {a : Nat} {w : Word} {s : State} (hk : hasLk a s = true)
    (hb : blockOf a = 15) (ha : 0x40000000 ≤ a) (h : pkeHolder rq s = false) : writePke rq a w s = busError s := by
  obtain hjob | ⟨hlo, hhi⟩ := pke_lk_addr hk hb ha
  · simp only [List.mem_cons, List.not_mem_nil, or_false] at hjob
    rcases hjob with rfl | rfl | rfl | rfl | rfl | rfl <;>
      simp [writePke, h, cmdPkeJobGo_of_not_held, cmdPkeOpdataAccess_of_not_held]
  · have hlow : a % 0x10000 ≠ 0x000 ∧ a % 0x10000 ≠ 0x004 ∧ a % 0x10000 ≠ 0x008 ∧ a % 0x10000 ≠ 0x00C ∧ a % 0x10000 ≠ 0x010 ∧
        a % 0x10000 ≠ 0x020 ∧ a % 0x10000 ≠ 0x024 := by omega
    have hslen : 0x100 ≤ a % 0x10000 ∧ a % 0x10000 < 0x200 := by omega
    simp [writePke, hlow, hslen, cmdPkeSlenWrite_of_not_held h]

/-! A write in the address range of the blocks goes to its block (R496). -/

theorem not_windows_of_blockOf {a n : Nat} (hb : blockOf a = n) (ha : 0x40000000 ≤ a) (hn : n < 0x18) :
    tileWindow a = false ∧ ramWindow a = false ∧ portWindow a = false := by
  have := blockOf_bounds hb ha
  simp only [tileWindow, ramWindow, portWindow, Bool.and_eq_false_iff, decide_eq_false_iff_not]
  omega

theorem writeReg_swc {rq : Requester} {a : Nat} {w : Word} {s : State} (h4 : a % 4 = 0) (hb : blockOf a = 7) (ha : 0x40000000 ≤ a) :
    writeReg rq a w s = writeSwc rq a w s := by
  obtain ⟨ht, hr, hp⟩ := not_windows_of_blockOf hb ha (by omega)
  simp [writeReg, h4, ht, hr, hp, between_of_blockOf hb ha, hb]

theorem writeReg_fwt {rq : Requester} {a : Nat} {w : Word} {s : State} (h4 : a % 4 = 0) (hb : blockOf a = 8) (ha : 0x40000000 ≤ a) :
    writeReg rq a w s = writeFwt rq a w s := by
  obtain ⟨ht, hr, hp⟩ := not_windows_of_blockOf hb ha (by omega)
  simp [writeReg, h4, ht, hr, hp, between_of_blockOf hb ha, hb]

theorem writeReg_pke {rq : Requester} {a : Nat} {w : Word} {s : State} (h4 : a % 4 = 0) (hb : blockOf a = 15) (ha : 0x40000000 ≤ a) :
    writeReg rq a w s = writePke rq a w s := by
  obtain ⟨ht, hr, hp⟩ := not_windows_of_blockOf hb ha (by omega)
  simp [writeReg, h4, ht, hr, hp, between_of_blockOf hb ha, hb]

/-- Settles O13: the LK registers of each block stand where its writes ask for the lease first. -/
theorem lockedRegistersNeedTheirLease : Obligations.LockedRegistersNeedTheirLease := by
  unfold Obligations.LockedRegistersNeedTheirLease
  refine ⟨?switch, ?tables, ?engine⟩
  case switch =>
    intro rq a w s hk h4 hb ha h hadm
    rw [exec_registerWrite_of_admits hadm, writeReg_swc h4 hb ha, writeSwc_lk_of_not_held hk hb ha h]
  case tables =>
    intro rq a w s hk h4 hb ha h hadm
    rw [exec_registerWrite_of_admits hadm, writeReg_fwt h4 hb ha, writeFwt_lk_of_not_held hk hb ha h]
  case engine =>
    intro rq a w s hk h4 hb ha h hadm
    rw [exec_registerWrite_of_admits hadm, writeReg_pke h4 hb ha, writePke_lk_of_not_held hk hb ha h]

end Sys2Proof.Machine

/-! # Every command answers and leaves the queue of commands as it was

A command's meaning is a composition of the model's functions on states, and each of these leaves `State.pending` as it is (a reset copies it
into the new state). One lemma for each function says so, in the order of the model's files; a function that also leaves memory as it was says
both (`Keeps`), so that a frame of memory can be read off it as well. The lemmas rewrite: in the proof of a function, `simp only` with the lemmas
of its callees reduces the queue after it to the queue before it, branch by branch. -/

namespace Sys2Proof.Machine

/-- State `t` has the queue of commands and the memory of state `s`. -/
abbrev Keeps (s t : State) : Prop := t.pending = s.pending ∧ t.mem = s.mem

/-- A meaning answers a next state, with the queue of commands of state `s`. -/
abbrev KeepsQueue (s : State) (o : Out) : Prop := ∃ t, o = .next t ∧ t.pending = s.pending

/-! ## The operations on states -/

/-- A projection of a conditional state is the same conditional of projections. -/
theorem ite_keeps (c : Prop) [Decidable c] (s t : State) :
    (if c then s else t).pending = (if c then s.pending else t.pending) ∧ (if c then s else t).mem = (if c then s.mem else t.mem) :=
  ⟨apply_ite _ _ _ _, apply_ite _ _ _ _⟩

theorem keeps_trans {s t u : State} (h : Keeps s t) (h' : Keeps t u) : Keeps s u := ⟨h'.1.trans h.1, h'.2.trans h.2⟩

/-- The state of a conditional pair is the conditional of the states. -/
theorem ite_snd {α β : Type} (c : Prop) [Decidable c] (p q : α × β) : (if c then p else q).2 = if c then p.2 else q.2 :=
  apply_ite _ _ _ _

theorem setF_keeps (f : Fld) (v : Nat) (s : State) : Keeps s (setF f v s) := ⟨rfl, rfl⟩

theorem setB_keeps (f : Fld) (v : Bool) (s : State) : Keeps s (setB f v s) := ⟨rfl, rfl⟩

theorem incF_keeps (f : Fld) (v : Nat) (s : State) : Keeps s (incF f v s) := ⟨rfl, rfl⟩

theorem incWrap_keeps (f : Fld) (v : Nat) (s : State) : Keeps s (incWrap f v s) := ⟨rfl, rfl⟩

theorem orF_keeps (f : Fld) (v : Nat) (s : State) : Keeps s (orF f v s) := ⟨rfl, rfl⟩

theorem clrF_keeps (f : Fld) (v : Nat) (s : State) : Keeps s (clrF f v s) := ⟨rfl, rfl⟩

theorem busDone_keeps (s : State) : Keeps s (busDone s) := ⟨rfl, rfl⟩

theorem busError_keeps (s : State) : Keeps s (busError s) := ⟨rfl, rfl⟩

theorem busData_keeps (v : Nat) (s : State) : Keeps s (busData v s) := ⟨rfl, rfl⟩

theorem busStall_keeps (s : State) : Keeps s (busStall s) := ⟨rfl, rfl⟩

theorem busRetry_keeps (s : State) : Keeps s (busRetry s) := ⟨rfl, rfl⟩

theorem emit_keeps (e : Emission) (s : State) : Keeps s (emit e s) := ⟨rfl, rfl⟩

theorem drawFree_keeps (w : Nat) (s : State) : Keeps s (drawFree w s).2 := ⟨rfl, rfl⟩

theorem applyAll_keeps {α : Type} {l : List α} {g : α → State → State} (hg : ∀ x s, Keeps s (g x s)) (s : State) :
    Keeps s (applyAll l g s) := by
  induction l generalizing s with
  | nil => exact ⟨rfl, rfl⟩
  | cons a r ih => exact ⟨(ih (g a s)).1.trans (hg a s).1, (ih (g a s)).2.trans (hg a s).2⟩

theorem applyAll_pending {α : Type} {l : List α} {g : α → State → State} (hg : ∀ x s, (g x s).pending = s.pending) (s : State) :
    (applyAll l g s).pending = s.pending := by
  induction l generalizing s with
  | nil => rfl
  | cons a r ih => exact (ih (g a s)).trans (hg a s)

theorem onlyIf_pending {c : Bool} {g : State → State} (hg : ∀ s, (g s).pending = s.pending) (s : State) :
    (onlyIf c g s).pending = s.pending := by
  simp only [onlyIf, ite_keeps, hg, ite_self]

theorem wrBytes_pending (a : Nat) (l : List Byte) (s : State) : (wrBytes a l s).pending = s.pending := by
  rw [wrBytes_eq]

theorem raiseNow_keeps (e : Nat) (s : State) : Keeps s (raiseNow e s) := by
  constructor <;> rw [(raiseNow_frame _ _).1]

theorem raise_keeps (e : Nat) (s : State) : Keeps s (raise e s) := by
  constructor <;> rw [(raise_frame _ _).1]

theorem raiseOnce_keeps (e i : Nat) (s : State) : Keeps s (raiseOnce e i s) := by
  constructor <;> rw [(raiseOnce_frame _ _ _).1]

theorem violation_keeps (addr : Nat) (w : World) (write : Bool) (src core : Nat) (s : State) :
    Keeps s (violation addr w write src core s) := by
  simp only [Keeps, violation, raiseOnce_keeps, incF_keeps, setF_keeps, setB_keeps, and_self]

theorem setMode_keeps (m : Nat) (s : State) : Keeps s (setMode m s) := by
  constructor <;> rw [(setMode_frame _ _).1]

theorem refreshMode_keeps (s : State) : Keeps s (refreshMode s) := by
  constructor <;> rw [(refreshMode_frame _).1]

theorem violate_keeps (rq : Requester) (a : Nat) (w : Bool) (s : State) : Keeps s (violate rq a w s) := by
  constructor <;> rw [(violate_frame _ _ _ _).1]

theorem gate_keeps {rq : Requester} {write : Bool} {a : Nat} {w : Word} {g : State → State} (hg : ∀ s, Keeps s (g s)) (s : State) :
    Keeps s (gate rq write a w g s) := by
  simp only [Keeps, gate, ite_keeps, hg, violate_keeps, busError_keeps, ite_self, and_self]

theorem gate_pending {rq : Requester} {write : Bool} {a : Nat} {w : Word} {g : State → State} (hg : ∀ s, (g s).pending = s.pending) (s :
    State) :
    (gate rq write a w g s).pending = s.pending := by
  simp only [gate, ite_keeps, hg, violate_keeps, busError_keeps, ite_self]

/-! ## Functions of `Sys2Proof/Machine/Ops.lean` -/

theorem setFree_keeps (f : Fld) (s : State) : Keeps s (setFree f s) := by
  simp only [Keeps, setFree, drawFree_keeps, setF_keeps, and_self]

theorem releaseHeld_keeps (s : State) : Keeps s (releaseHeld s) := by
  simp only [Keeps, releaseHeld, applyAll_keeps, implies_true, raiseNow_keeps, and_self]

theorem setTileBit_keeps (lo hi : Fld) (n : Nat) (b : Bool) (s : State) : Keeps s (setTileBit lo hi n b s) := by
  simp only [Keeps, setTileBit, ite_keeps, ite_self, orF_keeps, clrF_keeps, and_self]

/-! ## Functions of `Sys2Proof/Machine/Inn.lean` -/

theorem setLease_keeps (n : Nat) (l : Lease) (s : State) : Keeps s (setLease n l s) := ⟨rfl, rfl⟩

theorem grantLease_keeps {kind res tag n : Nat} {dur : Option Nat} {s t : State} (h : grantLease kind res tag dur s = some (n, t)) :
    Keeps s t := by
  unfold grantLease at h
  split at h
  · cases h
  · split at h
    · cases h
    · cases h; exact setLease_keeps _ _ s

theorem countFull_keeps (tag : Nat) (s : State) : Keeps s (countFull tag s) := by
  simp only [Keeps, countFull, ite_keeps, ite_self, incF_keeps, and_self]

theorem logDeclaration_keeps (owner decl count : Nat) (s : State) : Keeps s (logDeclaration owner decl count s) := by
  simp only [Keeps, logDeclaration, setF_keeps, incF_keeps, and_self]

theorem declare_keeps (reach : Lease → Nat → Bool) (owner decl : Nat) (s : State) : Keeps s (declare reach owner decl s) := by
  simp only [Keeps, declare, ite_keeps, ite_self, logDeclaration_keeps, applyAll_keeps, implies_true, setLease_keeps, and_self]

theorem declareWorld_keeps (w : World) (decl : Nat) (s : State) : Keeps s (declareWorld w decl s) := by
  simp only [Keeps, declareWorld, declare_keeps, and_self]

theorem poolTake_keeps (s : State) : Keeps s (poolTake s) := by
  simp only [Keeps, poolTake, setF_keeps, setB_keeps, ite_keeps, ite_self, raise_keeps, and_self]

theorem poolReturn_keeps (s : State) : Keeps s (poolReturn s) := by
  simp only [Keeps, poolReturn, setF_keeps, setB_keeps, ite_keeps, ite_self, and_self]

theorem takePage_keeps (i : Nat) (s : State) : Keeps s (takePage i s).2 := by
  simp only [Keeps, takePage, ite_keeps, ite_self, poolTake_keeps, and_self]

theorem grantPage_keeps (idx i : Nat) (s : State) : Keeps s (grantPage idx i s).2 := by
  simp only [Keeps, grantPage, takePage_keeps, setF_keeps, and_self]

theorem takePages_keeps (idx i n : Nat) (s : State) : Keeps s (takePages idx i n s).2.2 := by
  induction n generalizing s with
  | zero => exact ⟨rfl, rfl⟩
  | succ n ih =>
    unfold takePages
    split
    · exact ⟨rfl, rfl⟩
    · simp only [Keeps, ih, grantPage_keeps, and_self]

theorem linkPages_keeps (l : List Nat) (s : State) : Keeps s (linkPages l s) := by
  induction l, s using linkPages.induct with
  | case1 s => exact ⟨rfl, rfl⟩
  | case2 s p => exact ⟨rfl, rfl⟩
  | case3 s p q r ih => simpa only [Keeps, linkPages] using ih

theorem freePage_keeps (p : Nat) (s : State) : Keeps s (freePage p s) := by
  simp only [Keeps, freePage, ite_keeps, ite_self, poolReturn_keeps, and_self]

theorem freePages_keeps (l : List Nat) (s : State) : Keeps s (freePages l s) := by
  simp only [Keeps, freePages, applyAll_keeps, implies_true, freePage_keeps, and_self]

theorem sharePages_keeps (l : List Nat) (n : Nat) (s : State) : Keeps s (sharePages l n s) := by
  simp only [Keeps, sharePages, applyAll_keeps, implies_true, and_self]

theorem countDrop_keeps (port reason : Nat) (s : State) : Keeps s (countDrop port reason s) := by
  simp only [Keeps, countDrop, incF_keeps, and_self]

theorem setLodger_keeps (lid : Nat) (l : Lodger) (s : State) : Keeps s (setLodger lid l s) := ⟨rfl, rfl⟩

theorem underGen_keeps (ctx : Bool) (gen : Nat) (g : State → State) (hg : ∀ s, Keeps s (g s)) (s : State) :
    Keeps s (underGen ctx gen g s) := by
  unfold underGen
  split <;> simp only [Keeps, ite_keeps, hg, ite_self, and_self]

theorem underGen_pending (ctx : Bool) (gen : Nat) (g : State → State) (hg : ∀ s, (g s).pending = s.pending) (s : State) :
    (underGen ctx gen g s).pending = s.pending := by
  unfold underGen
  split <;> simp only [ite_keeps, hg, ite_self]

theorem evict_keeps (lid : Nat) (s : State) : Keeps s (evict lid s) := by
  simp only [Keeps, evict, setLodger_keeps, and_self]

theorem pinIn_keeps (lid : Nat) (s : State) : Keeps s (pinIn lid s) := by
  unfold pinIn
  split
  · simp only [Keeps, setLodger_keeps, and_self]
  · split <;> simp only [Keeps, setLodger_keeps, evict_keeps, and_self]

theorem pageIn_keeps (lid : Nat) (s : State) : Keeps s (pageIn lid s) := by
  simp only [Keeps, pageIn, setLodger_keeps, and_self]

theorem contextFault_keeps (lid : Nat) (s : State) : Keeps s (contextFault lid s) := by
  unfold contextFault
  split
  · simp only [Keeps, ite_keeps, ite_self, pinIn_keeps, and_self]
  split
  · simp only [Keeps, ite_keeps, ite_self, pageIn_keeps, and_self]
  · split <;> simp only [Keeps, ite_keeps, ite_self, pageIn_keeps, evict_keeps, setLodger_keeps, raise_keeps, setB_keeps, and_self]

theorem fenceLodger_keeps (lid : Nat) (s : State) : Keeps s (fenceLodger lid s) := by
  simp only [Keeps, fenceLodger, setLodger_keeps]
  exact applyAll_keeps (fun i t => by split <;> simp only [Keeps, countDrop_keeps, freePages_keeps, and_self]) s

theorem releaseItem_keeps (lid : Nat) (w : ItemWork) (s : State) : Keeps s (releaseItem lid w s) := by
  unfold releaseItem
  split <;> simp only [Keeps, ite_keeps, ite_self, countDrop_keeps, freePages_keeps, setLodger_keeps, contextFault_keeps, and_self]

/-! ## Functions of `Sys2Proof/Machine/Worlds.lean` -/

theorem secureOnly_keeps (rq : Requester) (a : Nat) (g : State → State) (hg : ∀ s, Keeps s (g s)) (s : State) :
    Keeps s (secureOnly rq a g s) := by
  simp only [Keeps, secureOnly, ite_keeps, hg, violate_keeps, ite_self, and_self]

theorem secureOnly_pending (rq : Requester) (a : Nat) (g : State → State) (hg : ∀ s, (g s).pending = s.pending) (s : State) :
    (secureOnly rq a g s).pending = s.pending := by
  simp only [secureOnly, ite_keeps, hg, violate_keeps, ite_self]

/-! ## Functions of `Sys2Proof/Machine/Aon.lean` -/

theorem aonLog_keeps (cause detail : Nat) (preq : Bool) (s : State) : Keeps s (aonLog cause detail preq s) := by
  simp only [Keeps, aonLog, ite_keeps, ite_self, setF_keeps, incF_keeps, and_self]

theorem preqRelease_keeps (detail : Nat) (s : State) : Keeps s (preqRelease detail s) := by
  simp only [Keeps, preqRelease, ite_keeps, ite_self, aonLog_keeps, setB_keeps, and_self]

theorem aonAlarm_keeps (cause detail bit : Nat) (s : State) : Keeps s (aonAlarm cause detail bit s) := by
  simp only [Keeps, aonAlarm, ite_keeps, ite_self, aonLog_keeps, setB_keeps, raise_keeps, and_self]

theorem preqStop_keeps (detail : Nat) (s : State) : Keeps s (preqStop detail s) := by
  simp only [Keeps, preqStop, setB_keeps, preqRelease_keeps, and_self]

theorem preqSw_keeps (v : Bool) (s : State) : Keeps s (preqSw v s) := by
  simp only [Keeps, preqSw, ite_keeps, ite_self, setB_keeps, preqRelease_keeps, and_self]

theorem ledgerAdvance_keeps (s : State) : Keeps s (ledgerAdvance s) := ⟨rfl, rfl⟩

theorem aonApply_keeps (a v : Nat) (sec : Bool) (s : State) : Keeps s (aonApply a v sec s) := by
  simp only [Keeps, aonApply, ite_keeps, ite_self, ledgerAdvance_keeps, setF_keeps, clrF_keeps, preqStop_keeps, preqSw_keeps, and_self]

theorem aonWrite_keeps (a v : Nat) (sec : Bool) (s : State) : Keeps s (aonWrite a v sec s) := by
  simp only [Keeps, aonWrite, setB_keeps, ite_keeps, ite_self, busDone_keeps, busStall_keeps, and_self]

theorem aonTransit_keeps (s : State) : Keeps s (aonTransit s) := by
  unfold aonTransit
  split <;> simp only [Keeps, aonApply_keeps, setB_keeps, and_self]

theorem execAonWriteTransit_keepsQueue (s : State) : KeepsQueue s (execAonWriteTransit s) :=
  ⟨_, rfl, by simp only [aonTransit_keeps]⟩

theorem standbyTrigger_keeps (why : Nat) (s : State) : Keeps s (standbyTrigger why s) := by
  unfold standbyTrigger
  split <;> simp only [Keeps, setB_keeps, setF_keeps, and_self]

theorem execRtcSecond_keepsQueue (s : State) : KeepsQueue s (execRtcSecond s) :=
  ⟨_, rfl, by simp only [ite_keeps, ite_self, standbyTrigger_keeps, aonAlarm_keeps, setB_keeps]⟩

theorem cmdAonRtcset_keeps (rq : Requester) (w : Word) (s : State) : Keeps s (cmdAonRtcset rq w s) := by
  simp only [Keeps, cmdAonRtcset, secureOnly_keeps, implies_true, aonWrite_keeps, and_self]

theorem execAonRtcset_keepsQueue (rq : Requester) (w : Word) (s : State) : KeepsQueue s (execAonRtcset rq w s) :=
  ⟨_, rfl, by simp only [implies_true, gate_pending, cmdAonRtcset_keeps]⟩

theorem execWakePinFire_keepsQueue (n : Nat) (s : State) : KeepsQueue s (execWakePinFire n s) :=
  ⟨_, rfl, by simp only [implies_true, onlyIf_pending, aonAlarm_keeps]⟩

theorem execWakePinRearm_keepsQueue (n : Nat) (s : State) : KeepsQueue s (execWakePinRearm n s) :=
  ⟨_, rfl, by simp only [implies_true, onlyIf_pending]⟩

theorem execTamperFire_keepsQueue (s : State) : KeepsQueue s (execTamperFire s) :=
  ⟨_, rfl, by simp only [implies_true, onlyIf_pending, aonAlarm_keeps, setB_keeps]⟩

theorem execTamperRearm_keepsQueue (s : State) : KeepsQueue s (execTamperRearm s) :=
  ⟨_, rfl, by simp only [setB_keeps]⟩

theorem tamperWrite_keeps (rq : Requester) (v : Nat) (s : State) : Keeps s (tamperWrite rq v s) := by
  simp only [Keeps, tamperWrite, secureOnly_keeps, implies_true, ite_keeps, ite_self, aonWrite_keeps, busError_keeps, and_self]

theorem cmdTamperLatchClear_keeps (rq : Requester) (s : State) : Keeps s (cmdTamperLatchClear rq s) := by
  simp only [Keeps, cmdTamperLatchClear, tamperWrite_keeps, and_self]

theorem execTamperLatchClear_keepsQueue (rq : Requester) (s : State) : KeepsQueue s (execTamperLatchClear rq s) :=
  ⟨_, rfl, by simp only [implies_true, gate_pending, cmdTamperLatchClear_keeps]⟩

theorem vbatInhibit_keeps (mv10 : Nat) (s : State) : Keeps s (vbatInhibit mv10 s) := by
  simp only [Keeps, vbatInhibit, ite_keeps, ite_self, preqStop_keeps, setB_keeps, and_self]

theorem execVbatMeasure_keepsQueue (mv10 : Nat) (s : State) : KeepsQueue s (execVbatMeasure mv10 s) :=
  ⟨_, rfl, by simp only [vbatInhibit_keeps, setF_keeps, ite_keeps, ite_self, aonAlarm_keeps]⟩

theorem execPwrReqHoldExpiry_keepsQueue (s : State) : KeepsQueue s (execPwrReqHoldExpiry s) :=
  ⟨_, rfl, by simp only [implies_true, onlyIf_pending, ite_keeps, ite_self, preqRelease_keeps]⟩

theorem cmdPwrReqRelease_keeps (rq : Requester) (s : State) : Keeps s (cmdPwrReqRelease rq s) := by
  simp only [Keeps, cmdPwrReqRelease, aonWrite_keeps, and_self]

theorem execPwrReqRelease_keepsQueue (rq : Requester) (s : State) : KeepsQueue s (execPwrReqRelease rq s) :=
  ⟨_, rfl, by simp only [implies_true, gate_pending, cmdPwrReqRelease_keeps]⟩

theorem cmdPwrReqSwWrite_keeps (rq : Requester) (w : Word) (s : State) : Keeps s (cmdPwrReqSwWrite rq w s) := by
  simp only [Keeps, cmdPwrReqSwWrite, ite_keeps, ite_self, aonWrite_keeps, busError_keeps, and_self]

theorem execPwrReqSwWrite_keepsQueue (rq : Requester) (w : Word) (s : State) : KeepsQueue s (execPwrReqSwWrite rq w s) :=
  ⟨_, rfl, by simp only [implies_true, gate_pending, cmdPwrReqSwWrite_keeps]⟩

theorem cmdAonLogack_keeps (rq : Requester) (s : State) : Keeps s (cmdAonLogack rq s) := by
  simp only [Keeps, cmdAonLogack, aonWrite_keeps, and_self]

theorem execAonLogack_keepsQueue (rq : Requester) (s : State) : KeepsQueue s (execAonLogack rq s) :=
  ⟨_, rfl, by simp only [implies_true, gate_pending, cmdAonLogack_keeps]⟩

theorem execAonDomainPowerUp_keepsQueue (fromVbat : Bool) (s : State) : KeepsQueue s (execAonDomainPowerUp fromVbat s) :=
  ⟨_, rfl, by simp only [implies_true, onlyIf_pending, setMode_keeps]⟩

/-! ## Functions of `Sys2Proof/Machine/Tables.lean` -/

theorem twr_keeps (a : Nat) (b : List Byte) (s : State) : Keeps s (twr a b s) := by
  induction b generalizing a s with
  | nil => exact ⟨rfl, rfl⟩
  | cons x r ih => simp only [Keeps, twr, ih, and_self]

theorem entWr_keeps (t i : Nat) (b : List Byte) (s : State) : Keeps s (entWr t i b s) := by
  simp only [Keeps, entWr, twr_keeps, and_self]

theorem shadowPlace_keeps (e : List Byte) (s : State) : Keeps s (shadowPlace e s).2 := by
  unfold shadowPlace
  dsimp only
  split
  · simp only [Keeps, entWr_keeps, and_self]
  · split <;> simp only [Keeps, entWr_keeps, setF_keeps, incF_keeps, and_self]

theorem shadowMade_keeps (e : List Byte) (s : State) : Keeps s (shadowMade e s) := by
  simp only [Keeps, shadowMade, shadowPlace_keeps, ite_keeps, ite_self, incF_keeps, and_self]

theorem shadowDrop_keeps (key : List Byte) (s : State) : Keeps s (shadowDrop key s) := by
  unfold shadowDrop
  split <;> simp only [Keeps, entWr_keeps, and_self]

theorem l2Put_keeps (i : Nat) (e : List Byte) (s : State) : Keeps s (l2Put i e s) := by
  simp only [Keeps, l2Put, entWr_keeps, ite_keeps, ite_self, setF_keeps, shadowDrop_keeps, shadowMade_keeps, and_self]

theorem tabChange_keeps (t i : Nat) (e : List Byte) (s : State) : Keeps s (tabChange t i e s) := by
  simp only [Keeps, tabChange, ite_keeps, ite_self, l2Put_keeps, entWr_keeps, and_self]

theorem insertFail_keeps (t src : Nat) (e : List Byte) (s : State) : Keeps s (insertFail t src e s) := by
  simp only [Keeps, insertFail, raise_keeps, incF_keeps, setF_keeps, and_self]

theorem insertKey_keeps (t src : Nat) (e : List Byte) (s : State) : Keeps s (insertKey t src e s).2 := by
  unfold insertKey
  split
  · simp only [Keeps, tabChange_keeps, and_self]
  · split <;> simp only [Keeps, tabChange_keeps, insertFail_keeps, and_self]

theorem cvQueue_keeps (r : CvRecord) (s : State) : Keeps s (cvQueue r s) := by
  simp only [Keeps, cvQueue, ite_keeps, ite_self, incF_keeps, setF_keeps, and_self]

theorem cvLocal_keeps (e : L2) (withdraw : Bool) (s : State) : Keeps s (cvLocal e withdraw s) := by
  simp only [Keeps, cvLocal, ite_keeps, ite_self, cvQueue_keeps, and_self]

theorem learnQueue_keeps (r : LearnReq) (s : State) : Keeps s (learnQueue r s) := by
  simp only [Keeps, learnQueue, ite_keeps, ite_self, incF_keeps, setF_keeps, and_self]

theorem learnMeet_keeps (mac : List Byte) (vid port : Nat) (s : State) : Keeps s (learnMeet mac vid port s) := by
  unfold learnMeet
  split
  · exact ⟨rfl, rfl⟩
  dsimp only
  split <;> simp only [Keeps, ite_keeps, ite_self, learnQueue_keeps, l2Put_keeps, and_self]

theorem learnApply_keeps (r : LearnReq) (s : State) : Keeps s (learnApply r s) := by
  unfold learnApply
  split <;> simp only [Keeps, ite_keeps, ite_self, cvLocal_keeps, incF_keeps, l2Put_keeps, insertKey_keeps, and_self]

theorem execLearnApply_keepsQueue (s : State) : KeepsQueue s (execLearnApply s) :=
  ⟨_, rfl, by split <;> simp only [learnApply_keeps, setF_keeps]⟩

theorem ageEntry_keeps (i : Nat) (s : State) : Keeps s (ageEntry i s) := by
  simp only [Keeps, ageEntry, ite_keeps, ite_self, incF_keeps, l2Put_keeps, cvLocal_keeps, and_self]

theorem execAgeingScan_keepsQueue (s : State) : KeepsQueue s (execAgeingScan s) :=
  ⟨_, rfl, by simp only [implies_true, applyAll_pending, ageEntry_keeps]⟩

theorem cmdMigrateStart_keeps (rq : Requester) (w : Word) (s : State) : Keeps s (cmdMigrateStart rq w s) := by
  simp only [Keeps, cmdMigrateStart, busDone_keeps, setF_keeps, ite_keeps, ite_self, and_self]

theorem execMigrateStart_keepsQueue (rq : Requester) (w : Word) (s : State) : KeepsQueue s (execMigrateStart rq w s) :=
  ⟨_, rfl, by simp only [implies_true, gate_pending, cmdMigrateStart_keeps]⟩

theorem migrateEntry_keeps (i : Nat) (s : State) : Keeps s (migrateEntry i s) := by
  simp only [Keeps, migrateEntry, ite_keeps, ite_self, shadowMade_keeps, and_self]

theorem execMigrateDone_keepsQueue (s : State) : KeepsQueue s (execMigrateDone s) :=
  ⟨_, rfl, by simp only [implies_true, onlyIf_pending, applyAll_pending, migrateEntry_keeps, ite_keeps, ite_self, setF_keeps]⟩

theorem clearBank_keeps (p : Nat) (s : State) : Keeps s (clearBank p s) := by
  simp only [Keeps, clearBank, applyAll_keeps, implies_true, entWr_keeps, and_self]

theorem cmdMigrateCancel_keeps (rq : Requester) (w : Word) (s : State) : Keeps s (cmdMigrateCancel rq w s) := by
  simp only [Keeps, cmdMigrateCancel, busDone_keeps, setF_keeps, ite_keeps, ite_self, clearBank_keeps, and_self]

theorem execMigrateCancel_keepsQueue (rq : Requester) (w : Word) (s : State) : KeepsQueue s (execMigrateCancel rq w s) :=
  ⟨_, rfl, by simp only [implies_true, gate_pending, cmdMigrateCancel_keeps]⟩

theorem bankSwap_keeps (s : State) : Keeps s (bankSwap s) := by
  simp only [Keeps, bankSwap, ite_keeps, ite_self, setF_keeps, setB_keeps, and_self]

theorem execBankClearDone_keepsQueue (s : State) : KeepsQueue s (execBankClearDone s) :=
  ⟨_, rfl, by simp only [implies_true, onlyIf_pending, setF_keeps, clearBank_keeps]⟩

theorem cmdPorterGo_keeps (rq : Requester) (w : Word) (s : State) : Keeps s (cmdPorterGo rq w s) := by
  simp only [Keeps, cmdPorterGo, busDone_keeps, ite_keeps, ite_self, setB_keeps, and_self]

theorem execPorterGo_keepsQueue (rq : Requester) (w : Word) (s : State) : KeepsQueue s (execPorterGo rq w s) :=
  ⟨_, rfl, by simp only [implies_true, gate_pending, cmdPorterGo_keeps]⟩

theorem stageChange_keeps (c : TableChange) (s : State) : Keeps s (stageChange c s) := by
  simp only [Keeps, stageChange, setF_keeps, and_self]

theorem porterEnd_keeps (stop : Option Nat) (s : State) : Keeps s (porterEnd stop s) := by
  unfold porterEnd
  split <;> simp only [Keeps, setB_keeps, setF_keeps, and_self]

theorem porterOp_keeps (op t idx : Nat) (data : List Byte) (lock : Bool) (s : State) :
    Keeps s (porterOp op t idx data lock s).2.2.2 := by
  simp only [Keeps, porterOp, ite_keeps, ite_snd, stageChange_keeps]
  (repeat' split) <;> simp only [stageChange_keeps, insertFail_keeps, and_self]

theorem execPorterOperation_keepsQueue (s : State) : KeepsQueue s (execPorterOperation s) := by
  refine ⟨_, rfl, ?_⟩
  split
  · rfl
  extract_lets a w r _ data u s1 s2
  have h1 : s1.pending = s.pending := by simp only [s1, u, wrBytes_pending, porterOp_keeps]
  have h2 : s2.pending = s.pending := by unfold s2; split <;> simp only [wrBytes_pending, h1]
  clear_value s2
  simp only [ite_keeps, porterEnd_keeps, violation_keeps, h2, ite_self]

theorem commitRecords_keeps (i : Nat) (new : List Byte) (s t : State) : Keeps t (commitRecords i new s t) := by
  simp only [Keeps, commitRecords, ite_keeps, ite_self, cvLocal_keeps, and_self]

theorem commitChange_keeps (c : TableChange) (s : State) : Keeps s (commitChange c s) := by
  unfold commitChange
  split <;> simp only [Keeps, tabChange_keeps, ite_keeps, ite_self, commitRecords_keeps, and_self]

theorem fwtCommit_keeps (s : State) : Keeps s (fwtCommit s) := by
  simp only [Keeps, fwtCommit, applyAll_keeps, implies_true, commitChange_keeps, ite_keeps, ite_self, bankSwap_keeps, setF_keeps,
    setB_keeps, and_self]

theorem fwtDiscard_keeps (s : State) : Keeps s (fwtDiscard s) := by
  unfold fwtDiscard
  split <;> simp only [Keeps, setF_keeps, porterEnd_keeps, and_self]

theorem execOverlayDrainDone_keepsQueue (s : State) : KeepsQueue s (execOverlayDrainDone s) :=
  ⟨_, rfl, by simp only [setB_keeps]⟩

theorem epochMismatch_keeps (s : State) : Keeps s (epochMismatch s) := by
  simp only [Keeps, epochMismatch, incF_keeps, and_self]

theorem keepOwner_keeps (r : CvRecord) (s : State) : Keeps s (keepOwner r s) := ⟨rfl, rfl⟩

theorem mergeRecord_keeps (r : CvRecord) (s : State) : Keeps s (mergeRecord r s) := by
  cases h : findKey 1 (l2Key r.mac r.vid) s <;> simp only [Keeps, mergeRecord, h, ite_keeps, incF_keeps, insertKey_keeps, cvQueue_keeps,
    keepOwner_keeps, l2Put_keeps, raise_keeps, ite_self, and_self]

theorem installRecord_keeps (r : CvRecord) (s : State) : Keeps s (installRecord r s) := by
  unfold installRecord
  split
  · exact ⟨rfl, rfl⟩
  · split <;> simp only [Keeps, ite_keeps, incF_keeps, insertKey_keeps, keepOwner_keeps, l2Put_keeps, ite_self, and_self]

theorem cvArrive_keeps (c : Caravan) (s : State) : Keeps s (cvArrive c s) := by
  simp only [Keeps, cvArrive, ite_keeps, ite_self, raise_keeps, setF_keeps, raiseOnce_keeps, and_self]

theorem cvTake_keeps (g : CvRecord → State → State) (hg : ∀ x s, Keeps s (g x s)) (s : State) : Keeps s (cvTake g s) := by
  unfold cvTake
  split <;> simp only [Keeps, ite_keeps, applyAll_keeps, hg, implies_true, epochMismatch_keeps, setF_keeps, ite_self, and_self]

theorem execCaravanMerge_keepsQueue (s : State) : KeepsQueue s (execCaravanMerge s) :=
  ⟨_, rfl, onlyIf_pending (fun s => (cvTake_keeps _ mergeRecord_keeps s).1) s⟩

theorem execRedistributionInstall_keepsQueue (s : State) : KeepsQueue s (execRedistributionInstall s) :=
  ⟨_, rfl, onlyIf_pending (fun s => (cvTake_keeps _ installRecord_keeps s).1) s⟩

theorem ownerDev_keeps (e : L2) (s : State) : Keeps s (ownerDev e s).2 := by
  unfold ownerDev
  split
  · exact ⟨rfl, rfl⟩
  · split <;> simp only [Keeps, drawFree_keeps, and_self]

theorem refreshEntry_keeps (i : Nat) (s : State) : Keeps s (refreshEntry i s) := by
  simp only [Keeps, refreshEntry, ownerDev_keeps, cvQueue_keeps, and_self]

theorem refreshRun_keeps (l : List Nat) (s : State) : Keeps s (refreshRun l s) := by
  induction l generalizing s with
  | nil => exact ⟨rfl, rfl⟩
  | cons i r ih => simp only [Keeps, refreshRun, ite_keeps, ih, refreshEntry_keeps, ite_self, and_self]

theorem refreshStep_keeps (s : State) : Keeps s (refreshStep s) := by
  unfold refreshStep
  split <;> simp only [Keeps, ite_keeps, ite_self, refreshRun_keeps, and_self]

theorem fullRefresh_keeps (s : State) : Keeps s (fullRefresh s) := by
  simp only [Keeps, fullRefresh, refreshStep_keeps, and_self]

theorem execFullRefresh_keepsQueue (s : State) : KeepsQueue s (execFullRefresh s) :=
  ⟨_, rfl, by simp only [fullRefresh_keeps]⟩

/-! ## Functions of `Sys2Proof/Machine/Switch.lean` -/

theorem storeFrame_pending (l : List Nat) (b : List Byte) (s : State) : (storeFrame l b s).pending = s.pending := by
  induction l generalizing b s with
  | nil => rfl
  | cons p r ih => simp only [storeFrame, ih, wrBytes_pending]

theorem swBump_keeps (p i n : Nat) (s : State) : Keeps s (swBump p i n s) := ⟨rfl, rfl⟩

theorem setQueue_keeps (k : Nat) (q : List Replica) (s : State) : Keeps s (setQueue k q s) := ⟨rfl, rfl⟩

theorem dropReplica_keeps (r : Replica) (s : State) : Keeps s (dropReplica r s) := by
  simp only [Keeps, dropReplica, freePages_keeps, and_self]

theorem discard_keeps (p i : Nat) (r : Replica) (s : State) : Keeps s (discard p i r s) := by
  simp only [Keeps, discard, swBump_keeps, dropReplica_keeps, and_self]

theorem ringDrop_keeps (r n : Nat) (s : State) : Keeps s (ringDrop r n s) := by
  simp only [Keeps, ringDrop, incF_keeps, and_self]

theorem setGate_keeps (p : Nat) (g : GateState) (s : State) : Keeps s (setGate p g s) := ⟨rfl, rfl⟩

theorem creditUpdate_keeps (p : Nat) (s : State) : Keeps s (creditUpdate p s) := by
  simp only [Keeps, creditUpdate, ite_keeps, ite_self, applyAll_keeps, implies_true, and_self]

theorem refreshHold_keeps (p : Nat) (s : State) : Keeps s (refreshHold p s) := by
  simp only [Keeps, refreshHold, ite_keeps, ite_self, setF_keeps, and_self]

theorem enqueue_keeps (p : Nat) (r : Replica) (s : State) : Keeps s (enqueue p r s) := by
  unfold enqueue
  split <;> simp only [Keeps, discard_keeps, incF_keeps, ringDrop_keeps, dropReplica_keeps, refreshHold_keeps, setQueue_keeps,
    creditUpdate_keeps, and_self]

theorem flushPort_keeps (p : Nat) (s : State) : Keeps s (flushPort p s) := by
  simp only [Keeps, flushPort, refreshHold_keeps, creditUpdate_keeps, applyAll_keeps, implies_true, discard_keeps, setQueue_keeps, and_self]

theorem ethCount_keeps (p i : Nat) (s : State) : Keeps s (ethCount p i s) := by
  simp only [Keeps, ethCount, incF_keeps, ite_keeps, ite_self, raiseOnce_keeps, and_self]

theorem trnCount_keeps (lid i n : Nat) (s : State) : Keeps s (trnCount lid i n s) := by
  simp only [Keeps, trnCount, and_self]

theorem toTranscriber_keeps (r : Replica) (s : State) : Keeps s (toTranscriber r s) := by
  unfold toTranscriber
  dsimp only
  split <;> simp only [Keeps, releaseItem_keeps, trnCount_keeps, dropReplica_keeps, and_self]

theorem joinPlain_keeps (p : Nat) (r : Replica) (s : State) : Keeps s (joinPlain p r s) := by
  simp only [Keeps, joinPlain, ite_keeps, ite_self, toTranscriber_keeps, discard_keeps, enqueue_keeps, and_self]

theorem setInflight_keeps (p : Nat) (i : Option Inflight) (s : State) : Keeps s (setInflight p i s) := ⟨rfl, rfl⟩

theorem addWaiting_keeps (p : Nat) (l : List (Nat × Replica)) (s : State) : Keeps s (addWaiting p l s) := by
  unfold addWaiting
  split <;> simp only [Keeps, setInflight_keeps, and_self]

theorem joinCut_keeps (p : Nat) (r : Replica) (s : State) : Keeps s (joinCut p r s) := by
  simp only [Keeps, joinCut, ite_keeps, ite_self, addWaiting_keeps, enqueue_keeps, sharePages_keeps, and_self]

theorem joinQueue_keeps (p : Nat) (r : Replica) (s : State) : Keeps s (joinQueue p r s) := by
  simp only [Keeps, joinQueue, ite_keeps, ite_self, discard_keeps, joinPlain_keeps, sharePages_keeps, and_self]

theorem ingressCopy_keeps (w : Waybill) (arriving : Bool) (s : State) : Keeps s (ingressCopy w arriving s) := by
  simp only [Keeps, ingressCopy, ite_keeps, ite_self, sharePages_keeps, addWaiting_keeps, joinPlain_keeps, and_self]

theorem police_keeps (i charge : Nat) (s : State) : Keeps s (police i charge s).2 := by
  unfold police
  split
  · simp only [Keeps, incF_keeps, and_self]
  dsimp only
  split
  · simp only [Keeps, entWr_keeps, and_self]
  · split <;> simp only [Keeps, entWr_keeps, raiseOnce_keeps, setF_keeps, and_self]

theorem policeSettle_keeps (i charged len : Nat) (s : State) : Keeps s (policeSettle i charged len s) := by
  simp only [Keeps, policeSettle, ite_keeps, ite_self, entWr_keeps, and_self]

theorem policeCredit_keeps (i : Nat) (s : State) : Keeps s (policeCredit i s) := by
  simp only [Keeps, policeCredit, entWr_keeps, and_self]

theorem execPolicerCreditTick_keepsQueue (s : State) : KeepsQueue s (execPolicerCreditTick s) :=
  ⟨_, rfl, by simp only [implies_true, applyAll_pending, policeCredit_keeps]⟩

theorem setCb_keeps (sh : Nat) (c : CbStream) (s : State) : Keeps s (setCb sh c s) := ⟨rfl, rfl⟩

theorem execStreamResetTimeout_keepsQueue (sh : Nat) (s : State) : KeepsQueue s (execStreamResetTimeout sh s) :=
  ⟨_, rfl, by simp only [implies_true, onlyIf_pending, setCb_keeps]⟩

theorem flowDrop_keeps (f : Flow) (i : Nat) (s : State) : Keeps s (flowDrop f i s) := by
  simp only [Keeps, flowDrop, swBump_keeps, freePages_keeps, and_self]

theorem replicate_keeps (f : Flow) (encap : Option Nat) (decap arriving : Bool) (s : State) :
    Keeps s (replicate f encap decap arriving s) := by
  simp only [Keeps, replicate, ite_keeps, ite_self, swBump_keeps, freePages_keeps, flowDrop_keeps, sharePages_keeps, applyAll_keeps,
    implies_true, joinCut_keeps, addWaiting_keeps, joinQueue_keeps, and_self]

theorem reframe_pending (f : Flow) (b : List Byte) (s : State) : (reframe f b s).2.pending = s.pending := by
  unfold reframe
  split <;> simp only [setInflight_keeps, storeFrame_pending]

theorem recovery_pending {f g : Flow} {sh : Nat} {s t : State} (h : recovery f sh s = some (g, t)) : t.pending = s.pending := by
  simp only [recovery] at h
  split at h
  · cases h; rfl
  · split at h
    · cases h; simp only [setCb_keeps]
    · simp only [Option.ite_none_right_eq_some, Option.some.injEq] at h
      rw [show t = _ from (congrArg Prod.snd h.2).symm]
      simp only [ite_snd, ite_keeps, reframe_pending, setCb_keeps, ite_self]

theorem recoveryDiscard_keeps (f : Flow) (sh : Nat) (s : State) : Keeps s (recoveryDiscard f sh s) := by
  unfold recoveryDiscard
  split <;> simp only [Keeps, setCb_keeps, and_self]

theorem forwardL2_pending (f : Flow) (arriving : Bool) (s : State) : (forwardL2 f arriving s).pending = s.pending := by
  simp only [forwardL2]
  split
  · simp only [replicate_keeps, ite_keeps, learnMeet_keeps, ite_self]
  split
  · simp only [flowDrop_keeps, ite_keeps, learnMeet_keeps, ite_self]
  split
  · simp only [flowDrop_keeps, ite_keeps, learnMeet_keeps, ite_self]
  split
  · split
    · simp only [flowDrop_keeps, recoveryDiscard_keeps, ite_keeps, learnMeet_keeps, ite_self]
    · next h => simp only [replicate_keeps, recovery_pending h, ite_keeps, learnMeet_keeps, ite_self]
  · simp only [replicate_keeps, ite_keeps, learnMeet_keeps, ite_self]

theorem forwardTile_keeps (f : Flow) (s : State) : Keeps s (forwardTile f s) := by
  unfold forwardTile
  dsimp only
  split
  · simp only [Keeps, replicate_keeps, and_self]
  · split <;> simp only [Keeps, replicate_keeps, flowDrop_keeps, and_self]

theorem forwardStage_pending (f : Flow) (arriving : Bool) (s : State) : (forwardStage f arriving s).pending = s.pending := by
  simp only [forwardStage, ite_keeps, ite_self, forwardTile_keeps, forwardL2_pending]

theorem settleLater_keeps (p i charge : Nat) (s : State) : Keeps s (settleLater p i charge s) := by
  unfold settleLater
  split <;> simp only [Keeps, setInflight_keeps, and_self]

theorem policeStage_keeps (f : Flow) (g : GraphRec) (arriving : Bool) (s : State) : Keeps s (policeStage f g arriving s).2 := by
  simp only [Keeps, policeStage]
  split <;> simp only [police_keeps, ite_keeps, ite_self, settleLater_keeps, flowDrop_keeps, and_self]

theorem queueItem_keeps (lid : Nat) (w : Waybill) (arriving : Bool) (s : State) : Keeps s (queueItem lid w arriving s) := by
  simp only [Keeps, queueItem, ite_keeps, ite_self, addWaiting_keeps, releaseItem_keeps, and_self]

theorem transcribeStage_keeps (f : Flow) (g : GraphRec) (arriving : Bool) (s : State) : Keeps s (transcribeStage f g arriving s).2 := by
  unfold transcribeStage
  dsimp only
  split <;> simp only [Keeps, ite_keeps, ite_self, ite_snd, queueItem_keeps, sharePages_keeps, and_self]

theorem transcribeStage_keeps_of_eq {f : Flow} {g : GraphRec} {arriving : Bool} {s t : State} {o : Option Flow} (h : transcribeStage f g
    arriving s = (o, t)) :
    Keeps s t := by
  simpa only [Keeps, h] using transcribeStage_keeps f g arriving s

theorem policeStage_keeps_of_eq {f : Flow} {g : GraphRec} {arriving : Bool} {s t : State} {o : Option Flow} (h : policeStage f g arriving s
    = (o, t)) :
    Keeps s t := by
  simpa only [Keeps, h] using policeStage_keeps f g arriving s

theorem runStages_pending (l : List Nat) (f : Flow) (g : GraphRec) (arriving : Bool) (s : State) :
    (runStages l f g arriving s).pending = s.pending := by
  induction l, f, g, arriving, s using runStages.induct with
  | case1 f g arriving s => simp only [runStages, freePages_keeps]
  | case2 r f g arriving s => simp only [runStages, forwardStage_pending]
  | case3 r f g arriving s f1 s1 h ih => simp only [runStages, h, ih, transcribeStage_keeps_of_eq h]
  | case4 r f g arriving s s1 h => simp only [runStages, h, transcribeStage_keeps_of_eq h]
  | case5 r f g arriving s f1 s1 h ih => simp only [runStages, h, ih, policeStage_keeps_of_eq h]
  | case6 r f g arriving s s1 h => simp only [runStages, h, policeStage_keeps_of_eq h]
  | case7 r f g arriving s h => simp only [runStages, h, if_true]
  | case8 r f g arriving s h ih => rw [runStages, if_neg h, ih]
  | case9 x r f g arriving s h5 h4 h3 h2 ih => simpa only [Keeps, runStages] using ih

theorem enterPipeline_pending (w : Waybill) (frame : List Byte) (arriving : Bool) (s : State) :
    (enterPipeline w frame arriving s).pending = s.pending := by
  simp only [enterPipeline, ite_keeps, ite_self, setInflight_keeps, ingressCopy_keeps, swBump_keeps, replicate_keeps, flowDrop_keeps,
    runStages_pending]

theorem setFilling_keeps (k : Nat) (l : List Nat) (s : State) : Keeps s (setFilling k l s) := ⟨rfl, rfl⟩

theorem pagesOf_keeps (w : Waybill) (tc len : Nat) (lossless : Bool) (s : State) : Keeps s (pagesOf w tc len lossless s).2.2 := by
  unfold pagesOf
  split <;> simp only [Keeps, ite_keeps, ite_self, ite_snd, freePages_keeps, setFilling_keeps, takePages_keeps, and_self]

theorem setHolds_keeps (k : Nat) (l : List Held) (s : State) : Keeps s (setHolds k l s) := ⟨rfl, rfl⟩

theorem obufShow_keeps (s : State) : Keeps s (obufShow s) := by
  simp only [Keeps, obufShow, setF_keeps, setB_keeps, and_self]

theorem enterHostel_pending (w : Waybill) (frame : List Byte) (arriving : Bool) (pages : List Nat) (s : State) :
    (enterHostel w frame arriving pages s).pending = s.pending := by
  simp only [enterHostel, storeFrame_pending, linkPages_keeps, ite_keeps, ite_self, replicate_keeps, ingressCopy_keeps,
    enterPipeline_pending]

theorem offerFrame_pending (w : Waybill) (frame : List Byte) (arriving : Bool) (s : State) :
    (offerFrame w frame arriving s).pending = s.pending := by
  simp only [offerFrame, ite_keeps, ite_self, obufShow_keeps, setHolds_keeps, countDrop_keeps, pagesOf_keeps, enterHostel_pending]

theorem internalFrame_pending (w : Waybill) (bytes : List Byte) (s : State) : (internalFrame w bytes s).pending = s.pending := by
  simp only [internalFrame, offerFrame_pending]

theorem unitFrame_pending (w : Waybill) (bytes : List Byte) (s : State) : (unitFrame w bytes s).pending = s.pending := by
  simp only [unitFrame, offerFrame_pending]

theorem enterHeld_pending (h : Held) (s : State) : (enterHeld h s).pending = s.pending := by
  simp only [enterHeld, implies_true, underGen_pending, pagesOf_keeps, ite_keeps, ite_self, enterHostel_pending, countDrop_keeps]

theorem releaseLossy_pending (k : Nat) (l : List Held) (s : State) : (releaseLossy k l s).pending = s.pending := by
  induction l generalizing s with
  | nil => simp only [releaseLossy, setHolds_keeps]
  | cons h q ih => simp only [releaseLossy, ite_keeps, setHolds_keeps, ih, enterHeld_pending, ite_self]

theorem retryHold_pending (k : Nat) (s : State) : (retryHold k s).pending = s.pending := by
  unfold retryHold
  split <;> simp only [ite_keeps, ite_self, obufShow_keeps, releaseLossy_pending, enterHeld_pending]

theorem policeOwn_keeps (graph : Nat) (w : Waybill) (frame : List Byte) (s : State) : Keeps s (policeOwn graph w frame s).2 := by
  unfold policeOwn
  split
  · split
    · split
      · dsimp only
        split <;> simp only [Keeps, police_keeps, swBump_keeps, and_self]
      dsimp only
      split <;> simp only [Keeps, police_keeps, swBump_keeps, and_self]
    · exact ⟨rfl, rfl⟩
  · exact ⟨rfl, rfl⟩

theorem policeOwn_keeps_of_eq {g : Nat} {w : Waybill} {b : List Byte} {s t : State} {o : Option Waybill} (h : policeOwn g w b s = (o, t)) :
    Keeps s t := by
  simpa only [Keeps, h] using policeOwn_keeps g w b s

theorem sendOwn_pending (graph : Nat) (w : Waybill) (frame : List Byte) (s : State) : (sendOwn graph w frame s).pending = s.pending := by
  unfold sendOwn
  split
  · next h => simp only [internalFrame_pending, policeOwn_keeps_of_eq h, swBump_keeps]
  · next h => simp only [policeOwn_keeps_of_eq h, swBump_keeps]

theorem internalInline_keeps (w : Waybill) (s : State) : Keeps s (internalInline w s) := by
  simp only [Keeps, internalInline, applyAll_keeps, implies_true, joinQueue_keeps, ingressCopy_keeps, and_self]

theorem setMet_keeps (p : Nat) (b : Bool) (s : State) : Keeps s (setMet p b s) := by
  simp only [Keeps, setMet, and_self]

theorem ingressFrame_pending (p : Nat) (frame : List Byte) (sfd : Nat) (s : State) :
    (ingressFrame p frame sfd s).pending = s.pending := by
  simp only [ingressFrame, offerFrame_pending]

theorem execFrameIngress_keepsQueue (p : Nat) (frame : List Byte) (sfd : Nat) (s : State) :
    KeepsQueue s (execFrameIngress p frame sfd s) :=
  ⟨_, rfl, by simp only [implies_true, onlyIf_pending, setMet_keeps, ingressFrame_pending]⟩

theorem settleCharge_keeps (i : Inflight) (s : State) : Keeps s (settleCharge i s) := by
  unfold settleCharge
  split <;> simp only [Keeps, policeSettle_keeps, and_self]

theorem mapQueued_keeps (pages : List Nat) (g : Replica → Option Replica) (s : State) : Keeps s (mapQueued pages g s) := by
  simp only [Keeps, mapQueued, applyAll_keeps, implies_true, dropReplica_keeps, setQueue_keeps, and_self]

theorem frameStored_keeps (p : Nat) (s : State) : Keeps s (frameStored p s) := by
  unfold frameStored
  split <;> simp only [Keeps, setHolds_keeps, underGen_keeps, implies_true, applyAll_keeps, joinQueue_keeps, mapQueued_keeps,
    settleCharge_keeps, setInflight_keeps, and_self]

theorem execFrameStored_keepsQueue (p : Nat) (s : State) : KeepsQueue s (execFrameStored p s) :=
  ⟨_, rfl, by simp only [frameStored_keeps]⟩

theorem setSending_keeps (p : Nat) (r : Option Replica) (s : State) : Keeps s (setSending p r s) := ⟨rfl, rfl⟩

theorem endSpoiled_keeps (q : Nat) (s : State) : Keeps s (endSpoiled q s) := by
  unfold endSpoiled
  split <;> simp only [Keeps, emit_keeps, dropReplica_keeps, setSending_keeps, creditUpdate_keeps, and_self]

theorem portsSettle_keeps (s : State) : Keeps s (portsSettle s) := by
  simp only [Keeps, portsSettle, applyAll_keeps, implies_true, refreshHold_keeps, creditUpdate_keeps, and_self]

theorem abandonFrame_keeps (p : Nat) (s : State) : Keeps s (abandonFrame p s) := by
  unfold abandonFrame
  split <;> simp only [Keeps, ite_keeps, ite_self, setHolds_keeps, freePages_keeps, setFilling_keeps, underGen_keeps, implies_true,
    portsSettle_keeps, mapQueued_keeps, settleCharge_keeps, setInflight_keeps, applyAll_keeps, dropReplica_keeps, swBump_keeps,
    endSpoiled_keeps, and_self]

/-! ## Functions of `Sys2Proof/Machine/Egress.lean` -/

theorem ptpStamp_keeps (p : Nat) (f : List Byte) (s : State) : Keeps s (ptpStamp p f s) := by
  simp only [Keeps, ptpStamp, ite_keeps, ite_self, incF_keeps, setF_keeps, and_self]

theorem putOnWire_keeps (p : Nat) (s : State) : Keeps s (putOnWire p s) := ⟨rfl, rfl⟩

theorem burstStart_keeps (p : Nat) (s : State) : Keeps s (burstStart p s) := by
  unfold burstStart
  split <;> simp only [Keeps, ite_keeps, ite_self, putOnWire_keeps, and_self]

theorem execEgressSelection_keepsQueue (p : Nat) (s : State) : KeepsQueue s (execEgressSelection p s) := by
  refine ⟨_, rfl, onlyIf_pending (fun s => ?_) s⟩
  dsimp only
  split
  · simp only [refreshHold_keeps, creditUpdate_keeps]
  split
  · simp only [creditUpdate_keeps]
  · simp only [refreshHold_keeps, burstStart_keeps, ite_keeps, ptpStamp_keeps, setSending_keeps, setQueue_keeps, creditUpdate_keeps,
      ite_self]

theorem plcaUp_keeps (p : Nat) (s : State) : Keeps s (plcaUp p s) := by
  simp only [Keeps, plcaUp, ite_keeps, ite_self, raise_keeps, setB_keeps, and_self]

theorem beacon_keeps (p : Nat) (s : State) : Keeps s (beacon p s) := by
  simp only [Keeps, beacon, emit_keeps, plcaUp_keeps, and_self]

theorem execTransmitOpportunity_keepsQueue (p : Nat) (s : State) : KeepsQueue s (execTransmitOpportunity p s) :=
  ⟨_, rfl, by simp only [implies_true, onlyIf_pending, ite_keeps, ite_self, beacon_keeps, putOnWire_keeps]⟩

theorem execPageFree_keepsQueue (p : Nat) (s : State) : KeepsQueue s (execPageFree p s) := by
  refine ⟨_, rfl, ?_⟩
  split
  · rfl
  split
  · rfl
  · split <;> simp only [setSending_keeps, freePage_keeps]

theorem recirculate_pending (r : Replica) (s : State) : (recirculate r s).pending = s.pending := by
  simp only [recirculate, runStages_pending, ingressCopy_keeps, swBump_keeps]

theorem hieTake_keeps (p : Nat) (f : List Byte) (s : State) : Keeps s (hieTake p f s) := ⟨rfl, rfl⟩

theorem truncate_keeps (p : Nat) (s : State) : Keeps s (truncate p s) := by
  simp only [Keeps, truncate, swBump_keeps, endSpoiled_keeps, and_self]

theorem replicaSent_pending (p : Nat) (r : Replica) (s : State) : (replicaSent p r s).pending = s.pending := by
  simp only [replicaSent, swBump_keeps, setSending_keeps, creditUpdate_keeps, ite_keeps, ite_self, recirculate_pending, hieTake_keeps,
    dropReplica_keeps, emit_keeps, ethCount_keeps]

theorem transmitDone_pending (p : Nat) (s : State) : (transmitDone p s).pending = s.pending := by
  unfold transmitDone
  split <;> simp only [ite_keeps, ite_self, truncate_keeps, replicaSent_pending]

theorem execCutThroughEnd_keepsQueue (p why : Nat) (s : State) : KeepsQueue s (execCutThroughEnd p why s) :=
  ⟨_, rfl, by split <;> simp only [ite_keeps, ite_self, truncate_keeps, abandonFrame_keeps, emit_keeps, setSending_keeps,
    creditUpdate_keeps, refreshHold_keeps, swBump_keeps, setQueue_keeps]⟩

theorem countCycles_keeps (p : Nat) (s : State) : Keeps s (countCycles p s) := by
  refine applyAll_keeps (fun c t => ?_) s
  dsimp only
  split <;> simp only [Keeps, setQueue_keeps, and_self]

theorem showGates_keeps (p : Nat) (s : State) : Keeps s (showGates p s) := by
  simp only [Keeps, showGates, setF_keeps, and_self]

theorem execGateEntryChange_keepsQueue (p : Nat) (s : State) : KeepsQueue s (execGateEntryChange p s) :=
  ⟨_, rfl, by simp only [implies_true, onlyIf_pending, creditUpdate_keeps, ite_keeps, ite_self, refreshHold_keeps, showGates_keeps,
    setGate_keeps, countCycles_keeps]⟩

theorem showOper_keeps (p : Nat) (l : List (Nat × Nat)) (s : State) : Keeps s (showOper p l s) := by
  simp only [Keeps, showOper, applyAll_keeps, implies_true, setF_keeps, and_self]

theorem execGateConfigChange_keepsQueue (p : Nat) (s : State) : KeepsQueue s (execGateConfigChange p s) :=
  ⟨_, rfl, by split <;>
    simp only [creditUpdate_keeps, refreshHold_keeps, showGates_keeps, showOper_keeps, setB_keeps, setGate_keeps, countCycles_keeps]⟩

theorem gateCommit_keeps (p : Nat) (s : State) : Keeps s (gateCommit p s) := by
  simp only [Keeps, gateCommit, refreshHold_keeps, showGates_keeps, setB_keeps, setGate_keeps, and_self]

theorem execGateHoldDiscard_keepsQueue (p c : Nat) (s : State) : KeepsQueue s (execGateHoldDiscard p c s) := by
  refine ⟨_, rfl, onlyIf_pending (fun s => ?_) s⟩
  dsimp only
  split
  · rfl
  · simp only [ite_keeps, refreshHold_keeps, creditUpdate_keeps, raise_keeps, incF_keeps, discard_keeps, setQueue_keeps, ite_self]

/-! ## Functions of `Sys2Proof/Machine/RegFind.lean` -/

theorem clearRead_keeps (d : RegDesc) (a : Nat) (s : State) : Keeps s (clearRead d a s) := by
  simp only [Keeps, clearRead, applyAll_keeps, implies_true, ite_keeps, ite_self, setF_keeps, and_self]

theorem writeFields_keeps (p : Acc → Bool) (d : RegDesc) (a w : Nat) (s : State) : Keeps s (writeFields p d a w s) := by
  refine applyAll_keeps (fun f t => ?_) s
  split
  · exact ⟨rfl, rfl⟩
  · split <;> simp only [Keeps, clrF_keeps, orF_keeps, setF_keeps, and_self]

/-! ## Functions of `Sys2Proof/Machine/Rings.lean` -/

theorem addFilling_keeps (k p : Nat) (s : State) : Keeps s (addFilling k p s) := by
  simp only [Keeps, addFilling, setFilling_keeps, and_self]

theorem noPage_keeps (reason : Nat) (r : PageReq) (s : State) : Keeps s (noPage reason r s) := by
  simp only [Keeps, noPage, ite_keeps, ite_self, freePages_keeps, setFilling_keeps, countDrop_keeps, and_self]

theorem turnPast_keeps (l : List PageReq) (s : State) : Keeps s (turnPast l s) := by
  unfold turnPast
  split <;> exact ⟨rfl, rfl⟩

theorem loses_keeps (s0 : State) (r : PageReq) (s : State) : Keeps s (loses s0 r s) := by
  unfold loses
  split <;> simp only [Keeps, noPage_keeps, and_self]

theorem execPageRequest_keepsQueue (reqs : List PageReq) (s : State) : KeepsQueue s (execPageRequest reqs s) := by
  refine ⟨_, rfl, ?_⟩
  dsimp only
  split
  · simp only [applyAll_keeps (loses_keeps s), turnPast_keeps]
  split
  · simp only [turnPast_keeps]
  · simp only [retryHold_pending, applyAll_keeps (loses_keeps s), addFilling_keeps, grantPage_keeps, turnPast_keeps]

theorem pgRefuse_keeps (why : Nat) (s : State) : Keeps s (pgRefuse why s) := by
  simp only [Keeps, pgRefuse, setB_keeps, setF_keeps, and_self]

theorem cmdInkPgreq_keeps (rq : Requester) (w : Word) (s : State) : Keeps s (cmdInkPgreq rq w s) := by
  unfold cmdInkPgreq
  dsimp only
  split
  · exact busError_keeps s
  split
  · simp only [Keeps, pgRefuse_keeps, busDone_keeps, and_self]
  split
  · simp only [Keeps, pgRefuse_keeps, busDone_keeps, and_self]
  split
  · simp only [Keeps, pgRefuse_keeps, countFull_keeps, busDone_keeps, and_self]
  split
  · simp only [Keeps, pgRefuse_keeps, busDone_keeps, and_self]
  · next h =>
    simp only [Keeps, setB_keeps, setF_keeps, linkPages_keeps, grantLease_keeps h, takePages_keeps, freePages_keeps, setFilling_keeps,
      busDone_keeps, and_self]

theorem execInkPgreq_keepsQueue (rq : Requester) (w : Word) (s : State) : KeepsQueue s (execInkPgreq rq w s) :=
  ⟨_, rfl, by simp only [implies_true, gate_pending, cmdInkPgreq_keeps]⟩

theorem cmdInkPgfree_keeps (rq : Requester) (n : Nat) (s : State) : Keeps s (cmdInkPgfree rq n s) := by
  simp only [Keeps, cmdInkPgfree, ite_keeps, ite_self, busDone_keeps, setLease_keeps, freePages_keeps, busError_keeps, and_self]

theorem execInkPgfree_keepsQueue (rq : Requester) (n : Nat) (s : State) : KeepsQueue s (execInkPgfree rq n s) :=
  ⟨_, rfl, by simp only [implies_true, gate_pending, cmdInkPgfree_keeps]⟩

theorem execPageWindowAccess_keepsQueue (rq : Requester) (a size : Nat) (v : Option Word) (s : State) :
    KeepsQueue s (execPageWindowAccess rq a size v s) :=
  ⟨_, rfl, by split <;> simp only [ite_keeps, ite_self, busError_keeps, violate_keeps, busData_keeps, busDone_keeps, wrBytes_pending]⟩

theorem ringFault_keeps (r a : Nat) (write : Bool) (s : State) : Keeps s (ringFault r a write s) := by
  simp only [Keeps, ringFault, violation_keeps, setB_keeps, and_self]

theorem execReceiveRingWrite_keepsQueue (r : Nat) (s : State) : KeepsQueue s (execReceiveRingWrite r s) := by
  refine ⟨_, rfl, ?_⟩
  dsimp only
  split
  · rfl
  split
  · rfl
  split
  · exact (ringFault_keeps _ _ _ _).1
  split
  · simp only [setF_keeps, setQueue_keeps, wrBytes_pending]
  split
  · exact (countFull_keeps _ _).1
  · next h => simp only [setF_keeps, setQueue_keeps, wrBytes_pending, grantLease_keeps h]

theorem execRingInterrupt_keepsQueue (r : Nat) (s : State) : KeepsQueue s (execRingInterrupt r s) :=
  ⟨_, rfl, by simp only [implies_true, onlyIf_pending, ite_keeps, ite_self, emit_keeps]⟩

theorem directed_pending (f : Flow) (m : Nat) (s : State) : (directed f m s).pending = s.pending := by
  unfold directed
  split
  · next g _ =>
    have hp (f : Flow) := policeStage_keeps f g false s
    dsimp only
    split
    · split
      · next h => rw [(replicate_keeps ..).1, ← (hp _).1, h]
      · next h => rw [← (hp _).1, h]
    · simp only [replicate_keeps]
  · simp only [replicate_keeps]

theorem ringAdvance_keeps (r : Nat) (s : State) : Keeps s (ringAdvance r s) := by
  simp only [Keeps, ringAdvance, setF_keeps, and_self]

theorem execTransmitSlotProcess_keepsQueue (r : Nat) (s : State) : KeepsQueue s (execTransmitSlotProcess r s) := by
  refine ⟨_, rfl, ?_⟩
  dsimp only
  split
  · rfl
  split
  · exact (ringFault_keeps _ _ _ _).1
  split
  · simp only [ringAdvance_keeps, incF_keeps]
  · simp only [ite_keeps, ringAdvance_keeps, incF_keeps, directed_pending, ingressCopy_keeps, swBump_keeps, enterPipeline_pending,
      setLease_keeps, linkPages_keeps, freePages_keeps, ite_self]

theorem ringReset_keeps (r : Nat) (s : State) : Keeps s (ringReset r s) := by
  simp only [Keeps, ringReset, setQueue_keeps, applyAll_keeps, implies_true, dropReplica_keeps, ringDrop_keeps, and_self]

theorem ringsReset_keeps (w : World) (s : State) : Keeps s (ringsReset w s) := by
  simp only [Keeps, ringsReset, applyAll_keeps, implies_true, ringReset_keeps, and_self]

theorem cmdSwcSnap_keeps (rq : Requester) (w : Word) (s : State) : Keeps s (cmdSwcSnap rq w s) := by
  simp only [Keeps, cmdSwcSnap, ite_keeps, ite_self, busError_keeps, applyAll_keeps, implies_true, setF_keeps, busDone_keeps, setB_keeps,
    and_self]

theorem execSwcSnap_keepsQueue (rq : Requester) (w : Word) (s : State) : KeepsQueue s (execSwcSnap rq w s) :=
  ⟨_, rfl, by simp only [implies_true, gate_pending, cmdSwcSnap_keeps]⟩

theorem lockTake_keeps (blk : Nat) (busy lease : Fld) (blocked : Bool) (rq : Requester) (s : State) :
    Keeps s (lockTake blk busy lease blocked rq s) := by
  unfold lockTake
  dsimp only
  split
  · simp only [Keeps, ite_keeps, setB_keeps, busDone_keeps, ite_self, and_self]
  split
  · simp only [Keeps, setB_keeps, busDone_keeps, and_self]
  split
  · next h => simp only [Keeps, setF_keeps, setB_keeps, grantLease_keeps h, busDone_keeps, and_self]
  · simp only [Keeps, setB_keeps, countFull_keeps, busDone_keeps, and_self]

theorem cmdSwcLockTake_keeps (rq : Requester) (s : State) : Keeps s (cmdSwcLockTake rq s) := by
  simp only [Keeps, cmdSwcLockTake, lockTake_keeps, and_self]

theorem execSwcLockTake_keepsQueue (rq : Requester) (s : State) : KeepsQueue s (execSwcLockTake rq s) :=
  ⟨_, rfl, by simp only [implies_true, gate_pending, cmdSwcLockTake_keeps]⟩

theorem cmdFwtLockTake_keeps (rq : Requester) (s : State) : Keeps s (cmdFwtLockTake rq s) := by
  simp only [Keeps, cmdFwtLockTake, lockTake_keeps, and_self]

theorem execFwtLockTake_keepsQueue (rq : Requester) (s : State) : KeepsQueue s (execFwtLockTake rq s) :=
  ⟨_, rfl, by simp only [implies_true, gate_pending, cmdFwtLockTake_keeps]⟩

theorem applyStaged_keeps (x : Staged) (s : State) : Keeps s (applyStaged x s) := by
  unfold applyStaged
  split
  · exact ⟨rfl, rfl⟩
  · split <;> simp only [Keeps, writeFields_keeps, and_self]

theorem swcCommit_keeps (s : State) : Keeps s (swcCommit s) := by
  simp only [Keeps, swcCommit, applyAll_keeps, implies_true, applyStaged_keeps, gateCommit_keeps, and_self]

theorem swcDiscard_keeps (s : State) : Keeps s (swcDiscard s) := ⟨rfl, rfl⟩

/-! ## Functions of `Sys2Proof/Machine/Keys.lean` -/

theorem kstWrite_keeps (rq : Requester) (a : Nat) (g : State → State) (hg : ∀ s, Keeps s (g s)) (s : State) :
    Keeps s (kstWrite rq a g s) := by
  simp only [Keeps, kstWrite, ite_keeps, hg, violate_keeps, ite_self, and_self]

theorem kstKeyed_keeps (rq : Requester) (a key : Nat) (g : State → State) (hg : ∀ s, Keeps s (g s)) (s : State) :
    Keeps s (kstKeyed rq a key g s) := by
  simp only [Keeps, kstKeyed, kstWrite_keeps, ite_keeps, hg, busError_keeps, busDone_keeps, implies_true, ite_self, and_self]

theorem unitViolation_keeps (a : Nat) (w : World) (write : Bool) (s : State) : Keeps s (unitViolation a w write s) := by
  simp only [Keeps, unitViolation, drawFree_keeps, violation_keeps, and_self]

theorem storeWrite_keeps (region blk : Nat) (s : State) : Keeps s (storeWrite region blk s) := ⟨rfl, rfl⟩

theorem drbgReseed_keeps (s : State) : Keeps s (drbgReseed s) := by
  simp only [Keeps, drbgReseed, ite_keeps, ite_self, incF_keeps, and_self]

theorem drbgCall_keeps (s : State) : Keeps s (drbgCall s).2 := by
  simp only [Keeps, drbgCall, ite_keeps, ite_self, drbgReseed_keeps, and_self]

theorem drbgBytes_keeps (n : Nat) (s : State) : Keeps s (drbgBytes n s).2 := by
  induction n generalizing s with
  | zero => exact ⟨rfl, rfl⟩
  | succ n ih => simp only [Keeps, drbgBytes, ih, drbgCall_keeps, and_self]

theorem setNode_keeps (n : Nat) (v : Node) (s : State) : Keeps s (setNode n v s) := by
  simp only [Keeps, setNode, storeWrite_keeps, and_self]

theorem nodeRefuse_keeps (why : Option Nat) (s : State) : Keeps s (nodeRefuse why s) := by
  unfold nodeRefuse
  split <;> simp only [Keeps, setB_keeps, setF_keeps, setFree_keeps, and_self]

theorem nodeDone_keeps (s : State) : Keeps s (nodeDone s) := by
  simp only [Keeps, nodeDone, setB_keeps, and_self]

theorem cmdNodeCreate_keeps (rq : Requester) (key parent : Nat) (s : State) : Keeps s (cmdNodeCreate rq key parent s) := by
  refine kstKeyed_keeps _ _ _ _ (fun t => ?_) s
  split
  · simp only [Keeps, nodeRefuse_keeps, and_self]
  split
  · dsimp only
    split
    · simp only [Keeps, nodeRefuse_keeps, and_self]
    · split <;> simp only [Keeps, nodeRefuse_keeps, and_self]
  dsimp only
  split
  · simp only [Keeps, nodeRefuse_keeps, and_self]
  split
  · simp only [Keeps, nodeRefuse_keeps, and_self]
  · split <;> simp only [Keeps, nodeDone_keeps, setF_keeps, setNode_keeps, drawFree_keeps, and_self]

theorem execNodeCreate_keepsQueue (rq : Requester) (key parent : Nat) (s : State) : KeepsQueue s (execNodeCreate rq key parent s) :=
  ⟨_, rfl, by simp only [implies_true, gate_pending, cmdNodeCreate_keeps]⟩

theorem orphanBelow_keeps (n : Nat) (s : State) : Keeps s (orphanBelow n s) := by
  simp only [Keeps, orphanBelow, applyAll_keeps, implies_true, setNode_keeps, and_self]

theorem setSlot_keeps (k : Nat) (v : KeySlot) (s : State) : Keeps s (setSlot k v s) := ⟨rfl, rfl⟩

theorem cmdNodeInvalidate_keeps (rq : Requester) (key node : Nat) (s : State) : Keeps s (cmdNodeInvalidate rq key node s) := by
  simp only [Keeps, cmdNodeInvalidate, kstKeyed_keeps, implies_true, ite_keeps, ite_self, nodeRefuse_keeps, setNode_keeps,
    orphanBelow_keeps, applyAll_keeps, setSlot_keeps, nodeDone_keeps, setF_keeps, raise_keeps, and_self]

theorem execNodeInvalidate_keepsQueue (rq : Requester) (key node : Nat) (s : State) :
    KeepsQueue s (execNodeInvalidate rq key node s) :=
  ⟨_, rfl, by simp only [implies_true, gate_pending, cmdNodeInvalidate_keeps]⟩

theorem cmdNodeFree_keeps (rq : Requester) (key node : Nat) (s : State) : Keeps s (cmdNodeFree rq key node s) := by
  simp only [Keeps, cmdNodeFree, kstKeyed_keeps, implies_true, ite_keeps, ite_self, nodeRefuse_keeps, nodeDone_keeps, setNode_keeps,
    and_self]

theorem execNodeFree_keepsQueue (rq : Requester) (key node : Nat) (s : State) : KeepsQueue s (execNodeFree rq key node s) :=
  ⟨_, rfl, by simp only [implies_true, gate_pending, cmdNodeFree_keeps]⟩

theorem execSlotWipe_keepsQueue (k : Nat) (s : State) : KeepsQueue s (execSlotWipe k s) :=
  ⟨_, rfl, by simp only [implies_true, onlyIf_pending, applyAll_pending, declare_keeps, setSlot_keeps]⟩

theorem loadReject_keeps (why user idx : Nat) (s : State) : Keeps s (loadReject why user idx s) := by
  simp only [Keeps, loadReject, setF_keeps, incF_keeps, ite_keeps, ite_self, raiseOnce_keeps, and_self]

theorem shelfPut_keeps {i : Nat} {b : List Byte} {s t : State} (h : shelfPut i b s = some t) : Keeps s t := by
  obtain ⟨o, -, rfl⟩ := Option.map_eq_some_iff.1 h
  simp only [Keeps, applyAll_keeps, storeWrite_keeps, implies_true, and_self]

theorem shelfResult_keeps (refused : Bool) (s : State) : Keeps s (shelfResult refused s) := by
  simp only [Keeps, shelfResult, setB_keeps, and_self]

theorem cmdShelfWrite_keeps (rq : Requester) (key idx : Nat) (s : State) : Keeps s (cmdShelfWrite rq key idx s) := by
  refine kstKeyed_keeps _ _ _ _ (fun t => ?_) s
  dsimp only
  split
  · exact shelfResult_keeps _ t
  split
  · next h => simp only [Keeps, shelfResult_keeps, shelfPut_keeps h, and_self]
  · exact shelfResult_keeps _ t

theorem execShelfWrite_keepsQueue (rq : Requester) (key idx : Nat) (s : State) : KeepsQueue s (execShelfWrite rq key idx s) :=
  ⟨_, rfl, by simp only [implies_true, gate_pending, cmdShelfWrite_keeps]⟩

theorem cmdShelfErase_keeps (rq : Requester) (key idx : Nat) (s : State) : Keeps s (cmdShelfErase rq key idx s) := by
  simp only [Keeps, cmdShelfErase, kstKeyed_keeps, implies_true, shelfResult_keeps, storeWrite_keeps, and_self]

theorem execShelfErase_keepsQueue (rq : Requester) (key idx : Nat) (s : State) : KeepsQueue s (execShelfErase rq key idx s) :=
  ⟨_, rfl, by simp only [implies_true, gate_pending, cmdShelfErase_keeps]⟩

theorem pickOf_keeps (l : List Nat) (s : State) : Keeps s (pickOf l s).2 := ⟨rfl, rfl⟩

theorem slotFor_keeps {s t : State} {k : Nat} (h : slotFor s = some (k, t)) : Keeps s t := by
  simp only [slotFor] at h
  split at h
  · simp only [Option.some.injEq] at h
    rw [show t = _ from (congrArg Prod.snd h).symm]
    exact pickOf_keeps _ s
  · split at h
    · cases h
    · cases h; exact ⟨rfl, rfl⟩

theorem touchSlot_keeps (k : Nat) (s : State) : Keeps s (touchSlot k s) := by
  simp only [Keeps, touchSlot, setSlot_keeps, and_self]

theorem placeKey_keeps {b : List Byte} {idx k : Nat} {s t : State} (h : placeKey b idx s = .inr (k, t)) : Keeps s t := by
  unfold placeKey at h
  split at h
  · cases h; exact touchSlot_keeps _ s
  · split at h
    · cases h
    · split at h
      · cases h
      · split at h
        · cases h
        · next hs => cases h; simp only [Keeps, touchSlot_keeps, setSlot_keeps, slotFor_keeps hs, and_self]

theorem hwLoad_keeps (user h need : Nat) (s : State) : Keeps s (hwLoad user h need s).2 := by
  unfold hwLoad
  dsimp only
  split
  · exact loadReject_keeps _ _ _ s
  split
  · exact loadReject_keeps _ _ _ s
  split
  · exact loadReject_keeps _ _ _ s
  · next hp => exact placeKey_keeps hp

theorem hwLoad_keeps_of_eq {user w need : Nat} {s t : State} {o : Option Nat} (h : hwLoad user w need s = (o, t)) : Keeps s t := by
  simpa only [Keeps, h] using hwLoad_keeps user w need s

theorem loadRefuse_keeps (w : World) (why idx : Nat) (s : State) : Keeps s (loadRefuse w why idx s) := by
  simp only [Keeps, loadRefuse, setB_keeps, setF_keeps, loadReject_keeps, and_self]

theorem cmdKeyLoad_keeps (rq : Requester) (w : Word) (s : State) : Keeps s (cmdKeyLoad rq w s) := by
  simp only [Keeps, cmdKeyLoad, ite_keeps, busDone_keeps, setB_keeps, loadRefuse_keeps, violation_keeps]
  (repeat' split) <;> simp only [busDone_keeps, setB_keeps, loadRefuse_keeps, and_self]

theorem execKeyLoad_keepsQueue (rq : Requester) (w : Word) (s : State) : KeepsQueue s (execKeyLoad rq w s) :=
  ⟨_, rfl, by simp only [implies_true, gate_pending, cmdKeyLoad_keeps]⟩

theorem execKeyLoadDone_keepsQueue (s : State) : KeepsQueue s (execKeyLoadDone s) := by
  refine ⟨_, rfl, ?_⟩
  split
  · rfl
  dsimp only
  split
  · simp only [loadRefuse_keeps]
  · next h =>
    split
    · simp only [setB_keeps, setFree_keeps, countFull_keeps, placeKey_keeps h]
    · next h' => simp only [setB_keeps, setF_keeps, grantLease_keeps h', placeKey_keeps h]

theorem wrapRefuse_keeps (s : State) : Keeps s (wrapRefuse s) := by
  simp only [Keeps, wrapRefuse, setB_keeps, and_self]

theorem cmdWrap_keeps (rq : Requester) (w : Word) (s : State) : Keeps s (cmdWrap rq w s) := by
  simp only [Keeps, cmdWrap, kstWrite_keeps, implies_true, ite_keeps, ite_self, ite_snd, busDone_keeps, setB_keeps, drawFree_keeps,
    wrapRefuse_keeps, drbgBytes_keeps, and_self]

theorem execWrap_keepsQueue (rq : Requester) (w : Word) (s : State) : KeepsQueue s (execWrap rq w s) :=
  ⟨_, rfl, by simp only [implies_true, gate_pending, cmdWrap_keeps]⟩

theorem execWrapDone_keepsQueue (s : State) : KeepsQueue s (execWrapDone s) := by
  refine ⟨_, rfl, ?_⟩
  split
  · rfl
  dsimp only
  split
  · exact (wrapRefuse_keeps _).1
  split
  · simp only [setB_keeps, wrBytes_pending]
  split
  · next h => simp only [setB_keeps, shelfPut_keeps h, wrBytes_pending]
  · simp only [wrapRefuse_keeps, wrBytes_pending]

theorem cmdLifecycleArm_keeps (rq : Requester) (key target : Nat) (s : State) : Keeps s (cmdLifecycleArm rq key target s) := by
  simp only [Keeps, cmdLifecycleArm, kstKeyed_keeps, implies_true, setB_keeps, and_self]

theorem execLifecycleArm_keepsQueue (rq : Requester) (key target : Nat) (s : State) :
    KeepsQueue s (execLifecycleArm rq key target s) :=
  ⟨_, rfl, by simp only [implies_true, gate_pending, cmdLifecycleArm_keeps]⟩

theorem cmdLifecycleCommit_keeps (rq : Requester) (key target : Nat) (s : State) : Keeps s (cmdLifecycleCommit rq key target s) := by
  refine kstKeyed_keeps _ _ _ _ (fun t => ?_) s
  split
  · dsimp only
    split
    · simp only [Keeps, setB_keeps, setF_keeps, and_self]
    split
    · simp only [Keeps, setB_keeps, setF_keeps, and_self]
    · split <;> simp only [Keeps, setB_keeps, setF_keeps, and_self]
  dsimp only
  split
  · simp only [Keeps, setB_keeps, setF_keeps, and_self]
  · split <;> simp only [Keeps, setB_keeps, setF_keeps, and_self]

theorem execLifecycleCommit_keepsQueue (rq : Requester) (key target : Nat) (s : State) :
    KeepsQueue s (execLifecycleCommit rq key target s) :=
  ⟨_, rfl, by simp only [implies_true, gate_pending, cmdLifecycleCommit_keeps]⟩

theorem ikResult_keeps (why : Option Nat) (s : State) : Keeps s (ikResult why s) := by
  unfold ikResult
  split <;> simp only [Keeps, setB_keeps, setF_keeps, and_self]

theorem cmdImageKeyProgram_keeps (rq : Requester) (key slot : Nat) (s : State) : Keeps s (cmdImageKeyProgram rq key slot s) := by
  simp only [Keeps, cmdImageKeyProgram, ite_keeps, ite_self, violate_keeps, busError_keeps, ikResult_keeps, busDone_keeps, and_self]

theorem execImageKeyProgram_keepsQueue (rq : Requester) (key slot : Nat) (s : State) :
    KeepsQueue s (execImageKeyProgram rq key slot s) :=
  ⟨_, rfl, by simp only [implies_true, gate_pending, cmdImageKeyProgram_keeps]⟩

theorem cmdImageKeyRevoke_keeps (rq : Requester) (key slot : Nat) (s : State) : Keeps s (cmdImageKeyRevoke rq key slot s) := by
  simp only [Keeps, cmdImageKeyRevoke, ite_keeps, ite_self, violate_keeps, busError_keeps, ikResult_keeps, busDone_keeps, and_self]

theorem execImageKeyRevoke_keepsQueue (rq : Requester) (key slot : Nat) (s : State) :
    KeepsQueue s (execImageKeyRevoke rq key slot s) :=
  ⟨_, rfl, by simp only [implies_true, gate_pending, cmdImageKeyRevoke_keeps]⟩

theorem cmdFloorSet_keeps (rq : Requester) (w : Word) (s : State) : Keeps s (cmdFloorSet rq w s) := by
  simp only [Keeps, cmdFloorSet, kstWrite_keeps, implies_true, ite_keeps, ite_self, busError_keeps, busDone_keeps, storeWrite_keeps,
    and_self]

theorem execFloorSet_keepsQueue (rq : Requester) (w : Word) (s : State) : KeepsQueue s (execFloorSet rq w s) :=
  ⟨_, rfl, by simp only [implies_true, gate_pending, cmdFloorSet_keeps]⟩

theorem cmdWldLock_keeps (rq : Requester) (w : Word) (s : State) : Keeps s (cmdWldLock rq w s) := by
  simp only [Keeps, cmdWldLock, ite_keeps, ite_self, busDone_keeps, orF_keeps, violate_keeps, and_self]

theorem execWldLock_keepsQueue (rq : Requester) (w : Word) (s : State) : KeepsQueue s (execWldLock rq w s) :=
  ⟨_, rfl, by simp only [implies_true, gate_pending, cmdWldLock_keeps]⟩

theorem execSecureCall_keepsQueue (core : Nat) (s : State) : KeepsQueue s (execSecureCall core s) :=
  ⟨_, rfl, by simp only [ite_keeps, ite_self, emit_keeps]⟩

theorem execBoundaryScanInstruction_keepsQueue (i : ScanInstr) (s : State) : KeepsQueue s (execBoundaryScanInstruction i s) :=
  ⟨_, rfl, by split <;> simp only [emit_keeps]⟩

/-! ## Functions of `Sys2Proof/Machine/Crypto.lean` -/

theorem laneFault_keeps (l : Nat) (s : State) : Keeps s (laneFault l s) := by
  simp only [Keeps, laneFault, raise_keeps, setB_keeps, setF_keeps, clrF_keeps, ite_keeps, ite_self, and_self]

theorem hwRuns_keeps (n bad : Nat) (s : State) : Keeps s (hwRuns n bad s).2 := by
  induction n generalizing bad s with
  | zero => exact ⟨rfl, rfl⟩
  | succ n ih => simp only [Keeps, hwRuns, ite_snd, ite_keeps, ih, laneFault_keeps, pickOf_keeps, ite_self, and_self]

theorem hwCmac_keeps (key msg : List Byte) (bad : Nat) (s : State) : Keeps s (hwCmac key msg bad s).2 := by
  simp only [Keeps, hwCmac, hwRuns_keeps, incF_keeps, and_self]

theorem hwCmac_keeps_of_eq {key msg : List Byte} {bad : Nat} {s t : State} {o : Option (List Byte)} (h : hwCmac key msg bad s = (o, t)) :
    Keeps s t := by
  simpa only [Keeps, h] using hwCmac_keeps key msg bad s

theorem ckvTaken_keeps (r : Nat) (s : State) : Keeps s (ckvTaken r s) := by
  simp only [Keeps, ckvTaken, ite_keeps, ite_self, and_self]

theorem ckvRingFault_keeps (r a : Nat) (write : Bool) (s : State) : Keeps s (ckvRingFault r a write s) := by
  simp only [Keeps, ckvRingFault, unitViolation_keeps, setB_keeps, and_self]

theorem ckvInterrupt_keeps (r : Nat) (s : State) : Keeps s (ckvInterrupt r s) := by
  simp only [Keeps, ckvInterrupt, ite_keeps, ite_self, emit_keeps, and_self]

theorem ckvRetire_pending (n r : Nat) (s : State) : (ckvRetire n r s).pending = s.pending := by
  induction n generalizing s with
  | zero => rfl
  | succ n ih =>
    unfold ckvRetire
    dsimp only
    split
    · rfl
    · simp only [ite_keeps, ckvRingFault_keeps, ih, ckvInterrupt_keeps, setF_keeps, wrBytes_pending, ite_self]

theorem ckvEnd_pending (j : CkvJob) (res : Nat) (s : State) : (ckvEnd j res s).pending = s.pending := by
  simp only [ckvEnd, incF_keeps, ite_keeps, ite_self, ckvRetire_pending]

theorem ckvStart_keeps (l : Nat) (j : CkvJob) (s : State) : Keeps s (ckvStart l j s) := by
  simp only [Keeps, ckvStart, ite_keeps, ite_self, touchSlot_keeps, setSlot_keeps, orF_keeps, and_self]

theorem ckvFetch_keeps (r : Nat) (s : State) : Keeps s (ckvFetch r s).2 := by
  simp only [Keeps, ckvFetch, ite_keeps, ite_self, ite_snd, ckvRingFault_keeps, ckvTaken_keeps, and_self]

theorem ckvFetch_keeps_of_eq {r : Nat} {s t : State} {o : Option CkvJob} (h : ckvFetch r s = (o, t)) : Keeps s t := by
  simpa only [Keeps, h] using ckvFetch_keeps r s

theorem cmdCkvRingTail_keeps (rq : Requester) (ns : Nat) (w : Word) (s : State) : Keeps s (cmdCkvRingTail rq ns w s) := by
  simp only [Keeps, cmdCkvRingTail, ite_keeps, ite_self, violate_keeps, busDone_keeps, setF_keeps, and_self]

theorem execCkvRingTail_keepsQueue (rq : Requester) (ns : Nat) (w : Word) (s : State) : KeepsQueue s (execCkvRingTail rq ns w s) :=
  ⟨_, rfl, by simp only [implies_true, gate_pending, cmdCkvRingTail_keeps]⟩

theorem execCkvDispatch_keepsQueue (l : Nat) (s : State) : KeepsQueue s (execCkvDispatch l s) := by
  refine ⟨_, rfl, ?_⟩
  split
  · split
    · exact ckvEnd_pending _ _ _
    split
    · rfl
    split
    · next h => exact (ckvFetch_keeps_of_eq h).1
    · next h => simp only [ckvEnd_pending, ckvFetch_keeps_of_eq h]
  split
  · rfl
  split
  · exact (ckvStart_keeps _ _ _).1
  split
  · rfl
  split
  · rfl
  split
  · next h => exact (ckvFetch_keeps_of_eq h).1
  · next h => split <;> simp only [ckvEnd_pending, ckvStart_keeps, ckvFetch_keeps_of_eq h]

theorem slotRelease_keeps (k : Nat) (s : State) : Keeps s (slotRelease k s) := by
  simp only [Keeps, slotRelease, setSlot_keeps, and_self]

theorem ckvRelease_pending (j : CkvJob) (s : State) : (ckvRelease j s).pending = s.pending := by
  simp only [ckvRelease, slotRelease_keeps, ite_keeps, ite_self, ckvEnd_pending, wrBytes_pending]

theorem execCkvJobDone_keepsQueue (l : Nat) (agree : Bool) (s : State) : KeepsQueue s (execCkvJobDone l agree s) :=
  ⟨_, rfl, by split <;> simp only [clrF_keeps, ite_keeps, ite_self, ckvRelease_pending, laneFault_keeps, ckvEnd_pending, slotRelease_keeps]⟩

theorem pkeStore_keeps (o : Nat) (b : List Byte) (s : State) : Keeps s (pkeStore o b s) := by
  induction b generalizing o s with
  | nil => exact ⟨rfl, rfl⟩
  | cons x r ih => simp only [Keeps, pkeStore, ih, and_self]

theorem pkeWrite_keeps (k : Nat) (b : List Byte) (s : State) : Keeps s (pkeWrite k b s) := by
  simp only [Keeps, pkeWrite, pkeStore_keeps, and_self]

theorem pkeWipe_keeps (k : Nat) (s : State) : Keeps s (pkeWipe k s) := by
  simp only [Keeps, pkeWipe, pkeWrite_keeps, and_self]

theorem pkeWipeSecret_keeps (s : State) : Keeps s (pkeWipeSecret s) := by
  simp only [Keeps, pkeWipeSecret, applyAll_keeps, implies_true, pkeWipe_keeps, and_self]

theorem pkeWipeAll_keeps (s : State) : Keeps s (pkeWipeAll s) := ⟨rfl, rfl⟩

theorem cmdPkeSlenWrite_keeps (rq : Requester) (k : Nat) (w : Word) (s : State) : Keeps s (cmdPkeSlenWrite rq k w s) := by
  simp only [Keeps, cmdPkeSlenWrite, ite_keeps, ite_self, busError_keeps, busDone_keeps, setF_keeps, pkeWipeAll_keeps, and_self]

theorem execPkeSlenWrite_keepsQueue (rq : Requester) (k : Nat) (w : Word) (s : State) : KeepsQueue s (execPkeSlenWrite rq k w s) :=
  ⟨_, rfl, by simp only [implies_true, gate_pending, cmdPkeSlenWrite_keeps]⟩

theorem cmdPkeOpdataAccess_keeps (rq : Requester) (v : Option Word) (s : State) : Keeps s (cmdPkeOpdataAccess rq v s) := by
  unfold cmdPkeOpdataAccess
  split <;> simp only [Keeps, ite_keeps, ite_self, busError_keeps, setF_keeps, busData_keeps, busDone_keeps, pkeStore_keeps, and_self]

theorem execPkeOpdataAccess_keepsQueue (rq : Requester) (v : Option Word) (s : State) : KeepsQueue s (execPkeOpdataAccess rq v s) :=
  ⟨_, rfl, by simp only [implies_true, gate_pending, cmdPkeOpdataAccess_keeps]⟩

theorem pkeBlob_keeps (rq : Requester) (byaddr : Bool) (s : State) : Keeps s (pkeBlob rq byaddr s).2.2 := by
  simp only [Keeps, pkeBlob, ite_keeps, ite_self, ite_snd, violation_keeps, and_self]

theorem pkeKey_keeps (rq : Requester) (op c : Nat) (byaddr : Bool) (s : State) : Keeps s (pkeKey rq op c byaddr s).2 := by
  unfold pkeKey
  split
  · dsimp only
    split
    · simp only [Keeps, pkeBlob_keeps, loadReject_keeps, and_self]
    split
    · simp only [Keeps, pkeBlob_keeps, loadReject_keeps, and_self]
    · split <;> simp only [Keeps, pkeBlob_keeps, loadReject_keeps, and_self]
  dsimp only
  split
  · simp only [Keeps, pkeBlob_keeps, loadReject_keeps, and_self]
  split
  · simp only [Keeps, pkeBlob_keeps, loadReject_keeps, and_self]
  · split <;> simp only [Keeps, pkeBlob_keeps, loadReject_keeps, and_self]

theorem pkeTell_keeps (rq : Requester) (s : State) : Keeps s (pkeTell rq s) := by
  simp only [Keeps, pkeTell, ite_keeps, ite_self, raise_keeps, and_self]

theorem pkeFinish_keeps (rq : Requester) (res : Nat) (s : State) : Keeps s (pkeFinish rq res s) := by
  simp only [Keeps, pkeFinish, pkeTell_keeps, incF_keeps, setB_keeps, setF_keeps, and_self]

theorem pkeAfter_keeps (keep : Bool) (p : PkeShape) (s : State) : Keeps s (pkeAfter keep p s) := by
  simp only [Keeps, pkeAfter, pkeWipeSecret_keeps, ite_keeps, ite_self, applyAll_keeps, implies_true, pkeWipe_keeps, and_self]

theorem pkeRefuse_keeps (rq : Requester) (keep : Bool) (p : PkeShape) (res : Nat) (s : State) : Keeps s (pkeRefuse rq keep p res s) := by
  simp only [Keeps, pkeRefuse, setFree_keeps, pkeFinish_keeps, pkeAfter_keeps, and_self]

theorem pkeFillKey_keeps (key : List Byte) (s : State) : Keeps s (pkeFillKey key s) := by
  simp only [Keeps, pkeFillKey, ite_keeps, ite_self, pkeWrite_keeps, and_self]

theorem cmdPkeJobGo_keeps (rq : Requester) (w : Word) (s : State) : Keeps s (cmdPkeJobGo rq w s) := by
  unfold cmdPkeJobGo
  extract_lets op c keep s0 p s1 pke s2 k nonce
  have h0 : Keeps s s0 := by simp only [Keeps, s0, busDone_keeps, setF_keeps, setB_keeps, and_self]
  have h2 : Keeps s s2 := by simp only [Keeps, s2, s1, applyAll_keeps, pkeWipe_keeps, h0, implies_true, and_self]
  have hk : Keeps s k.2 := by simp only [Keeps, k, ite_snd, ite_keeps, pkeKey_keeps, h2, ite_self, and_self]
  have hn : Keeps s nonce.2 := by
    simp only [Keeps, nonce, ite_snd, ite_keeps, drbgBytes_keeps, hk, ite_self, and_self]
  clear_value s0 s2 k nonce
  split
  · exact busError_keeps s
  split
  · exact h0
  split
  · simp only [Keeps, pkeRefuse_keeps, h2, and_self]
  split
  · simp only [Keeps, pkeRefuse_keeps, h2, and_self]
  split
  · simp only [Keeps, pkeRefuse_keeps, setF_keeps, hk, and_self]
  split
  · simp only [Keeps, pkeRefuse_keeps, hk, and_self]
  · dsimp only
    split <;> simp only [Keeps, pkeRefuse_keeps, setB_keeps, pkeFillKey_keeps, hn, and_self]

theorem execPkeJobGo_keepsQueue (rq : Requester) (w : Word) (s : State) : KeepsQueue s (execPkeJobGo rq w s) :=
  ⟨_, rfl, by simp only [implies_true, gate_pending, cmdPkeJobGo_keeps]⟩

theorem pkeOutputs_keeps (l : List (Nat × Nat)) (b : List Byte) (s : State) : Keeps s (pkeOutputs l b s) := by
  induction l generalizing b s with
  | nil => exact ⟨rfl, rfl⟩
  | cons x r ih => simp only [Keeps, pkeOutputs, ih, pkeWrite_keeps, and_self]

theorem execPkeJobEnd_keepsQueue (inv : Bool) (cyc : Nat) (s : State) : KeepsQueue s (execPkeJobEnd inv cyc s) :=
  ⟨_, rfl, by split <;> simp only [setF_keeps, ite_keeps, ite_self, pkeAfter_keeps, implies_true, applyAll_pending, pkeWipe_keeps,
    raise_keeps, incF_keeps, pkeFinish_keeps, pkeOutputs_keeps]⟩

theorem pkeLeaseEnd_keeps (s : State) : Keeps s (pkeLeaseEnd s) := by
  unfold pkeLeaseEnd
  split <;> simp only [Keeps, pkeFinish_keeps, applyAll_keeps, implies_true, setF_keeps, pkeWipeAll_keeps, and_self]

theorem cmdPkeLockTake_keeps (rq : Requester) (s : State) : Keeps s (cmdPkeLockTake rq s) := by
  unfold cmdPkeLockTake
  split
  · exact busError_keeps s
  split
  · simp only [Keeps, setB_keeps, busDone_keeps, and_self]
  split
  · next h => simp only [Keeps, setF_keeps, setB_keeps, busDone_keeps, grantLease_keeps h, and_self]
  · simp only [Keeps, setB_keeps, countFull_keeps, busDone_keeps, and_self]

theorem execPkeLockTake_keepsQueue (rq : Requester) (s : State) : KeepsQueue s (execPkeLockTake rq s) :=
  ⟨_, rfl, by simp only [implies_true, gate_pending, cmdPkeLockTake_keeps]⟩

theorem setDig_keeps (n : Nat) (c : DigCtx) (s : State) : Keeps s (setDig n c s) := ⟨rfl, rfl⟩

theorem cmdDigestGo_keeps (rq : Requester) (ns : Nat) (w : Word) (s : State) : Keeps s (cmdDigestGo rq ns w s) := by
  simp only [Keeps, cmdDigestGo, ite_keeps, ite_self, busError_keeps, busDone_keeps, setF_keeps, setB_keeps, unitViolation_keeps,
    setDig_keeps, and_self]

theorem execDigestGo_keepsQueue (rq : Requester) (ns : Nat) (w : Word) (s : State) : KeepsQueue s (execDigestGo rq ns w s) :=
  ⟨_, rfl, by simp only [implies_true, gate_pending, cmdDigestGo_keeps]⟩

theorem execDigestDone_keepsQueue (ns : Nat) (s : State) : KeepsQueue s (execDigestDone ns s) :=
  ⟨_, rfl, by dsimp only; split <;> simp only [setB_keeps, setDig_keeps, ite_keeps, ite_self, implies_true, applyAll_pending, setF_keeps]⟩

theorem cmdDrgDataRead_keeps (rq : Requester) (s : State) : Keeps s (cmdDrgDataRead rq s) := by
  unfold cmdDrgDataRead
  split
  · simp only [Keeps, busError_keeps, and_self]
  · split <;> simp only [Keeps, busData_keeps, drbgCall_keeps, and_self]

theorem execDrgDataRead_keepsQueue (rq : Requester) (s : State) : KeepsQueue s (execDrgDataRead rq s) :=
  ⟨_, rfl, by simp only [implies_true, gate_pending, cmdDrgDataRead_keeps]⟩

theorem execDrbgReseed_keepsQueue (rq : Option Requester) (s : State) : KeepsQueue s (execDrbgReseed rq s) :=
  ⟨_, rfl, by split <;> simp only [ite_keeps, ite_self, drbgReseed_keeps, implies_true, gate_pending, busDone_keeps]⟩

theorem execEntropyHealthFail_keepsQueue (apt : Bool) (s : State) : KeepsQueue s (execEntropyHealthFail apt s) :=
  ⟨_, rfl, by simp only [setB_keeps, incF_keeps, ite_keeps, ite_self, raise_keeps]⟩

/-! ## Functions of `Sys2Proof/Machine/Can.lean` -/

theorem seeFrame_keeps (n id : Nat) (ide : Bool) (s : State) : Keeps s (seeFrame n id ide s) := by
  simp only [Keeps, seeFrame, setF_keeps, setB_keeps, and_self]

theorem setVal_keeps (e v : Nat) (s : State) : Keeps s (setVal e v s) := by
  simp only [Keeps, setVal, ite_keeps, ite_self, setF_keeps, and_self]

theorem validate_keeps (u : Nat) (s : State) : Keeps s (validate u s) := by
  unfold validate
  split <;> simp only [Keeps, ite_keeps, ite_self, setVal_keeps, and_self]

theorem setCan_keeps (n : Nat) (c : CanTile) (s : State) : Keeps s (setCan n c s) := ⟨rfl, rfl⟩

theorem canEvt_keeps (n : Nat) (f : Fld) (s : State) : Keeps s (canEvt n f s) := by
  simp only [Keeps, canEvt, ite_keeps, ite_self, setB_keeps, raise_keeps, and_self]

theorem canGoto_keeps (n st : Nat) (s : State) : Keeps s (canGoto n st s) := by
  simp only [Keeps, canGoto, setF_keeps, ite_keeps, ite_self, canEvt_keeps, and_self]

theorem setRx_keeps (n i : Nat) (b : RxBuf) (s : State) : Keeps s (setRx n i b s) := by
  simp only [Keeps, setRx, setCan_keeps, and_self]

theorem rxStore_keeps (n : Nat) (f : CanFrame) (filt sof tc : Nat) (hand host : Bool) (s : State) :
    Keeps s (rxStore n f filt sof tc hand host s) := by
  unfold rxStore
  split <;> simp only [Keeps, canEvt_keeps, incF_keeps, ite_keeps, ite_self, setCan_keeps, and_self]

theorem rxRelease_keeps (n i : Nat) (s : State) : Keeps s (rxRelease n i s) := by
  simp only [Keeps, rxRelease, setRx_keeps, and_self]

theorem prioFull_keeps (n : Nat) (b : Bool) (s : State) : Keeps s (prioFull n b s) := by
  simp only [Keeps, prioFull, setTileBit_keeps, setB_keeps, and_self]

theorem prioWrite_keeps (n : Nat) (b : RxBuf) (s : State) : Keeps s (prioWrite n b s) := by
  simp only [Keeps, prioWrite, ite_keeps, ite_self, incF_keeps, setB_keeps, setCan_keeps, raise_keeps, prioFull_keeps, and_self]

theorem prioRelease_keeps (n : Nat) (s : State) : Keeps s (prioRelease n s) := by
  simp only [Keeps, prioRelease]
  split <;> simp only [setB_keeps, prioFull_keeps, setCan_keeps, raise_keeps, and_self]

theorem setTx_keeps (n i : Nat) (b : TxBuf) (s : State) : Keeps s (setTx n i b s) := by
  simp only [Keeps, setTx, setCan_keeps, and_self]

theorem txEmpty_keeps (n i : Nat) (s : State) : Keeps s (txEmpty n i s) := by
  unfold txEmpty
  split <;> simp only [Keeps, dropReplica_keeps, setTx_keeps, clrF_keeps, and_self]

theorem txCancelled_keeps (n i : Nat) (s : State) : Keeps s (txCancelled n i s) := by
  simp only [Keeps, txCancelled, canEvt_keeps, orF_keeps, clrF_keeps, and_self]

theorem attemptOver_keeps (n i : Nat) (s : State) : Keeps s (attemptOver n i s) := by
  simp only [Keeps, attemptOver, clrF_keeps, setB_keeps, setCan_keeps, and_self]

theorem attemptFailed_keeps (n i : Nat) (s : State) : Keeps s (attemptFailed n i s) := by
  simp only [Keeps, attemptFailed, attemptOver_keeps, ite_keeps, ite_self, txCancelled_keeps, incF_keeps, txEmpty_keeps, and_self]

theorem canFlush_keeps (n : Nat) (s : State) : Keeps s (canFlush n s) := by
  simp only [Keeps, canFlush, applyAll_keeps, implies_true, incF_keeps, swBump_keeps, txEmpty_keeps, discard_keeps, setQueue_keeps,
    and_self]

theorem canStopNow_keeps (n : Nat) (s : State) : Keeps s (canStopNow n s) := by
  simp only [Keeps, canStopNow, canFlush_keeps, canGoto_keeps, setCan_keeps, and_self]

theorem canBusOff_keeps (n : Nat) (s : State) : Keeps s (canBusOff n s) := by
  unfold canBusOff
  split <;> simp only [Keeps, attemptFailed_keeps, canGoto_keeps, raise_keeps, canEvt_keeps, incF_keeps, canFlush_keeps, ite_keeps,
    ite_self, orF_keeps, setF_keeps, canStopNow_keeps, and_self]

theorem canCounters_keeps (n tec rec : Nat) (s : State) : Keeps s (canCounters n tec rec s) := by
  simp only [Keeps, canCounters, setF_keeps, ite_keeps, ite_self, canEvt_keeps, setB_keeps, canBusOff_keeps, canGoto_keeps, and_self]

theorem recAfterRx_keeps (rec : Nat) (s : State) : Keeps s (recAfterRx rec s).2 := by
  simp only [Keeps, recAfterRx, ite_keeps, ite_self, ite_snd, drawFree_keeps, and_self]

theorem canAck_keeps (n : Nat) (s : State) : Keeps s (canAck n s) := by
  simp only [Keeps, canAck, ite_keeps, ite_self, emit_keeps, and_self]

theorem canSeen_keeps (n : Nat) (f : CanFrame) (s : State) : Keeps s (canSeen n f s) := by
  simp only [Keeps, canSeen, recAfterRx_keeps, seeFrame_keeps, canCounters_keeps, canAck_keeps, and_self]

theorem autoValidate_keeps (n : Nat) (k : Option Nat) (s : State) : Keeps s (autoValidate n k s) := by
  simp only [Keeps, autoValidate, ite_keeps, ite_self, validate_keeps, and_self]

theorem execCanFrameValid_keepsQueue (n : Nat) (f : CanFrame) (ago : Nat) (s : State) : KeepsQueue s (execCanFrameValid n f ago s) :=
  ⟨_, rfl, by simp only [implies_true, onlyIf_pending, canSeen_keeps, ite_keeps, ite_self, incF_keeps, autoValidate_keeps, drawFree_keeps,
    prioWrite_keeps, rxStore_keeps]⟩

theorem execCanXlFrameReceive_keepsQueue (n : Nat) (f : CanFrame) (ago : Nat) (ok : Bool) (s : State) :
    KeepsQueue s (execCanXlFrameReceive n f ago ok s) :=
  ⟨_, rfl, by simp only [implies_true, onlyIf_pending, canSeen_keeps, ite_keeps, ite_self, incF_keeps, autoValidate_keeps, canEvt_keeps,
    setCan_keeps]⟩

theorem handNext_keeps {n : Nat} {w : Waybill} {b : List Byte} {s t : State} (h : handNext n s = some (w, b, t)) : Keeps s t := by
  simp only [handNext] at h
  split at h
  · cases h
  · cases h; exact setCan_keeps _ _ s
  · cases h; exact setCan_keeps _ _ s

theorem handAll_pending (n : Nat) (s : State) : (handAll n s).pending = s.pending := by
  refine applyAll_pending (fun _ t => ?_) s
  split
  · rfl
  · next h => simp only [ite_keeps, offerFrame_pending, setHolds_keeps, handNext_keeps h, ite_self]

theorem execCanHandoff_keepsQueue (n : Nat) (s : State) : KeepsQueue s (execCanHandoff n s) := by
  refine ⟨_, rfl, onlyIf_pending (fun s => ?_) s⟩
  split
  · rfl
  · next h => simp only [offerFrame_pending, handNext_keeps h]

theorem errorFlag_keeps (n : Nat) (s : State) : Keeps s (errorFlag n s) := by
  simp only [Keeps, errorFlag, ite_keeps, ite_self, emit_keeps, and_self]

theorem protocolError_keeps (n code : Nat) (dph : Bool) (s : State) : Keeps s (protocolError n code dph s) := by
  simp only [Keeps, protocolError, canEvt_keeps, incF_keeps, setF_keeps, setB_keeps, and_self]

theorem execCanFrameError_keepsQueue (n : Nat) (e : CanErr) (code : Nat) (dph : Bool) (s : State) :
    KeepsQueue s (execCanFrameError n e code dph s) := by
  refine ⟨_, rfl, onlyIf_pending (fun s => ?_) s⟩
  dsimp only
  split
  · exact (canGoto_keeps _ _ _).1
  split
  · split <;> simp only [canGoto_keeps, ite_keeps, attemptFailed_keeps, protocolError_keeps, ite_self]
  · simp only [canCounters_keeps, ite_keeps, errorFlag_keeps, protocolError_keeps, ite_self]

theorem execCanBodelayExpiry_keepsQueue (n : Nat) (s : State) : KeepsQueue s (execCanBodelayExpiry n s) :=
  ⟨_, rfl, by simp only [implies_true, onlyIf_pending, canGoto_keeps]⟩

theorem execCanRecoveryDone_keepsQueue (n : Nat) (s : State) : KeepsQueue s (execCanRecoveryDone n s) :=
  ⟨_, rfl, by simp only [implies_true, onlyIf_pending, canEvt_keeps, canGoto_keeps, canCounters_keeps]⟩

theorem canWrite_keeps (n : Nat) (g : State → State) (hg : ∀ s, Keeps s (g s)) (s : State) : Keeps s (canWrite n g s) := by
  simp only [Keeps, canWrite, ite_keeps, hg, busError_keeps, busDone_keeps, ite_self, and_self]

theorem cmdCanCtlStop_keeps (rq : Requester) (n : Nat) (s : State) : Keeps s (cmdCanCtlStop rq n s) := by
  simp only [Keeps, cmdCanCtlStop, canWrite_keeps, implies_true, ite_keeps, ite_self, setCan_keeps, canStopNow_keeps, and_self]

theorem execCanCtlStop_keepsQueue (rq : Requester) (n : Nat) (s : State) : KeepsQueue s (execCanCtlStop rq n s) :=
  ⟨_, rfl, by simp only [implies_true, gate_pending, cmdCanCtlStop_keeps]⟩

theorem cmdCanCtlStart_keeps (rq : Requester) (n : Nat) (s : State) : Keeps s (cmdCanCtlStart rq n s) := by
  simp only [Keeps, cmdCanCtlStart, canWrite_keeps, implies_true, ite_keeps, ite_self, canGoto_keeps, canCounters_keeps, and_self]

theorem execCanCtlStart_keepsQueue (rq : Requester) (n : Nat) (s : State) : KeepsQueue s (execCanCtlStart rq n s) :=
  ⟨_, rfl, by simp only [implies_true, gate_pending, cmdCanCtlStart_keeps]⟩

theorem cmdCanCtlRecover_keeps (rq : Requester) (n : Nat) (s : State) : Keeps s (cmdCanCtlRecover rq n s) := by
  simp only [Keeps, cmdCanCtlRecover, canWrite_keeps, implies_true, ite_keeps, ite_self, canGoto_keeps, and_self]

theorem execCanCtlRecover_keepsQueue (rq : Requester) (n : Nat) (s : State) : KeepsQueue s (execCanCtlRecover rq n s) :=
  ⟨_, rfl, by simp only [implies_true, gate_pending, cmdCanCtlRecover_keeps]⟩

theorem execCanArbitrationChoice_keepsQueue (n : Nat) (s : State) : KeepsQueue s (execCanArbitrationChoice n s) := by
  refine ⟨_, rfl, onlyIf_pending (fun s => ?_) s⟩
  split
  · rfl
  · simp only [setB_keeps, setCan_keeps]

theorem txEmit_keeps (n i : Nat) (s : State) : Keeps s (txEmit n i s) := by
  simp only [Keeps, txEmit, emit_keeps, and_self]

theorem execCanTxEnd_keepsQueue (n : Nat) (ok : Bool) (meas : Option Nat) (s : State) : KeepsQueue s (execCanTxEnd n ok meas s) := by
  refine ⟨_, rfl, onlyIf_pending (fun s => ?_) s⟩
  split
  · rfl
  extract_lets sw soft w1 tdc s0 w0 seen t t1 s2
  have h0 : s0.pending = s.pending := by
    unfold s0
    split <;> simp only [ite_keeps, setF_keeps, ite_self]
  have h2 : s2.pending = s0.pending := by
    simp only [s2, t1, t, seen, ite_keeps, orF_keeps, clrF_keeps, canCounters_keeps, canEvt_keeps, incF_keeps, txEmit_keeps, seeFrame_keeps,
      attemptOver_keeps, swBump_keeps, txEmpty_keeps, attemptFailed_keeps, ite_self]
  simp only [ite_keeps, canStopNow_keeps, h2, h0, ite_self]

theorem execCanSwitchBufferLoad_keepsQueue (n : Nat) (s : State) : KeepsQueue s (execCanSwitchBufferLoad n s) := by
  refine ⟨_, rfl, onlyIf_pending (fun s => ?_) s⟩
  dsimp only
  split
  · split
    · rfl
    · simp only [ite_keeps, canEvt_keeps, incF_keeps, orF_keeps, setCan_keeps, dropReplica_keeps, setQueue_keeps, ite_self]
  · rfl

theorem cmdCanTxreq_keeps (rq : Requester) (n : Nat) (w : Word) (s : State) : Keeps s (cmdCanTxreq rq n w s) := by
  simp only [Keeps, cmdCanTxreq, canWrite_keeps, implies_true, applyAll_keeps, ite_keeps, ite_self, canEvt_keeps, incF_keeps, orF_keeps,
    setCan_keeps, and_self]

theorem execCanTxreq_keepsQueue (rq : Requester) (n : Nat) (w : Word) (s : State) : KeepsQueue s (execCanTxreq rq n w s) :=
  ⟨_, rfl, by simp only [implies_true, gate_pending, cmdCanTxreq_keeps]⟩

theorem cmdCanTxcan_keeps (rq : Requester) (n : Nat) (w : Word) (s : State) : Keeps s (cmdCanTxcan rq n w s) := by
  simp only [Keeps, cmdCanTxcan, canWrite_keeps, implies_true, applyAll_keeps, ite_keeps, ite_self, orF_keeps, txCancelled_keeps, and_self]

theorem execCanTxcan_keepsQueue (rq : Requester) (n : Nat) (w : Word) (s : State) : KeepsQueue s (execCanTxcan rq n w s) :=
  ⟨_, rfl, by simp only [implies_true, gate_pending, cmdCanTxcan_keeps]⟩

theorem cmdCanRxBufferRead_keeps (rq : Requester) (n o : Nat) (s : State) : Keeps s (cmdCanRxBufferRead rq n o s) := by
  simp only [Keeps, cmdCanRxBufferRead, ite_keeps, ite_self, busError_keeps, busData_keeps, setRx_keeps, prioRelease_keeps, setB_keeps,
    setCan_keeps, and_self]

theorem execCanRxBufferRead_keepsQueue (rq : Requester) (n o : Nat) (s : State) : KeepsQueue s (execCanRxBufferRead rq n o s) :=
  ⟨_, rfl, by simp only [implies_true, gate_pending, cmdCanRxBufferRead_keeps]⟩

theorem canRamWrite_keeps (n o v : Nat) (s : State) : Keeps s (canRamWrite n o v s) := by
  simp only [Keeps, canRamWrite, ite_keeps, ite_self, busError_keeps, busDone_keeps, setTx_keeps, and_self]

theorem cmdCanRxrel_keeps (rq : Requester) (n buf : Nat) (s : State) : Keeps s (cmdCanRxrel rq n buf s) := by
  simp only [Keeps, cmdCanRxrel, canWrite_keeps, implies_true, rxRelease_keeps, and_self]

theorem execCanRxrel_keepsQueue (rq : Requester) (n buf : Nat) (s : State) : KeepsQueue s (execCanRxrel rq n buf s) :=
  ⟨_, rfl, by simp only [implies_true, gate_pending, cmdCanRxrel_keeps]⟩

theorem cmdCanPriorel_keeps (rq : Requester) (n : Nat) (w : Word) (s : State) : Keeps s (cmdCanPriorel rq n w s) := by
  simp only [Keeps, cmdCanPriorel, canWrite_keeps, implies_true, ite_keeps, ite_self, prioRelease_keeps, and_self]

theorem execCanPriorel_keepsQueue (rq : Requester) (n : Nat) (w : Word) (s : State) : KeepsQueue s (execCanPriorel rq n w s) :=
  ⟨_, rfl, by simp only [implies_true, gate_pending, cmdCanPriorel_keeps]⟩

theorem canWorldReset_keeps (w : World) (s : State) : Keeps s (canWorldReset w s) := by
  simp only [Keeps, canWorldReset, applyAll_keeps, implies_true, ite_keeps, ite_self, setB_keeps, and_self]

theorem freshWrite_keeps (n j : Nat) (hi : Bool) (v : Nat) (s : State) : Keeps s (freshWrite n j hi v s) := by
  simp only [Keeps, freshWrite, ite_keeps, ite_self, setCan_keeps, setF_keeps, and_self]

theorem authCheck_keeps (n j : Nat) (f : List Byte) (bad : Nat) (s : State) : Keeps s (authCheck n j f bad s).2 := by
  unfold authCheck
  extract_lets t m d p k
  clear_value k
  split
  · exact ⟨rfl, rfl⟩
  split
  · exact ⟨rfl, rfl⟩
  split
  · exact ⟨rfl, rfl⟩
  split
  · next h => exact hwLoad_keeps_of_eq h
  · next h =>
    dsimp only
    split
    · next hc => simp only [Keeps, hwCmac_keeps_of_eq hc, hwLoad_keeps_of_eq h, and_self]
    · next hc => simp only [Keeps, ite_snd, ite_keeps, setCan_keeps, hwCmac_keeps_of_eq hc, hwLoad_keeps_of_eq h, ite_self, and_self]

theorem authDrain_pending (l : List AuthWait) (s : State) : (authDrain l s).pending = s.pending := by
  induction l generalizing s with
  | nil => rfl
  | cons a r ih => simp only [authDrain, ite_keeps, ih, underGen_pending, runStages_pending, implies_true, ite_self]

theorem authCheck_keeps_of_eq {n j bad : Nat} {f : List Byte} {s t : State} {r : AuthResult} (h : authCheck n j f bad s = (r, t)) :
    Keeps s t := by
  simpa only [Keeps, h] using authCheck_keeps n j f bad s

theorem authOne_pending (bad : Nat) (a : AuthWait) (s : State) : (authOne bad a s).pending = s.pending := by
  unfold authOne
  dsimp only
  split
  · exact runStages_pending _ _ _ _ s
  split <;> next h =>
    simp only [runStages_pending, raiseOnce_keeps, incF_keeps, swBump_keeps, freePages_keeps, authCheck_keeps_of_eq h]

theorem execAuthenticate_keepsQueue (bad : Nat) (s : State) : KeepsQueue s (execAuthenticate bad s) :=
  ⟨_, rfl, by split <;> simp only [authDrain_pending, implies_true, underGen_pending, authOne_pending]⟩

/-! ## Functions of `Sys2Proof/Machine/Ports.lean` -/

theorem portWrite_keeps (p : Nat) (g : State → State) (hg : ∀ s, Keeps s (g s)) (s : State) : Keeps s (portWrite p g s) := by
  simp only [Keeps, portWrite, ite_keeps, hg, busError_keeps, busDone_keeps, ite_self, and_self]

theorem execEthLinkUp_keepsQueue (p spd : Nat) (hdx anok : Bool) (s : State) : KeepsQueue s (execEthLinkUp p spd hdx anok s) :=
  ⟨_, rfl, by simp only [implies_true, onlyIf_pending, ite_keeps, ite_self, setB_keeps, raise_keeps, setF_keeps]⟩

theorem linkOff_keeps (p : Nat) (s : State) : Keeps s (linkOff p s) := by
  simp only [Keeps, linkOff, flushPort_keeps, ite_keeps, ite_self, setB_keeps, and_self]

theorem execEthLinkDown_keepsQueue (p : Nat) (s : State) : KeepsQueue s (execEthLinkDown p s) :=
  ⟨_, rfl, by simp only [implies_true, onlyIf_pending, raise_keeps, setB_keeps, linkOff_keeps]⟩

theorem execPlcaBeaconReceive_keepsQueue (p : Nat) (s : State) : KeepsQueue s (execPlcaBeaconReceive p s) :=
  ⟨_, rfl, by simp only [implies_true, onlyIf_pending, plcaUp_keeps]⟩

theorem plcaDown_keeps (p : Nat) (s : State) : Keeps s (plcaDown p s) := by
  simp only [Keeps, plcaDown, ite_keeps, ite_self, raise_keeps, incF_keeps, setB_keeps, linkOff_keeps, and_self]

theorem portStop_keeps (p : Nat) (s : State) : Keeps s (portStop p s) := by
  simp only [Keeps, portStop, ite_keeps, ite_self, plcaDown_keeps, linkOff_keeps, and_self]

theorem execPlcaInactive_keepsQueue (p : Nat) (s : State) : KeepsQueue s (execPlcaInactive p s) :=
  ⟨_, rfl, by simp only [implies_true, onlyIf_pending, plcaDown_keeps]⟩

theorem execT1sCollision_keepsQueue (p : Nat) (s : State) : KeepsQueue s (execT1sCollision p s) := by
  refine ⟨_, rfl, onlyIf_pending (fun s => ?_) s⟩
  split
  · rfl
  · simp only [ite_keeps, ethCount_keeps, dropReplica_keeps, setSending_keeps, ite_self]

theorem execMacFrameReceive_keepsQueue (p : Nat) (frame : List Byte) (sfd : Nat) (fcsOk sym : Bool) (s : State) :
    KeepsQueue s (execMacFrameReceive p frame sfd fcsOk sym s) :=
  ⟨_, rfl, by simp only [implies_true, onlyIf_pending, setMet_keeps, ite_keeps, ite_self, abandonFrame_keeps, ethCount_keeps, hieTake_keeps,
    frameStored_keeps, ingressFrame_pending]⟩

theorem cmdMdioCommand_keeps (rq : Requester) (p : Nat) (w : Word) (s : State) : Keeps s (cmdMdioCommand rq p w s) := by
  simp only [Keeps, cmdMdioCommand, portWrite_keeps, implies_true, ite_keeps, ite_self, busError_keeps, setB_keeps, emit_keeps, and_self]

theorem execMdioCommand_keepsQueue (rq : Requester) (p : Nat) (w : Word) (s : State) : KeepsQueue s (execMdioCommand rq p w s) :=
  ⟨_, rfl, by simp only [implies_true, gate_pending, cmdMdioCommand_keeps]⟩

theorem execMdioDone_keepsQueue (answer : Option Nat) (s : State) : KeepsQueue s (execMdioDone answer s) :=
  ⟨_, rfl, by split <;> simp only [setB_keeps, ite_keeps, ite_self, setF_keeps]⟩

theorem txtsRead_keeps (p : Nat) (s : State) : Keeps s (txtsRead p s) := by
  unfold txtsRead
  split <;> simp only [Keeps, busData_keeps, setF_keeps, and_self]

theorem cmdEthTxtsRead_keeps (rq : Requester) (p : Nat) (s : State) : Keeps s (cmdEthTxtsRead rq p s) := by
  simp only [Keeps, cmdEthTxtsRead, ite_keeps, ite_self, busError_keeps, txtsRead_keeps, busData_keeps, and_self]

theorem execEthTxtsRead_keepsQueue (rq : Requester) (p : Nat) (s : State) : KeepsQueue s (execEthTxtsRead rq p s) :=
  ⟨_, rfl, by simp only [implies_true, gate_pending, cmdEthTxtsRead_keeps]⟩

theorem execSyncReceive_keepsQueue (p : Nat) (s : State) : KeepsQueue s (execSyncReceive p s) :=
  ⟨_, rfl, by simp only [implies_true, onlyIf_pending, incF_keeps, setB_keeps]⟩

theorem execSyncTimeout_keepsQueue (s : State) : KeepsQueue s (execSyncTimeout s) :=
  ⟨_, rfl, by simp only [implies_true, onlyIf_pending, raise_keeps, setB_keeps]⟩

theorem tsySet_keeps (s : State) : Keeps s (tsySet s) := by
  simp only [Keeps, tsySet, incF_keeps, and_self]

theorem tsyStep_keeps (s : State) : Keeps s (tsyStep s) := by
  simp only [Keeps, tsyStep, incF_keeps, and_self]

theorem cmdTsySet_keeps (rq : Requester) (s : State) : Keeps s (cmdTsySet rq s) := by
  simp only [Keeps, cmdTsySet, tsySet_keeps, busDone_keeps, and_self]

theorem execTsySet_keepsQueue (rq : Requester) (s : State) : KeepsQueue s (execTsySet rq s) :=
  ⟨_, rfl, by simp only [implies_true, gate_pending, cmdTsySet_keeps]⟩

theorem cmdTsyStep_keeps (rq : Requester) (s : State) : Keeps s (cmdTsyStep rq s) := by
  simp only [Keeps, cmdTsyStep, tsyStep_keeps, busDone_keeps, and_self]

theorem execTsyStep_keepsQueue (rq : Requester) (s : State) : KeepsQueue s (execTsyStep rq s) :=
  ⟨_, rfl, by simp only [implies_true, gate_pending, cmdTsyStep_keeps]⟩

theorem cmdTsyFadjWrite_keeps (rq : Requester) (w : Word) (s : State) : Keeps s (cmdTsyFadjWrite rq w s) := by
  simp only [Keeps, cmdTsyFadjWrite, ite_keeps, ite_self, busDone_keeps, setF_keeps, busError_keeps, and_self]

theorem execTsyFadjWrite_keepsQueue (rq : Requester) (w : Word) (s : State) : KeepsQueue s (execTsyFadjWrite rq w s) :=
  ⟨_, rfl, by simp only [implies_true, gate_pending, cmdTsyFadjWrite_keeps]⟩

/-! ## Functions of `Sys2Proof/Machine/Serial.lean` -/

theorem setSer_keeps (n : Nat) (t : SerTile) (s : State) : Keeps s (setSer n t s) := ⟨rfl, rfl⟩

theorem serEvt_keeps (n : Nat) (f : Fld) (s : State) : Keeps s (serEvt n f s) := by
  simp only [Keeps, serEvt, ite_keeps, ite_self, setB_keeps, raise_keeps, and_self]

theorem serErr_keeps (n : Nat) (f : Fld) (k : Nat) (s : State) : Keeps s (serErr n f k s) := by
  simp only [Keeps, serErr, ite_keeps, ite_self, serEvt_keeps, incF_keeps, and_self]

theorem serHand_keeps (n id : Nat) (data : List Byte) (time : Nat) (s : State) : Keeps s (serHand n id data time s) := by
  simp only [Keeps, serHand, ite_keeps, ite_self, serEvt_keeps, incF_keeps, setSer_keeps, and_self]

theorem serHandAll_pending (n : Nat) (s : State) : (serHandAll n s).pending = s.pending := by
  simp only [serHandAll, implies_true, applyAll_pending, offerFrame_pending, setSer_keeps]

theorem serReceived_keeps (n : Nat) (s : State) : Keeps s (serReceived n s) := by
  simp only [Keeps, serReceived, serEvt_keeps, incF_keeps, and_self]

theorem serSent_keeps (n : Nat) (s : State) : Keeps s (serSent n s) := by
  simp only [Keeps, serSent, serEvt_keeps, incF_keeps, and_self]

theorem serWrite_keeps (n : Nat) (fns : List Nat) (g : State → State) (hg : ∀ s, Keeps s (g s)) (s : State) :
    Keeps s (serWrite n fns g s) := by
  simp only [Keeps, serWrite, ite_keeps, hg, busError_keeps, busDone_keeps, ite_self, and_self]

theorem serWrite_pending (n : Nat) (fns : List Nat) (g : State → State) (hg : ∀ s, (g s).pending = s.pending) (s : State) :
    (serWrite n fns g s).pending = s.pending := by
  simp only [serWrite, ite_keeps, hg, busError_keeps, busDone_keeps, ite_self]

theorem pulsesEnd_keeps (n : Nat) (s : State) : Keeps s (pulsesEnd n s) := ⟨rfl, rfl⟩

theorem serQuiet_pending (n st : Nat) (s : State) : (serQuiet n st s).pending = s.pending := by
  simp only [serQuiet, serHandAll_pending, ite_keeps, ite_self, serErr_keeps, emit_keeps, pulsesEnd_keeps, setF_keeps, setSer_keeps]

theorem linHeader_keeps (n id : Nat) (s : State) : Keeps s (linHeader n id s) := by
  simp only [Keeps, linHeader, setSer_keeps, ite_keeps, ite_self, setB_keeps, emit_keeps, and_self]

theorem linSendHeader_keeps (n id : Nat) (s : State) : Keeps s (linSendHeader n id s) := by
  simp only [Keeps, linSendHeader, linHeader_keeps, emit_keeps, and_self]

theorem linSwitch_keeps (n k : Nat) (s : State) : Keeps s (linSwitch n k s) := by
  simp only [Keeps, linSwitch, serEvt_keeps, setB_keeps, setF_keeps, setSer_keeps, and_self]

theorem linAdvance_keeps (n : Nat) (s : State) : Keeps s (linAdvance n s) := by
  simp only [Keeps, linAdvance, setSer_keeps, ite_keeps, setF_keeps, setB_keeps, linSwitch_keeps]
  (repeat' split) <;> simp only [setSer_keeps, serEvt_keeps, setF_keeps, and_self]

theorem linSlot_keeps (n : Nat) (s : State) : Keeps s (linSlot n s) := by
  unfold linSlot
  dsimp only
  split
  · simp only [Keeps, linAdvance_keeps, and_self]
  · split <;> simp only [Keeps, linAdvance_keeps, ite_keeps, ite_self, linSendHeader_keeps, and_self]

theorem execLinSlotStart_keepsQueue (n : Nat) (s : State) : KeepsQueue s (execLinSlotStart n s) :=
  ⟨_, rfl, by simp only [implies_true, onlyIf_pending, linSlot_keeps]⟩

theorem execLinHeaderReceive_keepsQueue (n sync pid : Nat) (s : State) : KeepsQueue s (execLinHeaderReceive n sync pid s) :=
  ⟨_, rfl, by simp only [ite_keeps, ite_self, setSer_keeps, implies_true, onlyIf_pending, pulsesEnd_keeps, serErr_keeps, linHeader_keeps]⟩

theorem linStore_keeps (n id : Nat) (data : List Byte) (s : State) : Keeps s (linStore n id data s) := by
  simp only [Keeps, linStore, orF_keeps, setF_keeps, setSer_keeps, and_self]

theorem linCollide_keeps (n : Nat) (s : State) : Keeps s (linCollide n s) := by
  unfold linCollide
  split <;> simp only [Keeps, setSer_keeps, and_self]

theorem linEnd_pending (n : Nat) (s : State) : (linEnd n s).pending = s.pending := by
  simp only [linEnd, setSer_keeps, ite_keeps, ite_self, serQuiet_pending]

theorem linOutcome_keeps (n id : Nat) (pub : Bool) (bytes : List Byte) (framing readback : Bool) (ago : Nat) (s : State) :
    Keeps s (linOutcome n id pub bytes framing readback ago s) := by
  simp only [Keeps, linOutcome, ite_keeps, ite_self, serErr_keeps, linCollide_keeps, serSent_keeps, seeFrame_keeps, serReceived_keeps,
    linStore_keeps, serHand_keeps, and_self]

theorem linHeard_keeps (n : Nat) (bytes : List Byte) (framing : Bool) (s : State) : Keeps s (linHeard n bytes framing s) := by
  unfold linHeard
  split <;> simp only [Keeps, setSer_keeps, ite_keeps, ite_self, seeFrame_keeps, and_self]

theorem execLinResponseEnd_keepsQueue (n : Nat) (bytes : List Byte) (framing readback : Bool) (ago : Nat) (s : State) :
    KeepsQueue s (execLinResponseEnd n bytes framing readback ago s) := by
  refine ⟨_, rfl, ?_⟩
  split
  · exact (linHeard_keeps _ _ _ _).1
  · refine onlyIf_pending (fun s => ?_) s
    split
    · rfl
    · simp only [linEnd_pending, linOutcome_keeps]

theorem cmdLinSchedWrite_keeps (rq : Requester) (n : Nat) (w : Word) (s : State) : Keeps s (cmdLinSchedWrite rq n w s) := by
  simp only [Keeps, cmdLinSchedWrite, serWrite_keeps, implies_true, setB_keeps, setF_keeps, and_self]

theorem execLinSchedWrite_keepsQueue (rq : Requester) (n : Nat) (w : Word) (s : State) : KeepsQueue s (execLinSchedWrite rq n w s) :=
  ⟨_, rfl, by simp only [implies_true, gate_pending, cmdLinSchedWrite_keeps]⟩

theorem linPubWrite_keeps (n i k v : Nat) (s : State) : Keeps s (linPubWrite n i k v s) := by
  simp only [Keeps, linPubWrite, setF_keeps, ite_keeps, ite_self, setB_keeps, and_self]

theorem cmdLinPubWrite_keeps (rq : Requester) (n i k : Nat) (w : Word) (s : State) : Keeps s (cmdLinPubWrite rq n i k w s) := by
  simp only [Keeps, cmdLinPubWrite, ite_keeps, ite_self, busError_keeps, serWrite_keeps, implies_true, linPubWrite_keeps, and_self]

theorem execLinPubWrite_keepsQueue (rq : Requester) (n i k : Nat) (w : Word) (s : State) :
    KeepsQueue s (execLinPubWrite rq n i k w s) :=
  ⟨_, rfl, by simp only [implies_true, gate_pending, cmdLinPubWrite_keeps]⟩

theorem charErrors_keeps (n : Nat) (l : List (Nat × UartChar)) (s : State) : Keeps s (charErrors n l s) := by
  simp only [Keeps, charErrors, serErr_keeps, and_self]

theorem setRxFrame_keeps (n : Nat) (l : List (Nat × UartChar)) (s : State) : Keeps s (setRxFrame n l s) := by
  simp only [Keeps, setRxFrame, setSer_keeps, and_self]

theorem hdlcFrameEnd_keeps (n t : Nat) (l : List (Nat × UartChar)) (s : State) : Keeps s (hdlcFrameEnd n t l s) := by
  simp only [Keeps, hdlcFrameEnd, ite_keeps, ite_self, charErrors_keeps, serErr_keeps, serHand_keeps, serReceived_keeps, and_self]

theorem hdlcChar_keeps (n : Nat) (c : UartChar) (s : State) : Keeps s (hdlcChar n c s) := by
  unfold hdlcChar
  split <;> simp only [Keeps, ite_keeps, ite_self, setRxFrame_keeps, hdlcFrameEnd_keeps, and_self]

theorem execHdlcFrameReceive_keepsQueue (n : Nat) (chars : List UartChar) (s : State) :
    KeepsQueue s (execHdlcFrameReceive n chars s) :=
  ⟨_, rfl, by simp only [implies_true, onlyIf_pending, applyAll_pending, hdlcChar_keeps]⟩

theorem uartEnd_keeps (n : Nat) (s : State) : Keeps s (uartEnd n s) := by
  unfold uartEnd
  split <;> simp only [Keeps, setRxFrame_keeps, ite_keeps, ite_self, charErrors_keeps, serHand_keeps, serReceived_keeps, and_self]

theorem uartChar_keeps (n : Nat) (c : UartChar) (s : State) : Keeps s (uartChar n c s) := by
  simp only [Keeps, uartChar, setRxFrame_keeps, ite_keeps, ite_self, uartEnd_keeps, and_self]

theorem execUartFrameEnd_keepsQueue (n : Nat) (chars : List UartChar) (gap : Bool) (s : State) :
    KeepsQueue s (execUartFrameEnd n chars gap s) :=
  ⟨_, rfl, by simp only [implies_true, onlyIf_pending, applyAll_pending, uartChar_keeps, ite_keeps, ite_self, uartEnd_keeps]⟩

theorem rxFrameEnd_keeps (n : Nat) (s : State) : Keeps s (rxFrameEnd n s) := by
  simp only [Keeps, rxFrameEnd, ite_keeps, ite_self, uartEnd_keeps, setRxFrame_keeps, and_self]

theorem serBad_keeps (n : Nat) (s : State) : Keeps s (serBad n s) := by
  simp only [Keeps, serBad, incF_keeps, and_self]

theorem gpioSet_keeps (n : Nat) (d : List Byte) (s : State) : Keeps s (gpioSet n d s) := by
  simp only [Keeps, gpioSet, setF_keeps, and_self]

theorem linSwitchFrame_keeps (n id : Nat) (d : List Byte) (s : State) : Keeps s (linSwitchFrame n id d s) := by
  simp only [Keeps, linSwitchFrame, linPubWrite_keeps, and_self]

theorem tileSentCount_keeps (len : Nat) (s : State) : Keeps s (tileSentCount len s) := by
  simp only [Keeps, tileSentCount, swBump_keeps, and_self]

theorem execSerialTxDequeue_keepsQueue (n : Nat) (s : State) : KeepsQueue s (execSerialTxDequeue n s) := by
  refine ⟨_, rfl, onlyIf_pending (fun s => ?_) s⟩
  split
  · rfl
  split
  · rfl
  · simp only [ite_keeps, serBad_keeps, tileSentCount_keeps, linSwitchFrame_keeps, gpioSet_keeps, setSer_keeps, dropReplica_keeps,
      setQueue_keeps, ite_self]

theorem serBegin_keeps (n : Nat) (d : List Byte) (sw : Bool) (tx : List Replica) (s : State) : Keeps s (serBegin n d sw tx s) := by
  simp only [Keeps, serBegin, ite_keeps, ite_self, rxFrameEnd_keeps, setSer_keeps, and_self]

theorem execUartTxStart_keepsQueue (n : Nat) (s : State) : KeepsQueue s (execUartTxStart n s) := by
  refine ⟨_, rfl, onlyIf_pending (fun s => ?_) s⟩
  dsimp only
  split
  · exact (serBegin_keeps _ _ _ _ _).1
  split
  · rfl
  · exact (serBegin_keeps _ _ _ _ _).1

theorem execSerialTxEnd_keepsQueue (n : Nat) (echo : List Byte) (s : State) : KeepsQueue s (execSerialTxEnd n echo s) := by
  refine ⟨_, rfl, onlyIf_pending (fun s => ?_) s⟩
  dsimp only
  split
  · rfl
  · simp only [ite_keeps, serErr_keeps, setB_keeps, tileSentCount_keeps, serSent_keeps, emit_keeps, setSer_keeps, ite_self]

theorem swtxGo_keeps (n : Nat) (w : Word) (s : State) : Keeps s (swtxGo n w s) := by
  simp only [Keeps, swtxGo, ite_keeps, ite_self, busError_keeps, setF_keeps, setB_keeps, and_self]

theorem cmdUartSwtxGo_keeps (rq : Requester) (n : Nat) (w : Word) (s : State) : Keeps s (cmdUartSwtxGo rq n w s) := by
  simp only [Keeps, cmdUartSwtxGo, serWrite_keeps, implies_true, swtxGo_keeps, and_self]

theorem execUartSwtxGo_keepsQueue (rq : Requester) (n : Nat) (w : Word) (s : State) : KeepsQueue s (execUartSwtxGo rq n w s) :=
  ⟨_, rfl, by simp only [implies_true, gate_pending, cmdUartSwtxGo_keeps]⟩

theorem execGpioInputChange_keepsQueue (n levels : Nat) (s : State) : KeepsQueue s (execGpioInputChange n levels s) :=
  ⟨_, rfl, by simp only [implies_true, onlyIf_pending, ite_keeps, ite_self, setF_keeps, serHand_keeps]⟩

theorem serFlush_keeps (n : Nat) (s : State) : Keeps s (serFlush n s) := by
  simp only [Keeps, serFlush, applyAll_keeps, implies_true, serBad_keeps, swBump_keeps, setSer_keeps, discard_keeps, setQueue_keeps,
    and_self]

theorem serStart_keeps (n : Nat) (s : State) : Keeps s (serStart n s) := by
  simp only [Keeps, serStart, setF_keeps, setSer_keeps, ite_keeps, ite_self, linSlot_keeps, and_self]

theorem serStop_pending (n : Nat) (s : State) : (serStop n s).pending = s.pending := by
  simp only [serStop, ite_keeps, ite_self, setSer_keeps, serFlush_keeps, serQuiet_pending]

theorem cmdSerCtlStop_pending (rq : Requester) (n : Nat) (s : State) : (cmdSerCtlStop rq n s).pending = s.pending := by
  simp only [cmdSerCtlStop, implies_true, serWrite_pending, serStop_pending]

theorem execSerCtlStop_keepsQueue (rq : Requester) (n : Nat) (s : State) : KeepsQueue s (execSerCtlStop rq n s) :=
  ⟨_, rfl, by simp only [implies_true, gate_pending, cmdSerCtlStop_pending]⟩

theorem cmdSerCtlStart_keeps (rq : Requester) (n : Nat) (s : State) : Keeps s (cmdSerCtlStart rq n s) := by
  simp only [Keeps, cmdSerCtlStart, serWrite_keeps, implies_true, ite_keeps, ite_self, serStart_keeps, and_self]

theorem execSerCtlStart_keepsQueue (rq : Requester) (n : Nat) (s : State) : KeepsQueue s (execSerCtlStart rq n s) :=
  ⟨_, rfl, by simp only [implies_true, gate_pending, cmdSerCtlStart_keeps]⟩

/-! ## Functions of `Sys2Proof/Machine/Wake.lean` -/

theorem setUnit_keeps (a bt bp : Fld) (u : Nat) (b : Bool) (s : State) : Keeps s (setUnit a bt bp u b s) := by
  simp only [Keeps, setUnit, ite_keeps, ite_self, orF_keeps, clrF_keeps, and_self]

theorem refreshBase_keeps (s : State) : Keeps s (refreshBase s) := by
  simp only [Keeps, refreshBase, ite_keeps, ite_self, refreshMode_keeps, setF_keeps, and_self]

theorem falseWake_keeps (u : Nat) (s : State) : Keeps s (falseWake u s) := by
  unfold falseWake
  split <;> simp only [Keeps, setVal_keeps, ite_keeps, ite_self, incF_keeps, raise_keeps, and_self]

theorem logWake_keeps (w : WakeSrc) (sby : Bool) (s : State) : Keeps s (logWake w sby s).2 := by
  simp only [Keeps, logWake, ite_keeps, ite_self, setF_keeps, setB_keeps, incF_keeps, and_self]

theorem openWindow_keeps (u e : Nat) (s : State) : Keeps s (openWindow u e s) := by
  simp only [Keeps, openWindow, falseWake_keeps, and_self]

theorem writeDone_keeps (u : Nat) (s : State) : Keeps s (writeDone u s) := by
  simp only [Keeps, writeDone, applyAll_keeps, implies_true, raise_keeps, and_self]

theorem latchWake_keeps (u : Nat) (s : State) : Keeps s (latchWake u s) := by
  simp only [Keeps, latchWake, ite_keeps, ite_self, and_self]

theorem stopSleepingPlls_keeps (s : State) : Keeps s (stopSleepingPlls s) := by
  simp only [Keeps, stopSleepingPlls, applyAll_keeps, implies_true, ite_keeps, ite_self, clrF_keeps, and_self]

theorem startPll_keeps (p : Nat) (s : State) : Keeps s (startPll p s) := by
  simp only [Keeps, startPll, ite_keeps, ite_self, and_self]

theorem sleepStart_keeps (u : Nat) (s : State) : Keeps s (sleepStart u s) := by
  simp only [Keeps, sleepStart, setUnit_keeps, ite_keeps, ite_self, linkOff_keeps, canFlush_keeps, and_self]

theorem sendGoToSleep_keeps (n : Nat) (s : State) : Keeps s (sendGoToSleep n s) := by
  simp only [Keeps, sendGoToSleep, emit_keeps, and_self]

theorem sleepEntry_pending (u : Nat) (s : State) : (sleepEntry u s).pending = s.pending := by
  simp only [sleepEntry, setUnit_keeps, latchWake_keeps, ite_keeps, ite_self, flushPort_keeps, setF_keeps, canGoto_keeps, setCan_keeps,
    canFlush_keeps, sendGoToSleep_keeps, serQuiet_pending, serFlush_keeps, refreshBase_keeps, stopSleepingPlls_keeps, writeDone_keeps,
    falseWake_keeps]

theorem sleepRequest_keeps (hi : Bool) (w : Word) (s : State) : Keeps s (sleepRequest hi w s) := by
  simp only [Keeps, sleepRequest, ite_keeps, ite_self, busError_keeps, busDone_keeps, refreshBase_keeps, applyAll_keeps, implies_true,
    sleepStart_keeps, and_self]

theorem cmdUnitSleepRequest_keeps (rq : Requester) (hi : Bool) (w : Word) (s : State) : Keeps s (cmdUnitSleepRequest rq hi w s) := by
  simp only [Keeps, cmdUnitSleepRequest, sleepRequest_keeps, and_self]

theorem execUnitSleepRequest_keepsQueue (rq : Requester) (hi : Bool) (w : Word) (s : State) :
    KeepsQueue s (execUnitSleepRequest rq hi w s) :=
  ⟨_, rfl, by simp only [implies_true, gate_pending, cmdUnitSleepRequest_keeps]⟩

theorem execUnitAsleep_keepsQueue (u : Nat) (s : State) : KeepsQueue s (execUnitAsleep u s) :=
  ⟨_, rfl, by simp only [implies_true, onlyIf_pending, sleepEntry_pending]⟩

theorem unsleep_keeps (u : Nat) (s : State) : Keeps s (unsleep u s) := by
  simp only [Keeps, unsleep, writeDone_keeps, setUnit_keeps, and_self]

theorem wakeUnit_keeps (own : Bool) (u : Nat) (s : State) : Keeps s (wakeUnit own u s) := by
  simp only [Keeps, wakeUnit, ite_keeps, ite_self, unsleep_keeps, setUnit_keeps, startPll_keeps, emit_keeps, canGoto_keeps, setCan_keeps,
    setF_keeps, setSer_keeps, and_self]

theorem logSource_keeps (sby : Bool) (w : WakeSrc) (s : State) : Keeps s (logSource sby w s) := by
  unfold logSource
  split <;> simp only [Keeps, logWake_keeps, openWindow_keeps, and_self]

theorem startInOrder_keeps (l : List Nat) (s : State) : Keeps s (startInOrder l s) := ⟨rfl, rfl⟩

theorem wakeAll_keeps (ws : List WakeSrc) (sby : Bool) (s : State) : Keeps s (wakeAll ws sby s) := by
  simp only [Keeps, wakeAll, ite_keeps, ite_self, applyAll_keeps, implies_true, logSource_keeps, standbyTrigger_keeps, wakeUnit_keeps,
    raise_keeps, refreshBase_keeps, startInOrder_keeps, and_self]

theorem wakeSource_keeps (w : WakeSrc) (s : State) : Keeps s (wakeSource w s) := by
  simp only [Keeps, wakeSource, ite_keeps, ite_self, standbyTrigger_keeps, wakeAll_keeps, and_self]

theorem wakeRelease_keeps (s : State) : Keeps s (wakeRelease s) := by
  simp only [Keeps, wakeRelease, wakeAll_keeps, and_self]

theorem wakeRequest_keeps (hi : Bool) (w : Word) (s : State) : Keeps s (wakeRequest hi w s) := by
  simp only [Keeps, wakeRequest, ite_keeps, ite_self, busError_keeps, busDone_keeps, raise_keeps, refreshBase_keeps, applyAll_keeps,
    implies_true, wakeUnit_keeps, standbyTrigger_keeps, and_self]

theorem cmdUnitWakeRequest_keeps (rq : Requester) (hi : Bool) (w : Word) (s : State) : Keeps s (cmdUnitWakeRequest rq hi w s) := by
  simp only [Keeps, cmdUnitWakeRequest, wakeRequest_keeps, and_self]

theorem execUnitWakeRequest_keepsQueue (rq : Requester) (hi : Bool) (w : Word) (s : State) :
    KeepsQueue s (execUnitWakeRequest rq hi w s) :=
  ⟨_, rfl, by simp only [implies_true, gate_pending, cmdUnitWakeRequest_keeps]⟩

theorem execWakeUpFrame_keepsQueue (n : Nat) (f : CanFrame) (dlc : Nat) (s : State) : KeepsQueue s (execWakeUpFrame n f dlc s) :=
  ⟨_, rfl, by simp only [implies_true, onlyIf_pending, seeFrame_keeps, setF_keeps, ite_keeps, ite_self, wakeSource_keeps]⟩

theorem execWakeDominant_keepsQueue (n us : Nat) (s : State) : KeepsQueue s (execWakeDominant n us s) :=
  ⟨_, rfl, by simp only [implies_true, onlyIf_pending, wakeSource_keeps]⟩

theorem execWakeFrameErrors_keepsQueue (n : Nat) (s : State) : KeepsQueue s (execWakeFrameErrors n s) :=
  ⟨_, rfl, by simp only [implies_true, onlyIf_pending, setF_keeps, ite_keeps, ite_self, wakeSource_keeps]⟩

theorem execWakePortEnergy_keepsQueue (p us : Nat) (s : State) : KeepsQueue s (execWakePortEnergy p us s) :=
  ⟨_, rfl, by simp only [implies_true, onlyIf_pending, wakeSource_keeps]⟩

theorem pinWakeTaken_keeps (i : Nat) (s : State) : Keeps s (pinWakeTaken i s) := ⟨rfl, rfl⟩

theorem execWakeWireOrPin_keepsQueue (pin : Bool) (i : Nat) (s : State) : KeepsQueue s (execWakeWireOrPin pin i s) :=
  ⟨_, rfl, by simp only [ite_keeps, ite_self, implies_true, onlyIf_pending, wakeSource_keeps, pinWakeTaken_keeps]⟩

theorem execSerdesPllRestartLock_keepsQueue (g : Nat) (s : State) : KeepsQueue s (execSerdesPllRestartLock g s) :=
  ⟨_, rfl, by simp only [implies_true, onlyIf_pending, orF_keeps]⟩

theorem execValidationWindowClose_keepsQueue (u : Nat) (s : State) : KeepsQueue s (execValidationWindowClose u s) :=
  ⟨_, rfl, by simp only [implies_true, onlyIf_pending, falseWake_keeps]⟩

theorem cmdWksValid_keeps (rq : Requester) (hi : Bool) (w : Word) (s : State) : Keeps s (cmdWksValid rq hi w s) := by
  simp only [Keeps, cmdWksValid, applyAll_keeps, implies_true, validate_keeps, busDone_keeps, and_self]

theorem execWksValid_keepsQueue (rq : Requester) (hi : Bool) (w : Word) (s : State) : KeepsQueue s (execWksValid rq hi w s) :=
  ⟨_, rfl, by simp only [implies_true, gate_pending, cmdWksValid_keeps]⟩

theorem cmdWksLogack_keeps (rq : Requester) (w : Word) (s : State) : Keeps s (cmdWksLogack rq w s) := by
  simp only [Keeps, cmdWksLogack, busDone_keeps, ite_keeps, ite_self, setF_keeps, and_self]

theorem execWksLogack_keepsQueue (rq : Requester) (w : Word) (s : State) : KeepsQueue s (execWksLogack rq w s) :=
  ⟨_, rfl, by simp only [implies_true, gate_pending, cmdWksLogack_keeps]⟩

theorem linSelfSleep_pending (n : Nat) (s : State) : (linSelfSleep n s).pending = s.pending := by
  simp only [linSelfSleep, raise_keeps, sleepEntry_pending, setSer_keeps]

theorem execLinGoToSleepReceive_keepsQueue (n : Nat) (s : State) : KeepsQueue s (execLinGoToSleepReceive n s) :=
  ⟨_, rfl, by simp only [implies_true, onlyIf_pending, linSelfSleep_pending, seeFrame_keeps]⟩

theorem execLinIdleSleep_keepsQueue (n : Nat) (s : State) : KeepsQueue s (execLinIdleSleep n s) :=
  ⟨_, rfl, by simp only [implies_true, onlyIf_pending, linSelfSleep_pending]⟩

theorem linPulse_keeps (n k : Nat) (s : State) : Keeps s (linPulse n k s) := by
  simp only [Keeps, linPulse, emit_keeps, and_self]

theorem linWakeStart_keeps (n : Nat) (s : State) : Keeps s (linWakeStart n s) := by
  simp only [Keeps, linWakeStart, ite_keeps, ite_self, linPulse_keeps, serStart_keeps, and_self]

theorem execLinWakePulseTimeout_keepsQueue (n : Nat) (s : State) : KeepsQueue s (execLinWakePulseTimeout n s) :=
  ⟨_, rfl, by simp only [implies_true, onlyIf_pending, ite_keeps, ite_self, serStart_keeps, linPulse_keeps]⟩

/-! ## Functions of `Sys2Proof/Machine/CarLink.lean` -/

theorem setLink_keeps (p : LinkSide) (l : LinkPort) (s : State) : Keeps s (setLink p l s) := by
  unfold setLink
  split <;> exact ⟨rfl, rfl⟩

theorem setRxState_keeps (p : LinkSide) (r : RxState) (s : State) : Keeps s (setRxState p r s) := by
  simp only [Keeps, setRxState, setLink_keeps, setF_keeps, ite_keeps, ite_self, setB_keeps, and_self]

theorem holdsStart_keeps (m : Nat) (s : State) : Keeps s (holdsStart m s) := ⟨rfl, rfl⟩

theorem execWireInChange_keepsQueue (n : Nat) (level : Bool) (s : State) : KeepsQueue s (execWireInChange n level s) :=
  ⟨_, rfl, by simp only [implies_true, onlyIf_pending, ite_keeps, ite_self, holdsStart_keeps]⟩

theorem wireChange_keeps (n : Nat) (st received : Bool) (p : LinkSide) (hop fcnt : Nat) (s : State) :
    Keeps s (wireChange n st received p hop fcnt s) := by
  simp only [Keeps, wireChange, ite_keeps, ite_self, orF_keeps, incWrap_keeps, setB_keeps, and_self]

theorem setDebounced_keeps (n : Nat) (v : Bool) (s : State) : Keeps s (setDebounced n v s) := by
  simp only [Keeps, setDebounced, ite_keeps, ite_self, wireChange_keeps, and_self]

theorem execWireDebounceExpiry_keepsQueue (n : Nat) (s : State) : KeepsQueue s (execWireDebounceExpiry n s) :=
  ⟨_, rfl, by simp only [implies_true, onlyIf_pending, setDebounced_keeps]⟩

theorem debounceLength_keeps (deb : Nat) (s : State) : Keeps s (debounceLength deb s) := by
  simp only [Keeps, debounceLength, applyAll_keeps, implies_true, ite_keeps, ite_self, setDebounced_keeps, setF_keeps, and_self]

theorem applyPolarity_keeps (pol : Nat) (s : State) : Keeps s (applyPolarity pol s) := by
  simp only [Keeps, applyPolarity, holdsStart_keeps, setF_keeps, and_self]

theorem execWireRecordIssue_keepsQueue (s : State) : KeepsQueue s (execWireRecordIssue s) :=
  ⟨_, rfl, by split <;> simp only [ite_keeps, ite_self, internalInline_keeps]⟩

theorem setOrigins_keeps (p : LinkSide) (o : List Nat) (s : State) : Keeps s (setOrigins p o s) := by
  simp only [Keeps, setOrigins, applyAll_keeps, implies_true, setF_keeps, and_self]

theorem showAlarms_keeps (s : State) : Keeps s (showAlarms s) := by
  simp only [Keeps, showAlarms, setF_keeps, ite_keeps, ite_self, raise_keeps, setB_keeps, and_self]

theorem sourceLost_keeps (p : LinkSide) (s : State) : Keeps s (sourceLost p s) := by
  unfold sourceLost
  dsimp only
  split <;> simp only [Keeps, setLink_keeps, and_self]

theorem sourceGained_keeps (p : LinkSide) (s : State) : Keeps s (sourceGained p s) := by
  unfold sourceGained
  dsimp only
  split <;> simp only [Keeps, setLink_keeps, and_self]

theorem receivedStates_keeps (p : LinkSide) (w : Nat) (hops : List Nat) (fcnt : Nat) (s : State) :
    Keeps s (receivedStates p w hops fcnt s) := by
  simp only [Keeps, receivedStates, setLink_keeps, applyAll_keeps, implies_true, wireChange_keeps, and_self]

theorem lockLoss_keeps (p : LinkSide) (s : State) : Keeps s (lockLoss p s) := by
  simp only [Keeps, lockLoss, setRxState_keeps, sourceLost_keeps, setOrigins_keeps, receivedStates_keeps, setLink_keeps, incF_keeps,
    showAlarms_keeps, ite_keeps, ite_self, setB_keeps, raise_keeps, and_self]

theorem headerFollow_keeps (p : LinkSide) (f : LinkFrame) (s : State) : Keeps s (headerFollow p f s) := by
  simp only [Keeps, headerFollow, ite_keeps, ite_self, setB_keeps, and_self]

theorem positionFollow_keeps (f : LinkFrame) (s : State) : Keeps s (positionFollow f s) := by
  simp only [Keeps, positionFollow, ite_keeps, ite_self, setB_keeps, setF_keeps, and_self]

theorem hopFollow_keeps (f : LinkFrame) (s : State) : Keeps s (hopFollow f s) := by
  simp only [Keeps, hopFollow, setB_keeps, ite_keeps, ite_self, and_self]

theorem deliverMessage_pending (p : LinkSide) (f : LinkFrame) (s : State) : (deliverMessage p f s).pending = s.pending := by
  simp only [deliverMessage, sendOwn_pending]

theorem acceptFrame_pending (p : LinkSide) (f : LinkFrame) (s : State) : (acceptFrame p f s).pending = s.pending := by
  simp only [acceptFrame, setF_keeps, setLink_keeps, headerFollow_keeps, ite_keeps, ite_self, positionFollow_keeps, hopFollow_keeps,
    incF_keeps, setOrigins_keeps, receivedStates_keeps, showAlarms_keeps, deliverMessage_pending, setRxState_keeps, sourceLost_keeps]

theorem execCarlinkHuntSync_keepsQueue (p : LinkSide) (bit : Nat) (s : State) : KeepsQueue s (execCarlinkHuntSync p bit s) :=
  ⟨_, rfl, by simp only [implies_true, onlyIf_pending, ite_keeps, ite_self, setLink_keeps]⟩

theorem execCarlinkCandidateFrame_keepsQueue (p : LinkSide) (bit : Nat) (f : LinkFrame) (s : State) :
    KeepsQueue s (execCarlinkCandidateFrame p bit f s) := by
  refine ⟨_, rfl, onlyIf_pending (fun s => ?_) s⟩
  dsimp only
  split
  · rfl
  · simp only [ite_keeps, setLink_keeps, acceptFrame_pending, raise_keeps, setB_keeps, sourceGained_keeps, setRxState_keeps, ite_self]

theorem execCarlinkFrameReceive_keepsQueue (p : LinkSide) (f : LinkFrame) (s : State) :
    KeepsQueue s (execCarlinkFrameReceive p f s) :=
  ⟨_, rfl, by simp only [implies_true, onlyIf_pending, ite_keeps, ite_self, acceptFrame_pending, incF_keeps, setLink_keeps, lockLoss_keeps]⟩

theorem execRelockSync_keepsQueue (p : LinkSide) (off : Nat) (f : LinkFrame) (s : State) : KeepsQueue s (execRelockSync p off f s) :=
  ⟨_, rfl, by simp only [implies_true, onlyIf_pending, incF_keeps, setRxState_keeps, acceptFrame_pending, sourceGained_keeps]⟩

theorem execRelockTimeout_keepsQueue (p : LinkSide) (s : State) : KeepsQueue s (execRelockTimeout p s) :=
  ⟨_, rfl, by simp only [implies_true, onlyIf_pending, lockLoss_keeps]⟩

theorem sendFrame_keeps (p : LinkSide) (inc : Option LinkFrame) (slaved realign : Bool) (s : State) :
    Keeps s (sendFrame p inc slaved realign s) := by
  simp only [Keeps, sendFrame, ite_keeps, ite_self, emit_keeps, setF_keeps, setLink_keeps, setB_keeps, and_self]

theorem execCarlinkFrameSend_keepsQueue (p : LinkSide) (incoming : Option LinkFrame) (s : State) :
    KeepsQueue s (execCarlinkFrameSend p incoming s) :=
  ⟨_, rfl, by split <;> simp only [sendFrame_keeps, setLink_keeps]⟩

theorem execRephaseStart_keepsQueue (p : LinkSide) (s : State) : KeepsQueue s (execRephaseStart p s) :=
  ⟨_, rfl, by dsimp only; split <;> simp only [setLink_keeps]⟩

theorem msgTxWrite_keeps (p : LinkSide) (w : Word) (s : State) : Keeps s (msgTxWrite p w s) := by
  simp only [Keeps, msgTxWrite, ite_keeps, ite_self, busError_keeps, setF_keeps, busDone_keeps, setB_keeps, and_self]

theorem cmdLnkMsgtxGo_keeps (rq : Requester) (p : LinkSide) (w : Word) (s : State) : Keeps s (cmdLnkMsgtxGo rq p w s) := by
  simp only [Keeps, cmdLnkMsgtxGo, msgTxWrite_keeps, and_self]

theorem execLnkMsgtxGo_keepsQueue (rq : Requester) (p : LinkSide) (w : Word) (s : State) : KeepsQueue s (execLnkMsgtxGo rq p w s) :=
  ⟨_, rfl, by simp only [implies_true, gate_pending, cmdLnkMsgtxGo_keeps]⟩

/-! ## Functions of `Sys2Proof/Machine/Trn.lean` -/

theorem setValueSlot_keeps (lid k : Nat) (x : Slot) (s : State) : Keeps s (setValueSlot lid k x s) := ⟨rfl, rfl⟩

theorem sourceEntry_keeps (lid : Nat) (d : List Byte) (late : Bool) (ms e : Nat) (s : State) :
    Keeps s (sourceEntry lid d late ms e s).2 := by
  simp only [Keeps, sourceEntry, ite_keeps, ite_self, ite_snd, trnCount_keeps, setValueSlot_keeps, and_self]

theorem sourceEntries_keeps (lid : Nat) (d : List Byte) (late : Bool) (ms : Nat) (l : List Nat) (s : State) :
    Keeps s (sourceEntries lid d late ms l s).2 := by
  induction l generalizing s with
  | nil => exact ⟨rfl, rfl⟩
  | cons e r ih => simp only [Keeps, sourceEntries, ih, sourceEntry_keeps, and_self]

theorem packCounts_keeps (lid : Nat) (o : OutRec) (s : State) : Keeps s (packCounts lid o s) := by
  simp only [Keeps, packCounts, trnCount_keeps, and_self]

theorem emitOutput_pending (lid i : Nat) (o : OutRec) (lossless late : Bool) (s : State) :
    (emitOutput lid i o lossless late s).pending = s.pending := by
  simp only [emitOutput, implies_true, applyAll_pending, ite_keeps, ite_self, trnCount_keeps, sendOwn_pending]

theorem onChange_pending (lid : Nat) (updated : List Nat) (lossless : Option Bool) (late : Bool) (i : Nat) (s : State) :
    (onChange lid updated lossless late i s).2.pending = s.pending := by
  simp only [onChange, ite_keeps, ite_self, ite_snd, packCounts_keeps, trnCount_keeps, emitOutput_pending]

theorem onChanges_pending (lid : Nat) (updated : List Nat) (lossless : Option Bool) (late : Bool) (l : List Nat) (s : State) :
    (onChanges lid updated lossless late l s).2.pending = s.pending := by
  induction l generalizing s with
  | nil => rfl
  | cons i r ih => simp only [onChanges, ih, onChange_pending]

theorem handleFrame_pending (lid : Nat) (it : Item) (w : Waybill) (s : State) : (handleFrame lid it w s).2.pending = s.pending := by
  simp only [handleFrame]
  split <;> simp only [trnCount_keeps, freePages_keeps, ite_keeps, ite_self, ite_snd, sourceEntries_keeps, onChanges_pending]

theorem handleTimeout_pending (lid : Nat) (it : Item) (e : Nat) (s : State) : (handleTimeout lid it e s).2.pending = s.pending := by
  simp only [handleTimeout, ite_keeps, ite_self, ite_snd, trnCount_keeps, setValueSlot_keeps, onChanges_pending]

theorem handleSend_pending (lid : Nat) (it : Item) (i : Nat) (s : State) : (handleSend lid it i s).2.pending = s.pending := by
  simp only [handleSend, emitOutput_pending, packCounts_keeps]

theorem handleItem_pending (lid : Nat) (it : Item) (s : State) : (handleItem lid it s).2.pending = s.pending := by
  unfold handleItem
  split <;> simp only [handleFrame_pending, handleTimeout_pending, handleSend_pending]

theorem runItem_pending (lid : Nat) (s : State) : (runItem lid s).pending = s.pending := by
  unfold runItem
  dsimp only
  split
  · rfl
  split
  · rfl
  · split <;> simp only [handleItem_pending, setLodger_keeps, implies_true, underGen_pending]

theorem execFrameItem_keepsQueue (lid : Nat) (s : State) : KeepsQueue s (execFrameItem lid s) :=
  ⟨_, rfl, by split <;> simp only [runItem_pending]⟩

theorem execSourceTimeout_keepsQueue (lid e : Nat) (s : State) : KeepsQueue s (execSourceTimeout lid e s) :=
  ⟨_, rfl, by simp only [implies_true, onlyIf_pending, releaseItem_keeps]⟩

theorem execCyclicRelease_keepsQueue (lid i : Nat) (s : State) : KeepsQueue s (execCyclicRelease lid i s) :=
  ⟨_, rfl, by simp only [implies_true, onlyIf_pending, ite_keeps, ite_self, trnCount_keeps, releaseItem_keeps]⟩

theorem execDeferredSend_keepsQueue (lid i : Nat) (s : State) : KeepsQueue s (execDeferredSend lid i s) :=
  ⟨_, rfl, by simp only [implies_true, onlyIf_pending, releaseItem_keeps]⟩

theorem cmdTrnSigsel_keeps (rq : Requester) (w : Word) (s : State) : Keeps s (cmdTrnSigsel rq w s) := by
  simp only [Keeps, cmdTrnSigsel]
  split <;> simp only [busDone_keeps, setF_keeps, setFree_keeps, setB_keeps, ite_keeps, ite_self, and_self]

theorem execTrnSigsel_keepsQueue (rq : Requester) (w : Word) (s : State) : KeepsQueue s (execTrnSigsel rq w s) :=
  ⟨_, rfl, by simp only [implies_true, gate_pending, cmdTrnSigsel_keeps]⟩

theorem execLodgerPeriodStart_keepsQueue (lid : Nat) (s : State) : KeepsQueue s (execLodgerPeriodStart lid s) :=
  ⟨_, rfl, by simp only [implies_true, onlyIf_pending, setLodger_keeps]⟩

theorem execItemRelease_keepsQueue (lid : Nat) (w : ItemWork) (s : State) : KeepsQueue s (execItemRelease lid w s) :=
  ⟨_, rfl, by simp only [releaseItem_keeps]⟩

theorem execItemDispatch_keepsQueue (s : State) : KeepsQueue s (execItemDispatch s) := by
  refine ⟨_, rfl, onlyIf_pending (fun s => ?_) s⟩
  split
  · rfl
  · dsimp only
    split
    · rfl
    · simp only [setLodger_keeps]

theorem retryFaults_keeps (s : State) : Keeps s (retryFaults s) := by
  simp only [Keeps, retryFaults, applyAll_keeps, implies_true, contextFault_keeps, and_self]

theorem execItemComplete_keepsQueue (lid : Nat) (s : State) : KeepsQueue s (execItemComplete lid s) :=
  ⟨_, rfl, by simp only [implies_true, onlyIf_pending, runItem_pending, retryFaults_keeps, setLodger_keeps]⟩

theorem execDeadlineMiss_keepsQueue (lid : Nat) (s : State) : KeepsQueue s (execDeadlineMiss lid s) :=
  ⟨_, rfl, by dsimp only; split <;> simp only [setLodger_keeps, raise_keeps, incF_keeps, setF_keeps]⟩

theorem execPageInDone_keepsQueue (lid us : Nat) (s : State) : KeepsQueue s (execPageInDone lid us s) :=
  ⟨_, rfl, by simp only [implies_true, onlyIf_pending, setF_keeps, setLodger_keeps]⟩

theorem execPagingMsCheck_keepsQueue (s : State) : KeepsQueue s (execPagingMsCheck s) :=
  ⟨_, rfl, by simp only [setF_keeps, ite_keeps, ite_self, raise_keeps]⟩

/-! ## Functions of `Sys2Proof/Machine/Cabinet.lean` -/

theorem setWearItem_keeps (item inst : Nat) (w : WearItem) (s : State) : Keeps s (setWearItem item inst w s) :=
  ⟨rfl, rfl⟩

theorem wearBump_keeps (item inst n : Nat) (s : State) : Keeps s (wearBump item inst n s) := by
  simp only [Keeps, wearBump, setWearItem_keeps, and_self]

theorem setMotor_keeps (m : Nat) (c : MotorCh) (s : State) : Keeps s (setMotor m c s) := ⟨rfl, rfl⟩

theorem setMotorState_keeps (m st : Nat) (s : State) : Keeps s (setMotorState m st s) := by
  simp only [Keeps, setMotorState, setF_keeps, ite_keeps, ite_self, orF_keeps, clrF_keeps, and_self]

theorem coast_keeps (m : Nat) (s : State) : Keeps s (coast m s) := by
  simp only [Keeps, coast, setMotorState_keeps, setB_keeps, setMotor_keeps, and_self]

theorem motorFault_keeps (m reason : Nat) (s : State) : Keeps s (motorFault m reason s) := by
  simp only [Keeps, motorFault, ite_keeps, ite_self, raise_keeps, setB_keeps, setF_keeps, setMotorState_keeps, coast_keeps, and_self]

theorem dcLink_keeps (m v : Nat) (s : State) : Keeps s (dcLink m v s) := by
  simp only [Keeps, dcLink, setMotor_keeps, setF_keeps, setB_keeps, ite_keeps, ite_self, raise_keeps, motorFault_keeps, and_self]

theorem currentSample_keeps (m i : Nat) (s : State) : Keeps s (currentSample m i s) := by
  simp only [Keeps, currentSample, setF_keeps, ite_keeps, ite_self, setMotor_keeps, motorFault_keeps, and_self]

theorem refreshAdc_keeps (s : State) : Keeps s (refreshAdc s) := by
  simp only [Keeps, refreshAdc, setB_keeps, and_self]

theorem window_keeps (i code w : Nat) (s : State) : Keeps s (window i code w s) := by
  simp only [Keeps, window, ite_keeps, ite_self, orF_keeps, clrF_keeps, raise_keeps, and_self]

theorem conversion_keeps (i code : Nat) (s : State) : Keeps s (conversion i code s) := by
  simp only [Keeps, conversion, applyAll_keeps, implies_true, window_keeps, setF_keeps, ite_keeps, ite_self, wearBump_keeps, and_self]

theorem execAdcConversion_keepsQueue (i code : Nat) (s : State) : KeepsQueue s (execAdcConversion i code s) :=
  ⟨_, rfl, by simp only [implies_true, onlyIf_pending, conversion_keeps, ite_keeps, ite_self, dcLink_keeps]⟩

theorem execPwmTrigger_keepsQueue (m icode vcode : Nat) (waited : Bool) (s : State) :
    KeepsQueue s (execPwmTrigger m icode vcode waited s) :=
  ⟨_, rfl, by simp only [implies_true, onlyIf_pending, ite_keeps, ite_self, incF_keeps, conversion_keeps, dcLink_keeps,
    currentSample_keeps]⟩

theorem motorStop_keeps (m : Nat) (s : State) : Keeps s (motorStop m s) := by
  simp only [Keeps, motorStop, ite_keeps, ite_self, coast_keeps, setMotorState_keeps, setMotor_keeps, and_self]

theorem motorCmd_keeps (m : Nat) (ok : Nat → Bool) (g : State → State) (hg : ∀ s, Keeps s (g s)) (s : State) :
    Keeps s (motorCmd m ok g s) := by
  simp only [Keeps, motorCmd, ite_keeps, hg, busError_keeps, busDone_keeps, ite_self, and_self]

theorem motorRun_keeps (m : Nat) (t : Int) (s : State) : Keeps s (motorRun m t s) := by
  simp only [Keeps, motorRun, ite_keeps, ite_self, setMotorState_keeps, setMotor_keeps, motorStop_keeps, and_self]

theorem motCmdWrite_keeps (m : Nat) (w : Word) (s : State) : Keeps s (motCmdWrite m w s) := by
  unfold motCmdWrite
  split <;> simp only [Keeps, ite_keeps, ite_self, motorCmd_keeps, implies_true, motorRun_keeps, busError_keeps, motorStop_keeps,
    coast_keeps, setMotorState_keeps, and_self]

theorem cmdMotorRun_keeps (rq : Requester) (m : Nat) (w : Word) (s : State) : Keeps s (cmdMotorRun rq m w s) := by
  simp only [Keeps, cmdMotorRun, motCmdWrite_keeps, and_self]

theorem execMotorRun_keepsQueue (rq : Requester) (m : Nat) (w : Word) (s : State) : KeepsQueue s (execMotorRun rq m w s) :=
  ⟨_, rfl, by simp only [implies_true, gate_pending, cmdMotorRun_keeps]⟩

theorem cmdMotorStop_keeps (rq : Requester) (m : Nat) (s : State) : Keeps s (cmdMotorStop rq m s) := by
  simp only [Keeps, cmdMotorStop, motCmdWrite_keeps, and_self]

theorem execMotorStop_keepsQueue (rq : Requester) (m : Nat) (s : State) : KeepsQueue s (execMotorStop rq m s) :=
  ⟨_, rfl, by simp only [implies_true, gate_pending, cmdMotorStop_keeps]⟩

theorem cmdMotorCoast_keeps (rq : Requester) (m : Nat) (s : State) : Keeps s (cmdMotorCoast rq m s) := by
  simp only [Keeps, cmdMotorCoast, motCmdWrite_keeps, and_self]

theorem execMotorCoast_keepsQueue (rq : Requester) (m : Nat) (s : State) : KeepsQueue s (execMotorCoast rq m s) :=
  ⟨_, rfl, by simp only [implies_true, gate_pending, cmdMotorCoast_keeps]⟩

theorem cmdMotorClear_keeps (rq : Requester) (m : Nat) (s : State) : Keeps s (cmdMotorClear rq m s) := by
  simp only [Keeps, cmdMotorClear, motCmdWrite_keeps, and_self]

theorem execMotorClear_keepsQueue (rq : Requester) (m : Nat) (s : State) : KeepsQueue s (execMotorClear rq m s) :=
  ⟨_, rfl, by simp only [implies_true, gate_pending, cmdMotorClear_keeps]⟩

theorem enterRunning_keeps (m : Nat) (s : State) : Keeps s (enterRunning m s) := by
  simp only [Keeps, enterRunning, setMotorState_keeps, setMotor_keeps, ite_keeps, ite_self, wearBump_keeps, and_self]

theorem startFromStand_keeps (m : Nat) (s : State) : Keeps s (startFromStand m s) := by
  simp only [Keeps, startFromStand, ite_keeps, ite_self, enterRunning_keeps, setMotor_keeps, setMotorState_keeps, and_self]

theorem catchAt_keeps (m : Nat) (v : Int) (s : State) : Keeps s (catchAt m v s) := by
  simp only [Keeps, catchAt, enterRunning_keeps, setMotor_keeps, and_self]

theorem showSpeed_keeps (m rpm : Nat) (rev : Bool) (s : State) : Keeps s (showSpeed m rpm rev s) := by
  simp only [Keeps, showSpeed, setF_keeps, setB_keeps, and_self]

theorem execMotorObservationEnd_keepsQueue (m events rpm : Nat) (rev : Bool) (s : State) :
    KeepsQueue s (execMotorObservationEnd m events rpm rev s) := by
  refine ⟨_, rfl, onlyIf_pending (fun s => ?_) s⟩
  dsimp only
  split
  · simp only [startFromStand_keeps, showSpeed_keeps]
  split
  · simp only [ite_keeps, catchAt_keeps, showSpeed_keeps, ite_self]
  split
  · simp only [showSpeed_keeps]
  split <;> simp only [setMotorState_keeps, setMotor_keeps, catchAt_keeps, raise_keeps, setB_keeps, showSpeed_keeps]

theorem execMotorMeasurementEnd_keepsQueue (m events rpm : Nat) (rev : Bool) (s : State) :
    KeepsQueue s (execMotorMeasurementEnd m events rpm rev s) :=
  ⟨_, rfl, by simp only [implies_true, onlyIf_pending, ite_keeps, ite_self, showSpeed_keeps, coast_keeps]⟩

theorem refreshSinus_keeps (m : Nat) (s : State) : Keeps s (refreshSinus m s) := by
  simp only [Keeps, refreshSinus, setB_keeps, and_self]

theorem execMotorPositionEvent_keepsQueue (m code ns : Nat) (s : State) : KeepsQueue s (execMotorPositionEvent m code ns s) := by
  refine ⟨_, rfl, onlyIf_pending (fun s => ?_) s⟩
  extract_lets sector c rev rpm seq s1 s2 v s3
  have h2 : s2.pending = s.pending := by simp only [s2, s1, ite_keeps, showSpeed_keeps, setMotor_keeps, ite_self]
  have h3 : s3.pending = s2.pending := by
    unfold s3
    split <;> simp only [ite_keeps, catchAt_keeps, ite_self]
  simp only [refreshSinus_keeps, h3, h2]

theorem execMotorPwmPeriod_keepsQueue (m : Nat) (s : State) : KeepsQueue s (execMotorPwmPeriod m s) := by
  refine ⟨_, rfl, onlyIf_pending (fun s => ?_) s⟩
  dsimp only
  split
  · simp only [ite_keeps, setMotor_keeps, ite_self]
  split
  · split <;> simp only [setMotor_keeps]
  · simp only [ite_keeps, coast_keeps, setMotorState_keeps, setMotor_keeps, refreshSinus_keeps, ite_self]

theorem execMotorAlignEnd_keepsQueue (m : Nat) (s : State) : KeepsQueue s (execMotorAlignEnd m s) :=
  ⟨_, rfl, by simp only [implies_true, onlyIf_pending, setMotor_keeps]⟩

theorem execMotorHandoverTimeout_keepsQueue (m : Nat) (s : State) : KeepsQueue s (execMotorHandoverTimeout m s) :=
  ⟨_, rfl, by simp only [implies_true, onlyIf_pending, motorFault_keeps]⟩

theorem execMotorStallTimeout_keepsQueue (m : Nat) (s : State) : KeepsQueue s (execMotorStallTimeout m s) :=
  ⟨_, rfl, by simp only [implies_true, onlyIf_pending, motorFault_keeps]⟩

theorem execMotorWaitLimit_keepsQueue (m : Nat) (s : State) : KeepsQueue s (execMotorWaitLimit m s) :=
  ⟨_, rfl, by simp only [implies_true, onlyIf_pending, motorFault_keeps]⟩

theorem execMotorHallInvalid_keepsQueue (m code : Nat) (s : State) : KeepsQueue s (execMotorHallInvalid m code s) :=
  ⟨_, rfl, by simp only [implies_true, onlyIf_pending, motorFault_keeps]⟩

theorem execMotorFltInput_keepsQueue (m : Nat) (s : State) : KeepsQueue s (execMotorFltInput m s) :=
  ⟨_, rfl, by simp only [implies_true, onlyIf_pending, motorFault_keeps]⟩

theorem motTestWrite_keeps (m : Nat) (w : Word) (s : State) : Keeps s (motTestWrite m w s) := by
  simp only [Keeps, motTestWrite, ite_keeps, ite_self, busError_keeps, busDone_keeps, coast_keeps, setMotorState_keeps, setMotor_keeps,
    and_self]

theorem cmdMotorTest_keeps (rq : Requester) (m : Nat) (w : Word) (s : State) : Keeps s (cmdMotorTest rq m w s) := by
  simp only [Keeps, cmdMotorTest, motTestWrite_keeps, and_self]

theorem execMotorTest_keepsQueue (rq : Requester) (m : Nat) (w : Word) (s : State) : KeepsQueue s (execMotorTest rq m w s) :=
  ⟨_, rfl, by simp only [implies_true, gate_pending, cmdMotorTest_keeps]⟩

theorem setLampWaits_keeps (g : Nat) (l : List Nat) (s : State) : Keeps s (setLampWaits g l s) := by
  simp only [Keeps, setLampWaits, setF_keeps, and_self]

theorem setLampState_keeps (n st : Nat) (s : State) : Keeps s (setLampState n st s) := by
  simp only [Keeps, setLampState, setF_keeps, ite_keeps, ite_self, orF_keeps, clrF_keeps, and_self]

theorem dropToken_keeps (n : Nat) (s : State) : Keeps s (dropToken n s) := by
  simp only [Keeps, dropToken, setLampWaits_keeps, ite_keeps, ite_self, setF_keeps, and_self]

theorem lampSwitchOn_keeps (n st : Nat) (s : State) : Keeps s (lampSwitchOn n st s) := by
  simp only [Keeps, lampSwitchOn, wearBump_keeps, incF_keeps, setB_keeps, setLampState_keeps, ite_keeps, ite_self, setWearItem_keeps,
    and_self]

theorem lampAsk_keeps (n : Nat) (s : State) : Keeps s (lampAsk n s) := by
  simp only [Keeps, lampAsk, ite_keeps, ite_self, lampSwitchOn_keeps, setF_keeps, setLampState_keeps, setLampWaits_keeps, and_self]

theorem lampOff_keeps (n : Nat) (s : State) : Keeps s (lampOff n s) := by
  simp only [Keeps, lampOff, setLampState_keeps, setF_keeps, setB_keeps, dropToken_keeps, and_self]

theorem lampsOff_keeps (l : List Nat) (s : State) : Keeps s (lampsOff l s) := by
  simp only [Keeps, lampsOff, applyAll_keeps, implies_true, lampOff_keeps, and_self]

theorem lmpCmdWrite_keeps (n : Nat) (w : Word) (s : State) : Keeps s (lmpCmdWrite n w s) := by
  unfold lmpCmdWrite
  split
  · simp only [Keeps, ite_keeps, ite_self, busError_keeps, setF_keeps, busDone_keeps, and_self]
  split
  · simp only [Keeps, ite_keeps, ite_self, busError_keeps, setF_keeps, busDone_keeps, lampOff_keeps, and_self]
  dsimp only
  split
  · simp only [Keeps, busError_keeps, and_self]
  split
  · simp only [Keeps, setF_keeps, busDone_keeps, lampOff_keeps, and_self]
  · split <;> simp only [Keeps, ite_keeps, ite_self, setF_keeps, busDone_keeps, lampAsk_keeps, and_self]

theorem cmdLampCommand_keeps (rq : Requester) (n : Nat) (w : Word) (s : State) : Keeps s (cmdLampCommand rq n w s) := by
  simp only [Keeps, cmdLampCommand, lmpCmdWrite_keeps, and_self]

theorem execLampCommand_keepsQueue (rq : Requester) (n : Nat) (w : Word) (s : State) : KeepsQueue s (execLampCommand rq n w s) :=
  ⟨_, rfl, by simp only [implies_true, gate_pending, cmdLampCommand_keeps]⟩

theorem execLampTokenGrant_keepsQueue (g : Nat) (s : State) : KeepsQueue s (execLampTokenGrant g s) := by
  refine ⟨_, rfl, onlyIf_pending (fun s => ?_) s⟩
  split
  · rfl
  · simp only [lampSwitchOn_keeps, setF_keeps, setLampWaits_keeps]

theorem lampLatch_keeps (n e : Nat) (s : State) : Keeps s (lampLatch n e s) := by
  simp only [Keeps, lampLatch, raise_keeps, setB_keeps, setLampState_keeps, and_self]

theorem lampFaultOff_keeps (n reason : Nat) (s : State) : Keeps s (lampFaultOff n reason s) := by
  simp only [Keeps, lampFaultOff, incF_keeps, setB_keeps, setF_keeps, dropToken_keeps, and_self]

theorem lampTrip_keeps (n reason : Nat) (s : State) : Keeps s (lampTrip n reason s) := by
  simp only [Keeps, lampTrip, setF_keeps, lampFaultOff_keeps, ite_keeps, ite_self, lampLatch_keeps, setLampState_keeps, and_self]

theorem execLampInrushEnd_keepsQueue (n : Nat) (above : Bool) (s : State) : KeepsQueue s (execLampInrushEnd n above s) :=
  ⟨_, rfl, by simp only [implies_true, onlyIf_pending, ite_keeps, ite_self, lampLatch_keeps, lampFaultOff_keeps, setLampState_keeps,
    dropToken_keeps]⟩

theorem execLampHardShort_keepsQueue (n : Nat) (s : State) : KeepsQueue s (execLampHardShort n s) :=
  ⟨_, rfl, by simp only [implies_true, onlyIf_pending, setB_keeps, lampTrip_keeps]⟩

theorem execLampOvercurrent_keepsQueue (n : Nat) (s : State) : KeepsQueue s (execLampOvercurrent n s) :=
  ⟨_, rfl, by simp only [implies_true, onlyIf_pending, lampTrip_keeps]⟩

theorem execLampGroupLimit_keepsQueue (g : Nat) (s : State) : KeepsQueue s (execLampGroupLimit g s) := by
  refine ⟨_, rfl, onlyIf_pending (fun s => ?_) s⟩
  dsimp only
  split
  · rfl
  · simp only [ite_keeps, raise_keeps, lampTrip_keeps, setB_keeps, ite_self]

theorem execLampDisturbanceEnd_keepsQueue (g : Nat) (s : State) : KeepsQueue s (execLampDisturbanceEnd g s) :=
  ⟨_, rfl, by simp only [implies_true, onlyIf_pending, setB_keeps, ite_keeps, ite_self]⟩

theorem execLampCoolDownEnd_keepsQueue (n : Nat) (s : State) : KeepsQueue s (execLampCoolDownEnd n s) :=
  ⟨_, rfl, by simp only [implies_true, onlyIf_pending, lampAsk_keeps]⟩

theorem execLampBlinkPhase_keepsQueue (n : Nat) (s : State) : KeepsQueue s (execLampBlinkPhase n s) := by
  refine ⟨_, rfl, onlyIf_pending (fun s => ?_) s⟩
  split <;> simp only [setLampState_keeps, dropToken_keeps, lampAsk_keeps]

theorem execLampOpenDetect_keepsQueue (n : Nat) (below : Bool) (s : State) : KeepsQueue s (execLampOpenDetect n below s) :=
  ⟨_, rfl, by simp only [implies_true, onlyIf_pending, ite_keeps, ite_self, raise_keeps, setB_keeps]⟩

theorem execLampTriesReset_keepsQueue (n : Nat) (s : State) : KeepsQueue s (execLampTriesReset n s) :=
  ⟨_, rfl, by simp only [implies_true, onlyIf_pending, setF_keeps]⟩

theorem lmpTestWrite_keeps (w : Word) (s : State) : Keeps s (lmpTestWrite w s) := by
  simp only [Keeps, lmpTestWrite, ite_keeps, ite_self, busError_keeps, busDone_keeps, lampSwitchOn_keeps, dropToken_keeps, and_self]

theorem cmdLampTest_keeps (rq : Requester) (w : Word) (s : State) : Keeps s (cmdLampTest rq w s) := by
  simp only [Keeps, cmdLampTest, lmpTestWrite_keeps, and_self]

theorem execLampTest_keepsQueue (rq : Requester) (w : Word) (s : State) : KeepsQueue s (execLampTest rq w s) :=
  ⟨_, rfl, by simp only [implies_true, gate_pending, cmdLampTest_keeps]⟩

theorem coastAll_keeps (mask : Nat) (s : State) : Keeps s (coastAll mask s) := by
  simp only [Keeps, coastAll, applyAll_keeps, implies_true, coast_keeps, and_self]

theorem groupsOff_keeps (mask : Nat) (s : State) : Keeps s (groupsOff mask s) := by
  simp only [Keeps, groupsOff, lampsOff_keeps, and_self]

/-! ## Functions of `Sys2Proof/Machine/Wear.lean` -/

theorem wearEvent_keeps (f : Fld) (e item inst : Nat) (s : State) : Keeps s (wearEvent f e item inst s) := by
  simp only [Keeps, wearEvent, raise_keeps, setF_keeps, setB_keeps, and_self]

theorem judgeItem_keeps (x : Nat × Nat) (s : State) : Keeps s (judgeItem x s) := by
  unfold judgeItem
  dsimp only
  split <;> simp only [Keeps, setWearItem_keeps, ite_keeps, ite_self, wearEvent_keeps, and_self]

theorem predictItem_keeps (x : Nat × Nat) (s : State) : Keeps s (predictItem x s) := by
  simp only [Keeps, predictItem, ite_keeps, ite_self, setWearItem_keeps, wearEvent_keeps, and_self]

theorem ratedChanged_keeps (s : State) : Keeps s (ratedChanged s) := by
  simp only [Keeps, ratedChanged, setWearItem_keeps, ite_keeps, ite_self, applyAll_keeps, implies_true, judgeItem_keeps, predictItem_keeps,
    and_self]

theorem ledgerSave_keeps (s : State) : Keeps s (ledgerSave s) := by
  unfold ledgerSave
  split <;> simp only [Keeps, setB_keeps, and_self]

theorem execLedgerSave_keepsQueue (s : State) : KeepsQueue s (execLedgerSave s) :=
  ⟨_, rfl, by simp only [implies_true, onlyIf_pending, ledgerSave_keeps]⟩

theorem execLedgerSaveDone_keepsQueue (s : State) : KeepsQueue s (execLedgerSaveDone s) :=
  ⟨_, rfl, by split <;> simp only [storeWrite_keeps, setB_keeps, ite_keeps, ite_self, ledgerSave_keeps]⟩

theorem execLedgerSecond_keepsQueue (s : State) : KeepsQueue s (execLedgerSecond s) :=
  ⟨_, rfl, by simp only [implies_true, onlyIf_pending, wearBump_keeps, ledgerAdvance_keeps, applyAll_pending, judgeItem_keeps]⟩

theorem execTemperatureMeasure_keepsQueue (t : Int) (s : State) : KeepsQueue s (execTemperatureMeasure t s) := by
  refine ⟨_, rfl, onlyIf_pending (fun s => ?_) s⟩
  simp only [ite_keeps, raise_keeps, setF_keeps, ite_self]

theorem execRingOscillatorMeasure_keepsQueue (ppm : List Int) (s : State) : KeepsQueue s (execRingOscillatorMeasure ppm s) :=
  ⟨_, rfl, by simp only [implies_true, onlyIf_pending, applyAll_pending, setWearItem_keeps]⟩

theorem sampleAll_keeps (l : List (Nat × Nat)) (k : Nat) (s : State) : Keeps s (sampleAll l k s) := by
  simp only [Keeps, sampleAll, applyAll_keeps, implies_true, setWearItem_keeps, storeWrite_keeps, and_self]

theorem execMonthlySample_keepsQueue (s : State) : KeepsQueue s (execMonthlySample s) :=
  ⟨_, rfl, by simp only [implies_true, onlyIf_pending, sampleAll_keeps, ledgerSave_keeps, applyAll_pending, predictItem_keeps]⟩

theorem werReset_keeps (rq : Requester) (w : Word) (s : State) : Keeps s (werReset rq w s) := by
  simp only [Keeps, werReset, ite_keeps, ite_self, busError_keeps, ledgerSave_keeps, setWearItem_keeps, busDone_keeps, and_self]

theorem cmdWerReset_keeps (rq : Requester) (w : Word) (s : State) : Keeps s (cmdWerReset rq w s) := by
  simp only [Keeps, cmdWerReset, werReset_keeps, and_self]

theorem execWerReset_keepsQueue (rq : Requester) (w : Word) (s : State) : KeepsQueue s (execWerReset rq w s) :=
  ⟨_, rfl, by simp only [implies_true, gate_pending, cmdWerReset_keeps]⟩

theorem werSel_keeps (w : Word) (s : State) : Keeps s (werSel w s) := by
  simp only [Keeps, werSel, setF_keeps, busDone_keeps, ite_snd, setB_keeps, and_self]

theorem cmdWerSel_keeps (rq : Requester) (w : Word) (s : State) : Keeps s (cmdWerSel rq w s) := by
  simp only [Keeps, cmdWerSel, werSel_keeps, and_self]

theorem execWerSel_keepsQueue (rq : Requester) (w : Word) (s : State) : KeepsQueue s (execWerSel rq w s) :=
  ⟨_, rfl, by simp only [implies_true, gate_pending, cmdWerSel_keeps]⟩

theorem backupCharge_keeps (lastBase lost : Nat) (s : State) : Keeps s (backupCharge lastBase lost s) := by
  simp only [Keeps, backupCharge, ite_keeps, ite_self, wearBump_keeps, and_self]

theorem ledgerLoad_keeps (backup : Bool) (s : State) : Keeps s (ledgerLoad backup s) := by
  unfold ledgerLoad
  split <;> simp only [Keeps, raise_keeps, setB_keeps, ite_keeps, ite_self, ledgerAdvance_keeps, sampleAll_keeps, applyAll_keeps,
    implies_true, predictItem_keeps, backupCharge_keeps, ledgerSave_keeps, and_self]

/-! ## Functions of `Sys2Proof/Machine/Power.lean` -/

theorem copyF_keeps (f : Fld) (src s : State) : Keeps s (copyF f src s) := by
  simp only [Keeps, copyF, setF_keeps, and_self]

theorem pllTry_keeps (s : State) : Keeps s (pllTry s) := by
  simp only [Keeps, pllTry, ite_keeps, ite_self, and_self]

theorem linkStart_keeps (s : State) : Keeps s (linkStart s) := by
  simp only [Keeps, linkStart, applyAll_keeps, implies_true, setLink_keeps, setRxState_keeps, and_self]

theorem rstCause_keeps (f : Fld) (s : State) : Keeps s (rstCause f s) := by
  simp only [Keeps, rstCause, setB_keeps, and_self]

theorem fullReset_pending (cause : Fld) (s : State) : (fullReset cause s).pending = s.pending := by
  simp only [fullReset, ite_keeps, ite_self, rstCause_keeps, copyF_keeps, setF_keeps, setB_keeps]

theorem execResetNAssert_keepsQueue (s : State) : KeepsQueue s (execResetNAssert s) :=
  ⟨_, rfl, by simp only [fullReset_pending]⟩

theorem execResetNRelease_keepsQueue (s : State) : KeepsQueue s (execResetNRelease s) := ⟨_, rfl, rfl⟩

theorem execFullResetEnd_keepsQueue (s : State) : KeepsQueue s (execFullResetEnd s) :=
  ⟨_, rfl, by simp only [implies_true, onlyIf_pending, pllTry_keeps]⟩

theorem clockFault_pending (s : State) : (clockFault s).pending = s.pending := by
  simp only [clockFault, fullReset_pending, setB_keeps, incF_keeps]

theorem execClockFault_keepsQueue (s : State) : KeepsQueue s (execClockFault s) :=
  ⟨_, rfl, by simp only [implies_true, onlyIf_pending, clockFault_pending]⟩

theorem execRootPllLockLoss_keepsQueue (s : State) : KeepsQueue s (execRootPllLockLoss s) := ⟨_, rfl, rfl⟩

theorem execXinAmplitudeGood_keepsQueue (s : State) : KeepsQueue s (execXinAmplitudeGood s) :=
  ⟨_, rfl, by simp only [implies_true, onlyIf_pending, pllTry_keeps, setB_keeps]⟩

theorem execXinStable_keepsQueue (s : State) : KeepsQueue s (execXinStable s) :=
  ⟨_, rfl, by simp only [implies_true, onlyIf_pending, setB_keeps, ite_keeps, ite_self, linkStart_keeps]⟩

theorem execRootPllLock_keepsQueue (us : Nat) (s : State) : KeepsQueue s (execRootPllLock us s) :=
  ⟨_, rfl, by simp only [implies_true, onlyIf_pending, setF_keeps, setB_keeps]⟩

theorem clocksDark_keeps (s : State) : Keeps s (clocksDark s) := by
  simp only [Keeps, clocksDark, setB_keeps, setF_keeps, and_self]

theorem execPowerOnResetAssert_keepsQueue (rail : Rail) (vbatOk : Bool) (s : State) :
    KeepsQueue s (execPowerOnResetAssert rail vbatOk s) :=
  ⟨_, rfl, by simp only [implies_true, onlyIf_pending, setF_keeps, clocksDark_keeps, ite_keeps, ite_self, aonLog_keeps]⟩

theorem execAonSupplyLoss_keepsQueue (s : State) : KeepsQueue s (execAonSupplyLoss s) :=
  ⟨_, rfl, by simp only [implies_true, onlyIf_pending, applyAll_pending, setFree_keeps, drawFree_keeps, setF_keeps]⟩

theorem domainOnIo0_keeps (s : State) : Keeps s (domainOnIo0 s) := by
  simp only [Keeps, domainOnIo0, ite_keeps, ite_self, setMode_keeps, and_self]

theorem execSuppliesValid_keepsQueue (s : State) : KeepsQueue s (execSuppliesValid s) :=
  ⟨_, rfl, by simp only [implies_true, onlyIf_pending, domainOnIo0_keeps]⟩

theorem wakeCause_keeps (s : State) : Keeps s (wakeCause s) := by
  simp only [Keeps, wakeCause, ite_apply, ite_keeps, setF_keeps, setB_keeps, id_eq, ite_self, and_self]

theorem execPowerOnResetRelease_keepsQueue (role boot : Nat) (wpol : Bool) (s : State) :
    KeepsQueue s (execPowerOnResetRelease role boot wpol s) :=
  ⟨_, rfl, by simp only [implies_true, onlyIf_pending, setMode_keeps, setF_keeps, setB_keeps, ite_keeps, ite_self, rstCause_keeps,
    wakeCause_keeps, aonLog_keeps, ledgerLoad_keeps, pllTry_keeps, linkStart_keeps]⟩

theorem tileDown_pending (n : Nat) (s : State) : (tileDown n s).pending = s.pending := by
  simp only [tileDown, setTileBit_keeps, ite_keeps, ite_self, canGoto_keeps, setCan_keeps, canFlush_keeps, serQuiet_pending, serFlush_keeps]

theorem tileWaits_keeps (n : Nat) (s : State) : Keeps s (tileWaits n s) := by
  simp only [Keeps, tileWaits, setUnit_keeps, ite_keeps, ite_self, setF_keeps, and_self]

theorem pcieDown_keeps (s : State) : Keeps s (pcieDown s) := by
  simp only [Keeps, pcieDown, setB_keeps, setF_keeps, and_self]

theorem bootPortsDown_keeps (s : State) : Keeps s (bootPortsDown s) := by
  simp only [Keeps, bootPortsDown, applyAll_keeps, implies_true, ite_keeps, ite_self, setB_keeps, and_self]

theorem bootPortsBack_keeps (s : State) : Keeps s (bootPortsBack s) := by
  simp only [Keeps, bootPortsBack, ite_keeps, ite_self, and_self]

theorem fence_pending (c : Nat) (units : List Nat) (s : State) : (fence c units s).pending = s.pending := by
  unfold fence
  split <;> simp only [implies_true, applyAll_pending, tileDown_pending, portStop_keeps, lampsOff_keeps, coastAll_keeps, refreshAdc_keeps,
    fenceLodger_keeps, declare_keeps, pcieDown_keeps]

theorem setCause_pending (c : Nat) (units : List Nat) (s : State) : (setCause c units s).pending = s.pending := by
  simp only [setCause, ite_keeps, ite_self, orF_keeps, refreshMode_keeps, standbyTrigger_keeps, fence_pending]

theorem clearCause_keeps (c : Nat) (s : State) : Keeps s (clearCause c s) := by
  simp only [Keeps, clearCause, refreshMode_keeps, clrF_keeps, and_self]

theorem showRail_keeps (r : Rail) (ok : Bool) (s : State) : Keeps s (showRail r ok s) := by
  unfold showRail
  split
  · simp only [Keeps, ite_keeps, ite_self, orF_keeps, clrF_keeps, and_self]
  · split <;> simp only [Keeps, setB_keeps, and_self]

theorem railCause_pending (r : Rail) (s : State) : (railCause r s).pending = s.pending := by
  unfold railCause
  split <;> simp only [ite_keeps, ite_self, setCause_pending, bootPortsDown_keeps, pcieDown_keeps, refreshAdc_keeps]

theorem execRailWarnCrossing_keepsQueue (r : Rail) (s : State) : KeepsQueue s (execRailWarnCrossing r s) :=
  ⟨_, rfl, by split <;> simp only [implies_true, onlyIf_pending, raise_keeps, setB_keeps]⟩

theorem execRailFailCrossing_keepsQueue (r : Rail) (s : State) : KeepsQueue s (execRailFailCrossing r s) := by
  refine ⟨_, rfl, ?_⟩
  split
  · simp only [clocksDark_keeps]
  split
  · simp only [clocksDark_keeps]
  · split <;> simp only [ite_keeps, ite_self, implies_true, onlyIf_pending, showRail_keeps, raise_keeps, setB_keeps, clockFault_pending,
      railCause_pending]

theorem railBack_keeps (r : Rail) (s : State) : Keeps s (railBack r s) := by
  unfold railBack
  split <;> simp only [Keeps, pllTry_keeps, ite_keeps, ite_self, refreshBase_keeps, applyAll_keeps, implies_true, tileWaits_keeps,
    clearCause_keeps, bootPortsBack_keeps, refreshAdc_keeps, and_self]

theorem execRailValid_keepsQueue (r : Rail) (classMv : Option Nat) (s : State) : KeepsQueue s (execRailValid r classMv s) := by
  refine ⟨_, rfl, ?_⟩
  split
  · simp only [implies_true, onlyIf_pending, domainOnIo0_keeps]
  · split <;> simp only [ite_keeps, ite_self, implies_true, onlyIf_pending, orF_keeps, clrF_keeps, railBack_keeps, showRail_keeps]

theorem execPllLockLossOther_keepsQueue (p : SidePll) (s : State) : KeepsQueue s (execPllLockLossOther p s) :=
  ⟨_, rfl, by split <;> simp only [implies_true, onlyIf_pending, raise_keeps, setB_keeps, incF_keeps, ite_keeps, ite_self, setCause_pending,
    orF_keeps, clrF_keeps, bootPortsDown_keeps, pcieDown_keeps]⟩

theorem execSerdesPllRelock_keepsQueue (g : Nat) (s : State) : KeepsQueue s (execSerdesPllRelock g s) :=
  ⟨_, rfl, by simp only [implies_true, onlyIf_pending, orF_keeps, ite_keeps, ite_self, bootPortsBack_keeps, clearCause_keeps]⟩

theorem execPcieRefStable_keepsQueue (s : State) : KeepsQueue s (execPcieRefStable s) :=
  ⟨_, rfl, by simp only [clearCause_keeps, setB_keeps]⟩

theorem shed_keeps (s : State) : Keeps s (shed s) := by
  simp only [Keeps, shed, groupsOff_keeps, coastAll_keeps, setB_keeps, applyAll_keeps, implies_true, portStop_keeps, and_self]

theorem execPfailFall_keepsQueue (s : State) : KeepsQueue s (execPfailFall s) :=
  ⟨_, rfl, by simp only [implies_true, onlyIf_pending, ite_keeps, ite_self, ledgerSave_keeps, raise_keeps, setB_keeps, shed_keeps]⟩

theorem execPfailRise_keepsQueue (s : State) : KeepsQueue s (execPfailRise s) :=
  ⟨_, rfl, by simp only [ite_keeps, ite_self, setB_keeps]⟩

theorem execPfailRestoreExpiry_keepsQueue (s : State) : KeepsQueue s (execPfailRestoreExpiry s) :=
  ⟨_, rfl, by simp only [implies_true, onlyIf_pending, setB_keeps]⟩

theorem wipeRam_pending (w : World) (s : State) : (wipeRam w s).pending = s.pending := rfl

theorem wdsRestart_keeps (s : State) : Keeps s (wdsRestart s) := ⟨rfl, rfl⟩

theorem worldReset_pending (w : World) (cause : Fld) (decl : Nat) (s : State) : (worldReset w cause decl s).pending = s.pending := by
  simp only [worldReset, rstCause_keeps, ite_keeps, ite_self, declareWorld_keeps, ringsReset_keeps, canWorldReset_keeps, wipeRam_pending,
    setB_keeps, setF_keeps, wdsRestart_keeps, setCause_pending]

theorem rstctlWrite_pending (rq : Requester) (action key : Nat) (s : State) : (rstctlWrite rq action key s).pending = s.pending := by
  unfold rstctlWrite
  split
  · rw [(busError_keeps s).1]
  · split <;> simp only [secureOnly_pending, fullReset_pending, worldReset_pending, busDone_keeps, implies_true]

theorem cmdSystemSoftwareReset_pending (rq : Requester) (key : Nat) (s : State) :
    (cmdSystemSoftwareReset rq key s).pending = s.pending := by
  simp only [cmdSystemSoftwareReset, rstctlWrite_pending]

theorem execSystemSoftwareReset_keepsQueue (rq : Requester) (key : Nat) (s : State) :
    KeepsQueue s (execSystemSoftwareReset rq key s) :=
  ⟨_, rfl, by simp only [implies_true, gate_pending, cmdSystemSoftwareReset_pending]⟩

theorem cmdNormalWorldResetCmd_pending (rq : Requester) (key : Nat) (s : State) :
    (cmdNormalWorldResetCmd rq key s).pending = s.pending := by
  simp only [cmdNormalWorldResetCmd, rstctlWrite_pending]

theorem execNormalWorldResetCmd_keepsQueue (rq : Requester) (key : Nat) (s : State) :
    KeepsQueue s (execNormalWorldResetCmd rq key s) :=
  ⟨_, rfl, by simp only [implies_true, gate_pending, cmdNormalWorldResetCmd_pending]⟩

theorem cmdSecureWorldResetCmd_pending (rq : Requester) (key : Nat) (s : State) :
    (cmdSecureWorldResetCmd rq key s).pending = s.pending := by
  simp only [cmdSecureWorldResetCmd, rstctlWrite_pending]

theorem execSecureWorldResetCmd_keepsQueue (rq : Requester) (key : Nat) (s : State) :
    KeepsQueue s (execSecureWorldResetCmd rq key s) :=
  ⟨_, rfl, by simp only [implies_true, gate_pending, cmdSecureWorldResetCmd_pending]⟩

theorem wdnRestart_keeps (s : State) : Keeps s (wdnRestart s) := by
  simp only [Keeps, wdnRestart, setF_keeps, and_self]

theorem wdnWrite_keeps (w : Word) (s : State) : Keeps s (wdnWrite w s) := by
  simp only [Keeps, wdnWrite, ite_keeps, ite_self, busError_keeps, setF_keeps, busDone_keeps, wdnRestart_keeps, setB_keeps, and_self]

theorem cmdNormalWatchdogEnable_keeps (rq : Requester) (w : Word) (s : State) : Keeps s (cmdNormalWatchdogEnable rq w s) := by
  simp only [Keeps, cmdNormalWatchdogEnable, wdnWrite_keeps, and_self]

theorem execNormalWatchdogEnable_keepsQueue (rq : Requester) (w : Word) (s : State) :
    KeepsQueue s (execNormalWatchdogEnable rq w s) :=
  ⟨_, rfl, by simp only [implies_true, gate_pending, cmdNormalWatchdogEnable_keeps]⟩

theorem wdnKick_keeps (key : Nat) (s : State) : Keeps s (wdnKick key s) := by
  simp only [Keeps, wdnKick, ite_keeps, ite_self, wdnRestart_keeps, setB_keeps, busDone_keeps, and_self]

theorem cmdNormalWatchdogKick_keeps (rq : Requester) (key : Nat) (s : State) : Keeps s (cmdNormalWatchdogKick rq key s) := by
  simp only [Keeps, cmdNormalWatchdogKick, wdnKick_keeps, and_self]

theorem execNormalWatchdogKick_keepsQueue (rq : Requester) (key : Nat) (s : State) : KeepsQueue s (execNormalWatchdogKick rq key s) :=
  ⟨_, rfl, by simp only [implies_true, gate_pending, cmdNormalWatchdogKick_keeps]⟩

theorem execNormalWatchdogExpiry_keepsQueue (s : State) : KeepsQueue s (execNormalWatchdogExpiry s) :=
  ⟨_, rfl, by simp only [implies_true, onlyIf_pending, ite_keeps, ite_self, worldReset_pending, raise_keeps, wdnRestart_keeps, setB_keeps]⟩

theorem cmdSecureWatchdogKick_keeps (rq : Requester) (key : Nat) (s : State) : Keeps s (cmdSecureWatchdogKick rq key s) := by
  simp only [Keeps, cmdSecureWatchdogKick, secureOnly_keeps, implies_true, ite_keeps, ite_self, wdsRestart_keeps, busDone_keeps, and_self]

theorem execSecureWatchdogKick_keepsQueue (rq : Requester) (key : Nat) (s : State) : KeepsQueue s (execSecureWatchdogKick rq key s) :=
  ⟨_, rfl, by simp only [implies_true, gate_pending, cmdSecureWatchdogKick_keeps]⟩

theorem execSecureWatchdogExpiry_keepsQueue (s : State) : KeepsQueue s (execSecureWatchdogExpiry s) :=
  ⟨_, rfl, by simp only [implies_true, onlyIf_pending, raise_keeps, worldReset_pending]⟩

theorem readyWrite_keeps (rq : Requester) (w : Word) (s : State) : Keeps s (readyWrite rq w s) := by
  simp only [Keeps, readyWrite, ite_keeps, ite_self, busError_keeps, clearCause_keeps, busDone_keeps, and_self]

theorem cmdPwrReadyWrite_keeps (rq : Requester) (w : Word) (s : State) : Keeps s (cmdPwrReadyWrite rq w s) := by
  simp only [Keeps, cmdPwrReadyWrite, readyWrite_keeps, and_self]

theorem execPwrReadyWrite_keepsQueue (rq : Requester) (w : Word) (s : State) : KeepsQueue s (execPwrReadyWrite rq w s) :=
  ⟨_, rfl, by simp only [implies_true, gate_pending, cmdPwrReadyWrite_keeps]⟩

theorem standbyRefuse_keeps (why : Nat) (s : State) : Keeps s (standbyRefuse why s) := by
  simp only [Keeps, standbyRefuse, setB_keeps, setF_keeps, and_self]

theorem modeReqWrite_keeps (w : Word) (s : State) : Keeps s (modeReqWrite w s) := by
  simp only [Keeps, modeReqWrite, ite_keeps, ite_self, busError_keeps, busDone_keeps, standbyRefuse_keeps, lampsOff_keeps, and_self]

theorem cmdStandbyRequest_keeps (rq : Requester) (w : Word) (s : State) : Keeps s (cmdStandbyRequest rq w s) := by
  simp only [Keeps, cmdStandbyRequest, modeReqWrite_keeps, and_self]

theorem execStandbyRequest_keepsQueue (rq : Requester) (w : Word) (s : State) : KeepsQueue s (execStandbyRequest rq w s) :=
  ⟨_, rfl, by simp only [implies_true, gate_pending, cmdStandbyRequest_keeps]⟩

theorem execStandbyCoreWaitTimeout_keepsQueue (s : State) : KeepsQueue s (execStandbyCoreWaitTimeout s) :=
  ⟨_, rfl, by simp only [implies_true, onlyIf_pending, standbyRefuse_keeps]⟩

theorem restartPeriods_keeps (s : State) : Keeps s (restartPeriods s) := by
  simp only [Keeps, restartPeriods, and_self]

theorem advanceNs_keeps (ns : Nat) (s : State) : Keeps s (advanceNs ns s) := by
  unfold advanceNs
  exact ⟨rfl, rfl⟩

theorem execStandbyExit_keepsQueue (refCycles : Nat) (s : State) : KeepsQueue s (execStandbyExit refCycles s) :=
  ⟨_, rfl, by simp only [implies_true, onlyIf_pending, setB_keeps, setF_keeps, advanceNs_keeps, wakeRelease_keeps, restartPeriods_keeps,
    releaseHeld_keeps, refreshAdc_keeps, refreshBase_keeps]⟩

theorem execLifecycleBurnDone_keepsQueue (s : State) : KeepsQueue s (execLifecycleBurnDone s) :=
  ⟨_, rfl, by split <;> simp only [fullReset_pending]⟩

/-! ## Functions of `Sys2Proof/Machine/Ploilhan.lean` -/

theorem hieOut_pending (p : Nat) (boot : Bool) (f : List Byte) (s : State) : (hieOut p boot f s).pending = s.pending := by
  simp only [hieOut, ite_keeps, ite_self, unitFrame_pending, emit_keeps]

theorem consistSlot_keeps (s : State) : Keeps s (consistSlot s).2 := by
  simp only [Keeps, consistSlot, hwLoad_keeps, and_self]

theorem consistSlot_keeps_of_eq {s t : State} {o : Option Nat} (h : consistSlot s = (o, t)) : Keeps s t := by
  simpa only [Keeps, h] using consistSlot_keeps s

theorem nextCounter_keeps (s : State) : Keeps s (nextCounter s).2 := by
  simp only [Keeps, nextCounter, ite_keeps, ite_self, ite_snd, storeWrite_keeps, setF_keeps, and_self]

theorem hieSend_pending (type dst : Nat) (boot : Bool) (payload : List Byte) (s : State) :
    (hieSend type dst boot payload s).pending = s.pending := by
  have hgo (g : State → Nat → List Byte) (s : State) :
      (incF HIE_TXCNT_cnt 1 (applyAll (portsTo dst s) (fun p t => hieOut p boot (g t p) t) s)).pending = s.pending := by
    simp only [incF_keeps, applyAll_pending, hieOut_pending, implies_true]
  unfold hieSend
  extract_lets src go
  split
  · exact hgo _ s
  split
  · next h => exact (consistSlot_keeps_of_eq h).1
  · next h =>
    extract_lets c msg
    split
    · next hc => rw [(hwCmac_keeps_of_eq hc).1, (nextCounter_keeps _).1, (consistSlot_keeps_of_eq h).1]
    · next hc => rw [hgo, (hwCmac_keeps_of_eq hc).1, (nextCounter_keeps _).1, (consistSlot_keeps_of_eq h).1]

theorem relay_pending (p : Nat) (f : List Byte) (s : State) : (relay p f s).pending = s.pending := by
  simp only [relay, ite_keeps, ite_self, hieOut_pending]

theorem takeMsg_pending {type : Nat} {ok : PMsg → Bool} {g : PMsg → State → State} (hg : ∀ m s, (g m s).pending = s.pending) (s : State) :
    (takeMsg type ok g s).pending = s.pending := by
  unfold takeMsg
  split
  · rfl
  · simp only [ite_keeps, hg, ite_self]

/-! ## Functions of `Sys2Proof/Machine/Loader.lean` -/

theorem bringUp_keeps (s : State) : Keeps s (bringUp s) := by
  simp only [Keeps, bringUp, ite_keeps, ite_self, and_self]

theorem ddrDecide_keeps (s : State) : Keeps s (ddrDecide s) := ⟨rfl, rfl⟩

theorem clearNodes_keeps (s : State) : Keeps s (clearNodes s) := by
  simp only [Keeps, clearNodes, applyAll_keeps, implies_true, storeWrite_keeps, and_self]

theorem genRoot_keeps (s : State) : Keeps s (genRoot s) := by
  simp only [Keeps, genRoot, ite_keeps, ite_self, clearNodes_keeps, and_self]

theorem drbgStart_keeps (s : State) : Keeps s (drbgStart s) := by
  simp only [Keeps, drbgStart, ite_keeps, ite_self, setB_keeps, and_self]

theorem showFail_keeps (f : ImgFail) (s : State) : Keeps s (showFail f s) := by
  simp only [Keeps, showFail, setF_keeps, and_self]

theorem quarantine_keeps (f : ImgFail) (s : State) : Keeps s (quarantine f s) := by
  simp only [Keeps, quarantine, setF_keeps, showFail_keeps, setMode_keeps, and_self]

theorem flashRead_keeps (off n dummy : Nat) (cmd : List Byte) (s : State) : Keeps s (flashRead off n dummy cmd s) := by
  simp only [Keeps, flashRead, emit_keeps, and_self]

theorem headerPhase_keeps (s : State) : Keeps s (headerPhase s) := by
  simp only [Keeps, headerPhase, setF_keeps, setB_keeps, flashRead_keeps, and_self]

theorem loadFail_keeps (f : ImgFail) (s : State) : Keeps s (loadFail f s) := by
  simp only [Keeps, loadFail, ite_keeps, ite_self, headerPhase_keeps, setF_keeps, setB_keeps, quarantine_keeps, and_self]

theorem requestPieces_pending (img first count : Nat) (s : State) : (requestPieces img first count s).pending = s.pending := by
  simp only [requestPieces, hieSend_pending]

theorem execLoadingEntry_keepsQueue (s : State) : KeepsQueue s (execLoadingEntry s) :=
  ⟨_, rfl, by simp only [implies_true, onlyIf_pending, drbgStart_keeps, genRoot_keeps, ddrDecide_keeps, bringUp_keeps, setMode_keeps,
    ite_keeps, ite_self, quarantine_keeps, requestPieces_pending, setF_keeps, headerPhase_keeps]⟩

theorem execBootQuarantine_keepsQueue (s : State) : KeepsQueue s (execBootQuarantine s) :=
  ⟨_, rfl, by simp only [implies_true, onlyIf_pending, quarantine_keeps, bringUp_keeps, ddrDecide_keeps]⟩

theorem execImageHeaderCheck_keepsQueue (hdr : List Byte) (s : State) : KeepsQueue s (execImageHeaderCheck hdr s) := by
  refine ⟨_, rfl, onlyIf_pending (fun s => ?_) s⟩
  split
  · exact (loadFail_keeps _ _).1
  · simp only [flashRead_keeps, setF_keeps, setB_keeps]

theorem execImageVerify_keepsQueue (img : List Byte) (s : State) : KeepsQueue s (execImageVerify img s) := by
  refine ⟨_, rfl, onlyIf_pending (fun s => ?_) s⟩
  split
  · exact (loadFail_keeps _ _).1
  · simp only [setF_keeps, ite_keeps, wearBump_keeps, setMode_keeps, ite_self]

theorem tableRegs_keeps (t : TableRec) (s : State) : Keeps s (tableRegs t s) := by
  simp only [Keeps, tableRegs, setF_keeps, setB_keeps, and_self]

theorem seedsReset_keeps (s : State) : Keeps s (seedsReset s) := by
  simp only [Keeps, seedsReset, setF_keeps, applyAll_keeps, implies_true, and_self]

theorem execBuild_keepsQueue (ddrOk : Bool) (s : State) : KeepsQueue s (execBuild ddrOk s) := by
  refine ⟨_, rfl, onlyIf_pending (fun s => ?_) s⟩
  dsimp only
  split
  · simp only [loadFail_keeps, ite_keeps, setB_keeps, ite_self]
  · simp only [ite_keeps, setB_keeps, ite_self]

/-! ## Functions of `Sys2Proof/Machine/CutOver.lean` -/

theorem tileClear_keeps (n : Nat) (s : State) : Keeps s (tileClear n s) := by
  simp only [Keeps, tileClear, setF_keeps, setB_keeps, setTileBit_keeps, and_self]

theorem tileForm_keeps (t : TileRec) (s : State) : Keeps s (tileForm t s) := by
  simp only [Keeps, tileForm, setF_keeps, setB_keeps, tileClear_keeps, ite_keeps, ite_self, and_self]

theorem portForm_keeps (b : BindRec) (s : State) : Keeps s (portForm b s) := by
  simp only [Keeps, portForm, ite_keeps, ite_self, setF_keeps, and_self]

theorem portStart_keeps (p : Nat) (s : State) : Keeps s (portStart p s) := by
  simp only [Keeps, portStart, ite_keeps, ite_self, plcaUp_keeps, and_self]

theorem cabForm_keeps (c : CabRec) (s : State) : Keeps s (cabForm c s) := by
  unfold cabForm
  split <;> simp only [Keeps, setF_keeps, setB_keeps, and_self]

theorem policyForm_keeps (p : PolicyRec) (s : State) : Keeps s (policyForm p s) := by
  simp only [Keeps, policyForm, setB_keeps, setF_keeps, debounceLength_keeps, applyPolarity_keeps, and_self]

theorem presetReg_keeps (r : RegRec) (s : State) : Keeps s (presetReg r s) := by
  unfold presetReg
  split
  · simp only [Keeps, setCb_keeps, and_self]
  split
  · simp only [Keeps, ite_keeps, ite_self, bankSwap_keeps, and_self]
  split
  · simp only [Keeps, freshWrite_keeps, and_self]
  · split <;> simp only [Keeps, ite_keeps, ite_self, applyStaged_keeps, writeFields_keeps, and_self]

theorem applyRegset_keeps (l : List RegRec) (s : State) : Keeps s (applyRegset l s) := by
  simp only [Keeps, applyRegset, applyAll_keeps, implies_true, gateCommit_keeps, presetReg_keeps, and_self]

theorem formPools_keeps (s : State) : Keeps s (formPools s) := by
  simp only [Keeps, formPools, setF_keeps, setB_keeps, and_self]

theorem lodgerNew_keeps (lid : Nat) (s : State) : Keeps s (lodgerNew lid s) := by
  simp only [Keeps, lodgerNew, ite_keeps, ite_self, setLodger_keeps, pinIn_keeps, and_self]

theorem hieStart_keeps (s : State) : Keeps s (hieStart s) := by
  unfold hieStart
  extract_lets n store s1 s2 e store2 d t hie s3
  have h1 : Keeps s s1 := by simp only [Keeps, s1, storeWrite_keeps, setF_keeps, and_self]
  have h2 : Keeps s s2 := by
    simp only [Keeps, s2]
    split <;> next h => simp only [setSlot_keeps, consistSlot_keeps_of_eq h, h1, and_self]
  have h3 : Keeps s s3 := by simp only [Keeps, s3, t, d, drbgBytes_keeps, h2, and_self]
  clear_value s2 s3
  split
  · exact ⟨rfl, rfl⟩
  split
  · simp only [Keeps, setF_keeps, setB_keeps, storeWrite_keeps, h2, and_self]
  · simp only [Keeps, ite_keeps, setF_keeps, h3, ite_self, and_self]

theorem recordCauses_pending (l : List (Nat × List Nat)) (s : State) : (recordCauses l s).pending = s.pending := by
  simp only [recordCauses, implies_true, applyAll_pending, fence_pending, orF_keeps]

theorem evcActivate_keeps (s : State) : Keeps s (evcActivate s) := by
  simp only [Keeps, evcActivate, setB_keeps, applyAll_keeps, implies_true, raiseNow_keeps, and_self]

theorem showDigest_keeps (d : List Byte) (s : State) : Keeps s (showDigest d s) := by
  simp only [Keeps, showDigest, applyAll_keeps, implies_true, setF_keeps, and_self]

theorem countL2_keeps (s : State) : Keeps s (countL2 s) := by
  simp only [Keeps, countL2, setF_keeps, and_self]

theorem trnIndex_keeps (s : State) : Keeps s (trnIndex s) := by
  simp only [Keeps, trnIndex, setF_keeps, and_self]

theorem formAll_keeps (x : Structure) (s : State) : Keeps s (formAll x s) := by
  simp only [Keeps, formAll, applyAll_keeps, implies_true, tileForm_keeps, cabForm_keeps, portForm_keeps, trnIndex_keeps, countL2_keeps,
    tableRegs_keeps, applyRegset_keeps, policyForm_keeps, and_self]

theorem execCutOver_keepsQueue (s : State) : KeepsQueue s (execCutOver s) :=
  ⟨_, rfl, by simp only [implies_true, onlyIf_pending, formAll_keeps, applyAll_pending, setB_keeps, formPools_keeps, lodgerNew_keeps,
    setF_keeps, showDigest_keeps, recordCauses_pending, hieStart_keeps, setMode_keeps, ite_keeps, ite_self, portStart_keeps,
    evcActivate_keeps, pcieDown_keeps, ratedChanged_keeps, refreshAdc_keeps, shed_keeps]⟩

theorem startup_keeps (s : State) : Keeps s (startup s) := by
  simp only [Keeps, startup, setB_keeps, setF_keeps, and_self]

theorem execTileStart_keepsQueue (n : Nat) (s : State) : KeepsQueue s (execTileStart n s) :=
  ⟨_, rfl, by simp only [implies_true, onlyIf_pending, setTileBit_keeps, startup_keeps, ite_keeps, ite_self, canGoto_keeps, setCan_keeps,
    linWakeStart_keeps, serStart_keeps]⟩

theorem execCanIntegrationDone_keepsQueue (n : Nat) (s : State) : KeepsQueue s (execCanIntegrationDone n s) :=
  ⟨_, rfl, by simp only [implies_true, onlyIf_pending, canGoto_keeps]⟩

theorem execAllowanceRampTick_keepsQueue (s : State) : KeepsQueue s (execAllowanceRampTick s) :=
  ⟨_, rfl, by simp only [implies_true, onlyIf_pending, startup_keeps, incF_keeps]⟩

/-! ## Functions of `Sys2Proof/Machine/Delta.lean` -/

theorem deltaRefuse_keeps (why : Nat) (s : State) : Keeps s (deltaRefuse why s) := by
  simp only [Keeps, deltaRefuse, setB_keeps, setF_keeps, and_self]

theorem deltaReport_pending (owner : Nat) (s : State) : (deltaReport owner s).pending = s.pending := by
  simp only [deltaReport, ite_keeps, ite_self, hieSend_pending]

theorem sessionClear_keeps (code : Nat) (s : State) : Keeps s (sessionClear code s) := by
  simp only [Keeps, sessionClear, setF_keeps, setB_keeps, and_self]

theorem deltaEnd_pending (code : Nat) (s : State) : (deltaEnd code s).pending = s.pending := by
  simp only [deltaEnd, ite_keeps, ite_self, deltaReport_pending, sessionClear_keeps, setLease_keeps]

theorem execStandbyEntryComplete_keepsQueue (s : State) : KeepsQueue s (execStandbyEntryComplete s) :=
  ⟨_, rfl, by simp only [implies_true, onlyIf_pending, ledgerSave_keeps, deltaEnd_pending, setB_keeps, setF_keeps, refreshAdc_keeps,
    setMode_keeps]⟩

theorem deltaOpen_keeps (rq : Requester) (s : State) : Keeps s (deltaOpen rq s) := by
  unfold deltaOpen
  dsimp only
  split
  · exact deltaRefuse_keeps _ s
  split
  · exact deltaRefuse_keeps _ s
  split
  · simp only [Keeps, setB_keeps, setFree_keeps, countFull_keeps, and_self]
  · next h => simp only [Keeps, setF_keeps, grantLease_keeps h, and_self]

theorem cmdDeltaOpen_keeps (rq : Requester) (s : State) : Keeps s (cmdDeltaOpen rq s) := by
  simp only [Keeps, cmdDeltaOpen, deltaOpen_keeps, busDone_keeps, and_self]

theorem execDeltaOpen_keepsQueue (rq : Requester) (s : State) : KeepsQueue s (execDeltaOpen rq s) :=
  ⟨_, rfl, by simp only [implies_true, gate_pending, cmdDeltaOpen_keeps]⟩

theorem deltaDeliver_keeps (off len : Nat) (src : Option (List Byte)) (s : State) : Keeps s (deltaDeliver off len src s) := by
  simp only [Keeps, deltaDeliver, ite_keeps, ite_self, deltaRefuse_keeps, setB_keeps, setLease_keeps, and_self]

theorem cmdDeltaDelivery_keeps (rq : Requester) (w : Word) (s : State) : Keeps s (cmdDeltaDelivery rq w s) := by
  simp only [Keeps, cmdDeltaDelivery, ite_keeps, ite_self, busDone_keeps, busError_keeps, deltaDeliver_keeps, and_self]

theorem execDeltaDelivery_keepsQueue (rq : Requester) (w : Word) (s : State) : KeepsQueue s (execDeltaDelivery rq w s) :=
  ⟨_, rfl, by simp only [implies_true, gate_pending, cmdDeltaDelivery_keeps]⟩

theorem headPiece_pending (b : List Byte) (s : State) : (headPiece b s).pending = s.pending := by
  unfold headPiece
  dsimp only
  split
  · split <;> simp only [ite_keeps, ite_self, deltaEnd_pending, setF_keeps, showFail_keeps, deltaRefuse_keeps]
  · simp only [ite_keeps, ite_self, deltaRefuse_keeps]

theorem blockPiece_keeps (blk off bad : Nat) (b : List Byte) (s : State) : Keeps s (blockPiece blk off bad b s) := by
  unfold blockPiece
  dsimp only
  split
  · exact ⟨rfl, rfl⟩
  split
  · next h => simp only [Keeps, incF_keeps, hwLoad_keeps_of_eq h, and_self]
  · next h =>
    split
    · next hc => simp only [Keeps, incF_keeps, hwCmac_keeps_of_eq hc, hwLoad_keeps_of_eq h, and_self]
    · next hc => simp only [Keeps, ite_keeps, setF_keeps, incF_keeps, hwCmac_keeps_of_eq hc, hwLoad_keeps_of_eq h, ite_self, and_self]

/-- A delivered piece of a delta, the table's head or a block, reported or not, keeps the queue. -/
theorem execDeltaDeliveryDone_keepsQueue (bad : Nat) (s : State) : KeepsQueue s (execDeltaDeliveryDone bad s) := by
  refine ⟨_, rfl, ?_⟩
  split
  · rfl
  · dsimp only
    split
    · simp only [ite_keeps, deltaRefuse_keeps, deltaReport_pending, setB_keeps, ite_self]
    · split
      · simp only [ite_keeps, headPiece_pending, deltaReport_pending, setB_keeps, ite_self]
      · simp only [ite_keeps, headPiece_pending, blockPiece_keeps, deltaReport_pending, setB_keeps, ite_self]

theorem closeFail_pending (f : ImgFail) (s : State) : (closeFail f s).pending = s.pending := by
  simp only [closeFail, raise_keeps, deltaEnd_pending, setF_keeps, showFail_keeps]

theorem deltaClose_pending (s : State) : (deltaClose s).pending = s.pending := by
  unfold deltaClose
  split
  · simp only [deltaRefuse_keeps]
  split
  · simp only [closeFail_pending]
  dsimp only
  split <;> simp only [closeFail_pending, setLease_keeps, deltaReport_pending, refreshMode_keeps, setF_keeps]

theorem cmdDeltaClose_pending (rq : Requester) (s : State) : (cmdDeltaClose rq s).pending = s.pending := by
  simp only [cmdDeltaClose, ite_keeps, ite_self, deltaClose_pending, busDone_keeps, busError_keeps]

theorem execDeltaClose_keepsQueue (rq : Requester) (s : State) : KeepsQueue s (execDeltaClose rq s) :=
  ⟨_, rfl, by simp only [implies_true, gate_pending, cmdDeltaClose_pending]⟩

theorem cmdDeltaAbort_pending (rq : Requester) (s : State) : (cmdDeltaAbort rq s).pending = s.pending := by
  simp only [cmdDeltaAbort, ite_keeps, ite_self, deltaEnd_pending, busDone_keeps, busError_keeps]

theorem execDeltaAbort_keepsQueue (rq : Requester) (s : State) : KeepsQueue s (execDeltaAbort rq s) :=
  ⟨_, rfl, by simp only [implies_true, gate_pending, cmdDeltaAbort_pending]⟩

theorem loaderTakes_keeps (b : Nat) (s : State) : Keeps s (loaderTakes b s) := by
  unfold loaderTakes
  split
  · next h => exact grantLease_keeps h
  · exact ⟨rfl, rfl⟩

theorem loaderRelease_keeps (s : State) : Keeps s (loaderRelease s) := ⟨rfl, rfl⟩

theorem tileQuietNow_pending (n : Nat) (s : State) : (tileQuietNow n s).pending = s.pending := by
  simp only [tileQuietNow, ite_keeps, ite_self, canFlush_keeps, handAll_pending, canEvt_keeps, orF_keeps, setF_keeps, canGoto_keeps,
    setCan_keeps, serQuiet_pending, setTileBit_keeps]

theorem quiesce_pending (s : State) : (quiesce s).pending = s.pending := by
  simp only [quiesce, setF_keeps, implies_true, applyAll_pending, tileQuietNow_pending]

theorem rollback_keeps (f : ImgFail) (s : State) : Keeps s (rollback f s) := by
  simp only [Keeps, rollback, refreshMode_keeps, raise_keeps, setF_keeps, showFail_keeps, sessionClear_keeps, loaderRelease_keeps, and_self]

theorem execDeltaPrepareDone_keepsQueue (s : State) : KeepsQueue s (execDeltaPrepareDone s) := by
  refine ⟨_, rfl, onlyIf_pending (fun s => ?_) s⟩
  split
  · exact (rollback_keeps _ _).1
  · simp only [ite_keeps, quiesce_pending, applyAll_keeps loaderTakes_keeps, ite_self]

theorem execDeltaLockAcquired_keepsQueue (s : State) : KeepsQueue s (execDeltaLockAcquired s) :=
  ⟨_, rfl, by split <;> simp only [loaderTakes_keeps, ite_keeps, ite_self, quiesce_pending]⟩

theorem execTileQuiet_keepsQueue (n : Nat) (s : State) : KeepsQueue s (execTileQuiet n s) :=
  ⟨_, rfl, by simp only [implies_true, onlyIf_pending, tileQuietNow_pending]⟩

theorem tileWakeClear_keeps (n : Nat) (s : State) : Keeps s (tileWakeClear n s) := by
  simp only [Keeps, tileWakeClear, writeDone_keeps, setUnit_keeps, and_self]

theorem rebuildTiles_keeps (banks : Nat) (x : Structure) (s : State) : Keeps s (rebuildTiles banks x s) := by
  simp only [Keeps, rebuildTiles, applyAll_keeps, implies_true, ite_keeps, ite_self, canFlush_keeps, serFlush_keeps, tileForm_keeps,
    tileClear_keeps, tileWakeClear_keeps, and_self]

theorem flushUnit_keeps (p : Nat) (s : State) : Keeps s (flushUnit p s) := by
  simp only [Keeps, flushUnit, ite_keeps, ite_self, applyAll_keeps, implies_true, discard_keeps, setQueue_keeps, flushPort_keeps, and_self]

theorem rebuildPorts_keeps (old new : List BindRec) (s : State) : Keeps s (rebuildPorts old new s) := by
  refine keeps_trans (applyAll_keeps (fun p t => ?_) s) (applyAll_keeps (fun p t => ?_) _)
  · simp only [Keeps, ite_keeps, portStop_keeps, flushUnit_keeps, ite_self, and_self]
  · dsimp only
    split <;> simp only [Keeps, portStart_keeps, portForm_keeps, and_self]

theorem rebuildCabinet_keeps (old new : List CabRec) (s : State) : Keeps s (rebuildCabinet old new s) := by
  refine keeps_trans (applyAll_keeps (fun u t => ?_) s) (applyAll_keeps (fun u t => ?_) _)
  · split <;> simp only [Keeps, ite_keeps, lampOff_keeps, groupsOff_keeps, ite_self, and_self]
  · split <;> simp only [Keeps, cabForm_keeps, setB_keeps, setF_keeps, and_self]

theorem rebuildLodgers_keeps (old new : List LodgerRec) (s : State) : Keeps s (rebuildLodgers old new s) := by
  simp only [Keeps, rebuildLodgers, lodgerNew_keeps, setLodger_keeps, ite_keeps, ite_self, contextFault_keeps, applyAll_keeps, implies_true,
    and_self]

theorem rebuildTables_keeps (l : List TableRec) (s : State) : Keeps s (rebuildTables l s) := by
  simp only [Keeps, rebuildTables, applyAll_keeps, implies_true, tableRegs_keeps, ite_keeps, ite_self, countL2_keeps, setF_keeps,
    seedsReset_keeps, and_self]

theorem execDeltaCutOver_keepsQueue (s : State) : KeepsQueue s (execDeltaCutOver s) :=
  ⟨_, rfl, by simp only [implies_true, onlyIf_pending, rebuildTables_keeps, rebuildTiles_keeps, rebuildCabinet_keeps, rebuildPorts_keeps,
    trnIndex_keeps, rebuildLodgers_keeps, ite_keeps, ite_self, policyForm_keeps, applyRegset_keeps, setF_keeps, setB_keeps,
    showDigest_keeps, sessionClear_keeps, wearBump_keeps, startup_keeps, refreshBase_keeps, ratedChanged_keeps]⟩

theorem tablesFreed_keeps (o : OldStructure) (s : State) : Keeps s (tablesFreed o s) := ⟨rfl, rfl⟩

theorem oldFreed_keeps (s : State) : Keeps s (oldFreed s) := by
  unfold oldFreed
  split <;> simp only [Keeps, applyAll_keeps, implies_true, declare_keeps, tablesFreed_keeps, and_self]

theorem execDeltaDrainEnd_keepsQueue (s : State) : KeepsQueue s (execDeltaDrainEnd s) :=
  ⟨_, rfl, by simp only [implies_true, onlyIf_pending, refreshMode_keeps, raise_keeps, setB_keeps, loaderRelease_keeps, oldFreed_keeps]⟩

/-! ## Functions of `Sys2Proof/Machine/Hierarchy.lean` -/

theorem sendOut_pending (b : List Byte) (s : State) : (sendOut b s).pending = s.pending := by
  unfold sendOut
  split <;> simp only [ite_keeps, ite_self, emit_keeps, incF_keeps, hieSend_pending]

theorem execTransmitDone_keepsQueue (p : Nat) (s : State) : KeepsQueue s (execTransmitDone p s) :=
  ⟨_, rfl, by simp only [transmitDone_pending, implies_true, applyAll_pending, sendOut_pending]⟩

theorem endPeer_keeps (d : Nat) (s : State) : Keeps s (endPeer d s) := ⟨rfl, rfl⟩

theorem wearReportIn_pending (f : List Byte) (s : State) : (wearReportIn f s).pending = s.pending := by
  simp only [wearReportIn, unitFrame_pending]

theorem holdJoin_keeps (m : PMsg) (s : State) : Keeps s (holdJoin m s) := by
  simp only [Keeps, holdJoin, ite_keeps, ite_self, setF_keeps, and_self]

theorem deliver_pending (m : PMsg) (f : List Byte) (s : State) : (deliver m f s).pending = s.pending := by
  simp only [deliver, incF_keeps, ite_keeps, ite_self, cvArrive_keeps, holdJoin_keeps, endPeer_keeps, wearReportIn_pending]

theorem checkTail_pending (m : PMsg) (f : List Byte) (s : State) : (checkTail m f s).pending = s.pending := by
  simp only [checkTail, ite_keeps, ite_self, incF_keeps, epochMismatch_keeps, deliver_pending]

theorem checkMessage_pending (bad : Nat) (m : PMsg) (f : List Byte) (s : State) : (checkMessage bad m f s).pending = s.pending := by
  unfold checkMessage
  dsimp only
  split
  · simp only [ite_keeps, checkTail_pending, incF_keeps, ite_self]
  split
  · next h => simp only [raiseOnce_keeps, incF_keeps, consistSlot_keeps_of_eq h]
  · next h =>
    split
    · next hc => simp only [raiseOnce_keeps, incF_keeps, hwCmac_keeps_of_eq hc, consistSlot_keeps_of_eq h]
    · next hc =>
      simp only [ite_keeps, checkTail_pending, raiseOnce_keeps, incF_keeps, hwCmac_keeps_of_eq hc, consistSlot_keeps_of_eq h, ite_self]

theorem execPloilhanReceive_keepsQueue (bad : Nat) (s : State) : KeepsQueue s (execPloilhanReceive bad s) :=
  ⟨_, rfl, by split <;> simp only [ite_keeps, ite_self, checkMessage_pending, relay_pending]⟩

theorem drawDelay_keeps (s : State) : Keeps s (drawDelay s) := by
  simp only [Keeps, drawDelay, drbgBytes_keeps, and_self]

theorem endAdmission_keeps (s : State) : Keeps s (endAdmission s) := by
  simp only [Keeps, endAdmission, drawDelay_keeps, setB_keeps, setF_keeps, and_self]

theorem execJoinSend_keepsQueue (s : State) : KeepsQueue s (execJoinSend s) := by
  refine ⟨_, rfl, onlyIf_pending (fun s => ?_) s⟩
  split
  · rfl
  · simp only [hieSend_pending]

theorem joinAnswer_pending (m : PMsg) (op role id why : Nat) (s : State) : (joinAnswer m op role id why s).pending = s.pending := by
  simp only [joinAnswer, hieSend_pending, incF_keeps]

theorem admitPart_pending (m : PMsg) (role id : Nat) (s : State) : (admitPart m role id s).pending = s.pending := by
  simp only [admitPart, joinAnswer_pending]

theorem decideJoin_pending (m : PMsg) (s : State) : (decideJoin m s).pending = s.pending := by
  simp only [decideJoin, implies_true, applyAll_pending, endPeer_keeps, ite_keeps, ite_self, joinAnswer_pending, admitPart_pending]

theorem execJoin_keepsQueue (s : State) : KeepsQueue s (execJoin s) := by
  refine ⟨_, rfl, onlyIf_pending (fun s => ?_) s⟩
  split
  · rfl
  · simp only [decideJoin_pending, setF_keeps]

theorem followManager_keeps (m : PMsg) (s : State) : Keeps s (followManager m s) := by
  simp only [Keeps, followManager, setB_keeps, setF_keeps, and_self]

theorem execJoinAnswer_keepsQueue (s : State) : KeepsQueue s (execJoinAnswer s) := by
  refine ⟨_, rfl, takeMsg_pending (fun m s => ?_) s⟩
  simp only [ite_keeps, setF_keeps, setB_keeps, followManager_keeps, fullRefresh_keeps, ite_self]

theorem sendBeat_pending (s : State) : (sendBeat s).pending = s.pending := by
  simp only [sendBeat, hieSend_pending]

theorem execHeartbeatSend_keepsQueue (s : State) : KeepsQueue s (execHeartbeatSend s) :=
  ⟨_, rfl, by simp only [implies_true, onlyIf_pending, sendBeat_pending]⟩

theorem stronger_keeps (m : PMsg) (epoch pos : Nat) (s : State) : Keeps s (stronger m epoch pos s).2 := by
  simp only [Keeps, stronger, ite_keeps, ite_self, ite_snd, drawFree_keeps, and_self]

theorem yieldManager_keeps (s : State) : Keeps s (yieldManager s) := by
  simp only [Keeps, yieldManager, drawDelay_keeps, setF_keeps, setB_keeps, and_self]

theorem adoptEpoch_keeps (m : PMsg) (s : State) : Keeps s (adoptEpoch m s) := by
  simp only [Keeps, adoptEpoch, ite_keeps, ite_self, fullRefresh_keeps, setF_keeps, and_self]

theorem otherManager_keeps (m : PMsg) (s : State) : Keeps s (otherManager m s) := by
  simp only [Keeps, otherManager, stronger_keeps, ite_keeps, ite_self, followManager_keeps, endAdmission_keeps, and_self]

theorem managerBeat_keeps (m : PMsg) (s : State) : Keeps s (managerBeat m s) := by
  simp only [Keeps, managerBeat, ite_keeps, ite_self, followManager_keeps, yieldManager_keeps, stronger_keeps, adoptEpoch_keeps,
    otherManager_keeps, and_self]

theorem execHeartbeatReceive_keepsQueue (s : State) : KeepsQueue s (execHeartbeatReceive s) := by
  refine ⟨_, rfl, takeMsg_pending (fun m s => ?_) s⟩
  simp only [ite_keeps, managerBeat_keeps, ite_self]

theorem execWorkerLost_keepsQueue (d : Nat) (s : State) : KeepsQueue s (execWorkerLost d s) :=
  ⟨_, rfl, by simp only [implies_true, onlyIf_pending, declare_keeps, raise_keeps, incF_keeps, setF_keeps, endPeer_keeps]⟩

theorem execManagerLost_keepsQueue (s : State) : KeepsQueue s (execManagerLost s) :=
  ⟨_, rfl, by simp only [implies_true, onlyIf_pending, raise_keeps, setB_keeps, endAdmission_keeps]⟩

theorem execTakeover_keepsQueue (s : State) : KeepsQueue s (execTakeover s) :=
  ⟨_, rfl, by simp only [implies_true, onlyIf_pending, setF_keeps, storeWrite_keeps, setB_keeps, raise_keeps, sendBeat_pending,
    hieSend_pending]⟩

theorem execTakeoverReceive_keepsQueue (s : State) : KeepsQueue s (execTakeoverReceive s) := by
  refine ⟨_, rfl, takeMsg_pending (fun m s => ?_) s⟩
  simp only [ite_keeps, managerBeat_keeps, fullRefresh_keeps, setF_keeps, followManager_keeps, stronger_keeps, otherManager_keeps, ite_self]

theorem execProbeEnd_keepsQueue (s : State) : KeepsQueue s (execProbeEnd s) :=
  ⟨_, rfl, by simp only [implies_true, onlyIf_pending, sendBeat_pending, setB_keeps]⟩

theorem execPositionChangeRejoin_keepsQueue (s : State) : KeepsQueue s (execPositionChangeRejoin s) :=
  ⟨_, rfl, by simp only [implies_true, onlyIf_pending, endAdmission_keeps, hieSend_pending]⟩

theorem servePiece_pending (img : List Byte) (p : Nat) (s : State) : (servePiece img p s).pending = s.pending := by
  simp only [servePiece, ite_keeps, ite_self, hieSend_pending, incF_keeps, implies_true, applyAll_pending]

theorem execImageBlockRequest_keepsQueue (img : List Byte) (s : State) : KeepsQueue s (execImageBlockRequest img s) := by
  refine ⟨_, rfl, takeMsg_pending (fun m s => ?_) s⟩
  simp only [ite_keeps, applyAll_pending fun p t => servePiece_pending img p t, incF_keeps, emit_keeps, ite_self]

theorem requestMissing_pending (s : State) : (requestMissing s).pending = s.pending := by
  simp only [requestMissing, ite_keeps, ite_self, requestPieces_pending, implies_true, applyAll_pending]

theorem headArrived_pending (s : State) : (headArrived s).pending = s.pending := by
  simp only [headArrived]
  split <;> simp only [loadFail_keeps, requestMissing_pending, setF_keeps]

theorem takeChunk_pending (m : PMsg) (s : State) : (takeChunk m s).pending = s.pending := by
  simp only [takeChunk, ite_keeps, ite_self, headArrived_pending]

theorem execImagePieceReceive_keepsQueue (s : State) : KeepsQueue s (execImagePieceReceive s) := by
  refine ⟨_, rfl, takeMsg_pending (fun m s => ?_) s⟩
  simp only [ite_keeps, takeChunk_pending, ite_self]

theorem execImageRerequestTimeout_keepsQueue (s : State) : KeepsQueue s (execImageRerequestTimeout s) :=
  ⟨_, rfl, by simp only [implies_true, onlyIf_pending, requestMissing_pending]⟩

theorem execImageBlockDeltaOpen_keepsQueue (s : State) : KeepsQueue s (execImageBlockDeltaOpen s) := by
  refine ⟨_, rfl, takeMsg_pending (fun m s => ?_) s⟩
  split
  · rfl
  · simp only [deltaReport_pending, deltaOpen_keeps]

theorem execImageBlockDeltaChunk_keepsQueue (s : State) : KeepsQueue s (execImageBlockDeltaChunk s) := by
  refine ⟨_, rfl, takeMsg_pending (fun m s => ?_) s⟩
  dsimp only
  split
  · rfl
  split
  · simp only [deltaReport_pending]
  · simp only [ite_keeps, deltaReport_pending, deltaDeliver_keeps, ite_self]

theorem execImageBlockDeltaClose_keepsQueue (s : State) : KeepsQueue s (execImageBlockDeltaClose s) := by
  refine ⟨_, rfl, takeMsg_pending (fun m s => ?_) s⟩
  simp only [ite_keeps, deltaClose_pending, deltaReport_pending, deltaRefuse_keeps, ite_self]

theorem execImageBlockDeltaAbort_keepsQueue (s : State) : KeepsQueue s (execImageBlockDeltaAbort s) := by
  refine ⟨_, rfl, takeMsg_pending (fun m s => ?_) s⟩
  simp only [ite_keeps, deltaEnd_pending, deltaReport_pending, ite_self]

theorem execImageBlockStatus_keepsQueue (s : State) : KeepsQueue s (execImageBlockStatus s) := by
  refine ⟨_, rfl, takeMsg_pending (fun m s => ?_) s⟩
  simp only [ite_keeps, ite_self]

theorem hieCommand_pending (rq : Requester) (w : Word) (s : State) : (hieCommand rq w s).pending = s.pending := by
  unfold hieCommand
  split
  · simp only [busError_keeps]
  · split <;> simp only [busError_keeps, implies_true, applyAll_pending, hieSend_pending, busDone_keeps]

theorem hieCmdOp_pending (op : Nat) (rq : Requester) (w : Word) (s : State) : (hieCmdOp op rq w s).pending = s.pending := by
  simp only [hieCmdOp, ite_keeps, ite_self, hieCommand_pending]

theorem cmdWearReportRequest_pending (rq : Requester) (w : Word) (s : State) : (cmdWearReportRequest rq w s).pending = s.pending := by
  simp only [cmdWearReportRequest, hieCmdOp_pending]

theorem execWearReportRequest_keepsQueue (rq : Requester) (w : Word) (s : State) : KeepsQueue s (execWearReportRequest rq w s) :=
  ⟨_, rfl, by simp only [implies_true, gate_pending, cmdWearReportRequest_pending]⟩

theorem execWearReportSend_keepsQueue (s : State) : KeepsQueue s (execWearReportSend s) := by
  refine ⟨_, rfl, takeMsg_pending (fun m s => ?_) s⟩
  exact applyAll_pending (fun i t => hieSend_pending _ _ _ _ t) s

theorem execRemoteFullReset_keepsQueue (side : HieSide) (s : State) : KeepsQueue s (execRemoteFullReset side s) := by
  refine ⟨_, rfl, ?_⟩
  split
  · exact gate_pending (hieCmdOp_pending _ _ _) s
  · exact takeMsg_pending (fun m s => by simp only [ite_keeps, fullReset_pending, ite_self]) s

theorem execRemoteNormalReset_keepsQueue (side : HieSide) (s : State) : KeepsQueue s (execRemoteNormalReset side s) := by
  refine ⟨_, rfl, ?_⟩
  split
  · exact gate_pending (hieCmdOp_pending _ _ _) s
  · exact takeMsg_pending (fun m s => by simp only [ite_keeps, worldReset_pending, ite_self]) s

theorem revokeMessage_keeps (m : PMsg) (s : State) : Keeps s (revokeMessage m s) := by
  simp only [Keeps, revokeMessage, applyAll_keeps, implies_true, declare_keeps, and_self]

theorem execRemoteRevoke_keepsQueue (side : HieSide) (s : State) : KeepsQueue s (execRemoteRevoke side s) := by
  refine ⟨_, rfl, ?_⟩
  split
  · exact gate_pending (hieCmdOp_pending _ _ _) s
  · exact takeMsg_pending (fun m s => by simp only [ite_keeps, revokeMessage_keeps, ite_self]) s

/-! ## Functions of `Sys2Proof/Machine/Leases.lean` -/

theorem leaseRenew_keeps (rq : Requester) (n : Nat) (s : State) : Keeps s (leaseRenew rq n s) := by
  simp only [Keeps, leaseRenew, ite_keeps, ite_self, busError_keeps, busDone_keeps, setLease_keeps, and_self]

theorem cmdLeaseRenew_keeps (rq : Requester) (n : Nat) (s : State) : Keeps s (cmdLeaseRenew rq n s) := by
  simp only [Keeps, cmdLeaseRenew, leaseRenew_keeps, and_self]

theorem execLeaseRenew_keepsQueue (rq : Requester) (n : Nat) (s : State) : KeepsQueue s (execLeaseRenew rq n s) :=
  ⟨_, rfl, by simp only [implies_true, gate_pending, cmdLeaseRenew_keeps]⟩

theorem fetchDrop_keeps (n : Nat) (s : State) : Keeps s (fetchDrop n s) := ⟨rfl, rfl⟩

theorem releaseEffect_pending (n : Nat) (l : Lease) (s : State) : (releaseEffect n l s).pending = s.pending := by
  unfold releaseEffect
  split <;> simp only [freePages_keeps, ite_keeps, ite_self, swcCommit_keeps, fwtCommit_keeps, pkeLeaseEnd_keeps, fetchDrop_keeps,
    deltaReport_pending, setFree_keeps, sessionClear_keeps]

theorem leaseRelease_pending (rq : Requester) (n : Nat) (s : State) : (leaseRelease rq n s).pending = s.pending := by
  simp only [leaseRelease, ite_keeps, ite_self, busError_keeps, busDone_keeps, releaseEffect_pending, setLease_keeps]

theorem cmdLeaseRelease_pending (rq : Requester) (n : Nat) (s : State) : (cmdLeaseRelease rq n s).pending = s.pending := by
  simp only [cmdLeaseRelease, leaseRelease_pending]

theorem execLeaseRelease_keepsQueue (rq : Requester) (n : Nat) (s : State) : KeepsQueue s (execLeaseRelease rq n s) :=
  ⟨_, rfl, by simp only [implies_true, gate_pending, cmdLeaseRelease_pending]⟩

theorem execLeaseExpiry_keepsQueue (n : Nat) (s : State) : KeepsQueue s (execLeaseExpiry n s) :=
  ⟨_, rfl, by simp only [implies_true, onlyIf_pending, declare_keeps]⟩

theorem revokeRefuse_keeps (why : Nat) (s : State) : Keeps s (revokeRefuse why s) := by
  simp only [Keeps, revokeRefuse, setB_keeps, setF_keeps, and_self]

theorem inkRevoke_keeps (rq : Requester) (w : Word) (s : State) : Keeps s (inkRevoke rq w s) := by
  simp only [Keeps, inkRevoke, busDone_keeps, ite_keeps, ite_self, revokeRefuse_keeps, declare_keeps, and_self]

theorem cmdInkRevoke_keeps (rq : Requester) (w : Word) (s : State) : Keeps s (cmdInkRevoke rq w s) := by
  simp only [Keeps, cmdInkRevoke, inkRevoke_keeps, and_self]

theorem execInkRevoke_keepsQueue (rq : Requester) (w : Word) (s : State) : KeepsQueue s (execInkRevoke rq w s) :=
  ⟨_, rfl, by simp only [implies_true, gate_pending, cmdInkRevoke_keeps]⟩

theorem reclaimOne_pending (n : Nat) (s : State) : (reclaimOne n s).pending = s.pending := by
  unfold reclaimOne
  dsimp only
  split
  · rfl
  · split <;> simp only [ite_keeps, ite_self, freePages_keeps, swcDiscard_keeps, fwtDiscard_keeps, pkeLeaseEnd_keeps, fetchDrop_keeps,
      deltaEnd_pending, setLease_keeps]

theorem execReclaimDone_keepsQueue (s : State) : KeepsQueue s (execReclaimDone s) :=
  ⟨_, rfl, by split <;> simp only [implies_true, applyAll_pending, reclaimOne_pending, raise_keeps, setF_keeps, incF_keeps]⟩

theorem execCaravanSend_keepsQueue (s : State) : KeepsQueue s (execCaravanSend s) :=
  ⟨_, rfl, by simp only [implies_true, onlyIf_pending, setF_keeps, ite_keeps, ite_self, incF_keeps, hieSend_pending]⟩

/-! ## Functions of `Sys2Proof/Machine/Views.lean` -/

theorem latchPair_keeps (a : Nat) (s : State) : Keeps s (latchPair a s) := by
  simp only [Keeps, latchPair, ite_keeps, ite_self, setF_keeps, and_self]

theorem clearLive_keeps (a : Nat) (s : State) : Keeps s (clearLive a s) := by
  simp only [Keeps, clearLive, ite_keeps, ite_self, setLodger_keeps, setF_keeps, setCb_keeps, and_self]

/-! ## Functions of `Sys2Proof/Machine/Regs.lean` -/

theorem banked_keeps (rq : Requester) (g : Nat → World → State → State) (hg : ∀ c w s, Keeps s (g c w s)) (s : State) :
    Keeps s (banked rq g s) := by
  unfold banked
  split <;> simp only [Keeps, hg, busError_keeps, and_self]

theorem routeWrite_keeps (rq : Requester) (e : Nat) (w : Word) (s : State) : Keeps s (routeWrite rq e w s) := by
  simp only [Keeps, routeWrite, ite_keeps, ite_self, busError_keeps, setF_keeps, busDone_keeps, and_self]

theorem softWrite_keeps (w : Word) (s : State) : Keeps s (softWrite w s) := by
  simp only [Keeps, softWrite, ite_keeps, ite_self, raise_keeps, busDone_keeps, and_self]

theorem pendClear_keeps (rq : Requester) (pend own : Fld) (w : Word) (s : State) : Keeps s (pendClear rq pend own w s) := by
  simp only [Keeps, pendClear, clrF_keeps, busDone_keeps, and_self]

theorem secureElse_keeps (rq : Requester) (g : State → State) (hg : ∀ s, Keeps s (g s)) (s : State) : Keeps s (secureElse rq g s) := by
  simp only [Keeps, secureElse, ite_keeps, hg, busError_keeps, ite_self, and_self]

theorem revRead_keeps (s : State) : Keeps s (revRead s) := by
  unfold revRead
  split <;> simp only [Keeps, busData_keeps, setF_keeps, and_self]

theorem plainWrite_keeps (d : RegDesc) (a : Nat) (w : Word) (s : State) : Keeps s (plainWrite d a w s) := by
  simp only [Keeps, plainWrite, ite_keeps, ite_self, writeFields_keeps, busDone_keeps, busError_keeps, and_self]

theorem anyWrite_keeps (a : Nat) (w : Word) (s : State) : Keeps s (anyWrite a w s) := by
  unfold anyWrite
  split <;> simp only [Keeps, plainWrite_keeps, busError_keeps, and_self]

theorem stageWrite_keeps (blk : Nat) (rq : Requester) (a : Nat) (w : Word) (s : State) : Keeps s (stageWrite blk rq a w s) := by
  unfold stageWrite
  split <;> simp only [Keeps, busError_keeps, ite_keeps, ite_self, busDone_keeps, and_self]

theorem asks_keeps (w : Word) (i : Nat) (g : State → State) (hg : ∀ s, Keeps s (g s)) (s : State) : Keeps s (asks w i g s) := by
  simp only [Keeps, asks, ite_keeps, hg, busDone_keeps, ite_self, and_self]

theorem writeSys_pending (rq : Requester) (a : Nat) (w : Word) (s : State) : (writeSys rq a w s).pending = s.pending := by
  unfold writeSys
  split <;> simp only [rstctlWrite_pending, wdnWrite_keeps, wdnKick_keeps, cmdSecureWatchdogKick_keeps, anyWrite_keeps]

theorem writePwr_keeps (rq : Requester) (a : Nat) (w : Word) (s : State) : Keeps s (writePwr rq a w s) := by
  unfold writePwr
  split <;> simp only [Keeps, modeReqWrite_keeps, readyWrite_keeps, anyWrite_keeps, and_self]

theorem writeEvc_keeps (rq : Requester) (a : Nat) (w : Word) (s : State) : Keeps s (writeEvc rq a w s) := by
  simp only [Keeps, writeEvc, ite_keeps, ite_self, pendClear_keeps, secureElse_keeps, implies_true, anyWrite_keeps, softWrite_keeps,
    banked_keeps, busDone_keeps, setF_keeps, routeWrite_keeps, and_self]

theorem writeInk_pending (rq : Requester) (a : Nat) (w : Word) (s : State) : (writeInk rq a w s).pending = s.pending := by
  unfold writeInk
  split <;> simp only [cmdInkPgreq_keeps, cmdInkPgfree_keeps, leaseRenew_keeps, leaseRelease_pending, inkRevoke_keeps, anyWrite_keeps]

theorem writeImg_pending (rq : Requester) (a : Nat) (w : Word) (s : State) : (writeImg rq a w s).pending = s.pending := by
  unfold writeImg
  split
  · split <;> simp only [cmdDeltaOpen_keeps, cmdDeltaClose_pending, cmdDeltaAbort_pending, busDone_keeps]
  · simp only [cmdDeltaDelivery_keeps]
  · simp only [anyWrite_keeps]

theorem writeSwc_keeps (rq : Requester) (a : Nat) (w : Word) (s : State) : Keeps s (writeSwc rq a w s) := by
  simp only [Keeps, writeSwc, ite_keeps, ite_self, asks_keeps, implies_true, cmdSwcLockTake_keeps, cmdSwcSnap_keeps, busError_keeps,
    busDone_keeps, setCb_keeps, setF_keeps, stageWrite_keeps, anyWrite_keeps, and_self]

theorem writeFwt_keeps (rq : Requester) (a : Nat) (w : Word) (s : State) : Keeps s (writeFwt rq a w s) := by
  unfold writeFwt
  split <;> simp only [Keeps, asks_keeps, implies_true, cmdFwtLockTake_keeps, cmdMigrateCancel_keeps, cmdMigrateStart_keeps,
    stageWrite_keeps, cmdPorterGo_keeps, anyWrite_keeps, and_self]

theorem writeLnk_keeps (rq : Requester) (a : Nat) (w : Word) (s : State) : Keeps s (writeLnk rq a w s) := by
  simp only [Keeps, writeLnk, ite_keeps, ite_self, cmdLnkMsgtxGo_keeps, busError_keeps, anyWrite_keeps, and_self]

theorem writeWks_keeps (rq : Requester) (a : Nat) (w : Word) (s : State) : Keeps s (writeWks rq a w s) := by
  unfold writeWks
  split
  · simp only [Keeps, sleepRequest_keeps, and_self]
  · simp only [Keeps, sleepRequest_keeps, and_self]
  · simp only [Keeps, wakeRequest_keeps, and_self]
  · simp only [Keeps, wakeRequest_keeps, and_self]
  · simp only [Keeps, cmdWksValid_keeps, and_self]
  · simp only [Keeps, cmdWksValid_keeps, and_self]
  · simp only [Keeps, cmdWksLogack_keeps, and_self]
  · split <;> simp only [Keeps, ite_keeps, ite_self, anyWrite_keeps, busDone_keeps, and_self]

theorem writeKst_keeps (rq : Requester) (a : Nat) (w : Word) (s : State) : Keeps s (writeKst rq a w s) := by
  unfold writeKst
  dsimp only
  split
  · simp only [Keeps, ite_keeps, cmdLifecycleCommit_keeps, cmdLifecycleArm_keeps, ite_self, and_self]
  split
  · split <;> simp only [Keeps, cmdImageKeyProgram_keeps, cmdImageKeyRevoke_keeps, busError_keeps, and_self]
  split
  · simp only [Keeps, busDone_keeps, setF_keeps, and_self]
  split
  · exact cmdFloorSet_keeps _ _ s
  split
  · exact cmdKeyLoad_keeps _ _ s
  split
  · exact cmdKeyLoad_keeps _ _ s
  split
  · split <;> simp only [Keeps, cmdNodeCreate_keeps, cmdNodeInvalidate_keeps, cmdNodeFree_keeps, busError_keeps, and_self]
  split
  · exact cmdWrap_keeps _ _ s
  split
  · split <;> simp only [Keeps, cmdShelfWrite_keeps, cmdShelfErase_keeps, busError_keeps, and_self]
  · exact anyWrite_keeps _ _ s

theorem writeWld_keeps (rq : Requester) (a : Nat) (w : Word) (s : State) : Keeps s (writeWld rq a w s) := by
  simp only [Keeps, writeWld, ite_keeps, ite_self, busError_keeps, anyWrite_keeps, cmdWldLock_keeps, busDone_keeps, and_self]

theorem writePke_keeps (rq : Requester) (a : Nat) (w : Word) (s : State) : Keeps s (writePke rq a w s) := by
  simp only [Keeps, writePke, ite_keeps, ite_self, asks_keeps, implies_true, cmdPkeLockTake_keeps, cmdPkeJobGo_keeps, busError_keeps,
    anyWrite_keeps, cmdPkeOpdataAccess_keeps, cmdPkeSlenWrite_keeps, cmdDigestGo_keeps, drbgReseed_keeps, busDone_keeps, and_self]

theorem writeMot_keeps (rq : Requester) (a : Nat) (w : Word) (s : State) : Keeps s (writeMot rq a w s) := by
  unfold writeMot
  split
  · simp only [Keeps, anyWrite_keeps, and_self]
  · split <;> simp only [Keeps, ite_keeps, ite_self, anyWrite_keeps, motCmdWrite_keeps, cmdMotorTest_keeps, busError_keeps, and_self]

theorem writeLmp_keeps (rq : Requester) (a : Nat) (w : Word) (s : State) : Keeps s (writeLmp rq a w s) := by
  simp only [Keeps, writeLmp, ite_keeps, ite_self, cmdLampTest_keeps, lmpCmdWrite_keeps, anyWrite_keeps, and_self]

theorem writeWer_keeps (rq : Requester) (a : Nat) (w : Word) (s : State) : Keeps s (writeWer rq a w s) := by
  unfold writeWer
  split <;>
    simp only [Keeps, asks_keeps, implies_true, ledgerSave_keeps, busDone_keeps, werReset_keeps, werSel_keeps, anyWrite_keeps, and_self]

theorem writeAon_keeps (rq : Requester) (a : Nat) (w : Word) (s : State) : Keeps s (writeAon rq a w s) := by
  simp only [Keeps, writeAon, ite_keeps, ite_self, cmdAonRtcset_keeps, tamperWrite_keeps, aonWrite_keeps, busError_keeps,
    cmdPwrReqSwWrite_keeps, anyWrite_keeps, and_self]

theorem writeHie_pending (rq : Requester) (a : Nat) (w : Word) (s : State) : (writeHie rq a w s).pending = s.pending := by
  simp only [writeHie, ite_keeps, ite_self, hieCommand_pending, anyWrite_keeps]

theorem writeTsy_keeps (rq : Requester) (a : Nat) (w : Word) (s : State) : Keeps s (writeTsy rq a w s) := by
  simp only [Keeps, writeTsy, ite_keeps, ite_self, cmdTsySet_keeps, busDone_keeps, cmdTsyStep_keeps, anyWrite_keeps, and_self]

theorem writeBrg_keeps (rq : Requester) (a : Nat) (w : Word) (s : State) : Keeps s (writeBrg rq a w s) := by
  unfold writeBrg
  split
  · split <;> simp only [Keeps, busError_keeps, busDone_keeps, setF_keeps, and_self]
  split
  · split <;> simp only [Keeps, busError_keeps, busDone_keeps, and_self]
  · simp only [Keeps, anyWrite_keeps, and_self]

theorem canCtl_keeps (rq : Requester) (n : Nat) (w : Word) (s : State) : Keeps s (canCtl rq n w s) := by
  simp only [Keeps, canCtl, ite_keeps, ite_self, cmdCanCtlStart_keeps, busDone_keeps, cmdCanCtlStop_keeps, cmdCanCtlRecover_keeps, and_self]

theorem writeCan_keeps (rq : Requester) (n a : Nat) (w : Word) (s : State) : Keeps s (writeCan rq n a w s) := by
  simp only [Keeps, writeCan, ite_keeps, ite_self, canCtl_keeps, cmdCanRxrel_keeps, cmdCanPriorel_keeps, cmdCanTxreq_keeps,
    cmdCanTxcan_keeps, anyWrite_keeps, busError_keeps, freshWrite_keeps, busDone_keeps, and_self]

theorem writeSer_pending (rq : Requester) (n a : Nat) (w : Word) (s : State) : (writeSer rq n a w s).pending = s.pending := by
  simp only [writeSer, ite_keeps, ite_self, busDone_keeps, busError_keeps, cmdSerCtlStart_keeps, cmdSerCtlStop_pending,
    cmdLinSchedWrite_keeps, cmdLinPubWrite_keeps, cmdUartSwtxGo_keeps, anyWrite_keeps]

theorem writeTile_pending (rq : Requester) (a : Nat) (w : Word) (s : State) : (writeTile rq a w s).pending = s.pending := by
  simp only [writeTile, ite_keeps, ite_self, busDone_keeps, writeCan_keeps, writeSer_pending]

theorem writePort_keeps (rq : Requester) (a : Nat) (w : Word) (s : State) : Keeps s (writePort rq a w s) := by
  simp only [Keeps, writePort, ite_keeps, ite_self, busDone_keeps, cmdMdioCommand_keeps, anyWrite_keeps, and_self]

theorem writeReg_pending (rq : Requester) (a : Nat) (w : Word) (s : State) : (writeReg rq a w s).pending = s.pending := by
  unfold writeReg
  split
  · simp only [busError_keeps]
  split
  · exact writeTile_pending rq a w s
  split
  · simp only [canRamWrite_keeps]
  split
  · simp only [writePort_keeps]
  split
  · simp only [busError_keeps]
  split <;> simp only [writeSys_pending, writePwr_keeps, writeEvc_keeps, writeInk_pending, writeImg_pending, writeSwc_keeps, writeFwt_keeps,
    ite_keeps, cmdTrnSigsel_keeps, writeBrg_keeps, writeLnk_keeps, writeWks_keeps, writeKst_keeps, cmdCkvRingTail_keeps, writePke_keeps,
    writeWld_keeps, writeMot_keeps, writeLmp_keeps, writeWer_keeps, writeAon_keeps, writeHie_pending, writeTsy_keeps, anyWrite_keeps,
    ite_self]

theorem anyRead_keeps (rq : Requester) (a : Nat) (s : State) : Keeps s (anyRead rq a s) := by
  unfold anyRead
  split <;> simp only [Keeps, busError_keeps, busData_keeps, clearLive_keeps, clearRead_keeps, latchPair_keeps, and_self]

theorem readTile_keeps (rq : Requester) (a : Nat) (s : State) : Keeps s (readTile rq a s) := by
  simp only [Keeps, readTile, ite_keeps, ite_self, busData_keeps, anyRead_keeps, and_self]

theorem readPort_keeps (rq : Requester) (a : Nat) (s : State) : Keeps s (readPort rq a s) := by
  simp only [Keeps, readPort, ite_keeps, ite_self, busData_keeps, txtsRead_keeps, anyRead_keeps, and_self]

theorem readReg_keeps (rq : Requester) (a : Nat) (s : State) : Keeps s (readReg rq a s) := by
  cases h : wksUnit a <;> simp only [Keeps, readReg, h, ite_keeps, busError_keeps, readTile_keeps, cmdCanRxBufferRead_keeps, readPort_keeps,
    banked_keeps, busData_keeps, revRead_keeps, cmdPkeOpdataAccess_keeps, cmdDrgDataRead_keeps, anyRead_keeps, implies_true, ite_self,
    and_self]

theorem busRead_keeps (rq : Requester) (a : Nat) (s : State) : Keeps s (busRead rq a s) := by
  simp only [Keeps, busRead, gate_keeps, implies_true, readReg_keeps, and_self]

theorem busWrite_pending (rq : Requester) (a : Nat) (w : Word) (s : State) : (busWrite rq a w s).pending = s.pending := by
  simp only [busWrite, gate_pending, writeReg_pending, implies_true]

theorem sized_pending (n : Nat) (g : State → State) (hg : ∀ s, (g s).pending = s.pending) (s : State) :
    (sized n g s).pending = s.pending := by
  simp only [sized, ite_keeps, hg, busError_keeps, ite_self]

theorem execRegisterWrite_keepsQueue (rq : Requester) (a : Nat) (w : Word) (n : Nat) (s : State) :
    KeepsQueue s (execRegisterWrite rq a w n s) :=
  ⟨_, rfl, by simp only [implies_true, gate_pending, sized_pending, writeReg_pending]⟩

theorem execW1cWrite_keepsQueue (rq : Requester) (a : Nat) (w : Word) (n : Nat) (s : State) :
    KeepsQueue s (execW1cWrite rq a w n s) :=
  ⟨_, rfl, by simp only [implies_true, gate_pending, sized_pending, writeReg_pending]⟩

theorem execRcRead_keepsQueue (rq : Requester) (a n : Nat) (s : State) : KeepsQueue s (execRcRead rq a n s) :=
  ⟨_, rfl, by simp only [implies_true, gate_pending, sized_pending, readReg_keeps]⟩

theorem execLatchingPairRead_keepsQueue (rq : Requester) (a n : Nat) (s : State) : KeepsQueue s (execLatchingPairRead rq a n s) :=
  ⟨_, rfl, by simp only [implies_true, gate_pending, sized_pending, readReg_keeps]⟩

theorem execBrgRev0Read_keepsQueue (rq : Requester) (s : State) : KeepsQueue s (execBrgRev0Read rq s) :=
  ⟨_, rfl, by simp only [implies_true, gate_pending, revRead_keeps]⟩

theorem execEvcRouteWrite_keepsQueue (rq : Requester) (e : Nat) (w : Word) (s : State) : KeepsQueue s (execEvcRouteWrite rq e w s) :=
  ⟨_, rfl, by simp only [implies_true, gate_pending, routeWrite_keeps]⟩

theorem execEvcSoft_keepsQueue (rq : Requester) (w : Word) (s : State) : KeepsQueue s (execEvcSoft rq w s) :=
  ⟨_, rfl, by simp only [implies_true, gate_pending, softWrite_keeps]⟩

theorem debugMem_pending (w : World) (a : Nat) (v : Option Word) (n : Nat) (s : State) : (debugMem w a v n s).pending = s.pending := by
  unfold debugMem
  split
  · simp only [violate_keeps]
  · split <;> simp only [busDone_keeps, wrBytes_pending, busData_keeps]

theorem execDebugAccess_keepsQueue (w : World) (a : Nat) (v : Option Word) (n : Nat) (s : State) :
    KeepsQueue s (execDebugAccess w a v n s) := by
  refine ⟨_, rfl, ?_⟩
  split
  · simp only [debugMem_pending]
  · split <;> simp only [implies_true, gate_pending, sized_pending, writeReg_pending, readReg_keeps]

/-! ## Functions of `Sys2Proof/Machine/Bridge.lean` -/

theorem splitFault_keeps (rq : Requester) (write narrow : Bool) (done addr : Nat) (s : State) :
    Keeps s (splitFault rq write narrow done addr s) := by
  simp only [Keeps, splitFault, setF_keeps, setB_keeps, incF_keeps, raise_keeps, ite_keeps, ite_self, and_self]

theorem splitReadOne_keeps (rq : Requester) (a be : Nat) (x : Split × State) :
    (splitReadOne rq a be x).2.pending = x.2.pending ∧ (splitReadOne rq a be x).2.mem = x.2.mem := by
  unfold splitReadOne
  dsimp only
  split
  · exact ⟨rfl, rfl⟩
  split
  · exact drawFree_keeps 32 x.2
  split
  · exact ⟨rfl, rfl⟩
  · split <;> exact busRead_keeps _ _ x.2

theorem splitRead_keeps (rq : Requester) (a : Nat) (l : List Nat) (x : Split × State) :
    (splitRead rq a l x).2.pending = x.2.pending ∧ (splitRead rq a l x).2.mem = x.2.mem := by
  induction l generalizing a x with
  | nil => exact ⟨rfl, rfl⟩
  | cons be l ih => simp only [splitRead, ih, splitReadOne_keeps, and_self]

theorem splitWriteOne_pending (rq : Requester) (a : Nat) (w : Word) (be : Nat) (x : Split × State) :
    (splitWriteOne rq a w be x).2.pending = x.2.pending := by
  unfold splitWriteOne
  dsimp only
  split
  · rfl
  split
  · rfl
  split <;> exact busWrite_pending _ _ _ x.2

theorem splitWrite_pending (rq : Requester) (a : Nat) (l : List (Word × Nat)) (x : Split × State) :
    (splitWrite rq a l x).2.pending = x.2.pending := by
  induction l generalizing a x with
  | nil => rfl
  | cons e l ih => simp only [splitWrite, ih, splitWriteOne_pending]

theorem splitEnd_keeps (rq : Requester) (write : Bool) (x : Split × State) :
    (splitEnd rq write x).pending = x.2.pending ∧ (splitEnd rq write x).mem = x.2.mem := by
  unfold splitEnd
  split
  · exact splitFault_keeps _ _ _ _ _ x.2
  · exact ⟨rfl, rfl⟩

theorem busWide_keeps (l : List Word) (s : State) : Keeps s (busWide l s) := by
  unfold busWide
  split <;> exact ⟨rfl, rfl⟩

theorem msixSend_keeps (v : Nat) (s : State) : Keeps s (msixSend v s) := by
  simp only [Keeps, msixSend, emit_keeps, and_self]

theorem execMsixRequest_keepsQueue (s : State) : KeepsQueue s (execMsixRequest s) :=
  ⟨_, rfl, by split <;> simp only [ite_keeps, ite_self, msixSend_keeps, orF_keeps]⟩

theorem execMsixPendingSend_keepsQueue (v : Nat) (s : State) : KeepsQueue s (execMsixPendingSend v s) :=
  ⟨_, rfl, by simp only [implies_true, onlyIf_pending, msixSend_keeps, clrF_keeps]⟩

theorem farFail_keeps (why dev addr : Nat) (s : State) : Keeps s (farFail why dev addr s) := by
  simp only [Keeps, farFail, raise_keeps, incF_keeps, setF_keeps, and_self]

theorem fetchFree_keeps (f : Fetch) (s : State) : Keeps s (fetchFree f s) := by
  simp only [Keeps, fetchFree, fetchDrop_keeps, setLease_keeps, and_self]

theorem setFetch_keeps (b : Nat) (f : Fetch) (s : State) : Keeps s (setFetch b f s) := by
  simp only [Keeps, setFetch, and_self]

theorem nextTag_keeps (s : State) : Keeps s (nextTag s).2 := ⟨rfl, rfl⟩

theorem farSend_pending (type d : Nat) (p : List Byte) (s : State) : (farSend type d p s).pending = s.pending := by
  simp only [farSend, hieSend_pending]

theorem farStart_pending (rq : Requester) (d addr n : Nat) (s : State) : (farStart rq d addr n s).pending = s.pending := by
  unfold farStart
  split
  · simp only [incF_keeps]
  split
  · simp only [countFull_keeps]
  · next h => simp only [farSend_pending, nextTag_keeps, grantLease_keeps h]

theorem farRead_pending (rq : Requester) (a n : Nat) (s : State) : (farRead rq a n s).2.pending = s.pending := by
  simp only [farRead]
  (repeat' split) <;> simp only [farFail_keeps, farStart_pending, fetchFree_keeps, setFetch_keeps]

theorem farWrite_pending (rq : Requester) (a : Nat) (ws : List Word) (s : State) : (farWrite rq a ws s).2.pending = s.pending := by
  simp only [farWrite, nextTag_keeps]
  split <;> simp only [farFail_keeps, ite_keeps, ite_self, ite_snd, farSend_pending]

theorem farBus_keeps (x : FarAnswer × State) : (farBus x).pending = x.2.pending ∧ (farBus x).mem = x.2.mem := by
  unfold farBus
  split <;> simp only [busDone_keeps, busWide_keeps, busError_keeps, busRetry_keeps, and_self]

theorem pcieDone_keeps (ok : Bool) (l : List Word) (s : State) : Keeps s (pcieDone ok l s) := by
  simp only [Keeps, pcieDone, emit_keeps, ite_keeps, ite_self, busWide_keeps, busError_keeps, and_self]

theorem farComplete_pending (b : Nat) (s : State) : (farComplete b s).pending = s.pending := by
  unfold farComplete
  split
  · rfl
  split
  · rfl
  · split <;> simp only [ite_keeps, ite_self, fetchFree_keeps, pcieDone_keeps, farStart_pending]

theorem pcieFarRead_pending (x : Nat) (bes : List Nat) (s : State) : (pcieFarRead x bes s).pending = s.pending := by
  unfold pcieFarRead
  split
  · simp only [splitRead_keeps, pcieDone_keeps]
  split
  · simp only [pcieDone_keeps, splitFault_keeps]
  dsimp only
  split <;> simp only [pcieDone_keeps, farRead_pending, busRetry_keeps]

theorem pcieRegRead_keeps (a : Nat) (bes : List Nat) (s : State) : Keeps s (pcieRegRead a bes s) := by
  simp only [Keeps, pcieRegRead, splitRead_keeps, splitEnd_keeps, ite_keeps, ite_self, pcieDone_keeps, and_self]

theorem barWrite_keeps (i : Nat) (w : Word) (s : State) : Keeps s (barWrite i w s) := ⟨rfl, rfl⟩

theorem pcieConfig_keeps (x : Nat) (s : State) : Keeps s (pcieConfig x s) := by
  simp only [Keeps, pcieConfig, drawFree_keeps, ite_keeps, ite_self, pcieDone_keeps, and_self]

theorem pcieRead_pending (sp : PcieSpace) (x : Nat) (bes : List Nat) (s : State) : (pcieRead sp x bes s).pending = s.pending := by
  unfold pcieRead
  split <;> simp only [ite_keeps, ite_self, pcieDone_keeps, pcieRegRead_keeps, pcieFarRead_pending, pcieConfig_keeps, drawFree_keeps]

theorem execPcieRead_keepsQueue (sp : PcieSpace) (x : Nat) (bes : List Nat) (s : State) : KeepsQueue s (execPcieRead sp x bes s) :=
  ⟨_, rfl, by simp only [implies_true, onlyIf_pending, ite_keeps, ite_self, emit_keeps, busError_keeps, pcieRead_pending]⟩

theorem pcieFarWrite_pending (x : Nat) (ws : List (Word × Nat)) (s : State) : (pcieFarWrite x ws s).pending = s.pending := by
  unfold pcieFarWrite
  split <;>
    simp only [ite_keeps, ite_self, busRetry_keeps, implies_true, applyAll_pending, farWrite_pending, busDone_keeps, splitFault_keeps]

theorem pcieWrite_pending (sp : PcieSpace) (x : Nat) (ws : List (Word × Nat)) (s : State) :
    (pcieWrite sp x ws s).pending = s.pending := by
  unfold pcieWrite
  split
  · simp only [busDone_keeps, splitEnd_keeps, splitWrite_pending]
  · simp only [pcieFarWrite_pending]
  · simp only [busDone_keeps, splitEnd_keeps, splitWrite_pending]
  · split <;> simp only [busDone_keeps, ite_keeps, ite_self, barWrite_keeps]
  · split <;> simp only [busDone_keeps]
  · split <;> simp only [busDone_keeps, ite_keeps, ite_self]

theorem execPcieWrite_keepsQueue (sp : PcieSpace) (x : Nat) (ws : List (Word × Nat)) (s : State) :
    KeepsQueue s (execPcieWrite sp x ws s) :=
  ⟨_, rfl, by simp only [implies_true, onlyIf_pending, ite_keeps, ite_self, busDone_keeps, pcieWrite_pending]⟩

theorem execPcieLinkChange_keepsQueue (up : Bool) (gen width : Nat) (s : State) : KeepsQueue s (execPcieLinkChange up gen width s) :=
  ⟨_, rfl, by simp only [ite_keeps, ite_self, implies_true, onlyIf_pending, setB_keeps, setF_keeps, pcieDown_keeps]⟩

theorem qspiSend_keeps (st : Nat) (l : List Byte) (s : State) : Keeps s (qspiSend st l s) := by
  simp only [Keeps, qspiSend, emit_keeps, and_self]

theorem qspiRefuse_keeps (s : State) : Keeps s (qspiRefuse s) := by
  simp only [Keeps, qspiRefuse, qspiSend_keeps, busError_keeps, setB_keeps, and_self]

theorem qspiPartial_keeps (a n : Nat) (bytes : List Byte) (done : Nat) (failed : Bool) (s : State) :
    Keeps s (qspiPartial a n bytes done failed s) := by
  simp only [Keeps, qspiPartial, ite_keeps, ite_self, setB_keeps, splitFault_keeps, and_self]

theorem qspiLocal_pending (write : Bool) (a n : Nat) (bytes : List Byte) (s : State) :
    (qspiLocal write a n bytes s).pending = s.pending := by
  unfold qspiLocal
  split <;> simp only [qspiRefuse_keeps, ite_keeps, ite_self, violate_keeps, splitWrite_pending, qspiSend_keeps, busDone_keeps,
    qspiPartial_keeps, splitEnd_keeps, splitRead_keeps, busError_keeps, busWide_keeps]

theorem qspiFar_pending (write : Bool) (a n : Nat) (bytes : List Byte) (s : State) :
    (qspiFar write a n bytes s).pending = s.pending := by
  simp only [qspiFar, ite_snd]
  (repeat' split) <;> simp only [farRead_pending, farWrite_pending, qspiSend_keeps, busDone_keeps, qspiPartial_keeps, busWide_keeps,
    qspiRefuse_keeps, setB_keeps, busRetry_keeps]

theorem qspiTransaction_pending (cmd a len : Nat) (bytes : List Byte) (s : State) :
    (qspiTransaction cmd a len bytes s).pending = s.pending := by
  simp only [qspiTransaction, ite_keeps, ite_self, qspiRefuse_keeps, qspiLocal_pending, qspiFar_pending]

theorem execQspiTransaction_keepsQueue (cmd a len : Nat) (bytes : List Byte) (s : State) :
    KeepsQueue s (execQspiTransaction cmd a len bytes s) :=
  ⟨_, rfl, by simp only [implies_true, onlyIf_pending, qspiTransaction_pending]⟩

theorem execQspiStatus_keepsQueue (s : State) : KeepsQueue s (execQspiStatus s) :=
  ⟨_, rfl, by simp only [implies_true, onlyIf_pending, qspiSend_keeps, busData_keeps]⟩

theorem execFarReadAccess_keepsQueue (rq : Requester) (a n : Nat) (s : State) : KeepsQueue s (execFarReadAccess rq a n s) :=
  ⟨_, rfl, by split <;> simp only [ite_keeps, ite_self, farBus_keeps, farRead_pending, busError_keeps, implies_true, onlyIf_pending,
    pcieRead_pending, qspiTransaction_pending]⟩

theorem execFarWrite_keepsQueue (rq : Requester) (a : Nat) (ws : List Word) (s : State) : KeepsQueue s (execFarWrite rq a ws s) :=
  ⟨_, rfl, by split <;> simp only [ite_keeps, ite_self, farBus_keeps, farWrite_pending, busError_keeps, implies_true, onlyIf_pending,
    pcieWrite_pending, qspiTransaction_pending]⟩

theorem fetchResult_pending (b : Nat) (f : Fetch) (res : Option (List Nat)) (s : State) :
    (fetchResult b f res s).pending = s.pending := by
  simp only [fetchResult, farComplete_pending, setFetch_keeps, setLease_keeps]

theorem execFarReadAnswer_keepsQueue (s : State) : KeepsQueue s (execFarReadAnswer s) := by
  refine ⟨_, rfl, takeMsg_pending (fun m s => ?_) s⟩
  split
  · rfl
  · simp only [ite_keeps, fetchResult_pending, farFail_keeps, ite_self]

theorem execFarFetchTimeout_keepsQueue (b : Nat) (s : State) : KeepsQueue s (execFarFetchTimeout b s) :=
  ⟨_, rfl, by split <;> simp only [ite_keeps, ite_self, fetchResult_pending, farFail_keeps]⟩

theorem execFarResultExpiry_keepsQueue (b : Nat) (s : State) : KeepsQueue s (execFarResultExpiry b s) :=
  ⟨_, rfl, by split <;> simp only [implies_true, onlyIf_pending, raise_keeps, incF_keeps, declare_keeps]⟩

theorem writeDrop_keeps (tag : Nat) (s : State) : Keeps s (writeDrop tag s) := ⟨rfl, rfl⟩

theorem execFarWriteAck_keepsQueue (s : State) : KeepsQueue s (execFarWriteAck s) := by
  refine ⟨_, rfl, takeMsg_pending (fun m s => ?_) s⟩
  split
  · rfl
  · simp only [ite_keeps, writeDrop_keeps, farFail_keeps, ite_self]

theorem execFarWriteTimeout_keepsQueue (tag : Nat) (s : State) : KeepsQueue s (execFarWriteTimeout tag s) :=
  ⟨_, rfl, by split <;> simp only [farFail_keeps, writeDrop_keeps]⟩

theorem farRequester_keeps (m : PMsg) (s : State) : Keeps s (farRequester m s).2 := by
  simp only [Keeps, farRequester, drawFree_keeps, and_self]

theorem serveRead_pending (m : PMsg) (s0 : State) : (serveRead m s0).pending = s0.pending := by
  unfold serveRead
  dsimp only
  split
  · simp only [farRequester_keeps, hieSend_pending]
  · split <;> simp only [farRequester_keeps, hieSend_pending, splitRead_keeps]

theorem serveWords_pending (rq : Requester) (a : Nat) (l : List Word) (x : Nat × State) :
    (serveWords rq a l x).2.pending = x.2.pending := by
  induction l generalizing a x with
  | nil => rfl
  | cons w l ih => simp only [serveWords, ite_snd, ite_keeps, ih, busWrite_pending, ite_self]

theorem serveWrite_pending (m : PMsg) (s0 : State) : (serveWrite m s0).pending = s0.pending := by
  simp only [serveWrite, farRequester_keeps, ite_keeps, ite_self, ite_snd, serveWords_pending, hieSend_pending]

theorem execFarRequestServe_keepsQueue (s : State) : KeepsQueue s (execFarRequestServe s) :=
  ⟨_, rfl, by split <;> simp only [ite_keeps, ite_self, serveRead_pending, serveWrite_pending]⟩

theorem revPush_keeps (e : RemoteEvent) (s : State) : Keeps s (revPush e s) := by
  simp only [Keeps, revPush, ite_keeps, ite_self, incF_keeps, raise_keeps, and_self]

theorem eventMessage_keeps (e us : Nat) (s : State) : Keeps s (eventMessage e us s) := by
  simp only [Keeps, eventMessage, ite_keeps, ite_self, incF_keeps, revPush_keeps, incWrap_keeps, internalInline_keeps, and_self]

theorem execEventMessageSend_keepsQueue (s : State) : KeepsQueue s (execEventMessageSend s) :=
  ⟨_, rfl, by split <;> simp only [ite_keeps, ite_self, incF_keeps, eventMessage_keeps]⟩

theorem execEventPacingFlush_keepsQueue (s : State) : KeepsQueue s (execEventPacingFlush s) :=
  ⟨_, rfl, by simp only [implies_true, applyAll_pending, ite_keeps, ite_self, eventMessage_keeps]⟩

theorem execRemoteEventReceive_keepsQueue (s : State) : KeepsQueue s (execRemoteEventReceive s) := by
  refine ⟨_, rfl, takeMsg_pending (fun m s => ?_) s⟩
  exact onlyIf_pending (fun t => (revPush_keeps _ t).1) s

/-! ## The obligation -/

/-- Settles O3: each command's meaning completes with the queue it began with (`KeepsQueue`), by the lemma of its meaning. -/
theorem everyCommandAnswersAndKeepsTheQueue : Obligations.EveryCommandAnswersAndKeepsTheQueue := by
  unfold Obligations.EveryCommandAnswersAndKeepsTheQueue
  intro c s
  cases c with
  | powerOnResetRelease role boot wpol => exact execPowerOnResetRelease_keepsQueue role boot wpol s
  | powerOnResetAssert rail vbatOk => exact execPowerOnResetAssert_keepsQueue rail vbatOk s
  | aonDomainPowerUp fromVbat => exact execAonDomainPowerUp_keepsQueue fromVbat s
  | aonSupplyLoss => exact execAonSupplyLoss_keepsQueue s
  | xinAmplitudeGood => exact execXinAmplitudeGood_keepsQueue s
  | xinStable => exact execXinStable_keepsQueue s
  | rootPllLock us => exact execRootPllLock_keepsQueue us s
  | rootPllLockLoss => exact execRootPllLockLoss_keepsQueue s
  | clockFault => exact execClockFault_keepsQueue s
  | pllLockLossOther p => exact execPllLockLossOther_keepsQueue p s
  | railWarnCrossing r => exact execRailWarnCrossing_keepsQueue r s
  | railFailCrossing r => exact execRailFailCrossing_keepsQueue r s
  | railValid r classMv => exact execRailValid_keepsQueue r classMv s
  | pcieRefStable => exact execPcieRefStable_keepsQueue s
  | pfailFall => exact execPfailFall_keepsQueue s
  | pfailRestoreExpiry => exact execPfailRestoreExpiry_keepsQueue s
  | resetNAssert => exact execResetNAssert_keepsQueue s
  | resetNRelease => exact execResetNRelease_keepsQueue s
  | fullResetEnd => exact execFullResetEnd_keepsQueue s
  | systemSoftwareReset rq key => exact execSystemSoftwareReset_keepsQueue rq key s
  | normalWorldResetCmd rq key => exact execNormalWorldResetCmd_keepsQueue rq key s
  | secureWorldResetCmd rq key => exact execSecureWorldResetCmd_keepsQueue rq key s
  | normalWatchdogKick rq key => exact execNormalWatchdogKick_keepsQueue rq key s
  | normalWatchdogEnable rq w => exact execNormalWatchdogEnable_keepsQueue rq w s
  | normalWatchdogExpiry => exact execNormalWatchdogExpiry_keepsQueue s
  | secureWatchdogKick rq key => exact execSecureWatchdogKick_keepsQueue rq key s
  | secureWatchdogExpiry => exact execSecureWatchdogExpiry_keepsQueue s
  | loadingEntry => exact execLoadingEntry_keepsQueue s
  | bootQuarantine => exact execBootQuarantine_keepsQueue s
  | imageHeaderCheck hdr => exact execImageHeaderCheck_keepsQueue hdr s
  | imageVerify img => exact execImageVerify_keepsQueue img s
  | build ddrOk => exact execBuild_keepsQueue ddrOk s
  | cutOver => exact execCutOver_keepsQueue s
  | tileStart n => exact execTileStart_keepsQueue n s
  | canIntegrationDone n => exact execCanIntegrationDone_keepsQueue n s
  | allowanceRampTick => exact execAllowanceRampTick_keepsQueue s
  | joinSend => exact execJoinSend_keepsQueue s
  | imagePieceReceive => exact execImagePieceReceive_keepsQueue s
  | imageRerequestTimeout => exact execImageRerequestTimeout_keepsQueue s
  | imageBlockRequest img => exact execImageBlockRequest_keepsQueue img s
  | wireInChange n level => exact execWireInChange_keepsQueue n level s
  | wireDebounceExpiry n => exact execWireDebounceExpiry_keepsQueue n s
  | wireRecordIssue => exact execWireRecordIssue_keepsQueue s
  | carlinkHuntSync p bit => exact execCarlinkHuntSync_keepsQueue p bit s
  | carlinkCandidateFrame p bit f => exact execCarlinkCandidateFrame_keepsQueue p bit f s
  | carlinkFrameReceive p f => exact execCarlinkFrameReceive_keepsQueue p f s
  | relockSync p off f => exact execRelockSync_keepsQueue p off f s
  | relockTimeout p => exact execRelockTimeout_keepsQueue p s
  | carlinkFrameSend p incoming => exact execCarlinkFrameSend_keepsQueue p incoming s
  | rephaseStart p => exact execRephaseStart_keepsQueue p s
  | lnkMsgtxGo rq p w => exact execLnkMsgtxGo_keepsQueue rq p w s
  | standbyRequest rq w => exact execStandbyRequest_keepsQueue rq w s
  | standbyEntryComplete => exact execStandbyEntryComplete_keepsQueue s
  | standbyCoreWaitTimeout => exact execStandbyCoreWaitTimeout_keepsQueue s
  | standbyExit refCycles => exact execStandbyExit_keepsQueue refCycles s
  | pwrReadyWrite rq w => exact execPwrReadyWrite_keepsQueue rq w s
  | aonWriteTransit => exact execAonWriteTransit_keepsQueue s
  | rtcSecond => exact execRtcSecond_keepsQueue s
  | aonRtcset rq w => exact execAonRtcset_keepsQueue rq w s
  | wakePinFire n => exact execWakePinFire_keepsQueue n s
  | tamperFire => exact execTamperFire_keepsQueue s
  | tamperLatchClear rq => exact execTamperLatchClear_keepsQueue rq s
  | vbatMeasure mv10 => exact execVbatMeasure_keepsQueue mv10 s
  | pwrReqHoldExpiry => exact execPwrReqHoldExpiry_keepsQueue s
  | pwrReqRelease rq => exact execPwrReqRelease_keepsQueue rq s
  | pwrReqSwWrite rq w => exact execPwrReqSwWrite_keepsQueue rq w s
  | aonLogack rq => exact execAonLogack_keepsQueue rq s
  | deltaOpen rq => exact execDeltaOpen_keepsQueue rq s
  | deltaDelivery rq w => exact execDeltaDelivery_keepsQueue rq w s
  | deltaDeliveryDone bad => exact execDeltaDeliveryDone_keepsQueue bad s
  | deltaClose rq => exact execDeltaClose_keepsQueue rq s
  | deltaAbort rq => exact execDeltaAbort_keepsQueue rq s
  | deltaPrepareDone => exact execDeltaPrepareDone_keepsQueue s
  | deltaLockAcquired => exact execDeltaLockAcquired_keepsQueue s
  | tileQuiet n => exact execTileQuiet_keepsQueue n s
  | deltaCutOver => exact execDeltaCutOver_keepsQueue s
  | deltaDrainEnd => exact execDeltaDrainEnd_keepsQueue s
  | pageRequest reqs => exact execPageRequest_keepsQueue reqs s
  | pageFree p => exact execPageFree_keepsQueue p s
  | inkPgreq rq w => exact execInkPgreq_keepsQueue rq w s
  | inkPgfree rq n => exact execInkPgfree_keepsQueue rq n s
  | swcLockTake rq => exact execSwcLockTake_keepsQueue rq s
  | fwtLockTake rq => exact execFwtLockTake_keepsQueue rq s
  | pkeLockTake rq => exact execPkeLockTake_keepsQueue rq s
  | leaseRenew rq n => exact execLeaseRenew_keepsQueue rq n s
  | leaseRelease rq n => exact execLeaseRelease_keepsQueue rq n s
  | leaseExpiry n => exact execLeaseExpiry_keepsQueue n s
  | inkRevoke rq w => exact execInkRevoke_keepsQueue rq w s
  | reclaimDone => exact execReclaimDone_keepsQueue s
  | lodgerPeriodStart lid => exact execLodgerPeriodStart_keepsQueue lid s
  | itemRelease lid w => exact execItemRelease_keepsQueue lid w s
  | itemDispatch => exact execItemDispatch_keepsQueue s
  | itemComplete lid => exact execItemComplete_keepsQueue lid s
  | deadlineMiss lid => exact execDeadlineMiss_keepsQueue lid s
  | pageInDone lid us => exact execPageInDone_keepsQueue lid us s
  | pagingMsCheck => exact execPagingMsCheck_keepsQueue s
  | frameIngress p frame sfd => exact execFrameIngress_keepsQueue p frame sfd s
  | authenticate bad => exact execAuthenticate_keepsQueue bad s
  | frameStored p => exact execFrameStored_keepsQueue p s
  | cutThroughEnd p why => exact execCutThroughEnd_keepsQueue p why s
  | egressSelection p => exact execEgressSelection_keepsQueue p s
  | transmitDone p => exact execTransmitDone_keepsQueue p s
  | gateEntryChange p => exact execGateEntryChange_keepsQueue p s
  | gateConfigChange p => exact execGateConfigChange_keepsQueue p s
  | gateHoldDiscard p c => exact execGateHoldDiscard_keepsQueue p c s
  | policerCreditTick => exact execPolicerCreditTick_keepsQueue s
  | streamResetTimeout sh => exact execStreamResetTimeout_keepsQueue sh s
  | swcSnap rq w => exact execSwcSnap_keepsQueue rq w s
  | receiveRingWrite r => exact execReceiveRingWrite_keepsQueue r s
  | ringInterrupt r => exact execRingInterrupt_keepsQueue r s
  | transmitSlotProcess r => exact execTransmitSlotProcess_keepsQueue r s
  | pageWindowAccess rq a size v => exact execPageWindowAccess_keepsQueue rq a size v s
  | learnApply => exact execLearnApply_keepsQueue s
  | ageingScan => exact execAgeingScan_keepsQueue s
  | migrateStart rq w => exact execMigrateStart_keepsQueue rq w s
  | migrateDone => exact execMigrateDone_keepsQueue s
  | migrateCancel rq w => exact execMigrateCancel_keepsQueue rq w s
  | bankClearDone => exact execBankClearDone_keepsQueue s
  | porterGo rq w => exact execPorterGo_keepsQueue rq w s
  | porterOperation => exact execPorterOperation_keepsQueue s
  | overlayDrainDone => exact execOverlayDrainDone_keepsQueue s
  | caravanSend => exact execCaravanSend_keepsQueue s
  | caravanMerge => exact execCaravanMerge_keepsQueue s
  | redistributionInstall => exact execRedistributionInstall_keepsQueue s
  | fullRefresh => exact execFullRefresh_keepsQueue s
  | sourceTimeout lid e => exact execSourceTimeout_keepsQueue lid e s
  | frameItem lid => exact execFrameItem_keepsQueue lid s
  | cyclicRelease lid idx => exact execCyclicRelease_keepsQueue lid idx s
  | deferredSend lid idx => exact execDeferredSend_keepsQueue lid idx s
  | trnSigsel rq w => exact execTrnSigsel_keepsQueue rq w s
  | canFrameValid n f ago => exact execCanFrameValid_keepsQueue n f ago s
  | canHandoff n => exact execCanHandoff_keepsQueue n s
  | canXlFrameReceive n f ago ok => exact execCanXlFrameReceive_keepsQueue n f ago ok s
  | canFrameError n e code dph => exact execCanFrameError_keepsQueue n e code dph s
  | canBodelayExpiry n => exact execCanBodelayExpiry_keepsQueue n s
  | canRecoveryDone n => exact execCanRecoveryDone_keepsQueue n s
  | canCtlStart rq n => exact execCanCtlStart_keepsQueue rq n s
  | canCtlStop rq n => exact execCanCtlStop_keepsQueue rq n s
  | canCtlRecover rq n => exact execCanCtlRecover_keepsQueue rq n s
  | canArbitrationChoice n => exact execCanArbitrationChoice_keepsQueue n s
  | canTxEnd n ok meas => exact execCanTxEnd_keepsQueue n ok meas s
  | canSwitchBufferLoad n => exact execCanSwitchBufferLoad_keepsQueue n s
  | canTxreq rq n w => exact execCanTxreq_keepsQueue rq n w s
  | canTxcan rq n w => exact execCanTxcan_keepsQueue rq n w s
  | canRxBufferRead rq n o => exact execCanRxBufferRead_keepsQueue rq n o s
  | canRxrel rq n buf => exact execCanRxrel_keepsQueue rq n buf s
  | canPriorel rq n w => exact execCanPriorel_keepsQueue rq n w s
  | linSlotStart n => exact execLinSlotStart_keepsQueue n s
  | linHeaderReceive n sync pid => exact execLinHeaderReceive_keepsQueue n sync pid s
  | linResponseEnd n bytes framing readback ago => exact execLinResponseEnd_keepsQueue n bytes framing readback ago s
  | linSchedWrite rq n w => exact execLinSchedWrite_keepsQueue rq n w s
  | linPubWrite rq n idx k w => exact execLinPubWrite_keepsQueue rq n idx k w s
  | serialTxDequeue n => exact execSerialTxDequeue_keepsQueue n s
  | uartTxStart n => exact execUartTxStart_keepsQueue n s
  | uartFrameEnd n chars gap => exact execUartFrameEnd_keepsQueue n chars gap s
  | hdlcFrameReceive n chars => exact execHdlcFrameReceive_keepsQueue n chars s
  | uartSwtxGo rq n w => exact execUartSwtxGo_keepsQueue rq n w s
  | gpioInputChange n levels => exact execGpioInputChange_keepsQueue n levels s
  | serCtlStop rq n => exact execSerCtlStop_keepsQueue rq n s
  | serCtlStart rq n => exact execSerCtlStart_keepsQueue rq n s
  | ethLinkUp p spd hdx anok => exact execEthLinkUp_keepsQueue p spd hdx anok s
  | ethLinkDown p => exact execEthLinkDown_keepsQueue p s
  | macFrameReceive p frame sfd fcsOk sym => exact execMacFrameReceive_keepsQueue p frame sfd fcsOk sym s
  | mdioCommand rq p w => exact execMdioCommand_keepsQueue rq p w s
  | mdioDone answer => exact execMdioDone_keepsQueue answer s
  | ethTxtsRead rq p => exact execEthTxtsRead_keepsQueue rq p s
  | plcaBeaconReceive p => exact execPlcaBeaconReceive_keepsQueue p s
  | plcaInactive p => exact execPlcaInactive_keepsQueue p s
  | t1sCollision p => exact execT1sCollision_keepsQueue p s
  | syncReceive p => exact execSyncReceive_keepsQueue p s
  | syncTimeout => exact execSyncTimeout_keepsQueue s
  | tsySet rq => exact execTsySet_keepsQueue rq s
  | tsyStep rq => exact execTsyStep_keepsQueue rq s
  | tsyFadjWrite rq w => exact execTsyFadjWrite_keepsQueue rq w s
  | latchingPairRead rq a n => exact execLatchingPairRead_keepsQueue rq a n s
  | unitSleepRequest rq hi w => exact execUnitSleepRequest_keepsQueue rq hi w s
  | unitAsleep u => exact execUnitAsleep_keepsQueue u s
  | unitWakeRequest rq hi w => exact execUnitWakeRequest_keepsQueue rq hi w s
  | wakeUpFrame n f dlc => exact execWakeUpFrame_keepsQueue n f dlc s
  | wakeDominant n us => exact execWakeDominant_keepsQueue n us s
  | wakeFrameErrors n => exact execWakeFrameErrors_keepsQueue n s
  | wakePortEnergy p us => exact execWakePortEnergy_keepsQueue p us s
  | wakeWireOrPin pin idx => exact execWakeWireOrPin_keepsQueue pin idx s
  | serdesPllRestartLock g => exact execSerdesPllRestartLock_keepsQueue g s
  | validationWindowClose u => exact execValidationWindowClose_keepsQueue u s
  | wksValid rq hi w => exact execWksValid_keepsQueue rq hi w s
  | wksLogack rq w => exact execWksLogack_keepsQueue rq w s
  | linGoToSleepReceive n => exact execLinGoToSleepReceive_keepsQueue n s
  | linIdleSleep n => exact execLinIdleSleep_keepsQueue n s
  | linWakePulseTimeout n => exact execLinWakePulseTimeout_keepsQueue n s
  | pcieRead sp x bes => exact execPcieRead_keepsQueue sp x bes s
  | pcieWrite sp x ws => exact execPcieWrite_keepsQueue sp x ws s
  | qspiTransaction cmd a len bytes => exact execQspiTransaction_keepsQueue cmd a len bytes s
  | qspiStatus => exact execQspiStatus_keepsQueue s
  | msixRequest => exact execMsixRequest_keepsQueue s
  | msixPendingSend v => exact execMsixPendingSend_keepsQueue v s
  | farReadAccess rq a n => exact execFarReadAccess_keepsQueue rq a n s
  | farReadAnswer => exact execFarReadAnswer_keepsQueue s
  | farFetchTimeout b => exact execFarFetchTimeout_keepsQueue b s
  | farResultExpiry b => exact execFarResultExpiry_keepsQueue b s
  | farWrite rq a ws => exact execFarWrite_keepsQueue rq a ws s
  | farWriteAck => exact execFarWriteAck_keepsQueue s
  | farWriteTimeout tag => exact execFarWriteTimeout_keepsQueue tag s
  | farRequestServe => exact execFarRequestServe_keepsQueue s
  | eventMessageSend => exact execEventMessageSend_keepsQueue s
  | eventPacingFlush => exact execEventPacingFlush_keepsQueue s
  | remoteEventReceive => exact execRemoteEventReceive_keepsQueue s
  | brgRev0Read rq => exact execBrgRev0Read_keepsQueue rq s
  | ploilhanReceive bad => exact execPloilhanReceive_keepsQueue bad s
  | join => exact execJoin_keepsQueue s
  | joinAnswer => exact execJoinAnswer_keepsQueue s
  | heartbeatSend => exact execHeartbeatSend_keepsQueue s
  | heartbeatReceive => exact execHeartbeatReceive_keepsQueue s
  | workerLost d => exact execWorkerLost_keepsQueue d s
  | managerLost => exact execManagerLost_keepsQueue s
  | takeover => exact execTakeover_keepsQueue s
  | takeoverReceive => exact execTakeoverReceive_keepsQueue s
  | probeEnd => exact execProbeEnd_keepsQueue s
  | positionChangeRejoin => exact execPositionChangeRejoin_keepsQueue s
  | imageBlockDeltaOpen => exact execImageBlockDeltaOpen_keepsQueue s
  | imageBlockDeltaChunk => exact execImageBlockDeltaChunk_keepsQueue s
  | imageBlockDeltaClose => exact execImageBlockDeltaClose_keepsQueue s
  | imageBlockDeltaAbort => exact execImageBlockDeltaAbort_keepsQueue s
  | imageBlockStatus => exact execImageBlockStatus_keepsQueue s
  | wearReportRequest rq w => exact execWearReportRequest_keepsQueue rq w s
  | wearReportSend => exact execWearReportSend_keepsQueue s
  | remoteFullReset side => exact execRemoteFullReset_keepsQueue side s
  | remoteNormalReset side => exact execRemoteNormalReset_keepsQueue side s
  | remoteRevoke side => exact execRemoteRevoke_keepsQueue side s
  | lifecycleArm rq key target => exact execLifecycleArm_keepsQueue rq key target s
  | lifecycleCommit rq key target => exact execLifecycleCommit_keepsQueue rq key target s
  | lifecycleBurnDone => exact execLifecycleBurnDone_keepsQueue s
  | imageKeyProgram rq key slot => exact execImageKeyProgram_keepsQueue rq key slot s
  | imageKeyRevoke rq key slot => exact execImageKeyRevoke_keepsQueue rq key slot s
  | floorSet rq w => exact execFloorSet_keepsQueue rq w s
  | nodeCreate rq key parent => exact execNodeCreate_keepsQueue rq key parent s
  | nodeInvalidate rq key node => exact execNodeInvalidate_keepsQueue rq key node s
  | nodeFree rq key node => exact execNodeFree_keepsQueue rq key node s
  | slotWipe k => exact execSlotWipe_keepsQueue k s
  | wrap rq w => exact execWrap_keepsQueue rq w s
  | wrapDone => exact execWrapDone_keepsQueue s
  | shelfWrite rq key idx => exact execShelfWrite_keepsQueue rq key idx s
  | shelfErase rq key idx => exact execShelfErase_keepsQueue rq key idx s
  | keyLoad rq w => exact execKeyLoad_keepsQueue rq w s
  | keyLoadDone => exact execKeyLoadDone_keepsQueue s
  | wldLock rq w => exact execWldLock_keepsQueue rq w s
  | secureCall core => exact execSecureCall_keepsQueue core s
  | debugAccess w a v n => exact execDebugAccess_keepsQueue w a v n s
  | ckvRingTail rq ns w => exact execCkvRingTail_keepsQueue rq ns w s
  | ckvDispatch l => exact execCkvDispatch_keepsQueue l s
  | ckvJobDone l agree => exact execCkvJobDone_keepsQueue l agree s
  | pkeJobGo rq w => exact execPkeJobGo_keepsQueue rq w s
  | pkeJobEnd inv cyc => exact execPkeJobEnd_keepsQueue inv cyc s
  | pkeSlenWrite rq k w => exact execPkeSlenWrite_keepsQueue rq k w s
  | pkeOpdataAccess rq v => exact execPkeOpdataAccess_keepsQueue rq v s
  | digestGo rq ns w => exact execDigestGo_keepsQueue rq ns w s
  | digestDone ns => exact execDigestDone_keepsQueue ns s
  | drgDataRead rq => exact execDrgDataRead_keepsQueue rq s
  | drbgReseed rq => exact execDrbgReseed_keepsQueue rq s
  | entropyHealthFail apt => exact execEntropyHealthFail_keepsQueue apt s
  | adcConversion idx code => exact execAdcConversion_keepsQueue idx code s
  | pwmTrigger m icode vcode waited => exact execPwmTrigger_keepsQueue m icode vcode waited s
  | motorRun rq m w => exact execMotorRun_keepsQueue rq m w s
  | motorStop rq m => exact execMotorStop_keepsQueue rq m s
  | motorCoast rq m => exact execMotorCoast_keepsQueue rq m s
  | motorClear rq m => exact execMotorClear_keepsQueue rq m s
  | motorObservationEnd m events rpm rev => exact execMotorObservationEnd_keepsQueue m events rpm rev s
  | motorMeasurementEnd m events rpm rev => exact execMotorMeasurementEnd_keepsQueue m events rpm rev s
  | motorPositionEvent m code ns => exact execMotorPositionEvent_keepsQueue m code ns s
  | motorPwmPeriod m => exact execMotorPwmPeriod_keepsQueue m s
  | motorAlignEnd m => exact execMotorAlignEnd_keepsQueue m s
  | motorHandoverTimeout m => exact execMotorHandoverTimeout_keepsQueue m s
  | motorStallTimeout m => exact execMotorStallTimeout_keepsQueue m s
  | motorWaitLimit m => exact execMotorWaitLimit_keepsQueue m s
  | motorHallInvalid m code => exact execMotorHallInvalid_keepsQueue m code s
  | motorFltInput m => exact execMotorFltInput_keepsQueue m s
  | motorTest rq m w => exact execMotorTest_keepsQueue rq m w s
  | lampCommand rq n w => exact execLampCommand_keepsQueue rq n w s
  | lampTokenGrant g => exact execLampTokenGrant_keepsQueue g s
  | lampInrushEnd n above => exact execLampInrushEnd_keepsQueue n above s
  | lampHardShort n => exact execLampHardShort_keepsQueue n s
  | lampOvercurrent n => exact execLampOvercurrent_keepsQueue n s
  | lampGroupLimit g => exact execLampGroupLimit_keepsQueue g s
  | lampDisturbanceEnd g => exact execLampDisturbanceEnd_keepsQueue g s
  | lampCoolDownEnd n => exact execLampCoolDownEnd_keepsQueue n s
  | lampBlinkPhase n => exact execLampBlinkPhase_keepsQueue n s
  | lampOpenDetect n below => exact execLampOpenDetect_keepsQueue n below s
  | lampTriesReset n => exact execLampTriesReset_keepsQueue n s
  | lampTest rq w => exact execLampTest_keepsQueue rq w s
  | ledgerSecond => exact execLedgerSecond_keepsQueue s
  | temperatureMeasure t => exact execTemperatureMeasure_keepsQueue t s
  | ringOscillatorMeasure ppm => exact execRingOscillatorMeasure_keepsQueue ppm s
  | ledgerSave => exact execLedgerSave_keepsQueue s
  | ledgerSaveDone => exact execLedgerSaveDone_keepsQueue s
  | monthlySample => exact execMonthlySample_keepsQueue s
  | werReset rq w => exact execWerReset_keepsQueue rq w s
  | werSel rq w => exact execWerSel_keepsQueue rq w s
  | evcRouteWrite rq e w => exact execEvcRouteWrite_keepsQueue rq e w s
  | evcSoft rq w => exact execEvcSoft_keepsQueue rq w s
  | w1cWrite rq a w n => exact execW1cWrite_keepsQueue rq a w n s
  | rcRead rq a n => exact execRcRead_keepsQueue rq a n s
  | registerWrite rq a w n => exact execRegisterWrite_keepsQueue rq a w n s
  | suppliesValid => exact execSuppliesValid_keepsQueue s
  | pfailRise => exact execPfailRise_keepsQueue s
  | wakePinRearm n => exact execWakePinRearm_keepsQueue n s
  | tamperRearm => exact execTamperRearm_keepsQueue s
  | serdesPllRelock g => exact execSerdesPllRelock_keepsQueue g s
  | pcieLinkChange up gen width => exact execPcieLinkChange_keepsQueue up gen width s
  | transmitOpportunity p => exact execTransmitOpportunity_keepsQueue p s
  | serialTxEnd n echo => exact execSerialTxEnd_keepsQueue n echo s
  | boundaryScanInstruction idx => exact execBoundaryScanInstruction_keepsQueue idx s

end Sys2Proof.Machine

namespace Sys2Proof.Machine

/-! # The frame of a message write (R66) -/

/-- Refutes O49: a write of LNK_MSGTXA takes `len` and `go` with `dst` (R66), and the line of `lnkMsgtxGo` lists `dst` alone. From reset, a
normal-world core writes 0x100, a length of 1 and nothing else: LNK_MSGTXA.len goes from 0 to 1. -/
theorem not_supplyFrames : ¬ Obligations.SupplyFrames := by
  unfold Obligations.SupplyFrames
  rintro ⟨-, -, -, -, -, -, -, -, -, -, -, -, -, -, -, -, -, -, -, -, -, -, -, -, -, -, -, -, -, -, -, hmsg⟩
  obtain ⟨t, ht, hlen⟩ : ∃ t, exec (.lnkMsgtxGo (.core 0 .normal) .a 0x100#32) State.reset = .next t ∧ getF LNK_MSGTXA_len t = 1 :=
    ⟨_, rfl, by decide⟩
  have hkept : getF LNK_MSGTXA_len t = getF LNK_MSGTXA_len State.reset := (hmsg _ _ _ _ t ht).1 LNK_MSGTXA_len (by decide)
  have hreset : getF LNK_MSGTXA_len State.reset = 0 := by decide
  omega

end Sys2Proof.Machine

namespace Sys2Proof.Machine

/-! # What the switch core leaves of the car link and the wire path

Wire records and delivered messages go to their destinations through the page pool, the policers and the egress queues. Nothing there touches
the two car link ports, the wire path or a register of the link's block; one equation for each function says so. -/

/-- A field of the car link's block of registers (R496). -/
def onLink (f : Fld) : Bool := decide (0x400B0000 * 32 ≤ f.key) && decide (f.key < 0x400C0000 * 32)

theorem onLink_of_lt {f : Fld} (h : f.key < 0x400B0000 * 32) : onLink f = false := by
  simp [onLink, Nat.not_le.2 h]

theorem onLink_of_ge {f : Fld} (h : 0x400C0000 * 32 ≤ f.key) : onLink f = false := by
  simp [onLink, Nat.not_lt.2 h]

/-- The car link and the wire path as a state holds them: the ports, the wire path, and the registers of their block. -/
def linkView (s : State) : LinkPort × LinkPort × WireState × (Fld → Nat) :=
  (s.linkA, s.linkB, s.wires, fun f => if onLink f then getF f s else 0)

theorem wires_of_linkView {s t : State} (h : linkView t = linkView s) : t.wires = s.wires := congrArg (·.2.2.1) h

theorem linkOf_of_linkView {s t : State} (h : linkView t = linkView s) (p : LinkSide) : linkOf p t = linkOf p s := by
  cases p
  · exact congrArg (·.1) h
  · exact congrArg (·.2.1) h

theorem getF_of_linkView {s t : State} (h : linkView t = linkView s) {f : Fld} (hf : onLink f = true) : getF f t = getF f s := by
  have h2 : (linkView t).2.2.2 f = (linkView s).2.2.2 f := by rw [h]
  simpa [linkView, hf] using h2

theorem linkView_ite (c : Prop) [Decidable c] (s t : State) :
    linkView (if c then s else t) = if c then linkView s else linkView t := apply_ite _ _ _ _

theorem linkView_applyAll {α : Type} {l : List α} {g : α → State → State} (hg : ∀ x ∈ l, ∀ s, linkView (g x s) = linkView s)
    (s : State) : linkView (applyAll l g s) = linkView s := by
  induction l generalizing s with
  | nil => rfl
  | cons a r ih => exact (ih (fun x hx => hg x (by simp [hx])) (g a s)).trans (hg a (by simp) s)

/-! ## Register fields and events -/

theorem linkView_setF {g : Fld} (hg : onLink g = false) (v : Nat) (s : State) : linkView (setF g v s) = linkView s := by
  have hfields : ∀ f, (if onLink f then getF f (setF g v s) else 0) = if onLink f then getF f s else 0 := by
    intro f
    split
    · next hf => exact getF_setF_ne v s fun h => by simp [onLink, h] at hf hg; omega
    · rfl
  simp only [linkView, setF_linkA, setF_linkB, setF_wires, hfields]

theorem linkView_setB {g : Fld} (hg : onLink g = false) (b : Bool) (s : State) : linkView (setB g b s) = linkView s :=
  linkView_setF hg _ s

theorem linkView_incF {g : Fld} (hg : onLink g = false) (n : Nat) (s : State) : linkView (incF g n s) = linkView s :=
  linkView_setF hg _ s

theorem linkView_orF {g : Fld} (hg : onLink g = false) (m : Nat) (s : State) : linkView (orF g m s) = linkView s :=
  linkView_setF hg _ s

theorem onLink_evPend (e : Nat) : onLink (evPend e) = false := by
  unfold evPend
  split <;> rfl

/-- The fields of an event are the event controller's (R487). -/
theorem onLink_evcCnt {e : Nat} (he : e < 64) : onLink (EVC_CNT_cnt e) = false :=
  onLink_of_lt (by simp only [Fld.key, EVC_CNT_cnt]; omega)

theorem linkView_raiseNow {e : Nat} (he : e < 64) (s : State) : linkView (raiseNow e s) = linkView s := by
  have h : linkView (incF (EVC_CNT_cnt e) 1 (orF (evPend e) (2 ^ (e % 32)) s)) = linkView s := by
    rw [linkView_incF (onLink_evcCnt he), linkView_orF (onLink_evPend e)]
  rw [← h]
  unfold raiseNow
  split <;> split <;> rfl

theorem linkView_raise {e : Nat} (he : e < 64) (s : State) : linkView (raise e s) = linkView s := by
  unfold raise
  split
  · rfl
  · split
    · rfl
    · exact linkView_raiseNow he s

theorem linkView_raiseOnce {e : Nat} (he : e < 64) (i : Nat) (s : State) : linkView (raiseOnce e i s) = linkView s := by
  unfold raiseOnce
  split
  · rfl
  · exact linkView_raise he _

/-! ## Pages -/

theorem linkView_poolTake (s : State) : linkView (poolTake s) = linkView s := by
  simp (disch := decide) only [poolTake, linkView_ite, linkView_raise, linkView_setF, linkView_setB, ite_self]

theorem linkView_poolReturn (s : State) : linkView (poolReturn s) = linkView s := by
  simp (disch := decide) only [poolReturn, linkView_ite, linkView_setF, linkView_setB, ite_self]

theorem linkView_takePage (i : Nat) (s : State) : linkView (takePage i s).2 = linkView s := by
  unfold takePage
  dsimp only
  split
  · rfl
  · exact linkView_poolTake _

theorem linkView_grantPage (idx i : Nat) (s : State) : linkView (grantPage idx i s).2 = linkView s := by
  unfold grantPage
  dsimp only
  split <;> simp (disch := decide) only [linkView_setF, linkView_takePage]

theorem linkView_takePages (idx i n : Nat) (s : State) : linkView (takePages idx i n s).2.2 = linkView s := by
  induction n generalizing s with
  | zero => rfl
  | succ n ih =>
    unfold takePages
    split
    · rfl
    · simp only [ih, linkView_grantPage]

/-- The reasons with which a set's request is refused (R180, R186). -/
theorem pageAnswer_reason {i r : Nat} {s : State} (h : pageAnswer i s = .noPage r) : r ≤ 3 := by
  simp only [pageAnswer] at h
  split_ifs at h <;> cases h <;> decide

/-- A request is refused for one of the reasons 1 to 3 (R186). -/
theorem takePages_reason (idx i n : Nat) (s : State) : (takePages idx i n s).1 ≤ 3 := by
  induction n generalizing s with
  | zero => simp [takePages]
  | succ n ih =>
    unfold takePages
    split
    · next r h => exact pageAnswer_reason h
    · exact ih _

theorem linkView_linkPages (l : List Nat) (s : State) : linkView (linkPages l s) = linkView s := by
  induction l, s using linkPages.induct with
  | case1 s => rfl
  | case2 s p => rfl
  | case3 s p q r ih => exact ih

theorem linkView_freePage (p : Nat) (s : State) : linkView (freePage p s) = linkView s := by
  unfold freePage
  dsimp only
  split
  · split
    · exact linkView_poolReturn _
    · rfl
  · rfl

theorem linkView_freePages (l : List Nat) (s : State) : linkView (freePages l s) = linkView s :=
  linkView_applyAll (fun p _ => linkView_freePage p) s

theorem linkView_sharePages (l : List Nat) (n : Nat) (s : State) : linkView (sharePages l n s) = linkView s :=
  linkView_applyAll (g := fun p t => { t with ink := { t.ink with refs := tabPut 0 t.ink.refs p (pageRefs p t + n) } }) (fun _ _ _ => rfl) s

/-- The drop counts of the ingress ports are the Innkeeper's (R186). -/
theorem linkView_countDrop {p r : Nat} (hp : p < 20) (hr : r < 8) (s : State) : linkView (countDrop p r s) = linkView s :=
  linkView_incF (onLink_of_lt (by simp only [Fld.key, INK_DROP_count]; omega)) 1 s

/-! ## Lodgers -/

theorem linkView_setLodger (lid : Nat) (l : Lodger) (s : State) : linkView (setLodger lid l s) = linkView s := rfl

theorem linkView_evict (lid : Nat) (s : State) : linkView (evict lid s) = linkView s := rfl

theorem linkView_pageIn (lid : Nat) (s : State) : linkView (pageIn lid s) = linkView s := rfl

theorem linkView_pinIn (lid : Nat) (s : State) : linkView (pinIn lid s) = linkView s := by
  unfold pinIn
  split
  · rfl
  · split <;> rfl

theorem linkView_contextFault (lid : Nat) (s : State) : linkView (contextFault lid s) = linkView s := by
  unfold contextFault
  split
  · simp only [linkView_ite, linkView_pinIn, ite_self]
  split
  · simp only [linkView_ite, linkView_pageIn, ite_self]
  · split <;> simp (disch := decide) only [linkView_ite, linkView_pageIn, linkView_evict, linkView_raise, linkView_setB,
      linkView_setLodger, ite_self]

/-- A frame released to a lodger counts at most for its own ingress port (R197). -/
theorem linkView_releaseFrame (lid : Nat) {w : Waybill} (hw : w.src < 20) (s : State) :
    linkView (releaseItem lid (.frame w) s) = linkView s := by
  have hdrop (t : State) : linkView (countDrop w.src 5 t) = linkView t := linkView_countDrop hw (by decide) t
  simp only [releaseItem, linkView_ite, hdrop, linkView_freePages, linkView_contextFault, linkView_setLodger, ite_self]

/-! ## The switch core -/

theorem linkView_twr (a : Nat) (b : List Byte) (s : State) : linkView (twr a b s) = linkView s := by
  induction b generalizing a s with
  | nil => rfl
  | cons x r ih => exact ih _ _

theorem linkView_entWr (t i : Nat) (b : List Byte) (s : State) : linkView (entWr t i b s) = linkView s := linkView_twr _ _ s

theorem linkView_wrBytes (a : Nat) (l : List Byte) (s : State) : linkView (wrBytes a l s) = linkView s := by
  rw [wrBytes_eq]
  rfl

theorem linkView_storeFrame (l : List Nat) (b : List Byte) (s : State) : linkView (storeFrame l b s) = linkView s := by
  induction l generalizing b s with
  | nil => rfl
  | cons p r ih => exact (ih _ _).trans (linkView_wrBytes _ _ s)

theorem linkView_swc (c : SwcState) (s : State) : linkView { s with swc := c } = linkView s := rfl

theorem linkView_swBump (p i n : Nat) (s : State) : linkView (swBump p i n s) = linkView s := rfl

theorem linkView_setQueue (k : Nat) (q : List Replica) (s : State) : linkView (setQueue k q s) = linkView s := rfl

theorem linkView_dropReplica (r : Replica) (s : State) : linkView (dropReplica r s) = linkView s := linkView_freePages _ s

theorem linkView_discard (p i : Nat) (r : Replica) (s : State) : linkView (discard p i r s) = linkView s := linkView_dropReplica r s

theorem linkView_ringDrop {r : Nat} (hr : r < 64) (n : Nat) (s : State) : linkView (ringDrop r n s) = linkView s :=
  linkView_incF (onLink_of_lt (by simp only [Fld.key, SWC_RSTAT_drop]; omega)) n s

theorem linkView_creditUpdate (p : Nat) (s : State) : linkView (creditUpdate p s) = linkView s := by
  unfold creditUpdate
  split
  · rfl
  · extract_lets now dt put s1
    have h : linkView s1 = linkView s := linkView_applyAll (g := put) (fun _ _ t => linkView_swc _ t) s
    exact (linkView_swc _ s1).trans h

theorem linkView_refreshHold (p : Nat) (s : State) : linkView (refreshHold p s) = linkView s := by
  unfold refreshHold
  split
  · exact linkView_setF (onLink_of_lt (by simp only [Fld.key, SWC_GSTAT_hold]; omega)) _ s
  · rfl

/-- The tiles' own drop counts lie above the link's block. -/
theorem linkView_txDrop (n : Nat) (s : State) :
    linkView (incF (CAN_TXDROP_flush n) 1 s) = linkView s ∧ linkView (incF (SER_TXDROP_bad n) 1 s) = linkView s :=
  ⟨linkView_incF (onLink_of_ge (by simp only [Fld.key, CAN_TXDROP_flush]; omega)) 1 s,
   linkView_incF (onLink_of_ge (by simp only [Fld.key, SER_TXDROP_bad]; omega)) 1 s⟩

theorem linkView_enqueue (p : Nat) {r : Replica} (hr : r.sub < 64) (s : State) : linkView (enqueue p r s) = linkView s := by
  unfold enqueue
  split <;> simp only [linkView_discard, linkView_txDrop, linkView_ringDrop hr, linkView_dropReplica, linkView_refreshHold,
    linkView_setQueue, linkView_creditUpdate]

/-- A replica whose sub-destination and ingress port are ones the part has (R189). -/
def Replica.InRange (r : Replica) : Prop := r.sub < 64 ∧ r.wb.src < 20

theorem linkView_toTranscriber {r : Replica} (hr : r.InRange) (s : State) : linkView (toTranscriber r s) = linkView s := by
  unfold toTranscriber
  dsimp only
  split
  · exact linkView_releaseFrame _ (w := { r.wb with lodger := some _ }) hr.2 s
  · exact linkView_dropReplica r s

theorem linkView_joinPlain (p : Nat) {r : Replica} (hr : r.InRange) (s : State) : linkView (joinPlain p r s) = linkView s := by
  simp only [joinPlain, linkView_ite, linkView_toTranscriber hr, linkView_discard, linkView_enqueue p hr.1, ite_self]

/-- A mirror copy goes where its frame may go. -/
theorem inRange_mirrorOf {r : Replica} (hr : r.InRange) (s : State) : (mirrorOf r s).InRange := hr

theorem linkView_joinQueue (p : Nat) {r : Replica} (hr : r.InRange) (s : State) : linkView (joinQueue p r s) = linkView s := by
  simp only [joinQueue, linkView_ite, linkView_discard, linkView_joinPlain _ (inRange_mirrorOf hr s), linkView_joinPlain _ hr,
    linkView_sharePages, ite_self]

theorem linkView_ingressCopy {w : Waybill} (hw : w.src < 20) (s : State) : linkView (ingressCopy w false s) = linkView s := by
  have hr : Replica.InRange { wb := w } := ⟨Nat.lt_succ_self 63, hw⟩
  simp only [ingressCopy, Bool.false_eq_true, if_false, linkView_ite, linkView_joinPlain _ (inRange_mirrorOf hr s), linkView_sharePages,
    ite_self]

/-- The replicas of a Waybill that names a ring of the part and no sub-destination. -/
theorem inRange_of_mem_replicasOf {w : Waybill} (hw : w.src < 20) (hring : w.ring < 64) (hsub : w.dsub = []) {e : Nat × Replica}
    (he : e ∈ replicasOf w none false) : e.2.InRange := by
  obtain ⟨p, -, hp⟩ := List.mem_flatMap.1 he
  have h : e.2.wb = w ∧ (e.2.sub = w.ring ∨ e.2.sub = 63) := by
    simp only [hsub] at hp
    split_ifs at hp <;> simp_all
  obtain ⟨hwb, hr | hr⟩ := h
  · exact ⟨hr ▸ hring, hwb ▸ hw⟩
  · exact ⟨by omega, hwb ▸ hw⟩

theorem linkView_internalInline {w : Waybill} (hw : w.src < 20) (hring : w.ring < 64) (hsub : w.dsub = []) (s : State) :
    linkView (internalInline w s) = linkView s :=
  (linkView_applyAll (fun e he => linkView_joinQueue e.1 (inRange_of_mem_replicasOf hw hring hsub he)) _).trans (linkView_ingressCopy hw s)

theorem linkView_police (i charge : Nat) (s : State) : linkView (police i charge s).2 = linkView s := by
  unfold police
  split
  · exact linkView_incF rfl 1 s
  dsimp only
  split
  · exact linkView_entWr _ _ _ s
  · split <;> simp (disch := decide) only [linkView_entWr, linkView_raiseOnce, linkView_setF]

theorem linkView_flowDrop (f : Flow) (i : Nat) (s : State) : linkView (flowDrop f i s) = linkView s := linkView_freePages _ s

/-- A frame of the part's own whose destinations are decided (R217). -/
theorem linkView_replicate {f : Flow} (hw : f.wb.src = 17) (hring : f.wb.ring < 64) (hsub : f.wb.dsub = []) (s : State) :
    linkView (replicate f none false false s) = linkView s := by
  have hagain : (decide (f.wb.src = 19) && f.wb.dmask.testBit 19) = false := by simp [hw]
  have hjoin (q : Nat × Replica → Bool) (t : State) :
      linkView (applyAll ((replicasOf f.wb none false).filter q) (fun e => joinQueue e.1 e.2) t) = linkView t :=
    linkView_applyAll (fun e he =>
      linkView_joinQueue e.1 (inRange_of_mem_replicasOf (by omega) hring hsub (List.mem_filter.1 he).1)) t
  simp only [replicate, hagain, Bool.false_eq_true, if_false, Bool.false_or, linkView_ite, linkView_freePages, linkView_flowDrop, hjoin,
    linkView_swBump, ite_self]
  split
  · rfl
  · refine (linkView_sharePages _ _ _).trans ?_
    simp only [linkView_ite, linkView_swBump, ite_self]

/-! ## Pages for a frame of the part's own -/

theorem linkView_setFilling (k : Nat) (l : List Nat) (s : State) : linkView (setFilling k l s) = linkView s := rfl

theorem linkView_pagesOf (w : Waybill) (tc len : Nat) (lossless : Bool) (s : State) :
    linkView (pagesOf w tc len lossless s).2.2 = linkView s := by
  unfold pagesOf
  split <;> simp only [linkView_ite, ite_snd, linkView_freePages, linkView_setFilling, linkView_takePages, ite_self]

/-- What refuses a frame its pages is one of the reasons 1 to 3 (R186). -/
theorem pagesOf_reason (w : Waybill) (tc len : Nat) (lossless : Bool) (s : State) : (pagesOf w tc len lossless s).1 ≤ 3 := by
  unfold pagesOf
  extract_lets k have0 need r all
  have hr : r.1 ≤ 3 := by
    unfold r
    split
    · exact Nat.le_add_left 1 2
    · exact takePages_reason _ _ _ s
  split_ifs
  · exact Nat.zero_le 3
  · exact Nat.zero_le 3
  · exact hr
  · exact hr

theorem linkView_setHolds (k : Nat) (l : List Held) (s : State) : linkView (setHolds k l s) = linkView s := rfl

theorem linkView_obufShow (s : State) : linkView (obufShow s) = linkView s := by
  simp (disch := decide) only [obufShow, linkView_setF, linkView_setB]

/-- A Waybill of the car link block: on port 17, of no tile, for a CPU ring (R67). -/
def LinkWaybill (w : Waybill) : Prop := w.src = 17 ∧ 48 ≤ w.tile ∧ w.ring < 64 ∧ w.dsub = []

theorem linkView_enterHostel {w : Waybill} (hw : LinkWaybill w) (frame : List Byte) (pages : List Nat) (s : State) :
    linkView (enterHostel w frame false pages s) = linkView s := by
  obtain ⟨hsrc, htile, hring, hsub⟩ := hw
  have hown : (decide (w.src = 18) || decide (w.src = 17) && decide (w.tile ≥ 48)) = true := by simp [hsrc, htile]
  simp only [enterHostel, hown, if_true]
  rw [linkView_replicate hsrc hring hsub, linkView_ingressCopy (by simp [hsrc]), linkView_storeFrame, linkView_linkPages]

theorem linkView_offerFrame {w : Waybill} (hw : LinkWaybill w) (frame : List Byte) (s : State) :
    linkView (offerFrame w frame false s) = linkView s := by
  have henter (g : Nat) (pages : List Nat) (t : State) : linkView (enterHostel { w with gen := g } frame false pages t) = linkView t :=
    linkView_enterHostel (w := { w with gen := g }) hw frame pages t
  have hdrop {r : Nat} (hr : r ≤ 4) (t : State) : linkView (countDrop w.src r t) = linkView t :=
    linkView_countDrop (by rw [hw.1]; decide) (by omega) t
  simp only [offerFrame, linkView_ite, linkView_obufShow, linkView_setHolds, hdrop (Nat.le_refl 4),
    hdrop (Nat.le_succ_of_le (pagesOf_reason _ _ _ _ _)), linkView_pagesOf, henter, ite_self]

theorem policeOwn_some {graph : Nat} {w w1 : Waybill} {frame : List Byte} {s t : State} (h : policeOwn graph w frame s = (some w1, t)) :
    ∃ tc, w1 = { w with tc := tc } := by
  unfold policeOwn at h
  split at h
  · split at h
    · dsimp only at h
      split at h <;> cases h
      · exact ⟨_, rfl⟩
      · exact ⟨w.tc, rfl⟩
    · cases h; exact ⟨w.tc, rfl⟩
  · cases h; exact ⟨w.tc, rfl⟩

theorem linkView_policeOwn (graph : Nat) (w : Waybill) (frame : List Byte) (s : State) :
    linkView (policeOwn graph w frame s).2 = linkView s := by
  unfold policeOwn
  split
  · split
    · dsimp only
      split <;> simp only [linkView_swBump, linkView_police]
    · rfl
  · rfl

theorem linkView_sendOwn (graph : Nat) {w : Waybill} (hw : LinkWaybill w) (frame : List Byte) (s : State) :
    linkView (sendOwn graph w frame s) = linkView s := by
  have hpolice := linkView_policeOwn graph w frame (swBump 17 cRxoct frame.length (swBump 17 cRxfrm 1 s))
  unfold sendOwn
  split
  · next w1 s1 h =>
    obtain ⟨tc, rfl⟩ := policeOwn_some h
    rw [h] at hpolice
    exact (linkView_offerFrame (w := { w with tc := tc }) hw frame s1).trans hpolice
  · next s1 h =>
    rw [h] at hpolice
    exact hpolice

end Sys2Proof.Machine

namespace Sys2Proof.Machine

/-! # The car link's operations: what they do to a port

Of a port's state and of the fields that show a receiver's lock and its last fcnt, one equation for each function of the car link. -/

@[simp] theorem linkOf_setLink_self (p : LinkSide) (l : LinkPort) (s : State) : linkOf p (setLink p l s) = l := by cases p <;> rfl

@[simp] theorem linkOf_setLink_otherSide (p : LinkSide) (l : LinkPort) (s : State) :
    linkOf p (setLink (otherSide p) l s) = linkOf p s := by cases p <;> rfl

theorem setF_setLink (f : Fld) (v : Nat) (p : LinkSide) (l : LinkPort) (s : State) :
    setF f v (setLink p l s) = setLink p l (setF f v s) := by cases p <;> rfl

@[simp] theorem setLink_outbox (p : LinkSide) (l : LinkPort) (s : State) : (setLink p l s).outbox = s.outbox := by cases p <;> rfl

@[simp] theorem linkOf_setF (p : LinkSide) (f : Fld) (v : Nat) (s : State) : linkOf p (setF f v s) = linkOf p s := by cases p <;> rfl

theorem linkOf_incF (p : LinkSide) (f : Fld) (n : Nat) (s : State) : linkOf p (incF f n s) = linkOf p s := linkOf_setF p f _ s

@[simp] theorem linkOf_wires (p : LinkSide) (w : WireState) (s : State) : linkOf p { s with wires := w } = linkOf p s := by cases p <;> rfl

theorem linkOf_raise {e : Nat} (he : e < 64) (p : LinkSide) (s : State) : linkOf p (raise e s) = linkOf p s :=
  linkOf_of_linkView (linkView_raise he s) p

theorem linkOf_ite (p : LinkSide) (c : Prop) [Decidable c] (s t : State) :
    linkOf p (if c then s else t) = if c then linkOf p s else linkOf p t := apply_ite _ _ _ _

theorem linkOf_applyAll {α : Type} (p : LinkSide) {l : List α} {g : α → State → State} (hg : ∀ x s, linkOf p (g x s) = linkOf p s)
    (s : State) : linkOf p (applyAll l g s) = linkOf p s :=
  applyAll_of (P := fun t => linkOf p t = linkOf p s) l g (fun x t h => (hg x t).trans h) s rfl

theorem linkOf_wireChange (q : LinkSide) (n : Nat) (st received : Bool) (p : LinkSide) (hop fcnt : Nat) (s : State) :
    linkOf q (wireChange n st received p hop fcnt s) = linkOf q s := by
  simp only [wireChange, linkOf_ite, linkOf_wires, orF_eq, incWrap_eq, setB_eq, linkOf_setF, ite_self]

theorem linkOf_receivedStates (p : LinkSide) (w : Nat) (hops : List Nat) (fcnt : Nat) (s : State) :
    linkOf p (receivedStates p w hops fcnt s) = { linkOf p s with w := w } := by
  simp only [receivedStates]
  rw [linkOf_applyAll p (fun _ _ => linkOf_wireChange _ _ _ _ _ _ _ _), linkOf_setLink_self]

theorem linkOf_setOrigins (q p : LinkSide) (o : List Nat) (s : State) : linkOf q (setOrigins p o s) = linkOf q s :=
  linkOf_applyAll q (fun _ _ => linkOf_setF _ _ _ _) s

theorem linkOf_showAlarms (p : LinkSide) (s : State) : linkOf p (showAlarms s) = linkOf p s := by
  simp (disch := decide) only [showAlarms, linkOf_ite, linkOf_raise, setB_eq, linkOf_setF, ite_self]

theorem linkOf_setRxState (p : LinkSide) (r : RxState) (s : State) : linkOf p (setRxState p r s) = { linkOf p s with rx := r } := by
  simp only [setRxState, linkOf_ite, setB_eq, linkOf_setF, linkOf_setLink_self, ite_self]

theorem linkOf_sourceLost (p : LinkSide) (s : State) : linkOf p (sourceLost p s) = linkOf p s := by
  unfold sourceLost
  dsimp only
  split <;> simp only [linkOf_setLink_otherSide]

theorem linkOf_sourceGained (p : LinkSide) (s : State) : linkOf p (sourceGained p s) = linkOf p s := by
  unfold sourceGained
  dsimp only
  split <;> simp only [linkOf_setLink_otherSide]

theorem linkOf_headerFollow (q p : LinkSide) (f : LinkFrame) (s : State) : linkOf q (headerFollow p f s) = linkOf q s := by
  simp only [headerFollow, linkOf_ite, setB_eq, linkOf_setF, ite_self]

theorem linkOf_positionFollow (q : LinkSide) (f : LinkFrame) (s : State) : linkOf q (positionFollow f s) = linkOf q s := by
  simp only [positionFollow, linkOf_ite, setB_eq, linkOf_setF, ite_self]

theorem linkOf_hopFollow (q : LinkSide) (f : LinkFrame) (s : State) : linkOf q (hopFollow f s) = linkOf q s := by
  simp only [hopFollow, linkOf_ite, setB_eq, linkOf_setF, ite_self]

/-- A message on its way to its ring leaves the link as it was (R67). -/
theorem linkView_deliverMessage (p : LinkSide) (f : LinkFrame) (s : State) : linkView (deliverMessage p f s) = linkView s := by
  refine linkView_sendOwn 0 ⟨rfl, Nat.le_add_left 48 15, ?_, rfl⟩ _ s
  exact (getF_lt LNK_MSGCTL_ring s).trans (by decide)

theorem linkOf_deliverMessage (q p : LinkSide) (f : LinkFrame) (s : State) : linkOf q (deliverMessage p f s) = linkOf q s :=
  linkOf_of_linkView (linkView_deliverMessage p f s) q

/-! ## The fields that show lock, its loss and the last fcnt -/

/-- LNK_EVT of lock and loss, and LNK_FCNT of reception (R55, R58, R59). -/
def rxFields : List Fld := [LNK_EVT_locka, LNK_EVT_lossa, LNK_EVT_lockb, LNK_EVT_lossb, LNK_FCNT_rxa, LNK_FCNT_rxb]

/-- Their values. -/
def rxVals (s : State) : List Nat := rxFields.map fun f => getF f s

theorem getF_of_rxVals {s t : State} (h : rxVals t = rxVals s) {f : Fld} (hf : f ∈ rxFields) : getF f t = getF f s :=
  List.map_inj_left.1 h f hf

theorem rxVals_of_linkView {s t : State} (h : linkView t = linkView s) : rxVals t = rxVals s := by
  have hon : ∀ f ∈ rxFields, onLink f = true := by decide
  exact List.map_inj_left.2 fun f hf => getF_of_linkView h (hon f hf)

theorem rxVals_setF {g : Fld} (hg : g.key ∉ rxFields.map Fld.key) (v : Nat) (s : State) : rxVals (setF g v s) = rxVals s :=
  List.map_inj_left.2 fun _ hf => getF_setF_ne v s fun h => hg (h ▸ List.mem_map_of_mem hf)

theorem rxVals_setLink (p : LinkSide) (l : LinkPort) (s : State) : rxVals (setLink p l s) = rxVals s := by cases p <;> rfl

theorem rxVals_wires (w : WireState) (s : State) : rxVals { s with wires := w } = rxVals s := rfl

theorem rxVals_ite (c : Prop) [Decidable c] (s t : State) : rxVals (if c then s else t) = if c then rxVals s else rxVals t :=
  apply_ite _ _ _ _

theorem rxVals_applyAll {α : Type} {l : List α} {g : α → State → State} (hg : ∀ x s, rxVals (g x s) = rxVals s) (s : State) :
    rxVals (applyAll l g s) = rxVals s :=
  applyAll_of (P := fun t => rxVals t = rxVals s) l g (fun x t h => (hg x t).trans h) s rfl

theorem rxVals_raise {e : Nat} (he : e < 64) (s : State) : rxVals (raise e s) = rxVals s := rxVals_of_linkView (linkView_raise he s)

theorem isSet_raise_rx {e : Nat} (he : e < 64) {f : Fld} (hf : f ∈ rxFields) (s : State) : isSet f (raise e s) = isSet f s :=
  congrArg (· != 0) (getF_of_rxVals (rxVals_raise he s) hf)

theorem rxVals_deliverMessage (p : LinkSide) (f : LinkFrame) (s : State) : rxVals (deliverMessage p f s) = rxVals s :=
  rxVals_of_linkView (linkView_deliverMessage p f s)

theorem rxVals_wireChange (n : Nat) (st received : Bool) (p : LinkSide) (hop fcnt : Nat) (s : State) :
    rxVals (wireChange n st received p hop fcnt s) = rxVals s := by
  have hseq (v : Nat) (t : State) : rxVals (setF (wireSeq n) v t) = rxVals t :=
    rxVals_setF (by unfold wireSeq; split <;> decide) v t
  simp (disch := decide) only [wireChange, rxVals_ite, rxVals_wires, orF_eq, incWrap_eq, setB_eq, hseq, rxVals_setF, ite_self]

theorem rxVals_receivedStates (p : LinkSide) (w : Nat) (hops : List Nat) (fcnt : Nat) (s : State) :
    rxVals (receivedStates p w hops fcnt s) = rxVals s :=
  (rxVals_applyAll (fun _ _ => rxVals_wireChange _ _ _ _ _ _ _) _).trans (rxVals_setLink p _ s)

theorem rxVals_setOrigins (p : LinkSide) (o : List Nat) (s : State) : rxVals (setOrigins p o s) = rxVals s :=
  rxVals_applyAll (fun n t => rxVals_setF (by unfold originF; split <;> decide) _ t) s

theorem rxVals_showAlarms (s : State) : rxVals (showAlarms s) = rxVals s := by
  simp (disch := decide) only [showAlarms, rxVals_ite, rxVals_raise, setB_eq, rxVals_setF, ite_self]

theorem rxVals_setRxState (p : LinkSide) (r : RxState) (s : State) : rxVals (setRxState p r s) = rxVals s := by
  cases p <;> simp (disch := decide) only [setRxState, sideF, rxVals_ite, setB_eq, rxVals_setF, rxVals_setLink, ite_self]

theorem rxVals_sourceLost (p : LinkSide) (s : State) : rxVals (sourceLost p s) = rxVals s := by
  unfold sourceLost
  dsimp only
  split <;> simp only [rxVals_setLink]

theorem rxVals_headerFollow (p : LinkSide) (f : LinkFrame) (s : State) : rxVals (headerFollow p f s) = rxVals s := by
  cases p <;> simp (disch := decide) only [headerFollow, sideF, rxVals_ite, setB_eq, rxVals_setF, ite_self]

theorem rxVals_positionFollow (f : LinkFrame) (s : State) : rxVals (positionFollow f s) = rxVals s := by
  simp (disch := decide) only [positionFollow, rxVals_ite, setB_eq, rxVals_setF, ite_self]

theorem rxVals_hopFollow (f : LinkFrame) (s : State) : rxVals (hopFollow f s) = rxVals s := by
  simp (disch := decide) only [hopFollow, rxVals_ite, setB_eq, rxVals_setF, ite_self]

theorem errF_notMem_rxFields (p : LinkSide) (i : Nat) : (errF p i).key ∉ rxFields.map Fld.key := by
  cases p <;> unfold errF <;> split <;> decide

theorem rxVals_errF (p : LinkSide) (i n : Nat) (s : State) : rxVals (incF (errF p i) n s) = rxVals s :=
  rxVals_setF (errF_notMem_rxFields p i) _ s

/-! ## Frames accepted, and lock lost -/

/-- Where an accepted frame leaves the receiver: a realign frame starts RELOCK (R60), and no frame counts as bad (R59). -/
theorem linkOf_acceptFrame (p : LinkSide) (f : LinkFrame) (s : State) :
    (linkOf p (acceptFrame p f s)).rx = (if frRealign f then .relock else (linkOf p s).rx) ∧ (linkOf p (acceptFrame p f s)).bad = 0 := by
  unfold acceptFrame
  extract_lets l0 s1 s2 s3 l j s4 s5 l5 t s6 l6
  have h3 : linkOf p s3 = { linkOf p s with bad := 0 } := by
    simp only [s3, s2, s1, l0, linkOf_ite, linkOf_positionFollow, linkOf_hopFollow, linkOf_headerFollow, linkOf_setF,
      linkOf_setLink_self, ite_self]
  have h5 : (linkOf p s5).rx = (linkOf p s).rx ∧ (linkOf p s5).bad = 0 := by
    simp only [s5, s4, l, linkOf_setOrigins, linkOf_receivedStates, linkOf_incF, linkOf_setLink_self, h3, and_self]
  have h6 : (linkOf p s6).rx = (linkOf p s).rx ∧ (linkOf p s6).bad = 0 := by
    have ht : (linkOf p t).rx = (linkOf p s).rx ∧ (linkOf p t).bad = 0 := by
      simp only [t, l5, linkOf_showAlarms, linkOf_setLink_self, h5, and_self]
    unfold s6
    split_ifs
    · rwa [linkOf_deliverMessage]
    · exact ht
    · rwa [linkOf_incF]
  split
  · simp only [l6, linkOf_setRxState, linkOf_sourceLost, linkOf_setLink_self, h6, and_self]
  · exact h6

/-- The fields that an accepted frame leaves: the last fcnt of its port, and no other (R55). -/
theorem rxVals_acceptFrame (p : LinkSide) (f : LinkFrame) (s : State) :
    rxVals (acceptFrame p f s) = rxVals (setF (sideF p LNK_FCNT_rxa LNK_FCNT_rxb) (frFcnt f) s) := by
  simp only [acceptFrame, rxVals_ite, rxVals_setRxState, rxVals_sourceLost, rxVals_setLink, rxVals_deliverMessage, rxVals_showAlarms,
    rxVals_errF, rxVals_setOrigins, rxVals_receivedStates, rxVals_positionFollow, rxVals_hopFollow, rxVals_headerFollow, ite_self]
  rw [setF_setLink, rxVals_setLink]

theorem rxFcnt_acceptFrame (p : LinkSide) (f : LinkFrame) (s : State) : rxFcnt p (acceptFrame p f s) = frFcnt f := by
  have hmem : sideF p LNK_FCNT_rxa LNK_FCNT_rxb ∈ rxFields := by cases p <;> decide
  have hlt : frFcnt f < 2 ^ 8 := Nat.mod_lt _ (by decide)
  rw [rxFcnt, getF_of_rxVals (rxVals_acceptFrame p f s) hmem, getF_setF_self]
  cases p <;> exact Nat.mod_eq_of_lt hlt

/-- An accepted frame shows no lock and no loss of one. -/
theorem isSet_lock_acceptFrame (p : LinkSide) (f : LinkFrame) (s : State) :
    isSet (sideF p LNK_EVT_locka LNK_EVT_lockb) (acceptFrame p f s) = isSet (sideF p LNK_EVT_locka LNK_EVT_lockb) s := by
  cases p <;> exact congrArg (· != 0) ((getF_of_rxVals (rxVals_acceptFrame _ f s) (by decide)).trans (getF_setF_ne _ s (by decide)))

/-- What the loss of lock leaves of a port: hunting, its contributions and its alarms deasserted (R59). -/
theorem linkOf_lockLoss (p : LinkSide) (s : State) :
    (linkOf p (lockLoss p s)).rx = .hunt ∧ (linkOf p (lockLoss p s)).w = 0 ∧ (linkOf p (lockLoss p s)).alarms = 0 := by
  simp (disch := decide) only [lockLoss, linkOf_raise, setB_eq, incF_eq, linkOf_setF, linkOf_ite, linkOf_showAlarms, linkOf_setLink_self,
    linkOf_setOrigins, linkOf_receivedStates, linkOf_setRxState, ite_self, and_self]

theorem isSet_loss_lockLoss (p : LinkSide) (s : State) : isSet (sideF p LNK_EVT_lossa LNK_EVT_lossb) (lockLoss p s) = true := by
  rw [lockLoss, isSet_raise_rx (by decide) (by cases p <;> decide)]
  cases p <;> exact isSet_setF_self _ _ _

/-! ## Each command completes -/

theorem testBit_setLevel (l n m : Nat) (level : Bool) :
    (if level then l ||| 2 ^ n else natAndNot l (2 ^ n)).testBit m = if m = n then level else l.testBit m := by
  by_cases hm : m = n
  · subst hm
    cases level <;> simp [natAndNot]
  · have hbit : (2 ^ n).testBit m = false := by simp [Ne.symm hm]
    cases level <;> simp [natAndNot, hbit, hm]

/-- R25: a level at WIRE_IN[n]. -/
theorem completes_wireInChange {n : Nat} (hn : n < 4) (level : Bool) (s : State) :
    Completes (.wireInChange n level) s fun t => t.wires.inLevel.testBit n = level ∧
      (∀ m, m ≠ n → t.wires.inLevel.testBit m = s.wires.inLevel.testBit m) ∧ t.wires.deb = s.wires.deb ∧ t.regs = s.regs := by
  refine completes_of_eq rfl ?_
  rw [onlyIf_true (by simpa using hn)]
  have hlevel (m : Nat) := testBit_setLevel s.wires.inLevel n m level
  dsimp only
  split
  · exact ⟨by simp [hlevel], fun m hm => by simp [hlevel, hm], rfl, rfl⟩
  · exact ⟨by simp [holdsStart, hlevel], fun m hm => by simp [holdsStart, hlevel, hm], rfl, rfl⟩

theorem deb_wireChange (n : Nat) (st received : Bool) (p : LinkSide) (hop fcnt : Nat) (s : State) :
    (wireChange n st received p hop fcnt s).wires.deb = s.wires.deb := by
  simp only [wireChange]
  split_ifs <;> rfl

theorem deb_setDebounced (n : Nat) (v : Bool) (s : State) (m : Nat) :
    (setDebounced n v s).wires.deb.testBit m = if m = n then v else s.wires.deb.testBit m := by
  unfold setDebounced
  split
  · next h => split <;> simp_all
  · exact (congrArg (Nat.testBit · m) (deb_wireChange _ _ _ _ _ _ _)).trans (testBit_setLevel s.wires.deb n m v)

/-- R47, R531: the hold of WIRE_IN[n] has lasted. -/
theorem completes_wireDebounceExpiry {n : Nat} {s : State} (hn : n < 4) (hpor : s.power.por = false) (hheld : holdLasted n s = true) :
    Completes (.wireDebounceExpiry n) s fun t => t.wires.deb.testBit n = (localIn s).testBit n ∧
      (∀ m, m ≠ n → t.wires.deb.testBit m = s.wires.deb.testBit m) ∧ t.mem = s.mem := by
  refine completes_of_eq rfl ?_
  rw [onlyIf_true (by simp [hn, hpor, hheld])]
  exact ⟨by simp [deb_setDebounced], fun m hm => by simp [deb_setDebounced, hm], (setDebounced_keeps _ _ s).2⟩

/-- R34, R190: the oldest record leaves the queue. -/
theorem completes_wireRecordIssue {r : WireRecord} {q : List WireRecord} {s : State} (hq : s.wires.records = r :: q)
    (hroom : inlineCount s < 1024) (hmode : mode s ≠ mStandby) : Completes (.wireRecordIssue) s fun t => t.wires.records = q := by
  refine completes_of_eq rfl ?_
  have hgo : (decide (inlineCount s ≥ 1024) || decide (mode s = mStandby)) = false := by simp [hroom, hmode]
  have hring : getF LNK_WIREMSG_ring s < 64 := (getF_lt LNK_WIREMSG_ring s).trans (by decide)
  simp only [hq, hgo, Bool.false_eq_true, if_false]
  exact (congrArg WireState.records (wires_of_linkView (linkView_internalInline (show 17 < 20 by decide) hring rfl _))).trans rfl

/-- R57: a sync in HUNT that no candidate expects. -/
theorem completes_carlinkHuntSync {p : LinkSide} {bit : Nat} {s : State} (hrx : (linkOf p s).rx = .hunt)
    (hnew : ((linkOf p s).cands.any fun c => decide (c.count > 0) && decide (c.pos + 2000 = bit)) = false) :
    Completes (.carlinkHuntSync p bit) s fun t =>
      (linkOf p t).cands = (if (linkOf p s).cands.length ≥ 4 then (linkOf p s).cands.drop 1 else (linkOf p s).cands) ++
        [{ pos := bit, count := 0 }] ∧ (linkOf p t).rx = .hunt ∧ t.regs = s.regs := by
  refine completes_of_eq rfl ?_
  rw [onlyIf_true (by simp [hrx])]
  simp only [hnew, Bool.false_eq_true, if_false, linkOf_setLink_self, true_and]
  exact ⟨hrx, by cases p <;> rfl⟩

/-- R57: the one candidate's frame is not valid. -/
theorem completes_candidateFrame_bad {p : LinkSide} {bit : Nat} {f : LinkFrame} {s : State} (hrx : (linkOf p s).rx = .hunt)
    (hc : (linkOf p s).cands = [{ pos := bit, count := 0 }]) (hbad : (syncExact f && headerOk f) = false) :
    Completes (.carlinkCandidateFrame p bit f) s fun t => (linkOf p t).rx = .hunt ∧ (linkOf p t).cands = [] := by
  refine completes_of_eq rfl ?_
  rw [onlyIf_true (by simp [hrx])]
  simp [hc, hbad, hrx]

/-- The third valid frame in a row brings lock, its event and the frame itself (R58). -/
theorem exec_candidateFrame_third {p : LinkSide} {bit pos : Nat} {f : LinkFrame} {s : State} (hrx : (linkOf p s).rx = .hunt)
    (hc : (linkOf p s).cands = [{ pos := pos, count := 2 }]) (hbit : pos + 2000 = bit) (hsync : syncExact f = true)
    (hhead : headerOk f = true) :
    exec (.carlinkCandidateFrame p bit f) s = .next (acceptFrame p f (raise 32 (setB (sideF p LNK_EVT_locka LNK_EVT_lockb) true
      (sourceGained p (setRxState p .locked (setLink p { linkOf p s with cands := [], bad := 0, base := false } s)))))) := by
  refine congrArg Host.Outcome.next ?_
  rw [onlyIf_true (by simp [hrx])]
  simp [hc, hbit, hsync, hhead, -setB_eq]

/-- R58: lock, with the event of its gain and the fcnt of the frame. -/
theorem completes_candidateFrame_third {p : LinkSide} {bit pos : Nat} {f : LinkFrame} {s : State} (hrx : (linkOf p s).rx = .hunt)
    (hc : (linkOf p s).cands = [{ pos := pos, count := 2 }]) (hbit : pos + 2000 = bit) (hsync : syncExact f = true)
    (hhead : headerOk f = true) :
    Completes (.carlinkCandidateFrame p bit f) s fun t => (linkOf p t).rx = (if frRealign f then RxState.relock else RxState.locked) ∧
      isSet (sideF p LNK_EVT_locka LNK_EVT_lockb) t = true ∧ rxFcnt p t = frFcnt f := by
  refine completes_of_eq (exec_candidateFrame_third hrx hc hbit hsync hhead) ⟨?_, ?_, rxFcnt_acceptFrame p f _⟩
  · simp (disch := decide) only [linkOf_acceptFrame, linkOf_raise, setB_eq, linkOf_setF, linkOf_sourceGained, linkOf_setRxState]
  · rw [isSet_lock_acceptFrame, isSet_raise_rx (by decide) (by cases p <;> decide)]
    cases p <;> exact isSet_setF_self _ _ _

/-- R59: a frame accepted in LOCKED. -/
theorem completes_frameReceive_accepted {p : LinkSide} {f : LinkFrame} {s : State} (hrx : (linkOf p s).rx = .locked)
    (hf : frameAccepted f = true) :
    Completes (.carlinkFrameReceive p f) s fun t => rxFcnt p t = frFcnt f ∧ (linkOf p t).bad = 0 ∧
      (linkOf p t).rx = (if frRealign f then RxState.relock else RxState.locked) := by
  refine completes_of_eq rfl ?_
  rw [onlyIf_true (by simp [hrx])]
  obtain ⟨hrx2, hbad⟩ := linkOf_acceptFrame p f s
  rw [hrx] at hrx2
  simp only [hf, if_true]
  exact ⟨rxFcnt_acceptFrame p f s, hbad, hrx2⟩

/-- R59: a bad frame in LOCKED, the fourth in a row with the loss of lock. -/
theorem completes_frameReceive_bad {p : LinkSide} {f : LinkFrame} {s : State} (hrx : (linkOf p s).rx = .locked)
    (hf : frameAccepted f = false) :
    Completes (.carlinkFrameReceive p f) s fun t =>
      ((linkOf p s).bad < 3 → (linkOf p t).bad = (linkOf p s).bad + 1 ∧ (linkOf p t).rx = .locked) ∧
      (3 ≤ (linkOf p s).bad → (linkOf p t).rx = .hunt ∧ (linkOf p t).w = 0 ∧ isSet (sideF p LNK_EVT_lossa LNK_EVT_lossb) t = true) := by
  refine completes_of_eq rfl ?_
  rw [onlyIf_true (by simp [hrx])]
  simp only [hf, Bool.false_eq_true, if_false]
  refine ⟨fun hlt => ?_, fun hge => ?_⟩
  · simp only [show ¬ (linkOf p s).bad + 1 ≥ 4 by omega, if_false, linkOf_incF, linkOf_setLink_self, hrx, and_self]
  · simp only [show (linkOf p s).bad + 1 ≥ 4 by omega, if_true, linkOf_lockLoss, isSet_loss_lockLoss, and_self]

/-- R60: the new phase is found. -/
theorem completes_relockSync {p : LinkSide} {off : Nat} {f : LinkFrame} {s : State} (hrx : (linkOf p s).rx = .relock) (hoff : off ≤ 2040)
    (hsync : syncExact f = true) (hhead : headerOk f = true) :
    Completes (.relockSync p off f) s fun t => (linkOf p t).rx = (if frRealign f then RxState.relock else RxState.locked) ∧
      rxFcnt p t = frFcnt f := by
  refine completes_of_eq rfl ?_
  rw [onlyIf_true (by simp [hrx, hoff, hsync, hhead])]
  simp only [linkOf_acceptFrame, rxFcnt_acceptFrame, linkOf_sourceGained, linkOf_incF, linkOf_setRxState, and_self]

/-- R60: no new phase is found. -/
theorem completes_relockTimeout {p : LinkSide} {s : State} (hrx : (linkOf p s).rx = .relock) :
    Completes (.relockTimeout p) s fun t => (linkOf p t).rx = .hunt ∧ (linkOf p t).w = 0 ∧ (linkOf p t).alarms = 0 ∧
      isSet (sideF p LNK_EVT_lossa LNK_EVT_lossb) t = true := by
  refine completes_of_eq rfl ?_
  rw [onlyIf_true (by simp [hrx])]
  obtain ⟨hhunt, hw, halarms⟩ := linkOf_lockLoss p s
  exact ⟨hhunt, hw, halarms, isSet_loss_lockLoss p s⟩

/-- What a frame sent does to its port, and to the record of outputs (R48, R55). -/
theorem sendFrame_port (p : LinkSide) (inc : Option LinkFrame) (slaved realign : Bool) (s : State) :
    (∃ f, (sendFrame p inc slaved realign s).outbox = .carFrame p f :: s.outbox) ∧
      (linkOf p (sendFrame p inc slaved realign s)).latch = 0 ∧ (linkOf p (sendFrame p inc slaved realign s)).sentAny = true ∧
      (linkOf p (sendFrame p inc slaved realign s)).tx = (linkOf p s).tx := by
  unfold sendFrame
  extract_lets l o fcnt rcv loc states changed seqs orgs area code header bad frame s1 s2
  have h2 : s2.outbox = .carFrame p frame :: s.outbox ∧ (linkOf p s2).latch = 0 ∧ (linkOf p s2).sentAny = true ∧
      (linkOf p s2).tx = (linkOf p s).tx := by
    refine ⟨?_, ?_⟩
    · simp only [s2, s1, setLink_outbox, emit_outbox, setF_outbox]
    · simp only [s2, l, linkOf_setLink_self, and_self]
  split
  · simp only [setB_eq, setF_outbox, linkOf_setF]
    exact ⟨⟨frame, h2.1⟩, h2.2⟩
  · exact ⟨⟨frame, h2.1⟩, h2.2⟩

/-- R55, R56, R60: a running transmitter's next frame. -/
theorem completes_carlinkFrameSend {p : LinkSide} (inc : Option LinkFrame) {s : State}
    (htx : (linkOf p s).tx = .free ∨ (linkOf p s).tx = .realign ∨ (linkOf p s).tx = .slaved) :
    Completes (.carlinkFrameSend p inc) s fun t => (∃ f, t.outbox = .carFrame p f :: s.outbox) ∧ (linkOf p t).latch = 0 ∧
      (linkOf p t).sentAny = true ∧ (linkOf p t).tx = (if (linkOf p s).tx = .realign then TxPhase.gap else (linkOf p s).tx) ∧
      t.mem = s.mem := by
  refine completes_of_eq rfl ?_
  rcases htx with htx | htx | htx <;> simp only [htx]
  · obtain ⟨hout, hlatch, hsent, hphase⟩ := sendFrame_port p none false false s
    exact ⟨hout, hlatch, hsent, hphase.trans htx, (sendFrame_keeps _ _ _ _ s).2⟩
  · obtain ⟨hout, hlatch, hsent, -⟩ := sendFrame_port p none false true s
    simp only [setLink_outbox, linkOf_setLink_self, setLink_keeps]
    exact ⟨hout, hlatch, hsent, rfl, (sendFrame_keeps _ _ _ _ s).2⟩
  · obtain ⟨hout, hlatch, hsent, hphase⟩ := sendFrame_port p (inc.filter frameAccepted) true false s
    exact ⟨hout, hlatch, hsent, hphase.trans htx, (sendFrame_keeps _ _ _ _ s).2⟩

/-- R60: the gap of a re-phase ends. -/
theorem exec_rephaseStart {p : LinkSide} {s : State} (htx : (linkOf p s).tx = .gap ∨ (linkOf p s).tx = .gapLost) :
    exec (.rephaseStart p) s =
      .next (setLink p { linkOf p s with tx := (if (linkOf p s).tx = .gap then TxPhase.slaved else TxPhase.free) } s) := by
  change execRephaseStart p s = _
  rcases htx with htx | htx <;> simp [execRephaseStart, htx]

/-- R66: a message write with `go`. -/
theorem completes_lnkMsgtxGo {rq : Requester} {p : LinkSide} {w : Word} {s : State}
    (ha : admits rq true (if p = .a then 0x400B0044 else 0x400B0048) 0 s = true) (hlen : wbits w 8 8 ≤ 220) (hidle : isSet (goF p) s = false)
    (hgo : w.getLsbD 16 = true) (hdst : wbits w 0 6 ≠ ownPos s ∨ isSet LNK_STATUS_posv s = false) :
    Completes (.lnkMsgtxGo rq p w) s fun t => isSet (goF p) t = true ∧ t.bus = .done ∧ t.mem = s.mem := by
  refine completes_of_eq rfl ?_
  rw [gate_of_admits ha]
  have hok : ¬ (wbits w 8 8 > 220 ∨ isSet (goF p) s = true ∨ wbits w 0 6 = ownPos s ∧ isSet LNK_STATUS_posv s = true) := by
    rintro (h | h | ⟨hpos, hposv⟩)
    · omega
    · simp [hidle] at h
    · rcases hdst with h | h
      · exact h hpos
      · simp [h] at hposv
  have hwrite : cmdLnkMsgtxGo rq p w s = setB (goF p) true (setF (sideF p LNK_MSGTXA_dst LNK_MSGTXB_dst) (wbits w 0 6)
      (setF (sideF p LNK_MSGTXA_len LNK_MSGTXB_len) (wbits w 8 8) (busDone s))) := by
    simp only [cmdLnkMsgtxGo, msgTxWrite, hgo, Bool.true_and, if_true, Bool.or_eq_true, Bool.and_eq_true, decide_eq_true_eq, or_assoc, hok,
      if_false]
  refine ⟨?_, ?_, (cmdLnkMsgtxGo_keeps rq p w s).2⟩
  · rw [hwrite]
    cases p <;> exact isSet_setF_self _ _ _
  · rw [hwrite]
    rfl

/-- Settles O19, command by command. What a message or a record does on its way through the switch core reaches neither port nor register of
the link (`linkView`). -/
theorem carLinkCommandsComplete : Obligations.CarLinkCommandsComplete := by
  unfold Obligations.CarLinkCommandsComplete
  exact ⟨fun n level s hn => completes_wireInChange hn level s,
    fun n s hn hpor hheld => completes_wireDebounceExpiry hn hpor hheld,
    fun r q s hq hroom hmode => completes_wireRecordIssue hq hroom hmode,
    fun p bit s hrx hnew => completes_carlinkHuntSync hrx hnew,
    fun p bit f s hrx hc hbad => completes_candidateFrame_bad hrx hc hbad,
    fun p bit pos f s hrx hc hbit hsync hhead => completes_candidateFrame_third hrx hc hbit hsync hhead,
    fun p f s hrx hf => completes_frameReceive_accepted hrx hf,
    fun p f s hrx hf => completes_frameReceive_bad hrx hf,
    fun p off f s hrx hoff hsync hhead => completes_relockSync hrx hoff hsync hhead,
    fun p s hrx => completes_relockTimeout hrx,
    fun p inc s htx => completes_carlinkFrameSend inc htx,
    fun p s htx => exec_rephaseStart htx,
    fun rq p w s ha hlen hidle hgo hdst => completes_lnkMsgtxGo ha hlen hidle hgo hdst⟩

end Sys2Proof.Machine

/-! # Every step keeps the stores in canonical form

Every function of the model on states keeps memory canonical and the register keys rising. One of them, `underGen`, runs an effect on a register
store into which it has put the old structure's list of registers, and nothing holds that list to an order: while the effect runs, a key that the
old structure owns may stand more than once, and the owned keys are taken out again afterwards. So the property kept is `CanonBut P`, where the
keys for which `P` holds may repeat; `Canonical` is the case of no such key. One lemma for each function says that it keeps `CanonBut P`, in the
order of the model's files, and its proof follows the function's definition: it applies the lemmas of the functions called, from the outside in. -/

namespace Sys2Proof.Machine

/-! ## Stores in canonical form but for some keys -/

/-- Keys rise, and only a key for which `P` holds may stand more than once. -/
def RisingBut (P : Nat → Prop) (l : List (Nat × Nat)) : Prop := l.Pairwise fun a b => a.1 < b.1 ∨ (a.1 = b.1 ∧ P a.1)

/-- Memory is canonical, and register keys rise but for repetitions of keys for which `P` holds. -/
def CanonBut (P : Nat → Prop) (s : State) : Prop := memWf s.mem = true ∧ RisingBut P s.regs

/-- A meaning answers a next state, whose stores are canonical but for repetitions of keys for which `P` holds. -/
abbrev NextCanon (P : Nat → Prop) (o : Out) : Prop := ∃ t, o = .next t ∧ CanonBut P t

theorem risingBut_false_iff {l : List (Nat × Nat)} : RisingBut (fun _ => False) l ↔ tabSorted l = true := by
  simp [RisingBut, tabSorted_iff]

theorem canonBut_false_iff {s : State} : CanonBut (fun _ => False) s ↔ Canonical s := by
  simp only [CanonBut, Canonical, risingBut_false_iff]

section
variable {P : Nat → Prop} {s : State}

theorem RisingBut.filter (q : Nat × Nat → Bool) {l : List (Nat × Nat)} (h : RisingBut P l) : RisingBut P (l.filter q) :=
  List.Pairwise.filter q h

theorem RisingBut.mono {q : Nat → Prop} {l : List (Nat × Nat)} (hpq : ∀ k, P k → q k) (h : RisingBut P l) : RisingBut q l :=
  List.Pairwise.imp (fun hab => hab.imp_right fun he => ⟨he.1, hpq _ he.2⟩) h

/-- A key put in a store that has it only where it may repeat. -/
theorem RisingBut.tabIns {k : Nat} (v : Nat) {l : List (Nat × Nat)} (h : RisingBut P l) (hk : ∀ e ∈ l, e.1 = k → P k) :
    RisingBut P (Machine.tabIns k v l) := by
  induction l with
  | nil => exact List.pairwise_singleton _ _
  | cons e r ih =>
    obtain ⟨he, hr⟩ := List.pairwise_cons.1 h
    by_cases hlt : k < e.1
    · simp only [Machine.tabIns, hlt, if_true]
      refine List.pairwise_cons.2 ⟨fun x hx => .inl ?_, h⟩
      rcases List.mem_cons.1 hx with rfl | hx
      · exact hlt
      · rcases he x hx with hex | hex <;> omega
    · simp only [Machine.tabIns, hlt, if_false]
      refine List.pairwise_cons.2 ⟨fun x hx => ?_, ih hr fun y hy => hk y (List.mem_cons_of_mem e hy)⟩
      rcases mem_tabIns _ _ _ hx with rfl | hx
      · rcases Nat.lt_or_eq_of_le (Nat.le_of_not_lt hlt) with hek | hek
        · exact .inl hek
        · exact .inr ⟨hek, hek ▸ hk e List.mem_cons_self hek⟩
      · exact he x hx

theorem RisingBut.tabPut {d k v : Nat} {l : List (Nat × Nat)} (h : RisingBut P l) : RisingBut P (Machine.tabPut d l k v) := by
  unfold Machine.tabPut
  split
  · exact h.filter _
  · exact (h.filter _).tabIns v fun e he hk => absurd hk (by simpa using (List.mem_filter.1 he).2)

/-- Entries put one after another in a store that has their keys only where these may repeat. -/
theorem RisingBut.foldl_tabIns {new : List (Nat × Nat)} : ∀ {l : List (Nat × Nat)}, RisingBut P l →
    new.Pairwise (fun a b => a.1 = b.1 → P b.1) → (∀ a ∈ l, ∀ b ∈ new, a.1 = b.1 → P b.1) →
    RisingBut P (new.foldl (fun r e => Machine.tabIns e.1 e.2 r) l) := by
  induction new with
  | nil => exact fun h _ _ => h
  | cons e r ih =>
    intro l h hnew hl
    obtain ⟨he, hr⟩ := List.pairwise_cons.1 hnew
    refine ih (h.tabIns e.2 fun a ha => hl a ha e List.mem_cons_self) hr fun a ha b hb => ?_
    rcases mem_tabIns _ _ _ ha with rfl | ha
    · exact he b hb
    · exact hl a ha b (List.mem_cons_of_mem e hb)

/-- A store whose owned keys are taken from another: these may repeat. -/
theorem RisingBut.replaceBy_or {mine : Nat → Bool} {l : List (Nat × Nat)} (new : List (Nat × Nat)) (h : RisingBut P l) :
    RisingBut (fun k => P k ∨ mine k = true) (replaceBy mine l new) := by
  have hmine : ∀ b ∈ new.filter fun e => mine e.1, mine b.1 = true := fun b hb => (List.mem_filter.1 hb).2
  refine RisingBut.foldl_tabIns ((h.filter _).mono fun _ => .inl) ?_ fun a _ b hb _ => .inr (hmine b hb)
  exact List.pairwise_of_forall_mem_list fun a _ b hb _ => .inr (hmine b hb)

/-- A store in which owned keys may repeat, with these taken from one in which they do not. -/
theorem RisingBut.replaceBy_own {mine : Nat → Bool} {l new : List (Nat × Nat)} (h : RisingBut (fun k => P k ∨ mine k = true) l)
    (hnew : RisingBut P new) : RisingBut P (replaceBy mine l new) := by
  have hbase : RisingBut P (l.filter fun e => !mine e.1) := by
    refine List.pairwise_filter.2 (List.Pairwise.imp (fun {a b} hab ha _ => ?_) h)
    simp only [Bool.not_eq_true'] at ha
    simpa [ha] using hab
  refine hbase.foldl_tabIns (List.Pairwise.imp (fun {a b} hab he => ?_) (hnew.filter _)) fun a ha b hb he => ?_
  · rcases hab with hab | hab
    · omega
    · exact hab.1 ▸ hab.2
  · have hna := (List.mem_filter.1 ha).2
    have hmb := (List.mem_filter.1 hb).2
    simp [he, hmb] at hna

/-! ## The operations on states -/

/-- The property reads the two stores only. -/
theorem CanonBut.upd {t : State} (h : CanonBut P s) (hr : t.regs = s.regs) (hm : t.mem = s.mem) : CanonBut P t := by
  rwa [CanonBut, hm, hr]

/-- `CanonBut.upd` for a state that is a long call: the update is not unfolded to find it. -/
theorem CanonBut.hie {x : HieState} (h : CanonBut P s) : CanonBut P { s with hie := x } := h.upd rfl rfl

/-- Registers dropped by a rule on their keys. -/
theorem CanonBut.dropRegs {t : State} {q : Nat × Nat → Bool} (h : CanonBut P s)
    (hr : t.regs = s.regs.filter q) (hm : t.mem = s.mem) : CanonBut P t := by
  rw [CanonBut, hm, hr]; exact ⟨h.1, h.2.filter q⟩

/-- Memory empty, and the registers kept that a rule names: a reset. -/
theorem CanonBut.reset {t : State} {q : Nat × Nat → Bool} (h : CanonBut P s)
    (hr : t.regs = s.regs.filter q) (hm : t.mem = []) : CanonBut P t := by
  rw [CanonBut, hm, hr]; exact ⟨rfl, h.2.filter q⟩

/-- The state a call answers beside a value. -/
theorem CanonBut.of_eq {α : Type} {x : α × State} {a : α} {t : State} (h : CanonBut P x.2) (e : x = (a, t)) : CanonBut P t := by
  rwa [e] at h

/-- A state answered beside a value. -/
theorem pair_canon {α : Type} {a : α} (h : CanonBut P s) : CanonBut P (a, s).2 := h

theorem pair₃_canon {α β γ : Type} {a : α} {b : β} {c : γ} (h : CanonBut P s) : CanonBut P (a, b, c, s).2.2.2 := h

theorem ite_canon {c : Prop} [Decidable c] {t : State} (h : CanonBut P s) (h' : CanonBut P t) : CanonBut P (if c then s else t) := by
  split <;> assumption

/-- A step that is made on a condition: `hg` is told what holds before it. -/
theorem iteThen_canon {c : Prop} [Decidable c] {t : State} (h : CanonBut P s) (hg : CanonBut P s → CanonBut P t) :
    CanonBut P (if c then s else t) :=
  ite_canon h (hg h)

theorem iteElse_canon {c : Prop} [Decidable c] {t : State} (h : CanonBut P s) (hg : CanonBut P s → CanonBut P t) :
    CanonBut P (if c then t else s) :=
  ite_canon (hg h) h

theorem iteApp_canon {c : Prop} [Decidable c] {f g : State → State} (h : CanonBut P (f s)) (h' : CanonBut P (g s)) :
    CanonBut P ((if c then f else g) s) := by
  split <;> assumption

theorem iteSnd_canon {α : Type} {c : Prop} [Decidable c] {x y : α × State} (h : CanonBut P x.2) (h' : CanonBut P y.2) :
    CanonBut P (if c then x else y).2 := by
  split <;> assumption

theorem iteSnd₂_canon {α β : Type} {c : Prop} [Decidable c] {x y : α × β × State} (h : CanonBut P x.2.2) (h' : CanonBut P y.2.2) :
    CanonBut P (if c then x else y).2.2 := by
  split <;> assumption

theorem iteSnd₃_canon {α β γ : Type} {c : Prop} [Decidable c] {x y : α × β × γ × State} (h : CanonBut P x.2.2.2)
    (h' : CanonBut P y.2.2.2) : CanonBut P (if c then x else y).2.2.2 := by
  split <;> assumption

theorem setF_canon {f : Fld} {v : Nat} (h : CanonBut P s) : CanonBut P (setF f v s) := ⟨h.1, h.2.tabPut⟩

theorem setB_canon {f : Fld} {b : Bool} (h : CanonBut P s) : CanonBut P (setB f b s) := setF_canon h

theorem incF_canon {f : Fld} {n : Nat} (h : CanonBut P s) : CanonBut P (incF f n s) := setF_canon h

theorem incWrap_canon {f : Fld} {n : Nat} (h : CanonBut P s) : CanonBut P (incWrap f n s) := setF_canon h

theorem orF_canon {f : Fld} {m : Nat} (h : CanonBut P s) : CanonBut P (orF f m s) := setF_canon h

theorem clrF_canon {f : Fld} {m : Nat} (h : CanonBut P s) : CanonBut P (clrF f m s) := setF_canon h

theorem wr8_canon {a : Nat} {b : Byte} (h : CanonBut P s) : CanonBut P (wr8 a b s) := ⟨memWf_wr8 a b h.1, h.2⟩

theorem wrBytes_canon {l : List Byte} {a : Nat} (h : CanonBut P s) : CanonBut P (wrBytes a l s) := by
  induction l generalizing a s with
  | nil => exact h
  | cons b r ih => exact ih (wr8_canon h)

theorem applyAll_canon {α : Type} {l : List α} {g : α → State → State} (hg : ∀ x s, CanonBut P s → CanonBut P (g x s)) (h : CanonBut P s) :
    CanonBut P (applyAll l g s) :=
  applyAll_of l g hg s h

theorem onlyIf_canon {c : Bool} {g : State → State} (hg : ∀ s, CanonBut P s → CanonBut P (g s)) (h : CanonBut P s) :
    CanonBut P (onlyIf c g s) :=
  onlyIf_of c g h (hg s h)

/-- An effect that keeps the property for every choice of repeating keys keeps it under an old structure, whose keys may repeat while it runs. -/
theorem underGen_canon {ctx : Bool} {gen : Nat} {g : State → State} (hg : ∀ q s, CanonBut q s → CanonBut q (g s)) (h : CanonBut P s) :
    CanonBut P (underGen ctx gen g s) := by
  unfold underGen
  split
  · exact hg P s h
  · next o _ =>
    split
    · exact hg P s h
    · extract_lets bank src t
      have ht : CanonBut (fun k => P k ∨ o.owns k = true) t := hg _ _ ⟨h.1, h.2.replaceBy_or o.regs⟩
      exact ⟨ht.1, ht.2.replaceBy_own (h.2.filter _)⟩

/-! ## The functions of Machine/Ops.lean -/

theorem drawFree_canon {w : Nat} (h : CanonBut P s) : CanonBut P (drawFree w s).2 :=
  h.upd rfl rfl

theorem setFree_canon {f : Fld} (h : CanonBut P s) : CanonBut P (setFree f s) :=
  setF_canon (h.upd rfl rfl)

theorem busDone_canon (h : CanonBut P s) : CanonBut P (busDone s) :=
  h.upd rfl rfl

theorem busError_canon (h : CanonBut P s) : CanonBut P (busError s) :=
  h.upd rfl rfl

theorem busData_canon {v : Nat} (h : CanonBut P s) : CanonBut P (busData v s) :=
  h.upd rfl rfl

theorem busStall_canon (h : CanonBut P s) : CanonBut P (busStall s) :=
  h.upd rfl rfl

theorem busRetry_canon (h : CanonBut P s) : CanonBut P (busRetry s) :=
  h.upd rfl rfl

theorem emit_canon {e : Emission} (h : CanonBut P s) : CanonBut P (emit e s) :=
  h.upd rfl rfl

theorem raiseNow_canon {e : Nat} (h : CanonBut P s) : CanonBut P (raiseNow e s) :=
  iteElse_canon (iteElse_canon (incF_canon (orF_canon h)) fun h1 => h1.upd rfl rfl) fun h1 => h1.upd rfl rfl

theorem raise_canon {e : Nat} (h : CanonBut P s) : CanonBut P (raise e s) :=
  ite_canon h (ite_canon (h.upd rfl rfl) (raiseNow_canon h))

theorem raiseOnce_canon {e inst : Nat} (h : CanonBut P s) : CanonBut P (raiseOnce e inst s) :=
  ite_canon h (raise_canon (h.upd rfl rfl))

theorem releaseHeld_canon (h : CanonBut P s) : CanonBut P (releaseHeld s) :=
  applyAll_canon (fun _ _ h => raiseNow_canon h) (h.upd rfl rfl)

theorem setMode_canon {m : Nat} (h : CanonBut P s) : CanonBut P (setMode m s) :=
  ite_canon h (iteElse_canon (setF_canon (setF_canon h)) fun h1 => raise_canon h1)

theorem refreshMode_canon (h : CanonBut P s) : CanonBut P (refreshMode s) :=
  ite_canon (setMode_canon h) h

theorem setTileBit_canon {lo hi : Fld} {n : Nat} {b : Bool} (h : CanonBut P s) : CanonBut P (setTileBit lo hi n b s) :=
  ite_canon (orF_canon h) (clrF_canon h)

/-! ## The functions of Machine/Inn.lean -/

theorem setLease_canon {n : Nat} {l : Lease} (h : CanonBut P s) : CanonBut P (setLease n l s) :=
  h.upd rfl rfl

theorem grantLease_canon {kind res tag n : Nat} {dur : Option Nat} {t : State} (h : CanonBut P s)
    (e : grantLease kind res tag dur s = some (n, t)) : CanonBut P t := by
  unfold grantLease at e
  split at e
  · cases e
  · split at e
    · cases e
    · cases e; exact setLease_canon h

theorem countFull_canon {tag : Nat} (h : CanonBut P s) : CanonBut P (countFull tag s) :=
  ite_canon h (incF_canon h)

theorem logDeclaration_canon {owner decl count : Nat} (h : CanonBut P s) : CanonBut P (logDeclaration owner decl count s) :=
  setF_canon (setF_canon (setF_canon (incF_canon h)))

theorem declare_canon {reach : Lease → Nat → Bool} {owner decl : Nat} (h : CanonBut P s) : CanonBut P (declare reach owner decl s) :=
  ite_canon (logDeclaration_canon h) ((applyAll_canon (fun _ _ h => setLease_canon h) h).upd rfl rfl)

theorem declareWorld_canon {w : World} {decl : Nat} (h : CanonBut P s) : CanonBut P (declareWorld w decl s) :=
  declare_canon h

theorem poolTake_canon (h : CanonBut P s) : CanonBut P (poolTake s) :=
  iteElse_canon (iteElse_canon (setF_canon (setF_canon (setB_canon h))) fun h1 => raise_canon h1) fun h1 => raise_canon (setB_canon h1)

theorem poolReturn_canon (h : CanonBut P s) : CanonBut P (poolReturn s) :=
  iteElse_canon (setF_canon (setB_canon h)) fun h1 => setB_canon h1

theorem takePage_canon {i : Nat} (h : CanonBut P s) : CanonBut P (takePage i s).2 :=
  ite_canon (h.upd rfl rfl) (poolTake_canon (h.upd rfl rfl))

theorem grantPage_canon {idx i : Nat} (h : CanonBut P s) : CanonBut P (grantPage idx i s).2 :=
  setF_canon (takePage_canon h)

theorem takePages_canon {idx i n : Nat} (h : CanonBut P s) : CanonBut P (takePages idx i n s).2.2 := by
  induction n generalizing s with
  | zero => exact h
  | succ n ih =>
    unfold takePages
    split
    · exact h
    · exact ih (grantPage_canon h)

theorem linkPages_canon {l : List Nat} (h : CanonBut P s) : CanonBut P (linkPages l s) := by
  induction l, s using linkPages.induct with
  | case1 s => exact h
  | case2 s p => exact h.upd rfl rfl
  | case3 s p q r ih => exact ih (h.upd rfl rfl)

theorem freePage_canon {p : Nat} (h : CanonBut P s) : CanonBut P (freePage p s) :=
  ite_canon (ite_canon (poolReturn_canon (h.upd rfl rfl)) (h.upd rfl rfl)) (h.upd rfl rfl)

theorem freePages_canon {l : List Nat} (h : CanonBut P s) : CanonBut P (freePages l s) :=
  applyAll_canon (fun _ _ h => freePage_canon h) h

theorem sharePages_canon {l : List Nat} {n : Nat} (h : CanonBut P s) : CanonBut P (sharePages l n s) :=
  applyAll_canon (fun _ _ h => h.upd rfl rfl) h

theorem countDrop_canon {port reason : Nat} (h : CanonBut P s) : CanonBut P (countDrop port reason s) :=
  incF_canon h

theorem setLodger_canon {lid : Nat} {l : Lodger} (h : CanonBut P s) : CanonBut P (setLodger lid l s) :=
  h.upd rfl rfl

theorem evict_canon {lid : Nat} (h : CanonBut P s) : CanonBut P (evict lid s) :=
  setLodger_canon h

theorem pinIn_canon {lid : Nat} (h : CanonBut P s) : CanonBut P (pinIn lid s) := by
  refine ite_canon (setLodger_canon h) ?_
  split
  · exact setLodger_canon (evict_canon h)
  · exact h

theorem pageIn_canon {lid : Nat} (h : CanonBut P s) : CanonBut P (pageIn lid s) :=
  setLodger_canon (h.upd rfl rfl)

theorem contextFault_canon {lid : Nat} (h : CanonBut P s) : CanonBut P (contextFault lid s) := by
  refine ite_canon h (ite_canon (pinIn_canon h) (ite_canon (pageIn_canon h) ?_))
  split
  · exact pageIn_canon (evict_canon h)
  · exact iteThen_canon (setLodger_canon h) fun h1 => raise_canon (setB_canon h1)

theorem fenceLodger_canon {lid : Nat} (h : CanonBut P s) : CanonBut P (fenceLodger lid s) := by
  refine setLodger_canon (applyAll_canon (fun _ _ h => ?_) h)
  split
  · exact countDrop_canon (freePages_canon h)
  · exact h

theorem releaseItem_canon {lid : Nat} {w : ItemWork} (h : CanonBut P s) : CanonBut P (releaseItem lid w s) := by
  refine ite_canon h (ite_canon ?_ (iteThen_canon (setLodger_canon h) fun h1 => contextFault_canon h1))
  split
  · exact countDrop_canon (freePages_canon h)
  · exact h

/-! ## The functions of Machine/Worlds.lean -/

theorem violation_canon {addr : Nat} {w : World} {write : Bool} {src core : Nat} (h : CanonBut P s) :
    CanonBut P (violation addr w write src core s) :=
  raiseOnce_canon (incF_canon (setF_canon (setB_canon (setB_canon (setF_canon (setF_canon h))))))

theorem violate_canon {rq : Requester} {addr : Nat} {write : Bool} (h : CanonBut P s) : CanonBut P (violate rq addr write s) :=
  busError_canon (violation_canon h)

theorem secureOnly_canon {rq : Requester} {a : Nat} {g : State → State} (hg : ∀ s, CanonBut P s → CanonBut P (g s)) (h : CanonBut P s) :
    CanonBut P (secureOnly rq a g s) :=
  ite_canon (hg _ h) (violate_canon h)

theorem gate_canon {rq : Requester} {write : Bool} {a : Nat} {w : Word} {g : State → State} (hg : ∀ s, CanonBut P s → CanonBut P (g s))
    (h : CanonBut P s) : CanonBut P (gate rq write a w g s) :=
  ite_canon (hg _ h) (ite_canon (violate_canon h) (ite_canon (violate_canon h) (ite_canon (busError_canon h) (hg _ h))))

/-! ## The functions of Machine/Aon.lean -/

theorem aonLog_canon {cause detail : Nat} {preq : Bool} (h : CanonBut P s) : CanonBut P (aonLog cause detail preq s) :=
  ite_canon (incF_canon (setF_canon (setF_canon (setF_canon h)))) (incF_canon (setF_canon (setF_canon (setF_canon h))))

theorem preqRelease_canon {detail : Nat} (h : CanonBut P s) : CanonBut P (preqRelease detail s) :=
  ite_canon (aonLog_canon (setB_canon h)) h

theorem aonAlarm_canon {cause detail bit : Nat} (h : CanonBut P s) : CanonBut P (aonAlarm cause detail bit s) :=
  ite_canon (ite_canon ((aonLog_canon h).upd rfl rfl) (setB_canon ((aonLog_canon h).upd rfl rfl))) (raise_canon (aonLog_canon h))

theorem preqStop_canon {detail : Nat} (h : CanonBut P s) : CanonBut P (preqStop detail s) := by
  unfold preqStop
  extract_lets s1 _
  have hs1 : CanonBut P s1 := setB_canon h
  exact preqRelease_canon (hs1.upd rfl rfl)

theorem preqSw_canon {v : Bool} (h : CanonBut P s) : CanonBut P (preqSw v s) :=
  ite_canon (ite_canon h (setB_canon (setB_canon h))) (ite_canon (setB_canon h) (preqRelease_canon (setB_canon h)))

theorem ledgerAdvance_canon (h : CanonBut P s) : CanonBut P (ledgerAdvance s) :=
  h.upd rfl rfl

theorem aonApply_canon {a v : Nat} {sec : Bool} (h : CanonBut P s) : CanonBut P (aonApply a v sec s) :=
  ite_canon ((ledgerAdvance_canon h).upd rfl rfl) (ite_canon (setF_canon h)
    (ite_canon (iteElse_canon (setF_canon (setF_canon (setF_canon (setF_canon (setF_canon (setF_canon h)))))) fun h1 => setF_canon h1)
    (ite_canon (clrF_canon h) (ite_canon (setF_canon h) (ite_canon (ite_canon (preqStop_canon (setF_canon h)) (preqSw_canon (setF_canon h)))
    (ite_canon (clrF_canon (clrF_canon (clrF_canon (clrF_canon (clrF_canon (clrF_canon (clrF_canon h)))))))
    (ite_canon (ite_canon (setF_canon h) h) (ite_canon (clrF_canon h) h))))))))

theorem aonWrite_canon {a v : Nat} {sec : Bool} (h : CanonBut P s) : CanonBut P (aonWrite a v sec s) :=
  ite_canon (busDone_canon (setB_canon (h.upd rfl rfl))) (busStall_canon (setB_canon (h.upd rfl rfl)))

theorem aonTransit_canon (h : CanonBut P s) : CanonBut P (aonTransit s) := by
  unfold aonTransit
  split
  · exact h
  · exact aonApply_canon (setB_canon (h.upd rfl rfl))

theorem execAonWriteTransit_canon (h : CanonBut P s) : NextCanon P (execAonWriteTransit s) :=
  ⟨_, rfl, aonTransit_canon h⟩

theorem standbyTrigger_canon {why : Nat} (h : CanonBut P s) : CanonBut P (standbyTrigger why s) := by
  unfold standbyTrigger
  split
  · exact setB_canon (setF_canon (h.upd rfl rfl))
  · exact h.upd rfl rfl
  · exact h

theorem execRtcSecond_canon (h : CanonBut P s) : NextCanon P (execRtcSecond s) :=
  ⟨_, rfl, ite_canon (standbyTrigger_canon (aonAlarm_canon (setB_canon (h.upd rfl rfl)))) (h.upd rfl rfl)⟩

theorem cmdAonRtcset_canon {rq : Requester} {w : Word} (h : CanonBut P s) : CanonBut P (cmdAonRtcset rq w s) :=
  secureOnly_canon (fun _ h => aonWrite_canon h) h

theorem execAonRtcset_canon {rq : Requester} {w : Word} (h : CanonBut P s) : NextCanon P (execAonRtcset rq w s) :=
  ⟨_, rfl, gate_canon (fun _ h => cmdAonRtcset_canon h) h⟩

theorem execWakePinFire_canon {n : Nat} (h : CanonBut P s) : NextCanon P (execWakePinFire n s) :=
  ⟨_, rfl, onlyIf_canon (fun _ h => aonAlarm_canon (h.upd rfl rfl)) h⟩

theorem execWakePinRearm_canon {n : Nat} (h : CanonBut P s) : NextCanon P (execWakePinRearm n s) :=
  ⟨_, rfl, onlyIf_canon (fun _ h => h.upd rfl rfl) h⟩

theorem execTamperFire_canon (h : CanonBut P s) : NextCanon P (execTamperFire s) :=
  ⟨_, rfl, onlyIf_canon (fun _ h => aonAlarm_canon (setB_canon (h.upd rfl rfl))) (setB_canon h)⟩

theorem execTamperRearm_canon (h : CanonBut P s) : NextCanon P (execTamperRearm s) :=
  ⟨_, rfl, setB_canon (h.upd rfl rfl)⟩

theorem tamperWrite_canon {rq : Requester} {v : Nat} (h : CanonBut P s) : CanonBut P (tamperWrite rq v s) :=
  secureOnly_canon (fun _ h => ite_canon (aonWrite_canon h) (busError_canon h)) h

theorem execTamperLatchClear_canon {rq : Requester} (h : CanonBut P s) : NextCanon P (execTamperLatchClear rq s) :=
  ⟨_, rfl, gate_canon (fun _ h => tamperWrite_canon h) h⟩

theorem vbatInhibit_canon {mv10 : Nat} (h : CanonBut P s) : CanonBut P (vbatInhibit mv10 s) :=
  ite_canon (ite_canon h (preqStop_canon (setB_canon h))) (ite_canon (setB_canon h) h)

theorem execVbatMeasure_canon {mv10 : Nat} (h : CanonBut P s) : NextCanon P (execVbatMeasure mv10 s) :=
  ⟨_, rfl, ite_canon (aonAlarm_canon ((vbatInhibit_canon (setF_canon h)).upd rfl rfl))
    (iteElse_canon (vbatInhibit_canon (setF_canon h)) fun h1 => h1.upd rfl rfl)⟩

theorem execPwrReqHoldExpiry_canon (h : CanonBut P s) : NextCanon P (execPwrReqHoldExpiry s) :=
  ⟨_, rfl, onlyIf_canon (fun _ h => ite_canon (h.upd rfl rfl) (preqRelease_canon (h.upd rfl rfl))) h⟩

theorem execPwrReqRelease_canon {rq : Requester} (h : CanonBut P s) : NextCanon P (execPwrReqRelease rq s) :=
  ⟨_, rfl, gate_canon (fun _ h => aonWrite_canon h) h⟩

theorem cmdPwrReqSwWrite_canon {rq : Requester} {w : Word} (h : CanonBut P s) : CanonBut P (cmdPwrReqSwWrite rq w s) :=
  ite_canon (aonWrite_canon h) (busError_canon h)

theorem execPwrReqSwWrite_canon {rq : Requester} {w : Word} (h : CanonBut P s) : NextCanon P (execPwrReqSwWrite rq w s) :=
  ⟨_, rfl, gate_canon (fun _ h => cmdPwrReqSwWrite_canon h) h⟩

theorem execAonLogack_canon {rq : Requester} (h : CanonBut P s) : NextCanon P (execAonLogack rq s) :=
  ⟨_, rfl, gate_canon (fun _ h => aonWrite_canon h) h⟩

theorem execAonDomainPowerUp_canon {fromVbat : Bool} (h : CanonBut P s) : NextCanon P (execAonDomainPowerUp fromVbat s) :=
  ⟨_, rfl, onlyIf_canon (fun _ h => setMode_canon (h.dropRegs rfl rfl)) h⟩

/-! ## The functions of Machine/Tables.lean -/

theorem twr_canon {a : Nat} {b : List Byte} (h : CanonBut P s) : CanonBut P (twr a b s) := by
  induction b generalizing a s with
  | nil => exact h
  | cons x r ih => exact ih (h.upd rfl rfl)

theorem entWr_canon {t i : Nat} {b : List Byte} (h : CanonBut P s) : CanonBut P (entWr t i b s) :=
  twr_canon h

theorem shadowPlace_canon {e : List Byte} (h : CanonBut P s) : CanonBut P (shadowPlace e s).2 := by
  unfold shadowPlace
  dsimp only
  split
  · exact entWr_canon h
  · split
    · exact entWr_canon h
    · exact setF_canon (incF_canon h)

theorem shadowMade_canon {e : List Byte} (h : CanonBut P s) : CanonBut P (shadowMade e s) :=
  iteElse_canon (shadowPlace_canon h) fun h1 => incF_canon h1

theorem shadowDrop_canon {key : List Byte} (h : CanonBut P s) : CanonBut P (shadowDrop key s) := by
  unfold shadowDrop
  split
  · exact entWr_canon h
  · exact h

theorem l2Put_canon {i : Nat} {e : List Byte} (h : CanonBut P s) : CanonBut P (l2Put i e s) :=
  ite_canon (iteElse_canon (setF_canon (entWr_canon h)) fun h1 => iteElse_canon (ite_canon (shadowDrop_canon h1) h1) fun h2 => shadowMade_canon
    h2) (entWr_canon h)

theorem tabChange_canon {t i : Nat} {e : List Byte} (h : CanonBut P s) : CanonBut P (tabChange t i e s) :=
  ite_canon (l2Put_canon h) (entWr_canon h)

theorem insertFail_canon {t src : Nat} {e : List Byte} (h : CanonBut P s) : CanonBut P (insertFail t src e s) :=
  raise_canon (incF_canon (setF_canon (setF_canon (setF_canon (setF_canon (setF_canon (setF_canon (setF_canon (setF_canon h)))))))))

theorem insertKey_canon {t src : Nat} {e : List Byte} (h : CanonBut P s) : CanonBut P (insertKey t src e s).2 := by
  unfold insertKey
  split
  · exact pair_canon (tabChange_canon h)
  · split
    · exact pair_canon (tabChange_canon h)
    · exact pair_canon (insertFail_canon h)

theorem cvQueue_canon {r : CvRecord} (h : CanonBut P s) : CanonBut P (cvQueue r s) :=
  ite_canon (h.upd rfl rfl) (ite_canon (incF_canon h) (setF_canon (h.upd rfl rfl)))

theorem cvLocal_canon {e : L2} {withdraw : Bool} (h : CanonBut P s) : CanonBut P (cvLocal e withdraw s) :=
  ite_canon (cvQueue_canon h) h

theorem learnQueue_canon {r : LearnReq} (h : CanonBut P s) : CanonBut P (learnQueue r s) :=
  ite_canon (h.upd rfl rfl) (ite_canon (incF_canon h) (setF_canon (h.upd rfl rfl)))

theorem learnMeet_canon {mac : List Byte} {vid port : Nat} (h : CanonBut P s) : CanonBut P (learnMeet mac vid port s) := by
  unfold learnMeet
  dsimp only
  refine ite_canon h ?_
  split
  · exact learnQueue_canon h
  · exact ite_canon h (ite_canon (l2Put_canon h) (learnQueue_canon h))

theorem learnApply_canon {r : LearnReq} (h : CanonBut P s) : CanonBut P (learnApply r s) := by
  unfold learnApply
  split
  · exact ite_canon h (cvLocal_canon (incF_canon (l2Put_canon h)))
  · exact iteElse_canon (insertKey_canon h) fun h1 => cvLocal_canon (incF_canon h1)

theorem execLearnApply_canon (h : CanonBut P s) : NextCanon P (execLearnApply s) := by
  refine ⟨_, rfl, ?_⟩
  split
  · exact h
  · exact learnApply_canon (setF_canon (h.upd rfl rfl))

theorem ageEntry_canon {i : Nat} (h : CanonBut P s) : CanonBut P (ageEntry i s) :=
  ite_canon h (ite_canon (ite_canon (incF_canon (l2Put_canon h)) h) (ite_canon (cvLocal_canon (incF_canon (l2Put_canon h))) h))

theorem execAgeingScan_canon (h : CanonBut P s) : NextCanon P (execAgeingScan s) :=
  ⟨_, rfl, applyAll_canon (fun _ _ h => ageEntry_canon h) h⟩

theorem cmdMigrateStart_canon {rq : Requester} {w : Word} (h : CanonBut P s) : CanonBut P (cmdMigrateStart rq w s) :=
  iteElse_canon (busDone_canon (setF_canon h)) fun h1 => setF_canon (setF_canon h1)

theorem execMigrateStart_canon {rq : Requester} {w : Word} (h : CanonBut P s) : NextCanon P (execMigrateStart rq w s) :=
  ⟨_, rfl, gate_canon (fun _ h => cmdMigrateStart_canon h) h⟩

theorem migrateEntry_canon {i : Nat} (h : CanonBut P s) : CanonBut P (migrateEntry i s) :=
  ite_canon (shadowMade_canon h) h

theorem execMigrateDone_canon (h : CanonBut P s) : NextCanon P (execMigrateDone s) :=
  ⟨_, rfl, onlyIf_canon (fun _ h => iteElse_canon (applyAll_canon (fun _ _ h => migrateEntry_canon h) h) fun h1 => setF_canon h1) h⟩

theorem clearBank_canon {p : Nat} (h : CanonBut P s) : CanonBut P (clearBank p s) :=
  applyAll_canon (fun _ _ h => entWr_canon h) h

theorem cmdMigrateCancel_canon {rq : Requester} {w : Word} (h : CanonBut P s) : CanonBut P (cmdMigrateCancel rq w s) :=
  iteElse_canon (busDone_canon (setF_canon h)) fun h1 => setF_canon (clearBank_canon h1)

theorem execMigrateCancel_canon {rq : Requester} {w : Word} (h : CanonBut P s) : NextCanon P (execMigrateCancel rq w s) :=
  ⟨_, rfl, gate_canon (fun _ h => cmdMigrateCancel_canon h) h⟩

theorem bankSwap_canon (h : CanonBut P s) : CanonBut P (bankSwap s) :=
  ite_canon (setF_canon (setF_canon (setF_canon (setF_canon h)))) (setB_canon h)

theorem execBankClearDone_canon (h : CanonBut P s) : NextCanon P (execBankClearDone s) :=
  ⟨_, rfl, onlyIf_canon (fun _ h => setF_canon (clearBank_canon h)) h⟩

theorem cmdPorterGo_canon {rq : Requester} {w : Word} (h : CanonBut P s) : CanonBut P (cmdPorterGo rq w s) :=
  ite_canon (setB_canon ((busDone_canon h).upd rfl rfl)) (busDone_canon h)

theorem execPorterGo_canon {rq : Requester} {w : Word} (h : CanonBut P s) : NextCanon P (execPorterGo rq w s) :=
  ⟨_, rfl, gate_canon (fun _ h => cmdPorterGo_canon h) h⟩

theorem stageChange_canon {c : TableChange} (h : CanonBut P s) : CanonBut P (stageChange c s) :=
  setF_canon (h.upd rfl rfl)

theorem porterEnd_canon {stop : Option Nat} (h : CanonBut P s) : CanonBut P (porterEnd stop s) := by
  unfold porterEnd
  split
  · exact setB_canon (setF_canon (setB_canon (h.upd rfl rfl)))
  · exact setB_canon (h.upd rfl rfl)

theorem porterOp_canon {op t idx : Nat} {data : List Byte} {lock : Bool} (h : CanonBut P s) :
    CanonBut P (porterOp op t idx data lock s).2.2.2 := by
  unfold porterOp
  refine iteSnd₃_canon h (iteSnd₃_canon h (iteSnd₃_canon h (iteSnd₃_canon (pair₃_canon (stageChange_canon h)) (iteSnd₃_canon h
    (iteSnd₃_canon ?_ ?_)))))
  · split <;> exact h
  · split
    · exact pair₃_canon (stageChange_canon h)
    · refine iteSnd₃_canon h ?_
      split
      · exact pair₃_canon (stageChange_canon h)
      · exact pair₃_canon (insertFail_canon h)

theorem execPorterOperation_canon (h : CanonBut P s) : NextCanon P (execPorterOperation s) := by
  refine ⟨_, rfl, ?_⟩
  split
  · exact h
  · next run _ =>
    extract_lets a w r t data u s1 s2 _
    have hs1 : CanonBut P s1 := wrBytes_canon (wrBytes_canon (porterOp_canon h))
    have hs2 : CanonBut P s2 := by
      unfold s2
      split
      · exact wrBytes_canon hs1
      · exact hs1
    exact ite_canon (porterEnd_canon h) (ite_canon (porterEnd_canon (violation_canon h))
      (ite_canon (porterEnd_canon hs2) (ite_canon (porterEnd_canon hs2) (hs2.upd rfl rfl))))

theorem commitRecords_canon {i : Nat} {new : List Byte} {s t : State} (h : CanonBut P t) : CanonBut P (commitRecords i new s t) :=
  iteElse_canon (ite_canon (cvLocal_canon h) h) fun h1 => cvLocal_canon h1

theorem commitChange_canon {c : TableChange} (h : CanonBut P s) : CanonBut P (commitChange c s) := by
  unfold commitChange
  split
  · exact h
  · exact iteElse_canon (tabChange_canon h) fun h1 => commitRecords_canon h1

theorem fwtCommit_canon (h : CanonBut P s) : CanonBut P (fwtCommit s) :=
  iteThen_canon (setF_canon (setF_canon (iteElse_canon (applyAll_canon (fun _ _ h => commitChange_canon h) (h.upd rfl rfl)) fun h1 =>
    bankSwap_canon (h1.upd rfl rfl)))) fun h1 => setB_canon h1

theorem fwtDiscard_canon (h : CanonBut P s) : CanonBut P (fwtDiscard s) := by
  unfold fwtDiscard
  split
  · exact porterEnd_canon (setF_canon (setF_canon (h.upd rfl rfl)))
  · exact setF_canon (setF_canon (h.upd rfl rfl))

theorem execOverlayDrainDone_canon (h : CanonBut P s) : NextCanon P (execOverlayDrainDone s) :=
  ⟨_, rfl, setB_canon h⟩

theorem epochMismatch_canon (h : CanonBut P s) : CanonBut P (epochMismatch s) :=
  incF_canon (incF_canon h)

theorem keepOwner_canon {r : CvRecord} (h : CanonBut P s) : CanonBut P (keepOwner r s) :=
  h.upd rfl rfl

theorem mergeRecord_canon {r : CvRecord} (h : CanonBut P s) : CanonBut P (mergeRecord r s) := by
  refine ite_canon (incF_canon h) ?_
  split
  · exact ite_canon h (iteElse_canon (insertKey_canon h) fun h1 => cvQueue_canon (incF_canon (keepOwner_canon h1)))
  · exact ite_canon h (ite_canon (ite_canon h (ite_canon (cvQueue_canon (incF_canon (l2Put_canon h)))
      (incF_canon (l2Put_canon (keepOwner_canon h))))) (iteThen_canon (ite_canon (raise_canon h) h) fun h1 => ite_canon
      (cvQueue_canon (incF_canon (incF_canon (l2Put_canon (keepOwner_canon h1))))) (incF_canon h1)))

theorem installRecord_canon {r : CvRecord} (h : CanonBut P s) : CanonBut P (installRecord r s) := by
  refine ite_canon h ?_
  split
  · exact ite_canon h (ite_canon (incF_canon h) (iteElse_canon (insertKey_canon h) fun h1 => incF_canon (keepOwner_canon h1)))
  · exact ite_canon h (ite_canon (ite_canon (incF_canon (l2Put_canon h)) h)
      (ite_canon h (ite_canon (incF_canon h) (incF_canon (l2Put_canon (keepOwner_canon h))))))

theorem cvArrive_canon {c : Caravan} (h : CanonBut P s) : CanonBut P (cvArrive c s) :=
  ite_canon (raise_canon h) (ite_canon (raiseOnce_canon (setF_canon (h.upd rfl rfl))) (setF_canon (h.upd rfl rfl)))

theorem cvTake_canon {g : CvRecord → State → State} (hg : ∀ x s, CanonBut P s → CanonBut P (g x s)) (h : CanonBut P s) :
    CanonBut P (cvTake g s) := by
  unfold cvTake
  split
  · exact h
  · exact ite_canon (applyAll_canon (fun _ _ h => hg _ _ h) (setF_canon (h.upd rfl rfl))) (epochMismatch_canon (setF_canon (h.upd rfl rfl)))

theorem execCaravanMerge_canon (h : CanonBut P s) : NextCanon P (execCaravanMerge s) :=
  ⟨_, rfl, onlyIf_canon (fun _ h => cvTake_canon (fun _ _ h => mergeRecord_canon h) h) h⟩

theorem execRedistributionInstall_canon (h : CanonBut P s) : NextCanon P (execRedistributionInstall s) :=
  ⟨_, rfl, onlyIf_canon (fun _ h => cvTake_canon (fun _ _ h => installRecord_canon h) h) h⟩

theorem ownerDev_canon {e : L2} (h : CanonBut P s) : CanonBut P (ownerDev e s).2 := by
  refine iteSnd_canon h ?_
  split
  · exact h.upd rfl rfl
  · exact h

theorem refreshEntry_canon {i : Nat} (h : CanonBut P s) : CanonBut P (refreshEntry i s) :=
  cvQueue_canon (ownerDev_canon h)

theorem refreshRun_canon {l : List Nat} (h : CanonBut P s) : CanonBut P (refreshRun l s) := by
  induction l generalizing s with
  | nil => exact h.upd rfl rfl
  | cons i r ih => exact ite_canon (ih h) (ite_canon (h.upd rfl rfl) (ih ((refreshEntry_canon h).upd rfl rfl)))

theorem refreshStep_canon (h : CanonBut P s) : CanonBut P (refreshStep s) := by
  unfold refreshStep
  split
  · exact h
  · exact ite_canon (refreshRun_canon h) (h.upd rfl rfl)

theorem refreshMs_canon (h : CanonBut P s) : CanonBut P (refreshMs s) :=
  refreshStep_canon (h.upd rfl rfl)

theorem fullRefresh_canon (h : CanonBut P s) : CanonBut P (fullRefresh s) :=
  refreshStep_canon (h.upd rfl rfl)

theorem execFullRefresh_canon (h : CanonBut P s) : NextCanon P (execFullRefresh s) :=
  ⟨_, rfl, fullRefresh_canon h⟩

/-! ## The functions of Machine/Switch.lean -/

theorem storeFrame_canon {l : List Nat} {b : List Byte} (h : CanonBut P s) : CanonBut P (storeFrame l b s) := by
  induction l generalizing b s with
  | nil => exact h
  | cons p r ih => exact ih (wrBytes_canon h)

theorem swBump_canon {p i n : Nat} (h : CanonBut P s) : CanonBut P (swBump p i n s) :=
  h.upd rfl rfl

theorem setQueue_canon {k : Nat} {q : List Replica} (h : CanonBut P s) : CanonBut P (setQueue k q s) :=
  h.upd rfl rfl

theorem dropReplica_canon {r : Replica} (h : CanonBut P s) : CanonBut P (dropReplica r s) :=
  freePages_canon h

theorem discard_canon {p i : Nat} {r : Replica} (h : CanonBut P s) : CanonBut P (discard p i r s) :=
  swBump_canon (dropReplica_canon h)

theorem ringDrop_canon {r n : Nat} (h : CanonBut P s) : CanonBut P (ringDrop r n s) :=
  (incF_canon h).upd rfl rfl

theorem setGate_canon {p : Nat} {g : GateState} (h : CanonBut P s) : CanonBut P (setGate p g s) :=
  h.upd rfl rfl

theorem creditUpdate_canon {p : Nat} (h : CanonBut P s) : CanonBut P (creditUpdate p s) := by
  unfold creditUpdate
  refine ite_canon h ?_
  extract_lets now dt put s1
  have hs1 : CanonBut P s1 := applyAll_canon (fun _ _ h => h.upd rfl rfl) h
  exact hs1.upd rfl rfl

theorem refreshHold_canon {p : Nat} (h : CanonBut P s) : CanonBut P (refreshHold p s) :=
  ite_canon (setF_canon h) h

theorem enqueue_canon {p : Nat} {r : Replica} (h : CanonBut P s) : CanonBut P (enqueue p r s) := by
  unfold enqueue
  split
  · exact discard_canon h
  · exact incF_canon (discard_canon h)
  · exact incF_canon (discard_canon h)
  · exact ringDrop_canon (dropReplica_canon h)
  · exact discard_canon h
  · exact refreshHold_canon (setQueue_canon (creditUpdate_canon h))

theorem flushPort_canon {p : Nat} (h : CanonBut P s) : CanonBut P (flushPort p s) :=
  refreshHold_canon (creditUpdate_canon (applyAll_canon (fun _ _ h => applyAll_canon (fun _ _ h => discard_canon h) (setQueue_canon h))
    (creditUpdate_canon h)))

theorem ethCount_canon {p i : Nat} (h : CanonBut P s) : CanonBut P (ethCount p i s) :=
  ite_canon (raiseOnce_canon (incF_canon h)) (incF_canon h)

theorem trnCount_canon {lid i n : Nat} (h : CanonBut P s) : CanonBut P (trnCount lid i n s) :=
  h.upd rfl rfl

theorem toTranscriber_canon {r : Replica} (h : CanonBut P s) : CanonBut P (toTranscriber r s) := by
  unfold toTranscriber
  dsimp only
  split
  · exact releaseItem_canon h
  · exact trnCount_canon (dropReplica_canon h)

theorem joinPlain_canon {p : Nat} {r : Replica} (h : CanonBut P s) : CanonBut P (joinPlain p r s) :=
  ite_canon (toTranscriber_canon h) (ite_canon (discard_canon h) (enqueue_canon h))

theorem setInflight_canon {p : Nat} {i : Option Inflight} (h : CanonBut P s) : CanonBut P (setInflight p i s) :=
  h.upd rfl rfl

theorem addWaiting_canon {p : Nat} {l : List (Nat × Replica)} (h : CanonBut P s) : CanonBut P (addWaiting p l s) := by
  unfold addWaiting
  split
  · exact setInflight_canon h
  · exact h

theorem joinCut_canon {p : Nat} {r : Replica} (h : CanonBut P s) : CanonBut P (joinCut p r s) :=
  ite_canon (addWaiting_canon (enqueue_canon (sharePages_canon h))) (enqueue_canon h)

theorem joinQueue_canon {p : Nat} {r : Replica} (h : CanonBut P s) : CanonBut P (joinQueue p r s) :=
  ite_canon (discard_canon h) (ite_canon (joinPlain_canon (joinPlain_canon (sharePages_canon h))) (joinPlain_canon h))

theorem ingressCopy_canon {w : Waybill} {arriving : Bool} (h : CanonBut P s) : CanonBut P (ingressCopy w arriving s) :=
  ite_canon (ite_canon (addWaiting_canon (sharePages_canon h)) (joinPlain_canon (sharePages_canon h))) h

theorem police_canon {i charge : Nat} (h : CanonBut P s) : CanonBut P (police i charge s).2 := by
  refine iteSnd_canon (incF_canon h) (iteSnd_canon (entWr_canon h) ?_)
  split
  · exact raiseOnce_canon (setF_canon (entWr_canon h))
  · exact entWr_canon h
  · exact entWr_canon h

theorem policeSettle_canon {i charged len : Nat} (h : CanonBut P s) : CanonBut P (policeSettle i charged len s) :=
  ite_canon h (entWr_canon h)

theorem policeCredit_canon {i : Nat} (h : CanonBut P s) : CanonBut P (policeCredit i s) :=
  entWr_canon h

theorem execPolicerCreditTick_canon (h : CanonBut P s) : NextCanon P (execPolicerCreditTick s) :=
  ⟨_, rfl, applyAll_canon (fun _ _ h => policeCredit_canon h) h⟩

theorem setCb_canon {sh : Nat} {c : CbStream} (h : CanonBut P s) : CanonBut P (setCb sh c s) :=
  h.upd rfl rfl

theorem execStreamResetTimeout_canon {sh : Nat} (h : CanonBut P s) : NextCanon P (execStreamResetTimeout sh s) :=
  ⟨_, rfl, onlyIf_canon (fun _ h => setCb_canon h) h⟩

theorem flowDrop_canon {f : Flow} {i : Nat} (h : CanonBut P s) : CanonBut P (flowDrop f i s) :=
  swBump_canon (freePages_canon h)

theorem replicate_canon {f : Flow} {encap : Option Nat} {decap arriving : Bool} (h : CanonBut P s) :
    CanonBut P (replicate f encap decap arriving s) := by
  unfold replicate
  extract_lets w again w1 nosub s1 s2 reps g s3 cut rest s4
  have hs1 : CanonBut P s1 := ite_canon (swBump_canon h) h
  have hs2 : CanonBut P s2 := ite_canon (swBump_canon hs1) hs1
  have hs3 : CanonBut P s3 := sharePages_canon hs2
  have hs4 : CanonBut P s4 := applyAll_canon (fun _ _ h => joinCut_canon h) hs3
  exact ite_canon (ite_canon (freePages_canon hs2) (flowDrop_canon hs2)) (ite_canon (addWaiting_canon hs4)
    (applyAll_canon (fun _ _ h => joinQueue_canon h) hs4))

theorem reframe_canon {f : Flow} {b : List Byte} (h : CanonBut P s) : CanonBut P (reframe f b s).2 := by
  refine storeFrame_canon ?_
  split
  · exact setInflight_canon h
  · exact h

theorem recovery_canon {f g : Flow} {sh : Nat} {t : State} (h : CanonBut P s) (e : recovery f sh s = some (g, t)) : CanonBut P t := by
  unfold recovery at e
  dsimp only at e
  split at e
  · cases e; exact h
  · split at e
    · cases e; exact setCb_canon h
    · simp only [Option.ite_none_right_eq_some, Option.some.injEq] at e
      exact (iteSnd_canon (reframe_canon (setCb_canon h)) (pair_canon (setCb_canon h))).of_eq e.2

theorem recoveryDiscard_canon {f : Flow} {sh : Nat} (h : CanonBut P s) : CanonBut P (recoveryDiscard f sh s) := by
  unfold recoveryDiscard
  split
  · exact h
  · exact setCb_canon h

theorem forwardL2_canon {f : Flow} {arriving : Bool} (h : CanonBut P s) : CanonBut P (forwardL2 f arriving s) := by
  unfold forwardL2
  extract_lets w g ring s0 w1
  have hs0 : CanonBut P s0 := ite_canon (learnMeet_canon h) h
  split
  · exact replicate_canon hs0
  · extract_lets dec w1
    split
    · exact flowDrop_canon hs0
    · refine ite_canon (flowDrop_canon hs0) (ite_canon ?_ (replicate_canon hs0))
      split
      · exact flowDrop_canon (recoveryDiscard_canon hs0)
      · next e => exact replicate_canon (recovery_canon hs0 e)

theorem forwardTile_canon {f : Flow} (h : CanonBut P s) : CanonBut P (forwardTile f s) := by
  unfold forwardTile
  dsimp only
  split
  · exact replicate_canon h
  · split
    · exact flowDrop_canon h
    · exact replicate_canon h

theorem forwardStage_canon {f : Flow} {arriving : Bool} (h : CanonBut P s) : CanonBut P (forwardStage f arriving s) :=
  ite_canon (forwardTile_canon h) (forwardL2_canon h)

theorem settleLater_canon {p i charge : Nat} (h : CanonBut P s) : CanonBut P (settleLater p i charge s) := by
  unfold settleLater
  split
  · exact setInflight_canon h
  · exact h

theorem policeStage_canon {f : Flow} {g : GraphRec} {arriving : Bool} (h : CanonBut P s) : CanonBut P (policeStage f g arriving s).2 := by
  unfold policeStage
  dsimp only
  split
  · exact ite_canon (police_canon h) (settleLater_canon (police_canon h))
  · exact flowDrop_canon (police_canon h)
  · exact police_canon h
  · exact police_canon h

theorem queueItem_canon {lid : Nat} {w : Waybill} {arriving : Bool} (h : CanonBut P s) : CanonBut P (queueItem lid w arriving s) :=
  ite_canon (addWaiting_canon h) (releaseItem_canon h)

theorem transcribeStage_canon {f : Flow} {g : GraphRec} {arriving : Bool} (h : CanonBut P s) :
    CanonBut P (transcribeStage f g arriving s).2 := by
  unfold transcribeStage
  dsimp only
  split
  · exact h
  · exact iteSnd_canon (queueItem_canon h) (queueItem_canon (sharePages_canon h))

theorem runStages_canon {l : List Nat} {f : Flow} {g : GraphRec} {arriving : Bool} (h : CanonBut P s) :
    CanonBut P (runStages l f g arriving s) := by
  induction l, f, g, arriving, s using runStages.induct with
  | case1 f g arriving s => exact freePages_canon h
  | case2 r f g arriving s => exact forwardStage_canon h
  | case3 r f g arriving s f1 s1 e ih => rw [runStages, e]; exact ih ((transcribeStage_canon h).of_eq e)
  | case4 r f g arriving s s1 e => rw [runStages, e]; exact (transcribeStage_canon h).of_eq e
  | case5 r f g arriving s f1 s1 e ih => rw [runStages, e]; exact ih ((policeStage_canon h).of_eq e)
  | case6 r f g arriving s s1 e => rw [runStages, e]; exact (policeStage_canon h).of_eq e
  | case7 r f g arriving s e => rw [runStages, if_pos e]; exact h.upd rfl rfl
  | case8 r f g arriving s e ih => rw [runStages, if_neg e]; exact ih h
  | case9 x r f g arriving s h5 h4 h3 h2 ih => rw [runStages] <;> [exact ih h; exact h5; exact h4; exact h3; exact h2]

theorem enterPipeline_canon {w : Waybill} {frame : List Byte} {arriving : Bool} (h : CanonBut P s) :
    CanonBut P (enterPipeline w frame arriving s) := by
  unfold enterPipeline
  extract_lets p g classify vid tc w1 f s0 s1 rest _
  have hs0 : CanonBut P s0 := ite_canon (setInflight_canon h) h
  have hs1 : CanonBut P s1 := ingressCopy_canon (swBump_canon (swBump_canon hs0))
  exact ite_canon (replicate_canon hs1) (ite_canon (flowDrop_canon hs1) (ite_canon (hs1.upd rfl rfl) (runStages_canon hs1)))

theorem setFilling_canon {k : Nat} {l : List Nat} (h : CanonBut P s) : CanonBut P (setFilling k l s) :=
  h.upd rfl rfl

theorem pagesOf_canon {w : Waybill} {tc len : Nat} {lossless : Bool} (h : CanonBut P s) : CanonBut P (pagesOf w tc len lossless s).2.2 := by
  refine iteSnd₂_canon (freePages_canon (setFilling_canon h)) (iteSnd₂_canon (setFilling_canon ?_)
    (iteSnd₂_canon (setFilling_canon ?_) (freePages_canon (setFilling_canon ?_))))
  · split
    · exact h
    · exact takePages_canon h
  · split
    · exact h
    · exact takePages_canon h
  · split
    · exact h
    · exact takePages_canon h

theorem setHolds_canon {k : Nat} {l : List Held} (h : CanonBut P s) : CanonBut P (setHolds k l s) :=
  h.upd rfl rfl

theorem obufShow_canon (h : CanonBut P s) : CanonBut P (obufShow s) :=
  setF_canon (setB_canon h)

theorem enterHostel_canon {w : Waybill} {frame : List Byte} {arriving : Bool} {pages : List Nat} (h : CanonBut P s) :
    CanonBut P (enterHostel w frame arriving pages s) :=
  ite_canon (replicate_canon (ingressCopy_canon (storeFrame_canon (linkPages_canon h))))
    (enterPipeline_canon (storeFrame_canon (linkPages_canon h)))

theorem offerFrame_canon {w : Waybill} {frame : List Byte} {arriving : Bool} (h : CanonBut P s) : CanonBut P (offerFrame w frame arriving s) :=
  ite_canon (ite_canon (obufShow_canon (setHolds_canon h)) (countDrop_canon h))
    (ite_canon (enterHostel_canon (pagesOf_canon h)) (ite_canon (ite_canon (obufShow_canon (setHolds_canon (pagesOf_canon h)))
    (countDrop_canon (pagesOf_canon h))) (countDrop_canon (pagesOf_canon h))))

theorem internalFrame_canon {w : Waybill} {bytes : List Byte} (h : CanonBut P s) : CanonBut P (internalFrame w bytes s) :=
  offerFrame_canon h

theorem unitFrame_canon {w : Waybill} {bytes : List Byte} (h : CanonBut P s) : CanonBut P (unitFrame w bytes s) :=
  offerFrame_canon h

theorem enterHeld_canon {h : Held} (hs : CanonBut P s) : CanonBut P (enterHeld h s) :=
  underGen_canon (fun _ _ h => ite_canon (enterHostel_canon (pagesOf_canon h)) (countDrop_canon (pagesOf_canon h))) hs

theorem releaseLossy_canon {k : Nat} {l : List Held} (h : CanonBut P s) : CanonBut P (releaseLossy k l s) := by
  induction l generalizing s with
  | nil => exact setHolds_canon h
  | cons x q ih => exact ite_canon (setHolds_canon h) (ih (enterHeld_canon h))

theorem retryHold_canon {k : Nat} (h : CanonBut P s) : CanonBut P (retryHold k s) := by
  unfold retryHold
  split
  · exact h
  · exact ite_canon h (obufShow_canon (releaseLossy_canon (enterHeld_canon h)))

theorem policeOwn_canon {graph : Nat} {w : Waybill} {frame : List Byte} (h : CanonBut P s) : CanonBut P (policeOwn graph w frame s).2 := by
  unfold policeOwn
  dsimp only
  split
  · refine iteSnd_canon ?_ h
    split
    · exact swBump_canon (police_canon h)
    · exact police_canon h
    · exact police_canon h
  · exact h

theorem sendOwn_canon {graph : Nat} {w : Waybill} {frame : List Byte} (h : CanonBut P s) : CanonBut P (sendOwn graph w frame s) := by
  unfold sendOwn
  split
  · next e => exact internalFrame_canon ((policeOwn_canon (swBump_canon (swBump_canon h))).of_eq e)
  · next e => exact (policeOwn_canon (swBump_canon (swBump_canon h))).of_eq e

theorem internalInline_canon {w : Waybill} (h : CanonBut P s) : CanonBut P (internalInline w s) :=
  applyAll_canon (fun _ _ h => joinQueue_canon h) (ingressCopy_canon h)

theorem setMet_canon {p : Nat} {b : Bool} (h : CanonBut P s) : CanonBut P (setMet p b s) :=
  h.upd rfl rfl

theorem ingressFrame_canon {p : Nat} {frame : List Byte} {sfd : Nat} (h : CanonBut P s) : CanonBut P (ingressFrame p frame sfd s) :=
  offerFrame_canon h

theorem execFrameIngress_canon {p : Nat} {frame : List Byte} {sfd : Nat} (h : CanonBut P s) : NextCanon P (execFrameIngress p frame sfd s) :=
  ⟨_, rfl, onlyIf_canon (fun _ h => setMet_canon (ingressFrame_canon h)) h⟩

theorem settleCharge_canon {i : Inflight} (h : CanonBut P s) : CanonBut P (settleCharge i s) := by
  unfold settleCharge
  split
  · exact policeSettle_canon h
  · exact h

theorem mapQueued_canon {pages : List Nat} {g : Replica → Option Replica} (h : CanonBut P s) : CanonBut P (mapQueued pages g s) :=
  applyAll_canon (fun _ _ h => applyAll_canon (fun _ _ h => dropReplica_canon h) (setQueue_canon h)) h

theorem frameStored_canon {p : Nat} (h : CanonBut P s) : CanonBut P (frameStored p s) := by
  unfold frameStored
  split
  · exact setHolds_canon h
  · exact underGen_canon (fun _ _ h => applyAll_canon (fun _ _ h => joinQueue_canon h)
      (mapQueued_canon (settleCharge_canon (setInflight_canon h)))) h

theorem execFrameStored_canon {p : Nat} (h : CanonBut P s) : NextCanon P (execFrameStored p s) :=
  ⟨_, rfl, frameStored_canon h⟩

theorem setSending_canon {p : Nat} {r : Option Replica} (h : CanonBut P s) : CanonBut P (setSending p r s) :=
  h.upd rfl rfl

theorem endSpoiled_canon {q : Nat} (h : CanonBut P s) : CanonBut P (endSpoiled q s) := by
  unfold endSpoiled
  split
  · exact h
  · exact emit_canon (dropReplica_canon (setSending_canon (creditUpdate_canon h)))

theorem portsSettle_canon (h : CanonBut P s) : CanonBut P (portsSettle s) :=
  applyAll_canon (fun _ _ h => refreshHold_canon (creditUpdate_canon h)) h

theorem abandonFrame_canon {p : Nat} (h : CanonBut P s) : CanonBut P (abandonFrame p s) := by
  unfold abandonFrame
  split
  · exact ite_canon (setHolds_canon (freePages_canon (setFilling_canon h))) (setHolds_canon h)
  · refine underGen_canon (fun _ _ h => ?_) h
    exact applyAll_canon (fun _ _ h => swBump_canon (endSpoiled_canon h))
      (applyAll_canon (fun _ _ h => dropReplica_canon h) (portsSettle_canon
      (mapQueued_canon (portsSettle_canon (settleCharge_canon (setInflight_canon h))))))

/-! ## The functions of Machine/Egress.lean -/

theorem ptpStamp_canon {p : Nat} {f : List Byte} (h : CanonBut P s) : CanonBut P (ptpStamp p f s) :=
  ite_canon (incF_canon h) (setF_canon (h.upd rfl rfl))

theorem putOnWire_canon {p : Nat} (h : CanonBut P s) : CanonBut P (putOnWire p s) :=
  h.upd rfl rfl

theorem burstStart_canon {p : Nat} (h : CanonBut P s) : CanonBut P (burstStart p s) := by
  unfold burstStart
  split
  · exact ite_canon (putOnWire_canon (h.upd rfl rfl)) h
  · exact h

theorem execEgressSelection_canon {p : Nat} (h : CanonBut P s) : NextCanon P (execEgressSelection p s) := by
  refine ⟨_, rfl, onlyIf_canon (fun s h => ?_) h⟩
  dsimp only
  split
  · exact refreshHold_canon (creditUpdate_canon h)
  · split
    · exact creditUpdate_canon h
    · exact refreshHold_canon (burstStart_canon (iteElse_canon (setSending_canon (setQueue_canon (creditUpdate_canon h)))
        fun h1 => ptpStamp_canon h1))

theorem plcaUp_canon {p : Nat} (h : CanonBut P s) : CanonBut P (plcaUp p s) :=
  ite_canon h (raise_canon (setB_canon (setB_canon h)))

theorem beacon_canon {p : Nat} (h : CanonBut P s) : CanonBut P (beacon p s) :=
  emit_canon (plcaUp_canon h)

theorem execTransmitOpportunity_canon {p : Nat} (h : CanonBut P s) : NextCanon P (execTransmitOpportunity p s) :=
  ⟨_, rfl, onlyIf_canon (fun _ h => iteThen_canon (ite_canon (beacon_canon h) h) fun h1 => ite_canon (putOnWire_canon (h1.upd rfl rfl))
    (h1.upd rfl rfl)) h⟩

theorem execPageFree_canon {p : Nat} (h : CanonBut P s) : NextCanon P (execPageFree p s) := by
  refine ⟨_, rfl, ?_⟩
  split
  · exact h
  · refine ite_canon h ?_
    split
    · exact h
    · exact setSending_canon (freePage_canon h)

theorem recirculate_canon {r : Replica} (h : CanonBut P s) : CanonBut P (recirculate r s) :=
  runStages_canon (ingressCopy_canon (swBump_canon (swBump_canon h)))

theorem hieTake_canon {p : Nat} {f : List Byte} (h : CanonBut P s) : CanonBut P (hieTake p f s) :=
  h.upd rfl rfl

theorem truncate_canon {p : Nat} (h : CanonBut P s) : CanonBut P (truncate p s) :=
  swBump_canon (endSpoiled_canon h)

theorem replicaSent_canon {p : Nat} {r : Replica} (h : CanonBut P s) : CanonBut P (replicaSent p r s) := by
  unfold replicaSent
  extract_lets s1 _ s2 _ _ s3 _
  have hs1 : CanonBut P s1 := swBump_canon (swBump_canon (setSending_canon (creditUpdate_canon h)))
  have hs2 : CanonBut P s2 := hs1.upd rfl rfl
  have hs3 : CanonBut P s3 := emit_canon (dropReplica_canon hs2)
  exact ite_canon (recirculate_canon hs2) (ite_canon (ite_canon (hieTake_canon (dropReplica_canon hs2)) ((dropReplica_canon hs2).upd rfl rfl))
    (ite_canon (ethCount_canon hs3) (ite_canon (ethCount_canon (hs3.upd rfl rfl)) hs3)))

theorem transmitDone_canon {p : Nat} (h : CanonBut P s) : CanonBut P (transmitDone p s) := by
  unfold transmitDone
  split
  · exact h
  · exact ite_canon h (ite_canon (truncate_canon h) (replicaSent_canon h))

theorem execCutThroughEnd_canon {p why : Nat} (h : CanonBut P s) : NextCanon P (execCutThroughEnd p why s) := by
  refine ⟨_, rfl, ?_⟩
  split
  · exact h
  · exact ite_canon h (ite_canon (ite_canon (truncate_canon h) h) (ite_canon h
      (ite_canon (abandonFrame_canon h) (ite_canon (refreshHold_canon (swBump_canon
      (setQueue_canon (emit_canon (setSending_canon (creditUpdate_canon h)))))) h))))

theorem countCycles_canon {p : Nat} (h : CanonBut P s) : CanonBut P (countCycles p s) := by
  unfold countCycles
  dsimp only
  refine applyAll_canon (fun _ _ h => ?_) h
  split
  · exact h
  · exact setQueue_canon h

theorem showGates_canon {p : Nat} (h : CanonBut P s) : CanonBut P (showGates p s) :=
  setF_canon (setF_canon h)

theorem execGateEntryChange_canon {p : Nat} (h : CanonBut P s) : NextCanon P (execGateEntryChange p s) := by
  refine ⟨_, rfl, ?_⟩
  refine onlyIf_canon (fun _ h => ?_) h
  exact ite_canon (refreshHold_canon (showGates_canon (setGate_canon (creditUpdate_canon h))))
    (iteThen_canon (creditUpdate_canon h) fun h1 => refreshHold_canon (showGates_canon (setGate_canon (countCycles_canon h1))))

theorem showOper_canon {p : Nat} {l : List (Nat × Nat)} (h : CanonBut P s) : CanonBut P (showOper p l s) :=
  applyAll_canon (fun _ _ h => setF_canon h) h

theorem execGateConfigChange_canon {p : Nat} (h : CanonBut P s) : NextCanon P (execGateConfigChange p s) := by
  refine ⟨_, rfl, ?_⟩
  split
  · exact h
  · exact refreshHold_canon (showGates_canon (showOper_canon (setB_canon (setGate_canon (countCycles_canon (creditUpdate_canon h))))))

theorem gateCommit_canon {p : Nat} (h : CanonBut P s) : CanonBut P (gateCommit p s) :=
  refreshHold_canon (showGates_canon (setB_canon (setGate_canon h)))

theorem execGateHoldDiscard_canon {p c : Nat} (h : CanonBut P s) : NextCanon P (execGateHoldDiscard p c s) := by
  refine ⟨_, rfl, ?_⟩
  dsimp only
  refine onlyIf_canon (fun _ h => ?_) h
  split
  · exact h
  · exact ite_canon h (refreshHold_canon (creditUpdate_canon (raise_canon (incF_canon (discard_canon (setQueue_canon (creditUpdate_canon h)))))))

/-! ## The functions of Machine/RegFind.lean -/

theorem clearRead_canon {d : RegDesc} {a : Nat} (h : CanonBut P s) : CanonBut P (clearRead d a s) :=
  applyAll_canon (fun _ _ h => ite_canon (setF_canon h) h) h

theorem writeFields_canon {p : Acc → Bool} {d : RegDesc} {a w : Nat} (h : CanonBut P s) : CanonBut P (writeFields p d a w s) := by
  refine applyAll_canon (fun _ _ h => ite_canon h ?_) h
  split
  · exact clrF_canon h
  · exact orF_canon h
  · exact h
  · exact h
  · exact h
  · exact setF_canon h

/-! ## The functions of Machine/Rings.lean -/

theorem addFilling_canon {k p : Nat} (h : CanonBut P s) : CanonBut P (addFilling k p s) :=
  setFilling_canon h

theorem noPage_canon {reason : Nat} {r : PageReq} (h : CanonBut P s) : CanonBut P (noPage reason r s) :=
  ite_canon h (iteElse_canon (freePages_canon (setFilling_canon h)) fun h1 => countDrop_canon h1)

theorem turnPast_canon {l : List PageReq} (h : CanonBut P s) : CanonBut P (turnPast l s) := by
  unfold turnPast
  split
  · exact h.upd rfl rfl
  · exact h

theorem loses_canon {s0 : State} {r : PageReq} (h : CanonBut P s) : CanonBut P (loses s0 r s) := by
  unfold loses
  split
  · exact noPage_canon h
  · exact noPage_canon h
  · exact h

theorem execPageRequest_canon {reqs : List PageReq} (h : CanonBut P s) : NextCanon P (execPageRequest reqs s) := by
  refine ⟨_, rfl, ?_⟩
  dsimp only
  split
  · exact applyAll_canon (fun _ _ h => loses_canon h) (turnPast_canon h)
  · split
    · exact turnPast_canon h
    · exact retryHold_canon (applyAll_canon (fun _ _ h => loses_canon h) (addFilling_canon (grantPage_canon (turnPast_canon h))))

theorem pgRefuse_canon {why : Nat} (h : CanonBut P s) : CanonBut P (pgRefuse why s) :=
  setB_canon (setB_canon (setF_canon h))

theorem cmdInkPgreq_canon {rq : Requester} {w : Word} (h : CanonBut P s) : CanonBut P (cmdInkPgreq rq w s) := by
  unfold cmdInkPgreq
  dsimp only
  refine ite_canon (busError_canon h) ?_
  split
  · exact pgRefuse_canon (busDone_canon h)
  · refine ite_canon (pgRefuse_canon (busDone_canon h)) (ite_canon (pgRefuse_canon (countFull_canon (busDone_canon h))) ?_)
    split
    · exact pgRefuse_canon (busDone_canon h)
    · next e3 =>
      exact setB_canon (setB_canon (setF_canon (setF_canon (linkPages_canon
        (grantLease_canon (takePages_canon (freePages_canon (setFilling_canon (busDone_canon h)))) e3)))))

theorem execInkPgreq_canon {rq : Requester} {w : Word} (h : CanonBut P s) : NextCanon P (execInkPgreq rq w s) :=
  ⟨_, rfl, gate_canon (fun _ h => cmdInkPgreq_canon h) h⟩

theorem cmdInkPgfree_canon {rq : Requester} {n : Nat} (h : CanonBut P s) : CanonBut P (cmdInkPgfree rq n s) :=
  ite_canon (busDone_canon (setLease_canon (freePages_canon h))) (busError_canon h)

theorem execInkPgfree_canon {rq : Requester} {n : Nat} (h : CanonBut P s) : NextCanon P (execInkPgfree rq n s) :=
  ⟨_, rfl, gate_canon (fun _ h => cmdInkPgfree_canon h) h⟩

theorem execPageWindowAccess_canon {rq : Requester} {a size : Nat} {v : Option Word} (h : CanonBut P s) :
    NextCanon P (execPageWindowAccess rq a size v s) := by
  refine ⟨_, rfl, ?_⟩
  refine ite_canon (busError_canon h) (ite_canon (violate_canon h) ?_)
  split
  · exact ite_canon (busData_canon h) (busData_canon h)
  · exact ite_canon (busDone_canon (wrBytes_canon h)) (ite_canon (busError_canon h) (busDone_canon (h.upd rfl rfl)))

theorem ringFault_canon {r a : Nat} {write : Bool} (h : CanonBut P s) : CanonBut P (ringFault r a write s) :=
  violation_canon (setB_canon (setB_canon h))

theorem ringStep_canon {r n : Nat} {k : Nat} {q : List Replica} {a : Nat} {b : List Byte} {x : SwcState} (h : CanonBut P s) :
    CanonBut P { setF (SWC_RTAIL_idx r) n (setQueue k q (wrBytes a b s)) with swc := x } := by
  have h2 : CanonBut P (setF (SWC_RTAIL_idx r) n (setQueue k q (wrBytes a b s))) := setF_canon (setQueue_canon (wrBytes_canon h))
  exact h2.upd rfl rfl

theorem execReceiveRingWrite_canon {r : Nat} (h : CanonBut P s) : NextCanon P (execReceiveRingWrite r s) := by
  refine ⟨_, rfl, ite_canon h ?_⟩
  split
  · exact h
  · extract_lets a w st n finish
    have hfinish (w8 : Nat) {t : State} (ht : CanonBut P t) : CanonBut P (finish w8 t) := by
      unfold finish
      exact ringStep_canon ht
    clear_value finish
    refine ite_canon (ringFault_canon h) (ite_canon (hfinish _ h) ?_)
    split
    · exact countFull_canon h
    · next e => exact hfinish _ (grantLease_canon h e)

theorem execRingInterrupt_canon {r : Nat} (h : CanonBut P s) : NextCanon P (execRingInterrupt r s) :=
  ⟨_, rfl, onlyIf_canon (fun _ h => ite_canon (h.upd rfl rfl) (emit_canon (h.upd rfl rfl))) h⟩

theorem directed_canon {f : Flow} {m : Nat} (h : CanonBut P s) : CanonBut P (directed f m s) := by
  unfold directed
  split
  · refine ite_canon ?_ (replicate_canon h)
    split
    · next e2 => exact replicate_canon ((policeStage_canon h).of_eq e2)
    · next e2 => exact (policeStage_canon h).of_eq e2
  · exact replicate_canon h

theorem ringAdvance_canon {r : Nat} (h : CanonBut P s) : CanonBut P (ringAdvance r s) :=
  setF_canon h

theorem execTransmitSlotProcess_canon {r : Nat} (h : CanonBut P s) : NextCanon P (execTransmitSlotProcess r s) := by
  refine ⟨_, rfl, ?_⟩
  dsimp only
  refine ite_canon h (ite_canon (ringFault_canon h) ?_)
  split
  · exact ringAdvance_canon (incF_canon h)
  · exact ite_canon (ringAdvance_canon (incF_canon h)) (ite_canon (directed_canon
      (ingressCopy_canon (swBump_canon (swBump_canon (ringAdvance_canon (setLease_canon (linkPages_canon (freePages_canon h))))))))
      (enterPipeline_canon (ringAdvance_canon (setLease_canon (linkPages_canon (freePages_canon h))))))

theorem ringReset_canon {r : Nat} (h : CanonBut P s) : CanonBut P (ringReset r s) :=
  ringDrop_canon ((setQueue_canon (applyAll_canon (fun _ _ h => dropReplica_canon h) h)).dropRegs rfl rfl)

theorem ringsReset_canon {w : World} (h : CanonBut P s) : CanonBut P (ringsReset w s) :=
  applyAll_canon (fun _ _ h => ringReset_canon h) h

theorem cmdSwcSnap_canon {rq : Requester} {w : Word} (h : CanonBut P s) : CanonBut P (cmdSwcSnap rq w s) :=
  ite_canon (busError_canon h) (busDone_canon (setF_canon (setB_canon (iteElse_canon (applyAll_canon (fun _ _ h => setF_canon (setF_canon h)) h)
    fun h1 => h1.upd rfl rfl))))

theorem execSwcSnap_canon {rq : Requester} {w : Word} (h : CanonBut P s) : NextCanon P (execSwcSnap rq w s) :=
  ⟨_, rfl, gate_canon (fun _ h => cmdSwcSnap_canon h) h⟩

theorem lockTake_canon {blk : Nat} {busy lease : Fld} {blocked : Bool} {rq : Requester} (h : CanonBut P s) :
    CanonBut P (lockTake blk busy lease blocked rq s) := by
  unfold lockTake
  extract_lets s0
  have hs0 : CanonBut P s0 := busDone_canon h
  split
  · exact ite_canon (setB_canon hs0) (setB_canon hs0)
  · refine ite_canon (setB_canon hs0) ?_
    split
    · next e2 => exact setF_canon (setB_canon (grantLease_canon hs0 e2))
    · exact setB_canon (countFull_canon hs0)

theorem cmdSwcLockTake_canon {rq : Requester} (h : CanonBut P s) : CanonBut P (cmdSwcLockTake rq s) :=
  lockTake_canon h

theorem execSwcLockTake_canon {rq : Requester} (h : CanonBut P s) : NextCanon P (execSwcLockTake rq s) :=
  ⟨_, rfl, gate_canon (fun _ h => cmdSwcLockTake_canon h) h⟩

theorem cmdFwtLockTake_canon {rq : Requester} (h : CanonBut P s) : CanonBut P (cmdFwtLockTake rq s) :=
  lockTake_canon h

theorem execFwtLockTake_canon {rq : Requester} (h : CanonBut P s) : NextCanon P (execFwtLockTake rq s) :=
  ⟨_, rfl, gate_canon (fun _ h => cmdFwtLockTake_canon h) h⟩

theorem applyStaged_canon {x : Staged} (h : CanonBut P s) : CanonBut P (applyStaged x s) := by
  refine ite_canon (h.upd rfl rfl) ?_
  split
  · exact writeFields_canon h
  · exact h

theorem swcCommit_canon (h : CanonBut P s) : CanonBut P (swcCommit s) :=
  applyAll_canon (fun _ _ h => gateCommit_canon h) (applyAll_canon (fun _ _ h => applyStaged_canon h) (h.upd rfl rfl))

theorem swcDiscard_canon (h : CanonBut P s) : CanonBut P (swcDiscard s) :=
  h.upd rfl rfl

/-! ## The functions of Machine/Keys.lean -/

theorem kstWrite_canon {rq : Requester} {a : Nat} {g : State → State} (hg : ∀ s, CanonBut P s → CanonBut P (g s)) (h : CanonBut P s) :
    CanonBut P (kstWrite rq a g s) :=
  ite_canon (hg _ h) (violate_canon h)

theorem kstKeyed_canon {rq : Requester} {a key : Nat} {g : State → State} (hg : ∀ s, CanonBut P s → CanonBut P (g s)) (h : CanonBut P s) :
    CanonBut P (kstKeyed rq a key g s) :=
  kstWrite_canon (fun _ h => ite_canon (hg _ (busDone_canon h)) (busError_canon h)) h

theorem unitViolation_canon {a : Nat} {w : World} {write : Bool} (h : CanonBut P s) : CanonBut P (unitViolation a w write s) :=
  violation_canon (h.upd rfl rfl)

theorem storeWrite_canon {region blk : Nat} (h : CanonBut P s) : CanonBut P (storeWrite region blk s) :=
  h.upd rfl rfl

theorem drbgReseed_canon (h : CanonBut P s) : CanonBut P (drbgReseed s) :=
  ite_canon h (incF_canon (h.upd rfl rfl))

theorem drbgCall_canon (h : CanonBut P s) : CanonBut P (drbgCall s).2 :=
  ite_canon (drbgReseed_canon (h.upd rfl rfl)) (h.upd rfl rfl)

theorem drbgBytes_canon {n : Nat} (h : CanonBut P s) : CanonBut P (drbgBytes n s).2 := by
  induction n generalizing s with
  | zero => exact h
  | succ n ih => exact ih (drbgCall_canon h)

theorem setNode_canon {n : Nat} {v : Node} (h : CanonBut P s) : CanonBut P (setNode n v s) :=
  storeWrite_canon (h.upd rfl rfl)

theorem nodeRefuse_canon {why : Option Nat} (h : CanonBut P s) : CanonBut P (nodeRefuse why s) := by
  unfold nodeRefuse
  split
  · exact setF_canon (setB_canon (setB_canon h))
  · exact setFree_canon (setB_canon (setB_canon h))

theorem nodeDone_canon (h : CanonBut P s) : CanonBut P (nodeDone s) :=
  setB_canon (setB_canon h)

theorem cmdNodeCreate_canon {rq : Requester} {key parent : Nat} (h : CanonBut P s) : CanonBut P (cmdNodeCreate rq key parent s) := by
  refine kstKeyed_canon (fun _ h => ite_canon (nodeRefuse_canon h) (ite_canon (nodeRefuse_canon h) (ite_canon (nodeRefuse_canon h) ?_))) h
  split
  · exact nodeRefuse_canon h
  · exact nodeDone_canon (setF_canon (setNode_canon (iteSnd_canon h (h.upd rfl rfl))))

theorem execNodeCreate_canon {rq : Requester} {key parent : Nat} (h : CanonBut P s) : NextCanon P (execNodeCreate rq key parent s) :=
  ⟨_, rfl, gate_canon (fun _ h => cmdNodeCreate_canon h) h⟩

theorem orphanBelow_canon {n : Nat} (h : CanonBut P s) : CanonBut P (orphanBelow n s) :=
  applyAll_canon (fun _ _ h => setNode_canon h) h

theorem setSlot_canon {k : Nat} {v : KeySlot} (h : CanonBut P s) : CanonBut P (setSlot k v s) :=
  h.upd rfl rfl

theorem cmdNodeInvalidate_canon {rq : Requester} {key node : Nat} (h : CanonBut P s) : CanonBut P (cmdNodeInvalidate rq key node s) :=
  kstKeyed_canon (fun _ h => ite_canon (nodeRefuse_canon h) (ite_canon (nodeRefuse_canon h)
    (ite_canon (nodeRefuse_canon h) (iteThen_canon (nodeDone_canon (setF_canon
    (applyAll_canon (fun _ _ h => setSlot_canon h) (setNode_canon (orphanBelow_canon h))))) fun h1 => raise_canon h1)))) h

theorem execNodeInvalidate_canon {rq : Requester} {key node : Nat} (h : CanonBut P s) : NextCanon P (execNodeInvalidate rq key node s) :=
  ⟨_, rfl, gate_canon (fun _ h => cmdNodeInvalidate_canon h) h⟩

theorem cmdNodeFree_canon {rq : Requester} {key node : Nat} (h : CanonBut P s) : CanonBut P (cmdNodeFree rq key node s) :=
  kstKeyed_canon (fun _ h => ite_canon (nodeRefuse_canon h) (ite_canon (nodeRefuse_canon h) (nodeDone_canon (setNode_canon h)))) h

theorem execNodeFree_canon {rq : Requester} {key node : Nat} (h : CanonBut P s) : NextCanon P (execNodeFree rq key node s) :=
  ⟨_, rfl, gate_canon (fun _ h => cmdNodeFree_canon h) h⟩

theorem execSlotWipe_canon {k : Nat} (h : CanonBut P s) : NextCanon P (execSlotWipe k s) :=
  ⟨_, rfl, onlyIf_canon (fun _ h => applyAll_canon (fun _ _ h => declare_canon h) (setSlot_canon h)) h⟩

theorem loadReject_canon {why user idx : Nat} (h : CanonBut P s) : CanonBut P (loadReject why user idx s) :=
  ite_canon (raiseOnce_canon (incF_canon (setF_canon (setF_canon (setF_canon (incF_canon h))))))
    (raiseOnce_canon (setF_canon (setF_canon (setF_canon (incF_canon h)))))

theorem shelfPut_canon {i : Nat} {b : List Byte} {t : State} (h : CanonBut P s) (e : shelfPut i b s = some t) : CanonBut P t := by
  obtain ⟨o, -, rfl⟩ := Option.map_eq_some_iff.1 e
  exact applyAll_canon (fun _ _ h => storeWrite_canon h) (storeWrite_canon (h.upd rfl rfl))

theorem shelfResult_canon {refused : Bool} (h : CanonBut P s) : CanonBut P (shelfResult refused s) :=
  setB_canon (setB_canon h)

theorem cmdShelfWrite_canon {rq : Requester} {key idx : Nat} (h : CanonBut P s) : CanonBut P (cmdShelfWrite rq key idx s) := by
  refine kstKeyed_canon (fun _ h => ite_canon (shelfResult_canon h) ?_) h
  split
  · next e1 => exact shelfResult_canon (shelfPut_canon h e1)
  · exact shelfResult_canon h

theorem execShelfWrite_canon {rq : Requester} {key idx : Nat} (h : CanonBut P s) : NextCanon P (execShelfWrite rq key idx s) :=
  ⟨_, rfl, gate_canon (fun _ h => cmdShelfWrite_canon h) h⟩

theorem cmdShelfErase_canon {rq : Requester} {key idx : Nat} (h : CanonBut P s) : CanonBut P (cmdShelfErase rq key idx s) :=
  kstKeyed_canon (fun _ h => shelfResult_canon (storeWrite_canon (h.upd rfl rfl))) h

theorem execShelfErase_canon {rq : Requester} {key idx : Nat} (h : CanonBut P s) : NextCanon P (execShelfErase rq key idx s) :=
  ⟨_, rfl, gate_canon (fun _ h => cmdShelfErase_canon h) h⟩

theorem pickOf_canon {l : List Nat} (h : CanonBut P s) : CanonBut P (pickOf l s).2 :=
  h.upd rfl rfl

theorem slotFor_canon {t : State} {k : Nat} (h : CanonBut P s) (e : slotFor s = some (k, t)) : CanonBut P t := by
  unfold slotFor at e
  dsimp only at e
  split at e
  · exact (pickOf_canon h).of_eq (Option.some.inj e)
  · split at e
    · cases e
    · cases e; exact h

theorem touchSlot_canon {k : Nat} (h : CanonBut P s) : CanonBut P (touchSlot k s) :=
  setSlot_canon (h.upd rfl rfl)

theorem placeKey_canon {b : List Byte} {idx k : Nat} {t : State} (h : CanonBut P s) (e : placeKey b idx s = .inr (k, t)) : CanonBut P t := by
  unfold placeKey at e
  split at e
  · cases e; exact touchSlot_canon h
  · split at e
    · cases e
    · split at e
      · cases e
      · split at e
        · cases e
        · next hs => cases e; exact touchSlot_canon (setSlot_canon (slotFor_canon h hs))

theorem hwLoad_canon {user h need : Nat} (hs : CanonBut P s) : CanonBut P (hwLoad user h need s).2 := by
  unfold hwLoad
  dsimp only
  split
  · exact loadReject_canon hs
  · split
    · exact loadReject_canon hs
    · split
      · exact loadReject_canon hs
      · next e2 => exact placeKey_canon hs e2

theorem loadRefuse_canon {w : World} {why idx : Nat} (h : CanonBut P s) : CanonBut P (loadRefuse w why idx s) :=
  setB_canon (setB_canon (setF_canon (loadReject_canon h)))

theorem cmdKeyLoad_canon {rq : Requester} {w : Word} (h : CanonBut P s) : CanonBut P (cmdKeyLoad rq w s) := by
  unfold cmdKeyLoad
  extract_lets wd ns src s0 idx start n
  have hs0 : CanonBut P s0 := setB_canon (setB_canon (busDone_canon h))
  have hstart (b : List Byte) : CanonBut P (start b s0) := by
    unfold start
    split
    · exact loadRefuse_canon hs0
    · exact hs0.upd rfl rfl
  refine ite_canon (busDone_canon h) (ite_canon (loadRefuse_canon hs0) (ite_canon (ite_canon (loadRefuse_canon (violation_canon hs0))
    (hstart _)) ?_))
  split
  · exact loadRefuse_canon hs0
  · exact hstart _

theorem execKeyLoad_canon {rq : Requester} {w : Word} (h : CanonBut P s) : NextCanon P (execKeyLoad rq w s) :=
  ⟨_, rfl, gate_canon (fun _ h => cmdKeyLoad_canon h) h⟩

theorem execKeyLoadDone_canon (h : CanonBut P s) : NextCanon P (execKeyLoadDone s) := by
  refine ⟨_, rfl, ?_⟩
  split
  · exact h
  · extract_lets wd _ s0
    have hs0 : CanonBut P s0 := h.upd rfl rfl
    split
    · exact loadRefuse_canon hs0
    · next e1 =>
        split
        · exact setB_canon (setB_canon (setFree_canon (countFull_canon (placeKey_canon hs0 e1))))
        · next e2 => exact setB_canon (setF_canon (setF_canon (grantLease_canon (placeKey_canon hs0 e1) e2)))

theorem wrapRefuse_canon (h : CanonBut P s) : CanonBut P (wrapRefuse s) :=
  setB_canon (setB_canon h)

theorem cmdWrap_canon {rq : Requester} {w : Word} (h : CanonBut P s) : CanonBut P (cmdWrap rq w s) := by
  refine kstWrite_canon (fun s h => ite_canon (busDone_canon h) ?_) h
  extract_lets kt node src us out inA s0 r bits n s1 c nonce hdr t
  have hs0 : CanonBut P s0 := setB_canon (setB_canon (busDone_canon h))
  have hs1 : CanonBut P s1 := ite_canon (drawFree_canon hs0) hs0
  have hc : CanonBut P c.2 := iteSnd_canon (drbgBytes_canon hs1) hs1
  have ht : CanonBut P t := drawFree_canon hc
  exact ite_canon (wrapRefuse_canon hs0) (ht.upd rfl rfl)

theorem execWrap_canon {rq : Requester} {w : Word} (h : CanonBut P s) : NextCanon P (execWrap rq w s) :=
  ⟨_, rfl, gate_canon (fun _ h => cmdWrap_canon h) h⟩

theorem execWrapDone_canon (h : CanonBut P s) : NextCanon P (execWrapDone s) := by
  refine ⟨_, rfl, ?_⟩
  dsimp only
  split
  · exact h
  · refine ite_canon (wrapRefuse_canon (h.upd rfl rfl)) ?_
    split
    · exact setB_canon (wrBytes_canon (h.upd rfl rfl))
    · split
      · next e3 =>
        refine setB_canon (shelfPut_canon (wrBytes_canon ?_) e3)
        exact h.upd rfl rfl
      · exact wrapRefuse_canon (wrBytes_canon (h.upd rfl rfl))

theorem cmdLifecycleArm_canon {rq : Requester} {key target : Nat} (h : CanonBut P s) : CanonBut P (cmdLifecycleArm rq key target s) :=
  kstKeyed_canon (fun _ h => setB_canon (h.upd rfl rfl)) h

theorem execLifecycleArm_canon {rq : Requester} {key target : Nat} (h : CanonBut P s) : NextCanon P (execLifecycleArm rq key target s) :=
  ⟨_, rfl, gate_canon (fun _ h => cmdLifecycleArm_canon h) h⟩

theorem cmdLifecycleCommit_canon {rq : Requester} {key target : Nat} (h : CanonBut P s) : CanonBut P (cmdLifecycleCommit rq key target s) := by
  refine kstKeyed_canon (fun _ h => ?_) h
  extract_lets tgt refuse _ s1 _
  have hs1 : CanonBut P s1 := setB_canon (h.upd rfl rfl)
  refine ite_canon (setB_canon (setF_canon hs1)) (ite_canon (setB_canon (setF_canon hs1)) ?_)
  split
  · exact ite_canon (hs1.upd rfl rfl) (setB_canon (setF_canon hs1))
  · exact setB_canon (setF_canon hs1)

theorem execLifecycleCommit_canon {rq : Requester} {key target : Nat} (h : CanonBut P s) : NextCanon P (execLifecycleCommit rq key target s) :=
  ⟨_, rfl, gate_canon (fun _ h => cmdLifecycleCommit_canon h) h⟩

theorem ikResult_canon {why : Option Nat} (h : CanonBut P s) : CanonBut P (ikResult why s) := by
  unfold ikResult
  split
  · exact setB_canon (setB_canon (setF_canon h))
  · exact setB_canon (setB_canon h)

theorem cmdImageKeyProgram_canon {rq : Requester} {key slot : Nat} (h : CanonBut P s) : CanonBut P (cmdImageKeyProgram rq key slot s) :=
  ite_canon (violate_canon h) (ite_canon (busError_canon h) (ite_canon (ikResult_canon (busDone_canon h))
    (ikResult_canon (busDone_canon (h.upd rfl rfl)))))

theorem execImageKeyProgram_canon {rq : Requester} {key slot : Nat} (h : CanonBut P s) : NextCanon P (execImageKeyProgram rq key slot s) :=
  ⟨_, rfl, gate_canon (fun _ h => cmdImageKeyProgram_canon h) h⟩

theorem cmdImageKeyRevoke_canon {rq : Requester} {key slot : Nat} (h : CanonBut P s) : CanonBut P (cmdImageKeyRevoke rq key slot s) :=
  ite_canon (violate_canon h) (ite_canon (busError_canon h) (ite_canon (ikResult_canon (busDone_canon h))
    (ite_canon (ikResult_canon (busDone_canon h)) (ikResult_canon (busDone_canon (h.upd rfl rfl))))))

theorem execImageKeyRevoke_canon {rq : Requester} {key slot : Nat} (h : CanonBut P s) : NextCanon P (execImageKeyRevoke rq key slot s) :=
  ⟨_, rfl, gate_canon (fun _ h => cmdImageKeyRevoke_canon h) h⟩

theorem cmdFloorSet_canon {rq : Requester} {w : Word} (h : CanonBut P s) : CanonBut P (cmdFloorSet rq w s) :=
  kstWrite_canon (fun _ h => ite_canon (busError_canon h) (busDone_canon (storeWrite_canon (h.upd rfl rfl)))) h

theorem execFloorSet_canon {rq : Requester} {w : Word} (h : CanonBut P s) : NextCanon P (execFloorSet rq w s) :=
  ⟨_, rfl, gate_canon (fun _ h => cmdFloorSet_canon h) h⟩

theorem cmdWldLock_canon {rq : Requester} {w : Word} (h : CanonBut P s) : CanonBut P (cmdWldLock rq w s) :=
  ite_canon (busDone_canon (orF_canon h)) (violate_canon h)

theorem execWldLock_canon {rq : Requester} {w : Word} (h : CanonBut P s) : NextCanon P (execWldLock rq w s) :=
  ⟨_, rfl, gate_canon (fun _ h => cmdWldLock_canon h) h⟩

theorem execSecureCall_canon {core : Nat} (h : CanonBut P s) : NextCanon P (execSecureCall core s) :=
  ⟨_, rfl, ite_canon (emit_canon h) (emit_canon h)⟩

theorem execBoundaryScanInstruction_canon {i : ScanInstr} (h : CanonBut P s) : NextCanon P (execBoundaryScanInstruction i s) := by
  refine ⟨_, rfl, ?_⟩
  split
  · exact emit_canon (h.upd rfl rfl)
  · exact h.upd rfl rfl

/-! ## The functions of Machine/Crypto.lean -/

theorem laneFault_canon {l : Nat} (h : CanonBut P s) : CanonBut P (laneFault l s) :=
  iteElse_canon (raise_canon (setB_canon (setF_canon (clrF_canon h)))) fun h1 => raise_canon (setB_canon h1)

theorem hwRuns_canon {n bad : Nat} (h : CanonBut P s) : CanonBut P (hwRuns n bad s).2 := by
  induction n generalizing bad s with
  | zero => exact h
  | succ n ih => exact iteSnd_canon h (iteSnd_canon h (ih (laneFault_canon (pickOf_canon h))))

theorem hwCmac_canon {key msg : List Byte} {bad : Nat} (h : CanonBut P s) : CanonBut P (hwCmac key msg bad s).2 :=
  hwRuns_canon (incF_canon h)

theorem ckvTaken_canon {r : Nat} (h : CanonBut P s) : CanonBut P (ckvTaken r s) :=
  ite_canon (h.upd rfl rfl) (h.upd rfl rfl)

theorem ckvRingFault_canon {r a : Nat} {write : Bool} (h : CanonBut P s) : CanonBut P (ckvRingFault r a write s) :=
  unitViolation_canon (setB_canon (setB_canon h))

theorem ckvInterrupt_canon {r : Nat} (h : CanonBut P s) : CanonBut P (ckvInterrupt r s) :=
  ite_canon (h.upd rfl rfl) (emit_canon h)

theorem ckvRetire_canon {n r : Nat} (h : CanonBut P s) : CanonBut P (ckvRetire n r s) := by
  induction n generalizing s with
  | zero => exact h
  | succ n ih =>
    unfold ckvRetire
    dsimp only
    split
    · exact h
    · exact ite_canon (ckvRingFault_canon (h.upd rfl rfl))
        (ih (iteElse_canon (setF_canon (wrBytes_canon (h.upd rfl rfl))) fun h1 => ckvInterrupt_canon h1))

theorem ckvEnd_canon {j : CkvJob} {res : Nat} (h : CanonBut P s) : CanonBut P (ckvEnd j res s) :=
  ckvRetire_canon ((ite_canon (incF_canon (incF_canon h)) (incF_canon h)).upd rfl rfl)

theorem ckvStart_canon {l : Nat} {j : CkvJob} (h : CanonBut P s) : CanonBut P (ckvStart l j s) :=
  orF_canon ((ite_canon h (touchSlot_canon (setSlot_canon h))).upd rfl rfl)

theorem ckvFetch_canon {r : Nat} (h : CanonBut P s) : CanonBut P (ckvFetch r s).2 :=
  iteSnd_canon (ckvRingFault_canon h) (ckvTaken_canon (h.upd rfl rfl))

theorem cmdCkvRingTail_canon {rq : Requester} {ns : Nat} {w : Word} (h : CanonBut P s) : CanonBut P (cmdCkvRingTail rq ns w s) :=
  ite_canon (violate_canon h) (busDone_canon (setF_canon h))

theorem execCkvRingTail_canon {rq : Requester} {ns : Nat} {w : Word} (h : CanonBut P s) : NextCanon P (execCkvRingTail rq ns w s) :=
  ⟨_, rfl, gate_canon (fun _ h => cmdCkvRingTail_canon h) h⟩

theorem execCkvDispatch_canon {l : Nat} (h : CanonBut P s) : NextCanon P (execCkvDispatch l s) := by
  refine ⟨_, rfl, ?_⟩
  refine ite_canon ?_ (ite_canon h ?_)
  · split
    · exact ckvEnd_canon (h.upd rfl rfl)
    · split
      · exact h
      · split
        · next e3 => exact (ckvFetch_canon h).of_eq e3
        · next e3 => exact ckvEnd_canon ((ckvFetch_canon h).of_eq e3)
  · split
    · exact ckvStart_canon (h.upd rfl rfl)
    · refine ite_canon h ?_
      split
      · exact h
      · split
        · next e4 => exact (ckvFetch_canon h).of_eq e4
        · next e4 =>
            split
            · exact ckvEnd_canon ((ckvFetch_canon h).of_eq e4)
            · exact ckvStart_canon ((ckvFetch_canon h).of_eq e4)

theorem slotRelease_canon {k : Nat} (h : CanonBut P s) : CanonBut P (slotRelease k s) :=
  setSlot_canon h

theorem ckvRelease_canon {j : CkvJob} (h : CanonBut P s) : CanonBut P (ckvRelease j s) :=
  iteThen_canon (ckvEnd_canon (slotRelease_canon h)) fun h1 => ite_canon (ite_canon (ckvEnd_canon (wrBytes_canon (slotRelease_canon h))) h1)
    (ite_canon h1 (ckvEnd_canon (slotRelease_canon h)))

theorem execCkvJobDone_canon {l : Nat} {agree : Bool} (h : CanonBut P s) : NextCanon P (execCkvJobDone l agree s) := by
  refine ⟨_, rfl, ?_⟩
  split
  · exact h
  · extract_lets _ s0 s1 _
    have hs0 : CanonBut P s0 := clrF_canon (h.upd rfl rfl)
    have hs1 : CanonBut P s1 := laneFault_canon hs0
    exact ite_canon (ckvRelease_canon hs0) (ite_canon (ckvEnd_canon (slotRelease_canon hs1)) (hs1.upd rfl rfl))

theorem pkeStore_canon {o : Nat} {b : List Byte} (h : CanonBut P s) : CanonBut P (pkeStore o b s) := by
  induction b generalizing o s with
  | nil => exact h
  | cons x r ih => exact ih (h.upd rfl rfl)

theorem pkeWrite_canon {k : Nat} {b : List Byte} (h : CanonBut P s) : CanonBut P (pkeWrite k b s) :=
  pkeStore_canon h

theorem pkeWipe_canon {k : Nat} (h : CanonBut P s) : CanonBut P (pkeWipe k s) :=
  pkeWrite_canon h

theorem pkeWipeSecret_canon (h : CanonBut P s) : CanonBut P (pkeWipeSecret s) :=
  applyAll_canon (fun _ _ h => pkeWipe_canon h) h

theorem pkeWipeAll_canon (h : CanonBut P s) : CanonBut P (pkeWipeAll s) :=
  h.upd rfl rfl

theorem cmdPkeSlenWrite_canon {rq : Requester} {k : Nat} {w : Word} (h : CanonBut P s) : CanonBut P (cmdPkeSlenWrite rq k w s) :=
  ite_canon (busError_canon h) (busDone_canon (setF_canon (setF_canon (pkeWipeAll_canon h))))

theorem execPkeSlenWrite_canon {rq : Requester} {k : Nat} {w : Word} (h : CanonBut P s) : NextCanon P (execPkeSlenWrite rq k w s) :=
  ⟨_, rfl, gate_canon (fun _ h => cmdPkeSlenWrite_canon h) h⟩

theorem cmdPkeOpdataAccess_canon {rq : Requester} {v : Option Word} (h : CanonBut P s) : CanonBut P (cmdPkeOpdataAccess rq v s) := by
  refine ite_canon (busError_canon h) ?_
  split
  · exact busData_canon (setF_canon h)
  · exact busDone_canon (pkeStore_canon (setF_canon h))

theorem execPkeOpdataAccess_canon {rq : Requester} {v : Option Word} (h : CanonBut P s) : NextCanon P (execPkeOpdataAccess rq v s) :=
  ⟨_, rfl, gate_canon (fun _ h => cmdPkeOpdataAccess_canon h) h⟩

theorem pkeBlob_canon {rq : Requester} {byaddr : Bool} (h : CanonBut P s) : CanonBut P (pkeBlob rq byaddr s).2.2 :=
  iteSnd₂_canon (iteSnd₂_canon h (violation_canon h)) h

theorem pkeKey_canon {rq : Requester} {op c : Nat} {byaddr : Bool} (h : CanonBut P s) : CanonBut P (pkeKey rq op c byaddr s).2 := by
  unfold pkeKey
  dsimp only
  split
  · exact loadReject_canon (pkeBlob_canon h)
  · split
    · exact loadReject_canon (pkeBlob_canon h)
    · split
      · exact loadReject_canon (pkeBlob_canon h)
      · exact pkeBlob_canon h

theorem pkeTell_canon {rq : Requester} (h : CanonBut P s) : CanonBut P (pkeTell rq s) :=
  ite_canon h (raise_canon h)

theorem pkeFinish_canon {rq : Requester} {res : Nat} (h : CanonBut P s) : CanonBut P (pkeFinish rq res s) :=
  pkeTell_canon (incF_canon (setB_canon (setB_canon (setF_canon (h.upd rfl rfl)))))

theorem pkeAfter_canon {keep : Bool} {p : PkeShape} (h : CanonBut P s) : CanonBut P (pkeAfter keep p s) :=
  (iteThen_canon (pkeWipeSecret_canon h) fun h1 => applyAll_canon (fun _ _ h => pkeWipe_canon h) h1).upd rfl rfl

theorem pkeRefuse_canon {rq : Requester} {keep : Bool} {p : PkeShape} {res : Nat} (h : CanonBut P s) : CanonBut P (pkeRefuse rq keep p res s) :=
  setFree_canon (pkeFinish_canon (pkeAfter_canon h))

theorem pkeFillKey_canon {key : List Byte} (h : CanonBut P s) : CanonBut P (pkeFillKey key s) :=
  ite_canon h (pkeWrite_canon h)

theorem cmdPkeJobGo_canon {rq : Requester} {w : Word} (h : CanonBut P s) : CanonBut P (cmdPkeJobGo rq w s) := by
  unfold cmdPkeJobGo
  extract_lets op c keep s0 p s1 _ s2 k nonce
  have hs0 : CanonBut P s0 := busDone_canon (setF_canon (setF_canon (setB_canon (setF_canon h))))
  have hs1 : CanonBut P s1 := applyAll_canon (fun _ _ h => pkeWipe_canon h) hs0
  have hs2 : CanonBut P s2 := hs1.upd rfl rfl
  have hk : CanonBut P k.2 := iteSnd_canon (pkeKey_canon hs2) hs2
  refine ite_canon (busError_canon h) (ite_canon hs0 (ite_canon (pkeRefuse_canon hs2) (ite_canon (pkeRefuse_canon hs2) ?_)))
  split
  · exact pkeRefuse_canon (setF_canon hk)
  · refine ite_canon (pkeRefuse_canon hk) ?_
    extract_lets t
    have hn : CanonBut P nonce.2 := iteSnd_canon (drbgBytes_canon hk) hk
    have ht : CanonBut P t := pkeFillKey_canon hn
    split
    · exact pkeRefuse_canon ht
    · exact setB_canon (ht.upd rfl rfl)

theorem execPkeJobGo_canon {rq : Requester} {w : Word} (h : CanonBut P s) : NextCanon P (execPkeJobGo rq w s) :=
  ⟨_, rfl, gate_canon (fun _ h => cmdPkeJobGo_canon h) h⟩

theorem pkeOutputs_canon {l : List (Nat × Nat)} {b : List Byte} (h : CanonBut P s) : CanonBut P (pkeOutputs l b s) := by
  induction l generalizing b s with
  | nil => exact h
  | cons x r ih => exact ih (pkeWrite_canon h)

theorem execPkeJobEnd_canon {inv : Bool} {cyc : Nat} (h : CanonBut P s) : NextCanon P (execPkeJobEnd inv cyc s) := by
  refine ⟨_, rfl, ?_⟩
  split
  · exact h
  · exact ite_canon (raise_canon (incF_canon (pkeFinish_canon (pkeAfter_canon (applyAll_canon (fun _ _ h => pkeWipe_canon h) (setF_canon h))))))
      (pkeFinish_canon (pkeAfter_canon (pkeOutputs_canon (setF_canon h))))

theorem pkeLeaseEnd_canon (h : CanonBut P s) : CanonBut P (pkeLeaseEnd s) := by
  refine applyAll_canon (fun _ _ h => setF_canon (setF_canon h)) (pkeWipeAll_canon ?_)
  split
  · exact pkeFinish_canon h
  · exact h

theorem cmdPkeLockTake_canon {rq : Requester} (h : CanonBut P s) : CanonBut P (cmdPkeLockTake rq s) := by
  refine ite_canon (busError_canon h) ?_
  split
  · exact setB_canon (busDone_canon h)
  · split
    · next e2 => exact setF_canon (setB_canon (busDone_canon (grantLease_canon h e2)))
    · exact setB_canon (countFull_canon (busDone_canon h))

theorem execPkeLockTake_canon {rq : Requester} (h : CanonBut P s) : NextCanon P (execPkeLockTake rq s) :=
  ⟨_, rfl, gate_canon (fun _ h => cmdPkeLockTake_canon h) h⟩

theorem setDig_canon {n : Nat} {c : DigCtx} (h : CanonBut P s) : CanonBut P (setDig n c s) :=
  h.upd rfl rfl

theorem cmdDigestGo_canon {rq : Requester} {ns : Nat} {w : Word} (h : CanonBut P s) : CanonBut P (cmdDigestGo rq ns w s) :=
  ite_canon (busError_canon h) (iteThen_canon (busDone_canon (setF_canon h)) fun h1 => ite_canon (busError_canon h)
    (ite_canon (setB_canon h1) (setB_canon (setDig_canon (iteElse_canon (ite_canon (unitViolation_canon h1) h1) fun h2 => setB_canon h2)))))

theorem execDigestGo_canon {rq : Requester} {ns : Nat} {w : Word} (h : CanonBut P s) : NextCanon P (execDigestGo rq ns w s) :=
  ⟨_, rfl, gate_canon (fun _ h => cmdDigestGo_canon h) h⟩

theorem execDigestDone_canon {ns : Nat} (h : CanonBut P s) : NextCanon P (execDigestDone ns s) := by
  refine ⟨_, rfl, ?_⟩
  dsimp only
  split
  · exact h
  · exact setB_canon (setB_canon (setB_canon (setDig_canon h)))
  · exact ite_canon (applyAll_canon (fun _ _ h => setF_canon h) (setB_canon (setDig_canon (setB_canon (setB_canon h)))))
      (setDig_canon (setB_canon (setB_canon h)))

theorem cmdDrgDataRead_canon {rq : Requester} (h : CanonBut P s) : CanonBut P (cmdDrgDataRead rq s) := by
  refine ite_canon (busError_canon h) ?_
  split
  · exact busData_canon (h.upd rfl rfl)
  · exact busData_canon ((drbgCall_canon h).upd rfl rfl)

theorem execDrgDataRead_canon {rq : Requester} (h : CanonBut P s) : NextCanon P (execDrgDataRead rq s) :=
  ⟨_, rfl, gate_canon (fun _ h => cmdDrgDataRead_canon h) h⟩

theorem execDrbgReseed_canon {rq : Option Requester} (h : CanonBut P s) : NextCanon P (execDrbgReseed rq s) := by
  refine ⟨_, rfl, ?_⟩
  split
  · exact ite_canon (drbgReseed_canon h) h
  · exact gate_canon (fun _ h => drbgReseed_canon (busDone_canon h)) h

theorem execEntropyHealthFail_canon {apt : Bool} (h : CanonBut P s) : NextCanon P (execEntropyHealthFail apt s) := by
  refine ⟨_, rfl, ?_⟩
  extract_lets s1 n _ s2
  have hs1 : CanonBut P s1 := setB_canon (incF_canon h)
  have hs2 : CanonBut P s2 := hs1.upd rfl rfl
  exact ite_canon (raise_canon (setB_canon (setB_canon hs2))) hs2

/-! ## The functions of Machine/Can.lean -/

theorem seeFrame_canon {n id : Nat} {ide : Bool} (h : CanonBut P s) : CanonBut P (seeFrame n id ide s) :=
  setF_canon (setB_canon (setB_canon (h.upd rfl rfl)))

theorem setVal_canon {e v : Nat} (h : CanonBut P s) : CanonBut P (setVal e v s) :=
  ite_canon (setF_canon h) h

theorem validate_canon {u : Nat} (h : CanonBut P s) : CanonBut P (validate u s) := by
  unfold validate
  split
  · exact ite_canon (setVal_canon (h.upd rfl rfl)) h
  · exact h

theorem setCan_canon {n : Nat} {c : CanTile} (h : CanonBut P s) : CanonBut P (setCan n c s) :=
  h.upd rfl rfl

theorem canEvt_canon {n : Nat} {f : Fld} (h : CanonBut P s) : CanonBut P (canEvt n f s) :=
  ite_canon h (ite_canon (raise_canon (setB_canon h)) (setB_canon h))

theorem canGoto_canon {n st : Nat} (h : CanonBut P s) : CanonBut P (canGoto n st s) :=
  ite_canon (setF_canon h) (canEvt_canon (setF_canon h))

theorem setRx_canon {n i : Nat} {b : RxBuf} (h : CanonBut P s) : CanonBut P (setRx n i b s) :=
  setCan_canon h

theorem rxStore_canon {n : Nat} {f : CanFrame} {filt sof tc : Nat} {hand host : Bool} (h : CanonBut P s) :
    CanonBut P (rxStore n f filt sof tc hand host s) := by
  unfold rxStore
  split
  · exact canEvt_canon (incF_canon h)
  · exact ite_canon (canEvt_canon (setCan_canon h)) (setCan_canon h)

theorem rxRelease_canon {n i : Nat} (h : CanonBut P s) : CanonBut P (rxRelease n i s) :=
  setRx_canon h

theorem prioFull_canon {n : Nat} {b : Bool} (h : CanonBut P s) : CanonBut P (prioFull n b s) :=
  setTileBit_canon (setB_canon h)

theorem prioWrite_canon {n : Nat} {b : RxBuf} (h : CanonBut P s) : CanonBut P (prioWrite n b s) :=
  ite_canon (setB_canon (setCan_canon (ite_canon (incF_canon h) h))) (raise_canon (prioFull_canon (setCan_canon (setB_canon (incF_canon h)))))

theorem prioRelease_canon {n : Nat} (h : CanonBut P s) : CanonBut P (prioRelease n s) := by
  unfold prioRelease
  dsimp only
  split
  · exact prioFull_canon (setCan_canon (setB_canon h))
  · exact raise_canon (prioFull_canon (setB_canon (setCan_canon (setB_canon h))))

theorem setTx_canon {n i : Nat} {b : TxBuf} (h : CanonBut P s) : CanonBut P (setTx n i b s) :=
  setCan_canon h

theorem txEmpty_canon {n i : Nat} (h : CanonBut P s) : CanonBut P (txEmpty n i s) := by
  refine setTx_canon (clrF_canon ?_)
  split
  · exact dropReplica_canon h
  · exact h

theorem txCancelled_canon {n i : Nat} (h : CanonBut P s) : CanonBut P (txCancelled n i s) :=
  canEvt_canon (orF_canon (clrF_canon h))

theorem attemptOver_canon {n i : Nat} (h : CanonBut P s) : CanonBut P (attemptOver n i s) :=
  clrF_canon (setB_canon (setCan_canon h))

theorem attemptFailed_canon {n i : Nat} (h : CanonBut P s) : CanonBut P (attemptFailed n i s) :=
  ite_canon (ite_canon (txCancelled_canon (attemptOver_canon h)) (incF_canon (txEmpty_canon (attemptOver_canon h))))
    (iteElse_canon (attemptOver_canon h) fun h1 => txCancelled_canon h1)

theorem canFlush_canon {n : Nat} (h : CanonBut P s) : CanonBut P (canFlush n s) :=
  applyAll_canon (fun _ _ h => applyAll_canon (fun _ _ h => incF_canon (discard_canon h)) (setQueue_canon h))
    (applyAll_canon (fun _ _ h => incF_canon (swBump_canon (txEmpty_canon h))) h)

theorem canStopNow_canon {n : Nat} (h : CanonBut P s) : CanonBut P (canStopNow n s) :=
  canFlush_canon (canGoto_canon (setCan_canon h))

theorem canBusOff_canon {n : Nat} (h : CanonBut P s) : CanonBut P (canBusOff n s) := by
  unfold canBusOff
  extract_lets t s0 s1 s2 p s3
  have ht : CanonBut P t := by
    unfold t
    split
    · exact attemptFailed_canon h
    · exact h
  have hs0 : CanonBut P s0 := canGoto_canon ht
  have hs1 : CanonBut P s1 := raise_canon (canEvt_canon (incF_canon hs0))
  have hs2 : CanonBut P s2 := canFlush_canon hs1
  have hs3 : CanonBut P s3 := ite_canon (canEvt_canon (orF_canon (setF_canon (setF_canon hs2)))) hs2
  exact ite_canon (canStopNow_canon hs3) (ite_canon (canGoto_canon hs3) hs3)

theorem canCounters_canon {n tec rec : Nat} (h : CanonBut P s) : CanonBut P (canCounters n tec rec s) :=
  iteThen_canon (iteThen_canon (setF_canon (setF_canon h)) fun h1 => canEvt_canon (setB_canon h1)) fun h1 => ite_canon (canBusOff_canon h1)
    (canGoto_canon h1)

theorem recAfterRx_canon {rec : Nat} (h : CanonBut P s) : CanonBut P (recAfterRx rec s).2 :=
  iteSnd_canon (h.upd rfl rfl) h

theorem canAck_canon {n : Nat} (h : CanonBut P s) : CanonBut P (canAck n s) :=
  ite_canon h (emit_canon h)

theorem canSeen_canon {n : Nat} {f : CanFrame} (h : CanonBut P s) : CanonBut P (canSeen n f s) :=
  seeFrame_canon (canCounters_canon (canAck_canon (recAfterRx_canon h)))

theorem autoValidate_canon {n : Nat} {k : Option Nat} (h : CanonBut P s) : CanonBut P (autoValidate n k s) :=
  ite_canon (validate_canon h) h

theorem execCanFrameValid_canon {n : Nat} {f : CanFrame} {ago : Nat} (h : CanonBut P s) : NextCanon P (execCanFrameValid n f ago s) :=
  ⟨_, rfl, onlyIf_canon (fun _ h => ite_canon (incF_canon (canSeen_canon h))
    (iteThen_canon (iteElse_canon (autoValidate_canon (incF_canon (canSeen_canon h))) fun h1 => prioWrite_canon (h1.upd rfl rfl)) fun h1 =>
    rxStore_canon h1)) h⟩

theorem execCanXlFrameReceive_canon {n : Nat} {f : CanFrame} {ago : Nat} {ok : Bool} (h : CanonBut P s) :
    NextCanon P (execCanXlFrameReceive n f ago ok s) :=
  ⟨_, rfl, onlyIf_canon (fun _ h => ite_canon (incF_canon (canSeen_canon h))
    (ite_canon (canEvt_canon (incF_canon (autoValidate_canon (incF_canon (canSeen_canon h)))))
    (setCan_canon (autoValidate_canon (incF_canon (canSeen_canon h)))))) h⟩

theorem handNext_canon {n : Nat} {w : Waybill} {b : List Byte} {t : State} (h : CanonBut P s) (e : handNext n s = some (w, b, t)) :
    CanonBut P t := by
  unfold handNext at e
  dsimp only at e
  split at e
  · cases e
  · cases e; exact setCan_canon h
  · cases e; exact setCan_canon h

theorem handAll_canon {n : Nat} (h : CanonBut P s) : CanonBut P (handAll n s) := by
  refine applyAll_canon (fun _ _ h => ?_) h
  split
  · exact h
  · next e1 => exact ite_canon (offerFrame_canon (handNext_canon h e1)) (setHolds_canon (handNext_canon h e1))

theorem execCanHandoff_canon {n : Nat} (h : CanonBut P s) : NextCanon P (execCanHandoff n s) := by
  refine ⟨_, rfl, ?_⟩
  refine onlyIf_canon (fun _ h => ?_) h
  split
  · exact h
  · next e1 => exact offerFrame_canon (handNext_canon h e1)

theorem errorFlag_canon {n : Nat} (h : CanonBut P s) : CanonBut P (errorFlag n s) :=
  ite_canon h (emit_canon h)

theorem protocolError_canon {n code : Nat} {dph : Bool} (h : CanonBut P s) : CanonBut P (protocolError n code dph s) :=
  canEvt_canon (incF_canon (setF_canon (setB_canon h)))

theorem execCanFrameError_canon {n : Nat} {e : CanErr} {code : Nat} {dph : Bool} (h : CanonBut P s) :
    NextCanon P (execCanFrameError n e code dph s) := by
  refine ⟨_, rfl, ?_⟩
  refine onlyIf_canon (fun _ h => ite_canon (canGoto_canon h) (ite_canon (canGoto_canon ?_)
    (canCounters_canon (iteThen_canon (ite_canon h (protocolError_canon h)) fun h1 => errorFlag_canon h1)))) h
  split
  · exact iteElse_canon (ite_canon h (protocolError_canon h)) fun h1 => attemptFailed_canon h1
  · exact ite_canon h (protocolError_canon h)

theorem execCanBodelayExpiry_canon {n : Nat} (h : CanonBut P s) : NextCanon P (execCanBodelayExpiry n s) :=
  ⟨_, rfl, onlyIf_canon (fun _ h => canGoto_canon h) h⟩

theorem execCanRecoveryDone_canon {n : Nat} (h : CanonBut P s) : NextCanon P (execCanRecoveryDone n s) :=
  ⟨_, rfl, onlyIf_canon (fun _ h => canEvt_canon (canGoto_canon (canCounters_canon h))) h⟩

theorem canWrite_canon {n : Nat} {g : State → State} (hg : ∀ s, CanonBut P s → CanonBut P (g s)) (h : CanonBut P s) :
    CanonBut P (canWrite n g s) :=
  ite_canon (busError_canon h) (ite_canon (hg _ (busDone_canon h)) (busDone_canon h))

theorem cmdCanCtlStop_canon {rq : Requester} {n : Nat} (h : CanonBut P s) : CanonBut P (cmdCanCtlStop rq n s) :=
  canWrite_canon (fun _ h => ite_canon (ite_canon (setCan_canon h) (canStopNow_canon h)) (ite_canon (setCan_canon h) h)) h

theorem execCanCtlStop_canon {rq : Requester} {n : Nat} (h : CanonBut P s) : NextCanon P (execCanCtlStop rq n s) :=
  ⟨_, rfl, gate_canon (fun _ h => cmdCanCtlStop_canon h) h⟩

theorem cmdCanCtlStart_canon {rq : Requester} {n : Nat} (h : CanonBut P s) : CanonBut P (cmdCanCtlStart rq n s) :=
  canWrite_canon (fun _ h => ite_canon (canGoto_canon (canCounters_canon h)) h) h

theorem execCanCtlStart_canon {rq : Requester} {n : Nat} (h : CanonBut P s) : NextCanon P (execCanCtlStart rq n s) :=
  ⟨_, rfl, gate_canon (fun _ h => cmdCanCtlStart_canon h) h⟩

theorem cmdCanCtlRecover_canon {rq : Requester} {n : Nat} (h : CanonBut P s) : CanonBut P (cmdCanCtlRecover rq n s) :=
  canWrite_canon (fun _ h => ite_canon (canGoto_canon h) h) h

theorem execCanCtlRecover_canon {rq : Requester} {n : Nat} (h : CanonBut P s) : NextCanon P (execCanCtlRecover rq n s) :=
  ⟨_, rfl, gate_canon (fun _ h => cmdCanCtlRecover_canon h) h⟩

theorem execCanArbitrationChoice_canon {n : Nat} (h : CanonBut P s) : NextCanon P (execCanArbitrationChoice n s) := by
  refine ⟨_, rfl, ?_⟩
  refine onlyIf_canon (fun _ h => ?_) h
  split
  · exact h
  · exact setB_canon (setCan_canon h)

theorem txEmit_canon {n i : Nat} (h : CanonBut P s) : CanonBut P (txEmit n i s) :=
  emit_canon h

theorem execCanTxEnd_canon {n : Nat} {ok : Bool} {meas : Option Nat} (h : CanonBut P s) : NextCanon P (execCanTxEnd n ok meas s) := by
  refine ⟨_, rfl, ?_⟩
  refine onlyIf_canon (fun _ h => ?_) h
  split
  · exact h
  · extract_lets sw soft w1 tdc s0 w0 seen t t1 s2
    have hs0 : CanonBut P s0 := by
      unfold s0
      split
      · exact ite_canon (setF_canon h) h
      · exact h
    have hseen : CanonBut P seen := seeFrame_canon (attemptOver_canon hs0)
    have ht : CanonBut P t := canEvt_canon (incF_canon (txEmit_canon hseen))
    have ht1 : CanonBut P t1 := canCounters_canon ht
    have hs2 : CanonBut P s2 := ite_canon (ite_canon (orF_canon (clrF_canon ht1)) (swBump_canon (swBump_canon (txEmpty_canon ht1))))
      (attemptFailed_canon hs0)
    exact ite_canon (canStopNow_canon hs2) hs2

theorem execCanSwitchBufferLoad_canon {n : Nat} (h : CanonBut P s) : NextCanon P (execCanSwitchBufferLoad n s) := by
  refine ⟨_, rfl, ?_⟩
  dsimp only
  refine onlyIf_canon (fun _ h => ?_) h
  split
  · split
    · exact h
    · exact ite_canon (canEvt_canon (incF_canon (dropReplica_canon (setQueue_canon h))))
        (iteThen_canon (orF_canon (setCan_canon (setQueue_canon h))) fun h1 => dropReplica_canon h1)
  · exact h

theorem cmdCanTxreq_canon {rq : Requester} {n : Nat} {w : Word} (h : CanonBut P s) : CanonBut P (cmdCanTxreq rq n w s) :=
  canWrite_canon (fun _ h => applyAll_canon (fun _ _ h => ite_canon (canEvt_canon (incF_canon h)) (orF_canon (setCan_canon h))) h) h

theorem execCanTxreq_canon {rq : Requester} {n : Nat} {w : Word} (h : CanonBut P s) : NextCanon P (execCanTxreq rq n w s) :=
  ⟨_, rfl, gate_canon (fun _ h => cmdCanTxreq_canon h) h⟩

theorem cmdCanTxcan_canon {rq : Requester} {n : Nat} {w : Word} (h : CanonBut P s) : CanonBut P (cmdCanTxcan rq n w s) :=
  canWrite_canon (fun _ h => applyAll_canon (fun _ _ h => ite_canon (orF_canon h) (txCancelled_canon h)) h) h

theorem execCanTxcan_canon {rq : Requester} {n : Nat} {w : Word} (h : CanonBut P s) : NextCanon P (execCanTxcan rq n w s) :=
  ⟨_, rfl, gate_canon (fun _ h => cmdCanTxcan_canon h) h⟩

theorem cmdCanRxBufferRead_canon {rq : Requester} {n o : Nat} (h : CanonBut P s) : CanonBut P (cmdCanRxBufferRead rq n o s) :=
  ite_canon (busError_canon h) (ite_canon (busData_canon h) (ite_canon (busError_canon h)
    (ite_canon (busData_canon (setRx_canon h)) (ite_canon (busData_canon h)
    (ite_canon (busData_canon (prioRelease_canon h)) (busData_canon (setB_canon (setCan_canon h))))))))

theorem execCanRxBufferRead_canon {rq : Requester} {n o : Nat} (h : CanonBut P s) : NextCanon P (execCanRxBufferRead rq n o s) :=
  ⟨_, rfl, gate_canon (fun _ h => cmdCanRxBufferRead_canon h) h⟩

theorem canRamWrite_canon {n o v : Nat} (h : CanonBut P s) : CanonBut P (canRamWrite n o v s) :=
  ite_canon (busError_canon h) (ite_canon (busDone_canon h) (ite_canon (busError_canon h)
    (ite_canon (busDone_canon h) (ite_canon (busError_canon h) (busDone_canon (setTx_canon h))))))

theorem cmdCanRxrel_canon {rq : Requester} {n buf : Nat} (h : CanonBut P s) : CanonBut P (cmdCanRxrel rq n buf s) :=
  canWrite_canon (fun _ h => rxRelease_canon h) h

theorem execCanRxrel_canon {rq : Requester} {n buf : Nat} (h : CanonBut P s) : NextCanon P (execCanRxrel rq n buf s) :=
  ⟨_, rfl, gate_canon (fun _ h => cmdCanRxrel_canon h) h⟩

theorem cmdCanPriorel_canon {rq : Requester} {n : Nat} {w : Word} (h : CanonBut P s) : CanonBut P (cmdCanPriorel rq n w s) :=
  canWrite_canon (fun _ h => ite_canon (prioRelease_canon h) h) h

theorem execCanPriorel_canon {rq : Requester} {n : Nat} {w : Word} (h : CanonBut P s) : NextCanon P (execCanPriorel rq n w s) :=
  ⟨_, rfl, gate_canon (fun _ h => cmdCanPriorel_canon h) h⟩

theorem canWorldReset_canon {w : World} (h : CanonBut P s) : CanonBut P (canWorldReset w s) :=
  applyAll_canon (fun _ _ h => ite_canon (setB_canon h) h) (h.upd rfl rfl)

theorem freshWrite_canon {n j : Nat} {hi : Bool} {v : Nat} (h : CanonBut P s) : CanonBut P (freshWrite n j hi v s) :=
  ite_canon (setF_canon (setCan_canon h)) (setCan_canon h)

theorem authCheck_canon {n j : Nat} {f : List Byte} {bad : Nat} (h : CanonBut P s) : CanonBut P (authCheck n j f bad s).2 := by
  unfold authCheck
  dsimp only
  refine iteSnd_canon h ?_
  split
  · exact h
  · refine iteSnd_canon h ?_
    split
    · next e3 => exact (hwLoad_canon h).of_eq e3
    · next e3 =>
        split
        · next e4 => exact (hwCmac_canon ((hwLoad_canon h).of_eq e3)).of_eq e4
        · next e4 =>
          exact iteSnd_canon (setCan_canon ((hwCmac_canon ((hwLoad_canon h).of_eq e3)).of_eq e4))
            ((hwCmac_canon ((hwLoad_canon h).of_eq e3)).of_eq e4)

theorem authDrain_canon {l : List AuthWait} (h : CanonBut P s) : CanonBut P (authDrain l s) := by
  induction l generalizing s with
  | nil => exact h
  | cons a r ih => exact ite_canon (ih (h.upd rfl rfl)) (ih (underGen_canon (fun _ _ h => runStages_canon h) h))

theorem authOne_canon {bad : Nat} {a : AuthWait} (h : CanonBut P s) : CanonBut P (authOne bad a s) := by
  unfold authOne
  dsimp only
  split
  · exact runStages_canon h
  · split
    · next e1 => exact runStages_canon (incF_canon ((authCheck_canon h).of_eq e1))
    · next e1 => exact raiseOnce_canon (incF_canon (swBump_canon (freePages_canon ((authCheck_canon h).of_eq e1))))
    · next e1 => exact raiseOnce_canon (incF_canon (swBump_canon (freePages_canon ((authCheck_canon h).of_eq e1))))
    · next e1 => exact raiseOnce_canon (incF_canon (swBump_canon (freePages_canon ((authCheck_canon h).of_eq e1))))

theorem execAuthenticate_canon {bad : Nat} (h : CanonBut P s) : NextCanon P (execAuthenticate bad s) := by
  refine ⟨_, rfl, ?_⟩
  split
  · exact h
  · exact authDrain_canon (underGen_canon (fun _ _ h => authOne_canon h) (h.upd rfl rfl))

/-! ## The functions of Machine/Ports.lean -/

theorem portWrite_canon {p : Nat} {g : State → State} (hg : ∀ s, CanonBut P s → CanonBut P (g s)) (h : CanonBut P s) :
    CanonBut P (portWrite p g s) :=
  ite_canon (busError_canon h) (ite_canon (hg _ (busDone_canon h)) (busDone_canon h))

theorem execEthLinkUp_canon {p spd : Nat} {hdx anok : Bool} (h : CanonBut P s) : NextCanon P (execEthLinkUp p spd hdx anok s) :=
  ⟨_, rfl, onlyIf_canon (fun _ h => ite_canon (setB_canon (setB_canon h))
    (raise_canon (setB_canon (setB_canon (setF_canon (setB_canon (setB_canon h))))))) h⟩

theorem linkOff_canon {p : Nat} (h : CanonBut P s) : CanonBut P (linkOff p s) :=
  ite_canon (setB_canon (setB_canon (flushPort_canon h))) (setB_canon (flushPort_canon h))

theorem execEthLinkDown_canon {p : Nat} (h : CanonBut P s) : NextCanon P (execEthLinkDown p s) :=
  ⟨_, rfl, onlyIf_canon (fun _ h => raise_canon (setB_canon (linkOff_canon h))) h⟩

theorem execPlcaBeaconReceive_canon {p : Nat} (h : CanonBut P s) : NextCanon P (execPlcaBeaconReceive p s) :=
  ⟨_, rfl, onlyIf_canon (fun _ h => plcaUp_canon h) h⟩

theorem plcaDown_canon {p : Nat} (h : CanonBut P s) : CanonBut P (plcaDown p s) :=
  ite_canon (raise_canon (incF_canon (setB_canon (linkOff_canon h)))) h

theorem portStop_canon {p : Nat} (h : CanonBut P s) : CanonBut P (portStop p s) :=
  ite_canon (plcaDown_canon h) (linkOff_canon h)

theorem execPlcaInactive_canon {p : Nat} (h : CanonBut P s) : NextCanon P (execPlcaInactive p s) :=
  ⟨_, rfl, onlyIf_canon (fun _ h => plcaDown_canon h) h⟩

theorem execT1sCollision_canon {p : Nat} (h : CanonBut P s) : NextCanon P (execT1sCollision p s) := by
  refine ⟨_, rfl, ?_⟩
  refine onlyIf_canon (fun _ h => ?_) h
  split
  · exact h
  · exact ite_canon (ethCount_canon (dropReplica_canon (setSending_canon (ethCount_canon (h.upd rfl rfl)))))
      (setSending_canon (ethCount_canon (h.upd rfl rfl)))

theorem execMacFrameReceive_canon {p : Nat} {frame : List Byte} {sfd : Nat} {fcsOk sym : Bool} (h : CanonBut P s) :
    NextCanon P (execMacFrameReceive p frame sfd fcsOk sym s) := by
  refine ⟨_, rfl, ?_⟩
  refine onlyIf_canon (fun _ h => ?_) h
  extract_lets v s1
  have hs1 : CanonBut P s1 := setMet_canon h
  exact ite_canon (abandonFrame_canon (ethCount_canon hs1)) (ite_canon (ite_canon (hieTake_canon (ethCount_canon hs1)) (ethCount_canon hs1))
    (ite_canon hs1 (iteThen_canon (ethCount_canon hs1) fun h1 => frameStored_canon (ingressFrame_canon h1))))

theorem cmdMdioCommand_canon {rq : Requester} {p : Nat} {w : Word} (h : CanonBut P s) : CanonBut P (cmdMdioCommand rq p w s) :=
  portWrite_canon (fun _ h => ite_canon (busError_canon h) (emit_canon (setB_canon (h.upd rfl rfl)))) h

theorem execMdioCommand_canon {rq : Requester} {p : Nat} {w : Word} (h : CanonBut P s) : NextCanon P (execMdioCommand rq p w s) :=
  ⟨_, rfl, gate_canon (fun _ h => cmdMdioCommand_canon h) h⟩

theorem execMdioDone_canon {answer : Option Nat} (h : CanonBut P s) : NextCanon P (execMdioDone answer s) := by
  refine ⟨_, rfl, ?_⟩
  split
  · exact h
  · exact ite_canon (setF_canon (setB_canon (h.upd rfl rfl))) (setB_canon (h.upd rfl rfl))

theorem txtsRead_canon {p : Nat} (h : CanonBut P s) : CanonBut P (txtsRead p s) := by
  unfold txtsRead
  split
  · exact busData_canon h
  · exact busData_canon (setF_canon (setF_canon (setF_canon (setF_canon (setF_canon (h.upd rfl rfl))))))

theorem execEthTxtsRead_canon {rq : Requester} {p : Nat} (h : CanonBut P s) : NextCanon P (execEthTxtsRead rq p s) :=
  ⟨_, rfl, gate_canon (fun _ h => ite_canon (busError_canon h) (ite_canon (txtsRead_canon h) (busData_canon h))) h⟩

theorem execSyncReceive_canon {p : Nat} (h : CanonBut P s) : NextCanon P (execSyncReceive p s) :=
  ⟨_, rfl, onlyIf_canon (fun _ h => incF_canon (setB_canon (h.upd rfl rfl))) h⟩

theorem execSyncTimeout_canon (h : CanonBut P s) : NextCanon P (execSyncTimeout s) :=
  ⟨_, rfl, onlyIf_canon (fun _ h => raise_canon (setB_canon (h.upd rfl rfl))) h⟩

theorem tsySet_canon (h : CanonBut P s) : CanonBut P (tsySet s) :=
  incF_canon (h.upd rfl rfl)

theorem tsyStep_canon (h : CanonBut P s) : CanonBut P (tsyStep s) :=
  incF_canon (h.upd rfl rfl)

theorem cmdTsySet_canon {rq : Requester} (h : CanonBut P s) : CanonBut P (cmdTsySet rq s) :=
  tsySet_canon (busDone_canon h)

theorem execTsySet_canon {rq : Requester} (h : CanonBut P s) : NextCanon P (execTsySet rq s) :=
  ⟨_, rfl, gate_canon (fun _ h => cmdTsySet_canon h) h⟩

theorem cmdTsyStep_canon {rq : Requester} (h : CanonBut P s) : CanonBut P (cmdTsyStep rq s) :=
  tsyStep_canon (busDone_canon h)

theorem execTsyStep_canon {rq : Requester} (h : CanonBut P s) : NextCanon P (execTsyStep rq s) :=
  ⟨_, rfl, gate_canon (fun _ h => cmdTsyStep_canon h) h⟩

theorem execTsyFadjWrite_canon {rq : Requester} {w : Word} (h : CanonBut P s) : NextCanon P (execTsyFadjWrite rq w s) :=
  ⟨_, rfl, gate_canon (fun _ h => ite_canon (busDone_canon (setF_canon h)) (busError_canon h)) h⟩

/-! ## The functions of Machine/Serial.lean -/

theorem setSer_canon {n : Nat} {t : SerTile} (h : CanonBut P s) : CanonBut P (setSer n t s) :=
  h.upd rfl rfl

theorem serEvt_canon {n : Nat} {f : Fld} (h : CanonBut P s) : CanonBut P (serEvt n f s) :=
  ite_canon h (ite_canon (raise_canon (setB_canon h)) (setB_canon h))

theorem serErr_canon {n : Nat} {f : Fld} {k : Nat} (h : CanonBut P s) : CanonBut P (serErr n f k s) :=
  ite_canon h (serEvt_canon (incF_canon h))

theorem serHand_canon {n id : Nat} {data : List Byte} {time : Nat} (h : CanonBut P s) : CanonBut P (serHand n id data time s) :=
  ite_canon (serEvt_canon (incF_canon h)) (setSer_canon h)

theorem serHandAll_canon {n : Nat} (h : CanonBut P s) : CanonBut P (serHandAll n s) :=
  applyAll_canon (fun _ _ h => offerFrame_canon h) (setSer_canon h)

theorem serReceived_canon {n : Nat} (h : CanonBut P s) : CanonBut P (serReceived n s) :=
  serEvt_canon (incF_canon h)

theorem serSent_canon {n : Nat} (h : CanonBut P s) : CanonBut P (serSent n s) :=
  serEvt_canon (incF_canon h)

theorem serWrite_canon {n : Nat} {fns : List Nat} {g : State → State} (hg : ∀ s, CanonBut P s → CanonBut P (g s)) (h : CanonBut P s) :
    CanonBut P (serWrite n fns g s) :=
  ite_canon (busError_canon h) (ite_canon (hg _ (busDone_canon h)) (busDone_canon h))

theorem pulsesEnd_canon {n : Nat} (h : CanonBut P s) : CanonBut P (pulsesEnd n s) :=
  h.upd rfl rfl

theorem serQuiet_canon {n st : Nat} (h : CanonBut P s) : CanonBut P (serQuiet n st s) :=
  pulsesEnd_canon (setF_canon (setSer_canon (iteElse_canon (iteElse_canon (serHandAll_canon h) fun h1 => serErr_canon h1) fun h1 => emit_canon
    h1)))

theorem linHeader_canon {n id : Nat} (h : CanonBut P s) : CanonBut P (linHeader n id s) :=
  ite_canon (setB_canon (emit_canon (setSer_canon h))) (setSer_canon h)

theorem linSendHeader_canon {n id : Nat} (h : CanonBut P s) : CanonBut P (linSendHeader n id s) :=
  linHeader_canon (emit_canon h)

theorem linSwitch_canon {n k : Nat} (h : CanonBut P s) : CanonBut P (linSwitch n k s) :=
  serEvt_canon (setB_canon (setF_canon (setSer_canon h)))

theorem linAdvance_canon {n : Nat} (h : CanonBut P s) : CanonBut P (linAdvance n s) := by
  refine ite_canon (setB_canon (setF_canon (setSer_canon h))) (ite_canon (linSwitch_canon h) ?_)
  split
  · refine ite_canon (ite_canon (setSer_canon h) ?_) (setSer_canon h)
    split
    · exact serEvt_canon (setF_canon (setSer_canon h))
    · exact setSer_canon h
  · split
    · refine ite_canon (setSer_canon h) (ite_canon (setSer_canon h) ?_)
      split
      · exact serEvt_canon (setF_canon (setSer_canon h))
      · exact setSer_canon h
    · refine ite_canon (setSer_canon h) ?_
      split
      · exact serEvt_canon (setF_canon (setSer_canon h))
      · exact setSer_canon h

theorem linSlot_canon {n : Nat} (h : CanonBut P s) : CanonBut P (linSlot n s) := by
  unfold linSlot
  extract_lets s1
  have hs1 : CanonBut P s1 := linAdvance_canon h
  split
  · exact hs1
  · dsimp only
    split
    · exact ite_canon (linSendHeader_canon hs1) hs1
    · exact ite_canon (linSendHeader_canon hs1) hs1
    · exact linSendHeader_canon hs1
    · exact linSendHeader_canon hs1

theorem execLinSlotStart_canon {n : Nat} (h : CanonBut P s) : NextCanon P (execLinSlotStart n s) :=
  ⟨_, rfl, onlyIf_canon (fun _ h => linSlot_canon h) h⟩

theorem execLinHeaderReceive_canon {n sync pid : Nat} (h : CanonBut P s) : NextCanon P (execLinHeaderReceive n sync pid s) :=
  ⟨_, rfl, ite_canon (ite_canon (setSer_canon h) h) (onlyIf_canon (fun _ h => ite_canon (serErr_canon (pulsesEnd_canon h))
    (ite_canon (serErr_canon (pulsesEnd_canon h)) (linHeader_canon (pulsesEnd_canon h)))) h)⟩

theorem linStore_canon {n id : Nat} {data : List Byte} (h : CanonBut P s) : CanonBut P (linStore n id data s) :=
  orF_canon (setF_canon (setSer_canon h))

theorem linCollide_canon {n : Nat} (h : CanonBut P s) : CanonBut P (linCollide n s) := by
  unfold linCollide
  split
  · exact setSer_canon h
  · exact h

theorem linEnd_canon {n : Nat} (h : CanonBut P s) : CanonBut P (linEnd n s) :=
  ite_canon (serQuiet_canon (setSer_canon h)) (setSer_canon h)

theorem linOutcome_canon {n id : Nat} {pub : Bool} {bytes : List Byte} {framing readback : Bool} {ago : Nat} (h : CanonBut P s) :
    CanonBut P (linOutcome n id pub bytes framing readback ago s) :=
  ite_canon (ite_canon (serErr_canon h) (ite_canon (linCollide_canon h) (serSent_canon (seeFrame_canon h))))
    (ite_canon (iteThen_canon (linCollide_canon h) fun h1 => ite_canon h (ite_canon (seeFrame_canon h) h1))
    (ite_canon (linCollide_canon (serErr_canon h)) (ite_canon (serErr_canon h)
    (ite_canon (linCollide_canon (serErr_canon h)) (iteElse_canon (iteElse_canon (serReceived_canon (seeFrame_canon h)) fun h1 => linStore_canon
    h1) fun h1 => serHand_canon h1)))))

theorem linHeard_canon {n : Nat} {bytes : List Byte} {framing : Bool} (h : CanonBut P s) : CanonBut P (linHeard n bytes framing s) := by
  unfold linHeard
  split
  · exact h
  · exact ite_canon (seeFrame_canon (setSer_canon h)) (setSer_canon h)

theorem execLinResponseEnd_canon {n : Nat} {bytes : List Byte} {framing readback : Bool} {ago : Nat} (h : CanonBut P s) :
    NextCanon P (execLinResponseEnd n bytes framing readback ago s) := by
  refine ⟨_, rfl, ?_⟩
  refine ite_canon (linHeard_canon h) (onlyIf_canon (fun _ h => ?_) h)
  split
  · exact h
  · exact linEnd_canon (linOutcome_canon h)

theorem cmdLinSchedWrite_canon {rq : Requester} {n : Nat} {w : Word} (h : CanonBut P s) : CanonBut P (cmdLinSchedWrite rq n w s) :=
  serWrite_canon (fun _ h => setB_canon (setF_canon h)) h

theorem execLinSchedWrite_canon {rq : Requester} {n : Nat} {w : Word} (h : CanonBut P s) : NextCanon P (execLinSchedWrite rq n w s) :=
  ⟨_, rfl, gate_canon (fun _ h => cmdLinSchedWrite_canon h) h⟩

theorem linPubWrite_canon {n i k v : Nat} (h : CanonBut P s) : CanonBut P (linPubWrite n i k v s) :=
  ite_canon (setB_canon (setF_canon h)) (setF_canon h)

theorem cmdLinPubWrite_canon {rq : Requester} {n i k : Nat} {w : Word} (h : CanonBut P s) : CanonBut P (cmdLinPubWrite rq n i k w s) :=
  ite_canon (busError_canon h) (serWrite_canon (fun _ h => linPubWrite_canon h) h)

theorem execLinPubWrite_canon {rq : Requester} {n i k : Nat} {w : Word} (h : CanonBut P s) : NextCanon P (execLinPubWrite rq n i k w s) :=
  ⟨_, rfl, gate_canon (fun _ h => cmdLinPubWrite_canon h) h⟩

theorem charErrors_canon {n : Nat} {l : List (Nat × UartChar)} (h : CanonBut P s) : CanonBut P (charErrors n l s) :=
  serErr_canon (serErr_canon h)

theorem setRxFrame_canon {n : Nat} {l : List (Nat × UartChar)} (h : CanonBut P s) : CanonBut P (setRxFrame n l s) :=
  setSer_canon h

theorem hdlcFrameEnd_canon {n t : Nat} {l : List (Nat × UartChar)} (h : CanonBut P s) : CanonBut P (hdlcFrameEnd n t l s) :=
  ite_canon (charErrors_canon h) (ite_canon (serErr_canon h) (ite_canon h
    (ite_canon (serErr_canon h) (ite_canon (serErr_canon h) (serHand_canon (serReceived_canon h))))))

theorem hdlcChar_canon {n : Nat} {c : UartChar} (h : CanonBut P s) : CanonBut P (hdlcChar n c s) := by
  unfold hdlcChar
  split
  · exact ite_canon (setRxFrame_canon h) h
  · exact ite_canon (iteThen_canon (setRxFrame_canon h) fun h1 => hdlcFrameEnd_canon h1) (setRxFrame_canon h)

theorem execHdlcFrameReceive_canon {n : Nat} {chars : List UartChar} (h : CanonBut P s) : NextCanon P (execHdlcFrameReceive n chars s) :=
  ⟨_, rfl, onlyIf_canon (fun _ h => applyAll_canon (fun _ _ h => hdlcChar_canon h) h) h⟩

theorem uartEnd_canon {n : Nat} (h : CanonBut P s) : CanonBut P (uartEnd n s) := by
  unfold uartEnd
  split
  · exact h
  · exact ite_canon (charErrors_canon (setRxFrame_canon h)) (serHand_canon (serReceived_canon (setRxFrame_canon h)))

theorem uartChar_canon {n : Nat} {c : UartChar} (h : CanonBut P s) : CanonBut P (uartChar n c s) :=
  iteElse_canon (setRxFrame_canon h) fun h1 => uartEnd_canon h1

theorem execUartFrameEnd_canon {n : Nat} {chars : List UartChar} {gap : Bool} (h : CanonBut P s) :
    NextCanon P (execUartFrameEnd n chars gap s) :=
  ⟨_, rfl, onlyIf_canon (fun _ h => iteElse_canon (applyAll_canon (fun _ _ h => uartChar_canon h) h) fun h1 => uartEnd_canon h1) h⟩

theorem rxFrameEnd_canon {n : Nat} (h : CanonBut P s) : CanonBut P (rxFrameEnd n s) :=
  ite_canon (uartEnd_canon h) (setRxFrame_canon h)

theorem serBad_canon {n : Nat} (h : CanonBut P s) : CanonBut P (serBad n s) :=
  incF_canon h

theorem gpioSet_canon {n : Nat} {d : List Byte} (h : CanonBut P s) : CanonBut P (gpioSet n d s) :=
  setF_canon h

theorem linSwitchFrame_canon {n id : Nat} {d : List Byte} (h : CanonBut P s) : CanonBut P (linSwitchFrame n id d s) :=
  linPubWrite_canon (linPubWrite_canon h)

theorem tileSentCount_canon {len : Nat} (h : CanonBut P s) : CanonBut P (tileSentCount len s) :=
  swBump_canon (swBump_canon h)

theorem execSerialTxDequeue_canon {n : Nat} (h : CanonBut P s) : NextCanon P (execSerialTxDequeue n s) := by
  refine ⟨_, rfl, ?_⟩
  refine onlyIf_canon (fun _ h => ?_) h
  split
  · exact h
  · split
    · exact h
    · extract_lets f s1 t
      have hs1 : CanonBut P s1 := dropReplica_canon (setQueue_canon h)
      exact ite_canon (serBad_canon hs1) (ite_canon (tileSentCount_canon (linSwitchFrame_canon hs1))
        (ite_canon (tileSentCount_canon (gpioSet_canon hs1)) (setSer_canon hs1)))

theorem serBegin_canon {n : Nat} {d : List Byte} {sw : Bool} {tx : List Replica} (h : CanonBut P s) : CanonBut P (serBegin n d sw tx s) :=
  setSer_canon (ite_canon (rxFrameEnd_canon h) h)

theorem execUartTxStart_canon {n : Nat} (h : CanonBut P s) : NextCanon P (execUartTxStart n s) := by
  refine ⟨_, rfl, ?_⟩
  refine onlyIf_canon (fun _ h => ite_canon (serBegin_canon h) ?_) h
  split
  · exact h
  · exact serBegin_canon h

theorem execSerialTxEnd_canon {n : Nat} {echo : List Byte} (h : CanonBut P s) : NextCanon P (execSerialTxEnd n echo s) := by
  refine ⟨_, rfl, ?_⟩
  dsimp only
  refine onlyIf_canon (fun _ h => ?_) h
  split
  · exact h
  · exact iteElse_canon (ite_canon (setB_canon (serSent_canon (emit_canon (setSer_canon h))))
      (tileSentCount_canon (serSent_canon (emit_canon (setSer_canon h))))) fun h1 => serErr_canon h1

theorem swtxGo_canon {n : Nat} {w : Word} (h : CanonBut P s) : CanonBut P (swtxGo n w s) :=
  ite_canon (busError_canon h) (ite_canon (setB_canon (setF_canon h)) (setF_canon h))

theorem cmdUartSwtxGo_canon {rq : Requester} {n : Nat} {w : Word} (h : CanonBut P s) : CanonBut P (cmdUartSwtxGo rq n w s) :=
  serWrite_canon (fun _ h => swtxGo_canon h) h

theorem execUartSwtxGo_canon {rq : Requester} {n : Nat} {w : Word} (h : CanonBut P s) : NextCanon P (execUartSwtxGo rq n w s) :=
  ⟨_, rfl, gate_canon (fun _ h => cmdUartSwtxGo_canon h) h⟩

theorem execGpioInputChange_canon {n levels : Nat} (h : CanonBut P s) : NextCanon P (execGpioInputChange n levels s) :=
  ⟨_, rfl, onlyIf_canon (fun _ h => ite_canon h (ite_canon (serHand_canon (setF_canon h)) (setF_canon h))) h⟩

theorem serFlush_canon {n : Nat} (h : CanonBut P s) : CanonBut P (serFlush n s) :=
  applyAll_canon (fun _ _ h => applyAll_canon (fun _ _ h => serBad_canon (discard_canon h)) (setQueue_canon h))
    (applyAll_canon (fun _ _ h => serBad_canon (swBump_canon h)) (setSer_canon h))

theorem serStart_canon {n : Nat} (h : CanonBut P s) : CanonBut P (serStart n s) :=
  iteElse_canon (setF_canon (setSer_canon h)) fun h1 => linSlot_canon h1

theorem serStop_canon {n : Nat} (h : CanonBut P s) : CanonBut P (serStop n s) :=
  ite_canon (setSer_canon (serFlush_canon h)) (ite_canon (serQuiet_canon (serFlush_canon h)) (ite_canon (setSer_canon h) h))

theorem cmdSerCtlStop_canon {rq : Requester} {n : Nat} (h : CanonBut P s) : CanonBut P (cmdSerCtlStop rq n s) :=
  serWrite_canon (fun _ h => serStop_canon h) h

theorem execSerCtlStop_canon {rq : Requester} {n : Nat} (h : CanonBut P s) : NextCanon P (execSerCtlStop rq n s) :=
  ⟨_, rfl, gate_canon (fun _ h => cmdSerCtlStop_canon h) h⟩

theorem cmdSerCtlStart_canon {rq : Requester} {n : Nat} (h : CanonBut P s) : CanonBut P (cmdSerCtlStart rq n s) :=
  serWrite_canon (fun _ h => ite_canon (serStart_canon h) h) h

theorem execSerCtlStart_canon {rq : Requester} {n : Nat} (h : CanonBut P s) : NextCanon P (execSerCtlStart rq n s) :=
  ⟨_, rfl, gate_canon (fun _ h => cmdSerCtlStart_canon h) h⟩

/-! ## The functions of Machine/Wake.lean -/

theorem setUnit_canon {a bt bp : Fld} {u : Nat} {b : Bool} (h : CanonBut P s) : CanonBut P (setUnit a bt bp u b s) :=
  ite_canon (orF_canon h) (clrF_canon h)

theorem refreshBase_canon (h : CanonBut P s) : CanonBut P (refreshBase s) :=
  ite_canon (refreshMode_canon (setF_canon h)) h

theorem falseWake_canon {u : Nat} (h : CanonBut P s) : CanonBut P (falseWake u s) := by
  unfold falseWake
  split
  · exact h
  · exact iteElse_canon (incF_canon (setVal_canon (h.upd rfl rfl))) fun h1 => raise_canon h1

theorem logWake_canon {w : WakeSrc} {sby : Bool} (h : CanonBut P s) : CanonBut P (logWake w sby s).2 :=
  ite_canon (incF_canon (setF_canon (setF_canon (setB_canon (setF_canon (setF_canon (setF_canon (setF_canon (setF_canon (h.upd rfl rfl))))))))))
    (incF_canon (setF_canon (setF_canon (setB_canon (setF_canon (setF_canon (setF_canon (setF_canon (setF_canon (h.upd rfl rfl))))))))))

theorem openWindow_canon {u e : Nat} (h : CanonBut P s) : CanonBut P (openWindow u e s) :=
  (falseWake_canon h).upd rfl rfl

theorem writeDone_canon {u : Nat} (h : CanonBut P s) : CanonBut P (writeDone u s) :=
  applyAll_canon (fun _ _ h => raise_canon h) (h.upd rfl rfl)

theorem latchWake_canon {u : Nat} (h : CanonBut P s) : CanonBut P (latchWake u s) :=
  ite_canon (h.upd rfl rfl) (h.upd rfl rfl)

theorem stopSleepingPlls_canon (h : CanonBut P s) : CanonBut P (stopSleepingPlls s) :=
  applyAll_canon (fun _ _ h => ite_canon (clrF_canon (h.upd rfl rfl)) h) h

theorem startPll_canon {p : Nat} (h : CanonBut P s) : CanonBut P (startPll p s) :=
  ite_canon (h.upd rfl rfl) h

theorem sleepStart_canon {u : Nat} (h : CanonBut P s) : CanonBut P (sleepStart u s) :=
  ite_canon (linkOff_canon (setUnit_canon h)) (ite_canon (canFlush_canon (setUnit_canon h)) (setUnit_canon h))

theorem sendGoToSleep_canon {n : Nat} (h : CanonBut P s) : CanonBut P (sendGoToSleep n s) :=
  emit_canon h

theorem sleepEntry_canon {u : Nat} (h : CanonBut P s) : CanonBut P (sleepEntry u s) := by
  unfold sleepEntry
  extract_lets s1 st _ s3 s2
  have hs1 : CanonBut P s1 := setUnit_canon (setUnit_canon (latchWake_canon h))
  have hs3 : CanonBut P s3 := ite_canon (sendGoToSleep_canon hs1) hs1
  have hs2 : CanonBut P s2 := ite_canon (flushPort_canon hs1) (ite_canon (setF_canon (canGoto_canon (setCan_canon (canFlush_canon hs1))))
    (setF_canon (serQuiet_canon (serFlush_canon hs3))))
  exact refreshBase_canon (stopSleepingPlls_canon (writeDone_canon (falseWake_canon hs2)))

theorem sleepRequest_canon {hi : Bool} {w : Word} (h : CanonBut P s) : CanonBut P (sleepRequest hi w s) :=
  ite_canon (busError_canon h) (ite_canon (busDone_canon h) (refreshBase_canon
    (applyAll_canon (fun _ _ h => sleepStart_canon h) ((busDone_canon h).upd rfl rfl))))

theorem execUnitSleepRequest_canon {rq : Requester} {hi : Bool} {w : Word} (h : CanonBut P s) : NextCanon P (execUnitSleepRequest rq hi w s) :=
  ⟨_, rfl, gate_canon (fun _ h => sleepRequest_canon h) h⟩

theorem execUnitAsleep_canon {u : Nat} (h : CanonBut P s) : NextCanon P (execUnitAsleep u s) :=
  ⟨_, rfl, onlyIf_canon (fun _ h => sleepEntry_canon h) h⟩

theorem unsleep_canon {u : Nat} (h : CanonBut P s) : CanonBut P (unsleep u s) :=
  writeDone_canon (setUnit_canon h)

theorem wakeUnit_canon {own : Bool} {u : Nat} (h : CanonBut P s) : CanonBut P (wakeUnit own u s) :=
  ite_canon (unsleep_canon h) (ite_canon h (ite_canon (iteElse_canon (startPll_canon (setUnit_canon h)) fun h1 => emit_canon h1)
    (ite_canon (ite_canon (canGoto_canon (setCan_canon (setUnit_canon h))) (canGoto_canon (setUnit_canon h)))
    (ite_canon (setF_canon (setSer_canon (setUnit_canon h))) (iteElse_canon (setF_canon (setUnit_canon h)) fun h1 => h1.upd rfl rfl)))))

theorem logSource_canon {sby : Bool} {w : WakeSrc} (h : CanonBut P s) : CanonBut P (logSource sby w s) := by
  unfold logSource
  split
  · exact openWindow_canon (logWake_canon h)
  · exact logWake_canon h

theorem startInOrder_canon {l : List Nat} (h : CanonBut P s) : CanonBut P (startInOrder l s) :=
  h.upd rfl rfl

theorem wakeAll_canon {ws : List WakeSrc} {sby : Bool} (h : CanonBut P s) : CanonBut P (wakeAll ws sby s) :=
  ite_canon h (raise_canon (refreshBase_canon (startInOrder_canon (applyAll_canon (fun _ _ h => wakeUnit_canon h)
    (applyAll_canon (fun _ _ h => wakeUnit_canon h) (applyAll_canon (fun _ _ h => logSource_canon h) (standbyTrigger_canon h)))))))

theorem wakeSource_canon {w : WakeSrc} (h : CanonBut P s) : CanonBut P (wakeSource w s) :=
  ite_canon (standbyTrigger_canon (ite_canon h (h.upd rfl rfl))) (wakeAll_canon h)

theorem wakeRelease_canon (h : CanonBut P s) : CanonBut P (wakeRelease s) :=
  wakeAll_canon (h.upd rfl rfl)

theorem wakeRequest_canon {hi : Bool} {w : Word} (h : CanonBut P s) : CanonBut P (wakeRequest hi w s) :=
  ite_canon (busError_canon h) (ite_canon (busDone_canon h) (raise_canon (refreshBase_canon
    (applyAll_canon (fun _ _ h => wakeUnit_canon h) (standbyTrigger_canon (busDone_canon h))))))

theorem execUnitWakeRequest_canon {rq : Requester} {hi : Bool} {w : Word} (h : CanonBut P s) : NextCanon P (execUnitWakeRequest rq hi w s) :=
  ⟨_, rfl, gate_canon (fun _ h => wakeRequest_canon h) h⟩

theorem execWakeUpFrame_canon {n : Nat} {f : CanFrame} {dlc : Nat} (h : CanonBut P s) : NextCanon P (execWakeUpFrame n f dlc s) :=
  ⟨_, rfl, onlyIf_canon (fun _ h => iteElse_canon (seeFrame_canon (setF_canon h)) fun h1 => wakeSource_canon h1) h⟩

theorem execWakeDominant_canon {n us : Nat} (h : CanonBut P s) : NextCanon P (execWakeDominant n us s) :=
  ⟨_, rfl, onlyIf_canon (fun _ h => wakeSource_canon h) h⟩

theorem execWakeFrameErrors_canon {n : Nat} (h : CanonBut P s) : NextCanon P (execWakeFrameErrors n s) :=
  ⟨_, rfl, onlyIf_canon (fun _ h => ite_canon (wakeSource_canon (setF_canon h)) (setF_canon h)) h⟩

theorem execWakePortEnergy_canon {p us : Nat} (h : CanonBut P s) : NextCanon P (execWakePortEnergy p us s) :=
  ⟨_, rfl, onlyIf_canon (fun _ h => wakeSource_canon h) h⟩

theorem pinWakeTaken_canon {i : Nat} (h : CanonBut P s) : CanonBut P (pinWakeTaken i s) :=
  h.upd rfl rfl

theorem execWakeWireOrPin_canon {pin : Bool} {i : Nat} (h : CanonBut P s) : NextCanon P (execWakeWireOrPin pin i s) :=
  ⟨_, rfl, ite_canon (onlyIf_canon (fun _ h => wakeSource_canon (pinWakeTaken_canon h)) h) (onlyIf_canon (fun _ h => wakeSource_canon h) h)⟩

theorem execSerdesPllRestartLock_canon {g : Nat} (h : CanonBut P s) : NextCanon P (execSerdesPllRestartLock g s) :=
  ⟨_, rfl, onlyIf_canon (fun _ h => orF_canon (h.upd rfl rfl)) h⟩

theorem execValidationWindowClose_canon {u : Nat} (h : CanonBut P s) : NextCanon P (execValidationWindowClose u s) :=
  ⟨_, rfl, onlyIf_canon (fun _ h => falseWake_canon h) h⟩

theorem cmdWksValid_canon {rq : Requester} {hi : Bool} {w : Word} (h : CanonBut P s) : CanonBut P (cmdWksValid rq hi w s) :=
  applyAll_canon (fun _ _ h => validate_canon h) (busDone_canon h)

theorem execWksValid_canon {rq : Requester} {hi : Bool} {w : Word} (h : CanonBut P s) : NextCanon P (execWksValid rq hi w s) :=
  ⟨_, rfl, gate_canon (fun _ h => cmdWksValid_canon h) h⟩

theorem cmdWksLogack_canon {rq : Requester} {w : Word} (h : CanonBut P s) : CanonBut P (cmdWksLogack rq w s) :=
  busDone_canon (ite_canon (setF_canon h) h)

theorem execWksLogack_canon {rq : Requester} {w : Word} (h : CanonBut P s) : NextCanon P (execWksLogack rq w s) :=
  ⟨_, rfl, gate_canon (fun _ h => cmdWksLogack_canon h) h⟩

theorem linSelfSleep_canon {n : Nat} (h : CanonBut P s) : CanonBut P (linSelfSleep n s) :=
  raise_canon (sleepEntry_canon (setSer_canon h))

theorem execLinGoToSleepReceive_canon {n : Nat} (h : CanonBut P s) : NextCanon P (execLinGoToSleepReceive n s) :=
  ⟨_, rfl, onlyIf_canon (fun _ h => linSelfSleep_canon (seeFrame_canon h)) h⟩

theorem execLinIdleSleep_canon {n : Nat} (h : CanonBut P s) : NextCanon P (execLinIdleSleep n s) :=
  ⟨_, rfl, onlyIf_canon (fun _ h => linSelfSleep_canon h) h⟩

theorem linPulse_canon {n k : Nat} (h : CanonBut P s) : CanonBut P (linPulse n k s) :=
  emit_canon (h.upd rfl rfl)

theorem linWakeStart_canon {n : Nat} (h : CanonBut P s) : CanonBut P (linWakeStart n s) :=
  ite_canon (linPulse_canon (ite_canon (h.upd rfl rfl) (serStart_canon (h.upd rfl rfl)))) (serStart_canon h)

theorem execLinWakePulseTimeout_canon {n : Nat} (h : CanonBut P s) : NextCanon P (execLinWakePulseTimeout n s) :=
  ⟨_, rfl, onlyIf_canon (fun _ h => ite_canon (serStart_canon (h.upd rfl rfl)) (ite_canon (linPulse_canon h) (h.upd rfl rfl))) h⟩

/-! ## The functions of Machine/CarLink.lean -/

theorem setLink_canon {p : LinkSide} {l : LinkPort} (h : CanonBut P s) : CanonBut P (setLink p l s) := by
  unfold setLink
  split
  · exact h.upd rfl rfl
  · exact h.upd rfl rfl

theorem setRxState_canon {p : LinkSide} {r : RxState} (h : CanonBut P s) : CanonBut P (setRxState p r s) :=
  setB_canon (iteElse_canon (setF_canon (setLink_canon h)) fun h1 => setB_canon h1)

theorem holdsStart_canon {m : Nat} (h : CanonBut P s) : CanonBut P (holdsStart m s) :=
  h.upd rfl rfl

theorem execWireInChange_canon {n : Nat} {level : Bool} (h : CanonBut P s) : NextCanon P (execWireInChange n level s) :=
  ⟨_, rfl, onlyIf_canon (fun _ h => ite_canon (h.upd rfl rfl) (holdsStart_canon (h.upd rfl rfl))) h⟩

theorem wireChange_canon {n : Nat} {st received : Bool} {p : LinkSide} {hop fcnt : Nat} (h : CanonBut P s) :
    CanonBut P (wireChange n st received p hop fcnt s) :=
  ite_canon (orF_canon h) (ite_canon h (ite_canon (setB_canon (incWrap_canon h)) ((incWrap_canon h).upd rfl rfl)))

theorem setDebounced_canon {n : Nat} {v : Bool} (h : CanonBut P s) : CanonBut P (setDebounced n v s) :=
  ite_canon h (wireChange_canon (h.upd rfl rfl))

theorem execWireDebounceExpiry_canon {n : Nat} (h : CanonBut P s) : NextCanon P (execWireDebounceExpiry n s) :=
  ⟨_, rfl, onlyIf_canon (fun _ h => setDebounced_canon h) h⟩

theorem debounceLength_canon {deb : Nat} (h : CanonBut P s) : CanonBut P (debounceLength deb s) :=
  applyAll_canon (fun _ _ h => ite_canon (setDebounced_canon h) h) (setF_canon h)

theorem applyPolarity_canon {pol : Nat} (h : CanonBut P s) : CanonBut P (applyPolarity pol s) :=
  holdsStart_canon (setF_canon h)

theorem execWireRecordIssue_canon (h : CanonBut P s) : NextCanon P (execWireRecordIssue s) := by
  refine ⟨_, rfl, ?_⟩
  split
  · exact h
  · exact ite_canon h (internalInline_canon (h.upd rfl rfl))

theorem setOrigins_canon {p : LinkSide} {o : List Nat} (h : CanonBut P s) : CanonBut P (setOrigins p o s) :=
  applyAll_canon (fun _ _ h => setF_canon h) h

theorem showAlarms_canon (h : CanonBut P s) : CanonBut P (showAlarms s) :=
  iteElse_canon (setF_canon (setF_canon h)) fun h1 => raise_canon (setB_canon h1)

theorem sourceLost_canon {p : LinkSide} (h : CanonBut P s) : CanonBut P (sourceLost p s) := by
  unfold sourceLost
  dsimp only
  split
  · exact setLink_canon h
  · exact setLink_canon h
  · exact setLink_canon h
  · exact h

theorem sourceGained_canon {p : LinkSide} (h : CanonBut P s) : CanonBut P (sourceGained p s) := by
  unfold sourceGained
  dsimp only
  split
  · exact h
  · exact setLink_canon h

theorem receivedStates_canon {p : LinkSide} {w : Nat} {hops : List Nat} {fcnt : Nat} (h : CanonBut P s) :
    CanonBut P (receivedStates p w hops fcnt s) :=
  applyAll_canon (fun _ _ h => wireChange_canon h) (setLink_canon h)

theorem lockLoss_canon {p : LinkSide} (h : CanonBut P s) : CanonBut P (lockLoss p s) :=
  raise_canon (setB_canon (iteElse_canon (incF_canon (showAlarms_canon (setLink_canon
    (setOrigins_canon (receivedStates_canon (setRxState_canon (sourceLost_canon h))))))) fun h1 => setB_canon h1))

theorem headerFollow_canon {p : LinkSide} {f : LinkFrame} (h : CanonBut P s) : CanonBut P (headerFollow p f s) :=
  setB_canon (ite_canon (setB_canon h) h)

theorem positionFollow_canon {f : LinkFrame} (h : CanonBut P s) : CanonBut P (positionFollow f s) :=
  ite_canon (setB_canon h) (setF_canon (setB_canon h))

theorem hopFollow_canon {f : LinkFrame} (h : CanonBut P s) : CanonBut P (hopFollow f s) :=
  setB_canon (ite_canon (setB_canon h) h)

theorem deliverMessage_canon {p : LinkSide} {f : LinkFrame} (h : CanonBut P s) : CanonBut P (deliverMessage p f s) :=
  sendOwn_canon h

theorem acceptFrame_canon {p : LinkSide} {f : LinkFrame} (h : CanonBut P s) : CanonBut P (acceptFrame p f s) := by
  unfold acceptFrame
  extract_lets _ s1 s2 s3 l j s4 s5 _ t s6 _
  have hs1 : CanonBut P s1 := setF_canon (setLink_canon h)
  have hs2 : CanonBut P s2 := headerFollow_canon hs1
  have hs3 : CanonBut P s3 := ite_canon (positionFollow_canon hs2) (hopFollow_canon hs2)
  have hs4 : CanonBut P s4 := incF_canon (incF_canon (setLink_canon hs3))
  have hs5 : CanonBut P s5 := setOrigins_canon (receivedStates_canon hs4)
  have ht : CanonBut P t := showAlarms_canon (setLink_canon hs5)
  have hs6 : CanonBut P s6 := ite_canon (ite_canon (deliverMessage_canon ht) ht) (incF_canon hs5)
  exact ite_canon (setRxState_canon (sourceLost_canon (setLink_canon hs6))) hs6

theorem execCarlinkHuntSync_canon {p : LinkSide} {bit : Nat} (h : CanonBut P s) : NextCanon P (execCarlinkHuntSync p bit s) :=
  ⟨_, rfl, onlyIf_canon (fun _ h => ite_canon h (setLink_canon h)) h⟩

theorem execCarlinkCandidateFrame_canon {p : LinkSide} {bit : Nat} {f : LinkFrame} (h : CanonBut P s) :
    NextCanon P (execCarlinkCandidateFrame p bit f s) := by
  refine ⟨_, rfl, ?_⟩
  dsimp only
  refine onlyIf_canon (fun _ h => ?_) h
  split
  · exact h
  · exact ite_canon (setLink_canon h) (ite_canon (acceptFrame_canon (raise_canon
      (setB_canon (sourceGained_canon (setRxState_canon (setLink_canon h)))))) (setLink_canon h))

theorem execCarlinkFrameReceive_canon {p : LinkSide} {f : LinkFrame} (h : CanonBut P s) : NextCanon P (execCarlinkFrameReceive p f s) :=
  ⟨_, rfl, onlyIf_canon (fun _ h => ite_canon (acceptFrame_canon h) (iteElse_canon (incF_canon (setLink_canon h)) fun h1 => lockLoss_canon h1))
    h⟩

theorem execRelockSync_canon {p : LinkSide} {off : Nat} {f : LinkFrame} (h : CanonBut P s) : NextCanon P (execRelockSync p off f s) :=
  ⟨_, rfl, onlyIf_canon (fun _ h => acceptFrame_canon (sourceGained_canon (incF_canon (setRxState_canon h)))) h⟩

theorem execRelockTimeout_canon {p : LinkSide} (h : CanonBut P s) : NextCanon P (execRelockTimeout p s) :=
  ⟨_, rfl, onlyIf_canon (fun _ h => lockLoss_canon h) h⟩

theorem sendFrame_canon {p : LinkSide} {inc : Option LinkFrame} {slaved realign : Bool} (h : CanonBut P s) :
    CanonBut P (sendFrame p inc slaved realign s) :=
  iteElse_canon (setLink_canon (emit_canon (setF_canon (setF_canon h)))) fun h1 => setB_canon h1

theorem execCarlinkFrameSend_canon {p : LinkSide} {incoming : Option LinkFrame} (h : CanonBut P s) :
    NextCanon P (execCarlinkFrameSend p incoming s) := by
  refine ⟨_, rfl, ?_⟩
  split
  · exact h
  · exact sendFrame_canon h
  · exact setLink_canon (sendFrame_canon h)
  · exact sendFrame_canon h
  · exact h

theorem execRephaseStart_canon {p : LinkSide} (h : CanonBut P s) : NextCanon P (execRephaseStart p s) := by
  refine ⟨_, rfl, ?_⟩
  dsimp only
  split
  · exact setLink_canon h
  · exact setLink_canon h
  · exact h

theorem msgTxWrite_canon {p : LinkSide} {w : Word} (h : CanonBut P s) : CanonBut P (msgTxWrite p w s) :=
  ite_canon (busError_canon h) (iteElse_canon (setF_canon (setF_canon (busDone_canon h))) fun h1 => setB_canon h1)

theorem cmdLnkMsgtxGo_canon {rq : Requester} {p : LinkSide} {w : Word} (h : CanonBut P s) : CanonBut P (cmdLnkMsgtxGo rq p w s) :=
  msgTxWrite_canon h

theorem execLnkMsgtxGo_canon {rq : Requester} {p : LinkSide} {w : Word} (h : CanonBut P s) : NextCanon P (execLnkMsgtxGo rq p w s) :=
  ⟨_, rfl, gate_canon (fun _ h => cmdLnkMsgtxGo_canon h) h⟩

/-! ## The functions of Machine/Trn.lean -/

theorem setValueSlot_canon {lid k : Nat} {x : Slot} (h : CanonBut P s) : CanonBut P (setValueSlot lid k x s) :=
  h.upd rfl rfl

theorem sourceEntry_canon {lid : Nat} {d : List Byte} {late : Bool} {ms e : Nat} (h : CanonBut P s) :
    CanonBut P (sourceEntry lid d late ms e s).2 :=
  iteSnd_canon (trnCount_canon h) (iteSnd_canon (trnCount_canon (setValueSlot_canon h)) (setValueSlot_canon h))

theorem sourceEntries_canon {lid : Nat} {d : List Byte} {late : Bool} {ms : Nat} {l : List Nat} (h : CanonBut P s) :
    CanonBut P (sourceEntries lid d late ms l s).2 := by
  induction l generalizing s with
  | nil => exact h
  | cons e r ih => exact ih (sourceEntry_canon h)

theorem packCounts_canon {lid : Nat} {o : OutRec} (h : CanonBut P s) : CanonBut P (packCounts lid o s) :=
  trnCount_canon h

theorem emitOutput_canon {lid i : Nat} {o : OutRec} {lossless late : Bool} (h : CanonBut P s) :
    CanonBut P (emitOutput lid i o lossless late s) := by
  unfold emitOutput
  extract_lets body s1 _ s2 s3 frame w
  have hs1 : CanonBut P s1 := applyAll_canon (fun _ _ h => h.upd rfl rfl) h
  have hs2 : CanonBut P s2 := hs1.upd rfl rfl
  have hs3 : CanonBut P s3 := ite_canon (trnCount_canon hs2) hs2
  exact ite_canon (trnCount_canon h) (sendOwn_canon (trnCount_canon hs3))

theorem deferOutput_canon {lid : Nat} {x : TrnState} (h : CanonBut P s) : CanonBut P (trnCount lid tDef 1 { s with trn := x }) := by
  have hx : CanonBut P { s with trn := x } := h.upd rfl rfl
  exact trnCount_canon hx

theorem onChange_canon {lid : Nat} {updated : List Nat} {lossless : Option Bool} {late : Bool} {i : Nat} (h : CanonBut P s) :
    CanonBut P (onChange lid updated lossless late i s).2 := by
  unfold onChange
  extract_lets o reads s1
  have hs1 : CanonBut P s1 := packCounts_canon h
  exact iteSnd_canon h (iteSnd_canon hs1 (iteSnd_canon (iteSnd_canon hs1 (pair_canon (deferOutput_canon hs1)))
    (pair_canon (emitOutput_canon hs1))))

theorem onChanges_canon {lid : Nat} {updated : List Nat} {lossless : Option Bool} {late : Bool} {l : List Nat} (h : CanonBut P s) :
    CanonBut P (onChanges lid updated lossless late l s).2 := by
  induction l generalizing s with
  | nil => exact h
  | cons i r ih => exact ih (onChange_canon h)

theorem handleFrame_canon {lid : Nat} {it : Item} {w : Waybill} (h : CanonBut P s) : CanonBut P (handleFrame lid it w s).2 := by
  unfold handleFrame
  dsimp only
  split
  · exact freePages_canon (trnCount_canon h)
  · have h1 := fun l => freePages_canon (l := l) (trnCount_canon (lid := lid) (i := tItems) (n := 1) h)
    exact iteSnd_canon (pair_canon (trnCount_canon (trnCount_canon (h1 _))))
      (pair_canon (onChanges_canon (sourceEntries_canon (h1 _))))

theorem handleTimeout_canon {lid : Nat} {it : Item} {e : Nat} (h : CanonBut P s) : CanonBut P (handleTimeout lid it e s).2 :=
  iteSnd_canon h (onChanges_canon (trnCount_canon (setValueSlot_canon h)))

theorem handleSend_canon {lid : Nat} {it : Item} {i : Nat} (h : CanonBut P s) : CanonBut P (handleSend lid it i s).2 :=
  emitOutput_canon (packCounts_canon h)

theorem handleItem_canon {lid : Nat} {it : Item} (h : CanonBut P s) : CanonBut P (handleItem lid it s).2 := by
  unfold handleItem
  split
  · exact handleFrame_canon h
  · exact handleTimeout_canon h
  · exact handleSend_canon h
  · exact handleSend_canon (h.upd rfl rfl)

theorem runItem_canon {lid : Nat} (h : CanonBut P s) : CanonBut P (runItem lid s) := by
  unfold runItem
  dsimp only
  split
  · exact h
  · refine ite_canon h ?_
    split
    · exact underGen_canon (fun _ _ h => setLodger_canon (handleItem_canon h)) h
    · exact setLodger_canon (handleItem_canon h)

theorem execFrameItem_canon {lid : Nat} (h : CanonBut P s) : NextCanon P (execFrameItem lid s) := by
  refine ⟨_, rfl, ?_⟩
  split
  · exact runItem_canon h
  · exact h

theorem execSourceTimeout_canon {lid e : Nat} (h : CanonBut P s) : NextCanon P (execSourceTimeout lid e s) :=
  ⟨_, rfl, onlyIf_canon (fun _ h => releaseItem_canon h) h⟩

theorem execCyclicRelease_canon {lid i : Nat} (h : CanonBut P s) : NextCanon P (execCyclicRelease lid i s) :=
  ⟨_, rfl, onlyIf_canon (fun _ h => ite_canon (trnCount_canon h) (releaseItem_canon h)) h⟩

theorem execDeferredSend_canon {lid i : Nat} (h : CanonBut P s) : NextCanon P (execDeferredSend lid i s) :=
  ⟨_, rfl, onlyIf_canon (fun _ h => releaseItem_canon h) h⟩

theorem cmdTrnSigsel_canon {rq : Requester} {w : Word} (h : CanonBut P s) : CanonBut P (cmdTrnSigsel rq w s) := by
  unfold cmdTrnSigsel
  extract_lets g s1
  have hs1 : CanonBut P s1 := busDone_canon (setF_canon h)
  split
  · exact setFree_canon (setFree_canon (setFree_canon (setFree_canon hs1)))
  · exact ite_canon (setFree_canon (setF_canon (setF_canon (setB_canon hs1)))) (setF_canon (setF_canon (setF_canon (setB_canon hs1))))

theorem execTrnSigsel_canon {rq : Requester} {w : Word} (h : CanonBut P s) : NextCanon P (execTrnSigsel rq w s) :=
  ⟨_, rfl, gate_canon (fun _ h => cmdTrnSigsel_canon h) h⟩

theorem execLodgerPeriodStart_canon {lid : Nat} (h : CanonBut P s) : NextCanon P (execLodgerPeriodStart lid s) :=
  ⟨_, rfl, onlyIf_canon (fun _ h => setLodger_canon h) h⟩

theorem execItemRelease_canon {lid : Nat} {w : ItemWork} (h : CanonBut P s) : NextCanon P (execItemRelease lid w s) :=
  ⟨_, rfl, releaseItem_canon h⟩

theorem execItemDispatch_canon (h : CanonBut P s) : NextCanon P (execItemDispatch s) := by
  refine ⟨_, rfl, ?_⟩
  refine onlyIf_canon (fun _ h => ?_) h
  split
  · exact h
  · dsimp only
    split
    · exact h
    · exact setLodger_canon (h.upd rfl rfl)

theorem retryFaults_canon (h : CanonBut P s) : CanonBut P (retryFaults s) :=
  applyAll_canon (fun _ _ h => contextFault_canon h) h

theorem execItemComplete_canon {lid : Nat} (h : CanonBut P s) : NextCanon P (execItemComplete lid s) :=
  ⟨_, rfl, onlyIf_canon (fun _ h => retryFaults_canon (setLodger_canon (runItem_canon h))) h⟩

theorem execDeadlineMiss_canon {lid : Nat} (h : CanonBut P s) : NextCanon P (execDeadlineMiss lid s) := by
  refine ⟨_, rfl, ?_⟩
  dsimp only
  split
  · exact h
  · exact raise_canon (incF_canon (setF_canon (setLodger_canon h)))

theorem execPageInDone_canon {lid us : Nat} (h : CanonBut P s) : NextCanon P (execPageInDone lid us s) :=
  ⟨_, rfl, onlyIf_canon (fun _ h => setF_canon (setLodger_canon h)) h⟩

theorem execPagingMsCheck_canon (h : CanonBut P s) : NextCanon P (execPagingMsCheck s) :=
  ⟨_, rfl, ite_canon (raise_canon (setF_canon (h.upd rfl rfl))) (setF_canon (h.upd rfl rfl))⟩

/-! ## The functions of Machine/Cabinet.lean -/

theorem setWearItem_canon {item inst : Nat} {w : WearItem} (h : CanonBut P s) : CanonBut P (setWearItem item inst w s) :=
  h.upd rfl rfl

theorem wearBump_canon {item inst n : Nat} (h : CanonBut P s) : CanonBut P (wearBump item inst n s) :=
  setWearItem_canon h

theorem setMotor_canon {m : Nat} {c : MotorCh} (h : CanonBut P s) : CanonBut P (setMotor m c s) :=
  h.upd rfl rfl

theorem setMotorState_canon {m st : Nat} (h : CanonBut P s) : CanonBut P (setMotorState m st s) :=
  ite_canon (orF_canon (ite_canon (orF_canon (setF_canon h)) (clrF_canon (setF_canon h))))
    (clrF_canon (ite_canon (orF_canon (setF_canon h)) (clrF_canon (setF_canon h))))

theorem coast_canon {m : Nat} (h : CanonBut P s) : CanonBut P (coast m s) :=
  setMotorState_canon (setB_canon (setMotor_canon h))

theorem motorFault_canon {m reason : Nat} (h : CanonBut P s) : CanonBut P (motorFault m reason s) :=
  ite_canon h (raise_canon (setB_canon (setF_canon (setMotorState_canon (coast_canon h)))))

theorem dcLink_canon {m v : Nat} (h : CanonBut P s) : CanonBut P (dcLink m v s) := by
  unfold dcLink
  extract_lets c h' vs vh vt soft hard trip s1 brk s2 s3 newHard tripped newTrip s4 s5 s6
  have hs1 : CanonBut P s1 := setMotor_canon (setF_canon h)
  have hs2 : CanonBut P s2 := setB_canon (setB_canon (setB_canon hs1))
  have hs3 : CanonBut P s3 := ite_canon (setB_canon hs2) hs2
  have hs4 : CanonBut P s4 := ite_canon (setB_canon hs3) hs3
  have hs5 : CanonBut P s5 := ite_canon (setB_canon hs4) hs4
  have hs6 : CanonBut P s6 := ite_canon (raise_canon hs5) hs5
  exact ite_canon (motorFault_canon hs6) hs6

theorem currentSample_canon {m i : Nat} (h : CanonBut P s) : CanonBut P (currentSample m i s) :=
  ite_canon (setF_canon h) (iteElse_canon (setMotor_canon (setF_canon h)) fun h1 => motorFault_canon h1)

theorem refreshAdc_canon (h : CanonBut P s) : CanonBut P (refreshAdc s) :=
  setB_canon (setB_canon h)

theorem window_canon {i code w : Nat} (h : CanonBut P s) : CanonBut P (window i code w s) := by
  refine ite_canon h ?_
  extract_lets inside met filt a b _ s1 s2
  have hs2 : CanonBut P s2 := ite_canon (orF_canon (h.upd rfl rfl)) (clrF_canon (h.upd rfl rfl))
  exact ite_canon (raise_canon (orF_canon (hs2.upd rfl rfl))) (ite_canon (hs2.upd rfl rfl) hs2)

theorem conversion_canon {i code : Nat} (h : CanonBut P s) : CanonBut P (conversion i code s) :=
  iteElse_canon (applyAll_canon (fun _ _ h => window_canon h) (setF_canon (setF_canon h))) fun h1 => ite_canon (wearBump_canon (setF_canon h1))
    (setF_canon h1)

theorem execAdcConversion_canon {i code : Nat} (h : CanonBut P s) : NextCanon P (execAdcConversion i code s) :=
  ⟨_, rfl, onlyIf_canon (fun _ h => iteElse_canon (conversion_canon h) fun h1 => dcLink_canon h1) h⟩

theorem execPwmTrigger_canon {m icode vcode : Nat} {waited : Bool} (h : CanonBut P s) : NextCanon P (execPwmTrigger m icode vcode waited s) :=
  ⟨_, rfl, onlyIf_canon (fun _ h => dcLink_canon (currentSample_canon (conversion_canon (conversion_canon (ite_canon (incF_canon h) h))))) h⟩

theorem motorStop_canon {m : Nat} (h : CanonBut P s) : CanonBut P (motorStop m s) :=
  ite_canon (coast_canon h) (setMotorState_canon (setMotor_canon h))

theorem motorCmd_canon {m : Nat} {ok : Nat → Bool} {g : State → State} (hg : ∀ s, CanonBut P s → CanonBut P (g s)) (h : CanonBut P s) :
    CanonBut P (motorCmd m ok g s) :=
  ite_canon (busError_canon h) (ite_canon (busError_canon h) (ite_canon (busDone_canon h) (hg _ (busDone_canon h))))

theorem motorRun_canon {m : Nat} {t : Int} (h : CanonBut P s) : CanonBut P (motorRun m t s) :=
  ite_canon (setMotorState_canon (setMotor_canon h)) (ite_canon (motorStop_canon h)
    (ite_canon (setMotorState_canon (setMotor_canon h)) (setMotor_canon h)))

theorem motCmdWrite_canon {m : Nat} {w : Word} (h : CanonBut P s) : CanonBut P (motCmdWrite m w s) := by
  unfold motCmdWrite
  split
  · exact ite_canon (motorCmd_canon (fun _ h => motorRun_canon h) h) (busError_canon h)
  · exact motorCmd_canon (fun _ h => ite_canon h (motorStop_canon h)) h
  · exact motorCmd_canon (fun _ h => coast_canon h) h
  · exact motorCmd_canon (fun _ h => setMotorState_canon h) h
  · exact busError_canon h

theorem execMotorRun_canon {rq : Requester} {m : Nat} {w : Word} (h : CanonBut P s) : NextCanon P (execMotorRun rq m w s) :=
  ⟨_, rfl, gate_canon (fun _ h => motCmdWrite_canon h) h⟩

theorem execMotorStop_canon {rq : Requester} {m : Nat} (h : CanonBut P s) : NextCanon P (execMotorStop rq m s) :=
  ⟨_, rfl, gate_canon (fun _ h => motCmdWrite_canon h) h⟩

theorem execMotorCoast_canon {rq : Requester} {m : Nat} (h : CanonBut P s) : NextCanon P (execMotorCoast rq m s) :=
  ⟨_, rfl, gate_canon (fun _ h => motCmdWrite_canon h) h⟩

theorem execMotorClear_canon {rq : Requester} {m : Nat} (h : CanonBut P s) : NextCanon P (execMotorClear rq m s) :=
  ⟨_, rfl, gate_canon (fun _ h => motCmdWrite_canon h) h⟩

theorem enterRunning_canon {m : Nat} (h : CanonBut P s) : CanonBut P (enterRunning m s) :=
  iteThen_canon (setMotorState_canon (setMotor_canon h)) fun h1 => wearBump_canon h1

theorem startFromStand_canon {m : Nat} (h : CanonBut P s) : CanonBut P (startFromStand m s) :=
  ite_canon (enterRunning_canon (setMotor_canon h)) (setMotorState_canon (setMotor_canon h))

theorem catchAt_canon {m : Nat} {v : Int} (h : CanonBut P s) : CanonBut P (catchAt m v s) :=
  enterRunning_canon (setMotor_canon h)

theorem showSpeed_canon {m rpm : Nat} {rev : Bool} (h : CanonBut P s) : CanonBut P (showSpeed m rpm rev s) :=
  setF_canon (setB_canon h)

theorem execMotorObservationEnd_canon {m events rpm : Nat} {rev : Bool} (h : CanonBut P s) :
    NextCanon P (execMotorObservationEnd m events rpm rev s) := by
  refine ⟨_, rfl, ?_⟩
  dsimp only
  refine onlyIf_canon (fun _ h => ite_canon (startFromStand_canon (showSpeed_canon h))
    (ite_canon (iteThen_canon (showSpeed_canon h) fun h1 => catchAt_canon h1) (ite_canon (showSpeed_canon h) ?_))) h
  split
  · exact setMotorState_canon (raise_canon (setB_canon (showSpeed_canon h)))
  · exact setMotorState_canon (setMotor_canon (raise_canon (setB_canon (showSpeed_canon h))))
  · exact catchAt_canon (raise_canon (setB_canon (showSpeed_canon h)))

theorem execMotorMeasurementEnd_canon {m events rpm : Nat} {rev : Bool} (h : CanonBut P s) :
    NextCanon P (execMotorMeasurementEnd m events rpm rev s) :=
  ⟨_, rfl, onlyIf_canon (fun _ h => coast_canon (ite_canon (showSpeed_canon h) (showSpeed_canon h))) h⟩

theorem refreshSinus_canon {m : Nat} (h : CanonBut P s) : CanonBut P (refreshSinus m s) :=
  setB_canon h

theorem execMotorPositionEvent_canon {m code ns : Nat} (h : CanonBut P s) : NextCanon P (execMotorPositionEvent m code ns s) := by
  refine ⟨_, rfl, ?_⟩
  refine onlyIf_canon (fun _ h => refreshSinus_canon ?_) h
  split
  · exact iteElse_canon (ite_canon (setMotor_canon h) (showSpeed_canon (setMotor_canon h))) fun h1 => catchAt_canon h1
  · exact iteElse_canon (ite_canon (setMotor_canon h) (showSpeed_canon (setMotor_canon h))) fun h1 => catchAt_canon h1
  · exact ite_canon (setMotor_canon h) (showSpeed_canon (setMotor_canon h))

theorem execMotorPwmPeriod_canon {m : Nat} (h : CanonBut P s) : NextCanon P (execMotorPwmPeriod m s) := by
  refine ⟨_, rfl, ?_⟩
  refine onlyIf_canon (fun _ h => ite_canon (ite_canon h (setMotor_canon h))
    (ite_canon ?_ (ite_canon (coast_canon (setMotor_canon h)) (ite_canon (setMotorState_canon (setMotor_canon (setMotor_canon h)))
    (refreshSinus_canon (setMotor_canon h)))))) h
  split
  · exact setMotor_canon h
  · exact setMotor_canon h
  · exact h

theorem execMotorAlignEnd_canon {m : Nat} (h : CanonBut P s) : NextCanon P (execMotorAlignEnd m s) :=
  ⟨_, rfl, onlyIf_canon (fun _ h => setMotor_canon h) h⟩

theorem execMotorHandoverTimeout_canon {m : Nat} (h : CanonBut P s) : NextCanon P (execMotorHandoverTimeout m s) :=
  ⟨_, rfl, onlyIf_canon (fun _ h => motorFault_canon h) h⟩

theorem execMotorStallTimeout_canon {m : Nat} (h : CanonBut P s) : NextCanon P (execMotorStallTimeout m s) :=
  ⟨_, rfl, onlyIf_canon (fun _ h => motorFault_canon h) h⟩

theorem execMotorWaitLimit_canon {m : Nat} (h : CanonBut P s) : NextCanon P (execMotorWaitLimit m s) :=
  ⟨_, rfl, onlyIf_canon (fun _ h => motorFault_canon h) h⟩

theorem execMotorHallInvalid_canon {m code : Nat} (h : CanonBut P s) : NextCanon P (execMotorHallInvalid m code s) :=
  ⟨_, rfl, onlyIf_canon (fun _ h => motorFault_canon h) h⟩

theorem execMotorFltInput_canon {m : Nat} (h : CanonBut P s) : NextCanon P (execMotorFltInput m s) :=
  ⟨_, rfl, onlyIf_canon (fun _ h => motorFault_canon h) h⟩

theorem motTestWrite_canon {m : Nat} {w : Word} (h : CanonBut P s) : CanonBut P (motTestWrite m w s) :=
  ite_canon (busError_canon h) (ite_canon (busDone_canon h) (ite_canon (ite_canon (busDone_canon h)
    (busDone_canon (coast_canon (h.upd rfl rfl)))) (busDone_canon (iteElse_canon (setMotorState_canon (setMotor_canon (h.upd rfl rfl)))
    fun h1 => h1.upd rfl rfl))))

theorem cmdMotorTest_canon {rq : Requester} {m : Nat} {w : Word} (h : CanonBut P s) : CanonBut P (cmdMotorTest rq m w s) :=
  motTestWrite_canon h

theorem execMotorTest_canon {rq : Requester} {m : Nat} {w : Word} (h : CanonBut P s) : NextCanon P (execMotorTest rq m w s) :=
  ⟨_, rfl, gate_canon (fun _ h => cmdMotorTest_canon h) h⟩

theorem setLampWaits_canon {g : Nat} {l : List Nat} (h : CanonBut P s) : CanonBut P (setLampWaits g l s) :=
  setF_canon (h.upd rfl rfl)

theorem setLampState_canon {n st : Nat} (h : CanonBut P s) : CanonBut P (setLampState n st s) :=
  ite_canon (orF_canon (setF_canon h)) (clrF_canon (setF_canon h))

theorem dropToken_canon {n : Nat} (h : CanonBut P s) : CanonBut P (dropToken n s) :=
  (iteElse_canon (setLampWaits_canon h) fun h1 => setF_canon h1).upd rfl rfl

theorem lampSwitchOn_canon {n st : Nat} (h : CanonBut P s) : CanonBut P (lampSwitchOn n st s) :=
  iteThen_canon (wearBump_canon (incF_canon (setB_canon (setLampState_canon (h.upd rfl rfl))))) fun h1 => setWearItem_canon h1

theorem lampAsk_canon {n : Nat} (h : CanonBut P s) : CanonBut P (lampAsk n s) :=
  ite_canon (lampSwitchOn_canon (setF_canon h)) (setLampState_canon (setLampWaits_canon h))

theorem lampOff_canon {n : Nat} (h : CanonBut P s) : CanonBut P (lampOff n s) :=
  setLampState_canon (setF_canon (setB_canon (setF_canon (dropToken_canon h))))

theorem lampsOff_canon {l : List Nat} (h : CanonBut P s) : CanonBut P (lampsOff l s) :=
  applyAll_canon (fun _ _ h => lampOff_canon h) h

theorem lmpCmdWrite_canon {n : Nat} {w : Word} (h : CanonBut P s) : CanonBut P (lmpCmdWrite n w s) := by
  unfold lmpCmdWrite
  dsimp only
  refine ite_canon (busError_canon h) (ite_canon (busDone_canon (setF_canon (setF_canon (setF_canon h))))
    (ite_canon (busDone_canon (setF_canon (setF_canon (setF_canon (lampOff_canon h))))) (ite_canon (busDone_canon h) ?_)))
  split
  · exact lampAsk_canon (busDone_canon (setF_canon (setF_canon (setF_canon h))))
  · exact iteElse_canon (busDone_canon (setF_canon (setF_canon (setF_canon h)))) fun h1 => lampAsk_canon h1
  · exact busDone_canon (setF_canon (setF_canon (setF_canon h)))

theorem execLampCommand_canon {rq : Requester} {n : Nat} {w : Word} (h : CanonBut P s) : NextCanon P (execLampCommand rq n w s) :=
  ⟨_, rfl, gate_canon (fun _ h => lmpCmdWrite_canon h) h⟩

theorem execLampTokenGrant_canon {g : Nat} (h : CanonBut P s) : NextCanon P (execLampTokenGrant g s) := by
  refine ⟨_, rfl, ?_⟩
  refine onlyIf_canon (fun _ h => ?_) h
  split
  · exact h
  · exact lampSwitchOn_canon (setF_canon (setLampWaits_canon h))

theorem lampLatch_canon {n e : Nat} (h : CanonBut P s) : CanonBut P (lampLatch n e s) :=
  raise_canon (setB_canon (setLampState_canon h))

theorem lampFaultOff_canon {n reason : Nat} (h : CanonBut P s) : CanonBut P (lampFaultOff n reason s) :=
  incF_canon (setB_canon (setF_canon (dropToken_canon h)))

theorem lampTrip_canon {n reason : Nat} (h : CanonBut P s) : CanonBut P (lampTrip n reason s) :=
  ite_canon (lampLatch_canon (setF_canon (lampFaultOff_canon h))) (setLampState_canon (setF_canon (lampFaultOff_canon h)))

theorem execLampInrushEnd_canon {n : Nat} {above : Bool} (h : CanonBut P s) : NextCanon P (execLampInrushEnd n above s) :=
  ⟨_, rfl, onlyIf_canon (fun _ h => ite_canon (lampLatch_canon (lampFaultOff_canon h)) (setLampState_canon (dropToken_canon h))) h⟩

theorem execLampHardShort_canon {n : Nat} (h : CanonBut P s) : NextCanon P (execLampHardShort n s) :=
  ⟨_, rfl, onlyIf_canon (fun _ h => setB_canon (lampTrip_canon h)) h⟩

theorem execLampOvercurrent_canon {n : Nat} (h : CanonBut P s) : NextCanon P (execLampOvercurrent n s) :=
  ⟨_, rfl, onlyIf_canon (fun _ h => lampTrip_canon h) h⟩

theorem execLampGroupLimit_canon {g : Nat} (h : CanonBut P s) : NextCanon P (execLampGroupLimit g s) := by
  refine ⟨_, rfl, ?_⟩
  dsimp only
  refine onlyIf_canon (fun _ h => ?_) h
  split
  · exact setB_canon (setB_canon h)
  · exact iteThen_canon (lampTrip_canon (setB_canon (setB_canon h))) fun h1 => raise_canon h1

theorem execLampDisturbanceEnd_canon {g : Nat} (h : CanonBut P s) : NextCanon P (execLampDisturbanceEnd g s) :=
  ⟨_, rfl, onlyIf_canon (fun _ h => iteElse_canon (setB_canon (setB_canon h)) fun h1 => setB_canon h1) h⟩

theorem execLampCoolDownEnd_canon {n : Nat} (h : CanonBut P s) : NextCanon P (execLampCoolDownEnd n s) :=
  ⟨_, rfl, onlyIf_canon (fun _ h => lampAsk_canon h) h⟩

theorem execLampBlinkPhase_canon {n : Nat} (h : CanonBut P s) : NextCanon P (execLampBlinkPhase n s) := by
  refine ⟨_, rfl, ?_⟩
  refine onlyIf_canon (fun _ h => ?_) h
  split
  · exact setLampState_canon (dropToken_canon h)
  · exact setLampState_canon h
  · exact lampAsk_canon h
  · exact h

theorem execLampOpenDetect_canon {n : Nat} {below : Bool} (h : CanonBut P s) : NextCanon P (execLampOpenDetect n below s) :=
  ⟨_, rfl, onlyIf_canon (fun _ h => ite_canon (ite_canon h (raise_canon (setB_canon (setB_canon h)))) (setB_canon h)) h⟩

theorem execLampTriesReset_canon {n : Nat} (h : CanonBut P s) : NextCanon P (execLampTriesReset n s) :=
  ⟨_, rfl, onlyIf_canon (fun _ h => setF_canon h) h⟩

theorem lmpTestWrite_canon {w : Word} (h : CanonBut P s) : CanonBut P (lmpTestWrite w s) :=
  ite_canon (busError_canon h) (ite_canon (busDone_canon h) (busDone_canon ((ite_canon h (lampSwitchOn_canon (dropToken_canon h))).upd rfl rfl)))

theorem cmdLampTest_canon {rq : Requester} {w : Word} (h : CanonBut P s) : CanonBut P (cmdLampTest rq w s) :=
  lmpTestWrite_canon h

theorem execLampTest_canon {rq : Requester} {w : Word} (h : CanonBut P s) : NextCanon P (execLampTest rq w s) :=
  ⟨_, rfl, gate_canon (fun _ h => cmdLampTest_canon h) h⟩

theorem endTests_canon (h : CanonBut P s) : CanonBut P (endTests s) :=
  applyAll_canon (fun _ _ h => ite_canon (coast_canon h) (setLampState_canon h)) (h.upd rfl rfl)

theorem coastAll_canon {mask : Nat} (h : CanonBut P s) : CanonBut P (coastAll mask s) :=
  applyAll_canon (fun _ _ h => coast_canon h) h

theorem groupsOff_canon {mask : Nat} (h : CanonBut P s) : CanonBut P (groupsOff mask s) :=
  lampsOff_canon h

/-! ## The functions of Machine/Wear.lean -/

theorem wearEvent_canon {f : Fld} {e item inst : Nat} (h : CanonBut P s) : CanonBut P (wearEvent f e item inst s) :=
  raise_canon (setF_canon (setF_canon (setB_canon h)))

theorem judgeItem_canon {x : Nat × Nat} (h : CanonBut P s) : CanonBut P (judgeItem x s) := by
  unfold judgeItem
  dsimp only
  split
  · exact setWearItem_canon h
  · exact iteElse_canon (iteElse_canon (setWearItem_canon h) fun h1 => wearEvent_canon h1) fun h1 => wearEvent_canon h1

theorem predictItem_canon {x : Nat × Nat} (h : CanonBut P s) : CanonBut P (predictItem x s) :=
  iteElse_canon (setWearItem_canon h) fun h1 => wearEvent_canon h1

theorem ratedChanged_canon (h : CanonBut P s) : CanonBut P (ratedChanged s) :=
  applyAll_canon (fun _ _ h => ite_canon (setWearItem_canon (predictItem_canon (setWearItem_canon (judgeItem_canon h))))
    (predictItem_canon (judgeItem_canon h))) (applyAll_canon (fun _ _ h => setWearItem_canon h) h)

theorem ledgerSave_canon (h : CanonBut P s) : CanonBut P (ledgerSave s) := by
  unfold ledgerSave
  split
  · exact h.upd rfl rfl
  · exact setB_canon (h.upd rfl rfl)

theorem execLedgerSave_canon (h : CanonBut P s) : NextCanon P (execLedgerSave s) :=
  ⟨_, rfl, onlyIf_canon (fun _ h => ledgerSave_canon h) h⟩

theorem execLedgerSaveDone_canon (h : CanonBut P s) : NextCanon P (execLedgerSaveDone s) := by
  refine ⟨_, rfl, ?_⟩
  split
  · exact h
  · extract_lets _ s1 _ s2
    have hs1 : CanonBut P s1 := storeWrite_canon (h.upd rfl rfl)
    have hs2 : CanonBut P s2 := setB_canon (hs1.upd rfl rfl)
    exact ite_canon (ledgerSave_canon hs2) hs2

theorem execLedgerSecond_canon (h : CanonBut P s) : NextCanon P (execLedgerSecond s) :=
  ⟨_, rfl, onlyIf_canon (fun _ h => applyAll_canon (fun _ _ h => judgeItem_canon h) (wearBump_canon (wearBump_canon (ledgerAdvance_canon h)))) h⟩

theorem ledgerMs_canon (h : CanonBut P s) : CanonBut P (ledgerMs s) :=
  applyAll_canon (fun _ _ h => iteElse_canon (ite_canon (wearBump_canon h) h) fun h1 => wearBump_canon h1) h

theorem execTemperatureMeasure_canon {t : Int} (h : CanonBut P s) : NextCanon P (execTemperatureMeasure t s) :=
  ⟨_, rfl, onlyIf_canon (fun _ h => ite_canon (raise_canon ((setF_canon (ite_canon (setF_canon h) h)).upd rfl rfl))
    (ite_canon ((setF_canon (ite_canon (setF_canon h) h)).upd rfl rfl) ((setF_canon (ite_canon (setF_canon h) h)).upd rfl rfl))) h⟩

theorem execRingOscillatorMeasure_canon {ppm : List Int} (h : CanonBut P s) : NextCanon P (execRingOscillatorMeasure ppm s) :=
  ⟨_, rfl, onlyIf_canon (fun _ h => applyAll_canon (fun _ _ h => setWearItem_canon h) h) h⟩

theorem sampleAll_canon {l : List (Nat × Nat)} {k : Nat} (h : CanonBut P s) : CanonBut P (sampleAll l k s) :=
  storeWrite_canon ((applyAll_canon (fun _ _ h => setWearItem_canon h) h).upd rfl rfl)

theorem execMonthlySample_canon (h : CanonBut P s) : NextCanon P (execMonthlySample s) :=
  ⟨_, rfl, onlyIf_canon (fun _ h => ledgerSave_canon (applyAll_canon (fun _ _ h => predictItem_canon h) (sampleAll_canon h))) h⟩

theorem werReset_canon {rq : Requester} {w : Word} (h : CanonBut P s) : CanonBut P (werReset rq w s) :=
  ite_canon (busError_canon h) (ledgerSave_canon (setWearItem_canon (busDone_canon h)))

theorem execWerReset_canon {rq : Requester} {w : Word} (h : CanonBut P s) : NextCanon P (execWerReset rq w s) :=
  ⟨_, rfl, gate_canon (fun _ h => werReset_canon h) h⟩

theorem werSel_canon {w : Word} (h : CanonBut P s) : CanonBut P (werSel w s) := by
  unfold werSel
  extract_lets item inst s1 here v it r e rem s2
  have hs1 : CanonBut P s1 := setF_canon (setF_canon (busDone_canon h))
  have hs2 : CanonBut P s2 := setB_canon (setB_canon (setB_canon (setF_canon
    (setF_canon (setB_canon (setB_canon (setB_canon (setF_canon hs1))))))))
  exact setF_canon (setF_canon (setF_canon (setF_canon (setF_canon (setF_canon (setF_canon (setF_canon (setF_canon hs2))))))))

theorem execWerSel_canon {rq : Requester} {w : Word} (h : CanonBut P s) : NextCanon P (execWerSel rq w s) :=
  ⟨_, rfl, gate_canon (fun _ h => werSel_canon h) h⟩

theorem backupCharge_canon {lastBase lost : Nat} (h : CanonBut P s) : CanonBut P (backupCharge lastBase lost s) :=
  ite_canon h (wearBump_canon h)

theorem ledgerLoad_canon {backup : Bool} (h : CanonBut P s) : CanonBut P (ledgerLoad backup s) := by
  unfold ledgerLoad
  split
  · exact raise_canon (setB_canon (setB_canon (h.upd rfl rfl)))
  · extract_lets s1 _ s2 missed sample s3 s4
    have hs1 : CanonBut P s1 := setB_canon (h.upd rfl rfl)
    have hs2 : CanonBut P s2 := ite_canon (setB_canon (hs1.upd rfl rfl)) (ledgerAdvance_canon hs1)
    have hs3 : CanonBut P s3 := applyAll_canon (fun _ _ h => applyAll_canon (fun _ _ h => predictItem_canon h) (sampleAll_canon h)) hs2
    have hs4 : CanonBut P s4 := ite_canon (backupCharge_canon hs3) hs3
    exact ite_canon hs4 (ledgerSave_canon hs4)

/-! ## The functions of Machine/Power.lean -/

theorem copyF_canon {f : Fld} {src : State} (h : CanonBut P s) : CanonBut P (copyF f src s) :=
  setF_canon h

theorem pllTry_canon (h : CanonBut P s) : CanonBut P (pllTry s) :=
  ite_canon (h.upd rfl rfl) h

theorem linkStart_canon (h : CanonBut P s) : CanonBut P (linkStart s) :=
  applyAll_canon (fun _ _ h => setLink_canon (setRxState_canon h)) h

theorem rstCause_canon {f : Fld} (h : CanonBut P s) : CanonBut P (rstCause f s) :=
  setB_canon h

theorem fullReset_canon {cause : Fld} (h : CanonBut P s) : CanonBut P (fullReset cause s) :=
  ite_canon h (ite_canon (rstCause_canon h) (rstCause_canon (iteElse_canon
    (setB_canon (setB_canon (setF_canon (copyF_canon (setF_canon (setF_canon ((ledgerSave_canon h).reset rfl rfl))))))) fun h1 => setF_canon
    h1)))

theorem execResetNAssert_canon (h : CanonBut P s) : NextCanon P (execResetNAssert s) :=
  ⟨_, rfl, fullReset_canon (h.upd rfl rfl)⟩

theorem execResetNRelease_canon (h : CanonBut P s) : NextCanon P (execResetNRelease s) :=
  ⟨_, rfl, h.upd rfl rfl⟩

theorem execFullResetEnd_canon (h : CanonBut P s) : NextCanon P (execFullResetEnd s) :=
  ⟨_, rfl, onlyIf_canon (fun _ h => pllTry_canon (h.upd rfl rfl)) h⟩

theorem clockFault_canon (h : CanonBut P s) : CanonBut P (clockFault s) :=
  fullReset_canon (setB_canon (incF_canon h))

theorem execClockFault_canon (h : CanonBut P s) : NextCanon P (execClockFault s) :=
  ⟨_, rfl, onlyIf_canon (fun _ h => clockFault_canon h) h⟩

theorem execRootPllLockLoss_canon (h : CanonBut P s) : NextCanon P (execRootPllLockLoss s) :=
  ⟨_, rfl, h⟩

theorem execXinAmplitudeGood_canon (h : CanonBut P s) : NextCanon P (execXinAmplitudeGood s) :=
  ⟨_, rfl, onlyIf_canon (fun _ h => pllTry_canon (setB_canon h)) h⟩

theorem execXinStable_canon (h : CanonBut P s) : NextCanon P (execXinStable s) :=
  ⟨_, rfl, onlyIf_canon (fun _ h => ite_canon (setB_canon h) (linkStart_canon (setB_canon h))) h⟩

theorem execRootPllLock_canon {us : Nat} (h : CanonBut P s) : NextCanon P (execRootPllLock us s) :=
  ⟨_, rfl, onlyIf_canon (fun _ h => setF_canon (setF_canon (setB_canon (h.upd rfl rfl)))) h⟩

theorem clocksDark_canon (h : CanonBut P s) : CanonBut P (clocksDark s) :=
  setB_canon (setB_canon (setB_canon (setB_canon (setF_canon (setB_canon h)))))

theorem execPowerOnResetAssert_canon {rail : Rail} {vbatOk : Bool} (h : CanonBut P s) : NextCanon P (execPowerOnResetAssert rail vbatOk s) := by
  refine ⟨_, rfl, ?_⟩
  refine onlyIf_canon (fun _ h => ?_) h
  extract_lets old onVbat keep _ s0 s1 _
  have hs0 : CanonBut P s0 := h.reset rfl rfl
  have hs1 : CanonBut P s1 := setF_canon (clocksDark_canon hs0)
  exact ite_canon (aonLog_canon (setF_canon hs1)) (setF_canon (hs1.upd rfl rfl))

theorem execAonSupplyLoss_canon (h : CanonBut P s) : NextCanon P (execAonSupplyLoss s) := by
  refine ⟨_, rfl, onlyIf_canon (fun s h => ?_) h⟩
  have h1 : CanonBut P (applyAll aonFields setFree s) := applyAll_canon (fun _ _ h => setFree_canon h) h
  have h2 : CanonBut P (drawFree 15 (drawFree 32 (applyAll aonFields setFree s)).2).2 := drawFree_canon (drawFree_canon h1)
  exact setF_canon (setF_canon (h2.upd rfl rfl))

theorem domainOnIo0_canon (h : CanonBut P s) : CanonBut P (domainOnIo0 s) :=
  ite_canon (setMode_canon (h.upd rfl rfl)) (h.upd rfl rfl)

theorem execSuppliesValid_canon (h : CanonBut P s) : NextCanon P (execSuppliesValid s) :=
  ⟨_, rfl, onlyIf_canon (fun _ h => domainOnIo0_canon (h.upd rfl rfl)) h⟩

theorem wakeCause_canon (h : CanonBut P s) : CanonBut P (wakeCause s) :=
  setF_canon (iteElse_canon (iteElse_canon (iteElse_canon (iteElse_canon (iteElse_canon
    (iteApp_canon (setB_canon (setB_canon h)) (setB_canon h)) fun h1 => setB_canon h1) fun h1 => setB_canon h1) fun h1 => setB_canon h1)
    fun h1 => setB_canon h1) fun h1 => setB_canon h1)

theorem execPowerOnResetRelease_canon {role boot : Nat} {wpol : Bool} (h : CanonBut P s) :
    NextCanon P (execPowerOnResetRelease role boot wpol s) := by
  refine ⟨_, rfl, ?_⟩
  refine onlyIf_canon (fun _ h => ?_) h
  extract_lets back _ s1 s2 s3 s4 s5 s6
  have hs1 : CanonBut P s1 := setMode_canon (h.upd rfl rfl)
  have hs2 : CanonBut P s2 := setF_canon (setF_canon (setB_canon (setF_canon hs1)))
  have hs3 : CanonBut P s3 := setB_canon hs2
  have hs4 : CanonBut P s4 := ite_canon (rstCause_canon hs3) hs3
  have hs5 : CanonBut P s5 := ite_canon (wakeCause_canon (aonLog_canon hs4)) hs4
  have hs6 : CanonBut P s6 := ledgerLoad_canon hs5
  exact pllTry_canon (ite_canon (linkStart_canon hs6) hs6)

theorem tileDown_canon {n : Nat} (h : CanonBut P s) : CanonBut P (tileDown n s) :=
  ite_canon (canGoto_canon (setCan_canon (canFlush_canon (setTileBit_canon h)))) (serQuiet_canon (serFlush_canon (setTileBit_canon h)))

theorem tileWaits_canon {n : Nat} (h : CanonBut P s) : CanonBut P (tileWaits n s) :=
  ite_canon (setF_canon (setUnit_canon h)) (setF_canon (setUnit_canon h))

theorem pcieDown_canon (h : CanonBut P s) : CanonBut P (pcieDown s) :=
  setB_canon (setF_canon (setF_canon (h.upd rfl rfl)))

theorem bootPortsDown_canon (h : CanonBut P s) : CanonBut P (bootPortsDown s) :=
  applyAll_canon (fun _ _ h => ite_canon (setB_canon h) h) (h.upd rfl rfl)

theorem bootPortsBack_canon (h : CanonBut P s) : CanonBut P (bootPortsBack s) :=
  ite_canon (h.upd rfl rfl) h

theorem fence_canon {c : Nat} {units : List Nat} (h : CanonBut P s) : CanonBut P (fence c units s) := by
  unfold fence
  split
  · exact applyAll_canon (fun _ _ h => tileDown_canon h) h
  · exact applyAll_canon (fun _ _ h => portStop_canon h) h
  · exact applyAll_canon (fun _ _ h => portStop_canon h) h
  · exact applyAll_canon (fun _ _ h => portStop_canon h) h
  · exact lampsOff_canon (coastAll_canon h)
  · exact refreshAdc_canon (coastAll_canon h)
  · exact applyAll_canon (fun _ _ h => fenceLodger_canon h) h
  · exact declare_canon (pcieDown_canon h)
  · exact h

theorem setCause_canon {c : Nat} {units : List Nat} (h : CanonBut P s) : CanonBut P (setCause c units s) :=
  ite_canon h (refreshMode_canon (standbyTrigger_canon (fence_canon (orF_canon (orF_canon h)))))

theorem clearCause_canon {c : Nat} (h : CanonBut P s) : CanonBut P (clearCause c s) :=
  refreshMode_canon (clrF_canon h)

theorem showRail_canon {r : Rail} {ok : Bool} (h : CanonBut P s) : CanonBut P (showRail r ok s) := by
  unfold showRail
  split
  · exact ite_canon (orF_canon h) (clrF_canon h)
  · split
    · exact setB_canon h
    · exact h

theorem railCause_canon {r : Rail} (h : CanonBut P s) : CanonBut P (railCause r s) := by
  unfold railCause
  split
  · exact ite_canon h (setCause_canon h)
  · exact ite_canon h (setCause_canon h)
  · exact iteThen_canon (bootPortsDown_canon (pcieDown_canon (h.upd rfl rfl))) fun h1 => setCause_canon h1
  · exact ite_canon h (setCause_canon h)
  · exact ite_canon (setCause_canon h) h
  · exact ite_canon (setCause_canon h) (refreshAdc_canon h)
  · exact ite_canon (setCause_canon h) h
  · exact h

theorem execRailWarnCrossing_canon {r : Rail} (h : CanonBut P s) : NextCanon P (execRailWarnCrossing r s) := by
  refine ⟨_, rfl, ?_⟩
  refine onlyIf_canon (fun _ h => ?_) h
  split
  · exact raise_canon (setB_canon h)
  · exact raise_canon (setB_canon h)
  · exact raise_canon (setB_canon h)
  · exact h

theorem execRailFailCrossing_canon {r : Rail} (h : CanonBut P s) : NextCanon P (execRailFailCrossing r s) := by
  refine ⟨_, rfl, ?_⟩
  refine ite_canon (clocksDark_canon (h.upd rfl rfl)) (ite_canon (clocksDark_canon (h.upd rfl rfl)) (onlyIf_canon (fun _ h => ?_) h))
  extract_lets _ s0 s1 _
  have hs0 : CanonBut P s0 := by
    unfold s0
    split
    · exact h.upd rfl rfl
    · exact h
  have hs1 : CanonBut P s1 := raise_canon (setB_canon (showRail_canon hs0))
  exact ite_canon (showRail_canon hs0) (ite_canon (ite_canon (clockFault_canon hs1) (hs1.upd rfl rfl)) (railCause_canon hs1))

theorem railBack_canon {r : Rail} (h : CanonBut P s) : CanonBut P (railBack r s) := by
  unfold railBack
  split
  · exact pllTry_canon h
  · exact ite_canon (iteElse_canon (refreshBase_canon (applyAll_canon (fun _ _ h => tileWaits_canon h) h)) fun h1 => clearCause_canon h1) h
  · exact clearCause_canon h
  · exact bootPortsBack_canon (ite_canon (clearCause_canon h) h)
  · exact clearCause_canon h
  · exact clearCause_canon h
  · exact refreshAdc_canon (clearCause_canon h)
  · exact h

theorem execRailValid_canon {r : Rail} {classMv : Option Nat} (h : CanonBut P s) : NextCanon P (execRailValid r classMv s) := by
  refine ⟨_, rfl, ?_⟩
  refine ite_canon (onlyIf_canon (fun _ h => domainOnIo0_canon h) h) (onlyIf_canon (fun _ h => railBack_canon (showRail_canon ?_)) h)
  split
  · exact ite_canon h (ite_canon (ite_canon (orF_canon (h.upd rfl rfl)) (clrF_canon (h.upd rfl rfl))) (h.upd rfl rfl))
  · exact h

theorem execPllLockLossOther_canon {p : SidePll} (h : CanonBut P s) : NextCanon P (execPllLockLossOther p s) := by
  refine ⟨_, rfl, ?_⟩
  split
  · exact onlyIf_canon (fun _ h => iteElse_canon (raise_canon (setB_canon (incF_canon (setB_canon h)))) fun h1 => setCause_canon h1) h
  · exact onlyIf_canon (fun _ h => iteThen_canon (iteElse_canon (raise_canon (orF_canon (incF_canon (clrF_canon h)))) fun h1 =>
      bootPortsDown_canon h1) fun h1 => setCause_canon h1) h
  · exact onlyIf_canon (fun _ h => iteElse_canon (pcieDown_canon (raise_canon (setB_canon (setB_canon h)))) fun h1 => setCause_canon h1) h

theorem execSerdesPllRelock_canon {g : Nat} (h : CanonBut P s) : NextCanon P (execSerdesPllRelock g s) :=
  ⟨_, rfl, onlyIf_canon (fun _ h => iteElse_canon (ite_canon (bootPortsBack_canon (orF_canon h)) (orF_canon h)) fun h1 => clearCause_canon h1) h⟩

theorem execPcieRefStable_canon (h : CanonBut P s) : NextCanon P (execPcieRefStable s) :=
  ⟨_, rfl, clearCause_canon (setB_canon h)⟩

theorem shed_canon (h : CanonBut P s) : CanonBut P (shed s) :=
  setB_canon (applyAll_canon (fun _ _ h => portStop_canon h) ((groupsOff_canon (coastAll_canon h)).upd rfl rfl))

theorem execPfailFall_canon (h : CanonBut P s) : NextCanon P (execPfailFall s) :=
  ⟨_, rfl, onlyIf_canon (fun _ h => ite_canon (h.upd rfl rfl) (iteElse_canon
    (ledgerSave_canon (raise_canon (setB_canon (setB_canon (h.upd rfl rfl))))) fun h1 => shed_canon h1)) h⟩

theorem execPfailRise_canon (h : CanonBut P s) : NextCanon P (execPfailRise s) :=
  ⟨_, rfl, ite_canon (h.upd rfl rfl) (setB_canon (h.upd rfl rfl))⟩

theorem execPfailRestoreExpiry_canon (h : CanonBut P s) : NextCanon P (execPfailRestoreExpiry s) :=
  ⟨_, rfl, onlyIf_canon (fun _ h => setB_canon (h.upd rfl rfl)) h⟩

theorem wipeRam_canon {w : World} (h : CanonBut P s) : CanonBut P (wipeRam w s) := ⟨memWf_filter _ h.1, h.2⟩

theorem wdsRestart_canon (h : CanonBut P s) : CanonBut P (wdsRestart s) :=
  h.upd rfl rfl

theorem worldReset_canon {w : World} {cause : Fld} {decl : Nat} (h : CanonBut P s) : CanonBut P (worldReset w cause decl s) := by
  unfold worldReset
  extract_lets s1 s2 s3
  have hs1 : CanonBut P s1 := rstCause_canon h
  have hs2 : CanonBut P s2 := declareWorld_canon (ringsReset_canon (canWorldReset_canon (wipeRam_canon hs1)))
  have hs3 : CanonBut P s3 := ite_canon (setB_canon (setF_canon (setB_canon (setF_canon hs2)))) (wdsRestart_canon hs2)
  exact ite_canon hs1 (setCause_canon hs3)

theorem rstctlWrite_canon {rq : Requester} {action key : Nat} (h : CanonBut P s) : CanonBut P (rstctlWrite rq action key s) := by
  refine ite_canon (busError_canon h) ?_
  split
  · exact secureOnly_canon (fun _ h => fullReset_canon (busDone_canon h)) h
  · exact worldReset_canon (busDone_canon h)
  · exact secureOnly_canon (fun _ h => worldReset_canon (busDone_canon h)) h
  · exact busDone_canon h

theorem execSystemSoftwareReset_canon {rq : Requester} {key : Nat} (h : CanonBut P s) : NextCanon P (execSystemSoftwareReset rq key s) :=
  ⟨_, rfl, gate_canon (fun _ h => rstctlWrite_canon h) h⟩

theorem execNormalWorldResetCmd_canon {rq : Requester} {key : Nat} (h : CanonBut P s) : NextCanon P (execNormalWorldResetCmd rq key s) :=
  ⟨_, rfl, gate_canon (fun _ h => rstctlWrite_canon h) h⟩

theorem execSecureWorldResetCmd_canon {rq : Requester} {key : Nat} (h : CanonBut P s) : NextCanon P (execSecureWorldResetCmd rq key s) :=
  ⟨_, rfl, gate_canon (fun _ h => rstctlWrite_canon h) h⟩

theorem wdnRestart_canon (h : CanonBut P s) : CanonBut P (wdnRestart s) :=
  setF_canon h

theorem wdnWrite_canon {w : Word} (h : CanonBut P s) : CanonBut P (wdnWrite w s) :=
  ite_canon (busError_canon h) (iteElse_canon (setF_canon (busDone_canon h)) fun h1 => wdnRestart_canon (setB_canon h1))

theorem execNormalWatchdogEnable_canon {rq : Requester} {w : Word} (h : CanonBut P s) : NextCanon P (execNormalWatchdogEnable rq w s) :=
  ⟨_, rfl, gate_canon (fun _ h => wdnWrite_canon h) h⟩

theorem wdnKick_canon {key : Nat} (h : CanonBut P s) : CanonBut P (wdnKick key s) :=
  ite_canon (wdnRestart_canon (setB_canon (busDone_canon h))) (busDone_canon h)

theorem execNormalWatchdogKick_canon {rq : Requester} {key : Nat} (h : CanonBut P s) : NextCanon P (execNormalWatchdogKick rq key s) :=
  ⟨_, rfl, gate_canon (fun _ h => wdnKick_canon h) h⟩

theorem execNormalWatchdogExpiry_canon (h : CanonBut P s) : NextCanon P (execNormalWatchdogExpiry s) :=
  ⟨_, rfl, onlyIf_canon (fun _ h => ite_canon (worldReset_canon h) (raise_canon (wdnRestart_canon (setB_canon h)))) h⟩

theorem cmdSecureWatchdogKick_canon {rq : Requester} {key : Nat} (h : CanonBut P s) : CanonBut P (cmdSecureWatchdogKick rq key s) :=
  secureOnly_canon (fun _ h => ite_canon (wdsRestart_canon (busDone_canon h)) (busDone_canon h)) h

theorem execSecureWatchdogKick_canon {rq : Requester} {key : Nat} (h : CanonBut P s) : NextCanon P (execSecureWatchdogKick rq key s) :=
  ⟨_, rfl, gate_canon (fun _ h => cmdSecureWatchdogKick_canon h) h⟩

theorem execSecureWatchdogExpiry_canon (h : CanonBut P s) : NextCanon P (execSecureWatchdogExpiry s) :=
  ⟨_, rfl, onlyIf_canon (fun _ h => raise_canon (worldReset_canon h)) h⟩

theorem readyWrite_canon {rq : Requester} {w : Word} (h : CanonBut P s) : CanonBut P (readyWrite rq w s) :=
  ite_canon (ite_canon (busError_canon h) (ite_canon (clearCause_canon (busDone_canon h)) (busDone_canon h)))
    (ite_canon (busError_canon h) (ite_canon (clearCause_canon (busDone_canon h)) (busDone_canon h)))

theorem execPwrReadyWrite_canon {rq : Requester} {w : Word} (h : CanonBut P s) : NextCanon P (execPwrReadyWrite rq w s) :=
  ⟨_, rfl, gate_canon (fun _ h => readyWrite_canon h) h⟩

theorem standbyRefuse_canon {why : Nat} (h : CanonBut P s) : CanonBut P (standbyRefuse why s) :=
  setB_canon (setF_canon h)

theorem modeReqWrite_canon {w : Word} (h : CanonBut P s) : CanonBut P (modeReqWrite w s) :=
  ite_canon (busError_canon h) (ite_canon (busDone_canon h) (ite_canon (standbyRefuse_canon (busDone_canon h))
    (ite_canon (standbyRefuse_canon (busDone_canon h)) (ite_canon (standbyRefuse_canon (busDone_canon h))
    (ite_canon (standbyRefuse_canon (busDone_canon h)) (ite_canon (standbyRefuse_canon (busDone_canon h))
    ((lampsOff_canon (busDone_canon h)).upd rfl rfl)))))))

theorem execStandbyRequest_canon {rq : Requester} {w : Word} (h : CanonBut P s) : NextCanon P (execStandbyRequest rq w s) :=
  ⟨_, rfl, gate_canon (fun _ h => modeReqWrite_canon h) h⟩

theorem execStandbyCoreWaitTimeout_canon (h : CanonBut P s) : NextCanon P (execStandbyCoreWaitTimeout s) :=
  ⟨_, rfl, onlyIf_canon (fun _ h => standbyRefuse_canon (h.upd rfl rfl)) h⟩

theorem restartPeriods_canon (h : CanonBut P s) : CanonBut P (restartPeriods s) :=
  h.upd rfl rfl

theorem advanceNs_canon {ns : Nat} (h : CanonBut P s) : CanonBut P (advanceNs ns s) := by
  unfold advanceNs
  exact h.upd rfl rfl

theorem execStandbyExit_canon {refCycles : Nat} (h : CanonBut P s) : NextCanon P (execStandbyExit refCycles s) := by
  refine ⟨_, rfl, ?_⟩
  refine onlyIf_canon (fun _ h => ?_) h
  extract_lets _ s1 s2 s3 _ s4
  have hs1 : CanonBut P s1 := setB_canon (setF_canon (advanceNs_canon (h.upd rfl rfl)))
  have hs2 : CanonBut P s2 := wakeRelease_canon (restartPeriods_canon hs1)
  have hs3 : CanonBut P s3 := setF_canon (setF_canon hs2)
  have hs4 : CanonBut P s4 := releaseHeld_canon (hs3.upd rfl rfl)
  exact refreshAdc_canon (refreshBase_canon hs4)

theorem execLifecycleBurnDone_canon (h : CanonBut P s) : NextCanon P (execLifecycleBurnDone s) := by
  refine ⟨_, rfl, ?_⟩
  split
  · exact h
  · exact fullReset_canon (h.upd rfl rfl)

/-! ## The functions of Machine/Ploilhan.lean -/

theorem hieOut_canon {p : Nat} {boot : Bool} {f : List Byte} (h : CanonBut P s) : CanonBut P (hieOut p boot f s) :=
  ite_canon (ite_canon (unitFrame_canon h) h) (ite_canon (emit_canon h) h)

theorem consistSlot_canon (h : CanonBut P s) : CanonBut P (consistSlot s).2 :=
  hwLoad_canon h

theorem nextCounter_canon (h : CanonBut P s) : CanonBut P (nextCounter s).2 :=
  iteSnd_canon (h.upd rfl rfl) (setF_canon (storeWrite_canon (h.upd rfl rfl)))

theorem hieSend_canon {type dst : Nat} {boot : Bool} {payload : List Byte} (h : CanonBut P s) :
    CanonBut P (hieSend type dst boot payload s) := by
  refine ite_canon (incF_canon (applyAll_canon (fun _ _ h => hieOut_canon h) h)) ?_
  split
  · next e1 => exact (consistSlot_canon h).of_eq e1
  · next e1 =>
      extract_lets c msg
      have hc : CanonBut P c.2 := nextCounter_canon ((consistSlot_canon h).of_eq e1)
      split
      · next e2 => exact (hwCmac_canon hc).of_eq e2
      · next e2 => exact incF_canon (applyAll_canon (fun _ _ h => hieOut_canon h) ((hwCmac_canon hc).of_eq e2))

theorem relay_canon {p : Nat} {f : List Byte} (h : CanonBut P s) : CanonBut P (relay p f s) :=
  ite_canon h (hieOut_canon h)

theorem takeMsg_canon {type : Nat} {ok : PMsg → Bool} {g : PMsg → State → State} (hg : ∀ x s, CanonBut P s → CanonBut P (g x s))
    (h : CanonBut P s) : CanonBut P (takeMsg type ok g s) := by
  unfold takeMsg
  split
  · exact h
  · exact ite_canon (hg _ _ (h.upd rfl rfl)) h

/-! ## The functions of Machine/Loader.lean -/

theorem bringUp_canon (h : CanonBut P s) : CanonBut P (bringUp s) :=
  ite_canon (h.upd rfl rfl) h

theorem ddrDecide_canon (h : CanonBut P s) : CanonBut P (ddrDecide s) :=
  h.upd rfl rfl

theorem clearNodes_canon (h : CanonBut P s) : CanonBut P (clearNodes s) :=
  applyAll_canon (fun _ _ h => storeWrite_canon h) (h.upd rfl rfl)

theorem genRoot_canon (h : CanonBut P s) : CanonBut P (genRoot s) :=
  ite_canon h (ite_canon (clearNodes_canon (h.upd rfl rfl)) (ite_canon (clearNodes_canon (h.upd rfl rfl)) (h.upd rfl rfl)))

theorem drbgStart_canon (h : CanonBut P s) : CanonBut P (drbgStart s) :=
  ite_canon h (setB_canon (h.upd rfl rfl))

theorem showFail_canon {f : ImgFail} (h : CanonBut P s) : CanonBut P (showFail f s) :=
  setF_canon (setF_canon (setF_canon (setF_canon h)))

theorem quarantine_canon {f : ImgFail} (h : CanonBut P s) : CanonBut P (quarantine f s) := by
  unfold quarantine
  extract_lets s1 _
  have hs1 : CanonBut P s1 := setF_canon (setF_canon (showFail_canon h))
  exact setMode_canon (setF_canon (setF_canon (hs1.upd rfl rfl)))

theorem flashRead_canon {off n dummy : Nat} {cmd : List Byte} (h : CanonBut P s) : CanonBut P (flashRead off n dummy cmd s) :=
  emit_canon h

theorem headerPhase_canon (h : CanonBut P s) : CanonBut P (headerPhase s) :=
  flashRead_canon (setF_canon (setF_canon (setB_canon h)))

theorem loadFail_canon {f : ImgFail} (h : CanonBut P s) : CanonBut P (loadFail f s) :=
  ite_canon (headerPhase_canon (setF_canon (setB_canon (setF_canon (h.upd rfl rfl))))) (quarantine_canon h)

theorem requestPieces_canon {img first count : Nat} (h : CanonBut P s) : CanonBut P (requestPieces img first count s) :=
  hieSend_canon h

theorem execLoadingEntry_canon (h : CanonBut P s) : NextCanon P (execLoadingEntry s) := by
  refine ⟨_, rfl, ?_⟩
  refine onlyIf_canon (fun _ h => ?_) h
  extract_lets s1 s2
  have hs1 : CanonBut P s1 := drbgStart_canon (genRoot_canon (ddrDecide_canon h))
  have hs2 : CanonBut P s2 := bringUp_canon (setMode_canon hs1)
  exact ite_canon (quarantine_canon hs2) (ite_canon (requestPieces_canon (setF_canon hs2)) (headerPhase_canon hs2))

theorem execBootQuarantine_canon (h : CanonBut P s) : NextCanon P (execBootQuarantine s) :=
  ⟨_, rfl, onlyIf_canon (fun _ h => quarantine_canon (bringUp_canon (ddrDecide_canon h))) h⟩

theorem execImageHeaderCheck_canon {hdr : List Byte} (h : CanonBut P s) : NextCanon P (execImageHeaderCheck hdr s) := by
  refine ⟨_, rfl, ?_⟩
  refine onlyIf_canon (fun _ h => ?_) h
  split
  · exact loadFail_canon h
  · exact flashRead_canon (setF_canon (setF_canon (setB_canon (h.upd rfl rfl))))

theorem execImageVerify_canon {img : List Byte} (h : CanonBut P s) : NextCanon P (execImageVerify img s) := by
  refine ⟨_, rfl, ?_⟩
  refine onlyIf_canon (fun _ h => ?_) h
  split
  · exact loadFail_canon h
  · exact setF_canon (setF_canon ((ite_canon (wearBump_canon (setF_canon (setMode_canon h))) h).upd rfl rfl))

theorem tableRegs_canon {t : TableRec} (h : CanonBut P s) : CanonBut P (tableRegs t s) :=
  setF_canon (setF_canon (setB_canon (setB_canon h)))

theorem seedsReset_canon (h : CanonBut P s) : CanonBut P (seedsReset s) :=
  setF_canon (setF_canon (setF_canon (setF_canon (setF_canon (applyAll_canon (fun _ _ h => setF_canon h) h)))))

theorem execBuild_canon {ddrOk : Bool} (h : CanonBut P s) : NextCanon P (execBuild ddrOk s) := by
  refine ⟨_, rfl, ?_⟩
  dsimp only
  refine onlyIf_canon (fun _ h => ?_) h
  split
  · exact loadFail_canon (ite_canon (setB_canon h) h)
  · exact (ite_canon (setB_canon h) h).upd rfl rfl

/-! ## The functions of Machine/CutOver.lean -/

theorem tileClear_canon {n : Nat} (h : CanonBut P s) : CanonBut P (tileClear n s) :=
  setTileBit_canon (setTileBit_canon (setTileBit_canon (setF_canon (setF_canon
    (setF_canon (setF_canon (setB_canon (setF_canon (h.dropRegs rfl rfl)))))))))

theorem tileForm_canon {t : TileRec} (h : CanonBut P s) : CanonBut P (tileForm t s) := by
  unfold tileForm
  extract_lets n pins s1 s2
  have hs1 : CanonBut P s1 := setF_canon (setF_canon (setF_canon (setF_canon (setB_canon (setF_canon (tileClear_canon h))))))
  have hs2 : CanonBut P s2 := setF_canon hs1
  exact ite_canon (setF_canon hs1) (ite_canon (setF_canon hs2) hs2)

theorem portForm_canon {b : BindRec} (h : CanonBut P s) : CanonBut P (portForm b s) :=
  ite_canon (setF_canon h) (ite_canon (setF_canon (setF_canon h)) h)

theorem portStart_canon {p : Nat} (h : CanonBut P s) : CanonBut P (portStart p s) :=
  ite_canon (plcaUp_canon h) h

theorem cabForm_canon {c : CabRec} (h : CanonBut P s) : CanonBut P (cabForm c s) := by
  unfold cabForm
  split
  · exact setF_canon (setF_canon (setF_canon (setF_canon (setF_canon (setB_canon
      (setF_canon (setF_canon (setF_canon (setF_canon (setF_canon (setF_canon h)))))))))))
  · exact setF_canon h
  · exact setB_canon (setF_canon (setF_canon (setF_canon (setF_canon (setF_canon (setF_canon h))))))

theorem policyForm_canon {p : PolicyRec} (h : CanonBut P s) : CanonBut P (policyForm p s) :=
  setB_canon (setB_canon (setB_canon (setF_canon (setF_canon (setF_canon (setF_canon
    (setF_canon (setF_canon (setF_canon (setF_canon (setF_canon (setF_canon
    (setF_canon (setF_canon (setF_canon (setF_canon (setF_canon (setF_canon
    (setF_canon (setF_canon (setF_canon (debounceLength_canon (applyPolarity_canon h)))))))))))))))))))))))

theorem presetReg_canon {r : RegRec} (h : CanonBut P s) : CanonBut P (presetReg r s) := by
  refine ite_canon (setCb_canon h) (ite_canon (ite_canon (bankSwap_canon h) h) (ite_canon (freshWrite_canon h) ?_))
  split
  · exact h
  · exact ite_canon (applyStaged_canon h) (writeFields_canon h)

theorem applyRegset_canon {l : List RegRec} (h : CanonBut P s) : CanonBut P (applyRegset l s) :=
  applyAll_canon (fun _ _ h => gateCommit_canon h) (applyAll_canon (fun _ _ h => presetReg_canon h) h)

theorem formPools_canon (h : CanonBut P s) : CanonBut P (formPools s) :=
  setF_canon (setF_canon (setF_canon (setB_canon (setF_canon (setF_canon h)))))

theorem lodgerNew_canon {lid : Nat} (h : CanonBut P s) : CanonBut P (lodgerNew lid s) :=
  iteThen_canon (setLodger_canon (h.upd rfl rfl)) fun h1 => ite_canon (setLodger_canon (h.upd rfl rfl))
    (ite_canon (setLodger_canon (h.upd rfl rfl)) (ite_canon (pinIn_canon h1) h1))

theorem hieStart_canon (h : CanonBut P s) : CanonBut P (hieStart s) := by
  refine ite_canon h ?_
  extract_lets n _ s1 s2 _ _ d t _ s3
  have hs1 : CanonBut P s1 := storeWrite_canon (setF_canon (h.upd rfl rfl))
  have hs2 : CanonBut P s2 := by
    unfold s2
    split
    · next e => exact setSlot_canon ((consistSlot_canon hs1).of_eq e)
    · next e => exact (consistSlot_canon hs1).of_eq e
  split
  · exact setF_canon (setF_canon (setB_canon (setB_canon (setF_canon (setF_canon (storeWrite_canon (hs2.upd rfl rfl)))))))
  · have ht : CanonBut P t := drbgBytes_canon hs2
    have hs3 : CanonBut P s3 := ht.upd rfl rfl
    exact ite_canon (setF_canon hs3) hs3

theorem recordCauses_canon {l : List (Nat × List Nat)} (h : CanonBut P s) : CanonBut P (recordCauses l s) :=
  applyAll_canon (fun _ _ h => fence_canon (orF_canon (orF_canon h))) h

theorem evcActivate_canon (h : CanonBut P s) : CanonBut P (evcActivate s) :=
  applyAll_canon (fun _ _ h => raiseNow_canon h) (setB_canon (h.upd rfl rfl))

theorem showDigest_canon {d : List Byte} (h : CanonBut P s) : CanonBut P (showDigest d s) :=
  applyAll_canon (fun _ _ h => setF_canon h) h

theorem countL2_canon (h : CanonBut P s) : CanonBut P (countL2 s) :=
  setF_canon h

theorem trnIndex_canon (h : CanonBut P s) : CanonBut P (trnIndex s) :=
  setF_canon (setF_canon h)

theorem formAll_canon {x : Structure} (h : CanonBut P s) : CanonBut P (formAll x s) := by
  unfold formAll
  extract_lets s1 s2 s3
  have hs1 : CanonBut P s1 := applyAll_canon (fun _ _ h => tileForm_canon h) (h.upd rfl rfl)
  have hs2 : CanonBut P s2 := applyAll_canon (fun _ _ h => cabForm_canon h) (applyAll_canon (fun _ _ h => portForm_canon h) hs1)
  have hs3 : CanonBut P s3 := trnIndex_canon (countL2_canon (applyAll_canon (fun _ _ h => tableRegs_canon h) hs2))
  exact applyRegset_canon (policyForm_canon hs3)

theorem execCutOver_canon (h : CanonBut P s) : NextCanon P (execCutOver s) := by
  refine ⟨_, rfl, ?_⟩
  refine onlyIf_canon (fun _ h => ?_) h
  extract_lets h' x d _ _ s1 s2 s3 s4 s5 s6 s7 s8 s9
  have hs1 : CanonBut P s1 := formAll_canon (h.upd rfl rfl)
  have hs2 : CanonBut P s2 := applyAll_canon (fun _ _ h => setB_canon h) hs1
  have hs3 : CanonBut P s3 := formPools_canon (applyAll_canon (fun _ _ h => lodgerNew_canon h) hs2)
  have hs4 : CanonBut P s4 := setF_canon (setF_canon (setF_canon (setF_canon (setF_canon (showDigest_canon hs3)))))
  have hs5 : CanonBut P s5 := setF_canon (setF_canon (setF_canon hs4))
  have hs6 : CanonBut P s6 := recordCauses_canon (hieStart_canon hs5)
  have hs7 : CanonBut P s7 := setMode_canon hs6
  have hs8 : CanonBut P s8 := applyAll_canon (fun _ _ h => portStart_canon h) (evcActivate_canon (ite_canon hs7 (pcieDown_canon hs7)))
  have hs9 : CanonBut P s9 := ratedChanged_canon (refreshAdc_canon hs8)
  exact ite_canon (shed_canon hs9) hs9

theorem startup_canon (h : CanonBut P s) : CanonBut P (startup s) :=
  setB_canon (setF_canon h)

theorem execTileStart_canon {n : Nat} (h : CanonBut P s) : NextCanon P (execTileStart n s) := by
  refine ⟨_, rfl, ?_⟩
  refine onlyIf_canon (fun _ h => ?_) h
  exact startup_canon (ite_canon (ite_canon (canGoto_canon (setCan_canon (setTileBit_canon (h.upd rfl rfl))))
    (canGoto_canon (setTileBit_canon (h.upd rfl rfl)))) (ite_canon (linWakeStart_canon (setTileBit_canon (h.upd rfl rfl)))
    (serStart_canon (setTileBit_canon (h.upd rfl rfl)))))

theorem execCanIntegrationDone_canon {n : Nat} (h : CanonBut P s) : NextCanon P (execCanIntegrationDone n s) :=
  ⟨_, rfl, onlyIf_canon (fun _ h => canGoto_canon h) h⟩

theorem execAllowanceRampTick_canon (h : CanonBut P s) : NextCanon P (execAllowanceRampTick s) :=
  ⟨_, rfl, onlyIf_canon (fun _ h => startup_canon (incF_canon h)) h⟩

/-! ## The functions of Machine/Delta.lean -/

theorem deltaRefuse_canon {why : Nat} (h : CanonBut P s) : CanonBut P (deltaRefuse why s) :=
  setB_canon (setF_canon h)

theorem deltaReport_canon {owner : Nat} (h : CanonBut P s) : CanonBut P (deltaReport owner s) :=
  ite_canon (hieSend_canon h) h

theorem sessionClear_canon {code : Nat} (h : CanonBut P s) : CanonBut P (sessionClear code s) :=
  setF_canon (setB_canon (setF_canon (setF_canon (h.upd rfl rfl))))

theorem deltaEnd_canon {code : Nat} (h : CanonBut P s) : CanonBut P (deltaEnd code s) :=
  ite_canon h (deltaReport_canon (sessionClear_canon (setLease_canon h)))

theorem execStandbyEntryComplete_canon (h : CanonBut P s) : NextCanon P (execStandbyEntryComplete s) :=
  ⟨_, rfl, onlyIf_canon (fun _ h => refreshAdc_canon (setMode_canon (setB_canon
    (setF_canon ((ledgerSave_canon (deltaEnd_canon h)).upd rfl rfl))))) h⟩

theorem deltaOpen_canon {rq : Requester} (h : CanonBut P s) : CanonBut P (deltaOpen rq s) := by
  refine ite_canon (deltaRefuse_canon h) (ite_canon (deltaRefuse_canon h) ?_)
  split
  · exact setB_canon (setFree_canon (countFull_canon h))
  · next e1 => exact setF_canon (setF_canon (setF_canon (setF_canon ((grantLease_canon h e1).upd rfl rfl))))

theorem cmdDeltaOpen_canon {rq : Requester} (h : CanonBut P s) : CanonBut P (cmdDeltaOpen rq s) :=
  deltaOpen_canon (busDone_canon h)

theorem execDeltaOpen_canon {rq : Requester} (h : CanonBut P s) : NextCanon P (execDeltaOpen rq s) :=
  ⟨_, rfl, gate_canon (fun _ h => cmdDeltaOpen_canon h) h⟩

theorem deltaDeliver_canon {off len : Nat} {src : Option (List Byte)} (h : CanonBut P s) : CanonBut P (deltaDeliver off len src s) :=
  ite_canon (deltaRefuse_canon h) (ite_canon (deltaRefuse_canon h) (setB_canon (setLease_canon (h.upd rfl rfl))))

theorem cmdDeltaDelivery_canon {rq : Requester} {w : Word} (h : CanonBut P s) : CanonBut P (cmdDeltaDelivery rq w s) :=
  ite_canon (busDone_canon h) (ite_canon (busError_canon h) (deltaDeliver_canon (busDone_canon h)))

theorem execDeltaDelivery_canon {rq : Requester} {w : Word} (h : CanonBut P s) : NextCanon P (execDeltaDelivery rq w s) :=
  ⟨_, rfl, gate_canon (fun _ h => cmdDeltaDelivery_canon h) h⟩

theorem headPiece_canon {b : List Byte} (h : CanonBut P s) : CanonBut P (headPiece b s) := by
  refine ite_canon ?_ (ite_canon (h.upd rfl rfl) (deltaRefuse_canon h))
  split
  · exact deltaEnd_canon (setF_canon (showFail_canon h))
  · exact ite_canon (h.upd rfl rfl) (deltaRefuse_canon h)

theorem blockPiece_canon {blk off bad : Nat} {b : List Byte} (h : CanonBut P s) : CanonBut P (blockPiece blk off bad b s) := by
  refine ite_canon h ?_
  split
  · next e1 => exact incF_canon ((hwLoad_canon h).of_eq e1)
  · next e1 =>
      split
      · next e2 => exact incF_canon ((hwCmac_canon ((hwLoad_canon h).of_eq e1)).of_eq e2)
      · next e2 =>
        exact ite_canon (setF_canon (((hwCmac_canon ((hwLoad_canon h).of_eq e1)).of_eq e2).upd rfl rfl))
          (incF_canon ((hwCmac_canon ((hwLoad_canon h).of_eq e1)).of_eq e2))

theorem execDeltaDeliveryDone_canon {bad : Nat} (h : CanonBut P s) : NextCanon P (execDeltaDeliveryDone bad s) := by
  refine ⟨_, rfl, ?_⟩
  split
  · exact h
  · extract_lets owner _ s1 _ s2
    have hs1 : CanonBut P s1 := setB_canon (h.upd rfl rfl)
    have hs2 : CanonBut P s2 := by
      unfold s2
      split
      · exact deltaRefuse_canon hs1
      · split
        · exact headPiece_canon hs1
        · exact ite_canon (headPiece_canon hs1) (ite_canon (hs1.upd rfl rfl) (blockPiece_canon hs1))
    exact ite_canon hs2 (deltaReport_canon hs2)

theorem closeFail_canon {f : ImgFail} (h : CanonBut P s) : CanonBut P (closeFail f s) :=
  raise_canon (deltaEnd_canon (setF_canon (showFail_canon h)))

theorem deltaClose_canon (h : CanonBut P s) : CanonBut P (deltaClose s) := by
  refine ite_canon (deltaRefuse_canon h) (ite_canon (closeFail_canon h) ?_)
  dsimp only
  split
  · exact closeFail_canon h
  · have hl : CanonBut P (setLease s.loader.lease {} s) := setLease_canon h
    exact deltaReport_canon (refreshMode_canon (setF_canon (setF_canon (setF_canon (hl.upd rfl rfl)))))

theorem cmdDeltaClose_canon {rq : Requester} (h : CanonBut P s) : CanonBut P (cmdDeltaClose rq s) :=
  ite_canon (deltaClose_canon (busDone_canon h)) (busError_canon h)

theorem execDeltaClose_canon {rq : Requester} (h : CanonBut P s) : NextCanon P (execDeltaClose rq s) :=
  ⟨_, rfl, gate_canon (fun _ h => cmdDeltaClose_canon h) h⟩

theorem cmdDeltaAbort_canon {rq : Requester} (h : CanonBut P s) : CanonBut P (cmdDeltaAbort rq s) :=
  ite_canon (deltaEnd_canon (busDone_canon h)) (busError_canon h)

theorem execDeltaAbort_canon {rq : Requester} (h : CanonBut P s) : NextCanon P (execDeltaAbort rq s) :=
  ⟨_, rfl, gate_canon (fun _ h => cmdDeltaAbort_canon h) h⟩

theorem loaderTakes_canon {b : Nat} (h : CanonBut P s) : CanonBut P (loaderTakes b s) := by
  unfold loaderTakes
  split
  · next e => exact grantLease_canon h e
  · exact h

theorem loaderRelease_canon (h : CanonBut P s) : CanonBut P (loaderRelease s) :=
  h.upd rfl rfl

theorem tileQuietNow_canon {n : Nat} (h : CanonBut P s) : CanonBut P (tileQuietNow n s) :=
  setTileBit_canon (ite_canon (canGoto_canon (setCan_canon (iteElse_canon (canFlush_canon (handAll_canon h)) fun h1 => canEvt_canon
    (orF_canon (setF_canon (setF_canon h1)))))) (ite_canon h (serQuiet_canon h)))

theorem quiesce_canon (h : CanonBut P s) : CanonBut P (quiesce s) :=
  applyAll_canon (fun _ _ h => tileQuietNow_canon h) (setF_canon h)

theorem rollback_canon {f : ImgFail} (h : CanonBut P s) : CanonBut P (rollback f s) :=
  refreshMode_canon (raise_canon (setF_canon (showFail_canon (sessionClear_canon (loaderRelease_canon h)))))

theorem execDeltaPrepareDone_canon (h : CanonBut P s) : NextCanon P (execDeltaPrepareDone s) := by
  refine ⟨_, rfl, ?_⟩
  refine onlyIf_canon (fun _ h => ?_) h
  split
  · exact rollback_canon h
  · exact iteElse_canon (applyAll_canon (fun _ _ h => loaderTakes_canon h) (h.upd rfl rfl)) fun h1 => quiesce_canon h1

theorem execDeltaLockAcquired_canon (h : CanonBut P s) : NextCanon P (execDeltaLockAcquired s) := by
  refine ⟨_, rfl, ?_⟩
  split
  · exact h
  · exact iteElse_canon (loaderTakes_canon (h.upd rfl rfl)) fun h1 => quiesce_canon h1

theorem execTileQuiet_canon {n : Nat} (h : CanonBut P s) : NextCanon P (execTileQuiet n s) :=
  ⟨_, rfl, onlyIf_canon (fun _ h => tileQuietNow_canon h) h⟩

theorem tileWakeClear_canon {n : Nat} (h : CanonBut P s) : CanonBut P (tileWakeClear n s) :=
  (writeDone_canon (setUnit_canon (setUnit_canon h))).dropRegs rfl rfl

theorem rebuildTiles_canon {banks : Nat} {x : Structure} (h : CanonBut P s) : CanonBut P (rebuildTiles banks x s) :=
  applyAll_canon (fun _ _ h => tileForm_canon h) (applyAll_canon (fun _ _ h => tileClear_canon (tileWakeClear_canon h))
    (applyAll_canon (fun _ _ h => ite_canon (canFlush_canon h) (serFlush_canon h)) h))

theorem flushUnit_canon {p : Nat} (h : CanonBut P s) : CanonBut P (flushUnit p s) :=
  ite_canon (applyAll_canon (fun _ _ h => applyAll_canon (fun _ _ h => discard_canon h) (setQueue_canon h)) h) (flushPort_canon h)

theorem rebuildPorts_canon {old new : List BindRec} (h : CanonBut P s) : CanonBut P (rebuildPorts old new s) := by
  refine applyAll_canon (fun _ _ h => ?_) (applyAll_canon (fun _ _ h => ite_canon h (ite_canon (portStop_canon h) (flushUnit_canon h))) h)
  split
  · exact portStart_canon (portForm_canon h)
  · exact h.dropRegs rfl rfl

theorem rebuildCabinet_canon {old new : List CabRec} (h : CanonBut P s) : CanonBut P (rebuildCabinet old new s) := by
  refine applyAll_canon (fun _ _ h => ?_) (applyAll_canon (fun _ _ h => ?_) h)
  · split
    · exact cabForm_canon h
    · exact setB_canon h
    · exact setB_canon h
    · exact setF_canon h
  · split
    · exact ite_canon (lampOff_canon h) h
    · exact groupsOff_canon h
    · exact h

theorem rebuildLodgers_canon {old new : List LodgerRec} (h : CanonBut P s) : CanonBut P (rebuildLodgers old new s) :=
  applyAll_canon (fun _ _ h => ite_canon h (contextFault_canon h)) (applyAll_canon (fun _ _ h => setLodger_canon (lodgerNew_canon h)) h)

theorem rebuildTables_canon {l : List TableRec} (h : CanonBut P s) : CanonBut P (rebuildTables l s) :=
  iteElse_canon (applyAll_canon (fun _ _ h => tableRegs_canon h) h) fun h1 => countL2_canon (setF_canon (seedsReset_canon h1))

theorem execDeltaCutOver_canon (h : CanonBut P s) : NextCanon P (execDeltaCutOver s) := by
  refine ⟨_, rfl, ?_⟩
  refine onlyIf_canon (fun _ h => ?_) h
  extract_lets x img ts old s1 s2 s3 s4 s5 s6
  have hs1 : CanonBut P s1 := rebuildTables_canon (rebuildTiles_canon (h.upd rfl rfl))
  have hs2 : CanonBut P s2 := rebuildCabinet_canon (rebuildPorts_canon hs1)
  have hs3 : CanonBut P s3 := trnIndex_canon (rebuildLodgers_canon hs2)
  have hs4 : CanonBut P s4 := ite_canon (policyForm_canon hs3) hs3
  have hs5 : CanonBut P s5 := applyRegset_canon hs4
  have hs6 : CanonBut P s6 := setF_canon (setB_canon (setF_canon (setF_canon
    (setF_canon (showDigest_canon (setF_canon (sessionClear_canon hs5)))))))
  exact wearBump_canon (startup_canon (refreshBase_canon (ratedChanged_canon hs6)))

theorem tablesFreed_canon {o : OldStructure} (h : CanonBut P s) : CanonBut P (tablesFreed o s) :=
  h.upd rfl rfl

theorem oldFreed_canon (h : CanonBut P s) : CanonBut P (oldFreed s) := by
  unfold oldFreed
  split
  · exact h
  · exact applyAll_canon (fun _ _ h => declare_canon h) (tablesFreed_canon (h.upd rfl rfl))

theorem execDeltaDrainEnd_canon (h : CanonBut P s) : NextCanon P (execDeltaDrainEnd s) :=
  ⟨_, rfl, onlyIf_canon (fun _ h => refreshMode_canon (raise_canon (setB_canon (loaderRelease_canon (oldFreed_canon h))))) h⟩

/-! ## The functions of Machine/Hierarchy.lean -/

theorem sendOut_canon {b : List Byte} (h : CanonBut P s) : CanonBut P (sendOut b s) := by
  unfold sendOut
  split
  · exact h
  · exact ite_canon (emit_canon h) (ite_canon (incF_canon h) (hieSend_canon h))

theorem execTransmitDone_canon {p : Nat} (h : CanonBut P s) : NextCanon P (execTransmitDone p s) :=
  ⟨_, rfl, applyAll_canon (fun _ _ h => sendOut_canon h) ((transmitDone_canon h).upd rfl rfl)⟩

theorem endPeer_canon {d : Nat} (h : CanonBut P s) : CanonBut P (endPeer d s) :=
  h.upd rfl rfl

theorem wearReportIn_canon {f : List Byte} (h : CanonBut P s) : CanonBut P (wearReportIn f s) :=
  unitFrame_canon h

theorem holdJoin_canon {m : PMsg} (h : CanonBut P s) : CanonBut P (holdJoin m s) :=
  ite_canon h (setF_canon (h.upd rfl rfl))

theorem deliver_canon {m : PMsg} {f : List Byte} (h : CanonBut P s) : CanonBut P (deliver m f s) := by
  unfold deliver
  extract_lets s1 _
  have hs1 : CanonBut P s1 := incF_canon h
  exact ite_canon (ite_canon (cvArrive_canon hs1) hs1) (ite_canon (ite_canon (holdJoin_canon hs1) hs1)
    (ite_canon (ite_canon (endPeer_canon hs1) hs1) (ite_canon (ite_canon (wearReportIn_canon hs1) hs1) (hs1.upd rfl rfl))))

theorem checkTail_canon {m : PMsg} {f : List Byte} (h : CanonBut P s) : CanonBut P (checkTail m f s) :=
  ite_canon (incF_canon h) (ite_canon (incF_canon h) (ite_canon (epochMismatch_canon h) (deliver_canon (ite_canon (h.upd rfl rfl) h))))

theorem checkMessage_canon {bad : Nat} {m : PMsg} {f : List Byte} (h : CanonBut P s) : CanonBut P (checkMessage bad m f s) := by
  refine ite_canon (ite_canon (checkTail_canon h) (incF_canon h)) ?_
  split
  · next e1 => exact raiseOnce_canon (incF_canon ((consistSlot_canon h).of_eq e1))
  · next e1 =>
      split
      · next e2 => exact raiseOnce_canon (incF_canon ((hwCmac_canon ((consistSlot_canon h).of_eq e1)).of_eq e2))
      · next e2 =>
        exact ite_canon (checkTail_canon ((hwCmac_canon ((consistSlot_canon h).of_eq e1)).of_eq e2))
          (raiseOnce_canon (incF_canon ((hwCmac_canon ((consistSlot_canon h).of_eq e1)).of_eq e2)))

theorem execPloilhanReceive_canon {bad : Nat} (h : CanonBut P s) : NextCanon P (execPloilhanReceive bad s) := by
  refine ⟨_, rfl, ?_⟩
  split
  · exact h
  · exact ite_canon (relay_canon (ite_canon (ite_canon (checkMessage_canon (h.upd rfl rfl)) (h.upd rfl rfl)) (h.upd rfl rfl)))
      (ite_canon (relay_canon (h.upd rfl rfl)) (iteElse_canon (ite_canon (checkMessage_canon (h.upd rfl rfl)) (h.upd rfl rfl)) fun h1 =>
      relay_canon h1))

theorem drawDelay_canon (h : CanonBut P s) : CanonBut P (drawDelay s) :=
  (drbgBytes_canon h).upd rfl rfl

theorem endAdmission_canon (h : CanonBut P s) : CanonBut P (endAdmission s) :=
  drawDelay_canon (setB_canon (setF_canon (setF_canon h)))

theorem execJoinSend_canon (h : CanonBut P s) : NextCanon P (execJoinSend s) := by
  refine ⟨_, rfl, ?_⟩
  refine onlyIf_canon (fun _ h => ?_) h
  split
  · exact setF_canon h
  · exact hieSend_canon (h.upd rfl rfl)

theorem joinAnswer_canon {m : PMsg} {op role id why : Nat} (h : CanonBut P s) : CanonBut P (joinAnswer m op role id why s) :=
  hieSend_canon (incF_canon h)

theorem admitPart_canon {m : PMsg} {role id : Nat} (h : CanonBut P s) : CanonBut P (admitPart m role id s) :=
  joinAnswer_canon (h.upd rfl rfl)

theorem decideJoin_canon {m : PMsg} (h : CanonBut P s) : CanonBut P (decideJoin m s) := by
  unfold decideJoin
  extract_lets ident id role s1 held
  have hs1 : CanonBut P s1 := applyAll_canon (fun _ _ h => endPeer_canon h) h
  exact iteThen_canon (joinAnswer_canon hs1) fun h1 => iteThen_canon (joinAnswer_canon hs1) fun h2 => ite_canon
    (ite_canon h1 (ite_canon h2 (admitPart_canon hs1))) (admitPart_canon hs1)

theorem execJoin_canon (h : CanonBut P s) : NextCanon P (execJoin s) := by
  refine ⟨_, rfl, ?_⟩
  refine onlyIf_canon (fun _ h => ?_) h
  split
  · exact h
  · exact decideJoin_canon (setF_canon (h.upd rfl rfl))

theorem followManager_canon {m : PMsg} (h : CanonBut P s) : CanonBut P (followManager m s) :=
  setB_canon (setF_canon (h.upd rfl rfl))

theorem execJoinAnswer_canon (h : CanonBut P s) : NextCanon P (execJoinAnswer s) :=
  ⟨_, rfl, takeMsg_canon (fun _ _ h => ite_canon h (ite_canon (setF_canon h)
    (iteThen_canon (setF_canon (setF_canon (setB_canon (followManager_canon h)))) fun h1 => fullRefresh_canon (setF_canon h1)))) h⟩

theorem sendBeat_canon (h : CanonBut P s) : CanonBut P (sendBeat s) :=
  hieSend_canon (h.upd rfl rfl)

theorem execHeartbeatSend_canon (h : CanonBut P s) : NextCanon P (execHeartbeatSend s) :=
  ⟨_, rfl, onlyIf_canon (fun _ h => sendBeat_canon h) h⟩

theorem stronger_canon {m : PMsg} {epoch pos : Nat} (h : CanonBut P s) : CanonBut P (stronger m epoch pos s).2 :=
  iteSnd_canon h (iteSnd_canon h (iteSnd_canon h (h.upd rfl rfl)))

theorem yieldManager_canon (h : CanonBut P s) : CanonBut P (yieldManager s) :=
  drawDelay_canon (setF_canon (setF_canon (setB_canon (setB_canon (setF_canon (h.upd rfl rfl))))))

theorem adoptEpoch_canon {m : PMsg} (h : CanonBut P s) : CanonBut P (adoptEpoch m s) :=
  ite_canon (fullRefresh_canon (setF_canon h)) h

theorem followStronger_canon {m : PMsg} {c : Bool × State} (h : CanonBut P c.2) :
    CanonBut P (if c.1 then
      let s1 := followManager m (endAdmission c.2)
      { s1 with hie := { s1.hie with last := tabPut 0 s1.hie.last 0 (m.counter + 1) } }
    else c.2) :=
  ite_canon ((followManager_canon (endAdmission_canon h)).upd rfl rfl) h

theorem otherManager_canon {m : PMsg} (h : CanonBut P s) : CanonBut P (otherManager m s) :=
  followStronger_canon (stronger_canon h)

theorem yieldStronger_canon {m : PMsg} {c : Bool × State} (h : CanonBut P c.2) :
    CanonBut P (if c.1 then followManager m (yieldManager c.2) else c.2) :=
  ite_canon (followManager_canon (yieldManager_canon h)) h

theorem managerBeat_canon {m : PMsg} (h : CanonBut P s) : CanonBut P (managerBeat m s) := by
  refine ite_canon (ite_canon (followManager_canon (yieldManager_canon h)) ?_)
    (ite_canon (followManager_canon h) (ite_canon (adoptEpoch_canon (followManager_canon h)).hie (otherManager_canon h)))
  exact yieldStronger_canon (stronger_canon h)

theorem execHeartbeatReceive_canon (h : CanonBut P s) : NextCanon P (execHeartbeatReceive s) :=
  ⟨_, rfl, takeMsg_canon (fun _ _ h => ite_canon (managerBeat_canon h) (ite_canon (h.upd rfl rfl) (h.upd rfl rfl))) h⟩

theorem execWorkerLost_canon {d : Nat} (h : CanonBut P s) : NextCanon P (execWorkerLost d s) :=
  ⟨_, rfl, onlyIf_canon (fun _ h => declare_canon (raise_canon (incF_canon (setF_canon (endPeer_canon h))))) h⟩

theorem execManagerLost_canon (h : CanonBut P s) : NextCanon P (execManagerLost s) :=
  ⟨_, rfl, onlyIf_canon (fun _ h => raise_canon (setB_canon (endAdmission_canon h))) h⟩

theorem execTakeover_canon (h : CanonBut P s) : NextCanon P (execTakeover s) :=
  ⟨_, rfl, onlyIf_canon (fun _ h => raise_canon (sendBeat_canon (hieSend_canon
    (setF_canon (setF_canon (setB_canon (setB_canon (setF_canon (setF_canon (storeWrite_canon (h.upd rfl rfl))))))))))) h⟩

theorem takeStronger_canon {m : PMsg} {c : Bool × State} (h : CanonBut P c.2) :
    CanonBut P (if c.1 then fullRefresh (setF FWT_EPOCH_epoch m.epoch (followManager m { c.2 with
      hie := { c.2.hie with mgrSet := m.at 0 8 } })) else c.2) :=
  ite_canon (fullRefresh_canon (setF_canon (followManager_canon (h.upd rfl rfl)))) h

theorem execTakeoverReceive_canon (h : CanonBut P s) : NextCanon P (execTakeoverReceive s) := by
  refine ⟨_, rfl, takeMsg_canon (fun _ _ h => ite_canon (managerBeat_canon h) (ite_canon ?_
    (ite_canon (otherManager_canon h) (followManager_canon h)))) h⟩
  exact takeStronger_canon (stronger_canon h)

theorem execProbeEnd_canon (h : CanonBut P s) : NextCanon P (execProbeEnd s) :=
  ⟨_, rfl, onlyIf_canon (fun _ h => sendBeat_canon (setB_canon h)) h⟩

theorem execPositionChangeRejoin_canon (h : CanonBut P s) : NextCanon P (execPositionChangeRejoin s) :=
  ⟨_, rfl, onlyIf_canon (fun _ h => endAdmission_canon (hieSend_canon h)) h⟩

theorem servePiece_canon {img : List Byte} {p : Nat} (h : CanonBut P s) : CanonBut P (servePiece img p s) :=
  ite_canon h (incF_canon (applyAll_canon (fun _ _ h => hieSend_canon h) (h.upd rfl rfl)))

theorem execImageBlockRequest_canon {img : List Byte} (h : CanonBut P s) : NextCanon P (execImageBlockRequest img s) :=
  ⟨_, rfl, takeMsg_canon (fun _ _ h => ite_canon h (iteThen_canon (incF_canon (emit_canon h)) fun h1 => applyAll_canon
    (fun _ _ h => servePiece_canon h) h1)) h⟩

theorem requestMissing_canon (h : CanonBut P s) : CanonBut P (requestMissing s) :=
  ite_canon (requestPieces_canon h) (applyAll_canon (fun _ _ h => requestPieces_canon h) h)

theorem headArrived_canon (h : CanonBut P s) : CanonBut P (headArrived s) := by
  unfold headArrived
  dsimp only
  split
  · exact loadFail_canon h
  · exact requestMissing_canon (setF_canon (h.upd rfl rfl))

theorem takeChunk_canon {m : PMsg} (h : CanonBut P s) : CanonBut P (takeChunk m s) :=
  ite_canon h (ite_canon (headArrived_canon (h.upd rfl rfl)) (h.upd rfl rfl))

theorem execImagePieceReceive_canon (h : CanonBut P s) : NextCanon P (execImagePieceReceive s) :=
  ⟨_, rfl, takeMsg_canon (fun _ _ h => ite_canon (takeChunk_canon h) h) h⟩

theorem execImageRerequestTimeout_canon (h : CanonBut P s) : NextCanon P (execImageRerequestTimeout s) :=
  ⟨_, rfl, onlyIf_canon (fun _ h => requestMissing_canon h) h⟩

theorem execImageBlockDeltaOpen_canon (h : CanonBut P s) : NextCanon P (execImageBlockDeltaOpen s) :=
  ⟨_, rfl, takeMsg_canon (fun _ _ h => ite_canon h (deltaReport_canon (deltaOpen_canon (h.upd rfl rfl)))) h⟩

theorem execImageBlockDeltaChunk_canon (h : CanonBut P s) : NextCanon P (execImageBlockDeltaChunk s) := by
  refine ⟨_, rfl, ?_⟩
  dsimp only
  refine takeMsg_canon (fun _ _ h => ite_canon h ?_) h
  split
  · exact deltaReport_canon (h.upd rfl rfl)
  · exact ite_canon (h.upd rfl rfl) (ite_canon (deltaReport_canon (h.upd rfl rfl))
      (iteElse_canon (deltaDeliver_canon (h.upd rfl rfl)) fun h1 => deltaReport_canon h1))

theorem execImageBlockDeltaClose_canon (h : CanonBut P s) : NextCanon P (execImageBlockDeltaClose s) :=
  ⟨_, rfl, takeMsg_canon (fun _ _ h => ite_canon h (ite_canon (deltaClose_canon h) (deltaReport_canon (ite_canon (deltaRefuse_canon h) h)))) h⟩

theorem execImageBlockDeltaAbort_canon (h : CanonBut P s) : NextCanon P (execImageBlockDeltaAbort s) :=
  ⟨_, rfl, takeMsg_canon (fun _ _ h => ite_canon h (ite_canon (deltaEnd_canon h) (deltaReport_canon h))) h⟩

theorem execImageBlockStatus_canon (h : CanonBut P s) : NextCanon P (execImageBlockStatus s) :=
  ⟨_, rfl, takeMsg_canon (fun _ _ h => ite_canon (h.upd rfl rfl) h) h⟩

theorem hieCommand_canon {rq : Requester} {w : Word} (h : CanonBut P s) : CanonBut P (hieCommand rq w s) := by
  refine ite_canon (busError_canon h) ?_
  split
  · exact applyAll_canon (fun _ _ h => hieSend_canon h) (busDone_canon h)
  · exact applyAll_canon (fun _ _ h => hieSend_canon h) (busDone_canon h)
  · exact applyAll_canon (fun _ _ h => hieSend_canon h) (busDone_canon h)
  · exact applyAll_canon (fun _ _ h => hieSend_canon h) (busDone_canon h)
  · exact busError_canon h

theorem hieCmdOp_canon {op : Nat} {rq : Requester} {w : Word} (h : CanonBut P s) : CanonBut P (hieCmdOp op rq w s) :=
  ite_canon (hieCommand_canon h) h

theorem execWearReportRequest_canon {rq : Requester} {w : Word} (h : CanonBut P s) : NextCanon P (execWearReportRequest rq w s) :=
  ⟨_, rfl, gate_canon (fun _ h => hieCmdOp_canon h) h⟩

theorem execWearReportSend_canon (h : CanonBut P s) : NextCanon P (execWearReportSend s) :=
  ⟨_, rfl, takeMsg_canon (fun _ _ h => applyAll_canon (fun _ _ h => hieSend_canon h) h) h⟩

theorem execRemoteFullReset_canon {side : HieSide} (h : CanonBut P s) : NextCanon P (execRemoteFullReset side s) := by
  refine ⟨_, rfl, ?_⟩
  split
  · exact gate_canon (fun _ h => hieCmdOp_canon h) h
  · exact takeMsg_canon (fun _ _ h => ite_canon (fullReset_canon h) h) h

theorem execRemoteNormalReset_canon {side : HieSide} (h : CanonBut P s) : NextCanon P (execRemoteNormalReset side s) := by
  refine ⟨_, rfl, ?_⟩
  split
  · exact gate_canon (fun _ h => hieCmdOp_canon h) h
  · exact takeMsg_canon (fun _ _ h => ite_canon (worldReset_canon h) h) h

theorem revokeMessage_canon {m : PMsg} (h : CanonBut P s) : CanonBut P (revokeMessage m s) :=
  applyAll_canon (fun _ _ h => declare_canon h) h

theorem execRemoteRevoke_canon {side : HieSide} (h : CanonBut P s) : NextCanon P (execRemoteRevoke side s) := by
  refine ⟨_, rfl, ?_⟩
  split
  · exact gate_canon (fun _ h => hieCmdOp_canon h) h
  · exact takeMsg_canon (fun _ _ h => ite_canon (revokeMessage_canon h) h) h

/-! ## The functions of Machine/Leases.lean -/

theorem leaseRenew_canon {rq : Requester} {n : Nat} (h : CanonBut P s) : CanonBut P (leaseRenew rq n s) :=
  ite_canon (busError_canon h) (ite_canon (busDone_canon h) (busDone_canon (setLease_canon h)))

theorem execLeaseRenew_canon {rq : Requester} {n : Nat} (h : CanonBut P s) : NextCanon P (execLeaseRenew rq n s) :=
  ⟨_, rfl, gate_canon (fun _ h => leaseRenew_canon h) h⟩

theorem fetchDrop_canon {n : Nat} (h : CanonBut P s) : CanonBut P (fetchDrop n s) :=
  h.upd rfl rfl

theorem releaseEffect_canon {n : Nat} {l : Lease} (h : CanonBut P s) : CanonBut P (releaseEffect n l s) := by
  unfold releaseEffect
  split
  · exact freePages_canon h
  · exact ite_canon (swcCommit_canon h) (fwtCommit_canon h)
  · exact pkeLeaseEnd_canon h
  · exact fetchDrop_canon h
  · exact deltaReport_canon (setFree_canon (sessionClear_canon h))
  · exact h

theorem leaseRelease_canon {rq : Requester} {n : Nat} (h : CanonBut P s) : CanonBut P (leaseRelease rq n s) :=
  ite_canon (busError_canon h) (busDone_canon (releaseEffect_canon (setLease_canon h)))

theorem execLeaseRelease_canon {rq : Requester} {n : Nat} (h : CanonBut P s) : NextCanon P (execLeaseRelease rq n s) :=
  ⟨_, rfl, gate_canon (fun _ h => leaseRelease_canon h) h⟩

theorem execLeaseExpiry_canon {n : Nat} (h : CanonBut P s) : NextCanon P (execLeaseExpiry n s) :=
  ⟨_, rfl, onlyIf_canon (fun _ h => declare_canon h) h⟩

theorem revokeRefuse_canon {why : Nat} (h : CanonBut P s) : CanonBut P (revokeRefuse why s) :=
  setB_canon (setF_canon h)

theorem inkRevoke_canon {rq : Requester} {w : Word} (h : CanonBut P s) : CanonBut P (inkRevoke rq w s) :=
  ite_canon (revokeRefuse_canon (busDone_canon h)) (ite_canon (revokeRefuse_canon (busDone_canon h))
    (ite_canon (declare_canon (busDone_canon h)) (declare_canon (busDone_canon h))))

theorem execInkRevoke_canon {rq : Requester} {w : Word} (h : CanonBut P s) : NextCanon P (execInkRevoke rq w s) :=
  ⟨_, rfl, gate_canon (fun _ h => inkRevoke_canon h) h⟩

theorem reclaimOne_canon {n : Nat} (h : CanonBut P s) : CanonBut P (reclaimOne n s) := by
  refine ite_canon h (setLease_canon ?_)
  split
  · exact freePages_canon h
  · exact ite_canon (swcDiscard_canon h) (fwtDiscard_canon h)
  · exact pkeLeaseEnd_canon h
  · exact fetchDrop_canon h
  · exact deltaEnd_canon h
  · exact h

theorem execReclaimDone_canon (h : CanonBut P s) : NextCanon P (execReclaimDone s) := by
  refine ⟨_, rfl, ?_⟩
  split
  · exact h
  · exact raise_canon (setF_canon (setF_canon (setF_canon (incF_canon (applyAll_canon (fun _ _ h => reclaimOne_canon h) (h.upd rfl rfl))))))

theorem execCaravanSend_canon (h : CanonBut P s) : NextCanon P (execCaravanSend s) :=
  ⟨_, rfl, onlyIf_canon (fun _ h => ite_canon (incF_canon (setF_canon (h.upd rfl rfl)))
    (incF_canon (hieSend_canon (setF_canon (h.upd rfl rfl))))) h⟩

/-! ## The functions of Machine/Views.lean -/

theorem latchPair_canon {a : Nat} (h : CanonBut P s) : CanonBut P (latchPair a s) :=
  ite_canon (h.upd rfl rfl) (ite_canon (setF_canon h) (ite_canon (ite_canon (setF_canon h) (ite_canon (setF_canon h) h)) h))

theorem clearLive_canon {a : Nat} (h : CanonBut P s) : CanonBut P (clearLive a s) :=
  ite_canon (setLodger_canon h) (ite_canon (setLodger_canon h) (ite_canon (setF_canon h)
    (ite_canon (setCb_canon h) (ite_canon (setCb_canon h) (ite_canon (h.upd rfl rfl)
    (ite_canon (h.upd rfl rfl) (ite_canon (h.upd rfl rfl) (ite_canon (h.upd rfl rfl)
    (ite_canon (h.upd rfl rfl) (ite_canon (h.upd rfl rfl) (ite_canon (h.upd rfl rfl) h)))))))))))

/-! ## The functions of Machine/Regs.lean -/

theorem banked_canon {rq : Requester} {g : Nat → World → State → State} (hg : ∀ x0 x1 s, CanonBut P s → CanonBut P (g x0 x1 s))
    (h : CanonBut P s) : CanonBut P (banked rq g s) := by
  unfold banked
  split
  · exact hg _ _ _ h
  · exact busError_canon h

theorem routeWrite_canon {rq : Requester} {e : Nat} {w : Word} (h : CanonBut P s) : CanonBut P (routeWrite rq e w s) :=
  ite_canon (busError_canon h) (ite_canon (busError_canon h) (ite_canon (busError_canon h)
    (setF_canon (setF_canon (setF_canon (setF_canon (setF_canon (setF_canon (setF_canon (setF_canon (busDone_canon h)))))))))))

theorem softWrite_canon {w : Word} (h : CanonBut P s) : CanonBut P (softWrite w s) :=
  iteElse_canon (ite_canon (raise_canon (busDone_canon h)) (busDone_canon h)) fun h1 => raise_canon h1

theorem pendClear_canon {rq : Requester} {pend own : Fld} {w : Word} (h : CanonBut P s) : CanonBut P (pendClear rq pend own w s) :=
  clrF_canon (busDone_canon h)

theorem secureElse_canon {rq : Requester} {g : State → State} (hg : ∀ s, CanonBut P s → CanonBut P (g s)) (h : CanonBut P s) :
    CanonBut P (secureElse rq g s) :=
  ite_canon (hg _ h) (busError_canon h)

theorem revRead_canon (h : CanonBut P s) : CanonBut P (revRead s) := by
  unfold revRead
  split
  · exact busData_canon h
  · exact busData_canon (setF_canon (h.upd rfl rfl))

theorem plainWrite_canon {d : RegDesc} {a : Nat} {w : Word} (h : CanonBut P s) : CanonBut P (plainWrite d a w s) :=
  ite_canon (writeFields_canon (busDone_canon h)) (busError_canon h)

theorem anyWrite_canon {a : Nat} {w : Word} (h : CanonBut P s) : CanonBut P (anyWrite a w s) := by
  unfold anyWrite
  split
  · exact plainWrite_canon h
  · exact busError_canon h

theorem stageWrite_canon {blk : Nat} {rq : Requester} {a : Nat} {w : Word} (h : CanonBut P s) : CanonBut P (stageWrite blk rq a w s) := by
  unfold stageWrite
  split
  · exact busError_canon h
  · exact ite_canon (busError_canon h) (ite_canon (busDone_canon (h.upd rfl rfl)) (busDone_canon (h.upd rfl rfl)))

theorem asks_canon {w : Word} {i : Nat} {g : State → State} (hg : ∀ s, CanonBut P s → CanonBut P (g s)) (h : CanonBut P s) :
    CanonBut P (asks w i g s) :=
  ite_canon (hg _ h) (busDone_canon h)

theorem writeSys_canon {rq : Requester} {a : Nat} {w : Word} (h : CanonBut P s) : CanonBut P (writeSys rq a w s) := by
  unfold writeSys
  split
  · exact rstctlWrite_canon h
  · exact wdnWrite_canon h
  · exact wdnKick_canon h
  · exact cmdSecureWatchdogKick_canon h
  · exact anyWrite_canon h

theorem writePwr_canon {rq : Requester} {a : Nat} {w : Word} (h : CanonBut P s) : CanonBut P (writePwr rq a w s) := by
  unfold writePwr
  split
  · exact modeReqWrite_canon h
  · exact readyWrite_canon h
  · exact anyWrite_canon h

theorem writeEvc_canon {rq : Requester} {a : Nat} {w : Word} (h : CanonBut P s) : CanonBut P (writeEvc rq a w s) :=
  ite_canon (pendClear_canon h) (ite_canon (pendClear_canon h) (ite_canon (secureElse_canon (fun _ h => anyWrite_canon h) h)
    (ite_canon (softWrite_canon h) (ite_canon (banked_canon (fun _ _ _ h => busDone_canon h) h)
    (ite_canon (banked_canon (fun _ _ _ h => setF_canon (busDone_canon h)) h) (ite_canon (routeWrite_canon h) (anyWrite_canon h)))))))

theorem writeInk_canon {rq : Requester} {a : Nat} {w : Word} (h : CanonBut P s) : CanonBut P (writeInk rq a w s) := by
  unfold writeInk
  split
  · exact cmdInkPgreq_canon h
  · exact cmdInkPgfree_canon h
  · exact leaseRenew_canon h
  · exact leaseRelease_canon h
  · exact inkRevoke_canon h
  · exact anyWrite_canon h

theorem writeImg_canon {rq : Requester} {a : Nat} {w : Word} (h : CanonBut P s) : CanonBut P (writeImg rq a w s) := by
  unfold writeImg
  split
  · split
    · exact cmdDeltaOpen_canon h
    · exact cmdDeltaClose_canon h
    · exact cmdDeltaAbort_canon h
    · exact busDone_canon h
  · exact cmdDeltaDelivery_canon h
  · exact anyWrite_canon h

theorem writeSwc_canon {rq : Requester} {a : Nat} {w : Word} (h : CanonBut P s) : CanonBut P (writeSwc rq a w s) :=
  ite_canon (asks_canon (fun _ h => cmdSwcLockTake_canon h) h) (ite_canon (cmdSwcSnap_canon h)
    (ite_canon (ite_canon (busError_canon h) (busDone_canon (setCb_canon h)))
    (ite_canon (ite_canon (busDone_canon h) (busDone_canon (setF_canon h)))
    (ite_canon (ite_canon (busDone_canon (setF_canon h)) (busDone_canon h)) (ite_canon (stageWrite_canon h) (anyWrite_canon h))))))

theorem writeFwt_canon {rq : Requester} {a : Nat} {w : Word} (h : CanonBut P s) : CanonBut P (writeFwt rq a w s) := by
  unfold writeFwt
  split
  · exact asks_canon (fun _ h => cmdFwtLockTake_canon h) h
  · exact cmdMigrateCancel_canon (cmdMigrateStart_canon h)
  · exact stageWrite_canon h
  · exact cmdPorterGo_canon h
  · exact anyWrite_canon h

theorem writeLnk_canon {rq : Requester} {a : Nat} {w : Word} (h : CanonBut P s) : CanonBut P (writeLnk rq a w s) :=
  ite_canon (cmdLnkMsgtxGo_canon h) (ite_canon (cmdLnkMsgtxGo_canon h) (ite_canon (busError_canon h) (anyWrite_canon h)))

theorem writeWks_canon {rq : Requester} {a : Nat} {w : Word} (h : CanonBut P s) : CanonBut P (writeWks rq a w s) := by
  unfold writeWks
  split
  · exact sleepRequest_canon h
  · exact sleepRequest_canon h
  · exact wakeRequest_canon h
  · exact wakeRequest_canon h
  · exact cmdWksValid_canon h
  · exact cmdWksValid_canon h
  · exact cmdWksLogack_canon h
  · split
    · exact ite_canon (anyWrite_canon h) (busDone_canon h)
    · exact anyWrite_canon h

theorem writeKst_canon {rq : Requester} {a : Nat} {w : Word} (h : CanonBut P s) : CanonBut P (writeKst rq a w s) := by
  refine ite_canon (ite_canon (cmdLifecycleCommit_canon h) (cmdLifecycleArm_canon h))
    (ite_canon ?_ (ite_canon (busDone_canon (setF_canon h)) (ite_canon (cmdFloorSet_canon h)
    (ite_canon (cmdKeyLoad_canon h) (ite_canon (cmdKeyLoad_canon h) (ite_canon ?_
    (ite_canon (cmdWrap_canon h) (ite_canon ?_ (anyWrite_canon h)))))))))
  · split
    · exact cmdImageKeyProgram_canon h
    · exact cmdImageKeyRevoke_canon h
    · exact busError_canon h
  · split
    · exact cmdNodeCreate_canon h
    · exact cmdNodeInvalidate_canon h
    · exact cmdNodeFree_canon h
    · exact busError_canon h
  · split
    · exact cmdShelfWrite_canon h
    · exact cmdShelfErase_canon h
    · exact busError_canon h

theorem writeWld_canon {rq : Requester} {a : Nat} {w : Word} (h : CanonBut P s) : CanonBut P (writeWld rq a w s) :=
  ite_canon (ite_canon (busError_canon h) (anyWrite_canon h)) (ite_canon (cmdWldLock_canon h)
    (ite_canon (ite_canon (anyWrite_canon h) (busDone_canon h)) (anyWrite_canon h)))

theorem writePke_canon {rq : Requester} {a : Nat} {w : Word} (h : CanonBut P s) : CanonBut P (writePke rq a w s) :=
  ite_canon (asks_canon (fun _ h => cmdPkeLockTake_canon h) h) (ite_canon (cmdPkeJobGo_canon h)
    (ite_canon (ite_canon (busError_canon h) (anyWrite_canon h)) (ite_canon (ite_canon (anyWrite_canon h) (busError_canon h))
    (ite_canon (cmdPkeOpdataAccess_canon h) (ite_canon (cmdPkeSlenWrite_canon h)
    (ite_canon (cmdDigestGo_canon h) (ite_canon (cmdDigestGo_canon h) (ite_canon (asks_canon (fun _ h => drbgReseed_canon (busDone_canon h)) h)
    (anyWrite_canon h)))))))))

theorem writeMot_canon {rq : Requester} {a : Nat} {w : Word} (h : CanonBut P s) : CanonBut P (writeMot rq a w s) := by
  unfold writeMot
  refine ite_canon (anyWrite_canon h) ?_
  split
  · exact motCmdWrite_canon h
  · exact cmdMotorTest_canon h
  · exact ite_canon (anyWrite_canon h) (busError_canon h)
  · exact ite_canon (anyWrite_canon h) (busError_canon h)
  · exact anyWrite_canon h

theorem writeLmp_canon {rq : Requester} {a : Nat} {w : Word} (h : CanonBut P s) : CanonBut P (writeLmp rq a w s) :=
  ite_canon (cmdLampTest_canon h) (ite_canon (lmpCmdWrite_canon h) (anyWrite_canon h))

theorem writeWer_canon {rq : Requester} {a : Nat} {w : Word} (h : CanonBut P s) : CanonBut P (writeWer rq a w s) := by
  unfold writeWer
  split
  · exact asks_canon (fun _ h => ledgerSave_canon (busDone_canon h)) h
  · exact werReset_canon h
  · exact werSel_canon h
  · exact anyWrite_canon h

theorem writeAon_canon {rq : Requester} {a : Nat} {w : Word} (h : CanonBut P s) : CanonBut P (writeAon rq a w s) :=
  ite_canon (cmdAonRtcset_canon h) (ite_canon (tamperWrite_canon h) (ite_canon (ite_canon (aonWrite_canon h) (busError_canon h))
    (ite_canon (cmdPwrReqSwWrite_canon h) (ite_canon (aonWrite_canon h) (anyWrite_canon h)))))

theorem writeHie_canon {rq : Requester} {a : Nat} {w : Word} (h : CanonBut P s) : CanonBut P (writeHie rq a w s) :=
  ite_canon (hieCommand_canon h) (anyWrite_canon h)

theorem writeTsy_canon {rq : Requester} {a : Nat} {w : Word} (h : CanonBut P s) : CanonBut P (writeTsy rq a w s) :=
  ite_canon (iteElse_canon (ite_canon (cmdTsySet_canon h) (busDone_canon h)) fun h1 => cmdTsyStep_canon h1) (anyWrite_canon h)

theorem writeBrg_canon {rq : Requester} {a : Nat} {w : Word} (h : CanonBut P s) : CanonBut P (writeBrg rq a w s) := by
  refine ite_canon ?_ (ite_canon ?_ (anyWrite_canon h))
  · split
    · exact busError_canon h
    · exact busDone_canon (setF_canon h)
    · exact busDone_canon h
  · split
    · exact busError_canon h
    · exact busDone_canon h

theorem canCtl_canon {rq : Requester} {n : Nat} {w : Word} (h : CanonBut P s) : CanonBut P (canCtl rq n w s) :=
  iteElse_canon (iteElse_canon (ite_canon (cmdCanCtlStart_canon h) (busDone_canon h)) fun h1 => cmdCanCtlStop_canon h1) fun h1 =>
    cmdCanCtlRecover_canon h1

theorem writeCan_canon {rq : Requester} {n a : Nat} {w : Word} (h : CanonBut P s) : CanonBut P (writeCan rq n a w s) :=
  ite_canon (canCtl_canon h) (ite_canon (cmdCanRxrel_canon h) (ite_canon (cmdCanPriorel_canon h)
    (ite_canon (cmdCanTxreq_canon h) (ite_canon (cmdCanTxcan_canon h) (ite_canon (ite_canon (anyWrite_canon h) (busError_canon h))
    (ite_canon (freshWrite_canon (busDone_canon h)) (anyWrite_canon h)))))))

theorem writeSer_canon {rq : Requester} {n a : Nat} {w : Word} (h : CanonBut P s) : CanonBut P (writeSer rq n a w s) :=
  ite_canon (ite_canon (busDone_canon h) (busError_canon h)) (ite_canon (iteElse_canon (ite_canon (cmdSerCtlStart_canon h) (busDone_canon h))
    fun h1 => cmdSerCtlStop_canon h1) (ite_canon (cmdLinSchedWrite_canon h)
    (ite_canon (cmdLinPubWrite_canon h) (ite_canon (cmdUartSwtxGo_canon h) (ite_canon (busError_canon h) (anyWrite_canon h))))))

theorem writeTile_canon {rq : Requester} {a : Nat} {w : Word} (h : CanonBut P s) : CanonBut P (writeTile rq a w s) :=
  ite_canon (busDone_canon h) (ite_canon (writeCan_canon h) (writeSer_canon h))

theorem writePort_canon {rq : Requester} {a : Nat} {w : Word} (h : CanonBut P s) : CanonBut P (writePort rq a w s) :=
  ite_canon (busDone_canon h) (ite_canon (cmdMdioCommand_canon h) (ite_canon (anyWrite_canon h) (anyWrite_canon h)))

theorem writeReg_canon {rq : Requester} {a : Nat} {w : Word} (h : CanonBut P s) : CanonBut P (writeReg rq a w s) := by
  refine ite_canon (busError_canon h) (ite_canon (writeTile_canon h) (ite_canon (canRamWrite_canon h)
    (ite_canon (writePort_canon h) (ite_canon (busError_canon h) ?_))))
  split
  · exact writeSys_canon h
  · exact writePwr_canon h
  · exact writeEvc_canon h
  · exact writeInk_canon h
  · exact writeImg_canon h
  · exact writeSwc_canon h
  · exact writeFwt_canon h
  · exact ite_canon (cmdTrnSigsel_canon h) (anyWrite_canon h)
  · exact writeBrg_canon h
  · exact writeLnk_canon h
  · exact writeWks_canon h
  · exact writeKst_canon h
  · exact ite_canon (cmdCkvRingTail_canon h) (anyWrite_canon h)
  · exact writePke_canon h
  · exact writeWld_canon h
  · exact writeMot_canon h
  · exact writeLmp_canon h
  · exact writeWer_canon h
  · exact writeAon_canon h
  · exact writeHie_canon h
  · exact writeTsy_canon h
  · exact anyWrite_canon h

theorem anyRead_canon {rq : Requester} {a : Nat} (h : CanonBut P s) : CanonBut P (anyRead rq a s) := by
  unfold anyRead
  split
  · exact busError_canon h
  · exact busData_canon (clearLive_canon (clearRead_canon (latchPair_canon h)))

theorem readTile_canon {rq : Requester} {a : Nat} (h : CanonBut P s) : CanonBut P (readTile rq a s) :=
  ite_canon (busData_canon h) (ite_canon (busData_canon h) (anyRead_canon h))

theorem readPort_canon {rq : Requester} {a : Nat} (h : CanonBut P s) : CanonBut P (readPort rq a s) :=
  ite_canon (busData_canon h) (ite_canon (txtsRead_canon h) (anyRead_canon h))

theorem readReg_canon {rq : Requester} {a : Nat} (h : CanonBut P s) : CanonBut P (readReg rq a s) := by
  refine ite_canon (busError_canon h) (ite_canon (readTile_canon h) (ite_canon (cmdCanRxBufferRead_canon h)
    (ite_canon (readPort_canon h) (ite_canon (busError_canon h) (ite_canon (banked_canon (fun _ _ _ h => busData_canon h) h)
    (ite_canon (banked_canon (fun _ _ _ h => busData_canon h) h) (ite_canon (revRead_canon h)
    (ite_canon (cmdPkeOpdataAccess_canon h) (ite_canon (cmdDrgDataRead_canon h) ?_)))))))))
  split
  · exact ite_canon (anyRead_canon h) (busData_canon h)
  · exact anyRead_canon h

theorem busRead_canon {rq : Requester} {a : Nat} (h : CanonBut P s) : CanonBut P (busRead rq a s) :=
  gate_canon (fun _ h => readReg_canon h) h

theorem busWrite_canon {rq : Requester} {a : Nat} {w : Word} (h : CanonBut P s) : CanonBut P (busWrite rq a w s) :=
  gate_canon (fun _ h => writeReg_canon h) h

theorem sized_canon {n : Nat} {g : State → State} (hg : ∀ s, CanonBut P s → CanonBut P (g s)) (h : CanonBut P s) : CanonBut P (sized n g s) :=
  ite_canon (hg _ h) (busError_canon h)

theorem execRegisterWrite_canon {rq : Requester} {a : Nat} {w : Word} {n : Nat} (h : CanonBut P s) :
    NextCanon P (execRegisterWrite rq a w n s) :=
  ⟨_, rfl, gate_canon (fun _ h => sized_canon (fun _ h => writeReg_canon h) h) h⟩

theorem execW1cWrite_canon {rq : Requester} {a : Nat} {w : Word} {n : Nat} (h : CanonBut P s) : NextCanon P (execW1cWrite rq a w n s) :=
  ⟨_, rfl, gate_canon (fun _ h => sized_canon (fun _ h => writeReg_canon h) h) h⟩

theorem execRcRead_canon {rq : Requester} {a n : Nat} (h : CanonBut P s) : NextCanon P (execRcRead rq a n s) :=
  ⟨_, rfl, gate_canon (fun _ h => sized_canon (fun _ h => readReg_canon h) h) h⟩

theorem execLatchingPairRead_canon {rq : Requester} {a n : Nat} (h : CanonBut P s) : NextCanon P (execLatchingPairRead rq a n s) :=
  ⟨_, rfl, gate_canon (fun _ h => sized_canon (fun _ h => readReg_canon h) h) h⟩

theorem execBrgRev0Read_canon {rq : Requester} (h : CanonBut P s) : NextCanon P (execBrgRev0Read rq s) :=
  ⟨_, rfl, gate_canon (fun _ h => revRead_canon h) h⟩

theorem execEvcRouteWrite_canon {rq : Requester} {e : Nat} {w : Word} (h : CanonBut P s) : NextCanon P (execEvcRouteWrite rq e w s) :=
  ⟨_, rfl, gate_canon (fun _ h => routeWrite_canon h) h⟩

theorem execEvcSoft_canon {rq : Requester} {w : Word} (h : CanonBut P s) : NextCanon P (execEvcSoft rq w s) :=
  ⟨_, rfl, gate_canon (fun _ h => softWrite_canon h) h⟩

theorem debugMem_canon {w : World} {a : Nat} {v : Option Word} {n : Nat} (h : CanonBut P s) : CanonBut P (debugMem w a v n s) := by
  refine ite_canon (violate_canon h) ?_
  split
  · exact busDone_canon (wrBytes_canon h)
  · exact busData_canon h

theorem execDebugAccess_canon {w : World} {a : Nat} {v : Option Word} {n : Nat} (h : CanonBut P s) :
    NextCanon P (execDebugAccess w a v n s) := by
  refine ⟨_, rfl, ?_⟩
  refine ite_canon (debugMem_canon h) ?_
  split
  · exact gate_canon (fun _ h => sized_canon (fun _ h => writeReg_canon h) h) h
  · exact gate_canon (fun _ h => sized_canon (fun _ h => readReg_canon h) h) h

/-! ## The functions of Machine/Bridge.lean -/

theorem splitFault_canon {rq : Requester} {write narrow : Bool} {done addr : Nat} (h : CanonBut P s) :
    CanonBut P (splitFault rq write narrow done addr s) :=
  raise_canon (iteElse_canon (setF_canon (setF_canon (setB_canon (setB_canon (setF_canon (incF_canon h)))))) fun h1 => setB_canon h1)

theorem splitReadOne_canon {rq : Requester} {a be : Nat} {x : Split × State} (h : CanonBut P x.2) : CanonBut P (splitReadOne rq a be x).2 := by
  unfold splitReadOne
  dsimp only
  refine iteSnd_canon h (iteSnd_canon (h.upd rfl rfl) (iteSnd_canon h ?_))
  split
  · exact busRead_canon h
  · exact busRead_canon h

theorem splitRead_canon {rq : Requester} {a : Nat} {l : List Nat} {x : Split × State} (h : CanonBut P x.2) :
    CanonBut P (splitRead rq a l x).2 := by
  induction l generalizing a x with
  | nil => exact h
  | cons be l ih => exact ih (splitReadOne_canon h)

theorem splitWriteOne_canon {rq : Requester} {a : Nat} {w : Word} {be : Nat} {x : Split × State} (h : CanonBut P x.2) :
    CanonBut P (splitWriteOne rq a w be x).2 := by
  unfold splitWriteOne
  dsimp only
  refine iteSnd_canon h (iteSnd_canon h ?_)
  split
  · exact busWrite_canon h
  · exact busWrite_canon h

theorem splitWrite_canon {rq : Requester} {a : Nat} {l : List (Word × Nat)} {x : Split × State} (h : CanonBut P x.2) :
    CanonBut P (splitWrite rq a l x).2 := by
  induction l generalizing a x with
  | nil => exact h
  | cons e l ih => exact ih (splitWriteOne_canon h)

theorem splitEnd_canon {rq : Requester} {write : Bool} {x : Split × State} (h : CanonBut P x.2) : CanonBut P (splitEnd rq write x) := by
  unfold splitEnd
  split
  · exact splitFault_canon h
  · exact h

theorem busWide_canon {l : List Word} (h : CanonBut P s) : CanonBut P (busWide l s) := by
  unfold busWide
  split
  · exact h.upd rfl rfl
  · exact h.upd rfl rfl

theorem msixSend_canon {v : Nat} (h : CanonBut P s) : CanonBut P (msixSend v s) :=
  emit_canon h

theorem execMsixRequest_canon (h : CanonBut P s) : NextCanon P (execMsixRequest s) := by
  refine ⟨_, rfl, ?_⟩
  split
  · exact h
  · exact ite_canon (msixSend_canon (h.upd rfl rfl)) (orF_canon (h.upd rfl rfl))

theorem execMsixPendingSend_canon {v : Nat} (h : CanonBut P s) : NextCanon P (execMsixPendingSend v s) :=
  ⟨_, rfl, onlyIf_canon (fun _ h => msixSend_canon (clrF_canon h)) h⟩

theorem farFail_canon {why dev addr : Nat} (h : CanonBut P s) : CanonBut P (farFail why dev addr s) :=
  raise_canon (incF_canon (setF_canon (setF_canon (setF_canon h))))

theorem fetchFree_canon {f : Fetch} (h : CanonBut P s) : CanonBut P (fetchFree f s) :=
  fetchDrop_canon (setLease_canon h)

theorem setFetch_canon {b : Nat} {f : Fetch} (h : CanonBut P s) : CanonBut P (setFetch b f s) :=
  h.upd rfl rfl

theorem nextTag_canon (h : CanonBut P s) : CanonBut P (nextTag s).2 :=
  h.upd rfl rfl

theorem farSend_canon {type d : Nat} {p : List Byte} (h : CanonBut P s) : CanonBut P (farSend type d p s) :=
  hieSend_canon h

theorem farStart_canon {rq : Requester} {d addr n : Nat} (h : CanonBut P s) : CanonBut P (farStart rq d addr n s) := by
  unfold farStart
  split
  · exact incF_canon h
  · split
    · exact countFull_canon h
    · next e1 => exact farSend_canon ((nextTag_canon (grantLease_canon h e1)).upd rfl rfl)

theorem farRead_canon {rq : Requester} {a n : Nat} (h : CanonBut P s) : CanonBut P (farRead rq a n s).2 := by
  unfold farRead
  dsimp only
  split
  · exact pair_canon (farFail_canon h)
  · split
    · exact pair_canon (farStart_canon h)
    · refine iteSnd_canon h ?_
      split
      · exact pair_canon (fetchFree_canon h)
      · exact pair_canon (fetchFree_canon h)
      · exact pair_canon (ite_canon (setFetch_canon h) h)

theorem farWrite_canon {rq : Requester} {a : Nat} {ws : List Word} (h : CanonBut P s) : CanonBut P (farWrite rq a ws s).2 := by
  unfold farWrite
  dsimp only
  split
  · exact pair_canon (farFail_canon h)
  · exact iteSnd_canon h (pair_canon (farSend_canon ((nextTag_canon h).upd rfl rfl)))

theorem farBus_canon {x : FarAnswer × State} (h : CanonBut P x.2) : CanonBut P (farBus x) := by
  unfold farBus
  split
  · exact busDone_canon h
  · exact busWide_canon h
  · exact busError_canon h
  · exact busRetry_canon h

theorem pcieDone_canon {ok : Bool} {l : List Word} (h : CanonBut P s) : CanonBut P (pcieDone ok l s) :=
  emit_canon (ite_canon (busWide_canon h) (busError_canon h))

theorem farComplete_canon {b : Nat} (h : CanonBut P s) : CanonBut P (farComplete b s) := by
  unfold farComplete
  split
  · exact h
  · refine ite_canon h (ite_canon ?_ ((farStart_canon ?_).upd rfl rfl))
    · split
      · exact pcieDone_canon (fetchFree_canon h)
      · exact pcieDone_canon (fetchFree_canon h)
    · split
      · exact pcieDone_canon (fetchFree_canon h)
      · exact pcieDone_canon (fetchFree_canon h)

theorem pcieFarRead_canon {x : Nat} {bes : List Nat} (h : CanonBut P s) : CanonBut P (pcieFarRead x bes s) := by
  refine ite_canon (pcieDone_canon (splitRead_canon h)) ?_
  split
  · exact pcieDone_canon (splitFault_canon h)
  · dsimp only
    split
    · exact pcieDone_canon (farRead_canon h)
    · exact pcieDone_canon (farRead_canon h)
    · exact busRetry_canon (farRead_canon h)

theorem pcieRegRead_canon {a : Nat} {bes : List Nat} (h : CanonBut P s) : CanonBut P (pcieRegRead a bes s) :=
  ite_canon (pcieDone_canon (splitEnd_canon (splitRead_canon h))) (pcieDone_canon (splitEnd_canon (splitRead_canon h)))

theorem barWrite_canon {i : Nat} {w : Word} (h : CanonBut P s) : CanonBut P (barWrite i w s) :=
  h.upd rfl rfl

theorem pcieConfig_canon {x : Nat} (h : CanonBut P s) : CanonBut P (pcieConfig x s) :=
  ite_canon (pcieDone_canon h) (ite_canon (pcieDone_canon (h.upd rfl rfl))
    (ite_canon (pcieDone_canon (h.upd rfl rfl)) (ite_canon (pcieDone_canon (h.upd rfl rfl))
    (ite_canon (pcieDone_canon h) (ite_canon (pcieDone_canon h) (pcieDone_canon (h.upd rfl rfl)))))))

theorem pcieRead_canon {sp : PcieSpace} {x : Nat} {bes : List Nat} (h : CanonBut P s) : CanonBut P (pcieRead sp x bes s) := by
  unfold pcieRead
  split
  · exact ite_canon (pcieDone_canon h) (pcieRegRead_canon h)
  · exact ite_canon (pcieDone_canon h) (pcieFarRead_canon h)
  · exact pcieRegRead_canon h
  · exact pcieConfig_canon h
  · exact pcieDone_canon (h.upd rfl rfl)
  · exact pcieDone_canon (h.upd rfl rfl)

theorem execPcieRead_canon {sp : PcieSpace} {x : Nat} {bes : List Nat} (h : CanonBut P s) : NextCanon P (execPcieRead sp x bes s) :=
  ⟨_, rfl, onlyIf_canon (fun _ h => ite_canon (emit_canon (busError_canon h)) (pcieRead_canon h)) h⟩

theorem pcieFarWrite_canon {x : Nat} {ws : List (Word × Nat)} (h : CanonBut P s) : CanonBut P (pcieFarWrite x ws s) := by
  refine ite_canon (busRetry_canon h) ?_
  split
  · exact busDone_canon (splitFault_canon (applyAll_canon (fun _ _ h => farWrite_canon h) h))
  · exact busDone_canon (applyAll_canon (fun _ _ h => farWrite_canon h) h)

theorem pcieWrite_canon {sp : PcieSpace} {x : Nat} {ws : List (Word × Nat)} (h : CanonBut P s) : CanonBut P (pcieWrite sp x ws s) := by
  unfold pcieWrite
  split
  · exact busDone_canon (splitEnd_canon (splitWrite_canon h))
  · exact pcieFarWrite_canon h
  · exact busDone_canon (splitEnd_canon (splitWrite_canon h))
  · refine busDone_canon ?_
    split
    · exact ite_canon (h.upd rfl rfl) (ite_canon (barWrite_canon h) h)
    · exact h
  · split
    · exact busDone_canon (h.upd rfl rfl)
    · exact busDone_canon h
  · split
    · exact busDone_canon (ite_canon (h.upd rfl rfl) h)
    · exact busDone_canon h

theorem execPcieWrite_canon {sp : PcieSpace} {x : Nat} {ws : List (Word × Nat)} (h : CanonBut P s) : NextCanon P (execPcieWrite sp x ws s) :=
  ⟨_, rfl, onlyIf_canon (fun _ h => ite_canon (busDone_canon h) (pcieWrite_canon h)) h⟩

theorem execPcieLinkChange_canon {up : Bool} {gen width : Nat} (h : CanonBut P s) : NextCanon P (execPcieLinkChange up gen width s) :=
  ⟨_, rfl, ite_canon (onlyIf_canon (fun _ h => setB_canon (setF_canon (setF_canon h))) h) (pcieDown_canon h)⟩

theorem qspiSend_canon {st : Nat} {l : List Byte} (h : CanonBut P s) : CanonBut P (qspiSend st l s) :=
  emit_canon h

theorem qspiRefuse_canon (h : CanonBut P s) : CanonBut P (qspiRefuse s) :=
  qspiSend_canon (busError_canon (setB_canon h))

theorem qspiPartial_canon {a n : Nat} {bytes : List Byte} {done : Nat} {failed : Bool} (h : CanonBut P s) :
    CanonBut P (qspiPartial a n bytes done failed s) :=
  ite_canon (setB_canon (ite_canon h (splitFault_canon h))) h

theorem qspiLocal_canon {write : Bool} {a n : Nat} {bytes : List Byte} (h : CanonBut P s) : CanonBut P (qspiLocal write a n bytes s) := by
  unfold qspiLocal
  split
  · exact qspiRefuse_canon (ite_canon (violate_canon h) h)
  · exact ite_canon (qspiSend_canon (busDone_canon (qspiPartial_canon (splitEnd_canon (splitWrite_canon h)))))
      (qspiSend_canon (ite_canon (busError_canon (splitEnd_canon (splitRead_canon h))) (busWide_canon (splitEnd_canon (splitRead_canon h)))))

theorem qspiFar_canon {write : Bool} {a n : Nat} {bytes : List Byte} (h : CanonBut P s) : CanonBut P (qspiFar write a n bytes s) := by
  unfold qspiFar
  extract_lets r
  have hr : CanonBut P r.2 := by
    refine iteSnd_canon (farRead_canon h) ?_
    split
    · exact iteSnd_canon h (farWrite_canon h)
    · exact farWrite_canon h
  split
  · exact qspiSend_canon (ite_canon (busDone_canon (qspiPartial_canon hr)) (busWide_canon hr))
  · exact qspiRefuse_canon (setB_canon hr)
  · exact qspiSend_canon (busRetry_canon hr)

theorem qspiTransaction_canon {cmd a len : Nat} {bytes : List Byte} (h : CanonBut P s) : CanonBut P (qspiTransaction cmd a len bytes s) :=
  ite_canon h (iteThen_canon (qspiRefuse_canon h) fun h1 => ite_canon (ite_canon h1 (qspiLocal_canon h))
    (ite_canon (ite_canon h1 (qspiFar_canon h)) h1))

theorem execQspiTransaction_canon {cmd a len : Nat} {bytes : List Byte} (h : CanonBut P s) :
    NextCanon P (execQspiTransaction cmd a len bytes s) :=
  ⟨_, rfl, onlyIf_canon (fun _ h => qspiTransaction_canon h) h⟩

theorem execQspiStatus_canon (h : CanonBut P s) : NextCanon P (execQspiStatus s) :=
  ⟨_, rfl, onlyIf_canon (fun _ h => qspiSend_canon (busData_canon h)) h⟩

theorem execFarReadAccess_canon {rq : Requester} {a n : Nat} (h : CanonBut P s) : NextCanon P (execFarReadAccess rq a n s) := by
  refine ⟨_, rfl, ?_⟩
  split
  · exact ite_canon (farBus_canon (farRead_canon h)) (busError_canon h)
  · exact onlyIf_canon (fun _ h => pcieRead_canon h) h
  · exact onlyIf_canon (fun _ h => qspiTransaction_canon h) h
  · exact busError_canon h

theorem execFarWrite_canon {rq : Requester} {a : Nat} {ws : List Word} (h : CanonBut P s) : NextCanon P (execFarWrite rq a ws s) := by
  refine ⟨_, rfl, ?_⟩
  split
  · exact ite_canon (farBus_canon (farWrite_canon h)) (busError_canon h)
  · exact onlyIf_canon (fun _ h => pcieWrite_canon h) h
  · exact onlyIf_canon (fun _ h => qspiTransaction_canon h) h
  · exact busError_canon h

theorem fetchResult_canon {b : Nat} {f : Fetch} {res : Option (List Nat)} (h : CanonBut P s) : CanonBut P (fetchResult b f res s) :=
  farComplete_canon (setFetch_canon (setLease_canon h))

theorem execFarReadAnswer_canon (h : CanonBut P s) : NextCanon P (execFarReadAnswer s) := by
  refine ⟨_, rfl, ?_⟩
  refine takeMsg_canon (fun _ _ h => ?_) h
  split
  · exact h
  · exact ite_canon (fetchResult_canon h) (fetchResult_canon (farFail_canon h))

theorem execFarFetchTimeout_canon {b : Nat} (h : CanonBut P s) : NextCanon P (execFarFetchTimeout b s) := by
  refine ⟨_, rfl, ?_⟩
  split
  · exact ite_canon (fetchResult_canon (farFail_canon h)) h
  · exact h

theorem execFarResultExpiry_canon {b : Nat} (h : CanonBut P s) : NextCanon P (execFarResultExpiry b s) := by
  refine ⟨_, rfl, ?_⟩
  split
  · exact onlyIf_canon (fun _ h => raise_canon (incF_canon (declare_canon h))) h
  · exact h

theorem writeDrop_canon {tag : Nat} (h : CanonBut P s) : CanonBut P (writeDrop tag s) :=
  h.upd rfl rfl

theorem execFarWriteAck_canon (h : CanonBut P s) : NextCanon P (execFarWriteAck s) := by
  refine ⟨_, rfl, ?_⟩
  refine takeMsg_canon (fun _ _ h => ?_) h
  split
  · exact h
  · exact iteThen_canon (writeDrop_canon h) fun h1 => farFail_canon h1

theorem execFarWriteTimeout_canon {tag : Nat} (h : CanonBut P s) : NextCanon P (execFarWriteTimeout tag s) := by
  refine ⟨_, rfl, ?_⟩
  split
  · exact h
  · exact farFail_canon (writeDrop_canon h)

theorem farRequester_canon {m : PMsg} (h : CanonBut P s) : CanonBut P (farRequester m s).2 :=
  h.upd rfl rfl

theorem serveRead_canon {m : PMsg} (h : CanonBut P s) : CanonBut P (serveRead m s) := by
  unfold serveRead
  extract_lets n r s' head x
  have hr : CanonBut P r.2 := farRequester_canon h
  have hs' : CanonBut P s' := hr
  have hx : CanonBut P x.2 := splitRead_canon hs'
  refine ite_canon (hieSend_canon hs') ?_
  split
  · exact hieSend_canon hx
  · exact hieSend_canon hx

theorem serveWords_canon {rq : Requester} {a : Nat} {l : List Word} {x : Nat × State} (h : CanonBut P x.2) :
    CanonBut P (serveWords rq a l x).2 := by
  induction l generalizing a x with
  | nil => exact h
  | cons w l ih => exact iteSnd_canon (busWrite_canon h) (ih (busWrite_canon h))

theorem serveWrite_canon {m : PMsg} (h : CanonBut P s) : CanonBut P (serveWrite m s) := by
  unfold serveWrite
  extract_lets n q s' ws r
  have hq : CanonBut P q.2 := farRequester_canon h
  have hs' : CanonBut P s' := hq
  have hr : CanonBut P r.2 := iteSnd_canon hs' (serveWords_canon hs')
  exact hieSend_canon hr

theorem execFarRequestServe_canon (h : CanonBut P s) : NextCanon P (execFarRequestServe s) := by
  refine ⟨_, rfl, ?_⟩
  split
  · exact h
  · exact ite_canon h (ite_canon (serveRead_canon (h.upd rfl rfl)) (ite_canon (serveWrite_canon (h.upd rfl rfl)) h))

theorem revPush_canon {e : RemoteEvent} (h : CanonBut P s) : CanonBut P (revPush e s) :=
  ite_canon (incF_canon h) (ite_canon (raise_canon (h.upd rfl rfl)) (h.upd rfl rfl))

theorem eventMessage_canon {e us : Nat} (h : CanonBut P s) : CanonBut P (eventMessage e us s) :=
  ite_canon (incF_canon (revPush_canon (incWrap_canon h))) (ite_canon (incF_canon h) (incF_canon (internalInline_canon (incWrap_canon h))))

theorem execEventMessageSend_canon (h : CanonBut P s) : NextCanon P (execEventMessageSend s) := by
  refine ⟨_, rfl, ?_⟩
  split
  · exact h
  · exact ite_canon (h.upd rfl rfl) (ite_canon (incF_canon (h.upd rfl rfl)) (ite_canon h (eventMessage_canon (h.upd rfl rfl))))

theorem execEventPacingFlush_canon (h : CanonBut P s) : NextCanon P (execEventPacingFlush s) :=
  ⟨_, rfl, applyAll_canon (fun _ _ h => ite_canon h (eventMessage_canon (h.upd rfl rfl))) h⟩

theorem execRemoteEventReceive_canon (h : CanonBut P s) : NextCanon P (execRemoteEventReceive s) :=
  ⟨_, rfl, takeMsg_canon (fun _ _ h => onlyIf_canon (fun _ h => revPush_canon h) h) h⟩

/-! ## The functions of Machine/Tick.lean -/

theorem etherCycles_canon {n : Nat} (h : CanonBut P s) : CanonBut P (etherCycles n s) :=
  h.upd rfl rfl

theorem millisecond_canon (h : CanonBut P s) : CanonBut P (millisecond s) :=
  refreshMs_canon (iteElse_canon (ledgerMs_canon (h.upd rfl rfl)) fun h1 => setF_canon h1)

theorem refCycles_canon (h : CanonBut P s) : CanonBut P (refCycles s) :=
  ite_canon (h.upd rfl rfl) h

theorem aonCycles_canon (h : CanonBut P s) : CanonBut P (aonCycles s) :=
  ite_canon h (h.upd rfl rfl)

theorem reclaimStart_canon (h : CanonBut P s) : CanonBut P (reclaimStart s) :=
  h.upd rfl rfl

theorem serHandoffs_canon (h : CanonBut P s) : CanonBut P (serHandoffs s) :=
  applyAll_canon (fun _ _ h => serHandAll_canon h) h

theorem clockTick_canon (h : CanonBut P s) : CanonBut P (clockTick s) :=
  iteThen_canon (aonCycles_canon (refCycles_canon h)) fun h1 => iteElse_canon
    (endTests_canon (etherCycles_canon (serHandoffs_canon (reclaimStart_canon (h1.upd rfl rfl))))) fun h2 => millisecond_canon h2

/-! ## Every command, and the step -/

/-- Each command's meaning answers a state whose stores are canonical where they were, by the lemma of its meaning. -/
theorem exec_canon (c : Instr) (h : CanonBut P s) : NextCanon P (exec c s) := by
  cases c with
  | powerOnResetRelease role boot wpol => exact execPowerOnResetRelease_canon h
  | powerOnResetAssert rail vbatOk => exact execPowerOnResetAssert_canon h
  | aonDomainPowerUp fromVbat => exact execAonDomainPowerUp_canon h
  | aonSupplyLoss => exact execAonSupplyLoss_canon h
  | xinAmplitudeGood => exact execXinAmplitudeGood_canon h
  | xinStable => exact execXinStable_canon h
  | rootPllLock us => exact execRootPllLock_canon h
  | rootPllLockLoss => exact execRootPllLockLoss_canon h
  | clockFault => exact execClockFault_canon h
  | pllLockLossOther p => exact execPllLockLossOther_canon h
  | railWarnCrossing r => exact execRailWarnCrossing_canon h
  | railFailCrossing r => exact execRailFailCrossing_canon h
  | railValid r classMv => exact execRailValid_canon h
  | pcieRefStable => exact execPcieRefStable_canon h
  | pfailFall => exact execPfailFall_canon h
  | pfailRestoreExpiry => exact execPfailRestoreExpiry_canon h
  | resetNAssert => exact execResetNAssert_canon h
  | resetNRelease => exact execResetNRelease_canon h
  | fullResetEnd => exact execFullResetEnd_canon h
  | systemSoftwareReset rq key => exact execSystemSoftwareReset_canon h
  | normalWorldResetCmd rq key => exact execNormalWorldResetCmd_canon h
  | secureWorldResetCmd rq key => exact execSecureWorldResetCmd_canon h
  | normalWatchdogKick rq key => exact execNormalWatchdogKick_canon h
  | normalWatchdogEnable rq w => exact execNormalWatchdogEnable_canon h
  | normalWatchdogExpiry => exact execNormalWatchdogExpiry_canon h
  | secureWatchdogKick rq key => exact execSecureWatchdogKick_canon h
  | secureWatchdogExpiry => exact execSecureWatchdogExpiry_canon h
  | loadingEntry => exact execLoadingEntry_canon h
  | bootQuarantine => exact execBootQuarantine_canon h
  | imageHeaderCheck hdr => exact execImageHeaderCheck_canon h
  | imageVerify img => exact execImageVerify_canon h
  | build ddrOk => exact execBuild_canon h
  | cutOver => exact execCutOver_canon h
  | tileStart n => exact execTileStart_canon h
  | canIntegrationDone n => exact execCanIntegrationDone_canon h
  | allowanceRampTick => exact execAllowanceRampTick_canon h
  | joinSend => exact execJoinSend_canon h
  | imagePieceReceive => exact execImagePieceReceive_canon h
  | imageRerequestTimeout => exact execImageRerequestTimeout_canon h
  | imageBlockRequest img => exact execImageBlockRequest_canon h
  | wireInChange n level => exact execWireInChange_canon h
  | wireDebounceExpiry n => exact execWireDebounceExpiry_canon h
  | wireRecordIssue => exact execWireRecordIssue_canon h
  | carlinkHuntSync p bit => exact execCarlinkHuntSync_canon h
  | carlinkCandidateFrame p bit f => exact execCarlinkCandidateFrame_canon h
  | carlinkFrameReceive p f => exact execCarlinkFrameReceive_canon h
  | relockSync p off f => exact execRelockSync_canon h
  | relockTimeout p => exact execRelockTimeout_canon h
  | carlinkFrameSend p incoming => exact execCarlinkFrameSend_canon h
  | rephaseStart p => exact execRephaseStart_canon h
  | lnkMsgtxGo rq p w => exact execLnkMsgtxGo_canon h
  | standbyRequest rq w => exact execStandbyRequest_canon h
  | standbyEntryComplete => exact execStandbyEntryComplete_canon h
  | standbyCoreWaitTimeout => exact execStandbyCoreWaitTimeout_canon h
  | standbyExit refCycles => exact execStandbyExit_canon h
  | pwrReadyWrite rq w => exact execPwrReadyWrite_canon h
  | aonWriteTransit => exact execAonWriteTransit_canon h
  | rtcSecond => exact execRtcSecond_canon h
  | aonRtcset rq w => exact execAonRtcset_canon h
  | wakePinFire n => exact execWakePinFire_canon h
  | tamperFire => exact execTamperFire_canon h
  | tamperLatchClear rq => exact execTamperLatchClear_canon h
  | vbatMeasure mv10 => exact execVbatMeasure_canon h
  | pwrReqHoldExpiry => exact execPwrReqHoldExpiry_canon h
  | pwrReqRelease rq => exact execPwrReqRelease_canon h
  | pwrReqSwWrite rq w => exact execPwrReqSwWrite_canon h
  | aonLogack rq => exact execAonLogack_canon h
  | deltaOpen rq => exact execDeltaOpen_canon h
  | deltaDelivery rq w => exact execDeltaDelivery_canon h
  | deltaDeliveryDone bad => exact execDeltaDeliveryDone_canon h
  | deltaClose rq => exact execDeltaClose_canon h
  | deltaAbort rq => exact execDeltaAbort_canon h
  | deltaPrepareDone => exact execDeltaPrepareDone_canon h
  | deltaLockAcquired => exact execDeltaLockAcquired_canon h
  | tileQuiet n => exact execTileQuiet_canon h
  | deltaCutOver => exact execDeltaCutOver_canon h
  | deltaDrainEnd => exact execDeltaDrainEnd_canon h
  | pageRequest reqs => exact execPageRequest_canon h
  | pageFree p => exact execPageFree_canon h
  | inkPgreq rq w => exact execInkPgreq_canon h
  | inkPgfree rq n => exact execInkPgfree_canon h
  | swcLockTake rq => exact execSwcLockTake_canon h
  | fwtLockTake rq => exact execFwtLockTake_canon h
  | pkeLockTake rq => exact execPkeLockTake_canon h
  | leaseRenew rq n => exact execLeaseRenew_canon h
  | leaseRelease rq n => exact execLeaseRelease_canon h
  | leaseExpiry n => exact execLeaseExpiry_canon h
  | inkRevoke rq w => exact execInkRevoke_canon h
  | reclaimDone => exact execReclaimDone_canon h
  | lodgerPeriodStart lid => exact execLodgerPeriodStart_canon h
  | itemRelease lid w => exact execItemRelease_canon h
  | itemDispatch => exact execItemDispatch_canon h
  | itemComplete lid => exact execItemComplete_canon h
  | deadlineMiss lid => exact execDeadlineMiss_canon h
  | pageInDone lid us => exact execPageInDone_canon h
  | pagingMsCheck => exact execPagingMsCheck_canon h
  | frameIngress p frame sfd => exact execFrameIngress_canon h
  | authenticate bad => exact execAuthenticate_canon h
  | frameStored p => exact execFrameStored_canon h
  | cutThroughEnd p why => exact execCutThroughEnd_canon h
  | egressSelection p => exact execEgressSelection_canon h
  | transmitDone p => exact execTransmitDone_canon h
  | gateEntryChange p => exact execGateEntryChange_canon h
  | gateConfigChange p => exact execGateConfigChange_canon h
  | gateHoldDiscard p c => exact execGateHoldDiscard_canon h
  | policerCreditTick => exact execPolicerCreditTick_canon h
  | streamResetTimeout sh => exact execStreamResetTimeout_canon h
  | swcSnap rq w => exact execSwcSnap_canon h
  | receiveRingWrite r => exact execReceiveRingWrite_canon h
  | ringInterrupt r => exact execRingInterrupt_canon h
  | transmitSlotProcess r => exact execTransmitSlotProcess_canon h
  | pageWindowAccess rq a size v => exact execPageWindowAccess_canon h
  | learnApply => exact execLearnApply_canon h
  | ageingScan => exact execAgeingScan_canon h
  | migrateStart rq w => exact execMigrateStart_canon h
  | migrateDone => exact execMigrateDone_canon h
  | migrateCancel rq w => exact execMigrateCancel_canon h
  | bankClearDone => exact execBankClearDone_canon h
  | porterGo rq w => exact execPorterGo_canon h
  | porterOperation => exact execPorterOperation_canon h
  | overlayDrainDone => exact execOverlayDrainDone_canon h
  | caravanSend => exact execCaravanSend_canon h
  | caravanMerge => exact execCaravanMerge_canon h
  | redistributionInstall => exact execRedistributionInstall_canon h
  | fullRefresh => exact execFullRefresh_canon h
  | sourceTimeout lid e => exact execSourceTimeout_canon h
  | frameItem lid => exact execFrameItem_canon h
  | cyclicRelease lid idx => exact execCyclicRelease_canon h
  | deferredSend lid idx => exact execDeferredSend_canon h
  | trnSigsel rq w => exact execTrnSigsel_canon h
  | canFrameValid n f ago => exact execCanFrameValid_canon h
  | canHandoff n => exact execCanHandoff_canon h
  | canXlFrameReceive n f ago ok => exact execCanXlFrameReceive_canon h
  | canFrameError n e code dph => exact execCanFrameError_canon h
  | canBodelayExpiry n => exact execCanBodelayExpiry_canon h
  | canRecoveryDone n => exact execCanRecoveryDone_canon h
  | canCtlStart rq n => exact execCanCtlStart_canon h
  | canCtlStop rq n => exact execCanCtlStop_canon h
  | canCtlRecover rq n => exact execCanCtlRecover_canon h
  | canArbitrationChoice n => exact execCanArbitrationChoice_canon h
  | canTxEnd n ok meas => exact execCanTxEnd_canon h
  | canSwitchBufferLoad n => exact execCanSwitchBufferLoad_canon h
  | canTxreq rq n w => exact execCanTxreq_canon h
  | canTxcan rq n w => exact execCanTxcan_canon h
  | canRxBufferRead rq n o => exact execCanRxBufferRead_canon h
  | canRxrel rq n buf => exact execCanRxrel_canon h
  | canPriorel rq n w => exact execCanPriorel_canon h
  | linSlotStart n => exact execLinSlotStart_canon h
  | linHeaderReceive n sync pid => exact execLinHeaderReceive_canon h
  | linResponseEnd n bytes framing readback ago => exact execLinResponseEnd_canon h
  | linSchedWrite rq n w => exact execLinSchedWrite_canon h
  | linPubWrite rq n idx k w => exact execLinPubWrite_canon h
  | serialTxDequeue n => exact execSerialTxDequeue_canon h
  | uartTxStart n => exact execUartTxStart_canon h
  | uartFrameEnd n chars gap => exact execUartFrameEnd_canon h
  | hdlcFrameReceive n chars => exact execHdlcFrameReceive_canon h
  | uartSwtxGo rq n w => exact execUartSwtxGo_canon h
  | gpioInputChange n levels => exact execGpioInputChange_canon h
  | serCtlStop rq n => exact execSerCtlStop_canon h
  | serCtlStart rq n => exact execSerCtlStart_canon h
  | ethLinkUp p spd hdx anok => exact execEthLinkUp_canon h
  | ethLinkDown p => exact execEthLinkDown_canon h
  | macFrameReceive p frame sfd fcsOk sym => exact execMacFrameReceive_canon h
  | mdioCommand rq p w => exact execMdioCommand_canon h
  | mdioDone answer => exact execMdioDone_canon h
  | ethTxtsRead rq p => exact execEthTxtsRead_canon h
  | plcaBeaconReceive p => exact execPlcaBeaconReceive_canon h
  | plcaInactive p => exact execPlcaInactive_canon h
  | t1sCollision p => exact execT1sCollision_canon h
  | syncReceive p => exact execSyncReceive_canon h
  | syncTimeout => exact execSyncTimeout_canon h
  | tsySet rq => exact execTsySet_canon h
  | tsyStep rq => exact execTsyStep_canon h
  | tsyFadjWrite rq w => exact execTsyFadjWrite_canon h
  | latchingPairRead rq a n => exact execLatchingPairRead_canon h
  | unitSleepRequest rq hi w => exact execUnitSleepRequest_canon h
  | unitAsleep u => exact execUnitAsleep_canon h
  | unitWakeRequest rq hi w => exact execUnitWakeRequest_canon h
  | wakeUpFrame n f dlc => exact execWakeUpFrame_canon h
  | wakeDominant n us => exact execWakeDominant_canon h
  | wakeFrameErrors n => exact execWakeFrameErrors_canon h
  | wakePortEnergy p us => exact execWakePortEnergy_canon h
  | wakeWireOrPin pin idx => exact execWakeWireOrPin_canon h
  | serdesPllRestartLock g => exact execSerdesPllRestartLock_canon h
  | validationWindowClose u => exact execValidationWindowClose_canon h
  | wksValid rq hi w => exact execWksValid_canon h
  | wksLogack rq w => exact execWksLogack_canon h
  | linGoToSleepReceive n => exact execLinGoToSleepReceive_canon h
  | linIdleSleep n => exact execLinIdleSleep_canon h
  | linWakePulseTimeout n => exact execLinWakePulseTimeout_canon h
  | pcieRead sp x bes => exact execPcieRead_canon h
  | pcieWrite sp x ws => exact execPcieWrite_canon h
  | qspiTransaction cmd a len bytes => exact execQspiTransaction_canon h
  | qspiStatus => exact execQspiStatus_canon h
  | msixRequest => exact execMsixRequest_canon h
  | msixPendingSend v => exact execMsixPendingSend_canon h
  | farReadAccess rq a n => exact execFarReadAccess_canon h
  | farReadAnswer => exact execFarReadAnswer_canon h
  | farFetchTimeout b => exact execFarFetchTimeout_canon h
  | farResultExpiry b => exact execFarResultExpiry_canon h
  | farWrite rq a ws => exact execFarWrite_canon h
  | farWriteAck => exact execFarWriteAck_canon h
  | farWriteTimeout tag => exact execFarWriteTimeout_canon h
  | farRequestServe => exact execFarRequestServe_canon h
  | eventMessageSend => exact execEventMessageSend_canon h
  | eventPacingFlush => exact execEventPacingFlush_canon h
  | remoteEventReceive => exact execRemoteEventReceive_canon h
  | brgRev0Read rq => exact execBrgRev0Read_canon h
  | ploilhanReceive bad => exact execPloilhanReceive_canon h
  | join => exact execJoin_canon h
  | joinAnswer => exact execJoinAnswer_canon h
  | heartbeatSend => exact execHeartbeatSend_canon h
  | heartbeatReceive => exact execHeartbeatReceive_canon h
  | workerLost d => exact execWorkerLost_canon h
  | managerLost => exact execManagerLost_canon h
  | takeover => exact execTakeover_canon h
  | takeoverReceive => exact execTakeoverReceive_canon h
  | probeEnd => exact execProbeEnd_canon h
  | positionChangeRejoin => exact execPositionChangeRejoin_canon h
  | imageBlockDeltaOpen => exact execImageBlockDeltaOpen_canon h
  | imageBlockDeltaChunk => exact execImageBlockDeltaChunk_canon h
  | imageBlockDeltaClose => exact execImageBlockDeltaClose_canon h
  | imageBlockDeltaAbort => exact execImageBlockDeltaAbort_canon h
  | imageBlockStatus => exact execImageBlockStatus_canon h
  | wearReportRequest rq w => exact execWearReportRequest_canon h
  | wearReportSend => exact execWearReportSend_canon h
  | remoteFullReset side => exact execRemoteFullReset_canon h
  | remoteNormalReset side => exact execRemoteNormalReset_canon h
  | remoteRevoke side => exact execRemoteRevoke_canon h
  | lifecycleArm rq key target => exact execLifecycleArm_canon h
  | lifecycleCommit rq key target => exact execLifecycleCommit_canon h
  | lifecycleBurnDone => exact execLifecycleBurnDone_canon h
  | imageKeyProgram rq key slot => exact execImageKeyProgram_canon h
  | imageKeyRevoke rq key slot => exact execImageKeyRevoke_canon h
  | floorSet rq w => exact execFloorSet_canon h
  | nodeCreate rq key parent => exact execNodeCreate_canon h
  | nodeInvalidate rq key node => exact execNodeInvalidate_canon h
  | nodeFree rq key node => exact execNodeFree_canon h
  | slotWipe k => exact execSlotWipe_canon h
  | wrap rq w => exact execWrap_canon h
  | wrapDone => exact execWrapDone_canon h
  | shelfWrite rq key idx => exact execShelfWrite_canon h
  | shelfErase rq key idx => exact execShelfErase_canon h
  | keyLoad rq w => exact execKeyLoad_canon h
  | keyLoadDone => exact execKeyLoadDone_canon h
  | wldLock rq w => exact execWldLock_canon h
  | secureCall core => exact execSecureCall_canon h
  | debugAccess w a v n => exact execDebugAccess_canon h
  | ckvRingTail rq ns w => exact execCkvRingTail_canon h
  | ckvDispatch l => exact execCkvDispatch_canon h
  | ckvJobDone l agree => exact execCkvJobDone_canon h
  | pkeJobGo rq w => exact execPkeJobGo_canon h
  | pkeJobEnd inv cyc => exact execPkeJobEnd_canon h
  | pkeSlenWrite rq k w => exact execPkeSlenWrite_canon h
  | pkeOpdataAccess rq v => exact execPkeOpdataAccess_canon h
  | digestGo rq ns w => exact execDigestGo_canon h
  | digestDone ns => exact execDigestDone_canon h
  | drgDataRead rq => exact execDrgDataRead_canon h
  | drbgReseed rq => exact execDrbgReseed_canon h
  | entropyHealthFail apt => exact execEntropyHealthFail_canon h
  | adcConversion idx code => exact execAdcConversion_canon h
  | pwmTrigger m icode vcode waited => exact execPwmTrigger_canon h
  | motorRun rq m w => exact execMotorRun_canon h
  | motorStop rq m => exact execMotorStop_canon h
  | motorCoast rq m => exact execMotorCoast_canon h
  | motorClear rq m => exact execMotorClear_canon h
  | motorObservationEnd m events rpm rev => exact execMotorObservationEnd_canon h
  | motorMeasurementEnd m events rpm rev => exact execMotorMeasurementEnd_canon h
  | motorPositionEvent m code ns => exact execMotorPositionEvent_canon h
  | motorPwmPeriod m => exact execMotorPwmPeriod_canon h
  | motorAlignEnd m => exact execMotorAlignEnd_canon h
  | motorHandoverTimeout m => exact execMotorHandoverTimeout_canon h
  | motorStallTimeout m => exact execMotorStallTimeout_canon h
  | motorWaitLimit m => exact execMotorWaitLimit_canon h
  | motorHallInvalid m code => exact execMotorHallInvalid_canon h
  | motorFltInput m => exact execMotorFltInput_canon h
  | motorTest rq m w => exact execMotorTest_canon h
  | lampCommand rq n w => exact execLampCommand_canon h
  | lampTokenGrant g => exact execLampTokenGrant_canon h
  | lampInrushEnd n above => exact execLampInrushEnd_canon h
  | lampHardShort n => exact execLampHardShort_canon h
  | lampOvercurrent n => exact execLampOvercurrent_canon h
  | lampGroupLimit g => exact execLampGroupLimit_canon h
  | lampDisturbanceEnd g => exact execLampDisturbanceEnd_canon h
  | lampCoolDownEnd n => exact execLampCoolDownEnd_canon h
  | lampBlinkPhase n => exact execLampBlinkPhase_canon h
  | lampOpenDetect n below => exact execLampOpenDetect_canon h
  | lampTriesReset n => exact execLampTriesReset_canon h
  | lampTest rq w => exact execLampTest_canon h
  | ledgerSecond => exact execLedgerSecond_canon h
  | temperatureMeasure t => exact execTemperatureMeasure_canon h
  | ringOscillatorMeasure ppm => exact execRingOscillatorMeasure_canon h
  | ledgerSave => exact execLedgerSave_canon h
  | ledgerSaveDone => exact execLedgerSaveDone_canon h
  | monthlySample => exact execMonthlySample_canon h
  | werReset rq w => exact execWerReset_canon h
  | werSel rq w => exact execWerSel_canon h
  | evcRouteWrite rq e w => exact execEvcRouteWrite_canon h
  | evcSoft rq w => exact execEvcSoft_canon h
  | w1cWrite rq a w n => exact execW1cWrite_canon h
  | rcRead rq a n => exact execRcRead_canon h
  | registerWrite rq a w n => exact execRegisterWrite_canon h
  | suppliesValid => exact execSuppliesValid_canon h
  | pfailRise => exact execPfailRise_canon h
  | wakePinRearm n => exact execWakePinRearm_canon h
  | tamperRearm => exact execTamperRearm_canon h
  | serdesPllRelock g => exact execSerdesPllRelock_canon h
  | pcieLinkChange up gen width => exact execPcieLinkChange_canon h
  | transmitOpportunity p => exact execTransmitOpportunity_canon h
  | serialTxEnd n echo => exact execSerialTxEnd_canon h
  | boundaryScanInstruction idx => exact execBoundaryScanInstruction_canon h

theorem step_canon (h : CanonBut P s) : NextCanon P (step s) := by
  unfold step
  split
  · exact ⟨_, rfl, clockTick_canon h⟩
  · next c r _ => exact exec_canon c (h.upd rfl rfl)

end

/-- Settles O5: each function of the model keeps `CanonBut`, so a step does; with no key that may repeat it is `Canonical`. -/
theorem canonicalKept : Obligations.CanonicalKept := by
  unfold Obligations.CanonicalKept
  intro s t hs ht
  obtain ⟨t', ht', hcanon⟩ := step_canon (canonBut_false_iff.2 hs)
  obtain rfl : t' = t := Host.Outcome.next.inj (ht'.symm.trans ht)
  exact canonBut_false_iff.1 hcanon

end Sys2Proof.Machine

/-! # What leaves system control as it stands

The power state, the time base, the count of ticks, the bus answer, and the registers of the blocks SYS, CKR and PWR: all that pages, the switch
core, the tiles, the ports, the cabinet and the ledger do leaves these alone (`HasSys`), one lemma for each function. These blocks are the lowest
(R496), so a field of another block is outside them whatever its index. The rate of the time base, TSY_FADJ, has blocks on both sides: where the
time base is spoken of (`rate`), an index that may run into it is bounded. -/

namespace Sys2Proof.Machine

/-- A field of the blocks SYS, CKR and PWR (R496), or, where `rate` asks for it, the rate of the time base. -/
def onSys (rate : Bool) (f : Fld) : Bool := decide (f.key < 0x40030000 * 32) || (rate && f.key == TSY_FADJ_fadj.key)

/-- What a state holds for system control. -/
abbrev SysView := Completion × PowerState × TimeBase × Nat × (Fld → Nat)

/-- A state's bus answer, power state, time base and tick count, and the registers of its system control. -/
def sysView (rate : Bool) (s : State) : SysView := (s.bus, s.power, s.time, s.ticks, fun f => if onSys rate f then getF f s else 0)

/-- A state has the system control `v`. -/
def HasSys (rate : Bool) (v : SysView) (s : State) : Prop := sysView rate s = v

theorem tabGet_filter {α : Type} {d : α} {q : Nat × α → Bool} {l : List (Nat × α)} {k : Nat} (hq : ∀ x, q (k, x) = true) :
    tabGet d (l.filter q) k = tabGet d l k := by
  induction l with
  | nil => rfl
  | cons e r ih =>
    obtain ⟨j, x⟩ := e
    by_cases hk : j = k
    · subst hk
      simp [hq, tabGet]
    · by_cases he : q (j, x) = true <;> simp [he, tabGet, hk, ih]

/-- A field whose register a rule keeps. -/
theorem getF_filter {f : Fld} {q : Nat × Nat → Bool} {s : State} (hq : ∀ n, q (f.key, n) = true) :
    getF f { s with regs := s.regs.filter q } = getF f s := by
  simp only [getF, tabGet_filter hq]

theorem leNat_slice_one_lt (l : List Byte) (off : Nat) : leNat (slice l off 1) < 256 := by
  simp only [slice, List.range_one, List.map_cons, List.map_nil, leNat]
  omega

theorem onSys_of_ge {f : Fld} (h : 0x40030000 ≤ f.addr) : onSys false f = false := by
  have hkey : ¬ f.key < 0x40030000 * 32 := by simp only [Fld.key]; omega
  simp [onSys, hkey]

theorem onSys_of_ne {rate : Bool} {f : Fld} (h : 0x40030000 ≤ f.addr) (hf : f.key ≠ TSY_FADJ_fadj.key) : onSys rate f = false := by
  have hlow : onSys false f = false := onSys_of_ge h
  simp only [onSys, Bool.false_and, Bool.or_false] at hlow
  simp [onSys, hlow, hf]

theorem onSys_of_true {rate : Bool} {f : Fld} (h : onSys true f = false) : onSys rate f = false := by
  cases rate
  · simp only [onSys, Bool.or_eq_false_iff] at h ⊢
    exact ⟨h.1, rfl⟩
  · exact h

theorem bus_of_sysView {rate : Bool} {s t : State} (h : sysView rate t = sysView rate s) : t.bus = s.bus := congrArg (·.1) h

theorem power_of_sysView {rate : Bool} {s t : State} (h : sysView rate t = sysView rate s) : t.power = s.power := congrArg (·.2.1) h

theorem time_of_sysView {rate : Bool} {s t : State} (h : sysView rate t = sysView rate s) : t.time = s.time := congrArg (·.2.2.1) h

theorem ticks_of_sysView {rate : Bool} {s t : State} (h : sysView rate t = sysView rate s) : t.ticks = s.ticks := congrArg (·.2.2.2.1) h

theorem getF_of_sysView {rate : Bool} {s t : State} (h : sysView rate t = sysView rate s) {f : Fld} (hf : onSys rate f = true) :
    getF f t = getF f s := by
  have hfields : (sysView rate t).2.2.2.2 f = (sysView rate s).2.2.2.2 f := by rw [h]
  simpa [sysView, hf] using hfields

section
variable {rate : Bool} {v : SysView} {s : State}

theorem HasSys.upd {t : State} (h : HasSys rate v s) (e : sysView rate t = sysView rate s) : HasSys rate v t := e.trans h

theorem HasSys.of_eq {α : Type} {x : α × State} {a : α} {t : State} (h : HasSys rate v x.2) (e : x = (a, t)) : HasSys rate v t := by
  rwa [e] at h

theorem pair_sys {α : Type} {a : α} (h : HasSys rate v s) : HasSys rate v (a, s).2 := h

theorem ite_sys {c : Prop} [Decidable c] {t : State} (h : HasSys rate v s) (h' : HasSys rate v t) : HasSys rate v (if c then s else t) := by
  split <;> assumption

theorem iteThen_sys {c : Prop} [Decidable c] {t : State} (h : HasSys rate v s) (hg : HasSys rate v s → HasSys rate v t) :
    HasSys rate v (if c then s else t) :=
  ite_sys h (hg h)

theorem iteElse_sys {c : Prop} [Decidable c] {t : State} (h : HasSys rate v s) (hg : HasSys rate v s → HasSys rate v t) :
    HasSys rate v (if c then t else s) :=
  ite_sys (hg h) h

theorem iteApp_sys {c : Prop} [Decidable c] {f g : State → State} (h : HasSys rate v (f s)) (h' : HasSys rate v (g s)) :
    HasSys rate v ((if c then f else g) s) := by
  split <;> assumption

theorem iteSnd_sys {α : Type} {c : Prop} [Decidable c] {x y : α × State} (h : HasSys rate v x.2) (h' : HasSys rate v y.2) :
    HasSys rate v (if c then x else y).2 := by
  split <;> assumption

theorem iteSnd₂_sys {α β : Type} {c : Prop} [Decidable c] {x y : α × β × State} (h : HasSys rate v x.2.2) (h' : HasSys rate v y.2.2) :
    HasSys rate v (if c then x else y).2.2 := by
  split <;> assumption

theorem HasSys.setF {f : Fld} {n : Nat} (h : HasSys rate v s) (hf : onSys rate f = false) : HasSys rate v (setF f n s) := by
  have hfields : ∀ g, (if onSys rate g then getF g (Machine.setF f n s) else 0) = if onSys rate g then getF g s else 0 := by
    intro g
    split
    · next hg => exact getF_setF_ne n s fun e => by simp only [onSys, e] at hf hg; simp [hf] at hg
    · rfl
  refine h.upd ?_
  simp only [sysView, setF_bus, setF_power, setF_time, setF_ticks, hfields]

theorem setF_sys {f : Fld} {n : Nat} (hf : onSys true f = false) (h : HasSys rate v s) : HasSys rate v (setF f n s) := h.setF (onSys_of_true hf)

/-- A field above the blocks of system control, whatever its key. -/
theorem setF_low {f : Fld} {n : Nat} (hf : 0x40030000 ≤ f.addr) (h : HasSys false v s) : HasSys false v (setF f n s) := h.setF (onSys_of_ge hf)

theorem incF_low {f : Fld} {n : Nat} (hf : 0x40030000 ≤ f.addr) (h : HasSys false v s) : HasSys false v (incF f n s) := setF_low hf h

theorem clrF_low {f : Fld} {m : Nat} (hf : 0x40030000 ≤ f.addr) (h : HasSys false v s) : HasSys false v (clrF f m s) := setF_low hf h

theorem setB_low {f : Fld} {b : Bool} (hf : 0x40030000 ≤ f.addr) (h : HasSys false v s) : HasSys false v (setB f b s) := setF_low hf h

theorem setB_sys {f : Fld} {b : Bool} (hf : onSys true f = false) (h : HasSys rate v s) : HasSys rate v (setB f b s) := setF_sys hf h

theorem incF_sys {f : Fld} {n : Nat} (hf : onSys true f = false) (h : HasSys rate v s) : HasSys rate v (incF f n s) := setF_sys hf h

theorem orF_sys {f : Fld} {m : Nat} (hf : onSys true f = false) (h : HasSys rate v s) : HasSys rate v (orF f m s) := setF_sys hf h

theorem clrF_sys {f : Fld} {m : Nat} (hf : onSys true f = false) (h : HasSys rate v s) : HasSys rate v (clrF f m s) := setF_sys hf h

theorem wrBytes_sys {l : List Byte} {a : Nat} (h : HasSys rate v s) : HasSys rate v (wrBytes a l s) := by
  rw [wrBytes_eq]
  exact h.upd rfl

theorem applyAll_sys {α : Type} {l : List α} {g : α → State → State} (hg : ∀ x s, HasSys rate v s → HasSys rate v (g x s)) (h : HasSys rate v s) :
    HasSys rate v (applyAll l g s) :=
  applyAll_of l g hg s h

/-- `HasSys.upd` for a state that is a long call: the update is not unfolded to find it. -/
theorem HasSys.swc {x : SwcState} (h : HasSys rate v s) : HasSys rate v { s with swc := x } := h.upd rfl

/-- Registers dropped by a rule that keeps the lowest. -/
theorem HasSys.regs {t : State} {q : Nat × Nat → Bool} (h : HasSys false v s) (hq : ∀ e : Nat × Nat, e.1 < 0x40030000 * 32 → q e = true)
    (ht : t = { s with regs := s.regs.filter q, swc := t.swc }) : HasSys false v t := by
  refine h.upd ?_
  have hfields : ∀ g, (if onSys false g then getF g t else 0) = if onSys false g then getF g s else 0 := by
    intro g
    split
    · next hg =>
      have hkey : g.key < 0x40030000 * 32 := by simpa [onSys] using hg
      rw [ht]
      exact getF_filter fun n => hq (g.key, n) hkey
    · rfl
  rw [sysView, sysView, funext hfields, ht]

/-! ## Fields above system control -/

theorem onSys_EVC_CNT_cnt {e : Nat} (he : e < 64) : onSys true (EVC_CNT_cnt e) = false :=
  onSys_of_ne (by simp only [EVC_CNT_cnt]; omega) (by simp only [Fld.key, EVC_CNT_cnt, TSY_FADJ_fadj]; omega)

/-- The reasons 1 to 4 stand at other offsets than the rate of the time base, and the ports below 256 below it. -/
theorem onSys_INK_DROP_count {port reason : Nat} (hr : reason ≤ 4 ∨ reason ≤ 5 ∧ port < 256) :
    onSys true (INK_DROP_count port (reason - 1)) = false := by
  refine onSys_of_ne (by simp only [INK_DROP_count]; omega) ?_
  simp only [Fld.key, INK_DROP_count, TSY_FADJ_fadj]
  omega

theorem onSys_SWC_RSTAT_drop (r : Nat) : onSys true (SWC_RSTAT_drop r) = false :=
  onSys_of_ne (by simp only [SWC_RSTAT_drop]; omega) (by simp only [Fld.key, SWC_RSTAT_drop, TSY_FADJ_fadj]; omega)

theorem onSys_SWC_GSTAT_hold (p : Nat) : onSys true (SWC_GSTAT_hold p) = false :=
  onSys_of_ne (by simp only [SWC_GSTAT_hold]; omega) (by simp only [Fld.key, SWC_GSTAT_hold, TSY_FADJ_fadj]; omega)

theorem onSys_txDrop (n : Nat) : onSys true (CAN_TXDROP_flush n) = false ∧ onSys true (SER_TXDROP_bad n) = false :=
  ⟨onSys_of_ne (by simp only [CAN_TXDROP_flush]; omega) (by simp only [Fld.key, CAN_TXDROP_flush, TSY_FADJ_fadj]; omega),
   onSys_of_ne (by simp only [SER_TXDROP_bad]; omega) (by simp only [Fld.key, SER_TXDROP_bad, TSY_FADJ_fadj]; omega)⟩

/-- A frame that an input record takes came in at a port the record can name (R265). -/
theorem src_of_trnLookup {lid : Nat} {w : Waybill} {f : List Byte} {r : InRec} (h : trnLookup lid w f s = some r) : w.src < 256 := by
  obtain ⟨i, -, rfl⟩ := List.mem_map.1 (List.mem_of_find?_eq_some h)
  have hm : recMatches (inRec (recipeOf lid s.str) i) w f s = true := by simpa using List.find?_some h
  have hsrc : (inRec (recipeOf lid s.str) i).src < 256 := by simp only [inRec, leAt]; exact leNat_slice_one_lt _ _
  simp only [recMatches] at hm
  split_ifs at hm <;> simp_all

/-! ## The functions, in the order of the model -/

theorem emit_sys {e : Emission} (h : HasSys false v s) : HasSys false v (emit e s) :=
  h.upd rfl

theorem raiseNow_sys {e : Nat} (he : e < 64) (h : HasSys rate v s) : HasSys rate v (raiseNow e s) := by
  have hpend : onSys true (evPend e) = false := by unfold evPend; split <;> decide
  exact iteElse_sys (iteElse_sys (incF_sys (onSys_EVC_CNT_cnt he) (orF_sys hpend h)) fun h1 => h1.upd rfl) fun h1 => h1.upd rfl

theorem raise_sys {e : Nat} (he : e < 64) (h : HasSys rate v s) : HasSys rate v (raise e s) :=
  ite_sys h (ite_sys (h.upd rfl) (raiseNow_sys he h))

/-- Whatever the event's number, a raise writes above the blocks of system control. -/

theorem raise_low {e : Nat} (h : HasSys false v s) : HasSys false v (raise e s) := by
  have hpend : onSys true (evPend e) = false := by unfold evPend; split <;> decide
  exact ite_sys h (ite_sys (h.upd rfl) (iteElse_sys (iteElse_sys (incF_low (Nat.le_add_right_of_le (by decide)) (orF_sys hpend h))
    fun h1 => h1.upd rfl) fun h1 => h1.upd rfl))

theorem raiseOnce_sys {e inst : Nat} (he : e < 64) (h : HasSys rate v s) : HasSys rate v (raiseOnce e inst s) :=
  ite_sys h (raise_sys he (h.upd rfl))

theorem setTileBit_sys {lo hi : Fld} {n : Nat} {b : Bool} (hlo : onSys true lo = false) (hhi : onSys true hi = false)
    (h : HasSys false v s) : HasSys false v (setTileBit lo hi n b s) := by
  have hf : onSys true (if n < 32 then lo else hi) = false := by split <;> assumption
  exact ite_sys (orF_sys hf h) (clrF_sys hf h)

theorem setLease_sys {n : Nat} {l : Lease} (h : HasSys false v s) : HasSys false v (setLease n l s) :=
  h.upd rfl

theorem logDeclaration_sys {owner decl count : Nat} (h : HasSys false v s) : HasSys false v (logDeclaration owner decl count s) :=
  setF_sys (by decide) (setF_sys (by decide) (setF_sys (by decide) (incF_sys (by decide) h)))

theorem declare_sys {reach : Lease → Nat → Bool} {owner decl : Nat} (h : HasSys false v s) : HasSys false v (declare reach owner decl s) :=
  ite_sys (logDeclaration_sys h) ((applyAll_sys (fun _ _ h => setLease_sys h) h).upd rfl)

theorem declareWorld_sys {w : World} {decl : Nat} (h : HasSys false v s) : HasSys false v (declareWorld w decl s) :=
  declare_sys h

theorem poolTake_sys (h : HasSys rate v s) : HasSys rate v (poolTake s) :=
  iteElse_sys (iteElse_sys (setF_sys (by decide) (setF_sys (by decide) (setB_sys (by decide) h))) fun h1 => raise_sys (by decide) h1) fun h1 =>
    raise_sys (by decide) (setB_sys (by decide) h1)

theorem poolReturn_sys (h : HasSys rate v s) : HasSys rate v (poolReturn s) :=
  iteElse_sys (setF_sys (by decide) (setB_sys (by decide) h)) fun h1 => setB_sys (by decide) h1

theorem takePage_sys {i : Nat} (h : HasSys rate v s) : HasSys rate v (takePage i s).2 :=
  ite_sys (h.upd rfl) (poolTake_sys (h.upd rfl))

theorem grantPage_sys {idx i : Nat} (h : HasSys rate v s) : HasSys rate v (grantPage idx i s).2 :=
  setF_sys (by split <;> decide) (takePage_sys h)

theorem takePages_sys {idx i n : Nat} (h : HasSys rate v s) : HasSys rate v (takePages idx i n s).2.2 := by
  induction n generalizing s with
  | zero => exact h
  | succ n ih =>
    unfold takePages
    split
    · exact h
    · exact ih (grantPage_sys h)

theorem linkPages_sys {l : List Nat} (h : HasSys rate v s) : HasSys rate v (linkPages l s) := by
  induction l, s using linkPages.induct with
  | case1 s => exact h
  | case2 s p => exact h.upd rfl
  | case3 s p q r ih => exact ih (h.upd rfl)

theorem freePage_sys {p : Nat} (h : HasSys rate v s) : HasSys rate v (freePage p s) :=
  ite_sys (ite_sys (poolReturn_sys (h.upd rfl)) (h.upd rfl)) (h.upd rfl)

theorem freePages_sys {l : List Nat} (h : HasSys rate v s) : HasSys rate v (freePages l s) :=
  applyAll_sys (fun _ _ h => freePage_sys h) h

theorem sharePages_sys {l : List Nat} {n : Nat} (h : HasSys rate v s) : HasSys rate v (sharePages l n s) :=
  applyAll_sys (fun _ _ h => h.upd rfl) h

theorem countDrop_sys {port reason : Nat} (hr : reason ≤ 4 ∨ reason ≤ 5 ∧ port < 256) (h : HasSys rate v s) : HasSys rate v
    (countDrop port reason s) :=
  incF_sys (onSys_INK_DROP_count hr) h

theorem setLodger_sys {lid : Nat} {l : Lodger} (h : HasSys rate v s) : HasSys rate v (setLodger lid l s) :=
  h.upd rfl

theorem evict_sys {lid : Nat} (h : HasSys rate v s) : HasSys rate v (evict lid s) :=
  setLodger_sys h

theorem pinIn_sys {lid : Nat} (h : HasSys rate v s) : HasSys rate v (pinIn lid s) := by
  refine ite_sys (setLodger_sys h) ?_
  split
  · exact setLodger_sys (evict_sys h)
  · exact h

theorem pageIn_sys {lid : Nat} (h : HasSys rate v s) : HasSys rate v (pageIn lid s) :=
  setLodger_sys (h.upd rfl)

theorem contextFault_sys {lid : Nat} (h : HasSys rate v s) : HasSys rate v (contextFault lid s) := by
  refine ite_sys h (ite_sys (pinIn_sys h) (ite_sys (pageIn_sys h) ?_))
  split
  · exact pageIn_sys (evict_sys h)
  · exact iteThen_sys (setLodger_sys h) fun h1 => raise_sys (by decide) (setB_sys (by decide) h1)

theorem fenceLodger_sys {lid : Nat} (h : HasSys false v s) : HasSys false v (fenceLodger lid s) := by
  refine setLodger_sys (applyAll_sys (fun _ _ h => ?_) h)
  split
  · exact incF_low (by simp only [INK_DROP_count]; omega) (freePages_sys h)
  · exact h

theorem releaseItem_sys {lid : Nat} {w : ItemWork} (hw : ∀ b, w = .frame b → b.src < 256) (h : HasSys rate v s) :
    HasSys rate v (releaseItem lid w s) := by
  refine ite_sys h (ite_sys ?_ (iteThen_sys (setLodger_sys h) fun h1 => contextFault_sys h1))
  split
  · next b => exact countDrop_sys (.inr ⟨by decide, hw b rfl⟩) (freePages_sys h)
  · exact h

theorem aonLog_sys {cause detail : Nat} {preq : Bool} (h : HasSys false v s) : HasSys false v (aonLog cause detail preq s) :=
  ite_sys (incF_sys (by decide) (setF_sys (by decide) (setF_low (Nat.le_add_right_of_le (by decide))
    (setF_low (Nat.le_add_right_of_le (by decide)) h)))) (incF_sys (by decide)
    (setF_sys (by decide) (setF_low (Nat.le_add_right_of_le (by decide)) (setF_low (Nat.le_add_right_of_le (by decide)) h))))

theorem ledgerAdvance_sys (h : HasSys false v s) : HasSys false v (ledgerAdvance s) :=
  h.upd rfl

theorem twr_sys {a : Nat} {b : List Byte} (h : HasSys rate v s) : HasSys rate v (twr a b s) := by
  induction b generalizing a s with
  | nil => exact h
  | cons x r ih => exact ih (h.upd rfl)

theorem entWr_sys {t i : Nat} {b : List Byte} (h : HasSys rate v s) : HasSys rate v (entWr t i b s) :=
  twr_sys h

theorem shadowPlace_sys {e : List Byte} (h : HasSys rate v s) : HasSys rate v (shadowPlace e s).2 := by
  unfold shadowPlace
  dsimp only
  split
  · exact entWr_sys h
  · split
    · exact entWr_sys h
    · exact setF_sys (by decide) (incF_sys (by decide) h)

theorem shadowMade_sys {e : List Byte} (h : HasSys rate v s) : HasSys rate v (shadowMade e s) :=
  iteElse_sys (shadowPlace_sys h) fun h1 => incF_sys (by decide) h1

theorem shadowDrop_sys {key : List Byte} (h : HasSys rate v s) : HasSys rate v (shadowDrop key s) := by
  unfold shadowDrop
  split
  · exact entWr_sys h
  · exact h

theorem l2Put_sys {i : Nat} {e : List Byte} (h : HasSys rate v s) : HasSys rate v (l2Put i e s) :=
  ite_sys (iteElse_sys (setF_sys (by decide) (entWr_sys h)) fun h1 => iteElse_sys (ite_sys (shadowDrop_sys h1) h1) fun h2 => shadowMade_sys
    h2) (entWr_sys h)

theorem cvQueue_sys {r : CvRecord} (h : HasSys false v s) : HasSys false v (cvQueue r s) :=
  ite_sys (h.upd rfl) (ite_sys (incF_sys (by decide) h) (setF_sys (by decide) (h.upd rfl)))

theorem learnQueue_sys {r : LearnReq} (h : HasSys rate v s) : HasSys rate v (learnQueue r s) :=
  ite_sys (h.upd rfl) (ite_sys (incF_sys (by decide) h) (setF_sys (by decide) (h.upd rfl)))

theorem learnMeet_sys {mac : List Byte} {vid port : Nat} (h : HasSys rate v s) : HasSys rate v (learnMeet mac vid port s) := by
  unfold learnMeet
  dsimp only
  refine ite_sys h ?_
  split
  · exact learnQueue_sys h
  · exact ite_sys h (ite_sys (l2Put_sys h) (learnQueue_sys h))

theorem ownerDev_sys {e : L2} (h : HasSys false v s) : HasSys false v (ownerDev e s).2 := by
  refine iteSnd_sys h ?_
  split
  · exact h.upd rfl
  · exact h

theorem refreshEntry_sys {i : Nat} (h : HasSys false v s) : HasSys false v (refreshEntry i s) :=
  cvQueue_sys (ownerDev_sys h)

theorem refreshRun_sys {l : List Nat} (h : HasSys false v s) : HasSys false v (refreshRun l s) := by
  induction l generalizing s with
  | nil => exact h.upd rfl
  | cons i r ih => exact ite_sys (ih h) (ite_sys (h.upd rfl) (ih ((refreshEntry_sys h).upd rfl)))

theorem refreshStep_sys (h : HasSys false v s) : HasSys false v (refreshStep s) := by
  unfold refreshStep
  split
  · exact h
  · exact ite_sys (refreshRun_sys h) (h.upd rfl)

theorem refreshMs_sys (h : HasSys false v s) : HasSys false v (refreshMs s) :=
  refreshStep_sys (h.upd rfl)

theorem storeFrame_sys {l : List Nat} {b : List Byte} (h : HasSys rate v s) : HasSys rate v (storeFrame l b s) := by
  induction l generalizing b s with
  | nil => exact h
  | cons p r ih => exact ih (wrBytes_sys h)

theorem swBump_sys {p i n : Nat} (h : HasSys rate v s) : HasSys rate v (swBump p i n s) :=
  h.upd rfl

theorem setQueue_sys {k : Nat} {q : List Replica} (h : HasSys rate v s) : HasSys rate v (setQueue k q s) :=
  h.upd rfl

theorem dropReplica_sys {r : Replica} (h : HasSys rate v s) : HasSys rate v (dropReplica r s) :=
  freePages_sys h

theorem discard_sys {p i : Nat} {r : Replica} (h : HasSys rate v s) : HasSys rate v (discard p i r s) :=
  swBump_sys (dropReplica_sys h)

theorem ringDrop_sys {r n : Nat} (h : HasSys rate v s) : HasSys rate v (ringDrop r n s) :=
  (incF_sys (onSys_SWC_RSTAT_drop r) h).upd rfl

theorem creditUpdate_sys {p : Nat} (h : HasSys rate v s) : HasSys rate v (creditUpdate p s) := by
  unfold creditUpdate
  refine ite_sys h ?_
  extract_lets now dt put s1
  have hs1 : HasSys rate v s1 := applyAll_sys (fun _ _ h => h.swc) h
  exact hs1.swc

theorem refreshHold_sys {p : Nat} (h : HasSys rate v s) : HasSys rate v (refreshHold p s) :=
  ite_sys (setF_sys (onSys_SWC_GSTAT_hold p) h) h

theorem enqueue_sys {p : Nat} {r : Replica} (h : HasSys rate v s) : HasSys rate v (enqueue p r s) := by
  unfold enqueue
  split
  · exact discard_sys h
  · exact incF_sys (onSys_txDrop _).1 (discard_sys h)
  · exact incF_sys (onSys_txDrop _).2 (discard_sys h)
  · exact ringDrop_sys (dropReplica_sys h)
  · exact discard_sys h
  · exact refreshHold_sys (setQueue_sys (creditUpdate_sys h))

theorem flushPort_sys {p : Nat} (h : HasSys false v s) : HasSys false v (flushPort p s) :=
  refreshHold_sys (creditUpdate_sys (applyAll_sys (fun _ _ h => applyAll_sys (fun _ _ h => discard_sys h) (setQueue_sys h))
    (creditUpdate_sys h)))

theorem trnCount_sys {lid i n : Nat} (h : HasSys rate v s) : HasSys rate v (trnCount lid i n s) :=
  h.upd rfl

theorem toTranscriber_sys {r : Replica} (h : HasSys rate v s) : HasSys rate v (toTranscriber r s) := by
  unfold toTranscriber
  dsimp only
  split
  · next hr => exact releaseItem_sys (fun b e => by cases e; exact src_of_trnLookup hr) h
  · exact trnCount_sys (dropReplica_sys h)

theorem joinPlain_sys {p : Nat} {r : Replica} (h : HasSys rate v s) : HasSys rate v (joinPlain p r s) :=
  ite_sys (toTranscriber_sys h) (ite_sys (discard_sys h) (enqueue_sys h))

theorem setInflight_sys {p : Nat} {i : Option Inflight} (h : HasSys rate v s) : HasSys rate v (setInflight p i s) :=
  h.upd rfl

theorem addWaiting_sys {p : Nat} {l : List (Nat × Replica)} (h : HasSys rate v s) : HasSys rate v (addWaiting p l s) := by
  unfold addWaiting
  split
  · exact setInflight_sys h
  · exact h

theorem joinCut_sys {p : Nat} {r : Replica} (h : HasSys rate v s) : HasSys rate v (joinCut p r s) :=
  ite_sys (addWaiting_sys (enqueue_sys (sharePages_sys h))) (enqueue_sys h)

theorem joinQueue_sys {p : Nat} {r : Replica} (h : HasSys rate v s) : HasSys rate v (joinQueue p r s) :=
  ite_sys (discard_sys h) (ite_sys (joinPlain_sys (joinPlain_sys (sharePages_sys h))) (joinPlain_sys h))

theorem ingressCopy_sys {w : Waybill} {arriving : Bool} (h : HasSys rate v s) : HasSys rate v (ingressCopy w arriving s) :=
  ite_sys (ite_sys (addWaiting_sys (sharePages_sys h)) (joinPlain_sys (sharePages_sys h))) h

theorem police_sys {i charge : Nat} (h : HasSys rate v s) : HasSys rate v (police i charge s).2 := by
  refine iteSnd_sys (incF_sys (by decide) h) (iteSnd_sys (entWr_sys h) ?_)
  split
  · exact raiseOnce_sys (by decide) (setF_sys (by decide) (entWr_sys h))
  · exact entWr_sys h
  · exact entWr_sys h

theorem setCb_sys {sh : Nat} {c : CbStream} (h : HasSys rate v s) : HasSys rate v (setCb sh c s) :=
  h.upd rfl

theorem flowDrop_sys {f : Flow} {i : Nat} (h : HasSys rate v s) : HasSys rate v (flowDrop f i s) :=
  swBump_sys (freePages_sys h)

theorem replicate_sys {f : Flow} {encap : Option Nat} {decap arriving : Bool} (h : HasSys rate v s) :
    HasSys rate v (replicate f encap decap arriving s) := by
  unfold replicate
  extract_lets w again w1 nosub s1 s2 reps g s3 cut rest s4
  have hs1 : HasSys rate v s1 := ite_sys (swBump_sys h) h
  have hs2 : HasSys rate v s2 := ite_sys (swBump_sys hs1) hs1
  have hs3 : HasSys rate v s3 := sharePages_sys hs2
  have hs4 : HasSys rate v s4 := applyAll_sys (fun _ _ h => joinCut_sys h) hs3
  exact ite_sys (ite_sys (freePages_sys hs2) (flowDrop_sys hs2)) (ite_sys (addWaiting_sys hs4)
    (applyAll_sys (fun _ _ h => joinQueue_sys h) hs4))

theorem reframe_sys {f : Flow} {b : List Byte} (h : HasSys rate v s) : HasSys rate v (reframe f b s).2 := by
  refine storeFrame_sys ?_
  split
  · exact setInflight_sys h
  · exact h

theorem recovery_sys {f g : Flow} {sh : Nat} {t : State} (h : HasSys rate v s) (e : recovery f sh s = some (g, t)) : HasSys rate v t := by
  unfold recovery at e
  dsimp only at e
  split at e
  · cases e; exact h
  · split at e
    · cases e; exact setCb_sys h
    · simp only [Option.ite_none_right_eq_some, Option.some.injEq] at e
      exact (iteSnd_sys (reframe_sys (setCb_sys h)) (pair_sys (setCb_sys h))).of_eq e.2

theorem recoveryDiscard_sys {f : Flow} {sh : Nat} (h : HasSys rate v s) : HasSys rate v (recoveryDiscard f sh s) := by
  unfold recoveryDiscard
  split
  · exact h
  · exact setCb_sys h

theorem forwardL2_sys {f : Flow} {arriving : Bool} (h : HasSys rate v s) : HasSys rate v (forwardL2 f arriving s) := by
  unfold forwardL2
  extract_lets w g ring s0 w1
  have hs0 : HasSys rate v s0 := ite_sys (learnMeet_sys h) h
  split
  · exact replicate_sys hs0
  · extract_lets dec w1
    split
    · exact flowDrop_sys hs0
    · refine ite_sys (flowDrop_sys hs0) (ite_sys ?_ (replicate_sys hs0))
      split
      · exact flowDrop_sys (recoveryDiscard_sys hs0)
      · next e => exact replicate_sys (recovery_sys hs0 e)

theorem forwardTile_sys {f : Flow} (h : HasSys rate v s) : HasSys rate v (forwardTile f s) := by
  unfold forwardTile
  dsimp only
  split
  · exact replicate_sys h
  · split
    · exact flowDrop_sys h
    · exact replicate_sys h

theorem forwardStage_sys {f : Flow} {arriving : Bool} (h : HasSys rate v s) : HasSys rate v (forwardStage f arriving s) :=
  ite_sys (forwardTile_sys h) (forwardL2_sys h)

theorem settleLater_sys {p i charge : Nat} (h : HasSys rate v s) : HasSys rate v (settleLater p i charge s) := by
  unfold settleLater
  split
  · exact setInflight_sys h
  · exact h

theorem policeStage_sys {f : Flow} {g : GraphRec} {arriving : Bool} (h : HasSys rate v s) : HasSys rate v (policeStage f g arriving s).2 := by
  unfold policeStage
  dsimp only
  split
  · exact ite_sys (police_sys h) (settleLater_sys (police_sys h))
  · exact flowDrop_sys (police_sys h)
  · exact police_sys h
  · exact police_sys h

theorem queueItem_sys {lid : Nat} {w : Waybill} {arriving : Bool} (hw : w.src < 256) (h : HasSys rate v s) :
    HasSys rate v (queueItem lid w arriving s) :=
  ite_sys (addWaiting_sys h) (releaseItem_sys (fun b e => by cases e; exact hw) h)

theorem transcribeStage_sys {f : Flow} {g : GraphRec} {arriving : Bool} (h : HasSys rate v s) :
    HasSys rate v (transcribeStage f g arriving s).2 := by
  unfold transcribeStage
  dsimp only
  split
  · exact h
  · next hr =>
    have hw := src_of_trnLookup hr
    exact iteSnd_sys (queueItem_sys hw h) (queueItem_sys hw (sharePages_sys h))

theorem runStages_sys {l : List Nat} {f : Flow} {g : GraphRec} {arriving : Bool} (h : HasSys rate v s) :
    HasSys rate v (runStages l f g arriving s) := by
  induction l, f, g, arriving, s using runStages.induct with
  | case1 f g arriving s => exact freePages_sys h
  | case2 r f g arriving s => exact forwardStage_sys h
  | case3 r f g arriving s f1 s1 e ih => rw [runStages, e]; exact ih ((transcribeStage_sys h).of_eq e)
  | case4 r f g arriving s s1 e => rw [runStages, e]; exact (transcribeStage_sys h).of_eq e
  | case5 r f g arriving s f1 s1 e ih => rw [runStages, e]; exact ih ((policeStage_sys h).of_eq e)
  | case6 r f g arriving s s1 e => rw [runStages, e]; exact (policeStage_sys h).of_eq e
  | case7 r f g arriving s e => rw [runStages, if_pos e]; exact h.upd rfl
  | case8 r f g arriving s e ih => rw [runStages, if_neg e]; exact ih h
  | case9 x r f g arriving s h5 h4 h3 h2 ih => rw [runStages] <;> [exact ih h; exact h5; exact h4; exact h3; exact h2]

theorem enterPipeline_sys {w : Waybill} {frame : List Byte} {arriving : Bool} (h : HasSys rate v s) :
    HasSys rate v (enterPipeline w frame arriving s) := by
  unfold enterPipeline
  extract_lets p g classify vid tc w1 f s0 s1 rest _
  have hs0 : HasSys rate v s0 := ite_sys (setInflight_sys h) h
  have hs1 : HasSys rate v s1 := ingressCopy_sys (swBump_sys (swBump_sys hs0))
  exact ite_sys (replicate_sys hs1) (ite_sys (flowDrop_sys hs1) (ite_sys (hs1.upd rfl) (runStages_sys hs1)))

theorem setFilling_sys {k : Nat} {l : List Nat} (h : HasSys rate v s) : HasSys rate v (setFilling k l s) :=
  h.upd rfl

theorem pagesOf_sys {w : Waybill} {tc len : Nat} {lossless : Bool} (h : HasSys rate v s) : HasSys rate v (pagesOf w tc len lossless s).2.2 := by
  refine iteSnd₂_sys (freePages_sys (setFilling_sys h)) (iteSnd₂_sys (setFilling_sys ?_)
    (iteSnd₂_sys (setFilling_sys ?_) (freePages_sys (setFilling_sys ?_))))
  · split
    · exact h
    · exact takePages_sys h
  · split
    · exact h
    · exact takePages_sys h
  · split
    · exact h
    · exact takePages_sys h

theorem setHolds_sys {k : Nat} {l : List Held} (h : HasSys rate v s) : HasSys rate v (setHolds k l s) :=
  h.upd rfl

theorem obufShow_sys (h : HasSys rate v s) : HasSys rate v (obufShow s) :=
  setF_sys (by decide) (setB_sys (by decide) h)

theorem enterHostel_sys {w : Waybill} {frame : List Byte} {arriving : Bool} {pages : List Nat} (h : HasSys rate v s) :
    HasSys rate v (enterHostel w frame arriving pages s) :=
  ite_sys (replicate_sys (ingressCopy_sys (storeFrame_sys (linkPages_sys h))))
    (enterPipeline_sys (storeFrame_sys (linkPages_sys h)))

theorem offerFrame_sys {w : Waybill} {frame : List Byte} {arriving : Bool} (h : HasSys rate v s) : HasSys rate v
    (offerFrame w frame arriving s) := by
  have hreason := pagesOf_reason { w with gen := getF IMG_RCFG_gen s } (frameClass { w with gen := getF IMG_RCFG_gen s } frame s).1 frame.length
    (frameClass { w with gen := getF IMG_RCFG_gen s } frame s).2 s
  have hhold {t : State} (ht : HasSys rate v t) {k : Nat} {l : List Held} : HasSys rate v (obufShow (setHolds k l t)) := obufShow_sys
    (setHolds_sys ht)
  exact ite_sys (ite_sys (hhold h) (countDrop_sys (.inl (by decide)) h)) (ite_sys (enterHostel_sys (pagesOf_sys h))
    (ite_sys (ite_sys (hhold (pagesOf_sys h)) (countDrop_sys (.inl (by decide)) (pagesOf_sys h)))
      (countDrop_sys (.inl (Nat.le_succ_of_le hreason)) (pagesOf_sys h))))

theorem ringReset_sys {r : Nat} (h : HasSys false v s) : HasSys false v (ringReset r s) := by
  refine ringDrop_sys ?_
  have hq : HasSys false v (setQueue (queueKey 16 r 0) [] (applyAll (queueAt (queueKey 16 r 0) s) dropReplica s)) :=
    setQueue_sys (applyAll_sys (fun _ _ h => dropReplica_sys h) h)
  refine hq.regs (q := fun e => !((SWC_RBASE_addr r).addr * 32 ≤ e.1 && e.1 < (SWC_RBASE_addr r).addr * 32 + 0x20 * 32)) (fun e he => ?_) rfl
  have hbase : ¬ (SWC_RBASE_addr r).addr * 32 ≤ e.1 := by simp only [SWC_RBASE_addr]; omega
  simp [hbase]

theorem ringsReset_sys {w : World} (h : HasSys false v s) : HasSys false v (ringsReset w s) :=
  applyAll_sys (fun _ _ h => ringReset_sys h) h

theorem storeWrite_sys {region blk : Nat} (h : HasSys false v s) : HasSys false v (storeWrite region blk s) :=
  h.upd rfl

theorem setCan_sys {n : Nat} {c : CanTile} (h : HasSys false v s) : HasSys false v (setCan n c s) :=
  h.upd rfl

theorem canEvt_sys {n : Nat} {f : Fld} (hf : 0x40030000 ≤ f.addr) (h : HasSys false v s) : HasSys false v (canEvt n f s) :=
  ite_sys h (ite_sys (raise_low (setB_low hf h)) (setB_low hf h))

theorem canGoto_sys {n st : Nat} (h : HasSys false v s) : HasSys false v (canGoto n st s) :=
  ite_sys (setF_low (Nat.le_add_right_of_le (by decide)) h) (canEvt_sys (Nat.le_add_right_of_le (by decide))
    (setF_low (Nat.le_add_right_of_le (by decide)) h))

theorem setTx_sys {n i : Nat} {b : TxBuf} (h : HasSys false v s) : HasSys false v (setTx n i b s) :=
  setCan_sys h

theorem txEmpty_sys {n i : Nat} (h : HasSys false v s) : HasSys false v (txEmpty n i s) := by
  refine setTx_sys (clrF_low (Nat.le_add_right_of_le (by decide)) ?_)
  split
  · exact dropReplica_sys h
  · exact h

theorem canFlush_sys {n : Nat} (h : HasSys false v s) : HasSys false v (canFlush n s) :=
  applyAll_sys (fun _ _ h => applyAll_sys (fun _ _ h => incF_low (Nat.le_add_right_of_le (by decide)) (discard_sys h)) (setQueue_sys h))
    (applyAll_sys (fun _ _ h => incF_low (Nat.le_add_right_of_le (by decide)) (swBump_sys (txEmpty_sys h))) h)

theorem canWorldReset_sys {w : World} (h : HasSys false v s) : HasSys false v (canWorldReset w s) :=
  applyAll_sys (fun _ _ h => ite_sys (setB_low (Nat.le_add_right_of_le (by decide)) h) h) (h.upd rfl)

theorem linkOff_sys {p : Nat} (h : HasSys false v s) : HasSys false v (linkOff p s) :=
  ite_sys (setB_low (Nat.le_add_right_of_le (by decide)) (setB_low (Nat.le_add_right_of_le (by decide)) (flushPort_sys h)))
    (setB_low (Nat.le_add_right_of_le (by decide)) (flushPort_sys h))

theorem plcaDown_sys {p : Nat} (h : HasSys false v s) : HasSys false v (plcaDown p s) :=
  ite_sys (raise_low (incF_low (Nat.le_add_right_of_le (by decide)) (setB_low (Nat.le_add_right_of_le (by decide)) (linkOff_sys h)))) h

theorem portStop_sys {p : Nat} (h : HasSys false v s) : HasSys false v (portStop p s) :=
  ite_sys (plcaDown_sys h) (linkOff_sys h)

theorem setSer_sys {n : Nat} {t : SerTile} (h : HasSys rate v s) : HasSys rate v (setSer n t s) :=
  h.upd rfl

theorem serEvt_sys {n : Nat} {f : Fld} (hf : 0x40030000 ≤ f.addr) (h : HasSys false v s) : HasSys false v (serEvt n f s) :=
  ite_sys h (ite_sys (raise_low (setB_low hf h)) (setB_low hf h))

theorem serErr_sys {n : Nat} {f : Fld} {k : Nat} (hf : 0x40030000 ≤ f.addr) (h : HasSys false v s) : HasSys false v (serErr n f k s) :=
  ite_sys h (serEvt_sys (Nat.le_add_right_of_le (by decide)) (incF_low hf h))

theorem serHandAll_sys {n : Nat} (h : HasSys rate v s) : HasSys rate v (serHandAll n s) :=
  applyAll_sys (fun _ _ h => offerFrame_sys h) (setSer_sys h)

theorem pulsesEnd_sys {n : Nat} (h : HasSys false v s) : HasSys false v (pulsesEnd n s) :=
  h.upd rfl

theorem serQuiet_sys {n st : Nat} (h : HasSys false v s) : HasSys false v (serQuiet n st s) :=
  pulsesEnd_sys (setF_low (Nat.le_add_right_of_le (by decide)) (setSer_sys
    (iteElse_sys (iteElse_sys (serHandAll_sys h) fun h1 => serErr_sys (Nat.le_add_right_of_le (by decide)) h1) fun h1 => emit_sys
    h1)))

theorem serBad_sys {n : Nat} (h : HasSys false v s) : HasSys false v (serBad n s) :=
  incF_low (Nat.le_add_right_of_le (by decide)) h

theorem serFlush_sys {n : Nat} (h : HasSys false v s) : HasSys false v (serFlush n s) :=
  applyAll_sys (fun _ _ h => applyAll_sys (fun _ _ h => serBad_sys (discard_sys h)) (setQueue_sys h))
    (applyAll_sys (fun _ _ h => serBad_sys (swBump_sys h)) (setSer_sys h))

theorem setUnit_sys {a bt bp : Fld} {u : Nat} {b : Bool} (ha : onSys true a = false) (hbt : onSys true bt = false)
    (hbp : onSys true bp = false) (h : HasSys false v s) : HasSys false v (setUnit a bt bp u b s) := by
  have hf : onSys true (if u < 32 then a else if u < 48 then bt else bp) = false := by
    split
    · exact ha
    · split <;> assumption
  exact ite_sys (orF_sys hf h) (clrF_sys hf h)

theorem setLink_sys {p : LinkSide} {l : LinkPort} (h : HasSys false v s) : HasSys false v (setLink p l s) := by
  unfold setLink
  split
  · exact h.upd rfl
  · exact h.upd rfl

theorem setRxState_sys {p : LinkSide} {r : RxState} (h : HasSys false v s) : HasSys false v (setRxState p r s) :=
  setB_sys (by decide) (iteElse_sys (setF_sys (by cases p <;> decide) (setLink_sys h)) fun h1 => setB_sys (by cases p <;> decide) h1)

theorem setWearItem_sys {item inst : Nat} {w : WearItem} (h : HasSys false v s) : HasSys false v (setWearItem item inst w s) :=
  h.upd rfl

theorem wearBump_sys {item inst n : Nat} (h : HasSys false v s) : HasSys false v (wearBump item inst n s) :=
  setWearItem_sys h

theorem setMotor_sys {m : Nat} {c : MotorCh} (h : HasSys false v s) : HasSys false v (setMotor m c s) :=
  h.upd rfl

theorem setMotorState_sys {m st : Nat} (h : HasSys false v s) : HasSys false v (setMotorState m st s) :=
  ite_sys (orF_sys (by decide) (ite_sys (orF_sys (by decide) (setF_low (Nat.le_add_right_of_le (by decide)) h))
    (clrF_sys (by decide) (setF_low (Nat.le_add_right_of_le (by decide)) h))))
    (clrF_sys (by decide) (ite_sys (orF_sys (by decide) (setF_low (Nat.le_add_right_of_le (by decide)) h))
      (clrF_sys (by decide) (setF_low (Nat.le_add_right_of_le (by decide)) h))))

theorem coast_sys {m : Nat} (h : HasSys false v s) : HasSys false v (coast m s) :=
  setMotorState_sys (setB_low (Nat.le_add_right_of_le (by decide)) (setMotor_sys h))

theorem refreshAdc_sys (h : HasSys false v s) : HasSys false v (refreshAdc s) :=
  setB_sys (by decide) (setB_sys (by decide) h)

theorem setLampWaits_sys {g : Nat} {l : List Nat} (h : HasSys false v s) : HasSys false v (setLampWaits g l s) :=
  setF_low (Nat.le_add_right_of_le (by decide)) (h.upd rfl)

theorem setLampState_sys {n st : Nat} (h : HasSys false v s) : HasSys false v (setLampState n st s) :=
  ite_sys (orF_sys (by decide) (setF_low (Nat.le_add_right_of_le (by decide)) h))
    (clrF_sys (by decide) (setF_low (Nat.le_add_right_of_le (by decide)) h))

theorem dropToken_sys {n : Nat} (h : HasSys false v s) : HasSys false v (dropToken n s) :=
  (iteElse_sys (setLampWaits_sys h) fun h1 => setF_low (Nat.le_add_right_of_le (by decide)) h1).upd rfl

theorem lampOff_sys {n : Nat} (h : HasSys false v s) : HasSys false v (lampOff n s) :=
  setLampState_sys (setF_low (Nat.le_add_right_of_le (by decide)) (setB_low (Nat.le_add_right_of_le (by decide))
    (setF_low (Nat.le_add_right_of_le (by decide)) (dropToken_sys h))))

theorem lampsOff_sys {l : List Nat} (h : HasSys false v s) : HasSys false v (lampsOff l s) :=
  applyAll_sys (fun _ _ h => lampOff_sys h) h

theorem endTests_sys (h : HasSys false v s) : HasSys false v (endTests s) :=
  applyAll_sys (fun _ _ h => ite_sys (coast_sys h) (setLampState_sys h)) (h.upd rfl)

theorem coastAll_sys {mask : Nat} (h : HasSys false v s) : HasSys false v (coastAll mask s) :=
  applyAll_sys (fun _ _ h => coast_sys h) h

theorem groupsOff_sys {mask : Nat} (h : HasSys false v s) : HasSys false v (groupsOff mask s) :=
  lampsOff_sys h

theorem wearEvent_sys {f : Fld} {e item inst : Nat} (hf : 0x40030000 ≤ f.addr) (h : HasSys false v s) :
    HasSys false v (wearEvent f e item inst s) :=
  raise_low (setF_sys (by decide) (setF_sys (by decide) (setB_low hf h)))

theorem predictItem_sys {x : Nat × Nat} (h : HasSys false v s) : HasSys false v (predictItem x s) :=
  iteElse_sys (setWearItem_sys h) fun h1 => wearEvent_sys (by decide) h1

theorem ledgerSave_sys (h : HasSys false v s) : HasSys false v (ledgerSave s) := by
  unfold ledgerSave
  split
  · exact h.upd rfl
  · exact setB_sys (by decide) (h.upd rfl)

theorem ledgerMs_sys (h : HasSys false v s) : HasSys false v (ledgerMs s) :=
  applyAll_sys (fun _ _ h => iteElse_sys (ite_sys (wearBump_sys h) h) fun h1 => wearBump_sys h1) h

theorem sampleAll_sys {l : List (Nat × Nat)} {k : Nat} (h : HasSys false v s) : HasSys false v (sampleAll l k s) :=
  storeWrite_sys ((applyAll_sys (fun _ _ h => setWearItem_sys h) h).upd rfl)

theorem backupCharge_sys {lastBase lost : Nat} (h : HasSys false v s) : HasSys false v (backupCharge lastBase lost s) :=
  ite_sys h (wearBump_sys h)

theorem ledgerLoad_sys {backup : Bool} (h : HasSys false v s) : HasSys false v (ledgerLoad backup s) := by
  unfold ledgerLoad
  split
  · exact raise_low (setB_sys (by decide) (setB_sys (by decide) (h.upd rfl)))
  · extract_lets s1 _ s2 missed sample s3 s4
    have hs1 : HasSys false v s1 := setB_sys (by decide) (h.upd rfl)
    have hs2 : HasSys false v s2 := ite_sys (setB_sys (by decide) (hs1.upd rfl)) (ledgerAdvance_sys hs1)
    have hs3 : HasSys false v s3 := applyAll_sys (fun _ _ h => applyAll_sys (fun _ _ h => predictItem_sys h) (sampleAll_sys h)) hs2
    have hs4 : HasSys false v s4 := ite_sys (backupCharge_sys hs3) hs3
    exact ite_sys hs4 (ledgerSave_sys hs4)

theorem linkStart_sys (h : HasSys false v s) : HasSys false v (linkStart s) :=
  applyAll_sys (fun _ _ h => setLink_sys (setRxState_sys h)) h

theorem wakeCause_sys (h : HasSys false v s) : HasSys false v (wakeCause s) :=
  setF_sys (by decide) (iteElse_sys (iteElse_sys (iteElse_sys (iteElse_sys (iteElse_sys
    (iteApp_sys (setB_sys (by decide) (setB_sys (by decide) h)) (setB_sys (by decide) h)) fun h1 => setB_sys (by decide) h1) fun h1 => setB_sys
      (by decide) h1) fun h1 => setB_sys (by decide) h1)
    fun h1 => setB_sys (by decide) h1) fun h1 => setB_sys (by decide) h1)

theorem tileDown_sys {n : Nat} (h : HasSys false v s) : HasSys false v (tileDown n s) :=
  ite_sys (canGoto_sys (setCan_sys (canFlush_sys (setTileBit_sys (by decide) (by decide) h))))
    (serQuiet_sys (serFlush_sys (setTileBit_sys (by decide) (by decide) h)))

theorem tileWaits_sys {n : Nat} (h : HasSys false v s) : HasSys false v (tileWaits n s) :=
  ite_sys (setF_low (Nat.le_add_right_of_le (by decide)) (setUnit_sys (by decide) (by decide) (by decide) h))
    (setF_low (Nat.le_add_right_of_le (by decide)) (setUnit_sys (by decide) (by decide) (by decide) h))

theorem pcieDown_sys (h : HasSys false v s) : HasSys false v (pcieDown s) :=
  setB_sys (by decide) (setF_sys (by decide) (setF_sys (by decide) (h.upd rfl)))

theorem bootPortsDown_sys (h : HasSys false v s) : HasSys false v (bootPortsDown s) :=
  applyAll_sys (fun _ _ h => ite_sys (setB_low (Nat.le_add_right_of_le (by decide)) h) h) (h.upd rfl)

theorem bootPortsBack_sys (h : HasSys false v s) : HasSys false v (bootPortsBack s) :=
  ite_sys (h.upd rfl) h

theorem fence_sys {c : Nat} {units : List Nat} (h : HasSys false v s) : HasSys false v (fence c units s) := by
  unfold fence
  split
  · exact applyAll_sys (fun _ _ h => tileDown_sys h) h
  · exact applyAll_sys (fun _ _ h => portStop_sys h) h
  · exact applyAll_sys (fun _ _ h => portStop_sys h) h
  · exact applyAll_sys (fun _ _ h => portStop_sys h) h
  · exact lampsOff_sys (coastAll_sys h)
  · exact refreshAdc_sys (coastAll_sys h)
  · exact applyAll_sys (fun _ _ h => fenceLodger_sys h) h
  · exact declare_sys (pcieDown_sys h)
  · exact h

theorem wipeRam_sys {w : World} (h : HasSys false v s) : HasSys false v (wipeRam w s) := h.upd rfl

theorem refCycles_sys (h : HasSys rate v s) : HasSys rate v (refCycles s) :=
  ite_sys (h.upd rfl) h

theorem aonCycles_sys (h : HasSys rate v s) : HasSys rate v (aonCycles s) :=
  ite_sys h (h.upd rfl)

theorem reclaimStart_sys (h : HasSys rate v s) : HasSys rate v (reclaimStart s) :=
  h.upd rfl

theorem serHandoffs_sys (h : HasSys rate v s) : HasSys rate v (serHandoffs s) :=
  applyAll_sys (fun _ _ h => serHandAll_sys h) h

end

end Sys2Proof.Machine

namespace Sys2Proof.Machine

/-! # The state after reset -/

/-- Settles O4: no register is listed, so each field reads its table's reset value. -/
theorem canonicalAtReset : Obligations.CanonicalAtReset := by
  unfold Obligations.CanonicalAtReset
  exact ⟨⟨rfl, rfl⟩, fun f => rfl, rfl, rfl, rfl⟩

/-! # One microsecond with nothing waiting -/

theorem serHandAll_of_empty {n : Nat} {s : State} (h : (serOf n s).hand = []) : serHandAll n s = setSer n { serOf n s with hand := [] } s := by
  unfold serHandAll
  rw [h]
  rfl

theorem hand_setSer_empty (n m : Nat) {s : State} (h : ∀ i, (serOf i s).hand = []) :
    (serOf m (setSer n { serOf n s with hand := [] } s)).hand = [] := by
  by_cases hm : m = n
  · subst hm
    simp only [serOf, setSer, tabGet_tabPut_self]
  · simp only [serOf, setSer, tabGet_tabPut_ne _ _ _ _ hm]
    exact h m

/-- With no frame waiting the handoff of the serial tiles leaves memory as it is. -/
theorem mem_applyAll_serHandAll (l : List Nat) {s : State} (h : ∀ n, (serOf n s).hand = []) : (applyAll l serHandAll s).mem = s.mem := by
  induction l generalizing s with
  | nil => rfl
  | cons n r ih =>
    change (applyAll r serHandAll (serHandAll n s)).mem = s.mem
    rw [serHandAll_of_empty (h n)]
    exact ih fun m => hand_setSer_empty n m h

theorem serHandoffs_pending (s : State) : (serHandoffs s).pending = s.pending := applyAll_pending (fun n s => serHandAll_pending n s) s

theorem ledgerMs_keeps (s : State) : Keeps s (ledgerMs s) := by
  refine applyAll_keeps (fun m s => ?_) s
  simp only [Keeps, ite_keeps, wearBump_keeps, ite_self, and_self]

theorem endTests_keeps (s : State) : Keeps s (endTests s) := by
  refine keeps_trans (t := { s with cab := { s.cab with tests := s.cab.tests.filter fun e => s.ticks < e.2 } }) ⟨rfl, rfl⟩
    (applyAll_keeps (fun e s => ?_) _)
  simp only [Keeps, ite_keeps, coast_keeps, setLampState_keeps, ite_self, and_self]

/-- What a millisecond boundary leaves. -/
theorem millisecond_frame (s : State) :
    Keeps s (millisecond s) ∧ (millisecond s).time = s.time ∧ (millisecond s).ticks = s.ticks := by
  unfold millisecond
  extract_lets _ _ _ _ s1
  have hs1 : Keeps s s1 := ledgerMs_keeps _
  have hv : sysView false s1 = _ := ledgerMs_sys rfl
  have htime1 := time_of_sysView hv
  have hticks1 := ticks_of_sysView hv
  generalize hs2 : (if isSet SYS_WDN_CTL_en s1 = true then setF SYS_WDN_STAT_left (getF SYS_WDN_STAT_left s1 - 1) s1 else s1) = s2
  have hset : Keeps s1 s2 ∧ s2.time = s1.time ∧ s2.ticks = s1.ticks := by
    rw [← hs2]
    split <;> exact ⟨⟨rfl, rfl⟩, rfl, rfl⟩
  obtain ⟨hkeep, htime, hticks⟩ := hset
  have hr : sysView false (refreshMs s2) = sysView false s2 := refreshMs_sys rfl
  exact ⟨keeps_trans hs1 (keeps_trans hkeep (refreshStep_keeps _)),
    ((time_of_sysView hr).trans htime).trans htime1, ((ticks_of_sysView hr).trans hticks).trans hticks1⟩

theorem time_etherCycles_congr {n : Nat} {s t : State} (htime : t.time = s.time) (hrate : getF TSY_FADJ_fadj t = getF TSY_FADJ_fadj s) :
    (etherCycles n t).time = (etherCycles n s).time := by
  simp only [etherCycles, nowNs, etherStep, htime, hrate]

theorem aonCycles_eq (s : State) : aonCycles s = { s with aon := (aonCycles s).aon } := by
  unfold aonCycles
  split <;> rfl

theorem aon_aonCycles_refCycles (s : State) : (aonCycles (refCycles s)).aon = (aonCycles s).aon := by
  have hmode : mode (refCycles s) = mode s := by unfold refCycles; split <;> rfl
  have haon : (refCycles s).aon = s.aon := by unfold refCycles; split <;> rfl
  unfold aonCycles
  rw [hmode]
  split <;> simp only [haon]

/-- Where CK_TICK stands, CK_REF and CK_AON alone go on. -/
theorem clockTick_of_stopped {s : State} (h : s.power.tick = false) :
    clockTick s = { s with wires := (refCycles s).wires, aon := (aonCycles s).aon } := by
  have hpower : (aonCycles (refCycles s)).power = s.power := power_of_sysView (rate := true) (aonCycles_sys (refCycles_sys rfl))
  have hstop : clockTick s = aonCycles (refCycles s) := by simp only [clockTick, hpower, h, Bool.not_false, if_true]
  rw [hstop, aonCycles_eq, aon_aonCycles_refCycles]
  unfold refCycles
  split <;> rfl

/-- The state in which the microsecond's CK_ETH cycles are counted: what waits at serial tiles has been handed on. -/
def handedOn (s : State) : State := serHandoffs (reclaimStart { aonCycles (refCycles s) with ticks := s.ticks + 1 })

theorem handedOn_frame (s : State) : (handedOn s).pending = s.pending ∧ (handedOn s).ticks = s.ticks + 1 ∧
    (etherCycles 125 (handedOn s)).time = (etherCycles 125 s).time ∧ ((∀ n, (serOf n s).hand = []) → (handedOn s).mem = s.mem) := by
  have hclocks : (aonCycles (refCycles s)).pending = s.pending ∧ (aonCycles (refCycles s)).mem = s.mem ∧
      (aonCycles (refCycles s)).ser = s.ser := by
    unfold aonCycles refCycles
    split <;> split <;> exact ⟨rfl, rfl, rfl⟩
  obtain ⟨hpending, hmem, hser⟩ := hclocks
  have hv : sysView true (aonCycles (refCycles s)) = sysView true s := aonCycles_sys (refCycles_sys rfl)
  have ht : sysView true (handedOn s) = sysView true { aonCycles (refCycles s) with ticks := s.ticks + 1 } :=
    serHandoffs_sys (reclaimStart_sys rfl)
  refine ⟨(serHandoffs_pending _).trans hpending, ticks_of_sysView ht, ?_, fun h => ?_⟩
  · have htime := time_of_sysView hv
    have hrate := getF_of_sysView hv (f := TSY_FADJ_fadj) (by decide)
    exact time_etherCycles_congr ((time_of_sysView ht).trans htime) ((getF_of_sysView ht (by decide)).trans hrate)
  · have hempty (n : Nat) : (serOf n (reclaimStart { aonCycles (refCycles s) with ticks := s.ticks + 1 })).hand = [] := by
      simpa only [serOf, reclaimStart, hser] using h n
    exact (mem_applyAll_serHandAll _ hempty).trans hmem

theorem clockTick_of_running {s : State} (h : s.power.tick = true) : (clockTick s).ticks = s.ticks + 1 ∧ (clockTick s).pending = s.pending ∧
    (clockTick s).time = (etherCycles 125 s).time ∧ ((∀ n, (serOf n s).hand = []) → (clockTick s).mem = s.mem) := by
  have hpower : (aonCycles (refCycles s)).power = s.power := power_of_sysView (rate := true) (aonCycles_sys (refCycles_sys rfl))
  have hticks0 : (aonCycles (refCycles s)).ticks = s.ticks := ticks_of_sysView (rate := true) (aonCycles_sys (refCycles_sys rfl))
  obtain ⟨hpending, hticks, htime, hmem⟩ := handedOn_frame s
  have he : sysView false (endTests (etherCycles 125 (handedOn s))) = sysView false (etherCycles 125 (handedOn s)) := endTests_sys rfl
  have hk : Keeps (handedOn s) (endTests (etherCycles 125 (handedOn s))) := endTests_keeps (etherCycles 125 (handedOn s))
  have hgo : clockTick s = if (endTests (etherCycles 125 (handedOn s))).ticks % 1000 = 0 then millisecond
    (endTests (etherCycles 125 (handedOn s)))
      else endTests (etherCycles 125 (handedOn s)) := by
    simp only [clockTick, hpower, h, hticks0, handedOn, Bool.not_true, Bool.false_eq_true, if_false]
  have hlast (t : State) (ht : Keeps (endTests (etherCycles 125 (handedOn s))) t)
    (htime2 : t.time = (endTests (etherCycles 125 (handedOn s))).time)
      (hticks2 : t.ticks = (endTests (etherCycles 125 (handedOn s))).ticks) : t.ticks = s.ticks + 1 ∧ t.pending = s.pending ∧
      t.time = (etherCycles 125 s).time ∧ ((∀ n, (serOf n s).hand = []) → t.mem = s.mem) :=
    ⟨(hticks2.trans (ticks_of_sysView he)).trans hticks, (ht.1.trans hk.1).trans hpending, (htime2.trans (time_of_sysView he)).trans htime,
      fun h => (ht.2.trans hk.2).trans (hmem h)⟩
  rw [hgo]
  split
  · obtain ⟨hms, htime2, hticks2⟩ := millisecond_frame (endTests (etherCycles 125 (handedOn s)))
    exact hlast _ hms htime2 hticks2
  · exact hlast _ ⟨rfl, rfl⟩ rfl rfl

theorem step_of_empty {s : State} (h : s.pending = []) : step s = .next (clockTick s) := by
  simp only [step, h]

/-- Settles O2: nothing that the tick does before the CK_ETH cycles are counted reaches the time base or its rate (`sysView`). -/
theorem emptyQueueLetsAMicrosecondPass : Obligations.EmptyQueueLetsAMicrosecondPass := by
  unfold Obligations.EmptyQueueLetsAMicrosecondPass
  refine ⟨fun s hq hstop => ?_, fun s hq hrun => ?_⟩
  · rw [step_of_empty hq, clockTick_of_stopped hstop]
  · obtain ⟨hticks, hpending, htime, hmem⟩ := clockTick_of_running hrun
    exact ⟨_, step_of_empty hq, hticks, hpending.trans hq, htime, hmem⟩

end Sys2Proof.Machine

namespace Sys2Proof.Machine

/-! # Registers of SYS and CKR

A DEGRADED cause, a mode change and what follows from them write PWR and the blocks of the units concerned, and no register of SYS or CKR. -/

/-- The registers of SYS and CKR read the same in two states. -/
def SameCore (s t : State) : Prop := ∀ f : Fld, f.key < 0x40020000 * 32 → getF f t = getF f s

theorem SameCore.refl (s : State) : SameCore s s := fun _ _ => rfl

theorem SameCore.trans {s t u : State} (h : SameCore s t) (h' : SameCore t u) : SameCore s u := fun f hf => (h' f hf).trans (h f hf)

theorem SameCore.of_sysView {rate : Bool} {s t : State} (h : sysView rate t = sysView rate s) : SameCore s t :=
  fun f hf => getF_of_sysView h (by simp only [onSys, Bool.or_eq_true, decide_eq_true_eq]; omega)

theorem SameCore.of_regsBut {l : List Fld} {s t : State} (h : RegsBut l s t) (hl : ∀ g ∈ l, 0x40020000 * 32 ≤ g.key) : SameCore s t :=
  fun f hf => h f fun g hg e => by have := hl g hg; omega

theorem SameCore.of_regs {s t : State} (h : t.regs = s.regs) : SameCore s t := fun f _ => by simp only [getF, h]

theorem SameCore.setF {f : Fld} {v : Nat} {s t : State} (h : SameCore s t) (hf : 0x40020000 * 32 ≤ f.key) :
    SameCore s (Machine.setF f v t) :=
  fun g hg => (getF_setF_ne v t (by omega)).trans (h g hg)

theorem sameCore_ite {c : Prop} [Decidable c] {s t u : State} (h : SameCore s t) (h' : SameCore s u) : SameCore s (if c then t else u) := by
  split <;> assumption

theorem sameCore_refreshMode (s : State) : SameCore s (refreshMode s) := SameCore.of_regsBut (refreshMode_frame s).2 (by decide)

theorem sameCore_standbyTrigger (why : Nat) (s : State) : SameCore s (standbyTrigger why s) := by
  unfold standbyTrigger
  split
  · exact ((SameCore.of_regs rfl).setF (by decide)).setF (by decide)
  · exact SameCore.of_regs rfl
  · exact SameCore.refl s

theorem sameCore_setCause (c : Nat) (units : List Nat) (s : State) : SameCore s (setCause c units s) := by
  unfold setCause
  split
  · exact SameCore.refl s
  · extract_lets s1
    have hs1 : SameCore s s1 := ((SameCore.refl s).setF (by decide)).setF (by decide)
    have hfence : sysView false (fence c units s1) = sysView false s1 := fence_sys rfl
    exact ((hs1.trans (SameCore.of_sysView hfence)).trans (sameCore_standbyTrigger _ _)).trans (sameCore_refreshMode _)

theorem sameCore_clearCause (c : Nat) (s : State) : SameCore s (clearCause c s) :=
  ((SameCore.refl s).setF (by decide)).trans (sameCore_refreshMode _)

/-! ## What a cause leaves and sets -/

theorem standbyTrigger_frame (why : Nat) (s : State) : (standbyTrigger why s).bus = s.bus ∧ (standbyTrigger why s).power.wds = s.power.wds ∧
    getF PWR_DEGRADE_cause (standbyTrigger why s) = getF PWR_DEGRADE_cause s := by
  unfold standbyTrigger
  split
  · refine ⟨rfl, rfl, ?_⟩
    simp (disch := decide) only [setB_eq, getF_setF_ne]
    rfl
  · exact ⟨rfl, rfl, rfl⟩
  · exact ⟨rfl, rfl, rfl⟩

theorem refreshMode_rest (s : State) : (refreshMode s).bus = s.bus ∧ (refreshMode s).power = s.power ∧
    getF PWR_DEGRADE_cause (refreshMode s) = getF PWR_DEGRADE_cause s := by
  obtain ⟨heq, hregs⟩ := refreshMode_frame s
  exact ⟨by rw [heq], by rw [heq], hregs _ (by decide)⟩

theorem setCause_frame (c : Nat) (units : List Nat) (s : State) :
    (setCause c units s).bus = s.bus ∧ (setCause c units s).power.wds = s.power.wds := by
  unfold setCause
  split
  · exact ⟨rfl, rfl⟩
  · extract_lets s1
    have hfence : sysView false (fence c units s1) = sysView false s1 := fence_sys rfl
    obtain ⟨hbus, hpower, -⟩ := refreshMode_rest (standbyTrigger 4 (fence c units s1))
    obtain ⟨hbus', hwds, -⟩ := standbyTrigger_frame 4 (fence c units s1)
    have hbus1 := bus_of_sysView hfence
    have hpower1 := congrArg PowerState.wds (power_of_sysView hfence)
    exact ⟨(hbus.trans hbus').trans hbus1, ((congrArg PowerState.wds hpower).trans hwds).trans hpower1⟩

/-- R106: the cause is shown. -/
theorem testBit_setCause {c : Nat} (hc : c < 10) (units : List Nat) {s : State} (h : serving s = true) :
    (getF PWR_DEGRADE_cause (setCause c units s)).testBit c = true := by
  unfold setCause
  rw [if_neg (by simp [h])]
  extract_lets s1
  have hfence : sysView false (fence c units s1) = sysView false s1 := fence_sys rfl
  obtain ⟨-, -, hmode⟩ := refreshMode_rest (standbyTrigger 4 (fence c units s1))
  obtain ⟨-, -, hstandby⟩ := standbyTrigger_frame 4 (fence c units s1)
  have hs1 : getF PWR_DEGRADE_cause s1 = (getF PWR_DEGRADE_cause s ||| 2 ^ c) % 2 ^ 10 := by
    simp (disch := decide) only [s1, orF_eq, getF_setF_ne]
    exact getF_setF_self _ _ _
  rw [hmode, hstandby, getF_of_sysView hfence (by decide), hs1, Nat.testBit_mod_two_pow]
  simp [hc]

theorem testBit_natAndNot_self (n c : Nat) : (natAndNot n (2 ^ c)).testBit c = false := by
  simp [natAndNot]

/-- R106: the cause clears. -/
theorem testBit_clearCause (c : Nat) (s : State) : (getF PWR_DEGRADE_cause (clearCause c s)).testBit c = false := by
  have hclr : getF PWR_DEGRADE_cause (clrF PWR_DEGRADE_cause (2 ^ c) s) = natAndNot (getF PWR_DEGRADE_cause s) (2 ^ c) % 2 ^ 10 :=
    getF_setF_self _ _ _
  rw [clearCause, (refreshMode_rest _).2.2, hclr, Nat.testBit_mod_two_pow, testBit_natAndNot_self, Bool.and_false]

theorem bus_clearCause (c : Nat) (s : State) : (clearCause c s).bus = s.bus := (refreshMode_rest _).1

end Sys2Proof.Machine

namespace Sys2Proof.Machine

/-! # Resets and watchdogs

## The reset control register (R89) -/

theorem rstctlWrite_of_badKey {rq : Requester} {action key : Nat} {s : State} (h : key ≠ 0x52A7) : rstctlWrite rq action key s = busError s := by
  simp only [rstctlWrite, h, ne_eq, not_false_eq_true, if_true]

/-- What a refused write of SYS_RSTCTL leaves: the bus error, and the violation record. -/
def ResetRefused (s t : State) : Prop :=
  t = { s with bus := .error, regs := t.regs, evc := t.evc, once := t.once } ∧ RegsBut refusalFields s t

theorem resetRefused_busError (s : State) : ResetRefused s (busError s) := ⟨rfl, (RegsBut.refl _ s).of_regs rfl⟩

/-- R89: without the secure world a full reset or a secure world reset is not begun, whatever the key. -/
theorem resetRefused_of_normal {rq : Requester} {action key : Nat} {s : State} (h : rqSecure rq = false) (ha : action = 1 ∨ action = 3) :
    ResetRefused s (gate rq true 0x40000010 0 (rstctlWrite rq action key) s) := by
  cases hadm : admits rq true 0x40000010 0 s with
  | false => exact gate_refused_frame hadm _
  | true =>
    rw [gate_of_admits hadm]
    by_cases hkey : key = 0x52A7
    · have hviol : rstctlWrite rq action key s = violate rq 0x40000010 true s := by
        rcases ha with rfl | rfl <;> simp [rstctlWrite, hkey, secureOnly, h]
      rw [hviol]
      exact violate_frame rq 0x40000010 true s
    · rw [rstctlWrite_of_badKey hkey]
      exact resetRefused_busError s

theorem ResetRefused.frame {s t : State} (h : ResetRefused s t) : t.bus = .error ∧ mode t = mode s ∧ t.mem = s.mem ∧ t.power = s.power ∧
    isSet SYS_RSTCAUSE_swsys t = isSet SYS_RSTCAUSE_swsys s ∧ isSet SYS_RSTCAUSE_swworld t = isSet SYS_RSTCAUSE_swworld s := by
  obtain ⟨heq, hregs⟩ := h
  refine ⟨by rw [heq], hregs _ (by decide), by rw [heq], by rw [heq], ?_, ?_⟩
  · simp only [isSet, hregs SYS_RSTCAUSE_swsys (by decide)]
  · simp only [isSet, hregs SYS_RSTCAUSE_swworld (by decide)]

/-! ## A full reset (R84, R85) -/

theorem isSet_rstCause_self {f : Fld} (hf : f.width = 1) (s : State) : isSet f (rstCause f s) = true := by
  simp [rstCause, hf]

/-- What a full reset leaves beside the registers, and the mode (R84, R85). -/
def ResetBegun (s t : State) : Prop :=
  t.power.hold = true ∧ mode t = mBare ∧ t.mem = [] ∧ t.pending = s.pending ∧ t.bus = s.bus ∧ t.power.resetLow = s.power.resetLow

theorem ResetBegun.setF {f : Fld} {v : Nat} {s t : State} (h : ResetBegun s t) (hf : PWR_MODE_mode.key ≠ f.key) :
    ResetBegun s (Machine.setF f v t) := by
  obtain ⟨hhold, hmode, hrest⟩ := h
  exact ⟨hhold, (getF_setF_ne v t hf).trans hmode, hrest⟩

theorem ResetBegun.ite {c : Prop} [Decidable c] {s t u : State} (h : ResetBegun s t) (h' : ResetBegun s u) :
    ResetBegun s (if c then t else u) := by
  split <;> assumption

/-- The fields that a full reset sets, beside its cause. -/
def resetFields : List Fld :=
  [PWR_MODE_mode, PWR_MODE_prev, CKR_EVT_clkfault, CKR_RUN_clk, CKR_STATUS_ddrlock, CKR_STATUS_rootlock, PWR_BOOTTRY_n]

section
variable {cause : Fld} {s : State} (hpor : s.power.por = false) (hhold : s.power.hold = false)
include hpor hhold

theorem resetBegun_fullReset (hcause : PWR_MODE_mode.key ≠ cause.key) : ResetBegun s (fullReset cause s) := by
  unfold fullReset
  rw [if_neg (by simp [hpor]), if_neg (by simp [hhold])]
  extract_lets old s0 _ t t1 t2 t3
  have h1 : ResetBegun s t1 := by
    refine ⟨rfl, ?_, rfl, rfl, rfl, rfl⟩
    simp (disch := decide) only [t1, copyF, mode, getF_setF_ne]
    exact getF_setF_self _ _ _
  have h2 : ResetBegun s t2 := ((h1.setF (by decide)).setF (by decide)).setF (by decide)
  exact (ResetBegun.ite (h2.setF (by decide)) h2).setF hcause

/-- A field of SYS and CKR that a full reset keeps (R84). -/
theorem getF_fullReset_kept {f : Fld} (hcore : f.key < 0x40020000 * 32) (hkept : fullKept (keyAddr f.key) = true)
    (hfields : ∀ g ∈ resetFields, f.key ≠ g.key) (hcause : f.key ≠ cause.key) : getF f (fullReset cause s) = getF f s := by
  simp only [resetFields, List.forall_mem_cons] at hfields
  obtain ⟨hmode, hprev, hevt, hclk, hddr, hroot, hboot, -⟩ := hfields
  unfold fullReset
  rw [if_neg (by simp [hpor]), if_neg (by simp [hhold])]
  extract_lets old s0 _ t t1 t2 t3
  have hsave : sysView false s0 = sysView false s := ledgerSave_sys rfl
  have ht : getF f t = getF f s := by
    have hfilter : getF f t = getF f s0 := getF_filter (f := f) (q := fun e => fullKept (keyAddr e.1)) (s := s0) fun _ => hkept
    exact hfilter.trans (SameCore.of_sysView hsave f hcore)
  have h2 : getF f t2 = getF f s := by
    simp only [t2, t1, copyF, setB_eq, getF_setF_ne _ _ hroot, getF_setF_ne _ _ hddr, getF_setF_ne _ _ hclk, getF_setF_ne _ _ hevt,
      getF_setF_ne _ _ hmode, getF_setF_ne _ _ hprev, ht]
  have h3 : getF f t3 = getF f s := by
    simp only [t3]
    split
    · rw [getF_setF_ne _ _ hboot, h2]
    · exact h2
  exact (getF_setF_ne _ _ hcause).trans h3

theorem isSet_fullReset_cause (hcause : cause.width = 1) : isSet cause (fullReset cause s) = true := by
  unfold fullReset
  rw [if_neg (by simp [hpor]), if_neg (by simp [hhold])]
  exact isSet_rstCause_self hcause _

/-- R83: the record of a clock fault stands after the full reset. -/
theorem isSet_clkfault_fullReset (hcause : CKR_EVT_clkfault.key ≠ cause.key) :
    isSet CKR_EVT_clkfault (fullReset cause s) = isSet CKR_EVT_clkfault s := by
  unfold fullReset
  rw [if_neg (by simp [hpor]), if_neg (by simp [hhold])]
  extract_lets old s0 _ t t1 t2 t3
  have h2 : getF CKR_EVT_clkfault t2 = getF CKR_EVT_clkfault s := by
    simp (disch := decide) only [t2, t1, copyF, setB_eq, getF_setF_ne, getF_setF_self]
    exact Nat.mod_eq_of_lt (getF_lt CKR_EVT_clkfault s)
  have h3 : getF CKR_EVT_clkfault t3 = getF CKR_EVT_clkfault s := by
    simp only [t3]
    split
    · rw [getF_setF_ne _ _ (by decide), h2]
    · exact h2
  simp only [isSet, rstCause, setB_eq, getF_setF_ne _ _ hcause, h3]

end

/-! ## A world reset (R84, R86, R107) -/

/-- What a world reset does to its world, before the watchdogs restart and the cause is set. -/
def worldCut (w : World) (decl : Nat) (s : State) : State := declareWorld w decl (ringsReset w (canWorldReset w (wipeRam w s)))

theorem worldCut_sysView (w : World) (decl : Nat) (s : State) : sysView false (worldCut w decl s) = sysView false s :=
  declareWorld_sys (ringsReset_sys (canWorldReset_sys (wipeRam_sys rfl)))

/-- The normal watchdog after a normal world reset: stopped, at its reset values (R87). -/
def wdnStop (s : State) : State :=
  setB SYS_WDN_CTL_en false (setF SYS_WDN_CTL_period 1000 (setB SYS_WDN_STAT_first false (setF SYS_WDN_STAT_left 0 s)))

theorem worldReset_of_idle {w : World} {cause : Fld} {decl : Nat} {s : State} (h : serving s = false) :
    worldReset w cause decl s = rstCause cause s := by
  simp only [worldReset, h, Bool.not_false, Bool.or_true, if_true]

theorem worldReset_normal_of_serving {cause : Fld} {decl : Nat} {s : State} (hhold : s.power.hold = false) (h : serving s = true) :
    worldReset .normal cause decl s = setCause 9 [] (wdnStop (worldCut .normal decl (rstCause cause s))) := by
  have hworld : (World.normal == World.secure) = false := rfl
  simp only [worldReset, h, hhold, Bool.not_true, Bool.or_false, Bool.false_eq_true, if_false, hworld, BEq.rfl, if_true, wdnStop, worldCut]

theorem worldReset_secure_of_serving {cause : Fld} {decl : Nat} {s : State} (hhold : s.power.hold = false) (h : serving s = true) :
    worldReset .secure cause decl s = setCause 8 [] (wdsRestart (worldCut .secure decl (rstCause cause s))) := by
  have hworld : (World.secure == World.normal) = false := rfl
  simp only [worldReset, h, hhold, Bool.not_true, Bool.or_false, Bool.false_eq_true, if_false, hworld, BEq.rfl, if_true, worldCut]

theorem serving_worldCut (w : World) (decl : Nat) {cause : Fld} (s : State) (hcause : PWR_MODE_mode.key ≠ cause.key) :
    serving (worldCut w decl (rstCause cause s)) = serving s := by
  have hcut : mode (worldCut w decl (rstCause cause s)) = mode (rstCause cause s) := getF_of_sysView (worldCut_sysView w decl _) (by decide)
  have hmode : mode (rstCause cause s) = mode s := getF_setF_ne _ _ hcause
  simp only [serving, hcut, hmode]

theorem isSet_worldCut_cause (w : World) (decl : Nat) {cause : Fld} (s : State) (hcore : cause.key < 0x40020000 * 32) (hw : cause.width = 1) :
    isSet cause (worldCut w decl (rstCause cause s)) = true := by
  have hcut : getF cause (worldCut w decl (rstCause cause s)) = getF cause (rstCause cause s) :=
    SameCore.of_sysView (worldCut_sysView w decl _) cause hcore
  rw [← isSet_rstCause_self hw s]
  simp only [isSet, hcut]

theorem wdnStop_bus (s : State) : (wdnStop s).bus = s.bus := rfl

theorem wdsRestart_frame (s : State) : (wdsRestart s).bus = s.bus ∧ (wdsRestart s).regs = s.regs ∧
    (wdsRestart s).power.wds = getF SYS_WDS_CTL_period s := ⟨rfl, rfl, rfl⟩

theorem serving_wdsRestart (s : State) : serving (wdsRestart s) = serving s := rfl

theorem serving_wdnStop (s : State) : serving (wdnStop s) = serving s := by
  have hmode : mode (wdnStop s) = mode s := by simp (disch := decide) only [mode, wdnStop, setB_eq, getF_setF_ne]
  simp only [serving, hmode]

/-- What a world reset of a serving part leaves, whatever its source (R84, R107). -/
theorem bus_worldReset (w : World) (cause : Fld) (decl : Nat) {s : State} (hhold : s.power.hold = false) : (worldReset w cause decl s).bus =
    s.bus := by
  cases h : serving s with
  | false => rw [worldReset_of_idle h]; rfl
  | true =>
    have hcut : (worldCut w decl (rstCause cause s)).bus = (rstCause cause s).bus := bus_of_sysView (worldCut_sysView w decl _)
    have hbus : (rstCause cause s).bus = s.bus := rfl
    cases w with
    | normal => rw [worldReset_normal_of_serving hhold h, (setCause_frame _ _ _).1, wdnStop_bus, hcut, hbus]
    | secure => rw [worldReset_secure_of_serving hhold h, (setCause_frame _ _ _).1, (wdsRestart_frame _).1, hcut, hbus]

theorem isSet_worldReset_cause {w : World} {cause : Fld} (decl : Nat) {s : State} (hhold : s.power.hold = false)
    (hcore : cause.key < 0x40020000 * 32) (hw : cause.width = 1)
    (hwdn : ∀ g ∈ [SYS_WDN_CTL_en, SYS_WDN_CTL_period, SYS_WDN_STAT_first, SYS_WDN_STAT_left], cause.key ≠ g.key) :
    isSet cause (worldReset w cause decl s) = true := by
  have hcut := isSet_worldCut_cause w decl s hcore hw
  simp only [List.forall_mem_cons] at hwdn
  obtain ⟨hen, hperiod, hfirst, hleft, -⟩ := hwdn
  cases h : serving s with
  | false => rw [worldReset_of_idle h]; exact isSet_rstCause_self hw s
  | true =>
    rw [← hcut]
    cases w with
    | normal =>
      rw [worldReset_normal_of_serving hhold h, isSet, sameCore_setCause _ _ _ cause hcore]
      simp only [isSet, wdnStop, setB_eq, getF_setF_ne _ _ hen, getF_setF_ne _ _ hperiod, getF_setF_ne _ _ hfirst, getF_setF_ne _ _ hleft]
    | secure =>
      rw [worldReset_secure_of_serving hhold h, isSet, sameCore_setCause _ _ _ cause hcore, isSet, getF, getF, (wdsRestart_frame _).2.1]

/-- R87, R107: a normal world reset in a mode with an image in force. -/
theorem worldReset_normal {cause : Fld} (decl : Nat) {s : State} (hhold : s.power.hold = false) (hserv : serving s = true)
    (hcause : PWR_MODE_mode.key ≠ cause.key) :
    isSet SYS_WDN_CTL_en (worldReset .normal cause decl s) = false ∧
      (getF PWR_DEGRADE_cause (worldReset .normal cause decl s)).testBit 9 = true := by
  rw [worldReset_normal_of_serving hhold hserv]
  refine ⟨?_, testBit_setCause (by decide) _ ?_⟩
  · rw [isSet, sameCore_setCause _ _ _ SYS_WDN_CTL_en (by decide)]
    simp [wdnStop]
  · exact (serving_wdnStop _).trans ((serving_worldCut _ _ _ hcause).trans hserv)

/-- R88, R107: a secure world reset in a mode with an image in force. -/
theorem worldReset_secure {cause : Fld} (decl : Nat) {s : State} (hhold : s.power.hold = false) (hserv : serving s = true)
    (hcause : PWR_MODE_mode.key ≠ cause.key) (hperiod : SYS_WDS_CTL_period.key ≠ cause.key) :
    (worldReset .secure cause decl s).power.wds = getF SYS_WDS_CTL_period s ∧
      (getF PWR_DEGRADE_cause (worldReset .secure cause decl s)).testBit 8 = true := by
  rw [worldReset_secure_of_serving hhold hserv]
  refine ⟨?_, testBit_setCause (by decide) _ ((serving_wdsRestart _).trans ((serving_worldCut _ _ _ hcause).trans hserv))⟩
  have hcut : getF SYS_WDS_CTL_period (worldCut .secure decl (rstCause cause s)) = getF SYS_WDS_CTL_period (rstCause cause s) :=
    getF_of_sysView (worldCut_sysView _ decl _) (by decide)
  rw [(setCause_frame _ _ _).2, (wdsRestart_frame _).2.2, hcut]
  exact getF_setF_ne _ _ hperiod

/-! ## Each command completes -/

section
variable {rq : Requester} {s : State} (ha : admits rq true 0x40000010 0 s = true)
include ha

theorem exec_rstctl_of_badKey {key : Nat} (hkey : key ≠ 0x52A7) : exec (.systemSoftwareReset rq key) s = .next (busError s) ∧
    exec (.normalWorldResetCmd rq key) s = .next (busError s) ∧ exec (.secureWorldResetCmd rq key) s = .next (busError s) := by
  have hgate (action : Nat) : gate rq true 0x40000010 0 (rstctlWrite rq action key) s = busError s := by
    rw [gate_of_admits ha, rstctlWrite_of_badKey hkey]
  exact ⟨congrArg _ (hgate 1), congrArg _ (hgate 2), congrArg _ (hgate 3)⟩

theorem exec_normalWorldResetCmd :
    exec (.normalWorldResetCmd rq 0x52A7) s = .next (worldReset .normal SYS_RSTCAUSE_swworld 2 (busDone s)) :=
  congrArg _ (gate_of_admits ha _)

theorem exec_secureWorldResetCmd (hsec : rqSecure rq = true) :
    exec (.secureWorldResetCmd rq 0x52A7) s = .next (worldReset .secure SYS_RSTCAUSE_swworld 2 (busDone s)) := by
  refine congrArg _ ((gate_of_admits ha _).trans ?_)
  simp only [cmdSecureWorldResetCmd, rstctlWrite, secureOnly, hsec, ne_eq, not_true_eq_false, if_false, if_true]

theorem exec_systemSoftwareReset (hsec : rqSecure rq = true) :
    exec (.systemSoftwareReset rq 0x52A7) s = .next (fullReset SYS_RSTCAUSE_swsys (busDone s)) := by
  refine congrArg _ ((gate_of_admits ha _).trans ?_)
  simp only [cmdSystemSoftwareReset, rstctlWrite, secureOnly, hsec, ne_eq, not_true_eq_false, if_false, if_true]

/-- R89, R107: the normal world reset is taken. -/
theorem completes_normalWorldResetCmd (hhold : s.power.hold = false) : Completes (.normalWorldResetCmd rq 0x52A7) s fun t =>
    t.bus = .done ∧ isSet SYS_RSTCAUSE_swworld t = true ∧
      (serving s = true → isSet SYS_WDN_CTL_en t = false ∧ (getF PWR_DEGRADE_cause t).testBit 9 = true) :=
  completes_of_eq (exec_normalWorldResetCmd ha) ⟨bus_worldReset (s := busDone s) _ _ _ hhold,
    isSet_worldReset_cause (s := busDone s) 2 hhold (by decide) (by decide) (by decide),
    fun hserv => worldReset_normal (s := busDone s) 2 hhold hserv (by decide)⟩

/-- R89, R107: the secure world reset is taken from the secure world. -/
theorem completes_secureWorldResetCmd (hsec : rqSecure rq = true) (hhold : s.power.hold = false) :
    Completes (.secureWorldResetCmd rq 0x52A7) s fun t => t.bus = .done ∧ isSet SYS_RSTCAUSE_swworld t = true ∧
      (serving s = true → (getF PWR_DEGRADE_cause t).testBit 8 = true) :=
  completes_of_eq (exec_secureWorldResetCmd ha hsec) ⟨bus_worldReset (s := busDone s) _ _ _ hhold,
    isSet_worldReset_cause (s := busDone s) 2 hhold (by decide) (by decide) (by decide),
    fun hserv => (worldReset_secure (s := busDone s) 2 hhold hserv (by decide) (by decide)).2⟩

/-- R85, R89: the system software reset is taken from the secure world. -/
theorem completes_systemSoftwareReset (hsec : rqSecure rq = true) (hhold : s.power.hold = false) (hpor : s.power.por = false) :
    Completes (.systemSoftwareReset rq 0x52A7) s fun t => t.power.hold = true ∧ mode t = mBare ∧ isSet SYS_RSTCAUSE_swsys t = true ∧
      t.bus = .done ∧ t.mem = [] := by
  obtain ⟨hold, hmode, hmem, -, hbus, -⟩ :=
    resetBegun_fullReset (cause := SYS_RSTCAUSE_swsys) (s := busDone s) hpor hhold (by decide)
  exact completes_of_eq (exec_systemSoftwareReset ha hsec)
    ⟨hold, hmode, isSet_fullReset_cause (s := busDone s) hpor hhold rfl, hbus, hmem⟩

end

/-- R89: a word of SYS_RSTCTL without the key. -/
theorem exec_registerWrite_rstctl {rq : Requester} {w : Word} {s : State} (ha : admits rq true 0x40000010 w s = true)
    (hkey : wbits w 16 16 ≠ 0x52A7) : exec (.registerWrite rq 0x40000010 w 4) s = .next (busError s) := by
  have hwrite : writeReg rq 0x40000010 w s = rstctlWrite rq (wbits w 0 2) (wbits w 16 16) s := rfl
  rw [exec_registerWrite_of_admits ha, hwrite, rstctlWrite_of_badKey hkey]

/-- Settles O14: an admitted write without the key is the bus error alone; from the normal world a reset that needs the secure world leaves what
a refusal leaves (`ResetRefused`); the others are taken. -/
theorem resetControlNeedsKeyAndWorld : Obligations.ResetControlNeedsKeyAndWorld := by
  unfold Obligations.ResetControlNeedsKeyAndWorld
  exact ⟨fun rq key s ha hkey => (exec_rstctl_of_badKey ha hkey).1,
    fun rq key s ha hkey => (exec_rstctl_of_badKey ha hkey).2.1,
    fun rq key s ha hkey => (exec_rstctl_of_badKey ha hkey).2.2,
    fun rq w s ha hkey => exec_registerWrite_rstctl ha hkey,
    fun rq key s h => completes_of_eq rfl (resetRefused_of_normal h (.inl rfl)).frame,
    fun rq key s h => completes_of_eq rfl (resetRefused_of_normal h (.inr rfl)).frame,
    fun rq s ha hhold _ => (completes_normalWorldResetCmd ha hhold).mono fun t ⟨hbus, hcause, _⟩ => ⟨hbus, hcause⟩,
    fun rq s ha hsec hhold _ => (completes_secureWorldResetCmd ha hsec hhold).mono fun t ⟨hbus, hcause, _⟩ => ⟨hbus, hcause⟩,
    fun rq s ha hsec hhold hpor => (completes_systemSoftwareReset ha hsec hhold hpor).mono
      fun t ⟨hold, _, hcause, hbus, _⟩ => ⟨hbus, hold, hcause⟩⟩

end Sys2Proof.Machine

namespace Sys2Proof.Machine

/-! ## Resets that begin and end -/

theorem pllTry_frame (s : State) : (pllTry s).regs = s.regs ∧ (pllTry s).mem = s.mem ∧ (pllTry s).power.hold = s.power.hold ∧
    (pllTry s).power.por = s.power.por := by
  unfold pllTry
  split <;> exact ⟨rfl, rfl, rfl, rfl⟩

/-- R85: RESET_N falls. -/
theorem completes_resetNAssert {s : State} (hpor : s.power.por = false) (hhold : s.power.hold = false) : Completes (.resetNAssert) s fun t =>
    t.power.hold = true ∧ mode t = mBare ∧ isSet SYS_RSTCAUSE_resetn t = true ∧ t.power.resetLow = true ∧ t.mem = [] ∧
      t.pending = s.pending := by
  obtain ⟨hold, hmode, hmem, hpending, -, hlow⟩ := resetBegun_fullReset (cause := SYS_RSTCAUSE_resetn)
    (s := { s with power := { s.power with resetLow := true } }) hpor hhold (by decide)
  exact completes_of_eq rfl ⟨hold, hmode,
    isSet_fullReset_cause (s := { s with power := { s.power with resetLow := true } }) hpor hhold rfl, hlow, hmem, hpending⟩

/-- R85: the hold ends. -/
theorem completes_fullResetEnd {s : State} (hhold : s.power.hold = true) (hlow : s.power.resetLow = false) :
    Completes (.fullResetEnd) s fun t => t.power.hold = false ∧ t.regs = s.regs ∧ t.mem = s.mem := by
  refine completes_of_eq rfl ?_
  rw [onlyIf_true (by simp [hhold, hlow])]
  obtain ⟨hregs, hmem, hold, -⟩ := pllTry_frame { s with power := { s.power with hold := false } }
  exact ⟨hold, hregs, hmem⟩

/-! ## The watchdogs (R87, R88, R107) -/

theorem exec_normalWatchdogKick {rq : Requester} {s : State} (ha : admits rq true 0x40000024 0 s = true) (hen : isSet SYS_WDN_CTL_en s = true) :
    exec (.normalWatchdogKick rq 0xA55A) s =
      .next (setF SYS_WDN_STAT_left (getF SYS_WDN_CTL_period s) (setB SYS_WDN_STAT_first false (busDone s))) := by
  refine congrArg _ ((gate_of_admits ha _).trans ?_)
  simp (disch := decide) only [cmdNormalWatchdogKick, wdnKick, hen, decide_true, Bool.and_true, if_true, wdnRestart, setB_eq, getF_setF_ne,
    busDone_eq, getF_withBus]

theorem exec_normalWatchdogEnable {rq : Requester} {w : Word} {s : State} (ha : admits rq true 0x40000020 0 s = true)
    (hperiod : wbits w 16 16 ≠ 0) (hgo : w.getLsbD 0 = true) (hen : isSet SYS_WDN_CTL_en s = false) :
    exec (.normalWatchdogEnable rq w) s =
      .next (wdnRestart (setB SYS_WDN_CTL_en true (setF SYS_WDN_CTL_period (wbits w 16 16) (busDone s)))) := by
  refine congrArg _ ((gate_of_admits ha _).trans ?_)
  simp only [cmdNormalWatchdogEnable, wdnWrite, hperiod, if_false, hgo, hen, Bool.not_false, Bool.and_true, if_true]

/-- R87: the normal watchdog is enabled. -/
theorem completes_normalWatchdogEnable {rq : Requester} {w : Word} {s : State} (ha : admits rq true 0x40000020 0 s = true)
    (hperiod : wbits w 16 16 ≠ 0) (hgo : w.getLsbD 0 = true) (hen : isSet SYS_WDN_CTL_en s = false) :
    Completes (.normalWatchdogEnable rq w) s fun t => isSet SYS_WDN_CTL_en t = true ∧ getF SYS_WDN_CTL_period t = wbits w 16 16 ∧
      getF SYS_WDN_STAT_left t = wbits w 16 16 ∧ t.bus = .done ∧ t.mem = s.mem := by
  have hlt : wbits w 16 16 % 2 ^ 16 = wbits w 16 16 := by simp [wbits, bitsOf]
  refine completes_of_eq (exec_normalWatchdogEnable ha hperiod hgo hen) ⟨?_, ?_, ?_, rfl, rfl⟩
  · simp (disch := decide) only [wdnRestart, setB_eq, isSet_setF_ne, isSet_setF_self]
    rfl
  · simp (disch := decide) only [wdnRestart, setB_eq, getF_setF_ne, getF_setF_self]
    exact hlt
  · simp (disch := decide) only [wdnRestart, setB_eq, getF_setF_ne, getF_setF_self]
    exact (congrArg (· % 2 ^ 16) hlt).trans hlt

theorem exec_normalWatchdogExpiry_first {s : State} (hen : isSet SYS_WDN_CTL_en s = true) (htick : s.power.tick = true)
    (hfirst : isSet SYS_WDN_STAT_first s = false) : exec (.normalWatchdogExpiry) s =
      .next (raise 9 (setF SYS_WDN_STAT_left (getF SYS_WDN_CTL_period s) (setB SYS_WDN_STAT_first true s))) := by
  refine congrArg _ ((onlyIf_true (by simp [hen, htick]) _ s).trans ?_)
  simp (disch := decide) only [hfirst, Bool.false_eq_true, if_false, wdnRestart, setB_eq, getF_setF_ne]

theorem exec_secureWatchdogKick {rq : Requester} {s : State} (ha : admits rq true 0x40000034 0 s = true) (hsec : rqSecure rq = true) :
    exec (.secureWatchdogKick rq 0xA55A) s =
      .next { s with bus := .done, power := { s.power with wds := getF SYS_WDS_CTL_period s } } := by
  refine congrArg _ ((gate_of_admits ha _).trans ?_)
  simp only [cmdSecureWatchdogKick, secureOnly, hsec, if_true]
  rfl

theorem exec_secureWatchdogExpiry {s : State} (hserv : serving s = true) (htick : s.power.tick = true) :
    exec (.secureWatchdogExpiry) s = .next (raise 10 (worldReset .secure SYS_RSTCAUSE_wds 1 s)) :=
  congrArg _ (onlyIf_true (by simp [hserv, htick]) _ s)

/-- R88, R107: the secure watchdog ends in a secure world reset. -/
theorem completes_secureWatchdogExpiry {s : State} (hserv : serving s = true) (htick : s.power.tick = true) (hhold : s.power.hold = false) :
    Completes (.secureWatchdogExpiry) s fun t => isSet SYS_RSTCAUSE_wds t = true ∧ (getF PWR_DEGRADE_cause t).testBit 8 = true ∧
      t.power.wds = getF SYS_WDS_CTL_period s := by
  refine completes_of_eq (exec_secureWatchdogExpiry hserv htick) ?_
  have hraise : sysView true (raise 10 (worldReset .secure SYS_RSTCAUSE_wds 1 s)) = sysView true (worldReset .secure SYS_RSTCAUSE_wds 1 s) :=
    raise_sys (by decide) rfl
  obtain ⟨hwds, hcause⟩ := worldReset_secure (cause := SYS_RSTCAUSE_wds) 1 hhold hserv (by decide) (by decide)
  have hset : isSet SYS_RSTCAUSE_wds (worldReset .secure SYS_RSTCAUSE_wds 1 s) = true :=
    isSet_worldReset_cause 1 hhold (by decide) (by decide) (by decide)
  refine ⟨?_, ?_, ?_⟩
  · rw [isSet, getF_of_sysView hraise (by decide)]
    exact hset
  · rw [getF_of_sysView hraise (by decide)]
    exact hcause
  · rw [power_of_sysView hraise]
    exact hwds

theorem exec_pwrReadyWrite {rq : Requester} {w : Word} {s : State} (ha : admits rq true 0x40020014 0 s = true) (hsec : rqSecure rq = true)
    (hnrm : w.getLsbD 0 = false) (hready : w.getLsbD 1 = true) : exec (.pwrReadyWrite rq w) s = .next (clearCause 8 (busDone s)) := by
  refine congrArg _ ((gate_of_admits ha _).trans ?_)
  simp only [cmdPwrReadyWrite, readyWrite, hsec, hnrm, hready, if_true, Bool.false_eq_true, if_false]

/-- R107: the secure world has restarted. -/
theorem completes_pwrReadyWrite {rq : Requester} {w : Word} {s : State} (ha : admits rq true 0x40020014 0 s = true) (hsec : rqSecure rq = true)
    (hnrm : w.getLsbD 0 = false) (hready : w.getLsbD 1 = true) :
    Completes (.pwrReadyWrite rq w) s fun t => (getF PWR_DEGRADE_cause t).testBit 8 = false ∧ t.bus = .done :=
  completes_of_eq (exec_pwrReadyWrite ha hsec hnrm hready) ⟨testBit_clearCause 8 (busDone s), bus_clearCause 8 (busDone s)⟩

/-- Settles O21, command by command. -/
theorem resetAndWatchdogCommandsComplete : Obligations.ResetAndWatchdogCommandsComplete := by
  unfold Obligations.ResetAndWatchdogCommandsComplete
  exact ⟨fun s hpor hhold => completes_resetNAssert hpor hhold,
    fun s => rfl,
    fun s hhold hlow => completes_fullResetEnd hhold hlow,
    fun rq s hpor hhold ha hsec => completes_systemSoftwareReset ha hsec hhold hpor,
    fun rq s ha hhold hserv => (completes_normalWorldResetCmd ha hhold).mono fun t ⟨_, hcause, hrest⟩ => ⟨hcause, hrest hserv⟩,
    fun rq s ha hsec hhold hserv => (completes_secureWorldResetCmd ha hsec hhold).mono fun t ⟨_, hcause, hrest⟩ => ⟨hcause, hrest hserv⟩,
    fun rq s ha hen => exec_normalWatchdogKick ha hen,
    fun rq w s ha hperiod hgo hen => completes_normalWatchdogEnable ha hperiod hgo hen,
    fun s hen htick hfirst => exec_normalWatchdogExpiry_first hen htick hfirst,
    fun rq s ha hsec => exec_secureWatchdogKick ha hsec,
    fun s hserv htick hhold => completes_secureWatchdogExpiry hserv htick hhold,
    fun rq w s ha hsec hnrm hready => completes_pwrReadyWrite ha hsec hnrm hready⟩

end Sys2Proof.Machine

namespace Sys2Proof.Machine

/-! # Supplies and clocks

## Rails (R70 to R72, R106) -/

theorem testBit_orF_self {f : Fld} {b : Nat} (hb : b < f.width) (s : State) : (getF f (orF f (2 ^ b) s)).testBit b = true := by
  rw [orF_eq, getF_setF_self, Nat.testBit_mod_two_pow]
  simp [hb]

theorem testBit_clrF_self (f : Fld) (b : Nat) (s : State) : (getF f (clrF f (2 ^ b) s)).testBit b = false := by
  rw [clrF_eq, getF_setF_self, Nat.testBit_mod_two_pow, testBit_natAndNot_self, Bool.and_false]

theorem railOk_of_sameCore {s t : State} (h : SameCore s t) (r : Rail) : railOk r t = railOk r s := by
  cases r <;> simp only [railOk, railField, isSet, Option.map_some, Option.map_none, h SYS_RAILOK_aux (by decide), h SYS_RAILOK_io1 (by decide),
    h SYS_RAILOK_io2 (by decide), h SYS_RAILOK_io3 (by decide), h SYS_RAILOK_tbank (by decide), h SYS_RAILOK_sds (by decide),
    h SYS_RAILOK_ddq (by decide), h SYS_RAILOK_t1s (by decide), h SYS_RAILOK_adc (by decide)]

theorem railOk_setB_railfail (r : Rail) (s : State) : railOk r (setB SYS_SUPPLY_railfail true s) = railOk r s := by
  cases r <;> simp (disch := decide) only [railOk, railField, setB_eq, Option.map_some, Option.map_none, isSet_setF_ne, getF_setF_ne]

/-- A rail that SYS_RAILOK shows is shown as told (R72). -/
theorem railOk_showRail {r : Rail} (h : railShown r = true) (ok : Bool) (s : State) : railOk r (showRail r ok s) = ok := by
  cases r with
  | tbank b =>
    have hb : b < 6 := by simpa [railShown] using h
    cases ok
    · exact testBit_clrF_self SYS_RAILOK_tbank b s
    · exact testBit_orF_self hb s
  | vcore => simp [railShown] at h
  | io0 => simp [railShown] at h
  | aux | io1 | io2 | io3 | sds | ddq | t1s | adc => cases ok <;> exact isSet_setF_self _ _ s

theorem sameCore_railCause (r : Rail) (s : State) : SameCore s (railCause r s) := by
  unfold railCause
  split
  · exact sameCore_ite (SameCore.refl s) (sameCore_setCause _ _ _)
  · exact sameCore_ite (SameCore.refl s) (sameCore_setCause _ _ _)
  · extract_lets _ t
    have ht : sysView false t = sysView false (pcieDown { s with power := { s.power with sdsStarting := 0 } }) := bootPortsDown_sys rfl
    have hp : sysView false (pcieDown { s with power := { s.power with sdsStarting := 0 } }) =
        sysView false { s with power := { s.power with sdsStarting := 0 } } := pcieDown_sys rfl
    have hs : SameCore s t := ((SameCore.of_regs rfl).trans (SameCore.of_sysView hp)).trans (SameCore.of_sysView ht)
    exact sameCore_ite hs (hs.trans (sameCore_setCause _ _ _))
  · exact sameCore_ite (SameCore.refl s) (sameCore_setCause _ _ _)
  · exact sameCore_ite (sameCore_setCause _ _ _) (SameCore.refl s)
  · have hadc : sysView false (refreshAdc s) = sysView false s := refreshAdc_sys rfl
    exact sameCore_ite (sameCore_setCause _ _ _) (SameCore.of_sysView hadc)
  · exact sameCore_ite (sameCore_setCause _ _ _) (SameCore.refl s)
  · exact SameCore.refl s

theorem sameCore_refreshBase (s : State) : SameCore s (refreshBase s) :=
  sameCore_ite (((SameCore.refl s).setF (by decide)).trans (sameCore_refreshMode _)) (SameCore.refl s)

theorem sameCore_railBack (r : Rail) (s : State) : SameCore s (railBack r s) := by
  unfold railBack
  split
  · exact SameCore.of_regs (pllTry_frame s).1
  · split
    · extract_lets s1
      have hw (l : List Nat) : sysView false (applyAll l tileWaits s) = sysView false s := applyAll_sys (fun _ _ h => tileWaits_sys h) rfl
      have hs1 : SameCore s s1 := (SameCore.of_sysView (hw _)).trans (sameCore_refreshBase _)
      exact sameCore_ite (hs1.trans (sameCore_clearCause _ _)) hs1
    · exact SameCore.refl s
  · exact sameCore_clearCause _ s
  · have hback (t : State) : SameCore t (bootPortsBack t) := SameCore.of_sysView (rate := false) (bootPortsBack_sys rfl)
    exact (sameCore_ite (sameCore_clearCause _ s) (SameCore.refl s)).trans (hback _)
  · exact sameCore_clearCause _ s
  · exact sameCore_clearCause _ s
  · have hadc (t : State) : SameCore t (refreshAdc t) := SameCore.of_sysView (rate := false) (refreshAdc_sys rfl)
    exact (sameCore_clearCause _ s).trans (hadc _)
  · exact SameCore.refl s

/-- R72: a warn crossing of VDD_CORE, VDDIO0 or VDD_AUX. -/
theorem exec_railWarnCrossing {r : Rail} {s : State} (hpor : s.power.por = false) (hr : r = .vcore ∨ r = .io0 ∨ r = .aux) :
    exec (.railWarnCrossing r) s = .next (raise 4 (setB (if r = .vcore then SYS_SUPPLY_wcore else if r = .io0 then SYS_SUPPLY_wio0
      else SYS_SUPPLY_waux) true s)) := by
  refine congrArg _ ((onlyIf_true (by simp [hpor]) _ s).trans ?_)
  rcases hr with rfl | rfl | rfl <;> rfl

/-- A rail is shown as failed, and the fail is recorded (R72). -/
def RailFailed (r : Rail) (s : State) : Prop := railOk r s = false ∧ isSet SYS_SUPPLY_railfail s = true

theorem railFailed_show {r : Rail} (h : railShown r = true) (s : State) : RailFailed r (setB SYS_SUPPLY_railfail true (showRail r false s)) :=
  ⟨(railOk_setB_railfail r _).trans (railOk_showRail h false s), isSet_setF_self _ _ _⟩

theorem RailFailed.of_sameCore {r : Rail} {s t : State} (hs : RailFailed r s) (h : SameCore s t) : RailFailed r t :=
  ⟨(railOk_of_sameCore h r).trans hs.1, by rw [isSet, h _ (by decide)]; exact hs.2⟩

/-- A register of SYS and CKR that a clock fault leaves, whether it begins a full reset or one is in progress (R83, R86). -/
theorem getF_clockFault_kept {f : Fld} {s : State} (hpor : s.power.por = false) (hcore : f.key < 0x40020000 * 32)
    (hkept : fullKept (keyAddr f.key) = true)
    (hfields : ∀ g ∈ CKR_LOCKLOSS_root :: SYS_RSTCAUSE_clkfault :: resetFields, f.key ≠ g.key) : getF f (clockFault s) = getF f s := by
  simp only [List.forall_mem_cons] at hfields
  obtain ⟨hloss, hcause, hreset⟩ := hfields
  have hevt : f.key ≠ CKR_EVT_clkfault.key := hreset _ (by decide)
  unfold clockFault
  generalize hu : setB CKR_EVT_clkfault true (incF CKR_LOCKLOSS_root 1 s) = u
  have hcount : getF f u = getF f s := by rw [← hu, setB_eq, incF_eq, getF_setF_ne _ _ hevt, getF_setF_ne _ _ hloss]
  have hupor : u.power.por = false := by rw [← hu]; exact hpor
  rw [← hcount]
  cases hhold : u.power.hold with
  | true =>
    have habsorbed : fullReset SYS_RSTCAUSE_clkfault u = rstCause SYS_RSTCAUSE_clkfault u := by
      simp only [fullReset, hupor, hhold, Bool.false_eq_true, if_false, if_true]
    rw [habsorbed]
    exact getF_setF_ne _ _ hcause
  | false => exact getF_fullReset_kept hupor hhold hcore hkept hreset hcause

theorem showRail_power (r : Rail) (ok : Bool) (s : State) : (showRail r ok s).power = s.power := by
  unfold showRail
  split
  · split <;> rfl
  · split <;> rfl

theorem RailFailed.clockFault {s : State} (hs : RailFailed .aux s) (hpor : s.power.por = false) : RailFailed .aux (clockFault s) := by
  have hrail : getF SYS_RAILOK_aux (Machine.clockFault s) = getF SYS_RAILOK_aux s := getF_clockFault_kept hpor (by decide) (by decide)
    (by decide)
  have hfail : getF SYS_SUPPLY_railfail (Machine.clockFault s) = getF SYS_SUPPLY_railfail s :=
    getF_clockFault_kept hpor (by decide) (by decide) (by decide)
  refine ⟨?_, ?_⟩
  · rw [← hs.1]
    simp only [railOk, railField, Option.map_some, isSet, hrail]
  · rw [← hs.2]
    simp only [isSet, hfail]

/-- R72, R83, R106: a rail fails. -/
theorem completes_railFailCrossing {r : Rail} {s : State} (hpor : s.power.por = false) (hshown : railShown r = true) (hok : railOk r s = true) :
    Completes (.railFailCrossing r) s fun t => railOk r t = false ∧ isSet SYS_SUPPLY_railfail t = true := by
  refine completes_of_eq rfl ?_
  rw [if_neg (by simp [hpor]), if_neg (by simp [hpor]), onlyIf_true (by simp [hshown, hok])]
  change RailFailed r _
  extract_lets _ s0 s1
  have hpor0 : s0.power.por = false := by
    simp only [s0]
    split <;> exact hpor
  have hraise : sysView true s1 = sysView true (setB SYS_SUPPLY_railfail true (showRail r false s0)) := raise_sys (by decide) rfl
  have h1 : RailFailed r s1 := (railFailed_show hshown s0).of_sameCore (SameCore.of_sysView hraise)
  have hpor1 : s1.power.por = false := by
    have hpower := power_of_sysView hraise
    rw [hpower, setB_eq, setF_power, showRail_power, hpor0]
  rw [if_neg (by rw [hpor]; decide)]
  split
  · next haux =>
    obtain rfl : r = .aux := by simpa using haux
    split
    · exact h1.clockFault hpor1
    · exact h1.of_sameCore (SameCore.of_regs rfl)
  · exact h1.of_sameCore (sameCore_railCause r _)

/-- R72: a rail is valid again. -/
theorem completes_railValid {r : Rail} {classMv : Option Nat} {s : State} (hshown : railShown r = true) (hok : railOk r s = false) :
    Completes (.railValid r classMv) s fun t => railOk r t = true := by
  have hio0 : ¬ (r == .io0) = true := fun h => by
    obtain rfl : r = .io0 := by simpa using h
    simp [railShown] at hshown
  refine completes_of_eq rfl ?_
  rw [if_neg hio0, onlyIf_true (by simp [hshown, hok])]
  exact (railOk_of_sameCore (sameCore_railBack r _) r).trans (railOk_showRail hshown true _)

/-! ## Power-on reset and the supplies (R71, R73, R99, R111) -/

theorem setMode_power (m : Nat) (s : State) : (setMode m s).power = s.power := by rw [(setMode_frame m s).1]

theorem mode_setMode {m : Nat} (hm : m < 16) (s : State) : mode (setMode m s) = m := by
  have hset : mode (setF PWR_MODE_mode m (setF PWR_MODE_prev (mode s) s)) = m := (getF_setF_self _ _ _).trans (Nat.mod_eq_of_lt hm)
  unfold setMode
  dsimp only
  split
  · assumption
  · split
    · have hraise : sysView true (raise 3 (setF PWR_MODE_mode m (setF PWR_MODE_prev (mode s) s))) =
        sysView true (setF PWR_MODE_mode m (setF PWR_MODE_prev (mode s) s)) := raise_sys (by decide) rfl
      exact (getF_of_sysView hraise (by decide)).trans hset
    · exact hset

/-- The part is out of power-on reset in BARE, its straps as sampled (R73). -/
def StrapsSampled (role boot : Nat) (wpol : Bool) (s : State) : Prop :=
  s.power.por = false ∧ mode s = mBare ∧ getF SYS_STRAP_role s = role ∧ getF SYS_STRAP_bootsrc s = boot ∧ isSet SYS_STRAP_wpol s = wpol

section
variable {role boot : Nat} {wpol : Bool} {s t : State}

theorem StrapsSampled.of_sysView (h : StrapsSampled role boot wpol s) (he : sysView false t = sysView false s) :
    StrapsSampled role boot wpol t := by
  obtain ⟨hpor, hmode, hrole, hboot, hpol⟩ := h
  refine ⟨by rw [power_of_sysView he]; exact hpor, (getF_of_sysView he (by decide)).trans hmode, (getF_of_sysView he (by decide)).trans hrole,
    (getF_of_sysView he (by decide)).trans hboot, ?_⟩
  rw [← hpol]
  simp only [isSet, getF_of_sysView he (f := SYS_STRAP_wpol) (by decide)]

theorem StrapsSampled.setB {f : Fld} {b : Bool} (h : StrapsSampled role boot wpol s)
    (hf : ∀ g ∈ [PWR_MODE_mode, SYS_STRAP_role, SYS_STRAP_bootsrc, SYS_STRAP_wpol], g.key ≠ f.key) :
    StrapsSampled role boot wpol (Machine.setB f b s) := by
  obtain ⟨hpor, hmode, hrole, hboot, hpol⟩ := h
  simp only [List.forall_mem_cons] at hf
  obtain ⟨hf1, hf2, hf3, hf4, -⟩ := hf
  exact ⟨hpor, (getF_setF_ne _ _ hf1).trans hmode, (getF_setF_ne _ _ hf2).trans hrole, (getF_setF_ne _ _ hf3).trans hboot,
    (isSet_setF_ne _ _ hf4).trans hpol⟩

theorem StrapsSampled.pllTry (h : StrapsSampled role boot wpol s) : StrapsSampled role boot wpol (pllTry s) := by
  obtain ⟨hregs, -, -, hpor⟩ := pllTry_frame s
  simp only [StrapsSampled, mode, isSet, getF, hregs, hpor]
  exact h

theorem strapsSampled_set (hpor : s.power.por = false) (hmode : mode s = mBare) (hrole : role < 4) (hboot : boot < 4) :
    StrapsSampled role boot wpol (setF SYS_STRAP_role role (setF SYS_STRAP_bootsrc boot (Machine.setB SYS_STRAP_wpol wpol s))) := by
  refine ⟨hpor, ?_, ?_, ?_, ?_⟩
  · simp (disch := decide) only [mode, setB_eq, getF_setF_ne]
    exact hmode
  · exact (getF_setF_self _ _ _).trans (Nat.mod_eq_of_lt hrole)
  · simp (disch := decide) only [getF_setF_ne]
    exact (getF_setF_self _ _ _).trans (Nat.mod_eq_of_lt hboot)
  · simp (disch := decide) only [setB_eq, isSet_setF_ne]
    cases wpol <;> exact isSet_setF_self _ _ _

/-- R73, R99: power-on reset is released. -/
theorem completes_powerOnResetRelease (hpor : s.power.por = true) (hsup : s.power.supplies = true) (hrole : role < 4) (hboot : boot < 4) :
    Completes (.powerOnResetRelease role boot wpol) s (StrapsSampled role boot wpol) := by
  refine completes_of_eq rfl ?_
  rw [onlyIf_true (by simp [hpor, hsup, hrole, hboot])]
  extract_lets back _ s1 s2 s3 s4 s5 s6
  have h1 : s1.power.por = false := congrArg PowerState.por (setMode_power mBare _)
  have hmode1 : mode s1 = mBare := mode_setMode (by decide) _
  have h2 : StrapsSampled role boot wpol s2 :=
    strapsSampled_set h1 ((getF_setF_ne _ _ (by decide)).trans hmode1) hrole hboot
  have h3 : StrapsSampled role boot wpol s3 := h2.setB (by decide)
  have h4 : StrapsSampled role boot wpol s4 := by
    simp only [s4]
    split
    · exact h3.setB (by decide)
    · exact h3
  clear_value s4
  have hwake : sysView false (wakeCause (aonLog 6 0 false s4)) = sysView false s4 := wakeCause_sys (aonLog_sys rfl)
  have h5 : StrapsSampled role boot wpol s5 := by
    simp only [s5]
    split
    · exact h4.of_sysView hwake
    · exact h4
  clear_value s5
  have hload : sysView false s6 = sysView false s5 := ledgerLoad_sys rfl
  have h6 : StrapsSampled role boot wpol s6 := h5.of_sysView hload
  clear_value s6
  have hlink : sysView false (linkStart s6) = sysView false s6 := linkStart_sys rfl
  refine StrapsSampled.pllTry ?_
  split
  · exact h6.of_sysView hlink
  · exact h6

end

/-- R71, R111: power-on reset is asserted. -/
theorem completes_powerOnResetAssert {rail : Rail} {vbatOk : Bool} {s : State} (hpor : s.power.por = false)
    (hrail : rail = .vcore ∨ rail = .io0) :
    Completes (.powerOnResetAssert rail vbatOk) s fun t => t.power.por = true ∧
      mode t = (if rail = .io0 ∧ vbatOk = false then mOff else mBackup) ∧ getF PWR_MODE_prev t = mode s ∧ t.pending = s.pending := by
  refine completes_of_eq rfl ?_
  rw [onlyIf_true (by rcases hrail with rfl | rfl <;> simp [hpor])]
  extract_lets old onVbat keep _ s0 s1 _
  have hprev1 : getF PWR_MODE_prev s1 = mode s := (getF_setF_self _ _ _).trans (Nat.mod_eq_of_lt (getF_lt PWR_MODE_mode s))
  have hpor1 : s1.power.por = true := rfl
  have hpending1 : s1.pending = s.pending := rfl
  clear_value s1
  have hkeep : keep = !decide (rail = .io0 ∧ vbatOk = false) := by
    rcases hrail with rfl | rfl <;> cases vbatOk <;> rfl
  split
  · next hk =>
    have hbackup : ¬ (rail = .io0 ∧ vbatOk = false) := fun h => by simp [hkeep, h] at hk
    have hlog : sysView false (aonLog 5 0 false (setF PWR_MODE_mode mBackup s1)) = sysView false (setF PWR_MODE_mode mBackup s1) := aonLog_sys
      rfl
    rw [if_neg hbackup, power_of_sysView hlog, mode, getF_of_sysView hlog (by decide), getF_of_sysView hlog (by decide)]
    exact ⟨hpor1, getF_setF_self _ _ _, (getF_setF_ne _ _ (by decide)).trans hprev1, (aonLog_keeps _ _ _ _).1.trans hpending1⟩
  · next hk =>
    have hoff : rail = .io0 ∧ vbatOk = false := by simpa [hkeep] using hk
    rw [if_pos hoff]
    exact ⟨hpor1, getF_setF_self _ _ _, (getF_setF_ne _ _ (by decide)).trans hprev1, hpending1⟩

theorem domainOnIo0_frame (s : State) : (domainOnIo0 s).power = s.power ∧ (domainOnIo0 s).aon.onVbat = false ∧
    (mode s = mOff → mode (domainOnIo0 s) = mBackup) := by
  unfold domainOnIo0
  dsimp only
  split
  · refine ⟨?_, ?_, fun _ => mode_setMode (by decide) _⟩ <;> rw [(setMode_frame _ _).1]
  · next h => exact ⟨rfl, rfl, fun hoff => absurd hoff h⟩

/-- R73, R111: the supplies are valid. -/
theorem completes_suppliesValid {s : State} (hpor : s.power.por = true) : Completes (.suppliesValid) s fun t =>
    t.power.supplies = true ∧ t.aon.onVbat = false ∧ (mode s = mOff → mode t = mBackup) := by
  refine completes_of_eq rfl ?_
  rw [onlyIf_true hpor]
  obtain ⟨hpower, hvbat, hmode⟩ := domainOnIo0_frame { s with power := { s.power with supplies := true } }
  exact ⟨by rw [hpower], hvbat, hmode⟩

/-! ## PFAIL_N (R74) -/

/-- PFAIL_N is seen low (R74). -/
def PfailSeen (s : State) : Prop := s.power.pfailLow = true ∧ isSet SYS_SUPPLY_pfail s = true ∧ isSet SYS_SUPPLY_pfnow s = false

theorem PfailSeen.of_sameCore {s t : State} (h : PfailSeen s) (hlow : t.power.pfailLow = s.power.pfailLow) (hcore : SameCore s t) : PfailSeen
    t := by
  simp only [PfailSeen, isSet, hlow, hcore SYS_SUPPLY_pfail (by decide), hcore SYS_SUPPLY_pfnow (by decide)]
  exact h

theorem shed_frame (s : State) : SameCore s (shed s) ∧ (shed s).power.pfailLow = s.power.pfailLow := by
  unfold shed
  extract_lets acc t1s s1 ps _
  have h1 : sysView false s1 = sysView false s := groupsOff_sys (coastAll_sys rfl)
  clear_value s1 ps
  have h2 : sysView false (applyAll ps portStop { s1 with power := { s1.power with shedPorts := acc ||| t1s } }) =
    sysView false { s1 with power := { s1.power with shedPorts := acc ||| t1s } } := applyAll_sys (fun _ _ h => portStop_sys h) rfl
  have hlow1 := congrArg PowerState.pfailLow (power_of_sysView h1)
  have hpower2 := power_of_sysView h2
  have hports : SameCore s1 { s1 with power := { s1.power with shedPorts := acc ||| t1s } } := SameCore.of_regs rfl
  refine ⟨(((SameCore.of_sysView h1).trans hports).trans (SameCore.of_sysView h2)).setF (by decide), ?_⟩
  rw [setB_eq, setF_power, hpower2]
  exact hlow1

/-- R74: PFAIL_N falls. -/
theorem completes_pfailFall {s : State} (hlow : s.power.pfailLow = false) (hpor : s.power.por = false) : Completes (.pfailFall) s PfailSeen := by
  refine completes_of_eq rfl ?_
  rw [onlyIf_true (by simp [hlow])]
  extract_lets _ s1 s2
  have hpor1 : s1.power.por = false := hpor
  rw [if_neg (by rw [hpor1]; decide)]
  have h2 : sysView false s2 = sysView false (setB SYS_SUPPLY_pfail true (setB SYS_SUPPLY_pfnow false s1)) :=
    ledgerSave_sys (raise_sys (by decide) rfl)
  have hseen : PfailSeen (setB SYS_SUPPLY_pfail true (setB SYS_SUPPLY_pfnow false s1)) :=
    ⟨rfl, isSet_setF_self _ _ _, (isSet_setF_ne _ _ (by decide)).trans (isSet_setF_self _ _ _)⟩
  have hs2 : PfailSeen s2 := hseen.of_sameCore (congrArg PowerState.pfailLow (power_of_sysView h2)) (SameCore.of_sysView h2)
  clear_value s2
  split
  · obtain ⟨hcore, hpower⟩ := shed_frame s2
    exact hs2.of_sameCore hpower hcore
  · exact hs2

theorem exec_pfailRise {s : State} (hpor : s.power.por = false) :
    exec (.pfailRise) s = .next (setB SYS_SUPPLY_pfnow true { s with power := { s.power with pfailLow := false } }) :=
  congrArg _ (if_neg (by simp [hpor]))

theorem exec_pfailRestoreExpiry {s : State} (hlow : s.power.pfailLow = false) (hshed : isSet PWR_STATUS_shed s = true) :
    exec (.pfailRestoreExpiry) s = .next (setB PWR_STATUS_shed false { s with power := { s.power with shedPorts := 0 } }) :=
  congrArg _ (onlyIf_true (by simp [hlow, hshed]) _ s)

/-! ## The oscillator and the PLLs (R77 to R79, R83, R41) -/

/-- R77: XIN swings. -/
theorem completes_xinAmplitudeGood {s : State} (hsup : s.power.supplies = true) :
    Completes (.xinAmplitudeGood) s fun t => isSet CKR_STATUS_xamp t = true ∧ t.mem = s.mem := by
  refine completes_of_eq rfl ?_
  rw [onlyIf_true hsup]
  obtain ⟨hregs, hmem, -⟩ := pllTry_frame (setB CKR_STATUS_xamp true s)
  refine ⟨?_, hmem⟩
  rw [isSet, getF, hregs]
  exact isSet_setF_self CKR_STATUS_xamp 1 s

theorem linkOf_setRxState_otherSide (p : LinkSide) (r : RxState) (s : State) : linkOf p (setRxState (otherSide p) r s) = linkOf p s := by
  simp only [setRxState, linkOf_ite, setB_eq, linkOf_setF, linkOf_setLink_otherSide, ite_self]

/-- What the start of the link does to one of its ports (R41). -/
def linkPortStart (p : LinkSide) (s : State) : State :=
  setLink p { linkOf p (setRxState p .hunt s) with tx := .free, cands := [] } (setRxState p .hunt s)

theorem linkStart_eq (s : State) : linkStart s = linkPortStart .b (linkPortStart .a s) := rfl

theorem linkOf_linkPortStart (p : LinkSide) (s : State) :
    (linkOf p (linkPortStart p s)).rx = .hunt ∧ (linkOf p (linkPortStart p s)).tx = .free := by
  rw [linkPortStart, linkOf_setLink_self, linkOf_setRxState]
  exact ⟨rfl, rfl⟩

theorem linkOf_linkPortStart_otherSide (p : LinkSide) (s : State) : linkOf p (linkPortStart (otherSide p) s) = linkOf p s := by
  rw [linkPortStart, linkOf_setLink_otherSide, linkOf_setRxState_otherSide]

/-- R41: the ports hunt, and send freely. -/
theorem linkStart_ports (s : State) : (linkStart s).linkA.rx = .hunt ∧ (linkStart s).linkB.rx = .hunt ∧ (linkStart s).linkA.tx = .free ∧
    (linkStart s).linkB.tx = .free := by
  obtain ⟨hrx, htx⟩ := linkOf_linkPortStart .a s
  obtain ⟨hrxb, htxb⟩ := linkOf_linkPortStart .b (linkPortStart .a s)
  rw [linkStart_eq]
  have hother : linkOf .a (linkPortStart .b (linkPortStart .a s)) = linkOf .a (linkPortStart .a s) := linkOf_linkPortStart_otherSide .a _
  rw [← hother] at hrx htx
  exact ⟨hrx, hrxb, htx, htxb⟩

/-- R77, R41: XIN is stable. -/
theorem completes_xinStable {s : State} (hamp : isSet CKR_STATUS_xamp s = true) (hstable : isSet CKR_STATUS_xstable s = false) :
    Completes (.xinStable) s fun t => isSet CKR_STATUS_xstable t = true ∧ (s.power.por = false →
      t.linkA.rx = .hunt ∧ t.linkB.rx = .hunt ∧ t.linkA.tx = .free ∧ t.linkB.tx = .free) := by
  refine completes_of_eq rfl ?_
  rw [onlyIf_true (by simp [hamp, hstable])]
  extract_lets s1
  have hset : isSet CKR_STATUS_xstable s1 = true := isSet_setF_self _ _ _
  have hpor1 : s1.power.por = s.power.por := rfl
  clear_value s1
  split
  · next hp => exact ⟨hset, fun h => by simp [hpor1, h] at hp⟩
  · have hv : sysView false (linkStart s1) = sysView false s1 := linkStart_sys rfl
    refine ⟨?_, fun _ => linkStart_ports s1⟩
    rw [isSet, getF_of_sysView hv (by decide)]
    exact hset

/-- R78, R79: the root PLL locks. -/
theorem completes_rootPllLock {us : Nat} {s : State} (h : s.power.pllStarting = true) : Completes (.rootPllLock us) s fun t =>
    isSet CKR_STATUS_rootlock t = true ∧ getF CKR_RUN_clk t = 0xFF ∧ getF SYS_T_PLL_us t = us % 2 ^ 32 ∧ t.power.cores = .bootRom ∧
      t.power.tick = true ∧ t.ticks = 0 := by
  refine completes_of_eq rfl ?_
  rw [onlyIf_true h]
  refine ⟨?_, ?_, getF_setF_self _ _ _, rfl, rfl, rfl⟩
  · simp (disch := decide) only [setB_eq, isSet_setF_ne]
    exact isSet_setF_self _ _ _
  · simp (disch := decide) only [getF_setF_ne]
    exact getF_setF_self _ _ _

/-- R83: a clock fault begins a full reset. -/
theorem completes_clockFault {s : State} (hpor : s.power.por = false) (hhold : s.power.hold = false)
    (hlock : isSet CKR_STATUS_rootlock s = true) :
    Completes (.clockFault) s fun t => mode t = mBare ∧ isSet CKR_EVT_clkfault t = true ∧ isSet SYS_RSTCAUSE_clkfault t = true ∧
      t.power.hold = true := by
  refine completes_of_eq rfl ?_
  rw [onlyIf_true hlock, clockFault]
  generalize hu : setB CKR_EVT_clkfault true (incF CKR_LOCKLOSS_root 1 s) = u
  have hupor : u.power.por = false := by rw [← hu]; exact hpor
  have huhold : u.power.hold = false := by rw [← hu]; exact hhold
  have hevt : isSet CKR_EVT_clkfault u = true := by rw [← hu]; exact isSet_setF_self _ _ _
  obtain ⟨hold, hmode, -⟩ := resetBegun_fullReset (cause := SYS_RSTCAUSE_clkfault) hupor huhold (by decide)
  exact ⟨hmode, (isSet_clkfault_fullReset hupor huhold (by decide)).trans hevt, isSet_fullReset_cause hupor huhold rfl, hold⟩

/-! ## The side PLLs and the PCIe reference (R83, R106) -/

theorem isSet_of_sameCore {f : Fld} {s t : State} (h : SameCore s t) (hf : f.key < 0x40020000 * 32) : isSet f t = isSet f s := by
  rw [isSet, h f hf, isSet]

/-- The PCIe reference is lost. -/
theorem completes_pcieRefLoss {s : State} (h : isSet CKR_STATUS_pcieref s = true) :
    Completes (.pllLockLossOther .pcieRef) s fun t => isSet CKR_STATUS_pcieref t = false ∧ isSet CKR_EVT_pcieloss t = true := by
  refine completes_of_eq (congrArg Host.Outcome.next (onlyIf_true h _ s)) ?_
  extract_lets s1
  have h1 : sysView false s1 = sysView false (setB CKR_EVT_pcieloss true (setB CKR_STATUS_pcieref false s)) :=
    pcieDown_sys (raise_sys (by decide) rfl)
  have hcore := sameCore_ite (c := isSet BRG_CFG_pcie s1 = true) ((SameCore.of_sysView h1).trans (sameCore_setCause 7 [] s1))
    (SameCore.of_sysView h1)
  refine ⟨(isSet_of_sameCore hcore (by decide)).trans ?_, (isSet_of_sameCore hcore (by decide)).trans (isSet_setF_self _ _ _)⟩
  exact (isSet_setF_ne _ _ (by decide)).trans (isSet_setF_self _ _ _)

/-- The LPDDR4 PLL loses its lock. -/
theorem completes_ddrLoss {s : State} (h : isSet CKR_STATUS_ddrlock s = true) :
    Completes (.pllLockLossOther .ddr) s fun t => isSet CKR_STATUS_ddrlock t = false ∧ isSet CKR_EVT_ddrloss t = true ∧
      getF CKR_LOCKLOSS_other t = min (getF CKR_LOCKLOSS_other s + 1) 65535 := by
  refine completes_of_eq (congrArg Host.Outcome.next (onlyIf_true h _ s)) ?_
  extract_lets s1
  have h1 : sysView false s1 = sysView false (setB CKR_EVT_ddrloss true (incF CKR_LOCKLOSS_other 1 (setB CKR_STATUS_ddrlock false s))) :=
    raise_sys (by decide) rfl
  have hcore := sameCore_ite (c := s1.power.ddrFitted = true) ((SameCore.of_sysView h1).trans (sameCore_setCause 6 [] s1))
    (SameCore.of_sysView h1)
  refine ⟨(isSet_of_sameCore hcore (by decide)).trans ?_, (isSet_of_sameCore hcore (by decide)).trans (isSet_setF_self _ _ _),
    (hcore _ (by decide)).trans ?_⟩
  · simp (disch := decide) only [setB_eq, incF_eq, isSet_setF_ne]
    exact isSet_setF_self _ _ _
  · simp (disch := decide) only [setB_eq, incF_eq, getF_setF_ne, getF_setF_self]
    exact Nat.mod_eq_of_lt (lt_of_le_of_lt (Nat.min_le_right _ _) (by decide))

theorem sameCore_sdsCause (g : Nat) (s : State) : SameCore s
    (if (sdsPorts s).filter (fun q => q / 4 = g) = [] then s else setCause 2 ((sdsPorts s).filter fun q => q / 4 = g) s) :=
  sameCore_ite (SameCore.refl s) (sameCore_setCause _ _ _)

/-- A SERDES PLL loses its lock. -/
theorem completes_sdsLoss {g : Nat} {s : State} (hg : g < 4) (h : (getF CKR_STATUS_sdslock s).testBit g = true) :
    Completes (.pllLockLossOther (.sds g)) s fun t => (getF CKR_STATUS_sdslock t).testBit g = false ∧
      (getF CKR_EVT_sdsloss t).testBit g = true := by
  refine completes_of_eq (congrArg Host.Outcome.next (onlyIf_true (by simp [hg, h]) _ s)) ?_
  extract_lets s1 s2 ps
  have h1 : sysView false s1 =
    sysView false (orF CKR_EVT_sdsloss (2 ^ g) (incF CKR_LOCKLOSS_other 1 (clrF CKR_STATUS_sdslock (2 ^ g) s))) := raise_sys (by decide) rfl
  have hdown : sysView false (bootPortsDown s1) = sysView false s1 := bootPortsDown_sys rfl
  have h2 : SameCore s1 s2 := sameCore_ite (SameCore.of_sysView hdown) (SameCore.refl s1)
  have hcore := ((SameCore.of_sysView h1).trans h2).trans (sameCore_sdsCause g s2)
  refine ⟨?_, ?_⟩
  · refine (congrArg (Nat.testBit · g) (hcore CKR_STATUS_sdslock (by decide))).trans ?_
    rw [orF_eq, getF_setF_ne _ _ (by decide), incF_eq, getF_setF_ne _ _ (by decide)]
    exact testBit_clrF_self _ _ _
  · exact (congrArg (Nat.testBit · g) (hcore CKR_EVT_sdsloss (by decide))).trans (testBit_orF_self hg _)

/-- A SERDES PLL locks again. -/
theorem completes_serdesPllRelock {g : Nat} {s : State} (hg : g < 4) (hrail : isSet SYS_RAILOK_sds s = true)
    (hrun : s.power.sdsStopped.testBit g = false) :
    Completes (.serdesPllRelock g) s fun t => (getF CKR_STATUS_sdslock t).testBit g = true := by
  refine completes_of_eq rfl ?_
  rw [onlyIf_true (by simp [hg, hrail, hrun])]
  extract_lets s0 s1
  have hback : sysView false (bootPortsBack s0) = sysView false s0 := bootPortsBack_sys rfl
  have h1 : SameCore s0 s1 := sameCore_ite (SameCore.of_sysView hback) (SameCore.refl s0)
  have hcore := sameCore_ite (c := sdsWhole s1 = true) (h1.trans (sameCore_clearCause 2 s1)) h1
  exact (congrArg (Nat.testBit · g) (hcore CKR_STATUS_sdslock (by decide))).trans (testBit_orF_self hg s)

/-- The PCIe reference is stable. -/
theorem completes_pcieRefStable (s : State) :
    Completes (.pcieRefStable) s fun t => isSet CKR_STATUS_pcieref t = true ∧ (getF PWR_DEGRADE_cause t).testBit 7 = false :=
  completes_of_eq rfl ⟨(isSet_of_sameCore (sameCore_clearCause 7 _) (by decide)).trans (isSet_setF_self _ _ _), testBit_clearCause 7 _⟩

/-- Settles O20, command by command. -/
theorem supplyAndClockCommandsComplete : Obligations.SupplyAndClockCommandsComplete := by
  unfold Obligations.SupplyAndClockCommandsComplete
  exact ⟨fun role boot wpol s hpor hsup hrole hboot => completes_powerOnResetRelease hpor hsup hrole hboot,
    fun rail vbatOk s hpor hrail => completes_powerOnResetAssert hpor hrail,
    fun s hpor => completes_suppliesValid hpor,
    fun r s hpor hr => exec_railWarnCrossing hpor hr,
    fun r s hpor hshown hok => completes_railFailCrossing hpor hshown hok,
    fun r classMv s hshown hok => completes_railValid hshown hok,
    fun s hlow hpor => completes_pfailFall hlow hpor,
    fun s hpor => exec_pfailRise hpor,
    fun s hlow hshed => exec_pfailRestoreExpiry hlow hshed,
    fun s hsup => completes_xinAmplitudeGood hsup,
    fun s hamp hstable => completes_xinStable hamp hstable,
    fun us s h => completes_rootPllLock h,
    fun s => rfl,
    fun s hpor hhold hlock => completes_clockFault hpor hhold hlock,
    fun s h => completes_pcieRefLoss h,
    fun s h => completes_ddrLoss h,
    fun g s hg h => completes_sdsLoss hg h,
    fun g s hg hrail hrun => completes_serdesPllRelock hg hrail hrun,
    fun s => completes_pcieRefStable s⟩

end Sys2Proof.Machine

/-! # What leaves the registers of system control

A command that is not one of supplies, clocks, resets, modes, the build or sleep, nor a write of registers at large, leaves every register of the
blocks SYS, CKR and PWR (`powerRegs`) as it was. What leaves all of system control as it stands (`HasSys`) does so (`sys_pwr`); the commands answer
on the bus and keep time, and so do the functions of theirs that follow: one lemma for each, in the order of the model's files, whose proof follows
the function's definition from the outside in. -/

namespace Sys2Proof.Machine

/-! ## The registers of system control, as a state shows them -/

/-- What the register fields of the blocks SYS, CKR and PWR hold. -/
def powerRegs (s : State) (f : Fld) : Nat := if onSys false f then getF f s else 0

/-- A state's registers of the blocks SYS, CKR and PWR read as `pv`. -/
def HasPwr (pv : Fld → Nat) (s : State) : Prop := powerRegs s = pv

/-- A meaning answers a next state, whose registers of the blocks SYS, CKR and PWR read as `pv`. -/
abbrev NextPwr (pv : Fld → Nat) (o : Out) : Prop := ∃ t, o = .next t ∧ HasPwr pv t

theorem powerRegs_eq_iff {s t : State} : powerRegs t = powerRegs s ↔ ∀ f, onSys false f = true → getF f t = getF f s := by
  constructor
  · intro h f hf
    simpa [powerRegs, hf] using congrFun h f
  · intro h
    funext f
    by_cases hf : onSys false f = true
    · simp [powerRegs, hf, h f hf]
    · simp [powerRegs, hf]

section
/-! The arguments that a tactic fills in below wait for the kernel: elaborated one after another, the lemmas hold no thread each. -/

set_option Elab.async false

variable {pv : Fld → Nat} {s : State}

theorem HasPwr.upd {t : State} (h : HasPwr pv s) (e : t.regs = s.regs) : HasPwr pv t :=
  (powerRegs_eq_iff.2 fun f _ => by rw [getF, getF, e]).trans h

theorem HasPwr.of_eq {α : Type} {x : α × State} {a : α} {t : State} (h : HasPwr pv x.2) (e : x = (a, t)) : HasPwr pv t := by
  rwa [e] at h

/-- `HasPwr.upd` for a state that is a long call: the update is not unfolded to find it. -/
theorem HasPwr.hie {x : HieState} (h : HasPwr pv s) : HasPwr pv { s with hie := x } := h.upd rfl

/-- What leaves system control as it stands leaves its registers so. -/
theorem sys_pwr {t : State} (e : HasSys false (sysView false s) t) (h : HasPwr pv s) : HasPwr pv t :=
  (congrArg (fun v : SysView => v.2.2.2.2) e).trans h

theorem pair_pwr {α : Type} {a : α} (h : HasPwr pv s) : HasPwr pv (a, s).2 := h

theorem pair₃_pwr {α β γ : Type} {a : α} {b : β} {c : γ} (h : HasPwr pv s) : HasPwr pv (a, b, c, s).2.2.2 := h

theorem ite_pwr {c : Prop} [Decidable c] {t : State} (h : HasPwr pv s) (h' : HasPwr pv t) : HasPwr pv (if c then s else t) := by
  split <;> assumption

/-- A step that is made on a condition: `hg` is told what holds before it. -/
theorem iteThen_pwr {c : Prop} [Decidable c] {t : State} (h : HasPwr pv s) (hg : HasPwr pv s → HasPwr pv t) : HasPwr pv (if c then s else t) :=
  ite_pwr h (hg h)

theorem iteElse_pwr {c : Prop} [Decidable c] {t : State} (h : HasPwr pv s) (hg : HasPwr pv s → HasPwr pv t) : HasPwr pv (if c then t else s) :=
  ite_pwr (hg h) h

theorem iteApp_pwr {c : Prop} [Decidable c] {f g : State → State} (h : HasPwr pv (f s)) (h' : HasPwr pv (g s)) :
    HasPwr pv ((if c then f else g) s) := by
  split <;> assumption

theorem iteSnd_pwr {α : Type} {c : Prop} [Decidable c] {x y : α × State} (h : HasPwr pv x.2) (h' : HasPwr pv y.2) :
    HasPwr pv (if c then x else y).2 := by
  split <;> assumption

theorem iteSnd₂_pwr {α β : Type} {c : Prop} [Decidable c] {x y : α × β × State} (h : HasPwr pv x.2.2) (h' : HasPwr pv y.2.2) :
    HasPwr pv (if c then x else y).2.2 := by
  split <;> assumption

theorem iteSnd₃_pwr {α β γ : Type} {c : Prop} [Decidable c] {x y : α × β × γ × State} (h : HasPwr pv x.2.2.2) (h' : HasPwr pv y.2.2.2) :
    HasPwr pv (if c then x else y).2.2.2 := by
  split <;> assumption

/-! ## The operations on states

A field above the blocks of system control may be set. Its address is a number, or a number with its indices' strides added, so that the
argument `hf` need not be written out. -/

theorem setF_pwr {f : Fld} {n : Nat} (h : HasPwr pv s) (hf : 0x40030000 ≤ f.addr := by (repeat apply Nat.le_add_right_of_le); decide) :
    HasPwr pv (setF f n s) :=
  sys_pwr (setF_low hf rfl) h

theorem setB_pwr {f : Fld} {b : Bool} (h : HasPwr pv s) (hf : 0x40030000 ≤ f.addr := by (repeat apply Nat.le_add_right_of_le); decide) :
    HasPwr pv (setB f b s) :=
  setF_pwr h hf

theorem incF_pwr {f : Fld} {n : Nat} (h : HasPwr pv s) (hf : 0x40030000 ≤ f.addr := by (repeat apply Nat.le_add_right_of_le); decide) :
    HasPwr pv (incF f n s) :=
  setF_pwr h hf

theorem incWrap_pwr {f : Fld} {n : Nat} (h : HasPwr pv s) (hf : 0x40030000 ≤ f.addr := by (repeat apply Nat.le_add_right_of_le); decide) :
    HasPwr pv (incWrap f n s) :=
  setF_pwr h hf

theorem orF_pwr {f : Fld} {m : Nat} (h : HasPwr pv s) (hf : 0x40030000 ≤ f.addr := by (repeat apply Nat.le_add_right_of_le); decide) :
    HasPwr pv (orF f m s) :=
  setF_pwr h hf

theorem clrF_pwr {f : Fld} {m : Nat} (h : HasPwr pv s) (hf : 0x40030000 ≤ f.addr := by (repeat apply Nat.le_add_right_of_le); decide) :
    HasPwr pv (clrF f m s) :=
  setF_pwr h hf

theorem applyAll_pwr {α : Type} {l : List α} {g : α → State → State} (hg : ∀ x s, HasPwr pv s → HasPwr pv (g x s)) (h : HasPwr pv s) :
    HasPwr pv (applyAll l g s) :=
  applyAll_of l g hg s h

theorem onlyIf_pwr {c : Bool} {g : State → State} (hg : ∀ s, HasPwr pv s → HasPwr pv (g s)) (h : HasPwr pv s) : HasPwr pv (onlyIf c g s) :=
  onlyIf_of c g h (hg s h)

/-- Entries of other keys put in a table. -/
theorem tabGet_foldl_tabIns {d k : Nat} {new : List (Nat × Nat)} (hnew : ∀ e ∈ new, e.1 ≠ k) :
    ∀ l, tabGet d (new.foldl (fun r e => tabIns e.1 e.2 r) l) k = tabGet d l k := by
  induction new with
  | nil => exact fun _ => rfl
  | cons e r ih =>
    intro l
    rw [List.foldl_cons, ih (fun x hx => hnew x (List.mem_cons_of_mem e hx)), tabGet_tabIns_ne _ _ _ (hnew e List.mem_cons_self).symm]

theorem tabGet_replaceBy {d k : Nat} {mine : Nat → Bool} (hk : mine k = false) (l new : List (Nat × Nat)) :
    tabGet d (replaceBy mine l new) k = tabGet d l k := by
  have hnew : ∀ e ∈ new.filter fun e => mine e.1, e.1 ≠ k := by
    rintro e he rfl
    simp [hk] at he
  rw [replaceBy, tabGet_foldl_tabIns hnew, tabGet_filter (fun _ => by simp [hk])]

/-- An old structure owns no register of system control. -/
theorem OldStructure.owns_low {o : OldStructure} {f : Fld} (hf : onSys false f = true) : o.owns f.key = false := by
  have hkey : f.key < 0x40030000 * 32 := by simpa [onSys] using hf
  have haddr : ¬ 0x40030000 ≤ keyAddr f.key := by simp only [keyAddr]; omega
  simp [OldStructure.owns, haddr]

/-- A register store in which an old structure's registers stand in. -/
theorem HasPwr.owned {o : OldStructure} {t : State} {new : List (Nat × Nat)} (h : HasPwr pv s) (e : t.regs = replaceBy o.owns s.regs new) :
    HasPwr pv t :=
  (powerRegs_eq_iff.2 fun f hf => by rw [getF, getF, e, tabGet_replaceBy (OldStructure.owns_low hf)]).trans h

theorem underGen_pwr {ctx : Bool} {gen : Nat} {g : State → State} (hg : ∀ s, HasPwr pv s → HasPwr pv (g s)) (h : HasPwr pv s) :
    HasPwr pv (underGen ctx gen g s) := by
  unfold underGen
  split
  · exact hg s h
  · split
    · exact hg s h
    · exact (hg _ (h.owned rfl)).owned rfl

theorem drawFree_pwr {w : Nat} (h : HasPwr pv s) : HasPwr pv (drawFree w s).2 :=
  h.upd rfl

/-- The address of a field that a condition chooses. -/
theorem le_addr_ite {c : Prop} [Decidable c] {f g : Fld} (hf : 0x40030000 ≤ f.addr := by (repeat apply Nat.le_add_right_of_le); decide)
    (hg : 0x40030000 ≤ g.addr := by (repeat apply Nat.le_add_right_of_le); decide) : 0x40030000 ≤ (if c then f else g).addr := by
  split <;> assumption

theorem le_addr_sideF {p : LinkSide} {f g : Fld} (hf : 0x40030000 ≤ f.addr := by decide) (hg : 0x40030000 ≤ g.addr := by decide) :
    0x40030000 ≤ (sideF p f g).addr := by
  cases p <;> assumption

theorem le_addr_originF {p : LinkSide} {n : Nat} : 0x40030000 ≤ (originF p n).addr := by
  unfold originF
  split <;> decide

theorem le_addr_wireSeq {n : Nat} : 0x40030000 ≤ (wireSeq n).addr := by
  unfold wireSeq
  split <;> decide

theorem raise_pwr {e : Nat} (h : HasPwr pv s) : HasPwr pv (raise e s) :=
  sys_pwr (raise_low rfl) h

/-! ## The functions of Machine/Ops.lean -/

theorem setFree_pwr {f : Fld} (h : HasPwr pv s) (hf : 0x40030000 ≤ f.addr := by (repeat apply Nat.le_add_right_of_le); decide) :
    HasPwr pv (setFree f s) :=
  setF_pwr (h.upd rfl) hf

theorem busDone_pwr (h : HasPwr pv s) : HasPwr pv (busDone s) :=
  h.upd rfl

theorem busError_pwr (h : HasPwr pv s) : HasPwr pv (busError s) :=
  h.upd rfl

theorem busData_pwr {v : Nat} (h : HasPwr pv s) : HasPwr pv (busData v s) :=
  h.upd rfl

theorem busStall_pwr (h : HasPwr pv s) : HasPwr pv (busStall s) :=
  h.upd rfl

theorem busRetry_pwr (h : HasPwr pv s) : HasPwr pv (busRetry s) :=
  h.upd rfl

theorem raiseOnce_pwr {e inst : Nat} (h : HasPwr pv s) : HasPwr pv (raiseOnce e inst s) :=
  ite_pwr h (raise_pwr (h.upd rfl))

theorem setTileBit_pwr {lo hi : Fld} {n : Nat} {b : Bool} (h : HasPwr pv s) (hlo : 0x40030000 ≤ lo.addr := by decide)
    (hhi : 0x40030000 ≤ hi.addr := by decide) : HasPwr pv (setTileBit lo hi n b s) :=
  ite_pwr (orF_pwr h (le_addr_ite hlo hhi)) (clrF_pwr h (le_addr_ite hlo hhi))

/-! ## The functions of Machine/Inn.lean -/

theorem grantLease_pwr {kind res tag n : Nat} {dur : Option Nat} {t : State} (h : HasPwr pv s)
    (e : grantLease kind res tag dur s = some (n, t)) : HasPwr pv t := by
  unfold grantLease at e
  split at e
  · cases e
  · split at e
    · cases e
    · cases e; exact sys_pwr (setLease_sys rfl) h

theorem countFull_pwr {tag : Nat} (h : HasPwr pv s) : HasPwr pv (countFull tag s) :=
  ite_pwr h (incF_pwr h)

theorem countDrop_pwr {port reason : Nat} (h : HasPwr pv s) : HasPwr pv (countDrop port reason s) :=
  incF_pwr h

theorem releaseItem_pwr {lid : Nat} {w : ItemWork} (h : HasPwr pv s) : HasPwr pv (releaseItem lid w s) := by
  refine ite_pwr h (ite_pwr ?_ (iteThen_pwr (sys_pwr (setLodger_sys rfl) h) fun h1 => sys_pwr (contextFault_sys rfl) h1))
  split
  · exact countDrop_pwr (sys_pwr (freePages_sys rfl) h)
  · exact h

/-! ## The functions of Machine/Worlds.lean -/

theorem violation_pwr {addr : Nat} {w : World} {write : Bool} {src core : Nat} (h : HasPwr pv s) :
    HasPwr pv (violation addr w write src core s) :=
  raiseOnce_pwr (incF_pwr (setF_pwr (setB_pwr (setB_pwr (setF_pwr (setF_pwr h))))))

theorem violate_pwr {rq : Requester} {addr : Nat} {write : Bool} (h : HasPwr pv s) : HasPwr pv (violate rq addr write s) :=
  busError_pwr (violation_pwr h)

theorem secureOnly_pwr {rq : Requester} {a : Nat} {g : State → State} (hg : ∀ s, HasPwr pv s → HasPwr pv (g s)) (h : HasPwr pv s) :
    HasPwr pv (secureOnly rq a g s) :=
  ite_pwr (hg _ h) (violate_pwr h)

theorem gate_pwr {rq : Requester} {write : Bool} {a : Nat} {w : Word} {g : State → State} (hg : ∀ s, HasPwr pv s → HasPwr pv (g s))
    (h : HasPwr pv s) : HasPwr pv (gate rq write a w g s) :=
  ite_pwr (hg _ h) (ite_pwr (violate_pwr h) (ite_pwr (violate_pwr h) (ite_pwr (busError_pwr h) (hg _ h))))

/-! ## The functions of Machine/Aon.lean -/

theorem preqRelease_pwr {detail : Nat} (h : HasPwr pv s) : HasPwr pv (preqRelease detail s) :=
  ite_pwr (sys_pwr (aonLog_sys rfl) (setB_pwr h)) h

theorem aonAlarm_pwr {cause detail bit : Nat} (h : HasPwr pv s) : HasPwr pv (aonAlarm cause detail bit s) :=
  ite_pwr (ite_pwr ((sys_pwr (aonLog_sys rfl) h).upd rfl) (setB_pwr ((sys_pwr (aonLog_sys rfl) h).upd rfl))) (raise_pwr (sys_pwr (aonLog_sys rfl) h))

theorem preqStop_pwr {detail : Nat} (h : HasPwr pv s) : HasPwr pv (preqStop detail s) := by
  unfold preqStop
  extract_lets s1 _
  have hs1 : HasPwr pv s1 := setB_pwr h
  exact preqRelease_pwr (hs1.upd rfl)

theorem preqSw_pwr {v : Bool} (h : HasPwr pv s) : HasPwr pv (preqSw v s) :=
  ite_pwr (ite_pwr h (setB_pwr (setB_pwr h))) (ite_pwr (setB_pwr h) (preqRelease_pwr (setB_pwr h)))

theorem aonApply_pwr {a v : Nat} {sec : Bool} (h : HasPwr pv s) : HasPwr pv (aonApply a v sec s) :=
  ite_pwr ((sys_pwr (ledgerAdvance_sys rfl) h).upd rfl) (ite_pwr (setF_pwr h)
    (ite_pwr (iteElse_pwr (setF_pwr (setF_pwr (setF_pwr (setF_pwr (setF_pwr (setF_pwr h)))))) fun h1 => setF_pwr h1)
    (ite_pwr (clrF_pwr h) (ite_pwr (setF_pwr h) (ite_pwr (ite_pwr (preqStop_pwr (setF_pwr h)) (preqSw_pwr (setF_pwr h)))
    (ite_pwr (clrF_pwr (clrF_pwr (clrF_pwr (clrF_pwr (clrF_pwr (clrF_pwr (clrF_pwr h)))))))
    (ite_pwr (ite_pwr (setF_pwr h) h) (ite_pwr (clrF_pwr h) h))))))))

theorem aonWrite_pwr {a v : Nat} {sec : Bool} (h : HasPwr pv s) : HasPwr pv (aonWrite a v sec s) :=
  ite_pwr (busDone_pwr (setB_pwr (h.upd rfl))) (busStall_pwr (setB_pwr (h.upd rfl)))

theorem aonTransit_pwr (h : HasPwr pv s) : HasPwr pv (aonTransit s) := by
  unfold aonTransit
  split
  · exact h
  · exact aonApply_pwr (setB_pwr (h.upd rfl))

theorem execAonWriteTransit_pwr (h : HasPwr pv s) : NextPwr pv (execAonWriteTransit s) :=
  ⟨_, rfl, aonTransit_pwr h⟩

theorem cmdAonRtcset_pwr {rq : Requester} {w : Word} (h : HasPwr pv s) : HasPwr pv (cmdAonRtcset rq w s) :=
  secureOnly_pwr (fun _ h => aonWrite_pwr h) h

theorem execAonRtcset_pwr {rq : Requester} {w : Word} (h : HasPwr pv s) : NextPwr pv (execAonRtcset rq w s) :=
  ⟨_, rfl, gate_pwr (fun _ h => cmdAonRtcset_pwr h) h⟩

theorem execWakePinFire_pwr {n : Nat} (h : HasPwr pv s) : NextPwr pv (execWakePinFire n s) :=
  ⟨_, rfl, onlyIf_pwr (fun _ h => aonAlarm_pwr (h.upd rfl)) h⟩

theorem execWakePinRearm_pwr {n : Nat} (h : HasPwr pv s) : NextPwr pv (execWakePinRearm n s) :=
  ⟨_, rfl, onlyIf_pwr (fun _ h => h.upd rfl) h⟩

theorem execTamperFire_pwr (h : HasPwr pv s) : NextPwr pv (execTamperFire s) :=
  ⟨_, rfl, onlyIf_pwr (fun _ h => aonAlarm_pwr (setB_pwr (h.upd rfl))) (setB_pwr h)⟩

theorem execTamperRearm_pwr (h : HasPwr pv s) : NextPwr pv (execTamperRearm s) :=
  ⟨_, rfl, setB_pwr (h.upd rfl)⟩

theorem tamperWrite_pwr {rq : Requester} {v : Nat} (h : HasPwr pv s) : HasPwr pv (tamperWrite rq v s) :=
  secureOnly_pwr (fun _ h => ite_pwr (aonWrite_pwr h) (busError_pwr h)) h

theorem execTamperLatchClear_pwr {rq : Requester} (h : HasPwr pv s) : NextPwr pv (execTamperLatchClear rq s) :=
  ⟨_, rfl, gate_pwr (fun _ h => tamperWrite_pwr h) h⟩

theorem vbatInhibit_pwr {mv10 : Nat} (h : HasPwr pv s) : HasPwr pv (vbatInhibit mv10 s) :=
  ite_pwr (ite_pwr h (preqStop_pwr (setB_pwr h))) (ite_pwr (setB_pwr h) h)

theorem execVbatMeasure_pwr {mv10 : Nat} (h : HasPwr pv s) : NextPwr pv (execVbatMeasure mv10 s) :=
  ⟨_, rfl, ite_pwr (aonAlarm_pwr ((vbatInhibit_pwr (setF_pwr h)).upd rfl))
    (iteElse_pwr (vbatInhibit_pwr (setF_pwr h)) fun h1 => h1.upd rfl)⟩

theorem execPwrReqHoldExpiry_pwr (h : HasPwr pv s) : NextPwr pv (execPwrReqHoldExpiry s) :=
  ⟨_, rfl, onlyIf_pwr (fun _ h => ite_pwr (h.upd rfl) (preqRelease_pwr (h.upd rfl))) h⟩

theorem execPwrReqRelease_pwr {rq : Requester} (h : HasPwr pv s) : NextPwr pv (execPwrReqRelease rq s) :=
  ⟨_, rfl, gate_pwr (fun _ h => aonWrite_pwr h) h⟩

theorem cmdPwrReqSwWrite_pwr {rq : Requester} {w : Word} (h : HasPwr pv s) : HasPwr pv (cmdPwrReqSwWrite rq w s) :=
  ite_pwr (aonWrite_pwr h) (busError_pwr h)

theorem execPwrReqSwWrite_pwr {rq : Requester} {w : Word} (h : HasPwr pv s) : NextPwr pv (execPwrReqSwWrite rq w s) :=
  ⟨_, rfl, gate_pwr (fun _ h => cmdPwrReqSwWrite_pwr h) h⟩

theorem execAonLogack_pwr {rq : Requester} (h : HasPwr pv s) : NextPwr pv (execAonLogack rq s) :=
  ⟨_, rfl, gate_pwr (fun _ h => aonWrite_pwr h) h⟩

/-! ## The functions of Machine/Tables.lean -/

theorem tabChange_pwr {t i : Nat} {e : List Byte} (h : HasPwr pv s) : HasPwr pv (tabChange t i e s) :=
  ite_pwr (sys_pwr (l2Put_sys rfl) h) (sys_pwr (entWr_sys rfl) h)

theorem insertFail_pwr {t src : Nat} {e : List Byte} (h : HasPwr pv s) : HasPwr pv (insertFail t src e s) :=
  raise_pwr (incF_pwr (setF_pwr (setF_pwr (setF_pwr (setF_pwr (setF_pwr (setF_pwr (setF_pwr (setF_pwr h)))))))))

theorem insertKey_pwr {t src : Nat} {e : List Byte} (h : HasPwr pv s) : HasPwr pv (insertKey t src e s).2 := by
  unfold insertKey
  split
  · exact pair_pwr (tabChange_pwr h)
  · split
    · exact pair_pwr (tabChange_pwr h)
    · exact pair_pwr (insertFail_pwr h)

theorem cvLocal_pwr {e : L2} {withdraw : Bool} (h : HasPwr pv s) : HasPwr pv (cvLocal e withdraw s) :=
  ite_pwr (sys_pwr (cvQueue_sys rfl) h) h

theorem learnApply_pwr {r : LearnReq} (h : HasPwr pv s) : HasPwr pv (learnApply r s) := by
  unfold learnApply
  split
  · exact ite_pwr h (cvLocal_pwr (incF_pwr (sys_pwr (l2Put_sys rfl) h)))
  · exact iteElse_pwr (insertKey_pwr h) fun h1 => cvLocal_pwr (incF_pwr h1)

theorem execLearnApply_pwr (h : HasPwr pv s) : NextPwr pv (execLearnApply s) := by
  refine ⟨_, rfl, ?_⟩
  split
  · exact h
  · exact learnApply_pwr (setF_pwr (h.upd rfl))

theorem ageEntry_pwr {i : Nat} (h : HasPwr pv s) : HasPwr pv (ageEntry i s) :=
  ite_pwr h (ite_pwr (ite_pwr (incF_pwr (sys_pwr (l2Put_sys rfl) h)) h) (ite_pwr (cvLocal_pwr (incF_pwr (sys_pwr (l2Put_sys rfl) h))) h))

theorem execAgeingScan_pwr (h : HasPwr pv s) : NextPwr pv (execAgeingScan s) :=
  ⟨_, rfl, applyAll_pwr (fun _ _ h => ageEntry_pwr h) h⟩

theorem cmdMigrateStart_pwr {rq : Requester} {w : Word} (h : HasPwr pv s) : HasPwr pv (cmdMigrateStart rq w s) :=
  iteElse_pwr (busDone_pwr (setF_pwr h)) fun h1 => setF_pwr (setF_pwr h1)

theorem execMigrateStart_pwr {rq : Requester} {w : Word} (h : HasPwr pv s) : NextPwr pv (execMigrateStart rq w s) :=
  ⟨_, rfl, gate_pwr (fun _ h => cmdMigrateStart_pwr h) h⟩

theorem migrateEntry_pwr {i : Nat} (h : HasPwr pv s) : HasPwr pv (migrateEntry i s) :=
  ite_pwr (sys_pwr (shadowMade_sys rfl) h) h

theorem execMigrateDone_pwr (h : HasPwr pv s) : NextPwr pv (execMigrateDone s) :=
  ⟨_, rfl, onlyIf_pwr (fun _ h => iteElse_pwr (applyAll_pwr (fun _ _ h => migrateEntry_pwr h) h) fun h1 => setF_pwr h1) h⟩

theorem clearBank_pwr {p : Nat} (h : HasPwr pv s) : HasPwr pv (clearBank p s) :=
  applyAll_pwr (fun _ _ h => sys_pwr (entWr_sys rfl) h) h

theorem cmdMigrateCancel_pwr {rq : Requester} {w : Word} (h : HasPwr pv s) : HasPwr pv (cmdMigrateCancel rq w s) :=
  iteElse_pwr (busDone_pwr (setF_pwr h)) fun h1 => setF_pwr (clearBank_pwr h1)

theorem execMigrateCancel_pwr {rq : Requester} {w : Word} (h : HasPwr pv s) : NextPwr pv (execMigrateCancel rq w s) :=
  ⟨_, rfl, gate_pwr (fun _ h => cmdMigrateCancel_pwr h) h⟩

theorem execBankClearDone_pwr (h : HasPwr pv s) : NextPwr pv (execBankClearDone s) :=
  ⟨_, rfl, onlyIf_pwr (fun _ h => setF_pwr (clearBank_pwr h)) h⟩

theorem cmdPorterGo_pwr {rq : Requester} {w : Word} (h : HasPwr pv s) : HasPwr pv (cmdPorterGo rq w s) :=
  ite_pwr (setB_pwr ((busDone_pwr h).upd rfl)) (busDone_pwr h)

theorem execPorterGo_pwr {rq : Requester} {w : Word} (h : HasPwr pv s) : NextPwr pv (execPorterGo rq w s) :=
  ⟨_, rfl, gate_pwr (fun _ h => cmdPorterGo_pwr h) h⟩

theorem stageChange_pwr {c : TableChange} (h : HasPwr pv s) : HasPwr pv (stageChange c s) :=
  setF_pwr (h.upd rfl)

theorem porterEnd_pwr {stop : Option Nat} (h : HasPwr pv s) : HasPwr pv (porterEnd stop s) := by
  unfold porterEnd
  split
  · exact setB_pwr (setF_pwr (setB_pwr (h.upd rfl)))
  · exact setB_pwr (h.upd rfl)

theorem porterOp_pwr {op t idx : Nat} {data : List Byte} {lock : Bool} (h : HasPwr pv s) :
    HasPwr pv (porterOp op t idx data lock s).2.2.2 := by
  unfold porterOp
  refine iteSnd₃_pwr h (iteSnd₃_pwr h (iteSnd₃_pwr h (iteSnd₃_pwr (pair₃_pwr (stageChange_pwr h)) (iteSnd₃_pwr h
    (iteSnd₃_pwr ?_ ?_)))))
  · split <;> exact h
  · split
    · exact pair₃_pwr (stageChange_pwr h)
    · refine iteSnd₃_pwr h ?_
      split
      · exact pair₃_pwr (stageChange_pwr h)
      · exact pair₃_pwr (insertFail_pwr h)

theorem execPorterOperation_pwr (h : HasPwr pv s) : NextPwr pv (execPorterOperation s) := by
  refine ⟨_, rfl, ?_⟩
  split
  · exact h
  · next run _ =>
    extract_lets a w r t data u s1 s2 _
    have hs1 : HasPwr pv s1 := sys_pwr (wrBytes_sys rfl) (sys_pwr (wrBytes_sys rfl) (porterOp_pwr h))
    have hs2 : HasPwr pv s2 := by
      unfold s2
      split
      · exact sys_pwr (wrBytes_sys rfl) hs1
      · exact hs1
    exact ite_pwr (porterEnd_pwr h) (ite_pwr (porterEnd_pwr (violation_pwr h))
      (ite_pwr (porterEnd_pwr hs2) (ite_pwr (porterEnd_pwr hs2) (hs2.upd rfl))))

theorem fwtDiscard_pwr (h : HasPwr pv s) : HasPwr pv (fwtDiscard s) := by
  unfold fwtDiscard
  split
  · exact porterEnd_pwr (setF_pwr (setF_pwr (h.upd rfl)))
  · exact setF_pwr (setF_pwr (h.upd rfl))

theorem execOverlayDrainDone_pwr (h : HasPwr pv s) : NextPwr pv (execOverlayDrainDone s) :=
  ⟨_, rfl, setB_pwr h⟩

theorem epochMismatch_pwr (h : HasPwr pv s) : HasPwr pv (epochMismatch s) :=
  incF_pwr (incF_pwr h)

theorem keepOwner_pwr {r : CvRecord} (h : HasPwr pv s) : HasPwr pv (keepOwner r s) :=
  h.upd rfl

theorem mergeRecord_pwr {r : CvRecord} (h : HasPwr pv s) : HasPwr pv (mergeRecord r s) := by
  refine ite_pwr (incF_pwr h) ?_
  split
  · exact ite_pwr h (iteElse_pwr (insertKey_pwr h) fun h1 => sys_pwr (cvQueue_sys rfl) (incF_pwr (keepOwner_pwr h1)))
  · exact ite_pwr h (ite_pwr (ite_pwr h (ite_pwr (sys_pwr (cvQueue_sys rfl) (incF_pwr (sys_pwr (l2Put_sys rfl) h)))
      (incF_pwr (sys_pwr (l2Put_sys rfl) (keepOwner_pwr h))))) (iteThen_pwr (ite_pwr (raise_pwr h) h) fun h1 => ite_pwr
      (sys_pwr (cvQueue_sys rfl) (incF_pwr (incF_pwr (sys_pwr (l2Put_sys rfl) (keepOwner_pwr h1))))) (incF_pwr h1)))

theorem installRecord_pwr {r : CvRecord} (h : HasPwr pv s) : HasPwr pv (installRecord r s) := by
  refine ite_pwr h ?_
  split
  · exact ite_pwr h (ite_pwr (incF_pwr h) (iteElse_pwr (insertKey_pwr h) fun h1 => incF_pwr (keepOwner_pwr h1)))
  · exact ite_pwr h (ite_pwr (ite_pwr (incF_pwr (sys_pwr (l2Put_sys rfl) h)) h)
      (ite_pwr h (ite_pwr (incF_pwr h) (incF_pwr (sys_pwr (l2Put_sys rfl) (keepOwner_pwr h))))))

theorem cvArrive_pwr {c : Caravan} (h : HasPwr pv s) : HasPwr pv (cvArrive c s) :=
  ite_pwr (raise_pwr h) (ite_pwr (raiseOnce_pwr (setF_pwr (h.upd rfl))) (setF_pwr (h.upd rfl)))

theorem cvTake_pwr {g : CvRecord → State → State} (hg : ∀ x s, HasPwr pv s → HasPwr pv (g x s)) (h : HasPwr pv s) :
    HasPwr pv (cvTake g s) := by
  unfold cvTake
  split
  · exact h
  · exact ite_pwr (applyAll_pwr (fun _ _ h => hg _ _ h) (setF_pwr (h.upd rfl))) (epochMismatch_pwr (setF_pwr (h.upd rfl)))

theorem execCaravanMerge_pwr (h : HasPwr pv s) : NextPwr pv (execCaravanMerge s) :=
  ⟨_, rfl, onlyIf_pwr (fun _ h => cvTake_pwr (fun _ _ h => mergeRecord_pwr h) h) h⟩

theorem execRedistributionInstall_pwr (h : HasPwr pv s) : NextPwr pv (execRedistributionInstall s) :=
  ⟨_, rfl, onlyIf_pwr (fun _ h => cvTake_pwr (fun _ _ h => installRecord_pwr h) h) h⟩

theorem fullRefresh_pwr (h : HasPwr pv s) : HasPwr pv (fullRefresh s) :=
  sys_pwr (refreshStep_sys rfl) (h.upd rfl)

theorem execFullRefresh_pwr (h : HasPwr pv s) : NextPwr pv (execFullRefresh s) :=
  ⟨_, rfl, fullRefresh_pwr h⟩

/-! ## The functions of Machine/Switch.lean -/

theorem setGate_pwr {p : Nat} {g : GateState} (h : HasPwr pv s) : HasPwr pv (setGate p g s) :=
  h.upd rfl

theorem ethCount_pwr {p i : Nat} (h : HasPwr pv s) : HasPwr pv (ethCount p i s) :=
  ite_pwr (raiseOnce_pwr (incF_pwr h)) (incF_pwr h)

theorem policeSettle_pwr {i charged len : Nat} (h : HasPwr pv s) : HasPwr pv (policeSettle i charged len s) :=
  ite_pwr h (sys_pwr (entWr_sys rfl) h)

theorem policeCredit_pwr {i : Nat} (h : HasPwr pv s) : HasPwr pv (policeCredit i s) :=
  sys_pwr (entWr_sys rfl) h

theorem execPolicerCreditTick_pwr (h : HasPwr pv s) : NextPwr pv (execPolicerCreditTick s) :=
  ⟨_, rfl, applyAll_pwr (fun _ _ h => policeCredit_pwr h) h⟩

theorem execStreamResetTimeout_pwr {sh : Nat} (h : HasPwr pv s) : NextPwr pv (execStreamResetTimeout sh s) :=
  ⟨_, rfl, onlyIf_pwr (fun _ h => sys_pwr (setCb_sys rfl) h) h⟩

theorem internalFrame_pwr {w : Waybill} {bytes : List Byte} (h : HasPwr pv s) : HasPwr pv (internalFrame w bytes s) :=
  sys_pwr (offerFrame_sys rfl) h

theorem unitFrame_pwr {w : Waybill} {bytes : List Byte} (h : HasPwr pv s) : HasPwr pv (unitFrame w bytes s) :=
  sys_pwr (offerFrame_sys rfl) h

theorem enterHeld_pwr {h : Held} (hs : HasPwr pv s) : HasPwr pv (enterHeld h s) :=
  underGen_pwr (fun _ h => ite_pwr (sys_pwr (enterHostel_sys rfl) (sys_pwr (pagesOf_sys rfl) h)) (countDrop_pwr (sys_pwr (pagesOf_sys rfl) h))) hs

theorem releaseLossy_pwr {k : Nat} {l : List Held} (h : HasPwr pv s) : HasPwr pv (releaseLossy k l s) := by
  induction l generalizing s with
  | nil => exact sys_pwr (setHolds_sys rfl) h
  | cons x q ih => exact ite_pwr (sys_pwr (setHolds_sys rfl) h) (ih (enterHeld_pwr h))

theorem retryHold_pwr {k : Nat} (h : HasPwr pv s) : HasPwr pv (retryHold k s) := by
  unfold retryHold
  split
  · exact h
  · exact ite_pwr h (sys_pwr (obufShow_sys rfl) (releaseLossy_pwr (enterHeld_pwr h)))

theorem policeOwn_pwr {graph : Nat} {w : Waybill} {frame : List Byte} (h : HasPwr pv s) : HasPwr pv (policeOwn graph w frame s).2 := by
  unfold policeOwn
  dsimp only
  split
  · refine iteSnd_pwr ?_ h
    split
    · exact sys_pwr (swBump_sys rfl) (sys_pwr (police_sys rfl) h)
    · exact sys_pwr (police_sys rfl) h
    · exact sys_pwr (police_sys rfl) h
  · exact h

theorem sendOwn_pwr {graph : Nat} {w : Waybill} {frame : List Byte} (h : HasPwr pv s) : HasPwr pv (sendOwn graph w frame s) := by
  unfold sendOwn
  split
  · next e => exact internalFrame_pwr ((policeOwn_pwr (sys_pwr (swBump_sys rfl) (sys_pwr (swBump_sys rfl) h))).of_eq e)
  · next e => exact (policeOwn_pwr (sys_pwr (swBump_sys rfl) (sys_pwr (swBump_sys rfl) h))).of_eq e

theorem internalInline_pwr {w : Waybill} (h : HasPwr pv s) : HasPwr pv (internalInline w s) :=
  applyAll_pwr (fun _ _ h => sys_pwr (joinQueue_sys rfl) h) (sys_pwr (ingressCopy_sys rfl) h)

theorem setMet_pwr {p : Nat} {b : Bool} (h : HasPwr pv s) : HasPwr pv (setMet p b s) :=
  h.upd rfl

theorem ingressFrame_pwr {p : Nat} {frame : List Byte} {sfd : Nat} (h : HasPwr pv s) : HasPwr pv (ingressFrame p frame sfd s) :=
  sys_pwr (offerFrame_sys rfl) h

theorem execFrameIngress_pwr {p : Nat} {frame : List Byte} {sfd : Nat} (h : HasPwr pv s) : NextPwr pv (execFrameIngress p frame sfd s) :=
  ⟨_, rfl, onlyIf_pwr (fun _ h => setMet_pwr (ingressFrame_pwr h)) h⟩

theorem settleCharge_pwr {i : Inflight} (h : HasPwr pv s) : HasPwr pv (settleCharge i s) := by
  unfold settleCharge
  split
  · exact policeSettle_pwr h
  · exact h

theorem mapQueued_pwr {pages : List Nat} {g : Replica → Option Replica} (h : HasPwr pv s) : HasPwr pv (mapQueued pages g s) :=
  applyAll_pwr (fun _ _ h => applyAll_pwr (fun _ _ h => sys_pwr (dropReplica_sys rfl) h) (sys_pwr (setQueue_sys rfl) h)) h

theorem frameStored_pwr {p : Nat} (h : HasPwr pv s) : HasPwr pv (frameStored p s) := by
  unfold frameStored
  split
  · exact sys_pwr (setHolds_sys rfl) h
  · exact underGen_pwr (fun _ h => applyAll_pwr (fun _ _ h => sys_pwr (joinQueue_sys rfl) h)
      (mapQueued_pwr (settleCharge_pwr (sys_pwr (setInflight_sys rfl) h)))) h

theorem execFrameStored_pwr {p : Nat} (h : HasPwr pv s) : NextPwr pv (execFrameStored p s) :=
  ⟨_, rfl, frameStored_pwr h⟩

theorem setSending_pwr {p : Nat} {r : Option Replica} (h : HasPwr pv s) : HasPwr pv (setSending p r s) :=
  h.upd rfl

theorem endSpoiled_pwr {q : Nat} (h : HasPwr pv s) : HasPwr pv (endSpoiled q s) := by
  unfold endSpoiled
  split
  · exact h
  · exact sys_pwr (emit_sys rfl) (sys_pwr (dropReplica_sys rfl) (setSending_pwr (sys_pwr (creditUpdate_sys rfl) h)))

theorem portsSettle_pwr (h : HasPwr pv s) : HasPwr pv (portsSettle s) :=
  applyAll_pwr (fun _ _ h => sys_pwr (refreshHold_sys rfl) (sys_pwr (creditUpdate_sys rfl) h)) h

theorem abandonFrame_pwr {p : Nat} (h : HasPwr pv s) : HasPwr pv (abandonFrame p s) := by
  unfold abandonFrame
  split
  · exact ite_pwr (sys_pwr (setHolds_sys rfl) (sys_pwr (freePages_sys rfl) (sys_pwr (setFilling_sys rfl) h))) (sys_pwr (setHolds_sys rfl) h)
  · refine underGen_pwr (fun _ h => ?_) h
    exact applyAll_pwr (fun _ _ h => sys_pwr (swBump_sys rfl) (endSpoiled_pwr h))
      (applyAll_pwr (fun _ _ h => sys_pwr (dropReplica_sys rfl) h) (portsSettle_pwr
      (mapQueued_pwr (portsSettle_pwr (settleCharge_pwr (sys_pwr (setInflight_sys rfl) h))))))

/-! ## The functions of Machine/Egress.lean -/

theorem ptpStamp_pwr {p : Nat} {f : List Byte} (h : HasPwr pv s) : HasPwr pv (ptpStamp p f s) :=
  ite_pwr (incF_pwr h) (setF_pwr (h.upd rfl))

theorem putOnWire_pwr {p : Nat} (h : HasPwr pv s) : HasPwr pv (putOnWire p s) :=
  h.upd rfl

theorem burstStart_pwr {p : Nat} (h : HasPwr pv s) : HasPwr pv (burstStart p s) := by
  unfold burstStart
  split
  · exact ite_pwr (putOnWire_pwr (h.upd rfl)) h
  · exact h

theorem execEgressSelection_pwr {p : Nat} (h : HasPwr pv s) : NextPwr pv (execEgressSelection p s) := by
  refine ⟨_, rfl, onlyIf_pwr (fun s h => ?_) h⟩
  dsimp only
  split
  · exact sys_pwr (refreshHold_sys rfl) (sys_pwr (creditUpdate_sys rfl) h)
  · split
    · exact sys_pwr (creditUpdate_sys rfl) h
    · exact sys_pwr (refreshHold_sys rfl) (burstStart_pwr (iteElse_pwr (setSending_pwr (sys_pwr (setQueue_sys rfl) (sys_pwr
        (creditUpdate_sys rfl) h)))
        fun h1 => ptpStamp_pwr h1))

theorem plcaUp_pwr {p : Nat} (h : HasPwr pv s) : HasPwr pv (plcaUp p s) :=
  ite_pwr h (raise_pwr (setB_pwr (setB_pwr h)))

theorem beacon_pwr {p : Nat} (h : HasPwr pv s) : HasPwr pv (beacon p s) :=
  sys_pwr (emit_sys rfl) (plcaUp_pwr h)

theorem execTransmitOpportunity_pwr {p : Nat} (h : HasPwr pv s) : NextPwr pv (execTransmitOpportunity p s) :=
  ⟨_, rfl, onlyIf_pwr (fun _ h => iteThen_pwr (ite_pwr (beacon_pwr h) h) fun h1 => ite_pwr (putOnWire_pwr (h1.upd rfl))
    (h1.upd rfl)) h⟩

theorem execPageFree_pwr {p : Nat} (h : HasPwr pv s) : NextPwr pv (execPageFree p s) := by
  refine ⟨_, rfl, ?_⟩
  split
  · exact h
  · refine ite_pwr h ?_
    split
    · exact h
    · exact setSending_pwr (sys_pwr (freePage_sys rfl) h)

theorem recirculate_pwr {r : Replica} (h : HasPwr pv s) : HasPwr pv (recirculate r s) :=
  sys_pwr (runStages_sys rfl) (sys_pwr (ingressCopy_sys rfl) (sys_pwr (swBump_sys rfl) (sys_pwr (swBump_sys rfl) h)))

theorem hieTake_pwr {p : Nat} {f : List Byte} (h : HasPwr pv s) : HasPwr pv (hieTake p f s) :=
  h.upd rfl

theorem truncate_pwr {p : Nat} (h : HasPwr pv s) : HasPwr pv (truncate p s) :=
  sys_pwr (swBump_sys rfl) (endSpoiled_pwr h)

theorem replicaSent_pwr {p : Nat} {r : Replica} (h : HasPwr pv s) : HasPwr pv (replicaSent p r s) := by
  unfold replicaSent
  extract_lets s1 _ s2 _ _ s3 _
  have hs1 : HasPwr pv s1 := sys_pwr (swBump_sys rfl) (sys_pwr (swBump_sys rfl) (setSending_pwr (sys_pwr (creditUpdate_sys rfl) h)))
  have hs2 : HasPwr pv s2 := hs1.upd rfl
  have hs3 : HasPwr pv s3 := sys_pwr (emit_sys rfl) (sys_pwr (dropReplica_sys rfl) hs2)
  exact ite_pwr (recirculate_pwr hs2) (ite_pwr (ite_pwr (hieTake_pwr (sys_pwr (dropReplica_sys rfl) hs2)) ((sys_pwr
    (dropReplica_sys rfl) hs2).upd rfl))
    (ite_pwr (ethCount_pwr hs3) (ite_pwr (ethCount_pwr (hs3.upd rfl)) hs3)))

theorem transmitDone_pwr {p : Nat} (h : HasPwr pv s) : HasPwr pv (transmitDone p s) := by
  unfold transmitDone
  split
  · exact h
  · exact ite_pwr h (ite_pwr (truncate_pwr h) (replicaSent_pwr h))

theorem execCutThroughEnd_pwr {p why : Nat} (h : HasPwr pv s) : NextPwr pv (execCutThroughEnd p why s) := by
  refine ⟨_, rfl, ?_⟩
  split
  · exact h
  · exact ite_pwr h (ite_pwr (ite_pwr (truncate_pwr h) h) (ite_pwr h
      (ite_pwr (abandonFrame_pwr h) (ite_pwr (sys_pwr (refreshHold_sys rfl) (sys_pwr (swBump_sys rfl)
      (sys_pwr (setQueue_sys rfl) (sys_pwr (emit_sys rfl) (setSending_pwr (sys_pwr (creditUpdate_sys rfl) h)))))) h))))

theorem countCycles_pwr {p : Nat} (h : HasPwr pv s) : HasPwr pv (countCycles p s) := by
  unfold countCycles
  dsimp only
  refine applyAll_pwr (fun _ _ h => ?_) h
  split
  · exact h
  · exact sys_pwr (setQueue_sys rfl) h

theorem showGates_pwr {p : Nat} (h : HasPwr pv s) : HasPwr pv (showGates p s) :=
  setF_pwr (setF_pwr h)

theorem execGateEntryChange_pwr {p : Nat} (h : HasPwr pv s) : NextPwr pv (execGateEntryChange p s) := by
  refine ⟨_, rfl, ?_⟩
  refine onlyIf_pwr (fun _ h => ?_) h
  exact ite_pwr (sys_pwr (refreshHold_sys rfl) (showGates_pwr (setGate_pwr (sys_pwr (creditUpdate_sys rfl) h))))
    (iteThen_pwr (sys_pwr (creditUpdate_sys rfl) h) fun h1 => sys_pwr (refreshHold_sys rfl) (showGates_pwr (setGate_pwr (countCycles_pwr h1))))

theorem showOper_pwr {p : Nat} {l : List (Nat × Nat)} (h : HasPwr pv s) : HasPwr pv (showOper p l s) :=
  applyAll_pwr (fun _ _ h => setF_pwr h) h

theorem execGateConfigChange_pwr {p : Nat} (h : HasPwr pv s) : NextPwr pv (execGateConfigChange p s) := by
  refine ⟨_, rfl, ?_⟩
  split
  · exact h
  · exact sys_pwr (refreshHold_sys rfl) (showGates_pwr (showOper_pwr (setB_pwr (setGate_pwr (countCycles_pwr (sys_pwr (creditUpdate_sys rfl) h))))))

theorem execGateHoldDiscard_pwr {p c : Nat} (h : HasPwr pv s) : NextPwr pv (execGateHoldDiscard p c s) := by
  refine ⟨_, rfl, ?_⟩
  dsimp only
  refine onlyIf_pwr (fun _ h => ?_) h
  split
  · exact h
  · exact ite_pwr h (sys_pwr (refreshHold_sys rfl) (sys_pwr (creditUpdate_sys rfl) (raise_pwr (incF_pwr (sys_pwr (discard_sys rfl) (sys_pwr
      (setQueue_sys rfl) (sys_pwr (creditUpdate_sys rfl) h)))))))

/-! ## The functions of Machine/RegFind.lean -/

theorem clearRead_eq_self {d : RegDesc} {a : Nat} (hd : ∀ f ∈ d.fields, f.acc ≠ .rc) : clearRead d a s = s := by
  unfold clearRead applyAll
  generalize d.fields = l at hd
  induction l with
  | nil => rfl
  | cons f r ih =>
    obtain ⟨hf, hr⟩ := List.forall_mem_cons.1 hd
    simpa [hf] using ih hr

/-- The tables of SYS, CKR and PWR hold no counter that a read clears. -/
theorem not_rc_of_findReg {a : Nat} {d : RegDesc} (ha : a < 0x40030000) (e : findReg a s = some d) : ∀ f ∈ d.fields, f.acc ≠ .rc := by
  have htile : tileWindow a = false := by simp [tileWindow]; omega
  have hport : portWindow a = false := by simp [portWindow]; omega
  have hlow : ∀ t ∈ [regTableSYS, regTableCKR, regTablePWR], ∀ d ∈ t, ∀ f ∈ d.fields, f.acc ≠ .rc := by decide
  simp only [findReg, htile, hport, Bool.false_eq_true, if_false] at e
  split at e
  · next hwin =>
    obtain ⟨t, ht, hd⟩ := List.exists_of_findSome?_eq_some e
    have hblock : (a - 0x40000000) / 0x10000 < 3 := by omega
    have htab : t ∈ [regTableSYS, regTableCKR, regTablePWR] := by
      have hq : (a - 0x40000000) / 0x10000 = 0 ∨ (a - 0x40000000) / 0x10000 = 1 ∨ (a - 0x40000000) / 0x10000 = 2 := by omega
      rcases hq with hq | hq | hq <;> simp_all [blockTables]
    exact hlow t htab d (List.mem_of_find?_eq_some hd)
  · simp at e

theorem clearRead_pwr {d : RegDesc} {a : Nat} {s' : State} (e : findReg a s' = some d) (h : HasPwr pv s) : HasPwr pv (clearRead d a s) := by
  by_cases ha : 0x40030000 ≤ a
  · exact applyAll_pwr (fun _ _ h => ite_pwr (setF_pwr h ha) h) h
  · rwa [clearRead_eq_self (not_rc_of_findReg (Nat.lt_of_not_le ha) e)]

/-! ## The functions of Machine/Rings.lean -/

theorem addFilling_pwr {k p : Nat} (h : HasPwr pv s) : HasPwr pv (addFilling k p s) :=
  sys_pwr (setFilling_sys rfl) h

theorem noPage_pwr {reason : Nat} {r : PageReq} (h : HasPwr pv s) : HasPwr pv (noPage reason r s) :=
  ite_pwr h (iteElse_pwr (sys_pwr (freePages_sys rfl) (sys_pwr (setFilling_sys rfl) h)) fun h1 => countDrop_pwr h1)

theorem turnPast_pwr {l : List PageReq} (h : HasPwr pv s) : HasPwr pv (turnPast l s) := by
  unfold turnPast
  split
  · exact h.upd rfl
  · exact h

theorem loses_pwr {s0 : State} {r : PageReq} (h : HasPwr pv s) : HasPwr pv (loses s0 r s) := by
  unfold loses
  split
  · exact noPage_pwr h
  · exact noPage_pwr h
  · exact h

theorem execPageRequest_pwr {reqs : List PageReq} (h : HasPwr pv s) : NextPwr pv (execPageRequest reqs s) := by
  refine ⟨_, rfl, ?_⟩
  dsimp only
  split
  · exact applyAll_pwr (fun _ _ h => loses_pwr h) (turnPast_pwr h)
  · split
    · exact turnPast_pwr h
    · exact retryHold_pwr (applyAll_pwr (fun _ _ h => loses_pwr h) (addFilling_pwr (sys_pwr (grantPage_sys rfl) (turnPast_pwr h))))

theorem pgRefuse_pwr {why : Nat} (h : HasPwr pv s) : HasPwr pv (pgRefuse why s) :=
  setB_pwr (setB_pwr (setF_pwr h))

theorem cmdInkPgreq_pwr {rq : Requester} {w : Word} (h : HasPwr pv s) : HasPwr pv (cmdInkPgreq rq w s) := by
  unfold cmdInkPgreq
  dsimp only
  refine ite_pwr (busError_pwr h) ?_
  split
  · exact pgRefuse_pwr (busDone_pwr h)
  · refine ite_pwr (pgRefuse_pwr (busDone_pwr h)) (ite_pwr (pgRefuse_pwr (countFull_pwr (busDone_pwr h))) ?_)
    split
    · exact pgRefuse_pwr (busDone_pwr h)
    · next e3 =>
      exact setB_pwr (setB_pwr (setF_pwr (setF_pwr (sys_pwr (linkPages_sys rfl)
        (grantLease_pwr (sys_pwr (takePages_sys rfl) (sys_pwr (freePages_sys rfl) (sys_pwr (setFilling_sys rfl) (busDone_pwr h)))) e3)))))

theorem execInkPgreq_pwr {rq : Requester} {w : Word} (h : HasPwr pv s) : NextPwr pv (execInkPgreq rq w s) :=
  ⟨_, rfl, gate_pwr (fun _ h => cmdInkPgreq_pwr h) h⟩

theorem cmdInkPgfree_pwr {rq : Requester} {n : Nat} (h : HasPwr pv s) : HasPwr pv (cmdInkPgfree rq n s) :=
  ite_pwr (busDone_pwr (sys_pwr (setLease_sys rfl) (sys_pwr (freePages_sys rfl) h))) (busError_pwr h)

theorem execInkPgfree_pwr {rq : Requester} {n : Nat} (h : HasPwr pv s) : NextPwr pv (execInkPgfree rq n s) :=
  ⟨_, rfl, gate_pwr (fun _ h => cmdInkPgfree_pwr h) h⟩

theorem execPageWindowAccess_pwr {rq : Requester} {a size : Nat} {v : Option Word} (h : HasPwr pv s) :
    NextPwr pv (execPageWindowAccess rq a size v s) := by
  refine ⟨_, rfl, ?_⟩
  refine ite_pwr (busError_pwr h) (ite_pwr (violate_pwr h) ?_)
  split
  · exact ite_pwr (busData_pwr h) (busData_pwr h)
  · exact ite_pwr (busDone_pwr (sys_pwr (wrBytes_sys rfl) h)) (ite_pwr (busError_pwr h) (busDone_pwr (h.upd rfl)))

theorem ringFault_pwr {r a : Nat} {write : Bool} (h : HasPwr pv s) : HasPwr pv (ringFault r a write s) :=
  violation_pwr (setB_pwr (setB_pwr h))

theorem ringStep_pwr {r n : Nat} {k : Nat} {q : List Replica} {a : Nat} {b : List Byte} {x : SwcState} (h : HasPwr pv s) :
    HasPwr pv { setF (SWC_RTAIL_idx r) n (setQueue k q (wrBytes a b s)) with swc := x } := by
  have h2 : HasPwr pv (setF (SWC_RTAIL_idx r) n (setQueue k q (wrBytes a b s))) := setF_pwr (sys_pwr (setQueue_sys rfl) (sys_pwr (wrBytes_sys rfl) h))
  exact h2.upd rfl

theorem execReceiveRingWrite_pwr {r : Nat} (h : HasPwr pv s) : NextPwr pv (execReceiveRingWrite r s) := by
  refine ⟨_, rfl, ite_pwr h ?_⟩
  split
  · exact h
  · extract_lets a w st n finish
    have hfinish (w8 : Nat) {t : State} (ht : HasPwr pv t) : HasPwr pv (finish w8 t) := by
      unfold finish
      exact ringStep_pwr ht
    clear_value finish
    refine ite_pwr (ringFault_pwr h) (ite_pwr (hfinish _ h) ?_)
    split
    · exact countFull_pwr h
    · next e => exact hfinish _ (grantLease_pwr h e)

theorem execRingInterrupt_pwr {r : Nat} (h : HasPwr pv s) : NextPwr pv (execRingInterrupt r s) :=
  ⟨_, rfl, onlyIf_pwr (fun _ h => ite_pwr (h.upd rfl) (sys_pwr (emit_sys rfl) (h.upd rfl))) h⟩

theorem directed_pwr {f : Flow} {m : Nat} (h : HasPwr pv s) : HasPwr pv (directed f m s) := by
  unfold directed
  split
  · refine ite_pwr ?_ (sys_pwr (replicate_sys rfl) h)
    split
    · next e2 => exact sys_pwr (replicate_sys rfl) ((sys_pwr (policeStage_sys rfl) h).of_eq e2)
    · next e2 => exact (sys_pwr (policeStage_sys rfl) h).of_eq e2
  · exact sys_pwr (replicate_sys rfl) h

theorem ringAdvance_pwr {r : Nat} (h : HasPwr pv s) : HasPwr pv (ringAdvance r s) :=
  setF_pwr h

theorem execTransmitSlotProcess_pwr {r : Nat} (h : HasPwr pv s) : NextPwr pv (execTransmitSlotProcess r s) := by
  refine ⟨_, rfl, ?_⟩
  dsimp only
  refine ite_pwr h (ite_pwr (ringFault_pwr h) ?_)
  split
  · exact ringAdvance_pwr (incF_pwr h)
  · exact ite_pwr (ringAdvance_pwr (incF_pwr h)) (ite_pwr (directed_pwr
      (sys_pwr (ingressCopy_sys rfl) (sys_pwr (swBump_sys rfl) (sys_pwr (swBump_sys rfl) (ringAdvance_pwr (sys_pwr (setLease_sys rfl) (sys_pwr
        (linkPages_sys rfl) (sys_pwr (freePages_sys rfl) h))))))))
      (sys_pwr (enterPipeline_sys rfl) (ringAdvance_pwr (sys_pwr (setLease_sys rfl) (sys_pwr (linkPages_sys rfl) (sys_pwr (freePages_sys rfl) h))))))

theorem cmdSwcSnap_pwr {rq : Requester} {w : Word} (h : HasPwr pv s) : HasPwr pv (cmdSwcSnap rq w s) :=
  ite_pwr (busError_pwr h) (busDone_pwr (setF_pwr (setB_pwr (iteElse_pwr (applyAll_pwr (fun _ _ h => setF_pwr (setF_pwr h)) h)
    fun h1 => h1.upd rfl))))

theorem execSwcSnap_pwr {rq : Requester} {w : Word} (h : HasPwr pv s) : NextPwr pv (execSwcSnap rq w s) :=
  ⟨_, rfl, gate_pwr (fun _ h => cmdSwcSnap_pwr h) h⟩

theorem lockTake_pwr {blk : Nat} {busy lease : Fld} {blocked : Bool} {rq : Requester} (h : HasPwr pv s)
    (hbusy : 0x40030000 ≤ busy.addr := by decide) (hlease : 0x40030000 ≤ lease.addr := by decide) : HasPwr pv
      (lockTake blk busy lease blocked rq s) := by
  unfold lockTake
  extract_lets s0
  have hs0 : HasPwr pv s0 := busDone_pwr h
  split
  · exact ite_pwr (setB_pwr hs0 hbusy) (setB_pwr hs0 hbusy)
  · refine ite_pwr (setB_pwr hs0 hbusy) ?_
    split
    · next e2 => exact setF_pwr (setB_pwr (grantLease_pwr hs0 e2) hbusy) hlease
    · exact setB_pwr (countFull_pwr hs0) hbusy

theorem cmdSwcLockTake_pwr {rq : Requester} (h : HasPwr pv s) : HasPwr pv (cmdSwcLockTake rq s) :=
  lockTake_pwr h

theorem execSwcLockTake_pwr {rq : Requester} (h : HasPwr pv s) : NextPwr pv (execSwcLockTake rq s) :=
  ⟨_, rfl, gate_pwr (fun _ h => cmdSwcLockTake_pwr h) h⟩

theorem cmdFwtLockTake_pwr {rq : Requester} (h : HasPwr pv s) : HasPwr pv (cmdFwtLockTake rq s) :=
  lockTake_pwr h

theorem execFwtLockTake_pwr {rq : Requester} (h : HasPwr pv s) : NextPwr pv (execFwtLockTake rq s) :=
  ⟨_, rfl, gate_pwr (fun _ h => cmdFwtLockTake_pwr h) h⟩

theorem swcDiscard_pwr (h : HasPwr pv s) : HasPwr pv (swcDiscard s) :=
  h.upd rfl

/-! ## The functions of Machine/Keys.lean -/

theorem kstWrite_pwr {rq : Requester} {a : Nat} {g : State → State} (hg : ∀ s, HasPwr pv s → HasPwr pv (g s)) (h : HasPwr pv s) :
    HasPwr pv (kstWrite rq a g s) :=
  ite_pwr (hg _ h) (violate_pwr h)

theorem kstKeyed_pwr {rq : Requester} {a key : Nat} {g : State → State} (hg : ∀ s, HasPwr pv s → HasPwr pv (g s)) (h : HasPwr pv s) :
    HasPwr pv (kstKeyed rq a key g s) :=
  kstWrite_pwr (fun _ h => ite_pwr (hg _ (busDone_pwr h)) (busError_pwr h)) h

theorem unitViolation_pwr {a : Nat} {w : World} {write : Bool} (h : HasPwr pv s) : HasPwr pv (unitViolation a w write s) :=
  violation_pwr (h.upd rfl)

theorem drbgReseed_pwr (h : HasPwr pv s) : HasPwr pv (drbgReseed s) :=
  ite_pwr h (incF_pwr (h.upd rfl))

theorem drbgCall_pwr (h : HasPwr pv s) : HasPwr pv (drbgCall s).2 :=
  ite_pwr (drbgReseed_pwr (h.upd rfl)) (h.upd rfl)

theorem drbgBytes_pwr {n : Nat} (h : HasPwr pv s) : HasPwr pv (drbgBytes n s).2 := by
  induction n generalizing s with
  | zero => exact h
  | succ n ih => exact ih (drbgCall_pwr h)

theorem setNode_pwr {n : Nat} {v : Node} (h : HasPwr pv s) : HasPwr pv (setNode n v s) :=
  sys_pwr (storeWrite_sys rfl) (h.upd rfl)

theorem nodeRefuse_pwr {why : Option Nat} (h : HasPwr pv s) : HasPwr pv (nodeRefuse why s) := by
  unfold nodeRefuse
  split
  · exact setF_pwr (setB_pwr (setB_pwr h))
  · exact setFree_pwr (setB_pwr (setB_pwr h))

theorem nodeDone_pwr (h : HasPwr pv s) : HasPwr pv (nodeDone s) :=
  setB_pwr (setB_pwr h)

theorem cmdNodeCreate_pwr {rq : Requester} {key parent : Nat} (h : HasPwr pv s) : HasPwr pv (cmdNodeCreate rq key parent s) := by
  refine kstKeyed_pwr (fun _ h => ite_pwr (nodeRefuse_pwr h) (ite_pwr (nodeRefuse_pwr h) (ite_pwr (nodeRefuse_pwr h) ?_))) h
  split
  · exact nodeRefuse_pwr h
  · exact nodeDone_pwr (setF_pwr (setNode_pwr (iteSnd_pwr h (h.upd rfl))))

theorem execNodeCreate_pwr {rq : Requester} {key parent : Nat} (h : HasPwr pv s) : NextPwr pv (execNodeCreate rq key parent s) :=
  ⟨_, rfl, gate_pwr (fun _ h => cmdNodeCreate_pwr h) h⟩

theorem orphanBelow_pwr {n : Nat} (h : HasPwr pv s) : HasPwr pv (orphanBelow n s) :=
  applyAll_pwr (fun _ _ h => setNode_pwr h) h

theorem setSlot_pwr {k : Nat} {v : KeySlot} (h : HasPwr pv s) : HasPwr pv (setSlot k v s) :=
  h.upd rfl

theorem cmdNodeInvalidate_pwr {rq : Requester} {key node : Nat} (h : HasPwr pv s) : HasPwr pv (cmdNodeInvalidate rq key node s) :=
  kstKeyed_pwr (fun _ h => ite_pwr (nodeRefuse_pwr h) (ite_pwr (nodeRefuse_pwr h)
    (ite_pwr (nodeRefuse_pwr h) (iteThen_pwr (nodeDone_pwr (setF_pwr
    (applyAll_pwr (fun _ _ h => setSlot_pwr h) (setNode_pwr (orphanBelow_pwr h))))) fun h1 => raise_pwr h1)))) h

theorem execNodeInvalidate_pwr {rq : Requester} {key node : Nat} (h : HasPwr pv s) : NextPwr pv (execNodeInvalidate rq key node s) :=
  ⟨_, rfl, gate_pwr (fun _ h => cmdNodeInvalidate_pwr h) h⟩

theorem cmdNodeFree_pwr {rq : Requester} {key node : Nat} (h : HasPwr pv s) : HasPwr pv (cmdNodeFree rq key node s) :=
  kstKeyed_pwr (fun _ h => ite_pwr (nodeRefuse_pwr h) (ite_pwr (nodeRefuse_pwr h) (nodeDone_pwr (setNode_pwr h)))) h

theorem execNodeFree_pwr {rq : Requester} {key node : Nat} (h : HasPwr pv s) : NextPwr pv (execNodeFree rq key node s) :=
  ⟨_, rfl, gate_pwr (fun _ h => cmdNodeFree_pwr h) h⟩

theorem execSlotWipe_pwr {k : Nat} (h : HasPwr pv s) : NextPwr pv (execSlotWipe k s) :=
  ⟨_, rfl, onlyIf_pwr (fun _ h => applyAll_pwr (fun _ _ h => sys_pwr (declare_sys rfl) h) (setSlot_pwr h)) h⟩

theorem loadReject_pwr {why user idx : Nat} (h : HasPwr pv s) : HasPwr pv (loadReject why user idx s) :=
  ite_pwr (raiseOnce_pwr (incF_pwr (setF_pwr (setF_pwr (setF_pwr (incF_pwr h))))))
    (raiseOnce_pwr (setF_pwr (setF_pwr (setF_pwr (incF_pwr h)))))

theorem shelfPut_pwr {i : Nat} {b : List Byte} {t : State} (h : HasPwr pv s) (e : shelfPut i b s = some t) : HasPwr pv t := by
  obtain ⟨o, -, rfl⟩ := Option.map_eq_some_iff.1 e
  exact applyAll_pwr (fun _ _ h => sys_pwr (storeWrite_sys rfl) h) (sys_pwr (storeWrite_sys rfl) (h.upd rfl))

theorem shelfResult_pwr {refused : Bool} (h : HasPwr pv s) : HasPwr pv (shelfResult refused s) :=
  setB_pwr (setB_pwr h)

theorem cmdShelfWrite_pwr {rq : Requester} {key idx : Nat} (h : HasPwr pv s) : HasPwr pv (cmdShelfWrite rq key idx s) := by
  refine kstKeyed_pwr (fun _ h => ite_pwr (shelfResult_pwr h) ?_) h
  split
  · next e1 => exact shelfResult_pwr (shelfPut_pwr h e1)
  · exact shelfResult_pwr h

theorem execShelfWrite_pwr {rq : Requester} {key idx : Nat} (h : HasPwr pv s) : NextPwr pv (execShelfWrite rq key idx s) :=
  ⟨_, rfl, gate_pwr (fun _ h => cmdShelfWrite_pwr h) h⟩

theorem cmdShelfErase_pwr {rq : Requester} {key idx : Nat} (h : HasPwr pv s) : HasPwr pv (cmdShelfErase rq key idx s) :=
  kstKeyed_pwr (fun _ h => shelfResult_pwr (sys_pwr (storeWrite_sys rfl) (h.upd rfl))) h

theorem execShelfErase_pwr {rq : Requester} {key idx : Nat} (h : HasPwr pv s) : NextPwr pv (execShelfErase rq key idx s) :=
  ⟨_, rfl, gate_pwr (fun _ h => cmdShelfErase_pwr h) h⟩

theorem pickOf_pwr {l : List Nat} (h : HasPwr pv s) : HasPwr pv (pickOf l s).2 :=
  h.upd rfl

theorem slotFor_pwr {t : State} {k : Nat} (h : HasPwr pv s) (e : slotFor s = some (k, t)) : HasPwr pv t := by
  unfold slotFor at e
  dsimp only at e
  split at e
  · exact (pickOf_pwr h).of_eq (Option.some.inj e)
  · split at e
    · cases e
    · cases e; exact h

theorem touchSlot_pwr {k : Nat} (h : HasPwr pv s) : HasPwr pv (touchSlot k s) :=
  setSlot_pwr (h.upd rfl)

theorem placeKey_pwr {b : List Byte} {idx k : Nat} {t : State} (h : HasPwr pv s) (e : placeKey b idx s = .inr (k, t)) : HasPwr pv t := by
  unfold placeKey at e
  split at e
  · cases e; exact touchSlot_pwr h
  · split at e
    · cases e
    · split at e
      · cases e
      · split at e
        · cases e
        · next hs => cases e; exact touchSlot_pwr (setSlot_pwr (slotFor_pwr h hs))

theorem hwLoad_pwr {user h need : Nat} (hs : HasPwr pv s) : HasPwr pv (hwLoad user h need s).2 := by
  unfold hwLoad
  dsimp only
  split
  · exact loadReject_pwr hs
  · split
    · exact loadReject_pwr hs
    · split
      · exact loadReject_pwr hs
      · next e2 => exact placeKey_pwr hs e2

theorem loadRefuse_pwr {w : World} {why idx : Nat} (h : HasPwr pv s) : HasPwr pv (loadRefuse w why idx s) :=
  setB_pwr (setB_pwr (setF_pwr (loadReject_pwr h)))

theorem cmdKeyLoad_pwr {rq : Requester} {w : Word} (h : HasPwr pv s) : HasPwr pv (cmdKeyLoad rq w s) := by
  unfold cmdKeyLoad
  extract_lets wd ns src s0 idx start n
  have hs0 : HasPwr pv s0 := setB_pwr (setB_pwr (busDone_pwr h))
  have hstart (b : List Byte) : HasPwr pv (start b s0) := by
    unfold start
    split
    · exact loadRefuse_pwr hs0
    · exact hs0.upd rfl
  refine ite_pwr (busDone_pwr h) (ite_pwr (loadRefuse_pwr hs0) (ite_pwr (ite_pwr (loadRefuse_pwr (violation_pwr hs0))
    (hstart _)) ?_))
  split
  · exact loadRefuse_pwr hs0
  · exact hstart _

theorem execKeyLoad_pwr {rq : Requester} {w : Word} (h : HasPwr pv s) : NextPwr pv (execKeyLoad rq w s) :=
  ⟨_, rfl, gate_pwr (fun _ h => cmdKeyLoad_pwr h) h⟩

theorem execKeyLoadDone_pwr (h : HasPwr pv s) : NextPwr pv (execKeyLoadDone s) := by
  refine ⟨_, rfl, ?_⟩
  split
  · exact h
  · extract_lets wd _ s0
    have hs0 : HasPwr pv s0 := h.upd rfl
    split
    · exact loadRefuse_pwr hs0
    · next e1 =>
        split
        · exact setB_pwr (setB_pwr (setFree_pwr (countFull_pwr (placeKey_pwr hs0 e1))))
        · next e2 => exact setB_pwr (setF_pwr (setF_pwr (grantLease_pwr (placeKey_pwr hs0 e1) e2)))

theorem wrapRefuse_pwr (h : HasPwr pv s) : HasPwr pv (wrapRefuse s) :=
  setB_pwr (setB_pwr h)

theorem cmdWrap_pwr {rq : Requester} {w : Word} (h : HasPwr pv s) : HasPwr pv (cmdWrap rq w s) := by
  refine kstWrite_pwr (fun s h => ite_pwr (busDone_pwr h) ?_) h
  extract_lets kt node src us out inA s0 r bits n s1 c nonce hdr t
  have hs0 : HasPwr pv s0 := setB_pwr (setB_pwr (busDone_pwr h))
  have hs1 : HasPwr pv s1 := ite_pwr (drawFree_pwr hs0) hs0
  have hc : HasPwr pv c.2 := iteSnd_pwr (drbgBytes_pwr hs1) hs1
  have ht : HasPwr pv t := drawFree_pwr hc
  exact ite_pwr (wrapRefuse_pwr hs0) (ht.upd rfl)

theorem execWrap_pwr {rq : Requester} {w : Word} (h : HasPwr pv s) : NextPwr pv (execWrap rq w s) :=
  ⟨_, rfl, gate_pwr (fun _ h => cmdWrap_pwr h) h⟩

theorem execWrapDone_pwr (h : HasPwr pv s) : NextPwr pv (execWrapDone s) := by
  refine ⟨_, rfl, ?_⟩
  dsimp only
  split
  · exact h
  · refine ite_pwr (wrapRefuse_pwr (h.upd rfl)) ?_
    split
    · exact setB_pwr (sys_pwr (wrBytes_sys rfl) (h.upd rfl))
    · split
      · next e3 =>
        refine setB_pwr (shelfPut_pwr (sys_pwr (wrBytes_sys rfl) ?_) e3)
        exact h.upd rfl
      · exact wrapRefuse_pwr (sys_pwr (wrBytes_sys rfl) (h.upd rfl))

theorem cmdLifecycleArm_pwr {rq : Requester} {key target : Nat} (h : HasPwr pv s) : HasPwr pv (cmdLifecycleArm rq key target s) :=
  kstKeyed_pwr (fun _ h => setB_pwr (h.upd rfl)) h

theorem execLifecycleArm_pwr {rq : Requester} {key target : Nat} (h : HasPwr pv s) : NextPwr pv (execLifecycleArm rq key target s) :=
  ⟨_, rfl, gate_pwr (fun _ h => cmdLifecycleArm_pwr h) h⟩

theorem cmdLifecycleCommit_pwr {rq : Requester} {key target : Nat} (h : HasPwr pv s) : HasPwr pv (cmdLifecycleCommit rq key target s) := by
  refine kstKeyed_pwr (fun _ h => ?_) h
  extract_lets tgt refuse _ s1 _
  have hs1 : HasPwr pv s1 := setB_pwr (h.upd rfl)
  refine ite_pwr (setB_pwr (setF_pwr hs1)) (ite_pwr (setB_pwr (setF_pwr hs1)) ?_)
  split
  · exact ite_pwr (hs1.upd rfl) (setB_pwr (setF_pwr hs1))
  · exact setB_pwr (setF_pwr hs1)

theorem execLifecycleCommit_pwr {rq : Requester} {key target : Nat} (h : HasPwr pv s) : NextPwr pv (execLifecycleCommit rq key target s) :=
  ⟨_, rfl, gate_pwr (fun _ h => cmdLifecycleCommit_pwr h) h⟩

theorem ikResult_pwr {why : Option Nat} (h : HasPwr pv s) : HasPwr pv (ikResult why s) := by
  unfold ikResult
  split
  · exact setB_pwr (setB_pwr (setF_pwr h))
  · exact setB_pwr (setB_pwr h)

theorem cmdImageKeyProgram_pwr {rq : Requester} {key slot : Nat} (h : HasPwr pv s) : HasPwr pv (cmdImageKeyProgram rq key slot s) :=
  ite_pwr (violate_pwr h) (ite_pwr (busError_pwr h) (ite_pwr (ikResult_pwr (busDone_pwr h))
    (ikResult_pwr (busDone_pwr (h.upd rfl)))))

theorem execImageKeyProgram_pwr {rq : Requester} {key slot : Nat} (h : HasPwr pv s) : NextPwr pv (execImageKeyProgram rq key slot s) :=
  ⟨_, rfl, gate_pwr (fun _ h => cmdImageKeyProgram_pwr h) h⟩

theorem cmdImageKeyRevoke_pwr {rq : Requester} {key slot : Nat} (h : HasPwr pv s) : HasPwr pv (cmdImageKeyRevoke rq key slot s) :=
  ite_pwr (violate_pwr h) (ite_pwr (busError_pwr h) (ite_pwr (ikResult_pwr (busDone_pwr h))
    (ite_pwr (ikResult_pwr (busDone_pwr h)) (ikResult_pwr (busDone_pwr (h.upd rfl))))))

theorem execImageKeyRevoke_pwr {rq : Requester} {key slot : Nat} (h : HasPwr pv s) : NextPwr pv (execImageKeyRevoke rq key slot s) :=
  ⟨_, rfl, gate_pwr (fun _ h => cmdImageKeyRevoke_pwr h) h⟩

theorem cmdFloorSet_pwr {rq : Requester} {w : Word} (h : HasPwr pv s) : HasPwr pv (cmdFloorSet rq w s) :=
  kstWrite_pwr (fun _ h => ite_pwr (busError_pwr h) (busDone_pwr (sys_pwr (storeWrite_sys rfl) (h.upd rfl)))) h

theorem execFloorSet_pwr {rq : Requester} {w : Word} (h : HasPwr pv s) : NextPwr pv (execFloorSet rq w s) :=
  ⟨_, rfl, gate_pwr (fun _ h => cmdFloorSet_pwr h) h⟩

theorem cmdWldLock_pwr {rq : Requester} {w : Word} (h : HasPwr pv s) : HasPwr pv (cmdWldLock rq w s) :=
  ite_pwr (busDone_pwr (orF_pwr h)) (violate_pwr h)

theorem execWldLock_pwr {rq : Requester} {w : Word} (h : HasPwr pv s) : NextPwr pv (execWldLock rq w s) :=
  ⟨_, rfl, gate_pwr (fun _ h => cmdWldLock_pwr h) h⟩

theorem execSecureCall_pwr {core : Nat} (h : HasPwr pv s) : NextPwr pv (execSecureCall core s) :=
  ⟨_, rfl, ite_pwr (sys_pwr (emit_sys rfl) h) (sys_pwr (emit_sys rfl) h)⟩

theorem execBoundaryScanInstruction_pwr {i : ScanInstr} (h : HasPwr pv s) : NextPwr pv (execBoundaryScanInstruction i s) := by
  refine ⟨_, rfl, ?_⟩
  split
  · exact sys_pwr (emit_sys rfl) (h.upd rfl)
  · exact h.upd rfl

/-! ## The functions of Machine/Crypto.lean -/

theorem laneFault_pwr {l : Nat} (h : HasPwr pv s) : HasPwr pv (laneFault l s) :=
  iteElse_pwr (raise_pwr (setB_pwr (setF_pwr (clrF_pwr h)))) fun h1 => raise_pwr (setB_pwr h1)

theorem hwRuns_pwr {n bad : Nat} (h : HasPwr pv s) : HasPwr pv (hwRuns n bad s).2 := by
  induction n generalizing bad s with
  | zero => exact h
  | succ n ih => exact iteSnd_pwr h (iteSnd_pwr h (ih (laneFault_pwr (pickOf_pwr h))))

theorem hwCmac_pwr {key msg : List Byte} {bad : Nat} (h : HasPwr pv s) : HasPwr pv (hwCmac key msg bad s).2 :=
  hwRuns_pwr (incF_pwr h)

theorem ckvTaken_pwr {r : Nat} (h : HasPwr pv s) : HasPwr pv (ckvTaken r s) :=
  ite_pwr (h.upd rfl) (h.upd rfl)

theorem ckvRingFault_pwr {r a : Nat} {write : Bool} (h : HasPwr pv s) : HasPwr pv (ckvRingFault r a write s) :=
  unitViolation_pwr (setB_pwr (setB_pwr h))

theorem ckvInterrupt_pwr {r : Nat} (h : HasPwr pv s) : HasPwr pv (ckvInterrupt r s) :=
  ite_pwr (h.upd rfl) (sys_pwr (emit_sys rfl) h)

theorem ckvRetire_pwr {n r : Nat} (h : HasPwr pv s) : HasPwr pv (ckvRetire n r s) := by
  induction n generalizing s with
  | zero => exact h
  | succ n ih =>
    unfold ckvRetire
    dsimp only
    split
    · exact h
    · exact ite_pwr (ckvRingFault_pwr (h.upd rfl))
        (ih (iteElse_pwr (setF_pwr (sys_pwr (wrBytes_sys rfl) (h.upd rfl))) fun h1 => ckvInterrupt_pwr h1))

theorem ckvEnd_pwr {j : CkvJob} {res : Nat} (h : HasPwr pv s) : HasPwr pv (ckvEnd j res s) :=
  ckvRetire_pwr ((ite_pwr (incF_pwr (incF_pwr h)) (incF_pwr h)).upd rfl)

theorem ckvStart_pwr {l : Nat} {j : CkvJob} (h : HasPwr pv s) : HasPwr pv (ckvStart l j s) :=
  orF_pwr ((ite_pwr h (touchSlot_pwr (setSlot_pwr h))).upd rfl)

theorem ckvFetch_pwr {r : Nat} (h : HasPwr pv s) : HasPwr pv (ckvFetch r s).2 :=
  iteSnd_pwr (ckvRingFault_pwr h) (ckvTaken_pwr (h.upd rfl))

theorem cmdCkvRingTail_pwr {rq : Requester} {ns : Nat} {w : Word} (h : HasPwr pv s) : HasPwr pv (cmdCkvRingTail rq ns w s) :=
  ite_pwr (violate_pwr h) (busDone_pwr (setF_pwr h))

theorem execCkvRingTail_pwr {rq : Requester} {ns : Nat} {w : Word} (h : HasPwr pv s) : NextPwr pv (execCkvRingTail rq ns w s) :=
  ⟨_, rfl, gate_pwr (fun _ h => cmdCkvRingTail_pwr h) h⟩

theorem execCkvDispatch_pwr {l : Nat} (h : HasPwr pv s) : NextPwr pv (execCkvDispatch l s) := by
  refine ⟨_, rfl, ?_⟩
  refine ite_pwr ?_ (ite_pwr h ?_)
  · split
    · exact ckvEnd_pwr (h.upd rfl)
    · split
      · exact h
      · split
        · next e3 => exact (ckvFetch_pwr h).of_eq e3
        · next e3 => exact ckvEnd_pwr ((ckvFetch_pwr h).of_eq e3)
  · split
    · exact ckvStart_pwr (h.upd rfl)
    · refine ite_pwr h ?_
      split
      · exact h
      · split
        · next e4 => exact (ckvFetch_pwr h).of_eq e4
        · next e4 =>
            split
            · exact ckvEnd_pwr ((ckvFetch_pwr h).of_eq e4)
            · exact ckvStart_pwr ((ckvFetch_pwr h).of_eq e4)

theorem slotRelease_pwr {k : Nat} (h : HasPwr pv s) : HasPwr pv (slotRelease k s) :=
  setSlot_pwr h

theorem ckvRelease_pwr {j : CkvJob} (h : HasPwr pv s) : HasPwr pv (ckvRelease j s) :=
  iteThen_pwr (ckvEnd_pwr (slotRelease_pwr h)) fun h1 => ite_pwr (ite_pwr (ckvEnd_pwr (sys_pwr (wrBytes_sys rfl) (slotRelease_pwr h))) h1)
    (ite_pwr h1 (ckvEnd_pwr (slotRelease_pwr h)))

theorem execCkvJobDone_pwr {l : Nat} {agree : Bool} (h : HasPwr pv s) : NextPwr pv (execCkvJobDone l agree s) := by
  refine ⟨_, rfl, ?_⟩
  split
  · exact h
  · extract_lets _ s0 s1 _
    have hs0 : HasPwr pv s0 := clrF_pwr (h.upd rfl)
    have hs1 : HasPwr pv s1 := laneFault_pwr hs0
    exact ite_pwr (ckvRelease_pwr hs0) (ite_pwr (ckvEnd_pwr (slotRelease_pwr hs1)) (hs1.upd rfl))

theorem pkeStore_pwr {o : Nat} {b : List Byte} (h : HasPwr pv s) : HasPwr pv (pkeStore o b s) := by
  induction b generalizing o s with
  | nil => exact h
  | cons x r ih => exact ih (h.upd rfl)

theorem pkeWrite_pwr {k : Nat} {b : List Byte} (h : HasPwr pv s) : HasPwr pv (pkeWrite k b s) :=
  pkeStore_pwr h

theorem pkeWipe_pwr {k : Nat} (h : HasPwr pv s) : HasPwr pv (pkeWipe k s) :=
  pkeWrite_pwr h

theorem pkeWipeSecret_pwr (h : HasPwr pv s) : HasPwr pv (pkeWipeSecret s) :=
  applyAll_pwr (fun _ _ h => pkeWipe_pwr h) h

theorem pkeWipeAll_pwr (h : HasPwr pv s) : HasPwr pv (pkeWipeAll s) :=
  h.upd rfl

theorem cmdPkeSlenWrite_pwr {rq : Requester} {k : Nat} {w : Word} (h : HasPwr pv s) : HasPwr pv (cmdPkeSlenWrite rq k w s) :=
  ite_pwr (busError_pwr h) (busDone_pwr (setF_pwr (setF_pwr (pkeWipeAll_pwr h))))

theorem execPkeSlenWrite_pwr {rq : Requester} {k : Nat} {w : Word} (h : HasPwr pv s) : NextPwr pv (execPkeSlenWrite rq k w s) :=
  ⟨_, rfl, gate_pwr (fun _ h => cmdPkeSlenWrite_pwr h) h⟩

theorem cmdPkeOpdataAccess_pwr {rq : Requester} {v : Option Word} (h : HasPwr pv s) : HasPwr pv (cmdPkeOpdataAccess rq v s) := by
  refine ite_pwr (busError_pwr h) ?_
  split
  · exact busData_pwr (setF_pwr h)
  · exact busDone_pwr (pkeStore_pwr (setF_pwr h))

theorem execPkeOpdataAccess_pwr {rq : Requester} {v : Option Word} (h : HasPwr pv s) : NextPwr pv (execPkeOpdataAccess rq v s) :=
  ⟨_, rfl, gate_pwr (fun _ h => cmdPkeOpdataAccess_pwr h) h⟩

theorem pkeBlob_pwr {rq : Requester} {byaddr : Bool} (h : HasPwr pv s) : HasPwr pv (pkeBlob rq byaddr s).2.2 :=
  iteSnd₂_pwr (iteSnd₂_pwr h (violation_pwr h)) h

theorem pkeKey_pwr {rq : Requester} {op c : Nat} {byaddr : Bool} (h : HasPwr pv s) : HasPwr pv (pkeKey rq op c byaddr s).2 := by
  unfold pkeKey
  dsimp only
  split
  · exact loadReject_pwr (pkeBlob_pwr h)
  · split
    · exact loadReject_pwr (pkeBlob_pwr h)
    · split
      · exact loadReject_pwr (pkeBlob_pwr h)
      · exact pkeBlob_pwr h

theorem pkeTell_pwr {rq : Requester} (h : HasPwr pv s) : HasPwr pv (pkeTell rq s) :=
  ite_pwr h (raise_pwr h)

theorem pkeFinish_pwr {rq : Requester} {res : Nat} (h : HasPwr pv s) : HasPwr pv (pkeFinish rq res s) :=
  pkeTell_pwr (incF_pwr (setB_pwr (setB_pwr (setF_pwr (h.upd rfl)))))

theorem pkeAfter_pwr {keep : Bool} {p : PkeShape} (h : HasPwr pv s) : HasPwr pv (pkeAfter keep p s) :=
  (iteThen_pwr (pkeWipeSecret_pwr h) fun h1 => applyAll_pwr (fun _ _ h => pkeWipe_pwr h) h1).upd rfl

theorem pkeRefuse_pwr {rq : Requester} {keep : Bool} {p : PkeShape} {res : Nat} (h : HasPwr pv s) : HasPwr pv (pkeRefuse rq keep p res s) :=
  setFree_pwr (pkeFinish_pwr (pkeAfter_pwr h))

theorem pkeFillKey_pwr {key : List Byte} (h : HasPwr pv s) : HasPwr pv (pkeFillKey key s) :=
  ite_pwr h (pkeWrite_pwr h)

theorem cmdPkeJobGo_pwr {rq : Requester} {w : Word} (h : HasPwr pv s) : HasPwr pv (cmdPkeJobGo rq w s) := by
  unfold cmdPkeJobGo
  extract_lets op c keep s0 p s1 _ s2 k nonce
  have hs0 : HasPwr pv s0 := busDone_pwr (setF_pwr (setF_pwr (setB_pwr (setF_pwr h))))
  have hs1 : HasPwr pv s1 := applyAll_pwr (fun _ _ h => pkeWipe_pwr h) hs0
  have hs2 : HasPwr pv s2 := hs1.upd rfl
  have hk : HasPwr pv k.2 := iteSnd_pwr (pkeKey_pwr hs2) hs2
  refine ite_pwr (busError_pwr h) (ite_pwr hs0 (ite_pwr (pkeRefuse_pwr hs2) (ite_pwr (pkeRefuse_pwr hs2) ?_)))
  split
  · exact pkeRefuse_pwr (setF_pwr hk)
  · refine ite_pwr (pkeRefuse_pwr hk) ?_
    extract_lets t
    have hn : HasPwr pv nonce.2 := iteSnd_pwr (drbgBytes_pwr hk) hk
    have ht : HasPwr pv t := pkeFillKey_pwr hn
    split
    · exact pkeRefuse_pwr ht
    · exact setB_pwr (ht.upd rfl)

theorem execPkeJobGo_pwr {rq : Requester} {w : Word} (h : HasPwr pv s) : NextPwr pv (execPkeJobGo rq w s) :=
  ⟨_, rfl, gate_pwr (fun _ h => cmdPkeJobGo_pwr h) h⟩

theorem pkeOutputs_pwr {l : List (Nat × Nat)} {b : List Byte} (h : HasPwr pv s) : HasPwr pv (pkeOutputs l b s) := by
  induction l generalizing b s with
  | nil => exact h
  | cons x r ih => exact ih (pkeWrite_pwr h)

theorem execPkeJobEnd_pwr {inv : Bool} {cyc : Nat} (h : HasPwr pv s) : NextPwr pv (execPkeJobEnd inv cyc s) := by
  refine ⟨_, rfl, ?_⟩
  split
  · exact h
  · exact ite_pwr (raise_pwr (incF_pwr (pkeFinish_pwr (pkeAfter_pwr (applyAll_pwr (fun _ _ h => pkeWipe_pwr h) (setF_pwr h))))))
      (pkeFinish_pwr (pkeAfter_pwr (pkeOutputs_pwr (setF_pwr h))))

theorem pkeLeaseEnd_pwr (h : HasPwr pv s) : HasPwr pv (pkeLeaseEnd s) := by
  refine applyAll_pwr (fun _ _ h => setF_pwr (setF_pwr h)) (pkeWipeAll_pwr ?_)
  split
  · exact pkeFinish_pwr h
  · exact h

theorem cmdPkeLockTake_pwr {rq : Requester} (h : HasPwr pv s) : HasPwr pv (cmdPkeLockTake rq s) := by
  refine ite_pwr (busError_pwr h) ?_
  split
  · exact setB_pwr (busDone_pwr h)
  · split
    · next e2 => exact setF_pwr (setB_pwr (busDone_pwr (grantLease_pwr h e2)))
    · exact setB_pwr (countFull_pwr (busDone_pwr h))

theorem execPkeLockTake_pwr {rq : Requester} (h : HasPwr pv s) : NextPwr pv (execPkeLockTake rq s) :=
  ⟨_, rfl, gate_pwr (fun _ h => cmdPkeLockTake_pwr h) h⟩

theorem setDig_pwr {n : Nat} {c : DigCtx} (h : HasPwr pv s) : HasPwr pv (setDig n c s) :=
  h.upd rfl

theorem cmdDigestGo_pwr {rq : Requester} {ns : Nat} {w : Word} (h : HasPwr pv s) : HasPwr pv (cmdDigestGo rq ns w s) :=
  ite_pwr (busError_pwr h) (iteThen_pwr (busDone_pwr (setF_pwr h)) fun h1 => ite_pwr (busError_pwr h)
    (ite_pwr (setB_pwr h1) (setB_pwr (setDig_pwr (iteElse_pwr (ite_pwr (unitViolation_pwr h1) h1) fun h2 => setB_pwr h2)))))

theorem execDigestGo_pwr {rq : Requester} {ns : Nat} {w : Word} (h : HasPwr pv s) : NextPwr pv (execDigestGo rq ns w s) :=
  ⟨_, rfl, gate_pwr (fun _ h => cmdDigestGo_pwr h) h⟩

theorem execDigestDone_pwr {ns : Nat} (h : HasPwr pv s) : NextPwr pv (execDigestDone ns s) := by
  refine ⟨_, rfl, ?_⟩
  dsimp only
  split
  · exact h
  · exact setB_pwr (setB_pwr (setB_pwr (setDig_pwr h)))
  · exact ite_pwr (applyAll_pwr (fun _ _ h => setF_pwr h) (setB_pwr (setDig_pwr (setB_pwr (setB_pwr h)))))
      (setDig_pwr (setB_pwr (setB_pwr h)))

theorem cmdDrgDataRead_pwr {rq : Requester} (h : HasPwr pv s) : HasPwr pv (cmdDrgDataRead rq s) := by
  refine ite_pwr (busError_pwr h) ?_
  split
  · exact busData_pwr (h.upd rfl)
  · exact busData_pwr ((drbgCall_pwr h).upd rfl)

theorem execDrgDataRead_pwr {rq : Requester} (h : HasPwr pv s) : NextPwr pv (execDrgDataRead rq s) :=
  ⟨_, rfl, gate_pwr (fun _ h => cmdDrgDataRead_pwr h) h⟩

theorem execDrbgReseed_pwr {rq : Option Requester} (h : HasPwr pv s) : NextPwr pv (execDrbgReseed rq s) := by
  refine ⟨_, rfl, ?_⟩
  split
  · exact ite_pwr (drbgReseed_pwr h) h
  · exact gate_pwr (fun _ h => drbgReseed_pwr (busDone_pwr h)) h

theorem execEntropyHealthFail_pwr {apt : Bool} (h : HasPwr pv s) : NextPwr pv (execEntropyHealthFail apt s) := by
  refine ⟨_, rfl, ?_⟩
  extract_lets s1 n _ s2
  have hs1 : HasPwr pv s1 := setB_pwr (incF_pwr h le_addr_ite)
  have hs2 : HasPwr pv s2 := hs1.upd rfl
  exact ite_pwr (raise_pwr (setB_pwr (setB_pwr hs2))) hs2

/-! ## The functions of Machine/Can.lean -/

theorem seeFrame_pwr {n id : Nat} {ide : Bool} (h : HasPwr pv s) : HasPwr pv (seeFrame n id ide s) :=
  setF_pwr (setB_pwr (setB_pwr (h.upd rfl)))

theorem setVal_pwr {e v : Nat} (h : HasPwr pv s) : HasPwr pv (setVal e v s) :=
  ite_pwr (setF_pwr h) h

theorem validate_pwr {u : Nat} (h : HasPwr pv s) : HasPwr pv (validate u s) := by
  unfold validate
  split
  · exact ite_pwr (setVal_pwr (h.upd rfl)) h
  · exact h

theorem canEvt_pwr {n : Nat} {f : Fld} (h : HasPwr pv s) (hf : 0x40030000 ≤ f.addr := by (repeat apply Nat.le_add_right_of_le); decide) :
    HasPwr pv (canEvt n f s) :=
  sys_pwr (canEvt_sys hf rfl) h

theorem setRx_pwr {n i : Nat} {b : RxBuf} (h : HasPwr pv s) : HasPwr pv (setRx n i b s) :=
  sys_pwr (setCan_sys rfl) h

theorem rxStore_pwr {n : Nat} {f : CanFrame} {filt sof tc : Nat} {hand host : Bool} (h : HasPwr pv s) :
    HasPwr pv (rxStore n f filt sof tc hand host s) := by
  unfold rxStore
  split
  · exact canEvt_pwr (incF_pwr h)
  · exact ite_pwr (canEvt_pwr (sys_pwr (setCan_sys rfl) h)) (sys_pwr (setCan_sys rfl) h)

theorem rxRelease_pwr {n i : Nat} (h : HasPwr pv s) : HasPwr pv (rxRelease n i s) :=
  setRx_pwr h

theorem prioFull_pwr {n : Nat} {b : Bool} (h : HasPwr pv s) : HasPwr pv (prioFull n b s) :=
  setTileBit_pwr (setB_pwr h)

theorem prioWrite_pwr {n : Nat} {b : RxBuf} (h : HasPwr pv s) : HasPwr pv (prioWrite n b s) :=
  ite_pwr (setB_pwr (sys_pwr (setCan_sys rfl) (ite_pwr (incF_pwr h) h))) (raise_pwr (prioFull_pwr (sys_pwr (setCan_sys rfl) (setB_pwr (incF_pwr h)))))

theorem prioRelease_pwr {n : Nat} (h : HasPwr pv s) : HasPwr pv (prioRelease n s) := by
  unfold prioRelease
  dsimp only
  split
  · exact prioFull_pwr (sys_pwr (setCan_sys rfl) (setB_pwr h))
  · exact raise_pwr (prioFull_pwr (setB_pwr (sys_pwr (setCan_sys rfl) (setB_pwr h))))

theorem txCancelled_pwr {n i : Nat} (h : HasPwr pv s) : HasPwr pv (txCancelled n i s) :=
  canEvt_pwr (orF_pwr (clrF_pwr h))

theorem attemptOver_pwr {n i : Nat} (h : HasPwr pv s) : HasPwr pv (attemptOver n i s) :=
  clrF_pwr (setB_pwr (sys_pwr (setCan_sys rfl) h))

theorem attemptFailed_pwr {n i : Nat} (h : HasPwr pv s) : HasPwr pv (attemptFailed n i s) :=
  ite_pwr (ite_pwr (txCancelled_pwr (attemptOver_pwr h)) (incF_pwr (sys_pwr (txEmpty_sys rfl) (attemptOver_pwr h))))
    (iteElse_pwr (attemptOver_pwr h) fun h1 => txCancelled_pwr h1)

theorem canStopNow_pwr {n : Nat} (h : HasPwr pv s) : HasPwr pv (canStopNow n s) :=
  sys_pwr (canFlush_sys rfl) (sys_pwr (canGoto_sys rfl) (sys_pwr (setCan_sys rfl) h))

theorem canBusOff_pwr {n : Nat} (h : HasPwr pv s) : HasPwr pv (canBusOff n s) := by
  unfold canBusOff
  extract_lets t s0 s1 s2 p s3
  have ht : HasPwr pv t := by
    unfold t
    split
    · exact attemptFailed_pwr h
    · exact h
  have hs0 : HasPwr pv s0 := sys_pwr (canGoto_sys rfl) ht
  have hs1 : HasPwr pv s1 := raise_pwr (canEvt_pwr (incF_pwr hs0))
  have hs2 : HasPwr pv s2 := sys_pwr (canFlush_sys rfl) hs1
  have hs3 : HasPwr pv s3 := ite_pwr (canEvt_pwr (orF_pwr (setF_pwr (setF_pwr hs2)))) hs2
  exact ite_pwr (canStopNow_pwr hs3) (ite_pwr (sys_pwr (canGoto_sys rfl) hs3) hs3)

theorem canCounters_pwr {n tec rec : Nat} (h : HasPwr pv s) : HasPwr pv (canCounters n tec rec s) :=
  iteThen_pwr (iteThen_pwr (setF_pwr (setF_pwr h)) fun h1 => canEvt_pwr (setB_pwr h1)) fun h1 => ite_pwr (canBusOff_pwr h1)
    (sys_pwr (canGoto_sys rfl) h1)

theorem recAfterRx_pwr {rec : Nat} (h : HasPwr pv s) : HasPwr pv (recAfterRx rec s).2 :=
  iteSnd_pwr (h.upd rfl) h

theorem canAck_pwr {n : Nat} (h : HasPwr pv s) : HasPwr pv (canAck n s) :=
  ite_pwr h (sys_pwr (emit_sys rfl) h)

theorem canSeen_pwr {n : Nat} {f : CanFrame} (h : HasPwr pv s) : HasPwr pv (canSeen n f s) :=
  seeFrame_pwr (canCounters_pwr (canAck_pwr (recAfterRx_pwr h)))

theorem autoValidate_pwr {n : Nat} {k : Option Nat} (h : HasPwr pv s) : HasPwr pv (autoValidate n k s) :=
  ite_pwr (validate_pwr h) h

theorem execCanFrameValid_pwr {n : Nat} {f : CanFrame} {ago : Nat} (h : HasPwr pv s) : NextPwr pv (execCanFrameValid n f ago s) :=
  ⟨_, rfl, onlyIf_pwr (fun _ h => ite_pwr (incF_pwr (canSeen_pwr h))
    (iteThen_pwr (iteElse_pwr (autoValidate_pwr (incF_pwr (canSeen_pwr h))) fun h1 => prioWrite_pwr (h1.upd rfl)) fun h1 =>
    rxStore_pwr h1)) h⟩

theorem execCanXlFrameReceive_pwr {n : Nat} {f : CanFrame} {ago : Nat} {ok : Bool} (h : HasPwr pv s) :
    NextPwr pv (execCanXlFrameReceive n f ago ok s) :=
  ⟨_, rfl, onlyIf_pwr (fun _ h => ite_pwr (incF_pwr (canSeen_pwr h))
    (ite_pwr (canEvt_pwr (incF_pwr (autoValidate_pwr (incF_pwr (canSeen_pwr h)))))
    (sys_pwr (setCan_sys rfl) (autoValidate_pwr (incF_pwr (canSeen_pwr h)))))) h⟩

theorem handNext_pwr {n : Nat} {w : Waybill} {b : List Byte} {t : State} (h : HasPwr pv s) (e : handNext n s = some (w, b, t)) :
    HasPwr pv t := by
  unfold handNext at e
  dsimp only at e
  split at e
  · cases e
  · cases e; exact sys_pwr (setCan_sys rfl) h
  · cases e; exact sys_pwr (setCan_sys rfl) h

theorem handAll_pwr {n : Nat} (h : HasPwr pv s) : HasPwr pv (handAll n s) := by
  refine applyAll_pwr (fun _ _ h => ?_) h
  split
  · exact h
  · next e1 => exact ite_pwr (sys_pwr (offerFrame_sys rfl) (handNext_pwr h e1)) (sys_pwr (setHolds_sys rfl) (handNext_pwr h e1))

theorem execCanHandoff_pwr {n : Nat} (h : HasPwr pv s) : NextPwr pv (execCanHandoff n s) := by
  refine ⟨_, rfl, ?_⟩
  refine onlyIf_pwr (fun _ h => ?_) h
  split
  · exact h
  · next e1 => exact sys_pwr (offerFrame_sys rfl) (handNext_pwr h e1)

theorem errorFlag_pwr {n : Nat} (h : HasPwr pv s) : HasPwr pv (errorFlag n s) :=
  ite_pwr h (sys_pwr (emit_sys rfl) h)

theorem protocolError_pwr {n code : Nat} {dph : Bool} (h : HasPwr pv s) : HasPwr pv (protocolError n code dph s) :=
  canEvt_pwr (incF_pwr (setF_pwr (setB_pwr h)))

theorem execCanFrameError_pwr {n : Nat} {e : CanErr} {code : Nat} {dph : Bool} (h : HasPwr pv s) :
    NextPwr pv (execCanFrameError n e code dph s) := by
  refine ⟨_, rfl, ?_⟩
  refine onlyIf_pwr (fun _ h => ite_pwr (sys_pwr (canGoto_sys rfl) h) (ite_pwr (sys_pwr (canGoto_sys rfl) ?_)
    (canCounters_pwr (iteThen_pwr (ite_pwr h (protocolError_pwr h)) fun h1 => errorFlag_pwr h1)))) h
  split
  · exact iteElse_pwr (ite_pwr h (protocolError_pwr h)) fun h1 => attemptFailed_pwr h1
  · exact ite_pwr h (protocolError_pwr h)

theorem execCanBodelayExpiry_pwr {n : Nat} (h : HasPwr pv s) : NextPwr pv (execCanBodelayExpiry n s) :=
  ⟨_, rfl, onlyIf_pwr (fun _ h => sys_pwr (canGoto_sys rfl) h) h⟩

theorem execCanRecoveryDone_pwr {n : Nat} (h : HasPwr pv s) : NextPwr pv (execCanRecoveryDone n s) :=
  ⟨_, rfl, onlyIf_pwr (fun _ h => canEvt_pwr (sys_pwr (canGoto_sys rfl) (canCounters_pwr h))) h⟩

theorem canWrite_pwr {n : Nat} {g : State → State} (hg : ∀ s, HasPwr pv s → HasPwr pv (g s)) (h : HasPwr pv s) :
    HasPwr pv (canWrite n g s) :=
  ite_pwr (busError_pwr h) (ite_pwr (hg _ (busDone_pwr h)) (busDone_pwr h))

theorem cmdCanCtlStop_pwr {rq : Requester} {n : Nat} (h : HasPwr pv s) : HasPwr pv (cmdCanCtlStop rq n s) :=
  canWrite_pwr (fun _ h => ite_pwr (ite_pwr (sys_pwr (setCan_sys rfl) h) (canStopNow_pwr h)) (ite_pwr (sys_pwr (setCan_sys rfl) h) h)) h

theorem execCanCtlStop_pwr {rq : Requester} {n : Nat} (h : HasPwr pv s) : NextPwr pv (execCanCtlStop rq n s) :=
  ⟨_, rfl, gate_pwr (fun _ h => cmdCanCtlStop_pwr h) h⟩

theorem cmdCanCtlStart_pwr {rq : Requester} {n : Nat} (h : HasPwr pv s) : HasPwr pv (cmdCanCtlStart rq n s) :=
  canWrite_pwr (fun _ h => ite_pwr (sys_pwr (canGoto_sys rfl) (canCounters_pwr h)) h) h

theorem execCanCtlStart_pwr {rq : Requester} {n : Nat} (h : HasPwr pv s) : NextPwr pv (execCanCtlStart rq n s) :=
  ⟨_, rfl, gate_pwr (fun _ h => cmdCanCtlStart_pwr h) h⟩

theorem cmdCanCtlRecover_pwr {rq : Requester} {n : Nat} (h : HasPwr pv s) : HasPwr pv (cmdCanCtlRecover rq n s) :=
  canWrite_pwr (fun _ h => ite_pwr (sys_pwr (canGoto_sys rfl) h) h) h

theorem execCanCtlRecover_pwr {rq : Requester} {n : Nat} (h : HasPwr pv s) : NextPwr pv (execCanCtlRecover rq n s) :=
  ⟨_, rfl, gate_pwr (fun _ h => cmdCanCtlRecover_pwr h) h⟩

theorem execCanArbitrationChoice_pwr {n : Nat} (h : HasPwr pv s) : NextPwr pv (execCanArbitrationChoice n s) := by
  refine ⟨_, rfl, ?_⟩
  refine onlyIf_pwr (fun _ h => ?_) h
  split
  · exact h
  · exact setB_pwr (sys_pwr (setCan_sys rfl) h)

theorem txEmit_pwr {n i : Nat} (h : HasPwr pv s) : HasPwr pv (txEmit n i s) :=
  sys_pwr (emit_sys rfl) h

theorem execCanTxEnd_pwr {n : Nat} {ok : Bool} {meas : Option Nat} (h : HasPwr pv s) : NextPwr pv (execCanTxEnd n ok meas s) := by
  refine ⟨_, rfl, ?_⟩
  refine onlyIf_pwr (fun _ h => ?_) h
  split
  · exact h
  · extract_lets sw soft w1 tdc s0 w0 seen t t1 s2
    have hs0 : HasPwr pv s0 := by
      unfold s0
      split
      · exact ite_pwr (setF_pwr h) h
      · exact h
    have hseen : HasPwr pv seen := seeFrame_pwr (attemptOver_pwr hs0)
    have ht : HasPwr pv t := canEvt_pwr (incF_pwr (txEmit_pwr hseen))
    have ht1 : HasPwr pv t1 := canCounters_pwr ht
    have hs2 : HasPwr pv s2 := ite_pwr (ite_pwr (orF_pwr (clrF_pwr ht1)) (sys_pwr (swBump_sys rfl) (sys_pwr (swBump_sys rfl) (sys_pwr
      (txEmpty_sys rfl) ht1))))
      (attemptFailed_pwr hs0)
    exact ite_pwr (canStopNow_pwr hs2) hs2

theorem execCanSwitchBufferLoad_pwr {n : Nat} (h : HasPwr pv s) : NextPwr pv (execCanSwitchBufferLoad n s) := by
  refine ⟨_, rfl, ?_⟩
  dsimp only
  refine onlyIf_pwr (fun _ h => ?_) h
  split
  · split
    · exact h
    · exact ite_pwr (canEvt_pwr (incF_pwr (sys_pwr (dropReplica_sys rfl) (sys_pwr (setQueue_sys rfl) h))))
        (iteThen_pwr (orF_pwr (sys_pwr (setCan_sys rfl) (sys_pwr (setQueue_sys rfl) h))) fun h1 => sys_pwr (dropReplica_sys rfl) h1)
  · exact h

theorem cmdCanTxreq_pwr {rq : Requester} {n : Nat} {w : Word} (h : HasPwr pv s) : HasPwr pv (cmdCanTxreq rq n w s) :=
  canWrite_pwr (fun _ h => applyAll_pwr (fun _ _ h => ite_pwr (canEvt_pwr (incF_pwr h)) (orF_pwr (sys_pwr (setCan_sys rfl) h))) h) h

theorem execCanTxreq_pwr {rq : Requester} {n : Nat} {w : Word} (h : HasPwr pv s) : NextPwr pv (execCanTxreq rq n w s) :=
  ⟨_, rfl, gate_pwr (fun _ h => cmdCanTxreq_pwr h) h⟩

theorem cmdCanTxcan_pwr {rq : Requester} {n : Nat} {w : Word} (h : HasPwr pv s) : HasPwr pv (cmdCanTxcan rq n w s) :=
  canWrite_pwr (fun _ h => applyAll_pwr (fun _ _ h => ite_pwr (orF_pwr h) (txCancelled_pwr h)) h) h

theorem execCanTxcan_pwr {rq : Requester} {n : Nat} {w : Word} (h : HasPwr pv s) : NextPwr pv (execCanTxcan rq n w s) :=
  ⟨_, rfl, gate_pwr (fun _ h => cmdCanTxcan_pwr h) h⟩

theorem cmdCanRxBufferRead_pwr {rq : Requester} {n o : Nat} (h : HasPwr pv s) : HasPwr pv (cmdCanRxBufferRead rq n o s) :=
  ite_pwr (busError_pwr h) (ite_pwr (busData_pwr h) (ite_pwr (busError_pwr h)
    (ite_pwr (busData_pwr (setRx_pwr h)) (ite_pwr (busData_pwr h)
    (ite_pwr (busData_pwr (prioRelease_pwr h)) (busData_pwr (setB_pwr (sys_pwr (setCan_sys rfl) h))))))))

theorem execCanRxBufferRead_pwr {rq : Requester} {n o : Nat} (h : HasPwr pv s) : NextPwr pv (execCanRxBufferRead rq n o s) :=
  ⟨_, rfl, gate_pwr (fun _ h => cmdCanRxBufferRead_pwr h) h⟩

theorem cmdCanRxrel_pwr {rq : Requester} {n buf : Nat} (h : HasPwr pv s) : HasPwr pv (cmdCanRxrel rq n buf s) :=
  canWrite_pwr (fun _ h => rxRelease_pwr h) h

theorem execCanRxrel_pwr {rq : Requester} {n buf : Nat} (h : HasPwr pv s) : NextPwr pv (execCanRxrel rq n buf s) :=
  ⟨_, rfl, gate_pwr (fun _ h => cmdCanRxrel_pwr h) h⟩

theorem cmdCanPriorel_pwr {rq : Requester} {n : Nat} {w : Word} (h : HasPwr pv s) : HasPwr pv (cmdCanPriorel rq n w s) :=
  canWrite_pwr (fun _ h => ite_pwr (prioRelease_pwr h) h) h

theorem execCanPriorel_pwr {rq : Requester} {n : Nat} {w : Word} (h : HasPwr pv s) : NextPwr pv (execCanPriorel rq n w s) :=
  ⟨_, rfl, gate_pwr (fun _ h => cmdCanPriorel_pwr h) h⟩

theorem authCheck_pwr {n j : Nat} {f : List Byte} {bad : Nat} (h : HasPwr pv s) : HasPwr pv (authCheck n j f bad s).2 := by
  unfold authCheck
  dsimp only
  refine iteSnd_pwr h ?_
  split
  · exact h
  · refine iteSnd_pwr h ?_
    split
    · next e3 => exact (hwLoad_pwr h).of_eq e3
    · next e3 =>
        split
        · next e4 => exact (hwCmac_pwr ((hwLoad_pwr h).of_eq e3)).of_eq e4
        · next e4 =>
          exact iteSnd_pwr (sys_pwr (setCan_sys rfl) ((hwCmac_pwr ((hwLoad_pwr h).of_eq e3)).of_eq e4))
            ((hwCmac_pwr ((hwLoad_pwr h).of_eq e3)).of_eq e4)

theorem authDrain_pwr {l : List AuthWait} (h : HasPwr pv s) : HasPwr pv (authDrain l s) := by
  induction l generalizing s with
  | nil => exact h
  | cons a r ih => exact ite_pwr (ih (h.upd rfl)) (ih (underGen_pwr (fun _ h => sys_pwr (runStages_sys rfl) h) h))

theorem authOne_pwr {bad : Nat} {a : AuthWait} (h : HasPwr pv s) : HasPwr pv (authOne bad a s) := by
  unfold authOne
  dsimp only
  split
  · exact sys_pwr (runStages_sys rfl) h
  · split
    · next e1 => exact sys_pwr (runStages_sys rfl) (incF_pwr ((authCheck_pwr h).of_eq e1))
    · next e1 => exact raiseOnce_pwr (incF_pwr (sys_pwr (swBump_sys rfl) (sys_pwr (freePages_sys rfl) ((authCheck_pwr h).of_eq e1))))
    · next e1 => exact raiseOnce_pwr (incF_pwr (sys_pwr (swBump_sys rfl) (sys_pwr (freePages_sys rfl) ((authCheck_pwr h).of_eq e1))))
    · next e1 => exact raiseOnce_pwr (incF_pwr (sys_pwr (swBump_sys rfl) (sys_pwr (freePages_sys rfl) ((authCheck_pwr h).of_eq e1))))

theorem execAuthenticate_pwr {bad : Nat} (h : HasPwr pv s) : NextPwr pv (execAuthenticate bad s) := by
  refine ⟨_, rfl, ?_⟩
  split
  · exact h
  · exact authDrain_pwr (underGen_pwr (fun _ h => authOne_pwr h) (h.upd rfl))

/-! ## The functions of Machine/Ports.lean -/

theorem portWrite_pwr {p : Nat} {g : State → State} (hg : ∀ s, HasPwr pv s → HasPwr pv (g s)) (h : HasPwr pv s) :
    HasPwr pv (portWrite p g s) :=
  ite_pwr (busError_pwr h) (ite_pwr (hg _ (busDone_pwr h)) (busDone_pwr h))

theorem execEthLinkUp_pwr {p spd : Nat} {hdx anok : Bool} (h : HasPwr pv s) : NextPwr pv (execEthLinkUp p spd hdx anok s) :=
  ⟨_, rfl, onlyIf_pwr (fun _ h => ite_pwr (setB_pwr (setB_pwr h))
    (raise_pwr (setB_pwr (setB_pwr (setF_pwr (setB_pwr (setB_pwr h))))))) h⟩

theorem execEthLinkDown_pwr {p : Nat} (h : HasPwr pv s) : NextPwr pv (execEthLinkDown p s) :=
  ⟨_, rfl, onlyIf_pwr (fun _ h => raise_pwr (setB_pwr (sys_pwr (linkOff_sys rfl) h))) h⟩

theorem execPlcaBeaconReceive_pwr {p : Nat} (h : HasPwr pv s) : NextPwr pv (execPlcaBeaconReceive p s) :=
  ⟨_, rfl, onlyIf_pwr (fun _ h => plcaUp_pwr h) h⟩

theorem execPlcaInactive_pwr {p : Nat} (h : HasPwr pv s) : NextPwr pv (execPlcaInactive p s) :=
  ⟨_, rfl, onlyIf_pwr (fun _ h => sys_pwr (plcaDown_sys rfl) h) h⟩

theorem execT1sCollision_pwr {p : Nat} (h : HasPwr pv s) : NextPwr pv (execT1sCollision p s) := by
  refine ⟨_, rfl, ?_⟩
  refine onlyIf_pwr (fun _ h => ?_) h
  split
  · exact h
  · exact ite_pwr (ethCount_pwr (sys_pwr (dropReplica_sys rfl) (setSending_pwr (ethCount_pwr (h.upd rfl)))))
      (setSending_pwr (ethCount_pwr (h.upd rfl)))

theorem execMacFrameReceive_pwr {p : Nat} {frame : List Byte} {sfd : Nat} {fcsOk sym : Bool} (h : HasPwr pv s) :
    NextPwr pv (execMacFrameReceive p frame sfd fcsOk sym s) := by
  refine ⟨_, rfl, ?_⟩
  refine onlyIf_pwr (fun _ h => ?_) h
  extract_lets v s1
  have hs1 : HasPwr pv s1 := setMet_pwr h
  exact ite_pwr (abandonFrame_pwr (ethCount_pwr hs1)) (ite_pwr (ite_pwr (hieTake_pwr (ethCount_pwr hs1)) (ethCount_pwr hs1))
    (ite_pwr hs1 (iteThen_pwr (ethCount_pwr hs1) fun h1 => frameStored_pwr (ingressFrame_pwr h1))))

theorem cmdMdioCommand_pwr {rq : Requester} {p : Nat} {w : Word} (h : HasPwr pv s) : HasPwr pv (cmdMdioCommand rq p w s) :=
  portWrite_pwr (fun _ h => ite_pwr (busError_pwr h) (sys_pwr (emit_sys rfl) (setB_pwr (h.upd rfl)))) h

theorem execMdioCommand_pwr {rq : Requester} {p : Nat} {w : Word} (h : HasPwr pv s) : NextPwr pv (execMdioCommand rq p w s) :=
  ⟨_, rfl, gate_pwr (fun _ h => cmdMdioCommand_pwr h) h⟩

theorem execMdioDone_pwr {answer : Option Nat} (h : HasPwr pv s) : NextPwr pv (execMdioDone answer s) := by
  refine ⟨_, rfl, ?_⟩
  split
  · exact h
  · exact ite_pwr (setF_pwr (setB_pwr (h.upd rfl))) (setB_pwr (h.upd rfl))

theorem txtsRead_pwr {p : Nat} (h : HasPwr pv s) : HasPwr pv (txtsRead p s) := by
  unfold txtsRead
  split
  · exact busData_pwr h
  · exact busData_pwr (setF_pwr (setF_pwr (setF_pwr (setF_pwr (setF_pwr (h.upd rfl))))))

theorem execEthTxtsRead_pwr {rq : Requester} {p : Nat} (h : HasPwr pv s) : NextPwr pv (execEthTxtsRead rq p s) :=
  ⟨_, rfl, gate_pwr (fun _ h => ite_pwr (busError_pwr h) (ite_pwr (txtsRead_pwr h) (busData_pwr h))) h⟩

theorem execSyncReceive_pwr {p : Nat} (h : HasPwr pv s) : NextPwr pv (execSyncReceive p s) :=
  ⟨_, rfl, onlyIf_pwr (fun _ h => incF_pwr (setB_pwr (h.upd rfl))) h⟩

theorem execSyncTimeout_pwr (h : HasPwr pv s) : NextPwr pv (execSyncTimeout s) :=
  ⟨_, rfl, onlyIf_pwr (fun _ h => raise_pwr (setB_pwr (h.upd rfl))) h⟩

theorem tsySet_pwr (h : HasPwr pv s) : HasPwr pv (tsySet s) :=
  incF_pwr (h.upd rfl)

theorem tsyStep_pwr (h : HasPwr pv s) : HasPwr pv (tsyStep s) :=
  incF_pwr (h.upd rfl)

theorem cmdTsySet_pwr {rq : Requester} (h : HasPwr pv s) : HasPwr pv (cmdTsySet rq s) :=
  tsySet_pwr (busDone_pwr h)

theorem execTsySet_pwr {rq : Requester} (h : HasPwr pv s) : NextPwr pv (execTsySet rq s) :=
  ⟨_, rfl, gate_pwr (fun _ h => cmdTsySet_pwr h) h⟩

theorem cmdTsyStep_pwr {rq : Requester} (h : HasPwr pv s) : HasPwr pv (cmdTsyStep rq s) :=
  tsyStep_pwr (busDone_pwr h)

theorem execTsyStep_pwr {rq : Requester} (h : HasPwr pv s) : NextPwr pv (execTsyStep rq s) :=
  ⟨_, rfl, gate_pwr (fun _ h => cmdTsyStep_pwr h) h⟩

theorem execTsyFadjWrite_pwr {rq : Requester} {w : Word} (h : HasPwr pv s) : NextPwr pv (execTsyFadjWrite rq w s) :=
  ⟨_, rfl, gate_pwr (fun _ h => ite_pwr (busDone_pwr (setF_pwr h)) (busError_pwr h)) h⟩

/-! ## The functions of Machine/Serial.lean -/

theorem serEvt_pwr {n : Nat} {f : Fld} (h : HasPwr pv s) (hf : 0x40030000 ≤ f.addr := by (repeat apply Nat.le_add_right_of_le); decide) :
    HasPwr pv (serEvt n f s) :=
  sys_pwr (serEvt_sys hf rfl) h

theorem serErr_pwr {n : Nat} {f : Fld} {k : Nat} (h : HasPwr pv s) (hf : 0x40030000 ≤ f.addr := by (repeat apply Nat.le_add_right_of_le); decide) :
    HasPwr pv (serErr n f k s) :=
  sys_pwr (serErr_sys hf rfl) h

theorem serHand_pwr {n id : Nat} {data : List Byte} {time : Nat} (h : HasPwr pv s) : HasPwr pv (serHand n id data time s) :=
  ite_pwr (serEvt_pwr (incF_pwr h)) (sys_pwr (setSer_sys rfl) h)

theorem serReceived_pwr {n : Nat} (h : HasPwr pv s) : HasPwr pv (serReceived n s) :=
  serEvt_pwr (incF_pwr h)

theorem serSent_pwr {n : Nat} (h : HasPwr pv s) : HasPwr pv (serSent n s) :=
  serEvt_pwr (incF_pwr h)

theorem serWrite_pwr {n : Nat} {fns : List Nat} {g : State → State} (hg : ∀ s, HasPwr pv s → HasPwr pv (g s)) (h : HasPwr pv s) :
    HasPwr pv (serWrite n fns g s) :=
  ite_pwr (busError_pwr h) (ite_pwr (hg _ (busDone_pwr h)) (busDone_pwr h))

theorem linHeader_pwr {n id : Nat} (h : HasPwr pv s) : HasPwr pv (linHeader n id s) :=
  ite_pwr (setB_pwr (sys_pwr (emit_sys rfl) (sys_pwr (setSer_sys rfl) h))) (sys_pwr (setSer_sys rfl) h)

theorem linSendHeader_pwr {n id : Nat} (h : HasPwr pv s) : HasPwr pv (linSendHeader n id s) :=
  linHeader_pwr (sys_pwr (emit_sys rfl) h)

theorem linSwitch_pwr {n k : Nat} (h : HasPwr pv s) : HasPwr pv (linSwitch n k s) :=
  serEvt_pwr (setB_pwr (setF_pwr (sys_pwr (setSer_sys rfl) h)))

theorem linAdvance_pwr {n : Nat} (h : HasPwr pv s) : HasPwr pv (linAdvance n s) := by
  refine ite_pwr (setB_pwr (setF_pwr (sys_pwr (setSer_sys rfl) h))) (ite_pwr (linSwitch_pwr h) ?_)
  split
  · refine ite_pwr (ite_pwr (sys_pwr (setSer_sys rfl) h) ?_) (sys_pwr (setSer_sys rfl) h)
    split
    · exact serEvt_pwr (setF_pwr (sys_pwr (setSer_sys rfl) h))
    · exact sys_pwr (setSer_sys rfl) h
  · split
    · refine ite_pwr (sys_pwr (setSer_sys rfl) h) (ite_pwr (sys_pwr (setSer_sys rfl) h) ?_)
      split
      · exact serEvt_pwr (setF_pwr (sys_pwr (setSer_sys rfl) h))
      · exact sys_pwr (setSer_sys rfl) h
    · refine ite_pwr (sys_pwr (setSer_sys rfl) h) ?_
      split
      · exact serEvt_pwr (setF_pwr (sys_pwr (setSer_sys rfl) h))
      · exact sys_pwr (setSer_sys rfl) h

theorem linSlot_pwr {n : Nat} (h : HasPwr pv s) : HasPwr pv (linSlot n s) := by
  unfold linSlot
  extract_lets s1
  have hs1 : HasPwr pv s1 := linAdvance_pwr h
  split
  · exact hs1
  · dsimp only
    split
    · exact ite_pwr (linSendHeader_pwr hs1) hs1
    · exact ite_pwr (linSendHeader_pwr hs1) hs1
    · exact linSendHeader_pwr hs1
    · exact linSendHeader_pwr hs1

theorem execLinSlotStart_pwr {n : Nat} (h : HasPwr pv s) : NextPwr pv (execLinSlotStart n s) :=
  ⟨_, rfl, onlyIf_pwr (fun _ h => linSlot_pwr h) h⟩

theorem execLinHeaderReceive_pwr {n sync pid : Nat} (h : HasPwr pv s) : NextPwr pv (execLinHeaderReceive n sync pid s) :=
  ⟨_, rfl, ite_pwr (ite_pwr (sys_pwr (setSer_sys rfl) h) h) (onlyIf_pwr (fun _ h => ite_pwr (serErr_pwr (sys_pwr (pulsesEnd_sys rfl) h))
    (ite_pwr (serErr_pwr (sys_pwr (pulsesEnd_sys rfl) h)) (linHeader_pwr (sys_pwr (pulsesEnd_sys rfl) h)))) h)⟩

theorem linStore_pwr {n id : Nat} {data : List Byte} (h : HasPwr pv s) : HasPwr pv (linStore n id data s) :=
  orF_pwr (setF_pwr (sys_pwr (setSer_sys rfl) h)) le_addr_ite

theorem linCollide_pwr {n : Nat} (h : HasPwr pv s) : HasPwr pv (linCollide n s) := by
  unfold linCollide
  split
  · exact sys_pwr (setSer_sys rfl) h
  · exact h

theorem linEnd_pwr {n : Nat} (h : HasPwr pv s) : HasPwr pv (linEnd n s) :=
  ite_pwr (sys_pwr (serQuiet_sys rfl) (sys_pwr (setSer_sys rfl) h)) (sys_pwr (setSer_sys rfl) h)

theorem linOutcome_pwr {n id : Nat} {pub : Bool} {bytes : List Byte} {framing readback : Bool} {ago : Nat} (h : HasPwr pv s) :
    HasPwr pv (linOutcome n id pub bytes framing readback ago s) :=
  ite_pwr (ite_pwr (serErr_pwr h) (ite_pwr (linCollide_pwr h) (serSent_pwr (seeFrame_pwr h))))
    (ite_pwr (iteThen_pwr (linCollide_pwr h) fun h1 => ite_pwr h (ite_pwr (seeFrame_pwr h) h1))
    (ite_pwr (linCollide_pwr (serErr_pwr h)) (ite_pwr (serErr_pwr h)
    (ite_pwr (linCollide_pwr (serErr_pwr h)) (iteElse_pwr (iteElse_pwr (serReceived_pwr (seeFrame_pwr h)) fun h1 => linStore_pwr
    h1) fun h1 => serHand_pwr h1)))))

theorem linHeard_pwr {n : Nat} {bytes : List Byte} {framing : Bool} (h : HasPwr pv s) : HasPwr pv (linHeard n bytes framing s) := by
  unfold linHeard
  split
  · exact h
  · exact ite_pwr (seeFrame_pwr (sys_pwr (setSer_sys rfl) h)) (sys_pwr (setSer_sys rfl) h)

theorem execLinResponseEnd_pwr {n : Nat} {bytes : List Byte} {framing readback : Bool} {ago : Nat} (h : HasPwr pv s) :
    NextPwr pv (execLinResponseEnd n bytes framing readback ago s) := by
  refine ⟨_, rfl, ?_⟩
  refine ite_pwr (linHeard_pwr h) (onlyIf_pwr (fun _ h => ?_) h)
  split
  · exact h
  · exact linEnd_pwr (linOutcome_pwr h)

theorem cmdLinSchedWrite_pwr {rq : Requester} {n : Nat} {w : Word} (h : HasPwr pv s) : HasPwr pv (cmdLinSchedWrite rq n w s) :=
  serWrite_pwr (fun _ h => setB_pwr (setF_pwr h)) h

theorem execLinSchedWrite_pwr {rq : Requester} {n : Nat} {w : Word} (h : HasPwr pv s) : NextPwr pv (execLinSchedWrite rq n w s) :=
  ⟨_, rfl, gate_pwr (fun _ h => cmdLinSchedWrite_pwr h) h⟩

theorem linPubWrite_pwr {n i k v : Nat} (h : HasPwr pv s) : HasPwr pv (linPubWrite n i k v s) :=
  ite_pwr (setB_pwr (setF_pwr h)) (setF_pwr h)

theorem cmdLinPubWrite_pwr {rq : Requester} {n i k : Nat} {w : Word} (h : HasPwr pv s) : HasPwr pv (cmdLinPubWrite rq n i k w s) :=
  ite_pwr (busError_pwr h) (serWrite_pwr (fun _ h => linPubWrite_pwr h) h)

theorem execLinPubWrite_pwr {rq : Requester} {n i k : Nat} {w : Word} (h : HasPwr pv s) : NextPwr pv (execLinPubWrite rq n i k w s) :=
  ⟨_, rfl, gate_pwr (fun _ h => cmdLinPubWrite_pwr h) h⟩

theorem charErrors_pwr {n : Nat} {l : List (Nat × UartChar)} (h : HasPwr pv s) : HasPwr pv (charErrors n l s) :=
  serErr_pwr (serErr_pwr h)

theorem setRxFrame_pwr {n : Nat} {l : List (Nat × UartChar)} (h : HasPwr pv s) : HasPwr pv (setRxFrame n l s) :=
  sys_pwr (setSer_sys rfl) h

theorem hdlcFrameEnd_pwr {n t : Nat} {l : List (Nat × UartChar)} (h : HasPwr pv s) : HasPwr pv (hdlcFrameEnd n t l s) :=
  ite_pwr (charErrors_pwr h) (ite_pwr (serErr_pwr h) (ite_pwr h
    (ite_pwr (serErr_pwr h) (ite_pwr (serErr_pwr h) (serHand_pwr (serReceived_pwr h))))))

theorem hdlcChar_pwr {n : Nat} {c : UartChar} (h : HasPwr pv s) : HasPwr pv (hdlcChar n c s) := by
  unfold hdlcChar
  split
  · exact ite_pwr (setRxFrame_pwr h) h
  · exact ite_pwr (iteThen_pwr (setRxFrame_pwr h) fun h1 => hdlcFrameEnd_pwr h1) (setRxFrame_pwr h)

theorem execHdlcFrameReceive_pwr {n : Nat} {chars : List UartChar} (h : HasPwr pv s) : NextPwr pv (execHdlcFrameReceive n chars s) :=
  ⟨_, rfl, onlyIf_pwr (fun _ h => applyAll_pwr (fun _ _ h => hdlcChar_pwr h) h) h⟩

theorem uartEnd_pwr {n : Nat} (h : HasPwr pv s) : HasPwr pv (uartEnd n s) := by
  unfold uartEnd
  split
  · exact h
  · exact ite_pwr (charErrors_pwr (setRxFrame_pwr h)) (serHand_pwr (serReceived_pwr (setRxFrame_pwr h)))

theorem uartChar_pwr {n : Nat} {c : UartChar} (h : HasPwr pv s) : HasPwr pv (uartChar n c s) :=
  iteElse_pwr (setRxFrame_pwr h) fun h1 => uartEnd_pwr h1

theorem execUartFrameEnd_pwr {n : Nat} {chars : List UartChar} {gap : Bool} (h : HasPwr pv s) :
    NextPwr pv (execUartFrameEnd n chars gap s) :=
  ⟨_, rfl, onlyIf_pwr (fun _ h => iteElse_pwr (applyAll_pwr (fun _ _ h => uartChar_pwr h) h) fun h1 => uartEnd_pwr h1) h⟩

theorem rxFrameEnd_pwr {n : Nat} (h : HasPwr pv s) : HasPwr pv (rxFrameEnd n s) :=
  ite_pwr (uartEnd_pwr h) (setRxFrame_pwr h)

theorem gpioSet_pwr {n : Nat} {d : List Byte} (h : HasPwr pv s) : HasPwr pv (gpioSet n d s) :=
  setF_pwr h

theorem linSwitchFrame_pwr {n id : Nat} {d : List Byte} (h : HasPwr pv s) : HasPwr pv (linSwitchFrame n id d s) :=
  linPubWrite_pwr (linPubWrite_pwr h)

theorem tileSentCount_pwr {len : Nat} (h : HasPwr pv s) : HasPwr pv (tileSentCount len s) :=
  sys_pwr (swBump_sys rfl) (sys_pwr (swBump_sys rfl) h)

theorem execSerialTxDequeue_pwr {n : Nat} (h : HasPwr pv s) : NextPwr pv (execSerialTxDequeue n s) := by
  refine ⟨_, rfl, ?_⟩
  refine onlyIf_pwr (fun _ h => ?_) h
  split
  · exact h
  · split
    · exact h
    · extract_lets f s1 t
      have hs1 : HasPwr pv s1 := sys_pwr (dropReplica_sys rfl) (sys_pwr (setQueue_sys rfl) h)
      exact ite_pwr (sys_pwr (serBad_sys rfl) hs1) (ite_pwr (tileSentCount_pwr (linSwitchFrame_pwr hs1))
        (ite_pwr (tileSentCount_pwr (gpioSet_pwr hs1)) (sys_pwr (setSer_sys rfl) hs1)))

theorem serBegin_pwr {n : Nat} {d : List Byte} {sw : Bool} {tx : List Replica} (h : HasPwr pv s) : HasPwr pv (serBegin n d sw tx s) :=
  sys_pwr (setSer_sys rfl) (ite_pwr (rxFrameEnd_pwr h) h)

theorem execUartTxStart_pwr {n : Nat} (h : HasPwr pv s) : NextPwr pv (execUartTxStart n s) := by
  refine ⟨_, rfl, ?_⟩
  refine onlyIf_pwr (fun _ h => ite_pwr (serBegin_pwr h) ?_) h
  split
  · exact h
  · exact serBegin_pwr h

theorem execSerialTxEnd_pwr {n : Nat} {echo : List Byte} (h : HasPwr pv s) : NextPwr pv (execSerialTxEnd n echo s) := by
  refine ⟨_, rfl, ?_⟩
  dsimp only
  refine onlyIf_pwr (fun _ h => ?_) h
  split
  · exact h
  · exact iteElse_pwr (ite_pwr (setB_pwr (serSent_pwr (sys_pwr (emit_sys rfl) (sys_pwr (setSer_sys rfl) h))))
      (tileSentCount_pwr (serSent_pwr (sys_pwr (emit_sys rfl) (sys_pwr (setSer_sys rfl) h))))) fun h1 => serErr_pwr h1

theorem swtxGo_pwr {n : Nat} {w : Word} (h : HasPwr pv s) : HasPwr pv (swtxGo n w s) :=
  ite_pwr (busError_pwr h) (ite_pwr (setB_pwr (setF_pwr h)) (setF_pwr h))

theorem cmdUartSwtxGo_pwr {rq : Requester} {n : Nat} {w : Word} (h : HasPwr pv s) : HasPwr pv (cmdUartSwtxGo rq n w s) :=
  serWrite_pwr (fun _ h => swtxGo_pwr h) h

theorem execUartSwtxGo_pwr {rq : Requester} {n : Nat} {w : Word} (h : HasPwr pv s) : NextPwr pv (execUartSwtxGo rq n w s) :=
  ⟨_, rfl, gate_pwr (fun _ h => cmdUartSwtxGo_pwr h) h⟩

theorem execGpioInputChange_pwr {n levels : Nat} (h : HasPwr pv s) : NextPwr pv (execGpioInputChange n levels s) :=
  ⟨_, rfl, onlyIf_pwr (fun _ h => ite_pwr h (ite_pwr (serHand_pwr (setF_pwr h)) (setF_pwr h))) h⟩

theorem serStart_pwr {n : Nat} (h : HasPwr pv s) : HasPwr pv (serStart n s) :=
  iteElse_pwr (setF_pwr (sys_pwr (setSer_sys rfl) h)) fun h1 => linSlot_pwr h1

theorem serStop_pwr {n : Nat} (h : HasPwr pv s) : HasPwr pv (serStop n s) :=
  ite_pwr (sys_pwr (setSer_sys rfl) (sys_pwr (serFlush_sys rfl) h)) (ite_pwr (sys_pwr (serQuiet_sys rfl) (sys_pwr (serFlush_sys rfl) h)) (ite_pwr
    (sys_pwr (setSer_sys rfl) h) h))

theorem cmdSerCtlStop_pwr {rq : Requester} {n : Nat} (h : HasPwr pv s) : HasPwr pv (cmdSerCtlStop rq n s) :=
  serWrite_pwr (fun _ h => serStop_pwr h) h

theorem execSerCtlStop_pwr {rq : Requester} {n : Nat} (h : HasPwr pv s) : NextPwr pv (execSerCtlStop rq n s) :=
  ⟨_, rfl, gate_pwr (fun _ h => cmdSerCtlStop_pwr h) h⟩

theorem cmdSerCtlStart_pwr {rq : Requester} {n : Nat} (h : HasPwr pv s) : HasPwr pv (cmdSerCtlStart rq n s) :=
  serWrite_pwr (fun _ h => ite_pwr (serStart_pwr h) h) h

theorem execSerCtlStart_pwr {rq : Requester} {n : Nat} (h : HasPwr pv s) : NextPwr pv (execSerCtlStart rq n s) :=
  ⟨_, rfl, gate_pwr (fun _ h => cmdSerCtlStart_pwr h) h⟩

/-! ## The functions of Machine/Wake.lean -/

theorem falseWake_pwr {u : Nat} (h : HasPwr pv s) : HasPwr pv (falseWake u s) := by
  unfold falseWake
  split
  · exact h
  · exact iteElse_pwr (incF_pwr (setVal_pwr (h.upd rfl)) le_addr_ite) fun h1 => raise_pwr h1

theorem execValidationWindowClose_pwr {u : Nat} (h : HasPwr pv s) : NextPwr pv (execValidationWindowClose u s) :=
  ⟨_, rfl, onlyIf_pwr (fun _ h => falseWake_pwr h) h⟩

theorem cmdWksValid_pwr {rq : Requester} {hi : Bool} {w : Word} (h : HasPwr pv s) : HasPwr pv (cmdWksValid rq hi w s) :=
  applyAll_pwr (fun _ _ h => validate_pwr h) (busDone_pwr h)

theorem execWksValid_pwr {rq : Requester} {hi : Bool} {w : Word} (h : HasPwr pv s) : NextPwr pv (execWksValid rq hi w s) :=
  ⟨_, rfl, gate_pwr (fun _ h => cmdWksValid_pwr h) h⟩

theorem cmdWksLogack_pwr {rq : Requester} {w : Word} (h : HasPwr pv s) : HasPwr pv (cmdWksLogack rq w s) :=
  busDone_pwr (ite_pwr (setF_pwr h) h)

theorem execWksLogack_pwr {rq : Requester} {w : Word} (h : HasPwr pv s) : NextPwr pv (execWksLogack rq w s) :=
  ⟨_, rfl, gate_pwr (fun _ h => cmdWksLogack_pwr h) h⟩

theorem linPulse_pwr {n k : Nat} (h : HasPwr pv s) : HasPwr pv (linPulse n k s) :=
  sys_pwr (emit_sys rfl) (h.upd rfl)

theorem execLinWakePulseTimeout_pwr {n : Nat} (h : HasPwr pv s) : NextPwr pv (execLinWakePulseTimeout n s) :=
  ⟨_, rfl, onlyIf_pwr (fun _ h => ite_pwr (serStart_pwr (h.upd rfl)) (ite_pwr (linPulse_pwr h) (h.upd rfl))) h⟩

/-! ## The functions of Machine/CarLink.lean -/

theorem holdsStart_pwr {m : Nat} (h : HasPwr pv s) : HasPwr pv (holdsStart m s) :=
  h.upd rfl

theorem execWireInChange_pwr {n : Nat} {level : Bool} (h : HasPwr pv s) : NextPwr pv (execWireInChange n level s) :=
  ⟨_, rfl, onlyIf_pwr (fun _ h => ite_pwr (h.upd rfl) (holdsStart_pwr (h.upd rfl))) h⟩

theorem wireChange_pwr {n : Nat} {st received : Bool} {p : LinkSide} {hop fcnt : Nat} (h : HasPwr pv s) :
    HasPwr pv (wireChange n st received p hop fcnt s) :=
  ite_pwr (orF_pwr h) (ite_pwr h (ite_pwr (setB_pwr (incWrap_pwr h le_addr_wireSeq)) ((incWrap_pwr h le_addr_wireSeq).upd rfl)))

theorem setDebounced_pwr {n : Nat} {v : Bool} (h : HasPwr pv s) : HasPwr pv (setDebounced n v s) :=
  ite_pwr h (wireChange_pwr (h.upd rfl))

theorem execWireDebounceExpiry_pwr {n : Nat} (h : HasPwr pv s) : NextPwr pv (execWireDebounceExpiry n s) :=
  ⟨_, rfl, onlyIf_pwr (fun _ h => setDebounced_pwr h) h⟩

theorem execWireRecordIssue_pwr (h : HasPwr pv s) : NextPwr pv (execWireRecordIssue s) := by
  refine ⟨_, rfl, ?_⟩
  split
  · exact h
  · exact ite_pwr h (internalInline_pwr (h.upd rfl))

theorem setOrigins_pwr {p : LinkSide} {o : List Nat} (h : HasPwr pv s) : HasPwr pv (setOrigins p o s) :=
  applyAll_pwr (fun _ _ h => setF_pwr h le_addr_originF) h

theorem showAlarms_pwr (h : HasPwr pv s) : HasPwr pv (showAlarms s) :=
  iteElse_pwr (setF_pwr (setF_pwr h)) fun h1 => raise_pwr (setB_pwr h1)

theorem sourceLost_pwr {p : LinkSide} (h : HasPwr pv s) : HasPwr pv (sourceLost p s) := by
  unfold sourceLost
  dsimp only
  split
  · exact sys_pwr (setLink_sys rfl) h
  · exact sys_pwr (setLink_sys rfl) h
  · exact sys_pwr (setLink_sys rfl) h
  · exact h

theorem sourceGained_pwr {p : LinkSide} (h : HasPwr pv s) : HasPwr pv (sourceGained p s) := by
  unfold sourceGained
  dsimp only
  split
  · exact h
  · exact sys_pwr (setLink_sys rfl) h

theorem receivedStates_pwr {p : LinkSide} {w : Nat} {hops : List Nat} {fcnt : Nat} (h : HasPwr pv s) :
    HasPwr pv (receivedStates p w hops fcnt s) :=
  applyAll_pwr (fun _ _ h => wireChange_pwr h) (sys_pwr (setLink_sys rfl) h)

theorem lockLoss_pwr {p : LinkSide} (h : HasPwr pv s) : HasPwr pv (lockLoss p s) :=
  raise_pwr (setB_pwr (iteElse_pwr (incF_pwr (showAlarms_pwr (sys_pwr (setLink_sys rfl)
    (setOrigins_pwr (receivedStates_pwr (sys_pwr (setRxState_sys rfl) (sourceLost_pwr h)))))) le_addr_sideF) fun h1 => setB_pwr h1) le_addr_sideF)

theorem headerFollow_pwr {p : LinkSide} {f : LinkFrame} (h : HasPwr pv s) : HasPwr pv (headerFollow p f s) :=
  setB_pwr (ite_pwr (setB_pwr h) h) le_addr_sideF

theorem positionFollow_pwr {f : LinkFrame} (h : HasPwr pv s) : HasPwr pv (positionFollow f s) :=
  ite_pwr (setB_pwr h) (setF_pwr (setB_pwr h))

theorem hopFollow_pwr {f : LinkFrame} (h : HasPwr pv s) : HasPwr pv (hopFollow f s) :=
  setB_pwr (ite_pwr (setB_pwr h) h)

theorem deliverMessage_pwr {p : LinkSide} {f : LinkFrame} (h : HasPwr pv s) : HasPwr pv (deliverMessage p f s) :=
  sendOwn_pwr h

theorem acceptFrame_pwr {p : LinkSide} {f : LinkFrame} (h : HasPwr pv s) : HasPwr pv (acceptFrame p f s) := by
  unfold acceptFrame
  extract_lets _ s1 s2 s3 l j s4 s5 _ t s6 _
  have hs1 : HasPwr pv s1 := setF_pwr (sys_pwr (setLink_sys rfl) h) le_addr_sideF
  have hs2 : HasPwr pv s2 := headerFollow_pwr hs1
  have hs3 : HasPwr pv s3 := ite_pwr (positionFollow_pwr hs2) (hopFollow_pwr hs2)
  have hs4 : HasPwr pv s4 := incF_pwr (incF_pwr (sys_pwr (setLink_sys rfl) hs3) le_addr_sideF) le_addr_sideF
  have hs5 : HasPwr pv s5 := setOrigins_pwr (receivedStates_pwr hs4)
  have ht : HasPwr pv t := showAlarms_pwr (sys_pwr (setLink_sys rfl) hs5)
  have hs6 : HasPwr pv s6 := ite_pwr (ite_pwr (deliverMessage_pwr ht) ht) (incF_pwr hs5 le_addr_sideF)
  exact ite_pwr (sys_pwr (setRxState_sys rfl) (sourceLost_pwr (sys_pwr (setLink_sys rfl) hs6))) hs6

theorem execCarlinkHuntSync_pwr {p : LinkSide} {bit : Nat} (h : HasPwr pv s) : NextPwr pv (execCarlinkHuntSync p bit s) :=
  ⟨_, rfl, onlyIf_pwr (fun _ h => ite_pwr h (sys_pwr (setLink_sys rfl) h)) h⟩

theorem execCarlinkCandidateFrame_pwr {p : LinkSide} {bit : Nat} {f : LinkFrame} (h : HasPwr pv s) :
    NextPwr pv (execCarlinkCandidateFrame p bit f s) := by
  refine ⟨_, rfl, ?_⟩
  dsimp only
  refine onlyIf_pwr (fun _ h => ?_) h
  split
  · exact h
  · exact ite_pwr (sys_pwr (setLink_sys rfl) h) (ite_pwr (acceptFrame_pwr (raise_pwr
      (setB_pwr (sourceGained_pwr (sys_pwr (setRxState_sys rfl) (sys_pwr (setLink_sys rfl) h))) le_addr_sideF))) (sys_pwr (setLink_sys rfl) h))

theorem execCarlinkFrameReceive_pwr {p : LinkSide} {f : LinkFrame} (h : HasPwr pv s) : NextPwr pv (execCarlinkFrameReceive p f s) :=
  ⟨_, rfl, onlyIf_pwr (fun _ h => ite_pwr (acceptFrame_pwr h) (iteElse_pwr (incF_pwr (sys_pwr (setLink_sys rfl) h) le_addr_sideF)
    fun h1 => lockLoss_pwr h1))
    h⟩

theorem execRelockSync_pwr {p : LinkSide} {off : Nat} {f : LinkFrame} (h : HasPwr pv s) : NextPwr pv (execRelockSync p off f s) :=
  ⟨_, rfl, onlyIf_pwr (fun _ h => acceptFrame_pwr (sourceGained_pwr (incF_pwr (sys_pwr (setRxState_sys rfl) h) le_addr_sideF))) h⟩

theorem execRelockTimeout_pwr {p : LinkSide} (h : HasPwr pv s) : NextPwr pv (execRelockTimeout p s) :=
  ⟨_, rfl, onlyIf_pwr (fun _ h => lockLoss_pwr h) h⟩

theorem sendFrame_pwr {p : LinkSide} {inc : Option LinkFrame} {slaved realign : Bool} (h : HasPwr pv s) :
    HasPwr pv (sendFrame p inc slaved realign s) :=
  iteElse_pwr (sys_pwr (setLink_sys rfl) (sys_pwr (emit_sys rfl) (setF_pwr (setF_pwr h le_addr_sideF)))) fun h1 => setB_pwr h1 le_addr_sideF

theorem execCarlinkFrameSend_pwr {p : LinkSide} {incoming : Option LinkFrame} (h : HasPwr pv s) :
    NextPwr pv (execCarlinkFrameSend p incoming s) := by
  refine ⟨_, rfl, ?_⟩
  split
  · exact h
  · exact sendFrame_pwr h
  · exact sys_pwr (setLink_sys rfl) (sendFrame_pwr h)
  · exact sendFrame_pwr h
  · exact h

theorem execRephaseStart_pwr {p : LinkSide} (h : HasPwr pv s) : NextPwr pv (execRephaseStart p s) := by
  refine ⟨_, rfl, ?_⟩
  dsimp only
  split
  · exact sys_pwr (setLink_sys rfl) h
  · exact sys_pwr (setLink_sys rfl) h
  · exact h

theorem msgTxWrite_pwr {p : LinkSide} {w : Word} (h : HasPwr pv s) : HasPwr pv (msgTxWrite p w s) :=
  ite_pwr (busError_pwr h) (iteElse_pwr (setF_pwr (setF_pwr (busDone_pwr h) le_addr_sideF) le_addr_sideF)
    fun h1 => setB_pwr h1 le_addr_sideF)

theorem cmdLnkMsgtxGo_pwr {rq : Requester} {p : LinkSide} {w : Word} (h : HasPwr pv s) : HasPwr pv (cmdLnkMsgtxGo rq p w s) :=
  msgTxWrite_pwr h

theorem execLnkMsgtxGo_pwr {rq : Requester} {p : LinkSide} {w : Word} (h : HasPwr pv s) : NextPwr pv (execLnkMsgtxGo rq p w s) :=
  ⟨_, rfl, gate_pwr (fun _ h => cmdLnkMsgtxGo_pwr h) h⟩

/-! ## The functions of Machine/Trn.lean -/

theorem setValueSlot_pwr {lid k : Nat} {x : Slot} (h : HasPwr pv s) : HasPwr pv (setValueSlot lid k x s) :=
  h.upd rfl

theorem sourceEntry_pwr {lid : Nat} {d : List Byte} {late : Bool} {ms e : Nat} (h : HasPwr pv s) :
    HasPwr pv (sourceEntry lid d late ms e s).2 :=
  iteSnd_pwr (sys_pwr (trnCount_sys rfl) h) (iteSnd_pwr (sys_pwr (trnCount_sys rfl) (setValueSlot_pwr h)) (setValueSlot_pwr h))

theorem sourceEntries_pwr {lid : Nat} {d : List Byte} {late : Bool} {ms : Nat} {l : List Nat} (h : HasPwr pv s) :
    HasPwr pv (sourceEntries lid d late ms l s).2 := by
  induction l generalizing s with
  | nil => exact h
  | cons e r ih => exact ih (sourceEntry_pwr h)

theorem packCounts_pwr {lid : Nat} {o : OutRec} (h : HasPwr pv s) : HasPwr pv (packCounts lid o s) :=
  sys_pwr (trnCount_sys rfl) h

theorem emitOutput_pwr {lid i : Nat} {o : OutRec} {lossless late : Bool} (h : HasPwr pv s) :
    HasPwr pv (emitOutput lid i o lossless late s) := by
  unfold emitOutput
  extract_lets body s1 _ s2 s3 frame w
  have hs1 : HasPwr pv s1 := applyAll_pwr (fun _ _ h => h.upd rfl) h
  have hs2 : HasPwr pv s2 := hs1.upd rfl
  have hs3 : HasPwr pv s3 := ite_pwr (sys_pwr (trnCount_sys rfl) hs2) hs2
  exact ite_pwr (sys_pwr (trnCount_sys rfl) h) (sendOwn_pwr (sys_pwr (trnCount_sys rfl) hs3))

theorem deferOutput_pwr {lid : Nat} {x : TrnState} (h : HasPwr pv s) : HasPwr pv (trnCount lid tDef 1 { s with trn := x }) := by
  have hx : HasPwr pv { s with trn := x } := h.upd rfl
  exact sys_pwr (trnCount_sys rfl) hx

theorem onChange_pwr {lid : Nat} {updated : List Nat} {lossless : Option Bool} {late : Bool} {i : Nat} (h : HasPwr pv s) :
    HasPwr pv (onChange lid updated lossless late i s).2 := by
  unfold onChange
  extract_lets o reads s1
  have hs1 : HasPwr pv s1 := packCounts_pwr h
  exact iteSnd_pwr h (iteSnd_pwr hs1 (iteSnd_pwr (iteSnd_pwr hs1 (pair_pwr (deferOutput_pwr hs1)))
    (pair_pwr (emitOutput_pwr hs1))))

theorem onChanges_pwr {lid : Nat} {updated : List Nat} {lossless : Option Bool} {late : Bool} {l : List Nat} (h : HasPwr pv s) :
    HasPwr pv (onChanges lid updated lossless late l s).2 := by
  induction l generalizing s with
  | nil => exact h
  | cons i r ih => exact ih (onChange_pwr h)

theorem handleFrame_pwr {lid : Nat} {it : Item} {w : Waybill} (h : HasPwr pv s) : HasPwr pv (handleFrame lid it w s).2 := by
  unfold handleFrame
  dsimp only
  split
  · exact sys_pwr (freePages_sys rfl) (sys_pwr (trnCount_sys rfl) h)
  · have h1 := fun l => sys_pwr (freePages_sys (l := l) rfl) (sys_pwr (trnCount_sys (lid := lid) (i := tItems) (n := 1) rfl) h)
    exact iteSnd_pwr (pair_pwr (sys_pwr (trnCount_sys rfl) (sys_pwr (trnCount_sys rfl) (h1 _))))
      (pair_pwr (onChanges_pwr (sourceEntries_pwr (h1 _))))

theorem handleTimeout_pwr {lid : Nat} {it : Item} {e : Nat} (h : HasPwr pv s) : HasPwr pv (handleTimeout lid it e s).2 :=
  iteSnd_pwr h (onChanges_pwr (sys_pwr (trnCount_sys rfl) (setValueSlot_pwr h)))

theorem handleSend_pwr {lid : Nat} {it : Item} {i : Nat} (h : HasPwr pv s) : HasPwr pv (handleSend lid it i s).2 :=
  emitOutput_pwr (packCounts_pwr h)

theorem handleItem_pwr {lid : Nat} {it : Item} (h : HasPwr pv s) : HasPwr pv (handleItem lid it s).2 := by
  unfold handleItem
  split
  · exact handleFrame_pwr h
  · exact handleTimeout_pwr h
  · exact handleSend_pwr h
  · exact handleSend_pwr (h.upd rfl)

theorem runItem_pwr {lid : Nat} (h : HasPwr pv s) : HasPwr pv (runItem lid s) := by
  unfold runItem
  dsimp only
  split
  · exact h
  · refine ite_pwr h ?_
    split
    · exact underGen_pwr (fun _ h => sys_pwr (setLodger_sys rfl) (handleItem_pwr h)) h
    · exact sys_pwr (setLodger_sys rfl) (handleItem_pwr h)

theorem execFrameItem_pwr {lid : Nat} (h : HasPwr pv s) : NextPwr pv (execFrameItem lid s) := by
  refine ⟨_, rfl, ?_⟩
  split
  · exact runItem_pwr h
  · exact h

theorem execSourceTimeout_pwr {lid e : Nat} (h : HasPwr pv s) : NextPwr pv (execSourceTimeout lid e s) :=
  ⟨_, rfl, onlyIf_pwr (fun _ h => releaseItem_pwr h) h⟩

theorem execCyclicRelease_pwr {lid i : Nat} (h : HasPwr pv s) : NextPwr pv (execCyclicRelease lid i s) :=
  ⟨_, rfl, onlyIf_pwr (fun _ h => ite_pwr (sys_pwr (trnCount_sys rfl) h) (releaseItem_pwr h)) h⟩

theorem execDeferredSend_pwr {lid i : Nat} (h : HasPwr pv s) : NextPwr pv (execDeferredSend lid i s) :=
  ⟨_, rfl, onlyIf_pwr (fun _ h => releaseItem_pwr h) h⟩

theorem cmdTrnSigsel_pwr {rq : Requester} {w : Word} (h : HasPwr pv s) : HasPwr pv (cmdTrnSigsel rq w s) := by
  unfold cmdTrnSigsel
  extract_lets g s1
  have hs1 : HasPwr pv s1 := busDone_pwr (setF_pwr h)
  split
  · exact setFree_pwr (setFree_pwr (setFree_pwr (setFree_pwr hs1)))
  · exact ite_pwr (setFree_pwr (setF_pwr (setF_pwr (setB_pwr hs1)))) (setF_pwr (setF_pwr (setF_pwr (setB_pwr hs1))))

theorem execTrnSigsel_pwr {rq : Requester} {w : Word} (h : HasPwr pv s) : NextPwr pv (execTrnSigsel rq w s) :=
  ⟨_, rfl, gate_pwr (fun _ h => cmdTrnSigsel_pwr h) h⟩

theorem execLodgerPeriodStart_pwr {lid : Nat} (h : HasPwr pv s) : NextPwr pv (execLodgerPeriodStart lid s) :=
  ⟨_, rfl, onlyIf_pwr (fun _ h => sys_pwr (setLodger_sys rfl) h) h⟩

theorem execItemRelease_pwr {lid : Nat} {w : ItemWork} (h : HasPwr pv s) : NextPwr pv (execItemRelease lid w s) :=
  ⟨_, rfl, releaseItem_pwr h⟩

theorem execItemDispatch_pwr (h : HasPwr pv s) : NextPwr pv (execItemDispatch s) := by
  refine ⟨_, rfl, ?_⟩
  refine onlyIf_pwr (fun _ h => ?_) h
  split
  · exact h
  · dsimp only
    split
    · exact h
    · exact sys_pwr (setLodger_sys rfl) (h.upd rfl)

theorem retryFaults_pwr (h : HasPwr pv s) : HasPwr pv (retryFaults s) :=
  applyAll_pwr (fun _ _ h => sys_pwr (contextFault_sys rfl) h) h

theorem execItemComplete_pwr {lid : Nat} (h : HasPwr pv s) : NextPwr pv (execItemComplete lid s) :=
  ⟨_, rfl, onlyIf_pwr (fun _ h => retryFaults_pwr (sys_pwr (setLodger_sys rfl) (runItem_pwr h))) h⟩

theorem execDeadlineMiss_pwr {lid : Nat} (h : HasPwr pv s) : NextPwr pv (execDeadlineMiss lid s) := by
  refine ⟨_, rfl, ?_⟩
  dsimp only
  split
  · exact h
  · exact raise_pwr (incF_pwr (setF_pwr (sys_pwr (setLodger_sys rfl) h)))

theorem execPageInDone_pwr {lid us : Nat} (h : HasPwr pv s) : NextPwr pv (execPageInDone lid us s) :=
  ⟨_, rfl, onlyIf_pwr (fun _ h => setF_pwr (sys_pwr (setLodger_sys rfl) h)) h⟩

theorem execPagingMsCheck_pwr (h : HasPwr pv s) : NextPwr pv (execPagingMsCheck s) :=
  ⟨_, rfl, ite_pwr (raise_pwr (setF_pwr (h.upd rfl))) (setF_pwr (h.upd rfl))⟩

/-! ## The functions of Machine/Cabinet.lean -/

theorem motorFault_pwr {m reason : Nat} (h : HasPwr pv s) : HasPwr pv (motorFault m reason s) :=
  ite_pwr h (raise_pwr (setB_pwr (setF_pwr (sys_pwr (setMotorState_sys rfl) (sys_pwr (coast_sys rfl) h)))))

theorem dcLink_pwr {m v : Nat} (h : HasPwr pv s) : HasPwr pv (dcLink m v s) := by
  unfold dcLink
  extract_lets c h' vs vh vt soft hard trip s1 brk s2 s3 newHard tripped newTrip s4 s5 s6
  have hs1 : HasPwr pv s1 := sys_pwr (setMotor_sys rfl) (setF_pwr h)
  have hs2 : HasPwr pv s2 := setB_pwr (setB_pwr (setB_pwr hs1))
  have hs3 : HasPwr pv s3 := ite_pwr (setB_pwr hs2) hs2
  have hs4 : HasPwr pv s4 := ite_pwr (setB_pwr hs3) hs3
  have hs5 : HasPwr pv s5 := ite_pwr (setB_pwr hs4) hs4
  have hs6 : HasPwr pv s6 := ite_pwr (raise_pwr hs5) hs5
  exact ite_pwr (motorFault_pwr hs6) hs6

theorem currentSample_pwr {m i : Nat} (h : HasPwr pv s) : HasPwr pv (currentSample m i s) :=
  ite_pwr (setF_pwr h) (iteElse_pwr (sys_pwr (setMotor_sys rfl) (setF_pwr h)) fun h1 => motorFault_pwr h1)

theorem window_pwr {i code w : Nat} (h : HasPwr pv s) : HasPwr pv (window i code w s) := by
  refine ite_pwr h ?_
  extract_lets inside met filt a b _ s1 s2
  have hs2 : HasPwr pv s2 := ite_pwr (orF_pwr (h.upd rfl)) (clrF_pwr (h.upd rfl))
  exact ite_pwr (raise_pwr (orF_pwr (hs2.upd rfl))) (ite_pwr (hs2.upd rfl) hs2)

theorem conversion_pwr {i code : Nat} (h : HasPwr pv s) : HasPwr pv (conversion i code s) :=
  iteElse_pwr (applyAll_pwr (fun _ _ h => window_pwr h) (setF_pwr (setF_pwr h))) fun h1 => ite_pwr (sys_pwr (wearBump_sys rfl) (setF_pwr h1))
    (setF_pwr h1)

theorem execAdcConversion_pwr {i code : Nat} (h : HasPwr pv s) : NextPwr pv (execAdcConversion i code s) :=
  ⟨_, rfl, onlyIf_pwr (fun _ h => iteElse_pwr (conversion_pwr h) fun h1 => dcLink_pwr h1) h⟩

theorem execPwmTrigger_pwr {m icode vcode : Nat} {waited : Bool} (h : HasPwr pv s) : NextPwr pv (execPwmTrigger m icode vcode waited s) :=
  ⟨_, rfl, onlyIf_pwr (fun _ h => dcLink_pwr (currentSample_pwr (conversion_pwr (conversion_pwr (ite_pwr (incF_pwr h) h))))) h⟩

theorem motorStop_pwr {m : Nat} (h : HasPwr pv s) : HasPwr pv (motorStop m s) :=
  ite_pwr (sys_pwr (coast_sys rfl) h) (sys_pwr (setMotorState_sys rfl) (sys_pwr (setMotor_sys rfl) h))

theorem motorCmd_pwr {m : Nat} {ok : Nat → Bool} {g : State → State} (hg : ∀ s, HasPwr pv s → HasPwr pv (g s)) (h : HasPwr pv s) :
    HasPwr pv (motorCmd m ok g s) :=
  ite_pwr (busError_pwr h) (ite_pwr (busError_pwr h) (ite_pwr (busDone_pwr h) (hg _ (busDone_pwr h))))

theorem motorRun_pwr {m : Nat} {t : Int} (h : HasPwr pv s) : HasPwr pv (motorRun m t s) :=
  ite_pwr (sys_pwr (setMotorState_sys rfl) (sys_pwr (setMotor_sys rfl) h)) (ite_pwr (motorStop_pwr h)
    (ite_pwr (sys_pwr (setMotorState_sys rfl) (sys_pwr (setMotor_sys rfl) h)) (sys_pwr (setMotor_sys rfl) h)))

theorem motCmdWrite_pwr {m : Nat} {w : Word} (h : HasPwr pv s) : HasPwr pv (motCmdWrite m w s) := by
  unfold motCmdWrite
  split
  · exact ite_pwr (motorCmd_pwr (fun _ h => motorRun_pwr h) h) (busError_pwr h)
  · exact motorCmd_pwr (fun _ h => ite_pwr h (motorStop_pwr h)) h
  · exact motorCmd_pwr (fun _ h => sys_pwr (coast_sys rfl) h) h
  · exact motorCmd_pwr (fun _ h => sys_pwr (setMotorState_sys rfl) h) h
  · exact busError_pwr h

theorem execMotorRun_pwr {rq : Requester} {m : Nat} {w : Word} (h : HasPwr pv s) : NextPwr pv (execMotorRun rq m w s) :=
  ⟨_, rfl, gate_pwr (fun _ h => motCmdWrite_pwr h) h⟩

theorem execMotorStop_pwr {rq : Requester} {m : Nat} (h : HasPwr pv s) : NextPwr pv (execMotorStop rq m s) :=
  ⟨_, rfl, gate_pwr (fun _ h => motCmdWrite_pwr h) h⟩

theorem execMotorCoast_pwr {rq : Requester} {m : Nat} (h : HasPwr pv s) : NextPwr pv (execMotorCoast rq m s) :=
  ⟨_, rfl, gate_pwr (fun _ h => motCmdWrite_pwr h) h⟩

theorem execMotorClear_pwr {rq : Requester} {m : Nat} (h : HasPwr pv s) : NextPwr pv (execMotorClear rq m s) :=
  ⟨_, rfl, gate_pwr (fun _ h => motCmdWrite_pwr h) h⟩

theorem enterRunning_pwr {m : Nat} (h : HasPwr pv s) : HasPwr pv (enterRunning m s) :=
  iteThen_pwr (sys_pwr (setMotorState_sys rfl) (sys_pwr (setMotor_sys rfl) h)) fun h1 => sys_pwr (wearBump_sys rfl) h1

theorem startFromStand_pwr {m : Nat} (h : HasPwr pv s) : HasPwr pv (startFromStand m s) :=
  ite_pwr (enterRunning_pwr (sys_pwr (setMotor_sys rfl) h)) (sys_pwr (setMotorState_sys rfl) (sys_pwr (setMotor_sys rfl) h))

theorem catchAt_pwr {m : Nat} {v : Int} (h : HasPwr pv s) : HasPwr pv (catchAt m v s) :=
  enterRunning_pwr (sys_pwr (setMotor_sys rfl) h)

theorem showSpeed_pwr {m rpm : Nat} {rev : Bool} (h : HasPwr pv s) : HasPwr pv (showSpeed m rpm rev s) :=
  setF_pwr (setB_pwr h)

theorem execMotorObservationEnd_pwr {m events rpm : Nat} {rev : Bool} (h : HasPwr pv s) :
    NextPwr pv (execMotorObservationEnd m events rpm rev s) := by
  refine ⟨_, rfl, ?_⟩
  dsimp only
  refine onlyIf_pwr (fun _ h => ite_pwr (startFromStand_pwr (showSpeed_pwr h))
    (ite_pwr (iteThen_pwr (showSpeed_pwr h) fun h1 => catchAt_pwr h1) (ite_pwr (showSpeed_pwr h) ?_))) h
  split
  · exact sys_pwr (setMotorState_sys rfl) (raise_pwr (setB_pwr (showSpeed_pwr h)))
  · exact sys_pwr (setMotorState_sys rfl) (sys_pwr (setMotor_sys rfl) (raise_pwr (setB_pwr (showSpeed_pwr h))))
  · exact catchAt_pwr (raise_pwr (setB_pwr (showSpeed_pwr h)))

theorem execMotorMeasurementEnd_pwr {m events rpm : Nat} {rev : Bool} (h : HasPwr pv s) :
    NextPwr pv (execMotorMeasurementEnd m events rpm rev s) :=
  ⟨_, rfl, onlyIf_pwr (fun _ h => sys_pwr (coast_sys rfl) (ite_pwr (showSpeed_pwr h) (showSpeed_pwr h))) h⟩

theorem refreshSinus_pwr {m : Nat} (h : HasPwr pv s) : HasPwr pv (refreshSinus m s) :=
  setB_pwr h

theorem execMotorPositionEvent_pwr {m code ns : Nat} (h : HasPwr pv s) : NextPwr pv (execMotorPositionEvent m code ns s) := by
  refine ⟨_, rfl, ?_⟩
  refine onlyIf_pwr (fun _ h => refreshSinus_pwr ?_) h
  split
  · exact iteElse_pwr (ite_pwr (sys_pwr (setMotor_sys rfl) h) (showSpeed_pwr (sys_pwr (setMotor_sys rfl) h))) fun h1 => catchAt_pwr h1
  · exact iteElse_pwr (ite_pwr (sys_pwr (setMotor_sys rfl) h) (showSpeed_pwr (sys_pwr (setMotor_sys rfl) h))) fun h1 => catchAt_pwr h1
  · exact ite_pwr (sys_pwr (setMotor_sys rfl) h) (showSpeed_pwr (sys_pwr (setMotor_sys rfl) h))

theorem execMotorPwmPeriod_pwr {m : Nat} (h : HasPwr pv s) : NextPwr pv (execMotorPwmPeriod m s) := by
  refine ⟨_, rfl, ?_⟩
  refine onlyIf_pwr (fun _ h => ite_pwr (ite_pwr h (sys_pwr (setMotor_sys rfl) h))
    (ite_pwr ?_ (ite_pwr (sys_pwr (coast_sys rfl) (sys_pwr (setMotor_sys rfl) h)) (ite_pwr (sys_pwr (setMotorState_sys rfl) (sys_pwr
      (setMotor_sys rfl) (sys_pwr (setMotor_sys rfl) h)))
    (refreshSinus_pwr (sys_pwr (setMotor_sys rfl) h)))))) h
  split
  · exact sys_pwr (setMotor_sys rfl) h
  · exact sys_pwr (setMotor_sys rfl) h
  · exact h

theorem execMotorAlignEnd_pwr {m : Nat} (h : HasPwr pv s) : NextPwr pv (execMotorAlignEnd m s) :=
  ⟨_, rfl, onlyIf_pwr (fun _ h => sys_pwr (setMotor_sys rfl) h) h⟩

theorem execMotorHandoverTimeout_pwr {m : Nat} (h : HasPwr pv s) : NextPwr pv (execMotorHandoverTimeout m s) :=
  ⟨_, rfl, onlyIf_pwr (fun _ h => motorFault_pwr h) h⟩

theorem execMotorStallTimeout_pwr {m : Nat} (h : HasPwr pv s) : NextPwr pv (execMotorStallTimeout m s) :=
  ⟨_, rfl, onlyIf_pwr (fun _ h => motorFault_pwr h) h⟩

theorem execMotorWaitLimit_pwr {m : Nat} (h : HasPwr pv s) : NextPwr pv (execMotorWaitLimit m s) :=
  ⟨_, rfl, onlyIf_pwr (fun _ h => motorFault_pwr h) h⟩

theorem execMotorHallInvalid_pwr {m code : Nat} (h : HasPwr pv s) : NextPwr pv (execMotorHallInvalid m code s) :=
  ⟨_, rfl, onlyIf_pwr (fun _ h => motorFault_pwr h) h⟩

theorem execMotorFltInput_pwr {m : Nat} (h : HasPwr pv s) : NextPwr pv (execMotorFltInput m s) :=
  ⟨_, rfl, onlyIf_pwr (fun _ h => motorFault_pwr h) h⟩

theorem motTestWrite_pwr {m : Nat} {w : Word} (h : HasPwr pv s) : HasPwr pv (motTestWrite m w s) :=
  ite_pwr (busError_pwr h) (ite_pwr (busDone_pwr h) (ite_pwr (ite_pwr (busDone_pwr h)
    (busDone_pwr (sys_pwr (coast_sys rfl) (h.upd rfl)))) (busDone_pwr (iteElse_pwr (sys_pwr (setMotorState_sys rfl) (sys_pwr (setMotor_sys rfl)
      (h.upd rfl)))
    fun h1 => h1.upd rfl))))

theorem cmdMotorTest_pwr {rq : Requester} {m : Nat} {w : Word} (h : HasPwr pv s) : HasPwr pv (cmdMotorTest rq m w s) :=
  motTestWrite_pwr h

theorem execMotorTest_pwr {rq : Requester} {m : Nat} {w : Word} (h : HasPwr pv s) : NextPwr pv (execMotorTest rq m w s) :=
  ⟨_, rfl, gate_pwr (fun _ h => cmdMotorTest_pwr h) h⟩

theorem lampSwitchOn_pwr {n st : Nat} (h : HasPwr pv s) : HasPwr pv (lampSwitchOn n st s) :=
  iteThen_pwr (sys_pwr (wearBump_sys rfl) (incF_pwr (setB_pwr (sys_pwr (setLampState_sys rfl) (h.upd rfl))))) fun h1 => sys_pwr
    (setWearItem_sys rfl) h1

theorem lampAsk_pwr {n : Nat} (h : HasPwr pv s) : HasPwr pv (lampAsk n s) :=
  ite_pwr (lampSwitchOn_pwr (setF_pwr h)) (sys_pwr (setLampState_sys rfl) (sys_pwr (setLampWaits_sys rfl) h))

theorem lmpCmdWrite_pwr {n : Nat} {w : Word} (h : HasPwr pv s) : HasPwr pv (lmpCmdWrite n w s) := by
  unfold lmpCmdWrite
  dsimp only
  refine ite_pwr (busError_pwr h) (ite_pwr (busDone_pwr (setF_pwr (setF_pwr (setF_pwr h))))
    (ite_pwr (busDone_pwr (setF_pwr (setF_pwr (setF_pwr (sys_pwr (lampOff_sys rfl) h))))) (ite_pwr (busDone_pwr h) ?_)))
  split
  · exact lampAsk_pwr (busDone_pwr (setF_pwr (setF_pwr (setF_pwr h))))
  · exact iteElse_pwr (busDone_pwr (setF_pwr (setF_pwr (setF_pwr h)))) fun h1 => lampAsk_pwr h1
  · exact busDone_pwr (setF_pwr (setF_pwr (setF_pwr h)))

theorem execLampCommand_pwr {rq : Requester} {n : Nat} {w : Word} (h : HasPwr pv s) : NextPwr pv (execLampCommand rq n w s) :=
  ⟨_, rfl, gate_pwr (fun _ h => lmpCmdWrite_pwr h) h⟩

theorem execLampTokenGrant_pwr {g : Nat} (h : HasPwr pv s) : NextPwr pv (execLampTokenGrant g s) := by
  refine ⟨_, rfl, ?_⟩
  refine onlyIf_pwr (fun _ h => ?_) h
  split
  · exact h
  · exact lampSwitchOn_pwr (setF_pwr (sys_pwr (setLampWaits_sys rfl) h))

theorem lampLatch_pwr {n e : Nat} (h : HasPwr pv s) : HasPwr pv (lampLatch n e s) :=
  raise_pwr (setB_pwr (sys_pwr (setLampState_sys rfl) h))

theorem lampFaultOff_pwr {n reason : Nat} (h : HasPwr pv s) : HasPwr pv (lampFaultOff n reason s) :=
  incF_pwr (setB_pwr (setF_pwr (sys_pwr (dropToken_sys rfl) h)))

theorem lampTrip_pwr {n reason : Nat} (h : HasPwr pv s) : HasPwr pv (lampTrip n reason s) :=
  ite_pwr (lampLatch_pwr (setF_pwr (lampFaultOff_pwr h))) (sys_pwr (setLampState_sys rfl) (setF_pwr (lampFaultOff_pwr h)))

theorem execLampInrushEnd_pwr {n : Nat} {above : Bool} (h : HasPwr pv s) : NextPwr pv (execLampInrushEnd n above s) :=
  ⟨_, rfl, onlyIf_pwr (fun _ h => ite_pwr (lampLatch_pwr (lampFaultOff_pwr h)) (sys_pwr (setLampState_sys rfl) (sys_pwr (dropToken_sys rfl) h))) h⟩

theorem execLampHardShort_pwr {n : Nat} (h : HasPwr pv s) : NextPwr pv (execLampHardShort n s) :=
  ⟨_, rfl, onlyIf_pwr (fun _ h => setB_pwr (lampTrip_pwr h)) h⟩

theorem execLampOvercurrent_pwr {n : Nat} (h : HasPwr pv s) : NextPwr pv (execLampOvercurrent n s) :=
  ⟨_, rfl, onlyIf_pwr (fun _ h => lampTrip_pwr h) h⟩

theorem execLampGroupLimit_pwr {g : Nat} (h : HasPwr pv s) : NextPwr pv (execLampGroupLimit g s) := by
  refine ⟨_, rfl, ?_⟩
  dsimp only
  refine onlyIf_pwr (fun _ h => ?_) h
  split
  · exact setB_pwr (setB_pwr h)
  · exact iteThen_pwr (lampTrip_pwr (setB_pwr (setB_pwr h))) fun h1 => raise_pwr h1

theorem execLampDisturbanceEnd_pwr {g : Nat} (h : HasPwr pv s) : NextPwr pv (execLampDisturbanceEnd g s) :=
  ⟨_, rfl, onlyIf_pwr (fun _ h => iteElse_pwr (setB_pwr (setB_pwr h)) fun h1 => setB_pwr h1) h⟩

theorem execLampCoolDownEnd_pwr {n : Nat} (h : HasPwr pv s) : NextPwr pv (execLampCoolDownEnd n s) :=
  ⟨_, rfl, onlyIf_pwr (fun _ h => lampAsk_pwr h) h⟩

theorem execLampBlinkPhase_pwr {n : Nat} (h : HasPwr pv s) : NextPwr pv (execLampBlinkPhase n s) := by
  refine ⟨_, rfl, ?_⟩
  refine onlyIf_pwr (fun _ h => ?_) h
  split
  · exact sys_pwr (setLampState_sys rfl) (sys_pwr (dropToken_sys rfl) h)
  · exact sys_pwr (setLampState_sys rfl) h
  · exact lampAsk_pwr h
  · exact h

theorem execLampOpenDetect_pwr {n : Nat} {below : Bool} (h : HasPwr pv s) : NextPwr pv (execLampOpenDetect n below s) :=
  ⟨_, rfl, onlyIf_pwr (fun _ h => ite_pwr (ite_pwr h (raise_pwr (setB_pwr (setB_pwr h)))) (setB_pwr h)) h⟩

theorem execLampTriesReset_pwr {n : Nat} (h : HasPwr pv s) : NextPwr pv (execLampTriesReset n s) :=
  ⟨_, rfl, onlyIf_pwr (fun _ h => setF_pwr h) h⟩

theorem lmpTestWrite_pwr {w : Word} (h : HasPwr pv s) : HasPwr pv (lmpTestWrite w s) :=
  ite_pwr (busError_pwr h) (ite_pwr (busDone_pwr h) (busDone_pwr ((ite_pwr h (lampSwitchOn_pwr (sys_pwr (dropToken_sys rfl) h))).upd rfl)))

theorem cmdLampTest_pwr {rq : Requester} {w : Word} (h : HasPwr pv s) : HasPwr pv (cmdLampTest rq w s) :=
  lmpTestWrite_pwr h

theorem execLampTest_pwr {rq : Requester} {w : Word} (h : HasPwr pv s) : NextPwr pv (execLampTest rq w s) :=
  ⟨_, rfl, gate_pwr (fun _ h => cmdLampTest_pwr h) h⟩

/-! ## The functions of Machine/Wear.lean -/

theorem wearEvent_pwr {f : Fld} {e item inst : Nat} (h : HasPwr pv s)
    (hf : 0x40030000 ≤ f.addr := by (repeat apply Nat.le_add_right_of_le); decide) : HasPwr pv (wearEvent f e item inst s) :=
  sys_pwr (wearEvent_sys hf rfl) h

theorem judgeItem_pwr {x : Nat × Nat} (h : HasPwr pv s) : HasPwr pv (judgeItem x s) := by
  unfold judgeItem
  dsimp only
  split
  · exact sys_pwr (setWearItem_sys rfl) h
  · exact iteElse_pwr (iteElse_pwr (sys_pwr (setWearItem_sys rfl) h) fun h1 => wearEvent_pwr h1) fun h1 => wearEvent_pwr h1

theorem execLedgerSave_pwr (h : HasPwr pv s) : NextPwr pv (execLedgerSave s) :=
  ⟨_, rfl, onlyIf_pwr (fun _ h => sys_pwr (ledgerSave_sys rfl) h) h⟩

theorem execLedgerSaveDone_pwr (h : HasPwr pv s) : NextPwr pv (execLedgerSaveDone s) := by
  refine ⟨_, rfl, ?_⟩
  split
  · exact h
  · extract_lets _ s1 _ s2
    have hs1 : HasPwr pv s1 := sys_pwr (storeWrite_sys rfl) (h.upd rfl)
    have hs2 : HasPwr pv s2 := setB_pwr (hs1.upd rfl)
    exact ite_pwr (sys_pwr (ledgerSave_sys rfl) hs2) hs2

theorem execLedgerSecond_pwr (h : HasPwr pv s) : NextPwr pv (execLedgerSecond s) :=
  ⟨_, rfl, onlyIf_pwr (fun _ h => applyAll_pwr (fun _ _ h => judgeItem_pwr h) (sys_pwr (wearBump_sys rfl) (sys_pwr (wearBump_sys rfl) (sys_pwr
    (ledgerAdvance_sys rfl) h)))) h⟩

theorem execTemperatureMeasure_pwr {t : Int} (h : HasPwr pv s) : NextPwr pv (execTemperatureMeasure t s) :=
  ⟨_, rfl, onlyIf_pwr (fun _ h => ite_pwr (raise_pwr ((setF_pwr (ite_pwr (setF_pwr h) h)).upd rfl))
    (ite_pwr ((setF_pwr (ite_pwr (setF_pwr h) h)).upd rfl) ((setF_pwr (ite_pwr (setF_pwr h) h)).upd rfl))) h⟩

theorem execRingOscillatorMeasure_pwr {ppm : List Int} (h : HasPwr pv s) : NextPwr pv (execRingOscillatorMeasure ppm s) :=
  ⟨_, rfl, onlyIf_pwr (fun _ h => applyAll_pwr (fun _ _ h => sys_pwr (setWearItem_sys rfl) h) h) h⟩

theorem execMonthlySample_pwr (h : HasPwr pv s) : NextPwr pv (execMonthlySample s) :=
  ⟨_, rfl, onlyIf_pwr (fun _ h => sys_pwr (ledgerSave_sys rfl) (applyAll_pwr (fun _ _ h => sys_pwr (predictItem_sys rfl) h) (sys_pwr
    (sampleAll_sys rfl) h))) h⟩

theorem werReset_pwr {rq : Requester} {w : Word} (h : HasPwr pv s) : HasPwr pv (werReset rq w s) :=
  ite_pwr (busError_pwr h) (sys_pwr (ledgerSave_sys rfl) (sys_pwr (setWearItem_sys rfl) (busDone_pwr h)))

theorem execWerReset_pwr {rq : Requester} {w : Word} (h : HasPwr pv s) : NextPwr pv (execWerReset rq w s) :=
  ⟨_, rfl, gate_pwr (fun _ h => werReset_pwr h) h⟩

theorem werSel_pwr {w : Word} (h : HasPwr pv s) : HasPwr pv (werSel w s) := by
  unfold werSel
  extract_lets item inst s1 here v it r e rem s2
  have hs1 : HasPwr pv s1 := setF_pwr (setF_pwr (busDone_pwr h))
  have hs2 : HasPwr pv s2 := setB_pwr (setB_pwr (setB_pwr (setF_pwr
    (setF_pwr (setB_pwr (setB_pwr (setB_pwr (setF_pwr hs1))))))))
  exact setF_pwr (setF_pwr (setF_pwr (setF_pwr (setF_pwr (setF_pwr (setF_pwr (setF_pwr (setF_pwr hs2))))))))

theorem execWerSel_pwr {rq : Requester} {w : Word} (h : HasPwr pv s) : NextPwr pv (execWerSel rq w s) :=
  ⟨_, rfl, gate_pwr (fun _ h => werSel_pwr h) h⟩

/-! ## The functions of Machine/Power.lean -/

theorem pllTry_pwr (h : HasPwr pv s) : HasPwr pv (pllTry s) :=
  ite_pwr (h.upd rfl) h

theorem execResetNRelease_pwr (h : HasPwr pv s) : NextPwr pv (execResetNRelease s) :=
  ⟨_, rfl, h.upd rfl⟩

theorem execFullResetEnd_pwr (h : HasPwr pv s) : NextPwr pv (execFullResetEnd s) :=
  ⟨_, rfl, onlyIf_pwr (fun _ h => pllTry_pwr (h.upd rfl)) h⟩

theorem execRootPllLockLoss_pwr (h : HasPwr pv s) : NextPwr pv (execRootPllLockLoss s) :=
  ⟨_, rfl, h⟩

theorem wdsRestart_pwr (h : HasPwr pv s) : HasPwr pv (wdsRestart s) :=
  h.upd rfl

theorem cmdSecureWatchdogKick_pwr {rq : Requester} {key : Nat} (h : HasPwr pv s) : HasPwr pv (cmdSecureWatchdogKick rq key s) :=
  secureOnly_pwr (fun _ h => ite_pwr (wdsRestart_pwr (busDone_pwr h)) (busDone_pwr h)) h

theorem execSecureWatchdogKick_pwr {rq : Requester} {key : Nat} (h : HasPwr pv s) : NextPwr pv (execSecureWatchdogKick rq key s) :=
  ⟨_, rfl, gate_pwr (fun _ h => cmdSecureWatchdogKick_pwr h) h⟩

/-! ## The functions of Machine/Ploilhan.lean -/

theorem hieOut_pwr {p : Nat} {boot : Bool} {f : List Byte} (h : HasPwr pv s) : HasPwr pv (hieOut p boot f s) :=
  ite_pwr (ite_pwr (unitFrame_pwr h) h) (ite_pwr (sys_pwr (emit_sys rfl) h) h)

theorem consistSlot_pwr (h : HasPwr pv s) : HasPwr pv (consistSlot s).2 :=
  hwLoad_pwr h

theorem nextCounter_pwr (h : HasPwr pv s) : HasPwr pv (nextCounter s).2 :=
  iteSnd_pwr (h.upd rfl) (setF_pwr (sys_pwr (storeWrite_sys rfl) (h.upd rfl)))

theorem hieSend_pwr {type dst : Nat} {boot : Bool} {payload : List Byte} (h : HasPwr pv s) :
    HasPwr pv (hieSend type dst boot payload s) := by
  refine ite_pwr (incF_pwr (applyAll_pwr (fun _ _ h => hieOut_pwr h) h)) ?_
  split
  · next e1 => exact (consistSlot_pwr h).of_eq e1
  · next e1 =>
      extract_lets c msg
      have hc : HasPwr pv c.2 := nextCounter_pwr ((consistSlot_pwr h).of_eq e1)
      split
      · next e2 => exact (hwCmac_pwr hc).of_eq e2
      · next e2 => exact incF_pwr (applyAll_pwr (fun _ _ h => hieOut_pwr h) ((hwCmac_pwr hc).of_eq e2))

theorem relay_pwr {p : Nat} {f : List Byte} (h : HasPwr pv s) : HasPwr pv (relay p f s) :=
  ite_pwr h (hieOut_pwr h)

theorem takeMsg_pwr {type : Nat} {ok : PMsg → Bool} {g : PMsg → State → State} (hg : ∀ x s, HasPwr pv s → HasPwr pv (g x s))
    (h : HasPwr pv s) : HasPwr pv (takeMsg type ok g s) := by
  unfold takeMsg
  split
  · exact h
  · exact ite_pwr (hg _ _ (h.upd rfl)) h

/-! ## The functions of Machine/Loader.lean -/

theorem showFail_pwr {f : ImgFail} (h : HasPwr pv s) : HasPwr pv (showFail f s) :=
  setF_pwr (setF_pwr (setF_pwr (setF_pwr h)))

theorem requestPieces_pwr {img first count : Nat} (h : HasPwr pv s) : HasPwr pv (requestPieces img first count s) :=
  hieSend_pwr h

/-! ## The functions of Machine/CutOver.lean -/

theorem execCanIntegrationDone_pwr {n : Nat} (h : HasPwr pv s) : NextPwr pv (execCanIntegrationDone n s) :=
  ⟨_, rfl, onlyIf_pwr (fun _ h => sys_pwr (canGoto_sys rfl) h) h⟩

/-! ## The functions of Machine/Delta.lean -/

theorem deltaRefuse_pwr {why : Nat} (h : HasPwr pv s) : HasPwr pv (deltaRefuse why s) :=
  setB_pwr (setF_pwr h)

theorem deltaReport_pwr {owner : Nat} (h : HasPwr pv s) : HasPwr pv (deltaReport owner s) :=
  ite_pwr (hieSend_pwr h) h

theorem sessionClear_pwr {code : Nat} (h : HasPwr pv s) : HasPwr pv (sessionClear code s) :=
  setF_pwr (setB_pwr (setF_pwr (setF_pwr (h.upd rfl))))

theorem deltaEnd_pwr {code : Nat} (h : HasPwr pv s) : HasPwr pv (deltaEnd code s) :=
  ite_pwr h (deltaReport_pwr (sessionClear_pwr (sys_pwr (setLease_sys rfl) h)))

theorem deltaOpen_pwr {rq : Requester} (h : HasPwr pv s) : HasPwr pv (deltaOpen rq s) := by
  refine ite_pwr (deltaRefuse_pwr h) (ite_pwr (deltaRefuse_pwr h) ?_)
  split
  · exact setB_pwr (setFree_pwr (countFull_pwr h))
  · next e1 => exact setF_pwr (setF_pwr (setF_pwr (setF_pwr ((grantLease_pwr h e1).upd rfl))))

theorem cmdDeltaOpen_pwr {rq : Requester} (h : HasPwr pv s) : HasPwr pv (cmdDeltaOpen rq s) :=
  deltaOpen_pwr (busDone_pwr h)

theorem execDeltaOpen_pwr {rq : Requester} (h : HasPwr pv s) : NextPwr pv (execDeltaOpen rq s) :=
  ⟨_, rfl, gate_pwr (fun _ h => cmdDeltaOpen_pwr h) h⟩

theorem deltaDeliver_pwr {off len : Nat} {src : Option (List Byte)} (h : HasPwr pv s) : HasPwr pv (deltaDeliver off len src s) :=
  ite_pwr (deltaRefuse_pwr h) (ite_pwr (deltaRefuse_pwr h) (setB_pwr (sys_pwr (setLease_sys rfl) (h.upd rfl))))

theorem cmdDeltaDelivery_pwr {rq : Requester} {w : Word} (h : HasPwr pv s) : HasPwr pv (cmdDeltaDelivery rq w s) :=
  ite_pwr (busDone_pwr h) (ite_pwr (busError_pwr h) (deltaDeliver_pwr (busDone_pwr h)))

theorem execDeltaDelivery_pwr {rq : Requester} {w : Word} (h : HasPwr pv s) : NextPwr pv (execDeltaDelivery rq w s) :=
  ⟨_, rfl, gate_pwr (fun _ h => cmdDeltaDelivery_pwr h) h⟩

theorem headPiece_pwr {b : List Byte} (h : HasPwr pv s) : HasPwr pv (headPiece b s) := by
  refine ite_pwr ?_ (ite_pwr (h.upd rfl) (deltaRefuse_pwr h))
  split
  · exact deltaEnd_pwr (setF_pwr (showFail_pwr h))
  · exact ite_pwr (h.upd rfl) (deltaRefuse_pwr h)

theorem blockPiece_pwr {blk off bad : Nat} {b : List Byte} (h : HasPwr pv s) : HasPwr pv (blockPiece blk off bad b s) := by
  refine ite_pwr h ?_
  split
  · next e1 => exact incF_pwr ((hwLoad_pwr h).of_eq e1)
  · next e1 =>
      split
      · next e2 => exact incF_pwr ((hwCmac_pwr ((hwLoad_pwr h).of_eq e1)).of_eq e2)
      · next e2 =>
        exact ite_pwr (setF_pwr (((hwCmac_pwr ((hwLoad_pwr h).of_eq e1)).of_eq e2).upd rfl))
          (incF_pwr ((hwCmac_pwr ((hwLoad_pwr h).of_eq e1)).of_eq e2))

theorem execDeltaDeliveryDone_pwr {bad : Nat} (h : HasPwr pv s) : NextPwr pv (execDeltaDeliveryDone bad s) := by
  refine ⟨_, rfl, ?_⟩
  split
  · exact h
  · extract_lets owner _ s1 _ s2
    have hs1 : HasPwr pv s1 := setB_pwr (h.upd rfl)
    have hs2 : HasPwr pv s2 := by
      unfold s2
      split
      · exact deltaRefuse_pwr hs1
      · split
        · exact headPiece_pwr hs1
        · exact ite_pwr (headPiece_pwr hs1) (ite_pwr (hs1.upd rfl) (blockPiece_pwr hs1))
    exact ite_pwr hs2 (deltaReport_pwr hs2)

theorem cmdDeltaAbort_pwr {rq : Requester} (h : HasPwr pv s) : HasPwr pv (cmdDeltaAbort rq s) :=
  ite_pwr (deltaEnd_pwr (busDone_pwr h)) (busError_pwr h)

theorem execDeltaAbort_pwr {rq : Requester} (h : HasPwr pv s) : NextPwr pv (execDeltaAbort rq s) :=
  ⟨_, rfl, gate_pwr (fun _ h => cmdDeltaAbort_pwr h) h⟩

theorem loaderTakes_pwr {b : Nat} (h : HasPwr pv s) : HasPwr pv (loaderTakes b s) := by
  unfold loaderTakes
  split
  · next e => exact grantLease_pwr h e
  · exact h

theorem tileQuietNow_pwr {n : Nat} (h : HasPwr pv s) : HasPwr pv (tileQuietNow n s) :=
  setTileBit_pwr (ite_pwr (sys_pwr (canGoto_sys rfl) (sys_pwr (setCan_sys rfl) (iteElse_pwr (sys_pwr (canFlush_sys rfl)
    (handAll_pwr h)) fun h1 => canEvt_pwr
    (orF_pwr (setF_pwr (setF_pwr h1)))))) (ite_pwr h (sys_pwr (serQuiet_sys rfl) h)))

theorem quiesce_pwr (h : HasPwr pv s) : HasPwr pv (quiesce s) :=
  applyAll_pwr (fun _ _ h => tileQuietNow_pwr h) (setF_pwr h)

theorem execDeltaLockAcquired_pwr (h : HasPwr pv s) : NextPwr pv (execDeltaLockAcquired s) := by
  refine ⟨_, rfl, ?_⟩
  split
  · exact h
  · exact iteElse_pwr (loaderTakes_pwr (h.upd rfl)) fun h1 => quiesce_pwr h1

theorem execTileQuiet_pwr {n : Nat} (h : HasPwr pv s) : NextPwr pv (execTileQuiet n s) :=
  ⟨_, rfl, onlyIf_pwr (fun _ h => tileQuietNow_pwr h) h⟩

/-! ## The functions of Machine/Hierarchy.lean -/

theorem sendOut_pwr {b : List Byte} (h : HasPwr pv s) : HasPwr pv (sendOut b s) := by
  unfold sendOut
  split
  · exact h
  · exact ite_pwr (sys_pwr (emit_sys rfl) h) (ite_pwr (incF_pwr h) (hieSend_pwr h))

theorem execTransmitDone_pwr {p : Nat} (h : HasPwr pv s) : NextPwr pv (execTransmitDone p s) :=
  ⟨_, rfl, applyAll_pwr (fun _ _ h => sendOut_pwr h) ((transmitDone_pwr h).upd rfl)⟩

theorem endPeer_pwr {d : Nat} (h : HasPwr pv s) : HasPwr pv (endPeer d s) :=
  h.upd rfl

theorem wearReportIn_pwr {f : List Byte} (h : HasPwr pv s) : HasPwr pv (wearReportIn f s) :=
  unitFrame_pwr h

theorem holdJoin_pwr {m : PMsg} (h : HasPwr pv s) : HasPwr pv (holdJoin m s) :=
  ite_pwr h (setF_pwr (h.upd rfl))

theorem deliver_pwr {m : PMsg} {f : List Byte} (h : HasPwr pv s) : HasPwr pv (deliver m f s) := by
  unfold deliver
  extract_lets s1 _
  have hs1 : HasPwr pv s1 := incF_pwr h
  exact ite_pwr (ite_pwr (cvArrive_pwr hs1) hs1) (ite_pwr (ite_pwr (holdJoin_pwr hs1) hs1)
    (ite_pwr (ite_pwr (endPeer_pwr hs1) hs1) (ite_pwr (ite_pwr (wearReportIn_pwr hs1) hs1) (hs1.upd rfl))))

theorem checkTail_pwr {m : PMsg} {f : List Byte} (h : HasPwr pv s) : HasPwr pv (checkTail m f s) :=
  ite_pwr (incF_pwr h) (ite_pwr (incF_pwr h) (ite_pwr (epochMismatch_pwr h) (deliver_pwr (ite_pwr (h.upd rfl) h))))

theorem checkMessage_pwr {bad : Nat} {m : PMsg} {f : List Byte} (h : HasPwr pv s) : HasPwr pv (checkMessage bad m f s) := by
  refine ite_pwr (ite_pwr (checkTail_pwr h) (incF_pwr h)) ?_
  split
  · next e1 => exact raiseOnce_pwr (incF_pwr ((consistSlot_pwr h).of_eq e1))
  · next e1 =>
      split
      · next e2 => exact raiseOnce_pwr (incF_pwr ((hwCmac_pwr ((consistSlot_pwr h).of_eq e1)).of_eq e2))
      · next e2 =>
        exact ite_pwr (checkTail_pwr ((hwCmac_pwr ((consistSlot_pwr h).of_eq e1)).of_eq e2))
          (raiseOnce_pwr (incF_pwr ((hwCmac_pwr ((consistSlot_pwr h).of_eq e1)).of_eq e2)))

theorem execPloilhanReceive_pwr {bad : Nat} (h : HasPwr pv s) : NextPwr pv (execPloilhanReceive bad s) := by
  refine ⟨_, rfl, ?_⟩
  split
  · exact h
  · exact ite_pwr (relay_pwr (ite_pwr (ite_pwr (checkMessage_pwr (h.upd rfl)) (h.upd rfl)) (h.upd rfl)))
      (ite_pwr (relay_pwr (h.upd rfl)) (iteElse_pwr (ite_pwr (checkMessage_pwr (h.upd rfl)) (h.upd rfl)) fun h1 =>
      relay_pwr h1))

theorem drawDelay_pwr (h : HasPwr pv s) : HasPwr pv (drawDelay s) :=
  (drbgBytes_pwr h).upd rfl

theorem endAdmission_pwr (h : HasPwr pv s) : HasPwr pv (endAdmission s) :=
  drawDelay_pwr (setB_pwr (setF_pwr (setF_pwr h)))

theorem execJoinSend_pwr (h : HasPwr pv s) : NextPwr pv (execJoinSend s) := by
  refine ⟨_, rfl, ?_⟩
  refine onlyIf_pwr (fun _ h => ?_) h
  split
  · exact setF_pwr h
  · exact hieSend_pwr (h.upd rfl)

theorem joinAnswer_pwr {m : PMsg} {op role id why : Nat} (h : HasPwr pv s) : HasPwr pv (joinAnswer m op role id why s) :=
  hieSend_pwr (incF_pwr h)

theorem admitPart_pwr {m : PMsg} {role id : Nat} (h : HasPwr pv s) : HasPwr pv (admitPart m role id s) :=
  joinAnswer_pwr (h.upd rfl)

theorem decideJoin_pwr {m : PMsg} (h : HasPwr pv s) : HasPwr pv (decideJoin m s) := by
  unfold decideJoin
  extract_lets ident id role s1 held
  have hs1 : HasPwr pv s1 := applyAll_pwr (fun _ _ h => endPeer_pwr h) h
  exact iteThen_pwr (joinAnswer_pwr hs1) fun h1 => iteThen_pwr (joinAnswer_pwr hs1) fun h2 => ite_pwr
    (ite_pwr h1 (ite_pwr h2 (admitPart_pwr hs1))) (admitPart_pwr hs1)

theorem execJoin_pwr (h : HasPwr pv s) : NextPwr pv (execJoin s) := by
  refine ⟨_, rfl, ?_⟩
  refine onlyIf_pwr (fun _ h => ?_) h
  split
  · exact h
  · exact decideJoin_pwr (setF_pwr (h.upd rfl))

theorem followManager_pwr {m : PMsg} (h : HasPwr pv s) : HasPwr pv (followManager m s) :=
  setB_pwr (setF_pwr (h.upd rfl))

theorem execJoinAnswer_pwr (h : HasPwr pv s) : NextPwr pv (execJoinAnswer s) :=
  ⟨_, rfl, takeMsg_pwr (fun _ _ h => ite_pwr h (ite_pwr (setF_pwr h)
    (iteThen_pwr (setF_pwr (setF_pwr (setB_pwr (followManager_pwr h)))) fun h1 => fullRefresh_pwr (setF_pwr h1)))) h⟩

theorem sendBeat_pwr (h : HasPwr pv s) : HasPwr pv (sendBeat s) :=
  hieSend_pwr (h.upd rfl)

theorem execHeartbeatSend_pwr (h : HasPwr pv s) : NextPwr pv (execHeartbeatSend s) :=
  ⟨_, rfl, onlyIf_pwr (fun _ h => sendBeat_pwr h) h⟩

theorem stronger_pwr {m : PMsg} {epoch pos : Nat} (h : HasPwr pv s) : HasPwr pv (stronger m epoch pos s).2 :=
  iteSnd_pwr h (iteSnd_pwr h (iteSnd_pwr h (h.upd rfl)))

theorem yieldManager_pwr (h : HasPwr pv s) : HasPwr pv (yieldManager s) :=
  drawDelay_pwr (setF_pwr (setF_pwr (setB_pwr (setB_pwr (setF_pwr (h.upd rfl))))))

theorem adoptEpoch_pwr {m : PMsg} (h : HasPwr pv s) : HasPwr pv (adoptEpoch m s) :=
  ite_pwr (fullRefresh_pwr (setF_pwr h)) h

theorem followStronger_pwr {m : PMsg} {c : Bool × State} (h : HasPwr pv c.2) :
    HasPwr pv (if c.1 then
      let s1 := followManager m (endAdmission c.2)
      { s1 with hie := { s1.hie with last := tabPut 0 s1.hie.last 0 (m.counter + 1) } }
    else c.2) :=
  ite_pwr ((followManager_pwr (endAdmission_pwr h)).upd rfl) h

theorem otherManager_pwr {m : PMsg} (h : HasPwr pv s) : HasPwr pv (otherManager m s) :=
  followStronger_pwr (stronger_pwr h)

theorem yieldStronger_pwr {m : PMsg} {c : Bool × State} (h : HasPwr pv c.2) :
    HasPwr pv (if c.1 then followManager m (yieldManager c.2) else c.2) :=
  ite_pwr (followManager_pwr (yieldManager_pwr h)) h

theorem managerBeat_pwr {m : PMsg} (h : HasPwr pv s) : HasPwr pv (managerBeat m s) := by
  refine ite_pwr (ite_pwr (followManager_pwr (yieldManager_pwr h)) ?_)
    (ite_pwr (followManager_pwr h) (ite_pwr (adoptEpoch_pwr (followManager_pwr h)).hie (otherManager_pwr h)))
  exact yieldStronger_pwr (stronger_pwr h)

theorem execHeartbeatReceive_pwr (h : HasPwr pv s) : NextPwr pv (execHeartbeatReceive s) :=
  ⟨_, rfl, takeMsg_pwr (fun _ _ h => ite_pwr (managerBeat_pwr h) (ite_pwr (h.upd rfl) (h.upd rfl))) h⟩

theorem execWorkerLost_pwr {d : Nat} (h : HasPwr pv s) : NextPwr pv (execWorkerLost d s) :=
  ⟨_, rfl, onlyIf_pwr (fun _ h => sys_pwr (declare_sys rfl) (raise_pwr (incF_pwr (setF_pwr (endPeer_pwr h))))) h⟩

theorem execManagerLost_pwr (h : HasPwr pv s) : NextPwr pv (execManagerLost s) :=
  ⟨_, rfl, onlyIf_pwr (fun _ h => raise_pwr (setB_pwr (endAdmission_pwr h))) h⟩

theorem execTakeover_pwr (h : HasPwr pv s) : NextPwr pv (execTakeover s) :=
  ⟨_, rfl, onlyIf_pwr (fun _ h => raise_pwr (sendBeat_pwr (hieSend_pwr
    (setF_pwr (setF_pwr (setB_pwr (setB_pwr (setF_pwr (setF_pwr (sys_pwr (storeWrite_sys rfl) (h.upd rfl))))))))))) h⟩

theorem takeStronger_pwr {m : PMsg} {c : Bool × State} (h : HasPwr pv c.2) :
    HasPwr pv (if c.1 then fullRefresh (setF FWT_EPOCH_epoch m.epoch (followManager m { c.2 with
      hie := { c.2.hie with mgrSet := m.at 0 8 } })) else c.2) :=
  ite_pwr (fullRefresh_pwr (setF_pwr (followManager_pwr (h.upd rfl)))) h

theorem execTakeoverReceive_pwr (h : HasPwr pv s) : NextPwr pv (execTakeoverReceive s) := by
  refine ⟨_, rfl, takeMsg_pwr (fun _ _ h => ite_pwr (managerBeat_pwr h) (ite_pwr ?_
    (ite_pwr (otherManager_pwr h) (followManager_pwr h)))) h⟩
  exact takeStronger_pwr (stronger_pwr h)

theorem execProbeEnd_pwr (h : HasPwr pv s) : NextPwr pv (execProbeEnd s) :=
  ⟨_, rfl, onlyIf_pwr (fun _ h => sendBeat_pwr (setB_pwr h)) h⟩

theorem execPositionChangeRejoin_pwr (h : HasPwr pv s) : NextPwr pv (execPositionChangeRejoin s) :=
  ⟨_, rfl, onlyIf_pwr (fun _ h => endAdmission_pwr (hieSend_pwr h)) h⟩

theorem servePiece_pwr {img : List Byte} {p : Nat} (h : HasPwr pv s) : HasPwr pv (servePiece img p s) :=
  ite_pwr h (incF_pwr (applyAll_pwr (fun _ _ h => hieSend_pwr h) (h.upd rfl)))

theorem execImageBlockRequest_pwr {img : List Byte} (h : HasPwr pv s) : NextPwr pv (execImageBlockRequest img s) :=
  ⟨_, rfl, takeMsg_pwr (fun _ _ h => ite_pwr h (iteThen_pwr (incF_pwr (sys_pwr (emit_sys rfl) h)) fun h1 => applyAll_pwr
    (fun _ _ h => servePiece_pwr h) h1)) h⟩

theorem requestMissing_pwr (h : HasPwr pv s) : HasPwr pv (requestMissing s) :=
  ite_pwr (requestPieces_pwr h) (applyAll_pwr (fun _ _ h => requestPieces_pwr h) h)

theorem execImageRerequestTimeout_pwr (h : HasPwr pv s) : NextPwr pv (execImageRerequestTimeout s) :=
  ⟨_, rfl, onlyIf_pwr (fun _ h => requestMissing_pwr h) h⟩

theorem execImageBlockDeltaOpen_pwr (h : HasPwr pv s) : NextPwr pv (execImageBlockDeltaOpen s) :=
  ⟨_, rfl, takeMsg_pwr (fun _ _ h => ite_pwr h (deltaReport_pwr (deltaOpen_pwr (h.upd rfl)))) h⟩

theorem execImageBlockDeltaChunk_pwr (h : HasPwr pv s) : NextPwr pv (execImageBlockDeltaChunk s) := by
  refine ⟨_, rfl, ?_⟩
  dsimp only
  refine takeMsg_pwr (fun _ _ h => ite_pwr h ?_) h
  split
  · exact deltaReport_pwr (h.upd rfl)
  · exact ite_pwr (h.upd rfl) (ite_pwr (deltaReport_pwr (h.upd rfl))
      (iteElse_pwr (deltaDeliver_pwr (h.upd rfl)) fun h1 => deltaReport_pwr h1))

theorem execImageBlockDeltaAbort_pwr (h : HasPwr pv s) : NextPwr pv (execImageBlockDeltaAbort s) :=
  ⟨_, rfl, takeMsg_pwr (fun _ _ h => ite_pwr h (ite_pwr (deltaEnd_pwr h) (deltaReport_pwr h))) h⟩

theorem execImageBlockStatus_pwr (h : HasPwr pv s) : NextPwr pv (execImageBlockStatus s) :=
  ⟨_, rfl, takeMsg_pwr (fun _ _ h => ite_pwr (h.upd rfl) h) h⟩

theorem hieCommand_pwr {rq : Requester} {w : Word} (h : HasPwr pv s) : HasPwr pv (hieCommand rq w s) := by
  refine ite_pwr (busError_pwr h) ?_
  split
  · exact applyAll_pwr (fun _ _ h => hieSend_pwr h) (busDone_pwr h)
  · exact applyAll_pwr (fun _ _ h => hieSend_pwr h) (busDone_pwr h)
  · exact applyAll_pwr (fun _ _ h => hieSend_pwr h) (busDone_pwr h)
  · exact applyAll_pwr (fun _ _ h => hieSend_pwr h) (busDone_pwr h)
  · exact busError_pwr h

theorem hieCmdOp_pwr {op : Nat} {rq : Requester} {w : Word} (h : HasPwr pv s) : HasPwr pv (hieCmdOp op rq w s) :=
  ite_pwr (hieCommand_pwr h) h

theorem execWearReportRequest_pwr {rq : Requester} {w : Word} (h : HasPwr pv s) : NextPwr pv (execWearReportRequest rq w s) :=
  ⟨_, rfl, gate_pwr (fun _ h => hieCmdOp_pwr h) h⟩

theorem execWearReportSend_pwr (h : HasPwr pv s) : NextPwr pv (execWearReportSend s) :=
  ⟨_, rfl, takeMsg_pwr (fun _ _ h => applyAll_pwr (fun _ _ h => hieSend_pwr h) h) h⟩

theorem revokeMessage_pwr {m : PMsg} (h : HasPwr pv s) : HasPwr pv (revokeMessage m s) :=
  applyAll_pwr (fun _ _ h => sys_pwr (declare_sys rfl) h) h

theorem execRemoteRevoke_pwr {side : HieSide} (h : HasPwr pv s) : NextPwr pv (execRemoteRevoke side s) := by
  refine ⟨_, rfl, ?_⟩
  split
  · exact gate_pwr (fun _ h => hieCmdOp_pwr h) h
  · exact takeMsg_pwr (fun _ _ h => ite_pwr (revokeMessage_pwr h) h) h

/-! ## The functions of Machine/Leases.lean -/

theorem leaseRenew_pwr {rq : Requester} {n : Nat} (h : HasPwr pv s) : HasPwr pv (leaseRenew rq n s) :=
  ite_pwr (busError_pwr h) (ite_pwr (busDone_pwr h) (busDone_pwr (sys_pwr (setLease_sys rfl) h)))

theorem execLeaseRenew_pwr {rq : Requester} {n : Nat} (h : HasPwr pv s) : NextPwr pv (execLeaseRenew rq n s) :=
  ⟨_, rfl, gate_pwr (fun _ h => leaseRenew_pwr h) h⟩

theorem fetchDrop_pwr {n : Nat} (h : HasPwr pv s) : HasPwr pv (fetchDrop n s) :=
  h.upd rfl

theorem execLeaseExpiry_pwr {n : Nat} (h : HasPwr pv s) : NextPwr pv (execLeaseExpiry n s) :=
  ⟨_, rfl, onlyIf_pwr (fun _ h => sys_pwr (declare_sys rfl) h) h⟩

theorem revokeRefuse_pwr {why : Nat} (h : HasPwr pv s) : HasPwr pv (revokeRefuse why s) :=
  setB_pwr (setF_pwr h)

theorem inkRevoke_pwr {rq : Requester} {w : Word} (h : HasPwr pv s) : HasPwr pv (inkRevoke rq w s) :=
  ite_pwr (revokeRefuse_pwr (busDone_pwr h)) (ite_pwr (revokeRefuse_pwr (busDone_pwr h))
    (ite_pwr (sys_pwr (declare_sys rfl) (busDone_pwr h)) (sys_pwr (declare_sys rfl) (busDone_pwr h))))

theorem execInkRevoke_pwr {rq : Requester} {w : Word} (h : HasPwr pv s) : NextPwr pv (execInkRevoke rq w s) :=
  ⟨_, rfl, gate_pwr (fun _ h => inkRevoke_pwr h) h⟩

theorem reclaimOne_pwr {n : Nat} (h : HasPwr pv s) : HasPwr pv (reclaimOne n s) := by
  refine ite_pwr h (sys_pwr (setLease_sys rfl) ?_)
  split
  · exact sys_pwr (freePages_sys rfl) h
  · exact ite_pwr (swcDiscard_pwr h) (fwtDiscard_pwr h)
  · exact pkeLeaseEnd_pwr h
  · exact fetchDrop_pwr h
  · exact deltaEnd_pwr h
  · exact h

theorem execReclaimDone_pwr (h : HasPwr pv s) : NextPwr pv (execReclaimDone s) := by
  refine ⟨_, rfl, ?_⟩
  split
  · exact h
  · exact raise_pwr (setF_pwr (setF_pwr (setF_pwr (incF_pwr (applyAll_pwr (fun _ _ h => reclaimOne_pwr h) (h.upd rfl))))))

theorem execCaravanSend_pwr (h : HasPwr pv s) : NextPwr pv (execCaravanSend s) :=
  ⟨_, rfl, onlyIf_pwr (fun _ h => ite_pwr (incF_pwr (setF_pwr (h.upd rfl)))
    (incF_pwr (hieSend_pwr (setF_pwr (h.upd rfl))))) h⟩

/-! ## The functions of Machine/Views.lean -/

theorem latchPair_pwr {a : Nat} (h : HasPwr pv s) : HasPwr pv (latchPair a s) :=
  ite_pwr (h.upd rfl) (ite_pwr (setF_pwr h) (ite_pwr (ite_pwr (setF_pwr h) (ite_pwr (setF_pwr h) h)) h))

theorem clearLive_pwr {a : Nat} (h : HasPwr pv s) : HasPwr pv (clearLive a s) :=
  ite_pwr (sys_pwr (setLodger_sys rfl) h) (ite_pwr (sys_pwr (setLodger_sys rfl) h) (ite_pwr (setF_pwr h)
    (ite_pwr (sys_pwr (setCb_sys rfl) h) (ite_pwr (sys_pwr (setCb_sys rfl) h) (ite_pwr (h.upd rfl)
    (ite_pwr (h.upd rfl) (ite_pwr (h.upd rfl) (ite_pwr (h.upd rfl)
    (ite_pwr (h.upd rfl) (ite_pwr (h.upd rfl) (ite_pwr (h.upd rfl) h)))))))))))

/-! ## The functions of Machine/Regs.lean -/

theorem banked_pwr {rq : Requester} {g : Nat → World → State → State} (hg : ∀ x0 x1 s, HasPwr pv s → HasPwr pv (g x0 x1 s))
    (h : HasPwr pv s) : HasPwr pv (banked rq g s) := by
  unfold banked
  split
  · exact hg _ _ _ h
  · exact busError_pwr h

theorem routeWrite_pwr {rq : Requester} {e : Nat} {w : Word} (h : HasPwr pv s) : HasPwr pv (routeWrite rq e w s) :=
  ite_pwr (busError_pwr h) (ite_pwr (busError_pwr h) (ite_pwr (busError_pwr h)
    (setF_pwr (setF_pwr (setF_pwr (setF_pwr (setF_pwr (setF_pwr (setF_pwr (setF_pwr (busDone_pwr h)))))))))))

theorem softWrite_pwr {w : Word} (h : HasPwr pv s) : HasPwr pv (softWrite w s) :=
  iteElse_pwr (ite_pwr (raise_pwr (busDone_pwr h)) (busDone_pwr h)) fun h1 => raise_pwr h1

theorem revRead_pwr (h : HasPwr pv s) : HasPwr pv (revRead s) := by
  unfold revRead
  split
  · exact busData_pwr h
  · exact busData_pwr (setF_pwr (h.upd rfl))

theorem anyRead_pwr {rq : Requester} {a : Nat} (h : HasPwr pv s) : HasPwr pv (anyRead rq a s) := by
  unfold anyRead
  split
  · exact busError_pwr h
  · next e => exact busData_pwr (clearLive_pwr (clearRead_pwr e (latchPair_pwr h)))

theorem readTile_pwr {rq : Requester} {a : Nat} (h : HasPwr pv s) : HasPwr pv (readTile rq a s) :=
  ite_pwr (busData_pwr h) (ite_pwr (busData_pwr h) (anyRead_pwr h))

theorem readPort_pwr {rq : Requester} {a : Nat} (h : HasPwr pv s) : HasPwr pv (readPort rq a s) :=
  ite_pwr (busData_pwr h) (ite_pwr (txtsRead_pwr h) (anyRead_pwr h))

theorem readReg_pwr {rq : Requester} {a : Nat} (h : HasPwr pv s) : HasPwr pv (readReg rq a s) := by
  refine ite_pwr (busError_pwr h) (ite_pwr (readTile_pwr h) (ite_pwr (cmdCanRxBufferRead_pwr h)
    (ite_pwr (readPort_pwr h) (ite_pwr (busError_pwr h) (ite_pwr (banked_pwr (fun _ _ _ h => busData_pwr h) h)
    (ite_pwr (banked_pwr (fun _ _ _ h => busData_pwr h) h) (ite_pwr (revRead_pwr h)
    (ite_pwr (cmdPkeOpdataAccess_pwr h) (ite_pwr (cmdDrgDataRead_pwr h) ?_)))))))))
  split
  · exact ite_pwr (anyRead_pwr h) (busData_pwr h)
  · exact anyRead_pwr h

theorem busRead_pwr {rq : Requester} {a : Nat} (h : HasPwr pv s) : HasPwr pv (busRead rq a s) :=
  gate_pwr (fun _ h => readReg_pwr h) h

theorem sized_pwr {n : Nat} {g : State → State} (hg : ∀ s, HasPwr pv s → HasPwr pv (g s)) (h : HasPwr pv s) : HasPwr pv (sized n g s) :=
  ite_pwr (hg _ h) (busError_pwr h)

theorem execRcRead_pwr {rq : Requester} {a n : Nat} (h : HasPwr pv s) : NextPwr pv (execRcRead rq a n s) :=
  ⟨_, rfl, gate_pwr (fun _ h => sized_pwr (fun _ h => readReg_pwr h) h) h⟩

theorem execLatchingPairRead_pwr {rq : Requester} {a n : Nat} (h : HasPwr pv s) : NextPwr pv (execLatchingPairRead rq a n s) :=
  ⟨_, rfl, gate_pwr (fun _ h => sized_pwr (fun _ h => readReg_pwr h) h) h⟩

theorem execBrgRev0Read_pwr {rq : Requester} (h : HasPwr pv s) : NextPwr pv (execBrgRev0Read rq s) :=
  ⟨_, rfl, gate_pwr (fun _ h => revRead_pwr h) h⟩

theorem execEvcRouteWrite_pwr {rq : Requester} {e : Nat} {w : Word} (h : HasPwr pv s) : NextPwr pv (execEvcRouteWrite rq e w s) :=
  ⟨_, rfl, gate_pwr (fun _ h => routeWrite_pwr h) h⟩

theorem execEvcSoft_pwr {rq : Requester} {w : Word} (h : HasPwr pv s) : NextPwr pv (execEvcSoft rq w s) :=
  ⟨_, rfl, gate_pwr (fun _ h => softWrite_pwr h) h⟩

/-! ## The functions of Machine/Bridge.lean -/

theorem splitFault_pwr {rq : Requester} {write narrow : Bool} {done addr : Nat} (h : HasPwr pv s) :
    HasPwr pv (splitFault rq write narrow done addr s) :=
  raise_pwr (iteElse_pwr (setF_pwr (setF_pwr (setB_pwr (setB_pwr (setF_pwr (incF_pwr h)))))) fun h1 => setB_pwr h1)

theorem splitReadOne_pwr {rq : Requester} {a be : Nat} {x : Split × State} (h : HasPwr pv x.2) : HasPwr pv (splitReadOne rq a be x).2 := by
  unfold splitReadOne
  dsimp only
  refine iteSnd_pwr h (iteSnd_pwr (h.upd rfl) (iteSnd_pwr h ?_))
  split
  · exact busRead_pwr h
  · exact busRead_pwr h

theorem splitRead_pwr {rq : Requester} {a : Nat} {l : List Nat} {x : Split × State} (h : HasPwr pv x.2) :
    HasPwr pv (splitRead rq a l x).2 := by
  induction l generalizing a x with
  | nil => exact h
  | cons be l ih => exact ih (splitReadOne_pwr h)

theorem splitEnd_pwr {rq : Requester} {write : Bool} {x : Split × State} (h : HasPwr pv x.2) : HasPwr pv (splitEnd rq write x) := by
  unfold splitEnd
  split
  · exact splitFault_pwr h
  · exact h

theorem busWide_pwr {l : List Word} (h : HasPwr pv s) : HasPwr pv (busWide l s) := by
  unfold busWide
  split
  · exact h.upd rfl
  · exact h.upd rfl

theorem msixSend_pwr {v : Nat} (h : HasPwr pv s) : HasPwr pv (msixSend v s) :=
  sys_pwr (emit_sys rfl) h

theorem execMsixRequest_pwr (h : HasPwr pv s) : NextPwr pv (execMsixRequest s) := by
  refine ⟨_, rfl, ?_⟩
  split
  · exact h
  · exact ite_pwr (msixSend_pwr (h.upd rfl)) (orF_pwr (h.upd rfl) le_addr_ite)

theorem execMsixPendingSend_pwr {v : Nat} (h : HasPwr pv s) : NextPwr pv (execMsixPendingSend v s) :=
  ⟨_, rfl, onlyIf_pwr (fun _ h => msixSend_pwr (clrF_pwr h le_addr_ite)) h⟩

theorem farFail_pwr {why dev addr : Nat} (h : HasPwr pv s) : HasPwr pv (farFail why dev addr s) :=
  raise_pwr (incF_pwr (setF_pwr (setF_pwr (setF_pwr h))))

theorem fetchFree_pwr {f : Fetch} (h : HasPwr pv s) : HasPwr pv (fetchFree f s) :=
  fetchDrop_pwr (sys_pwr (setLease_sys rfl) h)

theorem setFetch_pwr {b : Nat} {f : Fetch} (h : HasPwr pv s) : HasPwr pv (setFetch b f s) :=
  h.upd rfl

theorem nextTag_pwr (h : HasPwr pv s) : HasPwr pv (nextTag s).2 :=
  h.upd rfl

theorem farSend_pwr {type d : Nat} {p : List Byte} (h : HasPwr pv s) : HasPwr pv (farSend type d p s) :=
  hieSend_pwr h

theorem farStart_pwr {rq : Requester} {d addr n : Nat} (h : HasPwr pv s) : HasPwr pv (farStart rq d addr n s) := by
  unfold farStart
  split
  · exact incF_pwr h
  · split
    · exact countFull_pwr h
    · next e1 => exact farSend_pwr ((nextTag_pwr (grantLease_pwr h e1)).upd rfl)

theorem farRead_pwr {rq : Requester} {a n : Nat} (h : HasPwr pv s) : HasPwr pv (farRead rq a n s).2 := by
  unfold farRead
  dsimp only
  split
  · exact pair_pwr (farFail_pwr h)
  · split
    · exact pair_pwr (farStart_pwr h)
    · refine iteSnd_pwr h ?_
      split
      · exact pair_pwr (fetchFree_pwr h)
      · exact pair_pwr (fetchFree_pwr h)
      · exact pair_pwr (ite_pwr (setFetch_pwr h) h)

theorem pcieDone_pwr {ok : Bool} {l : List Word} (h : HasPwr pv s) : HasPwr pv (pcieDone ok l s) :=
  sys_pwr (emit_sys rfl) (ite_pwr (busWide_pwr h) (busError_pwr h))

theorem farComplete_pwr {b : Nat} (h : HasPwr pv s) : HasPwr pv (farComplete b s) := by
  unfold farComplete
  split
  · exact h
  · refine ite_pwr h (ite_pwr ?_ ((farStart_pwr ?_).upd rfl))
    · split
      · exact pcieDone_pwr (fetchFree_pwr h)
      · exact pcieDone_pwr (fetchFree_pwr h)
    · split
      · exact pcieDone_pwr (fetchFree_pwr h)
      · exact pcieDone_pwr (fetchFree_pwr h)

theorem pcieFarRead_pwr {x : Nat} {bes : List Nat} (h : HasPwr pv s) : HasPwr pv (pcieFarRead x bes s) := by
  refine ite_pwr (pcieDone_pwr (splitRead_pwr h)) ?_
  split
  · exact pcieDone_pwr (splitFault_pwr h)
  · dsimp only
    split
    · exact pcieDone_pwr (farRead_pwr h)
    · exact pcieDone_pwr (farRead_pwr h)
    · exact busRetry_pwr (farRead_pwr h)

theorem pcieRegRead_pwr {a : Nat} {bes : List Nat} (h : HasPwr pv s) : HasPwr pv (pcieRegRead a bes s) :=
  ite_pwr (pcieDone_pwr (splitEnd_pwr (splitRead_pwr h))) (pcieDone_pwr (splitEnd_pwr (splitRead_pwr h)))

theorem pcieConfig_pwr {x : Nat} (h : HasPwr pv s) : HasPwr pv (pcieConfig x s) :=
  ite_pwr (pcieDone_pwr h) (ite_pwr (pcieDone_pwr (h.upd rfl))
    (ite_pwr (pcieDone_pwr (h.upd rfl)) (ite_pwr (pcieDone_pwr (h.upd rfl))
    (ite_pwr (pcieDone_pwr h) (ite_pwr (pcieDone_pwr h) (pcieDone_pwr (h.upd rfl)))))))

theorem pcieRead_pwr {sp : PcieSpace} {x : Nat} {bes : List Nat} (h : HasPwr pv s) : HasPwr pv (pcieRead sp x bes s) := by
  unfold pcieRead
  split
  · exact ite_pwr (pcieDone_pwr h) (pcieRegRead_pwr h)
  · exact ite_pwr (pcieDone_pwr h) (pcieFarRead_pwr h)
  · exact pcieRegRead_pwr h
  · exact pcieConfig_pwr h
  · exact pcieDone_pwr (h.upd rfl)
  · exact pcieDone_pwr (h.upd rfl)

theorem execPcieRead_pwr {sp : PcieSpace} {x : Nat} {bes : List Nat} (h : HasPwr pv s) : NextPwr pv (execPcieRead sp x bes s) :=
  ⟨_, rfl, onlyIf_pwr (fun _ h => ite_pwr (sys_pwr (emit_sys rfl) (busError_pwr h)) (pcieRead_pwr h)) h⟩

theorem execPcieLinkChange_pwr {up : Bool} {gen width : Nat} (h : HasPwr pv s) : NextPwr pv (execPcieLinkChange up gen width s) :=
  ⟨_, rfl, ite_pwr (onlyIf_pwr (fun _ h => setB_pwr (setF_pwr (setF_pwr h))) h) (sys_pwr (pcieDown_sys rfl) h)⟩

theorem qspiSend_pwr {st : Nat} {l : List Byte} (h : HasPwr pv s) : HasPwr pv (qspiSend st l s) :=
  sys_pwr (emit_sys rfl) h

theorem execQspiStatus_pwr (h : HasPwr pv s) : NextPwr pv (execQspiStatus s) :=
  ⟨_, rfl, onlyIf_pwr (fun _ h => qspiSend_pwr (busData_pwr h)) h⟩

theorem fetchResult_pwr {b : Nat} {f : Fetch} {res : Option (List Nat)} (h : HasPwr pv s) : HasPwr pv (fetchResult b f res s) :=
  farComplete_pwr (setFetch_pwr (sys_pwr (setLease_sys rfl) h))

theorem execFarReadAnswer_pwr (h : HasPwr pv s) : NextPwr pv (execFarReadAnswer s) := by
  refine ⟨_, rfl, ?_⟩
  refine takeMsg_pwr (fun _ _ h => ?_) h
  split
  · exact h
  · exact ite_pwr (fetchResult_pwr h) (fetchResult_pwr (farFail_pwr h))

theorem execFarFetchTimeout_pwr {b : Nat} (h : HasPwr pv s) : NextPwr pv (execFarFetchTimeout b s) := by
  refine ⟨_, rfl, ?_⟩
  split
  · exact ite_pwr (fetchResult_pwr (farFail_pwr h)) h
  · exact h

theorem execFarResultExpiry_pwr {b : Nat} (h : HasPwr pv s) : NextPwr pv (execFarResultExpiry b s) := by
  refine ⟨_, rfl, ?_⟩
  split
  · exact onlyIf_pwr (fun _ h => raise_pwr (incF_pwr (sys_pwr (declare_sys rfl) h))) h
  · exact h

theorem writeDrop_pwr {tag : Nat} (h : HasPwr pv s) : HasPwr pv (writeDrop tag s) :=
  h.upd rfl

theorem execFarWriteAck_pwr (h : HasPwr pv s) : NextPwr pv (execFarWriteAck s) := by
  refine ⟨_, rfl, ?_⟩
  refine takeMsg_pwr (fun _ _ h => ?_) h
  split
  · exact h
  · exact iteThen_pwr (writeDrop_pwr h) fun h1 => farFail_pwr h1

theorem execFarWriteTimeout_pwr {tag : Nat} (h : HasPwr pv s) : NextPwr pv (execFarWriteTimeout tag s) := by
  refine ⟨_, rfl, ?_⟩
  split
  · exact h
  · exact farFail_pwr (writeDrop_pwr h)

theorem revPush_pwr {e : RemoteEvent} (h : HasPwr pv s) : HasPwr pv (revPush e s) :=
  ite_pwr (incF_pwr h) (ite_pwr (raise_pwr (h.upd rfl)) (h.upd rfl))

theorem eventMessage_pwr {e us : Nat} (h : HasPwr pv s) : HasPwr pv (eventMessage e us s) :=
  ite_pwr (incF_pwr (revPush_pwr (incWrap_pwr h))) (ite_pwr (incF_pwr h) (incF_pwr (internalInline_pwr (incWrap_pwr h))))

theorem execEventMessageSend_pwr (h : HasPwr pv s) : NextPwr pv (execEventMessageSend s) := by
  refine ⟨_, rfl, ?_⟩
  split
  · exact h
  · exact ite_pwr (h.upd rfl) (ite_pwr (incF_pwr (h.upd rfl)) (ite_pwr h (eventMessage_pwr (h.upd rfl))))

theorem execEventPacingFlush_pwr (h : HasPwr pv s) : NextPwr pv (execEventPacingFlush s) :=
  ⟨_, rfl, applyAll_pwr (fun _ _ h => ite_pwr h (eventMessage_pwr (h.upd rfl))) h⟩

theorem execRemoteEventReceive_pwr (h : HasPwr pv s) : NextPwr pv (execRemoteEventReceive s) :=
  ⟨_, rfl, takeMsg_pwr (fun _ _ h => onlyIf_pwr (fun _ h => revPush_pwr h) h) h⟩

/-! ## Every command -/

/-- Each command that does not write the registers of system control leaves them, by the lemma of its meaning. -/
theorem exec_pwr (c : Instr) (hc : writesPower c = false) (h : HasPwr pv s) : NextPwr pv (exec c s) := by
  cases c with
  | powerOnResetRelease role boot wpol => cases hc
  | powerOnResetAssert rail vbatOk => cases hc
  | aonDomainPowerUp fromVbat => cases hc
  | aonSupplyLoss => cases hc
  | xinAmplitudeGood => cases hc
  | xinStable => cases hc
  | rootPllLock us => cases hc
  | rootPllLockLoss => exact execRootPllLockLoss_pwr h
  | clockFault => cases hc
  | pllLockLossOther p => cases hc
  | railWarnCrossing r => cases hc
  | railFailCrossing r => cases hc
  | railValid r classMv => cases hc
  | pcieRefStable => cases hc
  | pfailFall => cases hc
  | pfailRestoreExpiry => cases hc
  | resetNAssert => cases hc
  | resetNRelease => exact execResetNRelease_pwr h
  | fullResetEnd => exact execFullResetEnd_pwr h
  | systemSoftwareReset rq key => cases hc
  | normalWorldResetCmd rq key => cases hc
  | secureWorldResetCmd rq key => cases hc
  | normalWatchdogKick rq key => cases hc
  | normalWatchdogEnable rq w => cases hc
  | normalWatchdogExpiry => cases hc
  | secureWatchdogKick rq key => exact execSecureWatchdogKick_pwr h
  | secureWatchdogExpiry => cases hc
  | loadingEntry => cases hc
  | bootQuarantine => cases hc
  | imageHeaderCheck hdr => cases hc
  | imageVerify img => cases hc
  | build ddrOk => cases hc
  | cutOver => cases hc
  | tileStart n => cases hc
  | canIntegrationDone n => exact execCanIntegrationDone_pwr h
  | allowanceRampTick => cases hc
  | joinSend => exact execJoinSend_pwr h
  | imagePieceReceive => cases hc
  | imageRerequestTimeout => exact execImageRerequestTimeout_pwr h
  | imageBlockRequest img => exact execImageBlockRequest_pwr h
  | wireInChange n level => exact execWireInChange_pwr h
  | wireDebounceExpiry n => exact execWireDebounceExpiry_pwr h
  | wireRecordIssue => exact execWireRecordIssue_pwr h
  | carlinkHuntSync p bit => exact execCarlinkHuntSync_pwr h
  | carlinkCandidateFrame p bit f => exact execCarlinkCandidateFrame_pwr h
  | carlinkFrameReceive p f => exact execCarlinkFrameReceive_pwr h
  | relockSync p off f => exact execRelockSync_pwr h
  | relockTimeout p => exact execRelockTimeout_pwr h
  | carlinkFrameSend p incoming => exact execCarlinkFrameSend_pwr h
  | rephaseStart p => exact execRephaseStart_pwr h
  | lnkMsgtxGo rq p w => exact execLnkMsgtxGo_pwr h
  | standbyRequest rq w => cases hc
  | standbyEntryComplete => cases hc
  | standbyCoreWaitTimeout => cases hc
  | standbyExit refCycles => cases hc
  | pwrReadyWrite rq w => cases hc
  | aonWriteTransit => exact execAonWriteTransit_pwr h
  | rtcSecond => cases hc
  | aonRtcset rq w => exact execAonRtcset_pwr h
  | wakePinFire n => exact execWakePinFire_pwr h
  | tamperFire => exact execTamperFire_pwr h
  | tamperLatchClear rq => exact execTamperLatchClear_pwr h
  | vbatMeasure mv10 => exact execVbatMeasure_pwr h
  | pwrReqHoldExpiry => exact execPwrReqHoldExpiry_pwr h
  | pwrReqRelease rq => exact execPwrReqRelease_pwr h
  | pwrReqSwWrite rq w => exact execPwrReqSwWrite_pwr h
  | aonLogack rq => exact execAonLogack_pwr h
  | deltaOpen rq => exact execDeltaOpen_pwr h
  | deltaDelivery rq w => exact execDeltaDelivery_pwr h
  | deltaDeliveryDone bad => exact execDeltaDeliveryDone_pwr h
  | deltaClose rq => cases hc
  | deltaAbort rq => exact execDeltaAbort_pwr h
  | deltaPrepareDone => cases hc
  | deltaLockAcquired => exact execDeltaLockAcquired_pwr h
  | tileQuiet n => exact execTileQuiet_pwr h
  | deltaCutOver => cases hc
  | deltaDrainEnd => cases hc
  | pageRequest reqs => exact execPageRequest_pwr h
  | pageFree p => exact execPageFree_pwr h
  | inkPgreq rq w => exact execInkPgreq_pwr h
  | inkPgfree rq n => exact execInkPgfree_pwr h
  | swcLockTake rq => exact execSwcLockTake_pwr h
  | fwtLockTake rq => exact execFwtLockTake_pwr h
  | pkeLockTake rq => exact execPkeLockTake_pwr h
  | leaseRenew rq n => exact execLeaseRenew_pwr h
  | leaseRelease rq n => cases hc
  | leaseExpiry n => exact execLeaseExpiry_pwr h
  | inkRevoke rq w => exact execInkRevoke_pwr h
  | reclaimDone => exact execReclaimDone_pwr h
  | lodgerPeriodStart lid => exact execLodgerPeriodStart_pwr h
  | itemRelease lid w => exact execItemRelease_pwr h
  | itemDispatch => exact execItemDispatch_pwr h
  | itemComplete lid => exact execItemComplete_pwr h
  | deadlineMiss lid => exact execDeadlineMiss_pwr h
  | pageInDone lid us => exact execPageInDone_pwr h
  | pagingMsCheck => exact execPagingMsCheck_pwr h
  | frameIngress p frame sfd => exact execFrameIngress_pwr h
  | authenticate bad => exact execAuthenticate_pwr h
  | frameStored p => exact execFrameStored_pwr h
  | cutThroughEnd p why => exact execCutThroughEnd_pwr h
  | egressSelection p => exact execEgressSelection_pwr h
  | transmitDone p => exact execTransmitDone_pwr h
  | gateEntryChange p => exact execGateEntryChange_pwr h
  | gateConfigChange p => exact execGateConfigChange_pwr h
  | gateHoldDiscard p c => exact execGateHoldDiscard_pwr h
  | policerCreditTick => exact execPolicerCreditTick_pwr h
  | streamResetTimeout sh => exact execStreamResetTimeout_pwr h
  | swcSnap rq w => exact execSwcSnap_pwr h
  | receiveRingWrite r => exact execReceiveRingWrite_pwr h
  | ringInterrupt r => exact execRingInterrupt_pwr h
  | transmitSlotProcess r => exact execTransmitSlotProcess_pwr h
  | pageWindowAccess rq a size v => exact execPageWindowAccess_pwr h
  | learnApply => exact execLearnApply_pwr h
  | ageingScan => exact execAgeingScan_pwr h
  | migrateStart rq w => exact execMigrateStart_pwr h
  | migrateDone => exact execMigrateDone_pwr h
  | migrateCancel rq w => exact execMigrateCancel_pwr h
  | bankClearDone => exact execBankClearDone_pwr h
  | porterGo rq w => exact execPorterGo_pwr h
  | porterOperation => exact execPorterOperation_pwr h
  | overlayDrainDone => exact execOverlayDrainDone_pwr h
  | caravanSend => exact execCaravanSend_pwr h
  | caravanMerge => exact execCaravanMerge_pwr h
  | redistributionInstall => exact execRedistributionInstall_pwr h
  | fullRefresh => exact execFullRefresh_pwr h
  | sourceTimeout lid e => exact execSourceTimeout_pwr h
  | frameItem lid => exact execFrameItem_pwr h
  | cyclicRelease lid idx => exact execCyclicRelease_pwr h
  | deferredSend lid idx => exact execDeferredSend_pwr h
  | trnSigsel rq w => exact execTrnSigsel_pwr h
  | canFrameValid n f ago => exact execCanFrameValid_pwr h
  | canHandoff n => exact execCanHandoff_pwr h
  | canXlFrameReceive n f ago ok => exact execCanXlFrameReceive_pwr h
  | canFrameError n e code dph => exact execCanFrameError_pwr h
  | canBodelayExpiry n => exact execCanBodelayExpiry_pwr h
  | canRecoveryDone n => exact execCanRecoveryDone_pwr h
  | canCtlStart rq n => exact execCanCtlStart_pwr h
  | canCtlStop rq n => exact execCanCtlStop_pwr h
  | canCtlRecover rq n => exact execCanCtlRecover_pwr h
  | canArbitrationChoice n => exact execCanArbitrationChoice_pwr h
  | canTxEnd n ok meas => exact execCanTxEnd_pwr h
  | canSwitchBufferLoad n => exact execCanSwitchBufferLoad_pwr h
  | canTxreq rq n w => exact execCanTxreq_pwr h
  | canTxcan rq n w => exact execCanTxcan_pwr h
  | canRxBufferRead rq n o => exact execCanRxBufferRead_pwr h
  | canRxrel rq n buf => exact execCanRxrel_pwr h
  | canPriorel rq n w => exact execCanPriorel_pwr h
  | linSlotStart n => exact execLinSlotStart_pwr h
  | linHeaderReceive n sync pid => exact execLinHeaderReceive_pwr h
  | linResponseEnd n bytes framing readback ago => exact execLinResponseEnd_pwr h
  | linSchedWrite rq n w => exact execLinSchedWrite_pwr h
  | linPubWrite rq n idx k w => exact execLinPubWrite_pwr h
  | serialTxDequeue n => exact execSerialTxDequeue_pwr h
  | uartTxStart n => exact execUartTxStart_pwr h
  | uartFrameEnd n chars gap => exact execUartFrameEnd_pwr h
  | hdlcFrameReceive n chars => exact execHdlcFrameReceive_pwr h
  | uartSwtxGo rq n w => exact execUartSwtxGo_pwr h
  | gpioInputChange n levels => exact execGpioInputChange_pwr h
  | serCtlStop rq n => exact execSerCtlStop_pwr h
  | serCtlStart rq n => exact execSerCtlStart_pwr h
  | ethLinkUp p spd hdx anok => exact execEthLinkUp_pwr h
  | ethLinkDown p => exact execEthLinkDown_pwr h
  | macFrameReceive p frame sfd fcsOk sym => exact execMacFrameReceive_pwr h
  | mdioCommand rq p w => exact execMdioCommand_pwr h
  | mdioDone answer => exact execMdioDone_pwr h
  | ethTxtsRead rq p => exact execEthTxtsRead_pwr h
  | plcaBeaconReceive p => exact execPlcaBeaconReceive_pwr h
  | plcaInactive p => exact execPlcaInactive_pwr h
  | t1sCollision p => exact execT1sCollision_pwr h
  | syncReceive p => exact execSyncReceive_pwr h
  | syncTimeout => exact execSyncTimeout_pwr h
  | tsySet rq => exact execTsySet_pwr h
  | tsyStep rq => exact execTsyStep_pwr h
  | tsyFadjWrite rq w => exact execTsyFadjWrite_pwr h
  | latchingPairRead rq a n => exact execLatchingPairRead_pwr h
  | unitSleepRequest rq hi w => cases hc
  | unitAsleep u => cases hc
  | unitWakeRequest rq hi w => cases hc
  | wakeUpFrame n f dlc => cases hc
  | wakeDominant n us => cases hc
  | wakeFrameErrors n => cases hc
  | wakePortEnergy p us => cases hc
  | wakeWireOrPin pin idx => cases hc
  | serdesPllRestartLock g => cases hc
  | validationWindowClose u => exact execValidationWindowClose_pwr h
  | wksValid rq hi w => exact execWksValid_pwr h
  | wksLogack rq w => exact execWksLogack_pwr h
  | linGoToSleepReceive n => cases hc
  | linIdleSleep n => cases hc
  | linWakePulseTimeout n => exact execLinWakePulseTimeout_pwr h
  | pcieRead sp x bes => exact execPcieRead_pwr h
  | pcieWrite sp x ws => cases hc
  | qspiTransaction cmd a len bytes => cases hc
  | qspiStatus => exact execQspiStatus_pwr h
  | msixRequest => exact execMsixRequest_pwr h
  | msixPendingSend v => exact execMsixPendingSend_pwr h
  | farReadAccess rq a n => cases hc
  | farReadAnswer => exact execFarReadAnswer_pwr h
  | farFetchTimeout b => exact execFarFetchTimeout_pwr h
  | farResultExpiry b => exact execFarResultExpiry_pwr h
  | farWrite rq a ws => cases hc
  | farWriteAck => exact execFarWriteAck_pwr h
  | farWriteTimeout tag => exact execFarWriteTimeout_pwr h
  | farRequestServe => cases hc
  | eventMessageSend => exact execEventMessageSend_pwr h
  | eventPacingFlush => exact execEventPacingFlush_pwr h
  | remoteEventReceive => exact execRemoteEventReceive_pwr h
  | brgRev0Read rq => exact execBrgRev0Read_pwr h
  | ploilhanReceive bad => exact execPloilhanReceive_pwr h
  | join => exact execJoin_pwr h
  | joinAnswer => exact execJoinAnswer_pwr h
  | heartbeatSend => exact execHeartbeatSend_pwr h
  | heartbeatReceive => exact execHeartbeatReceive_pwr h
  | workerLost d => exact execWorkerLost_pwr h
  | managerLost => exact execManagerLost_pwr h
  | takeover => exact execTakeover_pwr h
  | takeoverReceive => exact execTakeoverReceive_pwr h
  | probeEnd => exact execProbeEnd_pwr h
  | positionChangeRejoin => exact execPositionChangeRejoin_pwr h
  | imageBlockDeltaOpen => exact execImageBlockDeltaOpen_pwr h
  | imageBlockDeltaChunk => exact execImageBlockDeltaChunk_pwr h
  | imageBlockDeltaClose => cases hc
  | imageBlockDeltaAbort => exact execImageBlockDeltaAbort_pwr h
  | imageBlockStatus => exact execImageBlockStatus_pwr h
  | wearReportRequest rq w => exact execWearReportRequest_pwr h
  | wearReportSend => exact execWearReportSend_pwr h
  | remoteFullReset side => cases hc
  | remoteNormalReset side => cases hc
  | remoteRevoke side => exact execRemoteRevoke_pwr h
  | lifecycleArm rq key target => exact execLifecycleArm_pwr h
  | lifecycleCommit rq key target => exact execLifecycleCommit_pwr h
  | lifecycleBurnDone => cases hc
  | imageKeyProgram rq key slot => exact execImageKeyProgram_pwr h
  | imageKeyRevoke rq key slot => exact execImageKeyRevoke_pwr h
  | floorSet rq w => exact execFloorSet_pwr h
  | nodeCreate rq key parent => exact execNodeCreate_pwr h
  | nodeInvalidate rq key node => exact execNodeInvalidate_pwr h
  | nodeFree rq key node => exact execNodeFree_pwr h
  | slotWipe k => exact execSlotWipe_pwr h
  | wrap rq w => exact execWrap_pwr h
  | wrapDone => exact execWrapDone_pwr h
  | shelfWrite rq key idx => exact execShelfWrite_pwr h
  | shelfErase rq key idx => exact execShelfErase_pwr h
  | keyLoad rq w => exact execKeyLoad_pwr h
  | keyLoadDone => exact execKeyLoadDone_pwr h
  | wldLock rq w => exact execWldLock_pwr h
  | secureCall core => exact execSecureCall_pwr h
  | debugAccess w a v n => cases hc
  | ckvRingTail rq ns w => exact execCkvRingTail_pwr h
  | ckvDispatch l => exact execCkvDispatch_pwr h
  | ckvJobDone l agree => exact execCkvJobDone_pwr h
  | pkeJobGo rq w => exact execPkeJobGo_pwr h
  | pkeJobEnd inv cyc => exact execPkeJobEnd_pwr h
  | pkeSlenWrite rq k w => exact execPkeSlenWrite_pwr h
  | pkeOpdataAccess rq v => exact execPkeOpdataAccess_pwr h
  | digestGo rq ns w => exact execDigestGo_pwr h
  | digestDone ns => exact execDigestDone_pwr h
  | drgDataRead rq => exact execDrgDataRead_pwr h
  | drbgReseed rq => exact execDrbgReseed_pwr h
  | entropyHealthFail apt => exact execEntropyHealthFail_pwr h
  | adcConversion idx code => exact execAdcConversion_pwr h
  | pwmTrigger m icode vcode waited => exact execPwmTrigger_pwr h
  | motorRun rq m w => exact execMotorRun_pwr h
  | motorStop rq m => exact execMotorStop_pwr h
  | motorCoast rq m => exact execMotorCoast_pwr h
  | motorClear rq m => exact execMotorClear_pwr h
  | motorObservationEnd m events rpm rev => exact execMotorObservationEnd_pwr h
  | motorMeasurementEnd m events rpm rev => exact execMotorMeasurementEnd_pwr h
  | motorPositionEvent m code ns => exact execMotorPositionEvent_pwr h
  | motorPwmPeriod m => exact execMotorPwmPeriod_pwr h
  | motorAlignEnd m => exact execMotorAlignEnd_pwr h
  | motorHandoverTimeout m => exact execMotorHandoverTimeout_pwr h
  | motorStallTimeout m => exact execMotorStallTimeout_pwr h
  | motorWaitLimit m => exact execMotorWaitLimit_pwr h
  | motorHallInvalid m code => exact execMotorHallInvalid_pwr h
  | motorFltInput m => exact execMotorFltInput_pwr h
  | motorTest rq m w => exact execMotorTest_pwr h
  | lampCommand rq n w => exact execLampCommand_pwr h
  | lampTokenGrant g => exact execLampTokenGrant_pwr h
  | lampInrushEnd n above => exact execLampInrushEnd_pwr h
  | lampHardShort n => exact execLampHardShort_pwr h
  | lampOvercurrent n => exact execLampOvercurrent_pwr h
  | lampGroupLimit g => exact execLampGroupLimit_pwr h
  | lampDisturbanceEnd g => exact execLampDisturbanceEnd_pwr h
  | lampCoolDownEnd n => exact execLampCoolDownEnd_pwr h
  | lampBlinkPhase n => exact execLampBlinkPhase_pwr h
  | lampOpenDetect n below => exact execLampOpenDetect_pwr h
  | lampTriesReset n => exact execLampTriesReset_pwr h
  | lampTest rq w => exact execLampTest_pwr h
  | ledgerSecond => exact execLedgerSecond_pwr h
  | temperatureMeasure t => exact execTemperatureMeasure_pwr h
  | ringOscillatorMeasure ppm => exact execRingOscillatorMeasure_pwr h
  | ledgerSave => exact execLedgerSave_pwr h
  | ledgerSaveDone => exact execLedgerSaveDone_pwr h
  | monthlySample => exact execMonthlySample_pwr h
  | werReset rq w => exact execWerReset_pwr h
  | werSel rq w => exact execWerSel_pwr h
  | evcRouteWrite rq e w => exact execEvcRouteWrite_pwr h
  | evcSoft rq w => exact execEvcSoft_pwr h
  | w1cWrite rq a w n => cases hc
  | rcRead rq a n => exact execRcRead_pwr h
  | registerWrite rq a w n => cases hc
  | suppliesValid => cases hc
  | pfailRise => cases hc
  | wakePinRearm n => exact execWakePinRearm_pwr h
  | tamperRearm => exact execTamperRearm_pwr h
  | serdesPllRelock g => cases hc
  | pcieLinkChange up gen width => exact execPcieLinkChange_pwr h
  | transmitOpportunity p => exact execTransmitOpportunity_pwr h
  | serialTxEnd n echo => exact execSerialTxEnd_pwr h
  | boundaryScanInstruction idx => exact execBoundaryScanInstruction_pwr h

end

/-- Settles O8: each function that such a command calls keeps the registers of system control (`HasPwr`), one lemma for each, so the command does. -/
theorem powerRegistersKept : Obligations.PowerRegistersKept := by
  unfold Obligations.PowerRegistersKept
  intro c s t f hc hf ht
  obtain ⟨t', ht', hpwr⟩ := exec_pwr c hc (rfl : HasPwr (powerRegs s) s)
  obtain rfl : t' = t := Host.Outcome.next.inj (ht'.symm.trans ht)
  exact powerRegs_eq_iff.1 hpwr f (by simpa [onSys] using hf)

end Sys2Proof.Machine

namespace Sys2Proof.Machine

/-! # The always-on domain

## The log and the alarms (R117, R118, R120) -/

/-- Nothing but registers differs. -/
def RegsOnly (s t : State) : Prop := t = { s with regs := t.regs }

theorem RegsOnly.setF {s t : State} (h : RegsOnly s t) (f : Fld) (v : Nat) : RegsOnly s (Machine.setF f v t) := by
  unfold RegsOnly at h ⊢
  generalize t.regs = r at h
  subst h
  rfl

/-- The fields of the log alone. -/
def logFields : List Fld := [AON_LOGSTAT_lost, AON_LOGSTAT_unread, AON_LOGSTAT_wr] ++ (List.range 64).map AON_LOG_entry

theorem logFields_subset : ∀ g ∈ logFields, g ∈ aonLogFields := by decide

theorem aonLog_frame (cause detail : Nat) (preq : Bool) (s : State) :
    RegsOnly s (aonLog cause detail preq s) ∧ RegsBut logFields s (aonLog cause detail preq s) := by
  have hwr : getF AON_LOGSTAT_wr s < 32 := getF_lt AON_LOGSTAT_wr s
  have hentry (k : Nat) (hk : k < 64) : AON_LOG_entry k ∈ logFields :=
    List.mem_append_right _ (List.mem_map_of_mem (List.mem_range.2 hk))
  unfold aonLog
  extract_lets i w1 s1 s2
  clear_value w1
  have hself : RegsOnly s s := rfl
  have h2 : RegsOnly s s2 := ((hself.setF _ _).setF _ _).setF _ _
  have hregs1 : RegsBut logFields s s1 := ((RegsBut.refl _ s).setF (hentry _ (by omega)) _).setF (hentry _ (by omega)) _
  have hregs2 : RegsBut logFields s s2 := hregs1.setF (by decide) _
  split
  · exact ⟨h2.setF _ _, hregs2.setF (by decide) _⟩
  · exact ⟨h2.setF _ _, hregs2.setF (by decide) _⟩

/-- What an alarm can change: the log, PWR_REQ, and in BACKUP the pending wake cause (R117). -/
theorem aonAlarm_frame (cause detail bit : Nat) (s : State) : aonAlarm cause detail bit s =
    { s with
      regs := (aonAlarm cause detail bit s).regs, evc := (aonAlarm cause detail bit s).evc
      aon := { s.aon with
        alarms := (aonAlarm cause detail bit s).aon.alarms, first := (aonAlarm cause detail bit s).aon.first
        holding := (aonAlarm cause detail bit s).aon.holding } } ∧
    RegsBut aonLogFields s (aonAlarm cause detail bit s) := by
  unfold aonAlarm
  dsimp only
  split
  · obtain ⟨heq, hregs⟩ := aonLog_frame cause detail (!isSet AON_VBAT_inhibit s) s
    replace hregs := hregs.mono logFields_subset
    generalize aonLog cause detail (!isSet AON_VBAT_inhibit s) s = t at heq hregs ⊢
    split
    · exact ⟨by rw [heq], hregs.of_regs rfl⟩
    · exact ⟨by rw [heq]; rfl, (hregs.of_regs rfl).setF (by decide) _⟩
  · obtain ⟨heq, hregs⟩ := aonLog_frame cause detail false s
    obtain ⟨heq', hregs'⟩ := raise_frame 6 (aonLog cause detail false s)
    exact ⟨by rw [heq', heq], (hregs.mono logFields_subset).trans (hregs'.mono (by decide))⟩

theorem preqRelease_frame (detail : Nat) (s : State) :
    RegsOnly s (preqRelease detail s) ∧ RegsBut aonLogFields s (preqRelease detail s) := by
  unfold preqRelease
  split
  · obtain ⟨heq, hregs⟩ := aonLog_frame 7 detail false (setB AON_PREQ_asserted false s)
    exact ⟨by rw [RegsOnly, heq]; rfl, ((RegsBut.refl _ s).setF (by decide) _).trans (hregs.mono logFields_subset)⟩
  · exact ⟨rfl, RegsBut.refl _ s⟩

theorem preqStop_frame (detail : Nat) (s : State) : RegsBut aonLogFields (setB AON_PREQ_sw false s) (preqStop detail s) :=
  fun f hf => (preqRelease_frame detail { setB AON_PREQ_sw false s with aon := { s.aon with holding := false } }).2 f hf

/-- A field whose register is among those dropped reads its reset value. -/
theorem getF_filter_drop {f : Fld} {q : Nat × Nat → Bool} {s : State} (hq : ∀ n, q (f.key, n) = false) :
    getF f { s with regs := s.regs.filter q } = f.reset % 2 ^ f.width := by
  have hdrop (l : List (Nat × Nat)) : tabGet f.reset (l.filter q) f.key = f.reset := by
    induction l with
    | nil => rfl
    | cons e r ih =>
      obtain ⟨k, n⟩ := e
      by_cases hk : k = f.key
      · subst hk
        simp [hq, ih]
      · by_cases he : q (k, n) = true <;> simp [he, tabGet, hk, ih]
  simp only [getF, hdrop]

/-! ## Writes of the domain (R112) -/

/-- The writes on their way and memory are the same in two states. -/
def SameTransit (s t : State) : Prop := t.aon.writes = s.aon.writes ∧ t.mem = s.mem

theorem ite_transit {c : Prop} [Decidable c] {s t u : State} (h : SameTransit s t) (h' : SameTransit s u) : SameTransit s (if c then t else u) := by
  split <;> assumption

theorem preqRelease_transit {detail : Nat} {s t : State} (h : SameTransit s t) : SameTransit s (preqRelease detail t) := by
  rw [(preqRelease_frame detail t).1]
  exact h

/-- A write that reaches the domain leaves those behind it on their way. -/
theorem aonApply_transit (a v : Nat) (sec : Bool) (s : State) : SameTransit s (aonApply a v sec s) :=
  have hpreq : SameTransit s (if v.testBit 17 then preqStop 1 (setF AON_PREQ_hold (bitsOf v 0 10) s)
      else preqSw (v.testBit 16) (setF AON_PREQ_hold (bitsOf v 0 10) s)) :=
    ite_transit (preqRelease_transit ⟨rfl, rfl⟩)
      (ite_transit (ite_transit ⟨rfl, rfl⟩ ⟨rfl, rfl⟩) (ite_transit ⟨rfl, rfl⟩ (preqRelease_transit ⟨rfl, rfl⟩)))
  ite_transit ⟨rfl, rfl⟩ <| ite_transit ⟨rfl, rfl⟩ <| ite_transit (ite_transit ⟨rfl, rfl⟩ ⟨rfl, rfl⟩) <| ite_transit ⟨rfl, rfl⟩ <|
    ite_transit ⟨rfl, rfl⟩ <| ite_transit hpreq <| ite_transit ⟨rfl, rfl⟩ <| ite_transit (ite_transit ⟨rfl, rfl⟩ ⟨rfl, rfl⟩) <|
    ite_transit ⟨rfl, rfl⟩ ⟨rfl, rfl⟩

theorem aonWrite_eq (a v : Nat) (sec : Bool) (s : State) : aonWrite a v sec s = setB AON_STATUS_busy true
    { s with bus := (if s.aon.writes = [] then .done else .stall), aon := { s.aon with writes := s.aon.writes ++ [(a, v, sec)] } } := by
  unfold aonWrite
  split <;> rfl

theorem aonWrite_writes (a v : Nat) (sec : Bool) (s : State) : (aonWrite a v sec s).aon.writes = s.aon.writes ++ [(a, v, sec)] := by
  rw [aonWrite_eq]
  rfl

theorem completes_aonWriteTransit (s : State) : Completes (.aonWriteTransit) s fun t => t.aon.writes = s.aon.writes.tail ∧ t.mem = s.mem := by
  refine completes_of_eq rfl ?_
  unfold aonTransit
  split
  · next hw => simp [hw]
  · next a v sec r hw =>
    obtain ⟨hwrites, hmem⟩ := aonApply_transit a v sec (setB AON_STATUS_busy (r != []) { s with aon := { s.aon with writes := r } })
    exact ⟨by rw [hwrites, hw]; rfl, hmem⟩

theorem exec_aonRtcset {rq : Requester} (w : Word) {s : State} (hadm : admits rq true 0x4015000C 0 s = true) (hsec : rqSecure rq = true) :
    exec (.aonRtcset rq w) s = .next (setB AON_STATUS_busy true
      { s with bus := (if s.aon.writes = [] then .done else .stall), aon := { s.aon with writes := s.aon.writes ++ [(0x4015000C, w.toNat, true)] } }) := by
  refine congrArg Host.Outcome.next ((gate_of_admits hadm _).trans ?_)
  rw [cmdAonRtcset, secureOnly, if_pos hsec]
  exact aonWrite_eq 0x4015000C w.toNat true s

/-- A write that the rights let through and its register's rules accept is on its way. -/
theorem completes_aonWrite {c : Instr} {rq : Requester} {a v : Nat} {sec : Bool} {g : State → State} {s : State}
    (hc : exec c s = .next (gate rq true a 0 g s)) (hadm : admits rq true a 0 s = true) (hg : g s = aonWrite a v sec s) :
    Completes c s fun t => t.aon.writes = s.aon.writes ++ [(a, v, sec)] := by
  refine completes_of_eq hc ?_
  rw [gate_of_admits hadm, hg]
  exact aonWrite_writes a v sec s

theorem completes_tamperLatchClear {rq : Requester} {s : State} (hadm : admits rq true 0x40150018 0 s = true) (hsec : rqSecure rq = true)
    (hopen : lifecycle s ≠ lcGarnet ∨ mode s = mWorkshop) :
    Completes (.tamperLatchClear rq) s fun t => t.aon.writes = s.aon.writes ++ [(0x40150018, 1, true)] := by
  refine completes_aonWrite rfl hadm ?_
  rw [cmdTamperLatchClear, tamperWrite, secureOnly, if_pos hsec, if_pos (by simpa using hopen)]
  rfl

/-- The word of a release keeps the hold time (R118). -/
theorem preqWord_release (s : State) : (preqWord false true s).testBit 17 = true ∧ preqWord false true s % 2 ^ 10 = getF AON_PREQ_hold s := by
  have hhold : getF AON_PREQ_hold s < 2 ^ 10 := getF_lt AON_PREQ_hold s
  unfold preqWord
  generalize getF AON_PREQ_hold s = h at hhold ⊢
  simp only [Bool.false_eq_true, if_false, if_true, Nat.add_zero]
  refine ⟨?_, by omega⟩
  rw [Nat.add_comm, Nat.testBit_two_pow_add_eq, Nat.testBit_lt_two_pow (by omega), Bool.not_false]

theorem completes_pwrReqRelease {rq : Requester} {s : State} (hadm : admits rq true 0x40150020 0 s = true) :
    Completes (.pwrReqRelease rq) s fun t => ∃ v, t.aon.writes = s.aon.writes ++ [(0x40150020, v, false)] ∧ v.testBit 17 = true ∧
      v % 2 ^ 10 = getF AON_PREQ_hold s := by
  have hwrite : cmdPwrReqRelease rq s = aonWrite 0x40150020 (preqWord false true s) false s := rfl
  exact (completes_aonWrite rfl hadm hwrite).mono fun t ht => ⟨_, ht, preqWord_release s⟩

theorem completes_pwrReqSwWrite {rq : Requester} {w : Word} {s : State} (hadm : admits rq true 0x40150020 0 s = true) (hlo : 1 ≤ wbits w 0 10)
    (hhi : wbits w 0 10 ≤ 600) : Completes (.pwrReqSwWrite rq w) s fun t => t.aon.writes = s.aon.writes ++ [(0x40150020, w.toNat, false)] :=
  completes_aonWrite rfl hadm (if_pos (by simp [hlo, hhi]))

/-! ## The supply of the domain (R111, R112) -/

theorem completes_aonDomainPowerUp (fromVbat : Bool) {s : State} (hoff : mode s = mOff) :
    Completes (.aonDomainPowerUp fromVbat) s fun t => mode t = mBackup ∧ t.aon.sec = 0 ∧ isSet AON_STATUS_aonpor t = true := by
  refine completes_of_eq rfl ?_
  rw [onlyIf_true (by simpa using hoff)]
  extract_lets s1
  obtain ⟨heq, hregs⟩ := setMode_frame mBackup s1
  have hpor : getF AON_STATUS_aonpor s1 = 1 := getF_filter_drop (f := AON_STATUS_aonpor) fun _ => rfl
  refine ⟨mode_setMode (by decide) s1, by rw [heq], ?_⟩
  rw [isSet, hregs _ (by decide), hpor]
  rfl

theorem completes_aonSupplyLoss {s : State} (hpor : s.power.por = true) (hmode : mode s = mBackup) (hvbat : s.aon.onVbat = true) :
    Completes (.aonSupplyLoss) s fun t => mode t = mOff ∧ getF PWR_MODE_prev t = mBackup ∧ t.aon.writes = [] := by
  refine completes_of_eq rfl ?_
  rw [onlyIf_true (by simp [hpor, hmode, hvbat])]
  exact ⟨getF_setF_self _ _ _, (getF_setF_ne _ _ (by decide)).trans (getF_setF_self _ _ _), rfl⟩

/-! ## The RTC, the pins and VBAT (R113 to R116) -/

theorem standbyTrigger_aon (why : Nat) (s : State) : (standbyTrigger why s).aon = s.aon := by
  unfold standbyTrigger
  split <;> rfl

theorem aonAlarm_aon (cause detail bit : Nat) (s : State) : (aonAlarm cause detail bit s).aon.sec = s.aon.sec ∧
    (aonAlarm cause detail bit s).aon.frac = s.aon.frac ∧ (aonAlarm cause detail bit s).aon.fired = s.aon.fired := by
  rw [(aonAlarm_frame cause detail bit s).1]
  exact ⟨rfl, rfl, rfl⟩

theorem completes_rtcSecond (s : State) : Completes (.rtcSecond) s fun t => t.aon.sec = (s.aon.sec + 1) % 2 ^ 32 ∧ t.aon.frac = 0 := by
  refine completes_of_eq rfl ?_
  extract_lets _ s1
  split
  · obtain ⟨hsec, hfrac, -⟩ := aonAlarm_aon 1 0 0 (setB AON_ALMCTL_rtc false s1)
    rw [standbyTrigger_aon, hsec, hfrac]
    exact ⟨rfl, rfl⟩
  · exact ⟨rfl, rfl⟩

theorem testBit_or_two_pow_self (m n : Nat) : (m ||| 2 ^ n).testBit n = true := by
  simp

theorem completes_wakePinFire {n : Nat} {s : State} (hn : n < 2) (h0 : isSet AON_ALMCTL_wake0 s = true) (h1 : isSet AON_ALMCTL_wake1 s = true)
    (hfired : s.aon.fired.testBit n = false) : Completes (.wakePinFire n) s fun t => t.aon.fired.testBit n = true ∧ t.aon.sec = s.aon.sec := by
  have hen : (if n = 0 then isSet AON_ALMCTL_wake0 s else if n = 1 then isSet AON_ALMCTL_wake1 s else false) = true := by
    obtain rfl | rfl : n = 0 ∨ n = 1 := by omega
    · exact h0
    · exact h1
  refine completes_of_eq rfl ?_
  dsimp only
  rw [onlyIf_true (by rw [hen, hfired]; rfl)]
  obtain ⟨hsec, -, hbit⟩ := aonAlarm_aon 2 n (1 + n) { s with
    aon := { s.aon with fired := s.aon.fired ||| 2 ^ n }
    wks := if serving s && (getF WKS_SRC_pin s).testBit n then { s.wks with pinDue := s.wks.pinDue ||| 2 ^ n } else s.wks }
  rw [hsec, hbit]
  exact ⟨testBit_or_two_pow_self _ n, rfl⟩

theorem completes_wakePinRearm {n : Nat} (hn : n < 2) (s : State) :
    Completes (.wakePinRearm n) s fun t => t.aon.fired.testBit n = false ∧ t.regs = s.regs := by
  refine completes_of_eq rfl ?_
  rw [onlyIf_true (by simpa using hn)]
  exact ⟨testBit_natAndNot_self _ n, rfl⟩

theorem completes_tamperFire {s : State} (hen : isSet AON_ALMCTL_tamper s = true) (hfired : s.aon.fired.testBit 2 = false) :
    Completes (.tamperFire) s fun t => isSet AON_TAMPER_latch t = true ∧ isSet AON_TAMPER_pin t = false ∧ t.aon.fired.testBit 2 = true := by
  refine completes_of_eq rfl ?_
  rw [onlyIf_true (by simp [hen, hfired])]
  generalize hu : setB AON_TAMPER_latch true { setB AON_TAMPER_pin false s with
    aon := { (setB AON_TAMPER_pin false s).aon with fired := (setB AON_TAMPER_pin false s).aon.fired ||| 4 } } = u
  obtain ⟨-, -, hbit⟩ := aonAlarm_aon 3 0 3 u
  obtain ⟨-, hregs⟩ := aonAlarm_frame 3 0 3 u
  rw [isSet, isSet, hregs AON_TAMPER_latch (by decide), hregs AON_TAMPER_pin (by decide), hbit, ← hu]
  have hpin : isSet AON_TAMPER_pin (setB AON_TAMPER_pin false s) = false := isSet_setF_self _ _ _
  exact ⟨isSet_setF_self _ _ _, (isSet_setF_ne _ _ (by decide)).trans hpin, testBit_or_two_pow_self _ 2⟩

theorem completes_tamperRearm (s : State) : Completes (.tamperRearm) s fun t => isSet AON_TAMPER_pin t = true ∧ t.aon.fired.testBit 2 = false :=
  completes_of_eq rfl ⟨isSet_setF_self _ _ _, testBit_natAndNot_self _ 2⟩

/-- The inhibit as a measurement leaves it (R116): set below 2.1 V, cleared from 2.2 V. -/
theorem vbatInhibit_shows (mv10 : Nat) (s : State) : getF AON_VBAT_mv10 (vbatInhibit mv10 s) = getF AON_VBAT_mv10 s ∧
    (mv10 < 210 → isSet AON_VBAT_inhibit (vbatInhibit mv10 s) = true) ∧ (220 ≤ mv10 → isSet AON_VBAT_inhibit (vbatInhibit mv10 s) = false) := by
  unfold vbatInhibit
  split
  · split
    · next hlow hset => exact ⟨rfl, fun _ => hset, fun h => by omega⟩
    · next hlow hset =>
      have hregs := preqStop_frame 2 (setB AON_VBAT_inhibit true s)
      rw [isSet, hregs AON_VBAT_mv10 (by decide), hregs AON_VBAT_inhibit (by decide)]
      refine ⟨?_, fun _ => ?_, fun h => by omega⟩
      · simp (disch := decide) only [setB_eq, getF_setF_ne]
      · simp (disch := decide) only [setB_eq, getF_setF_ne, getF_setF_self]
        rfl
  · split
    · exact ⟨getF_setF_ne _ _ (by decide), fun h => by omega, fun _ => isSet_setF_self _ _ _⟩
    · exact ⟨rfl, fun h => by omega, fun h => by omega⟩

theorem completes_vbatMeasure {mv10 : Nat} (hmv : mv10 < 512) (s : State) : Completes (.vbatMeasure mv10) s fun t => getF AON_VBAT_mv10 t = mv10 ∧
    (mv10 < 210 → isSet AON_VBAT_inhibit t = true) ∧ (220 ≤ mv10 → isSet AON_VBAT_inhibit t = false) := by
  refine completes_of_eq rfl ?_
  extract_lets s1 low
  have hshown : getF AON_VBAT_mv10 (setF AON_VBAT_mv10 mv10 s) = mv10 := (getF_setF_self _ _ _).trans (Nat.mod_eq_of_lt (by simp only [AON_VBAT_mv10]; omega))
  have hs1 := vbatInhibit_shows mv10 (setF AON_VBAT_mv10 mv10 s)
  rw [hshown] at hs1
  split
  · obtain ⟨-, hregs⟩ := aonAlarm_frame 4 0 4 { s1 with aon := { s1.aon with vbatFired := true } }
    rw [isSet, hregs AON_VBAT_mv10 (by decide), hregs AON_VBAT_inhibit (by decide)]
    exact hs1
  · split <;> exact hs1

/-! ## PWR_REQ (R118) -/

theorem isSet_preqRelease (detail : Nat) (s : State) : isSet AON_PREQ_asserted (preqRelease detail s) = false := by
  unfold preqRelease
  split
  · obtain ⟨-, hregs⟩ := aonLog_frame 7 detail false (setB AON_PREQ_asserted false s)
    rw [isSet, hregs _ (by decide)]
    exact isSet_setF_self _ _ _
  · next h => simpa using h

theorem completes_pwrReqHoldExpiry {s : State} (hhold : s.aon.holding = true) : Completes (.pwrReqHoldExpiry) s fun t =>
    t.aon.holding = false ∧ (isSet AON_PREQ_sw s = false → isSet AON_PREQ_asserted t = false) := by
  refine completes_of_eq rfl ?_
  rw [onlyIf_true hhold]
  extract_lets _ s1
  split
  · next hsw => exact ⟨rfl, fun h => absurd (hsw.symm.trans h) (by decide)⟩
  · rw [(preqRelease_frame 0 s1).1]
    exact ⟨rfl, fun _ => isSet_preqRelease 0 s1⟩

/-- Settles O22, command by command. -/
theorem alwaysOnCommandsComplete : Obligations.AlwaysOnCommandsComplete := by
  unfold Obligations.AlwaysOnCommandsComplete
  exact ⟨fun fromVbat s hoff => completes_aonDomainPowerUp fromVbat hoff,
    fun s hpor hmode hvbat => completes_aonSupplyLoss hpor hmode hvbat,
    completes_aonWriteTransit,
    completes_rtcSecond,
    fun rq w s hadm hsec => exec_aonRtcset w hadm hsec,
    fun n s hn h0 h1 hfired => completes_wakePinFire hn h0 h1 hfired,
    fun n s hn => completes_wakePinRearm hn s,
    fun s hen hfired => completes_tamperFire hen hfired,
    completes_tamperRearm,
    fun rq s hadm hsec hopen => completes_tamperLatchClear hadm hsec hopen,
    fun mv10 s hmv => completes_vbatMeasure hmv s,
    fun s hhold => completes_pwrReqHoldExpiry hhold,
    fun rq s hadm => completes_pwrReqRelease hadm,
    fun rq w s hadm hlo hhi => completes_pwrReqSwWrite hadm hlo hhi,
    fun rq s hadm => completes_aonWrite rfl hadm rfl⟩
end Sys2Proof.Machine

namespace Sys2Proof.Machine

/-! # What a cut-over keeps

The structure in force, the loader's record and the fuses, and with `act` also that the event controller is active: the functions that a cut-over
and a start-up message call leave these alone (`HasForm`), one lemma for each function. EVC_CTL is the lowest register of its block (R496), so a
field of any later register is not it, whatever its index. -/

section

/-- What a state holds for the cut-over: its structure, the loader's record, the fuses and EVC_CTL.act. -/
abbrev FormView := Structure × LoaderState × FuseState × Nat

/-- A state's, with EVC_CTL.act where `act` asks for it. -/
def formView (act : Bool) (s : State) : FormView := (s.str, s.loader, s.fuse, if act then getF EVC_CTL_act s else 0)

/-- A state holds `v` for the cut-over. -/
def HasForm (act : Bool) (v : FormView) (s : State) : Prop := formView act s = v

variable {act : Bool} {v : FormView} {s : State}

theorem HasForm.upd {t : State} (h : HasForm act v s) (e : formView act t = formView act s) : HasForm act v t := e.trans h

theorem HasForm.of_eq {α : Type} {x : α × State} {a : α} {t : State} (h : HasForm act v x.2) (e : x = (a, t)) : HasForm act v t := by
  rwa [e] at h

/-- `HasForm.upd` for a state that is a long call: the update is not unfolded to find it. -/
theorem HasForm.swc {x : SwcState} (h : HasForm act v s) : HasForm act v { s with swc := x } := h.upd rfl

theorem pair_form {α : Type} {a : α} (h : HasForm act v s) : HasForm act v (a, s).2 := h

theorem ite_form {c : Prop} [Decidable c] {t : State} (h : HasForm act v s) (h' : HasForm act v t) : HasForm act v (if c then s else t) := by
  split <;> assumption

theorem iteThen_form {c : Prop} [Decidable c] {t : State} (h : HasForm act v s) (hg : HasForm act v s → HasForm act v t) :
    HasForm act v (if c then s else t) :=
  ite_form h (hg h)

theorem iteElse_form {c : Prop} [Decidable c] {t : State} (h : HasForm act v s) (hg : HasForm act v s → HasForm act v t) :
    HasForm act v (if c then t else s) :=
  ite_form (hg h) h

theorem iteSnd_form {α : Type} {c : Prop} [Decidable c] {x y : α × State} (h : HasForm act v x.2) (h' : HasForm act v y.2) :
    HasForm act v (if c then x else y).2 := by
  split <;> assumption

theorem iteSnd₂_form {α β : Type} {c : Prop} [Decidable c] {x y : α × β × State} (h : HasForm act v x.2.2) (h' : HasForm act v y.2.2) :
    HasForm act v (if c then x else y).2.2 := by
  split <;> assumption

theorem HasForm.setF {f : Fld} {n : Nat} (h : HasForm act v s) (hf : f.key ≠ EVC_CTL_act.key) : HasForm act v (setF f n s) :=
  h.upd (by simp only [formView, getF_setF_ne n s hf.symm]; rfl)

theorem key_ne_act {f : Fld} (hf : 0x40030004 ≤ f.addr) : f.key ≠ EVC_CTL_act.key := by
  simp only [Fld.key, EVC_CTL_act]
  omega

/-- A field of a register after EVC_CTL. -/
theorem setF_form {f : Fld} {n : Nat} (hf : 0x40030004 ≤ f.addr) (h : HasForm act v s) : HasForm act v (setF f n s) := h.setF (key_ne_act hf)

theorem setB_form {f : Fld} {b : Bool} (hf : 0x40030004 ≤ f.addr) (h : HasForm act v s) : HasForm act v (setB f b s) := setF_form hf h

theorem incF_form {f : Fld} {n : Nat} (hf : 0x40030004 ≤ f.addr) (h : HasForm act v s) : HasForm act v (incF f n s) := setF_form hf h

theorem orF_form {f : Fld} {m : Nat} (hf : 0x40030004 ≤ f.addr) (h : HasForm act v s) : HasForm act v (orF f m s) := setF_form hf h

theorem clrF_form {f : Fld} {m : Nat} (hf : 0x40030004 ≤ f.addr) (h : HasForm act v s) : HasForm act v (clrF f m s) := setF_form hf h

/-- Before the controller is active, any field. -/
theorem setF_any {f : Fld} {n : Nat} (h : HasForm false v s) : HasForm false v (setF f n s) := h.upd rfl

theorem setB_any {f : Fld} {b : Bool} (h : HasForm false v s) : HasForm false v (setB f b s) := setF_any h

theorem incF_any {f : Fld} {n : Nat} (h : HasForm false v s) : HasForm false v (incF f n s) := setF_any h

theorem incWrap_any {f : Fld} {n : Nat} (h : HasForm false v s) : HasForm false v (incWrap f n s) := setF_any h

theorem orF_any {f : Fld} {m : Nat} (h : HasForm false v s) : HasForm false v (orF f m s) := setF_any h

theorem clrF_any {f : Fld} {m : Nat} (h : HasForm false v s) : HasForm false v (clrF f m s) := setF_any h

theorem applyAll_form {α : Type} {l : List α} {g : α → State → State} (hg : ∀ x s, HasForm act v s → HasForm act v (g x s))
    (h : HasForm act v s) : HasForm act v (applyAll l g s) :=
  applyAll_of l g hg s h

/-! ## The functions, in the order of the model -/

theorem wrBytes_form {l : List Byte} {a : Nat} (h : HasForm false v s) : HasForm false v (wrBytes a l s) := by
  rw [wrBytes_eq]
  exact h.upd rfl

theorem emit_form {e : Emission} (h : HasForm false v s) : HasForm false v (emit e s) :=
  h.upd rfl

theorem raiseNow_form {e : Nat} (h : HasForm act v s) : HasForm act v (raiseNow e s) := by
  have hpend : 0x40030004 ≤ (evPend e).addr := by unfold evPend; split <;> decide
  exact iteElse_form (iteElse_form (incF_form (Nat.le_add_right_of_le (by decide)) (orF_form hpend h)) fun h1 => h1.upd rfl) fun h1 => h1.upd rfl

theorem raise_form {e : Nat} (h : HasForm act v s) : HasForm act v (raise e s) :=
  ite_form h (ite_form (h.upd rfl) (raiseNow_form h))

theorem raiseOnce_form {e inst : Nat} (h : HasForm false v s) : HasForm false v (raiseOnce e inst s) :=
  ite_form h (raise_form (h.upd rfl))

theorem setMode_form {m : Nat} (h : HasForm false v s) : HasForm false v (setMode m s) :=
  ite_form h (ite_form (raise_form (setF_any (setF_any h))) (setF_any (setF_any h)))

theorem setTileBit_form {lo hi : Fld} {n : Nat} {b : Bool} (h : HasForm false v s) : HasForm false v (setTileBit lo hi n b s) :=
  ite_form (orF_any h) (clrF_any h)

theorem setLease_form {n : Nat} {l : Lease} (h : HasForm false v s) : HasForm false v (setLease n l s) :=
  h.upd rfl

theorem logDeclaration_form {owner decl count : Nat} (h : HasForm false v s) : HasForm false v (logDeclaration owner decl count s) :=
  setF_any (setF_any (setF_any (incF_any h)))

theorem declare_form {reach : Lease → Nat → Bool} {owner decl : Nat} (h : HasForm false v s) : HasForm false v (declare reach owner decl s) :=
  ite_form (logDeclaration_form h) ((applyAll_form (fun _ _ h => setLease_form h) h).upd rfl)

theorem poolTake_form (h : HasForm false v s) : HasForm false v (poolTake s) :=
  iteElse_form (iteElse_form (setF_any (setF_any (setB_any h))) fun h1 => raise_form h1) fun h1 =>
    raise_form (setB_any h1)

theorem poolReturn_form (h : HasForm act v s) : HasForm act v (poolReturn s) :=
  iteElse_form (setF_form (by decide) (setB_form (by decide) h)) fun h1 => setB_form (by decide) h1

theorem takePage_form {i : Nat} (h : HasForm false v s) : HasForm false v (takePage i s).2 :=
  ite_form (h.upd rfl) (poolTake_form (h.upd rfl))

theorem grantPage_form {idx i : Nat} (h : HasForm false v s) : HasForm false v (grantPage idx i s).2 :=
  setF_any (takePage_form h)

theorem takePages_form {idx i n : Nat} (h : HasForm false v s) : HasForm false v (takePages idx i n s).2.2 := by
  induction n generalizing s with
  | zero => exact h
  | succ n ih =>
    unfold takePages
    split
    · exact h
    · exact ih (grantPage_form h)

theorem linkPages_form {l : List Nat} (h : HasForm false v s) : HasForm false v (linkPages l s) := by
  induction l, s using linkPages.induct with
  | case1 s => exact h
  | case2 s p => exact h.upd rfl
  | case3 s p q r ih => exact ih (h.upd rfl)

theorem freePage_form {p : Nat} (h : HasForm act v s) : HasForm act v (freePage p s) :=
  ite_form (ite_form (poolReturn_form (h.upd rfl)) (h.upd rfl)) (h.upd rfl)

theorem freePages_form {l : List Nat} (h : HasForm act v s) : HasForm act v (freePages l s) :=
  applyAll_form (fun _ _ h => freePage_form h) h

theorem sharePages_form {l : List Nat} {n : Nat} (h : HasForm false v s) : HasForm false v (sharePages l n s) :=
  applyAll_form (fun _ _ h => h.upd rfl) h

theorem countDrop_form {port reason : Nat} (h : HasForm false v s) : HasForm false v (countDrop port reason s) :=
  incF_any h

theorem setLodger_form {lid : Nat} {l : Lodger} (h : HasForm false v s) : HasForm false v (setLodger lid l s) :=
  h.upd rfl

theorem evict_form {lid : Nat} (h : HasForm false v s) : HasForm false v (evict lid s) :=
  setLodger_form h

theorem pinIn_form {lid : Nat} (h : HasForm false v s) : HasForm false v (pinIn lid s) := by
  refine ite_form (setLodger_form h) ?_
  split
  · exact setLodger_form (evict_form h)
  · exact h

theorem pageIn_form {lid : Nat} (h : HasForm false v s) : HasForm false v (pageIn lid s) :=
  setLodger_form (h.upd rfl)

theorem contextFault_form {lid : Nat} (h : HasForm false v s) : HasForm false v (contextFault lid s) := by
  refine ite_form h (ite_form (pinIn_form h) (ite_form (pageIn_form h) ?_))
  split
  · exact pageIn_form (evict_form h)
  · exact iteThen_form (setLodger_form h) fun h1 => raise_form (setB_any h1)

theorem fenceLodger_form {lid : Nat} (h : HasForm false v s) : HasForm false v (fenceLodger lid s) := by
  refine setLodger_form (applyAll_form (fun _ _ h => ?_) h)
  split
  · exact incF_any (freePages_form h)
  · exact h

theorem releaseItem_form {lid : Nat} {w : ItemWork} (h : HasForm false v s) : HasForm false v (releaseItem lid w s) := by
  refine ite_form h (ite_form ?_ (iteThen_form (setLodger_form h) fun h1 => contextFault_form h1))
  split
  · exact countDrop_form (freePages_form h)
  · exact h

theorem twr_form {a : Nat} {b : List Byte} (h : HasForm false v s) : HasForm false v (twr a b s) := by
  induction b generalizing a s with
  | nil => exact h
  | cons x r ih => exact ih (h.upd rfl)

theorem entWr_form {t i : Nat} {b : List Byte} (h : HasForm false v s) : HasForm false v (entWr t i b s) :=
  twr_form h

theorem shadowPlace_form {e : List Byte} (h : HasForm false v s) : HasForm false v (shadowPlace e s).2 := by
  unfold shadowPlace
  dsimp only
  split
  · exact entWr_form h
  · split
    · exact entWr_form h
    · exact setF_any (incF_any h)

theorem shadowMade_form {e : List Byte} (h : HasForm false v s) : HasForm false v (shadowMade e s) :=
  iteElse_form (shadowPlace_form h) fun h1 => incF_any h1

theorem shadowDrop_form {key : List Byte} (h : HasForm false v s) : HasForm false v (shadowDrop key s) := by
  unfold shadowDrop
  split
  · exact entWr_form h
  · exact h

theorem l2Put_form {i : Nat} {e : List Byte} (h : HasForm false v s) : HasForm false v (l2Put i e s) :=
  ite_form (iteElse_form (setF_any (entWr_form h)) fun h1 => iteElse_form (ite_form (shadowDrop_form h1) h1) fun h2 => shadowMade_form
    h2) (entWr_form h)

theorem learnQueue_form {r : LearnReq} (h : HasForm false v s) : HasForm false v (learnQueue r s) :=
  ite_form (h.upd rfl) (ite_form (incF_any h) (setF_any (h.upd rfl)))

theorem learnMeet_form {mac : List Byte} {vid port : Nat} (h : HasForm false v s) : HasForm false v (learnMeet mac vid port s) := by
  unfold learnMeet
  dsimp only
  refine ite_form h ?_
  split
  · exact learnQueue_form h
  · exact ite_form h (ite_form (l2Put_form h) (learnQueue_form h))

theorem bankSwap_form (h : HasForm false v s) : HasForm false v (bankSwap s) :=
  ite_form (setF_any (setF_any (setF_any (setF_any h)))) (setB_any h)

theorem storeFrame_form {l : List Nat} {b : List Byte} (h : HasForm false v s) : HasForm false v (storeFrame l b s) := by
  induction l generalizing b s with
  | nil => exact h
  | cons p r ih => exact ih (wrBytes_form h)

theorem swBump_form {p i n : Nat} (h : HasForm act v s) : HasForm act v (swBump p i n s) :=
  h.upd rfl

theorem setQueue_form {k : Nat} {q : List Replica} (h : HasForm act v s) : HasForm act v (setQueue k q s) :=
  h.upd rfl

theorem dropReplica_form {r : Replica} (h : HasForm act v s) : HasForm act v (dropReplica r s) :=
  freePages_form h

theorem discard_form {p i : Nat} {r : Replica} (h : HasForm act v s) : HasForm act v (discard p i r s) :=
  swBump_form (dropReplica_form h)

theorem ringDrop_form {r n : Nat} (h : HasForm false v s) : HasForm false v (ringDrop r n s) :=
  (incF_any h).upd rfl

theorem setGate_form {p : Nat} {g : GateState} (h : HasForm false v s) : HasForm false v (setGate p g s) :=
  h.upd rfl

theorem creditUpdate_form {p : Nat} (h : HasForm act v s) : HasForm act v (creditUpdate p s) := by
  unfold creditUpdate
  refine ite_form h ?_
  extract_lets now dt put s1
  have hs1 : HasForm act v s1 := applyAll_form (fun _ _ h => h.swc) h
  exact hs1.swc

theorem refreshHold_form {p : Nat} (h : HasForm act v s) : HasForm act v (refreshHold p s) :=
  ite_form (setF_form (Nat.le_add_right_of_le (by decide)) h) h

theorem enqueue_form {p : Nat} {r : Replica} (h : HasForm false v s) : HasForm false v (enqueue p r s) := by
  unfold enqueue
  split
  · exact discard_form h
  · exact incF_any (discard_form h)
  · exact incF_any (discard_form h)
  · exact ringDrop_form (dropReplica_form h)
  · exact discard_form h
  · exact refreshHold_form (setQueue_form (creditUpdate_form h))

theorem flushPort_form {p : Nat} (h : HasForm act v s) : HasForm act v (flushPort p s) :=
  refreshHold_form (creditUpdate_form (applyAll_form (fun _ _ h => applyAll_form (fun _ _ h => discard_form h) (setQueue_form h))
    (creditUpdate_form h)))

theorem trnCount_form {lid i n : Nat} (h : HasForm false v s) : HasForm false v (trnCount lid i n s) :=
  h.upd rfl

theorem toTranscriber_form {r : Replica} (h : HasForm false v s) : HasForm false v (toTranscriber r s) := by
  unfold toTranscriber
  dsimp only
  split
  · exact releaseItem_form h
  · exact trnCount_form (dropReplica_form h)

theorem joinPlain_form {p : Nat} {r : Replica} (h : HasForm false v s) : HasForm false v (joinPlain p r s) :=
  ite_form (toTranscriber_form h) (ite_form (discard_form h) (enqueue_form h))

theorem setInflight_form {p : Nat} {i : Option Inflight} (h : HasForm false v s) : HasForm false v (setInflight p i s) :=
  h.upd rfl

theorem addWaiting_form {p : Nat} {l : List (Nat × Replica)} (h : HasForm false v s) : HasForm false v (addWaiting p l s) := by
  unfold addWaiting
  split
  · exact setInflight_form h
  · exact h

theorem joinCut_form {p : Nat} {r : Replica} (h : HasForm false v s) : HasForm false v (joinCut p r s) :=
  ite_form (addWaiting_form (enqueue_form (sharePages_form h))) (enqueue_form h)

theorem joinQueue_form {p : Nat} {r : Replica} (h : HasForm false v s) : HasForm false v (joinQueue p r s) :=
  ite_form (discard_form h) (ite_form (joinPlain_form (joinPlain_form (sharePages_form h))) (joinPlain_form h))

theorem ingressCopy_form {w : Waybill} {arriving : Bool} (h : HasForm false v s) : HasForm false v (ingressCopy w arriving s) :=
  ite_form (ite_form (addWaiting_form (sharePages_form h)) (joinPlain_form (sharePages_form h))) h

theorem police_form {i charge : Nat} (h : HasForm false v s) : HasForm false v (police i charge s).2 := by
  refine iteSnd_form (incF_any h) (iteSnd_form (entWr_form h) ?_)
  split
  · exact raiseOnce_form (setF_any (entWr_form h))
  · exact entWr_form h
  · exact entWr_form h

theorem setCb_form {sh : Nat} {c : CbStream} (h : HasForm false v s) : HasForm false v (setCb sh c s) :=
  h.upd rfl

theorem flowDrop_form {f : Flow} {i : Nat} (h : HasForm false v s) : HasForm false v (flowDrop f i s) :=
  swBump_form (freePages_form h)

theorem replicate_form {f : Flow} {encap : Option Nat} {decap arriving : Bool} (h : HasForm false v s) :
    HasForm false v (replicate f encap decap arriving s) := by
  unfold replicate
  extract_lets w again w1 nosub s1 s2 reps g s3 cut rest s4
  have hs1 : HasForm false v s1 := ite_form (swBump_form h) h
  have hs2 : HasForm false v s2 := ite_form (swBump_form hs1) hs1
  have hs3 : HasForm false v s3 := sharePages_form hs2
  have hs4 : HasForm false v s4 := applyAll_form (fun _ _ h => joinCut_form h) hs3
  exact ite_form (ite_form (freePages_form hs2) (flowDrop_form hs2)) (ite_form (addWaiting_form hs4)
    (applyAll_form (fun _ _ h => joinQueue_form h) hs4))

theorem reframe_form {f : Flow} {b : List Byte} (h : HasForm false v s) : HasForm false v (reframe f b s).2 := by
  refine storeFrame_form ?_
  split
  · exact setInflight_form h
  · exact h

theorem recovery_form {f g : Flow} {sh : Nat} {t : State} (h : HasForm false v s) (e : recovery f sh s = some (g, t)) : HasForm false v t := by
  unfold recovery at e
  dsimp only at e
  split at e
  · cases e; exact h
  · split at e
    · cases e; exact setCb_form h
    · simp only [Option.ite_none_right_eq_some, Option.some.injEq] at e
      exact (iteSnd_form (reframe_form (setCb_form h)) (pair_form (setCb_form h))).of_eq e.2

theorem recoveryDiscard_form {f : Flow} {sh : Nat} (h : HasForm false v s) : HasForm false v (recoveryDiscard f sh s) := by
  unfold recoveryDiscard
  split
  · exact h
  · exact setCb_form h

theorem forwardL2_form {f : Flow} {arriving : Bool} (h : HasForm false v s) : HasForm false v (forwardL2 f arriving s) := by
  unfold forwardL2
  extract_lets w g ring s0 w1
  have hs0 : HasForm false v s0 := ite_form (learnMeet_form h) h
  split
  · exact replicate_form hs0
  · extract_lets dec w1
    split
    · exact flowDrop_form hs0
    · refine ite_form (flowDrop_form hs0) (ite_form ?_ (replicate_form hs0))
      split
      · exact flowDrop_form (recoveryDiscard_form hs0)
      · next e => exact replicate_form (recovery_form hs0 e)

theorem forwardTile_form {f : Flow} (h : HasForm false v s) : HasForm false v (forwardTile f s) := by
  unfold forwardTile
  dsimp only
  split
  · exact replicate_form h
  · split
    · exact flowDrop_form h
    · exact replicate_form h

theorem forwardStage_form {f : Flow} {arriving : Bool} (h : HasForm false v s) : HasForm false v (forwardStage f arriving s) :=
  ite_form (forwardTile_form h) (forwardL2_form h)

theorem settleLater_form {p i charge : Nat} (h : HasForm false v s) : HasForm false v (settleLater p i charge s) := by
  unfold settleLater
  split
  · exact setInflight_form h
  · exact h

theorem policeStage_form {f : Flow} {g : GraphRec} {arriving : Bool} (h : HasForm false v s) : HasForm false v (policeStage f g arriving s).2 := by
  unfold policeStage
  dsimp only
  split
  · exact ite_form (police_form h) (settleLater_form (police_form h))
  · exact flowDrop_form (police_form h)
  · exact police_form h
  · exact police_form h

theorem queueItem_form {lid : Nat} {w : Waybill} {arriving : Bool} (h : HasForm false v s) :
    HasForm false v (queueItem lid w arriving s) :=
  ite_form (addWaiting_form h) (releaseItem_form h)

theorem transcribeStage_form {f : Flow} {g : GraphRec} {arriving : Bool} (h : HasForm false v s) :
    HasForm false v (transcribeStage f g arriving s).2 := by
  unfold transcribeStage
  dsimp only
  split
  · exact h
  · exact iteSnd_form (queueItem_form h) (queueItem_form (sharePages_form h))

theorem runStages_form {l : List Nat} {f : Flow} {g : GraphRec} {arriving : Bool} (h : HasForm false v s) :
    HasForm false v (runStages l f g arriving s) := by
  induction l, f, g, arriving, s using runStages.induct with
  | case1 f g arriving s => exact freePages_form h
  | case2 r f g arriving s => exact forwardStage_form h
  | case3 r f g arriving s f1 s1 e ih => rw [runStages, e]; exact ih ((transcribeStage_form h).of_eq e)
  | case4 r f g arriving s s1 e => rw [runStages, e]; exact (transcribeStage_form h).of_eq e
  | case5 r f g arriving s f1 s1 e ih => rw [runStages, e]; exact ih ((policeStage_form h).of_eq e)
  | case6 r f g arriving s s1 e => rw [runStages, e]; exact (policeStage_form h).of_eq e
  | case7 r f g arriving s e => rw [runStages, if_pos e]; exact h.upd rfl
  | case8 r f g arriving s e ih => rw [runStages, if_neg e]; exact ih h
  | case9 x r f g arriving s h5 h4 h3 h2 ih => rw [runStages] <;> [exact ih h; exact h5; exact h4; exact h3; exact h2]

theorem enterPipeline_form {w : Waybill} {frame : List Byte} {arriving : Bool} (h : HasForm false v s) :
    HasForm false v (enterPipeline w frame arriving s) := by
  unfold enterPipeline
  extract_lets p g classify vid tc w1 f s0 s1 rest _
  have hs0 : HasForm false v s0 := ite_form (setInflight_form h) h
  have hs1 : HasForm false v s1 := ingressCopy_form (swBump_form (swBump_form hs0))
  exact ite_form (replicate_form hs1) (ite_form (flowDrop_form hs1) (ite_form (hs1.upd rfl) (runStages_form hs1)))

theorem setFilling_form {k : Nat} {l : List Nat} (h : HasForm false v s) : HasForm false v (setFilling k l s) :=
  h.upd rfl

theorem pagesOf_form {w : Waybill} {tc len : Nat} {lossless : Bool} (h : HasForm false v s) : HasForm false v (pagesOf w tc len lossless s).2.2 := by
  refine iteSnd₂_form (freePages_form (setFilling_form h)) (iteSnd₂_form (setFilling_form ?_)
    (iteSnd₂_form (setFilling_form ?_) (freePages_form (setFilling_form ?_))))
  · split
    · exact h
    · exact takePages_form h
  · split
    · exact h
    · exact takePages_form h
  · split
    · exact h
    · exact takePages_form h

theorem setHolds_form {k : Nat} {l : List Held} (h : HasForm false v s) : HasForm false v (setHolds k l s) :=
  h.upd rfl

theorem obufShow_form (h : HasForm false v s) : HasForm false v (obufShow s) :=
  setF_any (setB_any h)

theorem enterHostel_form {w : Waybill} {frame : List Byte} {arriving : Bool} {pages : List Nat} (h : HasForm false v s) :
    HasForm false v (enterHostel w frame arriving pages s) :=
  ite_form (replicate_form (ingressCopy_form (storeFrame_form (linkPages_form h))))
    (enterPipeline_form (storeFrame_form (linkPages_form h)))

theorem offerFrame_form {w : Waybill} {frame : List Byte} {arriving : Bool} (h : HasForm false v s) : HasForm false v
    (offerFrame w frame arriving s) := by
  have hhold {t : State} (ht : HasForm false v t) {k : Nat} {l : List Held} : HasForm false v (obufShow (setHolds k l t)) :=
    obufShow_form (setHolds_form ht)
  exact ite_form (ite_form (hhold h) (countDrop_form h)) (ite_form (enterHostel_form (pagesOf_form h))
    (ite_form (ite_form (hhold (pagesOf_form h)) (countDrop_form (pagesOf_form h))) (countDrop_form (pagesOf_form h))))

theorem unitFrame_form {w : Waybill} {bytes : List Byte} (h : HasForm false v s) : HasForm false v (unitFrame w bytes s) :=
  offerFrame_form h

theorem plcaUp_form {p : Nat} (h : HasForm act v s) : HasForm act v (plcaUp p s) :=
  ite_form h (raise_form (setB_form (Nat.le_add_right_of_le (by decide)) (setB_form (Nat.le_add_right_of_le (by decide)) h)))

theorem showGates_form {p : Nat} (h : HasForm false v s) : HasForm false v (showGates p s) :=
  setF_any (setF_any h)

theorem gateCommit_form {p : Nat} (h : HasForm false v s) : HasForm false v (gateCommit p s) :=
  refreshHold_form (showGates_form (setB_any (setGate_form h)))

theorem writeFields_form {p : Acc → Bool} {d : RegDesc} {a w : Nat} (h : HasForm false v s) : HasForm false v (writeFields p d a w s) := by
  refine applyAll_form (fun f t ht => ite_form ht ?_) h
  split
  · exact clrF_any ht
  · exact orF_any ht
  · exact ht
  · exact ht
  · exact ht
  · exact setF_any ht

theorem applyStaged_form {x : Staged} (h : HasForm false v s) : HasForm false v (applyStaged x s) := by
  refine ite_form (h.upd rfl) ?_
  split
  · exact writeFields_form h
  · exact h

theorem storeWrite_form {region blk : Nat} (h : HasForm false v s) : HasForm false v (storeWrite region blk s) :=
  h.upd rfl

theorem drbgReseed_form (h : HasForm false v s) : HasForm false v (drbgReseed s) :=
  ite_form h (incF_any (h.upd rfl))

theorem drbgCall_form (h : HasForm false v s) : HasForm false v (drbgCall s).2 :=
  ite_form (drbgReseed_form (h.upd rfl)) (h.upd rfl)

theorem drbgBytes_form {n : Nat} (h : HasForm false v s) : HasForm false v (drbgBytes n s).2 := by
  induction n generalizing s with
  | zero => exact h
  | succ n ih => exact ih (drbgCall_form h)

theorem setSlot_form {k : Nat} {x : KeySlot} (h : HasForm false v s) : HasForm false v (setSlot k x s) :=
  h.upd rfl

theorem loadReject_form {why user idx : Nat} (h : HasForm false v s) : HasForm false v (loadReject why user idx s) :=
  ite_form (raiseOnce_form (incF_any (setF_any (setF_any (setF_any (incF_any h))))))
    (raiseOnce_form (setF_any (setF_any (setF_any (incF_any h)))))

theorem pickOf_form {l : List Nat} (h : HasForm false v s) : HasForm false v (pickOf l s).2 :=
  h.upd rfl

theorem slotFor_form {t : State} {k : Nat} (h : HasForm false v s) (e : slotFor s = some (k, t)) : HasForm false v t := by
  unfold slotFor at e
  dsimp only at e
  split at e
  · exact (pickOf_form h).of_eq (Option.some.inj e)
  · split at e
    · cases e
    · cases e; exact h

theorem touchSlot_form {k : Nat} (h : HasForm false v s) : HasForm false v (touchSlot k s) :=
  setSlot_form (h.upd rfl)

theorem placeKey_form {b : List Byte} {idx k : Nat} {t : State} (h : HasForm false v s) (e : placeKey b idx s = .inr (k, t)) : HasForm false v t := by
  unfold placeKey at e
  split at e
  · cases e; exact touchSlot_form h
  · split at e
    · cases e
    · split at e
      · cases e
      · split at e
        · cases e
        · next hs => cases e; exact touchSlot_form (setSlot_form (slotFor_form h hs))

theorem hwLoad_form {user h need : Nat} (hs : HasForm false v s) : HasForm false v (hwLoad user h need s).2 := by
  unfold hwLoad
  dsimp only
  split
  · exact loadReject_form hs
  · split
    · exact loadReject_form hs
    · split
      · exact loadReject_form hs
      · next e2 => exact placeKey_form hs e2

theorem laneFault_form {l : Nat} (h : HasForm false v s) : HasForm false v (laneFault l s) :=
  iteElse_form (raise_form (setB_any (setF_any (clrF_any h)))) fun h1 => raise_form (setB_any h1)

theorem hwRuns_form {n bad : Nat} (h : HasForm false v s) : HasForm false v (hwRuns n bad s).2 := by
  induction n generalizing bad s with
  | zero => exact h
  | succ n ih => exact iteSnd_form h (iteSnd_form h (ih (laneFault_form (pickOf_form h))))

theorem hwCmac_form {key msg : List Byte} {bad : Nat} (h : HasForm false v s) : HasForm false v (hwCmac key msg bad s).2 :=
  hwRuns_form (incF_any h)

theorem setCan_form {n : Nat} {c : CanTile} (h : HasForm false v s) : HasForm false v (setCan n c s) :=
  h.upd rfl

theorem canEvt_form {n : Nat} {f : Fld} (h : HasForm false v s) : HasForm false v (canEvt n f s) :=
  ite_form h (ite_form (raise_form (setB_any h)) (setB_any h))

theorem canGoto_form {n st : Nat} (h : HasForm false v s) : HasForm false v (canGoto n st s) :=
  ite_form (setF_any h) (canEvt_form (setF_any h))

theorem setTx_form {n i : Nat} {b : TxBuf} (h : HasForm false v s) : HasForm false v (setTx n i b s) :=
  setCan_form h

theorem txEmpty_form {n i : Nat} (h : HasForm false v s) : HasForm false v (txEmpty n i s) := by
  refine setTx_form (clrF_any ?_)
  split
  · exact dropReplica_form h
  · exact h

theorem canFlush_form {n : Nat} (h : HasForm false v s) : HasForm false v (canFlush n s) :=
  applyAll_form (fun _ _ h => applyAll_form (fun _ _ h => incF_any (discard_form h)) (setQueue_form h))
    (applyAll_form (fun _ _ h => incF_any (swBump_form (txEmpty_form h))) h)

theorem freshWrite_form {n j : Nat} {hi : Bool} {x : Nat} (h : HasForm false v s) : HasForm false v (freshWrite n j hi x s) :=
  iteThen_form (setF_any (setCan_form h)) fun _ => setCan_form h

theorem linkOff_form {p : Nat} (h : HasForm act v s) : HasForm act v (linkOff p s) :=
  ite_form (setB_form (Nat.le_add_right_of_le (by decide)) (setB_form (Nat.le_add_right_of_le (by decide)) (flushPort_form h)))
    (setB_form (Nat.le_add_right_of_le (by decide)) (flushPort_form h))

theorem plcaDown_form {p : Nat} (h : HasForm act v s) : HasForm act v (plcaDown p s) :=
  ite_form (raise_form (incF_form (Nat.le_add_right_of_le (by decide)) (setB_form (Nat.le_add_right_of_le (by decide)) (linkOff_form h)))) h

theorem portStop_form {p : Nat} (h : HasForm act v s) : HasForm act v (portStop p s) :=
  ite_form (plcaDown_form h) (linkOff_form h)

theorem setSer_form {n : Nat} {t : SerTile} (h : HasForm false v s) : HasForm false v (setSer n t s) :=
  h.upd rfl

theorem serEvt_form {n : Nat} {f : Fld} (h : HasForm false v s) : HasForm false v (serEvt n f s) :=
  ite_form h (ite_form (raise_form (setB_any h)) (setB_any h))

theorem serErr_form {n : Nat} {f : Fld} {k : Nat} (h : HasForm false v s) : HasForm false v (serErr n f k s) :=
  ite_form h (serEvt_form (incF_any h))

theorem serHandAll_form {n : Nat} (h : HasForm false v s) : HasForm false v (serHandAll n s) :=
  applyAll_form (fun _ _ h => offerFrame_form h) (setSer_form h)

theorem pulsesEnd_form {n : Nat} (h : HasForm false v s) : HasForm false v (pulsesEnd n s) :=
  h.upd rfl

theorem serQuiet_form {n st : Nat} (h : HasForm false v s) : HasForm false v (serQuiet n st s) :=
  pulsesEnd_form (setF_any (setSer_form
    (iteElse_form (iteElse_form (serHandAll_form h) fun h1 => serErr_form h1) fun h1 => emit_form
    h1)))

theorem serBad_form {n : Nat} (h : HasForm false v s) : HasForm false v (serBad n s) :=
  incF_any h

theorem serFlush_form {n : Nat} (h : HasForm false v s) : HasForm false v (serFlush n s) :=
  applyAll_form (fun _ _ h => applyAll_form (fun _ _ h => serBad_form (discard_form h)) (setQueue_form h))
    (applyAll_form (fun _ _ h => serBad_form (swBump_form h)) (setSer_form h))

theorem holdsStart_form {m : Nat} (h : HasForm false v s) : HasForm false v (holdsStart m s) :=
  h.upd rfl

theorem wireChange_form {n : Nat} {st received : Bool} {p : LinkSide} {hop fcnt : Nat} (h : HasForm false v s) :
    HasForm false v (wireChange n st received p hop fcnt s) :=
  ite_form (orF_any h) (ite_form h (ite_form (setB_any (incWrap_any h)) ((incWrap_any h).upd rfl)))

theorem setDebounced_form {n : Nat} {b : Bool} (h : HasForm false v s) : HasForm false v (setDebounced n b s) :=
  ite_form h (wireChange_form (h.upd rfl))

theorem debounceLength_form {deb : Nat} (h : HasForm false v s) : HasForm false v (debounceLength deb s) :=
  applyAll_form (fun _ _ h => ite_form (setDebounced_form h) h) (setF_any h)

theorem applyPolarity_form {pol : Nat} (h : HasForm false v s) : HasForm false v (applyPolarity pol s) :=
  holdsStart_form (setF_any h)

theorem setWearItem_form {item inst : Nat} {w : WearItem} (h : HasForm act v s) : HasForm act v (setWearItem item inst w s) :=
  h.upd rfl

theorem setMotor_form {m : Nat} {c : MotorCh} (h : HasForm act v s) : HasForm act v (setMotor m c s) :=
  h.upd rfl

theorem setMotorState_form {m st : Nat} (h : HasForm act v s) : HasForm act v (setMotorState m st s) :=
  ite_form (orF_form (by decide) (ite_form (orF_form (by decide) (setF_form (Nat.le_add_right_of_le (by decide)) h))
    (clrF_form (by decide) (setF_form (Nat.le_add_right_of_le (by decide)) h))))
    (clrF_form (by decide) (ite_form (orF_form (by decide) (setF_form (Nat.le_add_right_of_le (by decide)) h))
      (clrF_form (by decide) (setF_form (Nat.le_add_right_of_le (by decide)) h))))

theorem coast_form {m : Nat} (h : HasForm act v s) : HasForm act v (coast m s) :=
  setMotorState_form (setB_form (Nat.le_add_right_of_le (by decide)) (setMotor_form h))

theorem refreshAdc_form (h : HasForm act v s) : HasForm act v (refreshAdc s) :=
  setB_form (by decide) (setB_form (by decide) h)

theorem setLampWaits_form {g : Nat} {l : List Nat} (h : HasForm act v s) : HasForm act v (setLampWaits g l s) :=
  setF_form (Nat.le_add_right_of_le (by decide)) (h.upd rfl)

theorem setLampState_form {n st : Nat} (h : HasForm act v s) : HasForm act v (setLampState n st s) :=
  ite_form (orF_form (by decide) (setF_form (Nat.le_add_right_of_le (by decide)) h))
    (clrF_form (by decide) (setF_form (Nat.le_add_right_of_le (by decide)) h))

theorem dropToken_form {n : Nat} (h : HasForm act v s) : HasForm act v (dropToken n s) :=
  (iteElse_form (setLampWaits_form h) fun h1 => setF_form (Nat.le_add_right_of_le (by decide)) h1).upd rfl

theorem lampOff_form {n : Nat} (h : HasForm act v s) : HasForm act v (lampOff n s) :=
  setLampState_form (setF_form (Nat.le_add_right_of_le (by decide)) (setB_form (Nat.le_add_right_of_le (by decide))
    (setF_form (Nat.le_add_right_of_le (by decide)) (dropToken_form h))))

theorem lampsOff_form {l : List Nat} (h : HasForm act v s) : HasForm act v (lampsOff l s) :=
  applyAll_form (fun _ _ h => lampOff_form h) h

theorem coastAll_form {mask : Nat} (h : HasForm act v s) : HasForm act v (coastAll mask s) :=
  applyAll_form (fun _ _ h => coast_form h) h

theorem groupsOff_form {mask : Nat} (h : HasForm act v s) : HasForm act v (groupsOff mask s) :=
  lampsOff_form h

theorem wearEvent_form {f : Fld} {e item inst : Nat} (hf : 0x40030004 ≤ f.addr) (h : HasForm act v s) :
    HasForm act v (wearEvent f e item inst s) :=
  raise_form (setF_form (by decide) (setF_form (by decide) (setB_form hf h)))

theorem judgeItem_form {x : Nat × Nat} (h : HasForm act v s) : HasForm act v (judgeItem x s) := by
  unfold judgeItem
  dsimp only
  split
  · exact setWearItem_form h
  · exact iteElse_form (iteElse_form (setWearItem_form h) fun h1 => wearEvent_form (by decide) h1) fun h1 => wearEvent_form (by decide) h1

theorem predictItem_form {x : Nat × Nat} (h : HasForm act v s) : HasForm act v (predictItem x s) :=
  iteElse_form (setWearItem_form h) fun h1 => wearEvent_form (by decide) h1

theorem ratedChanged_form (h : HasForm act v s) : HasForm act v (ratedChanged s) :=
  applyAll_form
    (fun _ _ h => ite_form (setWearItem_form (predictItem_form (setWearItem_form (judgeItem_form h)))) (predictItem_form (judgeItem_form h)))
    (applyAll_form (fun _ _ h => setWearItem_form h) h)

theorem tileDown_form {n : Nat} (h : HasForm false v s) : HasForm false v (tileDown n s) :=
  ite_form (canGoto_form (setCan_form (canFlush_form (setTileBit_form h))))
    (serQuiet_form (serFlush_form (setTileBit_form h)))

theorem pcieDown_form (h : HasForm false v s) : HasForm false v (pcieDown s) :=
  setB_any (setF_any (setF_any (h.upd rfl)))

theorem fence_form {c : Nat} {units : List Nat} (h : HasForm false v s) : HasForm false v (fence c units s) := by
  unfold fence
  split
  · exact applyAll_form (fun _ _ h => tileDown_form h) h
  · exact applyAll_form (fun _ _ h => portStop_form h) h
  · exact applyAll_form (fun _ _ h => portStop_form h) h
  · exact applyAll_form (fun _ _ h => portStop_form h) h
  · exact lampsOff_form (coastAll_form h)
  · exact refreshAdc_form (coastAll_form h)
  · exact applyAll_form (fun _ _ h => fenceLodger_form h) h
  · exact declare_form (pcieDown_form h)
  · exact h

theorem shed_form (h : HasForm act v s) : HasForm act v (shed s) :=
  HasForm.setF (applyAll_form (fun _ _ h => portStop_form h) ((groupsOff_form (coastAll_form h)).upd rfl)) (by decide)

theorem hieOut_form {p : Nat} {boot : Bool} {f : List Byte} (h : HasForm false v s) : HasForm false v (hieOut p boot f s) :=
  ite_form (ite_form (unitFrame_form h) h) (ite_form (emit_form h) h)

theorem consistSlot_form (h : HasForm false v s) : HasForm false v (consistSlot s).2 :=
  hwLoad_form h

theorem nextCounter_form (h : HasForm false v s) : HasForm false v (nextCounter s).2 :=
  iteSnd_form (h.upd rfl) (setF_any (storeWrite_form (h.upd rfl)))

theorem hieSend_form {type dst : Nat} {boot : Bool} {payload : List Byte} (h : HasForm false v s) :
    HasForm false v (hieSend type dst boot payload s) := by
  refine ite_form (incF_any (applyAll_form (fun _ _ h => hieOut_form h) h)) ?_
  split
  · next e1 => exact (consistSlot_form h).of_eq e1
  · next e1 =>
      extract_lets c msg
      have hc : HasForm false v c.2 := nextCounter_form ((consistSlot_form h).of_eq e1)
      split
      · next e2 => exact (hwCmac_form hc).of_eq e2
      · next e2 => exact incF_any (applyAll_form (fun _ _ h => hieOut_form h) ((hwCmac_form hc).of_eq e2))

theorem requestPieces_form {img first count : Nat} (h : HasForm false v s) : HasForm false v (requestPieces img first count s) :=
  hieSend_form h

theorem tableRegs_form {t : TableRec} (h : HasForm false v s) : HasForm false v (tableRegs t s) :=
  setF_any (setF_any (setB_any (setB_any h)))

theorem tileClear_form {n : Nat} (h : HasForm false v s) : HasForm false v (tileClear n s) :=
  setTileBit_form (setTileBit_form (setTileBit_form (setF_any (setF_any (setF_any (setF_any (setB_any (setF_any (h.upd rfl)))))))))

theorem tileForm_form {t : TileRec} (h : HasForm false v s) : HasForm false v (tileForm t s) := by
  have hset : HasForm false v (setF (FAB_FUNC_fn (t.tile / 8) (t.tile % 8)) t.func <| setF (FAB_TPIN_pins t.tile)
      ((List.range 4).foldl (fun v j => v + (t.pins.getD j 255) * 2 ^ (8 * j)) 0) <| setF (FAB_TCFG_pipe t.tile) t.pipe <|
      setF (FAB_TCFG_tc t.tile) t.tc <| setB (FAB_TCFG_wake t.tile) (t.flags.testBit 0) <| setF (FAB_TCFG_lodger t.tile) t.lodger
        (tileClear t.tile s)) :=
    setF_any (setF_any (setF_any (setF_any (setB_any (setF_any (tileClear_form h))))))
  exact ite_form (setF_any hset) (ite_form (setF_any (setF_any hset)) (setF_any hset))

theorem portForm_form {b : BindRec} (h : HasForm false v s) : HasForm false v (portForm b s) :=
  ite_form (setF_any h) (ite_form (setF_any (setF_any h)) h)

theorem portStart_form {p : Nat} (h : HasForm act v s) : HasForm act v (portStart p s) :=
  ite_form (plcaUp_form h) h

theorem cabForm_form {c : CabRec} (h : HasForm false v s) : HasForm false v (cabForm c s) := by
  cases c with
  | motor => exact setF_any (setF_any (setF_any (setF_any (setF_any (setB_any (setF_any (setF_any (setF_any (setF_any (setF_any (setF_any h)))))))))))
  | group => exact setF_any h
  | lamp => exact setB_any (setF_any (setF_any (setF_any (setF_any (setF_any (setF_any h))))))

theorem presetReg_form {r : RegRec} (h : HasForm false v s) : HasForm false v (presetReg r s) := by
  refine ite_form (setCb_form h) (ite_form (ite_form (bankSwap_form h) h) (ite_form (freshWrite_form h) ?_))
  split
  · exact h
  · exact ite_form (applyStaged_form h) (writeFields_form h)

theorem applyRegset_form {l : List RegRec} (h : HasForm false v s) : HasForm false v (applyRegset l s) :=
  applyAll_form (fun _ _ h => gateCommit_form h) (applyAll_form (fun _ _ h => presetReg_form h) h)

theorem formPools_form (h : HasForm false v s) : HasForm false v (formPools s) :=
  setF_any (setF_any (setF_any (setB_any (setF_any (setF_any h)))))

theorem lodgerNew_form {lid : Nat} (h : HasForm false v s) : HasForm false v (lodgerNew lid s) := by
  unfold lodgerNew
  extract_lets _ t room l
  have ht : HasForm false v t := h.upd rfl
  exact ite_form (setLodger_form ht) (ite_form (setLodger_form ht) (ite_form (setLodger_form ht)
    (ite_form (pinIn_form (setLodger_form ht)) (setLodger_form ht))))

theorem hieStart_form (h : HasForm false v s) : HasForm false v (hieStart s) := by
  unfold hieStart
  extract_lets n _ s1 s2
  have hs1 : HasForm false v s1 := storeWrite_form (setF_any (h.upd rfl))
  have hs2 : HasForm false v s2 := by
    unfold s2
    split
    · next e => exact setSlot_form ((consistSlot_form hs1).of_eq e)
    · next e => exact (consistSlot_form hs1).of_eq e
  refine ite_form h ?_
  split
  · exact setF_any (setF_any (setB_any (setB_any (setF_any (setF_any (storeWrite_form (hs2.upd rfl)))))))
  · exact iteThen_form (setF_any ((drbgBytes_form hs2).upd rfl)) fun _ => (drbgBytes_form hs2).upd rfl

theorem recordCauses_form {l : List (Nat × List Nat)} (h : HasForm false v s) : HasForm false v (recordCauses l s) :=
  applyAll_form (fun _ _ h => fence_form (orF_any (orF_any h))) h

end


/-! # STANDBY (R108 to R110) -/

/-- A request that meets every condition (R108). -/
theorem modeReqWrite_accepted {w : Word} {s : State} (hkey : keyed 0x5D3B w = true) (hreq : wbits w 0 4 = 8) (hnone : s.power.standby = .none)
    (hbase : getF PWR_MODE_base s = mPartial) (hmode : mode s = mPartial) (hasleep : ((usedUnits s).all fun u => unitAsleep u s) = true)
    (hmotors : ((List.range 4).all fun k => motorState k s == 0) = true) (hcauses : causes s = 0) :
    modeReqWrite w s = { lampsOff (List.range 24) (busDone s) with
      power := { (lampsOff (List.range 24) (busDone s)).power with standby := .waitCores, cores := .waiting } } := by
  have hawake : ¬ ((usedUnits (busDone s)).any fun u => !unitAsleep u (busDone s)) = true := by
    rw [List.any_eq_true]
    rintro ⟨u, hu, hnot⟩
    have hu' : unitAsleep u s = true := List.all_eq_true.1 hasleep u hu
    exact absurd ((congrArg not hu').symm.trans hnot) (by decide)
  have hturning : ¬ ((List.range 4).any fun k => motorState k (busDone s) ≠ 0) = true := by
    rw [List.any_eq_true]
    rintro ⟨k, hk, hne⟩
    exact of_decide_eq_true hne (eq_of_beq (List.all_eq_true.1 hmotors k hk))
  have hplace : ¬ (getF PWR_MODE_base (busDone s) ≠ mPartial || !(mode s = mPartial || mode s = mDegraded)) = true := by
    simp [hbase, hmode]
  unfold modeReqWrite
  dsimp only
  rw [if_neg (by simp [hkey, hreq]), if_neg (by simp [hreq]), if_neg (fun h => h hnone), if_neg hplace,
    if_neg hawake, if_neg hturning, if_neg (fun h => h hcauses)]

theorem completes_standbyRequest {rq : Requester} {w : Word} {s : State} (hadm : admits rq true 0x40020004 0 s = true)
    (hkey : keyed 0x5D3B w = true) (hreq : wbits w 0 4 = 8) (hnone : s.power.standby = .none) (hbase : getF PWR_MODE_base s = mPartial)
    (hmode : mode s = mPartial) (hasleep : ((usedUnits s).all fun u => unitAsleep u s) = true)
    (hmotors : ((List.range 4).all fun k => motorState k s == 0) = true) (hcauses : causes s = 0) :
    Completes (.standbyRequest rq w) s fun t =>
      t.power.standby = .waitCores ∧ t.power.cores = .waiting ∧ t.bus = .done ∧ mode t = mode s := by
  have hlamps : sysView false (lampsOff (List.range 24) (busDone s)) = sysView false (busDone s) := lampsOff_sys rfl
  refine completes_of_eq (congrArg Host.Outcome.next ((gate_of_admits hadm _).trans
    (modeReqWrite_accepted hkey hreq hnone hbase hmode hasleep hmotors hcauses))) ⟨rfl, rfl, bus_of_sysView hlamps, ?_⟩
  exact getF_of_sysView hlamps (by decide)

/-- A change of the mode keeps every field it does not write. -/
theorem getF_setMode {f : Fld} {m : Nat} {s : State} (hf : ∀ g ∈ modeFields, f.key ≠ g.key) : getF f (setMode m s) = getF f s :=
  (setMode_frame m s).2 f hf

theorem completes_standbyEntryComplete {s : State} (hwait : s.power.standby = .waitCores) : Completes .standbyEntryComplete s fun t =>
    t.power.standby = .inStandby ∧ t.power.tick = false ∧ mode t = mStandby ∧ isSet CKR_STATUS_rootlock t = false ∧ getF CKR_RUN_clk t = 0 := by
  refine completes_of_eq (congrArg Host.Outcome.next (onlyIf_true (by simp [hwait]) _ s)) ?_
  generalize ledgerSave (deltaEnd 3 s) = s1
  dsimp only
  generalize hs2 : setB CKR_STATUS_rootlock false (setF CKR_RUN_clk 0
    { s1 with power := { s1.power with standby := .inStandby, tick := false } }) = s2
  have hpower2 : s2.power.standby = .inStandby ∧ s2.power.tick = false := by rw [← hs2]; exact ⟨rfl, rfl⟩
  have hlock2 : isSet CKR_STATUS_rootlock s2 = false := by rw [← hs2]; simp [setB_eq]
  have hclk2 : getF CKR_RUN_clk s2 = 0 := by
    rw [← hs2]
    simp (disch := decide) only [setB_eq, getF_setF_ne, getF_setF_self]
    rfl
  have hadc : sysView false (refreshAdc (setMode mStandby s2)) = sysView false (setMode mStandby s2) := refreshAdc_sys rfl
  have hpower : (refreshAdc (setMode mStandby s2)).power = s2.power := (power_of_sysView hadc).trans (setMode_power _ _)
  have hkeep (f : Fld) (hsys : onSys false f = true) (hf : ∀ g ∈ modeFields, f.key ≠ g.key) :
      getF f (refreshAdc (setMode mStandby s2)) = getF f s2 := (getF_of_sysView hadc hsys).trans (getF_setMode hf)
  refine ⟨by rw [hpower]; exact hpower2.1, by rw [hpower]; exact hpower2.2,
    (getF_of_sysView hadc (by decide)).trans (mode_setMode (by decide) s2), ?_, (hkeep _ (by decide) (by decide)).trans hclk2⟩
  rw [isSet, hkeep _ (by decide) (by decide)]
  exact hlock2

theorem exec_standbyCoreWaitTimeout {s : State} (hwait : s.power.standby = .waitCores) : exec .standbyCoreWaitTimeout s =
    .next (setB PWR_STATUS_refused true (setF PWR_STATUS_why 5 { s with power := { s.power with standby := .none, cores := .running } })) :=
  congrArg Host.Outcome.next (onlyIf_true (by simp [hwait]) _ s)

/-- The part has left STANDBY and its clocks run (R110). -/
def Awake (s : State) : Prop :=
  s.power.standby = .none ∧ s.power.tick = true ∧ s.power.cores = .running ∧ isSet CKR_STATUS_rootlock s = true ∧ getF CKR_RUN_clk s = 0xFF

theorem Awake.of_sameCore {s t : State} (h : Awake s) (hcore : SameCore s t) (hpower : t.power.standby = s.power.standby ∧
    t.power.tick = s.power.tick ∧ t.power.cores = s.power.cores) : Awake t := by
  obtain ⟨hsby, htick, hcores, hlock, hclk⟩ := h
  obtain ⟨esby, etick, ecores⟩ := hpower
  exact ⟨esby.trans hsby, etick.trans htick, ecores.trans hcores, (isSet_of_sameCore hcore (by decide)).trans hlock,
    (hcore _ (by decide)).trans hclk⟩

theorem Awake.upd {s t : State} (h : Awake s) (hregs : t.regs = s.regs) (hpower : t.power = s.power) : Awake t :=
  h.of_sameCore (SameCore.of_regs hregs) (by rw [hpower]; exact ⟨rfl, rfl, rfl⟩)

theorem Awake.setF {f : Fld} {n : Nat} {s : State} (h : Awake s) (hf : 0x40020000 * 32 ≤ f.key) : Awake (setF f n s) :=
  h.of_sameCore ((SameCore.refl s).setF hf) ⟨rfl, rfl, rfl⟩

theorem Awake.of_sysView {s t : State} (h : Awake s) (hsys : sysView false t = sysView false s) : Awake t :=
  h.of_sameCore (SameCore.of_sysView hsys) (by rw [power_of_sysView hsys]; exact ⟨rfl, rfl, rfl⟩)

theorem ite_awake {c : Prop} [Decidable c] {s t : State} (h : Awake s) (h' : Awake t) : Awake (if c then s else t) := by
  split <;> assumption

theorem le_key_of_addr {f : Fld} (hf : 0x40030000 ≤ f.addr) : 0x40020000 * 32 ≤ f.key := by
  simp only [Fld.key]
  omega

theorem raiseNow_awake {e : Nat} {s : State} (h : Awake s) : Awake (raiseNow e s) := by
  have hpend : 0x40020000 * 32 ≤ (evPend e).key := by unfold evPend; split <;> decide
  unfold raiseNow
  extract_lets s1 _ s2 _
  have hs1 : Awake s1 := (h.setF hpend).setF (le_key_of_addr (Nat.le_add_right_of_le (by decide)))
  have hs2 : Awake s2 := ite_awake (hs1.upd rfl rfl) hs1
  exact ite_awake (hs2.upd rfl rfl) hs2

theorem raise_awake {e : Nat} {s : State} (h : Awake s) : Awake (raise e s) := h.of_sysView (raise_low rfl)

theorem setUnit_awake {u : Nat} {b : Bool} {lo mid hi : Fld} {s : State} (h : Awake s) (hlo : onSys true lo = false := by decide)
    (hmid : onSys true mid = false := by decide) (hhi : onSys true hi = false := by decide) : Awake (setUnit lo mid hi u b s) :=
  h.of_sysView (setUnit_sys hlo hmid hhi rfl)

theorem setVal_awake {e k : Nat} {s : State} (h : Awake s) : Awake (setVal e k s) :=
  ite_awake (h.setF (le_key_of_addr (Nat.le_add_right_of_le (by decide)))) h

theorem falseWake_awake {u : Nat} {s : State} (h : Awake s) : Awake (falseWake u s) := by
  unfold falseWake
  split
  · exact h
  · next e x hwin =>
    extract_lets _ s1 f s2
    have hf : 0x40030000 ≤ f.addr := by unfold f; split <;> exact Nat.le_add_right_of_le (by decide)
    have hs1 : Awake s1 := setVal_awake (h.upd rfl rfl)
    have hs2 : Awake s2 := hs1.setF (le_key_of_addr hf)
    exact ite_awake (raise_awake hs2) hs2

theorem openWindow_awake {u e : Nat} {s : State} (h : Awake s) : Awake (openWindow u e s) :=
  (falseWake_awake h).upd rfl rfl

theorem logWake_awake {w : WakeSrc} {sby : Bool} {s : State} (h : Awake s) : Awake (logWake w sby s).2 := by
  unfold logWake
  extract_lets i w1 _ s0 s1 s2
  have hword (k : Nat) : 0x40020000 * 32 ≤ (WKS_LOG_word k).key := le_key_of_addr (Nat.le_add_right_of_le (by decide))
  have hs0 : Awake s0 := h.upd rfl rfl
  have hs1 : Awake s1 := (((hs0.setF (hword _)).setF (hword _)).setF (hword _)).setF (hword _)
  have hs2 : Awake s2 := (((hs1.setF (by decide)).setF (by decide)).setF (by decide)).setF (by decide)
  exact ite_awake (hs2.setF (by decide)) (hs2.setF (by decide))

theorem logSource_awake {sby : Bool} {w : WakeSrc} {s : State} (h : Awake s) : Awake (logSource sby w s) := by
  unfold logSource
  dsimp only
  split
  · exact openWindow_awake (logWake_awake h)
  · exact logWake_awake h

theorem startPll_awake {p : Nat} {s : State} (h : Awake s) : Awake (startPll p s) :=
  ite_awake (h.of_sameCore (SameCore.of_regs rfl) ⟨rfl, rfl, rfl⟩) h

theorem unsleep_awake {u : Nat} {s : State} (h : Awake s) : Awake (unsleep u s) :=
  applyAll_of _ _ (fun _ _ h => raise_awake h) _ ((setUnit_awake h).upd rfl rfl)

theorem setCan_awake {n : Nat} {c : CanTile} {s : State} (h : Awake s) : Awake (setCan n c s) := h.upd rfl rfl

theorem setSer_awake {n : Nat} {t : SerTile} {s : State} (h : Awake s) : Awake (setSer n t s) := h.upd rfl rfl

theorem wakeUnit_awake {own : Bool} {u : Nat} {s : State} (h : Awake s) : Awake (wakeUnit own u s) := by
  have hgoto {t : State} (ht : Awake t) (st : Nat) : Awake (canGoto u st t) := ht.of_sysView (canGoto_sys rfl)
  have hstat {t : State} (ht : Awake t) (st : Nat) : Awake (setF (SER_STAT_state u) st t) :=
    ht.setF (le_key_of_addr (Nat.le_add_right_of_le (by decide)))
  unfold wakeUnit
  extract_lets s1 p c s2 _ _ s3
  have hs1 : Awake s1 := setUnit_awake h
  have hs3 : Awake s3 := hstat hs1 1
  exact ite_awake (unsleep_awake h) <| ite_awake h <|
    ite_awake (ite_awake ((startPll_awake hs1).upd rfl rfl) (startPll_awake hs1)) <|
    ite_awake (ite_awake (hgoto (setCan_awake hs1) 7) (hgoto hs1 1)) <|
    ite_awake (hstat (setSer_awake hs1) 3) (ite_awake (hs3.upd rfl rfl) hs3)

theorem standbyTrigger_awake {why : Nat} {s : State} (h : Awake s) : Awake (standbyTrigger why s) := by
  rwa [show standbyTrigger why s = s by rw [standbyTrigger, h.1]]

theorem setMode_awake {m : Nat} {s : State} (h : Awake s) : Awake (setMode m s) :=
  h.of_sameCore (SameCore.of_regsBut (setMode_frame m s).2 (by decide)) (by rw [setMode_power]; exact ⟨rfl, rfl, rfl⟩)

theorem refreshBase_awake {s : State} (h : Awake s) : Awake (refreshBase s) :=
  ite_awake (ite_awake (setMode_awake (h.setF (by decide))) (h.setF (by decide))) h

theorem wakeAll_awake {ws : List WakeSrc} {sby : Bool} {s : State} (h : Awake s) : Awake (wakeAll ws sby s) := by
  unfold wakeAll
  extract_lets live own others s1 s2
  have hs1 : Awake s1 := applyAll_of _ _ (fun _ _ h => logSource_awake h) _ (standbyTrigger_awake h)
  have hs2 : Awake s2 := applyAll_of _ _ (fun _ _ h => wakeUnit_awake h) _ (applyAll_of _ _ (fun _ _ h => wakeUnit_awake h) _ hs1)
  exact ite_awake h (raise_awake (refreshBase_awake (hs2.upd rfl rfl)))

theorem releaseHeld_awake {s : State} (h : Awake s) : Awake (releaseHeld s) :=
  applyAll_of _ _ (fun _ _ h => raiseNow_awake h) _ (h.upd rfl rfl)

theorem completes_standbyExit {s : State} (refCycles : Nat) (hexit : s.power.standby = .exiting) : Completes (.standbyExit refCycles) s fun t =>
    t.power.standby = .none ∧ t.power.tick = true ∧ t.power.cores = .running ∧ isSet CKR_STATUS_rootlock t = true ∧ getF CKR_RUN_clk t = 0xFF := by
  refine completes_of_eq (congrArg Host.Outcome.next (onlyIf_true (by simp [hexit]) _ s)) ?_
  extract_lets _ s1 s2 s3 _ s4
  have hs1 : Awake s1 := by
    refine ⟨rfl, rfl, rfl, isSet_setF_self _ _ _, ?_⟩
    simp (disch := decide) only [s1, setB_eq, getF_setF_ne, getF_setF_self]
    rfl
  have hs2 : Awake s2 := wakeAll_awake (hs1.upd rfl rfl)
  have hs3 : Awake s3 := (hs2.setF (by decide)).setF (by decide)
  have hs4 : Awake s4 := releaseHeld_awake (hs3.upd rfl rfl)
  exact (refreshBase_awake hs4).of_sysView (refreshAdc_sys rfl)


/-! # Boot, loading and BUILDING (R90 to R92, R151 to R156) -/

theorem setMode_fuse (m : Nat) (s : State) : (setMode m s).fuse = s.fuse := by rw [(setMode_frame m s).1]

/-- What QUARANTINE shows (R102, R154). -/
theorem quarantine_outcome (f : ImgFail) (s : State) : mode (quarantine f s) = mQuarantine ∧ (quarantine f s).power.cores = .reporting ∧
    getF IMG_STATUS_phase (quarantine f s) = 7 ∧ (quarantine f s).fuse = s.fuse := by
  refine ⟨mode_setMode (by decide) _, by rw [quarantine, setMode_power]; rfl, ?_, by rw [quarantine, setMode_fuse]; rfl⟩
  rw [quarantine, getF_setMode (by decide)]
  refine (getF_setF_ne _ _ (by decide)).trans ((getF_setF_ne _ _ (by decide)).trans ?_)
  exact getF_setF_self IMG_STATUS_phase 7 (setF IMG_PREV_code f.code (showFail f s))

/-- A read of flash leaves the registers (R151). -/
@[simp] theorem getF_flashRead (f : Fld) (off n dummy : Nat) (cmd : List Byte) (s : State) : getF f (flashRead off n dummy cmd s) = getF f s := rfl

theorem headerPhase_slot (s : State) : getF IMG_STATUS_slot (headerPhase s) = getF IMG_STATUS_slot s := by
  rw [headerPhase]
  simp (disch := decide) only [getF_flashRead, setB_eq, getF_setF_ne]

theorem headerPhase_mode (s : State) : mode (headerPhase s) = mode s := by
  rw [headerPhase]
  simp (disch := decide) only [mode, getF_flashRead, setB_eq, getF_setF_ne]

/-- A full image that fails leads to QUARANTINE or to slot 1 (R154). -/
theorem loadFail_outcome (f : ImgFail) (s : State) : mode (loadFail f s) = mQuarantine ∨ getF IMG_STATUS_slot (loadFail f s) = 1 := by
  unfold loadFail
  split
  · refine .inr ((headerPhase_slot _).trans ?_)
    exact getF_setF_self _ _ _
  · exact .inl (quarantine_outcome f s).1

/-- LOADING goes on with the header of flash, or with a request for the first piece (R151, R165). -/
theorem requestPieces_frame (s : State) : mode (requestPieces 0 0 1 s) = mode s ∧ (requestPieces 0 0 1 s).fuse = s.fuse := by
  have hform : HasForm false (formView false s) (requestPieces 0 0 1 s) := requestPieces_form rfl
  have hpwr : HasPwr (powerRegs s) (requestPieces 0 0 1 s) := requestPieces_pwr rfl
  exact ⟨powerRegs_eq_iff.1 hpwr _ (by decide), congrArg (·.2.2.1) hform⟩

theorem completes_loadingEntry {s : State} (hbare : mode s = mBare) (hpor : s.power.por = false) (hhold : s.power.hold = false)
    (hlock : isSet CKR_STATUS_rootlock s = true) (hrails : bootRails s = true) (hstraps : strapsOk s = true) (htries : getF PWR_BOOTTRY_n s ≤ 3) :
    Completes .loadingEntry s fun t =>
      (lifecycle t ≠ 0 → lifecycle t ≠ 5 → mode t = mLoading) ∧ (lifecycle t = 0 ∨ lifecycle t = 5 → mode t = mQuarantine) := by
  refine completes_of_eq (congrArg Host.Outcome.next (onlyIf_true (by simp [hbare, hpor, hhold, hlock, hrails, hstraps, htries]) _ s)) ?_
  dsimp only
  generalize drbgStart (genRoot (ddrDecide s)) = s1
  have hmode2 : mode (bringUp (setMode mLoading s1)) = mLoading := by
    rw [bringUp]
    split <;> exact mode_setMode (by decide) s1
  generalize bringUp (setMode mLoading s1) = s2 at hmode2
  have hstays {t : State} (hfuse : t.fuse = s2.fuse) (hmode : mode t = mLoading) (hlc : ¬ (lifecycle s2 = 0 || lifecycle s2 = 5) = true) :
      (lifecycle t ≠ 0 → lifecycle t ≠ 5 → mode t = mLoading) ∧ (lifecycle t = 0 ∨ lifecycle t = 5 → mode t = mQuarantine) := by
    have heq : lifecycle t = lifecycle s2 := by rw [lifecycle, hfuse]; rfl
    exact ⟨fun _ _ => hmode, fun h => absurd (by simpa [heq] using h) hlc⟩
  split
  · next hlc =>
    obtain ⟨hmode, -, -, hfuse⟩ := quarantine_outcome ⟨fLIFECYCLE, 0, 0, 0⟩ s2
    have heq : lifecycle (quarantine ⟨fLIFECYCLE, 0, 0, 0⟩ s2) = lifecycle s2 := by rw [lifecycle, hfuse]; rfl
    have hcode : lifecycle s2 = 0 ∨ lifecycle s2 = 5 := by simpa using hlc
    rw [heq]
    exact ⟨fun h0 h5 => (hcode.elim h0 h5).elim, fun _ => hmode⟩
  · next hlc =>
    split
    · obtain ⟨hmode, hfuse⟩ := requestPieces_frame (setF IMG_STATUS_phase 8 s2)
      exact hstays hfuse ((hmode.trans (getF_setF_ne _ _ (by decide))).trans hmode2) hlc
    · exact hstays rfl ((headerPhase_mode s2).trans hmode2) hlc

theorem completes_bootQuarantine {s : State} (hbare : mode s = mBare) (hpor : s.power.por = false) (hhold : s.power.hold = false)
    (hlock : isSet CKR_STATUS_rootlock s = true) (hrails : bootRails s = true) (hbad : getF PWR_BOOTTRY_n s = 4 ∨ strapsOk s = false) :
    Completes .bootQuarantine s fun t => mode t = mQuarantine ∧ t.power.cores = .reporting ∧ getF IMG_STATUS_phase t = 7 := by
  refine completes_of_eq (congrArg Host.Outcome.next (onlyIf_true (by simp [hbare, hpor, hhold, hlock, hrails, hbad]) _ s)) ?_
  obtain ⟨hmode, hcores, hphase, -⟩ := quarantine_outcome
    ⟨if getF PWR_BOOTTRY_n s = 4 then fBOOTTRY else fSTRAP, 0, 0, 0⟩ (bringUp (ddrDecide s))
  exact ⟨hmode, hcores, hphase⟩

theorem completes_imageHeaderCheck {hdr : List Byte} {s : State} (hload : loading s = true) (hphase : getF IMG_STATUS_phase s = 1)
    (hio1 : isSet SYS_RAILOK_io1 s = true) (hlen : hdr.length = 128) : Completes (.imageHeaderCheck hdr) s fun t =>
      (checkHeader hdr false s = none → getF IMG_STATUS_phase t = 2 ∧ t.loader.header = hdr ∧ mode t = mode s) ∧
      (checkHeader hdr false s ≠ none → mode t = mQuarantine ∨ getF IMG_STATUS_slot t = 1) := by
  refine completes_of_eq (congrArg Host.Outcome.next (onlyIf_true (by simp [hload, hphase, hio1, hlen]) _ s)) ?_
  cases hcheck : checkHeader hdr false s with
  | some f => exact ⟨nofun, fun _ => loadFail_outcome f s⟩
  | none =>
    refine ⟨fun _ => ⟨?_, rfl, ?_⟩, fun h => absurd rfl h⟩
    · dsimp only
      rw [getF_flashRead, getF_setF_self]
      rfl
    · dsimp only [mode]
      simp (disch := decide) only [getF_flashRead, setB_eq, getF_setF_ne]
      rfl

theorem completes_imageVerify {img : List Byte} {s : State} (hload : loading s = true) (hopen : s.loader.accepted = false)
    (hread : imageRead img s = true) : Completes (.imageVerify img) s fun t =>
      (checkImage img s = none → mode t = mBuilding ∧ t.loader.accepted = true ∧ t.loader.next = structureOf img {} ∧ getF IMG_STATUS_phase t = 5) ∧
      (checkImage img s ≠ none → mode t = mQuarantine ∨ getF IMG_STATUS_slot t = 1) := by
  refine completes_of_eq (congrArg Host.Outcome.next (onlyIf_true (by simp [hload, hopen, hread]) _ s)) ?_
  cases hcheck : checkImage img s with
  | some f => exact ⟨nofun, fun _ => loadFail_outcome f s⟩
  | none =>
    dsimp only
    generalize hs1 : (if mode s = mLoading then
      wearBump 0x0502 0 1 (setF SYS_T_LOAD_us (getF SYS_T_PLL_us s + s.ticks) (setMode mBuilding s)) else s) = s1
    have hmode1 : mode s1 = mBuilding := by
      rw [← hs1]
      split
      · exact (getF_setF_ne _ _ (by decide)).trans (mode_setMode (by decide) s)
      · next hne => simpa [loading, hne] using hload
    refine ⟨fun _ => ⟨?_, rfl, rfl, ?_⟩, fun h => absurd rfl h⟩
    · refine (getF_setF_ne _ _ (by decide)).trans ((getF_setF_ne _ _ (by decide)).trans ?_)
      exact hmode1
    · exact (getF_setF_ne _ _ (by decide)).trans (getF_setF_self _ _ _)

theorem completes_build {ddrOk : Bool} {s : State} (hmode : mode s = mBuilding) (hacc : s.loader.accepted = true) (hnew : s.loader.built = false) :
    Completes (.build ddrOk) s fun t =>
      (s.power.ddrFitted = false → checkBuild ddrOk s.loader.next s = none → t.loader.built = true ∧ t.regs = s.regs) ∧
      (s.power.ddrFitted = false → checkBuild ddrOk s.loader.next s ≠ none → mode t = mQuarantine ∨ getF IMG_STATUS_slot t = 1) ∧
      (s.power.ddrFitted = true → ddrOk = false → mode t = mQuarantine ∨ getF IMG_STATUS_slot t = 1) := by
  refine completes_of_eq (congrArg Host.Outcome.next (onlyIf_true (by simp [hmode, hacc, hnew]) _ s)) ?_
  dsimp only
  generalize hs0 : (if (s.power.ddrFitted && ddrOk) = true then setB CKR_STATUS_ddrlock true s else s) = s0
  have hbare : s.power.ddrFitted = false → s0 = s := fun h => by rw [← hs0, h]; rfl
  have hfail : s.power.ddrFitted = true → ddrOk = false → checkBuild ddrOk s.loader.next s0 ≠ none := by
    rintro hfit rfl
    rw [← hs0, hfit]
    simp [checkBuild, firstFail, failIf, hfit]
  cases hcheck : checkBuild ddrOk s.loader.next s0 with
  | some f =>
    refine ⟨fun hfit hpass => ?_, fun _ _ => loadFail_outcome f s0, fun _ _ => loadFail_outcome f s0⟩
    rw [hbare hfit, hpass] at hcheck
    cases hcheck
  | none =>
    refine ⟨fun hfit _ => ⟨rfl, by rw [hbare hfit]⟩, fun hfit hne => ?_, fun hfit hddr => absurd hcheck (hfail hfit hddr)⟩
    rw [hbare hfit] at hcheck
    exact absurd hcheck hne


/-! # Tile starts and the ramp (R93, R94) -/

/-- SYS_STARTUP shows the tiles started and nothing else changes (R94). -/
theorem startup_frame (s : State) : RegsBut [SYS_STARTUP_done, SYS_STARTUP_tiles] s (startup s) :=
  ((RegsBut.refl _ s).setF (by decide) _).setF (by decide) _

theorem completes_allowanceRampTick {s : State} (hserv : serving s = true) (hramp : getF SYS_STARTUP_ramp s < 50) :
    Completes .allowanceRampTick s fun t => getF SYS_STARTUP_ramp t = getF SYS_STARTUP_ramp s + 1 ∧ t.mem = s.mem := by
  refine completes_of_eq (congrArg Host.Outcome.next (onlyIf_true (by simp [hserv, hramp]) _ s)) ⟨?_, rfl⟩
  rw [startup_frame _ SYS_STARTUP_ramp (by decide), incF, getF_setF_self]
  have hwidth : SYS_STARTUP_ramp.width = 6 := rfl
  rw [hwidth]
  omega

/-- A raise writes in the block of the event controller (R496). -/
theorem key_of_mem_eventFields {e : Nat} (he : e < 64) {g : Fld} (hg : g ∈ eventFields e) : g.key < 0x40031000 * 32 := by
  simp only [eventFields, List.mem_cons, List.not_mem_nil, or_false] at hg
  obtain rfl | rfl := hg
  · unfold evPend; split <;> decide
  · simp only [Fld.key, EVC_CNT_cnt]
    omega

/-- The registers of the blocks between the event controller and the tiles read the same in two states. -/
def SameBlocks (s t : State) : Prop := ∀ f : Fld, 0x40031000 * 32 ≤ f.key → f.key < 0x40200000 * 32 → getF f t = getF f s

theorem SameBlocks.refl (s : State) : SameBlocks s s := fun _ _ _ => rfl

theorem SameBlocks.trans {s t u : State} (h : SameBlocks s t) (h' : SameBlocks t u) : SameBlocks s u :=
  fun f hlo hhi => (h' f hlo hhi).trans (h f hlo hhi)

theorem SameBlocks.of_regs {s t : State} (h : t.regs = s.regs) : SameBlocks s t := fun f _ _ => by simp only [getF, h]

theorem SameBlocks.upd {s t u : State} (h : SameBlocks s t) (e : u.regs = t.regs) : SameBlocks s u := h.trans (.of_regs e)

/-- A field of a tile's window. -/
theorem SameBlocks.setF {f : Fld} {v : Nat} {s t : State} (h : SameBlocks s t) (hf : 0x40200000 ≤ f.addr) : SameBlocks s (setF f v t) :=
  fun g hlo hhi => (getF_setF_ne v t fun e => by simp only [Fld.key] at e hlo hhi; omega).trans (h g hlo hhi)

theorem raise_blocks {e : Nat} (he : e < 64) {s t : State} (h : SameBlocks s t) : SameBlocks s (raise e t) :=
  fun f hlo hhi => ((raise_frame e t).2 f fun g hg => by have := key_of_mem_eventFields he hg; omega).trans (h f hlo hhi)

theorem ite_blocks {c : Prop} [Decidable c] {s t u : State} (h : SameBlocks s t) (h' : SameBlocks s u) : SameBlocks s (if c then t else u) := by
  split <;> assumption

/-! ## A CAN tile's state (R283, R299) -/

/-- Where a CAN_EVT bit's rise writes: the bit, and event 20 to 23 of the tile's group (R302). -/
theorem canEvt_frame (n : Nat) (f : Fld) (s : State) : RegsBut (f :: eventFields (20 + n / 12)) s (canEvt n f s) := by
  have hset : RegsBut (f :: eventFields (20 + n / 12)) s (setB f true s) := (RegsBut.refl _ s).setF List.mem_cons_self _
  unfold canEvt
  dsimp only
  split
  · exact RegsBut.refl _ s
  · split
    · exact hset.trans ((raise_frame _ _).2.mono fun g hg => List.mem_cons_of_mem _ hg)
    · exact hset

theorem isSet_canEvt {n : Nat} {f : Fld} {s : State} (hn : n < 48) (hf : 0x40200000 ≤ f.addr) (hw : f.width = 1) :
    isSet f (canEvt n f s) = true := by
  have hset : isSet f (setB f true s) = true := by simp [hw]
  have hkeep : isSet f (raise (20 + n / 12) (setB f true s)) = isSet f (setB f true s) := by
    rw [isSet, (raise_frame _ _).2 f fun g hg => by
      have := key_of_mem_eventFields (by omega) hg
      simp only [Fld.key] at this ⊢
      omega, isSet]
  unfold canEvt
  dsimp only
  split
  · assumption
  · split
    · exact hkeep.trans hset
    · exact hset

theorem canState_canGoto {n st : Nat} {s : State} (hn : n < 48) (hst : st < 16) : canState n (canGoto n st s) = st := by
  have hset : canState n (setF (CAN_STAT_state n) st s) = st := (getF_setF_self _ _ _).trans (Nat.mod_eq_of_lt hst)
  unfold canGoto
  dsimp only
  split
  · exact hset
  · refine ((canEvt_frame n (CAN_EVT_passive n) _) _ fun g hg => ?_).trans hset
    obtain rfl | hg := List.mem_cons.1 hg
    · simp only [Fld.key, CAN_STAT_state, CAN_EVT_passive]
      omega
    · have := key_of_mem_eventFields (by omega) hg
      simp only [Fld.key, CAN_STAT_state] at this ⊢
      omega

/-- An entry to error passive sets its bit (R299). -/
theorem isSet_passive_canGoto {n : Nat} {s : State} (hn : n < 48) (hact : canState n s ≠ 4) : isSet (CAN_EVT_passive n) (canGoto n 4 s) = true := by
  unfold canGoto
  dsimp only
  rw [if_neg (by simp [hact])]
  exact isSet_canEvt hn (Nat.le_add_right_of_le (by decide)) rfl

theorem canEvt_blocks {n : Nat} {f : Fld} {s t : State} (hn : n < 48) (hf : 0x40200000 ≤ f.addr) (h : SameBlocks s t) :
    SameBlocks s (canEvt n f t) :=
  ite_blocks h (ite_blocks (raise_blocks (by omega) (h.setF hf)) (h.setF hf))

theorem canGoto_blocks {n st : Nat} {s t : State} (hn : n < 48) (h : SameBlocks s t) : SameBlocks s (canGoto n st t) :=
  ite_blocks (h.setF (Nat.le_add_right_of_le (by decide)))
    (canEvt_blocks hn (Nat.le_add_right_of_le (by decide)) (h.setF (Nat.le_add_right_of_le (by decide))))

theorem completes_canIntegrationDone {n : Nat} {s : State} (hn : n < 48) (hcan : isCan n s = true) (hstate : canState n s = 2) :
    Completes (.canIntegrationDone n) s fun t =>
      canState n t = (if getF (CAN_ERR_tec n) s ≥ 128 ∨ getF (CAN_ERR_rec n) s ≥ 128 then 4 else 3) ∧
      (canState n t = 4 → isSet (CAN_EVT_passive n) t = true) := by
  refine completes_of_eq (congrArg Host.Outcome.next (onlyIf_true (by simp [hn, hcan, hstate]) _ s)) ?_
  have heq : (if getF (CAN_ERR_tec n) s ≥ 128 || getF (CAN_ERR_rec n) s ≥ 128 then 4 else 3) =
      if getF (CAN_ERR_tec n) s ≥ 128 ∨ getF (CAN_ERR_rec n) s ≥ 128 then 4 else 3 := by simp only [Bool.or_eq_true, decide_eq_true_eq]
  rw [heq]
  split
  · exact ⟨canState_canGoto hn (by decide), fun _ => isSet_passive_canGoto hn (by omega)⟩
  · have hact : canState n (canGoto n 3 s) = 3 := canState_canGoto hn (by decide)
    exact ⟨hact, fun h => by omega⟩

/-! ## A serial tile runs (R324, R346) -/

theorem serEvt_blocks {n : Nat} {f : Fld} {s t : State} (hf : 0x40200000 ≤ f.addr) (h : SameBlocks s t) : SameBlocks s (serEvt n f t) :=
  ite_blocks h (ite_blocks (raise_blocks (by decide) (h.setF hf)) (h.setF hf))

theorem linHeader_blocks {n id : Nat} {s t : State} (h : SameBlocks s t) : SameBlocks s (linHeader n id t) :=
  ite_blocks (SameBlocks.setF (h.upd rfl) (Nat.le_add_right_of_le (Nat.le_add_right_of_le (by decide)))) (h.upd rfl)

theorem linSendHeader_blocks {n id : Nat} {s t : State} (h : SameBlocks s t) : SameBlocks s (linSendHeader n id t) :=
  linHeader_blocks (h.upd rfl)

theorem linSwitch_blocks {n k : Nat} {s t : State} (h : SameBlocks s t) : SameBlocks s (linSwitch n k t) :=
  serEvt_blocks (Nat.le_add_right_of_le (by decide)) (SameBlocks.setF (SameBlocks.setF (h.upd rfl) (Nat.le_add_right_of_le (by decide)))
    (Nat.le_add_right_of_le (by decide)))

theorem linAdvance_blocks {n : Nat} {s u : State} (h : SameBlocks s u) : SameBlocks s (linAdvance n u) := by
  unfold linAdvance
  extract_lets t c cur put onward
  have hput (x : LinSched) : SameBlocks s (put x) := h.upd rfl
  have honward (x : LinSched) : SameBlocks s (onward x) := by
    refine ite_blocks (hput _) ?_
    split
    · exact serEvt_blocks (Nat.le_add_right_of_le (by decide)) ((hput _).setF (Nat.le_add_right_of_le (by decide)))
    · exact hput _
  refine ite_blocks (((hput _).setF (Nat.le_add_right_of_le (by decide))).setF (Nat.le_add_right_of_le (by decide)))
    (ite_blocks (linSwitch_blocks h) ?_)
  split
  · exact ite_blocks (honward _) (hput _)
  · split
    · exact ite_blocks (hput _) (honward _)
    · exact honward _

theorem linSlot_blocks {n : Nat} {s t : State} (h : SameBlocks s t) : SameBlocks s (linSlot n t) := by
  have hadv : SameBlocks s (linAdvance n t) := linAdvance_blocks h
  unfold linSlot
  dsimp only
  split
  · exact hadv
  · split
    · exact ite_blocks (linSendHeader_blocks hadv) hadv
    · exact ite_blocks (linSendHeader_blocks hadv) hadv
    · exact linSendHeader_blocks hadv
    · exact linSendHeader_blocks hadv

theorem serStart_blocks {n : Nat} {s t : State} (h : SameBlocks s t) : SameBlocks s (serStart n t) := by
  unfold serStart
  extract_lets _ s1
  have hs1 : SameBlocks s s1 := SameBlocks.setF (h.upd rfl) (Nat.le_add_right_of_le (by decide))
  exact ite_blocks (linSlot_blocks hs1) hs1

theorem linWakeStart_blocks {n : Nat} {s t : State} (h : SameBlocks s t) : SameBlocks s (linWakeStart n t) := by
  unfold linWakeStart
  extract_lets _ s1
  have hs1 : SameBlocks s s1 := h.upd rfl
  exact ite_blocks ((ite_blocks hs1 (serStart_blocks hs1)).upd rfl) (serStart_blocks h)

/-! ## The start of a tile (R93) -/

theorem tileBit_setTileBit {lo hi : Fld} {n : Nat} {s : State} (hn : n < 48) (hlo : lo.width = 32) (hhi : hi.width = 16) :
    tileBit lo hi n (setTileBit lo hi n true s) = true := by
  unfold tileBit setTileBit
  dsimp only
  split
  · next h => exact testBit_orF_self (by omega) s
  · next h => exact testBit_orF_self (by omega) s

theorem setTileBit_can (lo hi : Fld) (n : Nat) (b : Bool) (s : State) : (setTileBit lo hi n b s).can = s.can := by
  unfold setTileBit
  dsimp only
  split <;> rfl

theorem tileBit_congr {lo hi : Fld} {n : Nat} {s t : State} (hlo : getF lo t = getF lo s) (hhi : getF hi t = getF hi s) :
    tileBit lo hi n t = tileBit lo hi n s := by
  rw [tileBit, hlo, hhi, tileBit]

/-- SYS_STARTUP stands below the blocks of the tiles. -/
theorem startup_blocks {s t : State} (h : SameBlocks s t) : SameBlocks s (startup t) := by
  refine fun f hlo hhi => (startup_frame t f fun g hg => ?_).trans (h f hlo hhi)
  have hkey : ∀ g ∈ [SYS_STARTUP_done, SYS_STARTUP_tiles], g.key < 0x40031000 * 32 := by decide
  have := hkey g hg
  omega

theorem canState_startup (n : Nat) (s : State) : canState n (startup s) = canState n s := by
  refine startup_frame s (CAN_STAT_state n) fun g hg => ?_
  have hkey : ∀ g ∈ [SYS_STARTUP_done, SYS_STARTUP_tiles], g.key < 0x40031000 * 32 := by decide
  have := hkey g hg
  simp only [Fld.key, CAN_STAT_state] at this ⊢
  omega

/-- What a tile's start leaves set, whatever the branch it takes. -/
theorem tileBit_startup {n : Nat} {s t : State} (hrun : tileBit FAB_RUN0_run FAB_RUN1_run n s = true) (h : SameBlocks s t) :
    tileBit FAB_RUN0_run FAB_RUN1_run n (startup t) = true :=
  (tileBit_congr (startup_blocks h _ (by decide) (by decide)) (startup_blocks h _ (by decide) (by decide))).trans hrun

theorem completes_tileStart {n : Nat} {s : State} (hdue : tileDue n s = true) : Completes (.tileStart n) s fun t =>
    tileBit FAB_RUN0_run FAB_RUN1_run n t = true ∧ (isCan n s = true → (canOf n s).sleptOff = false → canState n t = 2) := by
  have hn : n < 48 := by
    have hready : tileReady n s = true := (Bool.and_eq_true_iff.1 hdue).1
    by_contra hge
    simp [tileReady, hge] at hready
  refine completes_of_eq (congrArg Host.Outcome.next (onlyIf_true hdue _ s)) ?_
  dsimp only
  have hrun : tileBit FAB_RUN0_run FAB_RUN1_run n (setTileBit FAB_RUN0_run FAB_RUN1_run n true
      { s with power := { s.power with started := s.power.started ||| 2 ^ n } }) = true := tileBit_setTileBit hn rfl rfl
  have hcan : (setTileBit FAB_RUN0_run FAB_RUN1_run n true
      { s with power := { s.power with started := s.power.started ||| 2 ^ n } }).can = s.can := setTileBit_can _ _ _ _ _
  generalize setTileBit FAB_RUN0_run FAB_RUN1_run n true { s with power := { s.power with started := s.power.started ||| 2 ^ n } } = s1 at hrun hcan
  have hrefl : SameBlocks s1 s1 := SameBlocks.refl s1
  split
  · next hcanTile =>
    split
    · next hoff =>
      refine ⟨tileBit_startup hrun (canGoto_blocks hn (hrefl.upd rfl)), fun _ hon => ?_⟩
      rw [canOf, hcan] at hoff
      exact absurd (hoff.symm.trans hon) (by decide)
    · exact ⟨tileBit_startup hrun (canGoto_blocks hn hrefl), fun _ _ => (canState_startup _ _).trans (canState_canGoto hn (by decide))⟩
  · next hcanTile =>
    exact ⟨tileBit_startup hrun (ite_blocks (linWakeStart_blocks hrefl) (serStart_blocks hrefl)), fun h => absurd h hcanTile⟩


/-! # The cut-over (R156, R163) -/

section

variable {act : Bool} {v : FormView} {s : State}

theorem policyForm_form {p : PolicyRec} (h : HasForm false v s) : HasForm false v (policyForm p s) := by
  have hwires : HasForm false v (debounceLength p.wdeb (applyPolarity (p.wpol % 16) s)) := debounceLength_form (applyPolarity_form h)
  have hlink : HasForm false v (setF LNK_WIREMSG_en (bitsOf p.wiremsg 0 1) <| setF LNK_WIREMSG_cpu (bitsOf p.wiremsg 1 1) <|
      setF LNK_WIREMSG_hie (bitsOf p.wiremsg 2 1) <| setF LNK_WIREMSG_tc (bitsOf p.wiremsg 4 3) <| setF LNK_WIREMSG_ring (bitsOf p.wiremsg 8 5) <|
      setF LNK_MSGCTL_en (bitsOf p.msgctl 0 1) <| setF LNK_MSGCTL_tc (bitsOf p.msgctl 1 3) <| setF LNK_MSGCTL_ring (bitsOf p.msgctl 8 5) <|
      debounceLength p.wdeb (applyPolarity (p.wpol % 16) s)) :=
    setF_any (setF_any (setF_any (setF_any (setF_any (setF_any (setF_any (setF_any hwires)))))))
  have hshed := setF_any (f := PWR_SHED_mot) (n := bitsOf p.shed 0 4) (setF_any (f := PWR_SHED_lmp) (n := bitsOf p.shed 4 4)
    (setF_any (f := PWR_SHED_acc) (n := bitsOf p.shed 8 1) (setF_any (f := PWR_SHED_t1s) (n := bitsOf p.shed 9 1)
    (setF_any (f := PWR_SHED_restore) (n := p.restore) hlink))))
  exact setB_any (setB_any (setB_any (setF_any (setF_any (setF_any (setF_any (setF_any (setF_any hshed))))))))

theorem trnIndex_form (h : HasForm false v s) : HasForm false v (trnIndex s) := setF_any (setF_any h)

theorem countL2_form (h : HasForm false v s) : HasForm false v (countL2 s) := setF_any h

theorem showDigest_form {d : List Byte} (h : HasForm false v s) : HasForm false v (showDigest d s) :=
  applyAll_form (fun _ _ h => setF_any h) h

/-- The structure formed is the one in force (R163). -/
theorem formAll_form (x : Structure) (h : HasForm false v s) : HasForm false (x, v.2) (formAll x s) := by
  have hx : HasForm false (x, v.2) { s with str := x } := congrArg (fun w : FormView => (x, w.2)) h
  unfold formAll
  extract_lets s1 s2 s3
  have hs1 : HasForm false (x, v.2) s1 := applyAll_form (fun _ _ h => tileForm_form h) hx
  have hs2 : HasForm false (x, v.2) s2 := applyAll_form (fun _ _ h => cabForm_form h) (applyAll_form (fun _ _ h => portForm_form h) hs1)
  have hs3 : HasForm false (x, v.2) s3 := trnIndex_form (countL2_form (applyAll_form (fun _ _ h => tableRegs_form h) hs2))
  exact applyRegset_form (policyForm_form hs3)

/-- The controller becomes active, and what it raises leaves it so (R485). -/
theorem evcActivate_form (h : HasForm false v s) : HasForm true (v.1, v.2.1, v.2.2.1, 1) (evcActivate s) := by
  refine applyAll_form (fun _ _ h => raiseNow_form h) ?_
  have hact : getF EVC_CTL_act (setB EVC_CTL_act true { s with power := { s.power with firstAct := false } }) = 1 := getF_setF_self _ _ _
  unfold HasForm at h ⊢
  rw [formView, if_pos rfl, hact, ← h]
  rfl

end

/-! ## The boot registers (R99, R102) -/

/-- The boot is over: no failed try stands, and the base mode is SERVICE. -/
def BootDone (s : State) : Prop := getF PWR_BOOTTRY_n s = 0 ∧ getF PWR_MODE_base s = mService

theorem BootDone.keep {s t : State} (h : BootDone s) (htry : getF PWR_BOOTTRY_n t = getF PWR_BOOTTRY_n s)
    (hbase : getF PWR_MODE_base t = getF PWR_MODE_base s) : BootDone t := ⟨htry.trans h.1, hbase.trans h.2⟩

theorem BootDone.of_sysView {s t : State} (h : BootDone s) (hsys : sysView false t = sysView false s) : BootDone t :=
  h.keep (getF_of_sysView hsys (by decide)) (getF_of_sysView hsys (by decide))

theorem recordCauses_boot {l : List (Nat × List Nat)} {s : State} (h : BootDone s) : BootDone (recordCauses l s) := by
  refine applyAll_of l _ (fun c t ht => ?_) s h
  have hcause : BootDone (orF PWR_DEGSEEN_seen (2 ^ c.1) (orF PWR_DEGRADE_cause (2 ^ c.1) t)) := by
    refine ht.keep ?_ ?_ <;> simp (disch := decide) only [orF_eq, getF_setF_ne]
  exact hcause.of_sysView (fence_sys rfl)

theorem hieStart_pwr {pv : Fld → Nat} {s : State} (h : HasPwr pv s) : HasPwr pv (hieStart s) := by
  unfold hieStart
  extract_lets n _ s1 s2
  have hs1 : HasPwr pv s1 := sys_pwr (storeWrite_sys rfl) (setF_pwr (h.upd rfl))
  have hs2 : HasPwr pv s2 := by
    unfold s2
    split
    · next e => exact setSlot_pwr ((consistSlot_pwr hs1).of_eq e)
    · next e => exact (consistSlot_pwr hs1).of_eq e
  refine ite_pwr h ?_
  split
  · exact setF_pwr (setF_pwr (setB_pwr (setB_pwr (setF_pwr (setF_pwr (sys_pwr (storeWrite_sys rfl) (hs2.upd rfl)))))))
  · exact iteThen_pwr (setF_pwr ((drbgBytes_pwr hs2).upd rfl)) fun _ => (drbgBytes_pwr hs2).upd rfl

theorem ratedChanged_pwr {pv : Fld → Nat} {s : State} (h : HasPwr pv s) : HasPwr pv (ratedChanged s) := by
  have hwear {item inst : Nat} {w : WearItem} {t : State} (ht : HasPwr pv t) : HasPwr pv (setWearItem item inst w t) :=
    sys_pwr (setWearItem_sys rfl) ht
  have hpred {x : Nat × Nat} {t : State} (ht : HasPwr pv t) : HasPwr pv (predictItem x t) := sys_pwr (predictItem_sys rfl) ht
  exact applyAll_pwr (fun _ _ h => ite_pwr (hwear (hpred (hwear (judgeItem_pwr h)))) (hpred (judgeItem_pwr h)))
    (applyAll_pwr (fun _ _ h => hwear h) h)

theorem raiseNow_pwr {pv : Fld → Nat} {e : Nat} {s : State} (h : HasPwr pv s) : HasPwr pv (raiseNow e s) := by
  have hpend : 0x40030000 ≤ (evPend e).addr := by unfold evPend; split <;> decide
  exact iteElse_pwr (iteElse_pwr (incF_pwr (orF_pwr h hpend)) fun h1 => h1.upd rfl) fun h1 => h1.upd rfl

theorem evcActivate_pwr {pv : Fld → Nat} {s : State} (h : HasPwr pv s) : HasPwr pv (evcActivate s) :=
  applyAll_pwr (fun _ _ h => raiseNow_pwr h) (setB_pwr (h.upd rfl))

theorem portStart_pwr {pv : Fld → Nat} {p : Nat} {s : State} (h : HasPwr pv s) : HasPwr pv (portStart p s) :=
  ite_pwr (plcaUp_pwr h) h

/-- Shedding changes PWR_STATUS.shed of its block, and nothing else there (R120). -/
theorem getF_shed {f : Fld} {s : State} (hf : onSys false f = true) (hne : f.key ≠ PWR_STATUS_shed.key) : getF f (shed s) = getF f s := by
  unfold shed
  extract_lets acc t1s s1 ps _
  have hs1 : HasPwr (powerRegs s) s1 := sys_pwr (groupsOff_sys rfl) (sys_pwr (coastAll_sys rfl) rfl)
  have hports : HasPwr (powerRegs s) (applyAll ps portStop { s1 with power := { s1.power with shedPorts := acc ||| t1s } }) :=
    applyAll_pwr (fun _ _ h => sys_pwr (portStop_sys rfl) h) (hs1.upd rfl)
  exact (getF_setF_ne _ _ hne).trans (powerRegs_eq_iff.1 hports f hf)

theorem completes_cutOver {s : State} (hmode : mode s = mBuilding) (hbuilt : s.loader.built = true) : Completes .cutOver s fun t =>
    (s.loader.next.policy.flags.testBit 0 = true → mode t = mWorkshop) ∧
    (s.loader.next.policy.flags.testBit 0 = false → mode t = mService ∨ mode t = mDegraded) ∧
    getF PWR_BOOTTRY_n t = 0 ∧ getF PWR_MODE_base t = mService ∧ t.str = s.loader.next ∧ t.loader = {} ∧ isSet EVC_CTL_act t = true := by
  refine completes_of_eq (congrArg Host.Outcome.next (onlyIf_true (by simp [hmode, hbuilt]) _ s)) ?_
  extract_lets h x d _ _ s1 s2 s3 s4 s5 s6 s7 s8 s9
  have hs1 : HasForm false (x, {}, s.fuse, 0) s1 := formAll_form x (v := (s.str, {}, s.fuse, 0)) rfl
  have hs2 : HasForm false (x, {}, s.fuse, 0) s2 := applyAll_form (fun _ _ h => setB_any h) hs1
  have hs3 : HasForm false (x, {}, s.fuse, 0) s3 := formPools_form (applyAll_form (fun _ _ h => lodgerNew_form h) hs2)
  have hs4 : HasForm false (x, {}, s.fuse, 0) s4 := setF_any (setF_any (setF_any (setF_any (setF_any (showDigest_form hs3)))))
  have hs5 : HasForm false (x, {}, s.fuse, 0) s5 := setF_any (setF_any (setF_any hs4))
  have hboot5 : BootDone s5 := by
    constructor <;> simp (disch := decide) only [s5, getF_setF_ne, getF_setF_self] <;> rfl
  clear_value s5
  have hs6 : HasForm false (x, {}, s.fuse, 0) s6 := recordCauses_form (hieStart_form hs5)
  have hboot6 : BootDone s6 := by
    have hhie : HasPwr (powerRegs s5) (hieStart s5) := hieStart_pwr rfl
    exact recordCauses_boot (hboot5.keep (powerRegs_eq_iff.1 hhie _ (by decide)) (powerRegs_eq_iff.1 hhie _ (by decide)))
  clear_value s6
  have hs7 : HasForm false (x, {}, s.fuse, 0) s7 := setMode_form hs6
  have hboot7 : BootDone s7 := hboot6.keep (getF_setMode (by decide)) (getF_setMode (by decide))
  have hmode7 : mode s7 = if x.policy.flags.testBit 0 then mWorkshop else if causes s6 ≠ 0 then mDegraded else mService :=
    mode_setMode (by split <;> [decide; split <;> decide]) s6
  clear_value s7
  have hs9 : HasForm true (x, {}, s.fuse, 1) s9 :=
    ratedChanged_form (refreshAdc_form (applyAll_form (fun _ _ h => portStart_form h) (evcActivate_form (ite_form hs7 (pcieDown_form hs7)))))
  have hpwr9 : HasPwr (powerRegs s7) s9 :=
    ratedChanged_pwr (sys_pwr (refreshAdc_sys rfl) (applyAll_pwr (fun _ _ h => portStart_pwr h)
      (evcActivate_pwr (ite_pwr rfl (sys_pwr (pcieDown_sys rfl) rfl)))))
  clear_value s9
  have hform : HasForm true (x, {}, s.fuse, 1) (if s9.power.pfailLow then shed s9 else s9) := ite_form (shed_form hs9) hs9
  have hkeep (f : Fld) (hf : onSys false f = true) (hne : f.key ≠ PWR_STATUS_shed.key) :
      getF f (if s9.power.pfailLow then shed s9 else s9) = getF f s7 := by
    refine Eq.trans ?_ (powerRegs_eq_iff.1 hpwr9 f hf)
    split
    · exact getF_shed hf hne
    · rfl
  generalize (if s9.power.pfailLow then shed s9 else s9) = t at hform hkeep ⊢
  have hshown : mode t = mode s7 := hkeep _ (by decide) (by decide)
  have hact : getF EVC_CTL_act t = 1 := congrArg (fun w : FormView => w.2.2.2) hform
  refine ⟨fun hflag => ?_, fun hflag => ?_, (hkeep _ (by decide) (by decide)).trans hboot7.1, (hkeep _ (by decide) (by decide)).trans hboot7.2,
    congrArg (fun w : FormView => w.1) hform,
    congrArg (fun w : FormView => w.2.1) hform, by rw [isSet, hact]; rfl⟩
  · rw [hshown, hmode7, if_pos hflag]
  · rw [hshown, hmode7, if_neg (by rw [hflag]; decide)]
    split
    · exact .inr rfl
    · exact .inl rfl

/-- Settles O23: one lemma for each command; the cut-over by what its functions keep, the exit from STANDBY by what a wake keeps. -/
theorem standbyBootAndStartUpCommandsComplete : Obligations.StandbyBootAndStartUpCommandsComplete := by
  unfold Obligations.StandbyBootAndStartUpCommandsComplete
  exact ⟨
    fun rq w s hadm hkey hreq hnone hbase hmode hasleep hmotors hcauses =>
      completes_standbyRequest hadm hkey hreq hnone hbase hmode hasleep hmotors hcauses,
    fun s hwait => completes_standbyEntryComplete hwait,
    fun s hwait => exec_standbyCoreWaitTimeout hwait,
    fun refCycles s hexit => completes_standbyExit refCycles hexit,
    fun s hbare hpor hhold hlock hrails hstraps htries => completes_loadingEntry hbare hpor hhold hlock hrails hstraps htries,
    fun s hbare hpor hhold hlock hrails hbad => completes_bootQuarantine hbare hpor hhold hlock hrails hbad,
    fun hdr s hload hphase hio1 hlen => completes_imageHeaderCheck hload hphase hio1 hlen,
    fun img s hload hopen hread => completes_imageVerify hload hopen hread,
    fun ddrOk s hmode hacc hnew => completes_build hmode hacc hnew,
    fun s hmode hbuilt => completes_cutOver hmode hbuilt,
    fun n s hdue => completes_tileStart hdue,
    fun n s hn hcan hstate => completes_canIntegrationDone hn hcan hstate,
    fun s hserv hramp => completes_allowanceRampTick hserv hramp⟩

end Sys2Proof.Machine

/-! # What frames, key loads and the ledger's items leave as it is

The data path (pages, the switch core, the hierarchy unit's sending), the key store and the check-value engine's own jobs, the ledger's items and the
raising of events write their own stores and registers. `asideState` is a state with these stores cleared, so that what stands in it is left as it is
(`HasAside`), one lemma for each function; the image registers, where a delta session is shown, are left as well. -/

namespace Sys2Proof.Machine

/-- A field of the block IMG (R496). -/
def onImg (f : Fld) : Bool := decide (0x40050000 * 32 ≤ f.key) && decide (f.key < 0x40060000 * 32)

/-- A state without the stores of frames, keys, items and events. -/
def asideState (s : State) : State :=
  { s with regs := [], mem := [], outbox := [], freeCount := 0, evc := {}, once := [], swc := {}, fwt := {}, trn := {}, hie := {}, store := {},
           wear := {}, keys := {}, ckv := {}, ink := { leases := s.ink.leases, decls := s.ink.decls } }

/-- What stands aside from the data path: a state without its stores, and the fields of the image registers. -/
abbrev AsideView := State × (Fld → Nat)

/-- What a state holds aside from the data path. -/
def asideView (s : State) : AsideView := (asideState s, fun f => if onImg f then getF f s else 0)

/-- A state holds `v` aside from the data path. -/
def HasAside (v : AsideView) (s : State) : Prop := asideView s = v

theorem onImg_congr {f g : Fld} (h : f.key = g.key) : onImg f = onImg g := by
  simp only [onImg, h]

theorem onImg_of_ge {f : Fld} (h : 0x40060000 ≤ f.addr) : onImg f = false := by
  have hkey : ¬ f.key < 0x40060000 * 32 := by simp only [Fld.key]; omega
  simp [onImg, hkey]

theorem onImg_of_lt {f : Fld} (h : f.key < 0x40050000 * 32) : onImg f = false := by
  simp [onImg, Nat.not_le.2 h]

/-- The drop counters of the ports below 256 stand below the image registers. -/
theorem onImg_INK_DROP_count {port reason : Nat} (hr : reason ≤ 5) (hp : port < 256) : onImg (INK_DROP_count port (reason - 1)) = false :=
  onImg_of_lt (by simp only [Fld.key, INK_DROP_count]; omega)

theorem onImg_eventFields {e : Nat} (he : e < 64) : ∀ g ∈ eventFields e, onImg g = false := by
  intro g hg
  simp only [eventFields, List.mem_cons, List.not_mem_nil, or_false] at hg
  rcases hg with rfl | rfl
  · unfold evPend; split <;> decide
  · exact onImg_of_lt (by simp only [Fld.key, EVC_CNT_cnt]; omega)

theorem onImg_modeFields : ∀ g ∈ modeFields, onImg g = false := by
  intro g hg
  rcases List.mem_append.1 hg with hg | hg
  · revert g; decide
  · exact onImg_eventFields (by decide) g hg

section
/-! The arguments that a tactic fills in below wait for the kernel: elaborated one after another, the lemmas hold no thread each. -/

set_option Elab.async false

variable {v : AsideView} {s t : State}

/-! ## What is the same in two states that agree aside from the data path -/

theorem asideState_of_aside (h : HasAside (asideView s) t) : asideState t = asideState s := congrArg (·.1) h

theorem loader_of_aside (h : HasAside (asideView s) t) : t.loader = s.loader :=
  show (asideState t).loader = (asideState s).loader by rw [asideState_of_aside h]

theorem old_of_aside (h : HasAside (asideView s) t) : t.old = s.old :=
  show (asideState t).old = (asideState s).old by rw [asideState_of_aside h]

theorem leaseOf_of_aside (h : HasAside (asideView s) t) (n : Nat) : leaseOf n t = leaseOf n s :=
  show leaseOf n (asideState t) = leaseOf n (asideState s) by rw [asideState_of_aside h]

theorem getF_of_aside (h : HasAside (asideView s) t) {f : Fld} (hf : onImg f = true) : getF f t = getF f s := by
  have hfields : (asideView t).2 f = (asideView s).2 f := by rw [h]
  simpa [asideView, hf] using hfields

theorem isSet_of_aside (h : HasAside (asideView s) t) {f : Fld} (hf : onImg f = true) : isSet f t = isSet f s := by
  rw [isSet, getF_of_aside h hf, isSet]

/-! ## The operations on states -/

theorem HasAside.upd (h : HasAside v s) (e : asideView t = asideView s) : HasAside v t := e.trans h

theorem HasAside.of_eq {α : Type} {x : α × State} {a : α} (h : HasAside v x.2) (e : x = (a, t)) : HasAside v t := by
  rwa [e] at h

/-- `HasAside.upd` for a state that is a long call: the update is not unfolded to find it. -/
theorem HasAside.swc {x : SwcState} (h : HasAside v s) : HasAside v { s with swc := x } := h.upd rfl

theorem pair_aside {α : Type} {a : α} (h : HasAside v s) : HasAside v (a, s).2 := h

theorem ite_aside {c : Prop} [Decidable c] (h : HasAside v s) (h' : HasAside v t) : HasAside v (if c then s else t) := by
  split <;> assumption

theorem iteThen_aside {c : Prop} [Decidable c] (h : HasAside v s) (hg : HasAside v s → HasAside v t) : HasAside v (if c then s else t) :=
  ite_aside h (hg h)

theorem iteElse_aside {c : Prop} [Decidable c] (h : HasAside v s) (hg : HasAside v s → HasAside v t) : HasAside v (if c then t else s) :=
  ite_aside (hg h) h

theorem iteSnd_aside {α : Type} {c : Prop} [Decidable c] {x y : α × State} (h : HasAside v x.2) (h' : HasAside v y.2) :
    HasAside v (if c then x else y).2 := by
  split <;> assumption

theorem iteSnd₂_aside {α β : Type} {c : Prop} [Decidable c] {x y : α × β × State} (h : HasAside v x.2.2) (h' : HasAside v y.2.2) :
    HasAside v (if c then x else y).2.2 := by
  split <;> assumption

/-- Registers of other blocks changed, and stores that `asideState` clears. -/
theorem HasAside.regsBut {l : List Fld} (h : HasAside v s) (hl : ∀ g ∈ l, onImg g = false) (hregs : RegsBut l s t)
    (e : asideState t = asideState s) : HasAside v t := by
  refine h.upd (Prod.ext e (funext fun f => ?_))
  by_cases hf : onImg f = true
  · simp only [asideView, hf, if_true]
    refine hregs f fun g hg hkey => ?_
    rw [onImg_congr hkey, hl g hg] at hf
    cases hf
  · simp only [asideView, hf]; rfl

theorem setF_aside {f : Fld} {n : Nat} (h : HasAside v s) (hf : onImg f = false := by decide) : HasAside v (setF f n s) :=
  h.regsBut (l := [f]) (fun _ hg => by rwa [List.mem_singleton.1 hg]) ((RegsBut.refl _ s).setF List.mem_cons_self _) rfl

theorem setB_aside {f : Fld} {b : Bool} (h : HasAside v s) (hf : onImg f = false := by decide) : HasAside v (setB f b s) := setF_aside h hf

theorem incF_aside {f : Fld} {n : Nat} (h : HasAside v s) (hf : onImg f = false := by decide) : HasAside v (incF f n s) := setF_aside h hf

theorem clrF_aside {f : Fld} {m : Nat} (h : HasAside v s) (hf : onImg f = false := by decide) : HasAside v (clrF f m s) := setF_aside h hf

theorem applyAll_aside {α : Type} {l : List α} {g : α → State → State} (hg : ∀ x s, HasAside v s → HasAside v (g x s))
    (h : HasAside v s) : HasAside v (applyAll l g s) :=
  applyAll_of l g hg s h

theorem wrBytes_aside {l : List Byte} {a : Nat} (h : HasAside v s) : HasAside v (wrBytes a l s) := by
  rw [wrBytes_eq]
  exact h.upd rfl

theorem emit_aside {e : Emission} (h : HasAside v s) : HasAside v (emit e s) :=
  h.upd rfl

theorem raise_aside {e : Nat} (h : HasAside v s) (he : e < 64 := by decide) : HasAside v (raise e s) :=
  h.regsBut (onImg_eventFields he) (raise_frame e s).2 (by rw [(raise_frame e s).1]; rfl)

theorem raiseOnce_aside {e inst : Nat} (h : HasAside v s) (he : e < 64 := by decide) : HasAside v (raiseOnce e inst s) :=
  h.regsBut (onImg_eventFields he) (raiseOnce_frame e inst s).2 (by rw [(raiseOnce_frame e inst s).1]; rfl)

theorem refreshMode_aside (h : HasAside v s) : HasAside v (refreshMode s) :=
  h.regsBut onImg_modeFields (refreshMode_frame s).2 (by rw [(refreshMode_frame s).1]; rfl)

theorem refreshBase_aside (h : HasAside v s) : HasAside v (refreshBase s) :=
  ite_aside (refreshMode_aside (setF_aside h)) h

theorem startup_aside (h : HasAside v s) : HasAside v (startup s) :=
  h.regsBut (by decide) (startup_frame s) rfl

/-! ## The functions, in the order of the model -/

theorem poolTake_aside (h : HasAside v s) : HasAside v (poolTake s) :=
  iteElse_aside (iteElse_aside (setF_aside (setF_aside (setB_aside h))) fun h1 => raise_aside h1) fun h1 =>
    raise_aside (setB_aside h1)

theorem poolReturn_aside (h : HasAside v s) : HasAside v (poolReturn s) :=
  iteElse_aside (setF_aside (setB_aside h)) fun h1 => setB_aside h1

theorem takePage_aside {i : Nat} (h : HasAside v s) : HasAside v (takePage i s).2 :=
  ite_aside (h.upd rfl) (poolTake_aside (h.upd rfl))

theorem grantPage_aside {idx i : Nat} (h : HasAside v s) : HasAside v (grantPage idx i s).2 :=
  setF_aside (takePage_aside h) (by split <;> decide)

theorem takePages_aside {idx i n : Nat} (h : HasAside v s) : HasAside v (takePages idx i n s).2.2 := by
  induction n generalizing s with
  | zero => exact h
  | succ n ih =>
    unfold takePages
    split
    · exact h
    · exact ih (grantPage_aside h)

theorem linkPages_aside {l : List Nat} (h : HasAside v s) : HasAside v (linkPages l s) := by
  induction l, s using linkPages.induct with
  | case1 s => exact h
  | case2 s p => exact h.upd rfl
  | case3 s p q r ih => exact ih (h.upd rfl)

theorem freePage_aside {p : Nat} (h : HasAside v s) : HasAside v (freePage p s) :=
  ite_aside (ite_aside (poolReturn_aside (h.upd rfl)) (h.upd rfl)) (h.upd rfl)

theorem freePages_aside {l : List Nat} (h : HasAside v s) : HasAside v (freePages l s) :=
  applyAll_aside (fun _ _ h => freePage_aside h) h

theorem sharePages_aside {l : List Nat} {n : Nat} (h : HasAside v s) : HasAside v (sharePages l n s) :=
  applyAll_aside (fun _ _ h => h.upd rfl) h

theorem countDrop_aside {port reason : Nat} (hp : port < 256) (h : HasAside v s) (hr : reason ≤ 5 := by decide) :
    HasAside v (countDrop port reason s) :=
  incF_aside h (onImg_INK_DROP_count hr hp)

theorem setLodger_aside {lid : Nat} {l : Lodger} (h : HasAside v s) : HasAside v (setLodger lid l s) :=
  h.upd rfl

theorem evict_aside {lid : Nat} (h : HasAside v s) : HasAside v (evict lid s) :=
  setLodger_aside h

theorem pinIn_aside {lid : Nat} (h : HasAside v s) : HasAside v (pinIn lid s) := by
  refine ite_aside (setLodger_aside h) ?_
  split
  · exact setLodger_aside (evict_aside h)
  · exact h

theorem pageIn_aside {lid : Nat} (h : HasAside v s) : HasAside v (pageIn lid s) :=
  setLodger_aside (h.upd rfl)

theorem contextFault_aside {lid : Nat} (h : HasAside v s) : HasAside v (contextFault lid s) := by
  refine ite_aside h (ite_aside (pinIn_aside h) (ite_aside (pageIn_aside h) ?_))
  split
  · exact pageIn_aside (evict_aside h)
  · exact iteThen_aside (setLodger_aside h) fun h1 => raise_aside (setB_aside h1)

theorem releaseItem_aside {lid : Nat} {w : ItemWork} (hw : ∀ b, w = .frame b → b.src < 256) (h : HasAside v s) :
    HasAside v (releaseItem lid w s) := by
  refine ite_aside h (ite_aside ?_ (iteThen_aside (setLodger_aside h) fun h1 => contextFault_aside h1))
  split
  · next b => exact countDrop_aside (hw b rfl) (freePages_aside h)
  · exact h

theorem twr_aside {a : Nat} {b : List Byte} (h : HasAside v s) : HasAside v (twr a b s) := by
  induction b generalizing a s with
  | nil => exact h
  | cons x r ih => exact ih (h.upd rfl)

theorem entWr_aside {t i : Nat} {b : List Byte} (h : HasAside v s) : HasAside v (entWr t i b s) :=
  twr_aside h

theorem shadowPlace_aside {e : List Byte} (h : HasAside v s) : HasAside v (shadowPlace e s).2 := by
  unfold shadowPlace
  dsimp only
  split
  · exact entWr_aside h
  · split
    · exact entWr_aside h
    · exact setF_aside (incF_aside h)

theorem shadowMade_aside {e : List Byte} (h : HasAside v s) : HasAside v (shadowMade e s) :=
  iteElse_aside (shadowPlace_aside h) fun h1 => incF_aside h1

theorem shadowDrop_aside {key : List Byte} (h : HasAside v s) : HasAside v (shadowDrop key s) := by
  unfold shadowDrop
  split
  · exact entWr_aside h
  · exact h

theorem l2Put_aside {i : Nat} {e : List Byte} (h : HasAside v s) : HasAside v (l2Put i e s) :=
  ite_aside (iteElse_aside (setF_aside (entWr_aside h)) fun h1 => iteElse_aside (ite_aside (shadowDrop_aside h1) h1) fun h2 => shadowMade_aside
    h2) (entWr_aside h)

theorem learnQueue_aside {r : LearnReq} (h : HasAside v s) : HasAside v (learnQueue r s) :=
  ite_aside (h.upd rfl) (ite_aside (incF_aside h) (setF_aside (h.upd rfl)))

theorem learnMeet_aside {mac : List Byte} {vid port : Nat} (h : HasAside v s) : HasAside v (learnMeet mac vid port s) := by
  unfold learnMeet
  dsimp only
  refine ite_aside h ?_
  split
  · exact learnQueue_aside h
  · exact ite_aside h (ite_aside (l2Put_aside h) (learnQueue_aside h))

theorem storeFrame_aside {l : List Nat} {b : List Byte} (h : HasAside v s) : HasAside v (storeFrame l b s) := by
  induction l generalizing b s with
  | nil => exact h
  | cons p r ih => exact ih (wrBytes_aside h)

theorem swBump_aside {p i n : Nat} (h : HasAside v s) : HasAside v (swBump p i n s) :=
  h.upd rfl

theorem setQueue_aside {k : Nat} {q : List Replica} (h : HasAside v s) : HasAside v (setQueue k q s) :=
  h.upd rfl

theorem dropReplica_aside {r : Replica} (h : HasAside v s) : HasAside v (dropReplica r s) :=
  freePages_aside h

theorem discard_aside {p i : Nat} {r : Replica} (h : HasAside v s) : HasAside v (discard p i r s) :=
  swBump_aside (dropReplica_aside h)

theorem ringDrop_aside {r n : Nat} (h : HasAside v s) : HasAside v (ringDrop r n s) :=
  (incF_aside h (onImg_of_ge (Nat.le_add_right_of_le (by decide)))).upd rfl

theorem creditUpdate_aside {p : Nat} (h : HasAside v s) : HasAside v (creditUpdate p s) := by
  unfold creditUpdate
  refine ite_aside h ?_
  extract_lets now dt put s1
  have hs1 : HasAside v s1 := applyAll_aside (fun _ _ h => h.swc) h
  exact hs1.swc

theorem refreshHold_aside {p : Nat} (h : HasAside v s) : HasAside v (refreshHold p s) :=
  ite_aside (setF_aside h (onImg_of_ge (Nat.le_add_right_of_le (by decide)))) h

theorem enqueue_aside {p : Nat} {r : Replica} (h : HasAside v s) : HasAside v (enqueue p r s) := by
  unfold enqueue
  split
  · exact discard_aside h
  · exact incF_aside (discard_aside h) (onImg_of_ge (Nat.le_add_right_of_le (by decide)))
  · exact incF_aside (discard_aside h) (onImg_of_ge (Nat.le_add_right_of_le (by decide)))
  · exact ringDrop_aside (dropReplica_aside h)
  · exact discard_aside h
  · exact refreshHold_aside (setQueue_aside (creditUpdate_aside h))

theorem flushPort_aside {p : Nat} (h : HasAside v s) : HasAside v (flushPort p s) :=
  refreshHold_aside (creditUpdate_aside (applyAll_aside (fun _ _ h => applyAll_aside (fun _ _ h => discard_aside h) (setQueue_aside h))
    (creditUpdate_aside h)))

theorem trnCount_aside {lid i n : Nat} (h : HasAside v s) : HasAside v (trnCount lid i n s) :=
  h.upd rfl

theorem toTranscriber_aside {r : Replica} (h : HasAside v s) : HasAside v (toTranscriber r s) := by
  unfold toTranscriber
  dsimp only
  split
  · next hr => exact releaseItem_aside (fun b e => by cases e; exact src_of_trnLookup hr) h
  · exact trnCount_aside (dropReplica_aside h)

theorem joinPlain_aside {p : Nat} {r : Replica} (h : HasAside v s) : HasAside v (joinPlain p r s) :=
  ite_aside (toTranscriber_aside h) (ite_aside (discard_aside h) (enqueue_aside h))

theorem setInflight_aside {p : Nat} {i : Option Inflight} (h : HasAside v s) : HasAside v (setInflight p i s) :=
  h.upd rfl

theorem addWaiting_aside {p : Nat} {l : List (Nat × Replica)} (h : HasAside v s) : HasAside v (addWaiting p l s) := by
  unfold addWaiting
  split
  · exact setInflight_aside h
  · exact h

theorem joinCut_aside {p : Nat} {r : Replica} (h : HasAside v s) : HasAside v (joinCut p r s) :=
  ite_aside (addWaiting_aside (enqueue_aside (sharePages_aside h))) (enqueue_aside h)

theorem joinQueue_aside {p : Nat} {r : Replica} (h : HasAside v s) : HasAside v (joinQueue p r s) :=
  ite_aside (discard_aside h) (ite_aside (joinPlain_aside (joinPlain_aside (sharePages_aside h))) (joinPlain_aside h))

theorem ingressCopy_aside {w : Waybill} {arriving : Bool} (h : HasAside v s) : HasAside v (ingressCopy w arriving s) :=
  ite_aside (ite_aside (addWaiting_aside (sharePages_aside h)) (joinPlain_aside (sharePages_aside h))) h

theorem police_aside {i charge : Nat} (h : HasAside v s) : HasAside v (police i charge s).2 := by
  refine iteSnd_aside (incF_aside h) (iteSnd_aside (entWr_aside h) ?_)
  split
  · exact raiseOnce_aside (setF_aside (entWr_aside h))
  · exact entWr_aside h
  · exact entWr_aside h

theorem setCb_aside {sh : Nat} {c : CbStream} (h : HasAside v s) : HasAside v (setCb sh c s) :=
  h.upd rfl

theorem flowDrop_aside {f : Flow} {i : Nat} (h : HasAside v s) : HasAside v (flowDrop f i s) :=
  swBump_aside (freePages_aside h)

theorem replicate_aside {f : Flow} {encap : Option Nat} {decap arriving : Bool} (h : HasAside v s) :
    HasAside v (replicate f encap decap arriving s) := by
  unfold replicate
  extract_lets w again w1 nosub s1 s2 reps g s3 cut rest s4
  have hs1 : HasAside v s1 := ite_aside (swBump_aside h) h
  have hs2 : HasAside v s2 := ite_aside (swBump_aside hs1) hs1
  have hs3 : HasAside v s3 := sharePages_aside hs2
  have hs4 : HasAside v s4 := applyAll_aside (fun _ _ h => joinCut_aside h) hs3
  exact ite_aside (ite_aside (freePages_aside hs2) (flowDrop_aside hs2)) (ite_aside (addWaiting_aside hs4)
    (applyAll_aside (fun _ _ h => joinQueue_aside h) hs4))

theorem reframe_aside {f : Flow} {b : List Byte} (h : HasAside v s) : HasAside v (reframe f b s).2 := by
  refine storeFrame_aside ?_
  split
  · exact setInflight_aside h
  · exact h

theorem recovery_aside {f g : Flow} {sh : Nat} {t : State} (h : HasAside v s) (e : recovery f sh s = some (g, t)) : HasAside v t := by
  unfold recovery at e
  dsimp only at e
  split at e
  · cases e; exact h
  · split at e
    · cases e; exact setCb_aside h
    · simp only [Option.ite_none_right_eq_some, Option.some.injEq] at e
      exact (iteSnd_aside (reframe_aside (setCb_aside h)) (pair_aside (setCb_aside h))).of_eq e.2

theorem recoveryDiscard_aside {f : Flow} {sh : Nat} (h : HasAside v s) : HasAside v (recoveryDiscard f sh s) := by
  unfold recoveryDiscard
  split
  · exact h
  · exact setCb_aside h

theorem forwardL2_aside {f : Flow} {arriving : Bool} (h : HasAside v s) : HasAside v (forwardL2 f arriving s) := by
  unfold forwardL2
  extract_lets w g ring s0 w1
  have hs0 : HasAside v s0 := ite_aside (learnMeet_aside h) h
  split
  · exact replicate_aside hs0
  · extract_lets dec w1
    split
    · exact flowDrop_aside hs0
    · refine ite_aside (flowDrop_aside hs0) (ite_aside ?_ (replicate_aside hs0))
      split
      · exact flowDrop_aside (recoveryDiscard_aside hs0)
      · next e => exact replicate_aside (recovery_aside hs0 e)

theorem forwardTile_aside {f : Flow} (h : HasAside v s) : HasAside v (forwardTile f s) := by
  unfold forwardTile
  dsimp only
  split
  · exact replicate_aside h
  · split
    · exact flowDrop_aside h
    · exact replicate_aside h

theorem forwardStage_aside {f : Flow} {arriving : Bool} (h : HasAside v s) : HasAside v (forwardStage f arriving s) :=
  ite_aside (forwardTile_aside h) (forwardL2_aside h)

theorem settleLater_aside {p i charge : Nat} (h : HasAside v s) : HasAside v (settleLater p i charge s) := by
  unfold settleLater
  split
  · exact setInflight_aside h
  · exact h

theorem policeStage_aside {f : Flow} {g : GraphRec} {arriving : Bool} (h : HasAside v s) : HasAside v (policeStage f g arriving s).2 := by
  unfold policeStage
  dsimp only
  split
  · exact ite_aside (police_aside h) (settleLater_aside (police_aside h))
  · exact flowDrop_aside (police_aside h)
  · exact police_aside h
  · exact police_aside h

theorem queueItem_aside {lid : Nat} {w : Waybill} {arriving : Bool} (hw : w.src < 256) (h : HasAside v s) :
    HasAside v (queueItem lid w arriving s) :=
  ite_aside (addWaiting_aside h) (releaseItem_aside (fun b e => by cases e; exact hw) h)

theorem transcribeStage_aside {f : Flow} {g : GraphRec} {arriving : Bool} (h : HasAside v s) :
    HasAside v (transcribeStage f g arriving s).2 := by
  unfold transcribeStage
  dsimp only
  split
  · exact h
  · next hr =>
    have hw := src_of_trnLookup hr
    exact iteSnd_aside (queueItem_aside hw h) (queueItem_aside hw (sharePages_aside h))

theorem runStages_aside {l : List Nat} {f : Flow} {g : GraphRec} {arriving : Bool} (h : HasAside v s) :
    HasAside v (runStages l f g arriving s) := by
  induction l, f, g, arriving, s using runStages.induct with
  | case1 f g arriving s => exact freePages_aside h
  | case2 r f g arriving s => exact forwardStage_aside h
  | case3 r f g arriving s f1 s1 e ih => rw [runStages, e]; exact ih ((transcribeStage_aside h).of_eq e)
  | case4 r f g arriving s s1 e => rw [runStages, e]; exact (transcribeStage_aside h).of_eq e
  | case5 r f g arriving s f1 s1 e ih => rw [runStages, e]; exact ih ((policeStage_aside h).of_eq e)
  | case6 r f g arriving s s1 e => rw [runStages, e]; exact (policeStage_aside h).of_eq e
  | case7 r f g arriving s e => rw [runStages, if_pos e]; exact h.upd rfl
  | case8 r f g arriving s e ih => rw [runStages, if_neg e]; exact ih h
  | case9 x r f g arriving s h5 h4 h3 h2 ih => rw [runStages] <;> [exact ih h; exact h5; exact h4; exact h3; exact h2]

theorem enterPipeline_aside {w : Waybill} {frame : List Byte} {arriving : Bool} (h : HasAside v s) :
    HasAside v (enterPipeline w frame arriving s) := by
  unfold enterPipeline
  extract_lets p g classify vid tc w1 f s0 s1 rest _
  have hs0 : HasAside v s0 := ite_aside (setInflight_aside h) h
  have hs1 : HasAside v s1 := ingressCopy_aside (swBump_aside (swBump_aside hs0))
  exact ite_aside (replicate_aside hs1) (ite_aside (flowDrop_aside hs1) (ite_aside (hs1.upd rfl) (runStages_aside hs1)))

theorem setFilling_aside {k : Nat} {l : List Nat} (h : HasAside v s) : HasAside v (setFilling k l s) :=
  h.upd rfl

theorem pagesOf_aside {w : Waybill} {tc len : Nat} {lossless : Bool} (h : HasAside v s) : HasAside v (pagesOf w tc len lossless s).2.2 := by
  refine iteSnd₂_aside (freePages_aside (setFilling_aside h)) (iteSnd₂_aside (setFilling_aside ?_)
    (iteSnd₂_aside (setFilling_aside ?_) (freePages_aside (setFilling_aside ?_))))
  · split
    · exact h
    · exact takePages_aside h
  · split
    · exact h
    · exact takePages_aside h
  · split
    · exact h
    · exact takePages_aside h

theorem setHolds_aside {k : Nat} {l : List Held} (h : HasAside v s) : HasAside v (setHolds k l s) :=
  h.upd rfl

theorem obufShow_aside (h : HasAside v s) : HasAside v (obufShow s) :=
  setF_aside (setB_aside h)

theorem enterHostel_aside {w : Waybill} {frame : List Byte} {arriving : Bool} {pages : List Nat} (h : HasAside v s) :
    HasAside v (enterHostel w frame arriving pages s) :=
  ite_aside (replicate_aside (ingressCopy_aside (storeFrame_aside (linkPages_aside h))))
    (enterPipeline_aside (storeFrame_aside (linkPages_aside h)))

/-- A frame of a port that has a drop counter. -/
theorem offerFrame_aside {w : Waybill} {frame : List Byte} {arriving : Bool} (hw : w.src < 256) (h : HasAside v s) :
    HasAside v (offerFrame w frame arriving s) := by
  have hreason := pagesOf_reason { w with gen := getF IMG_RCFG_gen s } (frameClass { w with gen := getF IMG_RCFG_gen s } frame s).1 frame.length
    (frameClass { w with gen := getF IMG_RCFG_gen s } frame s).2 s
  have hhold {t : State} (ht : HasAside v t) {k : Nat} {l : List Held} : HasAside v (obufShow (setHolds k l t)) :=
    obufShow_aside (setHolds_aside ht)
  exact ite_aside (ite_aside (hhold h) (countDrop_aside hw h)) (ite_aside (enterHostel_aside (pagesOf_aside h))
    (ite_aside (ite_aside (hhold (pagesOf_aside h)) (countDrop_aside hw (pagesOf_aside h)))
      (countDrop_aside hw (pagesOf_aside h) (hreason.trans (by decide)))))

theorem unitFrame_aside {w : Waybill} {bytes : List Byte} (hw : w.src < 256) (h : HasAside v s) : HasAside v (unitFrame w bytes s) :=
  offerFrame_aside hw h

theorem storeWrite_aside {region blk : Nat} (h : HasAside v s) : HasAside v (storeWrite region blk s) :=
  h.upd rfl

theorem setSlot_aside {k : Nat} {x : KeySlot} (h : HasAside v s) : HasAside v (setSlot k x s) :=
  h.upd rfl

theorem loadReject_aside {why user idx : Nat} (h : HasAside v s) : HasAside v (loadReject why user idx s) :=
  ite_aside (raiseOnce_aside (incF_aside (setF_aside (setF_aside (setF_aside (incF_aside h))))))
    (raiseOnce_aside (setF_aside (setF_aside (setF_aside (incF_aside h)))))

theorem pickOf_aside {l : List Nat} (h : HasAside v s) : HasAside v (pickOf l s).2 :=
  h.upd rfl

theorem slotFor_aside {t : State} {k : Nat} (h : HasAside v s) (e : slotFor s = some (k, t)) : HasAside v t := by
  unfold slotFor at e
  dsimp only at e
  split at e
  · exact (pickOf_aside h).of_eq (Option.some.inj e)
  · split at e
    · cases e
    · cases e; exact h

theorem touchSlot_aside {k : Nat} (h : HasAside v s) : HasAside v (touchSlot k s) :=
  setSlot_aside (h.upd rfl)

theorem placeKey_aside {b : List Byte} {idx k : Nat} {t : State} (h : HasAside v s) (e : placeKey b idx s = .inr (k, t)) : HasAside v t := by
  unfold placeKey at e
  split at e
  · cases e; exact touchSlot_aside h
  · split at e
    · cases e
    · split at e
      · cases e
      · split at e
        · cases e
        · next hs => cases e; exact touchSlot_aside (setSlot_aside (slotFor_aside h hs))

theorem hwLoad_aside {user h need : Nat} (hs : HasAside v s) : HasAside v (hwLoad user h need s).2 := by
  unfold hwLoad
  dsimp only
  split
  · exact loadReject_aside hs
  · split
    · exact loadReject_aside hs
    · split
      · exact loadReject_aside hs
      · next e2 => exact placeKey_aside hs e2

theorem laneFault_aside {l : Nat} (h : HasAside v s) : HasAside v (laneFault l s) :=
  iteElse_aside (raise_aside (setB_aside (setF_aside (clrF_aside h)))) fun h1 => raise_aside (setB_aside h1)

theorem hwRuns_aside {n bad : Nat} (h : HasAside v s) : HasAside v (hwRuns n bad s).2 := by
  induction n generalizing bad s with
  | zero => exact h
  | succ n ih => exact iteSnd_aside h (iteSnd_aside h (ih (laneFault_aside (pickOf_aside h))))

theorem hwCmac_aside {key msg : List Byte} {bad : Nat} (h : HasAside v s) : HasAside v (hwCmac key msg bad s).2 :=
  hwRuns_aside (incF_aside h)

theorem setWearItem_aside {item inst : Nat} {w : WearItem} (h : HasAside v s) : HasAside v (setWearItem item inst w s) :=
  h.upd rfl

theorem wearEvent_aside {f : Fld} {e item inst : Nat} (h : HasAside v s) (hf : onImg f = false := by decide) (he : e < 64 := by decide) :
    HasAside v (wearEvent f e item inst s) :=
  raise_aside (setF_aside (setF_aside (setB_aside h hf))) he

theorem judgeItem_aside {x : Nat × Nat} (h : HasAside v s) : HasAside v (judgeItem x s) := by
  unfold judgeItem
  dsimp only
  split
  · exact setWearItem_aside h
  · exact iteElse_aside (iteElse_aside (setWearItem_aside h) fun h1 => wearEvent_aside h1) fun h1 => wearEvent_aside h1

theorem predictItem_aside {x : Nat × Nat} (h : HasAside v s) : HasAside v (predictItem x s) :=
  iteElse_aside (setWearItem_aside h) fun h1 => wearEvent_aside h1

theorem ratedChanged_aside (h : HasAside v s) : HasAside v (ratedChanged s) :=
  applyAll_aside
    (fun _ _ h => ite_aside (setWearItem_aside (predictItem_aside (setWearItem_aside (judgeItem_aside h)))) (predictItem_aside (judgeItem_aside h)))
    (applyAll_aside (fun _ _ h => setWearItem_aside h) h)

theorem hieOut_aside {p : Nat} {boot : Bool} {f : List Byte} (h : HasAside v s) : HasAside v (hieOut p boot f s) :=
  ite_aside (ite_aside (unitFrame_aside (show 18 < 256 by decide) h) h) (ite_aside (emit_aside h) h)

theorem consistSlot_aside (h : HasAside v s) : HasAside v (consistSlot s).2 :=
  hwLoad_aside h

theorem nextCounter_aside (h : HasAside v s) : HasAside v (nextCounter s).2 :=
  iteSnd_aside (h.upd rfl) (setF_aside (storeWrite_aside (h.upd rfl)))

theorem hieSend_aside {type dst : Nat} {boot : Bool} {payload : List Byte} (h : HasAside v s) :
    HasAside v (hieSend type dst boot payload s) := by
  refine ite_aside (incF_aside (applyAll_aside (fun _ _ h => hieOut_aside h) h)) ?_
  split
  · next e1 => exact (consistSlot_aside h).of_eq e1
  · next e1 =>
      extract_lets c msg
      have hc : HasAside v c.2 := nextCounter_aside ((consistSlot_aside h).of_eq e1)
      split
      · next e2 => exact (hwCmac_aside hc).of_eq e2
      · next e2 => exact incF_aside (applyAll_aside (fun _ _ h => hieOut_aside h) ((hwCmac_aside hc).of_eq e2))

theorem lodgerNew_aside {lid : Nat} (h : HasAside v s) : HasAside v (lodgerNew lid s) := by
  unfold lodgerNew
  extract_lets _ t room l
  have ht : HasAside v t := h.upd rfl
  exact ite_aside (setLodger_aside ht) (ite_aside (setLodger_aside ht) (ite_aside (setLodger_aside ht)
    (ite_aside (pinIn_aside (setLodger_aside ht)) (setLodger_aside ht))))

end

end Sys2Proof.Machine

namespace Sys2Proof.Machine

/-! # Delta sessions and RECONFIG -/

/-! ## What quiescing keeps (R173) -/

section
variable {v : FormView} {s : State}

theorem handNext_form {n : Nat} {w : Waybill} {b : List Byte} {t : State} (h : HasForm false v s) (e : handNext n s = some (w, b, t)) :
    HasForm false v t := by
  unfold handNext at e
  dsimp only at e
  split at e
  · cases e
  · cases e; exact setCan_form h
  · cases e; exact setCan_form h

theorem handAll_form {n : Nat} (h : HasForm false v s) : HasForm false v (handAll n s) := by
  refine applyAll_form (fun _ t ht => ?_) h
  split
  · exact ht
  · next w f u e =>
    have hu : HasForm false v u := handNext_form ht e
    exact ite_form (offerFrame_form hu) (hu.upd rfl)

theorem grantLease_form {kind res tag n : Nat} {dur : Option Nat} {t : State} (h : HasForm false v s)
    (e : grantLease kind res tag dur s = some (n, t)) : HasForm false v t := by
  unfold grantLease at e
  split at e
  · cases e
  · split at e
    · cases e
    · cases e
      exact setLease_form h

theorem loaderTakes_form {b : Nat} (h : HasForm false v s) : HasForm false v (loaderTakes b s) := by
  unfold loaderTakes
  split
  · next e => exact grantLease_form h e
  · exact h

theorem tileQuietNow_form {n : Nat} (h : HasForm false v s) : HasForm false v (tileQuietNow n s) :=
  setTileBit_form (ite_form (canGoto_form (setCan_form (iteElse_form (canFlush_form (handAll_form h)) fun h1 =>
    canEvt_form (orF_any (setF_any (setF_any h1)))))) (ite_form h (serQuiet_form h)))

theorem quiesce_form (h : HasForm false v s) : HasForm false v (quiesce s) :=
  applyAll_form (fun _ _ h => tileQuietNow_form h) (setF_any h)

end

theorem loader_of_form {s t : State} (h : HasForm false (formView false s) t) : t.loader = s.loader := congrArg (fun w : FormView => w.2.1) h

/-! ## What the cut-over of a delta keeps of the old structure (R169, R174)

The structure that drains is kept by every function that rebuilds a part, one lemma for each. -/

section
variable {o : Option OldStructure} {s : State}

theorem ite_old {c : Prop} [Decidable c] {t : State} (h : s.old = o) (h' : t.old = o) : (if c then s else t).old = o := by
  split <;> assumption

theorem applyAll_old {α : Type} {l : List α} {g : α → State → State} (hg : ∀ x t, t.old = o → (g x t).old = o) (h : s.old = o) :
    (applyAll l g s).old = o :=
  applyAll_of (P := fun t => t.old = o) l g hg s h

theorem raise_old {e : Nat} (h : s.old = o) : (raise e s).old = o := by
  rw [(raise_frame e s).1]
  exact h

theorem discard_old {p i : Nat} {r : Replica} (h : s.old = o) : (discard p i r s).old = o := (old_of_aside (discard_aside rfl)).trans h

theorem flushPort_old {p : Nat} (h : s.old = o) : (flushPort p s).old = o := (old_of_aside (flushPort_aside rfl)).trans h

theorem declare_old {reach : Lease → Nat → Bool} {owner decl : Nat} (h : s.old = o) : (declare reach owner decl s).old = o :=
  ite_old h (applyAll_old (fun _ _ h => h) h)

/-! ### Tiles -/

theorem tileClear_old {n : Nat} (h : s.old = o) : (tileClear n s).old = o := h

theorem tileForm_old {t : TileRec} (h : s.old = o) : (tileForm t s).old = o := by
  refine ite_old ?_ (ite_old ?_ ?_) <;> simpa only [setB, setF_old] using tileClear_old h

theorem setUnit_old {a bt bp : Fld} {u : Nat} {b : Bool} (h : s.old = o) : (setUnit a bt bp u b s).old = o := ite_old h h

theorem writeDone_old {u : Nat} (h : s.old = o) : (writeDone u s).old = o := applyAll_old (fun _ _ h => raise_old h) h

theorem tileWakeClear_old {n : Nat} (h : s.old = o) : (tileWakeClear n s).old = o := writeDone_old (setUnit_old (setUnit_old h))

theorem txEmpty_old {n i : Nat} (h : s.old = o) : (txEmpty n i s).old = o := by
  unfold txEmpty
  split
  · exact (old_of_aside (dropReplica_aside rfl)).trans h
  · exact h

/-- Queues emptied, their replicas discarded and counted. -/
theorem flushQueues_old {α : Type} {l : List α} {k : α → Nat} {g : α → Replica → State → State}
    (hg : ∀ c r t, t.old = o → (g c r t).old = o) (h : s.old = o) :
    (applyAll l (fun c t => applyAll (queueAt (k c) t) (g c) (setQueue (k c) [] t)) s).old = o :=
  applyAll_old (fun c _ ht => applyAll_old (hg c) ht) h

theorem canFlush_old {n : Nat} (h : s.old = o) : (canFlush n s).old = o :=
  flushQueues_old (fun _ _ _ ht => discard_old (p := 17) (i := cQdrop) ht) (applyAll_old (fun _ _ ht => txEmpty_old ht) h)

theorem serFlush_old {n : Nat} (h : s.old = o) : (serFlush n s).old = o :=
  flushQueues_old (fun _ _ _ ht => discard_old (p := 17) (i := cQdrop) ht) (applyAll_old (fun _ _ ht => ht) h)

theorem rebuildTiles_old {banks : Nat} {x : Structure} (h : s.old = o) : (rebuildTiles banks x s).old = o :=
  applyAll_old (fun _ _ h => tileForm_old h) (applyAll_old (fun _ _ h => tileClear_old (tileWakeClear_old h))
    (applyAll_old (fun _ _ h => ite_old (canFlush_old h) (serFlush_old h)) h))

/-! ### Ports -/

theorem flushUnit_old {p : Nat} (h : s.old = o) : (flushUnit p s).old = o :=
  ite_old (flushQueues_old (fun _ _ _ ht => discard_old ht) h) (flushPort_old h)

theorem linkOff_old {p : Nat} (h : s.old = o) : (linkOff p s).old = o := ite_old (flushPort_old h) (flushPort_old h)

theorem portStop_old {p : Nat} (h : s.old = o) : (portStop p s).old = o :=
  ite_old (ite_old (raise_old (linkOff_old h)) h) (linkOff_old h)

theorem portForm_old {b : BindRec} (h : s.old = o) : (portForm b s).old = o := ite_old h (ite_old h h)

theorem portStart_old {p : Nat} (h : s.old = o) : (portStart p s).old = o := ite_old (ite_old h (raise_old h)) h

theorem rebuildPorts_old {old new : List BindRec} (h : s.old = o) : (rebuildPorts old new s).old = o := by
  refine applyAll_old (fun _ _ ht => ?_) (applyAll_old (fun _ _ ht => ite_old ht (ite_old (portStop_old ht) (flushUnit_old ht))) h)
  split
  · exact portStart_old (portForm_old ht)
  · exact ht

/-! ### The cabinet -/

theorem dropToken_old {n : Nat} (h : s.old = o) : (dropToken n s).old = o := ite_old (s := setF _ _ _) h h

theorem setLampState_old {n st : Nat} (h : s.old = o) : (setLampState n st s).old = o := ite_old h h

theorem lampOff_old {n : Nat} (h : s.old = o) : (lampOff n s).old = o :=
  setLampState_old (by simp only [setB, setF_old]; exact dropToken_old h)

theorem groupsOff_old {mask : Nat} (h : s.old = o) : (groupsOff mask s).old = o := applyAll_old (fun _ _ h => lampOff_old h) h

theorem cabForm_old {c : CabRec} (h : s.old = o) : (cabForm c s).old = o := by
  cases c <;> exact h

theorem rebuildCabinet_old {old new : List CabRec} (h : s.old = o) : (rebuildCabinet old new s).old = o := by
  refine applyAll_old (fun _ _ ht => ?_) (applyAll_old (fun _ _ ht => ?_) h)
  · split
    · exact cabForm_old ht
    all_goals exact ht
  · split
    · exact ite_old (lampOff_old ht) ht
    · exact groupsOff_old ht
    · exact ht

/-! ### Lodgers, POLICY, REGSET and the tables -/

theorem lodgerNew_old {lid : Nat} (h : s.old = o) : (lodgerNew lid s).old = o := (old_of_aside (lodgerNew_aside rfl)).trans h

theorem rebuildLodgers_old {old new : List LodgerRec} (h : s.old = o) : (rebuildLodgers old new s).old = o :=
  applyAll_old (fun _ _ ht => ite_old ht ((old_of_aside (contextFault_aside rfl)).trans ht)) (applyAll_old (fun _ _ ht => lodgerNew_old ht) h)

theorem setDebounced_old {n : Nat} {b : Bool} (h : s.old = o) : (setDebounced n b s).old = o :=
  ite_old h (ite_old h (ite_old h (ite_old h h)))

theorem policyForm_old {p : PolicyRec} (h : s.old = o) : (policyForm p s).old = o := by
  have hwires : (debounceLength p.wdeb (applyPolarity (p.wpol % 16) s)).old = o :=
    applyAll_old (fun _ _ ht => ite_old (setDebounced_old ht) ht) h
  simp only [policyForm, setB, setF_old]
  exact hwires

theorem writeFields_old {p : Acc → Bool} {d : RegDesc} {a w : Nat} (h : s.old = o) : (writeFields p d a w s).old = o := by
  refine applyAll_old (fun f t ht => ite_old ht ?_) h
  split <;> exact ht

theorem applyStaged_old {x : Staged} (h : s.old = o) : (applyStaged x s).old = o := by
  refine ite_old h ?_
  split
  · exact writeFields_old h
  · exact h

theorem presetReg_old {r : RegRec} (h : s.old = o) : (presetReg r s).old = o := by
  refine ite_old h (ite_old (ite_old (ite_old h h) h) (ite_old (ite_old h h) ?_))
  split
  · exact h
  · exact ite_old (applyStaged_old h) (writeFields_old h)

theorem gateCommit_old {p : Nat} (h : s.old = o) : (gateCommit p s).old = o := ite_old h h

theorem applyRegset_old {l : List RegRec} (h : s.old = o) : (applyRegset l s).old = o :=
  applyAll_old (fun _ _ h => gateCommit_old h) (applyAll_old (fun _ _ h => presetReg_old h) h)

theorem seedsReset_old (h : s.old = o) : (seedsReset s).old = o := by
  simp only [seedsReset, setF_old]
  exact applyAll_old (fun _ _ ht => ht) h

theorem rebuildTables_old {l : List TableRec} (h : s.old = o) : (rebuildTables l s).old = o := by
  have hregs : (applyAll l tableRegs s).old = o := applyAll_old (fun _ _ h => h) h
  refine ite_old ?_ hregs
  simp only [countL2, setF_old]
  exact seedsReset_old hregs

theorem oldFreed_old (s : State) : (oldFreed s).old = none := by
  unfold oldFreed
  split
  · next h => exact h
  · exact applyAll_old (fun _ _ h => declare_old h) rfl

end

section
/-! Elaborated one after another, as above: the keys of fields are compared by a tactic. -/

set_option Elab.async false

/-! ## Opens (R166, R198) -/

/-- A lease is granted to an owner with a free record of its own who is not fenced. -/
theorem grantLease_eq {kind res tag n : Nat} {dur : Option Nat} {s : State} (hfence : ownerFenced tag s = false) (hfree : freeLease tag s = some n) :
    grantLease kind res tag dur s =
      some (n, setLease n { state := .held, kind := kind, res := res, owner := tag, dur := dur, left := dur } s) := by
  simp [grantLease, hfence, hfree]

theorem leaseOf_setLease_self (n : Nat) (l : Lease) (s : State) : leaseOf n (setLease n l s) = l := tabGet_tabPut_self _ _ _ _

/-- What an open that R166 lets through does. -/
theorem deltaOpen_eq {rq : Requester} {n : Nat} {s : State} (hidle : getF IMG_DLTSTAT_state s = 0) (hdrain : isSet IMG_RCFG_drain s = false)
    (hmode : mode s = mService ∨ mode s = mPartial ∨ mode s = mDegraded) (hfence : ownerFenced (rqTag rq) s = false)
    (hfree : freeLease (rqTag rq) s = some n) :
    deltaOpen rq s = (setF IMG_DLTSTAT_state 1 <| setF IMG_DLTSTAT_owner (ownerCode rq) <| setF IMG_DLTBLKS_ok 0 <| setF IMG_DLTBLKS_bad 0
      { setLease n { state := .held, kind := 6, owner := rqTag rq, dur := some (getF IMG_DLTLEASE_ms s)
                     left := some (getF IMG_DLTLEASE_ms s) } s with loader := { owner := rqTag rq, lease := n } }) := by
  have hserves : (!(decide (mode s = mService) || decide (mode s = mPartial) || decide (mode s = mDegraded))) = false := by
    rcases hmode with h | h | h <;> simp [h]
  unfold deltaOpen
  dsimp only
  rw [if_neg (by simp [hidle, hdrain]), if_neg (Bool.eq_false_iff.1 hserves), grantLease_eq hfence hfree]

theorem completes_deltaOpen {rq : Requester} {s : State} (hadm : admits rq true 0x40050080 0 s = true) (hidle : getF IMG_DLTSTAT_state s = 0)
    (hdrain : isSet IMG_RCFG_drain s = false) (hmode : mode s = mService ∨ mode s = mPartial ∨ mode s = mDegraded)
    (hfence : ownerFenced (rqTag rq) s = false) (hfree : (freeLease (rqTag rq) s).isSome = true) : Completes (.deltaOpen rq) s fun t =>
    getF IMG_DLTSTAT_state t = 1 ∧ t.loader.owner = rqTag rq ∧ (leaseOf t.loader.lease t).state = .held ∧
    (leaseOf t.loader.lease t).owner = rqTag rq ∧ t.bus = .done := by
  obtain ⟨n, hn⟩ := Option.isSome_iff_exists.1 hfree
  have hopen := deltaOpen_eq (s := busDone s) hidle hdrain hmode hfence hn
  refine completes_of_eq (congrArg Host.Outcome.next ((gate_of_admits hadm _).trans hopen)) ?_
  exact ⟨getF_setF_self _ _ _, rfl, congrArg Lease.state (leaseOf_setLease_self n _ _), congrArg Lease.owner (leaseOf_setLease_self n _ _), rfl⟩

/-! ## Deliveries (R167) -/

/-- What a delivery that R167 lets through does. -/
theorem deltaDeliver_eq {off len : Nat} {src : Option (List Byte)} {s : State} (hidle : isSet IMG_DLTSTAT_busy s = false)
    (hplace : placeOk off len s = true) :
    deltaDeliver off len src s =
      (setB IMG_DLTSTAT_busy true <| setLease s.loader.lease { leaseOf s.loader.lease s with left := (leaseOf s.loader.lease s).dur }
        { s with loader := { s.loader with copying := some { off := off, bytes := src } } }) := by
  simp [deltaDeliver, hidle, hplace]

theorem completes_deltaDelivery {rq : Requester} {w : Word} {s : State} (hadm : admits rq true 0x40050090 0 s = true) (hgo : w.getLsbD 0 = true)
    (howns : ownsSession rq s = true) (hidle : isSet IMG_DLTSTAT_busy s = false)
    (hplace : placeOk (getF IMG_DLTOFF_off s) (getF IMG_DLTLEN_len s) s = true) : Completes (.deltaDelivery rq w) s fun t =>
    isSet IMG_DLTSTAT_busy t = true ∧ t.loader.copying.isSome = true ∧ t.bus = .done ∧ t.loader.dHead = s.loader.dHead := by
  have hcmd : cmdDeltaDelivery rq w s = deltaDeliver (getF IMG_DLTOFF_off s) (getF IMG_DLTLEN_len s)
      (sourceBytes (rqWorld rq) (getF IMG_DLTSRC_addr s) (min (getF IMG_DLTLEN_len s) 65536) s) (busDone s) := by
    simp [cmdDeltaDelivery, hgo, howns]
  refine completes_of_eq (congrArg Host.Outcome.next ((gate_of_admits hadm _).trans (hcmd.trans (deltaDeliver_eq hidle hplace)))) ?_
  exact ⟨isSet_setF_self _ _ _, rfl, rfl, rfl⟩

/-! ## The end of a session (R177) -/

/-- The fields that the end of a session writes. -/
def sessionFields : List Fld := [IMG_DLTSTAT_state, IMG_DLTSTAT_busy, IMG_DLTSTAT_owner, IMG_DLTSTAT_end]

/-- No session is open, the last one is shown with the end code `code`, and the loader holds nothing. -/
def SessionOver (code : Nat) (s : State) : Prop :=
  getF IMG_DLTSTAT_state s = 0 ∧ getF IMG_DLTSTAT_end s = code ∧ isSet IMG_DLTSTAT_busy s = false ∧ s.loader = {}

theorem SessionOver.aside {code : Nat} {s t : State} (h : SessionOver code s) (ht : HasAside (asideView s) t) : SessionOver code t := by
  obtain ⟨hstate, hend, hbusy, hloader⟩ := h
  exact ⟨(getF_of_aside ht (by decide)).trans hstate, (getF_of_aside ht (by decide)).trans hend, (isSet_of_aside ht (by decide)).trans hbusy,
    (loader_of_aside ht).trans hloader⟩

theorem SessionOver.setF {code n : Nat} {f : Fld} {s : State} (h : SessionOver code s) (hf : ∀ g ∈ sessionFields, g.key ≠ f.key := by decide) :
    SessionOver code (setF f n s) := by
  obtain ⟨hstate, hend, hbusy, hloader⟩ := h
  exact ⟨(getF_setF_ne n s (hf _ (by decide))).trans hstate, (getF_setF_ne n s (hf _ (by decide))).trans hend,
    (isSet_setF_ne n s (hf _ (by decide))).trans hbusy, hloader⟩

theorem sessionClear_over {code : Nat} (hcode : code < 8) (s : State) : SessionOver code (sessionClear code s) := by
  have hwidth : code % 2 ^ IMG_DLTSTAT_end.width = code := Nat.mod_eq_of_lt hcode
  refine ⟨getF_setF_self _ _ _, ?_, ?_, rfl⟩
  · simp (disch := decide) only [sessionClear, setB, getF_setF_ne, getF_setF_self, hwidth]
  · simp (disch := decide) only [sessionClear, setB, isSet_setF_ne, isSet_setF_self]
    rfl

theorem deltaReport_aside {v : AsideView} {owner : Nat} {s : State} (h : HasAside v s) : HasAside v (deltaReport owner s) :=
  ite_aside (hieSend_aside h) h

theorem deltaEnd_of_open {code : Nat} {s : State} (hopen : getF IMG_DLTSTAT_state s ≠ 0) :
    deltaEnd code s = deltaReport s.loader.owner (sessionClear code (setLease s.loader.lease {} s)) := if_neg hopen

theorem deltaEnd_over {code : Nat} {s : State} (hcode : code < 8) (hopen : getF IMG_DLTSTAT_state s ≠ 0) : SessionOver code (deltaEnd code s) := by
  rw [deltaEnd_of_open hopen]
  exact (sessionClear_over hcode _).aside (deltaReport_aside rfl)

/-- The lease of a session that ends is free. -/
theorem leaseOf_deltaEnd {code : Nat} {s : State} (hopen : getF IMG_DLTSTAT_state s ≠ 0) : leaseOf s.loader.lease (deltaEnd code s) = {} := by
  rw [deltaEnd_of_open hopen, leaseOf_of_aside (deltaReport_aside rfl)]
  exact leaseOf_setLease_self _ _ s

/-- The other image registers stay as they are. -/
theorem getF_deltaEnd {code : Nat} {f : Fld} (s : State) (hf : onImg f = true := by decide)
    (hne : ∀ g ∈ sessionFields, f.key ≠ g.key := by decide) : getF f (deltaEnd code s) = getF f s := by
  unfold deltaEnd
  split
  · rfl
  · rw [getF_of_aside (deltaReport_aside rfl) hf, sessionClear, getF_setF_ne _ _ (hne _ (by decide)), setB, getF_setF_ne _ _ (hne _ (by decide)),
      getF_setF_ne _ _ (hne _ (by decide)), getF_setF_ne _ _ (hne _ (by decide))]
    rfl

theorem getF_showFail {f : ImgFail} {g : Fld} (s : State)
    (hg : ∀ x ∈ [IMG_STATUS_code, IMG_STATUS_sect, IMG_DETAIL_rec, IMG_DETAIL_off], g.key ≠ x.key := by decide) :
    getF g (showFail f s) = getF g s := by
  rw [showFail, getF_setF_ne _ _ (hg _ (by decide)), getF_setF_ne _ _ (hg _ (by decide)), getF_setF_ne _ _ (hg _ (by decide)),
    getF_setF_ne _ _ (hg _ (by decide))]

theorem state_of_ownsSession {rq : Requester} {s : State} (h : ownsSession rq s = true) : getF IMG_DLTSTAT_state s = 1 := by
  simp only [ownsSession, Bool.and_eq_true, decide_eq_true_eq] at h
  exact h.1.1

theorem completes_deltaAbort {rq : Requester} {s : State} (hadm : admits rq true 0x40050080 0 s = true) (howns : ownsSession rq s = true) :
    Completes (.deltaAbort rq) s fun t =>
    getF IMG_DLTSTAT_state t = 0 ∧ getF IMG_DLTSTAT_end t = 1 ∧ t.loader = {} ∧ (leaseOf s.loader.lease t).state = .free := by
  have hopen : getF IMG_DLTSTAT_state (busDone s) ≠ 0 := by
    have hstate : getF IMG_DLTSTAT_state (busDone s) = 1 := state_of_ownsSession howns
    rw [hstate]; decide
  refine completes_of_eq (congrArg Host.Outcome.next ((gate_of_admits hadm _).trans (if_pos howns))) ?_
  obtain ⟨hstate, hend, -, hloader⟩ := deltaEnd_over (code := 1) (by decide) hopen
  exact ⟨hstate, hend, hloader, congrArg Lease.state (leaseOf_deltaEnd hopen)⟩

/-! ## The end of a copy (R167, R145) -/

/-- No copy is under way, and none is shown. -/
def NoCopy (s : State) : Prop := s.loader.copying = none ∧ isSet IMG_DLTSTAT_busy s = false

theorem NoCopy.aside {s t : State} (h : NoCopy s) (ht : HasAside (asideView s) t) : NoCopy t :=
  ⟨(congrArg LoaderState.copying (loader_of_aside ht)).trans h.1, (isSet_of_aside ht (by decide)).trans h.2⟩

theorem NoCopy.setF {f : Fld} {n : Nat} {s : State} (h : NoCopy s) (hf : IMG_DLTSTAT_busy.key ≠ f.key := by decide) : NoCopy (setF f n s) :=
  ⟨h.1, (isSet_setF_ne n s hf).trans h.2⟩

theorem deltaRefuse_noCopy {why : Nat} {s : State} (h : NoCopy s) : NoCopy (deltaRefuse why s) := NoCopy.setF (NoCopy.setF h)

theorem deltaEnd_noCopy {code : Nat} {s : State} (hcode : code < 8) (h : NoCopy s) : NoCopy (deltaEnd code s) := by
  by_cases hopen : getF IMG_DLTSTAT_state s = 0
  · rwa [deltaEnd, if_pos hopen]
  · obtain ⟨-, -, hbusy, hloader⟩ := deltaEnd_over hcode hopen
    exact ⟨by rw [hloader], hbusy⟩

theorem headPiece_noCopy {b : List Byte} {s : State} (h : NoCopy s) : NoCopy (headPiece b s) := by
  unfold headPiece
  extract_lets hd put room
  have hroom : NoCopy (if room then put s else deltaRefuse 3 s) := by
    split
    · exact h
    · exact deltaRefuse_noCopy h
  split
  · split
    · exact deltaEnd_noCopy (by decide) (NoCopy.setF (NoCopy.setF (NoCopy.setF (NoCopy.setF (NoCopy.setF h)))))
    · exact hroom
  · exact hroom

theorem blockPiece_noCopy {blk off bad : Nat} {b : List Byte} {s : State} (h : NoCopy s) : NoCopy (blockPiece blk off bad b s) := by
  unfold blockPiece
  extract_lets i d fail
  have hfail {t : State} (ht : NoCopy t) : NoCopy (fail t) := ht.setF
  split
  · exact h
  · have hload : NoCopy (hwLoad 3 d.blkkey 4 s).2 := h.aside (hwLoad_aside rfl)
    split
    · next e => rw [e] at hload; exact hfail hload
    · next k s1 e =>
      rw [e] at hload
      have hcmac : NoCopy (hwCmac (slotOf k s1).key (leBytes 4 i ++ b) bad s1).2 := hload.aside (hwCmac_aside rfl)
      split
      · next e2 => rw [e2] at hcmac; exact hfail hcmac
      · next e2 =>
        rw [e2] at hcmac
        split
        · exact NoCopy.setF hcmac
        · exact hfail hcmac

theorem completes_deltaDeliveryDone {bad : Nat} {s : State} (hcopy : s.loader.copying.isSome = true) : Completes (.deltaDeliveryDone bad) s fun t =>
    t.loader.copying = none ∧ isSet IMG_DLTSTAT_busy t = false := by
  refine completes_of_eq rfl (show NoCopy _ from ?_)
  split
  · next hnone => simp [hnone] at hcopy
  · extract_lets owner _ s1 _ s2
    have hs1 : NoCopy s1 := ⟨rfl, isSet_setF_self _ _ _⟩
    have hs2 : NoCopy s2 := by
      unfold s2
      split
      · exact deltaRefuse_noCopy hs1
      · split
        · exact headPiece_noCopy hs1
        · split
          · exact headPiece_noCopy hs1
          · split
            · exact hs1
            · exact blockPiece_noCopy hs1
    split
    · exact hs2
    · exact hs2.aside (deltaReport_aside rfl)

/-! ## Closes (R168) -/

/-- A delta that fails after its close ends its session with end 4, and the image status says so. -/
theorem closeFail_shows {f : ImgFail} {s : State} (hopen : getF IMG_DLTSTAT_state s ≠ 0) :
    SessionOver 4 (closeFail f s) ∧ getF IMG_STATUS_phase (closeFail f s) = 7 := by
  have hkept : getF IMG_DLTSTAT_state (setF IMG_STATUS_phase 7 (showFail f s)) = getF IMG_DLTSTAT_state s :=
    (getF_setF_ne _ _ (by decide)).trans (getF_showFail s)
  have hraise : HasAside (asideView (deltaEnd 4 (setF IMG_STATUS_phase 7 (showFail f s)))) (closeFail f s) := raise_aside rfl
  refine ⟨(deltaEnd_over (by decide) (hkept.symm ▸ hopen)).aside hraise, ?_⟩
  rw [getF_of_aside hraise (by decide), getF_deltaEnd, getF_setF_self]
  rfl

theorem code_of_closeFail {f : ImgFail} (s : State) : getF IMG_STATUS_code (closeFail f s) = f.code % 256 := by
  have hraise : HasAside (asideView (deltaEnd 4 (setF IMG_STATUS_phase 7 (showFail f s)))) (closeFail f s) := raise_aside rfl
  rw [getF_of_aside hraise (by decide), getF_deltaEnd, getF_setF_ne _ _ (by decide), showFail, getF_setF_self]
  rfl

/-- A close before every block has passed fails (R168). -/
theorem deltaClose_of_missing {s : State} (hidle : isSet IMG_DLTSTAT_busy s = false) (hblocks : blocksWhole s = false) :
    deltaClose s = closeFail ⟨fDELTABLOCK, 0, 0, 0⟩ s := by
  simp [deltaClose, hidle, hblocks]

/-- A close accepts the delta or fails it. -/
theorem deltaClose_accepts_or_fails {s : State} (hidle : isSet IMG_DLTSTAT_busy s = false) :
    (getF IMG_DLTSTAT_state (deltaClose s) = 3 ∧ (deltaClose s).loader.accepted = true) ∨ ∃ f, deltaClose s = closeFail f s := by
  unfold deltaClose
  rw [if_neg (Bool.eq_false_iff.1 hidle)]
  split
  · exact .inr ⟨_, rfl⟩
  · extract_lets img x owner s1
    split
    · exact .inr ⟨_, rfl⟩
    · have hshown {t : State} : HasAside (asideView t) (deltaReport owner (refreshMode t)) := deltaReport_aside (refreshMode_aside rfl)
      refine .inl ⟨?_, ?_⟩
      · rw [getF_of_aside hshown (by decide), getF_setF_ne _ _ (by decide), getF_setF_self]
        rfl
      · rw [loader_of_aside hshown]
        rfl

theorem completes_deltaClose {rq : Requester} {s : State} (hadm : admits rq true 0x40050080 0 s = true) (howns : ownsSession rq s = true)
    (hidle : isSet IMG_DLTSTAT_busy s = false) : Completes (.deltaClose rq) s fun t =>
    (getF IMG_DLTSTAT_state t = 3 ∧ t.loader.accepted = true ∨
      getF IMG_DLTSTAT_state t = 0 ∧ getF IMG_DLTSTAT_end t = 4 ∧ getF IMG_STATUS_phase t = 7) ∧
    (blocksWhole s = false → getF IMG_DLTSTAT_state t = 0 ∧ getF IMG_STATUS_code t = fDELTABLOCK) := by
  have hopen : getF IMG_DLTSTAT_state (busDone s) ≠ 0 := by
    have hstate : getF IMG_DLTSTAT_state (busDone s) = 1 := state_of_ownsSession howns
    rw [hstate]; decide
  refine completes_of_eq (congrArg Host.Outcome.next ((gate_of_admits hadm _).trans (if_pos howns))) ⟨?_, fun hblocks => ?_⟩
  · rcases deltaClose_accepts_or_fails (s := busDone s) hidle with haccepted | ⟨f, hf⟩
    · exact .inl haccepted
    · obtain ⟨⟨hstate, hend, -, -⟩, hphase⟩ := closeFail_shows (f := f) hopen
      rw [hf]
      exact .inr ⟨hstate, hend, hphase⟩
  · rw [deltaClose_of_missing (s := busDone s) hidle hblocks]
    exact ⟨(closeFail_shows hopen).1.1, code_of_closeFail _⟩

/-! ## Preparation, its locks and its tiles (R171 to R173, R176) -/

/-- A failure in preparation ends the session with end 5 and is shown. -/
theorem rollback_shows (f : ImgFail) (s : State) : SessionOver 5 (rollback f s) ∧ getF IMG_STATUS_phase (rollback f s) = 7 := by
  have hshown {t : State} : HasAside (asideView t) (refreshMode (raise 0 t)) := refreshMode_aside (raise_aside rfl)
  refine ⟨SessionOver.aside ?_ hshown, ?_⟩
  · exact SessionOver.setF (SessionOver.setF (SessionOver.setF (SessionOver.setF (SessionOver.setF (sessionClear_over (by decide) _)))))
  · unfold rollback
    rw [getF_of_aside hshown (by decide), getF_setF_self]
    rfl

theorem completes_deltaPrepareDone {s : State} (hstate : getF IMG_DLTSTAT_state s = 3) (hnew : s.loader.prepared = false) :
    Completes .deltaPrepareDone s fun t => (checkPrepare s = none → t.loader.prepared = true) ∧
    (checkPrepare s ≠ none → getF IMG_DLTSTAT_state t = 0 ∧ getF IMG_DLTSTAT_end t = 5 ∧ getF IMG_STATUS_phase t = 7) := by
  refine completes_of_eq (congrArg Host.Outcome.next (onlyIf_true (by simp [hstate, hnew]) _ s)) ?_
  dsimp only
  split
  · next f hf =>
    obtain ⟨⟨hidle, hend, -, -⟩, hphase⟩ := rollback_shows f s
    exact ⟨fun h => absurd (hf.symm.trans h) (by simp), fun _ => ⟨hidle, hend, hphase⟩⟩
  · next hok =>
    refine ⟨fun _ => ?_, fun h => absurd hok h⟩
    have htakes {l : List Nat} {t : State} : (applyAll l loaderTakes t).loader = t.loader :=
      loader_of_form (applyAll_form (fun _ _ h => loaderTakes_form h) rfl)
    split
    · rw [loader_of_form (quiesce_form rfl), htakes]
    · rw [htakes]

theorem completes_deltaLockAcquired {b : Nat} {r : List Nat} {s : State} (hwants : s.loader.wants = b :: r) (hfree : lockFree b s = true) :
    Completes .deltaLockAcquired s fun t => t.loader.wants = r.filter (· ≠ b) := by
  have hfirst : s.loader.wants.find? (fun b => lockFree b s) = some b := by
    rw [hwants]
    exact List.find?_cons_of_pos hfree
  have hrest : s.loader.wants.filter (· ≠ b) = r.filter (· ≠ b) := by rw [hwants, List.filter_cons_of_neg (by simp)]
  refine completes_of_eq (congrArg Host.Outcome.next (by rw [hfirst])) ?_
  dsimp only
  have htaken :
      (loaderTakes b { s with loader := { s.loader with wants := s.loader.wants.filter (· ≠ b) } }).loader.wants = r.filter (· ≠ b) := by
    rw [loader_of_form (loaderTakes_form rfl)]
    exact hrest
  split
  · rw [loader_of_form (quiesce_form rfl), htaken]
  · exact htaken

theorem completes_tileQuiet {n : Nat} {s : State} (hstate : getF IMG_DLTSTAT_state s = 4) (hmine : (deltaTiles s).contains n = true)
    (hnew : tileBit FAB_QUIET0_q FAB_QUIET1_q n s = false) (hstill : tileStill n s = true) : Completes (.tileQuiet n) s fun t =>
    tileBit FAB_QUIET0_q FAB_QUIET1_q n t = true := by
  have hn : n < 48 := by
    have hmem : n ∈ usedTiles s := List.mem_of_mem_filter (List.contains_iff_mem.1 hmine)
    exact List.mem_range.1 (List.mem_of_mem_filter hmem)
  refine completes_of_eq (congrArg Host.Outcome.next (onlyIf_true (by simp only [hstate, hmine, hnew, hstill]; rfl) _ s)) ?_
  exact tileBit_setTileBit hn rfl rfl

/-! ## The cut-over and the drain (R169 to R171, R174, R175) -/

theorem showDigest_old {d : List Byte} {o : Option OldStructure} {s : State} (h : s.old = o) : (showDigest d s).old = o :=
  applyAll_old (fun _ _ ht => ht) h

/-- The digest's registers are none of the session's. -/
theorem showDigest_over {code : Nat} {d : List Byte} {s : State} (h : SessionOver code s) : SessionOver code (showDigest d s) := by
  refine List.foldlRecOn _ _ h fun t ht i hi => ht.setF fun g hg => ?_
  have hkey : ∀ g ∈ sessionFields, 0x40050094 * 32 ≤ g.key := by decide
  have hlow := hkey g hg
  have hindex := List.mem_range.1 hi
  simp only [Fld.key, IMG_CURDIG_dig] at hlow ⊢
  omega

theorem completes_deltaCutOver {s : State} (hstate : getF IMG_DLTSTAT_state s = 4) (hlocks : s.loader.wants = [])
    (hquiet : ((deltaTiles s).all fun n => tileBit FAB_QUIET0_q FAB_QUIET1_q n s) = true) : Completes .deltaCutOver s fun t =>
    getF IMG_DLTSTAT_state t = 0 ∧ isSet IMG_RCFG_drain t = true ∧ getF IMG_RCFG_gen t = (getF IMG_RCFG_gen s + 1) % 2 ^ IMG_RCFG_gen.width ∧
    t.old.isSome = true ∧ t.loader = {} := by
  refine completes_of_eq (congrArg Host.Outcome.next (onlyIf_true (by simp [hstate, hlocks, hquiet]) _ s)) ?_
  extract_lets x img ts old s1 s2 s3 s4 s5 s6
  have hs1 : s1.old = some old := rebuildTables_old (rebuildTiles_old rfl)
  have hs2 : s2.old = some old := rebuildCabinet_old (rebuildPorts_old hs1)
  have hs3 : s3.old = some old := rebuildLodgers_old hs2
  have hs4 : s4.old = some old := ite_old (policyForm_old hs3) hs3
  have hs5 : s5.old = some old := applyRegset_old hs4
  clear_value s5
  have hover : SessionOver 0 s6 :=
    SessionOver.setF (SessionOver.setF (SessionOver.setF (SessionOver.setF (SessionOver.setF (showDigest_over
      (SessionOver.setF (sessionClear_over (by decide) s5)))))))
  have hold : s6.old = some old := by
    simp only [s6, setB, setF_old]
    exact showDigest_old hs5
  have hdrain : isSet IMG_RCFG_drain s6 = true := by
    simp (disch := decide) only [s6, setB, isSet_setF_ne, isSet_setF_self]
    rfl
  have hgen : getF IMG_RCFG_gen s6 = (getF IMG_RCFG_gen s + 1) % 2 ^ IMG_RCFG_gen.width := getF_setF_self _ _ _
  clear_value s6
  have hafter : HasAside (asideView s6) (wearBump 0x0502 1 1 (startup (refreshBase (ratedChanged s6)))) :=
    setWearItem_aside (startup_aside (refreshBase_aside (ratedChanged_aside rfl)))
  obtain ⟨hidle, -, -, hloader⟩ := hover.aside hafter
  exact ⟨hidle, (isSet_of_aside hafter (by decide)).trans hdrain, (getF_of_aside hafter (by decide)).trans hgen,
    by rw [old_of_aside hafter, hold]; rfl, hloader⟩

theorem completes_deltaDrainEnd {s : State} (hdrain : isSet IMG_RCFG_drain s = true) (hgone : oldRemains s = false) :
    Completes .deltaDrainEnd s fun t => isSet IMG_RCFG_drain t = false ∧ t.old = none := by
  refine completes_of_eq (congrArg Host.Outcome.next (onlyIf_true (by simp [hdrain, hgone]) _ s)) ?_
  have hafter : HasAside (asideView (setB IMG_RCFG_drain false (loaderRelease (oldFreed s)))) _ := refreshMode_aside (raise_aside (e := 2) rfl)
  exact ⟨(isSet_of_aside hafter (by decide)).trans (isSet_setF_self _ _ _), (old_of_aside hafter).trans (oldFreed_old s)⟩

end

/-- Settles O24: one lemma for each command; what frames, mode changes and the ledger's items leave aside carries the session's record past them. -/
theorem deltaCommandsComplete : Obligations.DeltaCommandsComplete := by
  unfold Obligations.DeltaCommandsComplete
  exact ⟨
    fun rq s hadm hidle hdrain hmode hfence hfree => completes_deltaOpen hadm hidle hdrain hmode hfence hfree,
    fun rq w s hadm hgo howns hidle hplace => completes_deltaDelivery hadm hgo howns hidle hplace,
    fun bad s hcopy => completes_deltaDeliveryDone hcopy,
    fun rq s hadm howns hidle => completes_deltaClose hadm howns hidle,
    fun rq s hadm howns => completes_deltaAbort hadm howns,
    fun s hstate hnew => completes_deltaPrepareDone hstate hnew,
    fun b r s hwants hfree => completes_deltaLockAcquired hwants hfree,
    fun n s hstate hmine hnew hstill => completes_tileQuiet hstate hmine hnew hstill,
    fun s hstate hlocks hquiet => completes_deltaCutOver hstate hlocks hquiet,
    fun s hdrain hgone => completes_deltaDrainEnd hdrain hgone⟩

end Sys2Proof.Machine

/-! # What switch, table, page and lodger commands leave alone

From one state to another, memory reads as before and so does every register field but those of a list (`FrameBut`). Each function that the
commands of this family call has one lemma that names its fields; a command's frame is put together from these. -/

namespace Sys2Proof.Machine

/-- Every byte of memory and every register field but those of `l` reads in `t` as in `s`. -/
def FrameBut (l : List Fld) (s t : State) : Prop := RegsBut l s t ∧ SameMem s t

/-! ## The operations on states -/

section
variable {l m : List Fld} {s t u : State}

theorem FrameBut.refl (l : List Fld) (s : State) : FrameBut l s s := ⟨RegsBut.refl l s, fun _ => rfl⟩

theorem FrameBut.trans (h : FrameBut l s t) (h' : FrameBut l t u) : FrameBut l s u :=
  ⟨h.1.trans h'.1, fun a => (h'.2 a).trans (h.2 a)⟩

theorem FrameBut.mono (h : FrameBut l s t) (hl : l ⊆ m) : FrameBut m s t := ⟨h.1.mono hl, h.2⟩

/-- Stores other than the registers and memory changed. -/
theorem FrameBut.upd (h : FrameBut l s t) (hregs : u.regs = t.regs) (hmem : u.mem = t.mem) : FrameBut l s u :=
  h.trans ⟨(RegsBut.refl l t).of_regs hregs, SameMem.of_mem hmem⟩

theorem FrameBut.setF {f : Fld} {n : Nat} (h : FrameBut l s t) (hf : f ∈ l) : FrameBut l s (Machine.setF f n t) :=
  ⟨h.1.setF hf n, h.2⟩

theorem FrameBut.setB {f : Fld} {b : Bool} (h : FrameBut l s t) (hf : f ∈ l) : FrameBut l s (Machine.setB f b t) := h.setF hf

theorem FrameBut.incF {f : Fld} {n : Nat} (h : FrameBut l s t) (hf : f ∈ l) : FrameBut l s (Machine.incF f n t) := h.setF hf

theorem FrameBut.setFree {f : Fld} (h : FrameBut l s t) (hf : f ∈ l) : FrameBut l s (Machine.setFree f t) := (h.upd rfl rfl).setF hf

theorem FrameBut.raise {e : Nat} (h : FrameBut l s t) (he : eventFields e ⊆ l) : FrameBut l s (Machine.raise e t) :=
  h.trans ⟨(raise_frame e t).2.mono he, SameMem.of_mem (raise_mem e t)⟩

theorem FrameBut.ite {c : Prop} [Decidable c] (h : FrameBut l s t) (h' : FrameBut l s u) : FrameBut l s (if c then t else u) := by
  split <;> assumption

theorem FrameBut.onlyIf {c : Bool} {g : State → State} (hg : FrameBut l s (g s)) : FrameBut l s (Machine.onlyIf c g s) :=
  onlyIf_of c g (FrameBut.refl l s) hg

theorem FrameBut.busDone (h : FrameBut l s t) : FrameBut l s (Machine.busDone t) := h.upd rfl rfl

theorem FrameBut.busError (h : FrameBut l s t) : FrameBut l s (Machine.busError t) := h.upd rfl rfl

theorem FrameBut.emit {e : Emission} (h : FrameBut l s t) : FrameBut l s (Machine.emit e t) := h.upd rfl rfl

theorem FrameBut.setLease {n : Nat} {x : Lease} (h : FrameBut l s t) : FrameBut l s (Machine.setLease n x t) := h.upd rfl rfl

theorem FrameBut.setLodger {lid : Nat} {x : Lodger} (h : FrameBut l s t) : FrameBut l s (Machine.setLodger lid x t) := h.upd rfl rfl

theorem FrameBut.setFilling {k : Nat} {x : List Nat} (h : FrameBut l s t) : FrameBut l s (Machine.setFilling k x t) := h.upd rfl rfl

theorem FrameBut.setHolds {k : Nat} {x : List Held} (h : FrameBut l s t) : FrameBut l s (Machine.setHolds k x t) := h.upd rfl rfl

theorem FrameBut.setQueue {k : Nat} {q : List Replica} (h : FrameBut l s t) : FrameBut l s (Machine.setQueue k q t) := h.upd rfl rfl

theorem FrameBut.setSending {p : Nat} {r : Option Replica} (h : FrameBut l s t) : FrameBut l s (Machine.setSending p r t) := h.upd rfl rfl

theorem FrameBut.setInflight {p : Nat} {i : Option Inflight} (h : FrameBut l s t) : FrameBut l s (Machine.setInflight p i t) := h.upd rfl rfl

theorem FrameBut.swBump {p i n : Nat} (h : FrameBut l s t) : FrameBut l s (Machine.swBump p i n t) := h.upd rfl rfl

theorem FrameBut.setGate {p : Nat} {g : GateState} (h : FrameBut l s t) : FrameBut l s (Machine.setGate p g t) := h.upd rfl rfl

theorem FrameBut.applyAll {α : Type} {xs : List α} {g : α → State → State} (h : FrameBut l s t) (hg : ∀ x u, FrameBut l u (g x u)) :
    FrameBut l s (Machine.applyAll xs g t) :=
  applyAll_of xs g (fun x u hu => hu.trans (hg x u)) t h

end

theorem leaves_of_frame {c : Instr} {l : List Fld} {g : State → State} (hc : ∀ s, exec c s = .next (g s)) (hg : ∀ s, FrameBut l s (g s)) :
    Leaves c l := by
  intro s t h
  obtain rfl : g s = t := Host.Outcome.next.inj ((hc s).symm.trans h)
  exact hg s

/-- An access that is refused leaves its record, one that is let through what the register's own effect leaves. -/
theorem leavesAsked_of_frame {c : Instr} {l : List Fld} {rq : Requester} {a : Nat} {w : Word} {g : State → State}
    (hc : ∀ s, exec c s = .next (gate rq true a w g s)) (hg : ∀ s, FrameBut l s (g s)) : LeavesAsked c l := by
  refine leaves_of_frame hc fun s => ?_
  cases hadm : admits rq true a w s with
  | true =>
    rw [gate_of_admits hadm]
    exact (hg s).mono (List.subset_append_left _ _)
  | false =>
    obtain ⟨hstate, hregs⟩ := gate_refused_frame hadm g
    exact ⟨hregs.mono (List.subset_append_right l _), SameMem.of_mem (by rw [hstate])⟩

/-! ## An effect under an older generation (R174)

The old structure's registers stand in for those it owns, and those in force come back after it: a field that the old structure owns reads as
before, every other one as the effect leaves it. -/

/-- A table with rising keys put in front of one that lacks a key answers for that key. -/
theorem tabGet_foldl_tabIns_of_absent {d k : Nat} {new : List (Nat × Nat)} (hnew : new.Pairwise fun a b => a.1 < b.1) :
    ∀ l : List (Nat × Nat), (∀ e ∈ l, e.1 ≠ k) → tabGet d (new.foldl (fun r e => tabIns e.1 e.2 r) l) k = tabGet d new k := by
  induction new with
  | nil =>
    intro l hl
    induction l with
    | nil => rfl
    | cons e r ih => simpa [tabGet, hl e List.mem_cons_self] using ih fun x hx => hl x (List.mem_cons_of_mem e hx)
  | cons e r ih =>
    intro l hl
    obtain ⟨hhead, htail⟩ := List.pairwise_cons.1 hnew
    rw [List.foldl_cons]
    by_cases hk : e.1 = k
    · subst hk
      rw [tabGet_foldl_tabIns (fun x hx => (hhead x hx).ne'), tabGet_tabIns_self d e.2 l e.1 hl]
      simp [tabGet]
    · rw [ih htail]
      · simp [tabGet, hk]
      · intro x hx
        rcases mem_tabIns _ _ _ hx with rfl | hx
        · exact hk
        · exact hl x hx

/-- A key that is replaced reads as the table that replaces it. -/
theorem tabGet_replaceBy_mine {d k : Nat} {mine : Nat → Bool} (hk : mine k = true) (l : List (Nat × Nat)) {new : List (Nat × Nat)}
    (hnew : tabSorted new = true) : tabGet d (replaceBy mine l new) k = tabGet d (new.filter fun e => mine e.1) k := by
  refine tabGet_foldl_tabIns_of_absent (((tabSorted_iff new).1 hnew).filter _) _ fun e he hek => ?_
  simp [hek, hk] at he

theorem underGen_frame {ctx : Bool} {gen : Nat} {g : State → State} {l : List Fld} {s : State} (hs : tabSorted s.regs = true)
    (hg : ∀ u, FrameBut l u (g u)) : FrameBut l s (underGen ctx gen g s) := by
  unfold underGen
  split
  · exact hg s
  · next o _ =>
    split
    · exact hg s
    · extract_lets bank _ t
      have ht : FrameBut l _ t := hg _
      refine ⟨fun f hf => ?_, ht.2⟩
      have hkept := ht.1 f hf
      simp only [getF] at hkept ⊢
      by_cases hown : o.owns f.key = true
      · rw [tabGet_replaceBy_mine hown _ (tabSorted_filter _ hs), List.filter_filter, tabGet_filter]
        simp [hown]
      · rw [Bool.not_eq_true] at hown
        rw [tabGet_replaceBy hown, hkept, tabGet_replaceBy hown]

/-! ## Leases and pages (R187, R189, R201 to R204) -/

section
variable {s t : State}

theorem mem_of_tabGet_ne {α : Type} {d : α} {l : List (Nat × α)} {k : Nat} (h : tabGet d l k ≠ d) : (k, tabGet d l k) ∈ l := by
  induction l with
  | nil => exact absurd rfl h
  | cons e r ih =>
    by_cases hk : e.1 = k
    · subst hk; simp [tabGet]
    · simp only [tabGet, hk, if_false] at h ⊢
      exact List.mem_cons_of_mem e (ih h)

/-- A held lease that a declaration's reach takes in is reached. -/
theorem mem_reached {n : Nat} {reach : Lease → Nat → Bool} (hheld : (leaseOf n s).state = .held) (hreach : reach (leaseOf n s) n = true) :
    n ∈ (reached reach s).map (·.1) := by
  have hmem : (n, leaseOf n s) ∈ s.ink.leases := mem_of_tabGet_ne fun h => by
    rw [show leaseOf n s = {} from h] at hheld
    cases hheld
  exact List.mem_map.2 ⟨_, List.mem_filter.2 ⟨hmem, by simp [hheld, hreach]⟩, rfl⟩

/-- A declaration that reaches a lease changes the Innkeeper's own stores alone. -/
theorem declare_onlyInk {n owner decl : Nat} {reach : Lease → Nat → Bool} (h : n ∈ (reached reach s).map (·.1)) :
    declare reach owner decl s = { s with ink := (declare reach owner decl s).ink } := by
  have hfenced : ∀ l : List Nat, applyAll l (fun n t => setLease n { leaseOf n t with state := .fenced } t) s =
      { s with ink := (applyAll l (fun n t => setLease n { leaseOf n t with state := .fenced } t) s).ink } := fun l =>
    applyAll_of (P := fun t => t = { s with ink := t.ink }) l _ (fun n u hu => by rw [hu]; rfl) s rfl
  unfold declare
  rw [if_neg (List.ne_nil_of_mem h)]
  dsimp only
  rw [hfenced]

theorem declare_frame {n owner decl : Nat} {reach : Lease → Nat → Bool} (h : n ∈ (reached reach s).map (·.1)) :
    FrameBut [] s (declare reach owner decl s) :=
  (FrameBut.refl [] s).upd (by rw [declare_onlyInk h]) (by rw [declare_onlyInk h])

theorem leaves_leaseExpiry (n : Nat) : Leaves (.leaseExpiry n) [] := by
  refine leaves_of_frame (fun _ => rfl) fun s => ?_
  dsimp only
  cases hc : ((leaseOf n s).state == .held && (leaseOf n s).dur.isSome && decide ((leaseOf n s).kind ≠ 5)) with
  | false => exact FrameBut.refl [] s
  | true =>
    simp only [Bool.and_eq_true, beq_iff_eq] at hc
    exact declare_frame (mem_reached hc.1.1 (by simp))

theorem grantLease_frame {kind res tag n : Nat} {dur : Option Nat} (h : grantLease kind res tag dur s = some (n, t)) : FrameBut [] s t := by
  unfold grantLease at h
  split at h
  · cases h
  · split at h
    · cases h
    · cases h
      exact (FrameBut.refl [] s).setLease

theorem countFull_frame (tag : Nat) (s : State) : FrameBut [INK_LSCOUNT_full] s (countFull tag s) :=
  FrameBut.ite (FrameBut.refl _ s) ((FrameBut.refl _ s).incF (by simp))

theorem poolReturn_frame (s : State) : FrameBut poolFields s (poolReturn s) := by
  have hcount : FrameBut poolFields s (setF INK_POOLFREE_free (getF INK_POOLFREE_free s + 1) (setB INK_ALLOCSTAT_empty false s)) :=
    ((FrameBut.refl _ s).setB (by simp [poolFields])).setF (by simp [poolFields])
  exact FrameBut.ite (hcount.setB (by simp [poolFields])) hcount

theorem freePage_frame (p : Nat) (s : State) : FrameBut poolFields s (freePage p s) := by
  have hrefs {u : State} (hr : u.regs = s.regs) (hm : u.mem = s.mem) : FrameBut poolFields s u := (FrameBut.refl _ s).upd hr hm
  exact FrameBut.ite (FrameBut.ite ((hrefs rfl rfl).trans (poolReturn_frame _)) (hrefs rfl rfl)) (hrefs rfl rfl)

theorem freePages_frame (l : List Nat) (s : State) : FrameBut poolFields s (freePages l s) := (FrameBut.refl _ s).applyAll freePage_frame

theorem leaves_leaseRenew (rq : Requester) (n : Nat) : LeavesAsked (.leaseRenew rq n) [] :=
  leavesAsked_of_frame (fun _ => rfl) fun s =>
    FrameBut.ite (FrameBut.refl _ s).busError (FrameBut.ite (FrameBut.refl _ s).busDone (FrameBut.refl _ s).setLease.busDone)

theorem inkRevoke_frame (rq : Requester) (w : Word) (s : State) :
    FrameBut [INK_REVSTAT_refused, INK_REVSTAT_why] s (inkRevoke rq w s) := by
  have hbus : FrameBut [INK_REVSTAT_refused, INK_REVSTAT_why] s (busDone s) := (FrameBut.refl _ s).busDone
  have hrefuse (why : Nat) : FrameBut [INK_REVSTAT_refused, INK_REVSTAT_why] s (revokeRefuse why (busDone s)) :=
    (hbus.setF (by simp)).setB (by simp)
  have hdeclare {reach : Lease → Nat → Bool} {owner decl : Nat} (h : wbits w 0 10 ∈ (reached reach (busDone s)).map (·.1)) :=
    hbus.trans ((declare_frame (owner := owner) (decl := decl) h).mono (List.nil_subset _))
  unfold inkRevoke
  dsimp only
  split
  · exact hrefuse 1
  · next hheld =>
    have hheld : (leaseOf (wbits w 0 10) (busDone s)).state = .held := of_not_not fun h => hheld (bne_iff_ne.2 h)
    exact FrameBut.ite (hrefuse 2) (FrameBut.ite (hdeclare (mem_reached hheld (decide_eq_true rfl))) (hdeclare (mem_reached hheld (by simp))))

theorem cmdInkPgfree_frame (rq : Requester) (n : Nat) (s : State) : FrameBut poolFields s (cmdInkPgfree rq n s) :=
  FrameBut.ite (freePages_frame _ s).setLease.busDone (FrameBut.refl _ s).busError

theorem leaves_pageFree (p : Nat) : Leaves (.pageFree p) poolFields := by
  refine leaves_of_frame (fun _ => rfl) fun s => ?_
  split
  · exact FrameBut.refl _ s
  · refine FrameBut.ite (FrameBut.refl _ s) ?_
    split
    · exact FrameBut.refl _ s
    · exact (freePage_frame _ s).setSending

/-- A block lock's own fields, and the count of requests that found the lease table full (R199, R201). -/
theorem lockTake_frame (blk : Nat) (busy lease : Fld) (blocked : Bool) (rq : Requester) (s : State) :
    FrameBut [busy, lease, INK_LSCOUNT_full] s (lockTake blk busy lease blocked rq s) := by
  have hbus : FrameBut [busy, lease, INK_LSCOUNT_full] s (busDone s) := (FrameBut.refl _ s).busDone
  unfold lockTake
  dsimp only
  split
  · exact FrameBut.ite (hbus.setB (by simp)) (hbus.setB (by simp))
  · refine FrameBut.ite (hbus.setB (by simp)) ?_
    split
    · next h => exact ((hbus.trans ((grantLease_frame h).mono (List.nil_subset _))).setB (by simp)).setF (by simp)
    · exact (hbus.trans ((countFull_frame _ _).mono (by simp))).setB (by simp)

theorem cmdPkeLockTake_frame (rq : Requester) (s : State) :
    FrameBut [PKE_LOCK_busy, PKE_LOCK_lease, INK_LSCOUNT_full] s (cmdPkeLockTake rq s) := by
  have hbus : FrameBut [PKE_LOCK_busy, PKE_LOCK_lease, INK_LSCOUNT_full] s (busDone s) := (FrameBut.refl _ s).busDone
  unfold cmdPkeLockTake
  refine FrameBut.ite (FrameBut.refl _ s).busError ?_
  split
  · exact hbus.setB (by simp)
  · split
    · next h => exact (((grantLease_frame h).mono (List.nil_subset _)).busDone.setB (by simp)).setF (by simp)
    · exact (hbus.trans ((countFull_frame _ _).mono (by simp))).setB (by simp)

end

/-! ## Tables and Caravans (R135, R227, R250, R251, R258, R262) -/

theorem twr_frame (a : Nat) (b : List Byte) (s : State) : FrameBut [] s (twr a b s) := by
  induction b generalizing a s with
  | nil => exact FrameBut.refl [] s
  | cons x r ih => exact ((FrameBut.refl [] s).upd rfl rfl).trans (ih _ _)

theorem entWr_frame (t i : Nat) (b : List Byte) (s : State) : FrameBut [] s (entWr t i b s) := twr_frame _ _ s

theorem clearBank_frame (p : Nat) (s : State) : FrameBut [] s (clearBank p s) :=
  (FrameBut.refl [] s).applyAll fun i u => entWr_frame 1 i [] u

/-- An entry that finds no place in the shadow is counted and ends the migrate, one that takes a new slot is counted (R250). -/
theorem shadowMade_frame (e : List Byte) (s : State) :
    FrameBut [FWT_RHSTAT_state, FWT_RHSTAT_moved, FWT_RHFAIL_fail] s (shadowMade e s) := by
  have hplace : FrameBut [FWT_RHSTAT_state, FWT_RHSTAT_moved, FWT_RHFAIL_fail] s (shadowPlace e s).2 := by
    unfold shadowPlace
    dsimp only
    split
    · exact (entWr_frame _ _ _ s).mono (List.nil_subset _)
    · split
      · exact (entWr_frame _ _ _ s).mono (List.nil_subset _)
      · exact ((FrameBut.refl _ s).incF (by simp)).setF (by simp)
  exact FrameBut.ite (hplace.incF (by simp)) hplace

theorem leaves_migrateDone : Leaves .migrateDone [FWT_RHSTAT_state, FWT_RHSTAT_moved, FWT_RHFAIL_fail] := by
  refine leaves_of_frame (fun _ => rfl) fun s => FrameBut.onlyIf ?_
  have hcopy := (FrameBut.refl [FWT_RHSTAT_state, FWT_RHSTAT_moved, FWT_RHFAIL_fail] s).applyAll
    (xs := bankRange (physBank 1 (getF FWT_RHCTL_bank s) s) s) (g := migrateEntry)
    fun i u => FrameBut.ite (shadowMade_frame _ u) (FrameBut.refl _ u)
  exact FrameBut.ite (hcopy.setF (by simp)) hcopy

theorem cmdMigrateStart_frame (rq : Requester) (w : Word) (s : State) :
    FrameBut [FWT_RHCTL_bank, FWT_RHSTAT_state, FWT_RHSTAT_moved] s (cmdMigrateStart rq w s) := by
  have hbank : FrameBut [FWT_RHCTL_bank, FWT_RHSTAT_state, FWT_RHSTAT_moved] s (busDone (setF FWT_RHCTL_bank (wbits w 0 2) s)) :=
    ((FrameBut.refl _ s).setF (by simp)).busDone
  exact FrameBut.ite ((hbank.setF (by simp)).setF (by simp)) hbank

theorem cmdMigrateCancel_frame (rq : Requester) (w : Word) (s : State) :
    FrameBut [FWT_RHCTL_bank, FWT_RHSTAT_state] s (cmdMigrateCancel rq w s) := by
  have hbank : FrameBut [FWT_RHCTL_bank, FWT_RHSTAT_state] s (busDone (setF FWT_RHCTL_bank (wbits w 0 2) s)) :=
    ((FrameBut.refl _ s).setF (by simp)).busDone
  exact FrameBut.ite ((hbank.trans ((clearBank_frame _ _).mono (List.nil_subset _))).setF (by simp)) hbank

theorem cmdPorterGo_frame (rq : Requester) (w : Word) (s : State) : FrameBut [FWT_PSTAT_busy] s (cmdPorterGo rq w s) := by
  have hbus {u : State} (hregs : u.regs = s.regs) (hmem : u.mem = s.mem) : FrameBut [FWT_PSTAT_busy] s u := (FrameBut.refl _ s).upd hregs hmem
  exact FrameBut.ite ((hbus rfl rfl).setB (by simp)) (hbus rfl rfl)

/-- The output queue's length and the counts of Caravans (R258, R260). -/
def caravanFields : List Fld := [FWT_CVQ_out] ++ (List.range 8).map FWT_CVCNT_cnt

theorem countField_mem {i : Nat} (hi : i < 8) : FWT_CVCNT_cnt i ∈ caravanFields :=
  List.mem_append_right _ (List.mem_map.2 ⟨i, List.mem_range.2 hi, rfl⟩)

theorem cvQueue_frame (r : CvRecord) (s : State) : FrameBut caravanFields s (cvQueue r s) :=
  FrameBut.ite ((FrameBut.refl _ s).upd rfl rfl) (FrameBut.ite ((FrameBut.refl _ s).incF (countField_mem (by decide)))
    (((FrameBut.refl _ s).upd rfl rfl).setF (by simp [caravanFields])))

theorem refreshEntry_frame (i : Nat) (s : State) : FrameBut caravanFields s (refreshEntry i s) := by
  have howner (e : L2) : FrameBut caravanFields s (ownerDev e s).2 := by
    unfold ownerDev
    split
    · exact FrameBut.refl _ s
    · split
      · exact (FrameBut.refl _ s).upd rfl rfl
      · exact FrameBut.refl _ s
  exact (howner _).trans (cvQueue_frame _ _)

theorem refreshRun_frame (l : List Nat) (s : State) : FrameBut caravanFields s (refreshRun l s) := by
  induction l generalizing s with
  | nil => exact (FrameBut.refl _ s).upd rfl rfl
  | cons i r ih =>
    exact FrameBut.ite (ih s) (FrameBut.ite ((FrameBut.refl _ s).upd rfl rfl) (((refreshEntry_frame i s).upd rfl rfl).trans (ih _)))

theorem fullRefresh_frame (s : State) : FrameBut caravanFields s (fullRefresh s) := by
  have hbegun : FrameBut caravanFields s { s with fwt := { s.fwt with refresh := some 0 } } := (FrameBut.refl _ s).upd rfl rfl
  exact hbegun.trans (FrameBut.ite (refreshRun_frame _ _) ((FrameBut.refl _ _).upd rfl rfl))

/-! ## Ports, gates and cut-through ends (R215, R221 to R224) -/

theorem creditUpdate_frame (p : Nat) (s : State) : FrameBut [] s (creditUpdate p s) := by
  refine FrameBut.ite (FrameBut.refl [] s) ?_
  extract_lets now dt put s1
  have hs1 : FrameBut [] s s1 := (FrameBut.refl [] s).applyAll fun _ _ => (FrameBut.refl [] _).upd rfl rfl
  exact hs1.upd rfl rfl

theorem refreshHold_frame {l : List Fld} {p : Nat} (hp : p < 12 → SWC_GSTAT_hold p ∈ l) (s : State) : FrameBut l s (refreshHold p s) := by
  unfold refreshHold
  split
  · next h => exact (FrameBut.refl l s).setF (hp h)
  · exact FrameBut.refl l s

theorem countCycles_frame (p : Nat) (s : State) : FrameBut [] s (countCycles p s) := by
  refine (FrameBut.refl [] s).applyAll fun c u => ?_
  dsimp only
  split
  · exact FrameBut.refl [] u
  · exact (FrameBut.refl [] u).upd rfl rfl

theorem leaves_gateEntryChange (p : Nat) : Leaves (.gateEntryChange p) [SWC_GSTAT_entry p, SWC_GSTAT_gates p, SWC_GSTAT_hold p] := by
  refine leaves_of_frame (fun _ => rfl) fun s => FrameBut.onlyIf ?_
  extract_lets s0 g l e t
  have hs0 : FrameBut [SWC_GSTAT_entry p, SWC_GSTAT_gates p, SWC_GSTAT_hold p] s s0 := (creditUpdate_frame p s).mono (List.nil_subset _)
  have hshow {u : State} (h : FrameBut [SWC_GSTAT_entry p, SWC_GSTAT_gates p, SWC_GSTAT_hold p] s u) :
      FrameBut [SWC_GSTAT_entry p, SWC_GSTAT_gates p, SWC_GSTAT_hold p] s (refreshHold p (showGates p u)) :=
    ((h.setF (by simp)).setF (by simp)).trans (refreshHold_frame (by simp) _)
  exact FrameBut.ite (hshow hs0.setGate) (FrameBut.ite hs0
    (hshow (hs0.trans ((countCycles_frame p s0).mono (List.nil_subset _))).setGate))

/-- What a frame that goes wrong on its way may change: the pool that its pages return to, and the holds of the ports. -/
def cutThroughFields : List Fld := poolFields ++ (List.range 12).map SWC_GSTAT_hold

theorem dropReplica_frame (r : Replica) (s : State) : FrameBut cutThroughFields s (dropReplica r s) :=
  (freePages_frame _ s).mono (List.subset_append_left _ _)

theorem holdField_mem {p : Nat} (hp : p < 12) : SWC_GSTAT_hold p ∈ cutThroughFields :=
  List.mem_append_right _ (List.mem_map.2 ⟨p, List.mem_range.2 hp, rfl⟩)

theorem endSpoiled_frame (q : Nat) (s : State) : FrameBut cutThroughFields s (endSpoiled q s) := by
  unfold endSpoiled
  split
  · exact FrameBut.refl _ s
  · exact (((creditUpdate_frame q s).mono (List.nil_subset _)).setSending.trans (dropReplica_frame _ _)).emit

theorem portsSettle_frame (s : State) : FrameBut cutThroughFields s (portsSettle s) :=
  (FrameBut.refl _ s).applyAll fun q u => ((creditUpdate_frame q u).mono (List.nil_subset _)).trans (refreshHold_frame holdField_mem _)

theorem mapQueued_frame (pages : List Nat) (g : Replica → Option Replica) (s : State) : FrameBut cutThroughFields s (mapQueued pages g s) :=
  (FrameBut.refl _ s).applyAll fun _ u => (FrameBut.refl _ u).setQueue.applyAll dropReplica_frame

theorem settleCharge_frame (i : Inflight) (s : State) : FrameBut [] s (settleCharge i s) := by
  unfold settleCharge
  split
  · exact FrameBut.ite (FrameBut.refl _ s) (entWr_frame _ _ _ s)
  · exact FrameBut.refl _ s

/-- The frame may be of an older generation: its end then takes place under that generation's registers. -/
theorem abandonFrame_frame (p : Nat) {s : State} (hs : tabSorted s.regs = true) : FrameBut cutThroughFields s (abandonFrame p s) := by
  unfold abandonFrame
  split
  · exact FrameBut.ite ((FrameBut.refl _ s).setFilling.trans ((freePages_frame _ _).mono (List.subset_append_left _ _))).setHolds
      (FrameBut.refl _ s).setHolds
  · next i _ =>
    refine underGen_frame hs fun u => ?_
    extract_lets s1 s2
    have hsettled : FrameBut cutThroughFields u (settleCharge i (setInflight p none u)) :=
      (FrameBut.refl _ u).setInflight.trans ((settleCharge_frame i _).mono (List.nil_subset _))
    have hs1 : FrameBut cutThroughFields u s1 :=
      ((hsettled.trans (portsSettle_frame _)).trans (mapQueued_frame _ _ _)).trans (portsSettle_frame _)
    have hs2 : FrameBut cutThroughFields u s2 := hs1.applyAll fun e v => dropReplica_frame e.2 v
    exact hs2.applyAll fun q v => (endSpoiled_frame q v).swBump

theorem cutThroughEnd_frame {p why : Nat} {s t : State} (hs : tabSorted s.regs = true) (h : exec (.cutThroughEnd p why) s = .next t) :
    FrameBut cutThroughFields s t := by
  obtain rfl := Host.Outcome.next.inj h
  split
  · exact FrameBut.refl _ s
  · next r _ =>
    split
    · exact FrameBut.refl _ s
    · next hp =>
      have hp : p < 12 := by simp at hp; omega
      refine FrameBut.ite (FrameBut.ite (endSpoiled_frame p s).swBump (FrameBut.refl _ s)) (FrameBut.ite (FrameBut.refl _ s)
        (FrameBut.ite (abandonFrame_frame _ hs) (FrameBut.ite ?_ (FrameBut.refl _ s))))
      have hended := ((creditUpdate_frame p s).mono (List.nil_subset cutThroughFields)).setSending (p := p) (r := none)
      exact hended.emit.setQueue.swBump.trans (refreshHold_frame holdField_mem _)

/-! ## Lodgers, rings and the transcriber (R193 to R196, R230, R361) -/

theorem leaves_itemDispatch : Leaves .itemDispatch [] := by
  refine leaves_of_frame (fun _ => rfl) fun s => FrameBut.onlyIf ?_
  split
  · exact FrameBut.refl [] s
  · dsimp only
    split
    · exact FrameBut.refl [] s
    · exact (FrameBut.refl [] s).upd rfl rfl

theorem leaves_ringInterrupt (r : Nat) : Leaves (.ringInterrupt r) [] :=
  leaves_of_frame (fun _ => rfl) fun s => FrameBut.onlyIf
    (FrameBut.ite ((FrameBut.refl [] s).upd rfl rfl) ((FrameBut.refl [] s).upd rfl rfl))

theorem leaves_pagingMsCheck : Leaves .pagingMsCheck ([INK_PAGESTAT_faults] ++ eventFields 14) := by
  refine leaves_of_frame (fun _ => rfl) fun s => ?_
  have hshown : FrameBut ([INK_PAGESTAT_faults] ++ eventFields 14) s
      (setF INK_PAGESTAT_faults s.ink.faultsMs { s with ink := { s.ink with faultsMs := 0 } }) :=
    ((FrameBut.refl _ s).upd rfl rfl).setF (by simp)
  exact FrameBut.ite (hshown.raise (List.subset_append_right _ _)) hshown

theorem leaves_deadlineMiss (lid : Nat) : Leaves (.deadlineMiss lid) ([INK_SCHED_misses, INK_MISSLOG_lid] ++ eventFields 13) := by
  refine leaves_of_frame (fun _ => rfl) fun s => ?_
  dsimp only
  split
  · exact FrameBut.refl _ s
  · exact (((FrameBut.refl _ s).setLodger.setF (by simp)).incF (by simp)).raise (List.subset_append_right _ _)

/-- The snapshot of a signal, with free values where no lodger owns it or nothing was received. -/
theorem cmdTrnSigsel_frame (rq : Requester) (w : Word) (s : State) :
    FrameBut [TRN_SIGSEL_sig, TRN_SIGVAL_value, TRN_SIGST_st, TRN_SIGST_late, TRN_SIGST_age] s (cmdTrnSigsel rq w s) := by
  have hsel : FrameBut [TRN_SIGSEL_sig, TRN_SIGVAL_value, TRN_SIGST_st, TRN_SIGST_late, TRN_SIGST_age] s
      (busDone (setF TRN_SIGSEL_sig (wbits w 0 16) s)) := ((FrameBut.refl _ s).setF (by simp)).busDone
  unfold cmdTrnSigsel
  dsimp only
  split
  · exact (((hsel.setFree (by simp)).setFree (by simp)).setFree (by simp)).setFree (by simp)
  · exact FrameBut.ite ((((hsel.setB (by simp)).setF (by simp)).setF (by simp)).setFree (by simp))
      ((((hsel.setB (by simp)).setF (by simp)).setF (by simp)).setF (by simp))

/-- Settles O50: each command's frame is put together from the frames of the functions it calls. -/
theorem switchFrames : Obligations.SwitchFrames := by
  unfold Obligations.SwitchFrames
  exact ⟨
    leaves_of_frame (fun _ => rfl) fun s => (FrameBut.refl [] s).applyAll fun i u => entWr_frame 4 i _ u,
    fun sh => leaves_of_frame (fun _ => rfl) fun s => FrameBut.onlyIf ((FrameBut.refl [] s).upd rfl rfl),
    leaves_leaseExpiry,
    fun lid => leaves_of_frame (fun _ => rfl) fun s => FrameBut.onlyIf ((FrameBut.refl [] s).upd rfl rfl),
    leaves_itemDispatch,
    leaves_ringInterrupt,
    leaves_leaseRenew,
    fun lid us => leaves_of_frame (fun _ => rfl) fun s => FrameBut.onlyIf ((FrameBut.refl _ s).setLodger.setF (by simp)),
    leaves_pagingMsCheck,
    leaves_deadlineMiss,
    fun rq w => leavesAsked_of_frame (fun _ => rfl) (inkRevoke_frame rq w),
    fun rq n => leavesAsked_of_frame (fun _ => rfl) (cmdInkPgfree_frame rq n),
    leaves_pageFree,
    fun p why s t hs h => cutThroughEnd_frame hs.2 h,
    fun rq => leavesAsked_of_frame (fun _ => rfl) (lockTake_frame _ _ _ _ rq),
    fun rq => leavesAsked_of_frame (fun _ => rfl) fun s => lockTake_frame _ _ _ _ rq s,
    fun rq => leavesAsked_of_frame (fun _ => rfl) (cmdPkeLockTake_frame rq),
    leaves_gateEntryChange,
    leaves_of_frame (fun _ => rfl) fun s => FrameBut.onlyIf (((clearBank_frame _ s).mono (List.nil_subset _)).setF (by simp)),
    leaves_of_frame (fun _ => rfl) fun s => (FrameBut.refl _ s).setB (by simp),
    leaves_migrateDone,
    fun rq w => leavesAsked_of_frame (fun _ => rfl) (cmdMigrateStart_frame rq w),
    fun rq w => leavesAsked_of_frame (fun _ => rfl) (cmdMigrateCancel_frame rq w),
    fun rq w => leavesAsked_of_frame (fun _ => rfl) (cmdPorterGo_frame rq w),
    leaves_of_frame (fun _ => rfl) fullRefresh_frame,
    fun rq w => leavesAsked_of_frame (fun _ => rfl) (cmdTrnSigsel_frame rq w)⟩

end Sys2Proof.Machine

/-! # Where page and lease commands complete

The lease records and the declarations pass through the data path unchanged (`HasAside`); what the end of a lease commits or discards leaves them
as well, one lemma for each kind of lease. -/

namespace Sys2Proof.Machine

/-! ## What leaves the lease records and the declarations -/

section
variable {s t : State}

theorem leases_of_aside (h : HasAside (asideView s) t) : t.ink.leases = s.ink.leases :=
  show (asideState t).ink.leases = (asideState s).ink.leases by rw [asideState_of_aside h]

theorem decls_of_aside (h : HasAside (asideView s) t) : t.ink.decls = s.ink.decls :=
  show (asideState t).ink.decls = (asideState s).ink.decls by rw [asideState_of_aside h]

theorem bus_of_aside (h : HasAside (asideView s) t) : t.bus = s.bus :=
  show (asideState t).bus = (asideState s).bus by rw [asideState_of_aside h]

theorem leaseOf_of_leases (h : t.ink.leases = s.ink.leases) (n : Nat) : leaseOf n t = leaseOf n s := by rw [leaseOf, h, leaseOf]

theorem freeLease_of_leases (h : t.ink.leases = s.ink.leases) (tag : Nat) : freeLease tag t = freeLease tag s := by
  simp only [freeLease, leaseOf_of_leases h]

theorem ownerFenced_of_leases (h : t.ink.leases = s.ink.leases) (tag : Nat) : ownerFenced tag t = ownerFenced tag s := by
  rw [ownerFenced, h, ownerFenced]

theorem applyAll_ink {α : Type} {l : List α} {g : α → State → State} (hg : ∀ x u, (g x u).ink = u.ink) (s : State) :
    (applyAll l g s).ink = s.ink :=
  applyAll_of (P := fun t => t.ink = s.ink) l g (fun x u hu => (hg x u).trans hu) s rfl

theorem writeFields_ink (p : Acc → Bool) (d : RegDesc) (a w : Nat) (s : State) : (writeFields p d a w s).ink = s.ink := by
  refine applyAll_ink (fun f u => ?_) s
  split
  · rfl
  · split <;> rfl

theorem applyStaged_ink (x : Staged) (s : State) : (applyStaged x s).ink = s.ink := by
  unfold applyStaged
  split
  · rfl
  · split
    · exact writeFields_ink _ _ _ _ s
    · rfl

theorem gateCommit_ink (p : Nat) (s : State) : (gateCommit p s).ink = s.ink := by
  unfold gateCommit refreshHold
  split <;> rfl

theorem swcCommit_ink (s : State) : (swcCommit s).ink = s.ink :=
  (applyAll_ink gateCommit_ink _).trans (applyAll_ink applyStaged_ink _)

theorem pkeLeaseEnd_ink (s : State) : (pkeLeaseEnd s).ink = s.ink := by
  unfold pkeLeaseEnd
  refine Eq.trans (applyAll_ink ?_ _) ?_
  · exact fun _ _ => rfl
  · split
    · unfold pkeWipeAll pkeFinish pkeTell
      split
      · rfl
      · rw [(raise_frame _ _).1]; rfl
    · rfl

theorem fwtDiscard_ink (s : State) : (fwtDiscard s).ink = s.ink := by
  unfold fwtDiscard
  split <;> rfl

section
variable {v : AsideView}

theorem tabChange_aside {ty i : Nat} {e : List Byte} (h : HasAside v s) : HasAside v (tabChange ty i e s) :=
  ite_aside (l2Put_aside h) (entWr_aside h)

theorem cvQueue_aside {r : CvRecord} (h : HasAside v s) : HasAside v (cvQueue r s) :=
  ite_aside (h.upd rfl) (ite_aside (incF_aside h) (setF_aside (h.upd rfl)))

theorem cvLocal_aside {e : L2} {withdraw : Bool} (h : HasAside v s) : HasAside v (cvLocal e withdraw s) := ite_aside (cvQueue_aside h) h

theorem commitRecords_aside {i : Nat} {new : List Byte} {u : State} (h : HasAside v t) : HasAside v (commitRecords i new u t) :=
  iteElse_aside (ite_aside (cvLocal_aside h) h) fun h1 => cvLocal_aside h1

theorem commitChange_aside {c : TableChange} (h : HasAside v s) : HasAside v (commitChange c s) := by
  unfold commitChange
  split
  · exact h
  · exact ite_aside (commitRecords_aside (tabChange_aside h)) (tabChange_aside h)

theorem bankSwap_aside (h : HasAside v s) : HasAside v (bankSwap s) := by
  refine ite_aside ?_ (setF_aside h)
  refine setF_aside (setF_aside (setF_aside (setF_aside h (onImg_of_ge (Nat.le_add_right_of_le (by decide)))) ?_))
  (repeat' split) <;> decide

theorem fwtCommit_aside (h : HasAside v s) : HasAside v (fwtCommit s) := by
  have hchanged : HasAside v (applyAll s.fwt.overlay commitChange { s with fwt := { s.fwt with overlay := [] } }) :=
    applyAll_aside (fun _ _ h => commitChange_aside h) (h.upd rfl)
  exact iteThen_aside (setF_aside (setF_aside (ite_aside (bankSwap_aside (hchanged.upd rfl)) hchanged))) fun h1 => setF_aside h1

end

/-- What a released lease commits or gives back leaves the lease records. -/
theorem leases_releaseEffect (n : Nat) (l : Lease) (s : State) : (releaseEffect n l s).ink.leases = s.ink.leases := by
  unfold releaseEffect
  split
  · exact leases_of_aside (freePages_aside rfl)
  · split
    · rw [swcCommit_ink]
    · exact leases_of_aside (fwtCommit_aside rfl)
  · rw [pkeLeaseEnd_ink]
  · rfl
  · exact leases_of_aside (s := setFree IMG_DLTSTAT_end (sessionClear 0 s)) (deltaReport_aside rfl)
  · rfl

theorem decls_deltaEnd (code : Nat) (s : State) : (deltaEnd code s).ink.decls = s.ink.decls := by
  unfold deltaEnd
  split
  · rfl
  · exact decls_of_aside (s := sessionClear code (setLease s.loader.lease {} s)) (deltaReport_aside rfl)

theorem decls_reclaimOne (n : Nat) (s : State) : (reclaimOne n s).ink.decls = s.ink.decls := by
  have hset {u : State} (hu : u.ink.decls = s.ink.decls) : (setLease n {} u).ink.decls = s.ink.decls := hu
  unfold reclaimOne
  dsimp only
  split
  · rfl
  · refine hset ?_
    split
    · exact decls_of_aside (freePages_aside rfl)
    · split
      · rfl
      · rw [fwtDiscard_ink]
    · rw [pkeLeaseEnd_ink]
    · rfl
    · exact decls_deltaEnd 2 s
    · rfl

/-! ## Grants (R199, R201) -/

theorem grantLease_of_free {kind res tag n : Nat} {dur : Option Nat} (hfence : ownerFenced tag s = false) (hfree : freeLease tag s = some n) :
    grantLease kind res tag dur s =
      some (n, setLease n { state := .held, kind := kind, res := res, owner := tag, dur := dur, left := dur } s) := by
  simp [grantLease, hfence, hfree]

/-- A free block lock is granted under the free record with the lowest number. -/
theorem lockTake_of_free {blk n : Nat} {busy lease : Fld} {blocked : Bool} {rq : Requester} (hfree : leaseFor 2 blk s = none)
    (hblocked : blocked = false) (hfence : ownerFenced (rqTag rq) s = false) (hn : freeLease (rqTag rq) s = some n) :
    lockTake blk busy lease blocked rq s = setF lease n (setB busy false (setLease n
      { state := .held, kind := 2, res := blk, owner := rqTag rq, dur := some (getF INK_LSLOCK_ms s), left := some (getF INK_LSLOCK_ms s) }
      (busDone s))) := by
  have hfree' : leaseFor 2 blk (busDone s) = none := hfree
  have hgrant := grantLease_of_free (s := busDone s) (kind := 2) (res := blk) (dur := some (getF INK_LSLOCK_ms (busDone s))) hfence hn
  unfold lockTake
  dsimp only
  rw [hfree']
  dsimp only
  rw [if_neg (Bool.eq_false_iff.1 hblocked), hgrant]
  rfl

/-- The effect of a granted lock shows it held. -/
theorem lockTaken_shows {busy lease : Fld} {n : Nat} {l : Lease} (hkey : busy.key ≠ lease.key) :
    isSet busy (setF lease n (setB busy false (setLease n l (busDone s)))) = false ∧
      (setF lease n (setB busy false (setLease n l (busDone s)))).bus = .done ∧
      leaseOf n (setF lease n (setB busy false (setLease n l (busDone s)))) = l := by
  refine ⟨?_, rfl, leaseOf_setLease_self n l _⟩
  rw [isSet_setF_ne _ _ hkey, setB, isSet_setF_self]
  simp

end

theorem completes_swcLockTake {rq : Requester} {s : State} (hadm : admits rq true 0x40070000 0 s = true) (hnone : leaseFor 2 0 s = none)
    (hfence : ownerFenced (rqTag rq) s = false) (hfree : (freeLease (rqTag rq) s).isSome = true) : Completes (.swcLockTake rq) s fun t =>
    isSet SWC_LOCK_busy t = false ∧ t.bus = .done ∧ ∃ n, leaseOf n t =
      { state := .held, kind := 2, res := 0, owner := rqTag rq, dur := some (getF INK_LSLOCK_ms s), left := some (getF INK_LSLOCK_ms s) } := by
  obtain ⟨n, hn⟩ := Option.isSome_iff_exists.1 hfree
  obtain ⟨hbusy, hbus, hlease⟩ := lockTaken_shows (s := s) (busy := SWC_LOCK_busy) (lease := SWC_LOCK_lease) (by decide)
  exact completes_of_eq (congrArg Host.Outcome.next ((gate_of_admits hadm _).trans (lockTake_of_free hnone rfl hfence hn)))
    ⟨hbusy, hbus, n, hlease⟩

theorem completes_fwtLockTake {rq : Requester} {s : State} (hadm : admits rq true 0x40080000 0 s = true) (hnone : leaseFor 2 1 s = none)
    (hfence : ownerFenced (rqTag rq) s = false) (hfree : (freeLease (rqTag rq) s).isSome = true) (hdrain : isSet FWT_STAT_drain s = false) :
    Completes (.fwtLockTake rq) s fun t =>
    isSet FWT_LOCK_busy t = false ∧ t.bus = .done ∧ ∃ n, leaseOf n t =
      { state := .held, kind := 2, res := 1, owner := rqTag rq, dur := some (getF INK_LSLOCK_ms s), left := some (getF INK_LSLOCK_ms s) } := by
  obtain ⟨n, hn⟩ := Option.isSome_iff_exists.1 hfree
  obtain ⟨hbusy, hbus, hlease⟩ := lockTaken_shows (s := s) (busy := FWT_LOCK_busy) (lease := FWT_LOCK_lease) (by decide)
  exact completes_of_eq (congrArg Host.Outcome.next ((gate_of_admits hadm _).trans (lockTake_of_free hnone hdrain hfence hn)))
    ⟨hbusy, hbus, n, hlease⟩

/-- A host is not let through to the public-key engine (R357). -/
theorem not_host_of_admits_pke {rq : Requester} {s : State} (hadm : admits rq true 0x400F0000 0 s = true) : ¬ (rq = .pcie ∨ rq = .qspi) := by
  rintro (rfl | rfl) <;> simp [admits, isDebug, isHost, hostDenied, blockOf] at hadm

theorem completes_pkeLockTake {rq : Requester} {s : State} (hadm : admits rq true 0x400F0000 0 s = true) (hnone : leaseFor 4 0 s = none)
    (hfence : ownerFenced (rqTag rq) s = false) (hfree : (freeLease (rqTag rq) s).isSome = true) : Completes (.pkeLockTake rq) s fun t =>
    isSet PKE_LOCK_busy t = false ∧ t.bus = .done ∧ ∃ n, (leaseOf n t).state = .held ∧ (leaseOf n t).kind = 4 ∧
      (leaseOf n t).owner = rqTag rq := by
  obtain ⟨n, hn⟩ := Option.isSome_iff_exists.1 hfree
  have heffect : cmdPkeLockTake rq s = setF PKE_LOCK_lease n (setB PKE_LOCK_busy false (setLease n
      { state := .held, kind := 4, res := 0, owner := rqTag rq, dur := none, left := none } (busDone s))) := by
    rw [cmdPkeLockTake, if_neg (by simpa using not_host_of_admits_pke hadm), hnone]
    dsimp only
    rw [grantLease_of_free hfence hn]
    rfl
  obtain ⟨hbusy, hbus, hlease⟩ := lockTaken_shows (s := s) (busy := PKE_LOCK_busy) (lease := PKE_LOCK_lease) (n := n) (l :=
    { state := .held, kind := 4, res := 0, owner := rqTag rq, dur := none, left := none }) (by decide)
  refine completes_of_eq (congrArg Host.Outcome.next ((gate_of_admits hadm _).trans heffect)) ⟨hbusy, hbus, n, ?_⟩
  rw [hlease]
  exact ⟨rfl, rfl, rfl⟩

/-! ## Renewal, release, expiry, revocation, reclaim (R200 to R204) -/

theorem exec_leaseRenew_of_renewable {rq : Requester} {n : Nat} {s : State} (hadm : admits rq true 0x4004006C 0 s = true)
    (hholds : holdsLease (n % 1024) rq s = true) (hdur : (leaseOf (n % 1024) s).dur.isSome = true)
    (hkind : (leaseOf (n % 1024) s).kind = 1 ∨ (leaseOf (n % 1024) s).kind = 2) (hloader : loaderWaits (leaseOf (n % 1024) s) s = false) :
    exec (.leaseRenew rq n) s = .next (busDone (setLease (n % 1024) { leaseOf (n % 1024) s with left := (leaseOf (n % 1024) s).dur } s)) := by
  refine congrArg Host.Outcome.next ((gate_of_admits hadm _).trans ?_)
  unfold cmdLeaseRenew leaseRenew
  rw [if_neg (by simp [hholds])]
  refine if_neg ?_
  rw [Option.isSome_iff_ne_none] at hdur
  simpa [hdur, hloader] using or_iff_not_imp_left.1 hkind

theorem completes_leaseRelease {rq : Requester} {n : Nat} {s : State} (hadm : admits rq true 0x40040070 0 s = true)
    (hholds : holdsLease (n % 1024) rq s = true) : Completes (.leaseRelease rq n) s fun t => leaseOf (n % 1024) t = {} ∧ t.bus = .done := by
  refine completes_of_eq (congrArg Host.Outcome.next ((gate_of_admits hadm _).trans (if_neg (by simp [hholds])))) ⟨?_, rfl⟩
  exact (leaseOf_of_leases (leases_releaseEffect _ _ _) _).trans (leaseOf_setLease_self _ _ s)

theorem completes_inkPgfree {rq : Requester} {n : Nat} {s : State} (hadm : admits rq true 0x40040048 0 s = true)
    (hholds : holdsLease n rq s = true) (hkind : (leaseOf n s).kind = 1) : Completes (.inkPgfree rq n) s fun t =>
    leaseOf n t = {} ∧ t.bus = .done :=
  completes_of_eq (congrArg Host.Outcome.next ((gate_of_admits hadm _).trans (if_pos (by simp [hholds, hkind]))))
    ⟨leaseOf_setLease_self _ _ _, rfl⟩

theorem leaseOf_setLease_ne {n k : Nat} (h : n ≠ k) (l : Lease) (s : State) : leaseOf n (setLease k l s) = leaseOf n s := tabGet_tabPut_ne _ _ _ _ h

/-- Each lease of a list fenced. -/
theorem state_fenced_of_mem {n : Nat} {l : List Nat} (hn : n ∈ l) (s : State) :
    (leaseOf n (applyAll l (fun n t => setLease n { leaseOf n t with state := .fenced } t) s)).state = .fenced := by
  have hkeeps : ∀ (k : Nat) (u : State), (leaseOf n u).state = .fenced →
      (leaseOf n (setLease k { leaseOf k u with state := .fenced } u)).state = .fenced := by
    intro k u hu
    by_cases hk : n = k
    · subst hk; rw [leaseOf_setLease_self]
    · rwa [leaseOf_setLease_ne hk]
  induction l generalizing s with
  | nil => cases hn
  | cons k r ih =>
    rcases List.mem_cons.1 hn with rfl | hn
    · exact applyAll_of r _ hkeeps _ (by rw [leaseOf_setLease_self])
    · exact ih hn _

/-- A declaration fences what it reaches. -/
theorem declare_fences {n owner decl : Nat} {reach : Lease → Nat → Bool} {s : State} (h : n ∈ (reached reach s).map (·.1)) :
    (leaseOf n (declare reach owner decl s)).state = .fenced := by
  unfold declare
  rw [if_neg (List.ne_nil_of_mem h)]
  exact state_fenced_of_mem h s

theorem completes_leaseExpiry {n : Nat} {s : State} (hheld : (leaseOf n s).state = .held) (hdur : (leaseOf n s).dur.isSome = true)
    (hkind : (leaseOf n s).kind ≠ 5) : Completes (.leaseExpiry n) s fun t =>
    (leaseOf n t).state = .fenced ∧ t.regs = s.regs ∧ t.mem = s.mem := by
  refine completes_of_eq (congrArg Host.Outcome.next (onlyIf_true (by simp [hheld, hdur, hkind]) _ s)) ?_
  have hreached : n ∈ (reached (fun _ k => k == n) s).map (·.1) := mem_reached hheld (by simp)
  exact ⟨declare_fences hreached, by rw [declare_onlyInk hreached], by rw [declare_onlyInk hreached]⟩

theorem completes_inkRevoke {rq : Requester} {w : Word} {s : State} (hadm : admits rq true 0x40040080 0 s = true)
    (hheld : (leaseOf (wbits w 0 10) s).state = .held) (hmay : mayRevoke rq (leaseOf (wbits w 0 10) s) = true) :
    Completes (.inkRevoke rq w) s fun t => (leaseOf (wbits w 0 10) t).state = .fenced ∧ t.bus = .done ∧ t.regs = s.regs := by
  refine completes_of_eq (congrArg Host.Outcome.next (gate_of_admits hadm _)) ?_
  have hdeclared {reach : Lease → Nat → Bool} {owner decl : Nat} (hreach : reach (leaseOf (wbits w 0 10) s) (wbits w 0 10) = true) :
      (leaseOf (wbits w 0 10) (declare reach owner decl (busDone s))).state = .fenced ∧ (declare reach owner decl (busDone s)).bus = .done ∧
        (declare reach owner decl (busDone s)).regs = s.regs := by
    have hreached : wbits w 0 10 ∈ (reached reach (busDone s)).map (·.1) := mem_reached (s := busDone s) hheld hreach
    exact ⟨declare_fences hreached, by rw [declare_onlyInk hreached]; rfl, by rw [declare_onlyInk hreached]; rfl⟩
  unfold cmdInkRevoke inkRevoke
  dsimp only
  rw [if_neg (by simp [hheld]), if_neg (by simp [hmay])]
  split
  · exact hdeclared (decide_eq_true rfl)
  · exact hdeclared (by simp)

theorem completes_reclaimDone {d : Declaration} {r : List Declaration} {s : State} (h : s.ink.decls = d :: r) :
    Completes .reclaimDone s fun t => t.ink.decls = r ∧ getF INK_REVLOG1_count t = d.leases.length % 2 ^ 11 := by
  refine completes_of_eq (congrArg Host.Outcome.next (by rw [h])) ?_
  dsimp only
  generalize hu : setF INK_REVLOG0_owner d.owner _ = u
  have hdecls : u.ink.decls = r := by
    rw [← hu]
    exact applyAll_of (P := fun t => t.ink.decls = r) _ _ (fun n v hv => (decls_reclaimOne n v).trans hv) _ rfl
  have hcount : getF INK_REVLOG1_count u = d.leases.length % 2 ^ 11 := by
    rw [← hu, getF_setF_ne _ _ (by decide), getF_setF_ne _ _ (by decide), getF_setF_self]
    rfl
  exact ⟨(decls_of_aside (raise_aside rfl)).trans hdecls, ((raise_frame 16 u).2 _ (by decide)).trans hcount⟩

/-! ## Page requests (R180 to R186) -/

/-- A round over n places, begun anywhere, meets the one entry of a list that stands at a place. -/
theorem findSome?_round_singleton {α : Type} {f : α → Nat} {r : α} {n : Nat} (h : f r < n) (p : Nat) :
    (List.range n).findSome? (fun k => [r].find? fun x => decide (f x = (p + k) % n)) = some r := by
  have hmeets : (p + (f r + (n - p % n)) % n) % n = f r := by
    have hp : p % n < n := Nat.mod_lt _ (by omega)
    have hsum : p + (f r + (n - p % n)) = f r + n * (p / n + 1) := by
      have := Nat.div_add_mod p n
      rw [Nat.mul_add]
      omega
    rw [Nat.add_mod_mod, hsum, Nat.add_mul_mod_self_left, Nat.mod_eq_of_lt h]
  have hsome : ((List.range n).findSome? fun k => [r].find? fun x => decide (f x = (p + k) % n)).isSome = true :=
    List.findSome?_isSome_iff.2 ⟨(f r + (n - p % n)) % n, List.mem_range.2 (Nat.mod_lt _ (by omega)), by simp [hmeets]⟩
  obtain ⟨x, hx⟩ := Option.isSome_iff_exists.1 hsome
  obtain ⟨k, -, hk⟩ := List.exists_of_findSome?_eq_some hx
  rw [hx, List.mem_singleton.1 (List.mem_of_find?_eq_some hk)]

section
variable {r : PageReq} {s : State}

theorem firstAfter_singleton (hidx : r.idx < 21) (p : Nat) : firstAfter p [r] = some r := findSome?_round_singleton hidx p

theorem firstAfter_nil (p : Nat) : firstAfter p [] = none := by simp [firstAfter]

/-- A lone request is presented. -/
theorem presentedAll_singleton (hidx : r.idx < 21) (hsrc : r.src < 50) (s : State) : presentedAll [r] s = [r] := by
  unfold presentedAll
  by_cases h : r.idx = 17
  · have hturn : presented [r] s = some r := findSome?_round_singleton hsrc s.ink.turn
    simp [h, hsrc, hturn]
  · simp [h, hidx, presented]

/-- A guaranteed grant charges its set and moves the guaranteed pointer past the requester. -/
theorem grantPage_guaranteed {i : Nat} (h : pageAnswer i s = .guaranteed) (idx : Nat) :
    setUsed i (grantPage idx i s).2 = setUsed i s + 1 ∧ getF INK_ALLOCSTAT_gptr (grantPage idx i s).2 = (idx + 1) % 21 ∧
      (grantPage idx i s).2.ink.holds = s.ink.holds := by
  have hguar : setUsed i s < (setPart i s).guar := by
    by_contra hover
    simp only [pageAnswer, if_neg hover] at h
    split_ifs at h
  simp only [grantPage, h, takePage, if_pos hguar]
  refine ⟨tabGet_tabPut_self 0 s.ink.used i (setUsed i s + 1), ?_, rfl⟩
  rw [beq_self_eq_true, if_pos rfl, getF_setF_self]
  exact Nat.mod_eq_of_lt ((Nat.mod_lt _ (by decide)).trans (by decide))

/-- The turn of the sources of index 17 moves. -/
theorem turnPast_eq (l : List PageReq) (s : State) :
    turnPast l s = { s with ink := { s.ink with turn := (turnPast l s).ink.turn } } := by
  unfold turnPast
  split <;> rfl

theorem completes_pageRequest_guaranteed {i : Nat} (hidx : r.idx < 21) (hsrc : r.src < 50) (hset : reqSet r s = some i)
    (hans : reqAnswer r s = .guaranteed) (hholds : holdsOf (reqSource r) s = []) : Completes (.pageRequest [r]) s fun t =>
    setUsed i t = setUsed i s + 1 ∧ getF INK_ALLOCSTAT_gptr t = (r.idx + 1) % 21 := by
  have hwinner : winner [r] s = some r := by simp [winner, hans, firstAfter_singleton hidx]
  have hanswer : pageAnswer i (turnPast [r] s) = .guaranteed := by
    have hans' : pageAnswer i s = .guaranteed := by simpa [reqAnswer, hset] using hans
    rw [turnPast_eq]
    exact hans'
  obtain ⟨hused, hptr, hkept⟩ := grantPage_guaranteed hanswer r.idx
  have hnone {k p : Nat} : holdsOf (reqSource r) (addFilling k p (grantPage r.idx i (turnPast [r] s)).2) = [] := by
    have hholds' : holdsOf (reqSource r) (addFilling k p (grantPage r.idx i (turnPast [r] s)).2) = holdsOf (reqSource r) s := by
      show tabGet [] (grantPage r.idx i (turnPast [r] s)).2.ink.holds _ = _
      rw [hkept, turnPast_eq]
      rfl
    rw [hholds', hholds]
  refine completes_of_eq (t := addFilling (fillKey (reqSource r) r.lossless) (grantPage r.idx i (turnPast [r] s)).1
    (grantPage r.idx i (turnPast [r] s)).2) (congrArg Host.Outcome.next ?_) ⟨hused.trans ?_, hptr⟩
  · rw [presentedAll_singleton hidx hsrc]
    dsimp only
    rw [hwinner]
    dsimp only
    rw [hset]
    have hothers : [r].filter (· ≠ r) = [] := by simp
    rw [hothers]
    show retryHold _ (addFilling _ _ _) = _
    rw [retryHold, hnone]
  · rw [turnPast_eq]
    rfl

theorem filling_freePages (l : List Nat) (s : State) : (freePages l s).ink.filling = s.ink.filling := by
  refine applyAll_of (P := fun t => t.ink.filling = s.ink.filling) l _ (fun p u hu => ?_) s rfl
  unfold freePage poolReturn
  dsimp only
  split_ifs <;> exact hu

/-- A lossy request that is refused goes whole: counted with its reason, its pages given back (R184, R186). -/
theorem completes_pageRequest_refused {k : Nat} (hidx : r.idx < 20) (hport : r.idx ≠ 16) (hsrc : r.src < 50) (hlossy : r.lossless = false)
    (hans : reqAnswer r s = .noPage k) : Completes (.pageRequest [r]) s fun t =>
    getF (INK_DROP_count r.idx (k - 1)) t = min (getF (INK_DROP_count r.idx (k - 1)) s + 1) (2 ^ 32 - 1) ∧
      fillingAt (fillKey (reqSource r) false) t = [] := by
  have hwinner : winner [r] s = none := by simp [winner, hans, firstAfter_nil]
  refine completes_of_eq (t := countDrop r.idx k (freePages (fillingAt (fillKey (reqSource r) false) (turnPast [r] s))
    (setFilling (fillKey (reqSource r) false) [] (turnPast [r] s)))) (congrArg Host.Outcome.next ?_) ⟨?_, ?_⟩
  · rw [presentedAll_singleton (hidx.trans (by decide)) hsrc]
    dsimp only
    rw [hwinner]
    simp [applyAll, loses, hans, noPage, hlossy, hidx, hport]
  · have hkey : ∀ g ∈ poolFields, (INK_DROP_count r.idx (k - 1)).key ≠ g.key := by
      intro g hg
      have hlow : g.key < 0x40040400 * 32 := by revert g; decide
      simp only [Fld.key, INK_DROP_count] at hlow ⊢
      omega
    have hkept : getF (INK_DROP_count r.idx (k - 1)) (freePages (fillingAt (fillKey (reqSource r) false) (turnPast [r] s))
        (setFilling (fillKey (reqSource r) false) [] (turnPast [r] s))) = getF (INK_DROP_count r.idx (k - 1)) s := by
      rw [(freePages_frame _ _).1 _ hkey, turnPast_eq]
      rfl
    unfold countDrop incF
    rw [getF_setF_self, hkept]
    exact Nat.mod_eq_of_lt ((min_le_right _ _).trans_lt (Nat.sub_lt (by positivity) one_pos))
  · show tabGet [] (freePages _ _).ink.filling _ = _
    rw [filling_freePages]
    exact tabGet_tabPut_self [] (turnPast [r] s).ink.filling _ []

end

/-! ## Pages sent, chains of software, and the page windows (R187, R188, R217, R232) -/

theorem find?_tabIns_self {α : Type} (k : Nat) (v : α) {t : List (Nat × α)} (h : ∀ e ∈ t, e.1 ≠ k) :
    (tabIns k v t).find? (fun e => decide (e.1 = k)) = some (k, v) := by
  induction t with
  | nil => simp [tabIns]
  | cons e r ih =>
    have he := h e List.mem_cons_self
    have hr := ih fun x hx => h x (List.mem_cons_of_mem e hx)
    by_cases h1 : k < e.1 <;> simp [tabIns, h1, he, hr]

theorem sendingOf_setSending (p : Nat) (r : Replica) (s : State) : sendingOf p (setSending p (some r) s) = some r := by
  have habsent : ∀ e ∈ tabDrop s.swc.sending p, e.1 ≠ p := by simp [tabDrop]
  simp only [sendingOf, setSending]
  rw [find?_tabIns_self p r habsent]
  rfl

theorem pageRefs_freePage (g : Nat) (s : State) : pageRefs g (freePage g s) = pageRefs g s - 1 := by
  have hrefs : (freePage g s).ink.refs = tabPut 0 s.ink.refs g (pageRefs g s - 1) := by
    unfold freePage poolReturn
    dsimp only
    split_ifs <;> rfl
  rw [pageRefs, hrefs, tabGet_tabPut_self]

theorem completes_pageFree {p g : Nat} {r : Replica} {s : State} (hsend : sendingOf p s = some r) (hp : p ≠ 19)
    (hcut : (r.cut && r.wb.lossless) = false) (hpage : (r.wb.pages.drop r.read).head? = some g) : Completes (.pageFree p) s fun t =>
    sendingOf p t = some { r with read := r.read + 1 } ∧ pageRefs g t = pageRefs g s - 1 := by
  refine completes_of_eq (t := setSending p (some { r with read := r.read + 1 }) (freePage g s)) (congrArg Host.Outcome.next ?_)
    ⟨sendingOf_setSending _ _ _, pageRefs_freePage g s⟩
  rw [hsend]
  dsimp only
  rw [if_neg (by simp [hp, hcut]), hpage]

theorem completes_inkPgreq {rq : Requester} {w : Word} {i : Nat} {s : State} (hadm : admits rq true 0x40040040 0 s = true)
    (hsome : 1 ≤ wbits w 0 9) (hmost : wbits w 0 9 ≤ 64) (hset : setIdx 16 (wbits w 9 3) s = some i)
    (hanswer : chainAnswer i (wbits w 0 9 - (fillingAt (fillKey (softIdx (rqWorld rq)) false) s).length) s = 0)
    (hfence : ownerFenced (rqTag rq) s = false) (hfree : (freeLease (rqTag rq) s).isSome = true) : Completes (.inkPgreq rq w) s fun t =>
    isSet INK_PGRESP_done t = true ∧ isSet INK_PGRESP_refused t = false ∧ t.bus = .done := by
  refine completes_of_eq (congrArg Host.Outcome.next (gate_of_admits hadm _)) ?_
  unfold cmdInkPgreq
  rw [if_neg (by simp; omega)]
  extract_lets s0 idx k have0
  have hset0 : setIdx 16 (wbits w 9 3) s0 = some i := hset
  have hanswer0 : chainAnswer i (wbits w 0 9 - have0.length) s0 = 0 := hanswer
  have hfree0 : (freeLease (rqTag rq) s0).isSome = true := hfree
  have hfence0 : ownerFenced (rqTag rq) s0 = false := hfence
  rw [hset0]
  dsimp only
  rw [hanswer0, if_neg (by decide), if_neg (by simp [Option.isNone_iff_eq_none, ← Option.isSome_iff_ne_none, hfree0, hfence0])]
  generalize ht : (takePages idx i (wbits w 0 9 - have0.length) (freePages (have0.drop (wbits w 0 9)) (setFilling k [] s0))) = taken
  have haside : HasAside (asideView s0) taken.2.2 := by
    rw [← ht]
    exact takePages_aside (freePages_aside (setFilling_aside rfl))
  obtain ⟨n, hn⟩ := Option.isSome_iff_exists.1 hfree0
  rw [grantLease_of_free (n := n) ((ownerFenced_of_leases (leases_of_aside haside) _).trans hfence0)
    ((freeLease_of_leases (leases_of_aside haside) _).trans hn)]
  refine ⟨isSet_setF_self _ _ _, ?_, ?_⟩
  · exact (isSet_setF_ne _ _ (by decide)).trans (isSet_setF_self _ _ _)
  · exact (bus_of_aside (linkPages_aside rfl)).trans (bus_of_aside haside)

section
variable {rq : Requester} {a size : Nat} {s : State}

/-- An aligned access of a core to the data of a leased page is made. -/
theorem exec_pageWindowAccess_data (hcore : (rqCore rq).isSome = true) (hlow : hostelBase ≤ a) (hhigh : a + size ≤ hostelBase + 0xC00000)
    (hsize : size = 1 ∨ size = 2 ∨ size = 4) (halign : a % size = 0) (hleased : pageLeased (rqWorld rq) ((a - hostelBase) / 256) s = true)
    (v : Option Word) : exec (.pageWindowAccess rq a size v) s = .next
      (v.elim (busData (leNat (rdBytes s a size)) s) fun x => busDone (wrBytes a (leBytes size x.toNat) s)) := by
  have hpos : max 1 size = size := by omega
  have hdata : (decide (hostelBase ≤ a) && decide (a < hostelBase + 0xC00000)) = true := by
    simp only [Bool.and_eq_true, decide_eq_true_eq]; omega
  have hlink : (decide (0x48C00000 ≤ a) && decide (a < 0x48C30000)) = false := by
    simp only [Bool.and_eq_false_iff, decide_eq_false_iff_not]; simp only [hostelBase] at hhigh; omega
  have hpage : ¬ (a - hostelBase) / 256 ≥ 49152 := by omega
  have hnone : (rqCore rq).isNone = false := by simpa [Option.isSome_iff_ne_none] using hcore
  refine congrArg Host.Outcome.next ?_
  dsimp only
  rw [hdata, hlink, if_pos rfl, if_neg (by simp [hnone, hpos, halign]; omega), if_neg (by simp [hleased])]
  cases v <;> rfl

theorem leBytes_getD (n : Nat) : ∀ (i x : Nat), i < n → (leBytes n x).getD i 0 = BitVec.ofNat 8 (x / 256 ^ i) := by
  induction n with
  | zero => exact fun i x hi => absurd hi (Nat.not_lt_zero i)
  | succ n ih =>
    intro i x hi
    cases i with
    | zero => simp [leBytes]
    | succ i =>
      have htail := ih i (x / 256) (Nat.lt_of_succ_lt_succ hi)
      rw [Nat.div_div_eq_div_mul, ← Nat.pow_succ'] at htail
      simpa [leBytes] using htail

theorem completes_pageWindowAccess_write {x : Word} (hcore : (rqCore rq).isSome = true) (hlow : hostelBase ≤ a)
    (hhigh : a + size ≤ hostelBase + 0xC00000) (hsize : size = 1 ∨ size = 2 ∨ size = 4) (halign : a % size = 0)
    (hleased : pageLeased (rqWorld rq) ((a - hostelBase) / 256) s = true) : Completes (.pageWindowAccess rq a size (some x)) s fun t =>
    (∀ i, i < size → rd8 t (a + i) = BitVec.ofNat 8 (x.toNat / 256 ^ i)) ∧ (∀ b, b < a ∨ a + size ≤ b → rd8 t b = rd8 s b) ∧
      t.bus = .done ∧ t.regs = s.regs := by
  refine completes_of_eq (exec_pageWindowAccess_data hcore hlow hhigh hsize halign hleased (some x)) ⟨fun i hi => ?_, fun b hb => ?_, rfl, ?_⟩
  · exact (rd8_wrBytes_inside _ a s i (by simpa using hi)).trans (leBytes_getD _ i _ hi)
  · exact rd8_wrBytes_outside _ a s b (by simpa using hb)
  · show (wrBytes a _ s).regs = s.regs
    rw [wrBytes_eq]

end

/-- Settles O25: one lemma for each command; the data path and the ends of leases leave the other lease records. -/
theorem pageAndLeaseCommandsComplete : Obligations.PageAndLeaseCommandsComplete := by
  unfold Obligations.PageAndLeaseCommandsComplete
  exact ⟨
    fun r i s hidx hsrc hset hans hholds => completes_pageRequest_guaranteed hidx hsrc hset hans hholds,
    fun r k s hidx hport hsrc hlossy hans _ _ => completes_pageRequest_refused hidx hport hsrc hlossy hans,
    fun p g r s hsend hp hcut hpage => completes_pageFree hsend hp hcut hpage,
    fun rq w i s hadm hsome hmost hset hanswer hfence hfree => completes_inkPgreq hadm hsome hmost hset hanswer hfence hfree,
    fun rq n s hadm hholds hkind => completes_inkPgfree hadm hholds hkind,
    fun rq a size x s hcore hlow hhigh hsize halign hleased => completes_pageWindowAccess_write hcore hlow hhigh hsize halign hleased,
    fun rq a size s hcore hlow hhigh hsize halign hleased => exec_pageWindowAccess_data hcore hlow hhigh hsize halign hleased none,
    fun rq s hadm hnone hfence hfree => completes_swcLockTake hadm hnone hfence hfree,
    fun rq s hadm hnone hfence hfree hdrain => completes_fwtLockTake hadm hnone hfence hfree hdrain,
    fun rq s hadm hnone hfence hfree => completes_pkeLockTake hadm hnone hfence hfree,
    fun rq n s hadm hholds hdur hkind hloader => exec_leaseRenew_of_renewable hadm hholds hdur hkind hloader,
    fun rq n s hadm hholds => completes_leaseRelease hadm hholds,
    fun n s hheld hdur hkind => completes_leaseExpiry hheld hdur hkind,
    fun rq w s hadm hheld hmay => completes_inkRevoke hadm hheld hmay,
    fun d r s h => completes_reclaimDone h⟩

end Sys2Proof.Machine

/-! # Where lodger commands complete

A lodger's scheduling record is read back as it was written; a context fault changes residence and faults alone, so that it keeps what each
lodger runs. -/

namespace Sys2Proof.Machine

section
variable {lid : Nat} {s : State}

/-! ## Scheduling records -/

theorem lodgerOf_setLodger_self (lid : Nat) (l : Lodger) (s : State) : lodgerOf lid (setLodger lid l s) = l := tabGet_tabPut_self _ _ _ _

theorem lodgerOf_setLodger_ne {k : Nat} (h : lid ≠ k) (l : Lodger) (s : State) : lodgerOf lid (setLodger k l s) = lodgerOf lid s :=
  tabGet_tabPut_ne _ _ _ _ h

theorem lodgerOf_raise (lid e : Nat) (s : State) : lodgerOf lid (raise e s) = lodgerOf lid s := by rw [(raise_frame e s).1]; rfl

/-! ## What context faults keep (R195) -/

/-- A record replaced by one that runs the same item. -/
theorem running_setLodger {k : Nat} {l : Lodger} (h : l.running = (lodgerOf k s).running) (lid : Nat) :
    (lodgerOf lid (setLodger k l s)).running = (lodgerOf lid s).running := by
  by_cases hk : lid = k
  · subst hk; rw [lodgerOf_setLodger_self, h]
  · rw [lodgerOf_setLodger_ne hk]

theorem running_evict (v lid : Nat) (s : State) : (lodgerOf lid (evict v s)).running = (lodgerOf lid s).running :=
  running_setLodger (by rfl) lid

theorem running_pageIn (k lid : Nat) (s : State) : (lodgerOf lid (pageIn k s)).running = (lodgerOf lid s).running :=
  running_setLodger (s := { s with ink := { s.ink with faultsMs := s.ink.faultsMs + 1 } }) (by rfl) lid

theorem running_pinIn (k lid : Nat) (s : State) : (lodgerOf lid (pinIn k s)).running = (lodgerOf lid s).running := by
  unfold pinIn
  split
  · exact running_setLodger (by rfl) lid
  · split
    · exact (running_setLodger (by rfl) lid).trans (running_evict _ lid s)
    · rfl

theorem running_contextFault (k lid : Nat) (s : State) : (lodgerOf lid (contextFault k s)).running = (lodgerOf lid s).running := by
  unfold contextFault
  dsimp only
  split
  · rfl
  · split
    · exact running_pinIn k lid s
    · split
      · exact running_pageIn k lid s
      · split
        · exact (running_pageIn k lid _).trans (running_evict _ lid s)
        · have hwaits : (lodgerOf lid (setLodger k { lodgerOf k s with waitingVictim := true } s)).running = (lodgerOf lid s).running :=
            running_setLodger (by rfl) lid
          split
          · exact hwaits
          · rw [lodgerOf_raise]
            exact hwaits

theorem running_retryFaults (lid : Nat) (s : State) : (lodgerOf lid (retryFaults s)).running = (lodgerOf lid s).running :=
  applyAll_of (P := fun t => (lodgerOf lid t).running = (lodgerOf lid s).running) _ contextFault
    (fun k u hu => (running_contextFault k lid u).trans hu) s rfl

/-! ## Periods, releases, dispatches and completions (R191 to R193) -/

theorem completes_lodgerPeriodStart (hpresent : (lodgerOf lid s).present = true) : Completes (.lodgerPeriodStart lid) s fun t =>
    (lodgerOf lid t).periodStart = s.ticks ∧ (lodgerOf lid t).carry = 0 ∧ (lodgerOf lid t).queue = (lodgerOf lid s).queue ∧
    ((lodgerOf lid s).running = none → (lodgerOf lid t).left =
      lodgerBudget lid s - min (lodgerOf lid s).carry (lodgerBudget lid s)) ∧
    (lodgerOf lid t).suspended = (decide ((lodgerOf lid t).left = 0) && !(lodgerOf lid t).queue.isEmpty) ∧ t.regs = s.regs ∧ t.mem = s.mem := by
  refine completes_of_eq (congrArg Host.Outcome.next (onlyIf_true hpresent _ s)) ?_
  dsimp only
  rw [lodgerOf_setLodger_self]
  refine ⟨rfl, by simp [chargeCycles], rfl, fun hidle => by simp [chargeCycles, engineTime, hidle], ?_, rfl, rfl⟩
  have hempty : (lodgerOf lid s).queue.isEmpty = decide ((lodgerOf lid s).queue = []) := by rw [Bool.eq_iff_iff]; simp
  simp [chargeCycles, hempty]

theorem completes_itemRelease {w : ItemWork} (hpresent : (lodgerOf lid s).present = true) (hfenced : (lodgerOf lid s).fenced = false)
    (hresident : (lodgerOf lid s).resident = true) : Completes (.itemRelease lid w) s fun t =>
    (lodgerOf lid t).queue = (lodgerOf lid s).queue ++ [{ work := w, due := dueTime lid s, rel := nowMs s }] ∧ t.regs = s.regs := by
  refine completes_of_eq (t := setLodger lid { lodgerOf lid s with
    queue := (lodgerOf lid s).queue ++ [{ work := w, due := dueTime lid s, rel := nowMs s }] } s) (congrArg Host.Outcome.next ?_) ⟨?_, rfl⟩
  · simp [releaseItem, hpresent, hfenced, hresident]
  · rw [lodgerOf_setLodger_self]

theorem completes_itemDispatch {it : Item} {q : List Item} (hfree : enginesBusy s < 16) (hstall : isSet TRN_OBUF_stall s = false)
    (hready : readyFirst s = some lid) (hqueue : (lodgerOf lid s).queue = it :: q) : Completes .itemDispatch s fun t =>
    (lodgerOf lid t).running = some it ∧ (lodgerOf lid t).queue = q ∧ t.ink.dispatches = s.ink.dispatches + 1 := by
  refine completes_of_eq (congrArg Host.Outcome.next (onlyIf_true (by simp [hfree, hstall]) _ s)) ?_
  rw [hready]
  dsimp only
  rw [hqueue]
  dsimp only
  rw [lodgerOf_setLodger_self]
  exact ⟨rfl, rfl, rfl⟩

theorem completes_itemComplete (hrunning : (lodgerOf lid s).running.isSome = true) : Completes (.itemComplete lid) s fun t =>
    (lodgerOf lid t).running = none := by
  refine completes_of_eq (congrArg Host.Outcome.next (onlyIf_true hrunning _ s)) ?_
  dsimp only
  rw [running_retryFaults, lodgerOf_setLodger_self]
  rfl

/-! ## Misses and paging (R194 to R196) -/

/-- An item in the queue that is not late yet makes the miss. -/
theorem completes_deadlineMiss (hwaits : ((lodgerOf lid s).queue.any fun i => !i.late) = true) : Completes (.deadlineMiss lid) s fun t =>
    (lodgerOf lid t).missPeriods = min ((lodgerOf lid s).missPeriods + 1) 0xFFFF ∧
    getF INK_SCHED_misses t = min (getF INK_SCHED_misses s + 1) 0xFFFF ∧ getF INK_MISSLOG_lid t = lid % 256 := by
  refine completes_of_eq rfl ?_
  dsimp only
  split
  · next hnone =>
    obtain ⟨i, hi, hlate⟩ := List.any_eq_true.1 hwaits
    exact absurd hlate (List.filter_eq_nil_iff.1 hnone i (List.mem_append_right _ hi))
  · refine ⟨?_, ?_, ?_⟩
    · rw [lodgerOf_raise]
      exact congrArg Lodger.missPeriods (lodgerOf_setLodger_self lid _ s)
    · rw [(raise_frame 13 _).2 _ (by decide), incF, getF_setF_self, getF_setF_ne _ _ (by decide)]
      exact Nat.mod_eq_of_lt ((min_le_right _ _).trans_lt (by decide))
    · rw [(raise_frame 13 _).2 _ (by decide), incF, getF_setF_ne _ _ (by decide), getF_setF_self]
      rfl

theorem completes_pageInDone {us : Nat} (hfaulting : (lodgerOf lid s).faulting = true) : Completes (.pageInDone lid us) s fun t =>
    (lodgerOf lid t).resident = true ∧ (lodgerOf lid t).faulting = false ∧
    getF INK_PAGESTAT_maxlat t = min (max (getF INK_PAGESTAT_maxlat s) us) 255 := by
  refine completes_of_eq (congrArg Host.Outcome.next (onlyIf_true hfaulting _ s)) ?_
  have hlodger := lodgerOf_setLodger_self lid { lodgerOf lid s with faulting := false, resident := true } s
  refine ⟨congrArg Lodger.resident hlodger, congrArg Lodger.faulting hlodger, ?_⟩
  rw [getF_setF_self]
  exact Nat.mod_eq_of_lt ((min_le_right _ _).trans_lt (by decide))

theorem completes_pagingMsCheck (s : State) : Completes .pagingMsCheck s fun t =>
    getF INK_PAGESTAT_faults t = s.ink.faultsMs % 2 ^ 16 ∧ t.ink.faultsMs = 0 := by
  refine completes_of_eq rfl ?_
  dsimp only
  split
  · exact ⟨((raise_frame 14 _).2 _ (by decide)).trans (getF_setF_self _ _ _), by rw [(raise_frame 14 _).1]; rfl⟩
  · exact ⟨getF_setF_self _ _ _, rfl⟩

end

/-- Settles O26: one lemma for each command; the end of an item tries the waiting faults, which keep what runs. -/
theorem lodgerCommandsComplete : Obligations.LodgerCommandsComplete := by
  unfold Obligations.LodgerCommandsComplete
  exact ⟨
    fun lid s hpresent => completes_lodgerPeriodStart hpresent,
    fun lid w s hpresent hfenced hresident => completes_itemRelease hpresent hfenced hresident,
    fun lid it q s hfree hstall hready hqueue => completes_itemDispatch hfree hstall hready hqueue,
    fun lid s hrunning => completes_itemComplete hrunning,
    fun lid s hwaits => completes_deadlineMiss hwaits,
    fun lid us s hfaulting => completes_pageInDone hfaulting,
    completes_pagingMsCheck⟩

end Sys2Proof.Machine

namespace Sys2Proof.Machine

/-! # Commands that store nothing

A command that stores nothing is a composition of functions that leave memory as it was (`Keeps`). -/

/-- A meaning answers a next state, with the memory of state `s`. -/
abbrev KeepsMem (s : State) (o : Out) : Prop := ∃ t, o = .next t ∧ t.mem = s.mem

/-! ## The operations on states -/

theorem applyAll_mem {α : Type} {l : List α} {g : α → State → State} (hg : ∀ x s, (g x s).mem = s.mem) (s : State) :
    (applyAll l g s).mem = s.mem :=
  applyAll_of (P := fun t => t.mem = s.mem) l g (fun x t h => (hg x t).trans h) s rfl

theorem onlyIf_mem {c : Bool} {g : State → State} (hg : ∀ s, (g s).mem = s.mem) (s : State) : (onlyIf c g s).mem = s.mem :=
  onlyIf_of (P := fun t => t.mem = s.mem) c g rfl (hg s)

theorem takeMsg_mem {type : Nat} {ok : PMsg → Bool} {g : PMsg → State → State} (hg : ∀ m s, (g m s).mem = s.mem) (s : State) :
    (takeMsg type ok g s).mem = s.mem := by
  unfold takeMsg
  split
  · rfl
  · simp only [ite_keeps, hg, ite_self]

theorem sized_keeps {n : Nat} {g : State → State} (hg : ∀ s, Keeps s (g s)) (s : State) : Keeps s (sized n g s) := by
  simp only [Keeps, sized, ite_keeps, hg, busError_keeps, ite_self, and_self]

/-! ## Commands that are one such operation -/

theorem next_keepsMem {s t : State} (h : Keeps s t) : KeepsMem s (.next t) := ⟨t, rfl, h.2⟩

theorem onlyIf_keepsMem {c : Bool} {g : State → State} {s : State} (hg : ∀ s, Keeps s (g s)) : KeepsMem s (.next (onlyIf c g s)) :=
  ⟨_, rfl, onlyIf_mem (fun s => (hg s).2) s⟩

theorem gate_keepsMem {rq : Requester} {write : Bool} {a : Nat} {w : Word} {g : State → State} {s : State} (hg : ∀ s, Keeps s (g s)) :
    KeepsMem s (.next (gate rq write a w g s)) :=
  next_keepsMem (gate_keeps hg s)

/-! ## Commands of several operations -/

theorem execPowerOnResetRelease_keepsMem (role boot : Nat) (wpol : Bool) (s : State) :
    KeepsMem s (execPowerOnResetRelease role boot wpol s) :=
  ⟨_, rfl, by simp only [implies_true, onlyIf_mem, setMode_keeps, setF_keeps, setB_keeps, ite_keeps, ite_self, rstCause_keeps,
    wakeCause_keeps, aonLog_keeps, ledgerLoad_keeps, pllTry_keeps, linkStart_keeps]⟩

theorem execXinAmplitudeGood_keepsMem (s : State) : KeepsMem s (execXinAmplitudeGood s) :=
  ⟨_, rfl, by simp only [implies_true, onlyIf_mem, pllTry_keeps, setB_keeps]⟩

theorem execXinStable_keepsMem (s : State) : KeepsMem s (execXinStable s) :=
  ⟨_, rfl, by simp only [implies_true, onlyIf_mem, setB_keeps, ite_keeps, ite_self, linkStart_keeps]⟩

theorem execRootPllLock_keepsMem (us : Nat) (s : State) : KeepsMem s (execRootPllLock us s) :=
  ⟨_, rfl, by simp only [implies_true, onlyIf_mem, setF_keeps, setB_keeps]⟩

theorem execRootPllLockLoss_keepsMem (s : State) : KeepsMem s (execRootPllLockLoss s) := ⟨_, rfl, rfl⟩

theorem execRailWarnCrossing_keepsMem (r : Rail) (s : State) : KeepsMem s (execRailWarnCrossing r s) :=
  ⟨_, rfl, by split <;> simp only [implies_true, onlyIf_mem, raise_keeps, setB_keeps]⟩

theorem execRailValid_keepsMem (r : Rail) (classMv : Option Nat) (s : State) : KeepsMem s (execRailValid r classMv s) := by
  refine ⟨_, rfl, ?_⟩
  split
  · simp only [implies_true, onlyIf_mem, domainOnIo0_keeps]
  · split <;> simp only [ite_keeps, ite_self, implies_true, onlyIf_mem, orF_keeps, clrF_keeps, railBack_keeps, showRail_keeps]

theorem execPcieRefStable_keepsMem (s : State) : KeepsMem s (execPcieRefStable s) :=
  ⟨_, rfl, by simp only [clearCause_keeps, setB_keeps]⟩

theorem execPfailFall_keepsMem (s : State) : KeepsMem s (execPfailFall s) :=
  ⟨_, rfl, by simp only [implies_true, onlyIf_mem, ite_keeps, ite_self, ledgerSave_keeps, raise_keeps, setB_keeps, shed_keeps]⟩

theorem execResetNRelease_keepsMem (s : State) : KeepsMem s (execResetNRelease s) := ⟨_, rfl, rfl⟩

theorem execBootQuarantine_keepsMem (s : State) : KeepsMem s (execBootQuarantine s) :=
  ⟨_, rfl, by simp only [implies_true, onlyIf_mem, quarantine_keeps, bringUp_keeps, ddrDecide_keeps]⟩

theorem execImageHeaderCheck_keepsMem (hdr : List Byte) (s : State) : KeepsMem s (execImageHeaderCheck hdr s) := by
  refine ⟨_, rfl, onlyIf_mem (fun s => ?_) s⟩
  split
  · exact (loadFail_keeps _ _).2
  · simp only [flashRead_keeps, setF_keeps, setB_keeps]

theorem execImageVerify_keepsMem (img : List Byte) (s : State) : KeepsMem s (execImageVerify img s) := by
  refine ⟨_, rfl, onlyIf_mem (fun s => ?_) s⟩
  split
  · exact (loadFail_keeps _ _).2
  · simp only [setF_keeps, ite_keeps, wearBump_keeps, setMode_keeps, ite_self]

theorem execBuild_keepsMem (ddrOk : Bool) (s : State) : KeepsMem s (execBuild ddrOk s) := by
  refine ⟨_, rfl, onlyIf_mem (fun s => ?_) s⟩
  dsimp only
  split
  · simp only [loadFail_keeps, ite_keeps, setB_keeps, ite_self]
  · simp only [ite_keeps, setB_keeps, ite_self]

theorem execTileStart_keepsMem (n : Nat) (s : State) : KeepsMem s (execTileStart n s) :=
  ⟨_, rfl, by simp only [implies_true, onlyIf_mem, setTileBit_keeps, startup_keeps, ite_keeps, ite_self, canGoto_keeps, setCan_keeps,
    linWakeStart_keeps, serStart_keeps]⟩

theorem execAllowanceRampTick_keepsMem (s : State) : KeepsMem s (execAllowanceRampTick s) :=
  ⟨_, rfl, by simp only [implies_true, onlyIf_mem, startup_keeps, incF_keeps]⟩

theorem execWireInChange_keepsMem (n : Nat) (level : Bool) (s : State) : KeepsMem s (execWireInChange n level s) :=
  ⟨_, rfl, by simp only [implies_true, onlyIf_mem, ite_keeps, ite_self, holdsStart_keeps]⟩

theorem execWireRecordIssue_keepsMem (s : State) : KeepsMem s (execWireRecordIssue s) :=
  ⟨_, rfl, by split <;> simp only [ite_keeps, ite_self, internalInline_keeps]⟩

theorem execCarlinkHuntSync_keepsMem (p : LinkSide) (bit : Nat) (s : State) : KeepsMem s (execCarlinkHuntSync p bit s) :=
  ⟨_, rfl, by simp only [implies_true, onlyIf_mem, ite_keeps, ite_self, setLink_keeps]⟩

theorem execCarlinkFrameSend_keepsMem (p : LinkSide) (incoming : Option LinkFrame) (s : State) :
    KeepsMem s (execCarlinkFrameSend p incoming s) :=
  ⟨_, rfl, by split <;> simp only [sendFrame_keeps, setLink_keeps]⟩

theorem execRephaseStart_keepsMem (p : LinkSide) (s : State) : KeepsMem s (execRephaseStart p s) :=
  ⟨_, rfl, by dsimp only; split <;> simp only [setLink_keeps]⟩

theorem execStandbyExit_keepsMem (refCycles : Nat) (s : State) : KeepsMem s (execStandbyExit refCycles s) :=
  ⟨_, rfl, by simp only [implies_true, onlyIf_mem, setB_keeps, setF_keeps, advanceNs_keeps, wakeRelease_keeps, restartPeriods_keeps,
    releaseHeld_keeps, refreshAdc_keeps, refreshBase_keeps]⟩

theorem execRtcSecond_keepsMem (s : State) : KeepsMem s (execRtcSecond s) :=
  ⟨_, rfl, by simp only [ite_keeps, ite_self, standbyTrigger_keeps, aonAlarm_keeps, setB_keeps]⟩

theorem execWakePinFire_keepsMem (n : Nat) (s : State) : KeepsMem s (execWakePinFire n s) :=
  ⟨_, rfl, by simp only [implies_true, onlyIf_mem, aonAlarm_keeps]⟩

theorem execTamperFire_keepsMem (s : State) : KeepsMem s (execTamperFire s) :=
  ⟨_, rfl, by simp only [implies_true, onlyIf_mem, aonAlarm_keeps, setB_keeps]⟩

theorem execVbatMeasure_keepsMem (mv10 : Nat) (s : State) : KeepsMem s (execVbatMeasure mv10 s) :=
  ⟨_, rfl, by simp only [vbatInhibit_keeps, setF_keeps, ite_keeps, ite_self, aonAlarm_keeps]⟩

theorem execPwrReqHoldExpiry_keepsMem (s : State) : KeepsMem s (execPwrReqHoldExpiry s) :=
  ⟨_, rfl, by simp only [implies_true, onlyIf_mem, ite_keeps, ite_self, preqRelease_keeps]⟩

theorem execDeltaCutOver_keepsMem (s : State) : KeepsMem s (execDeltaCutOver s) :=
  ⟨_, rfl, by simp only [implies_true, onlyIf_mem, rebuildTables_keeps, rebuildTiles_keeps, rebuildCabinet_keeps, rebuildPorts_keeps,
    trnIndex_keeps, rebuildLodgers_keeps, ite_keeps, ite_self, policyForm_keeps, applyRegset_keeps, setF_keeps, setB_keeps,
    showDigest_keeps, sessionClear_keeps, wearBump_keeps, startup_keeps, refreshBase_keeps, ratedChanged_keeps]⟩

theorem execDeltaDrainEnd_keepsMem (s : State) : KeepsMem s (execDeltaDrainEnd s) :=
  ⟨_, rfl, by simp only [implies_true, onlyIf_mem, refreshMode_keeps, raise_keeps, setB_keeps, loaderRelease_keeps, oldFreed_keeps]⟩

theorem execPageFree_keepsMem (p : Nat) (s : State) : KeepsMem s (execPageFree p s) := by
  refine ⟨_, rfl, ?_⟩
  split
  · rfl
  split
  · rfl
  · split <;> simp only [setSending_keeps, freePage_keeps]

theorem execItemDispatch_keepsMem (s : State) : KeepsMem s (execItemDispatch s) := by
  refine ⟨_, rfl, onlyIf_mem (fun s => ?_) s⟩
  split
  · rfl
  · dsimp only
    split
    · rfl
    · simp only [setLodger_keeps]

theorem execDeadlineMiss_keepsMem (lid : Nat) (s : State) : KeepsMem s (execDeadlineMiss lid s) :=
  ⟨_, rfl, by dsimp only; split <;> simp only [setLodger_keeps, raise_keeps, incF_keeps, setF_keeps]⟩

theorem execPageInDone_keepsMem (lid us : Nat) (s : State) : KeepsMem s (execPageInDone lid us s) :=
  ⟨_, rfl, by simp only [implies_true, onlyIf_mem, setF_keeps, setLodger_keeps]⟩

theorem execPagingMsCheck_keepsMem (s : State) : KeepsMem s (execPagingMsCheck s) :=
  ⟨_, rfl, by simp only [setF_keeps, ite_keeps, ite_self, raise_keeps]⟩

theorem execCutThroughEnd_keepsMem (p why : Nat) (s : State) : KeepsMem s (execCutThroughEnd p why s) :=
  ⟨_, rfl, by split <;> simp only [ite_keeps, ite_self, truncate_keeps, abandonFrame_keeps, emit_keeps, setSending_keeps,
    creditUpdate_keeps, refreshHold_keeps, swBump_keeps, setQueue_keeps]⟩

theorem execEgressSelection_keepsMem (p : Nat) (s : State) : KeepsMem s (execEgressSelection p s) := by
  refine ⟨_, rfl, onlyIf_mem (fun s => ?_) s⟩
  dsimp only
  split
  · simp only [refreshHold_keeps, creditUpdate_keeps]
  split
  · simp only [creditUpdate_keeps]
  · simp only [refreshHold_keeps, burstStart_keeps, ite_keeps, ptpStamp_keeps, setSending_keeps, setQueue_keeps, creditUpdate_keeps,
      ite_self]

theorem execGateEntryChange_keepsMem (p : Nat) (s : State) : KeepsMem s (execGateEntryChange p s) :=
  ⟨_, rfl, by simp only [implies_true, onlyIf_mem, creditUpdate_keeps, ite_keeps, ite_self, refreshHold_keeps, showGates_keeps,
    setGate_keeps, countCycles_keeps]⟩

theorem execGateConfigChange_keepsMem (p : Nat) (s : State) : KeepsMem s (execGateConfigChange p s) :=
  ⟨_, rfl, by split <;>
    simp only [creditUpdate_keeps, refreshHold_keeps, showGates_keeps, showOper_keeps, setB_keeps, setGate_keeps, countCycles_keeps]⟩

theorem execGateHoldDiscard_keepsMem (p c : Nat) (s : State) : KeepsMem s (execGateHoldDiscard p c s) := by
  refine ⟨_, rfl, onlyIf_mem (fun s => ?_) s⟩
  dsimp only
  split
  · rfl
  · simp only [ite_keeps, refreshHold_keeps, creditUpdate_keeps, raise_keeps, incF_keeps, discard_keeps, setQueue_keeps, ite_self]

theorem execPolicerCreditTick_keepsMem (s : State) : KeepsMem s (execPolicerCreditTick s) :=
  ⟨_, rfl, by simp only [implies_true, applyAll_mem, policeCredit_keeps]⟩

theorem execRingInterrupt_keepsMem (r : Nat) (s : State) : KeepsMem s (execRingInterrupt r s) :=
  ⟨_, rfl, by simp only [implies_true, onlyIf_mem, ite_keeps, ite_self, emit_keeps]⟩

theorem execLearnApply_keepsMem (s : State) : KeepsMem s (execLearnApply s) :=
  ⟨_, rfl, by split <;> simp only [learnApply_keeps, setF_keeps]⟩

theorem execAgeingScan_keepsMem (s : State) : KeepsMem s (execAgeingScan s) :=
  ⟨_, rfl, by simp only [implies_true, applyAll_mem, ageEntry_keeps]⟩

theorem execMigrateDone_keepsMem (s : State) : KeepsMem s (execMigrateDone s) :=
  ⟨_, rfl, by simp only [implies_true, onlyIf_mem, applyAll_mem, migrateEntry_keeps, ite_keeps, ite_self, setF_keeps]⟩

theorem execBankClearDone_keepsMem (s : State) : KeepsMem s (execBankClearDone s) :=
  ⟨_, rfl, by simp only [implies_true, onlyIf_mem, setF_keeps, clearBank_keeps]⟩

theorem execCaravanMerge_keepsMem (s : State) : KeepsMem s (execCaravanMerge s) :=
  ⟨_, rfl, onlyIf_mem (fun s => (cvTake_keeps _ mergeRecord_keeps s).2) s⟩

theorem execRedistributionInstall_keepsMem (s : State) : KeepsMem s (execRedistributionInstall s) :=
  ⟨_, rfl, onlyIf_mem (fun s => (cvTake_keeps _ installRecord_keeps s).2) s⟩

theorem execCyclicRelease_keepsMem (lid i : Nat) (s : State) : KeepsMem s (execCyclicRelease lid i s) :=
  ⟨_, rfl, by simp only [implies_true, onlyIf_mem, ite_keeps, ite_self, trnCount_keeps, releaseItem_keeps]⟩

theorem execCanFrameValid_keepsMem (n : Nat) (f : CanFrame) (ago : Nat) (s : State) : KeepsMem s (execCanFrameValid n f ago s) :=
  ⟨_, rfl, by simp only [implies_true, onlyIf_mem, canSeen_keeps, ite_keeps, ite_self, incF_keeps, autoValidate_keeps, drawFree_keeps,
    prioWrite_keeps, rxStore_keeps]⟩

theorem execCanXlFrameReceive_keepsMem (n : Nat) (f : CanFrame) (ago : Nat) (ok : Bool) (s : State) :
    KeepsMem s (execCanXlFrameReceive n f ago ok s) :=
  ⟨_, rfl, by simp only [implies_true, onlyIf_mem, canSeen_keeps, ite_keeps, ite_self, incF_keeps, autoValidate_keeps, canEvt_keeps,
    setCan_keeps]⟩

theorem execCanFrameError_keepsMem (n : Nat) (e : CanErr) (code : Nat) (dph : Bool) (s : State) :
    KeepsMem s (execCanFrameError n e code dph s) := by
  refine ⟨_, rfl, onlyIf_mem (fun s => ?_) s⟩
  dsimp only
  split
  · exact (canGoto_keeps _ _ _).2
  split
  · split <;> simp only [canGoto_keeps, ite_keeps, attemptFailed_keeps, protocolError_keeps, ite_self]
  · simp only [canCounters_keeps, ite_keeps, errorFlag_keeps, protocolError_keeps, ite_self]

theorem execCanRecoveryDone_keepsMem (n : Nat) (s : State) : KeepsMem s (execCanRecoveryDone n s) :=
  ⟨_, rfl, by simp only [implies_true, onlyIf_mem, canEvt_keeps, canGoto_keeps, canCounters_keeps]⟩

theorem execCanArbitrationChoice_keepsMem (n : Nat) (s : State) : KeepsMem s (execCanArbitrationChoice n s) := by
  refine ⟨_, rfl, onlyIf_mem (fun s => ?_) s⟩
  split
  · rfl
  · simp only [setB_keeps, setCan_keeps]

theorem execCanTxEnd_keepsMem (n : Nat) (ok : Bool) (meas : Option Nat) (s : State) : KeepsMem s (execCanTxEnd n ok meas s) := by
  refine ⟨_, rfl, onlyIf_mem (fun s => ?_) s⟩
  split
  · rfl
  extract_lets sw soft w1 tdc s0 w0 seen t t1 s2
  have h0 : s0.mem = s.mem := by
    unfold s0
    split <;> simp only [ite_keeps, setF_keeps, ite_self]
  have h2 : s2.mem = s0.mem := by
    simp only [s2, t1, t, seen, ite_keeps, orF_keeps, clrF_keeps, canCounters_keeps, canEvt_keeps, incF_keeps, txEmit_keeps, seeFrame_keeps,
      attemptOver_keeps, swBump_keeps, txEmpty_keeps, attemptFailed_keeps, ite_self]
  simp only [ite_keeps, canStopNow_keeps, h2, h0, ite_self]

theorem execCanSwitchBufferLoad_keepsMem (n : Nat) (s : State) : KeepsMem s (execCanSwitchBufferLoad n s) := by
  refine ⟨_, rfl, onlyIf_mem (fun s => ?_) s⟩
  dsimp only
  split
  · split
    · rfl
    · simp only [ite_keeps, canEvt_keeps, incF_keeps, orF_keeps, setCan_keeps, dropReplica_keeps, setQueue_keeps, ite_self]
  · rfl

theorem execLinHeaderReceive_keepsMem (n sync pid : Nat) (s : State) : KeepsMem s (execLinHeaderReceive n sync pid s) :=
  ⟨_, rfl, by simp only [ite_keeps, ite_self, setSer_keeps, implies_true, onlyIf_mem, pulsesEnd_keeps, serErr_keeps, linHeader_keeps]⟩

theorem execSerialTxDequeue_keepsMem (n : Nat) (s : State) : KeepsMem s (execSerialTxDequeue n s) := by
  refine ⟨_, rfl, onlyIf_mem (fun s => ?_) s⟩
  split
  · rfl
  split
  · rfl
  · simp only [ite_keeps, serBad_keeps, tileSentCount_keeps, linSwitchFrame_keeps, gpioSet_keeps, setSer_keeps, dropReplica_keeps,
      setQueue_keeps, ite_self]

theorem execUartTxStart_keepsMem (n : Nat) (s : State) : KeepsMem s (execUartTxStart n s) := by
  refine ⟨_, rfl, onlyIf_mem (fun s => ?_) s⟩
  dsimp only
  split
  · exact (serBegin_keeps _ _ _ _ _).2
  split
  · rfl
  · exact (serBegin_keeps _ _ _ _ _).2

theorem execUartFrameEnd_keepsMem (n : Nat) (chars : List UartChar) (gap : Bool) (s : State) :
    KeepsMem s (execUartFrameEnd n chars gap s) :=
  ⟨_, rfl, by simp only [implies_true, onlyIf_mem, applyAll_mem, uartChar_keeps, ite_keeps, ite_self, uartEnd_keeps]⟩

theorem execHdlcFrameReceive_keepsMem (n : Nat) (chars : List UartChar) (s : State) :
    KeepsMem s (execHdlcFrameReceive n chars s) :=
  ⟨_, rfl, by simp only [implies_true, onlyIf_mem, applyAll_mem, hdlcChar_keeps]⟩

theorem execGpioInputChange_keepsMem (n levels : Nat) (s : State) : KeepsMem s (execGpioInputChange n levels s) :=
  ⟨_, rfl, by simp only [implies_true, onlyIf_mem, ite_keeps, ite_self, setF_keeps, serHand_keeps]⟩

theorem execEthLinkUp_keepsMem (p spd : Nat) (hdx anok : Bool) (s : State) : KeepsMem s (execEthLinkUp p spd hdx anok s) :=
  ⟨_, rfl, by simp only [implies_true, onlyIf_mem, ite_keeps, ite_self, setB_keeps, raise_keeps, setF_keeps]⟩

theorem execEthLinkDown_keepsMem (p : Nat) (s : State) : KeepsMem s (execEthLinkDown p s) :=
  ⟨_, rfl, by simp only [implies_true, onlyIf_mem, raise_keeps, setB_keeps, linkOff_keeps]⟩

theorem execMdioDone_keepsMem (answer : Option Nat) (s : State) : KeepsMem s (execMdioDone answer s) :=
  ⟨_, rfl, by split <;> simp only [setB_keeps, ite_keeps, ite_self, setF_keeps]⟩

theorem execT1sCollision_keepsMem (p : Nat) (s : State) : KeepsMem s (execT1sCollision p s) := by
  refine ⟨_, rfl, onlyIf_mem (fun s => ?_) s⟩
  split
  · rfl
  · simp only [ite_keeps, ethCount_keeps, dropReplica_keeps, setSending_keeps, ite_self]

theorem execSyncReceive_keepsMem (p : Nat) (s : State) : KeepsMem s (execSyncReceive p s) :=
  ⟨_, rfl, by simp only [implies_true, onlyIf_mem, incF_keeps, setB_keeps]⟩

theorem execSyncTimeout_keepsMem (s : State) : KeepsMem s (execSyncTimeout s) :=
  ⟨_, rfl, by simp only [implies_true, onlyIf_mem, raise_keeps, setB_keeps]⟩

theorem execLatchingPairRead_keepsMem (rq : Requester) (a n : Nat) (s : State) : KeepsMem s (execLatchingPairRead rq a n s) :=
  ⟨_, rfl, (gate_keeps (sized_keeps (readReg_keeps rq a)) s).2⟩

theorem execWakeUpFrame_keepsMem (n : Nat) (f : CanFrame) (dlc : Nat) (s : State) : KeepsMem s (execWakeUpFrame n f dlc s) :=
  ⟨_, rfl, by simp only [implies_true, onlyIf_mem, seeFrame_keeps, setF_keeps, ite_keeps, ite_self, wakeSource_keeps]⟩

theorem execWakeFrameErrors_keepsMem (n : Nat) (s : State) : KeepsMem s (execWakeFrameErrors n s) :=
  ⟨_, rfl, by simp only [implies_true, onlyIf_mem, setF_keeps, ite_keeps, ite_self, wakeSource_keeps]⟩

theorem execWakeWireOrPin_keepsMem (pin : Bool) (i : Nat) (s : State) : KeepsMem s (execWakeWireOrPin pin i s) :=
  ⟨_, rfl, by simp only [ite_keeps, ite_self, implies_true, onlyIf_mem, wakeSource_keeps, pinWakeTaken_keeps]⟩

theorem execLinWakePulseTimeout_keepsMem (n : Nat) (s : State) : KeepsMem s (execLinWakePulseTimeout n s) :=
  ⟨_, rfl, by simp only [implies_true, onlyIf_mem, ite_keeps, ite_self, serStart_keeps, linPulse_keeps]⟩

theorem execQspiStatus_keepsMem (s : State) : KeepsMem s (execQspiStatus s) :=
  ⟨_, rfl, by simp only [implies_true, onlyIf_mem, qspiSend_keeps, busData_keeps]⟩

theorem execMsixRequest_keepsMem (s : State) : KeepsMem s (execMsixRequest s) :=
  ⟨_, rfl, by split <;> simp only [ite_keeps, ite_self, msixSend_keeps, orF_keeps]⟩

theorem execMsixPendingSend_keepsMem (v : Nat) (s : State) : KeepsMem s (execMsixPendingSend v s) :=
  ⟨_, rfl, by simp only [implies_true, onlyIf_mem, msixSend_keeps, clrF_keeps]⟩

theorem execFarResultExpiry_keepsMem (b : Nat) (s : State) : KeepsMem s (execFarResultExpiry b s) :=
  ⟨_, rfl, by split <;> simp only [implies_true, onlyIf_mem, raise_keeps, incF_keeps, declare_keeps]⟩

theorem execFarWriteAck_keepsMem (s : State) : KeepsMem s (execFarWriteAck s) := by
  refine ⟨_, rfl, takeMsg_mem (fun m s => ?_) s⟩
  split
  · rfl
  · simp only [ite_keeps, writeDrop_keeps, farFail_keeps, ite_self]

theorem execFarWriteTimeout_keepsMem (tag : Nat) (s : State) : KeepsMem s (execFarWriteTimeout tag s) :=
  ⟨_, rfl, by split <;> simp only [farFail_keeps, writeDrop_keeps]⟩

theorem execEventMessageSend_keepsMem (s : State) : KeepsMem s (execEventMessageSend s) :=
  ⟨_, rfl, by split <;> simp only [ite_keeps, ite_self, incF_keeps, eventMessage_keeps]⟩

theorem execEventPacingFlush_keepsMem (s : State) : KeepsMem s (execEventPacingFlush s) :=
  ⟨_, rfl, by simp only [implies_true, applyAll_mem, ite_keeps, ite_self, eventMessage_keeps]⟩

theorem execRemoteEventReceive_keepsMem (s : State) : KeepsMem s (execRemoteEventReceive s) := by
  refine ⟨_, rfl, takeMsg_mem (fun m s => ?_) s⟩
  exact onlyIf_mem (fun t => (revPush_keeps _ t).2) s

theorem execJoinAnswer_keepsMem (s : State) : KeepsMem s (execJoinAnswer s) := by
  refine ⟨_, rfl, takeMsg_mem (fun m s => ?_) s⟩
  simp only [ite_keeps, setF_keeps, setB_keeps, followManager_keeps, fullRefresh_keeps, ite_self]

theorem execHeartbeatReceive_keepsMem (s : State) : KeepsMem s (execHeartbeatReceive s) := by
  refine ⟨_, rfl, takeMsg_mem (fun m s => ?_) s⟩
  simp only [ite_keeps, managerBeat_keeps, ite_self]

theorem execWorkerLost_keepsMem (d : Nat) (s : State) : KeepsMem s (execWorkerLost d s) :=
  ⟨_, rfl, by simp only [implies_true, onlyIf_mem, declare_keeps, raise_keeps, incF_keeps, setF_keeps, endPeer_keeps]⟩

theorem execManagerLost_keepsMem (s : State) : KeepsMem s (execManagerLost s) :=
  ⟨_, rfl, by simp only [implies_true, onlyIf_mem, raise_keeps, setB_keeps, endAdmission_keeps]⟩

theorem execTakeoverReceive_keepsMem (s : State) : KeepsMem s (execTakeoverReceive s) := by
  refine ⟨_, rfl, takeMsg_mem (fun m s => ?_) s⟩
  simp only [ite_keeps, managerBeat_keeps, fullRefresh_keeps, setF_keeps, followManager_keeps, stronger_keeps, otherManager_keeps, ite_self]

theorem execImageBlockStatus_keepsMem (s : State) : KeepsMem s (execImageBlockStatus s) := by
  refine ⟨_, rfl, takeMsg_mem (fun m s => ?_) s⟩
  simp only [ite_keeps, ite_self]

theorem execSlotWipe_keepsMem (k : Nat) (s : State) : KeepsMem s (execSlotWipe k s) :=
  ⟨_, rfl, by simp only [implies_true, onlyIf_mem, applyAll_mem, declare_keeps, setSlot_keeps]⟩

theorem execKeyLoadDone_keepsMem (s : State) : KeepsMem s (execKeyLoadDone s) := by
  refine ⟨_, rfl, ?_⟩
  split
  · rfl
  dsimp only
  split
  · simp only [loadRefuse_keeps]
  · next h =>
    split
    · simp only [setB_keeps, setFree_keeps, countFull_keeps, placeKey_keeps h]
    · next h' => simp only [setB_keeps, setF_keeps, grantLease_keeps h', placeKey_keeps h]

theorem execSecureCall_keepsMem (core : Nat) (s : State) : KeepsMem s (execSecureCall core s) :=
  ⟨_, rfl, by simp only [ite_keeps, ite_self, emit_keeps]⟩

theorem execPkeJobEnd_keepsMem (inv : Bool) (cyc : Nat) (s : State) : KeepsMem s (execPkeJobEnd inv cyc s) :=
  ⟨_, rfl, by split <;> simp only [setF_keeps, ite_keeps, ite_self, pkeAfter_keeps, implies_true, applyAll_mem, pkeWipe_keeps,
    raise_keeps, incF_keeps, pkeFinish_keeps, pkeOutputs_keeps]⟩

theorem execDigestDone_keepsMem (ns : Nat) (s : State) : KeepsMem s (execDigestDone ns s) :=
  ⟨_, rfl, by dsimp only; split <;> simp only [setB_keeps, setDig_keeps, ite_keeps, ite_self, implies_true, applyAll_mem, setF_keeps]⟩

theorem execDrbgReseed_keepsMem (rq : Option Requester) (s : State) : KeepsMem s (execDrbgReseed rq s) :=
  ⟨_, rfl, by
    split
    · simp only [ite_keeps, drbgReseed_keeps, ite_self]
    · exact (gate_keeps (fun s => keeps_trans (busDone_keeps s) (drbgReseed_keeps _)) s).2⟩

theorem execEntropyHealthFail_keepsMem (apt : Bool) (s : State) : KeepsMem s (execEntropyHealthFail apt s) :=
  ⟨_, rfl, by simp only [setB_keeps, incF_keeps, ite_keeps, ite_self, raise_keeps]⟩

theorem execAdcConversion_keepsMem (i code : Nat) (s : State) : KeepsMem s (execAdcConversion i code s) :=
  ⟨_, rfl, by simp only [implies_true, onlyIf_mem, conversion_keeps, ite_keeps, ite_self, dcLink_keeps]⟩

theorem execPwmTrigger_keepsMem (m icode vcode : Nat) (waited : Bool) (s : State) :
    KeepsMem s (execPwmTrigger m icode vcode waited s) :=
  ⟨_, rfl, by simp only [implies_true, onlyIf_mem, ite_keeps, ite_self, incF_keeps, conversion_keeps, dcLink_keeps,
    currentSample_keeps]⟩

theorem execMotorObservationEnd_keepsMem (m events rpm : Nat) (rev : Bool) (s : State) :
    KeepsMem s (execMotorObservationEnd m events rpm rev s) := by
  refine ⟨_, rfl, onlyIf_mem (fun s => ?_) s⟩
  dsimp only
  split
  · simp only [startFromStand_keeps, showSpeed_keeps]
  split
  · simp only [ite_keeps, catchAt_keeps, showSpeed_keeps, ite_self]
  split
  · simp only [showSpeed_keeps]
  split <;> simp only [setMotorState_keeps, setMotor_keeps, catchAt_keeps, raise_keeps, setB_keeps, showSpeed_keeps]

theorem execMotorMeasurementEnd_keepsMem (m events rpm : Nat) (rev : Bool) (s : State) :
    KeepsMem s (execMotorMeasurementEnd m events rpm rev s) :=
  ⟨_, rfl, by simp only [implies_true, onlyIf_mem, ite_keeps, ite_self, showSpeed_keeps, coast_keeps]⟩

theorem execMotorPositionEvent_keepsMem (m code ns : Nat) (s : State) : KeepsMem s (execMotorPositionEvent m code ns s) := by
  refine ⟨_, rfl, onlyIf_mem (fun s => ?_) s⟩
  extract_lets sector c rev rpm seq s1 s2 v s3
  have h2 : s2.mem = s.mem := by simp only [s2, s1, ite_keeps, showSpeed_keeps, setMotor_keeps, ite_self]
  have h3 : s3.mem = s2.mem := by
    unfold s3
    split <;> simp only [ite_keeps, catchAt_keeps, ite_self]
  simp only [refreshSinus_keeps, h3, h2]

theorem execMotorPwmPeriod_keepsMem (m : Nat) (s : State) : KeepsMem s (execMotorPwmPeriod m s) := by
  refine ⟨_, rfl, onlyIf_mem (fun s => ?_) s⟩
  dsimp only
  split
  · simp only [ite_keeps, setMotor_keeps, ite_self]
  split
  · split <;> simp only [setMotor_keeps]
  · simp only [ite_keeps, coast_keeps, setMotorState_keeps, setMotor_keeps, refreshSinus_keeps, ite_self]

theorem execLampTokenGrant_keepsMem (g : Nat) (s : State) : KeepsMem s (execLampTokenGrant g s) := by
  refine ⟨_, rfl, onlyIf_mem (fun s => ?_) s⟩
  split
  · rfl
  · simp only [lampSwitchOn_keeps, setF_keeps, setLampWaits_keeps]

theorem execLampInrushEnd_keepsMem (n : Nat) (above : Bool) (s : State) : KeepsMem s (execLampInrushEnd n above s) :=
  ⟨_, rfl, by simp only [implies_true, onlyIf_mem, ite_keeps, ite_self, lampLatch_keeps, lampFaultOff_keeps, setLampState_keeps,
    dropToken_keeps]⟩

theorem execLampHardShort_keepsMem (n : Nat) (s : State) : KeepsMem s (execLampHardShort n s) :=
  ⟨_, rfl, by simp only [implies_true, onlyIf_mem, setB_keeps, lampTrip_keeps]⟩

theorem execLampGroupLimit_keepsMem (g : Nat) (s : State) : KeepsMem s (execLampGroupLimit g s) := by
  refine ⟨_, rfl, onlyIf_mem (fun s => ?_) s⟩
  dsimp only
  split
  · rfl
  · simp only [ite_keeps, raise_keeps, lampTrip_keeps, setB_keeps, ite_self]

theorem execLampDisturbanceEnd_keepsMem (g : Nat) (s : State) : KeepsMem s (execLampDisturbanceEnd g s) :=
  ⟨_, rfl, by simp only [implies_true, onlyIf_mem, setB_keeps, ite_keeps, ite_self]⟩

theorem execLampBlinkPhase_keepsMem (n : Nat) (s : State) : KeepsMem s (execLampBlinkPhase n s) := by
  refine ⟨_, rfl, onlyIf_mem (fun s => ?_) s⟩
  split <;> simp only [setLampState_keeps, dropToken_keeps, lampAsk_keeps]

theorem execLampOpenDetect_keepsMem (n : Nat) (below : Bool) (s : State) : KeepsMem s (execLampOpenDetect n below s) :=
  ⟨_, rfl, by simp only [implies_true, onlyIf_mem, ite_keeps, ite_self, raise_keeps, setB_keeps]⟩

theorem execLedgerSecond_keepsMem (s : State) : KeepsMem s (execLedgerSecond s) :=
  ⟨_, rfl, by simp only [implies_true, onlyIf_mem, wearBump_keeps, ledgerAdvance_keeps, applyAll_mem, judgeItem_keeps]⟩

theorem execTemperatureMeasure_keepsMem (t : Int) (s : State) : KeepsMem s (execTemperatureMeasure t s) := by
  refine ⟨_, rfl, onlyIf_mem (fun s => ?_) s⟩
  simp only [ite_keeps, raise_keeps, setF_keeps, ite_self]

theorem execRingOscillatorMeasure_keepsMem (ppm : List Int) (s : State) : KeepsMem s (execRingOscillatorMeasure ppm s) :=
  ⟨_, rfl, by simp only [implies_true, onlyIf_mem, applyAll_mem, setWearItem_keeps]⟩

theorem execLedgerSaveDone_keepsMem (s : State) : KeepsMem s (execLedgerSaveDone s) :=
  ⟨_, rfl, by split <;> simp only [storeWrite_keeps, setB_keeps, ite_keeps, ite_self, ledgerSave_keeps]⟩

theorem execMonthlySample_keepsMem (s : State) : KeepsMem s (execMonthlySample s) :=
  ⟨_, rfl, by simp only [implies_true, onlyIf_mem, sampleAll_keeps, ledgerSave_keeps, applyAll_mem, predictItem_keeps]⟩

theorem execRcRead_keepsMem (rq : Requester) (a n : Nat) (s : State) : KeepsMem s (execRcRead rq a n s) :=
  ⟨_, rfl, (gate_keeps (sized_keeps (readReg_keeps rq a)) s).2⟩

theorem execPfailRise_keepsMem (s : State) : KeepsMem s (execPfailRise s) :=
  ⟨_, rfl, by simp only [ite_keeps, ite_self, setB_keeps]⟩

theorem execWakePinRearm_keepsMem (n : Nat) (s : State) : KeepsMem s (execWakePinRearm n s) :=
  ⟨_, rfl, by simp only [implies_true, onlyIf_mem]⟩

theorem execSerdesPllRelock_keepsMem (g : Nat) (s : State) : KeepsMem s (execSerdesPllRelock g s) :=
  ⟨_, rfl, by simp only [implies_true, onlyIf_mem, orF_keeps, ite_keeps, ite_self, bootPortsBack_keeps, clearCause_keeps]⟩

theorem execPcieLinkChange_keepsMem (up : Bool) (gen width : Nat) (s : State) : KeepsMem s (execPcieLinkChange up gen width s) :=
  ⟨_, rfl, by simp only [ite_keeps, ite_self, implies_true, onlyIf_mem, setB_keeps, setF_keeps, pcieDown_keeps]⟩

theorem execTransmitOpportunity_keepsMem (p : Nat) (s : State) : KeepsMem s (execTransmitOpportunity p s) :=
  ⟨_, rfl, by simp only [implies_true, onlyIf_mem, ite_keeps, ite_self, beacon_keeps, putOnWire_keeps]⟩

theorem execSerialTxEnd_keepsMem (n : Nat) (echo : List Byte) (s : State) : KeepsMem s (execSerialTxEnd n echo s) := by
  refine ⟨_, rfl, onlyIf_mem (fun s => ?_) s⟩
  dsimp only
  split
  · rfl
  · simp only [ite_keeps, serErr_keeps, setB_keeps, tileSentCount_keeps, serSent_keeps, emit_keeps, setSer_keeps, ite_self]

theorem execBoundaryScanInstruction_keepsMem (i : ScanInstr) (s : State) : KeepsMem s (execBoundaryScanInstruction i s) :=
  ⟨_, rfl, by split <;> simp only [emit_keeps]⟩

/-! ## Every command -/

/-- Each command that may not store leaves memory as it was, by the lemma of its meaning. -/
theorem exec_keepsMem (c : Instr) (hc : mayStore c = false) (s : State) : KeepsMem s (exec c s) := by
  cases c with
  | powerOnResetRelease role boot wpol => exact execPowerOnResetRelease_keepsMem ..
  | aonDomainPowerUp fromVbat => exact onlyIf_keepsMem fun _ => setMode_keeps ..
  | xinAmplitudeGood => exact execXinAmplitudeGood_keepsMem ..
  | xinStable => exact execXinStable_keepsMem ..
  | rootPllLock us => exact execRootPllLock_keepsMem ..
  | rootPllLockLoss => exact execRootPllLockLoss_keepsMem ..
  | railWarnCrossing r => exact execRailWarnCrossing_keepsMem ..
  | railValid r classMv => exact execRailValid_keepsMem ..
  | pcieRefStable => exact execPcieRefStable_keepsMem ..
  | pfailFall => exact execPfailFall_keepsMem ..
  | pfailRestoreExpiry => exact onlyIf_keepsMem fun _ => setB_keeps ..
  | resetNRelease => exact execResetNRelease_keepsMem ..
  | fullResetEnd => exact onlyIf_keepsMem fun _ => pllTry_keeps ..
  | normalWatchdogKick rq key => exact gate_keepsMem fun _ => cmdNormalWatchdogKick_keeps ..
  | normalWatchdogEnable rq w => exact gate_keepsMem fun _ => cmdNormalWatchdogEnable_keeps ..
  | secureWatchdogKick rq key => exact gate_keepsMem fun _ => cmdSecureWatchdogKick_keeps ..
  | bootQuarantine => exact execBootQuarantine_keepsMem ..
  | imageHeaderCheck hdr => exact execImageHeaderCheck_keepsMem ..
  | imageVerify img => exact execImageVerify_keepsMem ..
  | build ddrOk => exact execBuild_keepsMem ..
  | tileStart n => exact execTileStart_keepsMem ..
  | canIntegrationDone n => exact onlyIf_keepsMem fun _ => canGoto_keeps ..
  | allowanceRampTick => exact execAllowanceRampTick_keepsMem ..
  | wireInChange n level => exact execWireInChange_keepsMem ..
  | wireDebounceExpiry n => exact onlyIf_keepsMem fun _ => setDebounced_keeps ..
  | wireRecordIssue => exact execWireRecordIssue_keepsMem ..
  | carlinkHuntSync p bit => exact execCarlinkHuntSync_keepsMem ..
  | relockTimeout p => exact onlyIf_keepsMem fun _ => lockLoss_keeps ..
  | carlinkFrameSend p incoming => exact execCarlinkFrameSend_keepsMem ..
  | rephaseStart p => exact execRephaseStart_keepsMem ..
  | lnkMsgtxGo rq p w => exact gate_keepsMem fun _ => cmdLnkMsgtxGo_keeps ..
  | standbyRequest rq w => exact gate_keepsMem fun _ => cmdStandbyRequest_keeps ..
  | standbyCoreWaitTimeout => exact onlyIf_keepsMem fun _ => standbyRefuse_keeps ..
  | standbyExit refCycles => exact execStandbyExit_keepsMem ..
  | pwrReadyWrite rq w => exact gate_keepsMem fun _ => cmdPwrReadyWrite_keeps ..
  | aonWriteTransit => exact next_keepsMem (aonTransit_keeps ..)
  | rtcSecond => exact execRtcSecond_keepsMem ..
  | aonRtcset rq w => exact gate_keepsMem fun _ => cmdAonRtcset_keeps ..
  | wakePinFire n => exact execWakePinFire_keepsMem ..
  | tamperFire => exact execTamperFire_keepsMem ..
  | tamperLatchClear rq => exact gate_keepsMem fun _ => cmdTamperLatchClear_keeps ..
  | vbatMeasure mv10 => exact execVbatMeasure_keepsMem ..
  | pwrReqHoldExpiry => exact execPwrReqHoldExpiry_keepsMem ..
  | pwrReqRelease rq => exact gate_keepsMem fun _ => cmdPwrReqRelease_keeps ..
  | pwrReqSwWrite rq w => exact gate_keepsMem fun _ => cmdPwrReqSwWrite_keeps ..
  | aonLogack rq => exact gate_keepsMem fun _ => cmdAonLogack_keeps ..
  | deltaOpen rq => exact gate_keepsMem fun _ => cmdDeltaOpen_keeps ..
  | deltaDelivery rq w => exact gate_keepsMem fun _ => cmdDeltaDelivery_keeps ..
  | deltaCutOver => exact execDeltaCutOver_keepsMem ..
  | deltaDrainEnd => exact execDeltaDrainEnd_keepsMem ..
  | pageFree p => exact execPageFree_keepsMem ..
  | inkPgreq rq w => exact gate_keepsMem fun _ => cmdInkPgreq_keeps ..
  | inkPgfree rq n => exact gate_keepsMem fun _ => cmdInkPgfree_keeps ..
  | swcLockTake rq => exact gate_keepsMem fun _ => cmdSwcLockTake_keeps ..
  | fwtLockTake rq => exact gate_keepsMem fun _ => cmdFwtLockTake_keeps ..
  | pkeLockTake rq => exact gate_keepsMem fun _ => cmdPkeLockTake_keeps ..
  | leaseRenew rq n => exact gate_keepsMem fun _ => cmdLeaseRenew_keeps ..
  | leaseExpiry n => exact onlyIf_keepsMem fun _ => declare_keeps ..
  | inkRevoke rq w => exact gate_keepsMem fun _ => cmdInkRevoke_keeps ..
  | lodgerPeriodStart lid => exact onlyIf_keepsMem fun _ => setLodger_keeps ..
  | itemRelease lid w => exact next_keepsMem (releaseItem_keeps ..)
  | itemDispatch => exact execItemDispatch_keepsMem ..
  | deadlineMiss lid => exact execDeadlineMiss_keepsMem ..
  | pageInDone lid us => exact execPageInDone_keepsMem ..
  | pagingMsCheck => exact execPagingMsCheck_keepsMem ..
  | frameStored p => exact next_keepsMem (frameStored_keeps ..)
  | cutThroughEnd p why => exact execCutThroughEnd_keepsMem ..
  | egressSelection p => exact execEgressSelection_keepsMem ..
  | gateEntryChange p => exact execGateEntryChange_keepsMem ..
  | gateConfigChange p => exact execGateConfigChange_keepsMem ..
  | gateHoldDiscard p c => exact execGateHoldDiscard_keepsMem ..
  | policerCreditTick => exact execPolicerCreditTick_keepsMem ..
  | streamResetTimeout sh => exact onlyIf_keepsMem fun _ => setCb_keeps ..
  | swcSnap rq w => exact gate_keepsMem fun _ => cmdSwcSnap_keeps ..
  | ringInterrupt r => exact execRingInterrupt_keepsMem ..
  | learnApply => exact execLearnApply_keepsMem ..
  | ageingScan => exact execAgeingScan_keepsMem ..
  | migrateStart rq w => exact gate_keepsMem fun _ => cmdMigrateStart_keeps ..
  | migrateDone => exact execMigrateDone_keepsMem ..
  | migrateCancel rq w => exact gate_keepsMem fun _ => cmdMigrateCancel_keeps ..
  | bankClearDone => exact execBankClearDone_keepsMem ..
  | porterGo rq w => exact gate_keepsMem fun _ => cmdPorterGo_keeps ..
  | overlayDrainDone => exact next_keepsMem (setB_keeps ..)
  | caravanMerge => exact execCaravanMerge_keepsMem ..
  | redistributionInstall => exact execRedistributionInstall_keepsMem ..
  | fullRefresh => exact next_keepsMem (fullRefresh_keeps ..)
  | sourceTimeout lid e => exact onlyIf_keepsMem fun _ => releaseItem_keeps ..
  | cyclicRelease lid idx => exact execCyclicRelease_keepsMem ..
  | deferredSend lid idx => exact onlyIf_keepsMem fun _ => releaseItem_keeps ..
  | trnSigsel rq w => exact gate_keepsMem fun _ => cmdTrnSigsel_keeps ..
  | canFrameValid n f ago => exact execCanFrameValid_keepsMem ..
  | canXlFrameReceive n f ago ok => exact execCanXlFrameReceive_keepsMem ..
  | canFrameError n e code dph => exact execCanFrameError_keepsMem ..
  | canBodelayExpiry n => exact onlyIf_keepsMem fun _ => canGoto_keeps ..
  | canRecoveryDone n => exact execCanRecoveryDone_keepsMem ..
  | canCtlStart rq n => exact gate_keepsMem fun _ => cmdCanCtlStart_keeps ..
  | canCtlStop rq n => exact gate_keepsMem fun _ => cmdCanCtlStop_keeps ..
  | canCtlRecover rq n => exact gate_keepsMem fun _ => cmdCanCtlRecover_keeps ..
  | canArbitrationChoice n => exact execCanArbitrationChoice_keepsMem ..
  | canTxEnd n ok meas => exact execCanTxEnd_keepsMem ..
  | canSwitchBufferLoad n => exact execCanSwitchBufferLoad_keepsMem ..
  | canTxreq rq n w => exact gate_keepsMem fun _ => cmdCanTxreq_keeps ..
  | canTxcan rq n w => exact gate_keepsMem fun _ => cmdCanTxcan_keeps ..
  | canRxBufferRead rq n o => exact gate_keepsMem fun _ => cmdCanRxBufferRead_keeps ..
  | canRxrel rq n buf => exact gate_keepsMem fun _ => cmdCanRxrel_keeps ..
  | canPriorel rq n w => exact gate_keepsMem fun _ => cmdCanPriorel_keeps ..
  | linSlotStart n => exact onlyIf_keepsMem fun _ => linSlot_keeps ..
  | linHeaderReceive n sync pid => exact execLinHeaderReceive_keepsMem ..
  | linSchedWrite rq n w => exact gate_keepsMem fun _ => cmdLinSchedWrite_keeps ..
  | linPubWrite rq n idx k w => exact gate_keepsMem fun _ => cmdLinPubWrite_keeps ..
  | serialTxDequeue n => exact execSerialTxDequeue_keepsMem ..
  | uartTxStart n => exact execUartTxStart_keepsMem ..
  | uartFrameEnd n chars gap => exact execUartFrameEnd_keepsMem ..
  | hdlcFrameReceive n chars => exact execHdlcFrameReceive_keepsMem ..
  | uartSwtxGo rq n w => exact gate_keepsMem fun _ => cmdUartSwtxGo_keeps ..
  | gpioInputChange n levels => exact execGpioInputChange_keepsMem ..
  | serCtlStart rq n => exact gate_keepsMem fun _ => cmdSerCtlStart_keeps ..
  | ethLinkUp p spd hdx anok => exact execEthLinkUp_keepsMem ..
  | ethLinkDown p => exact execEthLinkDown_keepsMem ..
  | mdioCommand rq p w => exact gate_keepsMem fun _ => cmdMdioCommand_keeps ..
  | mdioDone answer => exact execMdioDone_keepsMem ..
  | ethTxtsRead rq p => exact gate_keepsMem fun _ => cmdEthTxtsRead_keeps ..
  | plcaBeaconReceive p => exact onlyIf_keepsMem fun _ => plcaUp_keeps ..
  | plcaInactive p => exact onlyIf_keepsMem fun _ => plcaDown_keeps ..
  | t1sCollision p => exact execT1sCollision_keepsMem ..
  | syncReceive p => exact execSyncReceive_keepsMem ..
  | syncTimeout => exact execSyncTimeout_keepsMem ..
  | tsySet rq => exact gate_keepsMem fun _ => cmdTsySet_keeps ..
  | tsyStep rq => exact gate_keepsMem fun _ => cmdTsyStep_keeps ..
  | tsyFadjWrite rq w => exact gate_keepsMem fun _ => cmdTsyFadjWrite_keeps ..
  | latchingPairRead rq a n => exact execLatchingPairRead_keepsMem ..
  | unitSleepRequest rq hi w => exact gate_keepsMem fun _ => cmdUnitSleepRequest_keeps ..
  | unitWakeRequest rq hi w => exact gate_keepsMem fun _ => cmdUnitWakeRequest_keeps ..
  | wakeUpFrame n f dlc => exact execWakeUpFrame_keepsMem ..
  | wakeDominant n us => exact onlyIf_keepsMem fun _ => wakeSource_keeps ..
  | wakeFrameErrors n => exact execWakeFrameErrors_keepsMem ..
  | wakePortEnergy p us => exact onlyIf_keepsMem fun _ => wakeSource_keeps ..
  | wakeWireOrPin pin idx => exact execWakeWireOrPin_keepsMem ..
  | serdesPllRestartLock g => exact onlyIf_keepsMem fun _ => orF_keeps ..
  | validationWindowClose u => exact onlyIf_keepsMem fun _ => falseWake_keeps ..
  | wksValid rq hi w => exact gate_keepsMem fun _ => cmdWksValid_keeps ..
  | wksLogack rq w => exact gate_keepsMem fun _ => cmdWksLogack_keeps ..
  | linWakePulseTimeout n => exact execLinWakePulseTimeout_keepsMem ..
  | qspiStatus => exact execQspiStatus_keepsMem ..
  | msixRequest => exact execMsixRequest_keepsMem ..
  | msixPendingSend v => exact execMsixPendingSend_keepsMem ..
  | farResultExpiry b => exact execFarResultExpiry_keepsMem ..
  | farWriteAck => exact execFarWriteAck_keepsMem ..
  | farWriteTimeout tag => exact execFarWriteTimeout_keepsMem ..
  | eventMessageSend => exact execEventMessageSend_keepsMem ..
  | eventPacingFlush => exact execEventPacingFlush_keepsMem ..
  | remoteEventReceive => exact execRemoteEventReceive_keepsMem ..
  | brgRev0Read rq => exact gate_keepsMem fun _ => revRead_keeps ..
  | joinAnswer => exact execJoinAnswer_keepsMem ..
  | heartbeatReceive => exact execHeartbeatReceive_keepsMem ..
  | workerLost d => exact execWorkerLost_keepsMem ..
  | managerLost => exact execManagerLost_keepsMem ..
  | takeoverReceive => exact execTakeoverReceive_keepsMem ..
  | imageBlockStatus => exact execImageBlockStatus_keepsMem ..
  | lifecycleArm rq key target => exact gate_keepsMem fun _ => cmdLifecycleArm_keeps ..
  | lifecycleCommit rq key target => exact gate_keepsMem fun _ => cmdLifecycleCommit_keeps ..
  | imageKeyProgram rq key slot => exact gate_keepsMem fun _ => cmdImageKeyProgram_keeps ..
  | imageKeyRevoke rq key slot => exact gate_keepsMem fun _ => cmdImageKeyRevoke_keeps ..
  | floorSet rq w => exact gate_keepsMem fun _ => cmdFloorSet_keeps ..
  | nodeCreate rq key parent => exact gate_keepsMem fun _ => cmdNodeCreate_keeps ..
  | nodeInvalidate rq key node => exact gate_keepsMem fun _ => cmdNodeInvalidate_keeps ..
  | nodeFree rq key node => exact gate_keepsMem fun _ => cmdNodeFree_keeps ..
  | slotWipe k => exact execSlotWipe_keepsMem ..
  | wrap rq w => exact gate_keepsMem fun _ => cmdWrap_keeps ..
  | shelfWrite rq key idx => exact gate_keepsMem fun _ => cmdShelfWrite_keeps ..
  | shelfErase rq key idx => exact gate_keepsMem fun _ => cmdShelfErase_keeps ..
  | keyLoad rq w => exact gate_keepsMem fun _ => cmdKeyLoad_keeps ..
  | keyLoadDone => exact execKeyLoadDone_keepsMem ..
  | wldLock rq w => exact gate_keepsMem fun _ => cmdWldLock_keeps ..
  | secureCall core => exact execSecureCall_keepsMem ..
  | ckvRingTail rq ns w => exact gate_keepsMem fun _ => cmdCkvRingTail_keeps ..
  | pkeJobGo rq w => exact gate_keepsMem fun _ => cmdPkeJobGo_keeps ..
  | pkeJobEnd inv cyc => exact execPkeJobEnd_keepsMem ..
  | pkeSlenWrite rq k w => exact gate_keepsMem fun _ => cmdPkeSlenWrite_keeps ..
  | pkeOpdataAccess rq v => exact gate_keepsMem fun _ => cmdPkeOpdataAccess_keeps ..
  | digestGo rq ns w => exact gate_keepsMem fun _ => cmdDigestGo_keeps ..
  | digestDone ns => exact execDigestDone_keepsMem ..
  | drgDataRead rq => exact gate_keepsMem fun _ => cmdDrgDataRead_keeps ..
  | drbgReseed rq => exact execDrbgReseed_keepsMem ..
  | entropyHealthFail apt => exact execEntropyHealthFail_keepsMem ..
  | adcConversion idx code => exact execAdcConversion_keepsMem ..
  | pwmTrigger m icode vcode waited => exact execPwmTrigger_keepsMem ..
  | motorRun rq m w => exact gate_keepsMem fun _ => cmdMotorRun_keeps ..
  | motorStop rq m => exact gate_keepsMem fun _ => cmdMotorStop_keeps ..
  | motorCoast rq m => exact gate_keepsMem fun _ => cmdMotorCoast_keeps ..
  | motorClear rq m => exact gate_keepsMem fun _ => cmdMotorClear_keeps ..
  | motorObservationEnd m events rpm rev => exact execMotorObservationEnd_keepsMem ..
  | motorMeasurementEnd m events rpm rev => exact execMotorMeasurementEnd_keepsMem ..
  | motorPositionEvent m code ns => exact execMotorPositionEvent_keepsMem ..
  | motorPwmPeriod m => exact execMotorPwmPeriod_keepsMem ..
  | motorAlignEnd m => exact onlyIf_keepsMem fun _ => setMotor_keeps ..
  | motorHandoverTimeout m => exact onlyIf_keepsMem fun _ => motorFault_keeps ..
  | motorStallTimeout m => exact onlyIf_keepsMem fun _ => motorFault_keeps ..
  | motorWaitLimit m => exact onlyIf_keepsMem fun _ => motorFault_keeps ..
  | motorHallInvalid m code => exact onlyIf_keepsMem fun _ => motorFault_keeps ..
  | motorFltInput m => exact onlyIf_keepsMem fun _ => motorFault_keeps ..
  | motorTest rq m w => exact gate_keepsMem fun _ => cmdMotorTest_keeps ..
  | lampCommand rq n w => exact gate_keepsMem fun _ => cmdLampCommand_keeps ..
  | lampTokenGrant g => exact execLampTokenGrant_keepsMem ..
  | lampInrushEnd n above => exact execLampInrushEnd_keepsMem ..
  | lampHardShort n => exact execLampHardShort_keepsMem ..
  | lampOvercurrent n => exact onlyIf_keepsMem fun _ => lampTrip_keeps ..
  | lampGroupLimit g => exact execLampGroupLimit_keepsMem ..
  | lampDisturbanceEnd g => exact execLampDisturbanceEnd_keepsMem ..
  | lampCoolDownEnd n => exact onlyIf_keepsMem fun _ => lampAsk_keeps ..
  | lampBlinkPhase n => exact execLampBlinkPhase_keepsMem ..
  | lampOpenDetect n below => exact execLampOpenDetect_keepsMem ..
  | lampTriesReset n => exact onlyIf_keepsMem fun _ => setF_keeps ..
  | lampTest rq w => exact gate_keepsMem fun _ => cmdLampTest_keeps ..
  | ledgerSecond => exact execLedgerSecond_keepsMem ..
  | temperatureMeasure t => exact execTemperatureMeasure_keepsMem ..
  | ringOscillatorMeasure ppm => exact execRingOscillatorMeasure_keepsMem ..
  | ledgerSave => exact onlyIf_keepsMem fun _ => ledgerSave_keeps ..
  | ledgerSaveDone => exact execLedgerSaveDone_keepsMem ..
  | monthlySample => exact execMonthlySample_keepsMem ..
  | werReset rq w => exact gate_keepsMem fun _ => cmdWerReset_keeps ..
  | werSel rq w => exact gate_keepsMem fun _ => cmdWerSel_keeps ..
  | evcRouteWrite rq e w => exact gate_keepsMem fun _ => routeWrite_keeps ..
  | evcSoft rq w => exact gate_keepsMem fun _ => softWrite_keeps ..
  | rcRead rq a n => exact execRcRead_keepsMem ..
  | suppliesValid => exact onlyIf_keepsMem fun _ => domainOnIo0_keeps ..
  | pfailRise => exact execPfailRise_keepsMem ..
  | wakePinRearm n => exact execWakePinRearm_keepsMem ..
  | tamperRearm => exact next_keepsMem (setB_keeps ..)
  | serdesPllRelock g => exact execSerdesPllRelock_keepsMem ..
  | pcieLinkChange up gen width => exact execPcieLinkChange_keepsMem ..
  | transmitOpportunity p => exact execTransmitOpportunity_keepsMem ..
  | serialTxEnd n echo => exact execSerialTxEnd_keepsMem ..
  | boundaryScanInstruction idx => exact execBoundaryScanInstruction_keepsMem ..
  | _ => cases hc

/-- Settles O7: each function that such a command calls leaves memory as it was, so the command does. -/
theorem memoryKept : Obligations.MemoryKept := by
  unfold Obligations.MemoryKept
  intro c s t hc ht
  obtain ⟨t', ht', hmem⟩ := exec_keepsMem c hc s
  obtain rfl : t' = t := Host.Outcome.next.inj (ht'.symm.trans ht)
  exact SameMem.of_mem hmem

end Sys2Proof.Machine

namespace Sys2Proof.Machine

/-! # Where a storing command stores

Outside the bytes that a store of a list covers, memory reads as before (`rd8_wrBytes_outside`); what else the command does leaves memory as it is
(`Keeps`). -/

/-! ## The page window (R232) -/

theorem rd8_pageWindowWrite_outside {rq : Requester} {a size : Nat} {x : Word} {s t : State}
    (h : exec (.pageWindowAccess rq a size (some x)) s = .next t) {b : Nat} (hb : b < a ∨ a + size ≤ b) : rd8 t b = rd8 s b := by
  obtain rfl := Host.Outcome.next.inj h
  extract_lets data link p w
  split
  · rfl
  split
  · exact SameMem.of_mem (violate_keeps _ _ _ s).2 b
  dsimp only
  split
  · exact rd8_wrBytes_outside (leBytes size x.toNat) a s b (by simpa using hb)
  · split <;> rfl

theorem sameMem_pageWindowRead {rq : Requester} {a size : Nat} {s t : State} (h : exec (.pageWindowAccess rq a size none) s = .next t) :
    SameMem s t := by
  obtain rfl := Host.Outcome.next.inj h
  refine SameMem.of_mem ?_
  dsimp only
  simp only [ite_keeps, busError_keeps, violate_keeps, busData_keeps, ite_self]

/-! ## Receive rings (R229) -/

/-- A Waybill has 32 bytes (R189). -/
theorem length_wbEncode (w : Waybill) : (wbEncode w).length = 32 := by simp [wbEncode]

/-- Ring `r` has taken its queue's head: `q` remains, the tail has moved, and the slot counts (R229, R230). Tail, ring size and counts are those
of state `s`. -/
def ringTaken (r : Nat) (q : List Replica) (s t : State) : State :=
  let t2 := setF (SWC_RTAIL_idx r) ((getF (SWC_RTAIL_idx r) s + 1) % ringSize r s) (setQueue (queueKey 16 r 0) q t)
  let st := tabGet {} s.swc.rings r
  let n : RingState := { since := st.since + 1, first := if st.since = 0 then s.ticks else st.first, dropped := 0 }
  { t2 with swc := { t2.swc with rings := tabPut {} t2.swc.rings r n } }

theorem ringTaken_keeps (r : Nat) (q : List Replica) (s t : State) : Keeps t (ringTaken r q s t) := by
  simp only [Keeps, ringTaken, setF_keeps, setQueue_keeps, and_self]

/-- A receive ring stores nothing, or it writes the slot at the tail (R229). -/
theorem receiveRingWrite_cases {r : Nat} {s t : State} (h : exec (.receiveRingWrite r) s = .next t) :
    Keeps s t ∨ ∃ w8 w q u, Keeps s u ∧
      t = ringTaken r q s (wrBytes (getF (SWC_RBASE_addr r) s + 64 * getF (SWC_RTAIL_idx r) s)
        (wbEncode w ++ leBytes 4 w8 ++ List.replicate 28 0) u) := by
  obtain rfl := Host.Outcome.next.inj h
  dsimp only
  split
  · exact .inl ⟨rfl, rfl⟩
  split
  · exact .inl ⟨rfl, rfl⟩
  split
  · exact .inl (ringFault_keeps _ _ _ s)
  split
  · exact .inr ⟨_, _, _, s, ⟨rfl, rfl⟩, rfl⟩
  split
  · exact .inl (countFull_keeps _ s)
  · next hgrant => exact .inr ⟨_, _, _, _, grantLease_keeps hgrant, rfl⟩

theorem rd8_receiveRingWrite_outside {r : Nat} {s t : State} (h : exec (.receiveRingWrite r) s = .next t) {b : Nat}
    (hb : b < getF (SWC_RBASE_addr r) s + 64 * getF (SWC_RTAIL_idx r) s ∨
      getF (SWC_RBASE_addr r) s + 64 * getF (SWC_RTAIL_idx r) s + 64 ≤ b) : rd8 t b = rd8 s b := by
  obtain hkeeps | ⟨w8, w, q, u, hkeeps, rfl⟩ := receiveRingWrite_cases h
  · exact SameMem.of_mem hkeeps.2 b
  · rw [SameMem.of_mem (ringTaken_keeps r q s _).2, rd8_wrBytes_outside _ _ _ _ (by simpa [length_wbEncode] using hb)]
    exact SameMem.of_mem hkeeps.2 b

/-! ## The Porter (R252) -/

theorem length_entRd_le (t i : Nat) (s : State) : (entRd t i s).length ≤ 32 := by
  simp only [entRd, trd, List.length_map, List.length_range, entSize]
  split <;> decide

/-- What an operation returns is an entry of a table. -/
theorem length_porterOp_data {op t idx : Nat} {data d : List Byte} {lock : Bool} {s : State}
    (h : (porterOp op t idx data lock s).2.2.1 = some d) : d.length ≤ 32 := by
  have hent {i : Nat} (hi : some (entRd t i s) = some d) : d.length ≤ 32 := Option.some.inj hi ▸ length_entRd_le t i s
  unfold porterOp at h
  dsimp only at h
  split at h
  · cases h
  split at h
  · cases h
  split at h
  · cases h
  split at h
  · cases h
  split at h
  · exact hent h
  split at h
  · split at h
    · exact hent h
    · cases h
  split at h
  · cases h
  split at h
  · cases h
  · split at h <;> cases h

/-- The result, the place and the entry of a record lie in its last 40 bytes. -/
theorem rd8_porterOperation_outside {run : PorterRun} {s t : State} (hrun : s.fwt.porter = some run)
    (h : exec .porterOperation s = .next t) {b : Nat}
    (hb : b < getF FWT_PSRC_addr s + 48 * run.next + 8 ∨ getF FWT_PSRC_addr s + 48 * run.next + 48 ≤ b) : rd8 t b = rd8 s b := by
  obtain rfl := Host.Outcome.next.inj h
  rw [hrun]
  dsimp only
  generalize getF FWT_PSRC_addr s + 48 * run.next = a at hb ⊢
  split
  · exact SameMem.of_mem (porterEnd_keeps _ s).2 b
  split
  · exact SameMem.of_mem ((porterEnd_keeps _ _).2.trans (violation_keeps _ _ _ _ _ s).2) b
  · generalize hu : porterOp _ _ _ _ _ s = u
    have hkept : rd8 u.2.2.2 b = rd8 s b := SameMem.of_mem (hu ▸ (porterOp_keeps _ _ _ _ _ s).2) b
    have hresult : rd8 (wrBytes (a + 8) [BitVec.ofNat 8 u.1] (wrBytes (a + 12) (leBytes 4 u.2.1) u.2.2.2)) b = rd8 s b := by
      rw [rd8_wrBytes_outside _ _ _ _ (by rw [List.length_singleton]; omega),
        rd8_wrBytes_outside _ _ _ _ (by rw [length_leBytes]; omega), hkept]
    have hdone : rd8 (match u.2.2.1 with
        | some d => wrBytes (a + 16) d (wrBytes (a + 8) [BitVec.ofNat 8 u.1] (wrBytes (a + 12) (leBytes 4 u.2.1) u.2.2.2))
        | none => wrBytes (a + 8) [BitVec.ofNat 8 u.1] (wrBytes (a + 12) (leBytes 4 u.2.1) u.2.2.2)) b = rd8 s b := by
      split
      · next d hd =>
        have hlen : d.length ≤ 32 := length_porterOp_data (hu ▸ hd)
        rw [rd8_wrBytes_outside _ _ _ _ (by omega), hresult]
      · exact hresult
    split
    · exact (SameMem.of_mem (porterEnd_keeps _ _).2 b).trans hdone
    split
    · exact (SameMem.of_mem (porterEnd_keeps _ _).2 b).trans hdone
    · exact hdone

/-! ## Wraps (R406) -/

/-- A wrap's blob is its header, the content and a tag. -/
theorem rd8_wrapDone_outside {j : WrapJob} {r : List WrapJob} {s t : State} (hjob : s.keys.wraps = j :: r)
    (h : exec .wrapDone s = .next t) {b : Nat} (hb : b < j.out ∨ j.out + j.header.length + j.content.length + 16 ≤ b) :
    rd8 t b = rd8 s b := by
  obtain rfl := Host.Outcome.next.inj h
  rw [hjob]
  dsimp only
  split
  · exact SameMem.of_mem (wrapRefuse_keeps _).2 b
  · have hblob {tag : List Byte} {u : State} (hu : u.mem = s.mem) :
        rd8 (wrBytes j.out (j.header ++ slice tag 0 (j.content.length + 16)) u) b = rd8 s b :=
      (rd8_wrBytes_outside _ _ _ _ (by rw [List.length_append, length_slice]; omega)).trans (SameMem.of_mem hu b)
    split
    · exact hblob rfl
    split
    · next hput => exact (SameMem.of_mem (shelfPut_keeps hput).2 b).trans (hblob rfl)
    · exact (SameMem.of_mem (wrapRefuse_keeps _).2 b).trans (hblob rfl)

/-- Settles O9: one lemma for each command. -/
theorem storesInPlace : Obligations.StoresInPlace := by
  unfold Obligations.StoresInPlace
  exact ⟨
    fun rq a size x s t h b hb => rd8_pageWindowWrite_outside h hb,
    fun rq a size s t h => sameMem_pageWindowRead h,
    fun r s t h b hb => rd8_receiveRingWrite_outside h hb,
    fun run s t hrun h b hb => rd8_porterOperation_outside hrun h hb,
    fun j r s t hjob h b hb => rd8_wrapDone_outside hjob h hb⟩

end Sys2Proof.Machine

namespace Sys2Proof.Machine

/-! # Where ring and snapshot commands complete -/

/-- What one effect of a list establishes and every effect of it keeps holds at the end. -/
theorem applyAll_of_mem {α : Type} {P : State → Prop} {l : List α} {g : α → State → State} {x : α} (hx : x ∈ l)
    (hset : ∀ s, P (g x s)) (hkeep : ∀ y s, P s → P (g y s)) (s : State) : P (applyAll l g s) := by
  induction l generalizing s with
  | nil => cases hx
  | cons y r ih =>
    rcases List.mem_cons.1 hx with rfl | hx
    · exact applyAll_of r g hkeep _ (hset s)
    · exact ih hx _

/-! ## Receive rings (R229, R230) -/

section
variable {r : Nat} {s : State}

theorem queueAt_setQueue_self (k : Nat) (q : List Replica) (s : State) : queueAt k (setQueue k q s) = q :=
  tabGet_tabPut_self [] s.swc.queues k q

theorem getF_ringTaken_tail (q : List Replica) (t : State) :
    getF (SWC_RTAIL_idx r) (ringTaken r q s t) = (getF (SWC_RTAIL_idx r) s + 1) % ringSize r s % 2 ^ 12 :=
  getF_setF_self (SWC_RTAIL_idx r) _ _

theorem queueAt_ringTaken (q : List Replica) (t : State) : queueAt (queueKey 16 r 0) (ringTaken r q s t) = q :=
  queueAt_setQueue_self (queueKey 16 r 0) q t

section
variable {rep : Replica} {q : List Replica} (hr : r < 32) (hen : isSet (SWC_RCFG_en r) s = true) (hdir : isSet (SWC_RCFG_dir r) s = false)
  (hroom : (getF (SWC_RTAIL_idx r) s + 1) % ringSize r s ≠ getF (SWC_RHEAD_idx r) s) (hq : queueAt (queueKey 16 r 0) s = rep :: q)
  (hinline : rep.wb.inline = true)
  (hmem : memRange (ringWorld r) true (getF (SWC_RBASE_addr r) s + 64 * getF (SWC_RTAIL_idx r) s) 64 s = true)
include hr hen hdir hroom hq hinline hmem

theorem exec_receiveRingWrite_inline : exec (.receiveRingWrite r) s =
    .next (ringTaken r q s (wrBytes (getF (SWC_RBASE_addr r) s + 64 * getF (SWC_RTAIL_idx r) s)
      (wbEncode rep.wb ++ leBytes 4 (1024 + (tabGet {} s.swc.rings r).dropped * 2 ^ 16) ++ List.replicate 28 0) s)) := by
  refine congrArg Host.Outcome.next ?_
  dsimp only
  rw [if_neg (by simp [hen, hdir, hroom, hr]), hq]
  dsimp only
  rw [if_neg (by simp [hmem]), if_pos hinline]
  rfl

theorem completes_receiveRingWrite : Completes (.receiveRingWrite r) s fun t =>
    getF (SWC_RTAIL_idx r) t = (getF (SWC_RTAIL_idx r) s + 1) % ringSize r s % 2 ^ 12 ∧ queueAt (queueKey 16 r 0) t = q ∧
    ∀ b, b < getF (SWC_RBASE_addr r) s + 64 * getF (SWC_RTAIL_idx r) s ∨
      getF (SWC_RBASE_addr r) s + 64 * getF (SWC_RTAIL_idx r) s + 64 ≤ b → rd8 t b = rd8 s b := by
  have hexec := exec_receiveRingWrite_inline hr hen hdir hroom hq hinline hmem
  exact completes_of_eq hexec ⟨getF_ringTaken_tail q _, queueAt_ringTaken q _, fun _ hb => rd8_receiveRingWrite_outside hexec hb⟩

end

theorem completes_ringInterrupt (hr : r < 32) (hsome : 0 < (tabGet {} s.swc.rings r).since)
    (hdue : (tabGet {} s.swc.rings r).since ≥ getF (SWC_RIRQ_cnt r) s ∨
      getF (SWC_RIRQ_us r) s ≠ 0 ∧ (tabGet {} s.swc.rings r).first + getF (SWC_RIRQ_us r) s ≤ s.ticks) :
    Completes (.ringInterrupt r) s fun t => (tabGet {} t.swc.rings r).since = 0 ∧
      (isSet (SWC_RIRQ_msix r) s = true → t.evc.msixReq = s.evc.msixReq ++ [getF (SWC_RIRQ_vec r) s]) ∧ t.regs = s.regs := by
  have hsince : (tabGet {} (tabPut {} s.swc.rings r { tabGet {} s.swc.rings r with since := 0, first := 0 }) r).since = 0 :=
    congrArg RingState.since (tabGet_tabPut_self _ _ _ _)
  refine completes_of_eq (congrArg Host.Outcome.next (onlyIf_true (by simpa [hr, hsome] using hdue) _ s)) ?_
  dsimp only
  split
  · exact ⟨hsince, fun _ => rfl, rfl⟩
  · next hmsix => exact ⟨hsince, fun h => absurd h hmsix, rfl⟩

/-! ## Transmit rings (R231) -/

theorem completes_transmitSlotProcess_bad (hr : r < 32) (hen : isSet (SWC_RCFG_en r) s = true) (hdir : isSet (SWC_RCFG_dir r) s = true)
    (hslot : getF (SWC_RHEAD_idx r) s ≠ getF (SWC_RTAIL_idx r) s)
    (hmem : memRange (ringWorld r) false (getF (SWC_RBASE_addr r) s + 64 * getF (SWC_RHEAD_idx r) s) 64 s = true)
    (hlease : chainLease (ringWorld r) (leAt (rdBytes s (getF (SWC_RBASE_addr r) s + 64 * getF (SWC_RHEAD_idx r) s) 32) 0 2) s = none) :
    Completes (.transmitSlotProcess r) s fun t =>
      getF (SWC_RSTAT_bad r) t = min (getF (SWC_RSTAT_bad r) s + 1) (2 ^ (SWC_RSTAT_bad r).width - 1) ∧ t.mem = s.mem := by
  refine completes_of_eq (t := ringAdvance r (incF (SWC_RSTAT_bad r) 1 s)) (congrArg Host.Outcome.next ?_) ⟨?_, rfl⟩
  · dsimp only
    rw [if_neg (by simp [hen, hdir, hslot, hr]), if_neg (by simp [hmem]), hlease]
  · rw [ringAdvance, getF_setF_ne _ _ (by simp only [Fld.key, SWC_RSTAT_bad, SWC_RHEAD_idx]; omega), incF, getF_setF_self]
    exact Nat.mod_eq_of_lt ((min_le_right _ _).trans_lt (Nat.sub_lt (by positivity) one_pos))

theorem directed_aside {v : AsideView} {f : Flow} {m : Nat} (h : HasAside v s) : HasAside v (directed f m s) := by
  unfold directed
  dsimp only
  split
  · split
    · split
      · next e => exact replicate_aside ((policeStage_aside h).of_eq e)
      · next e => exact (policeStage_aside h).of_eq e
    · exact replicate_aside h
  · exact replicate_aside h

/-- The lease of the chain ends before the Waybill enters the switch, which leaves the lease records. -/
theorem completes_transmitSlotProcess_good {l : Nat} (hr : r < 32) (hen : isSet (SWC_RCFG_en r) s = true)
    (hdir : isSet (SWC_RCFG_dir r) s = true) (hslot : getF (SWC_RHEAD_idx r) s ≠ getF (SWC_RTAIL_idx r) s)
    (hmem : memRange (ringWorld r) false (getF (SWC_RBASE_addr r) s + 64 * getF (SWC_RHEAD_idx r) s) 64 s = true)
    (hlease : chainLease (ringWorld r) (leAt (rdBytes s (getF (SWC_RBASE_addr r) s + 64 * getF (SWC_RHEAD_idx r) s) 32) 0 2) s = some l)
    (hpaged : (leAt (rdBytes s (getF (SWC_RBASE_addr r) s + 64 * getF (SWC_RHEAD_idx r) s) 32) 4 4).testBit 15 = false)
    (hlen : leAt (rdBytes s (getF (SWC_RBASE_addr r) s + 64 * getF (SWC_RHEAD_idx r) s) 32) 2 2 ≤ (leasedPages l s).length * 256) :
    Completes (.transmitSlotProcess r) s fun t => leaseOf l t = {} := by
  refine completes_of_eq rfl ?_
  extract_lets head a w b page len w1
  have hfits : (w1.testBit 15 || decide (len > (leasedPages l s).length * 256)) = false := by
    rw [Bool.or_eq_false_iff, decide_eq_false_iff_not, Nat.not_lt]
    exact ⟨hpaged, hlen⟩
  rw [if_neg (by simp [hen, hdir, hr]; exact hslot), if_neg (by simpa using hmem), show chainLease w page s = some l from hlease]
  dsimp only
  rw [hfits, if_neg Bool.false_ne_true]
  generalize hs1 : ringAdvance r (setLease l {} (linkPages _ _)) = s1
  have hended : leaseOf l s1 = {} := by
    rw [← hs1]
    exact leaseOf_setLease_self l {} _
  refine Eq.trans (leaseOf_of_aside (s := s1) ?_ l) hended
  refine ite_aside (directed_aside (ingressCopy_aside (swBump_aside (swBump_aside ?_)))) (enterPipeline_aside ?_)
  · rfl
  · rfl

end

/-! ## The counter snapshot (R234) -/

/-- The two words of counter `i` among those of a snapshot, of which `v` gives the values. -/
def SnapShows (v : Nat → Nat) (i : Nat) (s : State) : Prop :=
  getF (SWC_SNAPCNT_cnt (2 * i)) s = v i % 2 ^ 32 ∧ getF (SWC_SNAPCNT_cnt (2 * i + 1)) s = v i / 2 ^ 32 % 2 ^ 32

/-- A counter's value copied into its two words. -/
def snapPut (v : Nat → Nat) (i : Nat) (s : State) : State :=
  setF (SWC_SNAPCNT_cnt (2 * i)) (v i) (setF (SWC_SNAPCNT_cnt (2 * i + 1)) (v i / 2 ^ 32) s)

theorem snapPut_keeps (v : Nat → Nat) (i : Nat) (s : State) : Keeps s (snapPut v i s) := ⟨rfl, rfl⟩

theorem key_SWC_SNAPCNT_cnt (i : Nat) : (SWC_SNAPCNT_cnt i).key = (0x40070040 + 0x4 * i) * 32 := rfl

theorem snapShows_snapPut_self (v : Nat → Nat) (i : Nat) (s : State) : SnapShows v i (snapPut v i s) := by
  refine ⟨getF_setF_self _ _ _, ?_⟩
  rw [snapPut, getF_setF_ne _ _ (by simp only [key_SWC_SNAPCNT_cnt]; omega)]
  exact getF_setF_self _ _ _

theorem snapShows_snapPut {v : Nat → Nat} {i : Nat} (k : Nat) {s : State} (h : SnapShows v i s) : SnapShows v i (snapPut v k s) := by
  by_cases hk : k = i
  · subst hk
    exact snapShows_snapPut_self v k s
  · have hlow : getF (SWC_SNAPCNT_cnt (2 * i)) (snapPut v k s) = getF (SWC_SNAPCNT_cnt (2 * i)) s := by
      rw [snapPut, getF_setF_ne _ _ (by simp only [key_SWC_SNAPCNT_cnt]; omega), getF_setF_ne _ _ (by simp only [key_SWC_SNAPCNT_cnt]; omega)]
    have hhigh : getF (SWC_SNAPCNT_cnt (2 * i + 1)) (snapPut v k s) = getF (SWC_SNAPCNT_cnt (2 * i + 1)) s := by
      rw [snapPut, getF_setF_ne _ _ (by simp only [key_SWC_SNAPCNT_cnt]; omega), getF_setF_ne _ _ (by simp only [key_SWC_SNAPCNT_cnt]; omega)]
    exact ⟨hlow.trans h.1, hhigh.trans h.2⟩

theorem completes_swcSnap {rq : Requester} {w : Word} {s : State} (hadm : admits rq true 0x4007001C 0 s = true) (hp : wbits w 0 5 < 20) :
    Completes (.swcSnap rq w) s fun t => (∀ i, i < 16 → getF (SWC_SNAPCNT_cnt (2 * i)) t = swCnt (wbits w 0 5) i s % 2 ^ 32 ∧
      getF (SWC_SNAPCNT_cnt (2 * i + 1)) t = swCnt (wbits w 0 5) i s / 2 ^ 32 % 2 ^ 32) ∧ isSet SWC_SNAPSTAT_done t = true ∧
      getF SWC_SNAPSTAT_port t = wbits w 0 5 ∧ t.bus = .done ∧ t.mem = s.mem := by
  have hexec : exec (.swcSnap rq w) s = .next (cmdSwcSnap rq w s) := congrArg Host.Outcome.next (gate_of_admits hadm _)
  refine completes_of_eq hexec ?_
  unfold cmdSwcSnap
  extract_lets p s1 _ s2
  have hp : ¬ p ≥ 20 := Nat.not_le.2 hp
  rw [if_neg hp]
  have hcopied : s1 = applyAll (List.range 16) (snapPut fun i => swCnt p i s) s := rfl
  have hshows (i : Nat) (hi : i < 16) : SnapShows (fun i => swCnt p i s) i s1 := by
    rw [hcopied]
    exact applyAll_of_mem (P := SnapShows (fun i => swCnt p i s) i) (List.mem_range.2 hi) (snapShows_snapPut_self _ i)
      (fun k u hu => snapShows_snapPut k hu) s
  have hs1 : s1.mem = s.mem := by
    rw [hcopied]
    exact (applyAll_keeps (snapPut_keeps _) s).2
  have hs2 : s2.regs = s1.regs ∧ s2.mem = s1.mem := by
    unfold s2
    split <;> exact ⟨rfl, rfl⟩
  have hkept (f : Fld) (hdone : f.key ≠ SWC_SNAPSTAT_done.key) (hport : f.key ≠ SWC_SNAPSTAT_port.key) :
      getF f (busDone (setF SWC_SNAPSTAT_port p (setB SWC_SNAPSTAT_done true s2))) = getF f s1 := by
    rw [busDone_eq, getF_withBus, getF_setF_ne _ _ hport, setB_eq, getF_setF_ne _ _ hdone, getF, hs2.1, getF]
  have hkey (i : Nat) : (SWC_SNAPCNT_cnt i).key ≠ SWC_SNAPSTAT_done.key ∧ (SWC_SNAPCNT_cnt i).key ≠ SWC_SNAPSTAT_port.key := by
    simp only [Fld.key, SWC_SNAPCNT_cnt, SWC_SNAPSTAT_done, SWC_SNAPSTAT_port]
    omega
  refine ⟨fun i hi => ?_, ?_, ?_, rfl, hs2.2.trans hs1⟩
  · rw [hkept _ (hkey _).1 (hkey _).2, hkept _ (hkey _).1 (hkey _).2]
    exact hshows i hi
  · rw [busDone_eq, isSet_withBus, isSet_setF_ne _ _ (by decide), setB_eq, isSet_setF_self]
    rfl
  · rw [busDone_eq, getF_withBus, getF_setF_self]
    exact Nat.mod_eq_of_lt (Nat.mod_lt _ (by positivity))

/-- Settles O28: one lemma for each command. -/
theorem ringCommandsComplete : Obligations.RingCommandsComplete := by
  unfold Obligations.RingCommandsComplete
  exact ⟨
    fun r rep q s hr hen hdir hroom hq hinline hmem => completes_receiveRingWrite hr hen hdir hroom hq hinline hmem,
    fun r s hr hsome hdue => completes_ringInterrupt hr hsome hdue,
    fun r s hr hen hdir hslot hmem hlease => completes_transmitSlotProcess_bad hr hen hdir hslot hmem hlease,
    fun r l s hr hen hdir hslot hmem hlease hpaged hlen => completes_transmitSlotProcess_good hr hen hdir hslot hmem hlease hpaged hlen,
    fun rq w s hadm hp => completes_swcSnap hadm hp⟩

end Sys2Proof.Machine

namespace Sys2Proof.Machine

/-! # Where switch ingress and egress commands complete -/

/-! ## What leaves the switch core's own stores -/

theorem ite_swc (c : Prop) [Decidable c] (s t : State) : (if c then s else t).swc = if c then s.swc else t.swc := apply_ite _ _ _ _

theorem applyAll_swc {α : Type} {l : List α} {g : α → State → State} (hg : ∀ x s, (g x s).swc = s.swc) (s : State) :
    (applyAll l g s).swc = s.swc :=
  applyAll_of (P := fun t => t.swc = s.swc) l g (fun x u hu => (hg x u).trans hu) s rfl

@[simp] theorem raise_swc (e : Nat) (s : State) : (raise e s).swc = s.swc := by rw [(raise_frame e s).1]

@[simp] theorem raiseOnce_swc (e inst : Nat) (s : State) : (raiseOnce e inst s).swc = s.swc := by rw [(raiseOnce_frame e inst s).1]

theorem poolReturn_swc (s : State) : (poolReturn s).swc = s.swc := by simp [poolReturn, ite_swc]

theorem freePage_swc (p : Nat) (s : State) : (freePage p s).swc = s.swc := by simp [freePage, ite_swc, poolReturn_swc]

@[simp] theorem freePages_swc (l : List Nat) (s : State) : (freePages l s).swc = s.swc := applyAll_swc freePage_swc s

@[simp] theorem sharePages_swc (l : List Nat) (n : Nat) (s : State) : (sharePages l n s).swc = s.swc := by
  unfold sharePages
  exact applyAll_swc (by simp) s

@[simp] theorem dropReplica_swc (r : Replica) (s : State) : (dropReplica r s).swc = s.swc := freePages_swc _ s

theorem pinIn_swc (lid : Nat) (s : State) : (pinIn lid s).swc = s.swc := by
  unfold pinIn
  split
  · rfl
  · split <;> rfl

theorem contextFault_swc (lid : Nat) (s : State) : (contextFault lid s).swc = s.swc := by
  have hpage (t : State) : (pageIn lid t).swc = t.swc := rfl
  unfold contextFault
  simp only [ite_swc, pinIn_swc, hpage]
  split
  · rfl
  · split
    · rfl
    · split
      · rfl
      · split
        · rfl
        · simp [ite_swc, setLodger]

@[simp] theorem releaseItem_swc (lid : Nat) (w : ItemWork) (s : State) : (releaseItem lid w s).swc = s.swc := by
  unfold releaseItem
  split <;> simp [ite_swc, countDrop, contextFault_swc, setLodger]

theorem twr_swc (a : Nat) (b : List Byte) (s : State) : (twr a b s).swc = s.swc := by
  induction b generalizing a s with
  | nil => rfl
  | cons x r ih => exact ih _ _

@[simp] theorem entWr_swc (t i : Nat) (b : List Byte) (s : State) : (entWr t i b s).swc = s.swc := twr_swc _ _ s

@[simp] theorem storeFrame_swc (l : List Nat) (b : List Byte) (s : State) : (storeFrame l b s).swc = s.swc := by
  induction l generalizing b s with
  | nil => rfl
  | cons p r ih => rw [storeFrame, ih, wrBytes_eq]

theorem shadowPlace_swc (e : List Byte) (s : State) : (shadowPlace e s).2.swc = s.swc := by
  unfold shadowPlace
  dsimp only
  split
  · simp
  · split <;> simp

theorem shadowDrop_swc (key : List Byte) (s : State) : (shadowDrop key s).swc = s.swc := by
  unfold shadowDrop
  split <;> simp

theorem shadowMade_swc (e : List Byte) (s : State) : (shadowMade e s).swc = s.swc := by
  simp [shadowMade, ite_swc, shadowPlace_swc]

theorem l2Put_swc (i : Nat) (e : List Byte) (s : State) : (l2Put i e s).swc = s.swc := by
  simp [l2Put, ite_swc, shadowDrop_swc, shadowMade_swc]

theorem learnQueue_swc (r : LearnReq) (s : State) : (learnQueue r s).swc = s.swc := by simp [learnQueue, ite_swc]

@[simp] theorem learnMeet_swc (mac : List Byte) (vid port : Nat) (s : State) : (learnMeet mac vid port s).swc = s.swc := by
  unfold learnMeet
  dsimp only
  split
  · rfl
  · split <;> simp [ite_swc, l2Put_swc, learnQueue_swc]

@[simp] theorem police_swc (i charge : Nat) (s : State) : (police i charge s).2.swc = s.swc := by
  unfold police
  dsimp only
  split
  · simp
  · split
    · simp
    · split <;> simp

@[simp] theorem settleCharge_swc (i : Inflight) (s : State) : (settleCharge i s).swc = s.swc := by
  unfold settleCharge
  split
  · simp [policeSettle, ite_swc]
  · rfl

@[simp] theorem ethCount_swc (p i : Nat) (s : State) : (ethCount p i s).swc = s.swc := by simp [ethCount, ite_swc]

@[simp] theorem refreshHold_swc (p : Nat) (s : State) : (refreshHold p s).swc = s.swc := by simp [refreshHold, ite_swc]

/-- Only the credits of the classes and their time change. -/
theorem creditUpdate_swc (p : Nat) (s : State) : ∃ x a, (creditUpdate p s).swc = { s.swc with credit := x, creditAt := a } := by
  unfold creditUpdate
  split
  · exact ⟨_, _, rfl⟩
  · extract_lets now dt put s1
    have hs1 : ∃ x, s1.swc = { s.swc with credit := x } := by
      refine applyAll_of (P := fun t => ∃ x, t.swc = { s.swc with credit := x }) _ put (fun c u hu => ?_) s ⟨_, rfl⟩
      obtain ⟨x, hx⟩ := hu
      exact ⟨_, congrArg (fun w : SwcState => { w with credit := tabPut 0 u.swc.credit (p * 8 + c) (creditAfter p c dt s) }) hx⟩
    clear_value s1
    obtain ⟨x, hx⟩ := hs1
    exact ⟨x, tabPut 0 s1.swc.creditAt p now, congrArg (fun w : SwcState => { w with creditAt := tabPut 0 s1.swc.creditAt p now }) hx⟩
/-! ## Frames in flight and frames sent -/

/-- What the ports send: the replicas being sent, and the count of the frames sent from each port. -/
def sent (s : State) : List (Nat × Replica) × (Nat → Nat) := (s.swc.sending, fun p => swCnt p cTxfrm s)

/-- The frames that are on their way through the part: those in flight at the ports of entry, and what the ports send. -/
def onTheWay (s : State) : List (Nat × Inflight) × List (Nat × Replica) × (Nat → Nat) := (s.swc.inflight, sent s)

theorem sent_of_swc {s t : State} (h : t.swc = s.swc) : sent t = sent s := by simp only [sent, swCnt, h]

theorem onTheWay_of_swc {s t : State} (h : t.swc = s.swc) : onTheWay t = onTheWay s := by rw [onTheWay, h, sent_of_swc h, onTheWay]

theorem onTheWay_ite (c : Prop) [Decidable c] (s t : State) : onTheWay (if c then s else t) = if c then onTheWay s else onTheWay t :=
  apply_ite _ _ _ _

theorem onTheWay_applyAll {α : Type} {l : List α} {g : α → State → State} (hg : ∀ x s, onTheWay (g x s) = onTheWay s) (s : State) :
    onTheWay (applyAll l g s) = onTheWay s :=
  applyAll_of (P := fun t => onTheWay t = onTheWay s) l g (fun x u hu => (hg x u).trans hu) s rfl

/-- A counter of another kind than the frames sent. -/
theorem sent_swBump {i : Nat} (hi : i % 16 ≠ cTxfrm) (p n : Nat) (s : State) : sent (swBump p i n s) = sent s := by
  have hcnt (q : Nat) : swCnt q cTxfrm (swBump p i n s) = swCnt q cTxfrm s :=
    tabGet_tabPut_ne 0 0 s.swc.cnts _ (by unfold cTxfrm at hi ⊢; omega)
  simp only [sent, hcnt]
  rfl

theorem onTheWay_swBump {i : Nat} (hi : i % 16 ≠ cTxfrm) (p n : Nat) (s : State) : onTheWay (swBump p i n s) = onTheWay s :=
  congrArg (Prod.mk s.swc.inflight) (sent_swBump hi p n s)

theorem onTheWay_discard {i : Nat} (hi : i % 16 ≠ cTxfrm) (p : Nat) (r : Replica) (s : State) :
    onTheWay (discard p i r s) = onTheWay s :=
  (onTheWay_swBump hi p 1 _).trans (onTheWay_of_swc (dropReplica_swc r s))

theorem onTheWay_creditUpdate (p : Nat) (s : State) : onTheWay (creditUpdate p s) = onTheWay s := by
  obtain ⟨x, a, h⟩ := creditUpdate_swc p s
  simp only [onTheWay, sent, swCnt, h]

theorem onTheWay_enqueue (p : Nat) (r : Replica) (s : State) : onTheWay (enqueue p r s) = onTheWay s := by
  have hdrop (t : State) : onTheWay (dropReplica r t) = onTheWay t := onTheWay_of_swc (dropReplica_swc r t)
  unfold enqueue
  split
  · exact onTheWay_discard (by decide) _ _ _
  · exact onTheWay_discard (by decide) _ _ _
  · exact onTheWay_discard (by decide) _ _ _
  · exact hdrop s
  · exact onTheWay_discard (by decide) _ _ _
  · exact (onTheWay_of_swc (refreshHold_swc _ _)).trans (onTheWay_creditUpdate p s)

theorem onTheWay_toTranscriber (r : Replica) (s : State) : onTheWay (toTranscriber r s) = onTheWay s := by
  unfold toTranscriber
  dsimp only
  split
  · exact onTheWay_of_swc (releaseItem_swc _ _ s)
  · exact onTheWay_of_swc (dropReplica_swc r s)

theorem onTheWay_joinPlain (p : Nat) (r : Replica) (s : State) : onTheWay (joinPlain p r s) = onTheWay s := by
  simp (disch := decide) only [joinPlain, onTheWay_ite, onTheWay_toTranscriber, onTheWay_discard, onTheWay_enqueue, ite_self]

theorem onTheWay_sharePages (l : List Nat) (n : Nat) (s : State) : onTheWay (sharePages l n s) = onTheWay s :=
  onTheWay_of_swc (sharePages_swc l n s)

theorem onTheWay_joinQueue (p : Nat) (r : Replica) (s : State) : onTheWay (joinQueue p r s) = onTheWay s := by
  simp (disch := decide) only [joinQueue, onTheWay_ite, onTheWay_discard, onTheWay_joinPlain, onTheWay_sharePages, ite_self]

theorem onTheWay_mapQueued (pages : List Nat) (g : Replica → Option Replica) (s : State) : onTheWay (mapQueued pages g s) = onTheWay s :=
  onTheWay_applyAll (fun _ t => onTheWay_applyAll (fun r u => onTheWay_of_swc (dropReplica_swc r u)) (setQueue _ _ t)) s

/-- An effect under an older generation (R174) begins and ends with the frames on their way as in force. -/
theorem onTheWay_underGen {Q : List (Nat × Inflight) × List (Nat × Replica) × (Nat → Nat) → Prop} {ctx : Bool} {gen : Nat}
    {g : State → State} {s : State} (hg : ∀ u, onTheWay u = onTheWay s → Q (onTheWay (g u))) : Q (onTheWay (underGen ctx gen g s)) := by
  unfold underGen
  split
  · exact hg s rfl
  · split
    · exact hg s rfl
    · exact hg _ rfl

/-! ## The stages of the pipeline send nothing -/

theorem sent_of_onTheWay {s t : State} (h : onTheWay t = onTheWay s) : sent t = sent s := congrArg Prod.snd h

theorem sent_ite (c : Prop) [Decidable c] (s t : State) : sent (if c then s else t) = if c then sent s else sent t := apply_ite _ _ _ _

theorem sent_of_pair {α : Type} {v : List (Nat × Replica) × (Nat → Nat)} {x : α × State} {a : α} {t : State} (h : sent x.2 = v)
    (hx : x = (a, t)) : sent t = v := by
  rwa [hx] at h

theorem sent_applyAll {α : Type} {l : List α} {g : α → State → State} (hg : ∀ x s, sent (g x s) = sent s) (s : State) :
    sent (applyAll l g s) = sent s :=
  applyAll_of (P := fun t => sent t = sent s) l g (fun x u hu => (hg x u).trans hu) s rfl

theorem sent_sharePages (l : List Nat) (n : Nat) (s : State) : sent (sharePages l n s) = sent s := sent_of_swc (sharePages_swc l n s)

theorem sent_storeFrame (l : List Nat) (b : List Byte) (s : State) : sent (storeFrame l b s) = sent s := sent_of_swc (storeFrame_swc l b s)

theorem sent_releaseItem (lid : Nat) (w : ItemWork) (s : State) : sent (releaseItem lid w s) = sent s := sent_of_swc (releaseItem_swc lid w s)

theorem sent_police (i charge : Nat) (s : State) : sent (police i charge s).2 = sent s := sent_of_swc (police_swc i charge s)

theorem sent_freePages (l : List Nat) (s : State) : sent (freePages l s) = sent s := sent_of_swc (freePages_swc l s)

theorem sent_setInflight (p : Nat) (i : Option Inflight) (s : State) : sent (setInflight p i s) = sent s := rfl

theorem sent_setCb (sh : Nat) (c : CbStream) (s : State) : sent (setCb sh c s) = sent s := rfl

theorem sent_enqueue (p : Nat) (r : Replica) (s : State) : sent (enqueue p r s) = sent s :=
  sent_of_onTheWay (onTheWay_enqueue p r s)

theorem sent_joinPlain (p : Nat) (r : Replica) (s : State) : sent (joinPlain p r s) = sent s :=
  sent_of_onTheWay (onTheWay_joinPlain p r s)

theorem sent_joinQueue (p : Nat) (r : Replica) (s : State) : sent (joinQueue p r s) = sent s :=
  sent_of_onTheWay (onTheWay_joinQueue p r s)

theorem sent_addWaiting (p : Nat) (l : List (Nat × Replica)) (s : State) : sent (addWaiting p l s) = sent s := by
  unfold addWaiting
  split <;> rfl

theorem sent_joinCut (p : Nat) (r : Replica) (s : State) : sent (joinCut p r s) = sent s := by
  simp only [joinCut, sent_ite, sent_addWaiting, sent_enqueue, sent_sharePages, ite_self]

theorem sent_ingressCopy (w : Waybill) (arriving : Bool) (s : State) : sent (ingressCopy w arriving s) = sent s := by
  simp only [ingressCopy, sent_ite, sent_addWaiting, sent_joinPlain, sent_sharePages, ite_self]

theorem sent_flowDrop {i : Nat} (hi : i % 16 ≠ cTxfrm) (f : Flow) (s : State) : sent (flowDrop f i s) = sent s := by
  rw [flowDrop, sent_swBump hi, sent_freePages]

theorem sent_replicate (f : Flow) (encap : Option Nat) (decap arriving : Bool) (s : State) :
    sent (replicate f encap decap arriving s) = sent s := by
  unfold replicate
  extract_lets w again w1 nosub s1 s2 reps g s3 cut rest s4
  have hs1 : sent s1 = sent s := by simp (disch := decide) only [s1, sent_ite, sent_swBump, ite_self]
  have hs2 : sent s2 = sent s := by simp (disch := decide) only [s2, sent_ite, sent_swBump, hs1, ite_self]
  have hs3 : sent s3 = sent s := (sent_sharePages _ _ s2).trans hs2
  have hs4 : sent s4 = sent s := applyAll_of (P := fun t => sent t = sent s) cut _ (fun _ t h => (sent_joinCut _ _ t).trans h) s3 hs3
  have hjoined : sent (applyAll rest (fun e => joinQueue e.1 e.2) s4) = sent s :=
    applyAll_of (P := fun t => sent t = sent s) rest _ (fun _ t h => (sent_joinQueue _ _ t).trans h) s4 hs4
  simp (disch := decide) only [sent_ite, sent_freePages, sent_flowDrop, sent_addWaiting, hs2, hs4, hjoined, ite_self]

theorem sent_reframe (f : Flow) (b : List Byte) (s : State) : sent (reframe f b s).2 = sent s := by
  unfold reframe
  dsimp only
  rw [sent_storeFrame]
  split <;> rfl

theorem sent_recovery {f g : Flow} {sh : Nat} {s t : State} (h : recovery f sh s = some (g, t)) : sent t = sent s := by
  unfold recovery at h
  dsimp only at h
  split at h
  · cases h; rfl
  · split at h
    · cases h; rfl
    · simp only [Option.ite_none_right_eq_some, Option.some.injEq] at h
      obtain ⟨-, h⟩ := h
      rw [← show _ = t from congrArg Prod.snd h, ite_snd, sent_ite, sent_reframe, sent_setCb, ite_self]

theorem sent_recoveryDiscard (f : Flow) (sh : Nat) (s : State) : sent (recoveryDiscard f sh s) = sent s := by
  unfold recoveryDiscard
  split <;> rfl

theorem sent_forwardL2 (f : Flow) (arriving : Bool) (s : State) : sent (forwardL2 f arriving s) = sent s := by
  unfold forwardL2
  extract_lets w g ring s0 w1
  have hs0 : sent s0 = sent s := by simp only [s0, sent_ite, sent_of_swc (learnMeet_swc _ _ _ s), ite_self]
  split
  · rw [sent_replicate, hs0]
  · extract_lets dec w1
    split
    · rw [sent_flowDrop (by decide), hs0]
    · split
      · rw [sent_flowDrop (by decide), hs0]
      · dsimp only
        split
        · split
          · rw [sent_flowDrop (by decide), sent_recoveryDiscard, hs0]
          · next h => rw [sent_replicate, sent_recovery h, hs0]
        · rw [sent_replicate, hs0]

theorem sent_forwardTile (f : Flow) (s : State) : sent (forwardTile f s) = sent s := by
  unfold forwardTile
  dsimp only
  split
  · exact sent_replicate _ _ _ _ s
  · split
    · exact sent_flowDrop (by decide) _ s
    · exact sent_replicate _ _ _ _ s

theorem sent_forwardStage (f : Flow) (arriving : Bool) (s : State) : sent (forwardStage f arriving s) = sent s := by
  rw [forwardStage, sent_ite, sent_forwardTile, sent_forwardL2, ite_self]

theorem sent_settleLater (p i charge : Nat) (s : State) : sent (settleLater p i charge s) = sent s := by
  unfold settleLater
  split <;> rfl

theorem sent_policeStage (f : Flow) (g : GraphRec) (arriving : Bool) (s : State) :
    sent (policeStage f g arriving s).2 = sent s := by
  unfold policeStage
  dsimp only
  split <;> simp (disch := decide) only [sent_ite, sent_settleLater, sent_flowDrop, sent_police, ite_self]

theorem sent_queueItem (lid : Nat) (w : Waybill) (arriving : Bool) (s : State) :
    sent (queueItem lid w arriving s) = sent s := by
  simp only [queueItem, sent_ite, sent_addWaiting, sent_releaseItem, ite_self]

theorem sent_transcribeStage (f : Flow) (g : GraphRec) (arriving : Bool) (s : State) :
    sent (transcribeStage f g arriving s).2 = sent s := by
  unfold transcribeStage
  dsimp only
  split
  · rfl
  · simp only [ite_snd, sent_ite, sent_queueItem, sent_sharePages, ite_self]

theorem sent_runStages (l : List Nat) (f : Flow) (g : GraphRec) (arriving : Bool) (s : State) :
    sent (runStages l f g arriving s) = sent s := by
  induction l, f, g, arriving, s using runStages.induct with
  | case1 f g arriving s => rw [runStages, sent_freePages]
  | case2 r f g arriving s => exact sent_forwardStage f arriving s
  | case3 r f g arriving s f1 s1 h ih => rw [runStages, h]; exact ih.trans (sent_of_pair (sent_transcribeStage f g arriving s) h)
  | case4 r f g arriving s s1 h => rw [runStages, h]; exact sent_of_pair (sent_transcribeStage f g arriving s) h
  | case5 r f g arriving s f1 s1 h ih => rw [runStages, h]; exact ih.trans (sent_of_pair (sent_policeStage f g arriving s) h)
  | case6 r f g arriving s s1 h => rw [runStages, h]; exact sent_of_pair (sent_policeStage f g arriving s) h
  | case7 r f g arriving s h => rw [runStages, if_pos h]; rfl
  | case8 r f g arriving s h ih => rw [runStages, if_neg h, ih]
  | case9 x r f g arriving s h5 h4 h3 h2 ih => rw [runStages] <;> assumption

theorem sent_recirculate (r : Replica) (s : State) : sent (recirculate r s) = sent s := by
  simp (disch := decide) only [recirculate, sent_runStages, sent_ingressCopy, sent_swBump]

/-! ## Key loads and hardware CMAC jobs (R408 to R410, R422) -/

/-- The registers that a load and a hardware job may change: the refusal record of the store, the lanes' state, and three events. -/
def keyFields : List Fld :=
  [KST_REJLOG_why, KST_REJLOG_user, KST_REJLOG_idx, KST_REJCNT_rej, KST_REJCNT_orph, CKV_STAT_ok, CKV_FLT_lane, CKV_FLT_which, CKV_FLT_none,
    CKV_HWCNT_cnt] ++ [38, 39, 40].flatMap eventFields

theorem eventFields_subset_keyFields {e : Nat} (he : e ∈ [38, 39, 40]) : eventFields e ⊆ keyFields :=
  fun _ hf => List.mem_append_right _ (List.mem_flatMap.2 ⟨e, he, hf⟩)

/-- What a load or a hardware job leaves: the switch core, and every register but its own. -/
def KeysOnly (s t : State) : Prop := t.swc = s.swc ∧ RegsBut keyFields s t

section
variable {s t u : State}

theorem KeysOnly.refl (s : State) : KeysOnly s s := ⟨rfl, RegsBut.refl _ s⟩

/-- Stores other than the registers and the switch core's changed. -/
theorem KeysOnly.upd (h : KeysOnly s t) (hregs : u.regs = t.regs) (hswc : u.swc = t.swc) : KeysOnly s u :=
  ⟨hswc.trans h.1, h.2.of_regs hregs⟩

theorem KeysOnly.setF {f : Fld} {n : Nat} (h : KeysOnly s t) (hf : f ∈ keyFields := by simp [keyFields]) : KeysOnly s (Machine.setF f n t) :=
  ⟨h.1, h.2.setF hf n⟩

theorem KeysOnly.raise {e : Nat} (h : KeysOnly s t) (he : e ∈ [38, 39, 40] := by decide) : KeysOnly s (Machine.raise e t) :=
  ⟨(raise_swc e t).trans h.1, h.2.trans ((raise_frame e t).2.mono (eventFields_subset_keyFields he))⟩

theorem KeysOnly.raiseOnce {e inst : Nat} (h : KeysOnly s t) (he : e ∈ [38, 39, 40] := by decide) : KeysOnly s (Machine.raiseOnce e inst t) :=
  ⟨(raiseOnce_swc e inst t).trans h.1, h.2.trans ((raiseOnce_frame e inst t).2.mono (eventFields_subset_keyFields he))⟩

theorem KeysOnly.loadReject {why user idx : Nat} (h : KeysOnly s t) : KeysOnly s (Machine.loadReject why user idx t) := by
  have h1 : KeysOnly s (Machine.setF KST_REJLOG_why why (Machine.setF KST_REJLOG_user user
      (Machine.setF KST_REJLOG_idx idx (incF KST_REJCNT_rej 1 t)))) :=
    h.setF.setF.setF.setF
  unfold Machine.loadReject
  dsimp only
  split
  · exact h1.setF.raiseOnce
  · exact h1.raiseOnce

theorem KeysOnly.touchSlot {k : Nat} (h : KeysOnly s t) : KeysOnly s (Machine.touchSlot k t) := h.upd rfl rfl

theorem KeysOnly.slotFor {k : Nat} (h : KeysOnly s t) (hslot : Machine.slotFor t = some (k, u)) : KeysOnly s u := by
  unfold Machine.slotFor at hslot
  dsimp only at hslot
  split at hslot
  · have hu : (pickOf _ t).2 = u := congrArg Prod.snd (Option.some.inj hslot)
    rw [← hu]
    exact h.upd rfl rfl
  · split at hslot
    · cases hslot
    · cases hslot; exact h

theorem KeysOnly.placeKey {b : List Byte} {idx k : Nat} (h : KeysOnly s t) (hplace : Machine.placeKey b idx t = .inr (k, u)) : KeysOnly s u := by
  unfold Machine.placeKey at hplace
  split at hplace
  · cases hplace; exact h.touchSlot
  · split at hplace
    · cases hplace
    · split at hplace
      · cases hplace
      · split at hplace
        · cases hplace
        · next hslot => cases hplace; exact KeysOnly.touchSlot ((h.slotFor hslot).upd rfl rfl)

theorem hwLoad_keysOnly (user w need : Nat) (s : State) : KeysOnly s (hwLoad user w need s).2 := by
  unfold hwLoad
  dsimp only
  split
  · exact (KeysOnly.refl s).loadReject
  · split
    · exact (KeysOnly.refl s).loadReject
    · split
      · exact (KeysOnly.refl s).loadReject
      · next hplace => exact (KeysOnly.refl s).placeKey hplace

theorem KeysOnly.laneFault {l : Nat} (h : KeysOnly s t) : KeysOnly s (Machine.laneFault l t) := by
  have h1 : KeysOnly s (Machine.raise 40 (setB CKV_FLT_lane true (Machine.setF CKV_FLT_which l (clrF CKV_STAT_ok (2 ^ l) t)))) :=
    h.setF.setF.setF.raise
  unfold Machine.laneFault
  dsimp only
  split
  · exact h1.setF.raise
  · exact h1

theorem KeysOnly.hwRuns {n bad : Nat} (h : KeysOnly s t) : KeysOnly s (Machine.hwRuns n bad t).2 := by
  induction n generalizing bad t with
  | zero => exact h
  | succ n ih =>
    unfold Machine.hwRuns
    dsimp only
    split
    · exact h
    · split
      · exact h
      · exact ih (KeysOnly.laneFault (h.upd rfl rfl))

theorem hwCmac_keysOnly (key msg : List Byte) (bad : Nat) (s : State) : KeysOnly s (hwCmac key msg bad s).2 :=
  KeysOnly.hwRuns (KeysOnly.refl s).setF

theorem KeysOnly.of_eq {α : Type} {x : α × State} {a : α} (h : KeysOnly s x.2) (hx : x = (a, t)) : KeysOnly s t := by rwa [hx] at h

theorem KeysOnly.trans (h : KeysOnly s t) (h' : KeysOnly t u) : KeysOnly s u := ⟨h'.1.trans h.1, h.2.trans h'.2⟩

theorem authCheck_keysOnly (n j : Nat) (f : List Byte) (bad : Nat) (s : State) : KeysOnly s (authCheck n j f bad s).2 := by
  unfold authCheck
  extract_lets t m d p h
  split
  · exact KeysOnly.refl s
  · split
    · exact KeysOnly.refl s
    · split
      · exact KeysOnly.refl s
      · split
        · next hload => exact (hwLoad_keysOnly _ _ _ s).of_eq hload
        · next hload =>
          have hloaded := (hwLoad_keysOnly _ _ _ s).of_eq hload
          dsimp only
          split
          · next hmac => exact hloaded.trans ((hwCmac_keysOnly _ _ _ _).of_eq hmac)
          · next hmac =>
            have hrun := hloaded.trans ((hwCmac_keysOnly _ _ _ _).of_eq hmac)
            split
            · exact hrun.upd rfl rfl
            · exact hrun

end

/-! ## Frames of the hierarchy unit (R377, R378) -/

theorem poolTake_swc (s : State) : (poolTake s).swc = s.swc := by simp [poolTake, ite_swc]

theorem grantPage_swc (idx i : Nat) (s : State) : (grantPage idx i s).2.swc = s.swc := by
  simp only [grantPage, setF_swc, takePage, ite_swc, poolTake_swc, ite_self]

theorem takePages_swc (idx i n : Nat) (s : State) : (takePages idx i n s).2.2.swc = s.swc := by
  induction n generalizing s with
  | zero => rfl
  | succ n ih =>
    unfold takePages
    split
    · rfl
    · exact (ih _).trans (grantPage_swc idx i s)

theorem linkPages_swc (l : List Nat) (s : State) : (linkPages l s).swc = s.swc := by
  induction l, s using linkPages.induct with
  | case1 s => rfl
  | case2 s p => rfl
  | case3 s p q r ih => exact ih

theorem pagesOf_swc (w : Waybill) (tc len : Nat) (lossless : Bool) (s : State) : (pagesOf w tc len lossless s).2.2.swc = s.swc := by
  have hfill (k : Nat) (l : List Nat) (t : State) : (setFilling k l t).swc = t.swc := rfl
  unfold pagesOf
  dsimp only
  split
  · rw [freePages_swc, hfill]
  · split <;> simp only [ite_snd, ite_swc, freePages_swc, hfill, takePages_swc, ite_self]

theorem sent_enterPipeline (w : Waybill) (frame : List Byte) (arriving : Bool) (s : State) : sent (enterPipeline w frame arriving s) = sent s := by
  unfold enterPipeline
  extract_lets p g classify vid tc w1 f s0 s1 rest _
  have hs0 : sent s0 = sent s := by simp only [s0, sent_ite, sent_setInflight, ite_self]
  have hs1 : sent s1 = sent s := by
    simp (disch := decide) only [s1, sent_ingressCopy, sent_swBump, hs0]
  clear_value s1
  split
  · rw [sent_replicate, hs1]
  · split
    · rw [sent_flowDrop (by decide), hs1]
    · split
      · exact hs1
      · rw [sent_runStages, hs1]

theorem sent_enterHostel (w : Waybill) (frame : List Byte) (arriving : Bool) (pages : List Nat) (s : State) :
    sent (enterHostel w frame arriving pages s) = sent s := by
  simp only [enterHostel, sent_ite, sent_replicate, sent_ingressCopy, sent_enterPipeline, sent_storeFrame, sent_of_swc (linkPages_swc pages s),
    ite_self]

theorem sent_offerFrame (w : Waybill) (frame : List Byte) (arriving : Bool) (s : State) : sent (offerFrame w frame arriving s) = sent s := by
  have hshow (k : Nat) (l : List Held) (t : State) : sent (obufShow (setHolds k l t)) = sent t := rfl
  have hdrop (p r : Nat) (t : State) : sent (countDrop p r t) = sent t := rfl
  have hpages (w : Waybill) (tc len : Nat) (lossless : Bool) : sent (pagesOf w tc len lossless s).2.2 = sent s :=
    sent_of_swc (pagesOf_swc w tc len lossless s)
  simp only [offerFrame, sent_ite, hshow, hdrop, hpages, sent_enterHostel, ite_self]

theorem sent_hieOut (p : Nat) (boot : Bool) (f : List Byte) (s : State) : sent (hieOut p boot f s) = sent s := by
  have hemit (e : Emission) : sent (emit e s) = sent s := rfl
  simp only [hieOut, unitFrame, sent_ite, sent_offerFrame, hemit, ite_self]

theorem nextCounter_swc (s : State) : (nextCounter s).2.swc = s.swc := by
  unfold nextCounter
  dsimp only
  split <;> rfl

theorem sent_hieSend (type dst : Nat) (boot : Bool) (payload : List Byte) (s : State) : sent (hieSend type dst boot payload s) = sent s := by
  have hgo (m : State → List Byte) (t : State) :
      sent (incF HIE_TXCNT_cnt 1 (applyAll (portsTo dst t) (fun p u => hieOut p boot (m u) u) t)) = sent t :=
    sent_applyAll (fun p u => sent_hieOut p boot (m u) u) t
  unfold hieSend
  dsimp only
  split
  · exact hgo _ s
  · split
    · next h => exact sent_of_swc ((hwLoad_keysOnly _ _ _ s).of_eq h).1
    · next h =>
      have hloaded := ((hwLoad_keysOnly _ _ _ s).of_eq h).1
      split
      · next h' => exact sent_of_swc ((((hwCmac_keysOnly _ _ _ _).of_eq h').1.trans (nextCounter_swc _)).trans hloaded)
      · next h' => exact (hgo _ _).trans (sent_of_swc ((((hwCmac_keysOnly _ _ _ _).of_eq h').1.trans (nextCounter_swc _)).trans hloaded))

theorem sent_sendOut (b : List Byte) (s : State) : sent (sendOut b s) = sent s := by
  unfold sendOut
  split
  · rfl
  · split
    · rfl
    · split
      · rfl
      · exact sent_hieSend _ _ _ _ s

/-! ## Arrival and the end of a frame (R208, R213, R216) -/

section
variable {s : State}

theorem exec_frameIngress {p sfd : Nat} {frame : List Byte} (hp : p < 16) (hused : portUsed p s = true) (hlink : portLink p s = true)
    (hserve : serving s = true) (hflight : inflightOf p s = none) (hheld : arrivingHeld p s = false) (hmet : s.eth.met.testBit p = false) :
    exec (.frameIngress p frame sfd) s = .next (setMet p true (offerFrame { src := p, time := rxStamp p sfd s } frame true s)) :=
  congrArg Host.Outcome.next (onlyIf_true (by simp [hp, hused, hlink, hserve, hflight, hheld, hmet]) _ s)

theorem inflightOf_setInflight_none (p : Nat) (s : State) : inflightOf p (setInflight p none s) = none := by
  have hmap : ((tabDrop s.swc.inflight p).map fun e => (e.1, some e.2)) = tabDrop (s.swc.inflight.map fun e => (e.1, some e.2)) p := by
    simp only [tabDrop, List.filter_map]
    rfl
  exact (congrArg (tabGet none · p) hmap).trans (tabGet_tabDrop_self none _ p)

theorem onTheWay_settleCharge (i : Inflight) (s : State) : onTheWay (settleCharge i s) = onTheWay s := onTheWay_of_swc (settleCharge_swc i s)

/-- A frame in flight at a port, looked for among the frames on their way. -/
theorem inflightOf_of_onTheWay {t : State} (h : onTheWay t = onTheWay s) (p : Nat) : inflightOf p t = inflightOf p s := by
  rw [inflightOf, show t.swc.inflight = s.swc.inflight from congrArg Prod.fst h, inflightOf]

theorem inflightOf_frameStored {p : Nat} (h : (inflightOf p s).isSome = true) : inflightOf p (frameStored p s) = none := by
  obtain ⟨i, hi⟩ := Option.isSome_iff_exists.1 h
  rw [frameStored, hi]
  refine onTheWay_underGen (Q := fun c => tabGet none (c.1.map fun e => (e.1, some e.2)) p = none) fun u _ => ?_
  refine applyAll_of (P := fun t => inflightOf p t = none) i.waiting _
    (fun _ t h => (inflightOf_of_onTheWay (onTheWay_joinQueue _ _ t) p).trans h) _ ?_
  rw [inflightOf_of_onTheWay (onTheWay_mapQueued _ _ _), inflightOf_of_onTheWay (onTheWay_settleCharge i _)]
  exact inflightOf_setInflight_none p u

/-! ## The authenticate stage (R306) -/

/-- Without an old structure, every Waybill is under the structure in force (R174). -/
theorem underGen_of_not_old (ctx : Bool) (gen : Nat) (g : State → State) (hold : s.old = none) : underGen ctx gen g s = g s := by
  rw [underGen, hold]

/-- The only frame that waits at stage 2 is checked, under the structure in force. -/
theorem exec_authenticate_one (bad : Nat) {a : AuthWait} (hwait : s.swc.authq = [a]) (hold : s.old = none) :
    exec (.authenticate bad) s = .next (authOne bad a { s with swc := { s.swc with authq := [] } }) := by
  refine congrArg Host.Outcome.next ?_
  rw [hwait]
  exact underGen_of_not_old _ _ _ hold

theorem authOne_unruled (bad : Nat) {a : AuthWait} (hrule : authRule a.wb.tile (wbBytes a.wb s) s = none) :
    authOne bad a s = runStages a.stages { wb := { a.wb with authok := false }, frame := wbBytes a.wb s, marked := a.marked }
      ((graphRec a.wb.graph s).getD ⟨a.wb.graph, 0, 0, [], 0, 0, 0, 0⟩) false s := by
  unfold authOne
  dsimp only
  rw [hrule]

theorem authOne_mac {bad j : Nat} {a : AuthWait} {t : State} (hrule : authRule a.wb.tile (wbBytes a.wb s) s = some j)
    (hcheck : authCheck a.wb.tile j (wbBytes a.wb s) bad s = (.mac, t)) : authOne bad a s =
      raiseOnce 41 a.wb.tile (incF (CAN_AUTHFAIL_mac a.wb.tile) 1 (swBump 17 cAuthdrop 1 (freePages a.wb.pages t))) := by
  unfold authOne
  dsimp only
  rw [hrule]
  dsimp only
  rw [hcheck]

theorem exec_authenticate_unruled {bad : Nat} {a : AuthWait} (hwait : s.swc.authq = [a]) (hold : s.old = none)
    (hrule : authRule a.wb.tile (wbBytes a.wb s) s = none) :
    exec (.authenticate bad) s = .next (runStages a.stages { wb := { a.wb with authok := false }, frame := wbBytes a.wb s, marked := a.marked }
      ((graphRec a.wb.graph s).getD ⟨a.wb.graph, 0, 0, [], 0, 0, 0, 0⟩) false { s with swc := { s.swc with authq := [] } }) := by
  rw [exec_authenticate_one bad hwait hold]
  exact congrArg Host.Outcome.next (authOne_unruled (s := { s with swc := { s.swc with authq := [] } }) bad hrule)

/-- A register above all those that may change reads as before. -/
theorem RegsBut.getF_of_keys_lt {l : List Fld} {f : Fld} {t u : State} (b : Nat) (hf : b ≤ f.key) (hl : ∀ g ∈ l, g.key < b)
    (h : RegsBut l t u) : getF f u = getF f t :=
  h f fun g hg => ((hl g hg).trans_le hf).ne'

/-- No key, pool or event register is a tile's counter. -/
theorem getF_CAN_AUTHFAIL_mac_of_frame {n : Nat} {l : List Fld} {t u : State} (hl : ∀ g ∈ l, g.key < 0x40200000 * 32) (h : RegsBut l t u) :
    getF (CAN_AUTHFAIL_mac n) u = getF (CAN_AUTHFAIL_mac n) t :=
  h.getF_of_keys_lt (0x40200000 * 32) (by simp only [Fld.key, CAN_AUTHFAIL_mac]; omega) hl

theorem completes_authenticate_mac {bad j : Nat} {a : AuthWait} (hwait : s.swc.authq = [a]) (hold : s.old = none)
    (hrule : authRule a.wb.tile (wbBytes a.wb s) s = some j)
    (hmac : (authCheck a.wb.tile j (wbBytes a.wb s) bad { s with swc := { s.swc with authq := [] } }).1 = .mac) :
    Completes (.authenticate bad) s fun t => getF (CAN_AUTHFAIL_mac a.wb.tile) t =
      min (getF (CAN_AUTHFAIL_mac a.wb.tile) s + 1) (2 ^ (CAN_AUTHFAIL_mac a.wb.tile).width - 1) ∧ t.swc.authq = [] := by
  refine completes_of_eq (exec_authenticate_one bad hwait hold) ?_
  generalize hs0 : ({ s with swc := { s.swc with authq := [] } } : State) = s0 at hmac
  have hrule0 : authRule a.wb.tile (wbBytes a.wb s0) s0 = some j := by rw [← hs0]; exact hrule
  have hframe : wbBytes a.wb s = wbBytes a.wb s0 := by rw [← hs0]; rfl
  rw [hframe] at hmac
  have hkeys := authCheck_keysOnly a.wb.tile j (wbBytes a.wb s0) bad s0
  generalize hcheck : authCheck a.wb.tile j (wbBytes a.wb s0) bad s0 = x at hmac hkeys
  obtain ⟨result, t⟩ := x
  obtain rfl : result = .mac := hmac
  have hswc : t.swc.authq = [] := by rw [hkeys.1, ← hs0]
  have hcount : getF (CAN_AUTHFAIL_mac a.wb.tile) (swBump 17 cAuthdrop 1 (freePages a.wb.pages t)) = getF (CAN_AUTHFAIL_mac a.wb.tile) s :=
    calc getF (CAN_AUTHFAIL_mac a.wb.tile) (swBump 17 cAuthdrop 1 (freePages a.wb.pages t))
      _ = getF (CAN_AUTHFAIL_mac a.wb.tile) t := getF_CAN_AUTHFAIL_mac_of_frame (by decide) (freePages_frame a.wb.pages t).1
      _ = getF (CAN_AUTHFAIL_mac a.wb.tile) s0 := getF_CAN_AUTHFAIL_mac_of_frame (by decide) hkeys.2
      _ = getF (CAN_AUTHFAIL_mac a.wb.tile) s := by rw [← hs0]; rfl
  rw [authOne_mac hrule0 hcheck]
  refine ⟨?_, ?_⟩
  · rw [getF_CAN_AUTHFAIL_mac_of_frame (by decide) (raiseOnce_frame 41 _ _).2, incF, getF_setF_self, hcount]
    exact Nat.mod_eq_of_lt ((min_le_right _ _).trans_lt (Nat.sub_lt (by positivity) one_pos))
  · rw [raiseOnce_swc]
    exact (congrArg SwcState.authq (freePages_swc a.wb.pages t)).trans hswc

/-! ## Ends of cut-through replicas (R215) -/

theorem sendingOf_of_sent {t : State} (h : sent t = sent s) (p : Nat) : sendingOf p t = sendingOf p s := by
  rw [sendingOf, show t.swc.sending = s.swc.sending from congrArg Prod.fst h, sendingOf]

theorem sendingOf_setSending_none (p : Nat) (s : State) : sendingOf p (setSending p none s) = none := by
  simp [sendingOf, setSending, tabDrop, List.find?_eq_none]

/-- A port that has ended sending stays so when another one ends. -/
theorem sendingOf_setSending_none_of_none {p : Nat} (q : Nat) (h : sendingOf p s = none) : sendingOf p (setSending q none s) = none := by
  simp only [sendingOf, Option.map_eq_none_iff, List.find?_eq_none] at h ⊢
  exact fun e he => h e (List.mem_filter.1 he).1

theorem sent_creditUpdate (p : Nat) (s : State) : sent (creditUpdate p s) = sent s := sent_of_onTheWay (onTheWay_creditUpdate p s)

theorem sendingOf_endSpoiled (p : Nat) (s : State) : sendingOf p (endSpoiled p s) = none := by
  unfold endSpoiled
  split
  · assumption
  · exact (sendingOf_of_sent (sent_of_swc (dropReplica_swc _ _)) p).trans (sendingOf_setSending_none p _)

theorem sendingOf_endSpoiled_of_none {p : Nat} (q : Nat) (h : sendingOf p s = none) : sendingOf p (endSpoiled q s) = none := by
  unfold endSpoiled
  split
  · exact h
  · refine (sendingOf_of_sent (sent_of_swc (dropReplica_swc _ _)) p).trans (sendingOf_setSending_none_of_none q ?_)
    rw [sendingOf_of_sent (sent_creditUpdate q s), h]

theorem sendingOf_truncate (p : Nat) (s : State) : sendingOf p (truncate p s) = none := by
  rw [truncate, sendingOf_of_sent (sent_swBump (by decide) _ _ _), sendingOf_endSpoiled]

/-- A port that sends a cut-through replica of a chain is among those that send one. -/
theorem mem_sendsOf {p : Nat} {r : Replica} (hsend : sendingOf p s = some r) (hcut : r.cut = true) : p ∈ sendsOf r.wb.pages s := by
  simp only [sendingOf, Option.map_eq_some_iff] at hsend
  obtain ⟨e, he, rfl⟩ := hsend
  have hp : e.1 = p := by simpa using List.find?_some he
  rw [← hp]
  refine List.mem_map_of_mem (List.mem_filter.2 ⟨List.mem_of_find?_eq_some he, ?_⟩)
  simp [hcut]

/-- A frame that goes wrong ends at every port that sends it. -/
theorem sendingOf_abandonFrame {p : Nat} {r : Replica} (hsend : sendingOf p s = some r) (hopen : unfinished r s = true) :
    sendingOf p (abandonFrame r.wb.src s) = none := by
  unfold unfinished at hopen
  split at hopen
  case h_2 => simp at hopen
  case h_1 i hi =>
    simp only [Bool.and_eq_true, beq_iff_eq] at hopen
    obtain ⟨hcut, hpages⟩ := hopen
    rw [abandonFrame, hi]
    refine onTheWay_underGen (Q := fun c => (c.2.1.find? fun e => e.1 = p).map (·.2) = none) fun u hu => ?_
    have hsent : sendingOf p u = some r := (sendingOf_of_sent (sent_of_onTheWay hu) p).trans hsend
    have hmem : p ∈ sendsOf i.wb.pages u := hpages ▸ mem_sendsOf hsent hcut
    exact applyAll_of_mem (P := fun t => sendingOf p t = none) (g := fun q t => swBump q cCtfcs 1 (endSpoiled q t)) hmem
      (fun t => (sendingOf_of_sent (sent_swBump (by decide) _ _ _) p).trans (sendingOf_endSpoiled p t))
      (fun q t ht => (sendingOf_of_sent (sent_swBump (by decide) _ _ _) p).trans (sendingOf_endSpoiled_of_none q ht)) _

theorem cut_of_unfinished {r : Replica} (h : unfinished r s = true) : r.cut = true := by
  simp only [unfinished, Bool.and_eq_true] at h
  exact h.1

theorem completes_cutThroughEnd {p why : Nat} {r : Replica} (hsend : sendingOf p s = some r) (hp : p < 12)
    (hwhy : (why = 0 ∧ unfinished r s = true) ∨ (why = 1 ∧ truncates p r s = true) ∨
      (why = 2 ∧ unfinished r s = true ∧ r.wb.lossless = true)) :
    Completes (.cutThroughEnd p why) s fun t => sendingOf p t = none := by
  refine completes_of_eq rfl ?_
  rw [hsend]
  dsimp only
  obtain ⟨rfl, hopen⟩ | ⟨rfl, hlong⟩ | ⟨rfl, hopen, hlossless⟩ := hwhy
  · rw [if_neg (by simp [cut_of_unfinished hopen, hp]), if_neg (by decide), if_neg (by simp [hopen]), if_pos rfl]
    exact sendingOf_abandonFrame hsend hopen
  · have hcut : r.cut = true := by
      simp only [truncates, Bool.and_eq_true] at hlong
      exact hlong.1.1
    rw [if_neg (by simp [hcut, hp]), if_pos rfl, if_pos hlong]
    exact sendingOf_truncate p s
  · rw [if_neg (by simp [cut_of_unfinished hopen, hp]), if_neg (by decide), if_neg (by simp [hopen]), if_neg (by decide),
      if_pos (by simp [hlossless])]
    rw [sendingOf_of_sent (sent_of_swc (refreshHold_swc _ _)), sendingOf_of_sent (sent_swBump (by decide) _ _ _)]
    exact sendingOf_setSending_none p (creditUpdate p s)

/-! ## Recovered streams (R225) -/

theorem exec_streamResetTimeout {sh : Nat} (hsh : sh < 1024) (hen : (cbOf sh s).en = true) (htake : (cbOf sh s).takeany = false)
    (hsilent : streamSilent sh s = true) : exec (.streamResetTimeout sh) s =
      .next (setCb sh { cbOf sh s with takeany := true, resets := min ((cbOf sh s).resets + 1) (2 ^ 32 - 1) } s) :=
  congrArg Host.Outcome.next (onlyIf_true (by simp [hsh, hen, htake, hsilent]) _ s)

/-! ## Selection and the wire (R207, R220, R315) -/

theorem ptpStamp_swc (p : Nat) (f : List Byte) (s : State) : (ptpStamp p f s).swc = s.swc := by simp [ptpStamp, ite_swc]

/-- A burst changes what is on the wire, not what is sent or queued. -/
theorem burstStart_swc (p : Nat) (s : State) : ∃ m, (burstStart p s).swc = { s.swc with onWire := m } := by
  unfold burstStart
  split
  · dsimp only
    split
    · exact ⟨_, rfl⟩
    · exact ⟨_, rfl⟩
  · exact ⟨_, rfl⟩

/-- The frame's stamp, a burst's start and the holds shown change nothing of the switch core but what is on the wire. -/
theorem selected_swc (p : Nat) (out : List Byte) (s : State) :
    ∃ m, (refreshHold p (burstStart p (if p < 12 && isPtpEvent out then ptpStamp p out s else s))).swc = { s.swc with onWire := m } := by
  have hstamp : (if p < 12 && isPtpEvent out then ptpStamp p out s else s).swc = s.swc := by rw [ite_swc, ptpStamp_swc, ite_self]
  obtain ⟨m, hm⟩ := burstStart_swc p (if p < 12 && isPtpEvent out then ptpStamp p out s else s)
  exact ⟨m, by rw [refreshHold_swc, hm, hstamp]⟩

theorem completes_egressSelection {p c : Nat} {r : Replica} {q : List Replica} (hp : p < 16) (hlink : portLink p s = true)
    (hfree : sendingOf p s = none)
    (hbest : ((List.range 8).reverse.find? fun k => eligible p k (creditUpdate p s)) = some c)
    (hqueue : queueAt (queueKey p 63 c) (creditUpdate p s) = r :: q) :
    Completes (.egressSelection p) s fun t => (sendingOf p t).map (·.wb) = some r.wb ∧ queueAt (queueKey p 63 c) t = q := by
  refine completes_of_eq (congrArg Host.Outcome.next (onlyIf_true (by simp [hp, hlink, hfree]) _ s)) ?_
  dsimp only
  rw [hbest]
  dsimp only
  rw [hqueue]
  dsimp only
  generalize (if p < 16 then wireBytes p r s else wbBytes r.wb s) = out
  obtain ⟨m, hm⟩ := selected_swc p out (setSending p (some { r with out := out }) (setQueue (queueKey p 63 c) q (creditUpdate p s)))
  simp only [sendingOf, queueAt, hm]
  exact ⟨congrArg (Option.map (·.wb)) (sendingOf_setSending p _ _), queueAt_setQueue_self _ q (creditUpdate p s)⟩

theorem plcaUp_swc (p : Nat) (s : State) : (plcaUp p s).swc = s.swc := by simp [plcaUp, ite_swc]

theorem isSet_T1S_STAT_active_plcaUp (p : Nat) (s : State) : isSet (T1S_STAT_active (p - 12)) (plcaUp p s) = true := by
  unfold plcaUp
  split
  · assumption
  · rw [isSet, (raise_frame 29 _).2.getF_of_keys_lt (0x4040C000 * 32) (by simp only [Fld.key, T1S_STAT_active]; omega) (by decide), setB,
      getF_setF_ne _ _ (by simp only [Fld.key, T1S_STAT_active, T1S_EVT_act]; omega), setB, getF_setF_self]
    rfl

theorem testBit_putOnWire (p : Nat) (s : State) : (putOnWire p s).swc.onWire.testBit p = true := by
  simp [putOnWire, Nat.testBit_or, Nat.testBit_two_pow_self]

theorem completes_transmitOpportunity {p : Nat} (hlow : 12 ≤ p) (hp : p < 16) (hlive : portLive p s = true)
    (hplca : isSet (T1S_STAT_active (p - 12)) s = true ∨ getF (T1S_PLCACFG_id (p - 12)) s = 0) (hsend : (sendingOf p s).isSome = true) :
    Completes (.transmitOpportunity p) s fun t => t.swc.onWire.testBit p = true := by
  refine completes_of_eq (congrArg Host.Outcome.next (onlyIf_true (by simp [hlow, hp, hlive]) _ s)) ?_
  extract_lets s1
  have hactive : isSet (T1S_STAT_active (p - 12)) s1 = true := by
    unfold s1
    split
    · exact isSet_T1S_STAT_active_plcaUp p s
    · next hid => exact hplca.resolve_right hid
  have hkept : s1.swc = s.swc := by
    have hbeacon : (beacon p s).swc = s.swc := plcaUp_swc p s
    rw [show s1 = _ from rfl, ite_swc, hbeacon, ite_self]
  clear_value s1
  rw [if_neg (by simp [hactive]), if_pos]
  · exact testBit_putOnWire p _
  · rw [← hsend]
    exact congrArg Option.isSome (sendingOf_of_sent (sent_of_swc hkept) p)

/-! ## A replica sent to its end (R217) -/

/-- What happens to the replica afterwards changes nothing that the ports send. -/
theorem sent_replicaSent (p : Nat) (r : Replica) (s : State) :
    sent (replicaSent p r s) = sent (swBump p cTxfrm 1 (setSending p none (creditUpdate p s))) := by
  unfold replicaSent
  extract_lets s1 _ s2
  have hs1 : sent s1 = sent (swBump p cTxfrm 1 (setSending p none (creditUpdate p s))) := sent_swBump (by decide) p r.wb.len _
  clear_value s1
  have hs2 : sent s2 = sent s1 := rfl
  clear_value s2
  rw [← hs1, ← hs2]
  split
  · exact sent_recirculate r s2
  · split
    · split
      · exact sent_of_swc (dropReplica_swc r s2)
      · exact sent_of_swc (dropReplica_swc r s2)
    · split
      · exact sent_of_swc ((ethCount_swc p 7 _).trans (dropReplica_swc r s2))
      · split
        · exact sent_of_swc ((ethCount_swc p 7 _).trans (dropReplica_swc r s2))
        · exact sent_of_swc (dropReplica_swc r s2)

theorem sendingOf_replicaSent (p : Nat) (r : Replica) (s : State) : sendingOf p (replicaSent p r s) = none :=
  (sendingOf_of_sent (sent_replicaSent p r s) p).trans (sendingOf_setSending_none p (creditUpdate p s))

theorem swCnt_of_sent {t : State} (h : sent t = sent s) (p : Nat) : swCnt p cTxfrm t = swCnt p cTxfrm s := congrFun (congrArg Prod.snd h) p

theorem swCnt_swBump_self (p i n : Nat) (s : State) : swCnt p i (swBump p i n s) = (swCnt p i s + n) % 2 ^ 64 := tabGet_tabPut_self 0 _ _ _

theorem swCnt_replicaSent (p : Nat) (r : Replica) (s : State) : swCnt p cTxfrm (replicaSent p r s) = (swCnt p cTxfrm s + 1) % 2 ^ 64 :=
  calc swCnt p cTxfrm (replicaSent p r s)
    _ = swCnt p cTxfrm (swBump p cTxfrm 1 (setSending p none (creditUpdate p s))) := swCnt_of_sent (sent_replicaSent p r s) p
    _ = (swCnt p cTxfrm (creditUpdate p s) + 1) % 2 ^ 64 := swCnt_swBump_self p cTxfrm 1 _
    _ = (swCnt p cTxfrm s + 1) % 2 ^ 64 := by rw [swCnt_of_sent (sent_creditUpdate p s)]

theorem completes_transmitDone {p : Nat} {r : Replica} (hsend : sendingOf p s = some r)
    (hwire : 12 ≤ p → p < 16 → s.swc.onWire.testBit p = true) (hwhole : unfinished r s = false) :
    Completes (.transmitDone p) s fun t => sendingOf p t = none ∧
      (p < 16 → truncates p r s = false → swCnt p cTxfrm t = (swCnt p cTxfrm s + 1) % 2 ^ 64) := by
  refine completes_of_eq rfl ?_
  dsimp only
  have hout : sent (applyAll (transmitDone p s).hie.out sendOut { transmitDone p s with hie := { (transmitDone p s).hie with out := [] } }) =
      sent (transmitDone p s) := sent_applyAll sent_sendOut _
  rw [sendingOf_of_sent hout, swCnt_of_sent hout]
  have hdone : transmitDone p s = if truncates p r s then truncate p s else replicaSent p r s := by
    have hready : ((12 ≤ p && p < 16 && !s.swc.onWire.testBit p) || unfinished r s) = false := by
      simpa [hwhole] using hwire
    unfold transmitDone
    rw [hsend]
    dsimp only
    rw [hready, if_neg Bool.false_ne_true]
  rw [hdone]
  split
  · next hlong => exact ⟨sendingOf_truncate p s, fun _ h => absurd hlong (by simp [h])⟩
  · exact ⟨sendingOf_replicaSent p r s, fun _ _ => swCnt_replicaSent p r s⟩

/-! ## Gate lists (R222, R224) -/

theorem gateOf_of_swc {t : State} (h : t.swc = s.swc) (p : Nat) : gateOf p t = gateOf p s := by rw [gateOf, h, gateOf]

theorem queueAt_of_swc {t : State} (h : t.swc = s.swc) (k : Nat) : queueAt k t = queueAt k s := by rw [queueAt, h, queueAt]

theorem gateOf_setGate_self (p : Nat) (g : GateState) (s : State) : gateOf p (setGate p g s) = g :=
  tabGet_tabPut_self (α := GateState) {} s.swc.gates p g

theorem gateOf_creditUpdate (p q : Nat) (s : State) : gateOf p (creditUpdate q s) = gateOf p s := by
  obtain ⟨x, a, h⟩ := creditUpdate_swc q s
  rw [gateOf, h, gateOf]

theorem queueAt_creditUpdate (k q : Nat) (s : State) : queueAt k (creditUpdate q s) = queueAt k s := by
  obtain ⟨x, a, h⟩ := creditUpdate_swc q s
  rw [queueAt, h, queueAt]

theorem getF_refreshHold {f : Fld} {p : Nat} (hf : f.key ≠ (SWC_GSTAT_hold p).key) (s : State) : getF f (refreshHold p s) = getF f s :=
  (refreshHold_frame (l := [SWC_GSTAT_hold p]) (fun _ => List.mem_singleton_self _) s).1 f (by simpa using hf)

theorem showGates_swc (p : Nat) (s : State) : (showGates p s).swc = s.swc := rfl

theorem showOper_swc (p : Nat) (l : List (Nat × Nat)) (s : State) : (showOper p l s).swc = s.swc := by
  unfold showOper
  exact applyAll_swc (fun _ _ => setF_swc _ _ _) s

theorem getF_SWC_GSTAT_entry_showGates (p : Nat) (s : State) :
    getF (SWC_GSTAT_entry p) (refreshHold p (showGates p s)) = (gateOf p s).idx % 2 ^ (SWC_GSTAT_entry p).width := by
  rw [getF_refreshHold (by simp only [Fld.key, SWC_GSTAT_entry, SWC_GSTAT_hold]; omega), showGates,
    getF_setF_ne _ _ (by simp only [Fld.key, SWC_GSTAT_entry, SWC_GSTAT_gates]; omega), getF_setF_self]

theorem completes_gateEntryChange {p : Nat} (hon : gatesOn p s = true) (hnext : (gateOf p s).idx + 1 < (gateOf p s).oper.run.length) :
    Completes (.gateEntryChange p) s fun t => (gateOf p t).idx = (gateOf p s).idx + 1 ∧
      getF (SWC_GSTAT_entry p) t = ((gateOf p s).idx + 1) % 2 ^ (SWC_GSTAT_entry p).width := by
  refine completes_of_eq (congrArg Host.Outcome.next (onlyIf_true hon _ s)) ?_
  dsimp only
  rw [gateOf_creditUpdate, if_pos hnext]
  exact ⟨by rw [gateOf_of_swc (refreshHold_swc p _), gateOf_of_swc (showGates_swc p _), gateOf_setGate_self],
    by rw [getF_SWC_GSTAT_entry_showGates, gateOf_setGate_self]⟩

/-- The operational entries shown are other registers than the port's gate status. -/
theorem isSet_SWC_GSTAT_pend_showOper {p : Nat} (l : List (Nat × Nat)) (h : isSet (SWC_GSTAT_pend p) s = false) :
    isSet (SWC_GSTAT_pend p) (showOper p l s) = false := by
  refine applyAll_of (P := fun t => isSet (SWC_GSTAT_pend p) t = false) _ _ (fun j t ht => ?_) s h
  rwa [isSet_setF_ne _ _ (by simp only [Fld.key, SWC_GSTAT_pend, SWC_GOPR_entry]; omega)]

theorem isSet_SWC_GSTAT_pend_showGates (p : Nat) (s : State) :
    isSet (SWC_GSTAT_pend p) (refreshHold p (showGates p s)) = isSet (SWC_GSTAT_pend p) s := by
  rw [isSet, getF_refreshHold (by simp only [Fld.key, SWC_GSTAT_pend, SWC_GSTAT_hold]; omega), showGates,
    getF_setF_ne _ _ (by simp only [Fld.key, SWC_GSTAT_pend, SWC_GSTAT_gates]; omega),
    getF_setF_ne _ _ (by simp only [Fld.key, SWC_GSTAT_pend, SWC_GSTAT_entry]; omega), isSet]

theorem completes_gateConfigChange {p : Nat} {a : GateList} (hadmin : (gateOf p s).admin = some a) :
    Completes (.gateConfigChange p) s fun t => (gateOf p t).oper = a ∧ (gateOf p t).idx = 0 ∧ (gateOf p t).admin = none ∧
      isSet (SWC_GSTAT_pend p) t = false := by
  refine completes_of_eq rfl ?_
  rw [hadmin]
  dsimp only
  generalize countCycles p (creditUpdate p s) = s1
  rw [gateOf_of_swc (refreshHold_swc p _), gateOf_of_swc (showGates_swc p _), gateOf_of_swc (showOper_swc p _ _), setB,
    gateOf_of_swc (setF_swc _ _ _), gateOf_setGate_self, isSet_SWC_GSTAT_pend_showGates]
  exact ⟨rfl, rfl, rfl, isSet_SWC_GSTAT_pend_showOper a.entries (isSet_setF_self _ _ _)⟩

theorem discard_queueAt (k p i : Nat) (r : Replica) (s : State) : queueAt k (discard p i r s) = queueAt k s :=
  queueAt_of_swc (t := dropReplica r s) (dropReplica_swc r s) k

theorem completes_gateHoldDiscard {p c : Nat} {r : Replica} {q : List Replica} (hon : gatesOn p s = true) (hc : c < 8)
    (hqueue : queueAt (queueKey p 63 c) s = r :: q) (hover : holdOver p c r s = true) :
    Completes (.gateHoldDiscard p c) s fun t => queueAt (queueKey p 63 c) t = q ∧
      getF (SWC_GATEDROP_cnt p) t = min (getF (SWC_GATEDROP_cnt p) s + 1) (2 ^ (SWC_GATEDROP_cnt p).width - 1) := by
  have hexec : exec (.gateHoldDiscard p c) s = .next (refreshHold p (creditUpdate p (raise 30 (incF (SWC_GATEDROP_cnt p) 1
      (discard p cGatedrop r (setQueue (queueKey p 63 c) q (creditUpdate p s))))))) := by
    refine congrArg Host.Outcome.next ((onlyIf_true (by simp [hon, hc]) _ s).trans ?_)
    dsimp only
    rw [hqueue]
    dsimp only
    rw [hover]
    rfl
  have hkey : 0x40070000 * 32 ≤ (SWC_GATEDROP_cnt p).key := by simp only [Fld.key, SWC_GATEDROP_cnt]; omega
  have hcount : getF (SWC_GATEDROP_cnt p) (discard p cGatedrop r (setQueue (queueKey p 63 c) q (creditUpdate p s))) = getF (SWC_GATEDROP_cnt p) s :=
    ((freePages_frame (r.wb.pages.drop r.read) _).1.getF_of_keys_lt _ hkey (by decide)).trans
      ((creditUpdate_frame p s).1 _ fun _ h => absurd h List.not_mem_nil)
  refine completes_of_eq hexec ⟨?_, ?_⟩
  · rw [queueAt_of_swc (refreshHold_swc p _), queueAt_creditUpdate, queueAt_of_swc (raise_swc 30 _), incF, queueAt_of_swc (setF_swc _ _ _),
      discard_queueAt, queueAt_setQueue_self]
  · rw [getF_refreshHold (by simp only [Fld.key, SWC_GATEDROP_cnt, SWC_GSTAT_hold]; omega),
      (creditUpdate_frame p _).1 _ fun _ h => absurd h List.not_mem_nil, (raise_frame 30 _).2.getF_of_keys_lt _ hkey (by decide), incF,
      getF_setF_self, hcount]
    exact Nat.mod_eq_of_lt ((min_le_right _ _).trans_lt (Nat.sub_lt (by positivity) one_pos))

end

/-- Settles O27: one lemma for each command. -/
theorem switchCommandsComplete : Obligations.SwitchCommandsComplete := by
  unfold Obligations.SwitchCommandsComplete
  exact ⟨
    fun p frame sfd s hp hused hlink hserve hflight hheld hmet => exec_frameIngress hp hused hlink hserve hflight hheld hmet,
    fun p s h => completes_of_eq rfl (inflightOf_frameStored h),
    fun bad a s hwait hold hrule => exec_authenticate_unruled hwait hold hrule,
    fun bad j a s hwait hold _ hrule hmac => completes_authenticate_mac hwait hold hrule hmac,
    fun p why r s hsend hp hwhy => completes_cutThroughEnd hsend hp hwhy,
    fun s => rfl,
    fun sh s hsh hen htake hsilent => exec_streamResetTimeout hsh hen htake hsilent,
    fun p c r q s hp hlink hfree hbest hqueue => completes_egressSelection hp hlink hfree hbest hqueue,
    fun p s hlow hp hlive hplca hsend => completes_transmitOpportunity hlow hp hlive hplca hsend,
    fun p r s hsend hwire hwhole => completes_transmitDone hsend hwire hwhole,
    fun p s hon hnext => completes_gateEntryChange hon hnext,
    fun p a s _ hadmin => completes_gateConfigChange hadmin,
    fun p c r q s hon hc hqueue hover => completes_gateHoldDiscard hon hc hqueue hover⟩

end Sys2Proof.Machine
